-- ==== Sys2Proof/Word.lean ====
section
/-! DEFINITION. The words, bytes, unit numbers and plain data shapes that commands and state are made of. -/

namespace Sys2Proof

/-- A byte of device memory. -/
abbrev Byte := BitVec 8

/-- A 32-bit register or descriptor word (R3, R4). -/
abbrev Word := BitVec 32

/-- Sparse data by key: keys strictly rising, no entry equal to what an unlisted key reads as
(`Sys2Proof.Machine.Table.wf` says so). -/
abbrev Table (α : Type) := List (Nat × α)

/-- A compute die, dy·4 + dx (R11). -/
abbrev Die := Fin 16

/-- A bay of the package, die·64 + by·8 + bx (R11); also the number of its vector tile, stream engine and sequencer. -/
abbrev Bay := Fin 1024

/-- A matrix tile of the package, die·512 + bay·8 + tile (R11). -/
abbrev Tile := Fin 8192

/-- A quadrant of a matrix tile (R48); 0 stands for the whole array in full mode. -/
abbrev Quad := Fin 4

/-- A quarter of the package, die·4 + qy·2 + qx (R12). -/
abbrev Quarter := Fin 64

/-- An edge die: 0 north, 1 east, 2 south, 3 west. -/
abbrev Edge := Fin 4

/-- An LPDDR5X channel; edge die e serves e·16 to e·16 + 15 (R14). -/
abbrev Dram := Fin 64

/-- A fabric lane; edge die e serves e·12 to e·12 + 11, lane l belongs to port l / 4 (R14). -/
abbrev Lane := Fin 48

/-- A fabric port (R14). -/
abbrev Port := Fin 12

/-- A PCIe function. -/
abbrev Func := Fin 64

/-- A channel of a bay's stream engine. -/
abbrev Channel := Fin 16

/-- One thing the error check of a protected memory finds in a word of an access: the outside world's part of a read (R57,
R61, R94, R252). A command carries the list of what its accesses find; a finding that lies in no word of an access
concerns nothing. -/
inductive Ecc where
  /-- a single-bit error, corrected; the offset or entry it was met at -/
  | corrected (at_ : Nat)
  /-- an uncorrectable error; the offset or entry it was met at -/
  | uncorrectable (at_ : Nat)
  deriving DecidableEq, Repr

/-- What a memory access meets that only the hardware can tell: the error check of the stored data, link ECC corrections,
the check chunk that leaves a full check cache, and the service time of a Ristretto request in ns (R252, R259, R265). -/
structure MemFind where
  ecc : List Ecc
  link : Nat
  evict : Option Nat
  ns : Nat
  deriving DecidableEq, Repr

/-- A copy of a multicast: the bay whose target it reaches, and the cycles after which its answer comes (R243, R245). -/
structure CopyFind where
  bay : Bay
  lat : Nat
  deriving DecidableEq, Repr

/-- What an answer met on its way: its cycles, and the ports at which a Ristretto packet waited for a token and how long
(R236, R245). -/
structure WayFind where
  lat : Nat
  shaped : List (Fin 1024 × Nat)
  deriving DecidableEq, Repr

/-- A flit at a crossing: the station there sends it, not the router; it is itself a replay (R234). -/
structure FlitFind where
  station : Bool
  again : Bool
  deriving DecidableEq, Repr

/-- A bank of a channel: the upper rank or the lower, and the bank in it (R256). -/
structure RankBank where
  rank : Bool
  bank : Fin 16
  deriving DecidableEq, Repr

/-- An access that meets nothing. -/
def MemFind.clean : MemFind := ⟨[], 0, none, 0⟩

/-- What a request of a class meets: a service time is a Ristretto request's (R265). -/
def MemFind.of (m : MemFind) (cls : Nat) : MemFind := if cls = 0 then m else { m with ns := 0 }

/-- What is left of what an access meets once its first part is done. -/
def MemFind.rest (m : MemFind) : MemFind := { m with link := 0, ns := 0 }

/-- Where a finding lies. -/
def Ecc.place : Ecc → Nat
  | .corrected a => a
  | .uncorrectable a => a

/-- A finding is uncorrectable. -/
def Ecc.bad : Ecc → Bool
  | .corrected _ => false
  | .uncorrectable _ => true

/-- A record as user logic pushes it (R186); its words field is the length of its bytes. -/
structure PortPush where
  dst : Nat
  addr : Nat
  channel : Nat
  done : Bool
  bytes : List Byte
  deriving DecidableEq, Repr

/-- What a PCI Express configuration request asks: the number of virtual functions SR-IOV enables (R316), MSI-X enable and
function mask, a write of a vector of the MSI-X table (R333), the size 2^(30 + n) of BAR4 of a physical function or of its
virtual functions (R314, R317), or anything else. -/
inductive ConfigRequest where
  | other
  | virtualFunctions (n : Nat)
  | msix (on mask : Bool)
  | vector (v : Fin 1040) (addr : BitVec 64) (data : Word) (masked : Bool)
  | bar4Size (ofVirtual : Bool) (n : Fin 15)
  deriving DecidableEq, Repr

/-- A place on the tile network: a mesh router, or an edge die, whose stations are chosen by R232. -/
inductive NocPlace where
  | router (r : Fin 1024)
  | edge (e : Edge)
  deriving DecidableEq, Repr

/-- A request packet (R230): its initiator and target, and its header fields. -/
structure NocPacket where
  src : NocPlace
  srcEp : Fin 32
  tag : Fin 1024
  dst : NocPlace
  dstEp : Fin 32
  cls : Fin 4
  type : Fin 16
  addr : Nat
  bytes : Nat
  atomicOp : Fin 16
  payload : List Byte
  deriving DecidableEq, Repr

/-- A global request as it reaches its home edge (R271, R279). -/
structure GlobalRequest where
  src : NocPlace
  srcEp : Fin 32
  tag : Fin 1024
  cls : Fin 4
  op : Fin 16
  atomicOp : Fin 16
  gaddr : BitVec 64
  bytes : Nat
  payload : List Byte
  deriving DecidableEq, Repr

/-- What a request to BAR4 that is not a read brings: the bytes of a write, or an atomic operation with its operands (R318). -/
structure BarStore where
  bytes : List Byte
  atomic : Bool
  deriving DecidableEq, Repr

/-- What a read of host memory brings: its bytes, none where it completes with an error, and the PCIe replays since replays were last
counted (R323, R335). -/
structure HostFetch where
  data : Option (List Byte)
  replays : Nat
  deriving DecidableEq, Repr

/-- What the line brings with a codeword (R294, R298): whether the RS decoder could correct it, its 514 message symbols as
corrected, RS symbols corrected on each lane, and stuff violations on each lane. -/
structure CodewordFind where
  good : Bool
  symbols : List Nat
  fixed : List Nat
  viol : List Nat
  deriving DecidableEq, Repr

/-- What a lane finds where it expects a marker (R297, R309). -/
inductive MarkerFind where
  | good
  | idle
  | bad
  deriving DecidableEq, Repr

/-- Who accesses a mailbox endpoint as its owner (R350, R353): a control core, the host through function 0 in BAR0, or a
function on its own page. -/
inductive MailboxOwner where
  | core
  | host
  | function (f : Func)
  deriving DecidableEq, Repr

/-- What a reset or a loss of power cuts short: nothing, a field fuse write (R369), or a transfer of ownership at its first
step, whose position verifies or not (R391). -/
inductive Cut where
  | clean
  | fieldFuse
  | owner (good : Bool)
  deriving DecidableEq, Repr

/-- What Ryhal non-volatile storage holds under a seal (R383). -/
inductive Sealed where
  | ock | uak
  /-- the signer public keys of a slot code -/
  | signer (slot : Nat)
  | counters
  /-- the firmware image of a type in a bank -/
  | image (b : Fin 2) (type : Fin 3)
  deriving DecidableEq, Repr

/-- What a phase of bring-up finds (R360 to R367, R384). Lists of another phase than the current one have no use. -/
structure PhaseFind where
  /-- time since the release of PERST# -/
  us : Nat
  /-- phase 1: the power-on self-tests: 0 pass, 1 a failure, 2 an entropy failure -/
  selfTest : Nat
  /-- phase 2: dies that did not answer, 0–15 compute and 16–19 edge -/
  unreach : List Nat
  /-- phase 2: routers that need bypass, and dead routers -/
  bypass : List (Fin 1024)
  dead : List (Fin 1024)
  /-- phase 2: the fused voltage bin of each die's tile core rail: 0.65 V and this many steps of 10 mV (R18, R412) -/
  vtile : List (Fin 21)
  /-- phases 3 to 5: units that fail their test, as entries of R365 -/
  units : List Nat
  /-- phase 3: slices whose test has not finished; whether a channel's check has not -/
  slices : List Bay
  chansLate : Bool
  /-- phase 5: bays that took no firmware after three retries, and the retries of each die -/
  lost : List Bay
  retries : List Nat
  /-- ready point: links whose downstream port has enabled the Device Readiness Status message (R319) -/
  drs : List (Fin 2)
  /-- phases 2, 3 and 5: the signatures of their tests, by block number (R377) -/
  sigs : List (Nat × BitVec 64)
  /-- phase 1: items whose sealed text storage does not give back as it was written, and the text it gives: initialisation
  vector, ciphertext, tag (R383) -/
  seals : List (Sealed × List Byte)
  deriving DecidableEq, Repr

/-- What a commanded test finds (R374, R377): signatures by block number, mismatched blocks (with true for memory BIST), and
failing crema rows, (die·64 + bay)·1,536 + row. -/
structure BistFind where
  us : Nat
  sigs : List (Nat × BitVec 64)
  bad : List (Nat × Bool)
  rows : List Nat
  deriving DecidableEq, Repr

/-- How a service request is authenticated (R379). -/
inductive Credential where
  | none
  | user (mac : List Byte)
  | officer (ed ml : List Byte)
  deriving DecidableEq, Repr

/-- What a telemetry record measures over its millisecond (R420); powers in 0.1 W. -/
structure Measured where
  iin : BitVec 16
  vin : BitVec 16
  peak : BitVec 16
  average : BitVec 16
  diePeak : List (BitVec 16)
  dieAverage : List (BitVec 16)
  share : List (BitVec 8)
  undelivered : List Nat
  edgeAverage : List (BitVec 16)
  mr4 : List (BitVec 8)
  deriving DecidableEq, Repr

/-- A block of registers: those of the BAR0 map (R8), the pages of BAR2 (R339), and the blocks that only firmware
reaches, on the tile network (R73, R116, R144). -/
inductive Block where
  | hif | mbx | ctl | sec | rtc | pwr | tst | twn | fpl
  | noc (router : Nat)
  | seq (d : Die) | lga (d : Die) | cfg (d : Die) | crm (d : Die)
  | drc (e : Edge) | lnk (e : Edge) | eov (e : Edge)
  | wtp
  | page (f : Func)
  | mtx (t : Tile) | vec (b : Bay) | str (b : Bay)
  deriving DecidableEq, Repr

/-- Where a register access is aimed: a request of `size` bytes in BAR0, one in a function's BAR2 (function 0 reaches every
page there), or firmware's access on the tile network. -/
inductive RegTarget where
  | bar0 (addr size : Nat)
  | bar2 (f : Func) (addr size : Nat)
  | net (b : Block) (off : Nat)
  deriving DecidableEq, Repr

/-! ### What the frames of a die configure (R170 to R196, R200) -/

/-- What the table of a logic cell serves as: one function of six inputs, two of five, or distributed memory of 64 words of
one bit or 32 words of two (R170, R172). -/
inductive TableUse where
  | whole | split | memory64 | memory32
  deriving DecidableEq, Repr, Inhabited

/-- What a flip-flop takes (R170). -/
inductive FlopSource where
  | z | zl | zh | sum | direct
  deriving DecidableEq, Repr, Inhabited

/-- A logic cell: its table or the initial contents of its memory, whether it stands in a carry chain, the sources and
initial values of F0 and F1, and whether its set/reset acts asynchronously (R170 to R172). -/
structure CellCfg where
  use : TableUse
  table : BitVec 64
  chain : Bool
  src : FlopSource × FlopSource
  init : Bool × Bool
  srAsync : Bool
  deriving DecidableEq, Repr, Inhabited

/-- The clock of a cluster of eight cells: a global, optionally inverted (R170). -/
structure ClusterCfg where
  clock : Fin 16
  inverted : Bool
  deriving DecidableEq, Repr, Inhabited

/-- The kinds of place in a die's logic that hold a value: what logic, memories, ports, PLLs and I/O cells drive, what they
take, and the routing nodes between (R170, R175, R178, R179, R183, R186, R187, R195). -/
inductive SiteKind where
  /-- constant: the value is pin [0] -/
  | const
  /-- a cell's inputs: a0–a5 at pins 0–5, d 6, clock enable 7, set/reset 8, memory data 9 and 10, c_in of a chain's first
  cell 11; its outputs: Z, ZL, ZH, sum, F0, F1 at pins 0–5 -/
  | cellIn | cellOut
  /-- routing nodes: cluster-local, single, double and hex lines, cross tracks -/
  | clusterLocal | single | double | hex | cross
  /-- of a column's tap on a long line: what it drives and its output-enable; what its receive point reads; pin is the line -/
  | tapIn | tapEnable | receive
  /-- a block memory's port q: inputs at 128·q: enable 0, write enable 1, address from 2, data from 32; outputs at 128·q:
  data from 0, error outputs 72 and 73 -/
  | bramIn | bramOut
  /-- a tile port's outputs to logic, and its inputs -/
  | portOut | portIn
  /-- lock output of PLL n at pin n -/
  | pllLock
  /-- an I/O cell's inputs to logic; what logic gives it: two data bits and the output-enable -/
  | ioIn | ioOut
  deriving DecidableEq, Repr, Inhabited

/-- A place in a die's logic: its kind, the tile of R212 it lies in (static places beside the tiles: 144), which of its kind
there, and the pin. A cell is 128·column + its number in the column and row region; a tap its column; a memory, a port or
an I/O cell its number. -/
structure Site where
  kind : SiteKind
  tile : Nat
  idx : Nat
  pin : Nat
  deriving DecidableEq, Repr, Inhabited

/-- One port of a block memory: its shape, 0–6 as R175 lists the widths 1, 2, 4, 9, 18, 36 and 72; read-first 0, write-first 1
or no-change 2 (R176); and its clock. -/
structure MemPortCfg where
  shape : Fin 7
  mode : Fin 3
  clock : Fin 16
  deriving DecidableEq, Repr, Inhabited

/-- A block memory (R175, R177). -/
structure BramCfg where
  a : MemPortCfg
  b : MemPortCfg
  ecc : Bool
  deriving DecidableEq, Repr, Inhabited

/-- A tile port: records in a beat, 1, 2 or 4, less one in code (width 128, 256 or 512 bytes), and its clock (R185). -/
structure PortCfg where
  width : Fin 3
  clock : Fin 16
  deriving DecidableEq, Repr, Inhabited

/-- What the frames of a column in a row region configure (R200): cells and their clusters, block memories or the tile port;
the modes of its taps on the 16 long lines; the driver of each routing multiplexer and the fence value of each border cell;
and which bits of a minor are table bits of cells in distributed-memory mode (R223). -/
structure ColumnCfg where
  cells : List CellCfg
  clusters : List ClusterCfg
  memories : List BramCfg
  port : Option PortCfg
  taps : List Nat
  muxes : List (Site × Site)
  fences : List (Site × Bool)
  masked : List (Nat × Nat)
  deriving DecidableEq, Repr, Inhabited

/-- The reference of a PLL: the 25 MHz oscillator, the die's clock-capable pair, or output o of PLL n (R181). -/
inductive PllRef where
  | osc
  | pair
  | pll (n : Fin 8) (o : Fin 4)
  deriving DecidableEq, Repr, Inhabited

/-- A PLL: its reference, its oscillator in kHz, and the divisions of its four outputs (R181). -/
structure PllCfg where
  ref : PllRef
  osc : Nat
  divs : List Nat
  deriving DecidableEq, Repr, Inhabited

/-- An input of a global clock's switch (R182). -/
inductive ClockInput where
  | pll (n : Fin 8) (o : Fin 4)
  | pair
  | routed (x : Site)
  deriving DecidableEq, Repr, Inhabited

/-- The clock columns of a die: its PLLs in use by number, and the two inputs of each global in use (R181, R182). -/
structure ClockCfg where
  plls : List (Fin 8 × PllCfg)
  globals : List (Fin 16 × ClockInput × ClockInput)
  deriving DecidableEq, Repr, Inhabited

/-- An I/O cell: in use, LVDS, its registers not bypassed (input, output, output-enable), double rate, which of globals 0–3,
the delay line on the output path, its starting tap (R195, R196). -/
structure IoCellCfg where
  used : Bool
  lvds : Bool
  inReg : Bool
  outReg : Bool
  oeReg : Bool
  ddr : Bool
  clock : Fin 4
  delayOut : Bool
  startTap : BitVec 9
  deriving DecidableEq, Repr, Inhabited

/-- The user-I/O column of a die: the bank level it names, coded 0 none, 1 for 1.2 V, 2 for 1.8 V, and its 24 cells (R194). -/
structure IoCfg where
  level : BitVec 2
  cells : List IoCellCfg
  deriving DecidableEq, Repr, Inhabited

/-- Who holds the credit of a block: the writers of R51, R96 and R127. -/
inductive Writer where
  /-- the drain of a matrix tile, by package tile number -/
  | drain (tile : Nat)
  /-- the sends of a bay's vector tile -/
  | send (bay : Nat)
  /-- a channel of a bay's stream engine -/
  | stream (bay chan : Nat)
  /-- a tile port of a bay -/
  | port (bay port : Nat)
  deriving DecidableEq, Repr

end Sys2Proof
end

