-- ==== Sys2Proof/Syntax.lean ====
section
/-! DEFINITION. The commands of the module: one constructor per row of spec/opcode_table.json. -/

namespace Sys2Proof

/-- A command, with what the outside world decides about it as operands. -/
inductive Instr where
  /-- A write to a register field that has no row of its own takes the effect its access code gives (RW, W1C with set-wins, W1S, RWL). (R6) -/
  | registerWrite (t : RegTarget) (ws : List Word)
  /-- A read of the LO half of a 64-bit counter captures the HI half into a holding register for the next HI read. (R73) -/
  | counterLoRead (t : RegTarget)
  /-- A write of cnt_clear to a block's control register clears every counter of that block. (R73) -/
  | cntClear (b : Block) (host : Bool)
  /-- PERST# is asserted; the module resets, volatile keys clear, and work in flight is lost. (R17) -/
  | perstAssert (cut : Cut)
  /-- PERST# is released and Ryhal starts bring-up at phase 1. (R360) -/
  | perstRelease
  /-- Input enters range with PWRDIS low and the module raises PWRGD within 25 ms. (R17) -/
  | pwrgdRise
  /-- PWRGD falls while PERST# is released and the module behaves as if PERST# were asserted. (R17) -/
  | pwrgdFall (cut : Cut)
  /-- PWRDIS is raised or lowered; while high the power stages are held off and PWRGD is low. (R16) -/
  | pwrdisChange (high : Bool) (ms : Nat) (cut : Cut)
  /-- Input below 38 V for more than 50 µs turns off every rail but the calendar's, drives PWRGD and FAULT# low and logs the cause. (R16) -/
  | undervoltageLockout (cut : Cut)
  /-- Input above 62 V for more than 50 µs shuts the module down as undervoltage lockout does. (R16) -/
  | overvoltageShutdown (cut : Cut)
  /-- Loss of the 100 MHz reference takes the PCIe link down. (R20) -/
  | pcieRefclkLoss
  /-- Loss of the 156.25 MHz reference takes every fabric port down with ref_loss. (R303) -/
  | refLoss
  /-- The 156.25 MHz reference returns and bring-up of enabled ports starts again. (R303) -/
  | refReturn
  /-- The backup capacitor falls below 1.8 V and the calendar clock stops, its time invalid until set. (R21) -/
  | capacitorLow
  /-- The bay sequencer hands the pass descriptor at off to a matrix tile and completes when the tile accepts it. (R147) -/
  | passCmd (b : Bay) (m : MemFind)
  /-- A matrix tile accepts its next pass descriptor in the cycle after the current pass's last partial reaches the aligner. (R80) -/
  | passAccept (t : Tile) (e : List Ecc)
  /-- The feeder reads a moving vector from a valid block, converts MX elements and decides its skip and stop planes. (R55) -/
  | vectorFeed (t : Tile) (q : Quad) (e : List Ecc)
  /-- A vector's last streamed plane finishes and its partials are aligned and added to the accumulator entries. (R32) -/
  | vectorStreamEnd (t : Tile) (q : Quad) (e : List Ecc)
  /-- The drain reads an entry, converts it and offers the output record to the bay crossbar. (R77) -/
  | drainRecord (t : Tile) (e : List Ecc)
  /-- The destination accepts a drained record under its credits; the last acceptance ends the pass. (R65) -/
  | drainRecordAccept (t : Tile) (e : List Ecc)
  /-- A pass reaching cycle 65,536 of its count without ending is abandoned with an array-class status. (R81) -/
  | passBudgetExpiry (t : Tile)
  /-- soft_reset of MTX_CTRL ends any pass as fault abandonment, clears sta_valid and frees both halves. (R73) -/
  | mtxSoftReset (t : Tile)
  /-- A consumer grants a free block's credit to the writer asking for it. (R126) -/
  | creditGrant (b : Bay) (dst blk : Nat) (w : Writer)
  /-- A writer signals a block complete and the block becomes valid, releasing feeds, loads and waits on it. (R53) -/
  | blockComplete (b : Bay) (dst blk : Nat) (w : Writer) (e : List Ecc)
  /-- A die controller sends pre-emption to its bays; tiles stop starting passes, vector tiles halt and channels stop. (R160) -/
  | preemption (j : Nat)
  /-- The sequencer loads a vector section into the vector tile and starts it in the start state. (R147) -/
  | vprog (b : Bay) (m : MemFind)
  /-- The sequencer waits until the vector program has ended. (R147) -/
  | vwait (b : Bay) (m : MemFind)
  /-- Compute op nop does nothing. (R104) -/
  | vecNop (v : Bay) (f : List Ecc)
  /-- d ← sa + sb in each lane. (R104) -/
  | add (v : Bay) (f : List Ecc)
  /-- d ← sa − sb in each lane. (R104) -/
  | sub (v : Bay) (f : List Ecc)
  /-- d ← signed minimum of sa and sb. (R104) -/
  | min (v : Bay) (f : List Ecc)
  /-- d ← signed maximum of sa and sb. (R104) -/
  | max (v : Bay) (f : List Ecc)
  /-- d ← bitwise and of sa and sb. (R104) -/
  | and (v : Bay) (f : List Ecc)
  /-- d ← bitwise or of sa and sb. (R104) -/
  | or (v : Bay) (f : List Ecc)
  /-- d ← bitwise xor of sa and sb. (R104) -/
  | xor (v : Bay) (f : List Ecc)
  /-- d ← sa shifted left by imm. (R104) -/
  | shl (v : Bay) (f : List Ecc)
  /-- d ← sa shifted right arithmetically by imm. (R104) -/
  | sra (v : Bay) (f : List Ecc)
  /-- d ← sa shifted right logically by imm. (R104) -/
  | srl (v : Bay) (f : List Ecc)
  /-- d ← imm sign-extended. (R104) -/
  | movi (v : Bay) (f : List Ecc)
  /-- Each lane takes sa from lane l XOR 2^imm. (R104) -/
  | bfly (v : Bay) (f : List Ecc)
  /-- Each lane takes sa from lane (l − k) mod 32, k the index of a generator. (R104) -/
  | rot (v : Bay) (f : List Ecc)
  /-- acc ← sa.lo × sb.lo. (R104) -/
  | mul (v : Bay) (f : List Ecc)
  /-- acc ← acc + sa.lo × sb.lo, saturating at 40 bits. (R104) -/
  | mac (v : Bay) (f : List Ecc)
  /-- acc ← acc − sa.lo × sb.lo, saturating at 40 bits. (R104) -/
  | msu (v : Bay) (f : List Ecc)
  /-- a0 accumulates sa.lo squared and a1 accumulates sa.lo. (R104) -/
  | sqs (v : Bay) (f : List Ecc)
  /-- acc ← sat16(sa − sb) × d[imm].lo. (R104) -/
  | sbm (v : Bay) (f : List Ecc)
  /-- acc ← 0. (R104) -/
  | clr (v : Bay) (f : List Ecc)
  /-- acc ← sa sign-extended and shifted left by imm. (R104) -/
  | lda (v : Bay) (f : List Ecc)
  /-- d ← acc ÷ 2^(imm + be), rounded and saturated to 32, 16 or 8 bits. (R104) -/
  | nrw (v : Bay) (f : List Ecc)
  /-- Normalises a positive accumulator to a Q2.14 mantissa with even exponent and adds e/2 to be. (R106) -/
  | nrm2 (v : Bay) (f : List Ecc)
  /-- hd ← min(hd, redundant sign bits of sa). (R99) -/
  | hdm (v : Bay) (f : List Ecc)
  /-- d ← sa shifted left by hd. (R99) -/
  | shb (v : Bay) (f : List Ecc)
  /-- be ← be − hd and hd ← 31. (R99) -/
  | bhd (v : Bay) (f : List Ecc)
  /-- be ← imm, signed. (R104) -/
  | bst (v : Bay) (f : List Ecc)
  /-- d ← interpolated value of table slot imm[2:0] at input sa. (R109) -/
  | fn (v : Bay) (f : List Ecc)
  /-- d ← sa × 2^−be converted to BF16, FP16 or FP32, clamped without infinities. (R104) -/
  | fcv (v : Bay) (f : List Ecc)
  /-- d ← sat32(round(sa read as a float × 2^be)); an infinity or NaN ends the job. (R104) -/
  | icv (v : Bay) (f : List Ecc)
  /-- Pair d ← sa + sb over two lanes. (R98) -/
  | padd (v : Bay) (f : List Ecc)
  /-- Pair d ← sa − sb over two lanes. (R98) -/
  | psub (v : Bay) (f : List Ecc)
  /-- Pair d ← sa shifted left by imm. (R104) -/
  | psla (v : Bay) (f : List Ecc)
  /-- Pair d ← sa shifted right arithmetically by imm. (R104) -/
  | psra (v : Bay) (f : List Ecc)
  /-- Pair value rounded, shifted right by imm and saturated to 32 bits. (R104) -/
  | pnrw (v : Bay) (f : List Ecc)
  /-- Compute op 0x7F carries a 17-bit immediate for the control slot. (R104) -/
  | imm (v : Bay) (f : List Ecc)
  /-- A memory slot loads a word, half-spread or byte-spread row through its address generator. (R102) -/
  | vecLoad (v : Bay) (y : Bool) (f d : List Ecc)
  /-- A memory slot stores a word, half-pack or byte-pack row through its address generator. (R102) -/
  | vecStore (v : Bay) (y : Bool) (f : List Ecc) (hit : Option (Nat × List Byte))
  /-- Pushes a hardware repeat level with the count from the packet's immediate. (R108) -/
  | rep (v : Bay) (f : List Ecc)
  /-- Jumps within the program, a breach being a program error. (R108) -/
  | jmp (v : Bay) (f : List Ecc)
  /-- Leaves the innermost repeat. (R108) -/
  | brk (v : Bay) (f : List Ecc)
  /-- Stalls the packet until the named blocks are valid. (R107) -/
  | vecWait (v : Bay) (f : List Ecc)
  /-- Moves the named blocks from held or valid to free. (R96) -/
  | give (v : Bay) (f : List Ecc)
  /-- Queues a send of rows under a send preset, stalling while four are queued. (R110) -/
  | vecSend (v : Bay) (f : List Ecc)
  /-- A destination accepts a send row; the send advances or ends, releasing sync and end. (R110) -/
  | sendRowAccept (v : Bay) (e : List Ecc) (collide : Bool)
  /-- A send row not accepted within 65,536 delivered cycles ends the job with an array-class status. (R111) -/
  | sendTimeout (v : Bay)
  /-- Stalls until every queued send has ended. (R107) -/
  | sync (v : Bay) (f : List Ecc)
  /-- Loads an address-generator preset into a generator. (R100) -/
  | agld (v : Bay) (f : List Ecc)
  /-- Loads user table slot 6 or 7 from 8 X rows, stalling 8 cycles. (R109) -/
  | ldt (v : Bay) (f d : List Ecc)
  /-- Posts a value to the bay sequencer, which counts it at the lead controller. (R107) -/
  | evt (v : Bay) (f : List Ecc)
  /-- Ends the program after every queued send has ended. (R107) -/
  | vecEnd (v : Bay) (f : List Ecc)
  /-- soft_reset of VEC_CTRL ends any program as a fault and restores the start state. (R116) -/
  | vecSoftReset (v : Bay)
  /-- The sequencer places a stream descriptor on a channel once the channel's earlier stream has ended. (R147) -/
  | streamCmd (b : Bay) (m : MemFind)
  /-- A placed stream begins its transfers at its layer barrier and reserves its floor. (R130) -/
  | streamBegin (b : Bay) (c : Channel)
  /-- A weight-ahead stream begins at the first pass acceptance of the prior layer or at the layer command. (R131) -/
  | weightAheadBegin (b : Bay) (c : Channel)
  /-- A channel translates and issues the next memory request of its unit once it holds a staging block and credit. (R134) -/
  | streamRequestIssue (b : Bay) (c : Channel)
  /-- A translation table read returns and the walk continues, maps, faults or ends the stream short. (R150) -/
  | tableWalkResponse (b : Bay) (c : Channel) (m : MemFind)
  /-- Read data returns to the channel and is converted and assembled into rows. (R134) -/
  | streamReadResponse (b : Bay) (c : Channel) (id : Nat) (m : MemFind)
  /-- The destination accepts a fetched row and the cursor advances. (R135) -/
  | streamRowAccept (b : Bay) (c : Channel)
  /-- A record lands in a 128-byte slot of a store channel's staging block, completing it when full or ended. (R127) -/
  | storeRecordReceive (b : Bay) (c : Channel)
  /-- Memory acknowledges a store or copy write and the staging block returns when all its writes are acknowledged. (R127) -/
  | streamWriteAck (b : Bay) (c : Channel) (id : Nat) (m : MemFind)
  /-- resume of STR_CH_CTRL makes a paused channel translate again from its cursor. (R137) -/
  | streamResume (b : Bay) (c : Channel)
  /-- abort of STR_CH_CTRL ends a paused channel short with a translation-class status. (R137) -/
  | streamAbort (b : Bay) (c : Channel)
  /-- STR_PAUSE_LIMIT expires on a paused channel and it ends short. (R137) -/
  | pauseLimitExpiry (b : Bay) (c : Channel)
  /-- soft_reset of STR_CTRL ends every stream short and returns all staging. (R139) -/
  | strSoftReset (b : Bay)
  /-- Opens a layer; later passes and streams belong to it and wait at its barrier. (R147) -/
  | layer (b : Bay) (m : MemFind)
  /-- A bay arrives at a barrier once its outputs are written and waits for release. (R148) -/
  | barrierCmd (b : Bay) (m : MemFind)
  /-- An arrival message reaches the lead controller, which releases the barrier when the count is met. (R148) -/
  | barrierArrival (b : Bay) (m : MemFind)
  /-- A release message reaches a bay and its barrier command completes. (R148) -/
  | barrierRelease (b : Bay)
  /-- barrier_limit elapses from the first arrival and the job ends with a resource-class status. (R148) -/
  | barrierLimitExpiry (j k : Nat)
  /-- Posts a value to the lead controller, which counts it into the completion. (R147) -/
  | eventCmd (b : Bay) (m : MemFind)
  /-- The bay finishes once its passes, streams and vector program have ended. (R147) -/
  | seqEnd (b : Bay) (m : MemFind)
  /-- The last bay's end message reaches the lead controller and the job completes. (R336) -/
  | bayEndMsg (b : Bay)
  /-- time_limit expires and the job ends with a resource-class status. (R149) -/
  | timeLimitExpiry (j : Nat)
  /-- The lead controller takes a queued job and checks header, variant, digest and plan before placing it. (R152) -/
  | jobDispatch (j : Nat) (m : MemFind)
  /-- A waiting job is placed on fitting quarters of its partition and its bays start. (R153) -/
  | jobPlacement (j : Nat) (m : MemFind) (bad : Nat × MemFind)
  /-- A multicast target answers with an acknowledgement or negative acknowledgement. (R154) -/
  | multicastAck (j lb : Nat) (ok : Option MemFind)
  /-- After 10 µs the sender retries a silent or refusing bay by unicast, failing after three. (R154) -/
  | multicastRetry (j lb : Nat)
  /-- Firmware writes an invalidation for a partition or range to each bay. (R151) -/
  | translationInvalidate (b : Bay) (part lo hi : Nat)
  /-- An invalidation completes once covered entries are dropped and their requests acknowledged. (R151) -/
  | invalidationComplete (b : Bay)
  /-- Zeroing of a quarter's memories completes and it joins or leaves its partition. (R157) -/
  | quarterZeroed (q : Quarter)
  /-- A stopped bay writes its checkpoint record, valid word last. (R161) -/
  | checkpointRecordWrite (b : Bay) (m : MemFind) (us : Nat)
  /-- A write to CTL_PART_RESET requests a reset of a partition under R159. (R349) -/
  | partitionReset (p : Fin 16)
  /-- A partition reset ends and raises an event to the owning function. (R159) -/
  | partitionResetEnd (p : Fin 16)
  /-- Two or more mode-2 taps enable on one long line; the keeper holds it and the onset is recorded. (R180) -/
  | llContention (d : Die) (rr line : Fin 16)
  /-- A block memory read in ECC shape finds a single or double bit error and reports it. (R177) -/
  | bramEccRead (d : Die) (memory : Fin 2048) (word : Fin 512) (flips : List (Fin 72))
  /-- A PLL loses lock and gates its outputs low. (R183) -/
  | pllLockLoss (d : Die) (n : Fin 8)
  /-- A PLL's outputs resume after 1,024 cycles of stable oscillation. (R183) -/
  | pllRelock (d : Die) (n : Fin 8)
  /-- A global clock switch changes over glitch-free between its inputs. (R182) -/
  | globalClockSwitch (d : Die) (g : Fin 16) (stopped stopped2 : Bool)
  /-- User logic pushes an outbound record into a tile port queue. (R186) -/
  | tilePortPush (b : Bay) (p : Fin 4) (rs : List PortPush)
  /-- User logic grants an inbound block credit; a grant beyond 4 blocks is ignored. (R187) -/
  | tilePortGrant (b : Bay) (p : Fin 4)
  /-- User logic pops an inbound record; popping block_end returns the block's slots. (R187) -/
  | tilePortPop (b : Bay) (p : Fin 4)
  /-- User logic loads a delay tap of an I/O cell. (R195) -/
  | delayTapLoad (c : Fin 96) (tap : Fin 512)
  /-- User logic steps an I/O cell's delay tap by one. (R195) -/
  | delayTapStep (c : Fin 96) (up : Bool)
  /-- A configuration ring entry requests a load of a stream from device memory. (R201) -/
  | configurationEntry (f : Func) (r : Fin 1024) (bs : List Byte)
  /-- The HEADER command is read and checked; on acceptance targets go to loading. (R205) -/
  | header (l : Nat) (m : MemFind)
  /-- A SEG command opens a segment with its index and length. (R207) -/
  | seg (d : Die) (m : MemFind)
  /-- A segment finishes authentication; a tag mismatch fails the load. (R207) -/
  | segmentAuthenticated (d : Die) (m : MemFind)
  /-- Configuration NOP does nothing. (R204) -/
  | cfgNop (d : Die)
  /-- Writes stream registers TILE_MAP and REGION_FLAGS, taking effect at release. (R211) -/
  | regw (d : Die)
  /-- Sets the frame address for the next FDATA. (R204) -/
  | faddr (d : Die)
  /-- Supplies a burst of frames written at successive minors. (R204) -/
  | fdata (d : Die)
  /-- Ends a segment and derives the next key and chain value. (R208) -/
  | keyroll (d : Die)
  /-- Ends the last segment; all frames must be written and the chain goes to Ryhal. (R210) -/
  | cfgEnd (d : Die)
  /-- The SIG command carries both signatures for Ryhal to verify over C(N). (R209) -/
  | sig (d : Die) (m : MemFind)
  /-- A frame is committed in a loader slot after the long-line contention check. (R221) -/
  | frameCommit (d : Die)
  /-- Ryhal reports the signature result and verifying regions or dies are released or fail. (R209) -/
  | signatureReport (l : Nat)
  /-- 32 reference cycles after reset release, border cells open and the region becomes running. (R217) -/
  | borderOpen (d : Die)
  /-- abort_load of CFG_CTRL ends the die's load as an early end. (R219) -/
  | abortLoad (d : Die)
  /-- The scrubber reads one frame in its slot and checks it. (R222) -/
  | scrubRead (d : Die) (data : List (Fin 3200)) (check : List (Fin 32)) (m : MemFind)
  /-- The scrubber writes a corrected frame back unless the loader has written it. (R223) -/
  | scrubWriteBack (d : Die)
  /-- After 1 µs of essential reset the region is released. (R224) -/
  | essResetEnd (d : Die) (r : Fin 64)
  /-- An initiator injects a request once its shaper admits it, unreachable ones answered at the source. (R236) -/
  | nocInject (p : NocPacket)
  /-- An endpoint receives a read request and answers with the data or a status. (R231) -/
  | nocRead (n : Nat) (m : MemFind)
  /-- An endpoint receives a write request and acknowledges once visible. (R231) -/
  | nocWrite (n : Nat) (m : MemFind)
  /-- Endpoint 0 performs an atomic read-modify-write and returns the old value. (R253) -/
  | nocAtomic (n : Nat) (m : MemFind)
  /-- An endpoint receives a message and answers it. (R231) -/
  | nocMessage (n : Nat)
  /-- A multicast copy reaches a target, which writes the payload on a CRC match and answers. (R243) -/
  | nocMulticast (n : Nat) (c : CopyFind)
  /-- A response reaches its initiator and completes the outstanding request. (R238) -/
  | nocResponse (n : Nat) (w : WayFind)
  /-- A request flit waits NOC_DEAD_LIMIT at an ejection port and the endpoint is isolated. (R239) -/
  | deadLimitExpiry (b : Bay) (ep : Fin 32)
  /-- A write to NOC_ISOLATE_SET isolates endpoints, answering their requests with errors. (R240) -/
  | isolateSet (b : Bay) (w : Word) (host : Bool)
  /-- A write to NOC_ISOLATE_CLR ends isolation of endpoints. (R240) -/
  | isolateClr (b : Bay) (w : Word) (host : Bool)
  /-- map_lock of NOC_CTRL locks NOC_ROUTE_MAP until PERST#. (R233) -/
  | mapLock (b : Bay) (host : Bool)
  /-- A flit fails its CRC at a crossing and a replay is requested; 16 failures take the crossing down. (R234) -/
  | crossingCrcError (r : Fin 1024) (dir : Fin 4) (f : FlitFind)
  /-- A request unanswered after NOC_RESP_LIMIT completes with a memory-class status. (R241) -/
  | respTimeout (n : Nat)
  /-- The crema patrol scrubber reads a word, correcting or recording errors. (R255) -/
  | cremaPatrolRead (b : Bay) (o : Nat) (e : List Ecc)
  /-- scrub_now of CRM_CTRL starts a patrol sweep of every slice. (R267) -/
  | scrubNow (d : Die)
  /-- train_start moves a pending channel to training. (R263) -/
  | trainStart (c : Dram)
  /-- init_start moves a pending or training channel to initialising. (R261) -/
  | initStart (c : Dram)
  /-- mark_bad moves a channel in pending, training or initialising to bad. (R263) -/
  | markBad (c : Dram)
  /-- A channel finishes zeroing and becomes ready. (R261) -/
  | channelInitDone (c : Dram)
  /-- A write of op to DRC_TRAIN_PAT starts the pattern generator or compare helper. (R263) -/
  | trainPatternStart (c : Dram) (w : Word)
  /-- The pattern operation finishes and sets done with the fail mask. (R263) -/
  | trainPatternDone (c : Dram) (fail : BitVec 16) (beats : Word)
  /-- DRC_PD_TIMER expires and the idle rank enters power-down. (R260) -/
  | powerDownExpiry (c : Dram) (rank : Bool)
  /-- A per-bank refresh falls due and the controller wakes the rank for it. (R256) -/
  | refreshDue (c : Dram) (b : RankBank)
  /-- The LPDDR5X patrol scrubber reads a chunk, correcting or recording errors. (R264) -/
  | lpddrPatrolRead (c : Dram) (k : Nat) (e : List Ecc)
  /-- The home edge receives a global request, checks it and forwards it to the fabric or locally. (R271) -/
  | homeEdgeRequest (r : GlobalRequest)
  /-- A fence message holds later requests of its scope until earlier ones are answered. (R284) -/
  | fence (src : NocPlace) (ep : Fin 32) (tag : Fin 1024) (cls : Fin 4) (id : BitVec 20) (scope : Fin 2)
  /-- A request arrives on a port, is tagged with the active set and routed or looked up in the window table. (R273) -/
  | fabricPacketReceive (p : Port)
  /-- A fabric response arrives and is routed back or handed to the requester. (R286) -/
  | fabricResponseReceive (p : Port)
  /-- A write of a window entry's last word commits all 16 bytes or is refused. (R274) -/
  | windowEntryCommit (e : Edge) (i : Fin 524288) (host : Bool) (w : Word)
  /-- EOV_DRAIN_LIMIT expires and requests still in flight are answered with a non-retryable status. (R276) -/
  | drainLimitExpiry (e : Edge) (t : Fin 64)
  /-- A global request unanswered after EOV_RESP_LIMIT is answered with a fabric-class status. (R285) -/
  | fabricRespTimeout (n : Nat)
  /-- A write of EOV_DRAIN_LIMIT is clamped to 300 and refused if it would break the response-limit margin. (R285) -/
  | drainLimitWrite (e : Edge) (w : Word)
  /-- A write of EOV_RESP_LIMIT is refused when below EOV_DRAIN_LIMIT + 50. (R285) -/
  | respLimitWrite (e : Edge) (w : Word)
  /-- A codeword is decoded and accepted, or discarded with a nak; acks and naks drive the replay buffer. (R300) -/
  | codewordReceive (p : Port) (lines : List (List Nat))
  /-- A marker arrives or is missing; three bad markers take the port down with marker_loss. (R297) -/
  | markerCheck (l : Lane) (line : List Nat)
  /-- LNK_P_RETRY_TIMER expires without progress and the transmitter resends from its oldest codeword. (R300) -/
  | retryTimerExpiry (p : Port)
  /-- A lane loses lock and its port goes down. (R302) -/
  | laneLockLoss (l : Lane)
  /-- A cable presence pin changes; loss takes the port down, presence starts bring-up. (R308) -/
  | cablePresenceChange (p : Port) (present : Bool)
  /-- A port's 1 ms clock-offset measurement completes; beyond ±20 ppm takes it down. (R303) -/
  | ppmMeasure (p : Port) (offset : Int)
  /-- A lane locks on its partner's training markers and moves to exchange. (R304) -/
  | laneAcquireLock (l : Lane) (ctle : Fin 37)
  /-- A capability record is received and the version selected after 8 good records. (R305) -/
  | capabilityRecordReceive (l : Lane) (r : BitVec 128)
  /-- All four lanes align by marker and the port comes up. (R304) -/
  | deskewDone (p : Port) (skews : List Nat)
  /-- A port not up 2 ms after start counts a failure and restarts at acquire. (R304) -/
  | bringupTimeout (p : Port)
  /-- Setting or clearing enable of LNK_P_CTRL puts the port in service or takes it down. (R302) -/
  | enable (p : Port) (on : Bool)
  /-- retrain takes the port down and starts bring-up. (R302) -/
  | retrain (p : Port)
  /-- Setting test_mode takes the port down into pattern test; clearing it starts bring-up. (R310) -/
  | testMode (p : Port) (on : Bool)
  /-- A lane checker locks after 64 error-free symbols and starts counting. (R310) -/
  | checkerLock (l : Lane) (first : Nat) (rest : List Nat)
  /-- A direction with nothing to send for the idle period sends a kind-2 marker and enters electrical idle. (R309) -/
  | idleTimerExpiry (p : Port)
  /-- An idle direction gets something to send and exits with a training burst. (R309) -/
  | idleExit (p : Port)
  /-- A write to LNK_L_INJECT arms one error injection on a lane. (R311) -/
  | inject (l : Lane) (kind : Fin 4) (len : Fin 64)
  /-- A configuration request is answered with RRS, normally after ready, or from the recovery space. (R319) -/
  | pcieConfigRequest (f : Func) (q : ConfigRequest)
  /-- A PCIe link reaches L0 and training of pending channels may start. (R362) -/
  | pcieLinkUp (l : Fin 2) (speed : Fin 8) (width : Fin 5)
  /-- A PCIe link goes down, making its functions' BARs unreachable but stopping no job. (R315) -/
  | pcieLinkDown (l : Fin 2)
  /-- A BAR4 read is translated to device memory; a failure returns all 0xFF and is logged. (R318) -/
  | bar4Read (f : Func) (off n net : Nat) (m : MemFind)
  /-- A BAR4 write is translated to device memory; a failure drops it and is logged. (R318) -/
  | bar4Write (f : Func) (off : Nat) (data : BarStore) (net : Nat) (m : MemFind)
  /-- A Function Level Reset disables the function's rings and resets its partition. (R320) -/
  | functionLevelReset (f : Func)
  /-- A function enters D3hot and its ring traffic and host writes are held. (R321) -/
  | d3hotEntry (f : Func)
  /-- A function returns to D0 and held completions, messages and kicks proceed. (R321) -/
  | d0Return (f : Func)
  /-- A write to HIF_KICK asks the ring engine to fetch a group of doorbell records. (R323) -/
  | hifKick (f : Func) (via0 : Bool) (w : Word)
  /-- A doorbell record read returns and new entries are fetched or the ring goes to error. (R323) -/
  | dbrecFetchDone (f : Func) (g : Fin 32) (records : HostFetch)
  /-- Every 10 µs the engine rereads a full completion ring's head record. (R323) -/
  | cqHeadPoll (f : Func) (q : Fin 1024) (record : List Byte)
  /-- enable of HIF_RING_CTRL enables the selected ring or refuses it with a cause. (R324) -/
  | ringEnable (f : Func) (via0 : Bool) (record : Option (List Byte))
  /-- disable of HIF_RING_CTRL stops fetching from the selected ring or is refused. (R324) -/
  | ringDisable (f : Func) (via0 : Bool)
  /-- A job ring entry is taken and passed to its partition's dispatch queue. (R326) -/
  | jobEntry (f : Func) (r : Fin 1024) (bs : List Byte)
  /-- A barrier entry holds later entries until earlier ones complete. (R326) -/
  | ringBarrier (f : Func) (r : Fin 1024) (bs : List Byte)
  /-- A nop entry completes with success. (R326) -/
  | ringNop (f : Func) (r : Fin 1024) (bs : List Byte)
  /-- A pin entry verifies an image and keeps a copy under a handle. (R326) -/
  | pin (f : Func) (r : Fin 1024) (bs : List Byte) (m : MemFind)
  /-- An unpin entry frees a handle after its jobs end. (R326) -/
  | unpin (f : Func) (r : Fin 1024) (bs : List Byte)
  /-- The engine writes a completion, extended record and MSI-X message once the ring has room. (R329) -/
  | completionWrite (f : Func) (q : Fin 1024) (err : Bool) (ns replays : Nat)
  /-- A write to HIF_VERSION_OFFER selects the function's host interface version. (R331) -/
  | versionOffer (f : Func) (via0 : Bool) (w : Word)
  /-- irq_delay elapses since the first unsignalled entry and the ring's vector is raised. (R333) -/
  | irqDelayExpiry (f : Func) (q : Fin 1024)
  /-- check of CTL_CTRL validates the shadow set and reports checked or a cause. (R342) -/
  | check
  /-- tamp of CTL_CTRL checks the shadow and sends the switch message to every domain. (R343) -/
  | tamp
  /-- copy_active copies the active image into the shadow. (R348) -/
  | copyActive
  /-- A write to the shadow image is carried to every die and clears checked, or is refused during a swap. (R341) -/
  | shadowWrite (i : Fin 32768) (w : Word)
  /-- A domain switches at its boundary and reports; the last report completes the swap. (R343) -/
  | switchReport (d : Fin 21) (us : Nat)
  /-- CTL_TAMP_LIMIT expires with a domain unreported; Ryhal records it and resends the switch. (R347) -/
  | tampLimitExpiry
  /-- A control core commits a mailbox word, stored if the inbox is empty or dropped as an overrun. (R351) -/
  | mbxOutHi (core : Fin 65) (e : Fin 64) (w : Word)
  /-- A host function commits a word to endpoint 48 and sets its doorbell bit. (R353) -/
  | mbxSendHi (f : Func) (via0 : Bool) (w : Word)
  /-- A sender sets doorbell bits and unmasked ones notify the owner. (R352) -/
  | mbxDbSet (core : Option (Fin 65)) (e : Fin 64) (w : Word)
  /-- A mask change unmasks set doorbell bits and raises their notification. (R352) -/
  | mbxDbMaskWrite (by_ : MailboxOwner) (e : Fin 64) (w : Word)
  /-- Firmware withdraws a function's mailbox endpoint after a swap leaves it without a partition. (R354) -/
  | endpointWithdraw (e : Fin 32)
  /-- A bring-up phase completes and the next starts; phase 5 ends at the ready point. (R360) -/
  | bringupPhaseEnd (f : PhaseFind)
  /-- A phase deadline passes; phase 3 is cut at 17 ms and late phases are flagged. (R361) -/
  | phaseDeadline (n : Fin 5) (f : PhaseFind)
  /-- 900 ms pass without ready and the module enters recovery. (R361) -/
  | recoveryPoint
  /-- 60 ms pass and training of pending channels starts. (R362) -/
  | trainingStartPoint
  /-- An entry is written to the field fuse bank after the ready point. (R369) -/
  | fieldFuseWrite (u : Nat) (ok : Bool)
  /-- TST_CMD op 1 runs logic BIST over a quarter or die, or is refused. (R373) -/
  | logicBist (host die : Bool) (target : Fin 64)
  /-- TST_CMD op 2 runs memory BIST over a quarter or die, or is refused. (R373) -/
  | memoryBist (host die : Bool) (target : Fin 64)
  /-- TST_CMD op 3 runs logic and memory BIST, or is refused. (R373) -/
  | bothBist (host die : Bool) (target : Fin 64)
  /-- A commanded test ends; signatures are compared and the floor plan updated. (R374) -/
  | bistDone (f : BistFind)
  /-- The self-test service reruns the power-on self-tests. (R381) -/
  | selfTest
  /-- The challenge service issues a fresh 32-byte challenge. (R379) -/
  | challenge
  /-- The attest service returns a dual-signed report of selected measurement registers. (R389) -/
  | attest (c : Credential)
  /-- The extend service extends a register 8–15 and logs the entry. (R386) -/
  | extend (c : Credential)
  /-- The set time service sets the calendar clock, refusing large user steps. (R392) -/
  | setTime (c : Credential)
  /-- Stores the owner configuration key unwrapped under KEK_entry. (R380) -/
  | installOck (c : Credential)
  /-- Stores the user authentication key unwrapped under KEK_entry. (R380) -/
  | installUak (c : Credential)
  /-- Stores a slot's public keys when they hash to its fuse value. (R380) -/
  | installSignerKeys (c : Credential)
  /-- Burns the next owner's hash, revokes the previous owner, zeroises and resets owner counters. (R391) -/
  | transferOwnership (c : Credential)
  /-- Burns a vendor slot's revocation fuse under another vendor slot's signature. (R380) -/
  | revokeVendorSlot (c : Credential)
  /-- Verifies a firmware set and writes it into the inactive bank, marking it active. (R384) -/
  | installFirmware (c : Credential)
  /-- Raises an anti-rollback counter. (R385) -/
  | advanceCounter (c : Credential)
  /-- Erases the OCK, UAK, DRBG state and identity keys, and zeroes every key register. (R382) -/
  | zeroise (c : Credential)
  /-- Zeroises, burns the kill fuse and makes the module permanently scrapped. (R382) -/
  | scrap (c : Credential)
  /-- The 60 s lockout after 8 authentication failures ends. (R379) -/
  | authLockoutEnd
  /-- A continuous entropy test fails and the security module enters the error state. (R381) -/
  | entropyTestFail
  /-- attach of TWN_CTRL starts heartbeats and mirror sync, or is refused with a cause. (R404) -/
  | attach
  /-- detach of TWN_CTRL moves the module to detaching or unpaired. (R407) -/
  | detach
  /-- takeover of TWN_CTRL in lost dispatches the partner's mirrored entries and serves them. (R406) -/
  | takeover (m : MemFind)
  /-- Every 10 µs the twin engine writes a heartbeat to the partner's slot. (R399) -/
  | heartbeatSend
  /-- Every 10 µs the engine reads its heartbeat slot, counting misses and declaring the partner lost. (R400) -/
  | heartbeatCheck (m : MemFind)
  /-- The twin answers a mirror write and the entry passes to dispatch, or an error makes the partner lost. (R401) -/
  | mirrorWriteResponse (i status : Nat)
  /-- The module finishes its sync and sets synced in its heartbeats. (R404) -/
  | syncDone (us : Nat)
  /-- Every 100 µs Ryhal recomputes the scale and sends each die its effective cap. (R414) -/
  | moduleCapStep (p : Nat)
  /-- Every 10 µs a die's power controller raises or lowers L_power against its cap. (R415) -/
  | dieCapEval (d : Die) (p : Nat)
  /-- A die's sensors are read and compared with the trip points, setting warn, critical or shutdown. (R417) -/
  | sensorRead (src : Fin 22) (ts : List (Option Nat))
  /-- Every 100 µs L_thermal rises at the throttle point or falls below it minus 3 °C. (R417) -/
  | thermalStep (d : Die)
  /-- The tile core rail falls below 95 % and tile cycles are stretched. (R410) -/
  | droopDetect (d : Die)
  /-- After 64 cycles above the droop level stretching ends. (R410) -/
  | stretchEnd (d : Die)
  /-- A write to PWR_TRIP lowers trip points or is ignored with trip_refused. (R417) -/
  | tripWrite (host : Bool) (w : Word)
  /-- Setting a PWR_QTR_GATE bit isolates an idle quarter and switches off its tile rail share. (R419) -/
  | quarterGate (q : Quarter)
  /-- Clearing a PWR_QTR_GATE bit ungates the quarter within 100 µs. (R419) -/
  | quarterUngate (q : Quarter)
  /-- Every 1 ms Ryhal writes a telemetry record to PWR_TLM and optionally host memory. (R420) -/
  | telemetryRecord (m : Measured)
  /-- A security service finishes; busy clears, done sets, and SEC_RESULT and SEC_RESP take its outcome. (R380) -/
  | secServiceDone (pass : Bool) (m : MemFind)
  /-- A host memory read of a doorbell record or ring entries times out and the submission ring goes into error. (R328) -/
  | hostReadTimeout (f : Func) (entry : Bool) (n : Fin 1024)
  /-- The completion of a host read of submission entries returns with an error and the ring goes into error. (R328) -/
  | entryReadError (f : Func) (r : Fin 1024)
  /-- A port's transmitter sends its next codeword or line symbol, applying an armed injection, idle codewords and tap changes at block boundaries. (R311) -/
  | codewordTransmit (p : Port) (shaped : Bool)
  deriving DecidableEq, Repr

end Sys2Proof
end

