-- ==== Sys2Proof/Decode.lean ====
section
/-! DEFINITION. Commands spelled by words of the opcode table: no row of the table gives bits, so no word spells one. -/

namespace Sys2Proof

/-- The command that a word spells by the table's bits. Every row of spec/opcode_table.json lists no field, so the
answer is none for every word. DESIGN CHOICE: log 3. -/
def decodeTableWord (_nbits _w : Nat) : Option Instr := none

end Sys2Proof
end

