-- ==== Sys2Proof/Config.lean ====
section
/-! DEFINITION. Values the spec leaves open: constants with no body, applied to a plain counter or to operands. -/

namespace Sys2Proof.Config

/-- A byte whose value the spec does not state, drawn afresh for each count. DESIGN CHOICE: log 4. -/
opaque freeByte : Nat → Byte

/-- A word whose value the spec does not state, drawn afresh for each count. DESIGN CHOICE: log 4. -/
opaque freeWord : Nat → Word

/-- Time the module has counted by itself when it reads a clock or measures a duration: it passes outside the model.
DESIGN CHOICE: log 4, 7. DEDUCED: log 64. -/
opaque elapsed : Nat → Nat

/-- The index that bit reversal makes where the modulo length is no power of two (R100, R101). DESIGN CHOICE: log 124. -/
opaque openReverse : Nat → Nat → Nat

/-! ### What the layout of frames does not say (R200) -/

/-- What the frames of a column in a row region configure, given its number and the data of its minors, empty where a frame
is not there. DESIGN CHOICE: log 57. -/
opaque column : Nat → List (List Byte) → ColumnCfg

/-- What the frames of a die's clock columns configure, row region by row region. DESIGN CHOICE: log 57. -/
opaque clocks : List (List Byte) → ClockCfg

/-- What a die's user-I/O frames configure. DESIGN CHOICE: log 57. -/
opaque userIo : List (List Byte) → IoCfg

/-- Where the bits of a block memory, numbered through its words, lie in its 36 Kbit, in a shape of R175 that leaves places out.
DESIGN CHOICE: log 127. -/
opaque narrowBit : Nat → Equiv.Perm (Fin 36864)

/-- The 8 check bits of a block memory's SEC-DED code (R175). DESIGN CHOICE: log 127. -/
opaque secded : BitVec 64 → BitVec 8

/-- The factor p of the Fire code's generator, below its leading term (R223). DESIGN CHOICE: log 129. -/
opaque firePoly : BitVec 17

/-! ### User logic (R169 to R183) -/

/-- The edge of a user clock that comes next while no command waits: die, global and polarity. No two domains are held in
phase (R23). DESIGN CHOICE: log 128. -/
opaque nextEdge : Nat → Die × Fin 16 × Bool

/-- The value of a place in the logic that nothing drives, or that a loop of tables drives. DESIGN CHOICE: log 127. -/
opaque openSignal : Nat → Site → Bool

/-- The level that the outside gives an I/O pin at an edge. DESIGN CHOICE: log 128. -/
opaque pinLevel : Nat → Nat → Bool

/-- What the 16-bit field PWR_STATUS scale shows at s = 1, which its unit of 1/65,536 cannot hold (R423).
DEDUCED: log 110. -/
opaque fullScale : BitVec 16

/-- The bytes that M3 measures: lifecycle, owner position, vendor revocation bits, counters 0–15, whose layout is not stated
(R386). DESIGN CHOICE: log 66. -/
opaque ownership : Nat → Option Nat → List Nat → List Nat → List Byte

/-! ### Secrets, and what manufacture stored (R383, R384) -/

/-- Fuse secrets: unique device secret, key-entry secret, vendor configuration key. DESIGN CHOICE: log 12. -/
opaque uds : List Byte
opaque kes : List Byte
opaque vck : List Byte

/-- The device serial. DESIGN CHOICE: log 12. -/
opaque serial : BitVec 64

/-- The public keys of a vendor slot as stored at manufacture: Ed25519 key, then ML-DSA-65 key.
DESIGN CHOICE: log 66, 12. -/
opaque vendorKeys : Nat → List Byte

/-- The firmware images as manufactured: image type t of bank b at 4·b + t (R384). DEDUCED: log 101. -/
opaque image : Nat → List Byte

/-- The certificates for both identity public keys, as stored at manufacture (R383). DESIGN CHOICE: log 107. -/
opaque certificates : List Byte

end Sys2Proof.Config
end

