-- ==== Sys2Proof/Machine/Number.lean ====
section
/-! DEFINITION. Number formats, digit planes, alignment, rounding and drain conversion (R24 to R46): pure functions. -/

namespace Sys2Proof.Machine

/-- Rounding of conversions: round_mode 0 and 1 (R26). -/
inductive RoundMode where
  | nearestEven
  | towardZero
  deriving DecidableEq, Repr

/-- x · 2^e rounded to an integer. -/
def roundPow (rm : RoundMode) (x e : Int) : Int :=
  if 0 ≤ e then x * 2 ^ e.toNat
  else
    let d : Int := 2 ^ (-e).toNat
    match rm with
    | .towardZero => x.tdiv d
    | .nearestEven =>
      let q := x / d
      let r := x % d
      if 2 * r < d then q else if d < 2 * r then q + 1 else if q % 2 = 0 then q else q + 1

/-- Whether x · 2^e is an integer, so that rounding loses nothing. -/
def isExactPow (x e : Int) : Bool :=
  decide (0 ≤ e) || decide (x % (2 ^ (-e).toNat) = 0)

/-- m · 2^e < 1 for a natural m: the comparison of the stop test (R36). -/
def ltOnePow (m : Nat) (e : Int) : Bool :=
  if 0 ≤ e then m == 0 else decide (m < 2 ^ (-e).toNat)

/-- The number of two's-complement width `w` whose bits are `n`. -/
def signed (w n : Nat) : Int :=
  let m := n % 2 ^ w
  if m < 2 ^ (w - 1) then m else (m : Int) - 2 ^ w

/-- The low `w` bits of an integer, as a natural. -/
def unsigned (w : Nat) (x : Int) : Nat := (x % 2 ^ w).toNat

/-- Clamp to a range. -/
def clampInt (lo hi x : Int) : Int := if x < lo then lo else if hi < x then hi else x

/-! ### Floating and MX formats -/

/-- A small floating format: exponent bits, fraction bits, bias and the code of its largest finite number. -/
structure FloatFmt where
  expBits : Nat
  manBits : Nat
  bias : Int
  maxCode : Nat
  deriving DecidableEq, Repr

def fmtBF16 : FloatFmt := ⟨8, 7, 127, 0x7F7F⟩
def fmtFP16 : FloatFmt := ⟨5, 10, 15, 0x7BFF⟩
def fmtFP32 : FloatFmt := ⟨8, 23, 127, 0x7F7FFFFF⟩
def fmtE4M3 : FloatFmt := ⟨4, 3, 7, 0x7E⟩
def fmtE5M2 : FloatFmt := ⟨5, 2, 15, 0x7B⟩
def fmtE3M2 : FloatFmt := ⟨3, 2, 3, 0x1F⟩
def fmtE2M3 : FloatFmt := ⟨2, 3, 1, 0x1F⟩
def fmtE2M1 : FloatFmt := ⟨2, 1, 1, 0x7⟩

/-- Bits of one code of the format, sign included. -/
def FloatFmt.width (f : FloatFmt) : Nat := 1 + f.expBits + f.manBits

/-- The code of m · 2^e in the format, and whether the rounded result lay beyond the largest finite
number, which is then written with the value's sign (R42). Subnormals are produced. DEDUCED: log 22. -/
def encodeFloat (f : FloatFmt) (rm : RoundMode) (m e : Int) : Nat × Bool :=
  if m = 0 then (0, false)
  else
    let mag : Nat := m.natAbs
    let top : Int := (Nat.log2 mag : Int) + e
    let emin : Int := 1 - f.bias
    let q : Int := max top emin - f.manBits
    let r : Int := roundPow rm mag (e - q)
    let code : Int := (q + f.manBits + f.bias - 1) * 2 ^ f.manBits + r
    let sat := decide ((f.maxCode : Int) < code)
    let body : Nat := if sat then f.maxCode else code.toNat
    (body + (if m < 0 then 2 ^ (f.expBits + f.manBits) else 0), sat)

/-- The value of a finite code, as an integer and a power of two. -/
def decodeFloat (f : FloatFmt) (code : Nat) : Int × Int :=
  let man := code % 2 ^ f.manBits
  let ex := code / 2 ^ f.manBits % 2 ^ f.expBits
  let neg := code / 2 ^ (f.manBits + f.expBits) % 2 = 1
  let mag : Int := if ex = 0 then man else (man : Int) + 2 ^ f.manBits
  let e : Int := (if ex = 0 then 1 else (ex : Int)) - f.bias - f.manBits
  (if neg then -mag else mag, e)

/-- The MX element formats, with their codes as mov_fmt (R24, R26). -/
inductive MxFmt where
  | int8 | e4m3 | e5m2 | e3m2 | e2m3 | e2m1
  deriving DecidableEq, Repr

/-- mov_fmt and sta_fmt codes of the MX formats (R26). -/
def MxFmt.ofCode : Nat → Option MxFmt
  | 1 => some .int8 | 2 => some .e4m3 | 3 => some .e5m2 | 4 => some .e3m2 | 5 => some .e2m3 | 6 => some .e2m1
  | _ => none

/-- The floating layout of an MX element; none for MXINT8. -/
def MxFmt.float : MxFmt → Option FloatFmt
  | .int8 => none | .e4m3 => some fmtE4M3 | .e5m2 => some fmtE5M2 | .e3m2 => some fmtE3M2
  | .e2m3 => some fmtE2M3 | .e2m1 => some fmtE2M1

/-- Bits of one stored element (R55). -/
def MxFmt.bits : MxFmt → Nat
  | .int8 => 8 | .e4m3 => 8 | .e5m2 => 8 | .e3m2 => 6 | .e2m3 => 6 | .e2m1 => 4

/-- emax: the largest element exponent of the format (R43). -/
def MxFmt.emax : MxFmt → Int
  | .int8 => 0 | .e4m3 => 8 | .e5m2 => 15 | .e3m2 => 4 | .e2m3 => 2 | .e2m1 => 2

/-- fx at W = 8 (R29). -/
def MxFmt.fx8 : MxFmt → Int
  | .int8 => -6 | .e4m3 => 2 | .e5m2 => 9 | .e3m2 => -2 | .e2m3 => -4 | .e2m1 => -4

/-- The step exponent fx of R29 at retained width W; only MXFP8 and MXFP6 E3M2 have a width above 8. -/
def MxFmt.fx (f : MxFmt) (w : Nat) : Int := f.fx8 - ((w : Int) - 8)

/-- Whether ret_width bears on the format (R26). -/
def MxFmt.hasRetWidth : MxFmt → Bool
  | .e4m3 => true | .e5m2 => true | .e3m2 => true | _ => false

/-- The value of a finite element at scale 1. -/
def MxFmt.value (f : MxFmt) (code : Nat) : Int × Int :=
  match f.float with
  | none => (signed 8 code, -6)
  | some ff => decodeFloat ff code

/-- A NaN or infinity element encoding of the OCP formats (R31); only the FP8 formats have any. -/
def MxFmt.nonfinite (f : MxFmt) (code : Nat) : Bool :=
  match f with
  | .e4m3 => code % 128 == 127
  | .e5m2 => decide (124 ≤ code % 128)
  | _ => false

/-- An element in steps of 2^fx, rounded to nearest even whatever round_mode says, and whether
non-zero bits were lost (R29, R30). -/
def MxFmt.convert (f : MxFmt) (w code : Nat) : Int × Bool :=
  let v := f.value code
  let e := v.2 - f.fx w
  (roundPow .nearestEven v.1 e, !isExactPow v.1 e)

/-- A value m · 2^e as an element of the format at scale 1: its code and whether it saturated (R43).
MXINT8 clamps to ±127. -/
def MxFmt.encode (f : MxFmt) (rm : RoundMode) (m e : Int) : Nat × Bool :=
  match f.float with
  | some ff => encodeFloat ff rm m e
  | none =>
    let r := roundPow rm m (e + 6)
    (unsigned 8 (clampInt (-127) 127 r), decide (r < -127) || decide (127 < r))

/-! ### Bit records -/

/-- Elements of `b` bits laid little-endian from the record's first byte (R55), as one natural. -/
def packBits (b : Nat) : List Nat → Nat
  | [] => 0
  | c :: cs => c % 2 ^ b + 2 ^ b * packBits b cs

/-- `n` bytes of a natural, lowest first (R3). -/
def natBytes : Nat → Nat → List Byte
  | 0, _ => []
  | n + 1, x => BitVec.ofNat 8 x :: natBytes n (x / 256)

/-- Bytes as one little-endian natural (R3). -/
def bytesNat : List Byte → Nat
  | [] => 0
  | b :: bs => b.toNat + 256 * bytesNat bs

/-- Elements packed into whole bytes. -/
def packBytes (b : Nat) (cs : List Nat) : List Byte := natBytes ((b * cs.length + 7) / 8) (packBits b cs)

/-- Element e of width b of a record of bytes (R55). -/
def unpackElem (b : Nat) (bytes : List Byte) (e : Nat) : Nat := bytesNat bytes / 2 ^ (e * b) % 2 ^ b

/-- floor(log2 of the largest magnitude) of a list; none when all are zero. -/
def maxLog2 (xs : List Int) : Option Nat :=
  let m := xs.foldl (fun acc x => max acc x.natAbs) 0
  if m = 0 then none else some (Nat.log2 m)

/-- The shared scale exponent of an MX output block of values x · 2^e (R43). -/
def mxScaleExp (f : MxFmt) (xs : List Int) (e : Int) : Int :=
  match maxLog2 xs with
  | none => -127
  | some l => clampInt (-127) 127 ((l : Int) + e - f.emax)

/-- An MX block of values x · 2^e: element codes, scale byte and the number of saturated elements (R43). -/
def mxBlock (f : MxFmt) (rm : RoundMode) (xs : List Int) (e : Int) : List Nat × Nat × Nat :=
  let sc := mxScaleExp f xs e
  let es := xs.map (fun x => f.encode rm x (e - sc))
  (es.map (·.1), (sc + 127).toNat, (es.filter (·.2)).length)

/-- An MX block in the layout of a moving record: element bytes, then the scale byte (R55, R66). -/
def mxRecord (f : MxFmt) (b : List Nat × Nat × Nat) : List Byte :=
  packBytes f.bits b.1 ++ [BitVec.ofNat 8 b.2.1]

/-! ### Digit planes (R27, R28, R33 to R37) -/

/-- Bit j of a two's-complement integer, as 0 or 1. -/
def intBit (x : Int) (j : Nat) : Int := x / 2 ^ j % 2

/-- The digit of pair i of x (R27), with b[−1] taken as 0. -/
def digit (x : Int) (i : Nat) : Int :=
  -2 * intBit x (2 * i + 1) + intBit x (2 * i) + (if i = 0 then 0 else intBit x (2 * i - 1))

/-- The digit of x in plane p of n planes (R27). -/
def planeDigit (n : Nat) (x : Int) (p : Nat) : Int := digit x (n - 1 - p)

/-- Σ w · d over the rows, w and x paired row by row; a masked row's pair carries x = 0 (R28, R62). -/
def planeSum (n : Nat) (ws xs : List Int) (p : Nat) : Int :=
  (List.zipWith (fun w x => w * planeDigit n x p) ws xs).foldl (· + ·) 0

/-- The column partial after `m` planes from plane 0 (R28); skipped planes leave it at zero. -/
def partialSum (n : Nat) (ws xs : List Int) : Nat → Int
  | 0 => 0
  | m + 1 => 4 * partialSum n ws xs m + planeSum n ws xs m

/-- The leading planes skipped for a vector whose unmasked elements are `xs` (R33). -/
def skipPlanes (n : Nat) (xs : List Int) : Nat :=
  ((List.range n).takeWhile (fun p => xs.all (fun x => decide (planeDigit n x p = 0)))).length

/-- tail(t) = 2 · (4^t − 1) / 3 (R35). -/
def tailBound (t : Nat) : Nat := 2 * (4 ^ t - 1) / 3

/-- S_j · tail(n − 1 − p) · 2^a < 2^(σ − f) for every unmasked column, given as pairs of S_j and a (R36). -/
def stopsAfter (n : Nat) (cols : List (Nat × Int)) (tExp : Int) (p : Nat) : Bool :=
  cols.all (fun c => ltOnePow (c.1 * tailBound (n - 1 - p)) (c.2 - tExp))

/-- The stop plane of a vector: the first plane at which the test holds, n − 1 where the stop does not end
the vector early; `none` for tExp is zero tolerance (R36, R37, R75). -/
def stopPlane (n : Nat) (cols : List (Nat × Int)) (tExp : Option Int) : Nat :=
  match tExp with
  | none => n - 1
  | some t => min (n - 1) ((List.range n).takeWhile (fun p => !stopsAfter n cols t p)).length

/-- D_v = max(1, p_s − z + 1) (R75). -/
def digitCycles (z ps : Nat) : Nat := max 1 (ps + 1 - z)

/-! ### Alignment and the accumulator (R32, R38 to R40) -/

/-- The limit of an accumulator entry (R40). -/
def accLimit : Int := 2 ^ 47 - 1

/-- An integer brought inside the accumulator's limits, and whether it lay outside (R40). -/
def accSat (x : Int) : Int × Bool := (clampInt (-accLimit) accLimit x, decide (x < -accLimit) || decide (accLimit < x))

/-- The contribution c · 2^(a + 2t) of a partial (R32). -/
def alignPartial (c a : Int) (t : Nat) : Int := roundPow .nearestEven c (a + 2 * t)

/-- e(v, j) of R38 in units of 2^−16 accumulator units, rounded up where it has finer bits. DEDUCED: log 23. -/
def entryError (a : Int) (sj t : Nat) (rounded : Bool) : Nat :=
  -- 2^a · S · (tail + ρ/2) = (S · (2·tail + ρ)) · 2^(a − 1); α/2 = 2^15 units of 2^−16
  let m : Nat := sj * (2 * tailBound t + (if rounded then 1 else 0))
  let e : Int := a - 1 + 16
  let main : Nat := if 0 ≤ e then m * 2 ^ e.toNat else (m + 2 ^ (-e).toNat - 1) / 2 ^ (-e).toNat
  main + (if a + 2 * t < 0 then 2 ^ 15 else 0)

/-- A bound register's 64 bits: all ones beyond its range (R73). DEDUCED: log 23. -/
def boundClip (b : Nat) : Nat := min b (2 ^ 64 - 1)

/-- The reported bound: B_run / 2^σ + δ in output units, unsigned with 16 fractional bits, rounded up;
0xFFFF_FFFF from 65,536 up or after a saturation (R39). `delta` is δ in units of 2^−16. DEDUCED: log 23. -/
def reportBound (bRun : Nat) (sigma : Int) (delta : Nat) (saturated : Bool) : Nat :=
  let q : Nat := if 0 ≤ sigma then (bRun + 2 ^ sigma.toNat - 1) / 2 ^ sigma.toNat else bRun * 2 ^ (-sigma).toNat
  let v := q + delta
  if saturated || decide (2 ^ 32 ≤ v) then 0xFFFFFFFF else v

/-! ### Drain conversion (R41 to R44) -/

/-- Element size in bytes of a non-MX output (R66); out_fmt 0x0 to 0x5 and 0xC. -/
def outSize : Nat → Nat
  | 0 => 1 | 1 => 2 | 2 => 4 | 3 => 2 | 4 => 2 | 5 => 4 | 12 => 8 | _ => 0

/-- The MX format of out_fmt 0x6 to 0xB (R41). -/
def outMx : Nat → Option MxFmt
  | 6 => some .int8 | 7 => some .e4m3 | 8 => some .e5m2 | 9 => some .e3m2 | 10 => some .e2m3 | 11 => some .e2m1
  | _ => none

/-- One non-MX output: its bytes and whether it saturated (R41, R42). -/
def outElem (fmt : Nat) (rm : RoundMode) (sigma accExp acc : Int) : List Byte × Bool :=
  let int (w : Nat) : List Byte × Bool :=
    let r := roundPow rm acc (-sigma)
    let hi : Int := 2 ^ (w - 1) - 1
    (natBytes (w / 8) (unsigned w (clampInt (-hi - 1) hi r)), decide (r < -hi - 1) || decide (hi < r))
  let flt (f : FloatFmt) : List Byte × Bool :=
    let r := encodeFloat f rm acc accExp
    (natBytes (f.width / 8) r.1, r.2)
  match fmt with
  | 0 => int 8 | 1 => int 16 | 2 => int 32
  | 3 => flt fmtBF16 | 4 => flt fmtFP16 | 5 => flt fmtFP32
  | _ => (natBytes 8 (unsigned 64 acc), false)

/-- δ of R39 and R44 in units of 2^−16: half a unit for rounding to nearest, one unit (an excluded limit)
for rounding toward zero, nothing at σ = 0 or for other outputs. -/
def outDelta (fmt : Nat) (rm : RoundMode) (sigma : Int) : Nat :=
  if fmt ≤ 2 ∧ 0 < sigma then (match rm with | .nearestEven => 2 ^ 15 | .towardZero => 2 ^ 16) else 0

end Sys2Proof.Machine
end

