-- ==== Sys2Proof/Machine/Regs.lean ====
section
/-! DEFINITION. The register maps of the spec: where each register lies, what a write may change, and its reset value. -/

namespace Sys2Proof.Machine

/-- A register, or a doubly indexed array of registers, of a block: word i, j lies at
off + s1·i + s2·j. A set bit of a mask gives that bit the access code (R6); `reset` is the Reset column (R7), zero
where the column says fuse or fw. -/
structure RegRow where
  off : Nat
  c1 : Nat
  s1 : Nat
  c2 : Nat
  s2 : Nat
  rw : Nat
  w1c : Nat
  w1s : Nat
  rwl : Nat
  wo : Nat
  reset : Nat
  /-- cleared by the block's cnt_clear, and wrapping at its width (R73) -/
  cnt : Bool
  deriving DecidableEq, Repr

/-- Whether the row covers a byte offset of its block. -/
def RegRow.covers (r : RegRow) (off : Nat) : Bool :=
  decide (r.off ≤ off) &&
    (let d := off - r.off
     let i := if r.s1 = 0 then 0 else d / r.s1
     let rest := d - i * r.s1
     decide (i < r.c1) && (rest % r.s2 == 0) && decide (rest / r.s2 < r.c2))

/-! ### Offsets by name -/

def Reg.MTX_ID : Nat := 0x0
def Reg.MTX_STATUS : Nat := 0x4
def Reg.MTX_CTRL : Nat := 0x8
def Reg.MTX_PASS_INDEX : Nat := 0xC
def Reg.MTX_PASS_COUNT : Nat := 0x10
def Reg.MTX_DIGIT_CYCLES : Nat := 0x18
def Reg.MTX_SKIP_PLANES : Nat := 0x20
def Reg.MTX_STOP_PLANES : Nat := 0x28
def Reg.MTX_FEED_STALL : Nat := 0x30
def Reg.MTX_DRAIN_STALL : Nat := 0x34
def Reg.MTX_ACC_WAIT : Nat := 0x38
def Reg.MTX_STA_RELOADS : Nat := 0x3C
def Reg.MTX_SAT_COUNT : Nat := 0x40
def Reg.MTX_BOUND_PASS : Nat := 0x48
def Reg.MTX_BOUND_RUN : Nat := 0x50
def Reg.MTX_ERR_FLAGS : Nat := 0x60
def Reg.MTX_BUF_CE_COUNT : Nat := 0x64
def Reg.MTX_ACC_CE_COUNT : Nat := 0x68
def Reg.MTX_FAULT_COUNT : Nat := 0x6C
def Reg.MTX_FAULT_INFO : Nat := 0x70
def Reg.MTX_FAULT_PASS : Nat := 0x74
def Reg.MTX_FAULT_ADDR : Nat := 0x78
def Reg.VEC_ID : Nat := 0x0
def Reg.VEC_STATUS : Nat := 0x4
def Reg.VEC_CTRL : Nat := 0x8
def Reg.VEC_PACKETS : Nat := 0x10
def Reg.VEC_STALL : Nat := 0x18
def Reg.VEC_WAIT_STALL : Nat := 0x20
def Reg.VEC_SEND_STALL : Nat := 0x24
def Reg.VEC_SAT_COUNT : Nat := 0x28
def Reg.VEC_PORT_COLLIDE : Nat := 0x2C
def Reg.VEC_BLOCK_STATE : Nat := 0x30
def Reg.VEC_ERR_FLAGS : Nat := 0x50
def Reg.VEC_CE_COUNT : Nat := 0x54
def Reg.VEC_FAULT_COUNT : Nat := 0x58
def Reg.VEC_FAULT_INFO : Nat := 0x5C
def Reg.VEC_FAULT_ADDR : Nat := 0x60
def Reg.VEC_STATE_WINDOW : Nat := 0x1000
def Reg.STR_ID : Nat := 0x0
def Reg.STR_STATUS : Nat := 0x4
def Reg.STR_CTRL : Nat := 0x8
def Reg.STR_STAGING : Nat := 0xC
def Reg.STR_PAUSE_LIMIT : Nat := 0x10
def Reg.STR_ERR_FLAGS : Nat := 0x14
def Reg.STR_FAULT_COUNT : Nat := 0x18
def Reg.STR_SAT_COUNT : Nat := 0x1C
def Reg.STR_BYTES_IN : Nat := 0x20
def Reg.STR_BYTES_OUT : Nat := 0x28
def Reg.STR_CH_STATE : Nat := 0x100
def Reg.STR_CH_CTRL : Nat := 0x104
def Reg.STR_CH_STATUS : Nat := 0x108
def Reg.STR_CH_DELIVERED : Nat := 0x110
def Reg.STR_CH_FAULT_ADDR : Nat := 0x118
def Reg.STR_CH_CURSOR : Nat := 0x120
def Reg.STR_CH_CREDIT_WAIT : Nat := 0x130
def Reg.STR_CH_PAUSES : Nat := 0x134
def Reg.STR_CH_SAT : Nat := 0x138
def Reg.STR_CH_ROUNDED : Nat := 0x13C
def Reg.SEQ_DIE_ID : Nat := 0x0
def Reg.SEQ_BAY_ENABLED : Nat := 0x8
def Reg.SEQ_BAY_BUSY : Nat := 0x10
def Reg.SEQ_QTR_MAP : Nat := 0x18
def Reg.SEQ_RESET_STATE : Nat := 0x1C
def Reg.SEQ_JOBS_RUNNING : Nat := 0x20
def Reg.SEQ_DISPATCH_COUNT : Nat := 0x24
def Reg.SEQ_PREEMPT_COUNT : Nat := 0x28
def Reg.SEQ_CKPT_COUNT : Nat := 0x2C
def Reg.SEQ_CKPT_MAX_US : Nat := 0x30
def Reg.SEQ_MCAST_RETRY : Nat := 0x34
def Reg.SEQ_ERR_FLAGS : Nat := 0x38
def Reg.SEQ_FAULT_COUNT : Nat := 0x3C
def Reg.LGA_STATUS : Nat := 0x0
def Reg.LGA_CTRL : Nat := 0x4
def Reg.LGA_ERR_FLAGS : Nat := 0x8
def Reg.LGA_PLL_LOSS : Nat := 0x10
def Reg.LGA_CLK_MEAS : Nat := 0x40
def Reg.LGA_LL_CONTEND_COUNT : Nat := 0x80
def Reg.LGA_LL_CONTEND_INFO : Nat := 0x84
def Reg.LGA_BRAM_CE_COUNT : Nat := 0x88
def Reg.LGA_BRAM_UE_COUNT : Nat := 0x8C
def Reg.LGA_BRAM_FAULT : Nat := 0x90
def Reg.LGA_PORT_OPEN : Nat := 0xA0
def Reg.LGA_PORT_DROP_COUNT : Nat := 0xC0
def Reg.LGA_PORT_FAULT : Nat := 0xC4
def Reg.LGA_IO_BANK : Nat := 0xD0
def Reg.LGA_DELAY_CAL : Nat := 0xD4
def Reg.CFG_STATUS : Nat := 0x0
def Reg.CFG_CTRL : Nat := 0x4
def Reg.CFG_ERR_FLAGS : Nat := 0x8
def Reg.CFG_FAULT : Nat := 0xC
def Reg.CFG_FAULT_FADDR : Nat := 0x10
def Reg.CFG_FRAMES : Nat := 0x14
def Reg.CFG_LOADS : Nat := 0x18
def Reg.CFG_LOAD_FAILS : Nat := 0x1C
def Reg.CFG_REGION_STATE : Nat := 0x20
def Reg.CFG_REGION_OWNER : Nat := 0x40
def Reg.CFG_LL_FORCED : Nat := 0x80
def Reg.CFG_UPSET_CE_COUNT : Nat := 0xC0
def Reg.CFG_UPSET_ESS_COUNT : Nat := 0xC4
def Reg.CFG_UPSET_UE_COUNT : Nat := 0xC8
def Reg.CFG_ESS_RESETS : Nat := 0xCC
def Reg.CFG_UPSET_INFO : Nat := 0xD0
def Reg.CFG_UPSET_WORD : Nat := 0xD4
def Reg.CFG_SCRUB_SWEEP_US : Nat := 0xD8
def Reg.CFG_SCRUB_SWEEPS : Nat := 0xDC
def Reg.CFG_ESS_BASE : Nat := 0x100
def Reg.NOC_ID : Nat := 0x0
def Reg.NOC_CTRL : Nat := 0x4
def Reg.NOC_ISOLATED : Nat := 0x8
def Reg.NOC_ISOLATE_SET : Nat := 0xC
def Reg.NOC_ISOLATE_CLR : Nat := 0x10
def Reg.NOC_DEAD_LIMIT : Nat := 0x14
def Reg.NOC_RESP_LIMIT : Nat := 0x18
def Reg.NOC_ERR_FLAGS : Nat := 0x20
def Reg.NOC_CROSSING_RETRY : Nat := 0x24
def Reg.NOC_RIS_SHAPED : Nat := 0x28
def Reg.NOC_RIS_DEMOTED : Nat := 0x2C
def Reg.NOC_UNREACHABLE : Nat := 0x30
def Reg.NOC_RESP_TIMEOUT : Nat := 0x34
def Reg.NOC_ABSORBED : Nat := 0x38
def Reg.NOC_RIS_OVER : Nat := 0x3C
def Reg.NOC_ROUTE_MAP : Nat := 0x40
def Reg.NOC_SET_OUTSTANDING : Nat := 0x140
def Reg.NOC_STAT_REQ : Nat := 0x200
def Reg.NOC_STAT_BYTES_OUT : Nat := 0x208
def Reg.NOC_STAT_BYTES_IN : Nat := 0x210
def Reg.NOC_STAT_ERR : Nat := 0x218
def Reg.NOC_STAT_MAX_LAT : Nat := 0x21C
def Reg.NOC_STAT_HIST : Nat := 0x220
def Reg.CRM_STATUS : Nat := 0x0
def Reg.CRM_CTRL : Nat := 0x4
def Reg.CRM_ERR_FLAGS : Nat := 0x8
def Reg.CRM_CE_COUNT : Nat := 0xC
def Reg.CRM_UE_COUNT : Nat := 0x10
def Reg.CRM_HOLE_COUNT : Nat := 0x14
def Reg.CRM_UE_ADDR : Nat := 0x18
def Reg.CRM_UE_INFO : Nat := 0x20
def Reg.CRM_SCRUB_PERIOD : Nat := 0x24
def Reg.CRM_BYTES_RD : Nat := 0x28
def Reg.CRM_BYTES_WR : Nat := 0x30
def Reg.CRM_SLICE_ROWS : Nat := 0x100
def Reg.CRM_ROW_MAP : Nat := 0x1000
def Reg.DRC_STATUS : Nat := 0x0
def Reg.DRC_CTRL : Nat := 0x4
def Reg.DRC_CHAN_MAP : Nat := 0x8
def Reg.DRC_ERR_FLAGS : Nat := 0x10
def Reg.DRC_CLOSED_COUNT : Nat := 0x14
def Reg.DRC_HOLE_COUNT : Nat := 0x18
def Reg.DRC_RIS_MAX_NS : Nat := 0x1C
def Reg.DRC_SCRUB_PERIOD : Nat := 0x20
def Reg.DRC_CH_STATE : Nat := 0x1000
def Reg.DRC_CH_CTRL : Nat := 0x1004
def Reg.DRC_PD_TIMER : Nat := 0x1008
def Reg.DRC_DLY_CA : Nat := 0x1010
def Reg.DRC_DLY_WCK : Nat := 0x1014
def Reg.DRC_DLY_RD : Nat := 0x1018
def Reg.DRC_DLY_WR : Nat := 0x1020
def Reg.DRC_DESKEW_RD : Nat := 0x1028
def Reg.DRC_DESKEW_WR : Nat := 0x1030
def Reg.DRC_VREF : Nat := 0x1038
def Reg.DRC_TRAIN_PAT : Nat := 0x1040
def Reg.DRC_TRAIN_SEED : Nat := 0x1044
def Reg.DRC_TRAIN_ADDR : Nat := 0x1048
def Reg.DRC_TRAIN_RESULT : Nat := 0x104C
def Reg.DRC_TRAIN_ERRS : Nat := 0x1050
def Reg.DRC_CE_COUNT : Nat := 0x1060
def Reg.DRC_UE_COUNT : Nat := 0x1064
def Reg.DRC_LINK_CE_COUNT : Nat := 0x1068
def Reg.DRC_CHK_MISS : Nat := 0x106C
def Reg.DRC_UE_ADDR : Nat := 0x1070
def Reg.DRC_CH_ERR_FLAGS : Nat := 0x1078
def Reg.DRC_RD_BYTES : Nat := 0x1080
def Reg.DRC_WR_BYTES : Nat := 0x1088
def Reg.DRC_ACTS : Nat := 0x1090
def Reg.DRC_ROW_HITS : Nat := 0x1098
def Reg.DRC_PD_CYCLES : Nat := 0x10A0
def Reg.EOV_STATUS : Nat := 0x0
def Reg.EOV_CTRL : Nat := 0x4
def Reg.EOV_WTP_SEL : Nat := 0x8
def Reg.EOV_DRAIN_LIMIT : Nat := 0xC
def Reg.EOV_RESP_LIMIT : Nat := 0x10
def Reg.EOV_ERR_FLAGS : Nat := 0x14
def Reg.EOV_FAULT_COUNT : Nat := 0x18
def Reg.EOV_WT_FAULT : Nat := 0x1C
def Reg.EOV_WT_REFUSED : Nat := 0x20
def Reg.EOV_NO_WINDOW : Nat := 0x24
def Reg.EOV_PERM_REFUSED : Nat := 0x28
def Reg.EOV_RETRYABLE : Nat := 0x2C
def Reg.EOV_HOP_DROP : Nat := 0x30
def Reg.EOV_DRAIN_TIMEOUT : Nat := 0x34
def Reg.EOV_RESP_TIMEOUT : Nat := 0x38
def Reg.EOV_OUTSTANDING : Nat := 0x3C
def Reg.EOV_RX_ERR_INFO : Nat := 0x40
def Reg.EOV_RX_ERR_ADDR : Nat := 0x48
def Reg.EOV_DRAINING : Nat := 0x50
def Reg.EOV_DRAIN : Nat := 0x100
def Reg.EOV_P_TX_BYTES : Nat := 0x400
def Reg.EOV_P_RX_BYTES : Nat := 0x408
def Reg.EOV_P_TX_PKTS : Nat := 0x410
def Reg.EOV_P_RIS_SHAPED : Nat := 0x418
def Reg.EOV_P_RIS_MAX_NS : Nat := 0x41C
def Reg.EOV_P_DOWN_DROPS : Nat := 0x420
def Reg.LNK_STATUS : Nat := 0x0
def Reg.LNK_CTRL : Nat := 0x4
def Reg.LNK_ERR_FLAGS : Nat := 0x8
def Reg.LNK_FAULT_COUNT : Nat := 0xC
def Reg.LNK_P_STATE : Nat := 0x400
def Reg.LNK_P_CTRL : Nat := 0x404
def Reg.LNK_P_IDLE_TIMER : Nat := 0x408
def Reg.LNK_P_RETRY_TIMER : Nat := 0x40C
def Reg.LNK_P_RETRY_LIMIT : Nat := 0x410
def Reg.LNK_P_PPM : Nat := 0x414
def Reg.LNK_P_RETRIES : Nat := 0x418
def Reg.LNK_P_RETRY_MAX_NS : Nat := 0x41C
def Reg.LNK_P_CW : Nat := 0x420
def Reg.LNK_P_CW_CE : Nat := 0x428
def Reg.LNK_P_CW_UE : Nat := 0x430
def Reg.LNK_P_DOWNS : Nat := 0x434
def Reg.LNK_P_UP_US : Nat := 0x438
def Reg.LNK_P_TRAIN_FAILS : Nat := 0x43C
def Reg.LNK_P_STUFF_OVER : Nat := 0x440
def Reg.LNK_P_REMOTE : Nat := 0x444
def Reg.LNK_L_STATE : Nat := 0x1000
def Reg.LNK_L_EQ : Nat := 0x1004
def Reg.LNK_L_PAT : Nat := 0x1008
def Reg.LNK_L_INJECT : Nat := 0x100C
def Reg.LNK_L_CHK_BITS : Nat := 0x1010
def Reg.LNK_L_CHK_ERRS : Nat := 0x1018
def Reg.LNK_L_SYM_ERRS : Nat := 0x1020
def Reg.LNK_L_STUFFS : Nat := 0x1024
def Reg.LNK_L_STUFF_VIOL : Nat := 0x1028
def Reg.HIF_ID : Nat := 0x0
def Reg.HIF_STATUS : Nat := 0x4
def Reg.HIF_LINK_MODE : Nat := 0x8
def Reg.HIF_LINK_STATUS : Nat := 0xC
def Reg.HIF_CTRL : Nat := 0x10
def Reg.HIF_ERR_FLAGS : Nat := 0x14
def Reg.HIF_BAD_ACCESS_COUNT : Nat := 0x18
def Reg.HIF_RESERVED_ACCESS_COUNT : Nat := 0x1C
def Reg.HIF_DEAD_ACCESS_COUNT : Nat := 0x20
def Reg.HIF_ERR_INFO : Nat := 0x24
def Reg.HIF_BAR4_ERR_COUNT : Nat := 0x28
def Reg.HIF_BAR4_ERR_ADDR : Nat := 0x30
def Reg.HIF_BAR4_ERR_INFO : Nat := 0x38
def Reg.HIF_BAR4_MODE : Nat := 0x40
def Reg.HIF_BAR4_BASE : Nat := 0x48
def Reg.HIF_REPLAY_COUNT : Nat := 0x50
def Reg.HIF_RIS_KICK_MAX_NS : Nat := 0x54
def Reg.HIF_RIS_CPL_MAX_NS : Nat := 0x58
def Reg.HIF_RINGS : Nat := 0x5C
def Reg.HIF_RRS_COUNT : Nat := 0x60
def Reg.HIF_READY_US : Nat := 0x64
def Reg.HIF_KICK : Nat := 0x0
def Reg.HIF_VERSION_OFFER : Nat := 0x8
def Reg.HIF_VERSION_SEL : Nat := 0xC
def Reg.HIF_FN_STATUS : Nat := 0x10
def Reg.HIF_DBREC_BASE : Nat := 0x18
def Reg.HIF_RING_SEL : Nat := 0x20
def Reg.HIF_RING_BASE : Nat := 0x28
def Reg.HIF_RING_CFG : Nat := 0x30
def Reg.HIF_RING_IRQ : Nat := 0x34
def Reg.HIF_RING_CTRL : Nat := 0x38
def Reg.HIF_RING_STATE : Nat := 0x3C
def Reg.HIF_RING_COUNT : Nat := 0x40
def Reg.HIF_EVENT_CQ : Nat := 0x44
def Reg.HIF_FN_ERR_FLAGS : Nat := 0x48
def Reg.HIF_FN_EVENTS_LOST : Nat := 0x4C
def Reg.CTL_STATUS : Nat := 0x0
def Reg.CTL_CTRL : Nat := 0x4
def Reg.CTL_CHECK : Nat := 0x8
def Reg.CTL_ERR_FLAGS : Nat := 0xC
def Reg.CTL_FAULT_COUNT : Nat := 0x10
def Reg.CTL_TAMP_COUNT : Nat := 0x14
def Reg.CTL_TAMP_MAX_US : Nat := 0x18
def Reg.CTL_TAMP_LIMIT : Nat := 0x1C
def Reg.CTL_LAGGARD : Nat := 0x20
def Reg.CTL_PART_RESET : Nat := 0x24
def Reg.CTL_PART_RESETTING : Nat := 0x28
def Reg.CTL_SHADOW : Nat := 0x40000
def Reg.CTL_ACTIVE : Nat := 0x80000
def Reg.MBX_IN_LO : Nat := 0x0
def Reg.MBX_IN_HI : Nat := 0x4
def Reg.MBX_IN_SRC : Nat := 0x8
def Reg.MBX_STATUS : Nat := 0xC
def Reg.MBX_DB : Nat := 0x10
def Reg.MBX_DB_SET : Nat := 0x14
def Reg.MBX_DB_MASK : Nat := 0x18
def Reg.MBX_OWNER : Nat := 0x1C
def Reg.MBX_VECTOR : Nat := 0x20
def Reg.MBX_MSG_COUNT : Nat := 0x24
def Reg.MBX_OVERRUN_COUNT : Nat := 0x28
def Reg.MBX_DB_COUNT : Nat := 0x2C
def Reg.MBX_OUT_LO : Nat := 0x30
def Reg.MBX_OUT_HI : Nat := 0x34
def Reg.FPL_STATUS : Nat := 0x0
def Reg.FPL_DEGRADED_CAUSE : Nat := 0x4
def Reg.FPL_MTX_ENABLED : Nat := 0x8
def Reg.FPL_VEC_ENABLED : Nat := 0xC
def Reg.FPL_LANE_MAP : Nat := 0x10
def Reg.FPL_CHAN_MAP : Nat := 0x18
def Reg.FPL_QTR_USABLE : Nat := 0x20
def Reg.FPL_LOGIC_USABLE : Nat := 0x28
def Reg.FPL_CREMA_ROWS : Nat := 0x2C
def Reg.FPL_FIELD_USED : Nat := 0x30
def Reg.FPL_DEFECTS : Nat := 0x34
def Reg.FPL_ERR_FLAGS : Nat := 0x38
def Reg.FPL_D_MTX : Nat := 0x1000
def Reg.FPL_D_VEC : Nat := 0x1040
def Reg.FPL_D_BAY : Nat := 0x1048
def Reg.FPL_D_ROUTER : Nat := 0x1050
def Reg.FPL_D_CREMA_ROWS : Nat := 0x1060
def Reg.FPL_D_UNITS : Nat := 0x1064
def Reg.FPL_DEFECT : Nat := 0x4000
def Reg.FPL_FIELD : Nat := 0x10000
def Reg.TST_CMD : Nat := 0x0
def Reg.TST_STATUS : Nat := 0x4
def Reg.TST_ERR_FLAGS : Nat := 0x8
def Reg.TST_RUNS : Nat := 0xC
def Reg.TST_FAIL_COUNT : Nat := 0x10
def Reg.TST_BOOT_PHASE : Nat := 0x14
def Reg.TST_BOOT_T : Nat := 0x24
def Reg.TST_LAST_US : Nat := 0x40
def Reg.TST_MISR : Nat := 0x10000
def Reg.SEC_STATUS : Nat := 0x0
def Reg.SEC_CMD : Nat := 0x4
def Reg.SEC_RESULT : Nat := 0x8
def Reg.SEC_ERR_FLAGS : Nat := 0xC
def Reg.SEC_FAULT_COUNT : Nat := 0x10
def Reg.SEC_AUTH_FAILS : Nat := 0x14
def Reg.SEC_DEVICE_SERIAL : Nat := 0x18
def Reg.SEC_LOG_ENTRIES : Nat := 0x20
def Reg.SEC_VERIFY_MAX_US : Nat := 0x24
def Reg.SEC_CHALLENGE : Nat := 0x40
def Reg.SEC_RB : Nat := 0x100
def Reg.SEC_MREG : Nat := 0x800
def Reg.SEC_REQ : Nat := 0x1000
def Reg.SEC_RESP : Nat := 0x2000
def Reg.SEC_LOG : Nat := 0x80000
def Reg.RTC_TIME : Nat := 0x0
def Reg.RTC_STATUS : Nat := 0x8
def Reg.RTC_CAP_MV : Nat := 0xC
def Reg.RTC_SET_COUNT : Nat := 0x10
def Reg.RTC_LAST_SET : Nat := 0x18
def Reg.RTC_ERR_FLAGS : Nat := 0x20
def Reg.TWN_STATUS : Nat := 0x0
def Reg.TWN_CTRL : Nat := 0x4
def Reg.TWN_CFG : Nat := 0x8
def Reg.TWN_PARTNER : Nat := 0xC
def Reg.TWN_MIRROR_BASE : Nat := 0x10
def Reg.TWN_PARTNER_MIRROR : Nat := 0x18
def Reg.TWN_HB_MISS : Nat := 0x20
def Reg.TWN_SYNC_RATE : Nat := 0x24
def Reg.TWN_ERR_FLAGS : Nat := 0x28
def Reg.TWN_FAULT_COUNT : Nat := 0x2C
def Reg.TWN_HB_SENT : Nat := 0x30
def Reg.TWN_HB_MISSED : Nat := 0x38
def Reg.TWN_ATTACH_CAUSE : Nat := 0x3C
def Reg.TWN_MIRROR_WRITES : Nat := 0x40
def Reg.TWN_SYNC_US : Nat := 0x48
def Reg.TWN_TAKEOVER_ENTRIES : Nat := 0x4C
def Reg.TWN_RING : Nat := 0x100
def Reg.TWN_REGION_BASE : Nat := 0x400
def Reg.TWN_REGION_BYTES : Nat := 0x408
def Reg.TWN_REGION_OFF : Nat := 0x410
def Reg.PWR_STATUS : Nat := 0x0
def Reg.PWR_CTRL : Nat := 0x4
def Reg.PWR_ERR_FLAGS : Nat := 0x8
def Reg.PWR_FAULT_COUNT : Nat := 0xC
def Reg.PWR_INPUT : Nat := 0x10
def Reg.PWR_MODULE_W : Nat := 0x14
def Reg.PWR_SHUTDOWN_CAUSE : Nat := 0x18
def Reg.PWR_TRIP : Nat := 0x1C
def Reg.PWR_QTR_GATE : Nat := 0x20
def Reg.PWR_QTR_GATED : Nat := 0x28
def Reg.PWR_TLM_SEQ : Nat := 0x30
def Reg.PWR_TLM_HOST : Nat := 0x38
def Reg.PWR_D_STATUS : Nat := 0x100
def Reg.PWR_D_FLOOR : Nat := 0x104
def Reg.PWR_D_POWER : Nat := 0x108
def Reg.PWR_D_CAP : Nat := 0x10C
def Reg.PWR_D_UNDELIVERED : Nat := 0x110
def Reg.PWR_D_STRETCHES : Nat := 0x118
def Reg.PWR_TLM : Nat := 0x10000

/-! ### Maps -/

/-- The MTX block (R73). -/
def rowsMTX : List RegRow := [
  ⟨0x0, 1, 0x0, 1, 4, 0, 0, 0, 0, 0, 0, false⟩,
  ⟨0x4, 1, 0x0, 1, 4, 0, 0, 0, 0, 0, 0, false⟩,
  ⟨0x8, 1, 0x0, 1, 4, 0, 0, 0, 0, 0x3, 0, false⟩,
  ⟨0xC, 1, 0x0, 1, 4, 0, 0, 0, 0, 0, 0, false⟩,
  ⟨0x10, 1, 0x0, 1, 4, 0, 0, 0, 0, 0, 0, true⟩,
  ⟨0x18, 1, 0x0, 1, 4, 0, 0, 0, 0, 0, 0, true⟩,
  ⟨0x1C, 1, 0x0, 1, 4, 0, 0, 0, 0, 0, 0, true⟩,
  ⟨0x20, 1, 0x0, 1, 4, 0, 0, 0, 0, 0, 0, true⟩,
  ⟨0x24, 1, 0x0, 1, 4, 0, 0, 0, 0, 0, 0, true⟩,
  ⟨0x28, 1, 0x0, 1, 4, 0, 0, 0, 0, 0, 0, true⟩,
  ⟨0x2C, 1, 0x0, 1, 4, 0, 0, 0, 0, 0, 0, true⟩,
  ⟨0x30, 1, 0x0, 1, 4, 0, 0, 0, 0, 0, 0, true⟩,
  ⟨0x34, 1, 0x0, 1, 4, 0, 0, 0, 0, 0, 0, true⟩,
  ⟨0x38, 1, 0x0, 1, 4, 0, 0, 0, 0, 0, 0, true⟩,
  ⟨0x3C, 1, 0x0, 1, 4, 0, 0, 0, 0, 0, 0, true⟩,
  ⟨0x40, 1, 0x0, 1, 4, 0, 0, 0, 0, 0, 0, true⟩,
  ⟨0x48, 1, 0x0, 1, 4, 0, 0, 0, 0, 0, 0, false⟩,
  ⟨0x4C, 1, 0x0, 1, 4, 0, 0, 0, 0, 0, 0, false⟩,
  ⟨0x50, 1, 0x0, 1, 4, 0, 0, 0, 0, 0, 0, false⟩,
  ⟨0x54, 1, 0x0, 1, 4, 0, 0, 0, 0, 0, 0, false⟩,
  ⟨0x60, 1, 0x0, 1, 4, 0, 0xff, 0, 0, 0, 0, false⟩,
  ⟨0x64, 1, 0x0, 1, 4, 0, 0, 0, 0, 0, 0, true⟩,
  ⟨0x68, 1, 0x0, 1, 4, 0, 0, 0, 0, 0, 0, true⟩,
  ⟨0x6C, 1, 0x0, 1, 4, 0, 0, 0, 0, 0, 0, true⟩,
  ⟨0x70, 1, 0x0, 1, 4, 0, 0, 0, 0, 0, 0, false⟩,
  ⟨0x74, 1, 0x0, 1, 4, 0, 0, 0, 0, 0, 0, false⟩,
  ⟨0x78, 1, 0x0, 1, 4, 0, 0, 0, 0, 0, 0, false⟩]

/-- The VEC block (R116). -/
def rowsVEC : List RegRow := [
  ⟨0x0, 1, 0x0, 1, 4, 0, 0, 0, 0, 0, 0, false⟩,
  ⟨0x4, 1, 0x0, 1, 4, 0, 0, 0, 0, 0, 0, false⟩,
  ⟨0x8, 1, 0x0, 1, 4, 0, 0, 0, 0, 0x3, 0, false⟩,
  ⟨0x10, 1, 0x0, 1, 4, 0, 0, 0, 0, 0, 0, true⟩,
  ⟨0x14, 1, 0x0, 1, 4, 0, 0, 0, 0, 0, 0, true⟩,
  ⟨0x18, 1, 0x0, 1, 4, 0, 0, 0, 0, 0, 0, true⟩,
  ⟨0x1C, 1, 0x0, 1, 4, 0, 0, 0, 0, 0, 0, true⟩,
  ⟨0x20, 1, 0x0, 1, 4, 0, 0, 0, 0, 0, 0, true⟩,
  ⟨0x24, 1, 0x0, 1, 4, 0, 0, 0, 0, 0, 0, true⟩,
  ⟨0x28, 1, 0x0, 1, 4, 0, 0, 0, 0, 0, 0, true⟩,
  ⟨0x2C, 1, 0x0, 1, 4, 0, 0, 0, 0, 0, 0, true⟩,
  ⟨0x30, 1, 0x0, 8, 4, 0, 0, 0, 0, 0, 0, false⟩,
  ⟨0x50, 1, 0x0, 1, 4, 0, 0x7f, 0, 0, 0, 0, false⟩,
  ⟨0x54, 1, 0x0, 1, 4, 0, 0, 0, 0, 0, 0, true⟩,
  ⟨0x58, 1, 0x0, 1, 4, 0, 0, 0, 0, 0, 0, true⟩,
  ⟨0x5C, 1, 0x0, 1, 4, 0, 0, 0, 0, 0, 0, false⟩,
  ⟨0x60, 1, 0x0, 1, 4, 0, 0, 0, 0, 0, 0, false⟩,
  ⟨0x1000, 1, 0x0, 1024, 4, 0, 0, 0, 0, 0, 0, false⟩]

/-- The STR block (R144). -/
def rowsSTR : List RegRow := [
  ⟨0x0, 1, 0x0, 1, 4, 0, 0, 0, 0, 0, 0, false⟩,
  ⟨0x4, 1, 0x0, 1, 4, 0, 0, 0, 0, 0, 0, false⟩,
  ⟨0x8, 1, 0x0, 1, 4, 0, 0, 0, 0, 0x3, 0, false⟩,
  ⟨0xC, 1, 0x0, 1, 4, 0, 0, 0, 0, 0, 0x4040, false⟩,
  ⟨0x10, 1, 0x0, 1, 4, 0xffff, 0, 0, 0, 0, 0x4e20, false⟩,
  ⟨0x14, 1, 0x0, 1, 4, 0, 0xff, 0, 0, 0, 0, false⟩,
  ⟨0x18, 1, 0x0, 1, 4, 0, 0, 0, 0, 0, 0, true⟩,
  ⟨0x1C, 1, 0x0, 1, 4, 0, 0, 0, 0, 0, 0, true⟩,
  ⟨0x20, 1, 0x0, 1, 4, 0, 0, 0, 0, 0, 0, true⟩,
  ⟨0x24, 1, 0x0, 1, 4, 0, 0, 0, 0, 0, 0, true⟩,
  ⟨0x28, 1, 0x0, 1, 4, 0, 0, 0, 0, 0, 0, true⟩,
  ⟨0x2C, 1, 0x0, 1, 4, 0, 0, 0, 0, 0, 0, true⟩,
  ⟨0x100, 16, 0x40, 1, 4, 0, 0, 0, 0, 0, 0, false⟩,
  ⟨0x104, 16, 0x40, 1, 4, 0, 0, 0, 0, 0x3, 0, false⟩,
  ⟨0x108, 16, 0x40, 1, 4, 0, 0, 0, 0, 0, 0, false⟩,
  ⟨0x110, 16, 0x40, 1, 4, 0, 0, 0, 0, 0, 0, false⟩,
  ⟨0x114, 16, 0x40, 1, 4, 0, 0, 0, 0, 0, 0, false⟩,
  ⟨0x118, 16, 0x40, 1, 4, 0, 0, 0, 0, 0, 0, false⟩,
  ⟨0x11C, 16, 0x40, 1, 4, 0, 0, 0, 0, 0, 0, false⟩,
  ⟨0x120, 16, 0x40, 4, 4, 0, 0, 0, 0, 0, 0, false⟩,
  ⟨0x130, 16, 0x40, 1, 4, 0, 0, 0, 0, 0, 0, true⟩,
  ⟨0x134, 16, 0x40, 1, 4, 0, 0, 0, 0, 0, 0, true⟩,
  ⟨0x138, 16, 0x40, 1, 4, 0, 0, 0, 0, 0, 0, true⟩,
  ⟨0x13C, 16, 0x40, 1, 4, 0, 0, 0, 0, 0, 0, true⟩]

/-- The SEQ block (R166). -/
def rowsSEQ : List RegRow := [
  ⟨0x0, 1, 0x0, 1, 4, 0, 0, 0, 0, 0, 0, false⟩,
  ⟨0x8, 1, 0x0, 1, 4, 0, 0, 0, 0, 0, 0, false⟩,
  ⟨0xC, 1, 0x0, 1, 4, 0, 0, 0, 0, 0, 0, false⟩,
  ⟨0x10, 1, 0x0, 1, 4, 0, 0, 0, 0, 0, 0, false⟩,
  ⟨0x14, 1, 0x0, 1, 4, 0, 0, 0, 0, 0, 0, false⟩,
  ⟨0x18, 1, 0x0, 1, 4, 0, 0, 0, 0, 0, 0, false⟩,
  ⟨0x1C, 1, 0x0, 1, 4, 0, 0, 0, 0, 0, 0, false⟩,
  ⟨0x20, 1, 0x0, 1, 4, 0, 0, 0, 0, 0, 0, false⟩,
  ⟨0x24, 1, 0x0, 1, 4, 0, 0, 0, 0, 0, 0, false⟩,
  ⟨0x28, 1, 0x0, 1, 4, 0, 0, 0, 0, 0, 0, false⟩,
  ⟨0x2C, 1, 0x0, 1, 4, 0, 0, 0, 0, 0, 0, false⟩,
  ⟨0x30, 1, 0x0, 1, 4, 0, 0, 0, 0, 0, 0, false⟩,
  ⟨0x34, 1, 0x0, 1, 4, 0, 0, 0, 0, 0, 0, false⟩,
  ⟨0x38, 1, 0x0, 1, 4, 0, 0xfe, 0, 0, 0, 0, false⟩,
  ⟨0x3C, 1, 0x0, 1, 4, 0, 0, 0, 0, 0, 0, false⟩]

/-- The LGA block (R197). -/
def rowsLGA : List RegRow := [
  ⟨0x0, 1, 0x0, 1, 4, 0, 0, 0, 0, 0, 0, false⟩,
  ⟨0x4, 1, 0x0, 1, 4, 0, 0, 0, 0, 0x1, 0, false⟩,
  ⟨0x8, 1, 0x0, 1, 4, 0, 0xff, 0, 0, 0, 0, false⟩,
  ⟨0x10, 1, 0x0, 8, 4, 0, 0, 0, 0, 0, 0, true⟩,
  ⟨0x40, 1, 0x0, 16, 4, 0, 0, 0, 0, 0, 0, false⟩,
  ⟨0x80, 1, 0x0, 1, 4, 0, 0, 0, 0, 0, 0, true⟩,
  ⟨0x84, 1, 0x0, 1, 4, 0, 0, 0, 0, 0, 0, false⟩,
  ⟨0x88, 1, 0x0, 1, 4, 0, 0, 0, 0, 0, 0, true⟩,
  ⟨0x8C, 1, 0x0, 1, 4, 0, 0, 0, 0, 0, 0, true⟩,
  ⟨0x90, 1, 0x0, 1, 4, 0, 0, 0, 0, 0, 0, false⟩,
  ⟨0xA0, 1, 0x0, 8, 4, 0, 0, 0, 0, 0, 0, false⟩,
  ⟨0xC0, 1, 0x0, 1, 4, 0, 0, 0, 0, 0, 0, true⟩,
  ⟨0xC4, 1, 0x0, 1, 4, 0, 0, 0, 0, 0, 0, false⟩,
  ⟨0xD0, 1, 0x0, 1, 4, 0, 0, 0, 0, 0, 0, false⟩,
  ⟨0xD4, 1, 0x0, 1, 4, 0, 0, 0, 0, 0, 0, false⟩]

/-- The CFG block (R226). -/
def rowsCFG : List RegRow := [
  ⟨0x0, 1, 0x0, 1, 4, 0, 0, 0, 0, 0, 0, false⟩,
  ⟨0x4, 1, 0x0, 1, 4, 0, 0, 0, 0, 0x3, 0, false⟩,
  ⟨0x8, 1, 0x0, 1, 4, 0, 0xfff, 0, 0, 0, 0, false⟩,
  ⟨0xC, 1, 0x0, 1, 4, 0, 0, 0, 0, 0, 0, false⟩,
  ⟨0x10, 1, 0x0, 1, 4, 0, 0, 0, 0, 0, 0, false⟩,
  ⟨0x14, 1, 0x0, 1, 4, 0, 0, 0, 0, 0, 0, true⟩,
  ⟨0x18, 1, 0x0, 1, 4, 0, 0, 0, 0, 0, 0, true⟩,
  ⟨0x1C, 1, 0x0, 1, 4, 0, 0, 0, 0, 0, 0, true⟩,
  ⟨0x20, 1, 0x0, 8, 4, 0, 0, 0, 0, 0, 0, false⟩,
  ⟨0x40, 1, 0x0, 16, 4, 0xbfbfbfbf, 0, 0, 0, 0, 0, false⟩,
  ⟨0x80, 1, 0x0, 16, 4, 0, 0, 0, 0, 0, 0, false⟩,
  ⟨0xC0, 1, 0x0, 1, 4, 0, 0, 0, 0, 0, 0, true⟩,
  ⟨0xC4, 1, 0x0, 1, 4, 0, 0, 0, 0, 0, 0, true⟩,
  ⟨0xC8, 1, 0x0, 1, 4, 0, 0, 0, 0, 0, 0, true⟩,
  ⟨0xCC, 1, 0x0, 1, 4, 0, 0, 0, 0, 0, 0, true⟩,
  ⟨0xD0, 1, 0x0, 1, 4, 0, 0, 0, 0, 0, 0, false⟩,
  ⟨0xD4, 1, 0x0, 1, 4, 0, 0, 0, 0, 0, 0, false⟩,
  ⟨0xD8, 1, 0x0, 1, 4, 0, 0, 0, 0, 0, 0, false⟩,
  ⟨0xDC, 1, 0x0, 1, 4, 0, 0, 0, 0, 0, 0, true⟩,
  ⟨0x100, 1, 0x0, 65, 8, 0, 0, 0, 0, 0, 0, false⟩,
  ⟨0x104, 1, 0x0, 65, 8, 0, 0, 0, 0, 0, 0, false⟩]

/-- The NOC block (R247). -/
def rowsNOC : List RegRow := [
  ⟨0x0, 1, 0x0, 1, 4, 0, 0, 0, 0, 0, 0, false⟩,
  ⟨0x4, 1, 0x0, 1, 4, 0, 0, 0x2, 0, 0x1, 0, false⟩,
  ⟨0x8, 1, 0x0, 1, 4, 0, 0, 0, 0, 0, 0, false⟩,
  ⟨0xC, 1, 0x0, 1, 4, 0, 0, 0, 0, 0xffffffff, 0, false⟩,
  ⟨0x10, 1, 0x0, 1, 4, 0, 0, 0, 0, 0xffffffff, 0, false⟩,
  ⟨0x14, 1, 0x0, 1, 4, 0xffffffff, 0, 0, 0, 0, 0x13880, false⟩,
  ⟨0x18, 1, 0x0, 1, 4, 0xffff, 0, 0, 0, 0, 0x3e8, false⟩,
  ⟨0x20, 1, 0x0, 1, 4, 0, 0x7f, 0, 0, 0, 0, false⟩,
  ⟨0x24, 1, 0x0, 1, 4, 0, 0, 0, 0, 0, 0, true⟩,
  ⟨0x28, 1, 0x0, 1, 4, 0, 0, 0, 0, 0, 0, true⟩,
  ⟨0x2C, 1, 0x0, 1, 4, 0, 0, 0, 0, 0, 0, true⟩,
  ⟨0x30, 1, 0x0, 1, 4, 0, 0, 0, 0, 0, 0, true⟩,
  ⟨0x34, 1, 0x0, 1, 4, 0, 0, 0, 0, 0, 0, true⟩,
  ⟨0x38, 1, 0x0, 1, 4, 0, 0, 0, 0, 0, 0, true⟩,
  ⟨0x3C, 1, 0x0, 1, 4, 0, 0, 0, 0, 0, 0, true⟩,
  ⟨0x40, 1, 0x0, 64, 4, 0, 0, 0, 0xffffffff, 0, 0, false⟩,
  ⟨0x140, 1, 0x0, 1, 4, 0, 0, 0, 0, 0, 0, false⟩,
  ⟨0x200, 16, 0x60, 1, 4, 0, 0, 0, 0, 0, 0, true⟩,
  ⟨0x204, 16, 0x60, 1, 4, 0, 0, 0, 0, 0, 0, true⟩,
  ⟨0x208, 16, 0x60, 1, 4, 0, 0, 0, 0, 0, 0, true⟩,
  ⟨0x20C, 16, 0x60, 1, 4, 0, 0, 0, 0, 0, 0, true⟩,
  ⟨0x210, 16, 0x60, 1, 4, 0, 0, 0, 0, 0, 0, true⟩,
  ⟨0x214, 16, 0x60, 1, 4, 0, 0, 0, 0, 0, 0, true⟩,
  ⟨0x218, 16, 0x60, 1, 4, 0, 0, 0, 0, 0, 0, true⟩,
  ⟨0x21C, 16, 0x60, 1, 4, 0, 0, 0, 0, 0, 0, false⟩,
  ⟨0x220, 16, 0x60, 16, 4, 0, 0, 0, 0, 0, 0, true⟩]

/-- The CRM block (R267). -/
def rowsCRM : List RegRow := [
  ⟨0x0, 1, 0x0, 1, 4, 0, 0, 0, 0, 0, 0, false⟩,
  ⟨0x4, 1, 0x0, 1, 4, 0, 0, 0, 0, 0x3, 0, false⟩,
  ⟨0x8, 1, 0x0, 1, 4, 0, 0x1f, 0, 0, 0, 0, false⟩,
  ⟨0xC, 1, 0x0, 1, 4, 0, 0, 0, 0, 0, 0, true⟩,
  ⟨0x10, 1, 0x0, 1, 4, 0, 0, 0, 0, 0, 0, true⟩,
  ⟨0x14, 1, 0x0, 1, 4, 0, 0, 0, 0, 0, 0, true⟩,
  ⟨0x18, 1, 0x0, 1, 4, 0, 0, 0, 0, 0, 0, false⟩,
  ⟨0x1C, 1, 0x0, 1, 4, 0, 0, 0, 0, 0, 0, false⟩,
  ⟨0x20, 1, 0x0, 1, 4, 0, 0, 0, 0, 0, 0, false⟩,
  ⟨0x24, 1, 0x0, 1, 4, 0xffff, 0, 0, 0, 0, 0x18, false⟩,
  ⟨0x28, 1, 0x0, 1, 4, 0, 0, 0, 0, 0, 0, true⟩,
  ⟨0x2C, 1, 0x0, 1, 4, 0, 0, 0, 0, 0, 0, true⟩,
  ⟨0x30, 1, 0x0, 1, 4, 0, 0, 0, 0, 0, 0, true⟩,
  ⟨0x34, 1, 0x0, 1, 4, 0, 0, 0, 0, 0, 0, true⟩,
  ⟨0x100, 1, 0x0, 64, 4, 0, 0, 0, 0, 0, 0, false⟩,
  ⟨0x1000, 64, 0xC0, 48, 4, 0, 0, 0, 0, 0, 0, false⟩]

/-- The DRC block (R268). -/
def rowsDRC : List RegRow := [
  ⟨0x0, 1, 0x0, 1, 4, 0, 0, 0, 0, 0, 0, false⟩,
  ⟨0x4, 1, 0x0, 1, 4, 0, 0, 0, 0, 0x1, 0, false⟩,
  ⟨0x8, 1, 0x0, 1, 4, 0, 0, 0, 0, 0, 0, false⟩,
  ⟨0xC, 1, 0x0, 1, 4, 0, 0, 0, 0, 0, 0, false⟩,
  ⟨0x10, 1, 0x0, 1, 4, 0, 0x7, 0, 0, 0, 0, false⟩,
  ⟨0x14, 1, 0x0, 1, 4, 0, 0, 0, 0, 0, 0, true⟩,
  ⟨0x18, 1, 0x0, 1, 4, 0, 0, 0, 0, 0, 0, true⟩,
  ⟨0x1C, 1, 0x0, 1, 4, 0, 0, 0, 0, 0, 0, false⟩,
  ⟨0x20, 1, 0x0, 1, 4, 0xffff, 0, 0, 0, 0, 0x18, false⟩,
  ⟨0x1000, 16, 0x400, 1, 4, 0, 0, 0, 0, 0, 0x20000000, false⟩,
  ⟨0x1004, 16, 0x400, 1, 4, 0, 0, 0, 0, 0x7, 0, false⟩,
  ⟨0x1008, 16, 0x400, 1, 4, 0xffff, 0, 0, 0, 0, 0x40, false⟩,
  ⟨0x1010, 16, 0x400, 1, 4, 0x1ff, 0, 0, 0, 0, 0, false⟩,
  ⟨0x1014, 16, 0x400, 1, 4, 0x1ff, 0, 0, 0, 0, 0, false⟩,
  ⟨0x1018, 16, 0x400, 2, 4, 0x1ff, 0, 0, 0, 0, 0, false⟩,
  ⟨0x1020, 16, 0x400, 2, 4, 0x1ff, 0, 0, 0, 0, 0, false⟩,
  ⟨0x1028, 16, 0x400, 2, 4, 0xffffffff, 0, 0, 0, 0, 0, false⟩,
  ⟨0x1030, 16, 0x400, 2, 4, 0xffffffff, 0, 0, 0, 0, 0, false⟩,
  ⟨0x1038, 16, 0x400, 1, 4, 0x3f3f, 0, 0, 0, 0, 0, false⟩,
  ⟨0x1040, 16, 0x400, 1, 4, 0xf800ffff, 0, 0, 0, 0, 0, false⟩,
  ⟨0x1044, 16, 0x400, 1, 4, 0xffffffff, 0, 0, 0, 0, 0, false⟩,
  ⟨0x1048, 16, 0x400, 1, 4, 0x3ffffff, 0, 0, 0, 0, 0, false⟩,
  ⟨0x104C, 16, 0x400, 1, 4, 0, 0, 0, 0, 0, 0, false⟩,
  ⟨0x1050, 16, 0x400, 1, 4, 0, 0, 0, 0, 0, 0, false⟩,
  ⟨0x1060, 16, 0x400, 1, 4, 0, 0, 0, 0, 0, 0, true⟩,
  ⟨0x1064, 16, 0x400, 1, 4, 0, 0, 0, 0, 0, 0, true⟩,
  ⟨0x1068, 16, 0x400, 1, 4, 0, 0, 0, 0, 0, 0, true⟩,
  ⟨0x106C, 16, 0x400, 1, 4, 0, 0, 0, 0, 0, 0, true⟩,
  ⟨0x1070, 16, 0x400, 1, 4, 0, 0, 0, 0, 0, 0, false⟩,
  ⟨0x1074, 16, 0x400, 1, 4, 0, 0, 0, 0, 0, 0, false⟩,
  ⟨0x1078, 16, 0x400, 1, 4, 0, 0x1f, 0, 0, 0, 0, false⟩,
  ⟨0x1080, 16, 0x400, 1, 4, 0, 0, 0, 0, 0, 0, true⟩,
  ⟨0x1084, 16, 0x400, 1, 4, 0, 0, 0, 0, 0, 0, true⟩,
  ⟨0x1088, 16, 0x400, 1, 4, 0, 0, 0, 0, 0, 0, true⟩,
  ⟨0x108C, 16, 0x400, 1, 4, 0, 0, 0, 0, 0, 0, true⟩,
  ⟨0x1090, 16, 0x400, 1, 4, 0, 0, 0, 0, 0, 0, true⟩,
  ⟨0x1094, 16, 0x400, 1, 4, 0, 0, 0, 0, 0, 0, true⟩,
  ⟨0x1098, 16, 0x400, 1, 4, 0, 0, 0, 0, 0, 0, true⟩,
  ⟨0x109C, 16, 0x400, 1, 4, 0, 0, 0, 0, 0, 0, true⟩,
  ⟨0x10A0, 16, 0x400, 1, 4, 0, 0, 0, 0, 0, 0, true⟩,
  ⟨0x10A4, 16, 0x400, 1, 4, 0, 0, 0, 0, 0, 0, true⟩]

/-- The EOV block (R293). -/
def rowsEOV : List RegRow := [
  ⟨0x0, 1, 0x0, 1, 4, 0, 0, 0, 0, 0, 0, false⟩,
  ⟨0x4, 1, 0x0, 1, 4, 0, 0, 0, 0, 0x1, 0, false⟩,
  ⟨0x8, 1, 0x0, 1, 4, 0x1, 0, 0, 0, 0, 0, false⟩,
  ⟨0xC, 1, 0x0, 1, 4, 0x1ff, 0, 0, 0, 0, 0xc8, false⟩,
  ⟨0x10, 1, 0x0, 1, 4, 0x1ff, 0, 0, 0, 0, 0x15e, false⟩,
  ⟨0x14, 1, 0x0, 1, 4, 0, 0x7ff, 0, 0, 0, 0, false⟩,
  ⟨0x18, 1, 0x0, 1, 4, 0, 0, 0, 0, 0, 0, true⟩,
  ⟨0x1C, 1, 0x0, 1, 4, 0, 0, 0, 0, 0, 0, false⟩,
  ⟨0x20, 1, 0x0, 1, 4, 0, 0, 0, 0, 0, 0, true⟩,
  ⟨0x24, 1, 0x0, 1, 4, 0, 0, 0, 0, 0, 0, true⟩,
  ⟨0x28, 1, 0x0, 1, 4, 0, 0, 0, 0, 0, 0, true⟩,
  ⟨0x2C, 1, 0x0, 1, 4, 0, 0, 0, 0, 0, 0, true⟩,
  ⟨0x30, 1, 0x0, 1, 4, 0, 0, 0, 0, 0, 0, true⟩,
  ⟨0x34, 1, 0x0, 1, 4, 0, 0, 0, 0, 0, 0, true⟩,
  ⟨0x38, 1, 0x0, 1, 4, 0, 0, 0, 0, 0, 0, true⟩,
  ⟨0x3C, 1, 0x0, 1, 4, 0, 0, 0, 0, 0, 0, false⟩,
  ⟨0x40, 1, 0x0, 1, 4, 0, 0, 0, 0, 0, 0, false⟩,
  ⟨0x48, 1, 0x0, 1, 4, 0, 0, 0, 0, 0, 0, false⟩,
  ⟨0x4C, 1, 0x0, 1, 4, 0, 0, 0, 0, 0, 0, false⟩,
  ⟨0x50, 1, 0x0, 1, 4, 0, 0, 0, 0, 0, 0, false⟩,
  ⟨0x100, 1, 0x0, 64, 8, 0, 0, 0, 0, 0, 0, false⟩,
  ⟨0x104, 1, 0x0, 64, 8, 0, 0, 0, 0, 0, 0, false⟩,
  ⟨0x400, 3, 0x100, 1, 4, 0, 0, 0, 0, 0, 0, true⟩,
  ⟨0x404, 3, 0x100, 1, 4, 0, 0, 0, 0, 0, 0, true⟩,
  ⟨0x408, 3, 0x100, 1, 4, 0, 0, 0, 0, 0, 0, true⟩,
  ⟨0x40C, 3, 0x100, 1, 4, 0, 0, 0, 0, 0, 0, true⟩,
  ⟨0x410, 3, 0x100, 1, 4, 0, 0, 0, 0, 0, 0, true⟩,
  ⟨0x414, 3, 0x100, 1, 4, 0, 0, 0, 0, 0, 0, true⟩,
  ⟨0x418, 3, 0x100, 1, 4, 0, 0, 0, 0, 0, 0, true⟩,
  ⟨0x41C, 3, 0x100, 1, 4, 0, 0, 0, 0, 0, 0, false⟩,
  ⟨0x420, 3, 0x100, 1, 4, 0, 0, 0, 0, 0, 0, true⟩]

/-- The LNK block (R313). -/
def rowsLNK : List RegRow := [
  ⟨0x0, 1, 0x0, 1, 4, 0, 0, 0, 0, 0, 0, false⟩,
  ⟨0x4, 1, 0x0, 1, 4, 0, 0, 0, 0, 0x1, 0, false⟩,
  ⟨0x8, 1, 0x0, 1, 4, 0, 0x1ff, 0, 0, 0, 0, false⟩,
  ⟨0xC, 1, 0x0, 1, 4, 0, 0, 0, 0, 0, 0, true⟩,
  ⟨0x400, 3, 0x100, 1, 4, 0xc00000, 0, 0, 0, 0, 0, false⟩,
  ⟨0x404, 3, 0x100, 1, 4, 0x5, 0, 0, 0, 0x2, 0, false⟩,
  ⟨0x408, 3, 0x100, 1, 4, 0xffff, 0, 0, 0, 0, 0, false⟩,
  ⟨0x40C, 3, 0x100, 1, 4, 0xffff, 0, 0, 0, 0, 0xc8, false⟩,
  ⟨0x410, 3, 0x100, 1, 4, 0x1f, 0, 0, 0, 0, 0x10, false⟩,
  ⟨0x414, 3, 0x100, 1, 4, 0, 0, 0, 0, 0, 0, false⟩,
  ⟨0x418, 3, 0x100, 1, 4, 0, 0, 0, 0, 0, 0, true⟩,
  ⟨0x41C, 3, 0x100, 1, 4, 0, 0, 0, 0, 0, 0, false⟩,
  ⟨0x420, 3, 0x100, 1, 4, 0, 0, 0, 0, 0, 0, true⟩,
  ⟨0x424, 3, 0x100, 1, 4, 0, 0, 0, 0, 0, 0, true⟩,
  ⟨0x428, 3, 0x100, 1, 4, 0, 0, 0, 0, 0, 0, true⟩,
  ⟨0x42C, 3, 0x100, 1, 4, 0, 0, 0, 0, 0, 0, true⟩,
  ⟨0x430, 3, 0x100, 1, 4, 0, 0, 0, 0, 0, 0, true⟩,
  ⟨0x434, 3, 0x100, 1, 4, 0, 0, 0, 0, 0, 0, true⟩,
  ⟨0x438, 3, 0x100, 1, 4, 0, 0, 0, 0, 0, 0, false⟩,
  ⟨0x43C, 3, 0x100, 1, 4, 0, 0, 0, 0, 0, 0, true⟩,
  ⟨0x440, 3, 0x100, 1, 4, 0, 0, 0, 0, 0, 0, true⟩,
  ⟨0x444, 3, 0x100, 1, 4, 0, 0, 0, 0, 0, 0, false⟩,
  ⟨0x1000, 12, 0x100, 1, 4, 0, 0, 0, 0, 0, 0, false⟩,
  ⟨0x1004, 12, 0x100, 1, 4, 0xbfffe000, 0, 0, 0, 0, 0x210000, false⟩,
  ⟨0x1008, 12, 0x100, 1, 4, 0xf0000000, 0, 0, 0, 0, 0, false⟩,
  ⟨0x100C, 12, 0x100, 1, 4, 0, 0, 0, 0, 0xc000003f, 0, false⟩,
  ⟨0x1010, 12, 0x100, 1, 4, 0, 0, 0, 0, 0, 0, true⟩,
  ⟨0x1014, 12, 0x100, 1, 4, 0, 0, 0, 0, 0, 0, true⟩,
  ⟨0x1018, 12, 0x100, 1, 4, 0, 0, 0, 0, 0, 0, true⟩,
  ⟨0x101C, 12, 0x100, 1, 4, 0, 0, 0, 0, 0, 0, true⟩,
  ⟨0x1020, 12, 0x100, 1, 4, 0, 0, 0, 0, 0, 0, true⟩,
  ⟨0x1024, 12, 0x100, 1, 4, 0, 0, 0, 0, 0, 0, true⟩,
  ⟨0x1028, 12, 0x100, 1, 4, 0, 0, 0, 0, 0, 0, true⟩]

/-- The HIF block (R338). -/
def rowsHIF : List RegRow := [
  ⟨0x0, 1, 0x0, 1, 4, 0, 0, 0, 0, 0, 0x6a160000, false⟩,
  ⟨0x4, 1, 0x0, 1, 4, 0, 0, 0, 0, 0, 0, false⟩,
  ⟨0x8, 1, 0x0, 1, 4, 0, 0, 0x80000000, 0x1, 0, 0, false⟩,
  ⟨0xC, 1, 0x0, 1, 4, 0, 0, 0, 0, 0, 0, false⟩,
  ⟨0x10, 1, 0x0, 1, 4, 0, 0, 0, 0, 0x1, 0, false⟩,
  ⟨0x14, 1, 0x0, 1, 4, 0, 0x3f, 0, 0, 0, 0, false⟩,
  ⟨0x18, 1, 0x0, 1, 4, 0, 0, 0, 0, 0, 0, true⟩,
  ⟨0x1C, 1, 0x0, 1, 4, 0, 0, 0, 0, 0, 0, true⟩,
  ⟨0x20, 1, 0x0, 1, 4, 0, 0, 0, 0, 0, 0, true⟩,
  ⟨0x24, 1, 0x0, 1, 4, 0, 0, 0, 0, 0, 0, false⟩,
  ⟨0x28, 1, 0x0, 1, 4, 0, 0, 0, 0, 0, 0, true⟩,
  ⟨0x30, 1, 0x0, 1, 4, 0, 0, 0, 0, 0, 0, false⟩,
  ⟨0x34, 1, 0x0, 1, 4, 0, 0, 0, 0, 0, 0, false⟩,
  ⟨0x38, 1, 0x0, 1, 4, 0, 0, 0, 0, 0, 0, false⟩,
  ⟨0x40, 1, 0x0, 1, 4, 0x1, 0, 0, 0, 0, 0, false⟩,
  ⟨0x48, 1, 0x0, 1, 4, 0xffffffff, 0, 0, 0, 0, 0, false⟩,
  ⟨0x4C, 1, 0x0, 1, 4, 0xffffffff, 0, 0, 0, 0, 0, false⟩,
  ⟨0x50, 1, 0x0, 1, 4, 0, 0, 0, 0, 0, 0, true⟩,
  ⟨0x54, 1, 0x0, 1, 4, 0, 0, 0, 0, 0, 0, false⟩,
  ⟨0x58, 1, 0x0, 1, 4, 0, 0, 0, 0, 0, 0, false⟩,
  ⟨0x5C, 1, 0x0, 1, 4, 0, 0, 0, 0, 0, 0, false⟩,
  ⟨0x60, 1, 0x0, 1, 4, 0, 0, 0, 0, 0, 0, true⟩,
  ⟨0x64, 1, 0x0, 1, 4, 0, 0, 0, 0, 0, 0, false⟩]

/-- The PAGE block (R339). -/
def rowsPAGE : List RegRow := [
  ⟨0x0, 1, 0x0, 1, 4, 0, 0, 0xffffffff, 0, 0, 0, false⟩,
  ⟨0x8, 1, 0x0, 1, 4, 0xffffffff, 0, 0, 0, 0, 0, false⟩,
  ⟨0xC, 1, 0x0, 1, 4, 0, 0, 0, 0, 0, 0, false⟩,
  ⟨0x10, 1, 0x0, 1, 4, 0, 0, 0, 0, 0, 0, false⟩,
  ⟨0x18, 1, 0x0, 1, 4, 0xffffffff, 0, 0, 0, 0, 0, false⟩,
  ⟨0x1C, 1, 0x0, 1, 4, 0xffffffff, 0, 0, 0, 0, 0, false⟩,
  ⟨0x20, 1, 0x0, 1, 4, 0x800003ff, 0, 0, 0, 0, 0, false⟩,
  ⟨0x28, 1, 0x0, 1, 4, 0xffffffff, 0, 0, 0, 0, 0, false⟩,
  ⟨0x2C, 1, 0x0, 1, 4, 0xffffffff, 0, 0, 0, 0, 0, false⟩,
  ⟨0x30, 1, 0x0, 1, 4, 0x1ffff7ff, 0, 0, 0, 0, 0, false⟩,
  ⟨0x34, 1, 0x0, 1, 4, 0xffffffff, 0, 0, 0, 0, 0, false⟩,
  ⟨0x38, 1, 0x0, 1, 4, 0, 0, 0, 0, 0x3, 0, false⟩,
  ⟨0x3C, 1, 0x0, 1, 4, 0, 0, 0, 0, 0, 0, false⟩,
  ⟨0x40, 1, 0x0, 1, 4, 0, 0, 0, 0, 0, 0, false⟩,
  ⟨0x44, 1, 0x0, 1, 4, 0x800003ff, 0, 0, 0, 0, 0, false⟩,
  ⟨0x48, 1, 0x0, 1, 4, 0, 0xf, 0, 0, 0, 0, false⟩,
  ⟨0x4C, 1, 0x0, 1, 4, 0, 0, 0, 0, 0, 0, false⟩]

/-- The CTL block (R358). -/
def rowsCTL : List RegRow := [
  ⟨0x0, 1, 0x0, 1, 4, 0, 0, 0, 0, 0, 0, false⟩,
  ⟨0x4, 1, 0x0, 1, 4, 0, 0, 0, 0, 0xf, 0, false⟩,
  ⟨0x8, 1, 0x0, 1, 4, 0, 0, 0, 0, 0, 0, false⟩,
  ⟨0xC, 1, 0x0, 1, 4, 0, 0x1f, 0, 0, 0, 0, false⟩,
  ⟨0x10, 1, 0x0, 1, 4, 0, 0, 0, 0, 0, 0, true⟩,
  ⟨0x14, 1, 0x0, 1, 4, 0, 0, 0, 0, 0, 0, true⟩,
  ⟨0x18, 1, 0x0, 1, 4, 0, 0, 0, 0, 0, 0, false⟩,
  ⟨0x1C, 1, 0x0, 1, 4, 0xffff, 0, 0, 0, 0, 0x3e8, false⟩,
  ⟨0x20, 1, 0x0, 1, 4, 0, 0, 0, 0, 0, 0, false⟩,
  ⟨0x24, 1, 0x0, 1, 4, 0, 0, 0xffff, 0, 0, 0, false⟩,
  ⟨0x28, 1, 0x0, 1, 4, 0, 0, 0, 0, 0, 0, false⟩,
  ⟨0x40000, 1, 0x0, 32768, 4, 0xffffffff, 0, 0, 0, 0, 0, false⟩,
  ⟨0x80000, 1, 0x0, 32768, 4, 0, 0, 0, 0, 0, 0, false⟩]

/-- The MBX block (R359). -/
def rowsMBX : List RegRow := [
  ⟨0x0, 64, 0x1000, 1, 4, 0, 0, 0, 0, 0, 0, false⟩,
  ⟨0x4, 64, 0x1000, 1, 4, 0, 0, 0, 0, 0, 0, false⟩,
  ⟨0x8, 64, 0x1000, 1, 4, 0, 0, 0, 0, 0, 0, false⟩,
  ⟨0xC, 64, 0x1000, 1, 4, 0, 0x3, 0, 0, 0, 0, false⟩,
  ⟨0x10, 64, 0x1000, 1, 4, 0, 0xffffffff, 0, 0, 0, 0, false⟩,
  ⟨0x14, 64, 0x1000, 1, 4, 0, 0, 0xffffffff, 0, 0, 0, false⟩,
  ⟨0x18, 64, 0x1000, 1, 4, 0xffffffff, 0, 0, 0, 0, 0xffffffff, false⟩,
  ⟨0x1C, 64, 0x1000, 1, 4, 0, 0, 0, 0, 0, 0, false⟩,
  ⟨0x20, 64, 0x1000, 1, 4, 0x7ff, 0, 0, 0, 0, 0, false⟩,
  ⟨0x24, 64, 0x1000, 1, 4, 0, 0, 0, 0, 0, 0, false⟩,
  ⟨0x28, 64, 0x1000, 1, 4, 0, 0, 0, 0, 0, 0, false⟩,
  ⟨0x2C, 64, 0x1000, 1, 4, 0, 0, 0, 0, 0, 0, false⟩,
  ⟨0x30, 64, 0x1000, 1, 4, 0, 0, 0, 0, 0xffffffff, 0, false⟩,
  ⟨0x34, 64, 0x1000, 1, 4, 0, 0, 0, 0, 0xffffffff, 0, false⟩]

/-- The FPL block (R376). -/
def rowsFPL : List RegRow := [
  ⟨0x0, 1, 0x0, 1, 4, 0, 0, 0, 0, 0, 0, false⟩,
  ⟨0x4, 1, 0x0, 1, 4, 0, 0, 0, 0, 0, 0, false⟩,
  ⟨0x8, 1, 0x0, 1, 4, 0, 0, 0, 0, 0, 0, false⟩,
  ⟨0xC, 1, 0x0, 1, 4, 0, 0, 0, 0, 0, 0, false⟩,
  ⟨0x10, 1, 0x0, 1, 4, 0, 0, 0, 0, 0, 0, false⟩,
  ⟨0x14, 1, 0x0, 1, 4, 0, 0, 0, 0, 0, 0, false⟩,
  ⟨0x18, 1, 0x0, 1, 4, 0, 0, 0, 0, 0, 0, false⟩,
  ⟨0x1C, 1, 0x0, 1, 4, 0, 0, 0, 0, 0, 0, false⟩,
  ⟨0x20, 1, 0x0, 1, 4, 0, 0, 0, 0, 0, 0, false⟩,
  ⟨0x24, 1, 0x0, 1, 4, 0, 0, 0, 0, 0, 0, false⟩,
  ⟨0x28, 1, 0x0, 1, 4, 0, 0, 0, 0, 0, 0, false⟩,
  ⟨0x2C, 1, 0x0, 1, 4, 0, 0, 0, 0, 0, 0, false⟩,
  ⟨0x30, 1, 0x0, 1, 4, 0, 0, 0, 0, 0, 0, false⟩,
  ⟨0x34, 1, 0x0, 1, 4, 0, 0, 0, 0, 0, 0, false⟩,
  ⟨0x38, 1, 0x0, 1, 4, 0, 0xf, 0, 0, 0, 0, false⟩,
  ⟨0x1000, 16, 0x100, 16, 4, 0, 0, 0, 0, 0, 0, false⟩,
  ⟨0x1040, 16, 0x100, 1, 4, 0, 0, 0, 0, 0, 0, false⟩,
  ⟨0x1044, 16, 0x100, 1, 4, 0, 0, 0, 0, 0, 0, false⟩,
  ⟨0x1048, 16, 0x100, 1, 4, 0, 0, 0, 0, 0, 0, false⟩,
  ⟨0x104C, 16, 0x100, 1, 4, 0, 0, 0, 0, 0, 0, false⟩,
  ⟨0x1050, 16, 0x100, 4, 4, 0, 0, 0, 0, 0, 0, false⟩,
  ⟨0x1060, 16, 0x100, 1, 4, 0, 0, 0, 0, 0, 0, false⟩,
  ⟨0x1064, 16, 0x100, 1, 4, 0, 0, 0, 0, 0, 0, false⟩,
  ⟨0x4000, 1, 0x0, 6144, 8, 0, 0, 0, 0, 0, 0, false⟩,
  ⟨0x4004, 1, 0x0, 6144, 8, 0, 0, 0, 0, 0, 0, false⟩,
  ⟨0x10000, 1, 0x0, 512, 4, 0, 0, 0, 0, 0, 0, false⟩]

/-- The TST block (R377). -/
def rowsTST : List RegRow := [
  ⟨0x0, 1, 0x0, 1, 4, 0, 0, 0, 0, 0xf800003f, 0, false⟩,
  ⟨0x4, 1, 0x0, 1, 4, 0, 0, 0, 0, 0, 0, false⟩,
  ⟨0x8, 1, 0x0, 1, 4, 0, 0x3, 0, 0, 0, 0, false⟩,
  ⟨0xC, 1, 0x0, 1, 4, 0, 0, 0, 0, 0, 0, false⟩,
  ⟨0x10, 1, 0x0, 1, 4, 0, 0, 0, 0, 0, 0, false⟩,
  ⟨0x14, 1, 0x0, 1, 4, 0, 0, 0, 0, 0, 0, false⟩,
  ⟨0x24, 1, 0x0, 5, 4, 0, 0, 0, 0, 0, 0, false⟩,
  ⟨0x40, 1, 0x0, 1, 4, 0, 0, 0, 0, 0, 0, false⟩,
  ⟨0x10000, 1, 0x0, 36864, 4, 0, 0, 0, 0, 0, 0, false⟩]

/-- The SEC block (R395). -/
def rowsSEC : List RegRow := [
  ⟨0x0, 1, 0x0, 1, 4, 0, 0, 0, 0, 0, 0, false⟩,
  ⟨0x4, 1, 0x0, 1, 4, 0, 0, 0, 0, 0xff, 0, false⟩,
  ⟨0x8, 1, 0x0, 1, 4, 0, 0, 0, 0, 0, 0, false⟩,
  ⟨0xC, 1, 0x0, 1, 4, 0, 0x1ff, 0, 0, 0, 0, false⟩,
  ⟨0x10, 1, 0x0, 1, 4, 0, 0, 0, 0, 0, 0, false⟩,
  ⟨0x14, 1, 0x0, 1, 4, 0, 0, 0, 0, 0, 0, false⟩,
  ⟨0x18, 1, 0x0, 1, 4, 0, 0, 0, 0, 0, 0, false⟩,
  ⟨0x1C, 1, 0x0, 1, 4, 0, 0, 0, 0, 0, 0, false⟩,
  ⟨0x20, 1, 0x0, 1, 4, 0, 0, 0, 0, 0, 0, false⟩,
  ⟨0x24, 1, 0x0, 1, 4, 0, 0, 0, 0, 0, 0, false⟩,
  ⟨0x40, 1, 0x0, 8, 4, 0, 0, 0, 0, 0, 0, false⟩,
  ⟨0x100, 1, 0x0, 256, 4, 0, 0, 0, 0, 0, 0, false⟩,
  ⟨0x800, 16, 0x40, 16, 4, 0, 0, 0, 0, 0, 0, false⟩,
  ⟨0x1000, 1, 0x0, 1024, 4, 0xffffffff, 0, 0, 0, 0, 0, false⟩,
  ⟨0x2000, 1, 0x0, 1024, 4, 0, 0, 0, 0, 0, 0, false⟩,
  ⟨0x80000, 4096, 0x80, 32, 4, 0, 0, 0, 0, 0, 0, false⟩]

/-- The RTC block (R396). DESIGN CHOICE: log 14. -/
def rowsRTC : List RegRow := [
  ⟨0x0, 1, 0x0, 1, 4, 0, 0, 0, 0, 0, 0, false⟩,
  ⟨0x4, 1, 0x0, 1, 4, 0, 0, 0, 0, 0, 0, false⟩,
  ⟨0x8, 1, 0x0, 1, 4, 0, 0, 0, 0, 0, 0, false⟩,
  ⟨0xC, 1, 0x0, 1, 4, 0, 0, 0, 0, 0, 0, false⟩,
  ⟨0x10, 1, 0x0, 1, 4, 0, 0, 0, 0, 0, 0, false⟩,
  ⟨0x18, 1, 0x0, 1, 4, 0, 0, 0, 0, 0, 0, false⟩,
  ⟨0x1C, 1, 0x0, 1, 4, 0, 0, 0, 0, 0, 0, false⟩,
  ⟨0x20, 1, 0x0, 1, 4, 0, 0x3, 0, 0, 0, 0, false⟩]

/-- The TWN block (R409). -/
def rowsTWN : List RegRow := [
  ⟨0x0, 1, 0x0, 1, 4, 0, 0, 0, 0, 0, 0, false⟩,
  ⟨0x4, 1, 0x0, 1, 4, 0, 0, 0, 0, 0xf, 0, false⟩,
  ⟨0x8, 1, 0x0, 1, 4, 0xf, 0, 0, 0, 0, 0, false⟩,
  ⟨0xC, 1, 0x0, 1, 4, 0xfffff, 0, 0, 0, 0, 0, false⟩,
  ⟨0x10, 1, 0x0, 1, 4, 0xffffffff, 0, 0, 0, 0, 0, false⟩,
  ⟨0x14, 1, 0x0, 1, 4, 0xffffffff, 0, 0, 0, 0, 0, false⟩,
  ⟨0x18, 1, 0x0, 1, 4, 0xffffffff, 0, 0, 0, 0, 0, false⟩,
  ⟨0x1C, 1, 0x0, 1, 4, 0xfff, 0, 0, 0, 0, 0, false⟩,
  ⟨0x20, 1, 0x0, 1, 4, 0xff, 0, 0, 0, 0, 0x5, false⟩,
  ⟨0x24, 1, 0x0, 1, 4, 0xff, 0, 0, 0, 0, 0x64, false⟩,
  ⟨0x28, 1, 0x0, 1, 4, 0, 0x1f, 0, 0, 0, 0, false⟩,
  ⟨0x2C, 1, 0x0, 1, 4, 0, 0, 0, 0, 0, 0, true⟩,
  ⟨0x30, 1, 0x0, 1, 4, 0, 0, 0, 0, 0, 0, true⟩,
  ⟨0x34, 1, 0x0, 1, 4, 0, 0, 0, 0, 0, 0, true⟩,
  ⟨0x38, 1, 0x0, 1, 4, 0, 0, 0, 0, 0, 0, true⟩,
  ⟨0x3C, 1, 0x0, 1, 4, 0, 0, 0, 0, 0, 0, false⟩,
  ⟨0x40, 1, 0x0, 1, 4, 0, 0, 0, 0, 0, 0, true⟩,
  ⟨0x44, 1, 0x0, 1, 4, 0, 0, 0, 0, 0, 0, true⟩,
  ⟨0x48, 1, 0x0, 1, 4, 0, 0, 0, 0, 0, 0, false⟩,
  ⟨0x4C, 1, 0x0, 1, 4, 0, 0, 0, 0, 0, 0, true⟩,
  ⟨0x100, 1, 0x0, 64, 8, 0x3ff0000, 0, 0, 0, 0, 0, false⟩,
  ⟨0x104, 1, 0x0, 64, 8, 0xbf03ff3f, 0, 0, 0, 0, 0, false⟩,
  ⟨0x400, 16, 0x20, 1, 4, 0xffffffff, 0, 0, 0, 0, 0, false⟩,
  ⟨0x404, 16, 0x20, 1, 4, 0xffffffff, 0, 0, 0, 0, 0, false⟩,
  ⟨0x408, 16, 0x20, 1, 4, 0xffffffff, 0, 0, 0, 0, 0, false⟩,
  ⟨0x40C, 16, 0x20, 1, 4, 0xffffffff, 0, 0, 0, 0, 0, false⟩,
  ⟨0x410, 16, 0x20, 1, 4, 0xffffffff, 0, 0, 0, 0, 0, false⟩,
  ⟨0x414, 16, 0x20, 1, 4, 0xfff, 0, 0, 0, 0, 0, false⟩]

/-- The PWR block (R423). -/
def rowsPWR : List RegRow := [
  ⟨0x0, 1, 0x0, 1, 4, 0, 0, 0, 0, 0, 0, false⟩,
  ⟨0x4, 1, 0x0, 1, 4, 0, 0, 0, 0, 0x1, 0, false⟩,
  ⟨0x8, 1, 0x0, 1, 4, 0, 0x1ff, 0, 0, 0, 0, false⟩,
  ⟨0xC, 1, 0x0, 1, 4, 0, 0, 0, 0, 0, 0, true⟩,
  ⟨0x10, 1, 0x0, 1, 4, 0, 0, 0, 0, 0, 0, false⟩,
  ⟨0x14, 1, 0x0, 1, 4, 0, 0, 0, 0, 0, 0, false⟩,
  ⟨0x18, 1, 0x0, 1, 4, 0, 0, 0, 0, 0, 0, false⟩,
  ⟨0x1C, 1, 0x0, 1, 4, 0xffffff, 0, 0, 0, 0, 0x736c645f, false⟩,
  ⟨0x20, 1, 0x0, 1, 4, 0xffffffff, 0, 0, 0, 0, 0, false⟩,
  ⟨0x24, 1, 0x0, 1, 4, 0xffffffff, 0, 0, 0, 0, 0, false⟩,
  ⟨0x28, 1, 0x0, 1, 4, 0, 0, 0, 0, 0, 0, false⟩,
  ⟨0x2C, 1, 0x0, 1, 4, 0, 0, 0, 0, 0, 0, false⟩,
  ⟨0x30, 1, 0x0, 1, 4, 0, 0, 0, 0, 0, 0, false⟩,
  ⟨0x38, 1, 0x0, 1, 4, 0xfffff001, 0, 0, 0, 0, 0, false⟩,
  ⟨0x3C, 1, 0x0, 1, 4, 0xffffffff, 0, 0, 0, 0, 0, false⟩,
  ⟨0x100, 16, 0x20, 1, 4, 0, 0, 0, 0, 0, 0, false⟩,
  ⟨0x104, 16, 0x20, 1, 4, 0xf, 0, 0, 0, 0, 0, false⟩,
  ⟨0x108, 16, 0x20, 1, 4, 0, 0, 0, 0, 0, 0, false⟩,
  ⟨0x10C, 16, 0x20, 1, 4, 0, 0, 0, 0, 0, 0, false⟩,
  ⟨0x110, 16, 0x20, 1, 4, 0, 0, 0, 0, 0, 0, true⟩,
  ⟨0x114, 16, 0x20, 1, 4, 0, 0, 0, 0, 0, 0, true⟩,
  ⟨0x118, 16, 0x20, 1, 4, 0, 0, 0, 0, 0, 0, true⟩,
  ⟨0x10000, 64, 0x100, 64, 4, 0, 0, 0, 0, 0, 0, false⟩]

/-! ### Blocks -/

/-- The rows of a block; the window-table access port has no fixed registers. -/
def blockRows : Block → List RegRow
  | .hif => rowsHIF | .mbx => rowsMBX | .ctl => rowsCTL | .sec => rowsSEC | .rtc => rowsRTC | .pwr => rowsPWR
  | .tst => rowsTST | .twn => rowsTWN | .fpl => rowsFPL | .noc _ => rowsNOC | .seq _ => rowsSEQ | .lga _ => rowsLGA
  | .cfg _ => rowsCFG | .crm _ => rowsCRM | .drc _ => rowsDRC | .lnk _ => rowsLNK | .eov _ => rowsEOV | .wtp => []
  | .page _ => rowsPAGE | .mtx _ => rowsMTX | .vec _ => rowsVEC | .str _ => rowsSTR

/-- The key of a block's first register: for BAR0 blocks the BAR0 offset (R8); the other blocks lie above BAR0.
The router blocks of compute die bays lie in their die's window, those of other routers above BAR0 (R247). -/
def blockBase : Block → Nat
  | .hif => 0 | .mbx => 0x100000 | .ctl => 0x200000 | .sec => 0x400000 | .rtc => 0x500000 | .pwr => 0x600000
  | .tst => 0x700000 | .twn => 0x800000 | .fpl => 0x900000
  | .noc r => if r < 1024 then 0x1000000 + r / 64 * 0x100000 + 0x800 * (r % 64) else 0x48000000 + 0x800 * r
  | .seq d => 0x1020000 + d.val * 0x100000
  | .lga d => 0x1030000 + d.val * 0x100000
  | .cfg d => 0x1040000 + d.val * 0x100000
  | .crm d => 0x1050000 + d.val * 0x100000
  | .drc e => 0x2000000 + e.val * 0x100000
  | .lnk e => 0x2010000 + e.val * 0x100000
  | .eov e => 0x2020000 + e.val * 0x100000
  | .wtp => 0x3000000
  | .page f => 0x10000000 + f.val * 0x1000
  | .mtx t => 0x20000000 + t.val * 0x100
  | .vec b => 0x30000000 + b.val * 0x2000
  | .str b => 0x40000000 + b.val * 0x1000

/-- The key of a register of a block. -/
def regKey (b : Block) (off : Nat) : Nat := blockBase b + off

/-- The row that covers an offset of a block. -/
def findRow (b : Block) (off : Nat) : Option RegRow := (blockRows b).find? (fun r => r.covers off)

/-- The block and offset of a BAR0 offset; none in reserved space (R8). DEDUCED: log 16. -/
def bar0Block (a : Nat) : Option (Block × Nat) :=
  let mb := a / 0x100000
  let off := a % 0x100000
  if a < 0x1000000 then
    match mb with
    | 0 => some (.hif, off) | 1 => some (.mbx, off) | 2 => some (.ctl, off) | 4 => some (.sec, off)
    | 5 => some (.rtc, off) | 6 => some (.pwr, off) | 7 => some (.tst, off) | 8 => some (.twn, off)
    | 9 => some (.fpl, off) | _ => none
  else if a < 0x2000000 then
    let d : Die := Fin.ofNat 16 (mb - 16)
    if off < 0x20000 then some (.noc (d.val * 64 + off / 0x800), off % 0x800)
    else if off < 0x30000 then some (.seq d, off - 0x20000)
    else if off < 0x40000 then some (.lga d, off - 0x30000)
    else if off < 0x50000 then some (.cfg d, off - 0x40000)
    else if off < 0x60000 then some (.crm d, off - 0x50000)
    else none
  else if a < 0x2400000 then
    let e : Edge := Fin.ofNat 4 (mb - 32)
    if off < 0x10000 then some (.drc e, off)
    else if off < 0x20000 then some (.lnk e, off - 0x10000)
    else if off < 0x30000 then some (.eov e, off - 0x20000)
    else none
  else if 0x3000000 ≤ a ∧ a < 0x4000000 then some (.wtp, a - 0x3000000)
  else none

/-- The block of a register key, for looking up reset values. -/
def keyBlock (k : Nat) : Option (Block × Nat) :=
  if k < 0x4000000 then bar0Block k
  else if 0x10000000 ≤ k ∧ k < 0x10040000 then
    some (.page (Fin.ofNat 64 ((k - 0x10000000) / 0x1000)), (k - 0x10000000) % 0x1000)
  else if 0x20000000 ≤ k ∧ k < 0x20200000 then
    some (.mtx (Fin.ofNat 8192 ((k - 0x20000000) / 0x100)), (k - 0x20000000) % 0x100)
  else if 0x30000000 ≤ k ∧ k < 0x30800000 then
    some (.vec (Fin.ofNat 1024 ((k - 0x30000000) / 0x2000)), (k - 0x30000000) % 0x2000)
  else if 0x40000000 ≤ k ∧ k < 0x40400000 then
    some (.str (Fin.ofNat 1024 ((k - 0x40000000) / 0x1000)), (k - 0x40000000) % 0x1000)
  else if 0x48200000 ≤ k ∧ k < 0x48300000 then
    some (.noc ((k - 0x48000000) / 0x800), (k - 0x48000000) % 0x800)
  else none

/-- Fuse values that R11, R14, R227 and R261 settle for a unit: its number, its place, its lanes. No fuse that removes a
unit is blown (DESIGN CHOICE, log entry 12). DESIGN CHOICE: log 12. -/
def fuseReset : Block → Nat → Option Nat
  | .mtx t, 0 => some t.val
  | .vec b, 0 => some b.val
  | .str b, 0 => some b.val
  | .seq d, 0 => some d.val
  | .lga d, 0xD0 => some (if d.val = 12 ∨ d.val = 14 then 2 else 0)
  | .noc r, 0 =>
    if r < 1024 then
      some ((r / 64 % 4 * 8 + r % 8) * 2 ^ 26 + (r / 256 * 8 + r % 64 / 8) * 2 ^ 20 + r / 64)
    else none
  | _, _ => none

/-- What an unlisted register holds: its reset value (R7), zero outside the maps. -/
def regReset (k : Nat) : Word :=
  match keyBlock k with
  | none => 0
  | some (b, off) =>
    match fuseReset b off with
    | some v => BitVec.ofNat 32 v
    | none =>
      match findRow b off with
      | none => 0
      | some r => BitVec.ofNat 32 r.reset

/-- The offsets of a row's words. -/
def RegRow.offsets (r : RegRow) : List Nat :=
  (List.range r.c1).flatMap (fun i => (List.range r.c2).map (fun j => r.off + r.s1 * i + r.s2 * j))

/-- The offsets of every counter of a block, cleared by its cnt_clear (R73). -/
def counterOffsets (b : Block) : List Nat := ((blockRows b).filter (·.cnt)).flatMap RegRow.offsets

end Sys2Proof.Machine
end

