-- ==== Sys2Proof/Machine/State.lean ====
section
/-! DEFINITION. The state of the module as plain data, the stops, and the state after reset. -/

namespace Sys2Proof.Machine

/-- Why a step stops with a fault. -/
inductive Fault where
  /-- The event the command names cannot occur in this state: nothing in the module is waiting for it. Raised by the
  meanings of events and completions. Safe: the model stops where the hardware has no such step.
  DESIGN CHOICE: log 5. -/
  | eventImpossible
  deriving DecidableEq, Repr

/-- Why a step refuses a command. -/
inductive Refusal where
  /-- The command has no meaning yet. Raised by `exec` alone. Safe. -/
  | notModelled (mnemonic : String)
  deriving DecidableEq, Repr

/-! ### Matrix tiles (R47 to R91) -/

/-- State of a 4 KiB block of an operand buffer, of a port queue or of staging (R53, R127, R187). -/
inductive BufBlock where
  | free
  | filling (w : Writer)
  | valid
  deriving DecidableEq, Repr

/-- State of a 4 KiB block of vector data memory (R96). -/
inductive VecBlock where
  | held
  | free
  | filling (w : Writer)
  | valid
  deriving DecidableEq, Repr

/-- A quadrant record of a pass descriptor (R71). -/
structure QuadRec where
  count : Nat
  movAddr : Nat
  accBase : Nat
  staAddr : Nat
  movStride : Nat
  deriving DecidableEq, Repr

/-- A pass descriptor, field by field (R26, R71). -/
structure PassDesc where
  movFmt : Nat
  movDigits : Nat
  retWidth : Nat
  staFmt : Nat
  staBits : Nat
  accMode : Nat
  quad : Bool
  staKeep : Bool
  staSrc : Bool
  drainEn : Bool
  accShift : Nat
  accExp : Int
  scaleExp : Int
  tolFrac : Nat
  towardZero : Bool
  relA : Bool
  relB : Bool
  rowMask : Nat
  colMask : Nat
  quads : List QuadRec
  outFmt : Nat
  dst : Nat
  dstChannel : Nat
  dstAddr : Nat
  dstStride : Nat
  deriving DecidableEq, Repr

/-- A descriptor the sequencer has handed to a tile and the tile has not yet accepted (R80, R88). -/
structure Handed where
  index : Nat
  layer : Nat
  /-- index of the pass command in the bay's list -/
  cmd : Nat
  words : List Word
  deriving DecidableEq, Repr

/-- A moving vector fed into the array whose partials have not all reached their entries (R55, R76). -/
structure InFlight where
  quad : Nat
  vec : Nat
  /-- the elements as integers, 0 on masked rows, row by row -/
  xs : List Int
  /-- e_x + f_x of R32 -/
  exp : Int
  skip : Nat
  stop : Nat
  rounded : Bool
  deriving DecidableEq, Repr

/-- A pass the tile has accepted and whose array phase has not ended (R74, R80). -/
structure Pass where
  index : Nat
  layer : Nat
  cmd : Nat
  desc : PassDesc
  /-- the stationary operand is in the cells -/
  loaded : Bool
  /-- vectors fed so far, quadrant by quadrant -/
  fed : List Nat
  /-- vectors whose contribution has reached its entries, quadrant by quadrant -/
  landed : List Nat
  inFlight : List InFlight
  /-- digit cycles so far, quadrant by quadrant -/
  digits : List Nat
  /-- largest e(v, j) so far, in units of 2^−16 (R39) -/
  maxErr : Nat
  /-- a saturation occurred in the pass -/
  sat : Bool
  /-- it runs on the held stationary values (R52) -/
  kept : Bool
  deriving DecidableEq, Repr

/-- A drained record in the converter or offered to the crossbar: byte positions it does not write are none (R63, R66). -/
structure OutRecord where
  addr : Nat
  bytes : List (Option Byte)
  deriving DecidableEq, Repr

/-- The drain of a pass whose array phase has ended (R60, R77). -/
structure Drain where
  index : Nat
  layer : Nat
  desc : PassDesc
  /-- entries are read record by record; the next record to read -/
  next : Nat
  /-- records read and not yet accepted, oldest first -/
  offered : List OutRecord
  /-- crossbar transfers the destination has accepted -/
  accepted : Nat
  /-- the bound taken at the first entry read (R39) -/
  report : Option Nat
  deriving DecidableEq, Repr

/-- The record of the stationary operand held in the cells (R52). -/
structure Held where
  /-- of each quadrant that loaded, in ascending number -/
  addrs : List Nat
  quad : Bool
  fmt : Nat
  bits : Nat
  rowMask : Nat
  deriving DecidableEq, Repr

/-- The passes that fault abandonment has ended, as they stood: what the same cycle still brings concerns them (R86, R89). -/
structure Abandoned where
  cur : Option Pass
  drains : List Drain
  /-- the causes met, by their places in the table of R85 -/
  met : List Nat
  /-- the first-fault registers hold this abandonment -/
  recorded : Bool
  /-- the record accepted in the same cycle stands -/
  stood : Bool
  deriving DecidableEq, Repr

/-- A matrix tile. Counters, flags and fault registers stand in `State.regs`. -/
structure Mtx where
  /-- the 256 KiB operand buffer -/
  buf : Table Byte
  /-- its 64 blocks -/
  blocks : Table BufBlock
  /-- accumulator entry e of column j at key 512·j + e -/
  acc : Table (BitVec 48)
  /-- stationary values as 8-bit two's complement, cell (i, j) at key 32·i + j -/
  cells : Table Byte
  /-- column scales of an MX stationary operand; quadrant q, column j' at key 32·q + j' -/
  colScales : Table Byte
  held : Option Held
  staValid : Bool
  handed : List Handed
  cur : Option Pass
  drains : List Drain
  /-- B_pass and B_run in units of 2^−16 accumulator units (R39) -/
  bPass : Nat
  bRun : Nat
  /-- a saturation occurred since B_run was last set (R39) -/
  satSinceSet : Bool
  /-- a pre-emption request is seen and the boundary not yet reported (R82) -/
  preempt : Bool
  /-- halted after a fault (R86) -/
  halted : Bool
  /-- the last attempt of the current pass to load or feed was a stall (R79) -/
  feedStalled : Bool
  /-- the oldest drain's last attempt to hand a record over was refused (R79) -/
  drainStalled : Bool
  /-- the passes last abandoned, until the next job or soft reset -/
  gone : Option Abandoned
  /-- index of the last pass that ended on the tile in the job (R82, R161) -/
  lastEnded : Option Nat
  deriving DecidableEq, Repr

/-- A tile as firmware leaves it before its first job (R59): everything zero, every block free. -/
def Mtx.init : Mtx :=
  { buf := [], blocks := [], acc := [], cells := [], colScales := [], held := none, staValid := false, handed := [],
    cur := none, drains := [], bPass := 0, bRun := 0, satSinceSet := false, preempt := false, halted := false,
    feedStalled := false, drainStalled := false, gone := none, lastEnded := none }

/-! ### Vector tiles (R92 to R116) -/

/-- The four slots of a packet (R103). -/
inductive Slot where
  | compute | x | y | control
  deriving DecidableEq, Repr

/-- A write to lane state, waiting for its latency (R105). -/
inductive LaneWrite where
  | d (lane reg : Nat) (v : Word)
  | a (lane acc : Nat) (v : BitVec 40)
  | be (lane : Nat) (v : Byte)
  | hd (lane : Nat) (v : BitVec 5)
  deriving DecidableEq, Repr

/-- The results of one slot in flight: cycles left, and the rank of R105 (compute 0, X load 1, Y load 2). -/
structure Landing where
  left : Nat
  rank : Nat
  writes : List LaneWrite
  deriving DecidableEq, Repr

/-- What a packet's control and memory slots change when the packet has issued: every slot reads the state
before it (R101, R107). -/
inductive PacketEffect where
  /-- a generator's index steps after an access -/
  | post (g : Nat)
  | gen (g : Nat) (v : BitVec 64)
  | give (block : Nat)
  /-- user slot 6 + k is loaded from eight X rows, while the program stalls -/
  | table (k row : Nat)
  deriving DecidableEq, Repr

/-- A repeat level (R108): first and last packet of the body and runs remaining, the present one included. -/
structure Repeat where
  first : Nat
  last : Nat
  runs : Nat
  deriving DecidableEq, Repr

/-- A queued send and the rows of it accepted (R110, R163). -/
structure QueuedSend where
  preset : Nat
  accepted : Nat
  layer : Nat
  deriving DecidableEq, Repr

/-- What a vector tile is doing: the states of VEC_STATUS but gated (R116). -/
inductive VecState where
  | idle | running | waitStall | sendStall | sync | preempted | halted
  deriving DecidableEq, Repr

/-- A vector tile. -/
structure Vec where
  /-- data memory by the 19-bit byte address of R93 -/
  dmem : Table Byte
  blocks : Table VecBlock
  imem : Table (BitVec 64)
  /-- packets in the program's section (R428) -/
  packets : Nat
  presets : Table (BitVec 64)
  sendPresets : Table (BitVec 128)
  /-- register r of lane l at key 16·l + r -/
  d : Table Word
  /-- accumulator i of lane l at key 2·l + i -/
  a : Table (BitVec 40)
  be : Table Byte
  hd : Table (BitVec 5)
  /-- generators in the preset layout of R100 with their current index -/
  gens : Table (BitVec 64)
  /-- active repeat levels, innermost first -/
  reps : List Repeat
  /-- queued sends, oldest first -/
  sends : List QueuedSend
  /-- entry i of user slot 6 + k at key 256·k + i: T in the low half, S in the high half (R109) -/
  userTab : Table Word
  /-- for user slot 6 + k: [11:1] first X row of the ldt that loaded it, [0] loaded (R163) -/
  userRow : Table (BitVec 12)
  state : VecState
  pc : Nat
  /-- slots of the packet at pc that have acted -/
  ran : List Slot
  /-- effects of the packet's slots that take place when it has issued -/
  effects : List PacketEffect
  /-- where the control slot of this packet sends the pc, and the repeat levels it leaves -/
  nextPc : Option (Nat × List Repeat)
  flight : List Landing
  /-- an end packet has issued and queued sends remain (R107) -/
  ending : Bool
  /-- a pre-empted tile has still to finish the send row it was offering (R113) -/
  rowOpen : Bool
  /-- a pre-emption request is seen while a packet is between its slots: the tile stops when it has issued (R113) -/
  stopReq : Bool
  deriving DecidableEq, Repr

/-- A vector tile before its first job: memories zero, every block held (R92, R96). -/
def Vec.init : Vec :=
  { dmem := [], blocks := [], imem := [], packets := 0, presets := [], sendPresets := [], d := [], a := [], be := [],
    hd := [], gens := [], reps := [], sends := [], userTab := [], userRow := [], state := .idle, pc := 0, ran := [],
    effects := [], nextPc := none, flight := [], ending := false, rowOpen := false, stopReq := false }

/-! ### Stream engines (R117 to R144) -/

/-- A stream descriptor, v3 or v2, field by field (R119, R132). -/
structure StreamDesc where
  ver : Nat
  /-- 0 fetch, 1 store, 2 copy -/
  kind : Nat
  ndim : Nat
  weightAhead : Bool
  layer : Nat
  srcFmt : Nat
  dstFmt : Nat
  dstDigits : Nat
  intExp : Int
  sharedScale : Nat
  scaleMode : Bool
  blk16 : Bool
  towardZero : Bool
  floor : Nat
  ceiling : Nat
  id : Nat
  peer : Nat
  peerChannel : Nat
  rowBytes : Nat
  bayAddr : Nat
  bayStride : Nat
  memBase : Nat
  copyDst : Nat
  counts : List Nat
  strides : List Int
  /-- v2 micro-batch: 0 off, 1 A, 2 B -/
  bubble : Nat
  deriving DecidableEq, Repr

/-- Where a translated request goes (R150). -/
inductive Target where
  | device (addr : Nat)
  | global (addr : Nat)
  deriving DecidableEq, Repr

/-- A memory request of a stream (R134). -/
structure Req where
  id : Nat
  write : Bool
  /-- job address of the first byte -/
  addr : Nat
  len : Nat
  /-- lowest and highest source element the request serves -/
  first : Nat
  last : Nat
  /-- data to write, or data read -/
  data : Option (List Byte)
  /-- none until translated -/
  target : Option Target
  /-- the staging block of the channel it belongs to -/
  stage : Nat
  /-- its packet on the tile network; none for a request through the crema port (R13, R249) -/
  net : Option Nat
  /-- its answer has reached the engine: status, address of the failure, data -/
  back : Option (Nat × Nat × List Byte)
  /-- the channel has given it up: what it brings is discarded (R136, R139) -/
  gone : Bool
  deriving DecidableEq, Repr

/-- A bay-side row converted and waiting for its destination (R121). -/
structure Row where
  num : Nat
  bytes : List Byte
  deriving DecidableEq, Repr

/-- A staging block of a store channel: the records written so far, and whether it is complete (R127). -/
structure StageBlock where
  num : Nat
  writer : Writer
  slots : List (List Byte)
  complete : Bool
  deriving DecidableEq, Repr

/-- What a writer of a store channel has sent and that has not landed: a record, which ends its block where it has done set,
or the end of a drain or send, which completes the blocks granted to it (R127, R186). -/
inductive Arrival where
  | record (w : Writer) (bytes : List Byte) (done : Bool)
  | ends (w : Writer) (blocks : List Nat)
  deriving DecidableEq, Repr

/-- A walk of the translation tables in progress (R150). -/
structure Walk where
  req : Req
  /-- 0 root, 1 to 3 for levels 0 to 2 -/
  level : Nat
  /-- device address of the entry being read -/
  entryAddr : Nat
  /-- the read's packet on the tile network, and its answer -/
  net : Option Nat
  back : Option (Nat × Nat × List Byte)
  deriving DecidableEq, Repr

/-- Channel states with the codes of STR_CH_STATE (R144). -/
inductive ChanState where
  | idle | waitBarrier | running | creditWait | paused | preempted | ended | endedShort
  deriving DecidableEq, Repr

/-- What is to happen to a stream once the requests and rows before an element are done (R136, R139, R140): it pauses
with a cause, or ends short with a status. -/
structure StrFault where
  /-- the lowest element of the request or the element at fault -/
  elem : Nat
  /-- pause cause; 0: the stream ends short -/
  cause : Nat
  status : Nat
  addr : Nat
  /-- flags of STR_ERR_FLAGS -/
  flags : Nat
  deriving DecidableEq, Repr

/-- What the registers of a channel show of a stream that has ended, until the next one starts (R144). -/
structure ChanShown where
  status : Nat
  layer : Nat
  delivered : Nat
  faultAddr : Nat
  cursor : Nat
  deriving DecidableEq, Repr

/-- What is kept of a saved stream beside its record (R129, R141, R144): whether the plan has an entry for it, and the counts
of its registers. -/
structure SavedStr where
  planned : Bool
  waits : Nat
  pauses : Nat
  sats : Nat
  rounded : Nat
  deriving DecidableEq, Repr

/-- A stream of which nothing is kept. -/
def SavedStr.none : SavedStr := ⟨false, 0, 0, 0, 0⟩

/-- A stream channel and its current or last stream. -/
structure Chan where
  state : ChanState
  /-- of the stream before, while the present one has not started -/
  shown : ChanShown
  /-- the buffer plan has an entry for the stream (R129, R429) -/
  planned : Bool
  desc : StreamDesc
  /-- the descriptor as it stood in the image (R161) -/
  raw : List Byte
  /-- pause cause (R144) -/
  cause : Nat
  /-- bay-side rows converted so far, and rows accepted so far -/
  converted : Nat
  rows : List Row
  accepted : Nat
  /-- elements delivered by a store or copy (R135) -/
  delivered : Nat
  /-- rows of a fetch, elements of a store or copy, whose requests have been formed -/
  formed : Nat
  /-- requests formed and not yet issued, in order; outstanding requests -/
  todo : List Req
  outstanding : List Req
  walk : Option Walk
  nextReq : Nat
  /-- destination blocks whose credit the channel holds (fetch) -/
  credits : List Nat
  /-- staging blocks held: numbered in order of taking -/
  held : List Nat
  nextStage : Nat
  /-- staging blocks of a store -/
  stages : List StageBlock
  /-- what the channel has accepted and that has not landed (R127) -/
  arrivals : List Arrival
  fault : Option StrFault
  /-- writes that ended with an error while the channel was coming to its fault: put back where it pauses before them (R138,
  R140) -/
  failed : List Req
  faultAddr : Nat
  status : Nat
  /-- a pre-emption request is seen (R142) -/
  stopReq : Bool
  deriving DecidableEq, Repr

/-- A descriptor with every field zero. -/
def StreamDesc.zero : StreamDesc :=
  { ver := 0, kind := 0, ndim := 0, weightAhead := false, layer := 0, srcFmt := 0, dstFmt := 0, dstDigits := 0,
    intExp := 0, sharedScale := 0, scaleMode := false, blk16 := false, towardZero := false, floor := 0, ceiling := 0,
    id := 0, peer := 0, peerChannel := 0, rowBytes := 0, bayAddr := 0, bayStride := 0, memBase := 0, copyDst := 0,
    counts := [], strides := [], bubble := 0 }

/-- An idle channel. -/
def Chan.init : Chan :=
  { state := .idle, shown := ⟨0, 0, 0, 0, 0⟩, planned := false, desc := .zero, raw := [], cause := 0, converted := 0, rows := [], accepted := 0, delivered := 0,
    formed := 0, todo := [], outstanding := [], walk := none, nextReq := 0, credits := [], held := [], nextStage := 0,
    stages := [], arrivals := [], fault := none, failed := [], faultAddr := 0, status := 0, stopReq := false }

/-! ### Bay sequencers, jobs and partitions (R145 to R166) -/

/-- A cached translation (R150, R151): page number at its level, and the leaf. -/
structure TlbEntry where
  part : Nat
  /-- 2: a 32 MiB block, 3: a 64 KiB page -/
  level : Nat
  page : Nat
  leaf : BitVec 64
  deriving DecidableEq, Repr

/-- An invalidation that waits for requests translated through the entries it dropped (R151). -/
structure Invalidation where
  part : Nat
  lo : Nat
  hi : Nat
  /-- requests of the bay in flight through entries it covers, as channel and request number -/
  waits : List (Nat × Nat)
  deriving DecidableEq, Repr

/-- A bay: its sequencer and its translation unit. -/
structure BaySeq where
  job : Option Nat
  logical : Nat
  /-- its bay-table entry: tile mask, uses_vector, command list (R146) -/
  tiles : Nat
  vector : Bool
  cmdOff : Nat
  cmdBytes : Nat
  /-- index of the next command that has not completed (R161) -/
  next : Nat
  /-- open layer; 0 before the first layer command -/
  layer : Nat
  layerOpen : Bool
  /-- the command at `next` is waiting for its completion (a pass handed, a barrier arrived at) -/
  waiting : Bool
  /-- the barrier the bay has arrived at (R148) -/
  barrier : Option Nat
  /-- pass index of the bay's next pass command (R88) -/
  passIndex : Nat
  /-- the page of the command list that has been fetched, by number, and its bytes (R147) -/
  page : Option (Nat × List Byte)
  /-- the descriptor that the waiting command at `next` names -/
  desc : Option (List Byte)
  /-- the bay's streams use bubble-fill (R133) -/
  bubble : Bool
  /-- layers whose first pass has been accepted on this bay (R131) -/
  accepted : List Nat
  tlb : List TlbEntry
  invalidations : List Invalidation
  /-- off of the vector section of the last vprog the bay ran (R161) -/
  vprogOff : Option Nat
  /-- digit cycles, saturations of the bay in the job (R161) -/
  digits : Nat
  sats : Nat
  /-- the end command has been reached and the bay has finished (R147) -/
  finished : Bool
  /-- reported stopped under a pre-emption, and its record written (R160, R161) -/
  stopped : Bool
  recorded : Bool
  /-- the sequencer issues commands -/
  running : Bool
  deriving DecidableEq, Repr

/-- An idle bay sequencer. -/
def BaySeq.init : BaySeq :=
  { job := none, logical := 0, tiles := 0, vector := false, cmdOff := 0, cmdBytes := 0, next := 0, layer := 0, layerOpen := false, waiting := false, barrier := none, passIndex := 0,
    page := none, desc := none, bubble := false, accepted := [], tlb := [], invalidations := [], vprogOff := none, digits := 0, sats := 0, finished := false,
    stopped := false, recorded := false, running := false }

/-- Where a job stands (R152, R153, R158). -/
inductive JobPhase where
  /-- taken from a mirrored ring; the twin has not answered the write of its entry (R401) -/
  | mirroring
  /-- in its dispatch queue, header not yet checked -/
  | queued
  /-- checked, waiting for quarters -/
  | waiting
  | running
  /-- pre-emption sent, bays stopping and writing their records -/
  | preempting
  /-- returned to the head of its queue (R158) -/
  | preempted
  /-- its units have ended; end messages under way -/
  | ending
  /-- ended; its completion waits to be written -/
  | complete
  deriving DecidableEq, Repr

/-- The ring entry a unit of work came from (R325, R332). -/
structure Entry where
  func : Nat
  ring : Nat
  /-- free-running number of the entry in its ring -/
  seq : Nat
  tag : Nat
  irq : Bool
  extAddr : Nat
  extBytes : Nat
  v2 : Bool
  /-- completion ring named by a twin takeover (R406); otherwise that of the ring -/
  cq : Option Nat
  /-- Function Level Resets of the function before the entry was taken: a later one discards its completion (R320) -/
  epoch : Nat
  deriving DecidableEq, Repr

/-- The fields of a job image header that are used after dispatch (R146). -/
structure JobHeader where
  ver : Nat
  quarters : Nat
  bytes : Nat
  commonOff : Nat
  commonBytes : Nat
  bayOff : Nat
  planOff : Nat
  barrierOff : Nat
  barriers : Nat
  barrierLimit : Nat
  timeLimit : Nat
  deriving DecidableEq, Repr

/-- The load of a logical bay's sections (R152, R154): packets of it acknowledged, and retries of the present one. -/
structure BayLoad where
  lb : Nat
  part : Nat
  tries : Nat
  /-- packets that its die's multicasts have carried, and whether the present retry has been sent (R154, R245) -/
  sent : Nat
  tried : Bool
  deriving DecidableEq, Repr

/-- A job, from the ring entry to its completion. -/
structure Job where
  phase : JobPhase
  ent : Entry
  /-- 0 Ristretto, 1 Espresso, 2 Lungo, 3 Drip -/
  cls : Nat
  part : Nat
  image : Nat
  /-- pinned handle -/
  handle : Option Nat
  /-- the entry was on a mirrored ring (R401) -/
  mirrored : Bool
  hdr : JobHeader
  /-- the quarters placed for logical quarters 0, 1, … -/
  placed : List Nat
  /-- first cause; 0 while none -/
  status : Nat
  detail : Nat
  recordsAccepted : Nat
  failAddr : Nat
  bound : Nat
  digits : Nat
  sats : Nat
  events : Nat
  pcrs : List (List Byte)
  /-- arrivals at barriers not yet released, as barrier and logical bay -/
  arrivals : List (Nat × Nat)
  /-- releases on their way, as barrier and logical bay -/
  released : List (Nat × Nat)
  /-- logical bays whose end message has arrived -/
  ended : List Nat
  /-- the job has reached dispatch start -/
  started : Bool
  /-- its checkpoint records are to be written back at the next placement -/
  resumed : Bool
  /-- a run after twin takeover (R406) -/
  rerun : Bool
  /-- held after the loss of the partner, until takeover or detach (R405) -/
  heldTwin : Bool
  /-- logical bays that have not acknowledged all their sections (R154) -/
  loads : List BayLoad
  /-- entries of the buffer plan (R429) -/
  plan : List Nat
  /-- logical bays whose streams use bubble-fill (R133) -/
  bubbles : List Nat
  /-- logical bays whose vector program had ended at the checkpoint, or had issued its end packet. DESIGN CHOICE: log 117. -/
  vecDone : List Nat
  vecEnding : List Nat
  /-- logical tiles, 8 · logical bay + tile, that held the mark of a saturation since B_run was last set (R39), and what is kept
  of the saved streams, at 16 · logical bay + channel (R129, R141, R144). DESIGN CHOICE: log 117. -/
  satMarks : List Nat
  saved : Table SavedStr
  /-- placed again after a pre-emption: only the common section is sent to its bays (R162) -/
  again : Bool
  deriving DecidableEq, Repr


/-! ### The Eovaol fabric and its ports (R269 to R313) -/

/-- A fabric packet (R279). -/
structure FabricPacket where
  /-- requests: the target global address; responses: the requester's module ID in [63:44] and the request's offset -/
  gaddr : Nat
  srcModule : Nat
  srcX : Nat
  srcY : Nat
  srcEp : Nat
  tag : Nat
  op : Nat
  cls : Nat
  resp : Bool
  dateline : Bool
  hops : Nat
  bytes : Nat
  atomicOp : Nat
  status : Nat
  payload : List Byte
  deriving DecidableEq, Repr

/-- A request a home edge keeps, or a fence that waits there (R271, R284). -/
inductive HomeItem where
  /-- a request, the set it is tagged with, whether it is sent, and the request on the tile network it came as -/
  | req (r : GlobalRequest) (set : Nat) (sent : Bool) (noc : Option Nat)
  /-- a fence, the set it is tagged with, and the message on the tile network it came as -/
  | fence (src : NocPlace) (ep tag module_ cls scope set : Nat) (noc : Option Nat)
  deriving DecidableEq, Repr

/-- Who is answered when a window's target answers. -/
inductive Origin where
  | home (item : Nat)
  | remote (p : FabricPacket)
  deriving DecidableEq, Repr

/-- A request that has passed its window lookup and that the target has not answered (R273, R276). -/
structure WinFlight where
  /-- its request on the tile network -/
  noc : Nat
  edge : Nat
  /-- b · 8 + t -/
  entry : Nat
  set : Nat
  origin : Origin
  /-- answered at the expiry of a drain limit: the target's response is discarded -/
  dead : Bool
  deriving DecidableEq, Repr

/-- A data codeword in the replay buffer (R299, R300): its slots, and the packets that end in it. -/
structure Sent where
  seq : Nat
  cont : Nat
  start : Nat
  slots : List Byte
  /-- credit returns it carries -/
  credits : List Nat
  packets : List FabricPacket
  deriving DecidableEq, Repr

/-- A lane beside its registers. -/
structure LaneState where
  /-- good records of the partner in a row, and how many in a row of them had ack set (R304) -/
  good : Nat
  acks : Nat
  /-- sending port and lane of the partner's record (R305) -/
  recPort : Nat
  recLane : Nat
  badMarkers : Nat
  /-- an armed injection: kind and length (R311) -/
  inject : Option (Nat × Nat)
  /-- PRBS state of the fill, of the pattern generator -/
  fill : Nat
  pattern : Nat
  /-- last level sent and how many in a row, and stuff symbols of this block (R298) -/
  level : Nat
  run : Nat
  stuffed : Nat
  /-- last level received and how many in a row (R298) -/
  rxLevel : Nat
  rxRun : Nat
  /-- codewords received since the lane's last marker, its block count, stuff symbols removed since then, and whether the
  sender's direction is in electrical idle (R296, R297, R309) -/
  rxAt : Nat
  rxBlock : Nat
  rxStuffed : Nat
  rxIdle : Bool
  /-- FIR taps in use: |c(−1)| and |c(+1)| (R306) -/
  pre : Nat
  post : Nat
  /-- the checker's PRBS state, and error-free symbols in a row before it locks (R310) -/
  chk : Nat
  chkRun : Nat
  deriving DecidableEq, Repr

/-- A port beside its registers. -/
structure LinkPort where
  /-- packets handed to the port and not yet in a codeword; the one being sent, and its slots left -/
  queue : List FabricPacket
  cur : Option FabricPacket
  left : List (List Byte)
  /-- credit in slots of each virtual channel, and credit to return -/
  credits : List Nat
  owed : List Nat
  nextSeq : Nat
  replay : List Sent
  /-- codewords of the replay buffer to send again -/
  resend : List Nat
  /-- retries in a row of the oldest codeword -/
  tries : Nat
  expect : Nat
  lastGood : Nat
  nak : Bool
  /-- an ack has not been sent yet -/
  ackDue : Bool
  /-- bytes of a packet that runs on into the next codeword -/
  part : List Byte
  /-- packets received, oldest first; those received before the port last went down, whose slots are no credit any more (R287,
  R299) -/
  arrived : List FabricPacket
  kept : List FabricPacket
  /-- Ristretto packets of the queue that have waited for a token, and the credits of the last idle codeword, which a nak has sent
  again (R289, R301) -/
  waited : List FabricPacket
  idleCredits : List Nat
  scrTx : BitVec 58
  scrRx : BitVec 58
  /-- codewords of the block sent, and block count -/
  blockPos : Nat
  block : Nat
  idleTx : Bool
  idleRx : Bool
  lanes : List LaneState
  deriving DecidableEq, Repr

/-- PRESUMED: log 82. -/
def LaneState.init : LaneState :=
  { good := 0, acks := 0, recPort := 0, recLane := 0, badMarkers := 0, inject := none, fill := 1, pattern := 1, level := 0, run := 0
    stuffed := 0, rxLevel := 0, rxRun := 0, rxAt := 0, rxBlock := 0, rxStuffed := 0, rxIdle := false, pre := 4, post := 8, chk := 0, chkRun := 0 }

/-- A port at link up: replay buffer empty, 128 slots of credit for each channel (R299, R304). DEDUCED: log 83. -/
def LinkPort.init : LinkPort :=
  { queue := [], cur := none, left := [], credits := List.replicate 16 128, owed := List.replicate 16 0, nextSeq := 1
    replay := [], resend := [], tries := 0, expect := 1, lastGood := 0, nak := false, ackDue := false, part := [], arrived := []
    kept := [], waited := [], idleCredits := List.replicate 16 0, scrTx := 0, scrRx := 0, blockPos := 0, block := 0, idleTx := false, idleRx := false
    lanes := List.replicate 4 LaneState.init }

/-! ### Pins, tests and power (R15 to R17, R373, R410 to R421) -/

/-- The pins that hold the module off or in reset, and the references (R15 to R20). -/
structure Pins where
  /-- PERST# is asserted -/
  perst : Bool
  /-- the module is held in reset: from PERST# or a fall of PWRGD to the next release of PERST# -/
  held : Bool
  pwrgd : Bool
  /-- FAULT# is driven low -/
  fault : Bool
  /-- every rail but the calendar clock's is on -/
  rails : Bool
  pwrdis : Bool
  /-- off after a thermal shutdown until PWRDIS or the input clears it (R418) -/
  latched : Bool
  /-- the 156.25 MHz reference is present (R20) -/
  fabricRef : Bool
  deriving DecidableEq, Repr

/-- A commanded test under way (R373). -/
structure TestRun where
  /-- 1 logic, 2 memory, 3 both -/
  op : Nat
  die : Bool
  target : Nat
  deriving DecidableEq, Repr

/-- What the sensors of a source last read, in R416's numbering, and the trip points it stands beyond (R417). -/
structure Heat where
  temps : List Nat
  failed : List Nat
  warn : Bool
  critical : Bool
  /-- of a compute die: its cap is not met at level 15 (R415) -/
  unmet : Bool
  /-- its tile clock is stretched (R410) -/
  stretched : Bool
  deriving DecidableEq, Repr

/-- DESIGN CHOICE: log 11. -/
def Pins.init : Pins :=
  { perst := false, held := false, pwrgd := true, fault := false, rails := true, pwrdis := false, latched := false
    fabricRef := true }
def Heat.init : Heat :=
  { temps := [], failed := [], warn := false, critical := false, unmet := false, stretched := false }


/-! ### Tile ports (R185 to R192) -/

/-- A record user logic has pushed (R186). -/
structure PortRecord where
  dst : Nat
  addr : Nat
  channel : Nat
  done : Bool
  bytes : List Byte
  deriving DecidableEq, Repr

/-- A record in the inbound queue (R187). -/
structure InRecord where
  src : Nat
  tag : Nat
  block : Nat
  blockEnd : Bool
  bytes : List Byte
  deriving DecidableEq, Repr

/-- An inbound block handed to a writer (R187). -/
structure PortBlock where
  num : Nat
  writer : Writer
  records : Nat
  complete : Bool
  deriving DecidableEq, Repr

/-- A tile port. -/
structure TilePort where
  /-- outbound queue in push order -/
  outQ : List PortRecord
  /-- credits user logic has granted that no writer has taken -/
  credits : Nat
  blocks : List PortBlock
  /-- inbound queue, oldest first -/
  inQ : List InRecord
  isOpen : Bool
  /-- the writer that was given the last credit, by its src number (R187) -/
  last : Nat
  deriving DecidableEq, Repr

/-- A closed, empty port. -/
def TilePort.init : TilePort := { outQ := [], credits := 0, blocks := [], inQ := [], isOpen := false, last := 31 }

/-! ### Host interface (R314 to R339) -/

/-- A completion or event entry formed and not yet written (R329, R332, R334). -/
structure Cpl where
  /-- place in the order in which entries were formed (R321) -/
  ord : Nat
  v2 : Bool
  event : Bool
  /-- of an entry taken over from the partner: `seq` is then the count of its ring-state record (R406) -/
  away : Bool
  sq : Nat
  tag : Nat
  /-- number of the entry in its ring -/
  seq : Nat
  /-- host address and bytes of the extended record -/
  ext : Option (Nat × List Byte)
  status : Nat
  bound : Nat
  digits : Nat
  detail : Nat
  sats : Nat
  irq : Bool
  /-- of a job that has ended (R336) -/
  job : Bool
  deriving DecidableEq, Repr

/-- A completion ring beside its registers. -/
structure CplRing where
  /-- the head record as last read -/
  head : Nat
  /-- entries written since the last message -/
  since : Nat
  waiting : List Cpl
  deriving DecidableEq, Repr

/-- A submission ring beside its registers. -/
structure SubRing where
  /-- the tail record as last read -/
  tail : Nat
  /-- numbers of the entries taken and not completed -/
  taken : List Nat
  /-- a barrier entry waits for the entries before it -/
  barrier : Option Entry
  /-- completions of its entries written, free-running (R398) -/
  written : Nat
  deriving DecidableEq, Repr

/-- A vector of a function's MSI-X table (R316, R333). -/
structure MsixVector where
  addr : Nat
  data : Nat
  masked : Bool
  deriving DecidableEq, Repr

/-- A PCIe function beside its registers. -/
structure FnState where
  d3hot : Bool
  /-- groups of doorbell records whose fetch is outstanding (R323) -/
  fetching : List Nat
  /-- MSI-X messages held while in D3hot (R321), or pending under the function mask -/
  msix : List Nat
  /-- MSI-X enable and function mask of its capability (R314, R333) -/
  msixOn : Bool
  msixMask : Bool
  /-- its MSI-X table; a vector not listed is masked, as after a reset -/
  vectors : Table MsixVector
  /-- of a physical function: virtual functions that SR-IOV has enabled (R316) -/
  vfs : Nat
  /-- of a physical function: BAR4 of itself, and of its virtual functions, holds 2^(30 + n) bytes (R317) -/
  bar4 : Nat
  vfBar4 : Nat
  /-- Function Level Resets so far -/
  epoch : Nat
  deriving DecidableEq, Repr

/-- A pinned image (R326). -/
structure Pinned where
  image : List Byte
  hdr : JobHeader
  /-- the unpin entry that waits for the handle's jobs -/
  leaving : Option Entry
  deriving DecidableEq, Repr

def CplRing.init : CplRing := { head := 0, since := 0, waiting := [] }
def SubRing.init : SubRing := { tail := 0, taken := [], barrier := none, written := 0 }
/-- PRESUMED: log 87. -/
def FnState.init : FnState :=
  { d3hot := false, fetching := [], msix := [], msixOn := false, msixMask := false, vectors := [], vfs := 0, bar4 := 0, vfBar4 := 0, epoch := 0 }
/-! ### Security store (R383 to R391) -/

/-- An owner position that has been programmed (R383, R384, R391). -/
structure OwnerPos where
  hash : List Byte
  /-- its 16 check bits, each as its difference from what the hash calls for: the spec gives the bits no form.
  DESIGN CHOICE: log 106. -/
  check : BitVec 16
  revoked : Bool
  deriving DecidableEq, Repr

/-- The check bits of a position match (R384). -/
def OwnerPos.good (o : OwnerPos) : Bool := o.check == 0

/-- What the security module keeps in fuses and in sealed storage. -/
structure SecStore where
  /-- owner positions 0 to 7, in order -/
  owners : List OwnerPos
  vendorRevoked : List Nat
  /-- the kill fuse -/
  killed : Bool
  ock : Option (List Byte)
  uak : Option (List Byte)
  /-- public keys stored for a slot code: Ed25519 key, then ML-DSA-65 key -/
  signers : Table (List Byte)
  /-- anti-rollback counters -/
  counters : Table Nat
  /-- firmware images other than those of manufacture, image type t of bank b at key 4·b + t; the bank marked active -/
  banks : Table (List Byte)
  bank : Nat
  /-- the request of a transfer of ownership that burned its new position and did not finish (R391) -/
  transfer : Option (List Byte)
  deriving DecidableEq, Repr

/-- DESIGN CHOICE: log 12. -/
def SecStore.init : SecStore :=
  { owners := [], vendorRevoked := [], killed := false, ock := none, uak := none, signers := [], counters := [], banks := []
    bank := 0, transfer := none }


/-! ### Bring-up, defects and the floor plan (R360 to R377) -/

/-- A unit that is bad for the boot and why: 0 factory, 1 field, 2 test (R367). `unit` is the entry of R365. -/
structure Defect where
  unit : Nat
  source : Nat
  deriving DecidableEq, Repr

/-- A channel's delay record in storage: the contents of its delay registers in the order of R268, and whether the record passes
its CRC, of which the spec gives no form (R262). DEDUCED: log 70. -/
structure DelayRec where
  words : List Word
  good : Bool
  deriving DecidableEq, Repr

/-- A run of pattern chunks: the first chunk, how many, the pattern and its seed (R263). -/
structure PatRun where
  first : Nat
  chunks : Nat
  pattern : Nat
  seed : Word
  deriving DecidableEq, Repr

/-- Ryhal's fuses and non-volatile storage: what a reset by PERST# and a loss of power leave. -/
structure Stored where
  /-- the variant code (R2) -/
  variant : Fin 4
  /-- the factory fuse map and the field fuse bank, in order, spoiled entries included (R365) -/
  factory : List Nat
  field : List Nat
  /-- consecutive-fault counts by unit entry (R368) -/
  counts : Table Nat
  /-- HIF_LINK_MODE as stored (R315): bifurcated -/
  bifurcate : Bool
  /-- channels whose delay record is held (R262) -/
  delays : Table DelayRec
  /-- causes in the Ryhal fault log, oldest first (R16, R365) -/
  log : List Nat
  /-- the shutdown that the next start reports, as PWR_SHUTDOWN_CAUSE codes it (R418); 0 none -/
  shut : Nat
  sec : SecStore
  deriving DecidableEq, Repr

/-- What bring-up has found in this boot. -/
structure Plan where
  defects : List Defect
  /-- dies that did not answer: 0–15 compute, 16–19 edge (R364) -/
  unreach : List Nat
  /-- router modes by router number (R233): 1 bypass, 2 dead -/
  routers : Table Nat
  /-- bays whose crema slice is removed for the boot (R361) -/
  slices : List Nat
  /-- units that failed and channels that passed a test of this boot (R368) -/
  failed : List Nat
  passed : List Nat
  /-- training of pending channels has started (R362) -/
  trained : Bool
  /-- the power-on tests or the firmware failed: bring-up has stopped (R381) -/
  stopped : Bool
  /-- a swap to a set that opens the fabric has begun (R270) -/
  fabric : Bool
  /-- findings that the fault log takes at the ready point (R363) -/
  noted : List Nat
  /-- the field bank and the consecutive-fault counts as the final floor plan shows them (R371) -/
  field : List Nat
  counts : Table Nat
  deriving DecidableEq, Repr

/-- DESIGN CHOICE: log 12. -/
def Stored.init : Stored := { variant := 0, factory := [], field := [], counts := [], bifurcate := false, delays := [], log := [], shut := 0, sec := .init }
def Plan.init : Plan := { defects := [], unreach := [], routers := [], slices := [], failed := [], passed := [], trained := false, stopped := false, fabric := false, noted := [], field := [], counts := [] }
/-! ### Configuration (R198 to R226) -/

/-- A configuration frame as it stands: the image that last wrote it (region, or 64 for the static image), its 400
bytes of data, and its check bits (R198, R223, R224). -/
structure Frame where
  image : Nat
  data : List Byte
  check : BitVec 32
  deriving DecidableEq, Repr

/-- Where the controller of a die is in a stream (R203). -/
inductive LoadStage where
  /-- a SEG command, or SIG after the last segment, comes next -/
  | clear
  /-- a segment is being authenticated -/
  | sealed
  /-- commands of an authenticated segment -/
  | text
  /-- END parsed, C(N) sent to Ryhal -/
  | ended
  /-- SIG read; Ryhal verifies -/
  | signed
  /-- verified: reset released, border cells not yet open -/
  | releasing
  deriving DecidableEq, Repr

/-- A load on one die. -/
structure DieLoad where
  load : Nat
  stage : LoadStage
  seg : Nat
  /-- byte position in the stream -/
  pos : Nat
  /-- the SEG command open and its length -/
  segCmd : List Byte
  segLen : Nat
  key : List Byte
  chain : List Byte
  /-- T(i) of the segment last authenticated -/
  tag : List Byte
  /-- plaintext not yet parsed -/
  text : List Byte
  /-- frame address of the last FADDR -/
  faddr : Option Nat
  /-- frames supplied and not yet committed -/
  queue : List (Nat × List Byte)
  /-- frames written by this load, by frame address -/
  written : List Nat
  /-- stream registers written -/
  regw : List (Nat × Nat)
  deriving DecidableEq, Repr

/-- A configuration controller: its memory, stream registers in force, load and scrubber. -/
structure DieCfg where
  /-- by frame address bits [27:7] -/
  frames : Table Frame
  /-- what they configure, by row region·1,024 + column (R167, R200) -/
  cols : Table ColumnCfg
  /-- TILE_MAP_t and REGION_FLAGS_r in force -/
  tileMap : Table Nat
  flags : Table Nat
  load : Option DieLoad
  /-- the frame the scrubber reads next, bits [27:7] -/
  scrub : Nat
  /-- a corrected frame to write back, with its upset words and whether one is essential (R223, R224) -/
  fix : Option (Nat × List Nat × Bool)
  /-- lines forced off: row region·16 + line, and the image whose load did it (R221) -/
  forced : List (Nat × Nat)
  deriving DecidableEq, Repr

/-- DESIGN CHOICE: log 66. -/
def DieCfg.init : DieCfg :=
  { frames := [], cols := [], tileMap := [], flags := [], load := none, scrub := 0, fix := none, forced := [] }

/-- How a load ended on a die that failed. -/
structure LoadFail where
  die : Nat
  status : Nat
  seg : Nat
  faddr : Nat
  frames : Nat
  deriving DecidableEq, Repr

/-- A configuration load: the request of R201 and what its header names (R205). -/
structure CfgLoad where
  ent : Entry
  addr : Nat
  bytes : Nat
  ess : Nat
  accepted : Bool
  dies : List Nat
  isPartial : Bool
  region : Nat
  segments : Nat
  imageId : List Byte
  slot : Nat
  rbIndex : Nat
  rbVersion : Nat
  released : List Nat
  failed : List LoadFail
  /-- frames committed on a die that has released (R225) -/
  frames : Nat
  deriving DecidableEq, Repr

/-! ### User state of the logic array (R173) -/

/-- What a block memory's port last put out: the word, and its error outputs (R176, R177). -/
structure BramOut where
  word : BitVec 72
  corrected : Bool
  uncorrected : Bool
  deriving DecidableEq, Repr

/-- The registers of an I/O cell: two bits in and out, the rising-edge bit first, and the output-enable (R195). -/
structure IoRegs where
  inp : BitVec 2
  out : BitVec 2
  oe : Bool
  deriving DecidableEq, Repr

/-- DESIGN CHOICE: log 127. -/
def BramOut.init : BramOut := ⟨0, false, false⟩
/-- DESIGN CHOICE: log 127. -/
def IoRegs.init : IoRegs := ⟨0, 0, false⟩

/-! ### The security module (R378 to R394) -/

/-- A service taken from SEC_CMD and not yet done (R380): its op, its request, and
how it was judged when it was taken. -/
structure SecService where
  op : Nat
  req : List Byte
  /-- what it ends with unless its effect says otherwise: 0 where it was let through -/
  status : Nat
  /-- authenticated as the crypto officer, and the vendor slots its signatures verify under (R379) -/
  officer : Bool
  slots : List Nat
  deriving DecidableEq, Repr

/-- The working state of the CTR_DRBG: key, counter block, and requests since it was seeded (SP 800-90A; R378). -/
structure Drbg where
  key : BitVec 256
  v : BitVec 128
  requests : Nat
  deriving DecidableEq, Repr

/-- The volatile state of the security module beside its registers. -/
structure SecState where
  /-- the challenge issued and not yet consumed -/
  challenge : Option (List Byte)
  /-- authentication failures in a row, and the refusal of 60 s they bring -/
  strikes : Nat
  lockout : Bool
  /-- the service in progress -/
  service : Option SecService
  /-- identity private keys erased (R382) -/
  erased : Bool
  /-- the DRBG, once it is seeded; zeroise erases it (R378, R382) -/
  drbg : Option Drbg
  /-- the state a self-test returns to when its tests pass (R382) -/
  back : Nat
  deriving DecidableEq, Repr

def SecState.init : SecState := { challenge := none, strikes := 0, lockout := false, service := none, erased := false, drbg := none, back := 1 }


/-! ### Twin pairing (R397 to R407) -/

/-- A slot of the partner's ring-state records that holds a copy of a taken and uncompleted entry (R398, R401). -/
structure TwinSlot where
  /-- mirrored ring, and slot of its record -/
  idx : Nat
  slot : Nat
  func : Nat
  ring : Nat
  seq : Nat
  deriving DecidableEq, Repr

/-- What an entry of a mirrored ring becomes once the twin has answered its write (R401). -/
inductive MirrorThen where
  | job (j : Nat)
  | nop (e : Entry)
  | barrier (e : Entry)
  deriving DecidableEq, Repr

/-- A write, or a fence, on its way to the partner. -/
inductive MirrorWrite where
  | heartbeat
  /-- a taken entry, and what follows its answer -/
  | entry (t : MirrorThen)
  /-- a slot written empty -/
  | empty
  /-- part of the sync of R404 -/
  | sync
  /-- a checkpoint record: its place in the partner's space, its valid word, and the stage: 0 the record but its valid
  word, 1 the fence, 2 the valid word (R402) -/
  | ckpt (off : Nat) (valid : List Byte) (stage : Nat)
  deriving DecidableEq, Repr

/-- A transfer to the partner: its number and class, the pieces that wait for room at the home edge, by place in the partner's
space, how many requests of it are unanswered, and the first status other than 0 among the answers (R271, R399). -/
structure MirrorXfer where
  id : Nat
  act : MirrorWrite
  cls : Nat
  todo : List (Nat × List Byte)
  left : Nat
  status : Nat
  deriving DecidableEq, Repr

/-- The twin engine beside its registers. -/
structure TwinState where
  slots : List TwinSlot
  /-- transfers that the engine has not seen answered, oldest first -/
  writes : List MirrorXfer
  /-- how many transfers there have been, and the transfer of each request at the home edge -/
  made : Nat
  mine : Table Nat
  /-- seq of the last heartbeat sent, of the last heartbeat read, and the run of misses (R399, R400) -/
  sent : Nat
  seen : Nat
  misses : Nat
  /-- barrier entries taken over, with the tags of the entries each waits for (R406) -/
  barriers : List (Entry × List Nat)
  deriving DecidableEq, Repr

def TwinState.init : TwinState := { slots := [], writes := [], made := 0, mine := [], sent := 0, seen := 0, misses := 0, barriers := [] }

/-! ### The tile network (R227 to R247) -/

/-- Whose request a packet is, and so where its response goes: an initiator whose work is not otherwise in the model, a
request of a stream channel, or a table read of a channel's translation. -/
inductive NocOwner where
  | bare
  | stream (bay chan id : Nat)
  | walk (bay chan : Nat)
  deriving DecidableEq, Repr

/-- A request on the tile network (R230, R231, R238). -/
structure NocReq where
  pkt : NocPacket
  owner : NocOwner
  /-- the whole global address, of a request whose initiator gave one (R269) -/
  gaddr : Option Nat
  /-- it waits at its injection port and is not yet issued (R236) -/
  waiting : Bool
  /-- class it travels in, after demotion (R236, R243) -/
  cls : Nat
  set : Nat
  yx : Bool
  /-- its endpoint has taken it: a home edge keeps it, or a bank queue holds it (R240, R258, R271) -/
  delivered : Bool
  /-- the answer on its way: status and data -/
  answer : Option (Nat × List Byte)
  /-- the device address of a memory failure -/
  failAddr : Nat
  /-- bays of a multicast that have not answered (R243) -/
  targets : List Nat
  /-- the initiator has timed it out: what comes later is discarded (R241) -/
  gone : Bool
  deriving DecidableEq, Repr


/-- A request in a bank queue of an LPDDR5X channel (R258). -/
structure BankItem where
  /-- its request on the tile network -/
  noc : Nat
  ris : Bool
  /-- the device address -/
  addr : Nat
  /-- a full-chunk write, acknowledged as it entered, and its bytes -/
  posted : Bool
  data : List Byte
  deriving DecidableEq, Repr

/-! ### The whole state -/

/-- How a configuration request completes (R319). -/
inductive ConfigAnswer where
  | success
  | retry
  | unsupported
  deriving DecidableEq, Repr

/-- What the module sends out: to host memory, to a function's rings, to a fabric port or to a pin. -/
inductive Output where
  /-- a posted write to host memory by a function -/
  | hostWrite (func addr : Nat) (bytes : List Byte)
  /-- an MSI-X message of a function, with the address and data of its vector -/
  | msix (func vector addr data : Nat)
  /-- the completion of a configuration request to a function (R319) -/
  | config (func : Nat) (answer : ConfigAnswer)
  /-- a Device Readiness Status message on a link (R319) -/
  | readiness (link : Nat)
  /-- the answer to a request on the tile network, to its initiator: set tag, status and data (R231, R242) -/
  | nocAnswer (src : NocPlace) (ep tag set status : Nat) (data : List Byte)
  /-- a message delivered to an endpoint of the tile network (R231) -/
  | nocMessage (dst : NocPlace) (ep : Nat) (payload : List Byte)
  /-- an event for Ryhal: a crossing of a router is down (R234) -/
  | crossingDown (router dir : Nat)
  /-- what a lane sends: its taps c(−1), c(0), c(+1) without their signs, and line symbols, as levels 0 to 3 (R294 to R298, R306) -/
  | line (lane : Nat) (taps : Nat × Nat × Nat) (levels : List Nat)
  /-- a mailbox endpoint notifies a control core that owns it: a die controller, 64 Ryhal (R350, R352) -/
  | doorbell (endpoint core : Nat)
  /-- a request to a BAR of a function is answered with Unsupported Request (R318, R321) -/
  | unsupported (func : Nat)
  /-- a read of host memory on behalf of a function: doorbell records, a ring's entry (R322, R323, R327) -/
  | hostRead (func addr bytes : Nat)
  /-- the answer to a BAR4 read: data, or all ones (R318) -/
  | bar4Data (func : Nat) (bytes : List Byte)
  /-- what a register access answers: the words read; no answer but Unsupported Request: none (R4, R6, R321) -/
  | regData (t : RegTarget) (data : Option (List Word))
  /-- a register access over the tile network is answered with a memory-class status (R240, R353) -/
  | regFail (t : RegTarget) (status : Nat)
  /-- a write of the twin engine to an offset of the partner's exported space, and a fence (R399, R401, R402) -/
  | mirror (addr : Nat) (bytes : List Byte)
  | mirrorFence
  /-- a stream channel pauses with a cause: an event for the controllers of its die (R136) -/
  | strPaused (bay chan cause : Nat)
  /-- a record popped by user logic from a tile port (R187) -/
  | toLogic (bay port src tag : Nat) (blockEnd : Bool) (bytes : List Byte)
  deriving DecidableEq, Repr

/-- The state of the module. -/
structure State where
  /-- Every register, by the key of Machine/Regs.lean; an unlisted register holds its reset value. -/
  regs : Table Word
  /-- Device memory: crema and LPDDR5X, by device address. -/
  mem : Table Byte
  /-- words of crema and chunks of LPDDR5X whose data cannot be corrected, by device address; the value is the 64-bit
  lane of the error (R264) -/
  poison : Table Nat
  /-- open row plus 1 of a bank, by the key of `bankKey`; unlisted: no row open (R258) -/
  openRows : Table Nat
  /-- requests to the open row of a bank served in succession while an older one to another row waits (R258) -/
  hitRuns : Table Nat
  /-- the bank queues of every channel, in the order of entry (R258) -/
  bankQ : List BankItem
  /-- check chunks in the check cache of a channel, oldest first: p / 256, and whether a write has changed it (R259) -/
  checks : Table (List (Nat × Bool))
  /-- words left of a commanded patrol sweep of a bay's slice (R255) -/
  sweeps : Table Nat
  /-- pattern chunks that the helper of a channel has written, newest first (R263) -/
  patterns : Table (List PatRun)
  mtx : Table Mtx
  vec : Table Vec
  /-- stream channels, channel c of bay b at key 16·b + c -/
  chans : Table Chan
  /-- the channel of a bay's engine that last took a block of the pool (R128) -/
  poolLast : Table Nat
  bays : Table BaySeq
  /-- tile ports, port p of bay b at key 4·b + p (R168) -/
  ports : Table TilePort
  /-- jobs by number, in the order their entries were taken -/
  jobs : Table Job
  /-- the 512-entry translation cache of BAR4 in the north edge die (R318) -/
  bar4Tlb : List TlbEntry
  /-- quarters a partition reset under way covers, as a mask by partition (R159) -/
  resets : Table Nat
  nextJob : Nat
  /-- dispatch queues: class c of partition p at key 4·p + c (R153) -/
  queues : Table (List Nat)
  /-- completion and submission rings: ring r of function f at key 1024·f + r -/
  cqs : Table CplRing
  sqs : Table SubRing
  fns : Table FnState
  /-- pinned images: handle h of function f at key 16·f + h -/
  pins : Table Pinned
  /-- for a quarter: function·16 + handle whose sections its bays last received (R326) -/
  qtrHandle : Table Nat
  sec : SecState
  /-- configuration controllers by die, and the loads under way by number -/
  cfgs : Table DieCfg
  loads : Table CfgLoad
  nextLoad : Nat
  /-- the input a global clock follows, global g of die d at key 16·d + g (R182) -/
  clkSel : Table Nat
  /-- globals whose changeover has not completed, by the same key (R182) -/
  clkHeld : List Nat
  /-- what a global that follows a routed signal has seen of it, and its edges that wait, oldest first, by the same key (R182) -/
  clkSeen : Table Nat
  clkEdges : List (Nat × Bool)
  /-- counts that the spec makes and shows in no register: of late aborts (R220) and of late responses (R356), by the key of
  the register of the block that owns them -/
  tallies : Table Nat
  /-- what the clock columns and the user-I/O column of a die configure (R181, R182, R195) -/
  clocks : Table ClockCfg
  userIo : Table IoCfg
  /-- flip-flop k of a cell at key 2·cell + k, and a cell's distributed memory, by `cellKey`; unlisted: as the configuration
  has it initially (R171, R172) -/
  flops : Table Bool
  lutMems : Table (BitVec 64)
  /-- word w of 72 bits of block memory m of die d at key (2048·d + m)·512 + w; unlisted: the initial contents; its upset
  bits; what port q last put out, at key 2·(2048·d + m) + q (R175 to R177) -/
  brams : Table (BitVec 72)
  bramFlips : Table (BitVec 72)
  bramOuts : Table BramOut
  /-- the kept value of long line n of row region r of die d at key (16·d + r)·16 + n, and the lines in contention
  (R179, R180) -/
  lines : Table Bool
  contending : List Nat
  /-- registers and delay taps of the user I/O cells (R195) -/
  ioRegs : Table IoRegs
  taps : Table Nat
  /-- sequencer memories: firmware memory and job memory of a bay, 64 KiB each, by `firmKey` (R154) -/
  firm : Table Byte
  /-- the sequencer firmware multicast at start, and the bays whose firmware memory took it: a byte of theirs that `firm` does
  not list reads as the firmware has it (R154, R360) -/
  fwBody : List Byte
  fwBays : List Nat
  /-- requests on the tile network, by number; 1 for a crossing that is down, by `crossKey`, and the failed replays in a row
  of a sender's flits on one, by `senderKey` (R234) -/
  noc : Table NocReq
  nextNoc : Nat
  crossings : Table Nat
  /-- the domains that have switched in a swap of control sets under way (R343) -/
  swap : Option (List Nat)
  /-- requests and fences at the home edges, by number, in the order they came (R271, R284) -/
  home : Table HomeItem
  nextHome : Nat
  /-- window entries as 128 bits, entry b · 8 + t of edge die e at key e · 2^19 + b · 8 + t; bytes staged for a commit
  (R272, R274) -/
  windows : Table Nat
  staged : Table Nat
  flights : List WinFlight
  /-- entry plus 1 that drain tracker t of edge die e counts for, at key 64·e + t (R276) -/
  trackers : Table Nat
  links : Table LinkPort
  twin : TwinState
  /-- completions and events formed so far -/
  formed : Nat
  nv : Stored
  plan : Plan
  board : Pins
  /-- the commanded test under way (R373) -/
  test : Option TestRun
  /-- sources of R416 -/
  heat : Table Heat
  /-- the scale s of R414 as a numerator and a denominator -/
  scale : Nat × Nat
  out : List Output
  /-- the model's own: how many free values have been drawn. DESIGN CHOICE: log 4. -/
  free : Nat
  /-- commands waiting, first in, first out -/
  pending : List Instr
  deriving DecidableEq, Repr

/-- The module right after PERST# is released (R7). DESIGN CHOICE: log 2, 3, 11. -/
def State.reset : State :=
  { regs := [], mem := [], poison := [], openRows := [], hitRuns := [], bankQ := [], checks := [], sweeps := [], patterns := [], mtx := [], vec := [], chans := [], poolLast := [], bays := [], ports := [], jobs := [], bar4Tlb := [], resets := [], nextJob := 0, queues := [],
    cqs := [], sqs := [], fns := [], pins := [], qtrHandle := [], sec := .init, cfgs := [], loads := [], nextLoad := 0, clkSel := [], clkHeld := [], clkSeen := [], clkEdges := [], tallies := [], clocks := [], userIo := [], flops := [], lutMems := [], brams := [], bramFlips := [], bramOuts := [], lines := [], contending := [], ioRegs := [], taps := [], firm := [], fwBody := [], fwBays := [], noc := [], nextNoc := 0, crossings := [], swap := none, home := [], nextHome := 0, windows := [], staged := [], flights := [], trackers := [], links := [], twin := .init, formed := 0, nv := .init, plan := .init, board := .init, test := none, heat := [], scale := (1, 1),
    out := [], free := 0, pending := [] }

end Sys2Proof.Machine
end

