-- ==== Sys2Proof/Machine/Ops.lean ====
section
/-! DEFINITION. The named operations over tables, registers, memory and units that every meaning is built from. -/

namespace Sys2Proof.Machine

/-- What a command answers. -/
abbrev Out := Host.Outcome State Fault Refusal

/-- The event the command names cannot occur here. DESIGN CHOICE: log 5. -/
def impossible : Out := .fault .eventImpossible

/-- A guarded step: the next state where the event can occur, a fault where it cannot. DESIGN CHOICE: log 5. -/
def guarded (g : Bool) (s : State) : Out := if g then .next s else impossible

/-! ### Tables -/

/-- Read a table; `d` is what an unlisted key reads as. -/
def tget {α : Type} (d : Nat → α) : Table α → Nat → α
  | [], k => d k
  | (k', v) :: t, k => if k = k' then v else tget d t k

/-- Insert or replace an entry, keeping keys rising. -/
def tput {α : Type} : Table α → Nat → α → Table α
  | [], k, v => [(k, v)]
  | (k', v') :: t, k, v =>
    if k < k' then (k, v) :: (k', v') :: t
    else if k = k' then (k, v) :: t
    else (k', v') :: tput t k v

/-- Remove an entry. -/
def terase {α : Type} (t : Table α) (k : Nat) : Table α := t.filter (fun e => e.1 != k)

/-- Write a table in canonical form: writing what an unlisted key reads as removes the entry. -/
def tset {α : Type} [DecidableEq α] (d : Nat → α) (t : Table α) (k : Nat) (v : α) : Table α :=
  if v = d k then terase t k else tput t k v

/-- Keys strictly rising. -/
def Table.sorted {α : Type} : Table α → Bool
  | [] => true
  | [_] => true
  | (k, _) :: (k', v') :: t => decide (k < k') && Table.sorted ((k', v') :: t)

/-- Canonical form: keys strictly rising and no entry equal to what an unlisted key reads as. -/
def Table.wf {α : Type} [DecidableEq α] (d : Nat → α) (t : Table α) : Bool :=
  Table.sorted t && t.all (fun e => !decide (e.2 = d e.1))

/-! ### Bit fields -/

/-- Bits [hi:lo] of a number. -/
def bitsOf (x hi lo : Nat) : Nat := x / 2 ^ lo % 2 ^ (hi - lo + 1)

/-- Bit i of a number. -/
def bitOf (x i : Nat) : Bool := x / 2 ^ i % 2 == 1

/-- Replace bits [hi:lo] of a number. -/
def putBits (x hi lo v : Nat) : Nat :=
  x - bitsOf x hi lo * 2 ^ lo + v % 2 ^ (hi - lo + 1) * 2 ^ lo

/-! ### Registers -/

/-- Read a register. -/
def State.rd (s : State) (k : Nat) : Word := tget regReset s.regs k

/-- Write a register whole. -/
def State.wr (s : State) (k : Nat) (v : Word) : State := { s with regs := tset regReset s.regs k v }

/-- A register as a number. -/
def State.rdN (s : State) (k : Nat) : Nat := (s.rd k).toNat

/-- Bit i of a register. -/
def State.rbit (s : State) (k i : Nat) : Bool := bitOf (s.rdN k) i

/-- Bits [hi:lo] of a register. -/
def State.fld (s : State) (k hi lo : Nat) : Nat := bitsOf (s.rdN k) hi lo

/-- Replace bits [hi:lo] of a register. -/
def State.wrFld (s : State) (k hi lo v : Nat) : State := s.wr k (BitVec.ofNat 32 (putBits (s.rdN k) hi lo v))

/-- Set the bits of a mask. -/
def State.setBits (s : State) (k : Nat) (m : Nat) : State := s.wr k (s.rd k ||| BitVec.ofNat 32 m)

/-- Clear the bits of a mask. -/
def State.clrBits (s : State) (k : Nat) (m : Nat) : State := s.wr k (s.rd k &&& ~~~(BitVec.ofNat 32 m))

/-- Set flag bit i (R6). -/
def State.setFlag (s : State) (k i : Nat) : State := s.setBits k (2 ^ i)

/-- A 32-bit counter counts, wrapping at its width (R73). -/
def State.bump (s : State) (k n : Nat) : State := s.wr k (s.rd k + BitVec.ofNat 32 n)

/-- Count one of what the spec counts and shows in no register. -/
def State.tally (s : State) (k : Nat) : State :=
  { s with tallies := tset (fun _ => 0) s.tallies k (tget (fun _ => 0) s.tallies k + 1) }

/-- A 64-bit register pair, low word at k. -/
def State.rd64 (s : State) (k : Nat) : Nat := s.rdN k + 2 ^ 32 * s.rdN (k + 4)

/-- Write a 64-bit register pair. -/
def State.wr64 (s : State) (k v : Nat) : State :=
  (s.wr k (BitVec.ofNat 32 v)).wr (k + 4) (BitVec.ofNat 32 (v / 2 ^ 32))

/-- A 64-bit counter counts, wrapping at its width (R73). -/
def State.bump64 (s : State) (k n : Nat) : State := s.wr64 k (s.rd64 k + n)

/-- Keep the largest value seen in a register. -/
def State.wrMax (s : State) (k v : Nat) : State := if s.rdN k < v then s.wr k (BitVec.ofNat 32 v) else s

/-- Write zero to a list of registers of a block. -/
def State.clearRegs (s : State) (b : Block) : List Nat → State
  | [] => s
  | o :: os => (s.wr (regKey b o) 0).clearRegs b os

/-! ### Memory -/

/-- A byte of device memory; memory that nothing has written reads zero (R255, R261: it is zeroed before use).
DESIGN CHOICE: log 2. -/
def State.readByte (s : State) (a : Nat) : Byte := tget (fun _ => 0) s.mem a

/-- Device memory is in canonical form. DESIGN CHOICE: log 2. -/
abbrev Memory.wf (m : Table Byte) : Prop := Table.wf (fun _ => 0) m = true

/-- The registers are in canonical form. -/
abbrev Registers.wf (r : Table Word) : Prop := Table.wf regReset r = true

/-- Write a byte of device memory. -/
def State.writeByte (s : State) (a : Nat) (v : Byte) : State := { s with mem := tset (fun _ => 0) s.mem a v }

/-- Read n bytes of a table of bytes from an address. -/
def tbytes (t : Table Byte) (a n : Nat) : List Byte := (List.range n).map (fun i => tget (fun _ => 0) t (a + i))

/-- Write bytes to a table of bytes from an address. -/
def tputBytes : Table Byte → Nat → List Byte → Table Byte
  | t, _, [] => t
  | t, a, v :: vs => tputBytes (tset (fun _ => 0) t a v) (a + 1) vs

/-- Write the present ones of a row of optional bytes (R63). -/
def tputSome : Table Byte → Nat → List (Option Byte) → Table Byte
  | t, _, [] => t
  | t, a, none :: vs => tputSome t (a + 1) vs
  | t, a, some v :: vs => tputSome (tset (fun _ => 0) t a v) (a + 1) vs

/-- Read n bytes of device memory. -/
def State.readBytes (s : State) (a n : Nat) : List Byte := tbytes s.mem a n

/-- Write bytes to device memory. -/
def State.writeBytes (s : State) (a : Nat) (vs : List Byte) : State := { s with mem := tputBytes s.mem a vs }

/-- A little-endian 32-bit word of device memory, as a number (R3). -/
def State.readWord (s : State) (a : Nat) : Nat := bytesNat (s.readBytes a 4)

/-- A little-endian 64-bit word of device memory, as a number. -/
def State.readQuad (s : State) (a : Nat) : Nat := bytesNat (s.readBytes a 8)

/-! ### Units -/

def State.mtxAt (s : State) (t : Nat) : Mtx := tget (fun _ => Mtx.init) s.mtx t
def State.setMtx (s : State) (t : Nat) (m : Mtx) : State := { s with mtx := tput s.mtx t m }
def State.vecAt (s : State) (b : Nat) : Vec := tget (fun _ => Vec.init) s.vec b
def State.setVec (s : State) (b : Nat) (v : Vec) : State := { s with vec := tput s.vec b v }
def State.chanAt (s : State) (b c : Nat) : Chan := tget (fun _ => Chan.init) s.chans (16 * b + c)
def State.setChan (s : State) (b c : Nat) (v : Chan) : State := { s with chans := tput s.chans (16 * b + c) v }
def State.bayAt (s : State) (b : Nat) : BaySeq := tget (fun _ => BaySeq.init) s.bays b
def State.setBay (s : State) (b : Nat) (v : BaySeq) : State := { s with bays := tput s.bays b v }

def State.portAt (s : State) (b p : Nat) : TilePort := tget (fun _ => TilePort.init) s.ports (4 * b + p)
def State.setPort (s : State) (b p : Nat) (v : TilePort) : State := { s with ports := tput s.ports (4 * b + p) v }

def State.cfgAt (s : State) (d : Nat) : DieCfg := tget (fun _ => DieCfg.init) s.cfgs d
def State.setCfg (s : State) (d : Nat) (v : DieCfg) : State := { s with cfgs := tput s.cfgs d v }

/-- A job by number. -/
def State.jobAt (s : State) (j : Nat) : Option Job := (s.jobs.find? (fun e => e.1 == j)).map (·.2)
def State.setJob (s : State) (j : Nat) (v : Job) : State := { s with jobs := tput s.jobs j v }

/-- Change a job, if there is one of that number. -/
def State.mapJob (s : State) (j : Nat) (f : Job → Job) : State :=
  match s.jobAt j with
  | none => s
  | some v => s.setJob j (f v)

/-- Send something out. -/
def State.emit (s : State) (o : Output) : State := { s with out := s.out ++ [o] }

/-- Replace element i of a list. -/
def setNth {α : Type} : List α → Nat → α → List α
  | [], _, _ => []
  | _ :: xs, 0, v => v :: xs
  | x :: xs, n + 1, v => x :: setNth xs n v

/-- Element i of a list of numbers, 0 beyond it. -/
def nthN (xs : List Nat) (i : Nat) : Nat := xs.getD i 0

/-- The die of a bay, of a tile; the bay of a tile (R11). -/
def dieOfBay (b : Nat) : Nat := b / 64
def bayOfTile (t : Nat) : Nat := t / 8

/-- The quarter of a bay (R12). -/
def quarterOfBay (b : Nat) : Nat := b / 64 * 4 + b % 64 / 8 / 4 * 2 + b % 64 % 8 / 4

/-- The bays of a quarter in the order of positions (R153): west to east, rows south to north. -/
def baysOfQuarter (q : Nat) : List Nat :=
  (List.range 16).map (fun i => q / 4 * 64 + (4 * (q % 4 / 2) + i / 4) * 8 + (4 * (q % 2) + i % 4))

/-- Fold a state change over a list. -/
def State.each {α : Type} (s : State) (xs : List α) (f : State → α → State) : State := xs.foldl f s

end Sys2Proof.Machine
end

