-- ==== Sys2Proof/Machine/MtxOps.lean ====
section
/-! DEFINITION. Matrix tiles: the pass descriptor and its refusal, operand layout, load, feed, aligner, drain records and
fault abandonment (R47 to R88). -/

namespace Sys2Proof.Machine

/-- The register key of a tile (R73). -/
def mtxReg (t off : Nat) : Nat := 0x20000000 + t * 0x100 + off

/-! ### The pass descriptor (R71) -/

/-- Word i of a descriptor, as a number. -/
def wordN (ws : List Word) (i : Nat) : Nat := (ws.getD i 0).toNat

/-- Quadrant record q of a descriptor. -/
def quadRec (ws : List Word) (q : Nat) : QuadRec :=
  { count := bitsOf (wordN ws (4 + 4 * q)) 27 18
    movAddr := bitsOf (wordN ws (4 + 4 * q)) 17 0
    accBase := bitsOf (wordN ws (5 + 4 * q)) 26 18
    staAddr := bitsOf (wordN ws (5 + 4 * q)) 17 0
    movStride := bitsOf (wordN ws (6 + 4 * q)) 15 0 }

/-- The fields of a pass descriptor. -/
def passDesc (ws : List Word) : PassDesc :=
  let w0 := wordN ws 0
  let w1 := wordN ws 1
  let w20 := wordN ws 20
  { movFmt := bitsOf w0 23 20, movDigits := bitsOf w0 19 16, retWidth := bitsOf w0 15 14, staFmt := bitsOf w0 13 10
    staBits := bitsOf w0 9 6, accMode := bitsOf w0 5 4, quad := bitOf w0 3, staKeep := bitOf w0 2
    staSrc := bitOf w0 1, drainEn := bitOf w0 0
    accShift := bitsOf w1 31 27, accExp := signed 10 (bitsOf w1 26 17), scaleExp := signed 8 (bitsOf w1 16 9)
    tolFrac := bitsOf w1 8 3, towardZero := bitOf w1 2, relB := bitOf w1 1, relA := bitOf w1 0
    rowMask := wordN ws 2, colMask := wordN ws 3
    quads := (List.range (if bitOf w0 3 then 4 else 1)).map (quadRec ws)
    outFmt := bitsOf w20 3 0, dst := bitsOf w20 7 4, dstChannel := bitsOf w20 15 8
    dstAddr := wordN ws 21, dstStride := bitsOf (wordN ws 22) 15 0 }

/-- The rounding of the pass (R26). -/
def PassDesc.rm (d : PassDesc) : RoundMode := if d.towardZero then .towardZero else .nearestEven

/-- Elements of a moving vector, and rows of an array (R47). -/
def PassDesc.side (d : PassDesc) : Nat := if d.quad then 16 else 32

/-- Retained width W of an MX moving element (R26). -/
def PassDesc.width (d : PassDesc) : Nat :=
  match MxFmt.ofCode d.movFmt with
  | some f => if f.hasRetWidth then 8 + 4 * d.retWidth else 8
  | none => 2 * d.movDigits

/-- Planes n (R26). -/
def PassDesc.planes (d : PassDesc) : Nat := d.width / 2

/-- Bits of a stored moving element (R55). -/
def PassDesc.elemBits (d : PassDesc) : Nat :=
  match MxFmt.ofCode d.movFmt with
  | some f => f.bits
  | none => 2 * d.movDigits

/-- Bytes of a moving record, scale byte included (R55). -/
def PassDesc.movBytes (d : PassDesc) : Nat :=
  d.elemBits * d.side / 8 + (if d.movFmt = 0 then 0 else 1)

/-- The smallest mov_stride (R55). -/
def PassDesc.minStride (d : PassDesc) : Nat :=
  if d.movFmt = 0 then d.movBytes else (d.movBytes + 3) / 4 * 4

/-- Bytes of a quadrant's, or the array's, stationary operand with its scales (R50). -/
def PassDesc.staBytes (d : PassDesc) : Nat := d.side * d.side + (if d.staFmt = 0 then 0 else d.side)

/-- Quadrants that take part: those with vectors (R49). -/
def PassDesc.active (d : PassDesc) : List Nat :=
  (List.range d.quads.length).filter (fun q => decide (0 < (d.quads.getD q ⟨0, 0, 0, 0, 0⟩).count))

/-- Quadrant record q, all zero where the mode has none. -/
def PassDesc.qrec (d : PassDesc) (q : Nat) : QuadRec := d.quads.getD q ⟨0, 0, 0, 0, 0⟩

/-- First row and first column of quadrant q (R48). -/
def PassDesc.row0 (d : PassDesc) (q : Nat) : Nat := if d.quad then 16 * (q / 2) else 0
def PassDesc.col0 (d : PassDesc) (q : Nat) : Nat := if d.quad then 16 * (q % 2) else 0

/-- The accumulator entry of vector v of quadrant q (R48, R59). -/
def PassDesc.entry (d : PassDesc) (q v : Nat) : Nat :=
  (d.qrec q).accBase + v + (if d.quad ∧ 2 ≤ q then 256 else 0)

/-- Rows and columns of quadrant q that take part (R62, R63). -/
def PassDesc.rowOn (d : PassDesc) (i : Nat) : Bool := bitOf d.rowMask i
def PassDesc.colsOn (d : PassDesc) (q : Nat) : List Nat :=
  ((List.range d.side).map (d.col0 q + ·)).filter (fun j => bitOf d.colMask j)

/-- A range of bytes lies in one 128 KiB half of the buffer (R56). -/
def inOneHalf (a n : Nat) : Bool := decide (a + n ≤ 0x40000) && (n == 0 || a / 0x20000 == (a + n - 1) / 0x20000)

/-- Bytes of an MX output record, and the record rounded up to 4 bytes (R66). -/
def mxOutBytes (f : MxFmt) : Nat := 4 * f.bits + 1
def mxOutStep (f : MxFmt) : Nat := (mxOutBytes f + 3) / 4 * 4

/-- The smallest dst_stride (R66). -/
def PassDesc.minDstStride (d : PassDesc) : Nat :=
  match outMx d.outFmt with
  | some f => if d.quad then 4 * mxOutStep f else mxOutStep f
  | none => (if d.quad then 64 else 32) * outSize d.outFmt

/-- The records a drain makes, in order: quadrant and record number (R77). -/
def PassDesc.drainPlan (d : PassDesc) : List (Nat × Nat) :=
  d.active.flatMap (fun q =>
    let c := (d.qrec q).count
    let n := if d.quad ∧ (outMx d.outFmt).isSome then (c + 1) / 2 else c
    (List.range n).map (fun m => (q, m)))

/-- Destination offset and length of the record m of quadrant q (R66). -/
def PassDesc.recordAt (d : PassDesc) (q m : Nat) : Nat × Nat :=
  match outMx d.outFmt with
  | some f => (d.dstAddr + m * d.dstStride + (if d.quad then q * mxOutStep f else 0), mxOutBytes f)
  | none =>
    let s := outSize d.outFmt
    (d.dstAddr + m * d.dstStride + (if d.quad then q * 16 * s else 0), d.side * s)

/-- The byte ranges of the buffer that the pass reads: moving records, stationary operand and scales (R65). -/
def PassDesc.reads (d : PassDesc) : List (Nat × Nat) :=
  d.active.flatMap (fun q =>
    let r := d.qrec q
    ((r.staAddr, d.staBytes)) :: (List.range r.count).map (fun v => (r.movAddr + v * r.movStride, d.movBytes)))

/-- Two byte ranges share a byte. -/
def rangesMeet (x y : Nat × Nat) : Bool :=
  decide (x.1 < y.1 + y.2) && decide (y.1 < x.1 + x.2) && decide (0 < x.2) && decide (0 < y.2)

/-- A reserved value in a numeric field, judged only where the pass uses it (R26). -/
def PassDesc.reservedValue (d : PassDesc) : Bool :=
  decide (7 ≤ d.movFmt) ||
  (d.movFmt == 0 && (d.movDigits == 0 || decide (9 ≤ d.movDigits))) ||
  (match MxFmt.ofCode d.movFmt with | some f => f.hasRetWidth && d.retWidth == 3 | none => false) ||
  !(d.staFmt == 0 || d.staFmt == 1 || d.staFmt == 5 || d.staFmt == 6) ||
  (d.staFmt == 0 && (d.staBits == 0 || decide (9 ≤ d.staBits))) ||
  (decide (48 ≤ d.tolFrac) && d.tolFrac != 63) ||
  (d.drainEn && (decide (13 ≤ d.outFmt) || (decide (d.outFmt ≤ 2) && (decide (d.scaleExp < 0) || decide (47 < d.scaleExp)))))

/-- Reserved fields of a descriptor that are judged and not zero (R71, R72). -/
def reservedFields (ws : List Word) : Bool :=
  let d := passDesc ws
  (List.range d.quads.length).any (fun q =>
    bitsOf (wordN ws (4 + 4 * q)) 31 28 != 0 || bitsOf (wordN ws (5 + 4 * q)) 31 27 != 0 ||
    bitsOf (wordN ws (6 + 4 * q)) 31 16 != 0 || wordN ws (7 + 4 * q) != 0) ||
  (d.drainEn && (bitsOf (wordN ws 20) 31 16 != 0 || bitsOf (wordN ws 22) 31 16 != 0 || wordN ws 23 != 0))

/-- The byte ranges that record m of quadrant q writes: the positions of masked columns are not written, but in an MX block
(R63, R66). -/
def PassDesc.written (d : PassDesc) (q m : Nat) : List (Nat × Nat) :=
  let r := d.recordAt q m
  if (outMx d.outFmt).isSome then [r]
  else (d.colsOn q).map (fun j => (r.1 + (j - d.col0 q) * outSize d.outFmt, outSize d.outFmt))

/-- A drain record is refused (R65, R72); `own` is the tile's number in its bay. -/
def PassDesc.drainRefused (d : PassDesc) (own : Nat) : Bool :=
  let recs := d.drainPlan.map (fun p => d.recordAt p.1 p.2)
  let mem := decide (1 ≤ d.dst) && decide (d.dst ≤ 9)
  let size := if d.dst = 1 then 0x80000 else 0x40000
  decide (14 ≤ d.dst) || (d.dst == 0 && decide (15 < d.dstChannel)) ||
  (mem && (d.dstStride % 4 != 0 || decide (d.dstStride < d.minDstStride) ||
    recs.any (fun r => decide (size < r.1 + r.2)))) ||
  (d.dst == own + 2 && d.drainPlan.any (fun p => (d.written p.1 p.2).any (fun r => d.reads.any (rangesMeet r))))

/-- A quadrant record is refused (R55, R56, R59, R71, R72). DEDUCED: log 26. -/
def PassDesc.recordRefused (d : PassDesc) (r : QuadRec) : Bool :=
  let lim := if d.quad then 256 else 512
  decide (lim < r.count) || decide (lim ≤ r.accBase) || decide (lim < r.accBase + r.count) ||
  r.movAddr % 4 != 0 || r.staAddr % 64 != 0 || r.movStride % 4 != 0 || decide (r.movStride < d.minStride) ||
  (r.count != 0 && !inOneHalf r.movAddr ((r.count - 1) * r.movStride + d.movBytes)) || !inOneHalf r.staAddr d.staBytes

/-- A pass descriptor is refused at dispatch (R26, R72). -/
def passRefused (ws : List Word) (own : Nat) : Bool :=
  let d := passDesc ws
  bitsOf (wordN ws 0) 31 24 != 3 || reservedFields ws || d.reservedValue || d.active == [] ||
  d.quads.any d.recordRefused || (d.drainEn && d.drainRefused own)

/-! ### Blocks of the operand buffer (R53, R54) -/

/-- The state of a buffer block. -/
def Mtx.block (m : Mtx) (b : Nat) : BufBlock := tget (fun _ => .free) m.blocks b

/-- Set a buffer block. -/
def Mtx.setBlock (m : Mtx) (b : Nat) (v : BufBlock) : Mtx := { m with blocks := tset (fun _ => .free) m.blocks b v }

/-- The 4 KiB blocks that a byte range touches. -/
def blocksOf (a n : Nat) : List Nat := if n = 0 then [] else (List.range ((a + n - 1) / 4096 - a / 4096 + 1)).map (a / 4096 + ·)

/-- Every block a range touches is valid (R53). -/
def Mtx.validRange (m : Mtx) (a n : Nat) : Bool := (blocksOf a n).all (fun b => m.block b == .valid)

/-- Change every block of the buffer. -/
def Mtx.mapBlocks (m : Mtx) (f : Nat → BufBlock → BufBlock) : Mtx :=
  (List.range 64).foldl (fun m b => m.setBlock b (f b (m.block b))) m

/-- Free every valid block of the halves named (R54): half A is blocks 0 to 31, half B 32 to 63. -/
def Mtx.release (m : Mtx) (a b : Bool) : Mtx :=
  m.mapBlocks (fun i st => if (if i < 32 then a else b) && st == .valid then .free else st)

/-- The blocks a writer is filling become valid: its completion signal (R53). -/
def Mtx.complete (m : Mtx) (w : Writer) : Mtx := m.mapBlocks (fun _ st => if st == .filling w then .valid else st)

/-- Every block free. -/
def Mtx.freeAll (m : Mtx) : Mtx := { m with blocks := [] }

/-- What the end of a job does to the blocks (R54): filling blocks return; valid ones too unless it succeeded. -/
def Mtx.endJobBlocks (m : Mtx) (success : Bool) : Mtx :=
  m.mapBlocks (fun _ st => if success && st == .valid then .valid else .free)

/-! ### Stationary operand (R50 to R52, R35) -/

/-- A stored stationary byte as the value of its cell (R25, R50). -/
def stationaryValue (fmt bits : Nat) (b : Byte) : Int :=
  match MxFmt.ofCode fmt with
  | none => signed bits b.toNat
  | some f => (f.convert 8 (b.toNat % 2 ^ f.bits)).1

/-- Load the stationary operand of every active quadrant into the cells and column scales (R50, R51). -/
def Mtx.loadCells (m : Mtx) (d : PassDesc) : Mtx :=
  d.active.foldl (fun m q =>
    let r := d.qrec q
    let n := d.side
    let cells := (List.range (n * n)).foldl (fun cs x =>
      let v := stationaryValue d.staFmt d.staBits (tget (fun _ => 0) m.buf (r.staAddr + x))
      tset (fun _ => 0) cs (32 * (d.row0 q + x / n) + d.col0 q + x % n) (BitVec.ofNat 8 (unsigned 8 v))) m.cells
    let scales := if d.staFmt = 0 then m.colScales else
      (List.range n).foldl (fun cs j =>
        tset (fun _ => 0) cs (32 * q + j) (tget (fun _ => 0) m.buf (r.staAddr + n * n + j))) m.colScales
    { m with cells := cells, colScales := scales }) m

/-- A stationary MX block of quadrant q is non-finite: a column's scale is 0xFF (R31). -/
def Mtx.staNonfinite (m : Mtx) (d : PassDesc) (q : Nat) : Bool :=
  d.staFmt != 0 && (List.range d.side).any (fun j =>
    tget (fun _ => (0 : Byte)) m.buf ((d.qrec q).staAddr + d.side * d.side + j) == 0xFF)

/-- Every block of the stationary operand is valid (R51, R53). -/
def Mtx.staReady (m : Mtx) (d : PassDesc) : Bool :=
  d.active.all (fun q => m.validRange (d.qrec q).staAddr d.staBytes)

/-- Whether a pass with sta_keep may run on the held values (R52). -/
def Mtx.keeps (m : Mtx) (d : PassDesc) : Bool :=
  m.staValid && (match m.held with
    | some h => h.quad == d.quad && h.fmt == d.staFmt && h.bits == d.staBits && h.rowMask == d.rowMask
    | none => false)

/-- The stationary value of a cell. -/
def Mtx.cell (m : Mtx) (i j : Nat) : Int := (tget (fun _ => (0 : Byte)) m.cells (32 * i + j)).toInt

/-- The unmasked rows of quadrant q. -/
def PassDesc.rowsOn (d : PassDesc) (q : Nat) : List Nat :=
  ((List.range d.side).map (d.row0 q + ·)).filter d.rowOn

/-- S_j of a column of quadrant q (R35). -/
def Mtx.magSum (m : Mtx) (d : PassDesc) (q j : Nat) : Nat :=
  (d.rowsOn q).foldl (fun a i => a + (m.cell i j).natAbs) 0

/-- e_w + f_w of a column (R32). -/
def Mtx.colExp (m : Mtx) (d : PassDesc) (q j : Nat) : Int :=
  match MxFmt.ofCode d.staFmt with
  | none => 0
  | some f => (tget (fun _ => (0 : Byte)) m.colScales (32 * q + (j - d.col0 q))).toNat - 127 + f.fx8

/-- The alignment exponent a of a column for a vector of exponent `ex` = e_x + f_x (R32). -/
def Mtx.alignExp (m : Mtx) (d : PassDesc) (q j : Nat) (ex : Int) : Int :=
  d.accShift + ex + m.colExp d q j - d.accExp

/-! ### Feeding a vector (R29 to R37, R55) -/

/-- The bytes of moving vector v of quadrant q. -/
def Mtx.record (m : Mtx) (d : PassDesc) (q v : Nat) : List Byte :=
  tbytes m.buf ((d.qrec q).movAddr + v * (d.qrec q).movStride) d.movBytes

/-- A moving MX record is non-finite: scale 0xFF or a NaN or infinity element, masked rows included (R31). -/
def recordNonfinite (d : PassDesc) (bytes : List Byte) : Bool :=
  match MxFmt.ofCode d.movFmt with
  | none => false
  | some f => bytes.getD (d.movBytes - 1) 0 == 0xFF ||
      (List.range d.side).any (fun e => f.nonfinite (unpackElem f.bits bytes e))

/-- The elements of a record as integers, masked rows as 0, and whether an unmasked one lost bits (R27, R30, R62). -/
def recordElems (d : PassDesc) (q : Nat) (bytes : List Byte) : List Int × Bool :=
  let es := (List.range d.side).map (fun e =>
    if d.rowOn (d.row0 q + e) then
      match MxFmt.ofCode d.movFmt with
      | none => (signed d.width (unpackElem d.elemBits bytes e), false)
      | some f => f.convert d.width (unpackElem f.bits bytes e)
    else (0, false))
  (es.map (·.1), es.any (·.2))

/-- e_x + f_x of a record (R32). -/
def recordExp (d : PassDesc) (bytes : List Byte) : Int :=
  match MxFmt.ofCode d.movFmt with
  | none => 0
  | some f => (bytes.getD (d.movBytes - 1) 0).toNat - 127 + f.fx d.width

/-- The tolerance exponent σ − f; none for zero tolerance (R26, R37). -/
def PassDesc.tolExp (d : PassDesc) : Option Int := if d.tolFrac = 63 then none else some (d.scaleExp - d.tolFrac)

/-- The vector as it enters the array: elements, skip and stop (R33, R36). -/
def Mtx.feedVector (m : Mtx) (d : PassDesc) (q v : Nat) : InFlight :=
  let bytes := m.record d q v
  let es := recordElems d q bytes
  let ex := recordExp d bytes
  let cols := (d.colsOn q).map (fun j => (m.magSum d q j, m.alignExp d q j ex))
  { quad := q, vec := v, xs := es.1, exp := ex, skip := skipPlanes d.planes es.1
    stop := stopPlane d.planes cols d.tolExp, rounded := es.2 }

/-! ### The accumulator (R32, R38 to R40, R58) -/

/-- Entry e of column j. -/
def Mtx.accGet (m : Mtx) (j e : Nat) : Int := (tget (fun _ => (0 : BitVec 48)) m.acc (512 * j + e)).toInt

/-- Write entry e of column j. -/
def Mtx.accPut (m : Mtx) (j e : Nat) (v : Int) : Mtx :=
  { m with acc := tset (fun _ => (0 : BitVec 48)) m.acc (512 * j + e) (BitVec.ofInt 48 v) }

/-- An entry after a contribution, by acc_mode (R58). -/
def accUpdate (mode : Nat) (old c : Int) : Int :=
  match mode with
  | 0 => c
  | 1 => old + c
  | 2 => old - c
  | _ => -c

/-- The finished partial of column j for a vector in flight (R28). -/
def Mtx.partialOf (m : Mtx) (d : PassDesc) (f : InFlight) (j : Nat) : Int :=
  partialSum d.planes ((List.range d.side).map (fun i => m.cell (d.row0 f.quad + i) j)) f.xs (f.stop + 1)

/-- One column's contribution reaches its entry: the tile, saturations counted, and e(v, j) (R32, R38, R40).
DEDUCED: log 25. -/
def Mtx.landColumn (m : Mtx) (d : PassDesc) (f : InFlight) (j : Nat) : Mtx × Nat × Nat :=
  let a := m.alignExp d f.quad j f.exp
  let t := d.planes - 1 - f.stop
  let e := d.entry f.quad f.vec
  let r := accSat (accUpdate d.accMode (m.accGet j e) (alignPartial (m.partialOf d f j) a t))
  (m.accPut j e r.1, if r.2 then 1 else 0, entryError a (m.magSum d f.quad j) t f.rounded)

/-- Every unmasked column's contribution: the tile, saturations, and the largest e(v, j). -/
def Mtx.landVector (m : Mtx) (d : PassDesc) (f : InFlight) : Mtx × Nat × Nat :=
  (d.colsOn f.quad).foldl (fun r j =>
    let x := r.1.landColumn d f j
    (x.1, r.2.1 + x.2.1, max r.2.2 x.2.2)) (m, 0, 0)

/-- The bound update when a pass's last contribution has reached its entry (R39). DEDUCED: log 23, 25. -/
def Mtx.updateBound (m : Mtx) (p : Pass) : Mtx :=
  let fresh := p.desc.accMode == 0 || p.desc.accMode == 3
  { m with bPass := p.maxErr, bRun := if fresh then p.maxErr else m.bRun + p.maxErr
           satSinceSet := if fresh then p.sat else m.satSinceSet }

/-! ### Drain records (R41 to R44, R63, R66) -/

/-- The entries of the columns of quadrant q for vector v; masked columns give none. -/
def Mtx.entries (m : Mtx) (d : PassDesc) (q v : Nat) : List (Option Int) :=
  (List.range d.side).map (fun j' =>
    let j := d.col0 q + j'
    if bitOf d.colMask j then some (m.accGet j (d.entry q v)) else none)

/-- The vectors whose entries record m of a drain reads (R43, R77). -/
def PassDesc.recordVectors (d : PassDesc) (q m : Nat) : List Nat :=
  if d.quad && (outMx d.outFmt).isSome then [2 * m, 2 * m + 1].filter (fun v => decide (v < (d.qrec q).count)) else [m]

/-- The transfers of record m of quadrant q, and its saturations: one, or two for full-mode ACC48 (R77). -/
def Mtx.drainRecord (m : Mtx) (d : PassDesc) (q r : Nat) : List OutRecord × Nat :=
  match outMx d.outFmt with
  | some f =>
    let vs : List (Option Int) :=
      if d.quad then m.entries d q (2 * r) ++
        (if 2 * r + 1 < (d.qrec q).count then m.entries d q (2 * r + 1) else List.replicate 16 (some 0))
      else m.entries d q r
    let blk := mxBlock f d.rm (vs.map (fun v => v.getD 0)) d.accExp
    ([⟨(d.recordAt q r).1, (mxRecord f blk).map some⟩], blk.2.2)
  | none =>
    let es := (m.entries d q r).map (fun v => v.map (outElem d.outFmt d.rm d.scaleExp d.accExp))
    let bytes : List (Option Byte) := es.flatMap (fun v =>
      match v with
      | none => List.replicate (outSize d.outFmt) none
      | some b => b.1.map some)
    let sats := (es.filter (fun v => match v with | some b => b.2 | none => false)).length
    let a := (d.recordAt q r).1
    if !d.quad && d.outFmt == 12 then ([⟨a, bytes.take 128⟩, ⟨a + 128, bytes.drop 128⟩], sats)
    else ([⟨a, bytes⟩], sats)

/-- A drain has still to read entry e of column j (R60). DEDUCED: log 29. -/
def Drain.unread (x : Drain) (j e : Nat) : Bool :=
  (x.desc.drainPlan.drop x.next).any (fun p =>
    (x.desc.colsOn p.1).contains j && (x.desc.recordVectors p.1 p.2).any (fun v => x.desc.entry p.1 v == e))

/-- The next vector of quadrant q is held: a drain has not read an entry it will write (R60). DEDUCED: log 29. -/
def Mtx.holdsVector (m : Mtx) (d : PassDesc) (q v : Nat) : Bool :=
  m.drains.any (fun x => (d.colsOn q).any (fun j => x.unread j (d.entry q v)))

/-! ### Error checks of a read (R57, R61) -/

/-- What the checks of a read find, group by group of the places read in one cycle: corrected errors, one for each place, up
to the first cycle with a place that cannot be corrected. `unit` is the size of a place's word. -/
def readFinds (unit : Nat) (es : List Ecc) : List (List Nat) → Nat × Option Nat
  | [] => (0, none)
  | g :: gs =>
    let is (bad : Bool) (p : Nat) : Bool := es.any (fun e => e.bad == bad && e.place / unit == p / unit)
    let n := (g.filter (fun p => is false p && !is true p)).length
    match g.find? (is true) with
    | some p => (n, some p)
    | none =>
      let r := readFinds unit es gs
      (n + r.1, r.2)

/-- The 64-bit words of the buffer that a byte range touches, by their offsets. -/
def wordsOfRange (a n : Nat) : List Nat :=
  if n = 0 then [] else (List.range ((a + n - 1) / 8 - a / 8 + 1)).map (fun i => (a / 8 + i) * 8)

/-- The buffer words a stationary load reads in each of its cycles: a row of every active quadrant, the column scales beside
the first (R51). -/
def PassDesc.loadWords (d : PassDesc) : List (List Nat) :=
  (List.range d.side).map (fun i => (d.active.flatMap (fun q =>
    let a := (d.qrec q).staAddr
    wordsOfRange (a + d.side * i) d.side ++
      (if i = 0 ∧ d.staFmt ≠ 0 then wordsOfRange (a + d.side * d.side) d.side else []))).dedup)

/-- A cause of fault abandonment that a tile meets: its flag of MTX_ERR_FLAGS, its status, the quadrant, the vector, and the
buffer offset or entry (R73, R85). -/
structure MtxCause where
  flag : Nat
  status : Nat
  quad : Nat
  vec : Nat
  addr : Nat
  /-- soft_reset of the tile itself -/
  soft : Bool
  deriving DecidableEq, Repr

/-- A cause's place in the table of R85. DESIGN CHOICE: log 122. -/
def MtxCause.rank (c : MtxCause) : Nat :=
  if c.flag = 0x02 then 0 else if c.flag = 0x08 then 1 else if c.flag = 0x10 then 2 else if c.status = 0x32 then 3
  else if c.soft then 4 else 5

/-- What a stationary load meets: corrected errors, and the causes of its first bad cycle, the highest first (R31, R57). The
block's check is made with its scales, in the first cycle. -/
def Mtx.loadFinds (m : Mtx) (d : PassDesc) (es : List Ecc) : Nat × List MtxCause :=
  let nonfinite := d.active.find? (m.staNonfinite d)
  let r := readFinds 8 es (if nonfinite.isSome then d.loadWords.take 1 else d.loadWords)
  let home (p : Nat) : Nat := (d.active.find? (fun q =>
    (wordsOfRange (d.qrec q).staAddr d.staBytes).contains p)).getD 0
  (r.1, (match r.2 with | some p => [⟨0x02, 0x20, home p, 0, p, false⟩] | none => []) ++
    (match nonfinite with | some q => [⟨0x10, 0x31, q, 0, 0, false⟩] | none => []))

/-- What the feed of vector v of quadrant q meets (R31, R57). -/
def Mtx.feedFinds (m : Mtx) (d : PassDesc) (q v : Nat) (es : List Ecc) : Nat × List MtxCause :=
  let r := readFinds 8 es [wordsOfRange ((d.qrec q).movAddr + v * (d.qrec q).movStride) d.movBytes]
  (r.1, (match r.2 with | some p => [⟨0x02, 0x20, q, v, p, false⟩] | none => []) ++
    (if recordNonfinite d (m.record d q v) then [⟨0x10, 0x31, q, v, 0, false⟩] else []))

/-- What the read of an entry of each unmasked column meets as vector v's partials arrive, column after column; a mode that
writes afresh reads nothing (R58, R61, R76). Entry e of column j is place 512·j + e. -/
def PassDesc.landFinds (d : PassDesc) (q v : Nat) (es : List Ecc) : Nat × List MtxCause :=
  if d.accMode == 1 || d.accMode == 2 then
    let r := readFinds 1 es ((d.colsOn q).map (fun j => [512 * j + d.entry q v]))
    (r.1, match r.2 with | some p => [⟨0x08, 0x20, q, v, p % 512, false⟩] | none => [])
  else (0, [])

/-- What the drain's read of record m's entries meets (R61). -/
def PassDesc.drainFinds (d : PassDesc) (q m : Nat) (es : List Ecc) : Nat × List MtxCause :=
  let r := readFinds 1 es [(d.recordVectors q m).flatMap (fun v => (d.colsOn q).map (fun j => 512 * j + d.entry q v))]
  (r.1, match r.2 with | some p => [⟨0x08, 0x20, q, p % 512 - d.entry q 0, p % 512, false⟩] | none => [])

/-! ### Faults and abandonment (R85, R86) -/

/-- Clear the entries of a pass's range in every unmasked column (R86). -/
def Mtx.clearEntries (m : Mtx) (d : PassDesc) : Mtx :=
  d.active.foldl (fun m q => (d.colsOn q).foldl (fun m j =>
    (List.range (d.qrec q).count).foldl (fun m v => m.accPut j (d.entry q v) 0) m) m) m

/-- The descriptors of the accepted passes of a tile. -/
def Mtx.acceptedDescs (m : Mtx) : List PassDesc :=
  (match m.cur with | some p => [p.desc] | none => []) ++ m.drains.map (·.desc)

/-- The tile's part of fault abandonment: planes and records stop, entries in range are cleared, the
stationary-valid flag clears and the tile halts (R86). `met` are the causes, by their places in the table of R85;
`recorded` says that the first-fault registers hold them; `stood` that no record can be accepted in the cycle of the
detection any more. -/
def Mtx.abandon (m : Mtx) (met : List Nat) (recorded stood : Bool) : Mtx :=
  let gone : Abandoned := ⟨m.cur, m.drains, met, recorded, stood⟩
  let m := m.acceptedDescs.foldl Mtx.clearEntries m
  { m with cur := none, drains := [], handed := [], staValid := false, halted := true, preempt := false
           feedStalled := false, drainStalled := false, gone := some gone }

/-- Records of a drain that its destination has accepted: a full-mode ACC48 record is two transfers (R77, R87).
DEDUCED: log 28. -/
def Drain.records (x : Drain) : Nat := if !x.desc.quad && x.desc.outFmt == 12 then x.accepted / 2 else x.accepted

/-- A pass is running or draining on the tile. -/
def Mtx.busy (m : Mtx) : Bool := m.cur.isSome || !m.drains.isEmpty

/-- Where a tile keeps that the first-fault registers hold a fault since bits [7:1] of MTX_ERR_FLAGS were last all clear
(R73): a word beyond the register map, 1 or 0. -/
def mtxRecorded (t : Nat) : Nat := mtxReg t 0x80

/-- The first-fault registers of a tile take a fault (R73). -/
def State.mtxRecord (s : State) (t status quad vec pass addr : Nat) : State :=
  (((s.wr (mtxRecorded t) 1).wr (mtxReg t Reg.MTX_FAULT_INFO) (BitVec.ofNat 32 (status * 2 ^ 24 + quad * 2 ^ 22 + vec % 1024 * 2 ^ 12))).wr
    (mtxReg t Reg.MTX_FAULT_PASS) (BitVec.ofNat 32 pass)).wr (mtxReg t Reg.MTX_FAULT_ADDR) (BitVec.ofNat 32 addr)

/-- The first-fault registers of a tile are open: no fault since bits [7:1] of MTX_ERR_FLAGS were last all clear. -/
def State.mtxOpen (s : State) (t : Nat) : Bool := s.rdN (mtxRecorded t) == 0

/-- Record a fault of a tile: flags, one count for each of its causes, and the first-fault registers (R73, R89). -/
def State.mtxFault (s : State) (t flags causes status quad vec pass addr : Nat) : State :=
  let u := (s.setBits (mtxReg t Reg.MTX_ERR_FLAGS) flags).bump (mtxReg t Reg.MTX_FAULT_COUNT) causes
  if s.mtxOpen t then u.mtxRecord t status quad vec pass addr else u

/-- A further cause that the cycle of an abandonment brings: it sets its flag and counts, and is recorded where it stands
higher in the table of R85 than those met; an expiry is only counted (R89). Nothing where the tile has abandoned no pass, or
has met the cause. DESIGN CHOICE: log 122. -/
def State.mtxAlso (s : State) (t pass : Nat) (c : MtxCause) : Option State :=
  let m := s.mtxAt t
  match m.gone with
  | none => none
  | some g =>
    let r := c.rank
    if g.met.contains r then none
    else
      let u := ((s.setBits (mtxReg t Reg.MTX_ERR_FLAGS) c.flag).bump (mtxReg t Reg.MTX_FAULT_COUNT) 1).setMtx t
        { m with gone := some { g with met := g.met ++ [r] } }
      some (if g.recorded && r != 3 && g.met.all (fun x => decide (r < x)) then u.mtxRecord t c.status c.quad c.vec pass c.addr else u)

/-- The pass index, quadrant and next vector to feed of the pass a fault of the tile is recorded for: the oldest, in the
lowest quadrant that takes part. DEDUCED: log 114. -/
def Mtx.oldest (m : Mtx) : Option (Nat × Nat × Nat) :=
  match m.drains with
  | x :: _ => some (x.index, x.desc.active.headD 0, (x.desc.qrec (x.desc.active.headD 0)).count)
  | [] => match m.cur with
    | some p => some (p.index, p.desc.active.headD 0, nthN p.fed (p.desc.active.headD 0))
    | none => none

end Sys2Proof.Machine
end

