-- ==== Sys2Proof/Machine/FnTable.lean ====
section
/-! DEFINITION. The function unit's fixed tables (R109): g(i) = floor(func(x_i) · 2^q + 1/2), i from 0 to 256. -/

namespace Sys2Proof.Machine

def fnExp20 : List Int := [16384, 16428, 16473, 16518, 16562, 16607, 16652, 16697, 16743, 16788, 16834, 16879, 16925, 16971, 17017, 17063, 17109, 17156, 17202, 17249, 17296, 17343, 17390, 17437, 17484, 17531, 17579, 17627, 17674, 17722, 17770, 17819, 17867]
def fnExp21 : List Int := [17915, 17964, 18013, 18061, 18110, 18160, 18209, 18258, 18308, 18357, 18407, 18457, 18507, 18557, 18607, 18658, 18708, 18759, 18810, 18861, 18912, 18963, 19015, 19066, 19118, 19170, 19222, 19274, 19326, 19379, 19431, 19484, 19537]
def fnExp22 : List Int := [19590, 19643, 19696, 19750, 19803, 19857, 19911, 19965, 20019, 20073, 20127, 20182, 20237, 20292, 20347, 20402, 20457, 20513, 20568, 20624, 20680, 20736, 20792, 20849, 20905, 20962, 21019, 21076, 21133, 21190, 21247, 21305, 21363]
def fnExp23 : List Int := [21421, 21479, 21537, 21595, 21654, 21713, 21772, 21831, 21890, 21949, 22009, 22068, 22128, 22188, 22248, 22309, 22369, 22430, 22491, 22552, 22613, 22674, 22735, 22797, 22859, 22921, 22983, 23045, 23108, 23170, 23233, 23296, 23359]
def fnExp24 : List Int := [23423, 23486, 23550, 23614, 23678, 23742, 23806, 23871, 23936, 24001, 24066, 24131, 24196, 24262, 24328, 24394, 24460, 24526, 24593, 24659, 24726, 24793, 24860, 24928, 24995, 25063, 25131, 25199, 25268, 25336, 25405, 25474, 25543]
def fnExp25 : List Int := [25612, 25681, 25751, 25821, 25891, 25961, 26031, 26102, 26173, 26244, 26315, 26386, 26458, 26530, 26601, 26674, 26746, 26818, 26891, 26964, 27037, 27110, 27184, 27258, 27332, 27406, 27480, 27554, 27629, 27704, 27779, 27855, 27930]
def fnExp26 : List Int := [28006, 28082, 28158, 28234, 28311, 28388, 28464, 28542, 28619, 28697, 28774, 28852, 28931, 29009, 29088, 29167, 29246, 29325, 29405, 29484, 29564, 29644, 29725, 29805, 29886, 29967, 30048, 30130, 30212, 30293, 30376, 30458, 30541]
def fnExp27 : List Int := [30623, 30706, 30790, 30873, 30957, 31041, 31125, 31209, 31294, 31379, 31464, 31549, 31635, 31720, 31806, 31893, 31979, 32066, 32153, 32240, 32327, 32415, 32503, 32591, 32679, 32768]

/-- g(i) of 2^x at i / 256, Q1.14. -/
def fnExp2 : List Int := fnExp20 ++ fnExp21 ++ fnExp22 ++ fnExp23 ++ fnExp24 ++ fnExp25 ++ fnExp26 ++ fnExp27

def fnLog20 : List Int := [0, 0, 0, 0, 0, 0, 0, 0, 0, 0, 0, 0, 0, 0, 0, 0, 0, 0, 0, 0, 0, 0, 0, 0, 0, 0, 0, 0, 0, 0, 0, 0, 0]
def fnLog21 : List Int := [0, 0, 0, 0, 0, 0, 0, 0, 0, 0, 0, 0, 0, 0, 0, 0, 0, 0, 0, 0, 0, 0, 0, 0, 0, 0, 0, 0, 0, 0, 0, 0, 366]
def fnLog22 : List Int := [727, 1083, 1433, 1778, 2118, 2453, 2784, 3110, 3432, 3749, 4062, 4371, 4676, 4977, 5274, 5568, 5858, 6145, 6428, 6707, 6984, 7257, 7527, 7794, 8059, 8320, 8578, 8834, 9086, 9337, 9584, 9829, 10071]
def fnLog23 : List Int := [10311, 10549, 10784, 11017, 11248, 11476, 11702, 11926, 12148, 12368, 12586, 12802, 13016, 13228, 13438, 13646, 13853, 14057, 14260, 14461, 14661, 14858, 15055, 15249, 15442, 15634, 15823, 16012, 16199, 16384, 16568, 16750, 16932]
def fnLog24 : List Int := [17111, 17290, 17467, 17643, 17817, 17990, 18162, 18333, 18502, 18670, 18837, 19003, 19168, 19332, 19494, 19655, 19816, 19975, 20133, 20290, 20446, 20601, 20755, 20908, 21060, 21211, 21361, 21510, 21658, 21806, 21952, 22098, 22242]
def fnLog25 : List Int := [22386, 22529, 22671, 22812, 22952, 23091, 23230, 23368, 23505, 23641, 23777, 23911, 24045, 24178, 24311, 24443, 24573, 24704, 24833, 24962, 25090, 25218, 25344, 25470, 25596, 25721, 25845, 25968, 26091, 26213, 26334, 26455, 26576]
def fnLog26 : List Int := [26695, 26814, 26933, 27051, 27168, 27285, 27401, 27517, 27632, 27746, 27860, 27973, 28086, 28198, 28310, 28421, 28532, 28642, 28752, 28861, 28970, 29078, 29186, 29293, 29400, 29506, 29612, 29717, 29822, 29926, 30030, 30134, 30237]
def fnLog27 : List Int := [30339, 30441, 30543, 30644, 30745, 30845, 30945, 31045, 31144, 31242, 31341, 31439, 31536, 31633, 31730, 31826, 31922, 32018, 32113, 32207, 32302, 32396, 32489, 32583, 32675, 32768]

/-- g(i) of log2 x at i / 64 (1.0 below 1.0), Q1.14. -/
def fnLog2 : List Int := fnLog20 ++ fnLog21 ++ fnLog22 ++ fnLog23 ++ fnLog24 ++ fnLog25 ++ fnLog26 ++ fnLog27

def fnRcp0 : List Int := [16384, 16384, 16384, 16384, 16384, 16384, 16384, 16384, 16384, 16384, 16384, 16384, 16384, 16384, 16384, 16384, 16384, 16384, 16384, 16384, 16384, 16384, 16384, 16384, 16384, 16384, 16384, 16384, 16384, 16384, 16384, 16384, 16384]
def fnRcp1 : List Int := [16384, 16384, 16384, 16384, 16384, 16384, 16384, 16384, 16384, 16384, 16384, 16384, 16384, 16384, 16384, 16384, 16384, 16384, 16384, 16384, 16384, 16384, 16384, 16384, 16384, 16384, 16384, 16384, 16384, 16384, 16384, 16384, 16132]
def fnRcp2 : List Int := [15888, 15650, 15420, 15197, 14980, 14769, 14564, 14364, 14170, 13981, 13797, 13618, 13443, 13273, 13107, 12945, 12788, 12633, 12483, 12336, 12193, 12053, 11916, 11782, 11651, 11523, 11398, 11275, 11155, 11038, 10923, 10810, 10700]
def fnRcp3 : List Int := [10592, 10486, 10382, 10280, 10180, 10082, 9986, 9892, 9800, 9709, 9620, 9533, 9447, 9362, 9279, 9198, 9118, 9039, 8962, 8886, 8812, 8738, 8666, 8595, 8525, 8456, 8389, 8322, 8257, 8192, 8128, 8066, 8004]
def fnRcp4 : List Int := [7944, 7884, 7825, 7767, 7710, 7654, 7598, 7544, 7490, 7437, 7384, 7333, 7282, 7232, 7182, 7133, 7085, 7037, 6991, 6944, 6899, 6853, 6809, 6765, 6722, 6679, 6637, 6595, 6554, 6513, 6473, 6433, 6394]
def fnRcp5 : List Int := [6355, 6317, 6279, 6242, 6205, 6168, 6132, 6096, 6061, 6026, 5992, 5958, 5924, 5891, 5858, 5825, 5793, 5761, 5730, 5699, 5668, 5638, 5607, 5578, 5548, 5519, 5490, 5461, 5433, 5405, 5377, 5350, 5323]
def fnRcp6 : List Int := [5296, 5269, 5243, 5217, 5191, 5165, 5140, 5115, 5090, 5066, 5041, 5017, 4993, 4970, 4946, 4923, 4900, 4877, 4855, 4832, 4810, 4788, 4766, 4745, 4723, 4702, 4681, 4660, 4640, 4619, 4599, 4579, 4559]
def fnRcp7 : List Int := [4539, 4520, 4500, 4481, 4462, 4443, 4424, 4406, 4387, 4369, 4351, 4333, 4315, 4297, 4280, 4263, 4245, 4228, 4211, 4194, 4178, 4161, 4145, 4128, 4112, 4096]

/-- g(i) of 1 / x at i / 64 (1.0 below 1.0), Q1.14. -/
def fnRcp : List Int := fnRcp0 ++ fnRcp1 ++ fnRcp2 ++ fnRcp3 ++ fnRcp4 ++ fnRcp5 ++ fnRcp6 ++ fnRcp7

def fnRsq0 : List Int := [16384, 16384, 16384, 16384, 16384, 16384, 16384, 16384, 16384, 16384, 16384, 16384, 16384, 16384, 16384, 16384, 16384, 16384, 16384, 16384, 16384, 16384, 16384, 16384, 16384, 16384, 16384, 16384, 16384, 16384, 16384, 16384, 16384]
def fnRsq1 : List Int := [16384, 16384, 16384, 16384, 16384, 16384, 16384, 16384, 16384, 16384, 16384, 16384, 16384, 16384, 16384, 16384, 16384, 16384, 16384, 16384, 16384, 16384, 16384, 16384, 16384, 16384, 16384, 16384, 16384, 16384, 16384, 16384, 16257]
def fnRsq2 : List Int := [16134, 16013, 15895, 15779, 15666, 15555, 15447, 15341, 15237, 15135, 15035, 14937, 14841, 14747, 14654, 14564, 14474, 14387, 14301, 14217, 14134, 14052, 13972, 13894, 13816, 13740, 13665, 13592, 13519, 13448, 13377, 13308, 13240]
def fnRsq3 : List Int := [13173, 13107, 13042, 12978, 12915, 12853, 12791, 12731, 12671, 12612, 12554, 12497, 12441, 12385, 12330, 12276, 12223, 12170, 12118, 12066, 12015, 11965, 11916, 11867, 11818, 11771, 11723, 11677, 11631, 11585, 11540, 11496, 11452]
def fnRsq4 : List Int := [11408, 11365, 11323, 11281, 11239, 11198, 11158, 11117, 11078, 11038, 10999, 10961, 10923, 10885, 10848, 10811, 10774, 10738, 10702, 10666, 10631, 10597, 10562, 10528, 10494, 10461, 10428, 10395, 10362, 10330, 10298, 10266, 10235]
def fnRsq5 : List Int := [10204, 10173, 10143, 10112, 10082, 10053, 10023, 9994, 9965, 9937, 9908, 9880, 9852, 9824, 9797, 9770, 9743, 9716, 9689, 9663, 9637, 9611, 9585, 9559, 9534, 9509, 9484, 9459, 9435, 9410, 9386, 9362, 9338]
def fnRsq6 : List Int := [9315, 9291, 9268, 9245, 9222, 9199, 9177, 9154, 9132, 9110, 9088, 9066, 9045, 9023, 9002, 8981, 8960, 8939, 8918, 8898, 8877, 8857, 8837, 8817, 8797, 8777, 8758, 8738, 8719, 8700, 8680, 8661, 8643]
def fnRsq7 : List Int := [8624, 8605, 8587, 8568, 8550, 8532, 8514, 8496, 8478, 8461, 8443, 8426, 8408, 8391, 8374, 8357, 8340, 8323, 8306, 8290, 8273, 8257, 8240, 8224, 8208, 8192]

/-- g(i) of 1 / √x at i / 64 (1.0 below 1.0), Q1.14. -/
def fnRsq : List Int := fnRsq0 ++ fnRsq1 ++ fnRsq2 ++ fnRsq3 ++ fnRsq4 ++ fnRsq5 ++ fnRsq6 ++ fnRsq7

def fnSigmoid0 : List Int := [0, 0, 0, 0, 0, 0, 0, 0, 0, 0, 0, 0, 0, 0, 0, 0, 0, 0, 0, 0, 0, 0, 0, 0, 0, 0, 0, 0, 0, 0, 0, 0, 0]
def fnSigmoid1 : List Int := [0, 0, 0, 0, 0, 0, 0, 0, 0, 0, 0, 0, 1, 1, 1, 1, 1, 1, 1, 1, 1, 2, 2, 2, 2, 3, 3, 3, 4, 4, 5, 5, 6]
def fnSigmoid2 : List Int := [7, 8, 9, 10, 12, 13, 15, 17, 19, 22, 25, 28, 32, 36, 41, 46, 52, 59, 67, 76, 86, 97, 110, 124, 141, 159, 180, 204, 230, 261, 295, 333, 376]
def fnSigmoid3 : List Int := [425, 480, 542, 612, 690, 777, 875, 984, 1107, 1243, 1394, 1562, 1748, 1953, 2178, 2426, 2695, 2989, 3307, 3649, 4015, 4406, 4820, 5256, 5712, 6186, 6674, 7173, 7681, 8192, 8703, 9211, 9710]
def fnSigmoid4 : List Int := [10198, 10672, 11128, 11564, 11978, 12369, 12735, 13077, 13395, 13689, 13958, 14206, 14431, 14636, 14822, 14990, 15141, 15277, 15400, 15509, 15607, 15694, 15772, 15842, 15904, 15959, 16008, 16051, 16089, 16123, 16154, 16180, 16204]
def fnSigmoid5 : List Int := [16225, 16243, 16260, 16274, 16287, 16298, 16308, 16317, 16325, 16332, 16338, 16343, 16348, 16352, 16356, 16359, 16362, 16365, 16367, 16369, 16371, 16372, 16374, 16375, 16376, 16377, 16378, 16379, 16379, 16380, 16380, 16381, 16381]
def fnSigmoid6 : List Int := [16381, 16382, 16382, 16382, 16382, 16383, 16383, 16383, 16383, 16383, 16383, 16383, 16383, 16383, 16384, 16384, 16384, 16384, 16384, 16384, 16384, 16384, 16384, 16384, 16384, 16384, 16384, 16384, 16384, 16384, 16384, 16384, 16384]
def fnSigmoid7 : List Int := [16384, 16384, 16384, 16384, 16384, 16384, 16384, 16384, 16384, 16384, 16384, 16384, 16384, 16384, 16384, 16384, 16384, 16384, 16384, 16384, 16384, 16384, 16384, 16384, 16384, 16384]

/-- g(i) of 1 / (1 + e^−x) at i / 8 − 16, Q1.14. -/
def fnSigmoid : List Int := fnSigmoid0 ++ fnSigmoid1 ++ fnSigmoid2 ++ fnSigmoid3 ++ fnSigmoid4 ++ fnSigmoid5 ++ fnSigmoid6 ++ fnSigmoid7

def fnGelu0 : List Int := [0, 0, 0, 0, 0, 0, 0, 0, 0, 0, 0, 0, 0, 0, 0, 0, 0, 0, 0, 0, 0, 0, 0, 0, 0, 0, 0, 0, 0, 0, 0, 0, 0]
def fnGelu1 : List Int := [0, 0, 0, 0, 0, 0, 0, 0, 0, 0, 0, 0, 0, 0, 0, 0, 0, 0, 0, 0, 0, 0, 0, 0, 0, 0, 0, 0, 0, 0, 0, 0, 0]
def fnGelu2 : List Int := [0, 0, 0, 0, 0, 0, 0, 0, 0, 0, 0, 0, 0, 0, 0, -1, -1, -1, -1, -1, -1, -2, -2, -2, -3, -4, -4, -5, -6, -8, -9, -11, -13]
def fnGelu3 : List Int := [-15, -19, -22, -26, -31, -37, -44, -52, -61, -72, -84, -98, -114, -132, -152, -173, -197, -222, -247, -273, -296, -316, -330, -335, -328, -306, -265, -202, -114, 0, 142, 310, 503]
def fnGelu4 : List Int := [718, 952, 1201, 1462, 1732, 2008, 2287, 2569, 2850, 3131, 3411, 3688, 3964, 4238, 4510, 4780, 5048, 5315, 5580, 5844, 6107, 6369, 6630, 6890, 7149, 7409, 7667, 7925, 8183, 8440, 8698, 8955, 9212]
def fnGelu5 : List Int := [9468, 9725, 9982, 10238, 10494, 10751, 11007, 11263, 11519, 11775, 12031, 12288, 12544, 12800, 13056, 13312, 13568, 13824, 14080, 14336, 14592, 14848, 15104, 15360, 15616, 15872, 16128, 16384, 16640, 16896, 17152, 17408, 17664]
def fnGelu6 : List Int := [17920, 18176, 18432, 18688, 18944, 19200, 19456, 19712, 19968, 20224, 20480, 20736, 20992, 21248, 21504, 21760, 22016, 22272, 22528, 22784, 23040, 23296, 23552, 23808, 24064, 24320, 24576, 24832, 25088, 25344, 25600, 25856, 26112]
def fnGelu7 : List Int := [26368, 26624, 26880, 27136, 27392, 27648, 27904, 28160, 28416, 28672, 28928, 29184, 29440, 29696, 29952, 30208, 30464, 30720, 30976, 31232, 31488, 31744, 32000, 32256, 32512, 32768]

/-- g(i) of x / (1 + e^(−1.702x)) at i / 8 − 16, Q4.11. -/
def fnGelu : List Int := fnGelu0 ++ fnGelu1 ++ fnGelu2 ++ fnGelu3 ++ fnGelu4 ++ fnGelu5 ++ fnGelu6 ++ fnGelu7

/-- g of a fixed slot; slots 0 to 5. -/
def fnTable : Nat → List Int
  | 0 => fnExp2 | 1 => fnLog2 | 2 => fnRcp | 3 => fnRsq | 4 => fnSigmoid | 5 => fnGelu | _ => []

/-- T[i] and S[i] of a fixed slot; entries below input 1.0 of slots 1 to 3 hold T = g(64), S = 0. -/
def fnEntry (slot i : Nat) : Int × Int :=
  let g := fnTable slot
  ((g.getD i 0), (g.getD (i + 1) 0) - (g.getD i 0))

/-- Whether a fixed slot reads a signed input. -/
def fnSigned (slot : Nat) : Bool := slot == 4 || slot == 5

end Sys2Proof.Machine
end

