-- ==== Sys2Proof/Machine/VecOps.lean ====
section
/-! DEFINITION. Vector tiles: lane state, address generators, packets, compute operations, repeats, landing of results
and halting (R92 to R116). -/

namespace Sys2Proof.Machine

/-- The register key of a vector tile (R116). -/
def vecReg (b off : Nat) : Nat := 0x30000000 + b * 0x2000 + off

/-! ### Lane state (R92) -/

def Vec.dAt (v : Vec) (l r : Nat) : Word := tget (fun _ => 0) v.d (16 * l + r)
def Vec.aAt (v : Vec) (l i : Nat) : Int := (tget (fun _ => (0 : BitVec 40)) v.a (2 * l + i)).toInt
def Vec.beAt (v : Vec) (l : Nat) : Int := (tget (fun _ => (0 : Byte)) v.be l).toInt
def Vec.hdAt (v : Vec) (l : Nat) : Nat := (tget (fun _ => (31 : BitVec 5)) v.hd l).toNat

/-- One lane write lands. -/
def Vec.put (v : Vec) : LaneWrite → Vec
  | .d l r x => { v with d := tset (fun _ => 0) v.d (16 * l + r) x }
  | .a l i x => { v with a := tset (fun _ => 0) v.a (2 * l + i) x }
  | .be l x => { v with be := tset (fun _ => 0) v.be l x }
  | .hd l x => { v with hd := tset (fun _ => 31) v.hd l x }

/-- The value an accumulator operation reads: that of the accumulator operation of the packet before it, if still in
flight, else the accumulator (R105). -/
def Vec.aForward (v : Vec) (l i : Nat) : Int :=
  let pend := v.flight.flatMap (fun f => f.writes.filterMap (fun w =>
    match w with
    | .a l' i' x => if l' = l ∧ i' = i then some x.toInt else none
    | _ => none))
  match pend.getLast? with
  | some x => x
  | none => v.aAt l i

/-- Results whose latency has run out land, lower ranks first, so that the higher rank stands (R105); of two compute results that
land in one register in one cycle, the one issued later. DESIGN CHOICE: log 123. -/
def Vec.tick (v : Vec) : Vec :=
  let fl := v.flight.map (fun f => { f with left := f.left - 1 })
  let due := fl.filter (fun f => f.left == 0)
  let ws := (due.filter (fun f => f.rank == 0) ++ due.filter (fun f => f.rank == 1) ++ due.filter (fun f => 2 ≤ f.rank)).flatMap
    (·.writes)
  ws.foldl Vec.put { v with flight := fl.filter (fun f => f.left != 0) }

/-- Queue results of latency `l` (R105). -/
def Vec.launch (v : Vec) (l rank : Nat) (ws : List LaneWrite) : Vec :=
  if ws.isEmpty then v else { v with flight := v.flight ++ [⟨l, rank, ws⟩] }

/-! ### Address generators (R100, R101) -/

def genBase (g : Nat) : Nat := bitsOf g 63 52 % 2048
def genMod (g : Nat) : Nat := bitsOf g 51 40 + 1
def genStep (g : Nat) : Nat := bitsOf g 39 24
def genIndex (g : Nat) : Nat := bitsOf g 23 8
def genSkew (g : Nat) : Int := signed 6 (bitsOf g 7 2)
def genBitrev (g : Nat) : Bool := bitOf g 1

/-- A power of two. -/
def isPow2 (n : Nat) : Bool := decide (0 < n) && 2 ^ Nat.log2 n == n

/-- The reversal of the low k bits. -/
def bitReverse : Nat → Nat → Nat
  | 0, _ => 0
  | k + 1, x => x % 2 * 2 ^ k + bitReverse k (x / 2)

/-- Generator g of the tile. -/
def Vec.genAt (v : Vec) (g : Nat) : Nat := (tget (fun _ => (0 : BitVec 64)) v.gens g).toNat

/-- The row of lane l for an access through a generator (R101). A generator with bit reversal whose modulo length is no power of
two can only have come from a preset at program start; what it reverses to is open. DESIGN CHOICE: log 124. -/
def genRow (g : Nat) (l : Nat) (useSkew : Bool) : Nat :=
  let m := genMod g
  let j := if !genBitrev g then genIndex g % m
    else if isPow2 m then bitReverse (Nat.log2 m) (genIndex g % m)
    else Config.openReverse m (genIndex g) % m
  let sk : Int := if useSkew then l * genSkew g else 0
  (genBase g + (((j : Int) + sk) % m).toNat) % 2048

/-- The generator after a post increment, the index wrapping at 16 bits (R101). -/
def genPost (g : Nat) : BitVec 64 := BitVec.ofNat 64 (putBits g 23 8 ((genIndex g + genStep g) % 2 ^ 16))

/-! ### Packets (R103) -/

def pkOp (p : Nat) : Nat := bitsOf p 63 57
def pkDst (p : Nat) : Nat := bitsOf p 56 53
def pkSa (p : Nat) : Nat := bitsOf p 52 49
def pkSb (p : Nat) : Nat := bitsOf p 48 45
def pkImm (p : Nat) : Nat := bitsOf p 44 40
def pkWide (p : Nat) : Nat := bitsOf p 56 40
def pkX (p : Nat) : Nat := bitsOf p 39 27
def pkY (p : Nat) : Nat := bitsOf p 26 14
def pkCtl (p : Nat) : Nat := bitsOf p 13 10
def pkArg (p : Nat) : Nat := bitsOf p 9 0
def msOp (m : Nat) : Nat := bitsOf m 12 11
def msReg (m : Nat) : Nat := bitsOf m 10 7
def msAg (m : Nat) : Nat := bitsOf m 6 4
def msPart (m : Nat) : Nat := bitsOf m 3 1
def msPost (m : Nat) : Bool := bitOf m 0

/-- The packet at the pc. -/
def Vec.packet (v : Vec) : Nat := (tget (fun _ => (0 : BitVec 64)) v.imem v.pc).toNat

/-- The compute opcodes of R104. -/
def computeOps : List Nat := List.range 0x0E ++ (List.range 0x25).drop 0x10 ++ [0x7F]

/-- A compute field outside the range of R104 or R109. -/
def computeRange (p : Nat) : Bool :=
  let i := pkImm p
  match pkOp p with
  | 0x0C => decide (i ≤ 4)
  | 0x17 => decide (pkSb p ≤ 2)
  | 0x1D => decide (i < 16) && (decide (6 ≤ i % 8) || decide (i < 8))
  | 0x1E => decide (i ≤ 2)
  | 0x1F => decide (i ≤ 2)
  | _ => true

/-- A memory slot that no packet may issue with: op 3, or load or store with part 1 (R107). -/
def memSlotBad (m : Nat) : Bool := msOp m == 3 || ((msOp m == 1 || msOp m == 2) && msPart m == 1)

/-- The last block of a wait or give (R107). -/
def waitBlocks (a : Nat) : List Nat := (List.range (bitsOf a 9 7 + 1)).map (bitsOf a 6 0 + ·)

/-- The signed offset of a jmp (R107). -/
def jmpOffset (a : Nat) : Int := signed 10 a

/-- The packet at the pc is a program error (R107, R108). -/
def Vec.packetError (v : Vec) (p : Nat) : Bool :=
  let a := pkArg p
  !computeOps.contains (pkOp p) || !computeRange p || memSlotBad (pkX p) || memSlotBad (pkY p) ||
  decide (0xB < pkCtl p) ||
  (match pkCtl p with
   | 1 => v.reps.length == 4 || a == 0 || pkOp p != 0x7F || decide (v.packets ≤ v.pc + a) ||
       (match v.reps with | r :: _ => decide (r.last < v.pc + a) | [] => false)
   | 2 => let t : Int := v.pc + jmpOffset a
       (match v.reps with
        | r :: _ => decide (t < r.first) || decide ((r.last : Int) < t)
        | [] => decide (t < 0) || decide ((v.packets : Int) ≤ t))
   | 3 => v.reps.isEmpty
   | 4 => (waitBlocks a).any (fun b => decide (127 < b))
   | 5 => (waitBlocks a).any (fun b => decide (127 < b))
   | _ => false)

/-- The slots of a packet that have something to do; the compute slot always has. DESIGN CHOICE: log 31. -/
def packetSlots (p : Nat) : List Slot :=
  [.compute] ++ (if msOp (pkX p) = 0 then [] else [.x]) ++ (if msOp (pkY p) = 0 then [] else [.y]) ++
    (if pkCtl p = 0 then [] else [.control])

/-! ### Blocks (R96) -/

def Vec.block (v : Vec) (b : Nat) : VecBlock := tget (fun _ => .held) v.blocks b
def Vec.setBlock (v : Vec) (b : Nat) (x : VecBlock) : Vec := { v with blocks := tset (fun _ => .held) v.blocks b x }
def Vec.mapBlocks (v : Vec) (f : VecBlock → VecBlock) : Vec :=
  (List.range 128).foldl (fun v b => v.setBlock b (f (v.block b))) v

/-- A core store or a send may touch the block: held or valid. -/
def VecBlock.usable : VecBlock → Bool
  | .held => true | .valid => true | _ => false

/-- The blocks a writer is filling become valid. -/
def Vec.complete (v : Vec) (w : Writer) : Vec := v.mapBlocks (fun b => if b == .filling w then .valid else b)

/-! ### Compute operations (R97 to R99, R104, R106, R109) -/

/-- .lo: the low 16 bits, signed. -/
def lo16 (w : Word) : Int := signed 16 w.toNat

/-- Saturation to w bits, and whether it happened. -/
def satBits (w : Nat) (x : Int) : Int × Bool :=
  (clampInt (-(2 ^ (w - 1))) (2 ^ (w - 1) - 1) x, decide (x < -(2 ^ (w - 1))) || decide (2 ^ (w - 1) - 1 < x))

/-- An accumulator result: outside ±(2^39 − 1) it is set to the limit of its sign (R97). -/
def acc40 (x : Int) : Int × Bool :=
  (clampInt (-(2 ^ 39 - 1)) (2 ^ 39 - 1) x, decide (x < -(2 ^ 39 - 1)) || decide (2 ^ 39 - 1 < x))

/-- Redundant sign bits of a word: those below the sign bit that equal it (R99). -/
def redundantSigns (w : Word) : Nat :=
  let x := w.toInt
  let m : Nat := if 0 ≤ x then x.toNat else (-1 - x).toNat
  if m = 0 then 31 else 30 - Nat.log2 m

/-- What one lane's compute result is: writes, saturations, and whether icv met an infinity or NaN. -/
structure LaneResult where
  writes : List LaneWrite
  sats : Nat
  nonfinite : Bool

/-- A result that writes register r of lane l. -/
def wrD (l r : Nat) (x : Int) (sat : Bool) : LaneResult :=
  ⟨[.d l r (BitVec.ofInt 32 x)], if sat then 1 else 0, false⟩

/-- A result that writes accumulator i of lane l, saturated (R97). -/
def wrA (l i : Nat) (x : Int) : LaneResult :=
  let r := acc40 x
  ⟨[.a l i (BitVec.ofInt 40 r.1)], if r.2 then 1 else 0, false⟩

/-- A block exponent result, limited to its range (R99). -/
def wrBe (l : Nat) (x : Int) : List LaneWrite × Nat :=
  let r := satBits 8 x
  ([.be l (BitVec.ofInt 8 r.1)], if r.2 then 1 else 0)

/-- The 64-bit value of register r of the pair lane holding lane l (R98). -/
def Vec.pairAt (v : Vec) (l r : Nat) : Int :=
  let m := l / 2
  (v.dAt (2 * m) r).toNat + 2 ^ 32 * (v.dAt (2 * m + 1) r).toInt

/-- Lane l's word of a 64-bit pair result. -/
def pairWord (l : Nat) (x : Int) : Int := if l % 2 = 0 then x else x / 2 ^ 32

/-- An entry of a function table: T and S (R109). -/
def Vec.fnLookup (v : Vec) (slot i : Nat) : Int × Int :=
  if slot < 6 then fnEntry slot i
  else
    let w := (tget (fun _ => (0 : Word)) v.userTab (256 * (slot - 6) + i)).toNat
    (signed 16 w, signed 16 (w / 2 ^ 16))

/-- fn of the low 16 bits of a word (R109). -/
def Vec.fnValue (v : Vec) (imm : Nat) (w : Word) : Int :=
  let slot := imm % 8
  let sgn := if slot < 6 then fnSigned slot else bitOf imm 3
  let x := (w.toNat % 2 ^ 16 + (if sgn then 0x8000 else 0)) % 2 ^ 16
  let e := v.fnLookup slot (x / 256)
  e.1 + (e.2 * (x % 256 : Nat) + 128) / 256

/-- The floating format of fcv and icv (R104). -/
def cvFmt : Nat → FloatFmt
  | 0 => fmtBF16 | 1 => fmtFP16 | _ => fmtFP32

/-- An infinity or NaN code of a floating format with an all-ones exponent. -/
def floatNonfinite (f : FloatFmt) (code : Nat) : Bool :=
  code / 2 ^ f.manBits % 2 ^ f.expBits == 2 ^ f.expBits - 1

/-- fcv's word: the code in the low half for 16-bit formats, whose upper half the spec does not state (`hi`).
DESIGN CHOICE: log 34. -/
def fcvWord (imm code hi : Nat) : Int := if imm = 2 then code else (code + hi % 2 ^ 16 * 2 ^ 16 : Nat)

/-- The compute operation of one lane (R104); `hi` is the open upper half of a 16-bit fcv result. -/
def Vec.computeLane (v : Vec) (p l hi : Nat) : LaneResult :=
  let d := pkDst p
  let i := pkImm p
  let a := v.dAt l (pkSa p)
  let b := v.dAt l (pkSb p)
  let ac := pkDst p % 2
  let none' : LaneResult := ⟨[], 0, false⟩
  match pkOp p with
  | 0x01 => wrD l d (a + b).toInt false
  | 0x02 => wrD l d (a - b).toInt false
  | 0x03 => wrD l d (if a.toInt ≤ b.toInt then a.toInt else b.toInt) false
  | 0x04 => wrD l d (if a.toInt ≤ b.toInt then b.toInt else a.toInt) false
  | 0x05 => wrD l d (a &&& b).toInt false
  | 0x06 => wrD l d (a ||| b).toInt false
  | 0x07 => wrD l d (a ^^^ b).toInt false
  | 0x08 => wrD l d (a <<< i).toInt false
  | 0x09 => wrD l d (a.sshiftRight i).toInt false
  | 0x0A => wrD l d (a >>> i).toInt false
  | 0x0B => wrD l d (signed 5 i) false
  | 0x0C => wrD l d (v.dAt (l ^^^ 2 ^ i) (pkSa p)).toInt false
  | 0x0D => wrD l d (v.dAt ((l + 32 - genIndex (v.genAt (i % 8)) % 32) % 32) (pkSa p)).toInt false
  | 0x10 => wrA l ac (lo16 a * lo16 b)
  | 0x11 => wrA l ac (v.aForward l ac + lo16 a * lo16 b)
  | 0x12 => wrA l ac (v.aForward l ac - lo16 a * lo16 b)
  | 0x13 =>
    let x := wrA l 0 (v.aForward l 0 + lo16 a * lo16 a)
    let y := wrA l 1 (v.aForward l 1 + lo16 a)
    ⟨x.writes ++ y.writes, x.sats + y.sats, false⟩
  | 0x14 =>
    let s := satBits 16 (a.toInt - b.toInt)
    let r := wrA l ac (s.1 * lo16 (v.dAt l (i % 16)))
    ⟨r.writes, r.sats + (if s.2 then 1 else 0), false⟩
  | 0x15 => wrA l ac 0
  | 0x16 => wrA l ac (a.toInt * 2 ^ i)
  | 0x17 =>
    let s := satBits (if pkSb p = 0 then 32 else if pkSb p = 1 then 16 else 8)
      (roundPow .nearestEven (v.aAt l (pkSa p % 2)) (-((i : Int) + v.beAt l)))
    wrD l d s.1 s.2
  | 0x18 =>
    let x := v.aAt l (pkSa p % 2)
    if x ≤ 0 then wrD l d 0x4000 false
    else
      let lg := Nat.log2 x.toNat
      let e : Nat := lg / 2 * 2
      let m : Int := if 14 ≤ e then x / 2 ^ (e - 14) else x * 2 ^ (14 - e)
      let bw := wrBe l (v.beAt l + (e / 2 : Nat))
      ⟨.d l d (BitVec.ofInt 32 m) :: bw.1, bw.2, false⟩
  | 0x19 => ⟨[.hd l (BitVec.ofNat 5 (min (v.hdAt l) (redundantSigns a)))], 0, false⟩
  | 0x1A => wrD l d (a <<< v.hdAt l).toInt false
  | 0x1B =>
    let bw := wrBe l (v.beAt l - v.hdAt l)
    ⟨bw.1 ++ [.hd l 31], bw.2, false⟩
  | 0x1C => ⟨[.be l (BitVec.ofInt 8 (signed 5 i))], 0, false⟩
  | 0x1D => wrD l d (v.fnValue i a) false
  | 0x1E =>
    let r := encodeFloat (cvFmt i) .nearestEven a.toInt (-(v.beAt l))
    wrD l d (fcvWord i r.1 hi) r.2
  | 0x1F =>
    let f := cvFmt i
    let code := a.toNat % 2 ^ f.width
    if floatNonfinite f code then ⟨[], 0, true⟩
    else
      let x := decodeFloat f code
      let s := satBits 32 (roundPow .nearestEven x.1 (x.2 + v.beAt l))
      wrD l d s.1 s.2
  | 0x20 => wrD l d (pairWord l (v.pairAt l (pkSa p) + v.pairAt l (pkSb p))) false
  | 0x21 => wrD l d (pairWord l (v.pairAt l (pkSa p) - v.pairAt l (pkSb p))) false
  | 0x22 => wrD l d (pairWord l (v.pairAt l (pkSa p) * 2 ^ i)) false
  | 0x23 => wrD l d (pairWord l (v.pairAt l (pkSa p) / 2 ^ i)) false
  | 0x24 =>
    let s := satBits 32 (roundPow .nearestEven (v.pairAt l (pkSa p)) (-(i : Int)))
    if l % 2 = 0 then wrD l d s.1 s.2 else wrD l d (if s.1 < 0 then -1 else 0) false
  | _ => none'

/-- The latency of a compute operation (R104). -/
def computeLatency (op : Nat) : Nat :=
  if op = 0x1D then 4
  else if (0x10 ≤ op ∧ op ≤ 0x18) ∨ op = 0x1E ∨ op = 0x1F ∨ op = 0x24 then 2
  else 1

/-- The results of all lanes: writes, saturations, and whether an icv operand was non-finite. DESIGN CHOICE: log 34. -/
def Vec.compute (v : Vec) (p n : Nat) : LaneResult :=
  let rs := (List.range 32).map (fun l => v.computeLane p l (Config.freeWord (n + l)).toNat)
  ⟨rs.flatMap (·.writes), (rs.map (·.sats)).foldl (· + ·) 0, rs.any (·.nonfinite)⟩

/-! ### Memory slots (R93, R101, R102) -/

/-- The byte address of an offset of a row of X or Y. -/
def dmAddr (y : Bool) (row off : Nat) : Nat := (if y then 0x40000 else 0) + row * 128 + off

/-- What lane l reaches in an access: byte address and length (R102). -/
def laneAccess (y : Bool) (g part l : Nat) : Nat × Nat :=
  if part = 0 then (dmAddr y (genRow g l true) (4 * l), 4)
  else if part < 4 then (dmAddr y (genRow g 0 false) (64 * (part - 2) + 2 * l), 2)
  else (dmAddr y (genRow g 0 false) (32 * (part - 4) + l), 1)

/-- A load's lane values, sign-extended. -/
def Vec.loadLanes (v : Vec) (y : Bool) (m : Nat) : List LaneWrite :=
  (List.range 32).map (fun l =>
    let x := laneAccess y (v.genAt (msAg m)) (msPart m) l
    .d l (msReg m) (BitVec.ofInt 32 (signed (8 * x.2) (bytesNat (tbytes v.dmem x.1 x.2)))))

/-- The lane words an access touches, by their byte addresses (R94). -/
def Vec.accessWords (v : Vec) (y : Bool) (m : Nat) : List Nat :=
  ((List.range 32).map (fun l => (laneAccess y (v.genAt (msAg m)) (msPart m) l).1 / 4 * 4)).dedup

/-- The bytes an access touches. -/
def Vec.accessBytes (v : Vec) (y : Bool) (m : Nat) : List Nat :=
  (List.range 32).flatMap (fun l =>
    let x := laneAccess y (v.genAt (msAg m)) (msPart m) l
    (List.range x.2).map (x.1 + ·))

/-- The blocks an access touches. -/
def Vec.accessBlocks (v : Vec) (y : Bool) (m : Nat) : List Nat :=
  (List.range 32).map (fun l => (laneAccess y (v.genAt (msAg m)) (msPart m) l).1 / 4096)

/-- A store writes the low bytes of each lane's register. -/
def Vec.storeLanes (v : Vec) (y : Bool) (m : Nat) : Vec :=
  (List.range 32).foldl (fun v l =>
    let x := laneAccess y (v.genAt (msAg m)) (msPart m) l
    { v with dmem := tputBytes v.dmem x.1 (natBytes x.2 (v.dAt l (msReg m)).toNat) }) v

/-! ### Packet flow (R105, R108) -/

/-- Where control goes once the packet `last` has issued: the innermost level that ends there with runs remaining
loops back, complete ones inside it pop. DEDUCED: log 33. -/
def afterPacket : List Repeat → Nat → Nat × List Repeat
  | [], pc => (pc + 1, [])
  | r :: rs, pc =>
    if r.last = pc then
      if 1 < r.runs then (r.first, { r with runs := r.runs - 1 } :: rs) else afterPacket rs pc
    else (pc + 1, r :: rs)

/-- A user slot loaded from 8 X rows: entry e of the table in lane e mod 32 of row e / 32 (R109). Rows are taken modulo 2,048, so
that eight rows that begin near the end go on at row 0. DESIGN CHOICE: log 124. -/
def Vec.loadTable (v : Vec) (slot row : Nat) : Vec :=
  let t := (List.range 256).foldl (fun t i =>
    tset (fun _ => (0 : Word)) t (256 * slot + i)
      (BitVec.ofNat 32 (bytesNat (tbytes v.dmem (dmAddr false ((row + i / 32) % 2048) (4 * (i % 32))) 4)))) v.userTab
  { v with userTab := t, userRow := tset (fun _ => 0) v.userRow slot (BitVec.ofNat 12 (2 * row + 1)) }

/-- One packet effect takes place. DEDUCED: log 32. -/
def Vec.applyEffect (v : Vec) : PacketEffect → Vec
  | .post g => { v with gens := tset (fun _ => 0) v.gens g (genPost (v.genAt g)) }
  | .table k row => v.loadTable k row
  | .gen g x => { v with gens := tset (fun _ => 0) v.gens g x }
  | .give b => match v.block b with
    | .held => v.setBlock b .free
    | .valid => v.setBlock b .free
    | _ => v

/-- A post increment, which comes before what the control slot loads into the generator. DEDUCED: log 32. -/
def PacketEffect.isPost : PacketEffect → Bool
  | .post _ => true
  | _ => false

/-- Cycles for which the program stalls once the packet has issued: eight for a table load (R109). DEDUCED: log 35. -/
def Vec.stallAfter (v : Vec) : Nat := if v.effects.any (fun e => match e with | .table _ _ => true | _ => false) then 8 else 0

/-- Cycles pass: results in flight move on. -/
def Vec.ticks (v : Vec) : Nat → Vec
  | 0 => v
  | n + 1 => v.tick.ticks n

/-- The packet has issued: effects take place, the pc moves on, and its cycle passes, with those of its stall (R105, R109).
DESIGN CHOICE: log 31. DEDUCED: log 32, 35. -/
def Vec.advance (v : Vec) : Vec :=
  let nx := match v.nextPc with
    | some x => x
    | none => afterPacket v.reps v.pc
  let w := (v.effects.filter PacketEffect.isPost ++ v.effects.filter (fun e => !e.isPost)).foldl Vec.applyEffect v
  ({ w with pc := nx.1, reps := nx.2, ran := [], effects := [], nextPc := none } : Vec).ticks (v.stallAfter + 1)

/-- The start state of a program (R92, R96): blocks that are filling stay so, every other becomes held. -/
def Vec.start (v : Vec) : Vec :=
  let v := v.mapBlocks (fun b => match b with | .filling w => .filling w | _ => .held)
  { v with d := [], a := [], be := [], hd := [], gens := (List.range 8).foldl (fun t g =>
             tset (fun _ => 0) t g (tget (fun _ => (0 : BitVec 64)) v.presets g)) [],
           reps := [], sends := [], userTab := [], userRow := [], pc := 0, ran := [], effects := [], nextPc := none
           flight := [], ending := false, rowOpen := false, stopReq := false }

/-- The tile halts: nothing further issues, results in flight and queued sends are discarded (R112). -/
def Vec.halt (v : Vec) : Vec :=
  { v with state := .halted, flight := [], sends := [], ran := [], effects := [], nextPc := none, ending := false, rowOpen := false
           stopReq := false }

/-- What the end of a job does to the blocks (R96). -/
def Vec.endJobBlocks (v : Vec) : Vec := { v with blocks := [] }

/-- Results in flight land: at most four cycles (R113). -/
def Vec.drainFlight (v : Vec) : Vec := v.tick.tick.tick.tick

/-- The tile stops for a pre-emption: nothing further issues, results in flight land, and a send row it is offering is still
to be accepted (R113). DEDUCED: log 37. -/
def Vec.stop (v : Vec) : Vec := { v.drainFlight with state := .preempted, rowOpen := !v.sends.isEmpty, stopReq := false }

/-- A program is running on the tile. -/
def Vec.active (v : Vec) : Bool :=
  match v.state with
  | .idle => false | .halted => false | .preempted => false | _ => true

/-- The first-fault registers of a vector tile take a fault, with the packet index at which the tile stands, while bits [5:1] of the flags are all clear (R112, R116). -/
def State.vecFirst (s : State) (b status addr : Nat) : State :=
  if s.fld (vecReg b Reg.VEC_ERR_FLAGS) 5 1 == 0 then
    (s.wr (vecReg b Reg.VEC_FAULT_INFO) (BitVec.ofNat 32 (status * 2 ^ 24 + (s.vecAt b).pc % 4096 * 2 ^ 12))).wr
      (vecReg b Reg.VEC_FAULT_ADDR) (BitVec.ofNat 32 addr)
  else s

/-- Record a fault of a vector tile: flag, count and the first-fault registers (R112, R116). -/
def State.vecFault (s : State) (b flag status addr : Nat) : State :=
  ((s.vecFirst b status addr).setFlag (vecReg b Reg.VEC_ERR_FLAGS) flag).bump (vecReg b Reg.VEC_FAULT_COUNT) 1

/-! ### Sends (R110, R111) -/

/-- A send preset as a number. -/
def Vec.sendPreset (v : Vec) (p : Nat) : Nat := (tget (fun _ => (0 : BitVec 128)) v.sendPresets p).toNat

def spSrc (p : Nat) : Nat := bitsOf p 31 20
def spRows (p : Nat) : Nat := bitsOf p 19 8
def spDst (p : Nat) : Nat := bitsOf p 7 4
def spChannel (p : Nat) : Nat := bitsOf p 47 40
def spWords (p : Nat) : Nat := bitsOf p 39 32
def spAddr (p : Nat) : Nat := bitsOf p 95 64
def spStride (p : Nat) : Nat := bitsOf p 111 96

/-- A send preset with a reserved value (R110, R111). -/
def sendRefused (p : Nat) : Bool :=
  spRows p == 0 || bitsOf p 3 0 != 0 || bitsOf p 63 48 != 0 || bitsOf p 127 112 != 0 ||
  spDst p == 1 || decide (14 ≤ spDst p) || spWords p == 0 || decide (32 < spWords p) ||
  decide (4096 < spSrc p + spRows p) ||
  (spDst p == 0 && decide (15 < spChannel p)) ||
  (decide (2 ≤ spDst p) && decide (spDst p ≤ 9) &&
    (spStride p % 4 != 0 || decide (0x40000 < spAddr p + (spRows p - 1) * spStride p + 4 * spWords p)))

/-- The blocks a send reads. -/
def sendBlocks (p : Nat) : List Nat := blocksSpan (spSrc p / 32) ((spSrc p + spRows p - 1) / 32)
where
  blocksSpan (a b : Nat) : List Nat := (List.range (b + 1 - a)).map (a + ·)

/-- The bytes of row i of a send. -/
def Vec.sendRow (v : Vec) (p i : Nat) : List Byte := tbytes v.dmem ((spSrc p + i) * 128) (4 * spWords p)

end Sys2Proof.Machine
end

