-- ==== Sys2Proof/Machine/Fabric.lean ====
section
/-! DEFINITION. The logic array as its frames configure it: where its parts lie, cells, carry chains, distributed and block
memories, routing, long lines, clocks and I/O pins, and an edge of a user clock (R167 to R183, R193 to R196, R215). -/

namespace Sys2Proof.Machine

/-! ### Where the parts lie (R167, R168, R199, R200, R212) -/

/-- A register of a die's LGA, CFG block. -/
def lgaReg (d off : Nat) : Nat := regKey (.lga (Fin.ofNat 16 d)) off
def cfgReg (d off : Nat) : Nat := regKey (.cfg (Fin.ofNat 16 d)) off

/-- The channel of a logic, block-memory or tile-port column (R167, R212). -/
def channelOf (col : Nat) : Nat :=
  if col < 120 then 0
  else if col < 680 then 1 + (col - 120) / 80
  else if col < 800 then 8
  else if col < 814 then 1 + (col - 800) / 2
  else if col = 814 then 0 else if col = 815 then 8
  else if col % 2 = 0 then (col - 816) / 2 else (col - 815) / 2

/-- The tile of a column in a row region (R212). -/
def tileOf (rr col : Nat) : Nat := rr * 9 + channelOf col

/-- Cell n of a logic column in a row region of a die. -/
def cellKey (d rr col n : Nat) : Nat := ((d * 16 + rr) * 800 + col) * 128 + n

/-- The die and the tile of a cell key. -/
def cellDie (k : Nat) : Nat := k / 128 / 800 / 16
def cellTile (k : Nat) : Nat := tileOf (k / 128 / 800 % 16) (k / 128 % 800)

/-- Row region and column of a block memory, and its place there: memories are numbered column·128 + row region·8 + position,
columns from 800 (R197). -/
def memRow (m : Nat) : Nat := m / 8 % 16
def memCol (m : Nat) : Nat := 800 + m / 128
def memTile (m : Nat) : Nat := tileOf (memRow m) (memCol m)

/-- Row region and column of a tile port (R168). -/
def portRow (b p : Nat) : Nat := 2 * (b % 64 / 8) + p % 2
def portCol (b p : Nat) : Nat := 816 + 2 * (b % 8) + p / 2

/-- What the frames of a column in a row region configure. -/
def DieCfg.colAt (c : DieCfg) (rr col : Nat) : Option ColumnCfg :=
  (c.cols.find? (fun e => e.1 == rr * 1024 + col)).map (·.2)

/-- The frame at bits [27:7] of a frame address, empty where none has been written. -/
def DieCfg.frameAt (c : DieCfg) (k : Nat) : List Byte :=
  match c.frames.find? (fun f => f.1 == k) with | some f => f.2.data | none => []

/-- A logic column holds 128 cells in 16 clusters in a row region, a block-memory column 8 memories (R167). -/
def logicCells (x : ColumnCfg) : List CellCfg := x.cells.take 128
def clusterOf (x : ColumnCfg) (n : Nat) : Option ClusterCfg := (x.clusters.take 16)[n / 8]?

/-- A logic cell and a block memory as configured. -/
def DieCfg.cellAt (c : DieCfg) (rr col n : Nat) : Option CellCfg :=
  if rr < 16 ∧ col < 800 then (c.colAt rr col).bind (fun x => (logicCells x)[n]?) else none
def DieCfg.memAt (c : DieCfg) (m : Nat) : Option BramCfg :=
  if m < 2048 then (c.colAt (memRow m) (memCol m)).bind (fun x => x.memories[m % 8]?) else none

/-- The tile whose logic a port of a bay serves (R167, R168, R212). -/
def portTile (b p : Nat) : Nat := tileOf (portRow b p) (portCol b p)

/-- The die of an I/O cell (R193). -/
def dieOfCell (c : Nat) : Nat := 12 + c / 24

/-! ### Places and what may drive them (R167 to R169, R178, R179) -/

/-- A place beside the tiles, which the routing of any channel reaches: a constant, a PLL's lock, an I/O cell. -/
def siteBeside (x : Site) : Bool :=
  match x.kind with | .const | .pllLock | .ioIn | .ioOut => true | _ => false

/-- A die has such a place: cells, taps, memories and ports stand in the tile of their column and row region, 1,024 cross tracks
run over each bay column of a row region, and each of 16 long lines has a tap and a receive point in every logic column. -/
def sitePlaced (d : Nat) (x : Site) : Bool :=
  let inTile := decide (x.tile < 144)
  match x.kind with
  | .const => true
  | .cellIn => inTile && decide (x.idx < 102400) && decide (x.pin < 12) && x.tile % 9 == channelOf (x.idx / 128)
  | .cellOut => inTile && decide (x.idx < 102400) && decide (x.pin < 6) && x.tile % 9 == channelOf (x.idx / 128)
  | .clusterLocal => inTile && decide (x.idx < 12800) && x.tile % 9 == channelOf (x.idx / 16)
  | .single | .double | .hex => inTile
  | .cross => inTile && decide (x.tile % 9 < 8) && decide (x.pin < 1024)
  | .tapIn | .tapEnable | .receive => inTile && decide (x.idx < 800) && decide (x.pin < 16) && x.tile % 9 == channelOf x.idx
  | .bramIn | .bramOut => decide (x.idx < 2048) && decide (x.pin < 256) && x.tile == memTile x.idx
  | .portOut | .portIn => decide (x.idx < 256) && decide (x.pin < 8192) && x.tile == portTile (x.idx / 4) (x.idx % 4)
  | .pllLock => decide (x.pin < 8)
  | .ioIn | .ioOut => decide (x.idx < 96) && dieOfCell x.idx == d

/-- The channels that a place touches: a cross track joins the two on either side of its bay column. -/
def siteChannels (x : Site) : List Nat := if x.kind = .cross then [x.tile % 9, x.tile % 9 + 1] else [x.tile % 9]

/-- The cluster of a cell's pin or of a cluster-local connection. -/
def siteCluster (x : Site) : Option Nat :=
  match x.kind with | .cellIn | .cellOut => some (x.idx / 8) | .clusterLocal => some x.idx | _ => none

/-- Routing leads from y to x: both are on the die; cluster-local connections stay in their cluster, single, double and hex
lines, taps and receive points in their channel, and cross tracks join neighbouring channels of one row region (R169, R178). -/
def siteDrives (d : Nat) (y x : Site) : Bool :=
  sitePlaced d y && sitePlaced d x &&
  (siteBeside y || siteBeside x ||
    ((siteChannels y).any (fun c => (siteChannels x).contains c) &&
      (!(y.kind == .cross || x.kind == .cross) || y.tile / 9 == x.tile / 9) &&
      (!(y.kind == .clusterLocal || x.kind == .clusterLocal) || (y.tile / 9 == x.tile / 9 && siteCluster y == siteCluster x))))

/-! ### Regions and what runs (R212, R215, R216, R218) -/

/-- die_state of R218: 0 unconfigured, 1 loading, 2 verifying, 3 released. -/
def State.dieState (s : State) (d : Nat) : Nat := s.fld (cfgReg d Reg.CFG_STATUS) 27 24

/-- The state of region r of a die (R216). -/
def State.regionState (s : State) (d r : Nat) : Nat :=
  s.fld (cfgReg d (Reg.CFG_REGION_STATE + 4 * (r / 8))) (4 * (r % 8) + 3) (4 * (r % 8))
def State.setRegionState (s : State) (d r v : Nat) : State :=
  s.wrFld (cfgReg d (Reg.CFG_REGION_STATE + 4 * (r / 8))) (4 * (r % 8) + 3) (4 * (r % 8)) v

/-- The region a tile belongs to in the map in force; none for a static tile (R212). -/
def DieCfg.regionOf (c : DieCfg) (tile : Nat) : Option Nat :=
  let m := tget (fun _ => 0) c.tileMap tile
  if bitOf m 6 then some (m % 64) else none

/-- Logic of a tile runs: its die is released, and its region, if it has one, is running (R215, R218). -/
def State.tileRuns (s : State) (d tile : Nat) : Bool :=
  s.dieState d == 3 && (match (s.cfgAt d).regionOf tile with | none => true | some r => s.regionState d r == 1)

/-- Logic of a tile is out of reset: it runs, or a load of its region has released it and its border is still closed
(R217). -/
def State.tileFree (s : State) (d tile : Nat) : Bool :=
  s.tileRuns d tile || (s.dieState d == 3 && (match (s.cfgAt d).regionOf tile, (s.cfgAt d).load with
    | some r, some x => x.stage == .releasing && (match s.loads.find? (fun e => e.1 == x.load) with
      | some e => e.2.isPartial && e.2.region == r | none => false)
    | _, _ => false))

/-! ### Cells (R170 to R172) -/

/-- A number from its bits, the first the least significant. -/
def bitsNat : List Bool → Nat
  | [] => 0
  | b :: bs => (if b then 1 else 0) + 2 * bitsNat bs

/-- Outputs of a table: Z of a whole cell, ZL and ZH of a split one, and the second bit of a memory of two-bit words, given
inputs a0 to a5. -/
def tableZ (t : BitVec 64) (a : Nat → Bool) : Bool := t.getLsbD (bitsNat ([0, 1, 2, 3, 4, 5].map a))
def tableZL (t : BitVec 64) (a : Nat → Bool) : Bool := t.getLsbD (bitsNat ([0, 1, 2, 3, 4].map a))
def tableZH (t : BitVec 64) (a : Nat → Bool) : Bool := t.getLsbD (32 + bitsNat ([0, 1, 2, 3, 5].map a))
def memoryZH (t : BitVec 64) (a : Nat → Bool) : Bool := t.getLsbD (32 + bitsNat ([0, 1, 2, 3, 4].map a))

/-- ZH of a cell as it is used. -/
def cellZH (c : CellCfg) (t : BitVec 64) (a : Nat → Bool) : Bool :=
  if c.use = .memory32 then memoryZH t a else tableZH t a

/-- Propagate and generate terms of a cell (R170); a cell that is not split passes the carry on. -/
def cellTerms (c : CellCfg) (t : BitVec 64) (a : Nat → Bool) : Bool × Bool :=
  if c.use = .split then (tableZL t a, tableZH t a && !tableZL t a) else (true, false)

/-- The carry out of a cell. -/
def carryOut (x : Bool × Bool) (cin : Bool) : Bool := x.2 || (x.1 && cin)

/-- The carry into cell n of a chain that runs north through a column's cells: `terms` of the cells in the chain, none where
a cell stands in none, and `start` what a chain's first cell takes. -/
def carryIn (terms : Nat → Option (Bool × Bool)) (start : Nat → Bool) : Nat → Bool
  | 0 => start 0
  | n + 1 =>
    match terms n with
    | none => start (n + 1)
    | some x => carryOut x (carryIn terms start n)

/-- The carry out of a cluster by its skip path where every cell propagates, else through its cells (R170). -/
def clusterOut (xs : List (Bool × Bool)) (cin : Bool) : Bool :=
  if xs.all (·.1) then cin else xs.foldl (fun c x => carryOut x c) cin

/-- The outputs a cell has, by pin: Z of a whole cell or a memory of one-bit words; ZL and ZH of a split cell or a memory of two-bit
words; the sum of a split cell; and F0 and F1 (R170, R172). DESIGN CHOICE: log 127. -/
def cellGives (u : TableUse) (pin : Nat) : Bool :=
  match pin with
  | 0 => u == .whole || u == .memory64
  | 1 => u == .split || u == .memory32
  | 2 => u == .split || u == .memory32
  | 3 => u == .split
  | _ => true

/-- What a flip-flop takes, from the cell's outputs and its direct input. -/
def flopPick (x : FlopSource) (z zl zh sum d : Bool) : Bool :=
  match x with
  | .z => z | .zl => zl | .zh => zh | .sum => sum | .direct => d

/-- A flip-flop at an edge of its clock: its initial value while its set/reset is asserted, else what it takes where the
clock enable is on (R170, R171). DESIGN CHOICE: log 127. -/
def flopNext (init sr enable now next : Bool) : Bool := if sr then init else if enable then next else now

/-- Write distributed memory at the address of the inputs (R172). DESIGN CHOICE: log 127. -/
def memoryWrite (u : TableUse) (t : BitVec 64) (a : Nat → Bool) (d0 d1 : Bool) : BitVec 64 :=
  let put (t : BitVec 64) (i : Nat) (b : Bool) : BitVec 64 :=
    if b then t ||| BitVec.twoPow 64 i else t &&& ~~~(BitVec.twoPow 64 i)
  match u with
  | .memory64 => put t (bitsNat ([0, 1, 2, 3, 4, 5].map a)) d0
  | .memory32 =>
    let i := bitsNat ([0, 1, 2, 3, 4].map a)
    put (put t i d0) (32 + i) d1
  | _ => t

/-! ### Block memories (R175 to R177, R200) -/

/-- Bits in a word of a shape. -/
def shapeWidth (sh : Nat) : Nat := nthN [1, 2, 4, 9, 18, 36, 72] sh

/-- Address bits of a shape. -/
def shapeAddr (sh : Nat) : Nat := 15 - sh

/-- Where bit i of word a lies in the 36 Kbit; no two bits lie in one place. DESIGN CHOICE: log 127. -/
def shapeBit (sh a i : Nat) : Nat :=
  if shapeWidth sh < 9 then (Config.narrowBit sh (Fin.ofNat 36864 (a * shapeWidth sh + i))).val else a * shapeWidth sh + i

/-- Initial content bit i of block memory m: the first 36,864 bits of its twelve minors (R200). -/
def DieCfg.initBit (c : DieCfg) (m i : Nat) : Bool :=
  let f := c.frameAt (memRow m * 2 ^ 17 + memCol m * 2 ^ 7 + 8 + 12 * (m % 8) + i / 3200)
  (f.getD (i % 3200 / 8) 0).getLsbD (i % 8)

/-- The initial contents of the word at a key of `State.brams`. -/
def State.bramInit (s : State) (k : Nat) : BitVec 72 :=
  BitVec.ofNat 72 (bitsNat ((List.range 72).map (fun i => (s.cfgAt (k / 512 / 2048)).initBit (k / 512 % 2048) (k % 512 * 72 + i))))

def bramKey (d m w : Nat) : Nat := (2048 * d + m) * 512 + w

/-- A word as written, and the bits of it that have been upset. -/
def State.bramWord (s : State) (d m w : Nat) : BitVec 72 := tget s.bramInit s.brams (bramKey d m w)
def State.bramFlip (s : State) (d m w : Nat) : BitVec 72 := tget (fun _ => 0) s.bramFlips (bramKey d m w)

/-- Bit p of the 36 Kbit as it stands. -/
def State.bramBit (s : State) (d m p : Nat) : Bool := (s.bramWord d m (p / 72) ^^^ s.bramFlip d m (p / 72)).getLsbD (p % 72)

/-- Write bit p of the 36 Kbit. -/
def State.setBramBit (s : State) (d m p : Nat) (b : Bool) : State :=
  let one : BitVec 72 := BitVec.twoPow 72 (p % 72)
  let w := s.bramWord d m (p / 72)
  { s with brams := tput s.brams (bramKey d m (p / 72)) (if b then w ||| one else w &&& ~~~one)
           bramFlips := tset (fun _ => 0) s.bramFlips (bramKey d m (p / 72)) (s.bramFlip d m (p / 72) &&& ~~~one) }

/-- A word of a shape, and writing one. -/
def State.bramRead (s : State) (d m sh a : Nat) : BitVec 72 :=
  BitVec.ofNat 72 (bitsNat ((List.range (shapeWidth sh)).map (fun i => s.bramBit d m (shapeBit sh a i))))
def State.bramWrite (s : State) (d m sh a : Nat) (x : BitVec 72) : State :=
  s.each (List.range (shapeWidth sh)) (fun s i => s.setBramBit d m (shapeBit sh a i) (x.getLsbD i))

/-- Ones in a word. -/
def ones (x : BitVec 72) : Nat := ((List.range 72).filter (fun i => x.getLsbD i)).length

/-- A read of word w in 512 × 72 shape with ECC on (R177): what port A puts out, an error counted and the first uncorrectable
one recorded. More than two upset bits are beyond the code: the spec states no result, and what comes out is free.
DESIGN CHOICE: log 127. -/
def State.bramEccRead (s : State) (d m w : Nat) : BramOut × State :=
  let x := s.bramWord d m w
  let f := s.bramFlip d m w
  if f = 0 then (⟨x, false, false⟩, s)
  else if ones f = 1 then
    (⟨x, true, false⟩, (s.bump (lgaReg d Reg.LGA_BRAM_CE_COUNT) 1).setFlag (lgaReg d Reg.LGA_ERR_FLAGS) 2)
  else if ones f = 2 then
    let first := !s.rbit (lgaReg d Reg.LGA_ERR_FLAGS) 3
    let s := (s.bump (lgaReg d Reg.LGA_BRAM_UE_COUNT) 1).setFlag (lgaReg d Reg.LGA_ERR_FLAGS) 3
    (⟨x ^^^ f, true, true⟩, if first then s.wr (lgaReg d Reg.LGA_BRAM_FAULT) (BitVec.ofNat 32 (m * 2 ^ 16 + w)) else s)
  else (⟨BitVec.ofNat 72 (Config.elapsed s.free), (Config.freeByte s.free).getLsbD 0, (Config.freeByte s.free).getLsbD 1⟩,
    { s with free := s.free + 1 })

/-- What a port of a block memory is asked at an edge: enable, write enable, address and data. -/
structure MemAsk where
  enable : Bool
  write : Bool
  addr : Nat
  data : BitVec 72

/-- What port q puts out after an edge (R176): `old` and its error outputs from the array before the edge. -/
def memShows (c : MemPortCfg) (x : MemAsk) (last old : BramOut) : BramOut :=
  if !x.enable then last
  else if x.write then (if c.mode = 0 then old else if c.mode = 1 then ⟨x.data, false, false⟩ else last)
  else old

/-- The output register of a port. -/
def State.bramOut (s : State) (d m q : Nat) : BramOut := tget (fun _ => BramOut.init) s.bramOuts (2 * (2048 * d + m) + q)
def State.setBramOut (s : State) (d m q : Nat) (x : BramOut) : State :=
  { s with bramOuts := tput s.bramOuts (2 * (2048 * d + m) + q) x }

/-- Data of a word written in 512 × 72 shape: with ECC on, its check bits with it (R175). -/
def eccData (c : BramCfg) (x : BitVec 72) : BitVec 72 :=
  if c.ecc then Config.secded (x.extractLsb' 0 64) ++ x.extractLsb' 0 64 else x

/-- An edge that both ports of a block memory may take: reads see the array before it, and where both write one word port
A's stands (R176). In 512 × 72 shape port A reads and port B writes (R175). -/
def State.bramEdge (s : State) (d m : Nat) (c : BramCfg) (a b : Option MemAsk) : State :=
  let wide := c.a.shape = 6
  let old (sh : Nat) (x : MemAsk) : BramOut := ⟨s.bramRead d m sh x.addr, false, false⟩
  let ra : Option (BramOut × State) := a.map (fun x =>
    if !x.enable then (s.bramOut d m 0, s)
    else if wide && c.ecc then s.bramEccRead d m (x.addr % 512)
    else (memShows c.a (if wide then { x with write := false } else x) (s.bramOut d m 0) (old c.a.shape x), s))
  let rb : Option BramOut := b.map (fun x => if wide then s.bramOut d m 1 else memShows c.b x (s.bramOut d m 1) (old c.b.shape x))
  let t := match ra with | some r => r.2 | none => s
  let t := match b with
    | some x => if x.enable && x.write then t.bramWrite d m c.b.shape x.addr (if wide then eccData c x.data else x.data) else t
    | none => t
  let t := match a with
    | some x => if x.enable && x.write && !wide then t.bramWrite d m c.a.shape x.addr x.data else t
    | none => t
  let t := match ra with | some r => t.setBramOut d m 0 r.1 | none => t
  match rb with | some r => t.setBramOut d m 1 r | none => t

/-! ### Clocks (R181 to R183) -/

/-- The clock columns of a die as released; none while it is not. -/
def State.clocksOf (s : State) (d : Nat) : ClockCfg := tget (fun _ => ClockCfg.mk [] []) s.clocks d
def State.pllOf (s : State) (d n : Nat) : Option PllCfg := ((s.clocksOf d).plls.find? (fun e => e.1.val == n)).map (·.2)

/-- PLL n of a die is locked. -/
def State.pllLocked (s : State) (d n : Nat) : Bool := s.rbit (lgaReg d Reg.LGA_STATUS) n

/-- The frequency of a PLL's output in kHz: an integer division of its oscillator (R181). -/
def pllKhz (c : PllCfg) (o : Nat) : Nat := c.osc / c.divs.getD o 0

/-- An input of a global is not known to have stopped: a PLL output runs while its PLL is locked. -/
def State.inputRuns (s : State) (d : Nat) : ClockInput → Bool
  | .pll n _ => s.pllLocked d n
  | .pair => true
  | .routed _ => true

/-- The inputs of a global, the one it follows first; none for a global that is not in use. -/
def State.globalInputs (s : State) (d g : Nat) : Option (ClockInput × ClockInput) :=
  ((s.clocksOf d).globals.find? (fun e => e.1.val == g)).map (fun e =>
    if tget (fun _ => 0) s.clkSel (16 * d + g) = 0 then e.2 else (e.2.2, e.2.1))

/-- A global clock of a die runs. -/
def State.globalRuns (s : State) (d g : Nat) : Bool :=
  s.dieState d == 3 && !s.clkHeld.contains (16 * d + g) &&
  (match s.globalInputs d g with | some x => s.inputRuns d x.1 | none => false)

/-- A tile port as configured; records that its beat carries; its clock runs (R185). -/
def State.portCfg (s : State) (b p : Nat) : Option PortCfg :=
  ((s.cfgAt (dieOfBay b)).colAt (portRow b p) (portCol b p)).bind (·.port)
def portBeat (c : PortCfg) : Nat := 2 ^ c.width.val
/-- Records that a beat of a port carries (R185). -/
def State.beat (s : State) (b p : Nat) : Nat := match s.portCfg b p with | some c => portBeat c | none => 0

/-- Every unit of a bay has stopped (R82, R113, R142, R160): a channel is pre-empted or holds no running stream. DEDUCED: log 54. -/
def State.bayStopped (s : State) (b : Nat) : Bool :=
  (List.range 8).all (fun t => !(s.mtxAt (b * 8 + t)).busy) && !(s.vecAt b).active && !(s.vecAt b).rowOpen &&
  (List.range 16).all (fun c =>
    match (s.chanAt b c).state with | .running => false | .creditWait => false | .paused => false | _ => true)

/-- A tile port is open: its bay runs a job that has not reached its stopped state under pre-emption (R189). -/
def State.portOpen (s : State) (b p : Nat) : Bool :=
  (s.portAt b p).isOpen && !((match (s.bayAt b).job.bind s.jobAt with | some v => v.phase == .preempting | none => false) &&
    s.bayStopped b)

def State.portClocked (s : State) (b p : Nat) : Bool :=
  match s.portCfg b p with | some c => s.globalRuns (dieOfBay b) c.clock | none => false

/-! ### Routing and long lines (R178 to R180, R215) -/

/-- The driver that the multiplexer of a routing node selects on die d, among those that routing leads to it, and the fence of
the border cell at a place. -/
def DieCfg.driverOf (c : DieCfg) (d : Nat) (x : Site) : Option Site :=
  c.cols.findSome? (fun e => (e.2.muxes.find? (fun m => m.1 == x && siteDrives d m.2 x)).map (·.2))
def DieCfg.fenceOf (c : DieCfg) (x : Site) : Option Bool :=
  c.cols.findSome? (fun e => (e.2.fences.find? (fun m => m.1 == x)).map (·.2))

/-- A routed place: its driver's value, unless the signal crosses a border of a region that is not running: then 0 into that
region, and the fence value out of it (R215). -/
def State.routed (s : State) (d : Nat) (v : Site → Bool) (x : Site) : Bool :=
  let c := s.cfgAt d
  match c.driverOf d x with
  | none => Config.openSignal s.free x
  | some y =>
    if c.regionOf x.tile = c.regionOf y.tile then v y
    else if !s.tileRuns d x.tile then false
    else if !s.tileRuns d y.tile then (c.fenceOf x).getD (Config.openSignal s.free x)
    else v y

/-- The mode in which a column's tap on a long line acts: off while its tile does not run, and where the line is forced off
(R179, R215, R221). -/
def State.tapMode (s : State) (d rr col line : Nat) : Nat :=
  if s.rbit (cfgReg d (Reg.CFG_LL_FORCED + 4 * rr)) line || !s.tileRuns d (tileOf rr col) then 0
  else match (s.cfgAt d).colAt rr col with | some x => x.taps.getD line 0 | none => 0

/-- Logic columns of a row region that are configured. -/
def DieCfg.tapCols (c : DieCfg) (rr : Nat) : List Nat :=
  (c.cols.filter (fun e => e.1 / 1024 == rr && decide (e.1 % 1024 < 800))).map (fun e => e.1 % 1024)

/-- The taps of a line that drive it or would: those on always, and those in mode 2 with their output-enable at 1. -/
def State.drivers (s : State) (d : Nat) (v : Site → Bool) (rr line : Nat) : List Nat :=
  ((s.cfgAt d).tapCols rr).filter (fun col =>
    let m := s.tapMode d rr col line
    m == 1 || (m == 2 && v ⟨.tapEnable, tileOf rr col, col, line⟩))

def lineKey (d rr line : Nat) : Nat := (16 * d + rr) * 16 + line

/-- The value of a long line: that of the one tap that drives it, else what the keeper holds (R179, R180). -/
def State.lineValue (s : State) (d : Nat) (v : Site → Bool) (rr line : Nat) : Bool :=
  match s.drivers d v rr line with
  | [col] => v ⟨.tapIn, tileOf rr col, col, line⟩
  | _ => tget (fun _ => false) s.lines (lineKey d rr line)

/-! ### The value of a place -/

/-- Contents of a cell's table or memory. -/
def State.tableOf (s : State) (d rr col n : Nat) (c : CellCfg) : BitVec 64 :=
  match c.use with
  | .memory64 => tget (fun _ => c.table) s.lutMems (cellKey d rr col n)
  | .memory32 => tget (fun _ => c.table) s.lutMems (cellKey d rr col n)
  | _ => c.table

/-- A flip-flop: its initial value while it is held in reset or its asynchronous set/reset is asserted (R171). -/
def State.flop (s : State) (d rr col n k : Nat) (c : CellCfg) (sr : Bool) : Bool :=
  let init := if k = 0 then c.init.1 else c.init.2
  if !s.tileFree d (tileOf rr col) || (c.srAsync && sr) then init
  else tget (fun _ => init) s.flops (2 * cellKey d rr col n + k)

/-- An output of a cell (R170): one that the cell does not have as it is used has no value of its own. What the first cell of a
chain takes as c_in, of which the spec says nothing, is a routed input of it, pin 11. DESIGN CHOICE: log 127. -/
def State.cellValue (s : State) (d : Nat) (v : Site → Bool) (x : Site) : Bool :=
  let rr := x.tile / 9
  let col := x.idx / 128
  let n := x.idx % 128
  match (s.cfgAt d).cellAt rr col n with
  | none => Config.openSignal s.free x
  | some c =>
    let inp (n pin : Nat) : Bool := v ⟨.cellIn, x.tile, 128 * col + n, pin⟩
    let t := s.tableOf d rr col n c
    let terms (i : Nat) : Option (Bool × Bool) :=
      match (s.cfgAt d).cellAt rr col i with
      | some y => if y.chain then some (cellTerms y (s.tableOf d rr col i y) (inp i)) else none
      | none => none
    if !cellGives c.use x.pin then Config.openSignal s.free x
    else match x.pin with
    | 0 => tableZ t (inp n)
    | 1 => tableZL t (inp n)
    | 2 => cellZH c t (inp n)
    | 3 => (cellTerms c t (inp n)).1 ^^ carryIn terms (fun i => inp i 11) n
    | 4 => s.flop d rr col n 0 c (inp n 8)
    | _ => s.flop d rr col n 1 c (inp n 8)

/-- The bits of an inbound record as a port shows it: valid, and the record's fields (R187), from bit 2. -/
def InRecord.shown (r : InRecord) : Nat :=
  4 + 8 * r.src + 2 ^ 8 * r.tag + 2 ^ 16 * (r.bytes.length / 4) + (if r.blockEnd then 2 ^ 22 else 0) + 2 ^ 23 * bytesNat r.bytes

/-- What a tile port shows to logic: ready, at pin 0, while its outbound queue has room for a beat (R186); open, at pin 1; and the
oldest inbound records that fill a beat (R185, R187), record n of them from pin 2048·n + 2, least significant bit first. Zeros
while the logic behind it does not run, be its die not released or its region's border closed (R215, R217, R218), and while the
port is closed (R189). DESIGN CHOICE: log 128. -/
def State.portShows (s : State) (b p pin : Nat) : Bool :=
  let q := s.portAt b p
  s.tileRuns (dieOfBay b) (portTile b p) && s.portOpen b p &&
  (match pin with
  | 0 => decide (q.outQ.length + s.beat b p ≤ 128)
  | 1 => true
  | _ => match (q.inQ.take (s.beat b p))[pin / 2048]? with
    | some r => bitOf r.shown (pin % 2048)
    | none => false)

/-- An input of an I/O cell to logic: its register, or the pin itself. -/
def State.ioShows (s : State) (c pin : Nat) : Bool :=
  match (tget (fun _ => IoCfg.mk 0 []) s.userIo (12 + c / 24)).cells[c % 24]? with
  | none => false
  | some x => if x.inReg then (tget (fun _ => IoRegs.init) s.ioRegs c).inp.getLsbD pin else Config.pinLevel s.free c

/-- The value of a place, given those of the places it depends on; what names no place of the die drives nothing. -/
def State.siteStep (s : State) (d : Nat) (v : Site → Bool) (x : Site) : Bool :=
  if !sitePlaced d x then Config.openSignal s.free x
  else match x.kind with
  | .const => x.pin % 2 == 1
  | .cellOut => s.cellValue d v x
  | .receive => s.lineValue d v (x.tile / 9) x.pin
  | .bramOut =>
    let o := s.bramOut d x.idx (x.pin / 128)
    match x.pin % 128 with | 72 => o.corrected | 73 => o.uncorrected | i => o.word.getLsbD i
  | .portOut => s.portShows (64 * d + x.idx / 4) (x.idx % 4) x.pin
  | .pllLock => s.pllLocked d x.pin
  | .ioIn => s.ioShows x.idx x.pin
  | _ => s.routed d v x

/-- The value of a place in a die's logic. A path longer than the fuel runs in a loop of tables: the spec gives it no value.
DESIGN CHOICE: log 127. -/
def State.siteVal (s : State) (d : Nat) : Nat → Site → Bool
  | 0, x => Config.openSignal s.free x
  | fuel + 1, x => s.siteStep d (s.siteVal d fuel) x

/-- More than a die has places. -/
def siteFuel : Nat := 2 ^ 32

def State.siteNow (s : State) (d : Nat) (x : Site) : Bool := s.siteVal d siteFuel x

/-- The mode-2 taps of a line whose output-enables are 1. -/
def State.enabledTaps (s : State) (d rr line : Nat) : List Nat :=
  ((s.cfgAt d).tapCols rr).filter (fun col =>
    s.tapMode d rr col line == 2 && s.siteNow d ⟨.tapEnable, tileOf rr col, col, line⟩)

/-! ### User I/O (R193 to R196) -/

/-- The first cell of the differential pair that a cell stands in, and whether the pair is clock-capable (R193). -/
def ioPair (c : Nat) : Option (Nat × Bool) := if c % 24 < 4 then some (c / 2 * 2, decide (c % 24 < 2)) else none

/-- How a cell works. -/
inductive IoStandard where
  | lvcmos12 | lvcmos18 | lvds
  deriving DecidableEq, Repr

/-- The standard of a cell at a bank level: LVDS needs 1.8 V and a pair (R196). -/
def ioStandard (level : Nat) (x : IoCellCfg) (c : Nat) : IoStandard :=
  if level = 1 then .lvcmos12 else if x.lvds && (ioPair c).isSome then .lvds else .lvcmos18

/-- The state of a pin (R194, R196). -/
inductive PinState where
  /-- bank supply off: high impedance and unpowered -/
  | unpowered
  /-- high impedance with the 40 kΩ pull-down -/
  | pulldown
  /-- high impedance -/
  | input
  | driven (b : Bool)
  deriving DecidableEq, Repr

/-- The user-I/O column of a die as released. -/
def State.ioCell (s : State) (c : Nat) : Option IoCellCfg :=
  (tget (fun _ => IoCfg.mk 0 []) s.userIo (dieOfCell c)).cells[c % 24]?

/-- What an I/O cell drives: its registers, or what logic gives where they are bypassed. -/
def State.ioDrive (s : State) (c : Nat) (x : IoCellCfg) : PinState :=
  let r := tget (fun _ => IoRegs.init) s.ioRegs c
  let v (pin : Nat) : Bool := s.siteNow (dieOfCell c) ⟨.ioOut, 144, c, pin⟩
  if (if x.oeReg then r.oe else v 2) then .driven (if x.outReg then r.out.getLsbD 0 else v 0) else .input

/-- The state of the pin of a cell (R194, R196, R218). -/
def State.pinState (s : State) (c : Nat) : PinState :=
  let d := dieOfCell c
  let level := s.fld (lgaReg d Reg.LGA_IO_BANK) 3 2
  if level = 0 then .unpowered
  else if s.dieState d ≠ 3 then .pulldown
  else
    match s.ioCell c with
    | none => .pulldown
    | some x =>
      if !x.used then .pulldown
      else if s.rbit (lgaReg d Reg.LGA_IO_BANK) 0 then .input
      else
        match ioPair c with
        | some (e, _) =>
          (match ioStandard level x c, s.ioCell e with
          | .lvds, some y => (match s.ioDrive e y with | .driven b => .driven (b ^^ (c != e)) | p => p)
          | _, _ => s.ioDrive c x)
        | none => s.ioDrive c x

/-- The delay a line of 512 taps adds at a tap, in ps (R195). -/
def tapDelay (t : Nat) : Nat := 550 + 4 * t

/-- The registers of an I/O cell at an edge: the rising edge takes both output bits and the first input bit, and at double
rate the falling edge moves the second (R195). -/
def ioEdge (x : IoCellCfg) (rise level b0 b1 oe : Bool) (r : IoRegs) : IoRegs :=
  if rise then
    ⟨BitVec.ofNat 2 ((if level then 1 else 0) + (if x.ddr then r.inp.toNat / 2 * 2 else 0)),
     BitVec.ofNat 2 ((if b0 then 1 else 0) + (if (if x.ddr then b1 else b0) then 2 else 0)), oe⟩
  else if x.ddr then
    ⟨BitVec.ofNat 2 (r.inp.toNat % 2 + (if level then 2 else 0)), BitVec.ofNat 2 (r.out.toNat / 2 * 3), r.oe⟩
  else r

/-! ### An edge of a user clock (R170 to R183, R195) -/

/-- The cells of a die that an edge of a global reaches, out of reset: row region, column, number and cell. -/
def State.clockedCells (s : State) (d g : Nat) (rise : Bool) : List (Nat × Nat × Nat × CellCfg) :=
  (s.cfgAt d).cols.flatMap (fun e =>
    let rr := e.1 / 1024
    let col := e.1 % 1024
    if decide (col < 800) && s.tileFree d (tileOf rr col) then
      ((logicCells e.2).zipIdx.filter (fun x => match clusterOf e.2 x.2 with
        | some k => k.clock.val == g && (k.inverted != rise) | none => false)).map (fun x => (rr, col, x.2, x.1))
    else [])

/-- What an edge writes to a cell: its flip-flops and its distributed memory. -/
def State.cellEdge (s : State) (d : Nat) (v : Site → Bool) (x : Nat × Nat × Nat × CellCfg) (t : State) : State :=
  let rr := x.1
  let col := x.2.1
  let n := x.2.2.1
  let c := x.2.2.2
  let tile := tileOf rr col
  let inp (pin : Nat) : Bool := v ⟨.cellIn, tile, 128 * col + n, pin⟩
  let out (pin : Nat) : Bool := v ⟨.cellOut, tile, 128 * col + n, pin⟩
  let next (src : FlopSource) : Bool := flopPick src (out 0) (out 1) (out 2) (out 3) (inp 6)
  let k := cellKey d rr col n
  let f0 := flopNext c.init.1 (inp 8) (inp 7) (out 4) (next c.src.1)
  let f1 := flopNext c.init.2 (inp 8) (inp 7) (out 5) (next c.src.2)
  let t : State := { t with flops := tput (tput t.flops (2 * k) f0) (2 * k + 1) f1 }
  if (c.use == .memory64 || c.use == .memory32) && inp 7 then
    { t with lutMems := tput t.lutMems k (memoryWrite c.use (s.tableOf d rr col n c) inp (inp 9) (inp 10)) }
  else t

/-- What the ports of a block memory are asked. -/
def memAsk (v : Site → Bool) (m q : Nat) (c : MemPortCfg) : MemAsk :=
  let inp (k : Nat) : Bool := v ⟨.bramIn, memTile m, m, 128 * q + k⟩
  ⟨inp 0, inp 1, bitsNat ((List.range (shapeAddr c.shape)).map (fun i => inp (2 + i))),
   BitVec.ofNat 72 (bitsNat ((List.range (shapeWidth c.shape)).map (fun i => inp (32 + i))))⟩

/-- An edge at every block memory of a die whose ports it clocks. -/
def State.bramEdges (s : State) (d g : Nat) (v : Site → Bool) (t : State) : State :=
  t.each ((List.range 2048).filter (fun m => ((s.cfgAt d).memAt m).isSome && s.tileFree d (memTile m))) (fun t m =>
    match (s.cfgAt d).memAt m with
    | none => t
    | some c =>
      let ask (q : Nat) (p : MemPortCfg) : Option MemAsk := if p.clock.val = g then some (memAsk v m q p) else none
      t.bramEdge d m c (ask 0 c.a) (ask 1 c.b))

/-- An edge at the I/O cells of a die that take the global. -/
def State.ioEdges (s : State) (d g : Nat) (rise : Bool) (v : Site → Bool) (t : State) : State :=
  if d < 12 then t
  else
    t.each (List.range 24) (fun t i =>
      let c := 24 * (d - 12) + i
      match s.ioCell c with
      | none => t
      | some x =>
        if x.clock.val ≠ g then t
        else
          let o (pin : Nat) : Bool := v ⟨.ioOut, 144, c, pin⟩
          { t with ioRegs := tput t.ioRegs c (ioEdge x rise (Config.pinLevel s.free c) (o 0) (o 1) (o 2)
              (tget (fun _ => IoRegs.init) s.ioRegs c)) })

/-- A global that follows a routed signal: what it has seen of it. 0 it is low and the signal was low, 1 it is high with the
signal; after a changeover it stays low until the signal next falls: 2 the signal was low, 3 it was high (R182). -/
def clkNext (seen : Nat) (level : Bool) : Nat × Option Bool :=
  match seen, level with
  | 0, true => (1, some true)
  | 1, false => (0, some false)
  | 2, true => (3, none)
  | 3, false => (0, none)
  | n, _ => (n, none)

/-- The routed signal that a global of a die follows, while it does not hold low (R182). -/
def State.clkSignal (s : State) (d g : Nat) : Option Site :=
  match s.globalInputs d g with
  | some (.routed x, _) => if s.globalRuns d g then some x else none
  | _ => none

/-- The globals of a die that follow routed signals see them as they now are: an edge of one is an edge of the global, and
waits its turn (R182). -/
def State.seeClocks (s : State) (d : Nat) : State :=
  s.each (List.range 16) (fun s g =>
    match s.clkSignal d g with
    | none => s
    | some x =>
      let k := 16 * d + g
      let n := clkNext (tget (fun _ => 0) s.clkSeen k) (s.siteNow d x)
      { s with clkSeen := tset (fun _ => 0) s.clkSeen k n.1
               clkEdges := match n.2 with | some e => s.clkEdges ++ [(k, e)] | none => s.clkEdges })

/-- What follows at once when something that logic sees has changed: keepers take what their lines carry, a contention that has
ended is over, a flip-flop whose asynchronous set/reset is asserted has its initial value, and clocks see their routed
signals (R171, R179, R180, R182). -/
def State.settleLogic (s : State) (d : Nat) : State :=
  if (s.cfgAt d).cols.isEmpty then s
  else
    let v := s.siteNow d
    let lines := (List.range 256).map (fun i => (16 * 16 * d + i, s.lineValue d v (i / 16) (i % 16)))
    let ended := s.contending.filter (fun k => decide (k / 256 = d) && decide ((s.enabledTaps d (k / 16 % 16) (k % 16)).length < 2))
    let t : State := { s with lines := lines.foldl (fun l x => tset (fun _ => false) l x.1 x.2) s.lines
                              contending := s.contending.filter (fun k => !ended.contains k) }
    let t := t.each (s.cfgAt d).cols (fun t e =>
      t.each ((logicCells e.2).zipIdx.filter (fun x => x.1.srAsync && decide (e.1 % 1024 < 800) &&
          v ⟨.cellIn, tileOf (e.1 / 1024) (e.1 % 1024), 128 * (e.1 % 1024) + x.2, 8⟩)) (fun t x =>
        let k := cellKey d (e.1 / 1024) (e.1 % 1024) x.2
        { t with flops := terase (terase t.flops (2 * k)) (2 * k + 1) }))
    t.seeClocks d

/-- A change of what a die's logic sees: what stood before it has been taken, and what follows from it is (R171, R179, R180). -/
def State.around (s : State) (d : Nat) (f : State → State) : State := (f (s.settleLogic d)).settleLogic d

/-- A global clock of a die has an edge: every flip-flop, memory port and I/O register it clocks takes what stood before it. -/
def State.edgeAt (s : State) (d g : Nat) (rise : Bool) : State :=
  let v := s.siteNow d
  let t := s.each (s.clockedCells d g rise) (fun t x => s.cellEdge d v x t)
  let t := if rise then s.bramEdges d g v t else t
  (s.ioEdges d g rise v t).settleLogic d

/-- An edge that a PLL or the outside gives a global clock, while it runs; one that follows a routed signal has that signal's
edges and no other (R182). -/
def State.clockEdge (s : State) (d g : Nat) (rise : Bool) : State :=
  if s.globalRuns d g && (s.clkSignal d g).isNone then s.edgeAt d g rise else s

/-- One edge of a user clock passes while no command waits: the oldest that a routed signal has given a global, else one that
comes from a PLL or from outside. DESIGN CHOICE: log 128, 1. -/
def State.tick (s : State) : State :=
  if (List.range 16).any (fun d => s.dieState d == 3) then
    match s.clkEdges with
    | (k, rise) :: rest => ({ s with clkEdges := rest } : State).edgeAt (k / 16) (k % 16) rise
    | [] =>
      let e := Config.nextEdge s.free
      let t := s.clockEdge e.1 e.2.1 e.2.2
      { t with free := t.free + 1 }
  else s

/-! ### Reset and release of logic (R171, R172, R175, R217) -/

/-- The flip-flops of some tiles of a die are held at their initial values. -/
def State.holdFlops (s : State) (d : Nat) (tiles : Nat → Bool) : State :=
  { s with flops := s.flops.filter (fun e => !(decide (cellDie (e.1 / 2) = d) && tiles (cellTile (e.1 / 2)))) }

/-- Distributed and block memories of some tiles of a die take their initial contents. -/
def State.loadContents (s : State) (d : Nat) (tiles : Nat → Bool) : State :=
  let mem (m : Nat) : Bool := decide (m / 2048 = d) && tiles (memTile (m % 2048))
  { s with lutMems := s.lutMems.filter (fun e => !(decide (cellDie e.1 = d) && tiles (cellTile e.1)))
           brams := s.brams.filter (fun e => !mem (e.1 / 512))
           bramFlips := s.bramFlips.filter (fun e => !mem (e.1 / 512))
           bramOuts := s.bramOuts.filter (fun e => !mem (e.1 / 2)) }

/-- The tiles of a load: every tile of the die, or those of its region. -/
def DieCfg.loadTiles (c : DieCfg) (isPartial : Bool) (region tile : Nat) : Bool :=
  !isPartial || c.regionOf tile == some region

/-- The globals of a die have seen nothing of routed signals (R182). -/
def State.clearClocks (s : State) (d : Nat) : State :=
  { s with clkSeen := s.clkSeen.filter (fun e => e.1 / 16 != d), clkEdges := s.clkEdges.filter (fun e => e.1 / 16 != d) }

/-- The die's long lines read 0 and are in no contention (R179). DESIGN CHOICE: log 127. -/
def State.clearLines (s : State) (d : Nat) : State :=
  { s with lines := s.lines.filter (fun e => e.1 / 256 != d), contending := s.contending.filter (fun k => k / 256 != d) }

end Sys2Proof.Machine
end

