-- ==== Sys2Proof/Machine/StrOps.lean ====
section
/-! DEFINITION. Streams: descriptors and their refusal, element and row layout, entry conversion, requests, the cursor and
partial-completion records, staging and credits (R117 to R144). -/

namespace Sys2Proof.Machine

/-- The register key of a stream engine, and of one of its channels (R144). -/
def strReg (b off : Nat) : Nat := 0x40000000 + b * 0x1000 + off
def chReg (b c off : Nat) : Nat := strReg b (0x100 + 0x40 * c + (off - 0x100))

/-! ### Descriptors (R119, R120, R132) -/

/-- Dimension word of a descriptor: count and signed stride. -/
def dimOf (x : Nat) : Nat × Int := (bitsOf x 63 44, signed 44 (bitsOf x 43 0))

/-- A v3 descriptor as one number, byte 0 lowest (R119). -/
def streamDescV3 (x : Nat) : StreamDesc :=
  let w (o : Nat) : Nat := bitsOf x (8 * o + 31) (8 * o)
  let q (o : Nat) : Nat := bitsOf x (8 * o + 63) (8 * o)
  let n := bitsOf (w 0) 21 19
  { ver := bitsOf (w 0) 31 24, kind := bitsOf (w 0) 23 22, ndim := n, weightAhead := bitOf (w 0) 18
    layer := bitsOf (w 0) 15 0
    srcFmt := bitsOf (w 4) 31 28, dstFmt := bitsOf (w 4) 27 24, dstDigits := bitsOf (w 4) 23 20
    intExp := signed 8 (bitsOf (w 4) 19 12), sharedScale := bitsOf (w 4) 11 4, scaleMode := bitOf (w 4) 3
    blk16 := bitOf (w 4) 2, towardZero := bitOf (w 4) 1
    floor := bitsOf (w 8) 30 24, ceiling := bitsOf (w 8) 22 16, id := bitsOf (w 8) 15 0
    peer := bitsOf (w 12) 31 28, peerChannel := bitsOf (w 12) 27 20, rowBytes := bitsOf (w 12) 19 12
    bayAddr := bitsOf (w 16) 18 0, bayStride := bitsOf (w 20) 15 0
    memBase := q 0x18, copyDst := q 0x20
    counts := (List.range n).map (fun d => (dimOf (q (0x30 + 8 * d))).1)
    strides := (List.range n).map (fun d => (dimOf (q (0x30 + 8 * d))).2)
    bubble := 0 }

/-- Reserved fields of a v3 descriptor that are not zero, unused dimensions included (R122). DEDUCED: log 39. -/
def reservedV3 (x : Nat) : Bool :=
  let w (o : Nat) : Nat := bitsOf x (8 * o + 31) (8 * o)
  let q (o : Nat) : Nat := bitsOf x (8 * o + 63) (8 * o)
  let d := streamDescV3 x
  bitsOf (w 0) 17 16 != 0 || bitOf (w 4) 0 || bitOf (w 8) 31 || bitOf (w 8) 23 || bitsOf (w 12) 11 0 != 0 ||
  bitsOf (w 16) 31 19 != 0 || bitsOf (w 20) 31 16 != 0 || q 0x28 != 0 || q 0x58 != 0 ||
  ((List.range 5).drop d.ndim).any (fun i => q (0x30 + 8 * i) != 0) ||
  (d.dstFmt != 0 && d.dstDigits != 0) || (d.kind != 2 && d.copyDst != 0) ||
  (d.kind != 2 && !(decide (10 ≤ d.peer) && decide (d.peer ≤ 13)) && d.peerChannel != 0)

/-- A v2 descriptor as one number (R132). -/
def streamDescV2 (x : Nat) : StreamDesc :=
  let w (o : Nat) : Nat := bitsOf x (8 * o + 31) (8 * o)
  let q (o : Nat) : Nat := bitsOf x (8 * o + 63) (8 * o)
  let n := bitsOf (w 0) 22 21 + 1
  { StreamDesc.zero with
    ver := bitsOf (w 0) 31 24, kind := bitsOf (w 0) 23 23, ndim := n, layer := bitsOf (w 0) 15 0
    bubble := bitsOf (w 0) 20 19
    srcFmt := bitsOf (w 4) 31 28, dstFmt := bitsOf (w 4) 27 24, dstDigits := bitsOf (w 4) 23 20
    intExp := signed 8 (bitsOf (w 4) 19 12), towardZero := bitOf (w 4) 1
    floor := 2, ceiling := 8, id := bitsOf (w 8) 15 0
    peer := bitsOf (w 12) 31 28, peerChannel := bitsOf (w 12) 27 20, rowBytes := bitsOf (w 12) 19 12
    bayAddr := bitsOf (w 16) 18 0, bayStride := bitsOf (w 20) 15 0
    memBase := q 0x18
    counts := (List.range n).map (fun d => (dimOf (q (0x20 + 8 * d))).1)
    strides := (List.range n).map (fun d => (dimOf (q (0x20 + 8 * d))).2) }

/-- Reserved fields of a v2 descriptor that are not zero (R122, R132). DEDUCED: log 39. -/
def reservedV2 (x : Nat) : Bool :=
  let w (o : Nat) : Nat := bitsOf x (8 * o + 31) (8 * o)
  let q (o : Nat) : Nat := bitsOf x (8 * o + 63) (8 * o)
  let d := streamDescV2 x
  bitsOf (w 0) 18 16 != 0 || bitsOf (w 4) 11 2 != 0 || bitOf (w 4) 0 || bitsOf (w 8) 31 16 != 0 ||
  bitsOf (w 12) 11 0 != 0 || bitsOf (w 16) 31 19 != 0 || bitsOf (w 20) 31 16 != 0 ||
  ((List.range 4).drop d.ndim).any (fun i => q (0x20 + 8 * i) != 0) || d.bubble == 3 ||
  !(decide (d.srcFmt ≤ 5) || d.srcFmt == 12) || !(d.dstFmt == 0 || d.dstFmt == 15) ||
  (d.dstFmt != 0 && d.dstDigits != 0) ||
  (!(decide (10 ≤ d.peer) && decide (d.peer ≤ 13)) && d.peerChannel != 0)

/-- Source MX format of src_fmt 0x6 to 0xB (R120). -/
def srcMx : Nat → Option MxFmt
  | 6 => some .int8 | 7 => some .e4m3 | 8 => some .e5m2 | 9 => some .e3m2 | 10 => some .e2m3 | 11 => some .e2m1
  | _ => none

/-- Output MX format of dst_fmt 0x1 to 0x6 (R120). -/
def dstMx : Nat → Option MxFmt
  | 1 => some .int8 | 2 => some .e4m3 | 3 => some .e5m2 | 4 => some .e3m2 | 5 => some .e2m3 | 6 => some .e2m1
  | _ => none

/-- Source element size in bytes (R120). -/
def srcSize : Nat → Nat
  | 0 => 1 | 1 => 2 | 2 => 4 | 3 => 2 | 4 => 2 | 5 => 4 | 6 => 33 | 7 => 33 | 8 => 33 | 9 => 25 | 10 => 25 | 11 => 17
  | 12 => 1 | _ => 0

def StreamDesc.esize (d : StreamDesc) : Nat := srcSize d.srcFmt

/-- Source elements of the stream. -/
def StreamDesc.total (d : StreamDesc) : Nat := d.counts.foldl (· * ·) 1

/-- Output elements of one source element (R121, R123). -/
def StreamDesc.perSource (d : StreamDesc) : Nat := if d.dstFmt ≠ 15 ∧ (srcMx d.srcFmt).isSome then 32 else 1

/-- Elements of an MX output block. -/
def StreamDesc.blockElems (d : StreamDesc) : Nat := if d.blk16 then 16 else 32

/-- Output elements of one bay-side row (R121). -/
def StreamDesc.rowOuts (d : StreamDesc) : Nat :=
  match dstMx d.dstFmt with
  | some _ => d.blockElems
  | none =>
    if d.dstFmt = 0 then d.rowBytes * 8 / (2 * d.dstDigits)
    else if d.dstFmt = 7 ∨ d.dstFmt = 8 then d.rowBytes / 2
    else if d.dstFmt = 9 ∨ d.dstFmt = 10 then d.rowBytes / 4
    else d.rowBytes / d.esize

/-- row_bytes fits the output format (R121, R122). DEDUCED: log 40. -/
def StreamDesc.rowFits (d : StreamDesc) : Bool :=
  decide (1 ≤ d.rowBytes) && decide (d.rowBytes ≤ 128) &&
  (match dstMx d.dstFmt with
   | some f => d.rowBytes == f.bits * d.blockElems / 8 + 1
   | none =>
     if d.dstFmt = 0 then d.rowBytes * 8 % (2 * d.dstDigits) == 0
     else if d.dstFmt = 7 ∨ d.dstFmt = 8 then d.rowBytes % 2 == 0
     else if d.dstFmt = 9 ∨ d.dstFmt = 10 then d.rowBytes % 4 == 0
     else d.rowBytes % d.esize == 0)

/-- Bay-side rows of a fetch. -/
def StreamDesc.rows (d : StreamDesc) : Nat := (d.total * d.perSource + d.rowOuts - 1) / d.rowOuts

/-- Destination offset of row r (R121). -/
def StreamDesc.rowAddr (d : StreamDesc) (r : Nat) : Nat := d.bayAddr + r * d.bayStride

/-- The peer is a tile port. -/
def StreamDesc.toPort (d : StreamDesc) : Bool := decide (10 ≤ d.peer) && decide (d.peer ≤ 13)

/-- The destination block of row r: a 4 KiB block of the peer's memory, or 32 records of a tile port (R126, R187). -/
def StreamDesc.rowBlock (d : StreamDesc) (r : Nat) : Nat := if d.toPort then r / 32 else d.rowAddr r / 4096

/-- The blocks a row needs credits for. -/
def StreamDesc.rowBlocks (d : StreamDesc) (r : Nat) : List Nat :=
  if d.toPort then [r / 32]
  else (List.range ((d.rowAddr r + d.rowBytes - 1) / 4096 - d.rowAddr r / 4096 + 1)).map (d.rowAddr r / 4096 + ·)

/-- The blocks a fetch writes. -/
def StreamDesc.destBlocks (d : StreamDesc) : List Nat :=
  ((List.range d.rows).flatMap d.rowBlocks).eraseDups

/-- The indices of linear element k, dimension 0 first (R121). -/
def elemIndices : List Nat → Nat → List Nat
  | [], _ => []
  | c :: cs, k => k % c :: elemIndices cs (k / c)

/-- The job address of element k (R121). -/
def StreamDesc.elemAddr (d : StreamDesc) (k : Nat) : Nat :=
  let off : Int := (List.zipWith (fun (i : Nat) (st : Int) => (i : Int) * st) (elemIndices d.counts k) d.strides).foldl (· + ·) 0
  (((d.memBase : Int) + off) % 2 ^ 64).toNat

/-- A stream descriptor is refused at dispatch, whatever its version (R122). -/
def StreamDesc.refused (d : StreamDesc) : Bool :=
  let es := d.esize
  let peerMem := if d.peer = 1 then 0x80000 else 0x40000
  d.kind == 3 || d.ndim == 0 || decide (5 < d.ndim) || es == 0 ||
  (decide (11 ≤ d.dstFmt) && decide (d.dstFmt ≤ 14)) ||
  d.counts.any (· == 0) || decide (2 ^ 40 < d.total) ||
  ((es == 2 || es == 4) && (d.memBase % es != 0 || d.strides.any (fun st => decide (st % es ≠ 0)))) ||
  (d.kind != 0 && d.dstFmt != 15) || (d.srcFmt == 12 && d.dstFmt != 15) ||
  (d.dstFmt == 0 && (d.dstDigits == 0 || decide (8 < d.dstDigits))) ||
  (match d.kind with
   | 0 => d.peer == 0 || decide (13 < d.peer) || !d.rowFits || decide (d.bayStride < d.rowBytes) ||
       d.bayStride % 4 != 0 ||
       (!d.toPort && decide (peerMem < d.rowAddr (d.rows - 1) + d.rowBytes))
   | 1 => d.peer == 0 || decide (13 < d.peer) || d.rowBytes == 0 || decide (128 < d.rowBytes) || d.rowBytes % es != 0
   | _ => d.peer != 0) ||
  decide (d.floor < 2) || decide (d.ceiling < d.floor) || decide (64 < d.ceiling)

/-! ### Entry conversion (R123 to R125) -/

/-- The value of a source element's sub-element i from its bytes; none for a NaN, an infinity or a non-finite
MX block. -/
def sourceValue (fmt : Nat) (bytes : List Byte) (i : Nat) : Option (Int × Int) :=
  match srcMx fmt with
  | some f =>
    let sc := (bytes.getD (bytes.length - 1) 0).toNat
    if sc == 255 || (List.range 32).any (fun e => f.nonfinite (unpackElem f.bits bytes e)) then none
    else
      let x := f.value (unpackElem f.bits bytes i)
      some (x.1, x.2 + (sc - 127))
  | none =>
    let n := bytesNat bytes
    let flt (ff : FloatFmt) := if floatBad ff n then none else some (decodeFloat ff n)
    match fmt with
    | 0 => some (signed 8 n, 0) | 1 => some (signed 16 n, 0) | 2 => some (signed 32 n, 0)
    | 3 => flt fmtBF16 | 4 => flt fmtFP16 | 5 => flt fmtFP32
    | _ => some (n, 0)
where
  floatBad (f : FloatFmt) (n : Nat) : Bool := n / 2 ^ f.manBits % 2 ^ f.expBits == 2 ^ f.expBits - 1

/-- Two values m · 2^e are equal. -/
def sameValue (x y : Int × Int) : Bool :=
  let lo := min x.2 y.2
  decide (x.1 * 2 ^ (x.2 - lo).toNat = y.1 * 2 ^ (y.2 - lo).toNat)

/-- A converted row: bytes, saturations, and elements that lost bits (R123, R124). `real` counts the elements that
are no padding. -/
structure RowResult where
  bytes : List Byte
  sats : Nat
  rounded : Nat

/-- One element of an output format at block scale exponent X: code, saturated, lost bits. DEDUCED: log 40. -/
def convertElem (d : StreamDesc) (X : Int) (v : Int × Int) : Nat × Bool × Bool :=
  let rm : RoundMode := if d.towardZero then .towardZero else .nearestEven
  let intOut (w : Nat) : Nat × Bool × Bool :=
    let e := v.2 - d.intExp
    let r := roundPow rm v.1 e
    let hi : Int := 2 ^ (w - 1) - 1
    (unsigned w (clampInt (-hi - 1) hi r), decide (r < -hi - 1) || decide (hi < r), !isExactPow v.1 e)
  let flt (f : FloatFmt) : Nat × Bool × Bool :=
    let r := encodeFloat f rm v.1 v.2
    (r.1, r.2, !sameValue (decodeFloat f r.1) v)
  match dstMx d.dstFmt with
  | some f =>
    let r := f.encode rm v.1 (v.2 - X)
    let b := f.value r.1
    (r.1, r.2, !sameValue (b.1, b.2 + X) v)
  | none =>
    match d.dstFmt with
    | 0 => intOut (2 * d.dstDigits)
    | 7 => flt fmtBF16 | 8 => flt fmtFP16 | 9 => flt fmtFP32
    | _ => intOut 32

/-- The scale exponent of an MX row (R123). -/
def rowScale (d : StreamDesc) (f : MxFmt) (vs : List (Int × Int)) : Int :=
  if d.scaleMode then (d.sharedScale : Int) - 127
  else
    let tops := vs.filterMap (fun v => if v.1 = 0 then none else some ((Nat.log2 v.1.natAbs : Int) + v.2))
    match tops with
    | [] => -127
    | t :: ts => clampInt (-127) 127 (ts.foldl max t - f.emax)

/-- Convert the values of a row, padded with zeros to the row's elements (R121, R123). -/
def convertRow (d : StreamDesc) (vs : List (Int × Int)) : RowResult :=
  let pad := vs ++ List.replicate (d.rowOuts - vs.length) ((0 : Int), (0 : Int))
  let X := match dstMx d.dstFmt with | some f => rowScale d f vs | none => 0
  let cs := pad.map (convertElem d X)
  let sats := (cs.filter (fun c => c.2.1)).length
  let lost := (cs.filter (fun c => c.2.2 && !c.2.1)).length
  let codes := cs.map (·.1)
  let bytes := match dstMx d.dstFmt with
    | some f => packBytes f.bits codes ++ [BitVec.ofNat 8 (X + 127).toNat]
    | none =>
      if d.dstFmt = 0 then packBytes (2 * d.dstDigits) codes
      else if d.dstFmt = 7 ∨ d.dstFmt = 8 then packBytes 16 codes
      else packBytes 32 codes
  ⟨bytes, sats, lost⟩

/-! ### Requests (R134) -/

/-- Split a byte range at 256-byte boundaries. -/
def splitLines : Nat → Nat → Nat → List (Nat × Nat)
  | 0, _, _ => []
  | fuel + 1, a, n =>
    if n = 0 then []
    else
      let k := min n (256 - a % 256)
      (a, k) :: splitLines fuel (a + k) (n - k)

/-- Two byte ranges of one 256-byte line touch or overlap. -/
def linesTouch (x y : Nat × Nat) : Bool :=
  x.1 / 256 == y.1 / 256 && decide (x.1 ≤ y.1 + y.2) && decide (y.1 ≤ x.1 + x.2)

/-- Merge a piece that serves element k into the requests formed so far, which stay in order of the lowest element
each serves. DEDUCED: log 41. -/
def mergePiece (rs : List Req) (a n k : Nat) (write : Bool) (stage : Nat) : List Req :=
  let hit := rs.filter (fun r => linesTouch (r.addr, r.len) (a, n))
  match hit with
  | [] => rs ++ [⟨0, write, a, n, k, k, none, none, stage, none, none, false⟩]
  | h :: hs =>
    let lo := hs.foldl (fun m r => min m r.addr) (min h.addr a)
    let hi := hs.foldl (fun m r => max m (r.addr + r.len)) (max (h.addr + h.len) (a + n))
    let m : Req := ⟨0, write, lo, hi - lo, h.first, k, none, none, stage, none, none, false⟩
    (rs.takeWhile (fun r => !linesTouch (r.addr, r.len) (a, n))) ++ [m] ++
      ((rs.dropWhile (fun r => !linesTouch (r.addr, r.len) (a, n))).drop 1).filter
        (fun r => !linesTouch (r.addr, r.len) (a, n))

/-- The requests of elements k0 to k0 + n − 1, each located by `at` (R134). DEDUCED: log 41. -/
def formRequests (size : Nat) (loc : Nat → Nat) (k0 n : Nat) (write : Bool) (stage : Nat) : List Req :=
  (List.range n).foldl (fun rs i =>
    (splitLines (size / 256 + 2) (loc (k0 + i)) size).foldl (fun rs p => mergePiece rs p.1 p.2 (k0 + i) write stage) rs) []

/-- The rows of the unit that starts with row r: those of its destination block. -/
def StreamDesc.unitRows (d : StreamDesc) (r : Nat) : Nat :=
  ((List.range (d.rows - r)).takeWhile (fun i => d.rowBlock (r + i) == d.rowBlock r)).length

/-- First source element of row r, and the element after the last of row r. -/
def StreamDesc.rowFirst (d : StreamDesc) (r : Nat) : Nat := r * d.rowOuts / d.perSource
def StreamDesc.rowEnd (d : StreamDesc) (r : Nat) : Nat :=
  min d.total (((r + 1) * d.rowOuts + d.perSource - 1) / d.perSource)

/-- The byte at a job address among the data that requests have returned. -/
def findByte : List Req → Nat → Option Byte
  | [], _ => none
  | r :: rs, a =>
    match r.data with
    | some bs => if r.addr ≤ a ∧ a < r.addr + r.len then some (bs.getD (a - r.addr) 0) else findByte rs a
    | none => findByte rs a

/-- The bytes of source element k, once they have all arrived. -/
def elemBytes (d : StreamDesc) (rs : List Req) (k : Nat) : Option (List Byte) :=
  (List.range d.esize).mapM (fun i => findByte rs (d.elemAddr k + i))

/-- What a fetch makes of row r from the arrived data: not yet all there, non-finite, or the row. -/
inductive RowOutcome where
  | missing
  | nonfinite (elem : Nat)
  | row (r : RowResult)

/-- Assemble and convert row r (R121, R123, R125). -/
def assembleRow (d : StreamDesc) (rs : List Req) (r : Nat) : RowOutcome :=
  let k0 := d.rowFirst r
  let n := d.rowEnd r - k0
  match (List.range n).mapM (fun i => elemBytes d rs (k0 + i)) with
  | none => .missing
  | some bs =>
    if d.dstFmt = 15 then
      let flat := bs.flatten
      let bad := (List.range n).find? (fun i => decide (d.srcFmt ≠ 12) && (sourceValue d.srcFmt (bs.getD i []) 0).isNone)
      match bad with
      | some i => .nonfinite (k0 + i)
      | none => .row ⟨flat ++ List.replicate (d.rowBytes - flat.length) 0, 0, 0⟩
    else
      let o0 := r * d.rowOuts
      let cnt := min d.rowOuts (d.total * d.perSource - o0)
      let vs := (List.range cnt).map (fun i =>
        ((o0 + i) / d.perSource, sourceValue d.srcFmt (bs.getD ((o0 + i) / d.perSource - k0) []) ((o0 + i) % d.perSource)))
      match vs.find? (fun v => v.2.isNone) with
      | some v => .nonfinite v.1
      | none => .row (convertRow d (vs.map (fun v => v.2.getD (0, 0))))

/-! ### Cursor and records (R135, R141) -/

/-- Source elements delivered (R135). -/
def Chan.done (c : Chan) : Nat :=
  if c.desc.kind = 0 then
    (if c.accepted = c.desc.rows then c.desc.total else min c.desc.total (c.accepted * c.desc.rowOuts / c.desc.perSource))
  else c.delivered

/-- Rows already accepted that hold output of the element at the cursor, where one MX source element fills several rows
(R135). -/
def Chan.rowsDone (c : Chan) : Nat :=
  if c.desc.kind = 0 ∧ c.accepted < c.desc.rows ∧ 1 < c.desc.perSource then
    c.accepted - c.done * c.desc.perSource / c.desc.rowOuts
  else 0

/-- The 128-bit cursor (R141). -/
def Chan.cursor (c : Chan) : Nat :=
  let ix := elemIndices c.desc.counts c.done
  nthN ix 0 + nthN ix 1 * 2 ^ 20 + nthN ix 2 * 2 ^ 40 + nthN ix 3 * 2 ^ 60 + nthN ix 4 * 2 ^ 80 + c.rowsDone * 2 ^ 100

/-- The partial-completion record of a channel (R141). -/
def pcrBytes (s : State) (b c : Nat) (ch : Chan) (status faultAddr : Nat) : List Byte :=
  natBytes 4 (status * 2 ^ 24 + c * 2 ^ 20 + b % 64 * 2 ^ 14 + b / 64 * 2 ^ 10) ++
  natBytes 4 (ch.desc.id * 2 ^ 16 + ch.desc.layer) ++
  natBytes 8 ch.done ++ natBytes 8 faultAddr ++ natBytes 16 ch.cursor ++
  (if ch.state = .waitBarrier then natBytes 8 0
   else natBytes 4 (s.rdN (chReg b c Reg.STR_CH_SAT)) ++ natBytes 4 (s.rdN (chReg b c Reg.STR_CH_ROUNDED)))

/-! ### Channels, staging and credits (R126 to R128) -/

/-- The channel holds a stream that has not ended. -/
def Chan.live (c : Chan) : Bool :=
  match c.state with
  | .idle => false | .ended => false | .endedShort => false | _ => true

/-- The channel has started: its floor is reserved (R128). -/
def Chan.started (c : Chan) : Bool :=
  match c.state with
  | .running => true | .creditWait => true | .paused => true | _ => false

/-- Staging blocks a channel holds. -/
def Chan.heldCount (c : Chan) : Nat := c.held.length + c.stages.length

/-- Floors reserved on an engine, and pool blocks taken beyond floors (R128). -/
def State.floors (s : State) (b : Nat) : Nat :=
  (List.range 16).foldl (fun a c => a + (if (s.chanAt b c).started then (s.chanAt b c).desc.floor else 0)) 0
def State.poolTaken (s : State) (b : Nat) : Nat :=
  (List.range 16).foldl (fun a c =>
    let ch := s.chanAt b c
    a + (ch.heldCount - (if ch.started then ch.desc.floor else 0))) 0

/-- A channel may take one more staging block: a floor block first, else one of the pool up to its ceiling (R128). -/
def State.stagingFree (s : State) (b c : Nat) : Bool :=
  let ch := s.chanAt b c
  decide (ch.heldCount < ch.desc.floor) ||
    (decide (ch.heldCount < ch.desc.ceiling) && decide (s.floors b + s.poolTaken b < 64))

/-- A request is in flight: it has not been answered. -/
def Req.inFlight (r : Req) : Bool := r.write || r.data.isNone

/-- Requests in flight, those given up included (R117). -/
def Chan.flying (c : Chan) : List Req := c.outstanding.filter Req.inFlight

/-- Requests in flight whose answer the channel needs. -/
def Chan.awaited (c : Chan) : List Req := c.flying.filter (fun r => !r.gone)

/-- The requests that stay behind when a channel gives up what it holds: what they bring is discarded. -/
def Chan.leftover (c : Chan) : List Req := c.flying.map (fun r => { r with gone := true })

/-- Every row accepted, or every element delivered and every write acknowledged: the stream has ended. -/
def Chan.finished (c : Chan) : Bool :=
  if c.desc.kind = 0 then decide (c.accepted = c.desc.rows)
  else decide (c.delivered = c.desc.total) && c.awaited.isEmpty

/-- The writer a channel is. -/
def chanWriter (b c : Nat) : Writer := .stream b c

/-- Drop everything a stream holds but what its registers show. -/
def Chan.clear (c : Chan) : Chan :=
  { c with rows := [], todo := [], outstanding := c.leftover, walk := none, credits := [], held := [], stages := [], failed := [] }

/-- The counters of a channel's registers, which start at zero with its stream (R144). -/
def chCounters : List Nat := [Reg.STR_CH_CREDIT_WAIT, Reg.STR_CH_PAUSES, Reg.STR_CH_SAT, Reg.STR_CH_ROUNDED]

/-- Record a flag of a stream engine; those of STR_FAULT_COUNT's list are counted (R144). -/
def State.strFault (s : State) (b mask : Nat) : State :=
  (s.setBits (strReg b Reg.STR_ERR_FLAGS) mask).bump (strReg b Reg.STR_FAULT_COUNT) 1

end Sys2Proof.Machine
end

