-- ==== Sys2Proof/Machine/Crossbar.lean ====
section
/-! DEFINITION. The bay crossbar: who may write what under which credit, delivery of a record, and completion signals
(R64, R65, R126, R127, R187). -/

namespace Sys2Proof.Machine

/-- Open bytes where a record leaves a position unwritten and its receiver has no byte of its own (R63). -/
def fillOpen (n : Nat) : List (Option Byte) → List Byte
  | [] => []
  | some b :: xs => b :: fillOpen (n + 1) xs
  | none :: xs => Config.freeByte n :: fillOpen (n + 1) xs

/-- Count of free bytes drawn for a record. DESIGN CHOICE: log 24. -/
def State.drew (s : State) (n : Nat) : State := { s with free := s.free + n }

/-- The writer number a port shows as src (R187). -/
def srcCode : Writer → Nat
  | .drain t => t % 8
  | .send _ => 8
  | .stream _ c => 16 + c
  | .port _ p => p

/-- A record lands in the writer's first open staging block: block and slots left of each open block. -/
def takeSlot (done : Bool) : List (Nat × Nat) → List (Nat × Nat)
  | [] => []
  | x :: xs => if done ∨ x.2 ≤ 1 then xs else (x.1, x.2 - 1) :: xs

/-- The open staging blocks of a writer, and those left once everything on its way has landed. -/
def Chan.openBlocks (ch : Chan) (w : Writer) : List (Nat × Nat) :=
  (ch.stages.filter (fun g => g.writer == w && !g.complete)).map (fun g => (g.num, 32 - g.slots.length))
def Chan.roomLeft (ch : Chan) (w : Writer) : List (Nat × Nat) :=
  ch.arrivals.foldl (fun xs a => match a with
    | .record v _ done => if v = w then takeSlot done xs else xs
    | .ends v bs => if v = w then xs.filter (fun x => !bs.contains x.1) else xs) (ch.openBlocks w)

/-- A store channel has a slot for one more record of a writer (R127). -/
def Chan.hasRoom (ch : Chan) (w : Writer) : Bool := !(ch.roomLeft w).isEmpty

/-- Staging blocks are complete. -/
def Chan.completeStages (ch : Chan) (bs : List Nat) : Chan :=
  { ch with stages := ch.stages.map (fun g => if bs.contains g.num then { g with complete := true } else g) }

/-- A drain or send ends: the blocks granted to it are complete once its records have landed (R127). -/
def Chan.endWriter (ch : Chan) (w : Writer) : Chan :=
  let bs := (ch.openBlocks w).map (·.1)
  if ch.arrivals.any (fun a => match a with | .record v _ _ => v == w | .ends v _ => v == w) then
    { ch with arrivals := ch.arrivals ++ [.ends w bs] }
  else ch.completeStages bs

/-- Deliver a record of `w` to destination `dst` of the bay, `done` where it ends a staging block or is its writer's last
record; none where the writer lacks the credit (R65, R186, R187). DESIGN CHOICE: log 24. -/
def State.deliver (s : State) (bay : Nat) (w : Writer) (dst chan addr : Nat) (bytes : List (Option Byte)) (done : Bool) :
    Option State :=
  if dst = 1 then
    let v := s.vecAt bay
    if (blocksOf addr bytes.length).all (fun b => v.block b == .filling w) then
      some (s.setVec bay { v with dmem := tputSome v.dmem addr bytes })
    else none
  else if 2 ≤ dst ∧ dst ≤ 9 then
    let t := bay * 8 + (dst - 2)
    let m := s.mtxAt t
    if (blocksOf addr bytes.length).all (fun b => m.block b == .filling w) then
      some (s.setMtx t { m with buf := tputSome m.buf addr bytes })
    else none
  else if dst = 0 then
    let ch := s.chanAt bay chan
    if ch.hasRoom w then
      some ((s.setChan bay chan { ch with arrivals := ch.arrivals ++ [.record w (fillOpen s.free bytes) done] }).drew bytes.length)
    else none
  else if 10 ≤ dst ∧ dst ≤ 13 then
    let p := s.portAt bay (dst - 10)
    match (if s.portOpen bay (dst - 10) then p.blocks.find? (fun g => g.writer == w && !g.complete) else none) with
    | none => none
    | some g =>
      let last := decide (g.records = 31) || done
      let g' := { g with records := g.records + 1, complete := last }
      let blocks := p.blocks.map (fun x => if x.num == g.num then g' else x)
      let rec' : InRecord := ⟨srcCode w, chan, g.num, last, fillOpen s.free bytes⟩
      some ((s.setPort bay (dst - 10) { p with blocks := blocks, inQ := p.inQ ++ [rec'] }).drew bytes.length)
  else none

/-- A port's blocks of a writer are complete: the last record of each in the queue ends its block; a block whose
records have all been popped returns (R187). DEDUCED: log 46. -/
def TilePort.complete (p : TilePort) (w : Writer) : TilePort :=
  let mine := (p.blocks.filter (fun g => g.writer == w)).map (·.num)
  let isLast (i : Nat) (r : InRecord) : Bool :=
    mine.contains r.block && !((p.inQ.drop (i + 1)).any (fun x => x.block == r.block))
  let inQ := p.inQ.zipIdx.map (fun x => if isLast x.2 x.1 then { x.1 with blockEnd := true } else x.1)
  { p with inQ := inQ,
           blocks := (p.blocks.filter (fun g => !(g.writer == w) || inQ.any (fun r => r.block == g.num))).map
             (fun g => if g.writer == w then { g with complete := true } else g) }

/-- Every block of the bay that `w` is filling is signalled complete (R53, R86, R96, R127, R187). DEDUCED: log 46. -/
def State.completeWriter (s : State) (bay : Nat) (w : Writer) : State :=
  let s := s.each (List.range 8) (fun s i =>
    if (List.range 64).any (fun b => (s.mtxAt (bay * 8 + i)).block b == .filling w) then
      s.setMtx (bay * 8 + i) ((s.mtxAt (bay * 8 + i)).complete w) else s)
  let s := if (List.range 128).any (fun b => (s.vecAt bay).block b == .filling w) then
    s.setVec bay ((s.vecAt bay).complete w) else s
  let s := s.each (List.range 16) (fun s c =>
    let ch := s.chanAt bay c
    if ch.stages.any (fun g => g.writer == w && !g.complete) then
      s.setChan bay c (ch.endWriter w)
    else s)
  s.each (List.range 4) (fun s p =>
    if (s.portAt bay p).blocks.any (fun g => g.writer == w && !g.complete) then
      s.setPort bay p ((s.portAt bay p).complete w) else s)

/-- A destination block that a writer asks for next, by destination and block (R126, R127). -/
def recordAsks (s : State) (bay : Nat) (w : Writer) (dst chan addr n : Nat) : List (Nat × Nat) :=
  if dst = 1 then ((blocksOf addr n).filter (fun b => !((s.vecAt bay).block b == .filling w))).map (fun b => (1, b))
  else if 2 ≤ dst ∧ dst ≤ 9 then
    ((blocksOf addr n).filter (fun b => !((s.mtxAt (bay * 8 + (dst - 2))).block b == .filling w))).map (fun b => (dst, b))
  else if dst = 0 then
    (if (s.chanAt bay chan).hasRoom w then [] else [(0, chan)])
  else if (s.portAt bay (dst - 10)).blocks.any (fun g => g.writer == w && !g.complete) then [] else [(dst, 0)]

/-- What a writer asks credits for now. -/
def State.asks (s : State) (bay : Nat) : Writer → List (Nat × Nat)
  | .drain t =>
    match (s.mtxAt t).drains with
    | x :: _ => match x.offered with
      | r :: _ => recordAsks s bay (.drain t) x.desc.dst x.desc.dstChannel r.addr r.bytes.length
      | [] => []
    | [] => []
  | .send b =>
    let v := s.vecAt b
    match v.sends with
    | q :: _ =>
      let p := v.sendPreset q.preset
      recordAsks s bay (.send b) (spDst p) (spChannel p) (spAddr p + q.accepted * spStride p) (4 * spWords p)
    | [] => []
  | .stream b c =>
    let ch := s.chanAt b c
    if ch.desc.kind = 0 ∧ ch.started ∧ ch.accepted < ch.desc.rows then
      -- a fetch holds credits ahead of its next row as far as staging allows (R128)
      let r := ((List.range (ch.desc.rows - ch.accepted)).find? (fun i =>
        (ch.desc.rowBlocks (ch.accepted + i)).any (fun blk => !ch.credits.contains blk))).map (ch.accepted + ·)
      match r with
      | none => []
      | some r => ((ch.desc.rowBlocks r).filter (fun blk => !ch.credits.contains blk)).map (fun blk => (ch.desc.peer, blk))
    else []
  | .port b p =>
    match (s.portAt b p).outQ with
    | r :: _ => recordAsks s bay (.port b p) r.dst r.channel r.addr r.bytes.length
    | [] => []

/-- A consumer has the block that a writer asks for (R126, R187). -/
def State.hasBlock (s : State) (b dst blk : Nat) (w : Writer) : Bool :=
  if dst = 1 then (s.vecAt b).block blk == .free
  else if 2 ≤ dst ∧ dst ≤ 9 then (s.mtxAt (b * 8 + (dst - 2))).block blk == .free
  else if dst = 0 then false
  else
    let p := s.portAt b (dst - 10)
    s.portOpen b (dst - 10) && decide (0 < p.credits) && (List.range 4).any (fun n => !p.blocks.any (fun g => g.num == n)) &&
      (s.asks b w).any (fun x => x.1 == dst)

/-- The peer code of a writer, as a store channel names it (R122, R127). -/
def peerCode : Writer → Nat
  | .drain t => 2 + t % 8
  | .send _ => 1
  | .stream _ _ => 0
  | .port _ p => 10 + p

/-- A channel waits for a block of the pool: a fetch beside a destination block it may have, a store whose peer asks for a
credit, a copy with elements to read (R128). DESIGN CHOICE: log 138. -/
def State.wantsPool (s : State) (b c : Nat) : Bool :=
  let ch := s.chanAt b c
  ch.started && ch.state != .paused && decide (ch.desc.floor ≤ ch.heldCount) && decide (ch.heldCount < ch.desc.ceiling) &&
  (match ch.desc.kind with
   | 0 => (s.asks b (.stream b c)).any (fun x => s.hasBlock b x.1 x.2 (.stream b c))
   | 1 => (((List.range 8).map (fun i => Writer.drain (8 * b + i))) ++ [Writer.send b] ++
      ((List.range 4).map (fun p => Writer.port b p))).any (fun w => peerCode w == ch.desc.peer && (s.asks b w).contains (0, c))
   | _ => decide (ch.formed < ch.desc.total) && ch.todo.isEmpty && ch.walk.isNone && ch.fault.isNone && !ch.stopReq)

/-- The channel that the pool serves next: the first that waits after the one it served last, in rotation (R128).
DESIGN CHOICE: log 138. -/
def State.poolTurn (s : State) (b : Nat) : Option Nat :=
  let last := tget (fun _ => 15) s.poolLast b
  ((List.range 16).map (fun i => (last + 1 + i) % 16)).find? (s.wantsPool b)

/-- A channel may take a staging block now: one of its floor, or one of the pool in its turn (R128). DESIGN CHOICE: log 138. -/
def State.stagingTurn (s : State) (b c : Nat) : Bool :=
  s.stagingFree b c && (decide ((s.chanAt b c).heldCount < (s.chanAt b c).desc.floor) || s.poolTurn b == some c)

/-- A channel has taken a staging block: one of the pool turns the rotation (R128). `old` is the state before. DESIGN CHOICE: log 138. -/
def State.tookStaging (s old : State) (b c : Nat) : State :=
  if (old.chanAt b c).heldCount < (old.chanAt b c).desc.floor then s
  else { s with poolLast := tset (fun _ => 15) s.poolLast b c }

/-- The destination block that a record with done ends is complete: the one that holds its address; a staging block ends as
the record lands (R186). -/
def State.recordDone (s : State) (b p : Nat) (r : PortRecord) : State :=
  let w : Writer := .port b p
  if r.dst = 0 then s
  else if r.dst = 1 then
    let v := s.vecAt b
    if v.block (r.addr / 4096) = .filling w then s.setVec b (v.setBlock (r.addr / 4096) .valid) else s
  else
    let t := b * 8 + (r.dst - 2)
    let m := s.mtxAt t
    if m.block (r.addr / 4096) = .filling w then s.setMtx t (m.setBlock (r.addr / 4096) .valid) else s

/-- The writers of a bay in the order of their src numbers (R187). -/
def portWriters (b : Nat) : List Writer :=
  ((List.range 8).map (fun i => .drain (8 * b + i))) ++ [Writer.send b] ++ ((List.range 16).map (fun c => .stream b c))

/-- The writer a port serves next: the first that asks after the one it served last, in rotation (R187). -/
def State.portTurn (s : State) (b p : Nat) : Option Writer :=
  let ws := (portWriters b).filter (fun w => (s.asks b w).any (fun x => x.1 == 10 + p))
  match ws.find? (fun w => decide ((s.portAt b p).last < srcCode w)) with
  | some w => some w
  | none => ws.head?

/-- Records leave the outbound queue in push order, as far as credit is held (R186); a queue whose clock has stopped holds
(R183, R192). -/
def State.portFlush (s : State) (b p : Nat) : Nat → State
  | 0 => s
  | fuel + 1 =>
    match (if s.portOpen b p && s.portClocked b p then (s.portAt b p).outQ else []) with
    | [] => s
    | r :: rest =>
      match s.deliver b (.port b p) r.dst r.channel r.addr (r.bytes.map some) r.done with
      | none => s
      | some s =>
        let s := s.setPort b p { s.portAt b p with outQ := rest }
        (if r.done then s.recordDone b p r else s).portFlush b p fuel

end Sys2Proof.Machine
end

