-- ==== Sys2Proof/Machine/HostOps.lean ====
section
/-! DEFINITION. Rings, completions, events and interrupts of the host interface (R322 to R334), and the control sets that
bind functions to partitions (R340, R156). -/

namespace Sys2Proof.Machine

/-! ### Register keys -/

/-- A register of function f's page. -/
def pageReg (f off : Nat) : Nat := regKey (.page (Fin.ofNat 64 f)) off

/-- The settings of a ring, which the page shows for the ring that HIF_RING_SEL selects: 0x00 base, 0x08 configuration,
0x0C interrupt settings, 0x10 state, 0x14 count (R339). -/
def ringKey (f : Nat) (cq : Bool) (r off : Nat) : Nat :=
  0x50000000 + ((f % 64 * 2 + (if cq then 1 else 0)) * 1024 + r % 1024) * 0x20 + off

def State.ringEnabled (s : State) (f : Nat) (cq : Bool) (r : Nat) : Bool := s.fld (ringKey f cq r 0x10) 31 30 == 1
def State.ringLog2 (s : State) (f : Nat) (cq : Bool) (r : Nat) : Nat := s.fld (ringKey f cq r 8) 28 24

def State.cqAt (s : State) (f r : Nat) : CplRing := tget (fun _ => CplRing.init) s.cqs (1024 * f + r)
def State.setCq (s : State) (f r : Nat) (v : CplRing) : State := { s with cqs := tput s.cqs (1024 * f + r) v }
def State.sqAt (s : State) (f r : Nat) : SubRing := tget (fun _ => SubRing.init) s.sqs (1024 * f + r)
def State.setSq (s : State) (f r : Nat) (v : SubRing) : State := { s with sqs := tput s.sqs (1024 * f + r) v }
def State.fnAt (s : State) (f : Nat) : FnState := tget (fun _ => FnState.init) s.fns f
def State.setFn (s : State) (f : Nat) (v : FnState) : State := { s with fns := tput s.fns f v }

/-- The completion ring a submission ring names. -/
def State.ringCq (s : State) (f r : Nat) : Nat := s.fld (ringKey f false r 8) 21 12

/-- The class of a submission ring (R324); under version 2 rings are Espresso (R332). -/
def State.ringClass (s : State) (f r : Nat) : Nat :=
  if s.rdN (pageReg f Reg.HIF_VERSION_SEL) % 16 = 2 then 1 else s.fld (ringKey f false r 8) 23 22

/-! ### Forming completions and events -/

/-- A vector of a function's MSI-X table: masked after a reset. PRESUMED: log 87. -/
def FnState.vector (x : FnState) (v : Nat) : MsixVector := tget (fun _ => ⟨0, 0, true⟩) x.vectors v

/-- An MSI-X message of a function: none while MSI-X is not enabled, held while the function or the vector is masked or the
function is in D3hot (R321, R333). PRESUMED: log 87. -/
def State.message (s : State) (f vector : Nat) : State :=
  let x := s.fnAt f
  if !x.msixOn then s
  else if x.d3hot || x.msixMask || (x.vector vector).masked then s.setFn f { x with msix := if x.msix.contains vector then x.msix else x.msix ++ [vector] }
  else s.emit (.msix f vector (x.vector vector).addr (x.vector vector).data)

/-- Pending messages of a function that nothing holds any more are sent, once each (R321, R333). -/
def State.sendPending (s : State) (f : Nat) : State :=
  let x := s.fnAt f
  if !x.msixOn then s else (s.setFn f { x with msix := [] }).each x.msix (fun s v => s.message f v)

/-- Events of a function formed and not yet written. -/
def State.eventsHeld (s : State) (f : Nat) : Nat :=
  let q := s.fld (pageReg f Reg.HIF_EVENT_CQ) 9 0
  ((s.cqAt f q).waiting.filter (·.event)).length

/-- An event for a function (R334, R321): an entry of its event ring, or counted as lost. DEDUCED: log 93. -/
def State.event (s : State) (f code arg status : Nat) : State :=
  let q := s.fld (pageReg f Reg.HIF_EVENT_CQ) 9 0
  let open_ := s.rbit (pageReg f Reg.HIF_EVENT_CQ) 31 && s.ringEnabled f true q
  if !open_ || ((s.fnAt f).d3hot && decide (1024 ≤ s.eventsHeld f)) then
    (s.bump (pageReg f Reg.HIF_FN_EVENTS_LOST) 1).setFlag (pageReg f Reg.HIF_FN_ERR_FLAGS) 3
  else
    let c := s.cqAt f q
    ({ s with formed := s.formed + 1 } : State).setCq f q { c with waiting := c.waiting ++
      [{ ord := s.formed, v2 := s.rdN (pageReg f Reg.HIF_VERSION_SEL) % 16 == 2, event := true, away := false, sq := 0x3FF
         tag := code % 2 ^ 16 * 2 ^ 32 + arg % 2 ^ 32, seq := 0, ext := none, status := status, bound := 0, digits := 0
         detail := 0, sats := 0, irq := false, job := false }] }

/-- What a unit of work reports at its end. -/
structure Report where
  status : Nat
  bound : Nat
  digits : Nat
  detail : Nat
  sats : Nat
  /-- the record for the extended area, before it is cut to ext_bytes -/
  record : List Byte
  /-- the end of a job (R336) -/
  job : Bool

/-- A report of a status alone. -/
def Report.of (st : Nat) : Report := ⟨st, 0, 0, 0, 0, [], false⟩

/-- The report of a job entry that is refused: its extended record tells of no pass and no record (R330). -/
def Report.refusedJob : Report :=
  { Report.of 0x87 with record := natBytes 4 (0x87 * 2 ^ 24) ++ List.replicate 28 0 }

/-- Bytes of a record that fit in the extended area: its first 32 bytes and whole records of 48 (R330). -/
def extCut (room len : Nat) : Nat := if room < 32 then 0 else min len (32 + (room - 32) / 48 * 48)

/-- The completion entry of a report, n-th of those formed. -/
def Entry.cpl (e : Entry) (r : Report) (n : Nat) : Cpl :=
  { ord := n, v2 := e.v2, event := false, away := e.cq.isSome, sq := e.ring, tag := e.tag, seq := e.seq
    ext := if e.extAddr = 0 ∨ e.v2 ∨ r.record = [] ∨ extCut e.extBytes r.record.length = 0 then none
      else some (e.extAddr, r.record.take (extCut e.extBytes r.record.length))
    status := r.status, bound := r.bound, digits := r.digits, detail := r.detail, sats := r.sats, irq := e.irq, job := r.job }

/-- Queue a completion on the entry's completion ring; nothing where a Function Level Reset has come between (R320). -/
def State.queueCpl (s : State) (e : Entry) (r : Report) : State :=
  if (s.fnAt e.func).epoch ≠ e.epoch then s
  else
    let q := e.cq.getD (s.ringCq e.func e.ring)
    let c := s.cqAt e.func q
    ({ s with formed := s.formed + 1 } : State).setCq e.func q { c with waiting := c.waiting ++ [e.cpl r s.formed] }

/-- An entry taken over from the partner completes; a barrier that waited for it alone completes too (R326, R406). -/
def State.completeAway (s : State) (e : Entry) (r : Report) : State :=
  let s := s.queueCpl e r
  let bs := s.twin.barriers.map (fun b =>
    (b.1, if b.1.func == e.func && b.1.ring == e.ring && b.1.cq == e.cq then b.2.filter (· != e.tag) else b.2))
  let s := { s with twin := { s.twin with barriers := bs.filter (fun b => !b.2.isEmpty) } }
  (bs.filter (fun b => b.2.isEmpty)).foldl (fun s b => s.queueCpl b.1 (.of 0)) s

/-- An entry completes: its completion is queued, and a barrier entry that waited for it alone completes (R326). -/
def State.complete (s : State) (e : Entry) (r : Report) : State :=
  if (s.fnAt e.func).epoch ≠ e.epoch then s
  else if e.cq.isSome then s.completeAway e r
  else
    let s := s.queueCpl e r
    let x := s.sqAt e.func e.ring
    let left := x.taken.erase e.seq
    match x.barrier with
    | some b =>
      if left.all (· == b.seq) then
        (s.setSq e.func e.ring { x with taken := [], barrier := none }).queueCpl b (.of 0)
      else s.setSq e.func e.ring { x with taken := left }
    | none => s.setSq e.func e.ring { x with taken := left }

/-- A ring stops being enabled, or becomes so: HIF_RINGS counts the rings enabled on the module. DEDUCED: log 89. -/
def State.ringsCount (s : State) (cq up : Bool) : State :=
  let k := regKey .hif Reg.HIF_RINGS
  let hi := if cq then 31 else 15
  let n := s.fld k hi (hi - 15)
  s.wrFld k hi (hi - 15) (if up then n + 1 else n - 1)

/-- A ring's state and cause, as HIF_RING_STATE shows them (R339). -/
def State.setRing (s : State) (f : Nat) (cq : Bool) (r st cause : Nat) : State :=
  let was := s.ringEnabled f cq r
  let s := s.wr (ringKey f cq r 0x10) (BitVec.ofNat 32 (st * 2 ^ 30 + cause * 2 ^ 26))
  if was && st != 1 then s.ringsCount cq false else if !was && st == 1 then s.ringsCount cq true else s

/-- A submission ring goes into error (R328). -/
def State.ringError (s : State) (f r cause : Nat) : State :=
  let s := s.setRing f false r 2 cause
  let s := s.setFlag (pageReg f Reg.HIF_FN_ERR_FLAGS) 2
  s.event f 6 r 0

/-! ### What the host reaches (R9, R315, R316, R319, R321) -/

/-- A register of the HIF block. -/
def hifReg (off : Nat) : Nat := regKey .hif off

/-- The link of a function, and whether it is up (R315, R316). -/
def State.linkOf (s : State) (f : Nat) : Nat := if s.rbit (hifReg Reg.HIF_STATUS) 28 ∧ 32 ≤ f then 1 else 0
def State.linkUp (s : State) (l : Nat) : Bool := s.rbit (hifReg Reg.HIF_LINK_STATUS) (8 * l + 7)
def State.fnUp (s : State) (f : Nat) : Bool := s.linkUp (s.linkOf f)

/-- The function exists: a physical function of the mode, or a virtual function that SR-IOV has enabled (R316). -/
def State.fnLive (s : State) (f : Nat) : Bool :=
  if s.linkOf f = 1 then decide (f - 32 ≤ (s.fnAt 32).vfs) else decide (f ≤ (s.fnAt 0).vfs)

/-- The ready point has passed, or the recovery point (R319). -/
def State.isReady (s : State) : Bool := s.rbit (hifReg Reg.HIF_STATUS) 31
def State.inRecovery (s : State) : Bool := s.rbit (hifReg Reg.HIF_STATUS) 30

/-- The host can address a function's BARs. -/
def State.fnReach (s : State) (f : Nat) : Bool := s.fnUp f && s.isReady && s.fnLive f

/-- A host access that is logged in the HIF error log: 0 size or alignment, 1 reserved space, 2 dead domain, 3 locked
register (R4, R6, R9, R10, R338). DEDUCED: log 20. -/
def State.logAccess (s : State) (kind : Nat) (bar2 : Bool) (off : Nat) : State :=
  let fl := hifReg Reg.HIF_ERR_FLAGS
  let first := s.fld fl 2 0 == 0
  let bit := if kind = 3 then 0 else kind
  let s := (s.setFlag fl bit).bump (hifReg (if bit = 0 then Reg.HIF_BAD_ACCESS_COUNT
    else if bit = 1 then Reg.HIF_RESERVED_ACCESS_COUNT else Reg.HIF_DEAD_ACCESS_COUNT)) 1
  if first then
    s.wr (hifReg Reg.HIF_ERR_INFO) (BitVec.ofNat 32 (kind * 2 ^ 30 + (if bar2 then 2 ^ 29 else 0) + off % 2 ^ 26))
  else s

/-- An access to an offset of function f's page, by f itself or through function 0 (R317): a function in D3hot answers
its own BARs with Unsupported Request, logged (R321); `ur` sends the answer out where the access is a read. DESIGN CHOICE: log 10. DEDUCED: log 20. -/
def State.pageDo (s : State) (f : Nat) (via0 : Bool) (off : Nat) (go : State → State)
    (ur : State → State := id) : Out :=
  let who := if via0 then 0 else f
  if !s.fnReach who then impossible
  else if (s.fnAt who).d3hot then .next (ur (s.logAccess 0 true (if who = 0 then f * 0x1000 + off else off)))
  else .next (go s)

/-- An access of function 0 to a BAR0 register (R317). DESIGN CHOICE: log 10. DEDUCED: log 20. -/
def State.bar0Do (s : State) (off : Nat) (go : State → State) (ur : State → State := id) : Out :=
  if !(s.fnReach 0 || (s.fnUp 0 && s.inRecovery)) then impossible
  else if (s.fnAt 0).d3hot then .next (ur (s.logAccess 0 false off))
  else .next (go s)

/-! ### Control sets (R340, R156) -/

/-- The word at an offset of the image of set `tag`. -/
def setKey (tag off : Nat) : Nat := 0x60000000 + tag % 2 * 0x20000 + off

/-- The active set. -/
def State.activeSet (s : State) : Nat := s.fld (regKey .ctl Reg.CTL_STATUS) 0 0

/-- The set active in a domain: 0–15 compute dies, 16–19 edge dies, 20 Ryhal. During a swap a domain that has switched
tags its transactions with the new set (R242, R343). -/
def State.domainSet (s : State) (d : Nat) : Nat :=
  match s.swap with
  | some reported => if reported.contains d then 1 - s.activeSet else s.activeSet
  | none => s.activeSet

/-- A partition entry (R156). -/
structure PartEntry where
  quarters : Nat
  enabled : Bool
  func : Nat
  root : Nat
  ckpt : Nat
  deriving DecidableEq, Repr

/-- Partition entry p of set `tag`. -/
def State.partIn (s : State) (tag p : Nat) : PartEntry :=
  let k := setKey tag (0x200 + 32 * p)
  { quarters := s.rd64 k, enabled := s.rbit (k + 8) 31, func := s.fld (k + 8) 5 0
    root := s.rd64 (k + 0x10), ckpt := s.rd64 (k + 0x18) }

/-- Partition entry p of the active set. -/
def State.part (s : State) (p : Nat) : PartEntry := s.partIn s.activeSet p

/-- Partition entry p as the agents of a domain have it: in a swap of the control sets, of the set the domain has switched to
(R343, R344). DEDUCED: log 96. -/
def State.partFor (s : State) (d p : Nat) : PartEntry := s.partIn (s.domainSet d) p

/-- Partition entry p as the ring engine in the north edge die has it (R229, R344). DEDUCED: log 96. -/
def State.ringPart (s : State) (p : Nat) : PartEntry := s.partFor 16 p

/-- The enabled partition bound to a function, as the ring engine has it (R342: at most one; R344). -/
def State.partOfFn (s : State) (f : Nat) : Option Nat :=
  (List.range 16).find? (fun p => (s.ringPart p).enabled && (s.ringPart p).func == f)

/-- The quarters of a mask, in ascending number. -/
def maskQuarters (m : Nat) : List Nat := (List.range 64).filter (fun q => bitOf m q)

/-- Partition entry p as the controllers that dispatch for it have it: those of the die of its lowest quarter (R145, R344).
DEDUCED: log 96. -/
def State.ctrlPart (s : State) (p : Nat) : PartEntry := s.partFor ((maskQuarters (s.part p).quarters).headD 0 / 4) p

/-- The partition a quarter belongs to in the active set. -/
def State.partOfQuarter (s : State) (q : Nat) : Option Nat :=
  (List.range 16).find? (fun p => (s.part p).enabled && bitOf (s.part p).quarters q)

end Sys2Proof.Machine
end

