-- ==== Sys2Proof/Machine/JobOps.lean ====
section
/-! DEFINITION. Jobs and their units: who belongs to a job, a stream that ends short, a port that closes, and the end of
a job for any cause (R54, R85, R96, R112, R139, R189, R427). -/

namespace Sys2Proof.Machine

/-- The bays of a job, in logical order (R153). -/
def Job.bays (j : Job) : List Nat := j.placed.flatMap baysOfQuarter

/-- The job a bay runs. -/
def State.bayJob (s : State) (b : Nat) : Option Nat := (s.bayAt b).job

/-- Count saturations for a bay, and so for its job (R40, R97, R123). -/
def State.addSats (s : State) (b n : Nat) : State :=
  let x := s.bayAt b
  match x.job with
  | none => s
  | some j => (s.setBay b { x with sats := x.sats + n }).mapJob j (fun v => { v with sats := v.sats + n })

/-- Count digit cycles for a bay and its job (R39). -/
def State.addDigits (s : State) (b n : Nat) : State :=
  let x := s.bayAt b
  match x.job with
  | none => s
  | some j => (s.setBay b { x with digits := x.digits + n }).mapJob j (fun v => { v with digits := v.digits + n })

/-- The cause of an abandonment that no read met: the oldest pass's next vector to feed (R85); `soft`: it is the tile's own
soft reset. -/
def Mtx.plainCause (m : Mtx) (status : Nat) (soft : Bool := false) : MtxCause :=
  let i := m.oldest.getD (0, 0, 0)
  ⟨0, status, i.2.1, i.2.2, 0, soft⟩

/-- The record a tile offers is refused for credits, or it offers none: none can be accepted in this cycle (R65, R86).
DESIGN CHOICE: log 122. -/
def State.refusedNow (s : State) (t : Nat) : Bool :=
  match (s.mtxAt t).drains with
  | [] => true
  | x :: _ => match x.offered with
    | [] => true
    | r :: _ => (s.deliver (bayOfTile t) (.drain t) x.desc.dst x.desc.dstChannel r.addr r.bytes false).isNone

/-- A tile's running and accepted passes are abandoned for one or more causes, the highest first, the first-fault registers
naming a pass (R85, R86, R89). The record it offers can still be accepted in this cycle where its destination has the credit:
one refused for credits is discarded (R86). -/
def State.abandonTile (s : State) (t pass : Nat) (c : MtxCause) (more : List MtxCause) : State :=
  let m := s.mtxAt t
  let flags := (c :: more).foldl (fun n x => n ||| x.flag) 0x80
  let u := s.mtxFault t flags (more.length + 1) c.status c.quad c.vec pass c.addr
  (u.setMtx t (m.abandon ((c :: more).map MtxCause.rank) (s.mtxOpen t) (s.refusedNow t))).completeWriter (bayOfTile t) (.drain t)

/-- A tile's part in the end of its job for a cause outside its passes (R85). -/
def State.dropTile (s : State) (t status : Nat) : State :=
  let m := s.mtxAt t
  match m.oldest with
  | some i => s.abandonTile t i.1 (m.plainCause status) []
  | none => s.setMtx t { m with handed := [], preempt := false }

/-- A channel's stream ends short: its record joins the job, its staging returns, its registers keep what they show
(R139, R141). `flags` are the cause's flags of STR_ERR_FLAGS. -/
def State.endShort (s : State) (b c status faultAddr flags : Nat) : State :=
  let ch := s.chanAt b c
  if ch.live then
    let pcr := pcrBytes s b c ch status faultAddr
    let s := s.strFault b (flags ||| 1)
    let s := if ch.state = .waitBarrier then s.each chCounters (fun s o => s.wr (chReg b c o) 0) else s
    let s := s.setChan b c { ch.clear with state := .endedShort, status := status, faultAddr := faultAddr
                                           credits := ch.credits }
    match s.bayJob b with
    | none => s
    | some j => s.mapJob j (fun v => { v with pcrs := v.pcrs ++ [pcr] })
  else s

/-- A port closes: records not yet accepted or popped are discarded and credits withdrawn (R189). -/
def State.closePort (s : State) (b p : Nat) : State :=
  (s.setPort b p { s.portAt b p with outQ := [], credits := 0, blocks := [], inQ := [], isOpen := false }).settleLogic (dieOfBay b)

/-- A port opens when its bay's job starts (R189). -/
def State.openPort (s : State) (b p : Nat) : State := (s.setPort b p { s.portAt b p with isOpen := true }).settleLogic (dieOfBay b)

/-- A port block handed to a stream, drain or send of a bay is withdrawn with its job; buffer and data memory blocks
return as R54 and R96 lay down. -/
def State.endBlocks (s : State) (b : Nat) (success : Bool) : State :=
  let s := s.each (List.range 8) (fun s i =>
    s.setMtx (b * 8 + i) ((s.mtxAt (b * 8 + i)).endJobBlocks success))
  s.setVec b (s.vecAt b).endJobBlocks

/-- A bay's units end because its job ends with an error (R85, R112, R139, R189). -/
def State.endBay (s : State) (b status : Nat) : State :=
  let s := s.each (List.range 8) (fun s i => s.dropTile (b * 8 + i) status)
  let v := s.vecAt b
  let s := if v.active then s.setVec b v.halt else s
  let s := s.each (List.range 16) (fun s c => s.endShort b c status 0 0)
  let s := s.each (List.range 4) (fun s p => s.closePort b p)
  let s := s.endBlocks b false
  s.setBay b { s.bayAt b with finished := true, running := false, waiting := false }

/-- The pass of a tile that a fault is named for, and the records of it accepted (R87). DEDUCED: log 30. -/
def Mtx.named (m : Mtx) : Option (Nat × Nat) :=
  m.oldest.map (fun i => (i.1, match m.drains with | x :: _ => x.records | [] => 0))

/-- The pass a completion names when a job ends for a cause outside its passes: of the running passes abandoned with it,
the one of the lowest index (R87, R427). DEDUCED: log 30. -/
def State.passNamed (s : State) (bays : List Nat) : Option (Nat × Nat) :=
  let ps := (bays.flatMap (fun b => (List.range 8).map (fun i => s.mtxAt (b * 8 + i)))).filterMap Mtx.named
  ps.foldl (fun a p => match a with | none => some p | some q => some (if p.1 < q.1 then p else q)) none

/-- Where byte o of a bay sequencer's firmware memory, or of its job memory, stands (R154). -/
def firmKey (b : Nat) (job : Bool) (o : Nat) : Nat := (2 * b + (if job then 1 else 0)) * 65536 + o

/-- What a byte of sequencer memory holds that nothing has written since: firmware where it was multicast, else zero. -/
def State.firmBase (s : State) (k : Nat) : Byte :=
  if k / 65536 % 2 = 0 ∧ s.fwBays.contains (k / 131072) then s.fwBody.getD (k % 65536) 0 else 0

/-- Read and write bytes of sequencer memory (R154). -/
def State.firmRead (s : State) (k n : Nat) : List Byte := (List.range n).map (fun i => tget s.firmBase s.firm (k + i))
def State.firmWrite (s : State) : Nat → List Byte → State
  | _, [] => s
  | k, v :: vs => State.firmWrite { s with firm := tset s.firmBase s.firm k v } (k + 1) vs

/-- Sequencer memory of bays is left as zeros. -/
def State.firmZero (s : State) (bays : List Nat) : State :=
  { s with firm := s.firm.filter (fun e => !bays.contains (e.1 / 131072)), fwBays := s.fwBays.filter (fun b => !bays.contains b) }

/-- Bays take the sequencer firmware: its first 64 KiB from the start of firmware memory (R154, R360). DEDUCED: log 102. -/
def State.firmLoad (s : State) (bays : List Nat) (body : List Byte) : State :=
  let s := { s with firm := s.firm.filter (fun e => !(bays.contains (e.1 / 131072) && e.1 / 65536 % 2 == 0)) }
  { s with fwBody := body.take 65536, fwBays := bays }

/-- Bytes of a checkpoint record (R161). -/
def ckptBytes : Nat := 3416064

/-- The device address of a bay's checkpoint record. -/
def State.ckptAddr (s : State) (part lb : Nat) : Nat := (s.ctrlPart part).ckpt + lb * ckptBytes

/-- Valid words of checkpoint records already written are cleared (R165). DEDUCED: log 54. -/
def State.clearRecords (s : State) (j : Job) : State :=
  s.each j.bays (fun s b =>
    let x := s.bayAt b
    if x.recorded then (s.writeBytes (s.ckptAddr j.part x.logical) (natBytes 8 0)).setBay b { x with recorded := false } else s)

/-- The first cause ends the job: every unit of it ends, and each of its bays sends its end message (R85, R427). `named`
is the detail word and the records accepted that the cause itself names. A later cause changes nothing.
DEDUCED: log 30. -/
def State.failJob (s : State) (j status : Nat) (named : Option (Nat × Nat)) (addr : Nat) : State :=
  match s.jobAt j with
  | none => s
  | some v =>
    if v.status = 0 ∧ (v.phase = .running ∨ v.phase = .preempting) then
      let n := (named.orElse (fun _ => s.passNamed v.bays)).getD (0, 0)
      let s := if v.phase = .preempting then s.clearRecords v else s
      let s := s.setJob j { v with status := status, detail := n.1, recordsAccepted := n.2, failAddr := addr
                                   phase := .ending }
      s.each v.bays (fun s b => s.endBay b status)
    else s

/-- The job of a bay ends with a status; nothing where the bay runs none. -/
def State.failBay (s : State) (b status : Nat) (named : Option (Nat × Nat)) (addr : Nat) : State :=
  match s.bayJob b with
  | none => s
  | some j => s.failJob j status named addr

/-- The detail word of a vector-tile fault (R329). -/
def vecDetail (lb pc : Nat) : Nat := 2 ^ 31 + lb % 1024 * 2 ^ 12 + pc % 4096

/-- A fault of a vector tile: recorded, the tile halts, and its job ends (R112); no device address has failed (R330). The packet
index is that of the packet at which the tile stands, also for a send row and its time-out, which no packet is issuing.
DEDUCED: log 55. DESIGN CHOICE: log 125. -/
def State.vecHalt (s : State) (b flag status addr : Nat) : State :=
  let pc := (s.vecAt b).pc
  let s := s.vecFault b flag status addr
  let s := s.setVec b (s.vecAt b).halt
  s.failBay b status (some (vecDetail (s.bayAt b).logical pc, 0)) 0

/-- A fault of a matrix tile's running pass: recorded, the pass abandoned, and its job ends naming the pass and the
records of it accepted (R85, R87). A buffer error carries its buffer offset (R57). DEDUCED: log 55. -/
def State.mtxAbandon (s : State) (t pass records : Nat) (c : MtxCause) (more : List MtxCause) : State :=
  (s.abandonTile t pass c more).failBay (bayOfTile t) c.status (some (pass, records)) (if c.flag = 0x02 then c.addr else 0)

end Sys2Proof.Machine
end

