-- ==== Sys2Proof/Machine/Layers.lean ====
section
/-! DEFINITION. Layers of a bay: which outputs are still to be written, and where weight-ahead streams may begin
(R130, R131, R133). -/

namespace Sys2Proof.Machine

/-- The micro-batch of a pass in a bay whose streams use bubble-fill: the half its moving vectors lie in, A for half A
DEDUCED: log 21. -/
def PassDesc.micro (d : PassDesc) : Nat := if (d.qrec (d.active.headD 0)).movAddr < 0x20000 then 1 else 2

/-- The micro-batch of a queued send: that of the store channel it goes to, or of the operand half; 0 for any other.
DEDUCED: log 21. -/
def State.sendMicro (s : State) (b : Nat) (q : QueuedSend) : Nat :=
  let p := (s.vecAt b).sendPreset q.preset
  if spDst p = 0 then (s.chanAt b (spChannel p)).desc.bubble
  else if 2 ≤ spDst p ∧ spDst p ≤ 9 then (if spAddr p < 0x20000 then 1 else 2)
  else 0

/-- Some output of a layer before `layer` has still to be written on the bay; with bubble-fill, of the same
micro-batch (R130, R133). DEDUCED: log 21. -/
def State.outputsPending (s : State) (b layer micro : Nat) : Bool :=
  let bub := (s.bayAt b).bubble
  let same (m : Nat) : Bool := !bub || m == 0 || micro == 0 || m == micro
  (List.range 8).any (fun i =>
    let m := s.mtxAt (b * 8 + i)
    (match m.cur with | some p => decide (p.layer < layer) && same p.desc.micro | none => false) ||
    m.drains.any (fun x => decide (x.layer < layer) && same x.desc.micro)) ||
  (s.vecAt b).sends.any (fun q => decide (q.layer < layer) && same (s.sendMicro b q)) ||
  (List.range 16).any (fun c =>
    let ch := s.chanAt b c
    ch.live && ch.desc.kind == 1 && decide (ch.desc.layer < layer) && same ch.desc.bubble)

/-- The point of R131 for weight-ahead streams of layer `layer` has passed on the bay. -/
def State.weightAheadOpen (s : State) (b layer : Nat) : Bool :=
  let x := s.bayAt b
  (x.accepted.any (fun l => l + 1 == layer || layer ≤ l)) || (x.layerOpen && decide (layer ≤ x.layer))

end Sys2Proof.Machine
end

