-- ==== Sys2Proof/Machine/MemOps.lean ====
section
/-! DEFINITION. Device memory: where a device address lies, and what a read, a write and a read-modify-write do there
(R248 to R253, R257 to R261, R264). -/

namespace Sys2Proof.Machine

/-! ### Where an address lies (R248 to R250, R257) -/

/-- The register key of an LPDDR5X channel's register; `off` is its offset in local channel 0 (R268). -/
def drcCh (c off : Nat) : Nat := regKey (.drc (Fin.ofNat 4 (c / 16))) (off + 0x400 * (c % 16))

/-- The register key of an edge die's DRC block, and of a compute die's CRM summary. -/
def drcReg (e off : Nat) : Nat := regKey (.drc (Fin.ofNat 4 e)) off
def crmReg (d off : Nat) : Nat := regKey (.crm (Fin.ofNat 16 d)) off

/-- A channel's state as DRC_CH_STATE shows it (R261). -/
def State.chanState (s : State) (c : Nat) : Nat := s.fld (drcCh c Reg.DRC_CH_STATE) 31 28

/-- The tier is open: tier_open of DRC_STATUS, the same on every edge die (R261). -/
def State.tierOpen (s : State) : Bool := s.rbit (drcReg 0 Reg.DRC_STATUS) 31

/-- The usable channels in ascending number, neither absent nor bad; fixed once the tier is open (R250, R261, R268). -/
def State.usableChans (s : State) : List Nat := (List.range 64).filter (fun c => decide (2 ≤ s.chanState c))

/-- Where a device address lies. -/
inductive Place where
  /-- channel and data address (R250) -/
  | lpddr (chan d : Nat)
  /-- bay of the package and offset in its slice -/
  | crema (bay o : Nat)
  /-- a removed row of a bay's slice -/
  | removed (bay : Nat)
  | hole
  | closed
  deriving DecidableEq, Repr

/-- An entry of the fuse map, the field bank and the defect list (R365). -/
def unitEntry (kind index : Nat) : Nat := kind * 2 ^ 28 + index * 2 ^ 7

/-- The unit is listed as bad for the boot (R367). -/
def State.isBad (s : State) (kind index : Nat) : Bool := s.plan.defects.any (fun d => d.unit == unitEntry kind index)

/-- The router number of a bay (R227), and the bay of a router. -/
def routerOfBay (b : Nat) : Nat := (b / 256 * 8 + b % 64 / 8) * 32 + (b / 64 % 4 * 8 + b % 8)
def bayOfRouter (r : Nat) : Nat := (r / 32 / 8 * 4 + r % 32 / 8) * 64 + r / 32 % 8 * 8 + r % 32 % 8

/-- A router's mode: 0 normal, 1 bypass, 2 dead (R233). -/
def State.routerMode (s : State) (r : Nat) : Nat := tget (fun _ => 0) s.plan.routers r

/-- A router that its mode or a commanded test takes out (R233, R370, R374). -/
def State.routerOut (s : State) (r : Nat) : Bool := s.routerMode r != 0 || s.isBad 4 r || s.isBad 5 r

/-- A compute die answers on the sideband ring (R364). -/
def State.dieReach (s : State) (d : Nat) : Bool := !s.plan.unreach.contains d

/-- The whole slice of a bay is removed: for the boot (R361), or with its router or its die (R366). -/
def State.sliceRemoved (s : State) (bay : Nat) : Bool :=
  s.plan.slices.contains bay || s.routerOut (routerOfBay bay) || !s.dieReach (bay / 64)

/-- Row r of a bay's slice is removed (R251, R361, R366). -/
def State.rowRemoved (s : State) (bay r : Nat) : Bool := s.sliceRemoved bay || s.isBad 6 (bay * 1536 + r)

/-- Bytes of LPDDR5X behind one usable channel: 15.5 GiB (R250). -/
def chanBytes : Nat := 0x3E0000000

/-- Where device address A lies (R248, R249). -/
def State.place (s : State) (A : Nat) : Place :=
  if A < 0x10000000000 then
    if s.tierOpen then
      let L := s.usableChans
      let C := L.length
      if A < C * chanBytes then .lpddr (L.getD (A / 256 % C) 0) (A / 256 / C * 256 + A % 256) else .hole
    else .closed
  else if A < 0x11000000000 then
    let x := A - 0x10000000000
    let bay := x / 0x100000000 * 64 + x % 0x100000000 / 0x4000000
    let o := x % 0x4000000
    if 0x3000000 ≤ o then .hole
    else if s.rowRemoved bay (o / 0x8000) then .removed bay
    else .crema bay o
  else .hole

/-- The device address of offset o of a bay's slice. -/
def cremaAddr (bay o : Nat) : Nat := 0x10000000000 + bay / 64 * 0x100000000 + bay % 64 * 0x4000000 + o

/-- The physical address of a data address of a channel (R257). -/
def dataPhys (d : Nat) : Nat := if d < 0x1F0000000 then d else d + 0x10000000

/-! ### Error state (R252, R253, R264) -/

/-- The unit of error protection an address lies in: a 32-byte word of crema, a 256-byte chunk of LPDDR5X. -/
def unitSize (A : Nat) : Nat := if A < 0x10000000000 then 256 else 32

/-- The units a byte range touches, by the device address of their first byte. -/
def unitsOf (A n : Nat) : List Nat :=
  let u := unitSize A
  if n = 0 then [] else (List.range ((A + n - 1) / u - A / u + 1)).map (fun i => (A / u + i) * u)

/-- Where a chunk of a channel stands in `State.poison` while the tier is closed, and no device address names it (R261).
DEDUCED: log 56. -/
def closedKey (c k : Nat) : Nat := 2 ^ 44 + c * 2 ^ 26 + k
def State.closedBad (s : State) (c k : Nat) : Bool := s.poison.any (fun e => e.1 == closedKey c k)

/-- The unit holds data whose error cannot be corrected. -/
def State.poisoned (s : State) (u : Nat) : Bool := s.poison.any (fun e => e.1 == u)

/-- The lane recorded for a unit. DEDUCED: log 67. -/
def State.poisonLane (s : State) (u : Nat) : Nat := tget (fun _ => 0) s.poison u

/-- An uncorrectable error of a channel is counted, and the device address of the first recorded (R264). -/
def State.chanUE (s : State) (c A : Nat) : State :=
  let first := !s.rbit (drcCh c Reg.DRC_CH_ERR_FLAGS) 1
  let s := ((s.bump (drcCh c Reg.DRC_UE_COUNT) 1).setFlag (drcCh c Reg.DRC_CH_ERR_FLAGS) 1).setFlag
    (drcReg (c / 16) Reg.DRC_ERR_FLAGS) 0
  if first then s.wr64 (drcCh c Reg.DRC_UE_ADDR) A else s

/-- A corrected error of a channel is counted (R259); and a flag of its DRC_CH_ERR_FLAGS. -/
def State.chanFlag (s : State) (c i : Nat) : State :=
  (s.setFlag (drcCh c Reg.DRC_CH_ERR_FLAGS) i).setFlag (drcReg (c / 16) Reg.DRC_ERR_FLAGS) 0
def State.chanCE (s : State) (c : Nat) : State := (s.bump (drcCh c Reg.DRC_CE_COUNT) 1).chanFlag c 0

/-- Count and record an uncorrectable error met at address A (R252, R264). -/
def State.memUE (s : State) (A : Nat) : State :=
  match s.place A with
  | .crema bay _ =>
    let d := bay / 64
    let first := !s.rbit (crmReg d Reg.CRM_ERR_FLAGS) 1
    let s := (s.bump (crmReg d Reg.CRM_UE_COUNT) 1).setFlag (crmReg d Reg.CRM_ERR_FLAGS) 1
    if first then
      (s.wr64 (crmReg d Reg.CRM_UE_ADDR) A).wr (crmReg d Reg.CRM_UE_INFO)
        (BitVec.ofNat 32 (bay % 64 * 4 + A % 32 / 8))
    else s
  | .lpddr c _ => s.chanUE c A
  | _ => s

/-- Count a corrected error met at address A; the correction leaves the data as it reads (R252, R259). -/
def State.memCE (s : State) (A : Nat) : State :=
  match s.place A with
  | .crema bay _ =>
    (s.bump (crmReg (bay / 64) Reg.CRM_CE_COUNT) 1).setFlag (crmReg (bay / 64) Reg.CRM_ERR_FLAGS) 0
  | .lpddr c _ => s.chanCE c
  | _ => s

/-- Set a flag of the block that holds address A: bit i of CRM_ERR_FLAGS, bit i of DRC_CH_ERR_FLAGS. -/
def State.memFlag (s : State) (A i : Nat) : State :=
  match s.place A with
  | .crema bay _ => s.setFlag (crmReg (bay / 64) Reg.CRM_ERR_FLAGS) i
  | .lpddr c _ => s.chanFlag c i
  | _ => s

/-- The unit of address A becomes uncorrectable. DEDUCED: log 67. -/
def State.mark (s : State) (A : Nat) : State :=
  { s with poison := tput s.poison (A / unitSize A * unitSize A) (if A < 0x10000000000 then 0 else A % 32 / 8) }

/-! ### Accesses -/

/-- The bank key of a physical address of a channel (R257). -/
def bankKey (c p : Nat) : Nat := c * 32 + p / 2 ^ 33 % 2 * 16 + p / 2 ^ 8 % 4 * 4 + p / 2 ^ 10 % 4

/-- The row of a physical address (R257). -/
def rowOf (p : Nat) : Nat := p / 2 ^ 15 % 2 ^ 18

/-- The bank queue of a device address, and the row and chunk there; none outside LPDDR5X. -/
def State.bankOf (s : State) (A : Nat) : Option (Nat × Nat × Nat) :=
  match s.place A with
  | .lpddr c d => some (bankKey c (dataPhys d), rowOf (dataPhys d), dataPhys d / 256)
  | _ => none

/-- The physical address of the check bytes of the chunk at data address d: in the rank opposite the data (R259). -/
def checkPhys (d : Nat) : Nat :=
  if d < 0x1F0000000 then 0x3F0000000 + 8 * (d / 256) else 0x1F0000000 + 8 * ((d - 0x1F0000000) / 256)

/-- A rank wakes: the cycles it has been powered down, counted by the channel, join DRC_PD_CYCLES (R260).
DESIGN CHOICE: log 116. -/
def State.wakeRank (s : State) (c rank next : Nat) : State :=
  let s := if s.fld (drcCh c Reg.DRC_CH_STATE) (25 + 2 * rank) (24 + 2 * rank) = 1 then
      ({ s with free := s.free + 1 } : State).bump64 (drcCh c Reg.DRC_PD_CYCLES) (Config.elapsed s.free)
    else s
  s.wrFld (drcCh c Reg.DRC_CH_STATE) (25 + 2 * rank) (24 + 2 * rank) next

/-- An access to physical address p of a channel: its rank wakes (R260), its row opens or is hit (R258). -/
def State.touchRow (s : State) (c p : Nat) : State :=
  let b := bankKey c p
  let s := s.wakeRank c (p / 2 ^ 33 % 2) 0
  let hit := tget (fun _ => 0) s.openRows b == rowOf p + 1
  ({ s with openRows := tput s.openRows b (rowOf p + 1) } : State).bump64 (drcCh c (if hit then Reg.DRC_ROW_HITS else Reg.DRC_ACTS)) 1

/-- Check chunks a channel's check cache of 64 KiB holds: 256 of them (R259). -/
def checkSlots : Nat := 256

/-- The check chunk of an access is looked up in the cache of its channel: a miss is counted and reads the chunk from the
other rank; of a full cache, the chunk that the access names leaves, or the one loaded first, and is written back where a
write has changed it (R259). A write changes the chunk. DESIGN CHOICE: log 115. -/
def State.useCheck (s : State) (c d : Nat) (write : Bool) (m : MemFind) : State :=
  let k := checkPhys d / 256
  let held := tget (fun _ => []) s.checks c
  match held.find? (fun x => x.1 == k) with
  | some x =>
    { s with checks := tput s.checks c (held.map (fun y => if y.1 == k then (k, x.2 || write) else y)) }
  | none =>
    let s := (s.bump (drcCh c Reg.DRC_CHK_MISS) 1).touchRow c (k * 256)
    if held.length < checkSlots then { s with checks := tput s.checks c (held ++ [(k, write)]) }
    else
      let out := ((m.evict.bind (fun v => held.find? (fun x => x.1 == v))).orElse (fun _ => held.head?)).getD (0, false)
      let s := if out.2 then s.touchRow c (out.1 * 256) else s
      { s with checks := tput s.checks c (held.filter (fun x => x.1 != out.1) ++ [(k, write)]) }

/-- What an access does in its channel beside the data: its row (R258), its check chunk (R259), link ECC corrections counted
(R259), and the longest Ristretto service kept (R265). -/
def State.touch (s : State) (A : Nat) (write : Bool) (m : MemFind) : State :=
  match s.place A with
  | .lpddr c d =>
    let s := (s.touchRow c (dataPhys d)).useCheck c d write m
    let s := s.bump (drcCh c Reg.DRC_LINK_CE_COUNT) m.link
    s.wrMax (drcReg (c / 16) Reg.DRC_RIS_MAX_NS) m.ns
  | _ => s

/-- Count n bytes read or written at address A (R267, R268). DEDUCED: log 69. -/
def State.moved (s : State) (A n : Nat) (write : Bool) : State :=
  match s.place A with
  | .crema bay _ => s.bump64 (crmReg (bay / 64) (if write then Reg.CRM_BYTES_WR else Reg.CRM_BYTES_RD)) n
  | .lpddr c _ => s.bump64 (drcCh c (if write then Reg.DRC_WR_BYTES else Reg.DRC_RD_BYTES)) n
  | _ => s

/-- Statuses of device memory (the status table): uncorrectable error, hole, closed tier. -/
def stUE : Nat := 0x20
def stHole : Nat := 0x21
def stClosed : Nat := 0x22

/-- The status of an access that reaches no memory, counted as R249 and R261 lay down; `home` is the requester's home
edge die. None where the address names memory. DEDUCED: log 69. -/
def State.noMemory (s : State) (home A : Nat) : Option (Nat × State) :=
  match s.place A with
  | .hole => some (stHole, (s.bump (drcReg home Reg.DRC_HOLE_COUNT) 1).setFlag (drcReg home Reg.DRC_ERR_FLAGS) 1)
  | .closed => some (stClosed, (s.bump (drcReg home Reg.DRC_CLOSED_COUNT) 1).setFlag (drcReg home Reg.DRC_ERR_FLAGS) 2)
  | .removed bay =>
    some (stHole, (s.bump (crmReg (bay / 64) Reg.CRM_HOLE_COUNT) 1).setFlag (crmReg (bay / 64) Reg.CRM_ERR_FLAGS) 3)
  | _ => none

/-- The outcome of a memory access: a status other than 0 with the address it was met at, or data. -/
structure MemAns where
  status : Nat
  addr : Nat
  data : List Byte
  deriving DecidableEq, Repr

/-- The unit of a finding. -/
def unitOfFind (e : Ecc) : Nat := e.place / unitSize e.place * unitSize e.place

/-- The addresses of uncorrectable errors that a check of units finds, one of each unit: its 64-bit lane in crema, its chunk
in LPDDR5X. DEDUCED: log 67. -/
def State.badUnits (s : State) (us : List Nat) (es : List Ecc) : List Nat :=
  us.filterMap (fun u =>
    if s.poisoned u then some (u + 8 * s.poisonLane u)
    else (es.find? (fun e => e.bad && unitOfFind e == u)).map (fun e =>
      if e.place < 0x10000000000 then u else e.place / 8 * 8))

/-- The units in which a check finds a corrected error alone, as addresses in them. -/
def State.fixedUnits (s : State) (us : List Nat) (es : List Ecc) : List Nat :=
  us.filter (fun u => !s.poisoned u && !(es.any (fun e => e.bad && unitOfFind e == u)) && es.any (fun e => !e.bad && unitOfFind e == u))

/-- Mark, count and record an uncorrectable error. -/
def State.meetUE (s : State) (A : Nat) : State := (s.mark A).memUE A

/-- Every error that a check of units finds is counted and recorded (R252, R259, R264). -/
def State.meetErrors (s : State) (us : List Nat) (es : List Ecc) : State :=
  let bad := s.badUnits us es
  let ok := s.fixedUnits us es
  (s.each bad State.meetUE).each ok State.memCE

/-- Read n bytes at device address A (R249, R252, R264). -/
def State.memRead (s : State) (home A n : Nat) (m : MemFind) : MemAns × State :=
  match s.noMemory home A with
  | some (st, s) => (⟨st, A, []⟩, s)
  | none =>
    let s := s.touch A false m
    let us := unitsOf A n
    let t := s.meetErrors us m.ecc
    match s.badUnits us m.ecc with
    | a :: _ => (⟨stUE, a, []⟩, t)
    | [] => (⟨0, A, s.readBytes A n⟩, t.moved A n false)

/-- The units a write covers whole, and those it covers in part. DEDUCED: log 68. -/
def wholeUnits (A n : Nat) : List Nat :=
  (unitsOf A n).filter (fun u => decide (A ≤ u ∧ u + unitSize A ≤ A + n))
/-- DEDUCED: log 68. -/
def partUnits (A n : Nat) : List Nat :=
  (unitsOf A n).filter (fun u => !decide (A ≤ u ∧ u + unitSize A ≤ A + n))

/-- Whole units are replaced with good data, outside the timing of their channel. -/
def State.storeWhole (s : State) (A : Nat) (bs : List Byte) : State :=
  let t := { s with poison := s.poison.filter (fun e => !(wholeUnits A bs.length).contains e.1) }
  (t.moved A bs.length true).writeBytes A bs

/-- Write bytes at device address A: whole units are replaced, a unit written in part is merged unless its own data
cannot be corrected, when the write is refused (R253, R258, R264). DEDUCED: log 68. -/
def State.memWrite (s : State) (home A : Nat) (bs : List Byte) (m : MemFind) : MemAns × State :=
  match s.noMemory home A with
  | some (st, s) => (⟨st, A, []⟩, s)
  | none =>
    let n := bs.length
    let s := s.touch A true m
    let part := partUnits A n
    let t := s.meetErrors part m.ecc
    match s.badUnits part m.ecc with
    | a :: _ => (⟨stUE, a, []⟩, t.memFlag a 2)
    | [] =>
      (⟨0, A, []⟩, t.storeWhole A bs)

/-- Read, change and write n bytes as one access, answering the old bytes (R253). -/
def State.memUpdate (s : State) (home A n : Nat) (f : List Byte → List Byte) (m : MemFind) : MemAns × State :=
  match s.noMemory home A with
  | some (st, s) => (⟨st, A, []⟩, s)
  | none =>
    let s := s.touch A true m
    let us := unitsOf A n
    let t := s.meetErrors us m.ecc
    match s.badUnits us m.ecc with
    | a :: _ => (⟨stUE, a, []⟩, t.memFlag a 2)
    | [] =>
      let old := t.readBytes A n
      (⟨0, A, old⟩, (t.moved A n true).writeBytes A (f old))

/-! ### Atomics (R281) -/

/-- Width of an atomic operation in bytes; none where the code is reserved. -/
def atomicWidth (op : Nat) : Option Nat :=
  match op with
  | 0 => some 4 | 1 => some 8 | 2 => some 8 | 3 => some 4 | 4 => some 8 | 5 => some 4 | 6 => some 8 | 7 => some 8 | 8 => some 8
  | _ => none

/-- The new value of an atomic from the old bytes and the payload. -/
def atomicNew (op w : Nat) (old payload : List Byte) : List Byte :=
  let x := bytesNat old
  let y := bytesNat (payload.take w)
  let sx := signed (8 * w) x
  let sy := signed (8 * w) y
  natBytes w (match op with
    | 0 => x + y
    | 1 => x + y
    | 2 => if x = y then bytesNat ((payload.drop w).take w) else x
    | 3 => if sy < sx then y else x
    | 4 => if sy < sx then y else x
    | 5 => if sx < sy then y else x
    | 6 => if sx < sy then y else x
    | 7 => min x y
    | _ => max x y)

/-- The home edge die of a bay (R271). DEDUCED: log 71. -/
def homeOfBay (b : Nat) : Nat := quarterOfBay b % 4

end Sys2Proof.Machine
end

