-- ==== Sys2Proof/Machine/PlanOps.lean ====
section
/-! DEFINITION. The floor plan: which units the boot has, its counts, and what a change of it does (R364 to R372). -/

namespace Sys2Proof.Machine

/-! ### Units (R227, R370) -/

/-- A quarter is under a commanded test (R373). -/
def State.testing (s : State) (q : Nat) : Bool :=
  match s.test with
  | some t => if t.die then q / 4 == t.target else q == t.target
  | none => false

/-- An edge die answers on the sideband ring (R364). -/
def State.edgeReach (s : State) (e : Nat) : Bool := !s.plan.unreach.contains (16 + e)

/-- Last phase of bring-up that has ended. -/
def State.bootPhase (s : State) : Nat := s.fld (regKey .tst Reg.TST_BOOT_PHASE) 2 0

/-- The domain of a compute die's window runs: the die answers and its network is up (R10). DEDUCED: log 17. -/
def State.dieLive (s : State) (d : Nat) : Bool := s.dieReach d && decide (2 ≤ s.bootPhase)

/-- The domain of an edge die's window runs (R10). DEDUCED: log 17. -/
def State.edgeLive (s : State) (e : Nat) : Bool := s.edgeReach e && decide (2 ≤ s.bootPhase)

/-- An access of function 0 to a register of an edge die's window: dropped and logged while its domain does not run (R10). -/
def State.edgeDo (s : State) (e off : Nat) (go : State → State) : Out :=
  s.bar0Do off (fun s => if s.edgeLive e then go s else s.logAccess 2 false off)

/-- The die controller of a quarter is good. -/
def State.ctrlOk (s : State) (q : Nat) : Bool := s.dieReach (q / 4) && !s.isBad 9 q

/-- A dead router stands in a row or a column of the quarter (R233). -/
def State.deadAcross (s : State) (q : Nat) : Bool :=
  s.plan.routers.any (fun e => e.2 == 2 &&
    (e.1 % 32 / 4 == q / 4 % 4 * 2 + q % 2 || e.1 / 32 / 4 == q / 16 * 2 + q / 2 % 2))

/-- A quarter is usable (R370). -/
def State.quarterOk (s : State) (q : Nat) : Bool := s.ctrlOk q && !s.deadAcross q

/-- A bay is usable: its quarter, its router and its own logic (R370). -/
def State.bayOk (s : State) (b : Nat) : Bool :=
  s.quarterOk (quarterOfBay b) && !s.routerOut (routerOfBay b) && !s.isBad 3 b

/-- A matrix tile, a vector tile is enabled. -/
def State.tileOk (s : State) (t : Nat) : Bool := s.bayOk (t / 8) && !s.isBad 1 t
def State.vecOk (s : State) (b : Nat) : Bool := s.bayOk b && !s.isBad 2 b

/-- A logic array is usable. -/
def State.logicOk (s : State) (d : Nat) : Bool := s.dieReach d && !s.isBad 10 d

/-- A lane is usable: a port lives with all four of its lanes (R370). -/
def State.laneOk (s : State) (l : Nat) : Bool :=
  s.edgeReach (l / 12) && (List.range 4).all (fun i => !s.isBad 7 (l / 4 * 4 + i))

/-- Usable rows of a bay's slice (R370). -/
def State.sliceRows (s : State) (b : Nat) : Nat :=
  if s.sliceRemoved b then 0
  else 1536 - (s.plan.defects.filter (fun d => d.unit / 2 ^ 28 == 6 && d.unit / 2 ^ 7 % 2 ^ 21 / 1536 == b)).length

def countWhere (n : Nat) (p : Nat → Bool) : Nat := ((List.range n).filter p).length
def State.mtxEnabled (s : State) : Nat := countWhere 8192 s.tileOk
def State.vecEnabled (s : State) : Nat := countWhere 1024 s.vecOk
def State.cremaRows (s : State) : Nat := (List.range 1024).foldl (fun a b => a + s.sliceRows b) 0

/-- Units removed with a router or a die: the tiles of their bays, and the routers, the controllers and the logic array, or the
lanes and the channels, of a die that did not answer (R364, R366, R367, R370). DEDUCED: log 100. -/
def State.removedUnits (s : State) : List Nat :=
  let fresh (kind i : Nat) : List Nat := if s.isBad kind i then [] else [unitEntry kind i]
  ((List.range 1024).filter (fun b => !s.dieReach (b / 64) || s.routerOut (routerOfBay b))).flatMap (fun b =>
    (List.range 8).flatMap (fun i => fresh 1 (b * 8 + i)) ++ fresh 2 b) ++
  ((List.range 16).filter (fun d => !s.dieReach d)).flatMap (fun d =>
    ((List.range 64).flatMap (fun b => if s.isBad 5 (routerOfBay (64 * d + b)) then [] else fresh 4 (routerOfBay (64 * d + b)))) ++
    (List.range 4).flatMap (fun k => fresh 9 (4 * d + k)) ++ fresh 10 d) ++
  ((List.range 4).filter (fun e => !s.edgeReach e)).flatMap (fun e =>
    (List.range 12).flatMap (fun i => fresh 7 (12 * e + i)) ++ (List.range 16).flatMap (fun i => fresh 8 (16 * e + i)))

/-! ### Variants and the degraded state (R1, R372) -/

/-- A variant's line in R1: matrix tiles, vector tiles, lanes, channels, crema rows, power in W. -/
structure Variant where
  mtx : Nat
  vec : Nat
  lanes : Nat
  chans : Nat
  rows : Nat
  watts : Nat

def variantOf : Nat → Variant
  | 0 => ⟨7936, 992, 48, 64, 1572864, 2400⟩
  | 1 => ⟨7936, 992, 48, 64, 1572864, 1800⟩
  | 2 => ⟨6144, 768, 36, 48, 1179648, 1900⟩
  | _ => ⟨4096, 512, 24, 32, 786432, 1150⟩

/-- The variant code held in fuses (R2). -/
def State.variant (s : State) : Nat := s.nv.variant.val

/-- The causes for which the module is degraded, coded as FPL_DEGRADED_CAUSE (R372). -/
def State.degradedCause (s : State) : Nat :=
  let v := variantOf s.variant
  (if s.mtxEnabled < v.mtx then 1 else 0) + (if s.vecEnabled < v.vec then 2 else 0) +
  (if countWhere 48 s.laneOk < v.lanes then 4 else 0) + (if s.usableChans.length < v.chans then 8 else 0) +
  (if s.cremaRows < v.rows then 16 else 0)

/-- Evaluate degraded (R372). -/
def State.evalDegraded (s : State) : State :=
  let c := s.degradedCause
  (s.wr (regKey .fpl Reg.FPL_DEGRADED_CAUSE) (BitVec.ofNat 32 c)).wrFld (regKey .fpl Reg.FPL_STATUS) 30 30
    (if c = 0 then 0 else 1)

/-- The ready point has passed (R319, R371). -/
def State.isFinal (s : State) : Bool := s.rbit (regKey .fpl Reg.FPL_STATUS) 31

/-- Entries of the defect list (R376): its capacity is 6,144. -/
def State.defectCount (s : State) : Nat := s.plan.defects.length + s.removedUnits.length

/-- A list beyond its capacity is flagged (R376). -/
def State.checkOverflow (s : State) : State :=
  if 6144 < s.defectCount then s.setFlag (regKey .fpl Reg.FPL_ERR_FLAGS) 3 else s

/-- The floor plan has changed after the ready point: generation increments (R371). -/
def State.planChanged (s : State) : State :=
  if s.isFinal then s.checkOverflow.wrFld (regKey .fpl Reg.FPL_STATUS) 23 16 (s.fld (regKey .fpl Reg.FPL_STATUS) 23 16 + 1)
  else s

/-- The records that the final floor plan shows follow storage: at the ready point and at the end of a commanded test (R371).
DEDUCED: log 100. -/
def State.showPlan (s : State) : State := { s with plan := { s.plan with field := s.nv.field, counts := s.nv.counts } }

/-- The counts of the channels are fixed when the tier opens (R371). DEDUCED: log 100. -/
def State.showChans (s : State) : State :=
  let chan (e : Nat × Nat) : Bool := e.1 / 2 ^ 28 == 8
  { s with plan := { s.plan with
      counts := (s.nv.counts.filter chan).foldl (fun t e => tput t e.1 e.2) (s.plan.counts.filter (fun e => !chan e)) } }

/-- The field bank, and a unit's count, as the floor plan shows them: fixed once it is final, a channel's once the tier is open
(R371). -/
def State.fieldShown (s : State) : List Nat := if s.isFinal then s.plan.field else s.nv.field
def State.countShown (s : State) (u : Nat) : Nat :=
  tget (fun _ => 0) (if s.isFinal ∧ (u / 2 ^ 28 ≠ 8 ∨ s.tierOpen) then s.plan.counts else s.nv.counts) u

/-- The fault log takes a finding: at once after the ready point, and at that point before it (R363). DEDUCED: log 100. -/
def State.note (s : State) (c : Nat) : State :=
  if s.isFinal then { s with nv := { s.nv with log := s.nv.log ++ [c] } }
  else { s with plan := { s.plan with noted := s.plan.noted ++ [c] } }

/-! ### Tests and fault counts (R367, R368) -/

/-- A unit stands in the field bank. -/
def State.inField (s : State) (u : Nat) : Bool := s.nv.field.contains u

/-- A unit's count takes a failure: up to 3 (R368, R369). -/
def State.countFail (s : State) (u : Nat) : State :=
  if s.inField u then s
  else { s with nv := { s.nv with counts := tput s.nv.counts u (min 3 (tget (fun _ => 0) s.nv.counts u + 1)) } }

/-- A unit's count returns to 0; a count that has reached 3 stands until the unit's entry is written (R368, R369).
DEDUCED: log 100. -/
def State.countPass (s : State) (u : Nat) : State :=
  if tget (fun _ => 0) s.nv.counts u = 3 then s else { s with nv := { s.nv with counts := terase s.nv.counts u } }

/-- A unit fails a test, and the fault log records it: a unit that fuses mark bad stays as it is (R367); another is bad for
the boot and noted for its count, at once after the ready point (R363, R368), once per boot (R373). DEDUCED: log 100. -/
def State.unitFail (s : State) (u : Nat) : State :=
  let s := s.note u
  if s.plan.defects.any (fun d => d.unit == u && d.source != 2) then s
  else
    let s := if s.isBad (u / 2 ^ 28) (u / 2 ^ 7 % 2 ^ 21) then s
      else { s with plan := { s.plan with defects := s.plan.defects ++ [⟨u, 2⟩] } }
    if s.plan.failed.contains u then s
    else
      let s := { s with plan := { s.plan with failed := s.plan.failed ++ [u] } }
      if s.isFinal then s.countFail u else s

/-- A channel passes its check or its training (R368). -/
def State.unitPass (s : State) (u : Nat) : State :=
  if s.isFinal then s.countPass u
  else { s with plan := { s.plan with passed := s.plan.passed ++ [u] } }

/-- A unit lies behind a router that is out or on a die that did not answer (R366). -/
def State.behindFailure (s : State) (u : Nat) : Bool :=
  let i := u / 2 ^ 7 % 2 ^ 21
  match u / 2 ^ 28 with
  | 1 => !s.dieReach (i / 512) || s.routerOut (routerOfBay (i / 8))
  | 2 => !s.dieReach (i / 64) || s.routerOut (routerOfBay i)
  | 3 => !s.dieReach (i / 64) || s.routerOut (routerOfBay i)
  | 4 => !s.dieReach (bayOfRouter i / 64)
  | 5 => !s.dieReach (bayOfRouter i / 64)
  | 6 => !s.dieReach (i / 1536 / 64) || s.routerOut (routerOfBay (i / 1536))
  | 7 => !s.edgeReach (i / 12)
  | 9 => !s.dieReach (i / 4)
  | 10 => !s.dieReach i
  | _ => true

/-- A unit was tested in this boot and passed, unless it failed (R361, R366, R368): a channel by its check or training. -/
def State.wasTested (s : State) (u : Nat) : Bool :=
  if u / 2 ^ 28 = 8 then s.plan.passed.contains u
  else !s.behindFailure u && !(u / 2 ^ 28 == 6 && s.plan.slices.contains (u / 2 ^ 7 % 2 ^ 21 / 1536))

/-- Boot counts are written at the ready point (R363, R368): a failure adds 1, a pass sets 0, a unit that was not tested is
left as it stood. -/
def State.writeCounts (s : State) : State :=
  let s := s.each (s.nv.counts.map (·.1)) (fun s u =>
    if s.plan.failed.contains u || !s.wasTested u then s else s.countPass u)
  s.each s.plan.failed (fun s u => s.countFail u)

/-! ### The opening of the LPDDR5X tier (R261) -/

/-- No channel is pending, training or initialising. -/
def State.chansSettled (s : State) : Bool :=
  (List.range 64).all (fun c => !(decide (2 ≤ s.chanState c) && decide (s.chanState c ≤ 4)))

/-- The tier opens once every channel is settled: C and the map are fixed, memory behind it is the zeros that
initialisation wrote, tier_open sets, the floor plan changes, degraded is evaluated and function 0 is told (R261, R334, R371,
R372). DEDUCED: log 56. -/
def State.tierCheck (s : State) : State :=
  if s.tierOpen || !s.chansSettled then s
  else
    let C := s.usableChans.length
    let L := s.usableChans
    let old := s.poison.filter (fun e => decide (2 ^ 44 ≤ e.1))
    let s := { s with mem := s.mem.filter (fun e => decide (0x10000000000 ≤ e.1))
                      poison := s.poison.filter (fun e => decide (0x10000000000 ≤ e.1) && decide (e.1 < 2 ^ 44)) }
    -- what the scrubber found in a ready channel stands at the device address that the chunk now has
    let s : State := { s with poison := old.foldl (fun t e =>
      let c := (e.1 - 2 ^ 44) / 2 ^ 26
      if L.contains c then tput t ((e.1 % 2 ^ 26 * C + L.findIdx (· == c)) * 256) 0 else t) s.poison }
    let s := s.each (List.range 4) (fun s e => s.wr (drcReg e Reg.DRC_STATUS) (BitVec.ofNat 32 (2 ^ 31 + C * 2 ^ 16)))
    let s := s.wrFld (regKey .hif Reg.HIF_STATUS) 29 29 0
    let s := if s.isFinal then s.showChans.planChanged.evalDegraded else s
    s.event 0 5 C 0

/-- The registers that hold a channel's delays, and what they hold (R262, R268). -/
def delayRegs : List Nat :=
  [Reg.DRC_DLY_CA, Reg.DRC_DLY_WCK, Reg.DRC_DLY_RD, Reg.DRC_DLY_RD + 4, Reg.DRC_DLY_WR, Reg.DRC_DLY_WR + 4, Reg.DRC_DESKEW_RD,
   Reg.DRC_DESKEW_RD + 4, Reg.DRC_DESKEW_WR, Reg.DRC_DESKEW_WR + 4, Reg.DRC_VREF]
def State.delaysOf (s : State) (c : Nat) : List Word := delayRegs.map (fun o => s.rd (drcCh c o))

/-- Firmware writes a channel's stored delays into its registers, where they are there and pass their CRC (R262). DEDUCED: log 70. -/
def State.loadDelays (s : State) (c : Nat) : State :=
  match s.nv.delays.find? (fun e => e.1 == c) with
  | some (_, x) => if x.good then s.each (delayRegs.zip x.words) (fun s y => s.wr (drcCh c y.1) y.2) else s
  | none => s

/-- A channel moves to a state. -/
def State.setChanState (s : State) (c st : Nat) : State := s.wrFld (drcCh c Reg.DRC_CH_STATE) 31 28 st

end Sys2Proof.Machine
end

