-- ==== Sys2Proof/Machine/NocOps.lean ====
section
/-! DEFINITION. The tile network: places, paths, isolation, requests, bank queues, and accesses and
messages that are one step (R227 to R245, R258). -/

namespace Sys2Proof.Machine

/-- A register of a router's NOC block. -/
def nocReg (r off : Nat) : Nat := regKey (.noc (bayOfRouter r)) off

/-! ### Paths (R227, R232, R233) -/

/-- Coordinates of a router. -/
def rx (r : Nat) : Nat := r % 32
def ry (r : Nat) : Nat := r / 32

/-- The router at which station s of edge e meets the mesh. -/
def stationRouter (e s : Nat) : Nat :=
  match e with
  | 0 => 31 * 32 + s
  | 1 => s * 32 + 31
  | 2 => s
  | _ => s * 32

/-- Station index s of edge e has a dead router in its column or row. -/
def State.stationDead (s : State) (e i : Nat) : Bool :=
  s.plan.routers.any (fun x => x.2 == 2 && (if e % 2 = 0 then rx x.1 == i else ry x.1 == i))

/-- The station index of a route between two edge dies: from i on, the first that meets no dead router at either end. -/
def State.edgeIndex (s : State) (a b : Nat) : Nat → Nat → Nat
  | 0, i => i
  | fuel + 1, i => if s.stationDead a i || s.stationDead b i then s.edgeIndex a b fuel ((i + 1) % 32) else i

/-- The routers at which a request enters and leaves the mesh. -/
def State.nocEnds (s : State) (p : NocPacket) : Nat × Nat :=
  let st (e r : Nat) : Nat := stationRouter e (if e % 2 = 0 then rx r else ry r)
  match p.src, p.dst with
  | .router a, .router b => (a, b)
  | .router a, .edge e => (a, st e a)
  | .edge e, .router b => (st e b, b)
  | .edge e, .edge f =>
    let i := s.edgeIndex e f 32 (p.addr / 256 % 32)
    (stationRouter e i, stationRouter f i)

/-- Numbers from a to b in order, both included, up or down. -/
def walkTo (a b : Nat) : List Nat :=
  if a ≤ b then (List.range (b - a + 1)).map (a + ·) else (List.range (a - b + 1)).map (a - ·)

/-- The routers of a dimension-ordered path, X first or Y first. -/
def pathOf (a b : Nat) (yx : Bool) : List Nat :=
  if yx then
    (walkTo (ry a) (ry b)).map (fun y => y * 32 + rx a) ++ ((walkTo (rx a) (rx b)).drop 1).map (fun x => ry b * 32 + x)
  else
    (walkTo (rx a) (rx b)).map (fun x => ry a * 32 + x) ++ ((walkTo (ry a) (ry b)).drop 1).map (fun y => y * 32 + rx b)

/-- A path is usable: no dead router on it, and no bypassed router at its turn (R233). DEDUCED: log 73. -/
def State.pathUsable (s : State) (a b : Nat) (yx : Bool) : Bool :=
  let turn := if yx then ry b * 32 + rx a else ry a * 32 + rx b
  (rx a == rx b || ry a == ry b || s.routerMode turn == 0) && (pathOf a b yx).all (fun r => s.routerMode r != 2)

/-- A crossing by the router and direction on its western or southern side: 0 east, 1 north; 2 west and 3 south are links
of the border to a station (R234). -/
def crossKey (r dir : Nat) : Nat :=
  match dir with
  | 2 => if rx r = 0 then 4 * r + 2 else 4 * (r - 1)
  | 3 => if ry r = 0 then 4 * r + 3 else 4 * (r - 32) + 1
  | d => 4 * r + d

/-- A link crosses between dies, or between the mesh and a station. -/
def isCrossing (r dir : Nat) : Bool :=
  match dir with
  | 0 => rx r % 8 == 7 | 1 => ry r % 8 == 7 | 2 => rx r % 8 == 0 | _ => ry r % 8 == 0

/-- The links of a list of routers. -/
def linksOf : List Nat → List Nat
  | a :: b :: rs =>
    (if b = a + 1 then crossKey a 0 else if a = b + 1 then crossKey a 2 else if a < b then crossKey a 1 else crossKey a 3) ::
      linksOf (b :: rs)
  | _ => []

/-- The direction out of the mesh to an edge die. -/
def edgeDir (e : Nat) : Nat := match e with | 0 => 1 | 1 => 0 | 2 => 3 | _ => 2

/-- Every link of a request's path. -/
def State.nocLinks (s : State) (p : NocPacket) (yx : Bool) : List Nat :=
  let x := s.nocEnds p
  (match p.src with | .edge e => [crossKey x.1 (edgeDir e)] | _ => []) ++ linksOf (pathOf x.1 x.2 yx) ++
  (match p.dst with | .edge e => [crossKey x.2 (edgeDir e)] | _ => [])

/-- The key at which the sender of a crossing's flits counts failed replays: router r towards dir, or the station there. -/
def senderKey (r dir : Nat) (station : Bool) : Nat := 8192 + 8 * r + 2 * dir + (if station then 1 else 0)

/-- A path crosses a crossing that is down (R234). -/
def State.linkDownOn (s : State) (ks : List Nat) : Bool := ks.any (fun k => tget (fun _ => 0) s.crossings k == 1)

/-! ### Endpoints (R229, R239, R240) -/

/-- The lowest-numbered bay among some whose router is not in bypass. -/
def State.firstRouted (s : State) (bs : List Nat) : Option Nat :=
  (bs.filter (fun b => s.routerMode (routerOfBay b) != 1)).foldl (fun a b => match a with
    | none => some b | some c => some (min b c)) none

/-- Die controller k of a quarter, or the die window, sits at a router (R229). -/
def State.hasController (s : State) (b : Nat) : Bool := s.firstRouted (baysOfQuarter (quarterOfBay b)) == some b
def State.hasWindow (s : State) (b : Nat) : Bool :=
  s.firstRouted ((List.range 64).map (fun i => b / 64 * 64 + i)) == some b

/-- An endpoint of a bay's router is present. -/
def State.epPresent (s : State) (b ep : Nat) : Bool :=
  if ep = 0 then decide (0 < s.sliceRows b)
  else if ep ≤ 2 then s.bayOk b
  else if ep = 3 then s.vecOk b
  else if ep ≤ 11 then s.tileOk (b * 8 + (ep - 4))
  else if ep = 12 then s.dieReach (b / 64)
  else if ep = 13 then s.hasController b && s.ctrlOk (quarterOfBay b)
  else ep == 14 && s.hasWindow b

/-- An endpoint of an edge die is present (R229). -/
def State.edgeEpPresent (s : State) (e ep : Nat) : Bool :=
  s.edgeReach e && (decide (ep ≤ 3) || (ep == 4 && e == 0) || (ep == 12 && e == 3))

/-- A quarter is power-gated (R239). -/
def State.gated (s : State) (q : Nat) : Bool := s.rbit (regKey .pwr Reg.PWR_QTR_GATED + 4 * (q / 32)) (q % 32)

/-- A die is under a commanded test: its controllers and configuration controller too (R373). -/
def State.dieTesting (s : State) (d : Nat) : Bool :=
  match s.test with | some t => t.die && t.target == d | none => false

/-- A router isolates an endpoint of its bay: by a write or the dead limit, by its quarter's power gate or its partition's
reset (R239, R419). The NOC block of the router itself answers through gate and reset. DEDUCED: log 72. -/
def State.epCut (s : State) (b ep : Nat) : Bool :=
  s.rbit (nocReg (routerOfBay b) Reg.NOC_ISOLATED) ep ||
  (decide (1 ≤ ep) && decide (ep ≤ 11) && s.gated (quarterOfBay b)) ||
  (decide (ep ≤ 11) && s.resets.any (fun e => bitOf e.2 (quarterOfBay b)))

/-- An endpoint of a bay answers as isolated: it is isolated, not present, or under test (R229, R240, R373).
DEDUCED: log 72. -/
def State.epIsolated (s : State) (b ep : Nat) : Bool :=
  s.epCut b ep || !s.epPresent b ep || (decide (ep ≤ 11) && s.testing (quarterOfBay b)) ||
  (decide (13 ≤ ep) && s.dieTesting (b / 64))

/-- A packet's target does not take requests. -/
def State.dstIsolated (s : State) (p : NocPacket) : Bool :=
  match p.dst with
  | .router r => s.epIsolated (bayOfRouter r) p.dstEp
  | .edge e => !s.edgeEpPresent e p.dstEp

/-! ### Requests -/

def State.nocAt (s : State) (n : Nat) : Option NocReq := (s.noc.find? (fun e => e.1 == n)).map (·.2)
def State.setNoc (s : State) (n : Nat) (v : NocReq) : State := { s with noc := tput s.noc n v }

/-- Count at the source router, where the initiator has one. -/
def State.srcBump (s : State) (p : NocPacket) (off flag : Nat) : State :=
  match p.src with
  | .router r => (s.bump (nocReg r off) 1).setFlag (nocReg r Reg.NOC_ERR_FLAGS) flag
  | .edge _ => s

/-- The statistics block of an initiator and class; none where none is kept, as for a controller where there is none (R245,
R247). -/
def State.statBlock (s : State) (p : NocPacket) (cls : Nat) : Option Nat :=
  match p.src with
  | .edge _ => none
  | .router r =>
    let i := match p.srcEp.val with
      | 1 => some 0 | 2 => some 1 | 3 => some 2
      | 13 => if s.hasController (bayOfRouter r) then some 3 else none
      | _ => none
    i.map (fun i => nocReg r (Reg.NOC_STAT_REQ + 0x60 * (4 * i + cls)))

/-- The domain of an initiator: its die, 16 + e for an edge die, 20 for Ryhal (R343). -/
def placeDomain (src : NocPlace) (ep : Nat) : Nat :=
  match src with
  | .router r => bayOfRouter r / 64
  | .edge e => if e.val = 3 ∧ ep = 12 then 20 else 16 + e
def domainOf (p : NocPacket) : Nat := placeDomain p.src p.srcEp

/-- Border coordinates of a place (R227). -/
def State.placeXY (s : State) (p : NocPacket) (dst : Bool) : Nat × Nat :=
  let x := s.nocEnds p
  let at_ (pl : NocPlace) (r : Nat) : Nat × Nat := match pl with
    | .router _ => (rx r, ry r)
    | .edge e => match e.val with | 0 => (rx r, 32) | 1 => (32, ry r) | 2 => (rx r, 63) | _ => (63, ry r)
  if dst then at_ p.dst x.2 else at_ p.src x.1

/-- A valid reservation of a set covers the packet: its initiator, and its target inside the rectangle (R237). -/
def State.reserved (s : State) (set : Nat) (p : NocPacket) : Bool :=
  let a := s.placeXY p false
  let d := s.placeXY p true
  (List.range 4096).any (fun i =>
    let k := setKey set (0x10000 + 16 * i)
    s.rbit k 14 && s.fld k 31 26 == a.1 && s.fld k 25 20 == a.2 && s.fld k 19 15 == p.srcEp.val &&
      decide (s.fld (k + 4) 31 26 ≤ d.1) && decide (d.1 ≤ s.fld (k + 4) 19 14) &&
      decide (s.fld (k + 4) 25 20 ≤ d.2) && decide (d.2 ≤ s.fld (k + 4) 13 8))

/-- Bays a multicast names (R154). DEDUCED: log 75. -/
def multicastBays (payload : List Byte) : List Nat :=
  let dm := bytesNat (payload.take 4) / 65536
  let bm := bytesNat ((payload.drop 4).take 8)
  (List.range 16).flatMap (fun d => if bitOf dm d then
    ((List.range 64).filter (fun b => bitOf bm b)).map (fun b => d * 64 + b) else [])

/-- The target code of a multicast (R154), and the endpoint of a router that takes it (R229). -/
def multicastTarget (payload : List Byte) : Nat := bitsOf (bytesNat (payload.take 4)) 15 12
def multicastEp (payload : List Byte) : Nat := if multicastTarget payload < 2 then 1 else 3

/-- Requests outstanding at a router with a set tag, those that a home edge keeps among them (R242). -/
def State.setOutstanding (s : State) (r set : Nat) : Nat :=
  let here (p : NocPlace) : Bool := match p with | .router x => x.val == r | _ => false
  (s.noc.filter (fun e => !e.2.gone && !e.2.waiting && e.2.set == set && here e.2.pkt.src)).length +
  (s.home.filter (fun e => match e.2 with
    | .req q v _ none => v == set && here q.src
    | .fence src _ _ _ _ _ v none => v == set && here src
    | _ => false)).length

/-- An answer of the network to a request: the status 0x23. A request that its router absorbs is counted, one that it had
already delivered is not (R240). DEDUCED: log 72. -/
def State.absorb (s : State) (n : Nat) (v : NocReq) : State :=
  let s := match v.pkt.dst with
    | .router r => if v.delivered then s else s.bump (nocReg r Reg.NOC_ABSORBED) 1
    | .edge _ => s
  s.setNoc n { v with answer := some (0x23, []) }

/-- Answer every unanswered request to an endpoint of a bay that has become isolated (R240). -/
def State.absorbAll (s : State) (b ep : Nat) : State :=
  s.each (s.noc.filter (fun e => e.2.answer.isNone && !e.2.waiting &&
    e.2.pkt.dst == .router (Fin.ofNat 1024 (routerOfBay b)) &&
    e.2.pkt.dstEp.val == ep && e.2.pkt.type.val != 4)) (fun s e => s.absorb e.1 e.2)

/-- The class a request travels in, and whether it counts as demoted (R236, R237, R243). DEDUCED: log 77. -/
def State.travelClass (s : State) (set : Nat) (p : NocPacket) : Nat × Bool :=
  if p.type.val = 4 then (if p.cls.val = 2 then (2, false) else (1, false))
  else if p.cls.val = 0 then (if s.reserved set p then (0, false) else (1, true))
  else (p.cls, false)

/-- A place is a router of the mesh; a station is not (R227). DEDUCED: log 73. -/
def isMesh : NocPlace → Bool
  | .router _ => true
  | .edge _ => false

/-- The stations of a place are used: those of an edge die that did not answer are not (R364). -/
def State.sideUp (s : State) (p : NocPlace) : Bool := match p with | .router _ => true | .edge e => s.edgeReach e

/-- The answer a source gives a request it does not inject: a reserved type, an unreachable target, or a crossing on its
path that is down (R231, R233, R234); and whether NOC_UNREACHABLE counts it. `yx` is the path set taken. A multicast's copies
are answered one by one (R243). -/
def State.sourceAnswer (s : State) (p : NocPacket) (a b : Nat) (yx usable : Bool) : Option (Nat × Bool) :=
  if decide (4 < p.type.val) then some (0xF1, true)
  else if p.type.val = 4 then none
  else if !usable || (isMesh p.src && s.routerMode a != 0) || (isMesh p.dst && s.routerMode b != 0) || !s.sideUp p.src ||
      !s.sideUp p.dst then some (0x23, true)
  else if s.linkDownOn (s.nocLinks p yx) then some (0x23, false)
  else none

/-! ### Issue and statistics (R236, R238, R242, R245) -/

/-- Ristretto requests of an initiator endpoint that are outstanding (R236). -/
def State.risOutstanding (s : State) (p : NocPacket) : Nat :=
  (s.noc.filter (fun e => !e.2.gone && !e.2.waiting && e.2.cls == 0 && e.2.pkt.src == p.src &&
    e.2.pkt.srcEp == p.srcEp)).length

/-- The set tag of request n: that of its initiator's domain as it is injected (R242); a request that a window has let pass
keeps the tag of its fabric packet (R273). -/
def State.tagSet (s : State) (n : Nat) (p : NocPacket) : Nat :=
  match s.flights.find? (fun f => f.noc == n) with
  | some f => f.set
  | none => s.domainSet (domainOf p)

/-- Every link of the way that a response takes (R232, R234). -/
def State.answerLinks (s : State) (p : NocPacket) (yx : Bool) : List Nat :=
  let x := s.nocEnds p
  (match p.dst with | .edge e => [crossKey x.2 (edgeDir e)] | _ => []) ++ linksOf (pathOf x.2 x.1 yx) ++
  (match p.src with | .edge e => [crossKey x.1 (edgeDir e)] | _ => [])

/-- What a target's answer becomes on its way: a crossing that is down answers it with a memory-class status (R234).
DEDUCED: log 73. -/
def State.answerMeets (s : State) (p : NocPacket) (yx : Bool) (status : Nat) (data : List Byte) : Nat × List Byte :=
  if decide (p.type.val ≤ 3) && s.linkDownOn (s.answerLinks p yx) then (0x23, []) else (status, data)

/-- A request is issued under a set (R231 to R233, R236, R242, R245): what the source makes of it, and what it counts. -/
def State.nocIssue (s : State) (set : Nat) (p : NocPacket) (owner : NocOwner) (gaddr : Option Nat) : NocReq × State :=
  let c := s.travelClass set p
  let x := s.nocEnds p
  let xy := s.pathUsable x.1 x.2 false
  let yx := !xy
  let ans := s.sourceAnswer p x.1 x.2 yx (xy || s.pathUsable x.1 x.2 true)
  let s := if c.2 then s.srcBump p Reg.NOC_RIS_DEMOTED 0 else s
  let s := match ans with | some (_, true) => s.srcBump p Reg.NOC_UNREACHABLE 5 | _ => s
  let s := match s.statBlock p c.1 with
    | some k => (s.bump64 k 1).bump64 (k + 8) p.payload.length
    | none => s
  ({ pkt := p, owner := owner, gaddr := gaddr, waiting := false, cls := c.1, set := set, yx := yx, delivered := false
     answer := ans.map (fun a => (a.1, [])), failAddr := p.addr
     targets := if p.type.val = 4 then multicastBays p.payload else [], gone := false }, s)

/-- A Ristretto request of an initiator that has 32 outstanding waits at its injection port (R236). -/
def State.mustWait (s : State) (set : Nat) (p : NocPacket) : Bool :=
  (s.travelClass set p).1 == 0 && decide (32 ≤ s.risOutstanding p)

/-- A request is handed to its injection port: its number, and the state with it issued or waiting (R236, R238). -/
def State.nocSubmit (s : State) (p : NocPacket) (owner : NocOwner) (gaddr : Option Nat) : Nat × State :=
  let n := s.nextNoc
  let s := { s with nextNoc := n + 1 }
  let set := s.tagSet n p
  if s.mustWait set p then
    (n, s.setNoc n { pkt := p, owner := owner, gaddr := gaddr, waiting := true, cls := 0, set := 0, yx := false
                     delivered := false, answer := none, failAddr := p.addr, targets := [], gone := false })
  else
    let v := s.nocIssue set p owner gaddr
    (n, v.2.setNoc n v.1)

/-- Hand an answer to the stream channel whose request or table read a packet carries. -/
def State.toOwner (s : State) (n : Nat) (o : NocOwner) (status addr : Nat) (data : List Byte) : State :=
  match o with
  | .bare => s
  | .stream b c id =>
    let ch := s.chanAt b c
    s.setChan b c { ch with outstanding := ch.outstanding.map (fun (r : Req) =>
      if r.id == id && r.net == some n then { r with back := some (status, addr, data) } else r) }
  | .walk b c =>
    let ch := s.chanAt b c
    s.setChan b c { ch with walk := ch.walk.map (fun (w : Walk) =>
      if w.net == some n then { w with back := some (status, addr, data) } else w) }

/-- The oldest waiting request of an initiator is issued where its limit allows (R236). -/
def State.nocWake (s : State) (p : NocPacket) : State :=
  match s.noc.find? (fun e => e.2.waiting && e.2.pkt.src == p.src && e.2.pkt.srcEp == p.srcEp) with
  | none => s
  | some (n, v) =>
    let set := s.tagSet n v.pkt
    if s.mustWait set v.pkt then s
    else
      let x := s.nocIssue set v.pkt v.owner v.gaddr
      x.2.setNoc n x.1

/-- The histogram bin of a latency in cycles. -/
def latBin (lat : Nat) : Nat := ((List.range 15).filter (fun i => decide (2 ^ (i + 5) ≤ lat))).length

/-- Count a response in the statistics of its initiator (R245). DEDUCED: log 74. -/
def State.countResponse (s : State) (p : NocPacket) (cls status bytes lat : Nat) : State :=
  match s.statBlock p cls with
  | none => s
  | some k =>
    let s := (s.bump64 (k + 0x10) bytes).bump (k + 0x20 + 4 * latBin lat) 1
    let s := (if status = 0 then s else s.bump (k + 0x18) 1).wrMax (k + 0x1C) (min lat (2 ^ 32 - 1))
    match p.src with
    | .router r => if cls = 0 ∧ 640 < lat then s.bump (nocReg r Reg.NOC_RIS_OVER) 1 else s
    | .edge _ => s

/-! ### Packets as bits (R230) -/

/-- Flits of a packet with a payload of n bytes: the header takes the first 32 bytes of flit 0. -/
def flits (n : Nat) : Nat := (32 + n + 127) / 128

/-- The 32 bytes of a packet's header: `type` and `status` as it stands, the request's or its response's; `bytes` of payload;
places as coordinates. -/
def headerBytes (dst src : Nat × Nat) (p : NocPacket) (type cls set status bytes : Nat) : List Byte :=
  let xy (c : Nat × Nat) (ep : Nat) : Nat := c.1 * 2 ^ 26 + c.2 * 2 ^ 20 + ep * 2 ^ 15
  natBytes 4 (xy dst p.dstEp + cls * 2 ^ 13 + set * 2 ^ 12 + type * 2 ^ 8 + status) ++
  natBytes 4 (xy src p.srcEp + p.tag) ++ natBytes 8 (bytes % 2 ^ 9 * 2 ^ 48 + p.addr % 2 ^ 48) ++
  natBytes 4 ((if p.type.val = 2 then p.atomicOp.val else 0) * 2 ^ 28) ++ natBytes 12 0

/-- A request on the wire: its header and its payload. -/
def State.requestBytes (s : State) (v : NocReq) : List Byte :=
  headerBytes (s.placeXY v.pkt true) (s.placeXY v.pkt false) v.pkt v.pkt.type v.cls v.set 0 v.pkt.bytes ++ v.pkt.payload

/-- A response on the wire: the header's places are those of the request, the answer's status and data. -/
def State.responseBytes (s : State) (v : NocReq) (status : Nat) (data : List Byte) : List Byte :=
  headerBytes (s.placeXY v.pkt true) (s.placeXY v.pkt false) v.pkt (v.pkt.type.val + 8) v.cls v.set status data.length ++ data

/-! ### Requests to memory (R249) -/

/-- The home edge of a requester. -/
def homeEdge (src : NocPlace) : Nat :=
  match src with
  | .router r => homeOfBay (bayOfRouter r)
  | .edge e => e

/-- What a requester's decoder answers by itself: a hole that no slice has to tell, or the closed tier (R249, R261). -/
def State.decoderAnswer (s : State) (home A : Nat) : Option (Nat × State) :=
  match s.place A with
  | .removed _ => none
  | _ => s.noMemory home A

/-! ### Bank queues (R258) -/

/-- A target answers a request; a failure of memory names its device address. -/
def State.reply (s : State) (n : Nat) (v : NocReq) (a : MemAns) : State :=
  s.setNoc n { v with delivered := true, failAddr := a.addr, answer := some (a.status, if a.status = 0 then a.data else []) }

/-- The queue of a bank, in the order of entry. -/
def State.bankQueue (s : State) (bank : Nat) : List BankItem := s.bankQ.filter (fun x => (s.bankOf x.addr).map (·.1) == some bank)

/-- The requests of a queue that no earlier one to the same chunk holds. DESIGN CHOICE: log 119. -/
def State.unheld (s : State) : List BankItem → List BankItem → List BankItem
  | _, [] => []
  | before, x :: xs =>
    let rest := s.unheld (before ++ [x]) xs
    let chunk (y : BankItem) := (s.bankOf y.addr).map (·.2.2)
    if before.any (fun y => chunk y == chunk x) then rest else x :: rest

/-- The request of a bank that the controller picks (R258). DESIGN CHOICE: log 119. -/
def State.pick (s : State) (bank : Nat) : Option BankItem :=
  let q := s.unheld [] (s.bankQueue bank)
  let toRow (x : BankItem) : Bool := (s.bankOf x.addr).map (·.2.1 + 1) == some (tget (fun _ => 0) s.openRows bank)
  let row := q.find? toRow
  let oldest := q.head?
  let ris := q.find? (·.ris)
  if ris.isSome then ris
  else if decide (8 ≤ tget (fun _ => 0) s.hitRuns bank) && (oldest.map toRow) == some false then oldest
  else row.orElse (fun _ => oldest)

/-- The request a bank serves leaves its queue; requests to the open row served while an older one to another row waits are
numbered. -/
def State.unqueue (s : State) (bank : Nat) (x : BankItem) : State :=
  let q := (s.bankQueue bank).takeWhile (fun y => y.noc != x.noc)
  let hit := (s.bankOf x.addr).map (·.2.1 + 1) == some (tget (fun _ => 0) s.openRows bank)
  let run := if hit && q.any (fun y => (s.bankOf y.addr).map (·.2.1) != (s.bankOf x.addr).map (·.2.1))
    then tget (fun _ => 0) s.hitRuns bank + 1 else 0
  { s with bankQ := s.bankQ.filter (fun y => y.noc != x.noc), hitRuns := tset (fun _ => 0) s.hitRuns bank run }

/-- The controller performs a request of a bank queue, which has left it: a full-chunk write stores its bytes, any other does what
it asks and is answered. -/
def State.serveQueued (s : State) (x : BankItem) (m : MemFind) : State :=
  if x.posted then (s.storeWhole x.addr x.data).touch x.addr true m
  else
    match s.nocAt x.noc with
    | none => s
    | some v =>
      let p := v.pkt
      let home := homeEdge p.src
      let r := match p.type.val with
        | 0 => s.memRead home x.addr p.bytes m
        | 1 => s.memWrite home x.addr p.payload m
        | _ => s.memUpdate home x.addr ((atomicWidth p.atomicOp).getD 0) (fun old => atomicNew p.atomicOp ((atomicWidth p.atomicOp).getD 0) old p.payload) m
      r.2.reply x.noc v r.1

/-- An access that is one step of the model reaches its controller: the requests to its chunk that are queued before it are performed
first, in their order (R258, R283); what they meet there is nothing. DESIGN CHOICE: log 118. -/
def State.queueFirst (s : State) (A : Nat) : State :=
  match s.bankOf A with
  | none => s
  | some (bank, _, chunk) =>
    s.each ((s.bankQueue bank).filter (fun x => (s.bankOf x.addr).map (·.2.2) == some chunk)) (fun s x =>
      ({ s with bankQ := s.bankQ.filter (fun y => y.noc != x.noc) } : State).serveQueued x ⟨[], 0, none, 0⟩)

/-- Where a device address is served on the tile network, and its address there (R229, R249). DESIGN CHOICE: log 76. -/
def State.memPlace (s : State) (A owner : Nat) : NocPlace × Nat :=
  if 0x10000000000 ≤ A ∧ A < 0x11000000000 then
    let x := A - 0x10000000000
    let bay := x / 0x100000000 * 64 + x % 0x100000000 / 0x4000000
    (.router (Fin.ofNat 1024 (routerOfBay bay)), x % 0x4000000)
  else
    match s.place A with
    | .lpddr c _ => (.edge (Fin.ofNat 4 (c / 16)), A)
    | _ => (.edge (Fin.ofNat 4 owner), A)

/-- An agent that reaches memory over the tile network: its place, its endpoint, its class, and the edge die that counts its
accesses to holes. -/
structure Agent where
  src : NocPlace
  ep : Nat
  cls : Nat
  home : Nat

/-- The packet of a memory access at device address A. -/
def State.memPacket (s : State) (g : Agent) (A n : Nat) (write : Option (List Byte)) (tag : Nat) : NocPacket :=
  let pl := s.memPlace A g.home
  { src := g.src, srcEp := Fin.ofNat 32 g.ep, tag := Fin.ofNat 1024 tag, dst := pl.1, dstEp := 0, cls := Fin.ofNat 4 g.cls
    type := if write.isSome then 1 else 0, addr := pl.2, bytes := n, atomicOp := 0, payload := write.getD [] }

/-- A memory access of an agent as one step: its request goes over the tile network, is served where its endpoint answers, and
its response comes back after a latency that is free (R231, R233, R240, R245, R249). DESIGN CHOICE: log 118. -/
def State.roundTrip (s : State) (g : Agent) (A n : Nat) (write : Option (List Byte)) (m : MemFind) : MemAns × State :=
  match s.decoderAnswer g.home A with
  | some (st, s) => (⟨st, A, []⟩, s)
  | none =>
    let q := s.memPacket g A n write 0
    let v := s.nocIssue (s.domainSet (domainOf q)) q .bare none
    let p := v.1.pkt
    let r : MemAns × State := match v.1.answer with
      | some a => (⟨a.1, A, []⟩, v.2)
      | none =>
        if v.2.dstIsolated p then
          (⟨0x23, A, []⟩, match p.dst with | .router x => v.2.bump (nocReg x Reg.NOC_ABSORBED) 1 | .edge _ => v.2)
        else
          let s := v.2.queueFirst A
          let r : MemAns × State := match write with
            | some bs => s.memWrite g.home A bs (m.of g.cls)
            | none => s.memRead g.home A n (m.of g.cls)
          let a := s.answerMeets p v.1.yx r.1.status r.1.data
          (⟨a.1, r.1.addr, a.2⟩, r.2)
    (r.1, ({ r.2 with free := r.2.free + 1 } : State).countResponse p v.1.cls r.1.status r.1.data.length (Config.elapsed r.2.free))

/-- A message of one control core to another as one step: a packet of type 3 in class Espresso, and its answer's status (R145,
R148, R231, R240, R245). What it carries the spec does not say: it has no payload here. DESIGN CHOICE: log 118, 134. -/
def State.messageTrip (s : State) (g h : Agent) : Nat × State :=
  let p : NocPacket := { src := g.src, srcEp := Fin.ofNat 32 g.ep, tag := 0, dst := h.src, dstEp := Fin.ofNat 32 h.ep, cls := 1, type := 3
                         addr := 0, bytes := 0, atomicOp := 0, payload := [] }
  let v := s.nocIssue (s.domainSet (domainOf p)) p .bare none
  let r : Nat × State := match v.1.answer with
    | some a => (a.1, v.2)
    | none =>
      if v.2.dstIsolated p then
        (0x23, match p.dst with | .router x => v.2.bump (nocReg x Reg.NOC_ABSORBED) 1 | .edge _ => v.2)
      else ((v.2.answerMeets p v.1.yx 0 []).1, v.2)
  (r.1, ({ r.2 with free := r.2.free + 1 } : State).countResponse p v.1.cls r.1 0 (Config.elapsed r.2.free))

/-- Read n bytes from device address A in requests that do not cross a 256-byte line, up to the first that fails; what the
access meets is met by the first of them. -/
def State.readLines (s : State) (g : Agent) : Nat → Nat → Nat → MemFind → MemAns × State
  | 0, A, _, _ => (⟨0, A, []⟩, s)
  | fuel + 1, A, n, m =>
    if n = 0 then (⟨0, A, []⟩, s)
    else
      let k := min n (256 - A % 256)
      let r := s.roundTrip g A k none m
      if r.1.status ≠ 0 then r
      else
        let x := r.2.readLines g fuel (A + k) (n - k) m.rest
        (⟨x.1.status, x.1.addr, r.1.data ++ x.1.data⟩, x.2)

/-- Read n bytes from device address A. -/
def State.readLong (s : State) (g : Agent) (A n : Nat) (m : MemFind) : MemAns × State := s.readLines g (n / 256 + 2) A n m

/-- Write bytes from address A in requests that do not cross a 256-byte line, up to the first that fails. -/
def State.writeLines (s : State) (g : Agent) : Nat → Nat → List Byte → MemFind → MemAns × State
  | 0, A, _, _ => (⟨0, A, []⟩, s)
  | fuel + 1, A, bs, m =>
    if bs = [] then (⟨0, A, []⟩, s)
    else
      let k := min bs.length (256 - A % 256)
      let r := s.roundTrip g A k (some (bs.take k)) m
      if r.1.status ≠ 0 then r
      else r.2.writeLines g fuel (A + k) (bs.drop k) m.rest

/-- Write bytes from address A. -/
def State.writeLong (s : State) (g : Agent) (A : Nat) (bs : List Byte) (m : MemFind) : MemAns × State :=
  s.writeLines g (bs.length / 256 + 2) A bs m

/-- The agents of compound accesses: a bay's sequencer, the controller of a quarter, Ryhal, the PCI Express engine of the
north edge die, and the twin engine at the edge die of its port (R145, R229, R271, R399). DESIGN CHOICE: log 118. -/
def seqAgent (b : Nat) : Agent := ⟨.router (Fin.ofNat 1024 (routerOfBay b)), 1, 1, homeOfBay b⟩
def State.ctrlAgent (s : State) (q : Nat) : Agent :=
  let b := (s.firstRouted (baysOfQuarter q)).getD ((baysOfQuarter q).headD 0)
  ⟨.router (Fin.ofNat 1024 (routerOfBay b)), 13, 1, q % 4⟩
def ryhalAgent : Agent := ⟨.edge 3, 12, 1, 3⟩
def hostAgent : Agent := ⟨.edge 0, 4, 1, 0⟩
def twinAgent (port : Nat) : Agent := ⟨.edge (Fin.ofNat 4 (port / 3)), 3, 1, port / 3 % 4⟩

/-- The configuration controller of a die reads through the die window's router (R229). DEDUCED: log 71. DESIGN CHOICE: log 118. -/
def State.cfgAgent (s : State) (d : Nat) : Agent :=
  let b := (s.firstRouted ((List.range 64).map (fun i => d * 64 + i))).getD (d * 64)
  ⟨.router (Fin.ofNat 1024 (routerOfBay b)), 14, 1, d / 4⟩

end Sys2Proof.Machine
end

