-- ==== Sys2Proof/Machine/ImageOps.lean ====
section
/-! DEFINITION. Job images: reading them, their header and sections, their digest, their buffer plan, and where their bays
are placed (R129, R133, R146, R152, R153, R429). -/

namespace Sys2Proof.Machine

/-! ### Reading -/

/-- The lead controller's quarter: the lowest placed, or the lowest of the partition before placement (R145). -/
def State.leadQuarter (s : State) (j : Job) : Nat :=
  match j.placed with
  | [] => (maskQuarters (s.part j.part).quarters).headD 0
  | q :: qs => qs.foldl min q

/-- A register of the SEQ summary of the lead controller's die. -/
def State.leadReg (s : State) (j : Job) (off : Nat) : Nat := regKey (.seq (Fin.ofNat 16 (s.leadQuarter j / 4))) off

/-- Flag bit i of SEQ_ERR_FLAGS on the lead controller's die (R166). -/
def State.leadFlag (s : State) (j : Job) (i : Nat) : State :=
  (s.setFlag (s.leadReg j Reg.SEQ_ERR_FLAGS) i).bump (s.leadReg j Reg.SEQ_FAULT_COUNT) 1

/-- The lead controller of a job as an agent of the tile network. -/
def State.leadAgent (s : State) (j : Job) : Agent := s.ctrlAgent (s.leadQuarter j)

/-- A bay's sequencer posts a value to the lead controller by a message, and the job counts it; one that the network answers with
an error is lost (R107, R147, R330). DESIGN CHOICE: log 134. -/
def State.postEvent (s : State) (b j : Nat) (v : Job) : State :=
  let g := s.messageTrip (seqAgent b) (s.leadAgent v)
  if g.1 ≠ 0 then g.2 else g.2.mapJob j (fun v => { v with events := v.events + 1 })

/-- An agent reads n bytes at an offset of a job's image: of the pinned copy, or in device memory (R326). DEDUCED: log 50. -/
def State.imgRead (s : State) (g : Agent) (j : Job) (off n : Nat) (m : MemFind) : MemAns × State :=
  match j.handle with
  | some h =>
    match s.pins.find? (fun e => e.1 == 16 * j.ent.func + h) with
    | some e => (⟨0, off, (List.range n).map (fun i => e.2.image.getD (off + i) 0)⟩, s)
    | none => (⟨0, off, List.replicate n 0⟩, s)
  | none => s.readLong g (j.image + off) n m

/-- A little-endian field of an image held as bytes. -/
def imgN (img : List Byte) (off n : Nat) : Nat := bytesNat ((img.drop off).take n)

/-! ### Header and sections (R146, R152 step 1) -/

/-- The header of an image. -/
def jobHeader (img : List Byte) : JobHeader :=
  let w (o : Nat) : Nat := imgN img o 4
  { ver := bitsOf (w 0) 31 24, quarters := bitsOf (w 0) 19 13, bytes := w 4, commonOff := w 8, commonBytes := w 0xC
    bayOff := w 0x10, planOff := w 0x14, barrierOff := w 0x18, barriers := bitsOf (w 0x1C) 31 16
    barrierLimit := bitsOf (w 0x20) 31 16, timeLimit := bitsOf (w 0x20) 15 0 }

/-- The variants an image accepts (R2, R146). -/
def imgVariants (img : List Byte) : Nat := bitsOf (imgN img 0 4) 23 20

/-- A bay-table entry (R146). -/
structure BayEntry where
  tiles : Nat
  vector : Bool
  cmdOff : Nat
  cmdBytes : Nat
  reserved : Bool
  deriving DecidableEq, Repr

/-- The bay-table entry in 16 bytes. -/
def bayEntry (bs : List Byte) : BayEntry :=
  let w := imgN bs 0 4
  { tiles := bitsOf w 7 0, vector := bitOf w 8, cmdOff := imgN bs 4 4, cmdBytes := imgN bs 8 4
    reserved := bitsOf w 31 9 != 0 || imgN bs 12 4 != 0 }

/-- The bay-table entry of logical bay b. -/
def imgBay (img : List Byte) (h : JobHeader) (b : Nat) : BayEntry := bayEntry ((img.drop (h.bayOff + 16 * b)).take 16)

/-- The header itself is well formed. -/
def headerOk (img : List Byte) : Bool :=
  let h := jobHeader img
  (h.ver == 2 || h.ver == 3) && bitsOf (imgN img 0 4) 12 0 == 0 && decide (1 ≤ h.quarters) && decide (h.quarters ≤ 64) &&
  bitsOf (imgN img 0x1C 4) 15 0 == 0 && (img.drop 0x24).take 28 == List.replicate 28 (0 : Byte) && decide (128 ≤ h.bytes) &&
  decide (h.commonBytes ≤ 65536) && decide (h.barriers ≤ 1024)

/-- Every section lies within the image and is well formed; the plan's entries are judged with the plan (R429). -/
def sectionsOk (img : List Byte) : Bool :=
  let h := jobHeader img
  decide (h.commonOff + h.commonBytes ≤ h.bytes) && decide (h.bayOff + 256 * h.quarters ≤ h.bytes) &&
  decide (h.planOff + 8 ≤ h.bytes) && decide (h.barrierOff + 4 * h.barriers ≤ h.bytes) &&
  (List.range h.barriers).all (fun i =>
    let w := imgN img (h.barrierOff + 4 * i) 4
    decide (1 ≤ w) && decide (w ≤ 1024)) &&
  (List.range (16 * h.quarters)).all (fun b =>
    let e := imgBay img h b
    !e.reserved && e.cmdBytes % 8 == 0 && decide (e.cmdOff + e.cmdBytes ≤ h.bytes))

/-- The image lies within device memory (R152): no line of it in a hole. DEDUCED: log 50. -/
def State.imageInMemory (s : State) (A n : Nat) : Bool :=
  (List.range ((n + 255) / 256)).all (fun i =>
    match s.place (A + 256 * i) with | .hole => false | .removed _ => false | _ => true)

/-! ### The buffer plan (R129, R133, R429) -/

/-- A v3 or v2 descriptor in 96 or 64 bytes; none where its reserved fields are not zero or its version is neither. -/
def streamOf (bs : List Byte) : Option StreamDesc :=
  let x := bytesNat bs
  if bitsOf x 31 24 = 3 then (if reservedV3 x then none else some (streamDescV3 x))
  else if bitsOf x 31 24 = 2 then (if reservedV2 (x % 2 ^ 512) then none else some (streamDescV2 (x % 2 ^ 512)))
  else none

/-- A plan entry (R429). -/
structure PlanEntry where
  kind : Nat
  unit : Nat
  bay : Nat
  layer : Nat
  off : Nat

def planEntry (x : Nat) : PlanEntry :=
  ⟨bitsOf x 63 62, bitsOf x 61 58, bitsOf x 57 48, bitsOf x 47 32, bitsOf x 31 0⟩

/-- What an entry brings to a phase: the layers whose phase it belongs to, its floor where it is a stream, and the
destination blocks it writes, as peer and block. -/
structure PlanUse where
  bay : Nat
  layers : List Nat
  floor : Option Nat
  blocks : List (Nat × Nat)

/-- Blocks that a pass's drain records touch in a tile or a vector tile (R66). -/
def drainBlocks (d : PassDesc) : List (Nat × Nat) :=
  if !d.drainEn || d.dst == 0 || decide (9 < d.dst) then []
  else ((d.drainPlan.flatMap (fun p =>
    let r := d.recordAt p.1 p.2
    blocksOf r.1 r.2)).eraseDups).map (fun k => (d.dst, k))

/-- What an entry brings; none where it is refused. A stream descriptor with a bad version or reserved field brings no floor and
no blocks: it is refused as a descriptor, when its command places it (R122). DEDUCED: log 49. -/
def planUse (img : List Byte) (h : JobHeader) (e : PlanEntry) : Option PlanUse :=
  let size := if e.kind = 0 ∧ h.ver = 2 then 64 else 96
  if decide (1 < e.kind) || (e.kind == 1 && decide (7 < e.unit)) || decide (16 * h.quarters ≤ e.bay) ||
      decide (h.bytes < e.off + size) then none
  else if e.kind = 0 then
    match streamOf ((img.drop e.off).take size) with
    | none => some ⟨e.bay, [e.layer], some 0, []⟩
    | some d =>
      if d.floor < 2 ∨ d.ceiling < d.floor ∨ 64 < d.ceiling then none
      else
        let ls := e.layer :: (if d.weightAhead ∧ 0 < e.layer then [e.layer - 1] else [])
        some ⟨e.bay, ls, some d.floor, if d.kind = 0 ∧ !d.refused ∧ !d.toPort then d.destBlocks.map (fun k => (d.peer, k)) else []⟩
  else
    let ws := (List.range 24).map (fun i => BitVec.ofNat 32 (imgN img (e.off + 4 * i) 4))
    some ⟨e.bay, [e.layer], none, if passRefused ws e.unit then [] else drainBlocks (passDesc ws)⟩

/-- One phase keeps R129: at most 16 streams, floors of at most 64 in all, no block with two writers.
DEDUCED: log 49. -/
def phaseOk (us : List PlanUse) : Bool :=
  let fl := us.filterMap (·.floor)
  decide (fl.length ≤ 16) && decide (fl.foldl (· + ·) 0 ≤ 64) && decide ((us.flatMap (·.blocks)).Nodup)

/-- The stream descriptors that the command lists of an image name (R133). -/
def imgStreams (img : List Byte) (h : JobHeader) : List StreamDesc :=
  (List.range (16 * h.quarters)).flatMap (fun b =>
    let e := imgBay img h b
    (List.range (e.cmdBytes / 8)).filterMap (fun i =>
      let c := imgN img (e.cmdOff + 8 * i) 8
      if bitsOf c 63 56 = 2 then streamOf ((img.drop (bitsOf c 31 0)).take 96) else none))

/-- The entries of an image's buffer plan. -/
def imgPlan (img : List Byte) (h : JobHeader) : List Nat :=
  (List.range (imgN img h.planOff 4)).map (fun i => imgN img (h.planOff + 8 + 8 * i) 8)

/-- A plan has an entry for the stream whose descriptor at `off` is placed on a channel of a logical bay (R429). DEDUCED: log 49. -/
def planned (plan : List Nat) (lb c layer off : Nat) : Bool :=
  plan.any (fun x => let e := planEntry x; e.kind == 0 && e.unit == c && e.bay == lb && e.layer == layer && e.off == off)

/-- The buffer plan is accepted. DEDUCED: log 49. -/
def planOk (img : List Byte) (h : JobHeader) : Bool :=
  let n := imgN img h.planOff 4
  if imgN img (h.planOff + 4) 4 ≠ 0 ∨ h.bytes < h.planOff + 8 + 8 * n then false
  else
    match ((imgPlan img h).map planEntry).mapM (planUse img h) with
    | none => false
    | some us =>
      let keys := (us.flatMap (fun u => u.layers.map (fun l => (u.bay, l)))).eraseDups
      let bub := (imgStreams img h).map (·.bubble)
      keys.all (fun k => phaseOk (us.filter (fun u => u.bay == k.1 && u.layers.contains k.2))) &&
        (bub.contains 1 == bub.contains 2)

/-! ### Steps 1 to 4 of a dispatch (R152) -/

/-- Read an image and check it; the answer is the status, the device address of a failed read, and the image.
DEDUCED: log 50. -/
def State.checkImage (s : State) (g : Agent) (A : Nat) (m : MemFind) : Nat × Nat × List Byte × State :=
  if A % 256 ≠ 0 ∨ A / 2 ^ 44 ≠ 0 ∨ !s.imageInMemory A 128 then (0x80, 0, [], s)
  else
    let r := s.readLong g A 128 m
    if r.1.status ≠ 0 then (r.1.status, r.1.addr, [], r.2)
    else
      let s := r.2
      let h := jobHeader r.1.data
      if !headerOk r.1.data || !s.imageInMemory A h.bytes then (0x80, 0, [], s)
      else
        let x := s.readLong g A h.bytes m.rest
        let s := x.2
        let img := x.1.data
        if x.1.status ≠ 0 then (x.1.status, x.1.addr, [], s)
        else if !sectionsOk img then (0x80, 0, [], s)
        else if !bitOf (imgVariants img) s.variant then (0x81, 0, [], s)
        else if sha512 (img.drop 0x80) ≠ (img.drop 0x40).take 64 then (0x70, 0, [], s)
        else if !planOk img h then (0x41, 0, [], s)
        else (0, 0, img, s)

/-! ### Placement (R153) -/

/-- A physical quarter fits a logical quarter: every unit its bays name is enabled. -/
def State.fits (s : State) (es : List BayEntry) (q : Nat) : Bool :=
  (es.zip (baysOfQuarter q)).all (fun x =>
    s.bayOk x.2 && (!x.1.vector || s.vecOk x.2) &&
    (List.range 8).all (fun t => !bitOf x.1.tiles t || s.tileOk (x.2 * 8 + t)))

/-- Fill logical quarters in order from physical quarters in ascending number, skipping those that do not fit. -/
def State.fill (s : State) : List (List BayEntry) → List Nat → Option (List Nat)
  | [], _ => some []
  | _ :: _, [] => none
  | l :: ls, q :: qs =>
    if s.fits l q then (s.fill ls qs).map (q :: ·) else s.fill (l :: ls) qs

/-- A quarter is being zeroed or reset: it takes no job (R157, R159). -/
def State.quarterResetting (s : State) (q : Nat) : Bool :=
  s.rbit (regKey (.seq (Fin.ofNat 16 (q / 4))) Reg.SEQ_RESET_STATE) (q % 4)

/-- A quarter is busy with a job. -/
def State.quarterBusy (s : State) (q : Nat) : Bool := (baysOfQuarter q).any (fun b => (s.bayAt b).job.isSome)

/-- Index of the first pass command of each logical bay (R88), from the counts of pass commands. DEDUCED: log 56. -/
def passStarts : Nat → List Nat → List Nat
  | _, [] => []
  | n, c :: cs => n :: passStarts (n + c) cs

end Sys2Proof.Machine
end

