-- ==== Sys2Proof/Machine/EovOps.lean ====
section
/-! DEFINITION. The Eovaol fabric: the fabric root, windows, routes, and the answers of home edges (R269 to R287). -/

namespace Sys2Proof.Machine

/-- A register of an edge die's EOV block. -/
def eovReg (e off : Nat) : Nat := regKey (.eov (Fin.ofNat 4 e)) off
/-- A register of port p's part of the EOV block. -/
def eovPort (p off : Nat) : Nat := eovReg (p / 3) (off + 0x100 * (p % 3))
/-- A register of an edge die's LNK block, of a port, of a lane (R313). -/
def lnkReg (e off : Nat) : Nat := regKey (.lnk (Fin.ofNat 4 e)) off
def lnkPort (p off : Nat) : Nat := lnkReg (p / 3) (off + 0x100 * (p % 3))
def lnkLane (l off : Nat) : Nat := lnkReg (l / 12) (off + 0x100 * (l % 12))

/-- A register of the TWN block. -/
def twnReg (off : Nat) : Nat := regKey .twn off
/-- The twin port, and the edge die that serves it (R397, R399). -/
def State.twinPort (s : State) : Nat := s.fld (twnReg Reg.TWN_CFG) 3 0
def State.twinEdge (s : State) : Fin 4 := Fin.ofNat 4 (s.twinPort / 3)

/-- An event that sets flag i of EOV_ERR_FLAGS (R293). -/
def State.eovFlag (s : State) (e i : Nat) : State :=
  (s.setFlag (eovReg e Reg.EOV_ERR_FLAGS) i).bump (eovReg e Reg.EOV_FAULT_COUNT) 1

def State.linkAt (s : State) (p : Nat) : LinkPort := tget (fun _ => LinkPort.init) s.links p
def State.setLink (s : State) (p : Nat) (v : LinkPort) : State := { s with links := tput s.links p v }

/-- The state of a port as LNK_P_STATE shows it; up with or without a direction in idle (R313). -/
def State.portState (s : State) (p : Nat) : Nat := s.fld (lnkPort p Reg.LNK_P_STATE) 31 28
def State.portUp (s : State) (p : Nat) : Bool := s.portState p == 5 || s.portState p == 6

/-! ### The fabric root (R270) -/

/-- The module ID and fabric enable of a set. -/
def State.moduleId (s : State) (set : Nat) : Nat := s.fld (setKey set 0) 19 0
def State.fabricOpen (s : State) (set : Nat) : Bool := s.rbit (setKey set 0) 31

/-! ### Windows (R272, R273) -/

/-- Bytes of a window size. -/
def winBytes (size : Nat) : Nat := match size with | 0 => 2 ^ 21 | 1 => 2 ^ 30 | _ => 2 ^ 36

/-- The owner edge of an offset. -/
def ownerEdge (o : Nat) : Nat := (bitsOf o 37 36) ^^^ (bitsOf o 39 38) ^^^ (bitsOf o 41 40) ^^^ (bitsOf o 43 42)

/-- The key of a size and offset, and its bucket. -/
def winKey (size o : Nat) : Nat := size * 2 ^ 62 + o / winBytes size * winBytes size
def bucketOf (key : Nat) : Nat := (crc32 (natBytes 8 key)).toNat % 65536

/-- A window entry's fields. -/
structure Win where
  size : Nat
  state : Nat
  vis : Nat
  base : Nat
  owner : Nat
  rights : Nat
  anySrc : Bool
  srcGroup : Nat
  dev : Nat
  /-- a reserved field is not zero -/
  bad : Bool

/-- The fields of 128 bits. `vis` bit v: visible to set v. `rights` bits: 2 read, 1 write, 0 atomic. -/
def winOf (x : Nat) : Win :=
  let hi := x / 2 ^ 64
  { size := bitsOf x 63 62, state := bitsOf x 61 60, vis := bitsOf x 59 59 + 2 * bitsOf x 58 58
    base := bitsOf x 43 21 * 2 ^ 21, owner := bitsOf x 5 0, rights := bitsOf hi 63 61, anySrc := bitOf hi 60
    srcGroup := bitsOf hi 59 48, dev := bitsOf hi 43 21 * 2 ^ 21
    bad := bitsOf x 57 44 != 0 || bitsOf x 20 6 != 0 || bitsOf hi 47 44 != 0 || bitsOf hi 20 0 != 0 }

/-- DESIGN CHOICE: log 2. -/
def State.winAt (s : State) (e i : Nat) : Nat := tget (fun _ => 0) s.windows (e * 2 ^ 19 + i)
def State.setWin (s : State) (e i x : Nat) : State := { s with windows := tset (fun _ => 0) s.windows (e * 2 ^ 19 + i) x }

/-- The entry of a size that matches an offset for a set. -/
def State.winMatch (s : State) (o set size : Nat) : Option Nat :=
  let e := ownerEdge o
  let b := bucketOf (winKey size o)
  ((List.range 8).map (fun t => b * 8 + t)).find? (fun i =>
    let w := winOf (s.winAt e i)
    (w.state == 1 || w.state == 2) && w.size == size && w.base == o / winBytes size * winBytes size && bitOf w.vis set)

/-- What a lookup finds: a status, or the entry and the device address. -/
inductive Lookup where
  | refused (status : Nat)
  | hit (entry dev : Nat)
  deriving DecidableEq, Repr

/-- The bit of `rights` that an op needs (R272, R280). -/
def opRight (op : Nat) : Nat := 2 - op

/-- Look an offset up in the window table (R273). -/
def State.lookup (s : State) (o set group op : Nat) : Lookup × State :=
  let e := ownerEdge o
  match ((List.range 3).filterMap (fun z => s.winMatch o set z)).head? with
  | none => (.refused 0x61, (s.bump (eovReg e Reg.EOV_NO_WINDOW) 1).eovFlag e 1)
  | some i =>
    let w := winOf (s.winAt e i)
    if !(w.anySrc || w.srcGroup == group) || !bitOf w.rights (opRight op) then
      (.refused 0x62, (s.bump (eovReg e Reg.EOV_PERM_REFUSED) 1).eovFlag e 2)
    else if w.state = 2 then (.refused 0x63, s.bump (eovReg e Reg.EOV_RETRYABLE) 1)
    else (.hit i (w.dev + (o - w.base)), s)

/-! ### Routes (R277, R278) -/

/-- The route entry of a set for a module ID other than the module's own. -/
def State.routeEntry (s : State) (set id : Nat) : Nat :=
  let own := s.moduleId set
  let off := if id / 256 = own / 256 then 0x1000 + 2 * (id % 256) else 0x2000 + 2 * (id / 256)
  bitsOf (s.rdN (setKey set (off / 4 * 4))) (off % 4 * 8 + 15) (off % 4 * 8)

/-- The slots a packet takes (R299). -/
def FabricPacket.slots (p : FabricPacket) : Nat := (32 + p.payload.length + 31) / 32

/-- The virtual channel of a packet (R278). -/
def FabricPacket.chan (p : FabricPacket) : Nat := p.cls * 4 + (if p.resp then 2 else 0) + (if p.dateline then 1 else 0)

/-- The module a packet travels to. -/
def FabricPacket.dest (p : FabricPacket) : Nat := p.gaddr / 2 ^ 44 % 2 ^ 20

/-- A drop because a port is down (R287). -/
def State.downDrop (s : State) (p : Nat) : State :=
  (s.bump (eovPort p Reg.EOV_P_DOWN_DROPS) 1).eovFlag (p / 3) 9

/-- What a packet that edge die e hands to edge die f over the tile network meets on its way: the status of R233, R234, R240 or
R364, or 0 (R271, R273). DEDUCED: log 79. -/
def State.edgeWay (s : State) (e f addr : Nat) : Nat :=
  if e = f then 0
  else
    let p : NocPacket := { src := .edge (Fin.ofNat 4 e), srcEp := 1, tag := 0, dst := .edge (Fin.ofNat 4 f), dstEp := 1, cls := 1
                           type := 1, addr := addr % 2 ^ 48, bytes := 0, atomicOp := 0, payload := [] }
    let x := s.nocEnds p
    let xy := s.pathUsable x.1 x.2 false
    match s.sourceAnswer p x.1 x.2 (!xy) (xy || s.pathUsable x.1 x.2 true) with
    | some a => a.1
    | none => if s.dstIsolated p then 0x23 else 0

/-- Send a packet from edge die e under a set: the status it meets, 0 where it is queued to its exit port, which another edge die
may serve (R271, R277, R278, R287). DEDUCED: log 79. -/
def State.sendPacket (s : State) (e set : Nat) (p : FabricPacket) : Nat × State :=
  let r := s.routeEntry set p.dest
  let port := bitsOf r 11 8
  if 255 ≤ p.hops then (0x66, (s.bump (eovReg e Reg.EOV_HOP_DROP) 1).eovFlag e 3)
  else if !bitOf r 15 || decide (12 ≤ port) then (0x65, s.eovFlag e 4)
  else if bitOf r 14 && p.dateline then (0x66, s.eovFlag e 5)
  else if s.edgeWay e (port / 3) p.gaddr ≠ 0 then (s.edgeWay e (port / 3) p.gaddr, s)
  else if !s.portUp port then (0x6A, s.downDrop port)
  else
    let l := s.linkAt port
    let p := { p with hops := p.hops + 1, dateline := p.dateline || bitOf r 14 }
    (0, s.setLink port { l with queue := l.queue ++ [p] })

/-- The response of this module to a request packet (R279). DEDUCED: log 79. -/
def State.responseOf (s : State) (set : Nat) (p : FabricPacket) (status : Nat) (data : List Byte) : FabricPacket :=
  { p with gaddr := p.srcModule * 2 ^ 44 + p.gaddr % 2 ^ 44, srcModule := s.moduleId set, resp := true, dateline := false
           hops := 0, status := status, payload := if status = 0 then data else []
           bytes := if status = 0 then data.length else 0 }

/-- Answer a request packet from edge die e; a response that meets an error is discarded. -/
def State.respond (s : State) (e set : Nat) (p : FabricPacket) (status : Nat) (data : List Byte) : State :=
  (s.sendPacket e set (s.responseOf set p status data)).2

/-! ### Home edges (R271, R284, R286) -/

def State.homeAt (s : State) (n : Nat) : Option HomeItem := (s.home.find? (fun e => e.1 == n)).map (·.2)

/-- A fence covers a request of its initiator (R284). DEDUCED: log 81. -/
def fenceCovers (src : NocPlace) (ep m cls scope : Nat) (r : GlobalRequest) : Bool :=
  r.src == src && r.srcEp.val == ep && (scope == 1 || (r.cls.val == cls && r.gaddr.toNat / 2 ^ 44 == m))

/-- A request is the malformed one of R282. DEDUCED: log 79. -/
def malformed (r : GlobalRequest) : Bool :=
  let o := r.gaddr.toNat
  let width := if r.atomicOp.val = 0 ∨ r.atomicOp.val = 3 ∨ r.atomicOp.val = 5 then 4 else 8
  decide (2 < r.op.val) || decide (8 < r.atomicOp.val) || (r.op.val != 2 && r.bytes == 0) ||
    decide (256 < r.bytes) || decide (o / 256 ≠ (o + (if r.op.val = 2 then width else r.bytes) - 1) / 256) ||
    (r.op.val == 2 && (o % width != 0 || r.bytes != width))

/-- A home edge answers a request: over the request on the tile network that it came as, where it came as one.
DEDUCED: log 79. -/
def State.edgeAnswer (s : State) (r : GlobalRequest) (set : Nat) (noc : Option Nat) (status : Nat) (data : List Byte) : State :=
  let data := if status = 0 then data else []
  match noc with
  | some k =>
    match s.nocAt k with
    | some v => s.setNoc k { v with delivered := true, answer := some (status, data) }
    | none => s
  | none => s.emit (.nocAnswer r.src r.srcEp r.tag set status data)

/-- A home edge answers a fence (R284). -/
def State.fenceAnswer (s : State) (src : NocPlace) (ep tag set : Nat) (noc : Option Nat) : State :=
  match noc with
  | some k =>
    match s.nocAt k with
    | some v => s.setNoc k { v with answer := some (0, []) }
    | none => s
  | none => s.emit (.nocAnswer src ep tag set 0 [])

/-- A request of the twin engine at its home edge is answered: the transfer it belongs to counts it (R400, R401, R402). -/
def State.twinAnswered (s : State) (n id status : Nat) : State :=
  { s with twin := { s.twin with
      mine := terase s.twin.mine n
      writes := s.twin.writes.map (fun (x : MirrorXfer) =>
        if x.id == id then { x with left := x.left - 1, status := if x.status = 0 then status else x.status } else x) } }

/-- The transfer to the partner that item n of the home edges belongs to, where it is the twin engine's. -/
def State.twinItem (s : State) (n : Nat) : Option Nat := (s.twin.mine.find? (fun e => e.1 == n)).map (·.2)

/-- Hand a kept request's answer to its requester. -/
def State.homeAnswer (s : State) (n : Nat) (r : GlobalRequest) (status : Nat) (data : List Byte) : State :=
  let t : State := { s with home := terase s.home n }
  match s.twinItem n, s.homeAt n with
  | some id, _ => t.twinAnswered n id status
  | none, some (.req _ set _ noc) => t.edgeAnswer r set noc status data
  | none, _ => t

/-- The packet of a request (R279). -/
def State.packetOf (s : State) (set : Nat) (r : GlobalRequest) : FabricPacket :=
  let xy : Nat × Nat := match r.src with
    | .router x => (rx x, ry x)
    | .edge e => match e.val with | 0 => (0, 32) | 1 => (32, 0) | 2 => (0, 63) | _ => (63, 0)
  { gaddr := r.gaddr.toNat, srcModule := s.moduleId set, srcX := xy.1, srcY := xy.2, srcEp := r.srcEp, tag := r.tag
    op := r.op, cls := r.cls, resp := false, dateline := false, hops := 0, bytes := r.bytes
    atomicOp := if r.op.val = 2 then r.atomicOp else 0, status := 0, payload := r.payload }

/-- The owner edge die answers a request that it does not send on, from edge die e. -/
def State.turnAway (s : State) (e set : Nat) (p : FabricPacket) (status : Nat) : Origin → State
  | .remote _ => s.respond e set p status []
  | .home n =>
    match s.homeAt n with
    | some (.req r _ _ _) => s.homeAnswer n r status []
    | _ => s

/-- A request that a window has let pass becomes a request on the tile network, under the set of its packet; one that lands in a
hole, or in the closed tier, the owner edge die answers itself (R249, R272, R273, R280). -/
def State.launch (s : State) (e i A set : Nat) (p : FabricPacket) (o : Origin) : State :=
  match s.decoderAnswer e A with
  | some (st, s) => s.turnAway e set p st o
  | none =>
  let pl := s.memPlace A e
  let q : NocPacket := { src := .edge (Fin.ofNat 4 e), srcEp := 1, tag := Fin.ofNat 1024 s.nextNoc, dst := pl.1, dstEp := 0
                         cls := Fin.ofNat 4 p.cls, type := Fin.ofNat 16 p.op, addr := pl.2, bytes := p.bytes
                         atomicOp := Fin.ofNat 16 p.atomicOp, payload := p.payload }
  (({ s with flights := s.flights ++ [WinFlight.mk s.nextNoc e i set o false] } : State).nocSubmit q .bare none).2

/-- Send a home edge's request: to its own windows where it names this module, else to its exit port (R270, R271). -/
def State.sendHome (s : State) (n : Nat) (r : GlobalRequest) (set : Nat) (noc : Option Nat) : State :=
  let p := s.packetOf set r
  if p.dest = s.moduleId set then
    let way := s.edgeWay (homeEdge r.src) (ownerEdge (p.gaddr % 2 ^ 44)) p.gaddr
    let x := s.lookup (p.gaddr % 2 ^ 44) set (p.srcModule / 256) p.op
    if way ≠ 0 then s.homeAnswer n r way []
    else match x.1 with
    | .refused st => x.2.homeAnswer n r st []
    | .hit i A => (({ x.2 with home := tput x.2.home n (.req r set true noc) } : State)).launch (ownerEdge (p.gaddr % 2 ^ 44)) i A set p (.home n)
  else
    let x := s.sendPacket (homeEdge r.src) set p
    if x.1 = 0 then { x.2 with home := tput x.2.home n (.req r set true noc) } else x.2.homeAnswer n r x.1 []

/-- An item is held by the items before it (R284): a request by a fence that covers it; a fence by every earlier request
within its scope. DEDUCED: log 81. -/
def heldBy (before : List HomeItem) : HomeItem → Bool
  | .req r _ _ _ => before.any (fun b => match b with | .fence src ep _ m cls sc _ _ => fenceCovers src ep m cls sc r | _ => false)
  | .fence src ep _ m cls sc _ _ => before.any (fun b => match b with | .req r _ _ _ => fenceCovers src ep m cls sc r | _ => false)

/-- Fences that wait for nothing any more are answered, and requests that no fence holds are sent, in order. -/
def State.settleHome (s : State) : Nat → List HomeItem → List Nat → State
  | 0, _, _ => s
  | _, _, [] => s
  | fuel + 1, before, n :: ns =>
    match s.homeAt n with
    | none => s.settleHome fuel before ns
    | some it =>
      if heldBy before it then s.settleHome fuel (before ++ [it]) ns
      else
        match it with
        | .fence src ep tag _ _ _ set noc =>
          let t : State := { s with home := terase s.home n }
          (match s.twinItem n with
           | some id => t.twinAnswered n id 0
           | none => t.fenceAnswer src ep tag set noc).settleHome fuel before ns
        | .req r set sent noc =>
          let s := if sent then s else s.sendHome n r set noc
          match s.homeAt n with
          | some it => s.settleHome fuel (before ++ [it]) ns
          | none => s.settleHome fuel before ns

/-- Requests a home edge keeps (R271). -/
def State.homeCount (s : State) (e : Nat) : Nat :=
  (s.home.filter (fun x => match x.2 with | .req r _ _ _ => homeEdge r.src == e | _ => false)).length

/-- A write of the twin engine to the partner, of at most 256 bytes within a granule (R271, R398 to R402). -/
def State.twinRequest (s : State) (cls off tag : Nat) (bs : List Byte) : GlobalRequest :=
  { src := .edge s.twinEdge, srcEp := 3, tag := Fin.ofNat 1024 tag, cls := Fin.ofNat 4 cls, op := 1, atomicOp := 0
    gaddr := BitVec.ofNat 64 (s.fld (twnReg Reg.TWN_PARTNER) 19 0 * 2 ^ 44 + off % 2 ^ 44), bytes := bs.length, payload := bs }

/-- The pieces in which bytes go to an offset of the partner's space. -/
def granules : Nat → Nat → List Byte → List (Nat × List Byte)
  | 0, _, _ => []
  | fuel + 1, off, bs =>
    if bs.isEmpty then []
    else (off, bs.take (256 - off % 256)) :: granules fuel (off + (256 - off % 256)) (bs.drop (256 - off % 256))

/-- The next piece of the transfers to the partner that waits for room: heartbeats come first, then the oldest transfer. -/
def State.twinNext (s : State) : Option MirrorXfer :=
  let ws := s.twin.writes.filter (fun x => !x.todo.isEmpty)
  (ws.find? (fun x => x.cls == 0)).orElse (fun _ => ws.head?)

/-- Pieces that wait become requests of the edge die's own while it keeps fewer than 4,096; while the fabric is closed each is
answered at once (R270, R271). DEDUCED: log 109. -/
def State.mirrorFill (s : State) : Nat → State
  | 0 => s
  | fuel + 1 =>
    match s.twinNext with
    | none => s
    | some x =>
      let set := s.domainSet (16 + s.twinEdge.val)
      let put (y : MirrorXfer) : List MirrorXfer := s.twin.writes.map (fun (w : MirrorXfer) => if w.id == x.id then y else w)
      if 4096 ≤ s.homeCount s.twinEdge then s
      else
        match x.todo with
        | [] => s
        | (off, bs) :: rest =>
          (if !s.fabricOpen set then
            { s with twin := { s.twin with writes := put { x with todo := rest, status := if x.status = 0 then 0x60 else x.status } } }
          else
            { s with
              home := tput s.home s.nextHome (.req (s.twinRequest x.cls off s.nextHome bs) set false none)
              nextHome := s.nextHome + 1
              twin := { s.twin with mine := tput s.twin.mine s.nextHome x.id
                                    writes := put { x with todo := rest, left := x.left + 1 } } } : State).mirrorFill fuel

/-- Pieces of transfers to the partner that wait for room at a home edge. -/
def State.twinWaiting (s : State) : Nat := (s.twin.writes.map (fun x => x.todo.length)).sum

/-- What waits at the home edges goes on as far as it can; room that answers make takes further pieces of transfers. -/
def State.settleAll (s : State) : Nat → State
  | 0 => s
  | fuel + 1 =>
    let s := s.mirrorFill s.twinWaiting
    let t := s.settleHome (s.home.length + 1) [] (s.home.map (·.1))
    if t.twinNext.isSome && decide (t.homeCount t.twinEdge < 4096) then t.settleAll fuel else t

/-- After any change at a home edge. -/
def State.settleFences (s : State) : State := s.settleAll (s.twinWaiting + 1)

/-- Add an item at the home edges, and settle what it waits for. -/
def State.addHome (s : State) (it : HomeItem) : State :=
  (({ s with home := tput s.home s.nextHome it, nextHome := s.nextHome + 1 } : State)).settleFences

/-- A response that a home edge receives: statuses raised on the way and the retryable one are handed on, any other of
the remote module becomes 0x69 and is recorded (R286). -/
def State.homeResponse (s : State) (n : Nat) (r : GlobalRequest) (from_ status : Nat) (data : List Byte) : State :=
  let e := homeEdge r.src
  if status = 0 ∨ status = 0x63 ∨ from_ ≠ r.gaddr.toNat / 2 ^ 44 then s.homeAnswer n r status data
  else
    let first := !s.rbit (eovReg e Reg.EOV_ERR_FLAGS) 8
    let s := s.eovFlag e 8
    let s := if first then
        (s.wr (eovReg e Reg.EOV_RX_ERR_INFO) (BitVec.ofNat 32 (status * 2 ^ 24 + from_))).wr64
          (eovReg e Reg.EOV_RX_ERR_ADDR) r.gaddr.toNat
      else s
    s.homeAnswer n r 0x69 []

/-! ### Drain trackers (R276) -/

/-- Requests in flight through a window. -/
def State.winInFlight (s : State) (e i : Nat) : Nat :=
  (s.flights.filter (fun f => f.edge == e && f.entry == i && !f.dead)).length

/-- The tracker that counts for a window. -/
def State.trackerOf (s : State) (e i : Nat) : Option Nat :=
  (List.range 64).find? (fun t => tget (fun _ => 0) s.trackers (64 * e + t) == i + 1)

/-- A tracker ends: the window is drained and its owner told (R276, R334). -/
def State.trackerEnd (s : State) (e i : Nat) : State :=
  match s.trackerOf e i with
  | none => s
  | some t =>
    let x := s.winAt e i
    let s := { s with trackers := tset (fun _ => 0) s.trackers (64 * e + t) 0 }
    (s.setWin e i (putBits x 61 60 3)).event (winOf x).owner 2 (e * 2 ^ 19 + i) 0

/-- The tracker of a window ends once its count reaches zero. -/
def State.trackerCheck (s : State) (e i : Nat) : State :=
  if (winOf (s.winAt e i)).state = 2 ∧ s.winInFlight e i = 0 then s.trackerEnd e i else s

/-- Answer the origin of a request through a window. -/
def State.answerOrigin (s : State) (f : WinFlight) (status : Nat) (data : List Byte) : State :=
  match f.origin with
  | .remote p => s.respond f.edge f.set p status data
  | .home n =>
    match s.homeAt n with
    | some (.req r _ _ _) =>
      let way := s.edgeWay f.edge (homeEdge r.src) r.gaddr.toNat
      (s.homeAnswer n r (if way = 0 then status else way) data).settleFences
    | _ => s

/-- The target of a request through a window has answered (R276, R280). -/
def State.flightEnd (s : State) (noc status : Nat) (data : List Byte) : State :=
  match s.flights.find? (fun f => f.noc == noc) with
  | none => s
  | some f =>
    let s := { s with flights := s.flights.filter (fun g => g.noc != noc) }
    let s := if f.dead then s else s.answerOrigin f status data
    s.trackerCheck f.edge f.entry

end Sys2Proof.Machine
end

