-- ==== Sys2Proof/Machine/StrRun.lean ====
section
/-! DEFINITION. A running stream: units and their requests, translation, conversion of arrived data, pauses and ends
(R126 to R142, R150). -/

namespace Sys2Proof.Machine

/-! ### Units and requests (R134) -/

/-- Number requests from n. -/
def numberReqs : Nat → List Req → List Req
  | _, [] => []
  | n, r :: rs => { r with id := n } :: numberReqs (n + 1) rs

/-- Put requests formed for a unit behind those waiting. -/
def Chan.addReqs (c : Chan) (rs : List Req) : Chan :=
  { c with todo := c.todo ++ numberReqs c.nextReq rs, nextReq := c.nextReq + rs.length }

/-- Elements of a record of a store (R121). -/
def StreamDesc.recElems (d : StreamDesc) : Nat := d.rowBytes / d.esize

/-- The first row_bytes bytes of a record, zeros beyond its end. DESIGN CHOICE: log 130. -/
def recordBytes (d : StreamDesc) (r : List Byte) : List Byte :=
  (List.range d.rowBytes).map (fun i => r.getD i 0)

/-- The bytes of a range of addresses, each from the last element that covers it; `el k` gives element k. -/
def gather (d : StreamDesc) (at_ : Nat → Nat) (el : Nat → List Byte) (first last addr len : Nat) : List Byte :=
  (List.range len).map (fun i =>
    ((List.range (last + 1 - first)).foldl (fun b j =>
      let k := first + j
      if at_ k ≤ addr + i ∧ addr + i < at_ k + d.esize then (el k).getD (addr + i - at_ k) 0 else b) (0 : Byte)))

/-- Where element k of a copy lands (R121). -/
def StreamDesc.copyAddr (d : StreamDesc) (k : Nat) : Nat := (d.copyDst + k * d.esize) % 2 ^ 64

/-- Elements of one unit of a copy: what fills a staging block. DEDUCED: log 43. -/
def StreamDesc.copyUnit (d : StreamDesc) : Nat := max 1 (4096 / d.esize)

/-- Note a fault; of two, the one with the lower linear index decides (R140). Nothing more is translated but the writes that
deliver what comes before it; reads of later elements are given up (R136). -/
def Chan.faultAt (c : Chan) (f : StrFault) : Chan :=
  let f' := match c.fault with
    | some g => if g.elem ≤ f.elem then g else f
    | none => f
  { c with fault := some f', walk := none, todo := if c.desc.kind = 0 then [] else if c.desc.kind = 2 ∨ f'.status = 0x42 then
             c.todo.filter (fun r => r.write && decide (r.first < f'.elem)) else c.todo
           outstanding := (c.outstanding.filter (fun r => r.inFlight || decide (r.first < f'.elem))).map (fun r =>
             if r.write || decide (r.first < f'.elem) then r else { r with gone := true }) }

/-- The writes that failed beside a fault that comes to a pause before them are to be issued again, in request order (R138,
R140). DEDUCED: log 45. -/
def Chan.reissueAll (c : Chan) (rs : List Req) : Chan :=
  rs.foldl (fun (c : Chan) r =>
    let r := { r with target := none, net := none, back := none }
    { c with todo := c.todo.filter (fun q => decide (q.id < r.id)) ++ r :: c.todo.filter (fun q => decide (r.id < q.id))
             delivered := min c.delivered r.first }) c

/-- The element is not finite in its source format (R125). DEDUCED: log 44. -/
def StreamDesc.nonfinite (d : StreamDesc) (bytes : List Byte) : Bool :=
  d.srcFmt != 12 && (sourceValue d.srcFmt bytes 0).isNone

/-- The next unit of a fetch: the rows whose first byte lies in the next destination block, once its credit is held. -/
def Chan.formFetch (c : Chan) : Option Chan :=
  let r := c.formed
  if c.desc.rows ≤ r ∨ !c.credits.contains (c.desc.rowBlock r) then none
  else
    let n := c.desc.unitRows r
    let k0 := c.desc.rowFirst r
    let k1 := c.desc.rowEnd (r + n - 1)
    some { c.addReqs (formRequests c.desc.esize c.desc.elemAddr k0 (k1 - k0) false 0) with formed := r + n }

/-- The writes of the oldest complete staging block of a store. DEDUCED: log 44. -/
def Chan.formStore (c : Chan) : Option Chan :=
  match c.stages.find? (fun g => g.complete && !(c.todo ++ c.outstanding).any (fun r => r.stage == g.num)) with
  | none => none
  | some g =>
    let d := c.desc
    let k0 := c.formed
    let n := min (d.total - k0) (g.slots.length * d.recElems)
    let el (k : Nat) : List Byte :=
      let rec_ := recordBytes d (g.slots.getD ((k - k0) / d.recElems) [])
      (rec_.drop ((k - k0) % d.recElems * d.esize)).take d.esize
    let bad := (List.range n).find? (fun i => d.nonfinite (el (k0 + i)))
    let n := bad.getD n
    let rs := (formRequests d.esize d.elemAddr k0 n true g.num).map (fun r =>
      { r with data := some (gather d d.elemAddr el r.first r.last r.addr r.len) })
    let c := { c.addReqs rs with formed := k0 + n
                                 stages := if n = 0 then c.stages.filter (fun x => x.num != g.num) else c.stages }
    some (match bad with
      | some i => c.faultAt ⟨k0 + i, 0, 0x42, d.elemAddr (k0 + i), 0x20⟩
      | none => c)

/-- The next unit of a copy, once it has a staging block; `free`: the engine has one for it. -/
def Chan.formCopy (c : Chan) (free : Bool) : Option Chan :=
  let k0 := c.formed
  if c.desc.total ≤ k0 ∨ !free then none
  else
    let n := min c.desc.copyUnit (c.desc.total - k0)
    some { c.addReqs (formRequests c.desc.esize c.desc.elemAddr k0 n false c.nextStage) with
      formed := k0 + n, held := c.held ++ [c.nextStage], nextStage := c.nextStage + 1 }

/-- The next unit of the stream; none where credits, records or staging are missing. -/
def State.formUnit (s : State) (b c : Nat) : Option Chan :=
  let ch := s.chanAt b c
  match ch.desc.kind with
  | 0 => ch.formFetch
  | 1 => ch.formStore
  | _ => ch.formCopy (s.stagingTurn b c)

/-- A channel of a store has its peer stopped or ended: tiles at their boundary, the vector tile with no send row open (R113,
R142). -/
def State.peerStopped (s : State) (b : Nat) (d : StreamDesc) : Bool :=
  if d.peer = 1 then !(s.vecAt b).active && !(s.vecAt b).rowOpen
  else if 2 ≤ d.peer ∧ d.peer ≤ 9 then !(s.mtxAt (b * 8 + (d.peer - 2))).busy
  else true

/-- The rows at the front that can be delivered: their credits are held. -/
def Chan.deliverable (c : Chan) : Bool :=
  match c.rows with
  | [] => false
  | r :: _ => (c.desc.rowBlocks r.num).all (fun k => c.credits.contains k)

/-- The last row of a fetch to a tile port ends the port's block (R126, R187). -/
def State.portEnd (s : State) (b c : Nat) : State :=
  let ch := s.chanAt b c
  if ch.desc.toPort && ch.desc.kind == 0 && ch.finished then
    s.setPort b (ch.desc.peer - 10) ((s.portAt b (ch.desc.peer - 10)).complete (chanWriter b c))
  else s

/-- A pause or a short end waits for this: a request in flight before the fault, a write, or a complete row. -/
def Chan.faultWaits (ch : Chan) (f : StrFault) : Bool :=
  ch.todo.any (fun r => decide (r.first < f.elem)) || ch.awaited.any (fun r => r.write || decide (r.first < f.elem)) ||
    !ch.rows.isEmpty

/-- Bring a channel to the state its events have led to: a pause, a short end, a stop for pre-emption, or its end. -/
def State.settle (s : State) (b c : Nat) : State :=
  let ch := s.chanAt b c
  if !ch.live then s
  else
    match ch.fault with
    | some f =>
      if ch.faultWaits f then s
      else if f.cause ≠ 0 then
        let ch := ch.reissueAll ch.failed
        let ch := { ch with state := .paused, cause := f.cause, faultAddr := f.addr, fault := none, failed := [] }
        let s := s.setChan b c (if ch.desc.kind = 1 then ch else { ch with outstanding := ch.leftover, todo := [] })
        ((s.bump (chReg b c Reg.STR_CH_PAUSES) 1).setFlag (strReg b Reg.STR_ERR_FLAGS) 1).emit (.strPaused b c f.cause)
      else
        let s := s.endShort b c f.status f.addr f.flags
        s.failBay b f.status none (if 0x20 ≤ f.status ∧ f.status ≤ 0x22 then f.addr else 0)
    | none =>
      if ch.finished then
        (s.portEnd b c).setChan b c { ch with state := .ended, rows := [], todo := [], outstanding := ch.leftover, walk := none
                                              stages := [], arrivals := [], held := if ch.desc.kind = 0 then ch.held else [] }
      else if ch.stopReq && ch.started && ch.state != .paused then
        if ch.desc.kind = 1 then
          if s.peerStopped b ch.desc && ch.stages.isEmpty && ch.arrivals.isEmpty && ch.awaited.isEmpty then
            s.setChan b c { ch with state := .preempted } else s
        else if !ch.awaited.isEmpty || ch.deliverable then s
        else s.setChan b c { ch with state := .preempted, rows := [], todo := [], outstanding := ch.leftover, walk := none
                                     held := [] }
      else s

/-- The elements of a copy's oldest unit that can be delivered: of a faulted stream, those before the fault (R118, R136). -/
def Chan.copyReady (c : Chan) : Nat :=
  let n := min c.desc.copyUnit (c.formed - c.converted)
  match c.fault with
  | some f => min n (f.elem - c.converted)
  | none => n

/-- A copy whose oldest unit has all arrived forms the writes of that unit (R118, R134). DEDUCED: log 44. -/
def Chan.copyWrites (c : Chan) : Chan :=
  let d := c.desc
  let n := c.copyReady
  if d.kind ≠ 2 ∨ n = 0 then c
  else
    match (List.range n).mapM (fun i => elemBytes d c.outstanding (c.converted + i)) with
    | none => c
    | some es =>
      let k0 := c.converted
      let bad := (List.range n).find? (fun i => d.nonfinite (es.getD i []))
      let n := bad.getD n
      let stage := match c.outstanding.find? (fun r => decide (r.first ≤ k0) && decide (k0 ≤ r.last) && !r.write && !r.gone) with
        | some r => r.stage | none => 0
      let rs := (formRequests d.esize d.copyAddr k0 n true stage).map (fun r =>
        { r with data := some (gather d d.copyAddr (fun k => es.getD (k - k0) []) r.first r.last r.addr r.len) })
      let c := { c with
               converted := k0 + n, nextReq := c.nextReq + rs.length
               todo := (c.todo.filter (·.write)) ++ numberReqs c.nextReq rs ++ c.todo.filter (fun r => !r.write)
               outstanding := c.outstanding.filter (fun r => r.inFlight || decide (k0 + n ≤ r.last)) }
      match bad with
      | some i => c.faultAt ⟨k0 + i, 0, 0x42, d.elemAddr (k0 + i), 0x20⟩
      | none => c

/-- The writes of every unit of a copy that has all arrived, in order. -/
def Chan.copyAll : Nat → Chan → Chan
  | 0, c => c
  | fuel + 1, c =>
    let c' := c.copyWrites
    if c'.converted = c.converted then c' else Chan.copyAll fuel c'

/-- A channel meets a fault: a copy still delivers the elements before it whose data is there (R136, R140). DEDUCED: log 44. -/
def Chan.meet (c : Chan) (f : StrFault) : Chan :=
  if c.desc.kind = 2 then Chan.copyAll c.desc.total (c.faultAt f) else c.faultAt f

/-! ### Translation (R150) -/

/-- The partition of a bay's job. -/
def State.bayPart (s : State) (b : Nat) : Nat :=
  match s.bayJob b with
  | none => 0
  | some j => match s.jobAt j with | some v => v.part | none => 0

/-- What translation of an access to a job address says. -/
inductive Xlat where
  | target (t : Target)
  | missing
  | permission
  deriving DecidableEq, Repr

/-- Entry fields of R150. -/
def teValid (e : Nat) : Bool := bitOf e 63
def teLeaf (e : Nat) : Bool := bitOf e 62
def teSpace (e : Nat) : Nat := bitsOf e 59 56
def teAddr (e : Nat) : Nat := bitsOf e 51 0 * 4096

/-- Bytes a leaf of a level maps: 32 MiB at level 1 (coded 2), 64 KiB at level 2 (coded 3). -/
def leafBytes (level : Nat) : Nat := if level = 2 then 0x2000000 else 0x10000

/-- An entry read at a level (0 root, 1 to 3 for levels 0 to 2): none where it is treated as missing, the next table, or
a leaf (R150). -/
inductive WalkStep where
  | missing
  | next (table : Nat)
  | leaf (e : Nat)
  deriving DecidableEq, Repr

/-- DEDUCED: log 47. -/
def walkStep (level e : Nat) : WalkStep :=
  if !teValid e || bitsOf e 55 52 != 0 || decide (1 < teSpace e) then .missing
  else if teLeaf e then
    if level < 2 ∨ teAddr e % leafBytes level ≠ 0 then .missing else .leaf e
  else if level = 3 ∨ teSpace e ≠ 0 then .missing
  else .next (teAddr e)

/-- The device address of the entry for a job address in a table of a level (R150). -/
def entryAddr (level table a : Nat) : Nat :=
  table + 8 * (match level with
    | 0 => bitsOf a 47 43 | 1 => bitsOf a 42 34 | 2 => bitsOf a 33 25 | _ => bitsOf a 24 16)

/-- Where a leaf sends an access. DEDUCED: log 47. -/
def leafTarget (level e a : Nat) (write : Bool) : Xlat :=
  if !(if write then bitOf e 61 else bitOf e 60) then .permission
  else
    let x := teAddr e + a % leafBytes level
    .target (if teSpace e = 0 then .device x else .global x)

/-- The cached leaf of a job address in a bay, and its level. -/
def tlbFind (tlb : List TlbEntry) (part a : Nat) : Option (Nat × Nat) :=
  (tlb.find? (fun t => t.part == part && t.page == a / leafBytes t.level)).map (fun t => (t.level, t.leaf.toNat))

/-- Put a translation into a cache of n entries; the oldest leaves a full one. DEDUCED: log 47. -/
def tlbAdd (n : Nat) (tlb : List TlbEntry) (t : TlbEntry) : List TlbEntry :=
  (if tlb.length < n then tlb else tlb.drop 1) ++ [t]

/-- The class of a bay's job (R145, R243). -/
def State.bayClass (s : State) (b : Nat) : Nat :=
  match (s.bayJob b).bind s.jobAt with | some v => v.cls | none => 1

/-- A bay's stream engine and translation unit as an agent of the tile network (R229). -/
def State.streamAgent (s : State) (b : Nat) : Agent :=
  ⟨.router (Fin.ofNat 1024 (routerOfBay b)), 2, s.bayClass b, homeOfBay b⟩

/-- The lowest tag that a stream engine's endpoint does not use (R230). DEDUCED: log 48. -/
def State.freeTag (s : State) (b : Nat) : Nat :=
  let used := (s.noc.filter (fun e => !e.2.gone && e.2.pkt.src == .router (Fin.ofNat 1024 (routerOfBay b)) &&
    e.2.pkt.srcEp.val == 2)).map (fun e => e.2.pkt.tag.val)
  ((List.range 1024).find? (fun t => !used.contains t)).getD 0

/-- A device address lies in a bay's own slice, which its stream engine reaches through the crema port (R13, R249). -/
def State.ownSlice (s : State) (b A : Nat) : Bool :=
  match s.place A with | .crema x _ => x == b | .removed x => x == b | _ => false

/-- An access of a bay's stream engine sets out: through the crema port, to its decoder's own answer, or as a packet whose
answer goes to `o` (R134, R249, R269). The answer is the packet's number, and what is answered at once. DEDUCED: log 48. -/
def State.sendOut (s : State) (b : Nat) (o : NocOwner) (t : Target) (len : Nat) (write : Option (List Byte)) :
    Option Nat × Option (Nat × Nat × List Byte) × State :=
  let g := s.streamAgent b
  match t with
  | .device A =>
    if s.ownSlice b A then (none, none, s)
    else
      match s.decoderAnswer g.home A with
      | some (st, s) => (none, some (st, A, []), s)
      | none =>
        let x := s.nocSubmit (s.memPacket g A len write (s.freeTag b)) o none
        (some x.1, none, x.2)
  | .global a =>
    let p : NocPacket :=
      { src := g.src, srcEp := 2, tag := Fin.ofNat 1024 (s.freeTag b), dst := .edge (Fin.ofNat 4 g.home), dstEp := 1
        cls := Fin.ofNat 4 g.cls, type := if write.isSome then 1 else 0, addr := a % 2 ^ 48, bytes := len, atomicOp := 0
        payload := write.getD [] }
    let x := s.nocSubmit p o (some a)
    (some x.1, none, x.2)

/-- The elements a channel has delivered once a write is on its way: those before the first write still to issue (R135). -/
def Chan.deliveredBefore (c : Chan) (rest : List Req) : Nat :=
  match rest.filter (·.write) with
  | [] => if c.desc.kind = 1 then c.formed else c.converted
  | w :: _ => w.first

/-- A translated request is issued to its target (R134): a write counts as delivered. -/
def State.issue (s : State) (b c : Nat) (r : Req) (t : Target) : State :=
  let x := s.sendOut b (.stream b c r.id) t r.len (if r.write then some (r.data.getD []) else none)
  let s := x.2.2
  let ch := s.chanAt b c
  let rest := ch.todo.filter (fun q => q.id != r.id)
  let r := { r with target := some t, net := x.1, back := x.2.1, gone := false }
  s.setChan b c { ch with todo := rest, outstanding := ch.outstanding ++ [r], walk := none, state := .running
                          delivered := if r.write then ch.deliveredBefore rest else ch.delivered }

/-- A translation answers for a request of channel c. -/
def State.translated (s : State) (b c : Nat) (r : Req) (x : Xlat) : State :=
  let ch := s.chanAt b c
  let pause (cause : Nat) : State := (s.setChan b c (ch.meet ⟨r.first, cause, 0, r.addr, 0⟩)).settle b c
  match x with
  | .target t => s.issue b c r t
  | .missing => pause 1
  | .permission => pause 2

/-- The read of a table entry for a request of channel c sets out (R150). -/
def State.startWalk (s : State) (b c : Nat) (r : Req) (level table : Nat) : State :=
  let A := entryAddr level table r.addr
  let x := s.sendOut b (.walk b c) (.device A) 8 none
  x.2.2.setChan b c { x.2.2.chanAt b c with state := .running, walk := some ⟨r, level, A, x.1, x.2.1⟩ }

/-! ### Arrived data (R121 to R125) -/

/-- Convert every row whose data has all arrived, in order, and stop at a non-finite source. -/
def State.convertRows (s : State) (b c : Nat) : Nat → State
  | 0 => s
  | fuel + 1 =>
    let ch := s.chanAt b c
    let r := ch.converted
    let limit := match ch.fault with | some f => f.elem | none => ch.desc.total
    if ch.desc.rows ≤ r ∨ limit < ch.desc.rowEnd r then s
    else
      match assembleRow ch.desc ch.outstanding r with
      | .missing => s
      | .nonfinite k =>
        s.setChan b c (ch.faultAt ⟨k, 0, 0x42, ch.desc.elemAddr k, 0x20⟩)
      | .row x =>
        let next := ch.desc.rowFirst (r + 1)
        let s := s.setChan b c { ch with converted := r + 1, rows := ch.rows ++ [⟨r, x.bytes⟩]
                                         outstanding := ch.outstanding.filter (fun q =>
                                           q.inFlight || decide (next ≤ q.last)) }
        let s := s.bump (chReg b c Reg.STR_CH_ROUNDED) x.rounded
        let s := if x.sats = 0 then s
          else (((s.bump (chReg b c Reg.STR_CH_SAT) x.sats).bump (strReg b Reg.STR_SAT_COUNT) x.sats).setFlag
            (strReg b Reg.STR_ERR_FLAGS) 4).addSats b x.sats
        convertRows s b c fuel

/-- What an access that has set out answers: what came back, or, through the crema port, what the bay's own slice says; none
while its packet is on the way. The address of a failure of memory is a device address, of any other `addr` (R139). -/
def State.answered (s : State) (addr : Nat) (net : Option Nat) (back : Option (Nat × Nat × List Byte)) (own : State → MemAns × State) :
    Option (MemAns × State) :=
  match back with
  | some (st, A, d) => some (⟨st, if 0x20 ≤ st ∧ st ≤ 0x22 then A else addr, d⟩, s)
  | none => if net.isSome then none else some (own s)

/-- What a request that has been issued answers. DEDUCED: log 43. -/
def State.perform (s : State) (b : Nat) (r : Req) (m : MemFind) : Option (MemAns × State) :=
  s.answered r.addr r.net r.back (fun s =>
    match r.target with
    | some (.device A) => if r.write then s.memWrite (homeOfBay b) A (r.data.getD []) m else s.memRead (homeOfBay b) A r.len m
    | _ => (⟨0, r.addr, []⟩, s))

/-- The fault a request's status leads to (R136, R138, R139). -/
def requestFault (r : Req) (a : MemAns) : StrFault :=
  if a.status = 0x63 then ⟨r.first, 3, 0, r.addr, 4⟩
  else ⟨r.first, 0, a.status, a.addr, if a.status = 0x20 then 8 else 4⟩

end Sys2Proof.Machine
end

