-- ==== Sys2Proof/Machine/Mtx.lean ====
section
/-! DEFINITION. The commands of the matrix tiles: acceptance, feed, landing, drain, faults, credits and pre-emption
(R47 to R91). -/

namespace Sys2Proof.Machine

/-- Corrected errors of a buffer or an accumulator: counted and flagged (R57, R61). -/
def State.mtxCorrected (s : State) (t n count flag : Nat) : State :=
  if n = 0 then s else (s.bump (mtxReg t count) n).setFlag (mtxReg t Reg.MTX_ERR_FLAGS) flag

/-- Saturations of a tile: counted, flagged, added to its job, and marked for the reports of B_run as it stands (R39, R40). -/
def State.mtxSats (s : State) (t n : Nat) : State :=
  if n = 0 then s
  else
    let s := s.setMtx t { s.mtxAt t with satSinceSet := true }
    ((s.bump (mtxReg t Reg.MTX_SAT_COUNT) n).setFlag (mtxReg t Reg.MTX_ERR_FLAGS) 6).addSats (bayOfTile t) n

/-- The tile spends a cycle waiting to load or feed (R79). MTX_STATUS then shows a feed stall, also for a vector that is held
for the entries of a drain (R60), for which R73 lists no code of its own. DESIGN CHOICE: log 8, 135. -/
def State.mtxStall (s : State) (t counter : Nat) : State :=
  (s.setMtx t { s.mtxAt t with feedStalled := true }).bump (mtxReg t counter) 1

/-- The stationary load of the accepted pass, once it may run (R51): it waits for the previous pass's end with
sta_src 1, and for blocks not yet valid. -/
def State.tryLoad (s : State) (t : Nat) (e : List Ecc) : State :=
  let m := s.mtxAt t
  match m.cur with
  | none => s
  | some p =>
    if p.loaded || (p.desc.staSrc && !m.drains.isEmpty) then s
    else if !m.staReady p.desc then s.mtxStall t Reg.MTX_FEED_STALL
    else
      let d := p.desc
      let f := m.loadFinds d e
      let s := s.mtxCorrected t f.1 Reg.MTX_BUF_CE_COUNT 0
      match f.2 with
      | c :: more => s.mtxAbandon t p.index 0 c more
      | [] => s.setMtx t { m.loadCells d with
          staValid := true, held := some ⟨d.active.map (fun q => (d.qrec q).staAddr), d.quad, d.staFmt, d.staBits, d.rowMask⟩
          cur := some { p with loaded := true }, feedStalled := false }

/-- A matrix tile accepts the next descriptor, or refuses it (R26, R72, R80, R130). -/
def execPassAccept (t : Tile) (e : List Ecc) (s : State) : Out :=
  let m := s.mtxAt t
  let b := bayOfTile t
  match m.handed with
  | [] => impossible
  | h :: rest =>
    let d := passDesc h.words
    if m.cur.isSome || m.halted || m.preempt || s.outputsPending b h.layer d.micro then impossible
    else if passRefused h.words (t % 8) then
      let s := s.setMtx t { m with handed := rest }
      let s := s.mtxFault t 0x20 1 0x30 0 0 h.index 0
      .next (s.failBay b 0x30 (some (h.index, 0)) 0)
    else
      let keep := d.staKeep && m.keeps d
      let p : Pass := { index := h.index, layer := h.layer, cmd := h.cmd, desc := d, loaded := keep
                        fed := [0, 0, 0, 0], landed := [0, 0, 0, 0], inFlight := [], digits := [0, 0, 0, 0]
                        maxErr := 0, sat := false, kept := keep }
      let s := s.setMtx t { m with handed := rest, cur := some p, feedStalled := false }
      let s := s.wr (mtxReg t Reg.MTX_PASS_INDEX) (BitVec.ofNat 32 h.index)
      let s := s.wrFld (mtxReg t Reg.MTX_STATUS) 22 22 (if d.quad then 1 else 0)
      let s := if d.staKeep && !keep then s.bump (mtxReg t Reg.MTX_STA_RELOADS) 1 else s
      let x := s.bayAt b
      let s := s.setBay b { x with next := x.next + 1, waiting := false
                                   accepted := if x.accepted.contains h.layer then x.accepted else x.accepted ++ [h.layer] }
      .next (s.tryLoad t e)

/-- A read that a tile was making as its passes were abandoned meets a further cause in that cycle (R89). -/
def State.alsoMet (s : State) (t pass : Nat) (cs : List MtxCause) : Out :=
  match cs with
  | [] => impossible
  | c :: _ => match s.mtxAlso t pass c with
    | none => impossible
    | some u => .next u

/-- The pass that was current when the tile's passes were abandoned, and the drains. -/
def Mtx.goneCur (m : Mtx) : Option Pass := m.gone.bind (·.cur)
def Mtx.goneDrains (m : Mtx) : List Drain := (m.gone.map (·.drains)).getD []

/-- VECTOR_FEED (R55): a feed waits for the stationary load, which runs as soon as it may (R51). A block at entry that
is non-finite, or a word that cannot be corrected, abandons the pass (R31, R57). DEDUCED: log 27, 29. -/
def execVectorFeed (t : Tile) (q : Quad) (e : List Ecc) (s : State) : Out :=
  let m := s.mtxAt t
  match m.cur with
  | none =>
    match m.goneCur with
    | none => impossible
    | some p =>
      let v := nthN p.fed q
      if !(p.desc.active.contains q.val) || decide ((p.desc.qrec q).count ≤ v) then impossible
      else s.alsoMet t p.index (if p.loaded then m.feedFinds p.desc q v e else m.loadFinds p.desc e).2
  | some p =>
    let d := p.desc
    let v := nthN p.fed q
    let started := p.fed.any (· != 0)
    if !(d.active.contains q.val) || decide ((d.qrec q).count ≤ v) || (m.preempt && !started) then impossible
    else if !p.loaded then .next (s.tryLoad t e)
    else if !m.validRange ((d.qrec q).movAddr + v * (d.qrec q).movStride) d.movBytes then
      .next (s.mtxStall t Reg.MTX_FEED_STALL)
    else if m.holdsVector d q v then .next (s.mtxStall t Reg.MTX_ACC_WAIT)
    else
      let x := m.feedFinds d q v e
      let s := s.mtxCorrected t x.1 Reg.MTX_BUF_CE_COUNT 0
      match x.2 with
      | c :: more => .next (s.mtxAbandon t p.index 0 c more)
      | [] =>
        let f := m.feedVector d q v
        let dg := setNth p.digits q (nthN p.digits q + digitCycles f.skip f.stop)
        let spent := dg.foldl max 0 - p.digits.foldl max 0
        let s := s.setMtx t { m with feedStalled := false, cur := some { p with
          fed := setNth p.fed q (v + 1), inFlight := p.inFlight ++ [f], digits := dg } }
        let s := s.bump64 (mtxReg t Reg.MTX_DIGIT_CYCLES) spent
        let s := s.bump64 (mtxReg t Reg.MTX_SKIP_PLANES) (min f.skip (f.stop + 1))
        let s := s.bump64 (mtxReg t Reg.MTX_STOP_PLANES) (d.planes - 1 - f.stop)
        .next (s.addDigits (bayOfTile t) spent)

/-- A pass ends: counted, its named halves released (R54, R78). -/
def State.endPass (s : State) (t index : Nat) (d : PassDesc) : State :=
  let m := s.mtxAt t
  (s.setMtx t { (m.release d.relA d.relB) with lastEnded := some index }).bump (mtxReg t Reg.MTX_PASS_COUNT) 1

/-- The pass's last contribution has reached its entry: the bound is updated, and the pass ends or its drain
begins (R39, R77, R78). -/
def State.endArray (s : State) (t : Nat) (p : Pass) : State :=
  let m := (s.mtxAt t).updateBound p
  let s := s.wr64 (mtxReg t Reg.MTX_BOUND_PASS) (boundClip m.bPass)
  let s := s.wr64 (mtxReg t Reg.MTX_BOUND_RUN) (boundClip m.bRun)
  if p.desc.drainEn then
    s.setMtx t { m with cur := none, drains := m.drains ++ [⟨p.index, p.layer, p.desc, 0, [], 0, none⟩] }
  else (s.setMtx t { m with cur := none }).endPass t p.index p.desc

/-- A vector's last plane is done: its partials are aligned and added to their entries (R32, R58, R61). -/
def execVectorStreamEnd (t : Tile) (q : Quad) (e : List Ecc) (s : State) : Out :=
  let m := s.mtxAt t
  match m.cur with
  | none =>
    match m.goneCur with
    | none => impossible
    | some p => match p.inFlight.find? (fun f => f.quad == q.val) with
      | none => impossible
      | some f => s.alsoMet t p.index (p.desc.landFinds q f.vec e).2
  | some p =>
    match p.inFlight.find? (fun f => f.quad == q.val) with
    | none => impossible
    | some f =>
      let x := p.desc.landFinds q f.vec e
      let s := s.mtxCorrected t x.1 Reg.MTX_ACC_CE_COUNT 2
      match x.2 with
      | c :: more => .next (s.mtxAbandon t p.index 0 c more)
      | [] =>
        let r := m.landVector p.desc f
        let p' : Pass := { p with
          inFlight := p.inFlight.erase f, landed := setNth p.landed q (nthN p.landed q + 1)
          maxErr := max p.maxErr r.2.2, sat := p.sat || r.2.1 != 0 }
        let s := (s.setMtx t { r.1 with cur := some p' }).mtxSats t r.2.1
        if p.desc.active.all (fun i => nthN p'.landed i == (p.desc.qrec i).count) then .next (s.endArray t p')
        else .next s

/-- The drain reads its next entry, converts it and offers the record (R60, R61, R77). The bound is taken at the first read;
a drain that saturates reports all ones (R39, R40). DEDUCED: log 25. -/
def execDrainRecord (t : Tile) (e : List Ecc) (s : State) : Out :=
  let m := s.mtxAt t
  let reading (ds : List Drain) := ds.find? (fun x => decide (x.next < x.desc.drainPlan.length))
  let finds (x : Drain) :=
    let pos := x.desc.drainPlan.getD x.next (0, 0)
    x.desc.drainFinds pos.1 pos.2 e
  match reading m.drains with
  | none =>
    match reading m.goneDrains with
    | none => impossible
    | some x => s.alsoMet t x.index (finds x).2
  | some x =>
    let pos := x.desc.drainPlan.getD x.next (0, 0)
    let s := s.mtxCorrected t (finds x).1 Reg.MTX_ACC_CE_COUNT 2
    match (finds x).2 with
    | c :: more => .next (s.mtxAbandon t x.index x.records c more)
    | [] =>
      let r := m.drainRecord x.desc pos.1 pos.2
      let x' : Drain := { x with
        next := x.next + 1, offered := x.offered ++ r.1
        report := if r.2 != 0 then some 0xFFFFFFFF else
          x.report.orElse (fun _ => some (reportBound m.bRun x.desc.scaleExp
            (outDelta x.desc.outFmt x.desc.rm x.desc.scaleExp) m.satSinceSet)) }
      .next ((s.setMtx t { m with drains := m.drains.map (fun y => if y.index == x.index then x' else y) }).mtxSats t r.2)

/-- A record that its destination accepts in the cycle in which its pass is abandoned stands: its bytes lie in the memory it
was bound for, and the completion counts it (R86, R87, R89). DESIGN CHOICE: log 122. -/
def State.standLast (s : State) (t : Nat) (g : Abandoned) (x : Drain) (r : OutRecord) : State :=
  let b := bayOfTile t
  let m := s.mtxAt t
  let s := s.setMtx t { m with gone := some { g with stood := true } }
  let s :=
    if x.desc.dst = 1 then
      let v := s.vecAt b
      s.setVec b { v with dmem := tputSome v.dmem r.addr r.bytes }
    else if 2 ≤ x.desc.dst ∧ x.desc.dst ≤ 9 then
      let k := b * 8 + (x.desc.dst - 2)
      s.setMtx k { s.mtxAt k with buf := tputSome (s.mtxAt k).buf r.addr r.bytes }
    else s
  match s.bayJob b with
  | none => s
  | some j => s.mapJob j (fun v =>
    if v.detail = x.index then { v with recordsAccepted := ({ x with accepted := x.accepted + 1 } : Drain).records } else v)

/-- The destination accepts a record; the last acceptance ends the pass (R65, R78). A record refused for lack of
credits is offered again in the next cycle (R79). -/
def execDrainRecordAccept (t : Tile) (e : List Ecc) (s : State) : Out :=
  let m := s.mtxAt t
  let b := bayOfTile t
  match m.drains with
  | [] =>
    match m.gone with
    | none => impossible
    | some g => match g.stood, g.drains with
      | false, x :: _ => match x.offered with
        | r :: _ => .next (s.standLast t g x r)
        | [] => impossible
      | _, _ => impossible
  | x :: rest =>
    match x.offered with
    | [] => impossible
    | r :: more =>
      match s.deliver b (.drain t) x.desc.dst x.desc.dstChannel r.addr r.bytes
          (more.isEmpty && x.next == x.desc.drainPlan.length && decide (10 ≤ x.desc.dst)) with
      | none => .next ((s.setMtx t { m with drainStalled := true }).bump (mtxReg t Reg.MTX_DRAIN_STALL) 1)
      | some s =>
        let m := s.mtxAt t
        let x' : Drain := { x with offered := more, accepted := x.accepted + 1 }
        if more.isEmpty && x.next == x.desc.drainPlan.length then
          let s := s.setMtx t { m with drains := rest, drainStalled := false }
          let s := s.completeWriter b (.drain t)
          let s := match s.bayJob b with
            | none => s
            | some j => s.mapJob j (fun v => { v with bound := max v.bound (x.report.getD 0) })
          .next ((s.endPass t x.index x.desc).tryLoad t e)
        else .next (s.setMtx t { m with drains := x' :: rest, drainStalled := false })

/-- Records of the oldest drain that its destination has accepted. -/
def Mtx.recordsDone (m : Mtx) : Nat := match m.drains with | x :: _ => x.records | [] => 0

/-- A pass reaches cycle 65,536 of its count without ending: it is abandoned (R81, R85). Beside a fault of the same cycle
the expiry is only counted (R89). DESIGN CHOICE: log 122. -/
def execPassBudgetExpiry (t : Tile) (s : State) : Out :=
  let m := s.mtxAt t
  match m.oldest with
  | none => s.alsoMet t 0 [⟨0, 0x32, 0, 0, 0, false⟩]
  | some i => .next (s.mtxAbandon t i.1 m.recordsDone (m.plainCause 0x32) [])

/-- soft_reset of MTX_CTRL ends any pass as fault abandonment, clears sta_valid and frees both halves; a tile that had a pass
to abandon is halted until a later soft reset, or a new job (R73, R85, R86). One that finds the passes abandoned comes in a
later cycle than what abandoned them. DESIGN CHOICE: log 122. -/
def execMtxSoftReset (t : Tile) (s : State) : Out :=
  let m := s.mtxAt t
  let s := match m.oldest with
    | some i => s.mtxAbandon t i.1 m.recordsDone (m.plainCause 0xF0 true) []
    | none => s.setMtx t { m with gone := none }
  let u := s.mtxAt t
  .next (s.setMtx t { u.freeAll with staValid := false, halted := m.oldest.isSome, feedStalled := false, drainStalled := false })

/-- The bay-side state after a block is granted to a writer; none where the consumer has none to give (R126, R127, R187). -/
def State.grantBlock (s : State) (b dst blk : Nat) (w : Writer) : Option State :=
  if dst = 1 then
    let v := s.vecAt b
    if v.block blk = .free then some (s.setVec b (v.setBlock blk (.filling w))) else none
  else if 2 ≤ dst ∧ dst ≤ 9 then
    let m := s.mtxAt (b * 8 + (dst - 2))
    if m.block blk = .free then some (s.setMtx (b * 8 + (dst - 2)) (m.setBlock blk (.filling w))) else none
  else if dst = 0 then
    let ch := s.chanAt b blk
    if ch.started && ch.desc.kind == 1 && ch.desc.peer == peerCode w && s.stagingTurn b blk then
      some ((s.setChan b blk { ch with stages := ch.stages ++ [⟨ch.nextStage, w, [], false⟩], nextStage := ch.nextStage + 1 }).tookStaging
        s b blk)
    else none
  else
    let p := s.portAt b (dst - 10)
    match (List.range 4).find? (fun n => !p.blocks.any (fun g => g.num == n)) with
    | none => none
    | some n =>
      if s.portOpen b (dst - 10) && decide (0 < p.credits) && s.portTurn b (dst - 10) == some w then
        some (s.setPort b (dst - 10) { p with credits := p.credits - 1, blocks := p.blocks ++ [⟨n, w, 0, false⟩], last := srcCode w })
      else none

/-- A consumer grants the credit of a free block to a writer that asks for it (R53, R96, R126, R127, R187). A fetch
takes a staging block with it, one of the pool in its turn (R128). -/
def execCreditGrant (b : Bay) (dst blk : Nat) (w : Writer) (s : State) : Out :=
  if !(s.asks b w).contains (dst, blk) && !((s.asks b w).any (fun x => x.1 == dst && decide (10 ≤ dst))) then impossible
  else
    match w with
    | .stream _ c =>
      if !s.stagingTurn b c then impossible
      else
        match s.grantBlock b dst blk w with
        | none => impossible
        | some t =>
          let ch := t.chanAt b c
          .next ((t.setChan b c { ch with credits := ch.credits ++ [blk], held := ch.held ++ [ch.nextStage]
                                          nextStage := ch.nextStage + 1 }).tookStaging s b c)
    | _ =>
      match s.grantBlock b dst blk w with
      | none => impossible
      | some s =>
        -- records of a port leave with their credit (R186)
        match w with
        | .port _ p => .next (s.portFlush b p 132)
        | _ => .next s

/-- A stream channel has done with a destination block: its next row starts beyond it, or the stream has ended (R126). -/
def Chan.doneWith (ch : Chan) (blk : Nat) : Bool :=
  ch.credits.contains blk && (ch.finished || !(((List.range (ch.desc.rows - ch.accepted)).any (fun i =>
    (ch.desc.rowBlocks (ch.accepted + i)).contains blk))))

/-- A stream channel signals a destination block complete (R53, R96, R126); its staging block returns (R128), and a
load waiting for the block runs (R51). A port's blocks end with their 32nd record, or with the stream (R187). -/
def execBlockComplete (b : Bay) (dst blk : Nat) (w : Writer) (e : List Ecc) (s : State) : Out :=
  match w with
  | .stream _ c =>
    let ch := s.chanAt b c
    if !ch.doneWith blk || ch.desc.peer != dst || ch.desc.kind != 0 then impossible
    else
      let s := s.setChan b c { ch with credits := ch.credits.erase blk, held := ch.held.drop 1 }
      if dst = 1 then
        let v := s.vecAt b
        .next (if v.block blk = .filling w then s.setVec b (v.setBlock blk .valid) else s)
      else if 2 ≤ dst ∧ dst ≤ 9 then
        let t := b * 8 + (dst - 2)
        let m := s.mtxAt t
        .next ((if m.block blk = .filling w then s.setMtx t (m.setBlock blk .valid) else s).tryLoad t e)
      else .next s
  | _ => impossible

/-- A tile sees a pre-emption request: an accepted pass that has spent no digit cycle is withdrawn (R82), the
stationary-valid flag clears (R52). The answer is the tile and the command index of a withdrawn pass. -/
def Mtx.preemptTile (m : Mtx) : Mtx × Option Nat :=
  let m' := { m with preempt := true, handed := [], staValid := false, feedStalled := false }
  match m.cur with
  | some p => if p.fed.any (· != 0) then (m', none) else ({ m' with cur := none }, some p.cmd)
  | none => (m', none)

/-- The tile has reached its pass boundary (R82). -/
def Mtx.atBoundary (m : Mtx) : Bool := !m.busy

/-- A vector tile sees a pre-emption request: it issues no further packet, so that one between its slots is its last (R113).
DEDUCED: log 37. -/
def Vec.preemptVec (v : Vec) : Vec :=
  if !v.active then v else if v.ran.isEmpty then v.stop else { v with stopReq := true }

/-- A channel sees a pre-emption request (R142). -/
def Chan.preemptChan (c : Chan) : Chan := if c.live then { c with stopReq := true } else c

/-- One bay of a pre-empted job: tiles, vector tile, channels, ports and sequencer are told to stop. DEDUCED: log 37. -/
def State.preemptBay (s : State) (b : Nat) : State :=
  let rs := (List.range 8).map (fun i => (s.mtxAt (b * 8 + i)).preemptTile)
  let back := (rs.filterMap (·.2)).foldl min (s.bayAt b).next
  let s := s.each (List.range 8) (fun s i => s.setMtx (b * 8 + i) ((s.mtxAt (b * 8 + i)).preemptTile).1)
  let s := s.setVec b (s.vecAt b).preemptVec
  let s := s.each (List.range 16) (fun s c => (s.setChan b c (s.chanAt b c).preemptChan).settle b c)
  s.setBay b { s.bayAt b with next := back, waiting := false, running := false, barrier := none }

/-- Pre-emption reaches every bay of a running job; arrivals at barriers not yet released are discarded (R148). DEDUCED: log 37. -/
def State.preemptJob (s : State) (j : Nat) (v : Job) : State :=
  (s.setJob j { v with phase := .preempting, arrivals := [] }).each v.bays State.preemptBay

/-- Pre-empt a running job as part of another step (R158). -/
def State.preemptNow (s : State) (j : Nat) : State :=
  match s.jobAt j with
  | none => s
  | some v => if v.phase != .running then s else s.preemptJob j v

/-- A die controller sends pre-emption to every bay of a job (R82, R113, R142, R158, R160). -/
def execPreemption (j : Nat) (s : State) : Out :=
  match s.jobAt j with
  | none => impossible
  | some v => if v.phase != .running then impossible else .next (s.preemptJob j v)

end Sys2Proof.Machine
end

