-- ==== Sys2Proof/Machine/Logic.lean ====
section
/-! DEFINITION. The commands of the logic array: contention on long lines, block memories, PLLs and clocks, tile ports and user
I/O (R177 to R195). -/

namespace Sys2Proof.Machine

/-! ### Long lines, block memories, PLLs and clocks (R177, R180 to R183) -/

/-- LL_CONTENTION (R180): two or more mode-2 taps of a long line have their output-enables at 1; the keeper holds the line and
the onset is recorded. A tap of logic that does not run, or of a line forced off, is none of them (R215, R221). -/
def execLlContention (d : Die) (rr line : Fin 16) (s : State) : Out :=
  if decide ((s.enabledTaps d rr line).length < 2) || s.contending.contains (lineKey d rr line) then impossible
  else
    let first := !s.rbit (lgaReg d Reg.LGA_ERR_FLAGS) 1
    let s := { s with contending := s.contending ++ [lineKey d rr line] }
    let s := (s.bump (lgaReg d Reg.LGA_LL_CONTEND_COUNT) 1).setFlag (lgaReg d Reg.LGA_ERR_FLAGS) 1
    .next (if first then s.wr (lgaReg d Reg.LGA_LL_CONTEND_INFO) (BitVec.ofNat 32 (rr * 16 + line)) else s)

/-- BRAM_ECC_READ (R177): port A of a block memory in ECC shape reads a word, of which bits have been upset: the word and the
error outputs go to user logic, and an error is counted. No job ends, and the stored word stays as it is. -/
def execBramEccRead (d : Die) (memory : Fin 2048) (word : Fin 512) (flips : List (Fin 72)) (s : State) : Out :=
  match (s.cfgAt d).memAt memory with
  | none => impossible
  | some c =>
    if c.a.shape ≠ 6 || !c.ecc || !s.tileRuns d (memTile memory) then impossible
    else
      let f := flips.foldl (fun (x : BitVec 72) i => x ^^^ BitVec.twoPow 72 i) (s.bramFlip d memory word)
      let s := { s with bramFlips := tset (fun _ => 0) s.bramFlips (bramKey d memory word) f }
      let r := s.bramEccRead d memory word
      .next (r.2.setBramOut d memory 0 r.1)

/-- PLL_LOCK_LOSS (R183): a locked PLL loses lock and gates its outputs; what they clock holds. -/
def execPllLockLoss (d : Die) (n : Fin 8) (s : State) : Out :=
  if !s.pllLocked d n then impossible
  else
    let s := s.clrBits (lgaReg d Reg.LGA_STATUS) (2 ^ n.val)
    .next (((s.bump (lgaReg d (Reg.LGA_PLL_LOSS + 4 * n)) 1).setFlag (lgaReg d Reg.LGA_ERR_FLAGS) 0).settleLogic d)

/-- The reference of a PLL is there: another PLL's output needs that PLL's lock (R181). -/
def State.refRuns (s : State) (d : Nat) : PllRef → Bool
  | .osc => true
  | .pair => decide (12 ≤ d)
  | .pll n _ => s.pllLocked d n

/-- PLL_RELOCK (R181, R183): a PLL that a released die's image uses locks on its reference, and its outputs resume; ports it
clocks deliver what they held. -/
def execPllRelock (d : Die) (n : Fin 8) (s : State) : Out :=
  match s.pllOf d n with
  | none => impossible
  | some c =>
    if s.dieState d != 3 || s.pllLocked d n || !s.refRuns d c.ref then impossible
    else
      let s := (s.setBits (lgaReg d Reg.LGA_STATUS) (2 ^ n.val)).settleLogic d
      .next (s.each (List.range 64) (fun s b => s.each (List.range 4) (fun s p => s.portFlush (64 * d + b) p 132)))

/-- A global has dropped to low: one that was high with a routed signal has had its falling edge (R182). -/
def State.dropClock (s : State) (k : Nat) : State :=
  if tget (fun _ => 0) s.clkSeen k = 1 then { s with clkEdges := s.clkEdges ++ [(k, false)], clkSeen := tset (fun _ => 0) s.clkSeen k 0 }
  else s

/-- GLOBAL_CLOCK_SWITCH (R182): a global clock changes over to its other input, which it follows from that input's next falling
edge; where an input has stopped, a PLL output with its PLL's lock lost or an input from outside that has `stopped` (the one
followed first, then the other), the changeover does not complete and the global holds low. What ends that hold the spec does
not say: a later switch does, and not the input's return. DESIGN CHOICE: log 127. -/
def execGlobalClockSwitch (d : Die) (g : Fin 16) (stopped stopped2 : Bool) (s : State) : Out :=
  match s.globalInputs d g with
  | none => impossible
  | some x =>
    let k := 16 * d.val + g.val
    let ext (i : ClockInput) : Bool := match i with | .pll _ _ => false | _ => true
    if s.dieState d != 3 || (stopped && !ext x.1) || (stopped2 && !ext x.2) then impossible
    else if stopped || stopped2 || !s.inputRuns d x.1 || !s.inputRuns d x.2 then
      .next (({ s with clkHeld := if s.clkHeld.contains k then s.clkHeld else s.clkHeld ++ [k] } : State).dropClock k)
    else
      let s : State := { s with clkHeld := s.clkHeld.filter (· != k)
                                clkSel := tset (fun _ => 0) s.clkSel k (1 - tget (fun _ => 0) s.clkSel k) }
      let s := s.dropClock k
      .next (match x.2 with
        | .routed y => { s with clkSeen := tset (fun _ => 0) s.clkSeen k (if s.siteNow d y then 3 else 2) }
        | _ => s)

/-! ### Tile ports (R185 to R192) -/

/-- The user logic behind a port runs, and the port's clock: otherwise the port sees an idle consumer, or holds (R183, R191,
R218). DEDUCED: log 59. -/
def State.logicRuns (s : State) (b p : Nat) : Bool := s.tileRuns (dieOfBay b) (portTile b p) && s.portClocked b p

/-- A protocol error's cause (R190, R197); none where the record keeps the port protocol. Of several in one record, of which
the spec names none first, the lowest code is recorded. DESIGN CHOICE: log 136. -/
def pushFault (r : PortPush) : Option Nat :=
  let n := r.bytes.length
  let room := if r.dst = 1 then 0x80000 else 0x40000
  if 9 < r.dst then some 0
  else if r.dst ≠ 0 ∧ r.addr % 4 ≠ 0 then some 1
  else if n = 0 then some 2
  else if r.dst ≠ 0 ∧ 4096 < r.addr % 4096 + n then some 3
  else if r.dst ≠ 0 ∧ room < r.addr + n then some 4
  else none

/-- Push the records of one beat: a closed port discards and counts them (R189); one that breaks the protocol is
discarded, recorded and ends the bay's job (R190), and the records after it go with the queue (R192).
DEDUCED: log 59. -/
def State.pushBeat (s : State) (b p : Nat) : List PortPush → State
  | [] => s
  | r :: rest =>
    let d := dieOfBay b
    let q := s.portAt b p
    if !s.portOpen b p then
      ((s.bump (lgaReg d Reg.LGA_PORT_DROP_COUNT) 1).setFlag (lgaReg d Reg.LGA_ERR_FLAGS) 6).pushBeat b p rest
    else
      match pushFault r with
      | some c =>
        let first := !s.rbit (lgaReg d Reg.LGA_ERR_FLAGS) 5
        let s := s.setFlag (lgaReg d Reg.LGA_ERR_FLAGS) 5
        let s := if first then
            s.wr (lgaReg d Reg.LGA_PORT_FAULT) (BitVec.ofNat 32 (0x57 * 2 ^ 24 + c * 2 ^ 8 + (b % 64 * 4 + p)))
          else s
        s.failBay b 0x57 none 0
      | none =>
        let s := s.setPort b p { q with outQ := q.outQ ++ [⟨r.dst, r.addr, r.channel, r.done, r.bytes⟩] }
        s.pushBeat b p rest

/-- TILE_PORT_PUSH (R185, R186, R189, R190): user logic pushes a beat of the records that the port's width carries, all of them;
it may push only while ready is 1, the outbound queue of 128 having room for the beat. DEDUCED: log 59. DESIGN CHOICE: log 128, 136. -/
def execTilePortPush (b : Bay) (p : Fin 4) (rs : List PortPush) (s : State) : Out :=
  let q := s.portAt b p
  if !s.logicRuns b p || rs.isEmpty || rs.length != s.beat b p || decide (128 < q.outQ.length + rs.length) ||
      rs.any (fun r => r.bytes.length % 4 != 0 || decide (128 < r.bytes.length) || decide (2 ^ 19 ≤ r.addr) ||
        decide (15 < r.dst) || decide (15 < r.channel)) then impossible
  else .next ((s.pushBeat b p rs).portFlush b p 132)

/-- TILE_PORT_GRANT (R187, R188, R192): user logic grants the credit of one inbound block; beyond four it is ignored and
counted, on a closed port ignored. DESIGN CHOICE: log 128. -/
def execTilePortGrant (b : Bay) (p : Fin 4) (s : State) : Out :=
  let q := s.portAt b p
  let d := dieOfBay b
  if !s.logicRuns b p then impossible
  else if !s.portOpen b p then .next s
  else if 4 ≤ q.credits + q.blocks.length then
    .next ((s.bump (lgaReg d Reg.LGA_PORT_DROP_COUNT) 1).setFlag (lgaReg d Reg.LGA_ERR_FLAGS) 4)
  else .next (s.setPort b p { q with credits := q.credits + 1 })

/-- User logic pops the oldest inbound record of a port; the one marked block_end returns its block (R187). -/
def State.popRecord (s : State) (b p : Nat) : State :=
  let q := s.portAt b p
  match q.inQ with
  | [] => s
  | r :: rest =>
    let blocks := if r.blockEnd then q.blocks.filter (fun g => g.num != r.block) else q.blocks
    (s.setPort b p { q with inQ := rest, blocks := blocks }).emit (.toLogic b p r.src r.tag r.blockEnd r.bytes)

/-- TILE_PORT_POP (R185, R187): user logic pops a beat: the oldest inbound records that fill the port's width, or as many as there
are. DESIGN CHOICE: log 128. DEDUCED: log 59. -/
def execTilePortPop (b : Bay) (p : Fin 4) (s : State) : Out :=
  if (s.portAt b p).inQ.isEmpty || !s.logicRuns b p || !s.portOpen b p then impossible
  else .next (s.each (List.range (s.beat b p)) (fun s _ => s.popRecord b p))

/-! ### User I/O (R193 to R195) -/

/-- DELAY_TAP_LOAD (R195): user logic loads a cell's delay tap. -/
def execDelayTapLoad (c : Fin 96) (tap : Fin 512) (s : State) : Out :=
  if s.dieState (dieOfCell c) != 3 then impossible
  else .next { s with taps := tset (fun _ => 0) s.taps c tap }

/-- DELAY_TAP_STEP (R195): user logic steps a cell's delay tap by one; where no tap lies beyond, the spec states no
result, and the tap is a free value. DEDUCED: log 58. -/
def execDelayTapStep (c : Fin 96) (up : Bool) (s : State) : Out :=
  if s.dieState (dieOfCell c) != 3 then impossible
  else
    let t := tget (fun _ => 0) s.taps c
    if up ∧ 511 ≤ t ∨ !up ∧ t = 0 then
      .next { s with taps := tset (fun _ => 0) s.taps c ((Config.freeWord s.free).toNat % 512), free := s.free + 1 }
    else .next { s with taps := tset (fun _ => 0) s.taps c (if up then t + 1 else t - 1) }

end Sys2Proof.Machine
end

