-- ==== Sys2Proof/Machine/Cipher.lean ====
section
/-! DEFINITION. The ciphers and keyed hashes that configuration and security use: AES-256, GCM, key wrap, Keccak and KMAC256
(R207, R208, R378 to R384). -/

namespace Sys2Proof.Machine

/-! ### AES-256 (FIPS 197) -/

/-- Multiply by x in GF(2^8). -/
def gfDouble (a : Byte) : Byte := BitVec.ofNat 8 ((2 * a.toNat) ^^^ (a.toNat / 128 * 0x11B))

/-- Multiplication in GF(2^8) by a constant below 16. -/
def gfTimes (a : Byte) (c : Nat) : Byte :=
  (if c % 2 = 1 then a else 0) ^^^ (if c / 2 % 2 = 1 then gfDouble a else 0) ^^^
  (if c / 4 % 2 = 1 then gfDouble (gfDouble a) else 0) ^^^ (if c / 8 % 2 = 1 then gfDouble (gfDouble (gfDouble a)) else 0)

/-- The S-box of FIPS 197, entry a in bits 8a to 8a + 7, and its inverse. -/
def aesBox : Nat :=
  0x16bb54b00f2d99416842e6bf0d89a18cdf2855cee9871e9b948ed9691198f8e19e1dc186b95735610ef6034866b53e708a8bbd4b1f74dde8c6b4a61c2e2578ba * 2 ^ 1536 +
  0x08ae7a65eaf4566ca94ed58d6d37c8e779e4959162acd3c25c2406490a3a32e0db0b5ede14b8ee4688902a22dc4f816073195d643d7ea7c41744975fec130ccd * 2 ^ 1024 +
  0xd2f3ff1021dab6bcf5389d928f40a351a89f3c507f02f94585334d43fbaaefd0cf584c4a39becb6a5bb1fc20ed00d153842fe329b3d63b52a05a6e1b1a2c8309 * 2 ^ 512 +
  0x75b227ebe28012079a059618c323c7041531d871f1e5a534ccf73f362693fdb7c072a49cafa2d4adf04759fa7dc982ca76abd7fe2b670130c56f6bf27b777c63 * 2 ^ 0
def aesUnbox : Nat :=
  0x7d0c2155631469e126d677ba7e042b17619953833cbbebc8b0f52aae4d3be0a0ef9cc9939f7ae52d0d4ab519a97f51605fec8027591012b131c7078833a8dd1f * 2 ^ 1536 +
  0xf45acd78fec0db9a2079d2c64b3e56fc1bbe18aa0e62b76f89c5291d711af1476edf751ce837f9e28535ade72274ac9673e6b4f0cecff297eadc674f4111913a * 2 ^ 1024 +
  0x6b8a130103bdafc1020f3fca8f1e2cd00645b3b80558e4f70ad3bc8c00abd890849d8da75746155edab9edfd5048706c92b6655dcc5ca4d41698688664f6f872 * 2 ^ 512 +
  0x25d18b6d49a25b76b224d92866a12e084ec3fa420b954cee3d23c2a632947b54cbe9dec444438e3487ff2f9b8239e37cfbd7f3819ea340bf38a53630d56a0952 * 2 ^ 0

def aesSub (a : Byte) : Byte := BitVec.ofNat 8 (aesBox >>> (8 * a.toNat))
def aesUnsub (a : Byte) : Byte := BitVec.ofNat 8 (aesUnbox >>> (8 * a.toNat))

def xorBytes (a b : List Byte) : List Byte := List.zipWith (· ^^^ ·) a b

/-- Key schedule: words of four bytes, newest first; 60 in all. -/
def aesExpand : Nat → List (List Byte) → List (List Byte)
  | 0, ws => ws
  | n + 1, ws =>
    let i := ws.length
    let prev := ws.headD []
    let t := if i % 8 = 0 then
        xorBytes ((prev.drop 1 ++ prev.take 1).map aesSub)
          [BitVec.ofNat 8 (2 ^ (i / 8 - 1)), 0, 0, 0]
      else if i % 8 = 4 then prev.map aesSub else prev
    aesExpand n (xorBytes (ws.getD 7 []) t :: ws)

/-- The fifteen round keys, 16 bytes each. -/
def aesKeys (key : List Byte) : List (List Byte) :=
  let w0 := (List.range 8).map (fun i => (key.drop (4 * i)).take 4)
  let ws := (aesExpand 52 w0.reverse).reverse
  (List.range 15).map (fun r => ((ws.drop (4 * r)).take 4).flatten)

/-- Rows shift: byte i of the result is byte `p i` of the block. -/
def aesPermute (p : Nat → Nat) (b : List Byte) : List Byte := (List.range 16).map (fun i => b.getD (p i) 0)
def aesShift : List Byte → List Byte := aesPermute (fun i => (i / 4 + i % 4) % 4 * 4 + i % 4)
def aesUnshift : List Byte → List Byte := aesPermute (fun i => (i / 4 + 4 - i % 4) % 4 * 4 + i % 4)

/-- A column times the matrix whose first row is cs. -/
def aesMixWith (cs : List Nat) (b : List Byte) : List Byte :=
  (List.range 16).map (fun i =>
    (List.range 4).foldl (fun a k => a ^^^ gfTimes (b.getD (i / 4 * 4 + k) 0) (cs.getD ((k + 4 - i % 4) % 4) 0)) 0)

/-- Encrypt one block under the round keys. -/
def aesEncrypt (ks : List (List Byte)) (b : List Byte) : List Byte :=
  let b := xorBytes b (ks.getD 0 [])
  let b := (List.range 13).foldl (fun b r =>
    xorBytes (aesMixWith [2, 3, 1, 1] (aesShift (b.map aesSub))) (ks.getD (r + 1) [])) b
  xorBytes (aesShift (b.map aesSub)) (ks.getD 14 [])

/-- Decrypt one block under the round keys. -/
def aesDecrypt (ks : List (List Byte)) (b : List Byte) : List Byte :=
  let b := (aesUnshift (xorBytes b (ks.getD 14 []))).map aesUnsub
  let b := (List.range 13).foldl (fun b r =>
    (aesUnshift (aesMixWith [14, 11, 13, 9] (xorBytes b (ks.getD (13 - r) [])))).map aesUnsub) b
  xorBytes b (ks.getD 0 [])

/-! ### GCM (SP 800-38D) and key wrap (SP 800-38F) -/

/-- A number from bytes, the first the most significant, and back. -/
def beNat (bs : List Byte) : Nat := bs.foldl (fun n b => n * 256 + b.toNat) 0
def beBytes (n x : Nat) : List Byte := (natBytes n x).reverse

/-- Halve in GF(2^128) as GCM orders its bits: the first bit of a block is the most significant. -/
def ghashHalve (v : BitVec 128) : BitVec 128 :=
  if v.getLsbD 0 then (v >>> 1) ^^^ (0xE1#128 <<< 120) else v >>> 1

def ghashMul (x y : BitVec 128) : BitVec 128 :=
  ((List.range 128).foldl (fun (zv : BitVec 128 × BitVec 128) i =>
    (if x.getMsbD i then zv.1 ^^^ zv.2 else zv.1, ghashHalve zv.2)) (0, y)).1

/-- Bytes cut into blocks of 16, the last filled with zeros. -/
def blocks16 (bs : List Byte) : List (List Byte) :=
  (List.range ((bs.length + 15) / 16)).map (fun i =>
    let b := (bs.drop (16 * i)).take 16
    b ++ List.replicate (16 - b.length) 0)

def ghash (h : BitVec 128) (bs : List (List Byte)) : BitVec 128 :=
  bs.foldl (fun y b => ghashMul (y ^^^ BitVec.ofNat 128 (beNat b)) h) 0

/-- Counter mode from a counter block, 32-bit counter. -/
def ctrBlocks (ks : List (List Byte)) (iv : List Byte) : Nat → List (List Byte) → List Byte
  | _, [] => []
  | c, b :: bs => xorBytes b (aesEncrypt ks (iv ++ beBytes 4 c)) ++ ctrBlocks ks iv (c + 1) bs

/-- AES-256-GCM with a 96-bit IV: the plaintext where the tag authenticates. DESIGN CHOICE: log 108. -/
def gcmOpen (key iv aad ct tag : List Byte) : Option (List Byte) :=
  let ks := aesKeys key
  let h := BitVec.ofNat 128 (beNat (aesEncrypt ks (List.replicate 16 0)))
  let y := ghash h (blocks16 aad ++ blocks16 ct ++ [beBytes 8 (8 * aad.length) ++ beBytes 8 (8 * ct.length)])
  let t := xorBytes (beBytes 16 y.toNat) (aesEncrypt ks (iv ++ beBytes 4 1))
  if t = tag then some ((ctrBlocks ks iv 2 (blocks16 ct)).take ct.length) else none

/-- One unwrapping step: the integrity value, and the registers R1 … Rn. -/
def kwStep (ks : List (List Byte)) (n : Nat) (x : List Byte × List (List Byte)) (t : Nat) : List Byte × List (List Byte) :=
  let i := (t - 1) % n
  let a := beBytes 8 ((BitVec.ofNat 64 (beNat x.1) ^^^ BitVec.ofNat 64 t).toNat)
  let b := aesDecrypt ks (a ++ x.2.getD i [])
  (b.take 8, x.2.set i (b.drop 8))

/-- AES-256 key unwrap: the key where the integrity check passes. DESIGN CHOICE: log 108. -/
def kwUnwrap (key wrapped : List Byte) : Option (List Byte) :=
  let n := wrapped.length / 8 - 1
  let ks := aesKeys key
  let rs := (List.range n).map (fun i => (wrapped.drop (8 * (i + 1))).take 8)
  let r := ((List.range (6 * n)).reverse.map (· + 1)).foldl (kwStep ks n) (wrapped.take 8, rs)
  if r.1 = List.replicate 8 0xA6 ∧ wrapped.length = 8 * (n + 1) then some r.2.flatten else none

/-! ### Keccak and KMAC256 (FIPS 202, SP 800-185) -/

/-- Rotation of lane x + 5·y. -/
def keccakRot : List Nat :=
  [0, 1, 62, 28, 27, 36, 44, 6, 55, 20, 3, 10, 43, 25, 39, 41, 45, 15, 21, 8, 18, 2, 61, 56, 14]

def keccakRc : List (BitVec 64) :=
  [0x0000000000000001, 0x0000000000008082, 0x800000000000808A, 0x8000000080008000, 0x000000000000808B,
   0x0000000080000001, 0x8000000080008081, 0x8000000000008009, 0x000000000000008A, 0x0000000000000088,
   0x0000000080008009, 0x000000008000000A, 0x000000008000808B, 0x800000000000008B, 0x8000000000008089,
   0x8000000000008003, 0x8000000000008002, 0x8000000000000080, 0x000000000000800A, 0x800000008000000A,
   0x8000000080008081, 0x8000000000008080, 0x0000000080000001, 0x8000000080008008]

/-- One round on 25 lanes. -/
def keccakRound (s : List (BitVec 64)) (rc : BitVec 64) : List (BitVec 64) :=
  let at_ (s : List (BitVec 64)) (x y : Nat) : BitVec 64 := s.getD (x % 5 + 5 * (y % 5)) 0
  let c := (List.range 5).map (fun x => (List.range 5).foldl (fun a y => a ^^^ at_ s x y) 0)
  let d := (List.range 5).map (fun x => c.getD ((x + 4) % 5) 0 ^^^ (c.getD ((x + 1) % 5) 0).rotateLeft 1)
  let s := (List.range 25).map (fun i => s.getD i 0 ^^^ d.getD (i % 5) 0)
  -- lane (x, y) of the rotated and moved state comes from lane ((x + 3·y) mod 5, x)
  let b := (List.range 25).map (fun i =>
    let x := i % 5
    let y := i / 5
    let j := (x + 3 * y) % 5 + 5 * x
    (s.getD j 0).rotateLeft (keccakRot.getD j 0))
  let s := (List.range 25).map (fun i =>
    at_ b (i % 5) (i / 5) ^^^ (~~~(at_ b (i % 5 + 1) (i / 5)) &&& at_ b (i % 5 + 2) (i / 5)))
  match s with
  | [] => []
  | x :: xs => (x ^^^ rc) :: xs

def keccakF (s : List (BitVec 64)) : List (BitVec 64) := keccakRc.foldl keccakRound s

/-- Absorb a padded message at a rate in bytes. -/
def keccakAbsorb (rate : Nat) (msg : List Byte) : List (BitVec 64) :=
  (List.range (msg.length / rate)).foldl (fun s i =>
    let blk := (msg.drop (rate * i)).take rate
    keccakF ((List.range 25).map (fun k =>
      s.getD k 0 ^^^ (if k < rate / 8 then BitVec.ofNat 64 (bytesNat ((blk.drop (8 * k)).take 8)) else 0))))
    (List.replicate 25 0)

/-- Pad with a domain byte to the rate. -/
def keccakPad (rate : Nat) (suffix : Byte) (msg : List Byte) : List Byte :=
  let q := rate - msg.length % rate
  if q = 1 then msg ++ [suffix ||| 0x80]
  else msg ++ [suffix] ++ List.replicate (q - 2) 0 ++ [0x80]

/-- Squeeze blocks from a state. -/
def keccakSqueeze (rate : Nat) : Nat → List (BitVec 64) → List Byte
  | 0, _ => []
  | n + 1, s => (s.take (rate / 8)).flatMap (fun w => natBytes 8 w.toNat) ++ keccakSqueeze rate n (keccakF s)

/-- The first n bytes of SHAKE128 (rate 168), of SHAKE256 (rate 136). -/
def shake (rate : Nat) (msg : List Byte) (n : Nat) : List Byte :=
  (keccakSqueeze rate ((n + rate - 1) / rate) (keccakAbsorb rate (keccakPad rate 0x1F msg))).take n

/-- The encodings of SP 800-185: left_encode, right_encode, encode_string and bytepad. -/
def lenBytes (x : Nat) : List Byte := beBytes (max 1 ((Nat.log2 x + 8) / 8)) x
def leftEncode (x : Nat) : List Byte := BitVec.ofNat 8 (lenBytes x).length :: lenBytes x
def rightEncode (x : Nat) : List Byte := lenBytes x ++ [BitVec.ofNat 8 (lenBytes x).length]
def encodeString (s : List Byte) : List Byte := leftEncode (8 * s.length) ++ s
def bytepad (x : List Byte) : List Byte :=
  let y := leftEncode 136 ++ x
  y ++ List.replicate ((136 - y.length % 136) % 136) 0

/-- The bytes of a string of ASCII characters. -/
def ascii (s : String) : List Byte := s.toList.map (fun c => BitVec.ofNat 8 c.toNat)

/-- KMAC256(K, X, 256, S). DESIGN CHOICE: log 108. -/
def kmac256 (k x : List Byte) (s : String) : List Byte :=
  let msg := bytepad (encodeString (ascii "KMAC") ++ encodeString (ascii s)) ++ bytepad (encodeString k) ++ x ++
    rightEncode 256
  ((keccakAbsorb 136 (keccakPad 136 0x04 msg)).take 4).flatMap (fun w => natBytes 8 w.toNat)

end Sys2Proof.Machine
end

