-- ==== Sys2Proof/Machine/Sign.lean ====
section
/-! DEFINITION. The signature standards of the security module: Ed25519 (FIPS 186-5) and ML-DSA-65 (FIPS 204) (R378). -/

namespace Sys2Proof.Machine

/-- A power modulo m, for exponents below 2^256. -/
def powMod (m b e : Nat) : Nat :=
  (List.range 256).reverse.foldl (fun r i => if e.testBit i then r * r % m * b % m else r * r % m) 1

/-! ### Ed25519 -/

def edP : Nat := 2 ^ 255 - 19
def edL : Nat := 2 ^ 252 + 27742317777372353535851937790883648493
def edD : Nat := 37095705934669439343138083508754565189542113879843219016388785533085940283555
/-- A square root of −1. -/
def edRoot : Nat := 19681161376707505956807079304988542015446066515923890162744021073123829784752

/-- A point in extended coordinates: x = X/Z, y = Y/Z, xy = T/Z. -/
structure EdPoint where
  X : Nat
  Y : Nat
  Z : Nat
  T : Nat

def edZero : EdPoint := ⟨0, 1, 1, 0⟩
def edBase : EdPoint :=
  let x := 15112221349535400772501151409588531511454012693041857206046113283949847762202
  let y := 46316835694926478169428394003475163141307993866256225615783033603165251855960
  ⟨x, y, 1, x * y % edP⟩

def EdPoint.add (p q : EdPoint) : EdPoint :=
  let sub (a b : Nat) : Nat := (a + edP - b) % edP
  let a := sub p.Y p.X * sub q.Y q.X % edP
  let b := (p.Y + p.X) * (q.Y + q.X) % edP
  let c := 2 * edD * p.T % edP * q.T % edP
  let d := 2 * p.Z * q.Z % edP
  let e := sub b a
  let f := sub d c
  let g := (d + c) % edP
  let h := (b + a) % edP
  ⟨e * f % edP, g * h % edP, f * g % edP, e * h % edP⟩

/-- A multiple of a point. -/
def EdPoint.times (n : Nat) (p : EdPoint) : EdPoint :=
  (List.range 256).reverse.foldl (fun r i => let r := r.add r; if n.testBit i then r.add p else r) edZero

def EdPoint.same (p q : EdPoint) : Bool :=
  p.X * q.Z % edP == q.X * p.Z % edP && p.Y * q.Z % edP == q.Y * p.Z % edP

def EdPoint.encode (p : EdPoint) : List Byte :=
  let z := powMod edP p.Z (edP - 2)
  natBytes 32 (p.Y * z % edP + p.X * z % edP % 2 * 2 ^ 255)

def edDecode (bs : List Byte) : Option EdPoint :=
  let n := bytesNat bs
  let y := n % 2 ^ 255
  let u := (y * y + edP - 1) % edP
  let v := (edD * y % edP * y + 1) % edP
  let x := u * powMod edP v 3 % edP * powMod edP (u * powMod edP v 7) ((edP - 5) / 8) % edP
  let w := v * x % edP * x % edP
  let x := if w = u then x else x * edRoot % edP
  if edP ≤ y ∨ v * x % edP * x % edP ≠ u ∨ (x = 0 ∧ n / 2 ^ 255 = 1) then none
  else
    let x := if x % 2 = n / 2 ^ 255 then x else edP - x
    some ⟨x, y, 1, x * y % edP⟩

/-- A digest as a number modulo the order of the base point. -/
def edHash (bs : List Byte) : Nat := bytesNat (sha512 bs) % edL

/-- Verification of a signature on a message under a public key, with the cofactor. DESIGN CHOICE: log 108. -/
def edVerify (key msg sig : List Byte) : Bool :=
  match edDecode key, edDecode (sig.take 32) with
  | some a, some r =>
    let t := bytesNat (sig.drop 32)
    key.length == 32 && sig.length == 64 && decide (t < edL) &&
      (edBase.times t |>.times 8).same ((r.add (a.times (edHash (sig.take 32 ++ key ++ msg)))).times 8)
  | _, _ => false

/-- The secret number of a seed. -/
def edSecret (seed : List Byte) : Nat := bytesNat ((sha512 seed).take 32) % 2 ^ 254 / 8 * 8 + 2 ^ 254

def edPublic (seed : List Byte) : List Byte := (edBase.times (edSecret seed)).encode

/-- Sign a message from a seed. DESIGN CHOICE: log 108. -/
def edSign (seed msg : List Byte) : List Byte :=
  let r := edHash ((sha512 seed).drop 32 ++ msg)
  let R := (edBase.times r).encode
  R ++ natBytes 32 ((r + edHash (R ++ edPublic seed ++ msg) * edSecret seed) % edL)

/-! ### ML-DSA-65: polynomials of degree below 256 over the integers modulo q, as lists of 256 coefficients -/

def mlQ : Nat := 8380417
/-- γ₁, 2γ₂, β, ω. -/
def mlGamma1 : Nat := 2 ^ 19
def mlAlpha : Nat := 523776
def mlBeta : Nat := 196
def mlOmega : Nat := 55

abbrev Poly := List Nat

/-- Reverse the 8 bits of a number. -/
def brv8 (i : Nat) : Nat := (List.range 8).foldl (fun r k => 2 * r + i / 2 ^ k % 2) 0

/-- The points of the number theoretic transform: the odd powers of 1753, in bit-reversed order. -/
def mlPoints : List Nat := (List.range 256).map (fun i => powMod mlQ 1753 (2 * brv8 i + 1))

/-- The transform: a polynomial's values at the points. -/
def ntt (w : Poly) : Poly := mlPoints.map (fun z => w.foldr (fun c a => (c + z * a) % mlQ) 0)

/-- Sums of terms, each multiplied by its factor from one sum to the next. -/
def powerSums (zs : List Nat) : Nat → List Nat → List Nat
  | 0, _ => []
  | n + 1, cs => cs.foldl (· + ·) 0 % mlQ :: powerSums zs n (List.zipWith (fun c z => c * z % mlQ) cs zs)

/-- Back from values to coefficients: coefficient j is the sum of the values times the points' −j-th powers, over 256. -/
def unNtt (w : Poly) : Poly :=
  (powerSums (mlPoints.map (fun z => powMod mlQ z (mlQ - 2))) 256 w).map (fun x => x * 8347681 % mlQ)

def polyAdd (a b : Poly) : Poly := List.zipWith (fun x y => (x + y) % mlQ) a b
def polySub (a b : Poly) : Poly := List.zipWith (fun x y => (x + mlQ - y) % mlQ) a b
def polyMul (a b : Poly) : Poly := List.zipWith (fun x y => x * y % mlQ) a b
def polyZero : Poly := List.replicate 256 0

/-- A matrix times a vector, both transformed. -/
def matMul (A : List (List Poly)) (v : List Poly) : List Poly :=
  A.map (fun row => (List.zipWith polyMul row v).foldl polyAdd polyZero)

/-- Coefficients are below a bound, taken about 0. -/
def polyBelow (b : Nat) (w : Poly) : Bool := w.all (fun x => decide (min x (mlQ - x) < b))

/-- The 256 fields of w bits in bytes. -/
def unpackBits (w : Nat) (bs : List Byte) : List Nat :=
  let n := bytesNat bs
  (List.range 256).map (fun i => n / 2 ^ (w * i) % 2 ^ w)

/-! #### Sampling (FIPS 204, algorithms 29 to 34) -/

def threes : List Byte → List Nat
  | a :: b :: c :: t => (a.toNat + 256 * b.toNat + 65536 * (c.toNat % 128)) :: threes t
  | _ => []

/-- The matrix A of a seed, transformed. -/
def expandA (rho : List Byte) : List (List Poly) :=
  (List.range 6).map (fun r => (List.range 5).map (fun s =>
    ((threes (shake 168 (rho ++ natBytes 1 s ++ natBytes 1 r) 1008)).filter (fun x => decide (x < mlQ))).take 256))

/-- A secret polynomial, coefficients −4 to 4. -/
def expandS (rho : List Byte) (r : Nat) : Poly :=
  (((shake 136 (rho ++ natBytes 2 r) 544).flatMap (fun b => [b.toNat % 16, b.toNat / 16])).filter (fun x => decide (x < 9))).take 256
    |>.map (fun x => (mlQ + 4 - x) % mlQ)

/-- A mask polynomial, coefficients −γ₁ + 1 to γ₁. -/
def expandMask (rho : List Byte) (n : Nat) : Poly :=
  (unpackBits 20 (shake 136 (rho ++ natBytes 2 n) 640)).map (fun x => (mlQ + mlGamma1 - x) % mlQ)

/-- The challenge polynomial: 49 coefficients 1 or −1. -/
def sampleInBall (seed : List Byte) : Poly :=
  let bs := shake 136 seed 272
  let signs := bytesNat (bs.take 8)
  ((List.range 49).foldl (fun (x : Poly × List Byte) n =>
    let i := 207 + n
    let rest := x.2.dropWhile (fun b => decide (i < b.toNat))
    let j := (rest.headD 0).toNat
    ((x.1.set i (x.1.getD j 0)).set j (if signs.testBit n then mlQ - 1 else 1), rest.drop 1)) (polyZero, bs.drop 8)).1

/-! #### Rounding and hints (algorithms 35 to 40) -/

/-- t to t1 and t0, with t = t1·2^13 + t0. -/
def powerRound (t : Nat) : Nat × Nat :=
  let r := t % 8192
  if r ≤ 4096 then (t / 8192, r) else (t / 8192 + 1, (mlQ + r - 8192) % mlQ)

/-- High and low part of a coefficient, and whether the low part is above 0; the low part modulo q. -/
def decompose (r : Nat) : Nat × Nat × Bool :=
  let n := r % mlAlpha
  let up := decide (mlAlpha / 2 < n)
  let r0 := if up then (mlQ + n - mlAlpha) % mlQ else n
  if r - n + (if up then mlAlpha else 0) = mlQ - 1 then (0, (r0 + mlQ - 1) % mlQ, false)
  else (r / mlAlpha + (if up then 1 else 0), r0, !up && decide (0 < n))

def highBits (w : Poly) : Poly := w.map (fun r => (decompose r).1)
def lowBits (w : Poly) : Poly := w.map (fun r => (decompose r).2.1)

/-- The high part that a hint gives back. -/
def useHint (h : Bool) (r : Nat) : Nat :=
  let d := decompose r
  if !h then d.1 else if d.2.2 then (d.1 + 1) % 16 else (d.1 + 15) % 16

def packHint (h : List (List Bool)) : List Byte :=
  let places (p : List Bool) : List Nat := (p.zipIdx.filter (·.1)).map (·.2)
  let idx := h.flatMap places
  let ends := (List.range 6).map (fun i => ((h.take (i + 1)).flatMap places).length)
  (idx ++ List.replicate (mlOmega - idx.length) 0 ++ ends).map (fun x => BitVec.ofNat 8 x)

/-- A list of places rises. -/
def rises : List Nat → Bool
  | a :: b :: t => decide (a < b) && rises (b :: t)
  | _ => true

def unpackHint (bs : List Byte) : Option (List (List Bool)) :=
  let n (i : Nat) : Nat := (bs.getD i 0).toNat
  let start (i : Nat) : Nat := if i = 0 then 0 else n (mlOmega + i - 1)
  let places (i : Nat) : List Nat := (List.range (n (mlOmega + i) - start i)).map (fun k => n (start i + k))
  if (List.range 6).all (fun i => decide (start i ≤ n (mlOmega + i)) && decide (n (mlOmega + i) ≤ mlOmega) && rises (places i)) &&
      (List.range mlOmega).all (fun k => decide (k < n (mlOmega + 5)) || n k == 0) then
    some ((List.range 6).map (fun i => (List.range 256).map (fun j => (places i).contains j)))
  else none

/-! #### Keys, signing and verification (algorithms 6 to 8) -/

/-- What key generation makes from a seed. -/
structure MlKey where
  rho : List Byte
  K : List Byte
  s1 : List Poly
  s2 : List Poly
  t1 : List Poly
  t0 : List Poly

def mlKeyGen (seed : List Byte) : MlKey :=
  let h := shake 136 (seed ++ [6, 5]) 128
  let rho := h.take 32
  let s1 := (List.range 5).map (expandS ((h.drop 32).take 64))
  let s2 := (List.range 6).map (fun r => expandS ((h.drop 32).take 64) (r + 5))
  let t := List.zipWith polyAdd ((matMul (expandA rho) (s1.map ntt)).map unNtt) s2
  ⟨rho, h.drop 96, s1, s2, t.map (·.map (fun x => (powerRound x).1)), t.map (·.map (fun x => (powerRound x).2))⟩

def MlKey.pub (k : MlKey) : List Byte := k.rho ++ k.t1.flatMap (packBytes 10)

/-- The public key of a seed. -/
def mldsaPublic (seed : List Byte) : List Byte := (mlKeyGen seed).pub

/-- The representative of a message under a public key, with the empty context. -/
def mlMu (pub msg : List Byte) : List Byte := shake 136 (shake 136 pub 64 ++ [0, 0] ++ msg) 64

/-- The commitment hash of a message's representative and of the high parts of w. -/
def mlCommit (mu : List Byte) (w1 : List Poly) : List Byte := shake 136 (mu ++ w1.flatMap (packBytes 4)) 48

/-- One attempt to sign with the mask numbered from n: the signature, unless it is rejected. -/
def MlKey.attempt (k : MlKey) (mu rho : List Byte) (n : Nat) : Option (List Byte) :=
  let y := (List.range 5).map (fun r => expandMask rho (n + r))
  let w := (matMul (expandA k.rho) (y.map ntt)).map unNtt
  let ct := mlCommit mu (w.map highBits)
  let c := ntt (sampleInBall ct)
  let timesC (v : List Poly) : List Poly := v.map (fun p => unNtt (polyMul c (ntt p)))
  let z := List.zipWith polyAdd y (timesC k.s1)
  let r := List.zipWith polySub w (timesC k.s2)
  let ct0 := timesC k.t0
  let h := List.zipWith (fun a b => List.zipWith (fun x y => x != y) (highBits (polyAdd a b)) (highBits a)) r ct0
  if z.all (polyBelow (mlGamma1 - mlBeta)) && r.all (fun p => polyBelow (mlAlpha / 2 - mlBeta) (lowBits p)) &&
      ct0.all (polyBelow (mlAlpha / 2)) && decide ((h.flatten.filter id).length ≤ mlOmega) then
    some (ct ++ z.flatMap (fun p => packBytes 20 (p.map (fun x => (mlQ + mlGamma1 - x) % mlQ))) ++ packHint h)
  else none

/-- Attempts until one is not rejected. DESIGN CHOICE: log 108. -/
def MlKey.attempts (k : MlKey) (mu rho : List Byte) : Nat → Nat → List Byte
  | 0, _ => List.replicate 3309 0
  | m + 1, n => match k.attempt mu rho n with | some sig => sig | none => MlKey.attempts k mu rho m (n + 5)

/-- Hedged signing from a seed with 32 fresh bytes. DESIGN CHOICE: log 108. -/
def mldsaSign (seed msg rnd : List Byte) : List Byte :=
  let k := mlKeyGen seed
  let mu := mlMu k.pub msg
  k.attempts mu (shake 136 (k.K ++ rnd ++ mu) 64) 13000 0

/-- Verification of a signature on a message under a public key. DESIGN CHOICE: log 108. -/
def mldsaVerify (key msg sig : List Byte) : Bool :=
  match unpackHint (sig.drop 3248) with
  | none => false
  | some h =>
    let z := (List.range 5).map (fun i => (unpackBits 20 ((sig.drop (48 + 640 * i)).take 640)).map
      (fun x => (mlQ + mlGamma1 - x) % mlQ))
    let t1 := (List.range 6).map (fun i => (unpackBits 10 ((key.drop (32 + 320 * i)).take 320)).map (8192 * · % mlQ))
    let c := ntt (sampleInBall (sig.take 48))
    let w := (List.zipWith polySub (matMul (expandA (key.take 32)) (z.map ntt)) (t1.map (fun p => polyMul c (ntt p)))).map unNtt
    key.length == 1952 && sig.length == 3309 && z.all (polyBelow (mlGamma1 - mlBeta)) &&
      mlCommit (mlMu key msg) (List.zipWith (List.zipWith useHint) h w) == sig.take 48

end Sys2Proof.Machine
end

