-- ==== Sys2Proof/Machine/SecOps.lean ====
section
/-! DEFINITION. Signer slots, keys, the random bit generator, sealed storage, counters, measurements and
the calendar: what judging an image or a stream takes (R378, R383 to R387, R392). -/

namespace Sys2Proof.Machine

/-- A register of the SEC, RTC block. -/
def secReg (off : Nat) : Nat := regKey .sec off
def rtcReg (off : Nat) : Nat := regKey .rtc off

/-- The security store, and the security module's volatile state. -/
def State.secStore (s : State) : SecStore := s.nv.sec
def State.setStore (s : State) (v : SecStore) : State := { s with nv := { s.nv with sec := v } }
def State.setSec (s : State) (v : SecState) : State := { s with sec := v }

/-- An event that sets a flag of SEC_ERR_FLAGS (R395). -/
def State.secFlag (s : State) (i : Nat) : State := (s.setFlag (secReg Reg.SEC_ERR_FLAGS) i).bump (secReg Reg.SEC_FAULT_COUNT) 1

/-- The state of the security module (R382), and a change of it. -/
def State.secState (s : State) : Nat := s.fld (secReg Reg.SEC_STATUS) 31 28
def State.setSecState (s : State) (v : Nat) : State := s.wrFld (secReg Reg.SEC_STATUS) 31 28 v

/-! ### Slots (R384) -/

/-- The current owner: the highest position that is programmed, whose check bits match and which is not revoked. -/
def SecStore.owner (x : SecStore) : Option Nat :=
  (x.owners.zipIdx.filter (fun o => o.1.good && !o.1.revoked)).getLast?.map (·.2)

/-- The fuse hash of a slot code: 0x00–0x03 vendor slots, 0x10–0x17 owner positions. -/
def SecStore.slotHash (x : SecStore) (slot : Nat) : Option (List Byte) :=
  if slot < 4 then some (sha512 (Config.vendorKeys slot))
  else if 0x10 ≤ slot ∧ slot < 0x18 then (x.owners[slot - 0x10]?).map (·.hash)
  else none

/-- The public keys stored for a slot; a vendor slot's from manufacture unless replaced. -/
def SecStore.slotKeys (x : SecStore) (slot : Nat) : Option (List Byte) :=
  match x.signers.find? (fun e => e.1 == slot) with
  | some e => some e.2
  | none => if slot < 4 then some (Config.vendorKeys slot) else none

/-- A slot is programmed and not revoked. -/
def SecStore.slotLive (x : SecStore) (slot : Nat) : Bool :=
  if slot < 4 then !x.vendorRevoked.contains slot
  else match x.owners[slot - 0x10]? with
    | some o => decide (0x10 ≤ slot) && o.good && !o.revoked
    | none => false

/-- A slot is usable: live, and its stored public keys hash to its fuse value, as a vendor slot's do from manufacture. -/
def SecStore.slotUsable (x : SecStore) (slot : Nat) : Bool :=
  x.slotLive slot && (match x.signers.find? (fun e => e.1 == slot) with
    | some e => x.slotHash slot == some (sha512 e.2)
    | none => decide (slot < 4))

/-- A slot code names the current owner's position. -/
def SecStore.isOwner (x : SecStore) (slot : Nat) : Bool :=
  match x.owner with | some p => slot == 0x10 + p | none => false

/-- Both signatures on a message verify under a slot's keys (R209, R379). -/
def SecStore.bothVerify (x : SecStore) (slot : Nat) (msg ed ml : List Byte) : Bool :=
  match x.slotKeys slot with
  | some k => edVerify (k.take 32) msg ed && mldsaVerify (k.drop 32) msg ml
  | none => false

/-! ### Keys (R383, R384) -/

/-- Derived keys. -/
def kekEntry : List Byte := kmac256 Config.kes [] "GARNOS KEY ENTRY"
def storageKey : List Byte := kmac256 Config.uds [] "GARNOS STORAGE"
def edSeed : List Byte := kmac256 Config.uds [] "GARNOS ID ED25519"
def mldsaSeed : List Byte := kmac256 Config.uds [] "GARNOS ID MLDSA65"

/-- The key that unwraps K(0) of a stream signed under a slot; after a scrap the fuse secrets are never read (R382). -/
def SecStore.streamKey (x : SecStore) (slot : Nat) : Option (List Byte) :=
  if x.killed then none else if slot < 4 then some Config.vck else x.ock

/-! ### The random bit generator (R378) -/

/-- The block that a key and a counter block make. -/
def drbgBlock (k : BitVec 256) (v : BitVec 128) : BitVec 128 :=
  BitVec.ofNat 128 (beNat (aesEncrypt (aesKeys (beBytes 32 k.toNat)) (beBytes 16 v.toNat)))

/-- CTR_DRBG_Update: the next three blocks and 48 bytes of input make the new key and counter block. -/
def Drbg.update (d : Drbg) (input : BitVec 384) : Drbg :=
  let x := (drbgBlock d.key (d.v + 1) ++ drbgBlock d.key (d.v + 2) ++ drbgBlock d.key (d.v + 3)) ^^^ input
  { d with key := x.extractLsb' 128 256, v := x.extractLsb' 0 128 }

/-- Seeded with 48 bytes of entropy, without a derivation function. DESIGN CHOICE: log 108. -/
def Drbg.seeded (d : Drbg) (entropy : BitVec 384) : Drbg := { d.update entropy with requests := 0 }

/-- A request for 32 bytes: two blocks, then an update. -/
def Drbg.draw (d : Drbg) : List Byte × Drbg :=
  (beBytes 16 (drbgBlock d.key (d.v + 1)).toNat ++ beBytes 16 (drbgBlock d.key (d.v + 2)).toNat,
   { ({ d with v := d.v + 2 } : Drbg).update 0 with requests := d.requests + 1 })

/-- 48 bytes of the entropy source. -/
def State.entropy (s : State) : BitVec 384 × State :=
  (BitVec.ofNat 384 (beNat ((List.range 48).map (fun i => Config.freeByte (s.free + i)))), { s with free := s.free + 48 })

/-- Draw 32 bytes from the DRBG: seeded at its first use, and afresh every 2^20 requests (R378). DESIGN CHOICE: log 108. -/
def State.draw (s : State) : List Byte × State :=
  let r : Drbg × State := match s.sec.drbg with
    | none => let e := s.entropy; (Drbg.seeded ⟨0, 0, 0⟩ e.1, e.2)
    | some d => if 2 ^ 20 ≤ d.requests then let e := s.entropy; (d.seeded e.1, e.2) else (d, s)
  (r.1.draw.1, r.2.setSec { r.2.sec with drbg := some r.1.draw.2 })

/-! ### Storage (R383) -/

/-- A sealed text opened with the storage key: 12 bytes of initialisation vector, the ciphertext, 16 bytes of tag.
DESIGN CHOICE: log 108. -/
def openSealed (b : List Byte) : Option (List Byte) :=
  if b.length < 28 then none
  else gcmOpen storageKey (b.take 12) [] ((b.drop 12).take (b.length - 28)) (b.drop (b.length - 16))

/-- An item of storage becomes what was sealed, or, where the seal fails its tag, absent. DEDUCED: log 101. -/
def SecStore.found (x : SecStore) : Sealed → Option (List Byte) → SecStore
  | .ock, v => { x with ock := v }
  | .uak, v => { x with uak := v }
  | .signer n, v => { x with signers := tput x.signers n (v.getD []) }
  | .counters, v => { x with counters := match v with
      | some bs => ((List.range 256).map (fun i => (i, bytesNat ((bs.drop (4 * i)).take 4)))).filter (fun e => e.2 != 0)
      | none => [] }
  | .image b t, v => { x with banks := tput x.banks (4 * b + t) (v.getD []) }

/-! ### Counters (R385) -/

def SecStore.counter (x : SecStore) (i : Nat) : Nat := tget (fun _ => 0) x.counters i

/-- A counter is raised, never lowered. -/
def SecStore.raise (x : SecStore) (i v : Nat) : SecStore :=
  { x with counters := tset (fun _ => 0) x.counters (i % 256) (max (x.counter (i % 256)) (v % 2 ^ 32)) }

/-- A stream's slot, counter, version and wrapped key pass the rules of R384 and R385: the status, and K(0). A security
module in self-test, error or scrapped state gives no service. -/
def State.streamRules (s : State) (slot idx ver : Nat) (wrapped : List Byte) : Nat × List Byte × State :=
  let x := s.secStore
  if !(s.secState == 1 || s.secState == 3) then (0x73, [], s)
  else if !(x.slotUsable slot && (decide (slot < 4) || x.isOwner slot)) then
    (0x73, [], if x.slotLive slot && !x.slotUsable slot then s.secFlag 1 else s)
  else if (4 ≤ slot ∧ idx < 16) ∨ ver < x.counter idx then (0x74, [], s.secFlag 4)
  else
    match (x.streamKey slot).bind (fun k => kwUnwrap k wrapped) with
    | some k => (0, k, s)
    | none => (0x73, [], s)

/-! ### The calendar (R392) -/

/-- The time now in RTC_TIME's format: the time last set, run on by what has passed since; a clock that has stopped stands
(R21). DESIGN CHOICE: log 7. -/
def State.now (s : State) : Nat × State :=
  let t := s.rd64 (rtcReg Reg.RTC_TIME)
  if s.rbit (rtcReg Reg.RTC_STATUS) 30 then ((t + Config.elapsed s.free) % 2 ^ 64, { s with free := s.free + 1 }) else (t, s)
def State.timeValid (s : State) : Bool := s.rbit (rtcReg Reg.RTC_STATUS) 31

/-! ### Measurements and the event log (R386, R387) -/

/-- Words of a register file as bytes, and bytes written to it. -/
def State.rdBytes (s : State) (key n : Nat) : List Byte := (List.range n).flatMap (fun w => natBytes 4 (s.rdN (key + 4 * w)))
def State.wrBytes (s : State) (key : Nat) (bs : List Byte) : State :=
  s.each (List.range ((bs.length + 3) / 4)) (fun s w =>
    s.wr (key + 4 * w) (BitVec.ofNat 32 (bytesNat ((bs.drop (4 * w)).take 4))))

/-- A measurement register as 64 bytes. -/
def State.mreg (s : State) (r : Nat) : List Byte := s.rdBytes (secReg (Reg.SEC_MREG + 0x40 * r)) 16

/-- Extend a measurement register with a digest and log it (R386, R387). `info` says that the entry's information field
applies: its layout is not stated, so its bytes are free values. DESIGN CHOICE: log 65, 107. -/
def State.extend (s : State) (r kind : Nat) (d : List Byte) (info : Bool) : State :=
  let s := s.wrBytes (secReg (Reg.SEC_MREG + 0x40 * r)) (sha512 (s.mreg r ++ d))
  let n := s.rdN (secReg Reg.SEC_LOG_ENTRIES)
  if 4096 ≤ n then s.secFlag 2
  else
    let t := s.now
    let s := t.2
    let more := if info then (List.range 48).map (fun i => Config.freeByte (s.free + i)) else List.replicate 48 0
    let e := natBytes 4 (r * 2 ^ 24 + kind * 2 ^ 16) ++ natBytes 4 (if s.timeValid then 1 else 0) ++ natBytes 8 t.1 ++
      d.take 64 ++ List.replicate (64 - d.length) 0 ++ more
    let s := s.wrBytes (secReg (Reg.SEC_LOG + 0x80 * n)) e
    let s := s.wr (secReg Reg.SEC_LOG_ENTRIES) (BitVec.ofNat 32 (n + 1))
    if info then { s with free := s.free + 48 } else s

/-! ### Firmware images (R384, R385, R393) -/

/-- A firmware image's header field at byte o of n bytes. -/
def hdrNat (img : List Byte) (o n : Nat) : Nat := bytesNat ((img.drop o).take n)

/-- Bytes before the body: header, signatures, 3 zero bytes. -/
def fwPrefix : Nat := 256 + 64 + 3309 + 3

/-- Bytes of an image as its header has them. -/
def fwBytes (img : List Byte) : Nat := fwPrefix + hdrNat img 0x0C 4

/-- The fields of a header are valid for a type and a variant (R384). -/
def fwFields (img : List Byte) (type variant : Nat) : Bool :=
  let w0 := hdrNat img 0 4
  let w1 := hdrNat img 4 4
  bitsOf w0 31 16 == 0x6A16 && bitsOf w0 15 8 == 1 && bitsOf w0 7 0 == type && bitOf (bitsOf w1 31 28) variant &&
  decide (bitsOf w1 19 12 < 16) && bitsOf w1 11 0 == 0 &&
  decide (hdrNat img 0x0C 4 ≤ (if type = 0 then 0x200000 else 0x800000)) &&
  ((img.drop 0x60).take 0xA0).all (· == 0) && ((img.drop 3629).take 3).all (· == 0)

/-- The longest dual verification seen (R395). -/
def State.verifyTimed (s : State) : State :=
  ({ s with free := s.free + 1 } : State).wrMax (secReg Reg.SEC_VERIFY_MAX_US) (Config.elapsed s.free % 2 ^ 32)

/-- The verification of a firmware image (R384, R385, R393): 0 or the status of the first rule it fails.
DEDUCED: log 101. -/
def State.verifyImage (s : State) (type : Nat) (img : List Byte) : Nat × State :=
  let x := s.secStore
  let slot := bitsOf (hdrNat img 4 4) 27 20
  let idx := bitsOf (hdrNat img 4 4) 19 12
  if !fwFields img type s.nv.variant.val || img.length != fwBytes img then (0x76, s)
  else if !(decide (slot < 4) && x.slotUsable slot) then
    (0x73, if decide (slot < 4) && x.slotLive slot then s.secFlag 1 else s)
  else
  let s := s.verifyTimed
  let t := s.now
  let sec := t.1 / 65536
  let out := (hdrNat img 0x10 8 != 0 && decide (sec < hdrNat img 0x10 8)) ||
    (hdrNat img 0x18 8 != 0 && decide (hdrNat img 0x18 8 < sec))
  if !x.bothVerify slot (sha512 (img.take 256)) ((img.drop 256).take 64) ((img.drop 320).take 3309) then (0x72, s)
  else if sha512 (img.drop fwPrefix) != (img.drop 0x20).take 64 then (0x72, s)
  else if hdrNat img 8 4 < x.counter idx then (0x74, s.secFlag 4)
  else if !s.timeValid then (0, t.2.secFlag 3)
  else if out then (0x77, t.2)
  else (0, t.2)

/-- The image of a type in a bank: as installed, or as manufactured; and its header. DEDUCED: log 101. -/
def SecStore.image (x : SecStore) (bank type : Nat) : List Byte :=
  match x.banks.find? (fun e => e.1 == 4 * bank + type) with
  | some e => e.2
  | none => Config.image (4 * bank + type)
def SecStore.fwHeader (x : SecStore) (bank type : Nat) : List Byte := (x.image bank type).take 256

/-! ### Ownership (R391) -/

/-- Steps 2 to 4 of a transfer of ownership (R391); step 3's volatile keys are the caller's. -/
def State.finishTransfer (s : State) (req : List Byte) : State :=
  let x := s.secStore
  let last := x.owners.length - 1
  let owners := x.owners.zipIdx.map (fun o => if o.2 < last ∧ o.1.good then { o.1 with revoked := true } else o.1)
  let s := s.setStore { x with owners := owners, ock := none, uak := none
                               signers := x.signers.filter (fun e => !(decide (0x10 ≤ e.1) && decide (e.1 < 0x10 + last)))
                               counters := x.counters.filter (fun e => decide (e.1 < 16)), transfer := none }
  s.extend 7 7 (sha512 req) false

/-- The lifecycle code (R389). -/
def SecStore.lifecycle (x : SecStore) : Nat := if x.killed then 3 else if x.owner.isSome then 2 else 1

end Sys2Proof.Machine
end

