-- ==== Sys2Proof/Machine/Cfg.lean ====
section
/-! DEFINITION. Configuration loading, release, long-line contention and scrubbing (R198 to R226). -/

namespace Sys2Proof.Machine

/-! ### Frame addresses (R167, R199, R200, R212) -/

def faRow (a : Nat) : Nat := bitsOf a 27 24
def faCol (a : Nat) : Nat := bitsOf a 23 14
def faMinor (a : Nat) : Nat := bitsOf a 13 7

/-- The minor count of a column; 0 where there is no such column. -/
def minorCount (col : Nat) : Nat :=
  if col < 800 then 6 else if col < 816 then 104 else if col < 832 then 16 else if col < 841 then 10
  else if col = 841 then 16 else 0

/-- The tile a frame belongs to; none for clock and user-I/O columns. -/
def tileOfFrame (a : Nat) : Option Nat := if faCol a < 832 then some (tileOf (faRow a) (faCol a)) else none

/-- A frame address is valid under R199 and R200 and exists on a die. -/
def frameExists (a die : Nat) : Bool :=
  a % 128 == 0 && decide (a / 2 ^ 28 = 0) && decide (faMinor a < minorCount (faCol a)) &&
  (faCol a != 841 || (faRow a == 15 && decide (12 ≤ die)))

/-- A frame belongs to a region of a die's map: a frame of its tiles, less minor 5 of their logic columns (R212). -/
def DieCfg.inRegion (c : DieCfg) (r a : Nat) : Bool :=
  (match tileOfFrame a with | some t => c.regionOf t == some r | none => false) && !(decide (faCol a < 800) && faMinor a == 5)

/-! ### Check bits (R198, R223) -/

/-- The generator (x^15 + 1)·p(x) of the Fire code, below its leading term. -/
def fireGen : BitVec 32 :=
  let p := Config.firePoly.setWidth 32 ||| BitVec.twoPow 32 17
  (p <<< 15) ^^^ p

/-- The 32 check bits of a frame's data bits. DESIGN CHOICE: log 129. -/
def fireCheck (bits : List Bool) : BitVec 32 :=
  bits.foldl (fun r b => (r <<< 1) ^^^ (if r.msb ^^ b then fireGen else 0)) 0

/-- Bit i of a frame's data is user state, which the check bits take as zero (R223): contents of a block memory, or the table
of a cell in distributed-memory mode. -/
def userBit (x : Option ColumnCfg) (a i : Nat) : Bool :=
  (decide (800 ≤ faCol a) && decide (faCol a < 816) && decide (8 ≤ faMinor a)) ||
    (match x with | some c => c.masked.contains (faMinor a, i) | none => false)

/-- The check bits of a frame. -/
def frameCheck (x : Option ColumnCfg) (a : Nat) (data : List Byte) : BitVec 32 :=
  fireCheck ((List.range 3200).map (fun i => (data.getD (i / 8) 0).getLsbD (i % 8) && !userBit x a i))

/-- How many frames a die holds, and how many a region's tiles hold. -/
def dieFrames (die : Nat) : Nat := if 12 ≤ die then 108976 else 108960
def DieCfg.regionFrames (c : DieCfg) (r : Nat) : Nat :=
  (List.range 144).foldl (fun n t => if c.regionOf t = some r then n + (if t % 9 = 0 ∨ t % 9 = 8 then 720 else 640) else n) 0

/-- Region r is defined on a die (R212). -/
def State.regionDefined (s : State) (d r : Nat) : Bool := s.regionState d r != 0

/-! ### Loads and their ends (R219, R225) -/

def State.loadAt (s : State) (l : Nat) : Option CfgLoad := (s.loads.find? (fun e => e.1 == l)).map (·.2)
def State.setLoad (s : State) (l : Nat) (v : CfgLoad) : State := { s with loads := tput s.loads l v }

/-- The completion record of a load (R225); `us` is the time Ryhal counted. -/
def CfgLoad.record (v : CfgLoad) (mask frames us : Nat) : List Byte :=
  let rel := v.released.foldl (fun n d => n ||| 2 ^ d) 0
  let fl := v.failed.foldl (fun n f => n ||| 2 ^ f.die) 0
  let low := v.failed.foldl (fun (a : Option LoadFail) f => match a with
    | none => some f | some g => some (if f.die < g.die then f else g)) none
  let f := low.getD ⟨0, 0, 0, 0, frames⟩
  natBytes 4 (f.status * 2 ^ 24 + mask) ++ natBytes 4 (rel * 2 ^ 16 + fl) ++ natBytes 4 (f.die * 2 ^ 28 + f.seg) ++
  natBytes 4 f.faddr ++ natBytes 4 f.frames ++ natBytes 4 us ++ natBytes 8 0

/-- The report of a load (R225, R329): status and detail of the completion entry, and the record. -/
def State.loadReport (s : State) (v : CfgLoad) : Report :=
  let mask := v.dies.foldl (fun n d => n ||| 2 ^ d) 0
  let rel := v.released.foldl (fun n d => n ||| 2 ^ d) 0
  let fl := v.failed.foldl (fun n f => n ||| 2 ^ f.die) 0
  let rec_ := v.record mask v.frames (Config.elapsed s.free % 2 ^ 32)
  { Report.of (imgN rec_ 3 1) with detail := rel * 2 ^ 16 + fl, record := rec_ }

/-- Once every target die has released or failed, the load completes. -/
def State.checkLoad (s : State) (l : Nat) : State :=
  match s.loadAt l with
  | none => s
  | some v =>
    if v.accepted && v.dies.all (fun d => v.released.contains d || v.failed.any (fun f => f.die == d)) then
      let r := s.loadReport v
      ({ s with loads := terase s.loads l, free := s.free + 1 }).complete v.ent r
    else s

/-- Every region of a die undefined. -/
def State.undefineRegions (s : State) (d : Nat) : State :=
  s.each (List.range 8) (fun s w => s.wr (cfgReg d (Reg.CFG_REGION_STATE + 4 * w)) 0)

/-- The bank of a die's I/O cells has a level in force, and the dies of the bank show it (R194). The image of die 13 or 15 that
names no level, of which the spec says nothing, differs from the level in force. DEDUCED: log 64. DESIGN CHOICE: log 137. -/
def State.setBank (s : State) (d level : Nat) : State :=
  s.each [d, d + 1] (fun s e =>
    let s := s.wrFld (lgaReg e Reg.LGA_IO_BANK) 3 2 level
    let bad := s.dieState e == 3 && e != d && s.fld (lgaReg e Reg.LGA_IO_BANK) 5 4 != level
    let s := s.wrFld (lgaReg e Reg.LGA_IO_BANK) 0 0 (if bad then 1 else 0)
    if bad then s.setFlag (lgaReg e Reg.LGA_ERR_FLAGS) 7 else s)

/-- The logic of a die stops: it is held in reset, clocks and PLLs stop, its image is no longer released, and the bank a controlling die
supplies turns off (R194, R218). -/
def State.stopLogic (s : State) (d : Nat) : State :=
  let s := ((s.wrFld (lgaReg d Reg.LGA_STATUS) 8 0 0).holdFlops d (fun _ => true)).clearClocks d
  let s : State := { s with clocks := terase s.clocks d, userIo := terase s.userIo d
                            clkHeld := s.clkHeld.filter (fun k => k / 16 != d), clkSel := s.clkSel.filter (fun e => e.1 / 16 != d)
                            ioRegs := s.ioRegs.filter (fun e => dieOfCell e.1 != d)
                            contending := s.contending.filter (fun k => k / 256 != d) }
  let s := if 12 ≤ d then s.wrFld (lgaReg d Reg.LGA_IO_BANK) 5 4 0 else s
  let s := if 12 ≤ d then s.wrFld (lgaReg d Reg.LGA_IO_BANK) 0 0 0 else s
  if d = 12 ∨ d = 14 then s.setBank d 0 else s

/-- A die becomes unconfigured: every region undefined (R218, R219). -/
def State.unconfigure (s : State) (d : Nat) : State :=
  let s := s.settleLogic d
  let s := s.wrFld (cfgReg d Reg.CFG_STATUS) 27 24 0
  (s.undefineRegions d).stopLogic d

/-- Release the die from its load: CFG_STATUS shows none. -/
def State.loadOff (s : State) (d : Nat) : State :=
  (s.wrFld (cfgReg d Reg.CFG_STATUS) 23 15 0).setCfg d { s.cfgAt d with load := none }

/-- The flags of CFG_ERR_FLAGS that name load failures. -/
def loadFlags : Nat := 0xC3F

/-- Record a load failure on a die (R226). -/
def State.recordFault (s : State) (d flag status seg faddr : Nat) : State :=
  let first := (s.rdN (cfgReg d Reg.CFG_ERR_FLAGS)) &&& loadFlags == 0
  let s := s.setBits (cfgReg d Reg.CFG_ERR_FLAGS) flag
  if first then (s.wr (cfgReg d Reg.CFG_FAULT) (BitVec.ofNat 32 (status * 2 ^ 24 + seg))).wr
    (cfgReg d Reg.CFG_FAULT_FADDR) (BitVec.ofNat 32 faddr)
  else s

/-- A load fails on a die (R219): key and chain go, a static load leaves the die unconfigured, a partial one its region
incomplete; the other dies carry on. -/
def State.failLoad (s : State) (d flag status faddr : Nat) : State :=
  match (s.cfgAt d).load with
  | none => s
  | some x =>
    let s := s.recordFault d flag status x.seg faddr
    let s := s.bump (cfgReg d Reg.CFG_LOAD_FAILS) 1
    let s := s.loadOff d
    match s.loadAt x.load with
    | none => s
    | some v =>
      let s := if v.isPartial then s.around d (·.setRegionState d v.region 4) else s.unconfigure d
      let s := s.setLoad x.load { v with failed := v.failed ++ [⟨d, status, x.seg, faddr, x.written.length⟩] }
      s.checkLoad x.load

/-- A failure found in the stream ends the load once the frames supplied before it have been committed (R219).
DEDUCED: log 62. -/
def State.failAfter (s : State) (d flag status faddr : Nat) : State :=
  match (s.cfgAt d).load with
  | none => s
  | some x => if x.queue.isEmpty then s.failLoad d flag status faddr else s

/-- A parse, REGW or burst error. -/
def State.parseError (s : State) (d : Nat) : State := s.failAfter d 2 0x52 0

/-- The frame addresses of a die, ascending. -/
def dieFrameList (die : Nat) : List Nat :=
  (List.range 16).flatMap (fun rr => (List.range 842).flatMap (fun col =>
    ((List.range (minorCount col)).map (fun m => rr * 2 ^ 24 + col * 2 ^ 14 + m * 2 ^ 7)).filter (fun a => frameExists a die)))

/-- The next frame of a load that it has not written: the lowest; 0 where none is left. DEDUCED: log 62. -/
def State.nextUnwritten (s : State) (d : Nat) (x : DieLoad) (v : CfgLoad) : Nat :=
  ((dieFrameList d).find? (fun a =>
    (!v.isPartial || (s.cfgAt d).inRegion v.region a) && !x.written.contains a)).getD 0

/-- A read of the stream failed: the load ends with the read's status at its next unwritten frame (R219).
DEDUCED: log 62. -/
def State.streamError (s : State) (d status : Nat) : State :=
  let a := match (s.cfgAt d).load with
    | none => 0
    | some x => match s.loadAt x.load with | none => 0 | some v => s.nextUnwritten d x v
  s.failAfter d (if status = 0x20 then 0x800 else 0) status a

/-! ### The header (R205, R206) -/

/-- The header, read as bytes after the sync word. -/
def hdrW (h : List Byte) (o : Nat) : Nat := imgN h o 4

/-- The dies a header names. -/
def hdrDies (h : List Byte) : List Nat := (List.range 16).filter (fun d => bitOf (hdrW h 8) d)

/-- Checks of R206 that a header's own fields, the device and its floor plan decide. -/
def State.headerForm (s : State) (v : CfgLoad) (sync : Nat) (h : List Byte) : Bool :=
  let w1 := hdrW h 4
  let ds := hdrDies h
  let kind := bitsOf w1 22 21
  let n := bitsOf (hdrW h 0xC) 12 0
  sync == 0x9C5A3E71 && hdrW h 0 == 0x10036A16 &&
  bitOf (bitsOf w1 31 28) s.variant && bitsOf w1 27 23 == 16 &&
  decide (kind < 2) && (kind == 1 || bitsOf w1 20 15 == 0) && bitsOf w1 14 0 == 0 && bitsOf (hdrW h 8) 31 16 == 0 &&
  bitsOf (hdrW h 0xC) 31 13 == 0 && bitsOf (hdrW h 0x1C) 15 0 == 0 && hdrW h 0x24 == 0 &&
  ((h.drop 0x50).take 176).all (· == 0) &&
  hdrW h 0x18 == v.bytes && decide (1 ≤ n) && decide (n ≤ 4096) && decide (4 + 256 + 24 * n + 3380 ≤ v.bytes) &&
  !ds.isEmpty && ds.all s.logicOk && (kind == 1 || ds.all (fun d => decide (d < 12)) || ds.all (fun d => decide (12 ≤ d)))

/-- Checks of R206 on who asks and on what stands on the target dies (R202). -/
def State.headerFits (s : State) (v : CfgLoad) (h : List Byte) : Bool :=
  let reg := bitsOf (hdrW h 4) 20 15
  if bitsOf (hdrW h 4) 22 21 = 0 then v.ent.func == 0
  else (hdrDies h).all (fun d => s.dieState d == 3 && s.regionDefined d reg && s.regionState d reg != 2 &&
    bitsOf (s.rdN (cfgReg d (Reg.CFG_REGION_OWNER + reg / 4 * 4))) (8 * (reg % 4) + 7) (8 * (reg % 4)) == 0x80 + v.ent.func)

/-- Refuse a request before any frame is written: nothing changes but the flag of the dies it names (R206). The refusal is a
failure of each of them (R219), and the record says so (R225); a header that names no die, or cannot be read, names none.
DEDUCED: log 61. -/
def State.refuseLoad (s : State) (l : Nat) (v : CfgLoad) (st : Nat) (ds : List Nat) : State :=
  let s := s.each ds (fun s d => s.recordFault d 1 st 0 0)
  let failed : List LoadFail := if ds.isEmpty then [⟨0, st, 0, 0, 0⟩] else ds.map (fun d => ⟨d, st, 0, 0, 0⟩)
  let r := s.loadReport { v with dies := ds, released := [], failed := failed, frames := 0 }
  let r := if ds.isEmpty then { r with detail := 0, record := r.record.take 4 ++ natBytes 4 0 ++ r.record.drop 8 } else r
  ({ s with loads := terase s.loads l, free := s.free + 1 }).complete v.ent r

/-- A target die takes a load: a static one stops its logic at once, a partial one holds its region (R216, R218).
DEDUCED: log 61. -/
def State.takeLoad (s : State) (l : Nat) (v : CfgLoad) (key hdr : List Byte) (d : Nat) : State :=
  let s := if v.isPartial then
      s.around d (fun s => (s.setRegionState d v.region 2).holdFlops d ((s.cfgAt d).loadTiles true v.region))
    else
      let s := s.unconfigure d
      let s := s.wrFld (cfgReg d Reg.CFG_STATUS) 27 24 1
      s.each (List.range 16) (fun s w => s.wr (cfgReg d (Reg.CFG_REGION_OWNER + 4 * w)) 0x80808080)
  let s := s.wrFld (cfgReg d Reg.CFG_STATUS) 23 15
    (2 ^ 8 + (if 1 < v.dies.length then 2 ^ 7 else 0) + (if v.isPartial then 2 ^ 6 + v.region else 0))
  let s := s.wr (cfgReg d Reg.CFG_FRAMES) 0
  s.setCfg d { s.cfgAt d with load := some { load := l, stage := .clear, seg := 0, pos := 260, segCmd := [], segLen := 0
                                             key := key, chain := sha512 hdr, tag := [], text := [], faddr := none
                                             queue := [], written := [], regw := [] } }

/-- HEADER (R205, R206, R208): the header of a requested load is read and checked; on acceptance every target die takes
the load under K(0). DEDUCED: log 71. -/
def execHeader (l : Nat) (m : MemFind) (s : State) : Out :=
  match s.loadAt l with
  | none => impossible
  | some v =>
    if v.accepted then impossible
    else if v.bytes < 260 then .next (s.refuseLoad l v 0x50 [])
    else
      let r := s.readLong ryhalAgent v.addr 260 m
      let s := r.2
      if r.1.status ≠ 0 then .next (s.refuseLoad l v r.1.status [])
      else
        let h := r.1.data.drop 4
        let ds := hdrDies h
        let busy := ds.any (fun d => (s.cfgAt d).load.isSome)
        -- a load under way on a target die is no configuration error of a partial request (R220)
        if !s.headerForm v (imgN r.1.data 0 4) h then .next (s.refuseLoad l v 0x50 ds)
        else if busy && bitsOf (hdrW h 4) 22 21 == 1 then .next (s.refuseLoad l v 0x88 ds)
        else if !s.headerFits v h then .next (s.refuseLoad l v 0x50 ds)
        else if busy then .next (s.refuseLoad l v 0x88 ds)
        else
          let w := hdrW h 0x1C
          let k := s.streamRules (bitsOf w 31 24) (bitsOf w 23 16) (hdrW h 0x20) ((h.drop 0x28).take 40)
          if k.1 ≠ 0 then .next (k.2.2.refuseLoad l v k.1 ds)
          else
            let v := { v with accepted := true, dies := ds, isPartial := bitsOf (hdrW h 4) 22 21 == 1
                              region := bitsOf (hdrW h 4) 20 15, segments := bitsOf (hdrW h 0xC) 12 0
                              imageId := (h.drop 0x10).take 8, slot := bitsOf w 31 24, rbIndex := bitsOf w 23 16
                              rbVersion := hdrW h 0x20 }
            .next (s.each ds (fun s d => s.takeLoad l v k.2.1 h d) |>.setLoad l v)

/-! ### Segments (R207, R208) -/

/-- The load of a die in a given stage, with its request. -/
def State.dieLoad (s : State) (d : Nat) (st : LoadStage) : Option (DieLoad × CfgLoad) :=
  match (s.cfgAt d).load with
  | none => none
  | some x => if x.stage = st then (s.loadAt x.load).map (fun v => (x, v)) else none

def State.setDieLoad (s : State) (d : Nat) (x : DieLoad) : State := s.setCfg d { s.cfgAt d with load := some x }

/-- SEG (R204, R207): the SEG command of the next segment is read and checked. DEDUCED: log 61, 71. -/
def execSeg (d : Die) (m : MemFind) (s : State) : Out :=
  match s.dieLoad d .clear with
  | none => impossible
  | some (x, v) =>
    if v.segments ≤ x.seg then impossible
    else if v.bytes < x.pos + 8 then .next (s.failAfter d 0x400 0x56 0)
    else
      let r := s.readLong (s.cfgAgent d) (v.addr + x.pos) 8 m
      let s := r.2
      let L := imgN r.1.data 4 4
      if r.1.status ≠ 0 then .next (s.streamError d r.1.status)
      else if imgN r.1.data 0 4 ≠ 0x50000000 + x.seg ∨ L % 4 ≠ 0 ∨ L < 8 ∨ 1048576 < L then .next (s.failAfter d 2 0x51 0)
      else .next (s.setDieLoad d { x with stage := .sealed, segCmd := r.1.data, segLen := L })

/-- SEGMENT_AUTHENTICATED (R207, R208): the whole segment is read and authenticated before any of its commands acts; its
plaintext must end in KEYROLL, or in END for the last. -/
def execSegmentAuthenticated (d : Die) (m : MemFind) (s : State) : Out :=
  match s.dieLoad d .sealed with
  | none => impossible
  | some (x, v) =>
    if v.bytes < x.pos + 24 + x.segLen then .next (s.failAfter d 0x400 0x56 0)
    else
      let r := s.readLong (s.cfgAgent d) (v.addr + x.pos + 8) (x.segLen + 16) m
      let s := r.2
      if r.1.status ≠ 0 then .next (s.streamError d r.1.status)
      else
        let tag := r.1.data.drop x.segLen
        match gcmOpen x.key (v.imageId ++ natBytes 4 x.seg) (x.chain ++ x.segCmd) (r.1.data.take x.segLen) tag with
        | none => .next (s.failAfter d 4 0x71 0)
        | some text =>
          let last := imgN text (text.length - 4) 4
          if last ≠ (if x.seg + 1 = v.segments then 0x70000000 else 0x60000000) then .next (s.parseError d)
          else .next (s.setDieLoad d { x with stage := .text, text := text, tag := tag, pos := x.pos + 24 + x.segLen })

/-! ### Commands in the plaintext (R204, R210, R211) -/

/-- Run the next plaintext command of a die: it must be the one named, and must lie whole in the segment; `words` is its
length, given its first word. An opcode that may not stand there ends the load. -/
def runText (op : Nat) (d : Nat) (words : Nat → Nat) (act : DieLoad → CfgLoad → Nat → State → State) (s : State) : Out :=
  match s.dieLoad d .text with
  | none => impossible
  | some (x, v) =>
    let w := imgN x.text 0 4
    if !([0x00, 0x20, 0x30, 0x40, 0x60, 0x70].contains (w / 2 ^ 24)) then .next (s.parseError d)
    else if w / 2 ^ 24 ≠ op then impossible
    else
      let n := 4 * words w
      if x.text.length < n then .next (s.parseError d)
      else .next (act { x with text := x.text.drop n } v w s)

/-- Words 1, 2, … of the command just taken. -/
def argWord (x : DieLoad) (i : Nat) : Nat := imgN x.text (4 * i) 4

/-- NOP (R204). -/
def execCfgNop (d : Die) (s : State) : Out :=
  runText 0x00 d (fun _ => 1) (fun x _ w s => if w % 2 ^ 24 ≠ 0 then s.parseError d else s.setDieLoad d x) s

/-- A pair of a REGW that the stream may write (R211). -/
def regwOk (v : CfgLoad) (p : Nat × Nat) : Bool :=
  (decide (p.1 < 144) && !v.isPartial && decide (p.2 < 128)) ||
  (decide (0x100 ≤ p.1) && decide (p.1 < 0x140) && decide (p.2 < 2) && (!v.isPartial || p.1 == 0x100 + v.region))

/-- REGW (R204, R211): stream registers are written, to take effect at release. -/
def execRegw (d : Die) (s : State) : Out :=
  match s.dieLoad d .text with
  | none => impossible
  | some (y, _) =>
    runText 0x20 d (fun w => 1 + 2 * (w % 256)) (fun x v w s =>
      let n := w % 256
      let ps := (List.range n).map (fun i => (argWord y (1 + 2 * i), argWord y (2 + 2 * i)))
      if w % 2 ^ 24 / 256 ≠ 0 ∨ n = 0 ∨ !ps.all (regwOk v) then s.parseError d
      else s.setDieLoad d { x with regw := x.regw ++ ps }) s

/-- A frame may be written by a load (R210). -/
def State.frameAllowed (s : State) (d : Nat) (v : CfgLoad) (a : Nat) : Bool :=
  v.dies.all (frameExists a) && (!v.isPartial || (s.cfgAt d).inRegion v.region a)

/-- FADDR (R199, R204, R210): the frame address for the next FDATA. -/
def execFaddr (d : Die) (s : State) : Out :=
  match s.dieLoad d .text with
  | none => impossible
  | some (y, _) =>
    runText 0x30 d (fun _ => 2) (fun x v w s =>
      let a := argWord y 1
      if w % 2 ^ 24 ≠ 0 then s.parseError d
      else if !s.frameAllowed d v a then s.failAfter d 2 0x53 a
      else s.setDieLoad d { x with faddr := some a }) s

/-- FDATA (R204): a burst of frames at successive minors of the column of the last FADDR. -/
def execFdata (d : Die) (s : State) : Out :=
  match s.dieLoad d .text with
  | none => impossible
  | some (y, _) =>
    runText 0x40 d (fun w => 1 + 100 * (w % 128)) (fun x _ w s =>
      let n := w % 128
      match x.faddr with
      | none => s.parseError d
      | some a =>
        if w % 2 ^ 24 / 128 ≠ 0 ∨ n = 0 ∨ 104 < n ∨ minorCount (faCol a) < faMinor a + n then s.parseError d
        else
          let fs := (List.range n).map (fun i => (a + 128 * i, (y.text.drop (4 + 400 * i)).take 400))
          s.setDieLoad d { x with queue := x.queue ++ fs }) s

/-- KEYROLL (R204, R208): the segment ends; the next key and chain value are formed. -/
def execKeyroll (d : Die) (s : State) : Out :=
  runText 0x60 d (fun _ => 1) (fun x v w s =>
    if w % 2 ^ 24 ≠ 0 ∨ x.text ≠ [] ∨ v.segments ≤ x.seg + 1 then s.parseError d
    else s.setDieLoad d { x with stage := .clear, seg := x.seg + 1, chain := sha512 (x.chain ++ x.tag)
                                 key := kmac256 x.key (natBytes 8 (x.seg + 1)) "GARNOS CFG ROLL" }) s

/-- Every frame of the die, or of the region, has been written. -/
def State.framesDone (s : State) (d : Nat) (x : DieLoad) (v : CfgLoad) : Bool :=
  x.written.length == (if v.isPartial then (s.cfgAt d).regionFrames v.region else dieFrames d)

/-- END (R204, R208, R210): once every supplied frame is committed, all frames must have been written; the key is zeroed
and C(N) goes to Ryhal. -/
def execCfgEnd (d : Die) (s : State) : Out :=
  match s.dieLoad d .text with
  | none => impossible
  | some (y, _) =>
    if imgN y.text 0 4 / 2 ^ 24 == 0x70 && !y.queue.isEmpty then .next s
    else
      runText 0x70 d (fun _ => 1) (fun x v w s =>
        if w % 2 ^ 24 ≠ 0 ∨ x.text ≠ [] ∨ x.seg + 1 ≠ v.segments then s.parseError d
        else if !s.framesDone d x v then s.failLoad d 0x10 0x55 0
        else
          let s := s.setDieLoad d { x with stage := .ended, key := [], chain := sha512 (x.chain ++ x.tag) }
          if v.isPartial then s.setRegionState d v.region 3 else s.wrFld (cfgReg d Reg.CFG_STATUS) 27 24 2) s

/-! ### Commit and contention (R179, R221) -/

/-- The minors of a column in a row region, empty where `keep` leaves one out. -/
def DieCfg.minors (c : DieCfg) (rr col : Nat) (keep : Nat → Bool) : List (List Byte) :=
  (List.range (minorCount col)).map (fun m =>
    let k := rr * 2 ^ 17 + col * 2 ^ 7 + m
    if keep (k * 128) then c.frameAt k else [])

/-- A frame goes into configuration memory, with its check bits, and its column configures what it now says (R198, R200). -/
def DieCfg.putFrame (c : DieCfg) (a image : Nat) (data : List Byte) : DieCfg :=
  let rr := faRow a
  let col := faCol a
  let c := { c with frames := tput c.frames (a / 128) ⟨image, data, 0⟩ }
  let x := Config.column col (c.minors rr col (fun _ => true))
  { c with frames := tput c.frames (a / 128) ⟨image, data, frameCheck (some x) a data⟩
           cols := if col < 832 then tput c.cols (rr * 1024 + col) x else c.cols }

/-- The taps of a logic column that count: those of static logic and of running regions as they stand, and of the image being
loaded as far as its frames are written (R221). DEDUCED: log 60. -/
def State.tapsOf (s : State) (d : Nat) (c : DieCfg) (x : DieLoad) (v : CfgLoad) (rr col : Nat) : List Nat :=
  let loading : List Nat :=
    let new (a : Nat) : Bool := x.written.contains a
    if [3, 4].any (fun k => new (rr * 2 ^ 24 + col * 2 ^ 14 + k * 2 ^ 7)) then (Config.column col (c.minors rr col new)).taps else []
  let standing : List Nat := match c.colAt rr col with | some y => y.taps | none => []
  if !v.isPartial then loading
  else
    match c.regionOf (tileOf rr col) with
    | none => standing
    | some r => if r = v.region then loading else if s.regionState d r = 1 then standing else []

/-- A long line is in contention: two taps on always, or one on always beside one on by enable (R179).
DEDUCED: log 60. -/
def contends (ms : List Nat) : Bool :=
  let one := (ms.filter (· == 1)).length
  decide (2 ≤ one) || (one == 1 && ms.contains 2)

/-- The lines of a row region that would be in contention as the frames of c stand. DEDUCED: log 60. -/
def State.contention (s : State) (d : Nat) (c : DieCfg) (x : DieLoad) (v : CfgLoad) (rr : Nat) : List Nat :=
  let taps := (c.tapCols rr).map (s.tapsOf d c x v rr)
  (List.range 16).filter (fun n => contends (taps.map (fun t => t.getD n 0)))

/-- FRAME_COMMIT (R210, R221): the oldest supplied frame is committed, unless its address is not allowed, it has been
written before, or its taps would bring a line into contention: then every tap of the line is forced off. -/
def execFrameCommit (d : Die) (s : State) : Out :=
  match (s.cfgAt d).load with
  | none => impossible
  | some x =>
    match x.queue, s.loadAt x.load with
    | (a, data) :: rest, some v =>
      if !s.frameAllowed d v a ∨ x.written.contains a then .next (s.failLoad d 2 0x53 a)
      else
        let c := s.cfgAt d
        let x' := { x with queue := rest, written := x.written ++ [a] }
        let c' := { c.putFrame a (if v.isPartial then v.region else 64) data with
          fix := match c.fix with | some f => if f.1 = a / 128 then none else c.fix | none => none }
        let bad := if faCol a < 800 ∧ (faMinor a = 3 ∨ faMinor a = 4) then s.contention d c' x' v (faRow a) else []
        if bad = [] then
          .next (((s.setCfg d c').setDieLoad d x').bump (cfgReg d Reg.CFG_FRAMES) 1)
        else
          let s := s.around d (·.setBits (cfgReg d (Reg.CFG_LL_FORCED + 4 * faRow a)) (bad.foldl (fun n k => n ||| 2 ^ k) 0))
          let s := s.setCfg d { c with forced := c.forced ++ bad.map (fun k =>
            (faRow a * 16 + k, if v.isPartial then v.region else 64)) }
          .next (s.failLoad d 0x20 0x54 a)
    | _, _ => impossible

/-! ### Signatures and release (R209, R217, R386) -/

/-- SIG (R203, R204, R209, R219): the SIG command is read; the stream must end with its last byte. DEDUCED: log 61. -/
def execSig (d : Die) (m : MemFind) (s : State) : Out :=
  match s.dieLoad d .ended with
  | none => impossible
  | some (x, v) =>
    if v.bytes < x.pos + 3380 then .next (s.failLoad d 0x400 0x56 0)
    else
      let r := s.readLong (s.cfgAgent d) (v.addr + x.pos) 3380 m
      let s := r.2
      if r.1.status ≠ 0 then .next (s.streamError d r.1.status)
      else if imgN r.1.data 0 4 ≠ 0x80000000 ∨ (r.1.data.drop 3377).any (· != 0) then .next (s.parseError d)
      else if x.pos + 3380 < v.bytes then .next (s.failLoad d 0x400 0x56 0)
      else .next (s.setDieLoad d { x with stage := .signed, text := r.1.data })

/-- Release, step 1 (R217): reset is deasserted: flip-flops start from their initial values, memories hold their initial
contents, and long lines read 0 after a static load; the new stream registers and map bases take effect. A stream register that
a static image does not write is 0, and REGION_FLAGS that a partial image does not write stays: the spec gives a value for
neither. DESIGN CHOICE: log 137. -/
def State.releaseReset (s : State) (d : Nat) (x : DieLoad) (v : CfgLoad) : State :=
  let c := s.cfgAt d
  let maps := x.regw.filter (fun p => decide (p.1 < 144))
  let flags := x.regw.filter (fun p => decide (0x100 ≤ p.1))
  let c := if v.isPartial then c else { c with tileMap := [], flags := [] }
  let c := { c with
    tileMap := maps.foldl (fun t p => tset (fun _ => 0) t p.1 p.2) c.tileMap
    flags := flags.foldl (fun t p => tset (fun _ => 0) t (p.1 - 0x100) p.2) c.flags
    load := some { x with stage := .releasing } }
  let tiles := c.loadTiles v.isPartial v.region
  let s := ((s.setCfg d c).holdFlops d tiles).loadContents d tiles
  let s := if v.isPartial then s else s.clearLines d
  s.each (if v.isPartial then [v.region] else List.range 65) (fun s n => s.wr64 (cfgReg d (Reg.CFG_ESS_BASE + 8 * n)) v.ess)

/-- SIGNATURE_REPORT (R209, R213, R219): Ryhal reports both signatures over C(N); the dies in verifying are released or
fail. -/
def execSignatureReport (l : Nat) (s : State) : Out :=
  match s.loadAt l with
  | none => impossible
  | some v =>
    let ds := v.dies.filter (fun d => match (s.cfgAt d).load with
      | some x => x.load == l && x.stage == .signed | none => false)
    match ds with
    | [] => impossible
    | d0 :: _ =>
      match (s.cfgAt d0).load with
      | none => impossible
      | some x0 =>
        let ok := (s.secState == 1 || s.secState == 3) &&
          s.secStore.bothVerify v.slot x0.chain ((x0.text.drop 4).take 64) ((x0.text.drop 68).take 3309)
        let s := s.verifyTimed
        .next (s.each ds (fun s d =>
          match (s.cfgAt d).load with
          | none => s
          | some x => if ok then s.releaseReset d x v else s.failLoad d 8 0x72 0))

/-- Clocks and user I/O at a static release: what the clock and user-I/O columns configure, the bank level, and the starting
taps (R181, R182, R194, R195). -/
def State.releaseIo (s : State) (d : Nat) : State :=
  let c := s.cfgAt d
  let clk := (List.range 16).flatMap (fun rr => (List.range 9).flatMap (fun i => c.minors rr (832 + i) (fun _ => true)))
  let s : State := { s with clocks := tput s.clocks d (Config.clocks clk) }
  if d < 12 then s
  else
    let io := Config.userIo (c.minors 15 841 (fun _ => true))
    let level := io.level.toNat
    let s := s.wrFld (lgaReg d Reg.LGA_IO_BANK) 5 4 level
    let s := { s with userIo := tput s.userIo d io
                      taps := (List.range 24).foldl (fun t i => tset (fun _ => 0) t (24 * (d - 12) + i)
                        (match io.cells[i]? with | some x => x.startTap.toNat | none => 0)) s.taps }
    if d = 12 ∨ d = 14 then s.setBank d level
    else s.setBank (d - 1) (s.fld (lgaReg d Reg.LGA_IO_BANK) 3 2)

/-- Measurements and the counter of a release, once per load (R385, R386). -/
def State.releaseRecord (s : State) (x : DieLoad) (v : CfgLoad) : State :=
  let mask := natBytes 2 (v.dies.foldl (fun n d => n ||| 2 ^ d) 0)
  let s := s.setStore (s.secStore.raise v.rbIndex v.rbVersion)
  if v.isPartial then s.extend 5 5 (sha512 (v.imageId ++ mask ++ natBytes 1 v.region ++ x.chain)) true
  else s.extend 4 4 (sha512 (v.imageId ++ mask ++ x.chain)) true

/-- BORDER_OPEN (R217, R218): 32 reference cycles after reset release the border cells open and the region, or every
region of a released die, is running. -/
def execBorderOpen (d : Die) (s : State) : Out :=
  match s.dieLoad d .releasing with
  | none => impossible
  | some (x, v) =>
    let s := if v.released.isEmpty then s.releaseRecord x v else s
    let s := s.loadOff d
    let s := s.bump (cfgReg d Reg.CFG_LOADS) 1
    let c := s.cfgAt d
    let gone (f : Nat × Nat) : Bool := !v.isPartial || f.2 == v.region
    let s := s.each (c.forced.filter gone) (fun s f => s.clrBits (cfgReg d (Reg.CFG_LL_FORCED + 4 * (f.1 / 16))) (2 ^ (f.1 % 16)))
    let s := s.setCfg d { c with forced := c.forced.filter (fun f => !gone f) }
    let s := if v.isPartial then s.around d (·.setRegionState d v.region 1)
      else
        let s := (s.wrFld (cfgReg d Reg.CFG_STATUS) 27 24 3).wrFld (lgaReg d Reg.LGA_STATUS) 8 8 1
        let s := s.each (List.range 64) (fun s r =>
          if (List.range 144).any (fun t => c.regionOf t == some r) then s.setRegionState d r 1 else s)
        (s.releaseIo d).settleLogic d
    .next ((s.setLoad x.load { v with released := v.released ++ [d.val], frames := x.written.length }).checkLoad x.load)

/-- ABORT_LOAD (R219, R220): abort_load ends the die's load as an early end; without a load nothing happens. Once the signatures
have verified the release goes ahead, and the abort is counted and has no effect. No register of R226 counts it. DEDUCED: log 61. -/
def execAbortLoad (d : Die) (s : State) : Out :=
  match (s.cfgAt d).load with
  | none => .next s
  | some x =>
    if x.stage = .releasing then .next (s.tally (cfgReg d Reg.CFG_CTRL)) else .next (s.failLoad d 0x400 0x56 0)

/-! ### Scrubbing (R222 to R224) -/

/-- The frame the scrubber reads after frame a (bits [27:7]) in its sweep; none after the last. -/
def nextScrub (d a : Nat) : Option Nat :=
  let step (a : Nat) : Nat :=
    let rr := a / 2 ^ 17
    let col := a / 128 % 1024
    let m := a % 128
    -- minors 8 to 103 of block-memory columns are user state and are not read (R223)
    let stop := if 800 ≤ col ∧ col < 816 then 8 else minorCount col
    if m + 1 < stop then a + 1
    else if col + 1 < 841 ∨ (col + 1 = 841 ∧ rr = 15 ∧ 12 ≤ d) then rr * 2 ^ 17 + (col + 1) * 128
    else (rr + 1) * 2 ^ 17
  let n := step a
  if n / 2 ^ 17 < 16 then some n else none

/-- Where a frame's upset is judged: the image that last wrote it, and whether that is static logic, a running region or
a region in another state (R224). -/
def State.frameImage (s : State) (d a : Nat) : Nat :=
  match (s.cfgAt d).frames.find? (fun f => f.1 == a) with | some f => f.2.image | none => 64

/-- The region whose logic a frame configures; none for static logic. -/
def State.frameRegion (s : State) (d a : Nat) : Option Nat :=
  if decide (a / 128 % 1024 < 800) && a % 128 == 5 then none
  else (tileOfFrame (a * 128)).bind (fun t => (s.cfgAt d).regionOf t)

/-- Record the first essential or uncorrectable upset (R226). -/
def State.upsetInfo (s : State) (d a word : Nat) (ue : Bool) : State :=
  if s.fld (cfgReg d Reg.CFG_ERR_FLAGS) 8 7 ≠ 0 then s
  else (s.wr (cfgReg d Reg.CFG_UPSET_INFO) (BitVec.ofNat 32 (d * 2 ^ 28 + a * 128))).wr (cfgReg d Reg.CFG_UPSET_WORD)
    (BitVec.ofNat 32 (word + (if ue then 128 else 0)))

/-- The entry of the essential-bits map of a frame says whether any of the words, or any word at all where none is named, is
essential; no map, or one that cannot be read, makes every upset essential, also one of check bits alone (R224). -/
def State.essential (s : State) (d a : Nat) (words : Option (List Nat)) (m : MemFind) : Bool × State :=
  let base := s.rd64 (cfgReg d (Reg.CFG_ESS_BASE + 8 * s.frameImage d a))
  if base = 0 then (true, s)
  else
    let r := s.readLong (s.cfgAgent d) (base + 16 * a) 16 m
    if r.1.status ≠ 0 then (true, r.2)
    else
      let e := bytesNat r.1.data
      ((match words with | none => e % 2 ^ 100 != 0 | some ws => ws.any (fun w => bitOf e w)), r.2)

/-- The lowest upset word, for CFG_UPSET_WORD; an upset of check bits alone has none, and the field is free.
DESIGN CHOICE: log 129. -/
def State.lowWord (s : State) (words : List Nat) : Nat :=
  match words with | [] => (Config.freeWord s.free).toNat % 128 | w :: ws => ws.foldl min w

/-- An upset that the code cannot correct (R224): it is not written back. DEDUCED: log 63. -/
def State.uncorrectedFrame (s : State) (d a : Nat) (words : List Nat) (m : MemFind) : State :=
  let e := s.essential d a none m
  let s := e.2.bump (cfgReg d Reg.CFG_UPSET_UE_COUNT) 1
  let told (s : State) : State :=
    ((s.upsetInfo d a (s.lowWord words) true).setFlag (cfgReg d Reg.CFG_ERR_FLAGS) 8).event 0 4 d 0
  match s.frameRegion d a with
  | none =>
    let s := told s
    if e.1 then (match (s.cfgAt d).load with | some _ => s.failLoad d 0x400 0x56 0 | none => s).unconfigure d else s
  | some r =>
    if s.regionState d r ≠ 1 then s
    else if e.1 then s.around d (fun s => (s.setRegionState d r 4).holdFlops d ((s.cfgAt d).loadTiles true r))
    else told s

/-- SCRUB_READ (R222 to R224): the scrubber reads the next frame of a released die. `data` and `check` are the data
bits and check bits of the frame that differ from what was committed; user state among them is not compared. An upset within eight adjacent bits is
correctable, and is counted and judged at its write-back; one that is not is judged now. DEDUCED: log 63. -/
def execScrubRead (d : Die) (data : List (Fin 3200)) (check : List (Fin 32)) (m : MemFind) (s : State) : Out :=
  let c := s.cfgAt d
  if s.dieState d ≠ 3 ∨ c.fix.isSome then impossible
  else
    let a := c.scrub
    let col := c.colAt (a / 2 ^ 17) (a / 128 % 1024)
    let cells := (data.map (·.val)).filter (fun i => !userBit col (a * 128) i)
    let words := (cells.map (· / 32)).eraseDups
    let upset := cells ++ check.map (3200 + ·.val)
    let s := match nextScrub d a with
      | some n => s.setCfg d { c with scrub := n }
      | none =>
        let s := (s.setCfg d { c with scrub := 0 }).bump (cfgReg d Reg.CFG_SCRUB_SWEEPS) 1
        { s.wr (cfgReg d Reg.CFG_SCRUB_SWEEP_US) (BitVec.ofNat 32 (Config.elapsed s.free)) with free := s.free + 1 }
    if upset.isEmpty then .next s
    else if upset.foldl min 3231 + 8 ≤ upset.foldl max 0 then .next (s.uncorrectedFrame d a words m)
    else
      let e := s.essential d a (some words) m
      .next (e.2.setCfg d { e.2.cfgAt d with fix := some (a, words, e.1) })

/-- SCRUB_WRITE_BACK (R223, R224): the corrected frame is written back in the scrubber's next slot, and its upset is
counted and judged; an essential one in a running region that asks for it starts an essential reset, and one in a region in any
other state is counted only, without a flag. DEDUCED: log 63. -/
def execScrubWriteBack (d : Die) (s : State) : Out :=
  let c := s.cfgAt d
  match c.fix with
  | none => impossible
  | some (a, words, ess) =>
    let s := s.setCfg d { c with fix := none }
    let s := s.bump (cfgReg d Reg.CFG_UPSET_CE_COUNT) 1
    let region := s.frameRegion d a
    let counts := match region with | none => true | some r => s.regionState d r == 1
    if !ess then .next (s.setFlag (cfgReg d Reg.CFG_ERR_FLAGS) 6)
    else if !counts then .next (s.bump (cfgReg d Reg.CFG_UPSET_ESS_COUNT) 1)
    else
      let s := (s.setFlag (cfgReg d Reg.CFG_ERR_FLAGS) 6).upsetInfo d a (s.lowWord words) false
      let s := ((s.bump (cfgReg d Reg.CFG_UPSET_ESS_COUNT) 1).setFlag (cfgReg d Reg.CFG_ERR_FLAGS) 7).event 0 4 d 0
      match region with
      | some r =>
        if tget (fun _ => 0) (s.cfgAt d).flags r = 1 then
          let s := s.around d (fun s => (s.setRegionState d r 5).holdFlops d ((s.cfgAt d).loadTiles true r))
          .next ((s.bump (cfgReg d Reg.CFG_ESS_RESETS) 1).setFlag (cfgReg d Reg.CFG_ERR_FLAGS) 9)
        else .next s
      | none => .next s

/-- ESS_RESET_END (R217, R224): after 1 µs of essential reset the region is released and runs. DEDUCED: log 63. -/
def execEssResetEnd (d : Die) (r : Fin 64) (s : State) : Out :=
  if s.regionState d r = 5 then .next (s.around d (·.setRegionState d r 1)) else impossible

end Sys2Proof.Machine
end

