-- ==== Sys2Proof/Machine/Mcast.lean ====
section
/-! DEFINITION. Multicast: packets, their targets, and what a target does with its copy (R154, R243). -/

namespace Sys2Proof.Machine

/-- Bytes written over 64-bit words of a table from byte a on. -/
def patch64 (t : Table (BitVec 64)) (a : Nat) (bs : List Byte) : Table (BitVec 64) :=
  bs.zipIdx.foldl (fun t x =>
    let k := (a + x.2) / 8
    let j := (a + x.2) % 8
    tset (fun _ => 0) t k (BitVec.ofNat 64 (putBits (tget (fun _ => (0 : BitVec 64)) t k).toNat (8 * j + 7) (8 * j) x.1.toNat))) t

/-- Bytes written over 128-bit words. -/
def patch128 (t : Table (BitVec 128)) (a : Nat) (bs : List Byte) : Table (BitVec 128) :=
  bs.zipIdx.foldl (fun t x =>
    let k := (a + x.2) / 16
    let j := (a + x.2) % 16
    tset (fun _ => 0) t k (BitVec.ofNat 128 (putBits (tget (fun _ => (0 : BitVec 128)) t k).toNat (8 * j + 7) (8 * j) x.1.toNat))) t

/-- Write the payload of a multicast at its target offset: firmware memory, job memory, vector instruction memory, or
presets with the send presets after them. -/
def State.land (s : State) (b target off : Nat) (bs : List Byte) : State :=
  match target with
  | 0 => s.firmWrite (firmKey b false off) (bs.take (0x10000 - off))
  | 1 => s.firmWrite (firmKey b true off) (bs.take (0x10000 - off))
  | 2 => s.setVec b { s.vecAt b with imem := patch64 (s.vecAt b).imem off (bs.take (0x8000 - off)) }
  | _ =>
    let v := s.vecAt b
    s.setVec b { v with presets := patch64 v.presets off (bs.take (512 - off))
                        sendPresets := patch128 v.sendPresets (off - 512) ((bs.drop (512 - off)).take (768 - max off 512)) }

/-- The router of a packet's source. -/
def State.srcRouter (s : State) (p : NocPacket) : Nat := (s.nocEnds p).1

/-- The links of a multicast's copy for the router of a bay: over the XY path, or, past a bypassed turn, the YX path as a
unicast copy (R234, R243). -/
def State.copyLinks (s : State) (p : NocPacket) (b : Nat) : List Nat :=
  let a := s.srcRouter p
  let r := routerOfBay b
  (match p.src with | .edge e => [crossKey a (edgeDir e)] | _ => []) ++ linksOf (pathOf a r (!s.pathUsable a r false))

/-- How the target of a multicast in bay b answers: its status, and the state with the payload written where it stands. A
packet carries 1 to 4,096 bytes (R154). -/
def State.mcastTarget (s : State) (p : NocPacket) (b : Nat) : Nat × State :=
  let bytes := p.payload.drop 32
  let target := multicastTarget p.payload
  let w := bytesNat ((p.payload.drop 12).take 4)
  let off := bitsOf w 31 16 * 64
  let a := s.srcRouter p
  let r := routerOfBay b
  if !(s.pathUsable a r false || s.pathUsable a r true) || s.routerMode r != 0 then (0x23, s.srcBump p Reg.NOC_UNREACHABLE 5)
  else if s.linkDownOn (s.copyLinks p b) then (0x23, s)
  else if s.epIsolated b (multicastEp p.payload) then (0x23, s.bump (nocReg r Reg.NOC_ABSORBED) 1)
  else if (crc32 bytes).toNat = bytesNat ((p.payload.drop 16).take 4) ∧ bitsOf w 15 0 = bytes.length ∧ target < 4 ∧
      1 ≤ bytes.length ∧ bytes.length ≤ 4096 then
    (0, s.land b target off bytes)
  else (1 + (Config.freeByte s.free).toNat % 255, { s with free := s.free + 1 })

/-- What a target's answer to a multicast becomes on its way back (R234). DEDUCED: log 73. -/
def State.copyAnswer (s : State) (p : NocPacket) (b status : Nat) : Nat :=
  let a := s.srcRouter p
  let r := routerOfBay b
  if s.linkDownOn (linksOf (pathOf r a (!s.pathUsable a r false))) then 0x23 else status

/-- A multicast packet of an agent to bays of one die (R154). -/
def mcastPacket (g : Agent) (die : Nat) (bays : List Nat) (target off : Nat) (bytes : List Byte) : NocPacket :=
  let head := natBytes 4 (2 ^ die * 2 ^ 16 + target * 2 ^ 12) ++ natBytes 8 (bays.foldl (fun n b => n ||| 2 ^ (b % 64)) 0) ++
    natBytes 4 (off / 64 * 2 ^ 16 + bytes.length) ++ natBytes 4 (crc32 bytes).toNat ++ natBytes 12 0
  { src := g.src, srcEp := Fin.ofNat 32 g.ep, tag := 0, dst := g.src, dstEp := 0, cls := Fin.ofNat 4 g.cls, type := 4, addr := 0
    bytes := 32 + bytes.length, atomicOp := 0, payload := head ++ bytes }

/-- A multicast is issued, as one request (R243, R245): what the source makes of it, and the state that counts it. DEDUCED: log 51. -/
def State.mcastIssue (s : State) (p : NocPacket) : NocReq × State := s.nocIssue (s.domainSet (domainOf p)) p .bare none

/-- The copy of an issued multicast goes to bay b and its answer comes back and is counted: the status of the answer.
DEDUCED: log 51. -/
def State.mcastTrip (s : State) (v : NocReq) (b : Nat) : Nat × State :=
  let x := match v.answer with | some a => (a.1, s) | none => s.mcastTarget v.pkt b
  let st := s.copyAnswer v.pkt b x.1
  (st, ({ x.2 with free := x.2.free + 1 } : State).countResponse v.pkt v.cls st 0 (Config.elapsed x.2.free))

end Sys2Proof.Machine
end

