-- ==== Sys2Proof/Machine/Ckpt.lean ====
section
/-! DEFINITION. Checkpoint records: what a stopped bay writes and what a resumed bay reads back (R113, R142, R161 to
R163). -/

namespace Sys2Proof.Machine

/-! ### The vector state image (R163) -/

/-- A signed 40-bit value sign-extended to eight bytes. -/
def sext40 (v : BitVec 40) : List Byte := natBytes 8 (v.signExtend 64).toNat

/-- Lane l of the image: 96 bytes. -/
def laneImage (v : Vec) (l : Nat) : List Byte :=
  (List.range 16).flatMap (fun r => natBytes 4 (v.dAt l r).toNat) ++
  sext40 (tget (fun _ => 0) v.a (2 * l)) ++ sext40 (tget (fun _ => 0) v.a (2 * l + 1)) ++
  natBytes 4 (v.hdAt l * 256 + (tget (fun _ => (0 : Byte)) v.be l).toNat) ++ natBytes 12 0

/-- Repeat level, outermost first. -/
def repImage (v : Vec) (i : Nat) : Nat :=
  match v.reps.reverse[i]? with
  | some r => 2 ^ 40 + r.runs * 2 ^ 24 + r.last * 2 ^ 12 + r.first
  | none => 0

/-- Queued send s. -/
def sendImage (v : Vec) (i : Nat) : Nat :=
  match v.sends[i]? with
  | some q => 2 ^ 16 + q.accepted * 2 ^ 4 + q.preset
  | none => 0

/-- The code of a data-memory block (R116). -/
def vecBlockCode : VecBlock → Nat
  | .held => 0 | .free => 1 | .filling _ => 2 | .valid => 3

/-- Block states 16w to 16w + 15 as VEC_BLOCK_STATE_w shows them. -/
def vecBlockWord (v : Vec) (w : Nat) : Nat :=
  (List.range 16).foldl (fun n k => n + vecBlockCode (v.block (16 * w + k)) * 4 ^ k) 0

/-- The 4 KiB state image. DEDUCED: log 38. -/
def vecImage (v : Vec) : List Byte :=
  (List.range 32).flatMap (laneImage v) ++
  (List.range 8).flatMap (fun g => natBytes 8 (v.genAt g)) ++
  (List.range 4).flatMap (fun i => natBytes 8 (repImage v i)) ++
  (List.range 4).flatMap (fun i => natBytes 8 (sendImage v i)) ++
  natBytes 4 v.pc ++
  (List.range 2).flatMap (fun k => natBytes 4 (tget (fun _ => (0 : BitVec 12)) v.userRow k).toNat) ++
  natBytes 20 0 ++
  (List.range 8).flatMap (fun w => natBytes 4 (vecBlockWord v w)) ++
  natBytes 832 0

/-- Write an image back; `layer` is the open layer its queued sends belong to. User slots are reloaded from the rows
recorded (R163); data memory is in place. DEDUCED: log 38. -/
def Vec.restore (v : Vec) (img : List Byte) (b layer : Nat) (writer : Nat → Option Writer) : Vec :=
  let lane (l : Nat) : List Byte := (img.drop (96 * l)).take 96
  let d := (List.range 32).foldl (fun t l => (List.range 16).foldl (fun t r =>
    tset (fun _ => 0) t (16 * l + r) (BitVec.ofNat 32 (imgN (lane l) (4 * r) 4))) t) []
  let a := (List.range 32).foldl (fun t l => (List.range 2).foldl (fun t i =>
    tset (fun _ => 0) t (2 * l + i) (BitVec.ofNat 40 (imgN (lane l) (0x40 + 8 * i) 8))) t) []
  let be := (List.range 32).foldl (fun t l => tset (fun _ => 0) t l (BitVec.ofNat 8 (imgN (lane l) 0x50 1))) []
  let hd := (List.range 32).foldl (fun t l => tset (fun _ => 31) t l (BitVec.ofNat 5 (imgN (lane l) 0x51 1))) []
  let gens := (List.range 8).foldl (fun t g => tset (fun _ => 0) t g (BitVec.ofNat 64 (imgN img (0xC00 + 8 * g) 8))) []
  let reps := ((List.range 4).filterMap (fun i =>
    let x := imgN img (0xC40 + 8 * i) 8
    if bitOf x 40 then some (⟨bitsOf x 11 0, bitsOf x 23 12, bitsOf x 39 24⟩ : Repeat) else none)).reverse
  let sends := (List.range 4).filterMap (fun i =>
    let x := imgN img (0xC60 + 8 * i) 8
    if bitOf x 16 then some (⟨bitsOf x 3 0, bitsOf x 15 4, layer⟩ : QueuedSend) else none)
  let rows := (List.range 2).foldl (fun t k =>
    tset (fun _ => 0) t k (BitVec.ofNat 12 (imgN img (0xC84 + 4 * k) 4))) ([] : Table (BitVec 12))
  let tab := (List.range 2).foldl (fun t k =>
    let x := imgN img (0xC84 + 4 * k) 4
    if x % 2 = 0 then t
    else (List.range 256).foldl (fun t i => tset (fun _ => 0) t (256 * k + i)
      (BitVec.ofNat 32 (bytesNat (tbytes v.dmem (dmAddr false ((x / 2 % 2048 + i / 32) % 2048) (4 * (i % 32))) 4)))) t)
    ([] : Table Word)
  let blocks := (List.range 128).foldl (fun t k =>
    let st : VecBlock := match imgN img (0xCA0 + k / 4) 1 / 4 ^ (k % 4) % 4 with
      | 1 => .free | 2 => .filling ((writer k).getD (.send b)) | 3 => .valid | _ => .held
    tset (fun _ => .held) t k st) ([] : Table VecBlock)
  { v with d := d, a := a, be := be, hd := hd, gens := gens, reps := reps, sends := sends, userTab := tab, userRow := rows
           blocks := blocks, pc := imgN img 0xC80 4 % 4096, ran := [], effects := [], nextPc := none, flight := []
           ending := false, rowOpen := false, stopReq := false, state := .running }

/-! ### The bay header (R161) -/

/-- The index of the next command of a bay: the first that has not completed; a barrier already released has. -/
def State.nextIndex (s : State) (b : Nat) : Nat :=
  let x := s.bayAt b
  match x.job.bind s.jobAt with
  | none => x.next
  | some j => if j.released.any (fun r => r.2 == x.logical) then x.next + 1 else x.next

/-- The code of an operand-buffer block (R161). -/
def bufBlockCode : BufBlock → Nat
  | .free => 0 | .filling _ => 1 | .valid => 2

/-- Block states of a tile as the header holds them. -/
def bufBlockBytes (m : Mtx) : List Byte :=
  natBytes 16 ((List.range 64).foldl (fun n k => n + bufBlockCode (m.block k) * 4 ^ k) 0)

/-- The word of STR_CH_STATE (R144). -/
def chanStateCode : ChanState → Nat
  | .idle => 0 | .waitBarrier => 1 | .running => 2 | .creditWait => 3 | .paused => 4 | .preempted => 5 | .ended => 6
  | .endedShort => 7

def Chan.stateWord (c : Chan) : Nat :=
  chanStateCode c.state * 2 ^ 28 + (if c.state = .paused then c.cause else 0) * 2 ^ 24 + c.heldCount % 128 * 2 ^ 16 + c.desc.id

/-- The record of a channel: descriptor, cursor and held destination credits. -/
def chanImage (c : Chan) : List Byte :=
  c.raw.take 96 ++ natBytes (96 - (c.raw.take 96).length) 0 ++ natBytes 16 c.cursor ++
  natBytes 16 (c.credits.foldl (fun n k => n ||| 2 ^ (k % 128)) 0)

/-- The 4 KiB bay header but for its first 8 bytes. -/
def State.bayHeader (s : State) (b : Nat) : List Byte :=
  let x := s.bayAt b
  let tile (t : Nat) : Mtx := s.mtxAt (b * 8 + t)
  let h := natBytes 8 (x.logical + x.layer % 2 ^ 16 * 2 ^ 16 + s.nextIndex b * 2 ^ 32) ++ natBytes 8 x.digits ++ natBytes 8 x.sats ++
    (List.range 8).flatMap (fun t => natBytes 8 (boundClip (tile t).bPass) ++ natBytes 8 (boundClip (tile t).bRun)) ++
    (List.range 8).flatMap (fun t => bufBlockBytes (tile t)) ++
    (List.range 8).flatMap (fun t => natBytes 4 ((tile t).lastEnded.getD 0xFFFFFFFF)) ++
    natBytes 8 (match x.vprogOff with | some o => 2 ^ 63 + o | none => 0)
  h ++ natBytes (0x3F8 - h.length) 0 ++
  (List.range 16).flatMap (fun c => natBytes 8 (s.chanAt b c).stateWord) ++ natBytes 0x380 0 ++
  (List.range 16).flatMap (fun c => chanImage (s.chanAt b c))

/-! ### Writing and reading a record -/

/-- What a record writes: the address and bytes of each part, free blocks left out; the valid word comes last (R161). -/
def State.recordParts (s : State) (b A tag : Nat) : List (Nat × List Byte) :=
  let v := s.vecAt b
  [(A, natBytes 8 0 ++ s.bayHeader b), (A + 0x1000, vecImage v)] ++
  ((List.range 128).filter (fun k => v.block k != .free)).map (fun k =>
    (A + 0x2000 + 4096 * k, tbytes v.dmem (4096 * k) 4096)) ++
  (List.range 8).flatMap (fun t =>
    let m := s.mtxAt (b * 8 + t)
    let T := A + 0x82000 + 0x58000 * t
    ((List.range 64).filter (fun k => m.block k != .free)).map (fun k => (T + 4096 * k, tbytes m.buf (4096 * k) 4096)) ++
    [(T + 0x40000, (List.range 16384).flatMap (fun i => natBytes 6 (tget (fun _ => (0 : BitVec 48)) m.acc i).toNat))]) ++
  [(A, natBytes 8 (2 ^ 63 + tag))]

/-- Write parts in order, up to the first that fails. -/
def State.writeParts (s : State) (g : Agent) : List (Nat × List Byte) → MemFind → MemAns × State
  | [], _ => (⟨0, 0, []⟩, s)
  | (A, bs) :: ps, m =>
    let r := s.writeLong g A bs m
    if r.1.status ≠ 0 then r else r.2.writeParts g ps m.rest

/-- Write the record of a bay at address A, its valid word last (R161). DEDUCED: log 54. -/
def State.writeRecord (s : State) (b A tag : Nat) (m : MemFind) : MemAns × State :=
  s.writeParts (seqAgent b) (s.recordParts b A tag) m

/-- The parts of a record that a resume reads: header, vector image, and the blocks that were not free (R162). -/
def State.recordReads (s : State) (A : Nat) : List (Nat × Nat) :=
  let code (o k : Nat) : Nat := (s.readByte (A + o + k / 4)).toNat / 4 ^ (k % 4) % 4
  [(A, 4096), (A + 0x1000, 4096)] ++
  ((List.range 128).filter (fun k => code (0x1000 + 0xCA0) k != 1)).map (fun k => (A + 0x2000 + 4096 * k, 4096)) ++
  (List.range 8).flatMap (fun t =>
    let T := A + 0x82000 + 0x58000 * t
    ((List.range 64).filter (fun k => code (0xA0 + 16 * t) k != 0)).map (fun k => (T + 4096 * k, 4096)) ++
    [(T + 0x40000, 98304)])

/-- Read parts in order, up to the first that fails. -/
def State.readParts (s : State) (g : Agent) : List (Nat × Nat) → MemFind → MemAns × State
  | [], _ => (⟨0, 0, []⟩, s)
  | (A, n) :: ps, m =>
    let r := s.readLong g A n m
    if r.1.status ≠ 0 then r else r.2.readParts g ps m.rest

/-- The writer whose credit of a destination the saved channels hold: channel c of the bay, by peer and block. -/
def creditOwner (b : Nat) (cs : List (Nat × Chan)) (peer k : Nat) : Option Writer :=
  (cs.find? (fun c => c.2.desc.peer == peer && c.2.credits.contains k)).map (fun c => .stream b c.1)

/-- A saved channel (R142, R161): its stream goes on from its cursor; until one that waits at its barrier starts, the channel
shows the stream before it (R144). DEDUCED: log 52. -/
def restoreChan (old : Chan) (inPlan : Bool) (state : Nat) (img : List Byte) : Chan :=
  let raw := img.take 96
  let d := (streamOf raw).getD .zero
  let cur := imgN img 96 16
  let ix (i : Nat) : Nat := bitsOf cur (20 * i + 19) (20 * i)
  let k := ((d.counts.zipIdx).reverse.foldl (fun n c => n * c.1 + ix c.2) 0)
  let mask := imgN img 112 16
  let credits := if d.toPort then [] else (List.range 128).filter (fun i => bitOf mask i)
  let st := bitsOf state 31 28
  -- a staging block for each destination credit (R128)
  let base : Chan := { Chan.init with desc := d, raw := raw, credits := credits, planned := inPlan
                                      held := if d.kind = 0 then List.range credits.length else []
                                      nextStage := credits.length, nextReq := old.nextReq, outstanding := old.leftover }
  if st = 0 ∨ st = 7 then { old with state := .idle }
  else if st = 6 then { base with state := .ended, accepted := d.rows, delivered := d.total }
  else if st = 1 then
    { base with state := .waitBarrier, shown := ⟨old.status, old.desc.layer, old.done, old.faultAddr, old.cursor⟩ }
  else if d.kind = 0 then
    let acc := if d.perSource = 1 then (if k = d.total then d.rows else k / d.rowOuts)
      else k * d.perSource / d.rowOuts + bitsOf cur 104 100
    { base with state := .running, accepted := acc, formed := acc, converted := acc }
  else { base with state := .running, delivered := k, formed := k, converted := k }

/-- The counters of a stream that goes on are those it was saved with (R141, R144). -/
def State.showSaved (s : State) (b c : Nat) (ch : Chan) (x : SavedStr) : State :=
  if ch.started then
    (((s.wr (chReg b c Reg.STR_CH_CREDIT_WAIT) (BitVec.ofNat 32 x.waits)).wr (chReg b c Reg.STR_CH_PAUSES) (BitVec.ofNat 32 x.pauses)).wr
      (chReg b c Reg.STR_CH_SAT) (BitVec.ofNat 32 x.sats)).wr (chReg b c Reg.STR_CH_ROUNDED) (BitVec.ofNat 32 x.rounded)
  else s

/-- Read the record at address A back into a bay (R162): the tiles' blocks, accumulators and bounds, data memory and the
vector state, the channels with their credits, and the sequencer at its saved command. What the record has no place for is
kept with the job: the marks of a saturation since B_run was last set (R39), and the counts of the streams (R141, R144).
DESIGN CHOICE: log 117, 120. -/
def State.readRecord (s : State) (b A : Nat) (j : Job) : State :=
  let hdr := s.readBytes A 4096
  let x := s.bayAt b
  let layer := imgN hdr 0xA 2
  let chans := (List.range 16).map (fun c =>
    (c, restoreChan (s.chanAt b c) (tget (fun _ => SavedStr.none) j.saved (16 * x.logical + c)).planned (imgN hdr (0x400 + 8 * c) 8) ((hdr.drop (0x800 + 128 * c)).take 128)))
  let s := s.each chans (fun s c => (s.setChan b c.1 c.2).showSaved b c.1 c.2 (tget (fun _ => SavedStr.none) j.saved (16 * x.logical + c.1)))
  let s := s.each (List.range 8) (fun s t =>
    let m := s.mtxAt (b * 8 + t)
    let T := A + 0x82000 + 0x58000 * t
    let code (k : Nat) : Nat := imgN hdr (0xA0 + 16 * t + k / 4) 1 / 4 ^ (k % 4) % 4
    let m := (List.range 64).foldl (fun m k =>
      match code k with
      | 1 => { m.setBlock k (.filling ((creditOwner b chans (2 + t) k).getD (.drain (b * 8 + t)))) with
               buf := tputBytes m.buf (4096 * k) (s.readBytes (T + 4096 * k) 4096) }
      | 2 => { m.setBlock k .valid with buf := tputBytes m.buf (4096 * k) (s.readBytes (T + 4096 * k) 4096) }
      | _ => m.setBlock k .free) m
    let acc := (List.range 16384).foldl (fun a i =>
      tset (fun _ => 0) a i (BitVec.ofNat 48 (bytesNat (s.readBytes (T + 0x40000 + 6 * i) 6)))) ([] : Table (BitVec 48))
    let last := imgN hdr (0x120 + 4 * t) 4
    s.setMtx (b * 8 + t) { m with acc := acc, bPass := imgN hdr (0x20 + 16 * t) 8, bRun := imgN hdr (0x28 + 16 * t) 8
                                  satSinceSet := j.satMarks.contains (8 * x.logical + t)
                                  lastEnded := if last = 0xFFFFFFFF then none else some last })
  let v := s.vecAt b
  let img := s.readBytes (A + 0x1000) 4096
  let saved (k : Nat) : Bool := imgN img (0xCA0 + k / 4) 1 / 4 ^ (k % 4) % 4 != 1
  let v := { v with dmem := ((List.range 128).filter saved).foldl (fun t k =>
    tputBytes t (4096 * k) (s.readBytes (A + 0x2000 + 4096 * k) 4096)) v.dmem }
  let vp := imgN hdr 0x140 8
  let v := if bitOf vp 63 then v.restore img b layer (creditOwner b chans 1)
    else { v.restore img b layer (creditOwner b chans 1) with state := .idle }
  let s := s.setVec b v
  s.setBay b { x with layer := layer, layerOpen := decide (layer ≠ 0) || decide (0 < imgN hdr 0xC 4), next := imgN hdr 0xC 4
                      digits := imgN hdr 0x10 8, sats := imgN hdr 0x18 8
                      vprogOff := if bitOf vp 63 then some (vp % 2 ^ 32) else none }

end Sys2Proof.Machine
end

