-- ==== Sys2Proof/Machine/JobRun.lean ====
section
/-! DEFINITION. The life of a job: its report, its end, its start on placed bays, its pre-emption and its resume
(R146 to R163, R329, R330). -/

namespace Sys2Proof.Machine

/-- The queue of a class of a partition (R153). -/
def State.queueOf (s : State) (part cls : Nat) : List Nat := tget (fun _ => []) s.queues (4 * part + cls)
def State.setQueue (s : State) (part cls : Nat) (q : List Nat) : State :=
  { s with queues := tset (fun _ => []) s.queues (4 * part + cls) q }

/-- The status a job's completion carries (R425, R427). -/
def Job.finalStatus (j : Job) : Nat :=
  if j.status ≠ 0 then j.status else if 0 < j.sats then 1 else if j.rerun then 2 else 0

/-- What a job reports (R329, R330). -/
def Job.report (j : Job) : Report :=
  let st := j.finalStatus
  { status := st, bound := if st ≤ 2 then j.bound else 0, digits := j.digits, detail := if st ≤ 2 then 0 else j.detail
    sats := j.sats, job := true
    record := natBytes 4 (st * 2 ^ 24 + j.pcrs.length % 2 ^ 16) ++ natBytes 4 (if st ≤ 2 then 0 else j.detail) ++
      natBytes 4 j.recordsAccepted ++ natBytes 4 j.events ++ natBytes 8 j.sats ++ natBytes 8 j.failAddr ++ j.pcrs.flatten }

/-- A handle is freed: its copy goes, and the unpin that waited completes (R326). -/
def State.freeHandle (s : State) (f h : Nat) : State :=
  match s.pins.find? (fun e => e.1 == 16 * f + h) with
  | none => s
  | some p =>
    let s := { s with pins := terase s.pins (16 * f + h) }
    match p.2.leaving with | some e => s.complete e (.of 0) | none => s

/-- Jobs of a handle remain. -/
def State.handleBusy (s : State) (f h : Nat) : Bool := s.jobs.any (fun e => e.2.ent.func == f && e.2.handle == some h)

/-- After a job has left: an unpin that waited for it frees the handle. -/
def State.checkHandle (s : State) (f h : Nat) : State :=
  match s.pins.find? (fun e => e.1 == 16 * f + h) with
  | some p => if p.2.leaving.isSome && !s.handleBusy f h then s.freeHandle f h else s
  | none => s

/-- A job leaves the module with its completion queued. -/
def State.retireJob (s : State) (j : Nat) (v : Job) : State :=
  let s := { s with jobs := terase s.jobs j }
  let s := s.setQueue v.part v.cls ((s.queueOf v.part v.cls).filter (· != j))
  let s := s.complete v.ent v.report
  match v.handle with | some h => s.checkHandle v.ent.func h | none => s

/-- A bay is free of its job: its tiles, ports and blocks as the end of a job leaves them (R54, R96, R189). -/
def State.freeBay (s : State) (b : Nat) : State :=
  let x := s.bayAt b
  s.setBay b { BaySeq.init with tlb := x.tlb, invalidations := x.invalidations }

/-- A job that never ran, or was ended before dispatch, completes with a status (R152, R159). -/
def State.dropJob (s : State) (j : Nat) (v : Job) (st addr : Nat) : State :=
  s.retireJob j { v with status := st, failAddr := addr }

/-- Quarters of a job that the active set no longer gives its partition start to be zeroed, and leave it (R157, R158). -/
def State.departing (s : State) (v : Job) : State :=
  s.each (v.placed.filter (fun q => !((s.part v.part).enabled && bitOf (s.part v.part).quarters q))) (fun s q =>
    s.setBits (regKey (.seq (Fin.ofNat 16 (q / 4))) Reg.SEQ_RESET_STATE) (2 ^ (q % 4)))

/-- The last bay's end message has arrived: the job has ended (R54, R336). -/
def State.finishJob (s : State) (j : Nat) : State :=
  match s.jobAt j with
  | none => s
  | some v =>
    let s := s.each v.bays (fun s b =>
      let s := s.endBlocks b (v.status == 0)
      let s := s.each (List.range 4) (fun s p => s.closePort b p)
      s.freeBay b)
    (s.departing v).retireJob j v

/-! ### Start (R152, R153, R162) -/

/-- The bay table of a job, read from its image. -/
def State.bayEntries (s : State) (j : Job) (m : MemFind) : MemAns × List BayEntry × State :=
  let n := 16 * j.hdr.quarters
  let r := s.imgRead (s.leadAgent j) j j.hdr.bayOff (16 * n) m
  (r.1, (List.range n).map (fun b => bayEntry ((r.1.data.drop (16 * b)).take 16)), r.2)

/-- The pass commands in a command list. -/
def passCount (cmds : List Byte) : Nat :=
  (List.range (cmds.length / 8)).foldl (fun n i => n + (if imgN cmds (8 * i + 7) 1 = 1 then 1 else 0)) 0

/-- Put a job on a bay: its sequencer, tiles and vector tile as a job finds them (R52, R73, R86, R112). B_run and the mark of a
saturation since it was last set stay with the tile, as its entries do (R39, R59): a pass of the job that adds goes on from
them. No layer command has run, and layer 0 is open (R147). DESIGN CHOICE: log 120, 132. -/
def State.startBay (s : State) (b j lb passIndex : Nat) (bubble : Bool) (e : BayEntry) : State :=
  let x := s.bayAt b
  let s := s.setBay b { BaySeq.init with job := some j, logical := lb, tiles := e.tiles, vector := e.vector
                                         cmdOff := e.cmdOff, cmdBytes := e.cmdBytes, passIndex := passIndex
                                         bubble := bubble, tlb := x.tlb
                                         invalidations := x.invalidations }
  let s := s.each (List.range 16) (fun s c =>
    let ch := s.chanAt b c
    if ch.live then s.setChan b c { ch with state := .idle } else s)
  let s := s.each (List.range 8) (fun s t =>
    let m := s.mtxAt (b * 8 + t)
    (s.setMtx (b * 8 + t) { m with halted := false, staValid := false, handed := [], preempt := false, gone := none, lastEnded := none }).wr
      (mtxReg (b * 8 + t) Reg.MTX_PASS_INDEX) 0)
  let v := s.vecAt b
  s.setVec b { v with state := .idle, sends := [], ending := false }

/-- A Ristretto job has reached dispatch start: the longest time since the kick is kept, counted by the engine (R335,
R336). -/
def State.kickTime (s : State) (cls : Nat) : State :=
  if cls ≠ 0 then s
  else
    let ns := Config.elapsed s.free % 2 ^ 32
    let s := ({ s with free := s.free + 1 } : State).wrMax (hifReg Reg.HIF_RIS_KICK_MAX_NS) ns
    if 3000 < ns then s.setFlag (hifReg Reg.HIF_ERR_FLAGS) 4 else s

/-- Every section has reached its bay: the quarters hold the sections of the job's handle (R326), the sequencers start, which is
dispatch start (R152), and the ports of the bays open (R189). DEDUCED: log 51. -/
def State.startSequencers (s : State) (j : Nat) : State :=
  match s.jobAt j with
  | none => s
  | some v =>
    if v.loads.isEmpty then
      let code := (v.handle.map (fun h => 16 * v.ent.func + h + 1)).getD 0
      let s := { s with qtrHandle := v.placed.foldl (fun t q => tset (fun _ => 0) t q code) s.qtrHandle }
      let s := s.each v.bays (fun s b =>
        (s.setBay b { s.bayAt b with running := true }).each (List.range 4) (fun s p => s.openPort b p))
      (s.setJob j { v with started := true }).kickTime v.cls
    else s

/-! ### Pre-emption (R158, R161) -/

/-- What a pre-empted job keeps beside its records: the logical bays that use bubble-fill, those whose vector program had ended,
and those whose program had issued its end packet. DESIGN CHOICE: log 117. -/
def State.keptOf (s : State) (v : Job) : List Nat × List Nat × List Nat :=
  let pick (p : Nat → Bool) : List Nat := (v.bays.zipIdx.filter (fun x => p x.1)).map (·.2)
  (pick (fun b => (s.bayAt b).bubble), pick (fun b => (s.bayAt b).vprogOff.isSome && (s.vecAt b).state == .idle),
    pick (fun b => (s.vecAt b).ending))

/-- The marks and the counts that a pre-empted job keeps of its tiles and streams. DESIGN CHOICE: log 117. -/
def State.keptMarks (s : State) (v : Job) : List Nat × Table SavedStr :=
  let bays := v.bays.zipIdx
  (bays.flatMap (fun x => ((List.range 8).filter (fun t => (s.mtxAt (x.1 * 8 + t)).satSinceSet)).map (fun t => 8 * x.2 + t)),
    bays.foldl (fun t x => (List.range 16).foldl (fun t c =>
      let ch := s.chanAt x.1 c
      let n (o : Nat) : Nat := s.rdN (chReg x.1 c o)
      if ch.live || ch.state == .ended then
        tset (fun _ => SavedStr.none) t (16 * x.2 + c) ⟨ch.planned, n Reg.STR_CH_CREDIT_WAIT, n Reg.STR_CH_PAUSES, n Reg.STR_CH_SAT,
          n Reg.STR_CH_ROUNDED⟩
      else t) t) [])

/-- A job whose records are all written returns to the head of its queue; its bays are free. The blocks of their tiles and of
their data memories stay as they are (R54, R84, R96, R158). DESIGN CHOICE: log 121. -/
def State.parkJob (s : State) (j : Nat) (v : Job) : State :=
  let lead := s.leadReg v
  let kept := s.keptOf v
  let marks := s.keptMarks v
  let s := (s.bump (lead Reg.SEQ_PREEMPT_COUNT) 1).bump (lead Reg.SEQ_CKPT_COUNT) 1
  let s := s.each v.bays (fun s b =>
    let s := s.each (List.range 4) (fun s p => s.closePort b p)
    let s := s.each (List.range 16) (fun s c =>
      let ch := s.chanAt b c
      s.setChan b c (if ch.live then { ch.clear with arrivals := [], state := .preempted } else ch))
    let x := s.vecAt b
    let s := s.setVec b { x with state := .idle, sends := [], ending := false }
    let s := s.each (List.range 8) (fun s t =>
      s.setMtx (b * 8 + t) { s.mtxAt (b * 8 + t) with preempt := false })
    s.freeBay b)
  let s := s.departing v
  let s := s.setJob j { v with phase := .preempted, placed := [], arrivals := [], released := [], ended := [], loads := []
                               resumed := true, bubbles := kept.1, vecDone := kept.2.1, vecEnding := kept.2.2
                               satMarks := marks.1, saved := marks.2 }
  s.setQueue v.part v.cls (j :: (s.queueOf v.part v.cls).filter (· != j))

end Sys2Proof.Machine
end

