-- ==== Sys2Proof/Machine/Seq.lean ====
section
/-! DEFINITION. The commands of the bay sequencers and barriers (R147, R148, R428). -/

namespace Sys2Proof.Machine

/-- Fields of a sequencer command (R147). -/
def cmdOp (c : Nat) : Nat := bitsOf c 63 56
def cmdUnit (c : Nat) : Nat := bitsOf c 55 52
def cmdArg (c : Nat) : Nat := bitsOf c 51 32
def cmdDesc (c : Nat) : Nat := bitsOf c 31 0

/-- A bad command ends the job with an array-class status (R147). -/
def State.badCommand (s : State) (b : Nat) : State := s.failBay b 0x35 none 0

/-- A read of the image that met a status ends the job with it (R152, R330). -/
def State.imageFault (s : State) (b : Nat) (a : MemAns) : State := s.failBay b a.status none a.addr

/-- The bay's present command has completed. -/
def State.cmdDone (s : State) (b : Nat) : State :=
  let x := s.bayAt b
  s.setBay b { x with next := x.next + 1, waiting := false, desc := none }

/-- The 4 KiB page of the command list that holds the next command, fetched unless the sequencer holds it (R147); `m` is what
the fetch meets. DEDUCED: log 50. -/
def State.fetchPage (s : State) (b : Nat) (v : Job) (m : MemFind) : MemAns × State :=
  let x := s.bayAt b
  let p := 8 * x.next / 4096
  match x.page with
  | some (n, bs) => if n = p then (⟨0, 0, bs⟩, s) else go x p
  | none => go x p
where
  go (x : BaySeq) (p : Nat) : MemAns × State :=
    let r := s.imgRead (seqAgent b) v (x.cmdOff + 4096 * p) (min 4096 (x.cmdBytes - 4096 * p)) m
    (r.1, if r.1.status = 0 then r.2.setBay b { r.2.bayAt b with page := some (p, r.1.data) } else r.2)

/-- Run the next command of a bay, which must be the command named. An op the table does not have, or a list without an end
command, is a bad command. -/
def runCmd (op : Nat) (b : Nat) (m : MemFind) (act : Nat → Job → Nat → MemFind → State → Out) (s : State) : Out :=
  let x := s.bayAt b
  match x.job with
  | none => impossible
  | some j =>
    match s.jobAt j with
    | none => impossible
    | some v =>
      if !x.running || x.waiting || x.finished || v.phase != .running then impossible
      else if x.cmdBytes ≤ 8 * x.next then .next (s.badCommand b)
      else
        let held := x.page.any (fun p => p.1 == 8 * x.next / 4096)
        let r := s.fetchPage b v m
        let s := r.2
        if r.1.status ≠ 0 then .next (s.imageFault b r.1)
        else
          let c := imgN r.1.data (8 * x.next % 4096) 8
          if [1, 2, 3, 4, 5, 6, 7, 15].contains (cmdOp c) then
            (if cmdOp c = op then act j v c (if held then m else m.rest) s else impossible)
          else .next (s.badCommand b)

/-- The descriptor that the present command names, n bytes: the one held since the command first waited, or read now. -/
def State.fetchDesc (s : State) (b : Nat) (v : Job) (off n : Nat) (m : MemFind) : MemAns × State :=
  match (s.bayAt b).desc with
  | some bs => (⟨0, 0, bs⟩, s)
  | none =>
    let r := s.imgRead (seqAgent b) v off n m
    (r.1, if r.1.status = 0 then r.2.setBay b { r.2.bayAt b with desc := some r.1.data } else r.2)

/-- A descriptor of n bytes at the command's off lies where it may (R147). -/
def offOk (v : Job) (c align n : Nat) : Bool := cmdDesc c % align == 0 && decide (cmdDesc c + n ≤ v.hdr.bytes)

/-- PASS_CMD (R88, R147): the pass descriptor at off is handed to a tile with its index. -/
def execPassCmd (b : Bay) (m : MemFind) (s : State) : Out :=
  runCmd 1 b m (fun _ v c m s =>
    let x := s.bayAt b
    if 7 < cmdUnit c ∨ !bitOf x.tiles (cmdUnit c) ∨ !offOk v c 32 96 then .next (s.badCommand b)
    else
      let r := s.imgRead (seqAgent b) v (cmdDesc c) 96 m
      if r.1.status ≠ 0 then .next (r.2.imageFault b r.1)
      else
        let ws := (List.range 24).map (fun i => BitVec.ofNat 32 (imgN r.1.data (4 * i) 4))
        let t := b * 8 + cmdUnit c
        let s := r.2
        let k := s.mtxAt t
        let s := s.setMtx t { k with handed := k.handed ++ [⟨x.passIndex, x.layer, x.next, ws⟩] }
        .next (s.setBay b { s.bayAt b with waiting := true, passIndex := x.passIndex + 1 })) s

/-- A placed stream on channel c: its registers show the stream before it until it starts (R144), and requests of streams
before it that are still in flight are discarded as they come back. -/
def Chan.place (old : Chan) (d : StreamDesc) (raw : List Byte) (inPlan : Bool) : Chan :=
  { Chan.init with state := .waitBarrier, desc := d, raw := raw, planned := inPlan, nextReq := old.nextReq
                   outstanding := old.leftover
                   shown := ⟨old.status, old.desc.layer, old.done, old.faultAddr, old.cursor⟩ }

/-- The blocks of an ended stream that the channel has not signalled complete yet are so before another stream takes the
channel (R126, R135). -/
def State.completeCredits (s : State) (b c : Nat) : State :=
  let ch := s.chanAt b c
  s.each (if ch.state = .ended then ch.credits else []) (fun s blk =>
    if ch.desc.peer = 1 then
      if (s.vecAt b).block blk = .filling (chanWriter b c) then s.setVec b ((s.vecAt b).setBlock blk .valid) else s
    else if 2 ≤ ch.desc.peer ∧ ch.desc.peer ≤ 9 then
      let t := b * 8 + (ch.desc.peer - 2)
      if (s.mtxAt t).block blk = .filling (chanWriter b c) then s.setMtx t ((s.mtxAt t).setBlock blk .valid) else s
    else s)

/-- STREAM_CMD (R122, R147): a stream descriptor is placed on a channel. The command waits while the channel holds a
stream of the job that has not ended. Before the bay's first layer command layer 0 is open. DESIGN CHOICE: log 132. -/
def execStreamCmd (b : Bay) (m : MemFind) (s : State) : Out :=
  runCmd 2 b m (fun _ v c m s =>
    let n := if v.hdr.ver = 2 then 64 else 96
    if !offOk v c 32 n then .next (s.badCommand b)
    else
      let r := s.fetchDesc b v (cmdDesc c) n m
      let s := r.2
      let x := s.bayAt b
      let refuse : Out := .next ((s.strFault b 0x40).failBay b 0x40 none 0)
      if r.1.status ≠ 0 then .next (s.imageFault b r.1)
      else
        match streamOf r.1.data with
        | none => refuse
        | some d =>
          if d.ver ≠ v.hdr.ver ∨ d.refused then refuse
          else if !(d.layer == x.layer || (d.weightAhead && d.layer == x.layer + 1)) then .next (s.badCommand b)
          else
            let ch := s.chanAt b (cmdUnit c)
            if ch.live then .next s
            else
              let s := s.completeCredits b (cmdUnit c)
              let s := s.setChan b (cmdUnit c) (ch.place d r.1.data (planned v.plan x.logical (cmdUnit c) d.layer (cmdDesc c)))
              .next ((s.setBay b { x with bubble := x.bubble || d.bubble != 0 }).cmdDone b)) s

/-- A vector section (R428): its packet count, or none where it is malformed. -/
def sectionPackets (v : Job) (off : Nat) (hd : List Byte) : Option Nat :=
  let n := imgN hd 0 4
  if n = 0 ∨ 4096 < n ∨ imgN hd 4 4 ≠ 0 ∨ v.hdr.bytes < off + 776 + 8 * n then none else some n

/-- Load a vector section into a vector tile: packets, generator presets and send presets (R428). -/
def Vec.loadSection (x : Vec) (n : Nat) (bs : List Byte) : Vec :=
  let word (o : Nat) : BitVec 64 := BitVec.ofNat 64 (imgN bs o 8)
  { x with
    imem := (List.range n).foldl (fun t i => tset (fun _ => 0) t i (word (8 + 8 * i))) []
    packets := n
    presets := (List.range 64).foldl (fun t i => tset (fun _ => 0) t i (word (8 + 8 * n + 8 * i))) []
    sendPresets := (List.range 16).foldl (fun t i =>
      tset (fun _ => 0) t i (BitVec.ofNat 128 (imgN bs (0x208 + 8 * n + 16 * i) 16))) [] }

/-- Load the section at an offset, of n packets, into the bay's vector tile. -/
def State.loadPackets (s : State) (b : Nat) (v : Job) (off n : Nat) (m : MemFind) : MemAns × State :=
  let r := s.imgRead (seqAgent b) v off (776 + 8 * n) m
  if r.1.status ≠ 0 then r else (r.1, r.2.setVec b ((r.2.vecAt b).loadSection n r.1.data))

/-- Read the section at an offset into the bay's vector tile; none where it is malformed. -/
def State.loadVector (s : State) (b : Nat) (v : Job) (off : Nat) (m : MemFind) : Option (MemAns × State) :=
  if off % 8 ≠ 0 ∨ v.hdr.bytes < off + 8 then none
  else
    let h := s.imgRead (seqAgent b) v off 8 m
    if h.1.status ≠ 0 then some h
    else
      match sectionPackets v off h.1.data with
      | none => none
      | some n => some (h.2.loadPackets b v off n m.rest)

/-- VPROG (R92, R147, R428): the vector section at off is judged as the sequencer reaches the command; once no program runs, it
is loaded and its program starts in the start state. DEDUCED: log 35. -/
def execVprog (b : Bay) (m : MemFind) (s : State) : Out :=
  runCmd 3 b m (fun _ v c m s =>
    let off := cmdDesc c
    if !(s.bayAt b).vector ∨ off % 8 ≠ 0 ∨ v.hdr.bytes < off + 8 then .next (s.badCommand b)
    else
      let held := (s.bayAt b).desc.isSome
      let h := s.fetchDesc b v off 8 m
      if h.1.status ≠ 0 then .next (h.2.imageFault b h.1)
      else
        match sectionPackets v off h.1.data with
        | none => .next (h.2.badCommand b)
        | some n =>
          if (h.2.vecAt b).active then .next h.2
          else
            let r := h.2.loadPackets b v off n (if held then m else m.rest)
            let s := r.2
            if r.1.status ≠ 0 then .next (s.imageFault b r.1)
            else
              let s := s.setVec b { (s.vecAt b).start with state := .running }
              let s := s.setBay b { s.bayAt b with vprogOff := some off }
              .next (s.cmdDone b)) s

/-- VWAIT (R147): completes once the vector program has ended. -/
def execVwait (b : Bay) (m : MemFind) (s : State) : Out :=
  runCmd 4 b m (fun _ _ _ _ s =>
    if !(s.bayAt b).vector then .next (s.badCommand b)
    else if (s.vecAt b).active then .next s else .next (s.cmdDone b)) s

/-- LAYER (R147): opens layer arg. -/
def execLayer (b : Bay) (m : MemFind) (s : State) : Out :=
  runCmd 5 b m (fun _ _ c _ s =>
    let s := s.setBay b { s.bayAt b with layer := cmdArg c, layerOpen := true }
    .next (s.cmdDone b)) s

/-- Every pass the bay has issued has ended, and every send of its vector tile has been accepted (R148). -/
def State.passesEnded (s : State) (b : Nat) : Bool :=
  (List.range 8).all (fun t => !(s.mtxAt (b * 8 + t)).busy && (s.mtxAt (b * 8 + t)).handed.isEmpty)

/-- The bay's outputs are written, as an arrival at a barrier needs (R148). -/
def State.outputsWritten (s : State) (b : Nat) : Bool :=
  s.passesEnded b && (s.vecAt b).sends.isEmpty &&
  (List.range 16).all (fun c => !((s.chanAt b c).live && (s.chanAt b c).desc.kind != 0))

/-- BARRIER_CMD (R147, R148): the bay arrives once its outputs are written, and waits for the release. -/
def execBarrierCmd (b : Bay) (m : MemFind) (s : State) : Out :=
  runCmd 6 b m (fun _ v c _ s =>
    if v.hdr.barriers ≤ cmdArg c then .next (s.badCommand b)
    else if s.outputsWritten b then .next (s.setBay b { s.bayAt b with waiting := true, barrier := some (cmdArg c) })
    else .next s) s

/-- The job of a bay, with its number. -/
def State.jobOf (s : State) (b : Nat) : Option (Nat × Job) :=
  (s.bayAt b).job.bind (fun j => (s.jobAt j).map (fun v => (j, v)))

/-- BARRIER_ARRIVAL (R148): the bay's arrival message travels to the lead controller; the arrival that meets the participant
count releases the barrier. One that the network answers with an error is not counted, and is sent again.
DESIGN CHOICE: log 134. -/
def execBarrierArrival (b : Bay) (m : MemFind) (s : State) : Out :=
  let x := s.bayAt b
  match s.jobOf b, x.barrier with
  | some (j, v), some k =>
    if v.phase != .running || v.arrivals.contains (k, x.logical) || v.released.contains (k, x.logical) then impossible
    else
      let g := s.messageTrip (seqAgent b) (s.leadAgent v)
      let r := g.2.imgRead (s.leadAgent v) v (v.hdr.barrierOff + 4 * k) 4 m
      let s := r.2
      if g.1 ≠ 0 then .next g.2
      else if r.1.status ≠ 0 then .next (s.imageFault b r.1)
      else
        let need := bitsOf (bytesNat r.1.data) 10 0
        let arr := v.arrivals ++ [(k, x.logical)]
        let here := arr.filter (fun a => a.1 == k)
        if need ≤ here.length then
          .next (s.setJob j { v with arrivals := arr.filter (fun a => a.1 != k), released := v.released ++ here })
        else .next (s.setJob j { v with arrivals := arr })
  | _, _ => impossible

/-- BARRIER_RELEASE (R148): the release message travels to the bay, and its barrier command completes. DESIGN CHOICE: log 134. -/
def execBarrierRelease (b : Bay) (s : State) : Out :=
  let x := s.bayAt b
  match s.jobOf b, x.barrier with
  | some (j, v), some k =>
    if v.phase != .running || !v.released.contains (k, x.logical) then impossible
    else
      let g := s.messageTrip (s.leadAgent v) (seqAgent b)
      if g.1 ≠ 0 then .next g.2
      else
        let s := g.2.setJob j { v with released := v.released.erase (k, x.logical) }
        let s := s.setBay b { x with barrier := none }
        .next (s.cmdDone b)
  | _, _ => impossible

/-- BARRIER_LIMIT_EXPIRY (R148): barrier_limit elapses after the first arrival at a barrier; the job ends. -/
def execBarrierLimitExpiry (j k : Nat) (s : State) : Out :=
  match s.jobAt j with
  | none => impossible
  | some v =>
    if v.hdr.barrierLimit == 0 || v.phase != .running || !v.arrivals.any (fun a => a.1 == k) then impossible
    else .next ((s.leadFlag v 4).failJob j 0x84 none 0)

/-- EVENT_CMD (R147): a value is posted to the lead controller by a message, which counts it. DESIGN CHOICE: log 134. -/
def execEventCmd (b : Bay) (m : MemFind) (s : State) : Out :=
  runCmd 7 b m (fun j v _ _ s => .next ((s.postEvent b j v).cmdDone b)) s

/-- SEQ_END (R147): the bay has finished once its passes, streams and vector program have ended. -/
def execSeqEnd (b : Bay) (m : MemFind) (s : State) : Out :=
  runCmd 15 b m (fun _ _ _ _ s =>
    if s.passesEnded b && !(s.vecAt b).active && (List.range 16).all (fun c => !(s.chanAt b c).live) then
      .next (s.setBay b { s.bayAt b with finished := true, running := false })
    else .next s) s

end Sys2Proof.Machine
end

