-- ==== Sys2Proof/Machine/TwinOps.lean ====
section
/-! DEFINITION. The mirror of a pair: which rings are mirrored, the slots of the partner's records, and the writes on
their way to the partner (R397 to R402). -/

namespace Sys2Proof.Machine

/-- The pair state (R403). -/
def State.twinState (s : State) : Nat := s.fld (twnReg Reg.TWN_STATUS) 31 28

/-- An event that sets a flag of TWN_ERR_FLAGS (R409). -/
def State.twinFlag (s : State) (i : Nat) : State := (s.setFlag (twnReg Reg.TWN_ERR_FLAGS) i).bump (twnReg Reg.TWN_FAULT_COUNT) 1

/-- The listing of a submission ring among the mirrored rings (R401). -/
def State.mirrorIdx (s : State) (f r : Nat) : Option Nat :=
  (List.range 64).find? (fun i =>
    let k := twnReg (Reg.TWN_RING + 8 * i) + 4
    s.rbit k 31 && s.fld k 29 24 == f && s.fld k 17 8 == r)

/-- Entries and checkpoints are mirrored: from attach until the pair is lost or detached (R401, R404, R407). -/
def State.mirrorOn (s : State) : Bool := s.twinState == 1 || s.twinState == 2 || s.twinState == 5

/-- Mirrored rings take no entries: lost, or detaching (R405, R407). -/
def State.mirrorStopped (s : State) : Bool := s.twinState == 3 || s.twinState == 5

/-- The first empty slot of mirrored ring i (R401). -/
def State.mirrorFree (s : State) (i : Nat) : Option Nat :=
  (List.range 63).find? (fun k => !s.twin.slots.any (fun x => x.idx == i && x.slot == k))

/-- An offset of the partner's record of mirrored ring i, in the partner's exported space (R397, R398). -/
def State.mirrorAddr (s : State) (i off : Nat) : Nat :=
  s.rd64 (twnReg Reg.TWN_PARTNER_MIRROR) + 0x1000 + 0x1000 * i + off

/-- The class in which a transfer to the partner travels: a heartbeat in Ristretto, a checkpoint and the sync in Lungo, entries in
Espresso (R399, R402). DEDUCED: log 109. -/
def mirrorCls : MirrorWrite → Nat
  | .heartbeat => 0
  | .ckpt .. | .sync => 2
  | .entry _ | .empty => 1

/-- Hand writes to the home edge of the twin engine, its own edge die, as one transfer (R271, R399). DEDUCED: log 109. -/
def State.mirrorSend (s : State) (ws : List (Nat × List Byte)) (w : MirrorWrite) : State :=
  let s := s.each ws (fun s x => s.emit (.mirror x.1 x.2))
  let todo := ws.flatMap (fun x => granules (x.2.length / 256 + 2) x.1 x.2)
  ({ s with twin := { s.twin with
      made := s.twin.made + 1
      writes := s.twin.writes ++ [⟨s.twin.made, w, mirrorCls w, todo, 0, 0⟩] } } : State).settleFences

/-- The fence of scope 0 and class Lungo before the valid word of a checkpoint, at the engine's own edge die (R284, R402).
DEDUCED: log 109. -/
def State.mirrorFence (s : State) (w : MirrorWrite) : State :=
  let s := s.emit .mirrorFence
  let it : HomeItem := .fence (.edge s.twinEdge) 3 (s.nextHome % 1024) (s.fld (twnReg Reg.TWN_PARTNER) 19 0) 2 0
    (s.domainSet (16 + s.twinEdge.val)) none
  ({ s with twin := { s.twin with
      made := s.twin.made + 1, mine := tput s.twin.mine s.nextHome s.twin.made
      writes := s.twin.writes ++ [⟨s.twin.made, w, 2, [], 1, 0⟩] } } : State).addHome it

/-- The counts of a mirrored ring as its record holds them (R398). -/
def State.mirrorCounts (s : State) (f r : Nat) : List Byte :=
  natBytes 4 (s.rdN (ringKey f false r 0x14)) ++ natBytes 4 ((s.sqAt f r).written % 2 ^ 32)

/-- Write a taken entry into a slot of the partner's record, with the updated count (R401). -/
def State.mirrorEntry (s : State) (i slot f r seq : Nat) (bs : List Byte) (t : MirrorThen) : State :=
  let s := { s with twin := { s.twin with slots := s.twin.slots ++ [TwinSlot.mk i slot f r seq] } }
  s.mirrorSend [(s.mirrorAddr i (0x40 + 64 * slot), bs), (s.mirrorAddr i 8, s.mirrorCounts f r)] (.entry t)

/-- After a completion is written to the host, its slot is written empty (R401). -/
def State.mirrorDone (s : State) (f r seq : Nat) : State :=
  match s.twin.slots.find? (fun x => x.func == f && x.ring == r && x.seq == seq) with
  | none => s
  | some x =>
    let s := { s with twin := { s.twin with slots := s.twin.slots.filter (· != x) } }
    if s.mirrorOn then
      s.mirrorSend [(s.mirrorAddr x.idx (0x40 + 64 * x.slot), List.replicate 64 0),
        (s.mirrorAddr x.idx 8, s.mirrorCounts f r)] .empty
    else s

/-! ### Pair states (R400, R403, R405) -/

/-- The pair enters a state; entries into 2, 3, 4 and 0 are told to function 0, a count of entries with state 4 (R403). -/
def State.setTwin (s : State) (st entries : Nat) : State :=
  let s := s.wrFld (twnReg Reg.TWN_STATUS) 31 28 st
  if st = 1 ∨ st = 5 then s
  else s.event 0 8 (st * 2 ^ 28 + s.fld (twnReg Reg.TWN_STATUS) 27 24 * 2 ^ 24 + (if st = 4 then entries % 2 ^ 16 else 0)) 0

/-- Jobs of mirrored rings that have not ended. -/
def State.mirroredJobs (s : State) : List (Nat × Job) := s.jobs.filter (fun e => e.2.mirrored)

/-- Pre-empt and hold the jobs of the mirrored rings (R405, R407). -/
def State.holdMirrored (s : State) : State :=
  s.each s.mirroredJobs (fun s e => (s.setJob e.1 { e.2 with heldTwin := true }).preemptNow e.1)

/-- The partner is lost for a cause, if the pair is attached (R400, R405). -/
def State.partnerLost (s : State) (cause : Nat) : State :=
  if s.twinState = 1 ∨ s.twinState = 2 then
    let s := if cause = 3 then s.twinFlag 2 else s
    let s := (s.twinFlag 1).wrFld (twnReg Reg.TWN_STATUS) 27 24 cause
    (s.setTwin 3 0).holdMirrored
  else s

/-- The place in the partner's space of a range that lies in a listed region (R402). -/
def State.regionOff (s : State) (A n : Nat) : Option Nat :=
  (List.range 16).findSome? (fun i =>
    let k := twnReg (Reg.TWN_REGION_BASE + 0x20 * i)
    let base := s.rd64 k
    let bytes := s.rd64 (k + 8)
    if base ≤ A ∧ A + n ≤ base + bytes then some (s.rd64 (k + 16) + (A - base)) else none)

/-- A checkpoint record written at A goes to the partner too, but for its valid word, which waits for a fence (R402). -/
def State.mirrorRecord (s : State) (A n : Nat) (parts : List (Nat × List Byte)) : State :=
  if !s.mirrorOn then s
  else
    match s.regionOff A n with
    | none => s
    | some off => s.mirrorSend (parts.dropLast.map (fun p => (off + (p.1 - A), p.2))) (.ckpt off (parts.getLast?.map (·.2) |>.getD []) 0)

end Sys2Proof.Machine
end

