-- ==== Sys2Proof/Machine/Jobs.lean ====
section
/-! DEFINITION. The commands of dispatch, placement, multicast, invalidation, checkpoints and partition resets (R148 to
R165, R336, R349). -/

namespace Sys2Proof.Machine

/-! ### The end of a job (R149, R336) -/

/-- BAY_END_MSG (R336, R427): a finished bay's end message reaches the lead controller; the last one ends the job.
DESIGN CHOICE: log 134. -/
def execBayEndMsg (b : Bay) (s : State) : Out :=
  let x := s.bayAt b
  match s.jobOf b with
  | none => impossible
  | some (j, v) =>
    let all := v.bays.all (fun b => (s.bayAt b).finished)
    if !x.finished || v.ended.contains x.logical ||
        !(v.phase == .running || v.phase == .ending || (v.phase == .preempting && all)) then impossible
    else
      let r := s.messageTrip (seqAgent b) (s.leadAgent v)
      let s := r.2
      if r.1 ≠ 0 then .next s
      else
      let s := s.setJob j { v with ended := v.ended ++ [x.logical] }
      .next (if 16 * v.hdr.quarters ≤ v.ended.length + 1 then
        (if v.phase = .preempting then s.clearRecords v else s).finishJob j else s)

/-- TIME_LIMIT_EXPIRY (R149): time_limit expires on a job that runs; time spent pre-empted does not count. -/
def execTimeLimitExpiry (j : Nat) (s : State) : Out :=
  match s.jobAt j with
  | none => impossible
  | some v =>
    if v.hdr.timeLimit == 0 || !v.started || v.status != 0 || !(v.phase == .running || v.phase == .preempting) then impossible
    else .next ((s.leadFlag v 3).failJob j 0x85 none 0)

/-! ### Dispatch (R152, R327) -/

/-- A job that is in its dispatch queue and holds back others there. -/
def State.queuedAt (s : State) (p : JobPhase → Bool) (part cls : Nat) : List Nat :=
  (s.queueOf part cls).filter (fun j => match s.jobAt j with | some v => p v.phase && !v.heldTwin | none => false)

/-- The function of a job uses version 2 of the interface (R332): its images are v2. -/
def Job.wrongVersion (v : Job) (ver : Nat) : Bool := v.ent.v2 && ver != 2

/-- JOB_DISPATCH (R152): the lead controller takes the first queued job of the highest class of its partition and runs
steps 1 to 4; a pinned job's image was checked when it was pinned (R326). Every failure of these steps sets image_refused, a
read's memory-class status and a version the function does not use (0x87) among them; steps 5 and 6 do not.
DEDUCED: log 49. DESIGN CHOICE: log 133. -/
def execJobDispatch (j : Nat) (m : MemFind) (s : State) : Out :=
  match s.jobAt j with
  | none => impossible
  | some v =>
    let first := (s.queuedAt (· == .queued) v.part v.cls).head? == some j
    let higher := (List.range v.cls).any (fun c => !(s.queuedAt (· == .queued) v.part c).isEmpty)
    if v.phase != .queued || !first || higher then impossible
    else
      match v.handle with
      | some h =>
        match s.pins.find? (fun e => e.1 == 16 * v.ent.func + h) with
        | some p => .next (s.setJob j { v with phase := .waiting, hdr := p.2.hdr, plan := imgPlan p.2.image p.2.hdr })
        | none => .next (s.dropJob j v 0x87 0)
      | none =>
        let r := s.checkImage (s.leadAgent v) v.image m
        let s := r.2.2.2
        if r.1 ≠ 0 then
          let s := s.leadFlag v 2
          let s := if r.1 = 0x41 then s.strFault ((baysOfQuarter (s.leadQuarter v)).headD 0) 0x80 else s
          .next (s.dropJob j v r.1 r.2.1)
        else
          let h := jobHeader r.2.2.1
          if v.wrongVersion h.ver then .next ((s.leadFlag v 2).dropJob j v 0x87 0)
          else .next (s.setJob j { v with phase := .waiting, hdr := h, plan := imgPlan r.2.2.1 h })

/-! ### Placement and resume (R153, R162) -/

/-- Cut a list into quarters of 16 logical bays. -/
def byQuarter {α : Type} (n : Nat) (xs : List α) : List (List α) := (List.range n).map (fun q => (xs.drop (16 * q)).take 16)

/-- The command lists of a job's bays; the first failing read ends the reading. -/
def State.cmdLists (s : State) (v : Job) : List BayEntry → MemAns × List (List Byte) × State
  | [] => (⟨0, 0, []⟩, [], s)
  | e :: es =>
    let r := s.imgRead (s.leadAgent v) v e.cmdOff e.cmdBytes .clean
    if r.1.status ≠ 0 then (r.1, [], r.2)
    else
      let x := r.2.cmdLists v es
      (x.1, r.1.data :: x.2.1, x.2.2)

/-- A checkpoint record can be read back: its valid word names the job, and every part of it reads (R161, R162). -/
def State.recordReadable (s : State) (b A : Nat) (m : MemFind) : Bool × State :=
  let r := s.readParts (seqAgent b) (s.recordReads A) m
  (r.1.status == 0 && bitOf (r.2.readQuad A) 63, r.2)

/-- Every record of a resumed job can be read; `bad` is what the read of one logical bay's record meets.
DEDUCED: log 52. -/
def State.recordsReadable (s : State) (v : Job) (bad : Nat × MemFind) : List (Nat × Nat) → Bool × State
  | [] => (true, s)
  | (lb, b) :: xs =>
    let r := s.recordReadable b (s.ckptAddr v.part lb) (if bad.1 = lb then bad.2 else .clean)
    if r.1 then r.2.recordsReadable v bad xs else r

/-- The layers of the passes in a command list that a tile has accepted (R131). -/
def acceptedLayers : Nat → List Nat → List Nat
  | _, [] => []
  | layer, c :: cs =>
    if cmdOp c = 5 then acceptedLayers (cmdArg c) cs
    else if cmdOp c = 1 then (acceptedLayers layer cs).insert layer
    else acceptedLayers layer cs

/-- The commands in a command list. -/
def cmdWords (cmds : List Byte) : List Nat := (List.range (cmds.length / 8)).map (fun i => imgN cmds (8 * i) 8)

/-- Write a record back into a bay: first the packets and presets of the section it names, then the state (R162). The answer is
what ended the reading of the section. -/
def State.resumeBay (s : State) (b : Nat) (v : Job) (lb : Nat) (cmds : List Byte) : (Nat × Nat) × State :=
  let A := s.ckptAddr v.part lb
  let vp := s.readQuad (A + 0x140)
  let l : (Nat × Nat) × State := if bitOf vp 63 then
      match s.loadVector b v (vp % 2 ^ 32) .clean with
      | some (a, s) => ((a.status, a.addr), s)
      | none => ((0x35, 0), s)
    else ((0, 0), s)
  let s := l.2.readRecord b A v
  let w := s.vecAt b
  let s := if v.vecDone.contains lb then s.setVec b { w with state := .idle }
    else if v.vecEnding.contains lb then
      s.setVec b (if w.sends.isEmpty then { w with state := .idle } else { w with state := .sync, ending := true })
    else s
  let x := s.bayAt b
  let before := cmds.take (8 * x.next)
  (l.1, s.setBay b { x with passIndex := x.passIndex + passCount before, accepted := acceptedLayers 0 (cmdWords before) })

/-- Write the records of a job back into its bays; the first cause that ends it is kept (R162). -/
def State.resumeBays (s : State) (v : Job) (cmds : List (List Byte)) : List (Nat × Nat) → (Nat × Nat) × State
  | [] => ((0, 0), s)
  | (b, lb) :: xs =>
    let r := s.resumeBay b v lb (cmds.getD lb [])
    let t := r.2.resumeBays v cmds xs
    (if r.1.1 ≠ 0 then r.1 else t.1, t.2)

/-- The quarters an enabled partition has for the controllers that dispatch for it (R153, R344). -/
def State.partQuarters (s : State) (part : Nat) : List Nat :=
  if (s.ctrlPart part).enabled then maskQuarters (s.ctrlPart part).quarters else []

/-- The quarters of a partition that are free for a job now: one that a swap adds takes part once the swap is complete
(R157, R343). DEDUCED: log 96. -/
def State.freeQuarters (s : State) (part : Nat) : List Nat :=
  (s.partQuarters part).filter (fun q => !s.quarterBusy q && !s.quarterResetting q && bitOf (s.part part).quarters q)

/-- A command list runs a vector program. -/
def runsVector (cmds : List Byte) : Bool := (cmdWords cmds).any (fun c => cmdOp c == 3)

/-- Start a job on the quarters chosen for it: each bay takes its logical place, a resumed job its saved state, and the
bays that lack their sections are sent them: those of a resumed job the common section alone, since their vector tiles hold
the section they were in (R152 to R154, R162, R326). DEDUCED: log 52. -/
def State.putJob (s : State) (j : Nat) (v : Job) (qs : List Nat) (es : List BayEntry) (cmds : List (List Byte)) : State :=
  let v := { v with placed := qs, phase := .running }
  let starts := passStarts 0 (cmds.map passCount)
  let bays := v.bays.zipIdx
  let s := s.setQueue v.part v.cls ((s.queueOf v.part v.cls).filter (· != j))
  let s := s.setJob j v
  let s := s.bump (s.leadReg v Reg.SEQ_DISPATCH_COUNT) 1
  let s := s.each bays (fun s x =>
    s.startBay x.1 j x.2 (nthN starts x.2) (v.bubbles.contains x.2) (es.getD x.2 ⟨0, false, 0, 0, false⟩))
  let r := if v.resumed then s.resumeBays v cmds bays else ((0, 0), s)
  let s := r.2
  let code := v.handle.map (fun h => 16 * v.ent.func + h + 1)
  let holds (q : Nat) : Bool := code.isSome && code == some (tget (fun _ => 0) s.qtrHandle q)
  let needs := (es.zipIdx.filter (fun e =>
    !holds (nthN qs (e.2 / 16)) &&
      (v.hdr.commonBytes != 0 || (!v.resumed && e.1.vector && runsVector (cmds.getD e.2 []))))).map
      (fun e => BayLoad.mk e.2 0 0 0 false)
  let s := { s with qtrHandle := (qs.filter (fun q => !holds q)).foldl (fun t q => tset (fun _ => 0) t q 0) s.qtrHandle }
  let s := s.setJob j { v with loads := needs, resumed := false, started := false, again := v.resumed }
  if r.1.1 ≠ 0 then s.failJob j r.1.1 none r.1.2 else s.startSequencers j

/-- JOB_PLACEMENT (R153, R162): the job at the head of its class, with none of a higher class waiting, is placed, waits
for quarters, or ends where its partition has too few that fit. DEDUCED: log 52. -/
def execJobPlacement (j : Nat) (m : MemFind) (bad : Nat × MemFind) (s : State) : Out :=
  match s.jobAt j with
  | none => impossible
  | some v =>
    let open_ (p : JobPhase) : Bool := p == .queued || p == .waiting || p == .preempted
    let first := (s.queuedAt open_ v.part v.cls).head? == some j
    let higher := (List.range v.cls).any (fun c => !(s.queuedAt open_ v.part c).isEmpty)
    if !(v.phase == .waiting || v.phase == .preempted) || !first || higher then impossible
    else
      let r := s.bayEntries v m
      let s := r.2.2
      if r.1.status ≠ 0 then .next (s.dropJob j v r.1.status r.1.addr)
      else
        let lq := byQuarter v.hdr.quarters r.2.1
        match s.fill lq (s.freeQuarters v.part) with
        | none =>
          (match s.fill lq (s.partQuarters v.part) with
          | some _ => .next s
          | none => if v.resumed then .next s else .next (s.dropJob j v 0x82 0))
        | some qs =>
          let c := s.cmdLists v r.2.1
          let s := c.2.2
          if c.1.status ≠ 0 then .next (s.dropJob j v c.1.status c.1.addr)
          else
            let k := if v.resumed then s.recordsReadable v bad ((qs.flatMap baysOfQuarter).zipIdx.map (fun x => (x.2, x.1)))
              else (true, s)
            if !k.1 then .next (k.2.dropJob j v 0x25 0) else .next (k.2.putJob j v qs r.2.1 c.2.1)

/-! ### Multicast of a job's sections (R152, R154) -/

/-- Bytes as packets of at most 4,096 for a target, from an offset on. -/
def chunksOf (target : Nat) : Nat → Nat → List Byte → List (Nat × Nat × List Byte)
  | 0, _, _ => []
  | fuel + 1, off, bs =>
    if bs.isEmpty then [] else (target, off, bs.take 4096) :: chunksOf target fuel (off + 4096) (bs.drop 4096)

/-- The packets of a vector section: its packets to instruction memory, its presets to the presets (R154, R428). A malformed
section, which its vprog command ends the job for, is not sent. -/
def State.sectionParts (s : State) (v : Job) (off : Nat) (m : MemFind) : MemAns × List (Nat × Nat × List Byte) × State :=
  let g := s.leadAgent v
  if off % 8 ≠ 0 ∨ v.hdr.bytes < off + 8 then (⟨0, 0, []⟩, [], s)
  else
    let h := s.imgRead g v off 8 m
    match sectionPackets v off h.1.data with
    | none => (⟨h.1.status, h.1.addr, []⟩, [], h.2)
    | some n =>
      let r := h.2.imgRead g v off (776 + 8 * n) m.rest
      (r.1, chunksOf 2 9 0 ((r.1.data.drop 8).take (8 * n)) ++ chunksOf 3 1 0 (r.1.data.drop (8 + 8 * n)), r.2)

/-- The packets of several sections; the first failing read ends the reading. -/
def State.sectionsParts (s : State) (v : Job) (m : MemFind) : List Nat → MemAns × List (Nat × Nat × List Byte) × State
  | [] => (⟨0, 0, []⟩, [], s)
  | o :: os =>
    let r := s.sectionParts v o m
    if r.1.status ≠ 0 then r
    else
      let t := r.2.2.sectionsParts v m.rest os
      (t.1, r.2.1 ++ t.2.1, t.2.2)

/-- The packets that a logical bay is sent: the common section to its job memory, and each vector section that its command list
names (R152, R154), which a resumed job's is not sent (R162). DEDUCED: log 51. -/
def State.bayParts (s : State) (v : Job) (lb : Nat) (m : MemFind) : MemAns × List (Nat × Nat × List Byte) × State :=
  let g := s.leadAgent v
  let c := s.imgRead g v v.hdr.commonOff v.hdr.commonBytes m
  if c.1.status ≠ 0 then (c.1, [], c.2)
  else
    let x := c.2.bayAt (v.bays.getD lb 0)
    let l := c.2.imgRead g v x.cmdOff x.cmdBytes m.rest
    if l.1.status ≠ 0 then (l.1, [], l.2)
    else
      let offs := if x.vector && !v.again then (((cmdWords l.1.data).filter (fun c => cmdOp c == 3)).map cmdDesc).eraseDups else []
      let r := l.2.sectionsParts v m.rest offs
      (r.1, chunksOf 1 17 0 c.1.data ++ r.2.1, r.2.2)

/-- The packet of a part for a logical bay: to the job's enabled bays of its die, or, as a retry, to the bay alone (R154). -/
def State.loadPacket (s : State) (v : Job) (b tries : Nat) (x : Nat × Nat × List Byte) : NocPacket :=
  let bays := if tries = 0 then v.bays.filter (fun c => c / 64 == b / 64 && s.bayOk c) else [b]
  mcastPacket (s.leadAgent v) (b / 64) bays x.1 x.2.1 x.2.2

/-- The packet that a bay is about to answer has not been sent: one multicast goes to the enabled bays of a die, a retry to the bay
alone (R154, R243). -/
def BayLoad.first (l : BayLoad) : Bool := if l.tries = 0 then decide (l.sent ≤ l.part) else !l.tried

/-- The packet of a bay's part is sent: to the bays of its die, or, as a retry, to the bay. -/
def Job.loadSent (v : Job) (l : BayLoad) : Job :=
  let die (x : BayLoad) : Nat := v.bays.getD x.lb 0 / 64
  { v with loads := v.loads.map (fun x =>
      if l.tries = 0 then (if die x = die l then { x with sent := l.part + 1 } else x)
      else if x.lb = l.lb then { x with tried := true } else x) }

/-- A logical bay has taken n packets of its load. -/
def Job.took (v : Job) (lb n : Nat) (all : Bool) : Job :=
  { v with loads := if all then v.loads.filter (fun l => l.lb != lb)
                    else v.loads.map (fun l => if l.lb == lb then { l with part := n, tries := 0 } else l) }

/-- MULTICAST_ACK (R152, R154): a bay answers a packet of its job's sections; `ok`: the packet reached it whole, with
what reading its part of the image met. An
acknowledgement means that the packet stands in its target. The last one of the job starts the sequencers.
DEDUCED: log 51. -/
def execMulticastAck (j lb : Nat) (ok : Option MemFind) (s : State) : Out :=
  match s.jobAt j with
  | none => impossible
  | some v =>
    match v.loads.find? (fun l => l.lb == lb) with
    | none => impossible
    | some l =>
      if v.phase != .running then impossible
      else match ok with
      | none => .next s
      | some m =>
        let r := s.bayParts v lb m
        let s := r.2.2
        let b := v.bays.getD lb 0
        if r.1.status ≠ 0 then .next (s.failJob j r.1.status none r.1.addr)
        else
          match r.2.1[l.part]? with
          | none => .next ((s.setJob j (v.took lb l.part true)).startSequencers j)
          | some x =>
            let q := s.mcastIssue (s.loadPacket v b l.tries x)
            let s := if l.first then q.2.setJob j (v.loadSent l) else s
            let v := if l.first then v.loadSent l else v
            let t := s.mcastTrip q.1 b
            if t.1 ≠ 0 then .next t.2
            else .next ((t.2.setJob j (v.took lb (l.part + 1) (decide (r.2.1.length ≤ l.part + 1)))).startSequencers j)

/-- MULTICAST_RETRY (R154): 10 µs after a try that a bay left unanswered or refused, the packet is sent again by unicast; after
the third retry the load has failed and the job ends. DEDUCED: log 51. -/
def execMulticastRetry (j lb : Nat) (s : State) : Out :=
  match s.jobAt j with
  | none => impossible
  | some v =>
    match v.loads.find? (fun l => l.lb == lb) with
    | none => impossible
    | some l =>
      if v.phase != .running then impossible
      else if l.tries < 3 then
        let s := s.setJob j { v with loads := v.loads.map (fun x => if x.lb == lb then { x with tries := l.tries + 1, tried := false } else x) }
        .next (s.bump (s.leadReg v Reg.SEQ_MCAST_RETRY) 1)
      else .next ((s.leadFlag v 5).failJob j 0x83 none 0)

/-! ### Invalidation (R151) -/

/-- A cached translation covers a job address of a partition's range. -/
def TlbEntry.covered (t : TlbEntry) (part lo hi : Nat) : Bool :=
  let n := leafBytes t.level
  t.part == part && decide (t.page * n ≤ hi) && decide (lo < t.page * n + n)

/-- A walk for an address of a range begins again at the root, so that what it read before is not used (R151). -/
def State.restartWalk (s : State) (b c part lo hi : Nat) : State :=
  match (s.chanAt b c).walk with
  | none => s
  | some w =>
    if s.bayPart b == part && decide (lo < w.req.addr + w.req.len) && decide (w.req.addr ≤ hi) then
      s.startWalk b c w.req 0 (s.partFor (dieOfBay b) part).root
    else s

/-- TRANSLATION_INVALIDATE (R151): an invalidation of a partition's job addresses lo to hi reaches a bay, which drops the
cached entries it covers, begins walks for them anew, and notes the requests translated through them that are in flight; the
cache of BAR4 drops them too (R318). -/
def execTranslationInvalidate (b : Bay) (part lo hi : Nat) (s : State) : Out :=
  let x := s.bayAt b
  let mine := s.bayPart b == part
  let waits := (List.range 16).flatMap (fun c =>
    ((s.chanAt b c).flying.filter (fun r => mine && decide (lo < r.addr + r.len) && decide (r.addr ≤ hi))).map
      (fun r => (c, r.id)))
  let s := { s with bar4Tlb := s.bar4Tlb.filter (fun t => !t.covered part lo hi) }
  let s := s.setBay b { x with tlb := x.tlb.filter (fun t => !t.covered part lo hi)
                               invalidations := x.invalidations ++ [⟨part, lo, hi, waits⟩] }
  .next (s.each (List.range 16) (fun s c => s.restartWalk b c part lo hi))

/-- INVALIDATION_COMPLETE (R151): the oldest invalidation of a bay completes once the requests it waits for have been
acknowledged. -/
def execInvalidationComplete (b : Bay) (s : State) : Out :=
  let x := s.bayAt b
  match x.invalidations with
  | [] => impossible
  | i :: rest =>
    if i.waits.any (fun w => (s.chanAt b w.1).flying.any (fun r => r.id == w.2)) then impossible
    else .next (s.setBay b { x with invalidations := rest })

/-! ### Zeroing of quarters (R157, R158) -/

/-- The crema slices of a quarter read zero with valid error protection. -/
def State.zeroCrema (s : State) (q : Nat) : State :=
  let inQ (a : Nat) : Bool := (baysOfQuarter q).any (fun b => decide (cremaAddr b 0 ≤ a) && decide (a < cremaAddr b 0x3000000))
  { s with mem := s.mem.filter (fun e => !inQ e.1), poison := s.poison.filter (fun e => !inQ e.1) }

/-- Operand buffers, accumulators and vector data memories of a bay read zero; block states stay (R54). DESIGN CHOICE: log 120, 121. -/
def State.zeroBay (s : State) (b : Nat) : State :=
  let s := s.each (List.range 8) (fun s t =>
    s.setMtx (b * 8 + t) { s.mtxAt (b * 8 + t) with buf := [], acc := [], staValid := false })
  s.setVec b { s.vecAt b with dmem := [] }

/-- Where SEQ_QTR_MAP shows quarter q, and the word it shows for a partition (R166). -/
def State.showMember (s : State) (q : Nat) : State :=
  let v := match s.partOfQuarter q with | some p => 16 + p | none => 0
  s.wrFld (regKey (.seq (Fin.ofNat 16 (q / 4))) Reg.SEQ_QTR_MAP) (8 * (q % 4) + 4) (8 * (q % 4)) v

/-- A quarter is inside a partition reset. -/
def State.inReset (s : State) (q : Nat) : Bool := s.resets.any (fun e => bitOf e.2 q)

/-- QUARTER_ZEROED (R157, R158): zeroing of a quarter's memories completes; it joins the partition the active set gives
it, or leaves the one it was in. DEDUCED: log 53. -/
def execQuarterZeroed (q : Quarter) (s : State) : Out :=
  if !s.quarterResetting q || s.inReset q || s.quarterBusy q then impossible
  else
    let s := (baysOfQuarter q).foldl State.zeroBay (s.zeroCrema q)
    let s := s.clrBits (regKey (.seq (Fin.ofNat 16 (q / 4))) Reg.SEQ_RESET_STATE) (2 ^ (q.val % 4))
    let s := { s with qtrHandle := tset (fun _ => 0) s.qtrHandle q 0 }
    .next (s.showMember q)

/-! ### Checkpoints (R158, R161, R164, R165) -/

/-- Every bay of a job has written its record. -/
def State.allRecorded (s : State) (v : Job) : Bool := v.bays.all (fun b => (s.bayAt b).recorded)

/-- CHECKPOINT_RECORD_WRITE (R161, R164, R165): a stopped bay closes its ports (R189) and writes its record, the valid
word last; with the last record the job returns to the head of its queue. `us` is how long the checkpoint has taken. -/
def execCheckpointRecordWrite (b : Bay) (m : MemFind) (us : Nat) (s : State) : Out :=
  let x := s.bayAt b
  match s.jobOf b with
  | none => impossible
  | some (j, v) =>
    if v.phase != .preempting || x.recorded || !s.bayStopped b || v.bays.all (fun b => (s.bayAt b).finished) then impossible
    else
      let s := s.each (List.range 4) (fun s p => s.closePort b p)
      let A := s.ckptAddr v.part x.logical
      let parts := s.recordParts b A v.ent.tag
      let r := s.writeRecord b A v.ent.tag m
      let s := r.2
      if r.1.status ≠ 0 then .next ((s.leadFlag v 7).failJob j 0x25 none 0)
      else
        let s := s.mirrorRecord A ckptBytes parts
        let s := s.setBay b { x with recorded := true, stopped := true }
        if !s.allRecorded v then .next s
        else
          let s := s.wrMax (s.leadReg v Reg.SEQ_CKPT_MAX_US) us
          let s := if 1800 * ((v.hdr.quarters + 15) / 16) < us then s.leadFlag v 6 else s
          .next (s.parkJob j v)

/-! ### Partition reset (R159, R349) -/

/-- Soft-reset every unit of a bay and zero its buffers, accumulators and data memory. -/
def State.softResetBay (s : State) (b : Nat) : State :=
  let s := s.zeroBay b
  let s := s.each (List.range 8) (fun s t =>
    s.setMtx (b * 8 + t) { (s.mtxAt (b * 8 + t)).freeAll with halted := false, feedStalled := false, drainStalled := false, gone := none, handed := [], cur := none, drains := [], preempt := false })
  let s := s.setVec b { (s.vecAt b).start with state := .idle, sends := [], blocks := [], ending := false }
  s.each (List.range 16) (fun s c => s.setChan b c { s.chanAt b c with held := [], stages := [], arrivals := [], outstanding := (s.chanAt b c).leftover, todo := [], walk := none })

/-- End a job because its partition is reset: one that runs reports its first cause, a queued one is cleared.
DEDUCED: log 53. -/
def State.resetJob (s : State) (j : Nat) : State :=
  match s.jobAt j with
  | none => s
  | some v =>
    if v.phase = .running ∨ v.phase = .preempting ∨ v.phase = .ending then (s.failJob j 0x86 none 0).finishJob j
    else s.dropJob j v 0x86 0

/-- A reset of partition p starts in the quarters the active set gives it. DEDUCED: log 53. -/
def State.resetPartition (s : State) (p : Nat) : State :=
  let e := s.part p
  let qs := maskQuarters e.quarters
  let s := s.setBits (regKey .ctl Reg.CTL_PART_RESETTING) (2 ^ p)
  let s := { s with resets := tput s.resets p (e.func * 2 ^ 64 + e.quarters) }
  let s := s.each qs (fun s q => s.setBits (regKey (.seq (Fin.ofNat 16 (q / 4))) Reg.SEQ_RESET_STATE) (2 ^ (q % 4)))
  let s := s.each ((s.jobs.filter (fun x => x.2.part == p)).map (·.1)) State.resetJob
  let s := s.each (List.range 16) (fun s h => s.freeHandle e.func h)
  let s := s.each (qs.flatMap baysOfQuarter) State.softResetBay
  -- the routers of the bays answer what their endpoints hold (R240, R246)
  s.each (qs.flatMap baysOfQuarter) (fun s b => s.each (List.range 12) (fun s ep => s.absorbAll b ep))

/-- PARTITION_RESET (R349): a reset of a partition is requested; of one not enabled it is refused, of one already in
reset it is absorbed. -/
def execPartitionReset (p : Fin 16) (s : State) : Out :=
  if !(s.part p).enabled then
    .next ((s.setFlag (regKey .ctl Reg.CTL_ERR_FLAGS) 4).bump (regKey .ctl Reg.CTL_FAULT_COUNT) 1)
  else if s.rbit (regKey .ctl Reg.CTL_PART_RESETTING) p then .next s
  else .next (s.resetPartition p)

/-- PARTITION_RESET_END (R159, R240, R334): the reset ends, its isolation with it, and the owning function is told. A
quarter that a swap has taken from the partition meanwhile is zeroed before it leaves. -/
def execPartitionResetEnd (p : Fin 16) (s : State) : Out :=
  if !s.rbit (regKey .ctl Reg.CTL_PART_RESETTING) p then impossible
  else
    let v := tget (fun _ => 0) s.resets p
    let s := s.clrBits (regKey .ctl Reg.CTL_PART_RESETTING) (2 ^ p.val)
    let s := { s with resets := terase s.resets p }
    let stay := (maskQuarters v).filter (fun q => s.partOfQuarter q == some p.val)
    let s := s.each stay (fun s q => s.clrBits (regKey (.seq (Fin.ofNat 16 (q / 4))) Reg.SEQ_RESET_STATE) (2 ^ (q % 4)))
    .next (s.event (v / 2 ^ 64) 1 p 0)

end Sys2Proof.Machine
end

