-- ==== Sys2Proof/Machine/Hif.lean ====
section
/-! DEFINITION. The host interface: links, functions, BAR4, rings, entries and completions (R314 to R339). -/

namespace Sys2Proof.Machine

/-! ### Links and configuration (R314 to R316, R319) -/

/-- The function is a physical function of the mode in force (R316). -/
def State.physical (s : State) (f : Nat) : Bool := f == 0 || (f == 32 && s.linkOf 32 == 1)

/-- The submission rings of a function that have been enabled at some time, and its completion rings. -/
def State.sqsOf (s : State) (f : Nat) : List Nat :=
  (s.sqs.filter (fun e => e.1 / 1024 == f)).map (fun e => e.1 % 1024)
def State.cqsOf (s : State) (f : Nat) : List Nat :=
  (s.cqs.filter (fun e => e.1 / 1024 == f)).map (fun e => e.1 % 1024)

/-- Rings, kick bits, settings and MSI-X table of a function go, and completions to come are discarded (R316, R320). -/
def State.dropRings (s : State) (f : Nat) : State :=
  let x := s.fnAt f
  let s := s.each (s.sqsOf f) (fun s r => (s.setRing f false r 0 0).setSq f r SubRing.init)
  let s := s.each (s.cqsOf f) (fun s r => (s.setRing f true r 0 0).setCq f r CplRing.init)
  let s := s.setFn f { x with d3hot := false, fetching := [], msix := [], msixOn := false, msixMask := false, vectors := []
                              epoch := x.epoch + 1 }
  s.each [Reg.HIF_KICK, Reg.HIF_DBREC_BASE, Reg.HIF_DBREC_BASE + 4, Reg.HIF_EVENT_CQ, Reg.HIF_VERSION_SEL]
    (fun s o => s.wr (pageReg f o) 0)

/-- SR-IOV enables n virtual functions of a physical one, at most those of its link; a function that it no longer enables has no
rings (R316). PRESUMED: log 87. -/
def State.enableVfs (s : State) (f n : Nat) : State :=
  let most := if s.rbit (hifReg Reg.HIF_STATUS) 28 then 31 else 63
  let old := (s.fnAt f).vfs
  let n := min n most
  let s := s.each ((List.range old).filter (fun i => decide (n ≤ i))) (fun s i => s.dropRings (f + i + 1))
  s.setFn f { s.fnAt f with vfs := n }

/-- What a configuration request does at a function that answers it. -/
def State.configure (s : State) (f : Nat) (q : ConfigRequest) : State :=
  let x := s.fnAt f
  match q with
  | .other => s
  | .virtualFunctions n => if s.physical f then s.enableVfs f n else s
  | .bar4Size virt n =>
    if !s.physical f then s else s.setFn f (if virt then { x with vfBar4 := n } else { x with bar4 := n })
  | .msix on mask => (s.setFn f { x with msixOn := on, msixMask := mask }).sendPending f
  | .vector v addr data masked => (s.setFn f { x with vectors := tput x.vectors v ⟨addr.toNat, data.toNat, masked⟩ }).sendPending f

/-- PCIE_CONFIG_REQUEST (R319, R337): a configuration request to a function. Until the ready point it completes with
Request Retry Status; in recovery function 0 alone answers; after it, it has its effect. PRESUMED: log 87. -/
def execPcieConfigRequest (f : Func) (q : ConfigRequest) (s : State) : Out :=
  if !s.fnUp f then impossible
  else if s.isReady then
    .next (if s.fnLive f then (s.configure f q).emit (.config f .success) else s.emit (.config f .unsupported))
  else if s.inRecovery then .next (s.emit (.config f (if f = 0 then .success else .unsupported)))
  else .next ((s.bump (hifReg Reg.HIF_RRS_COUNT) 1).emit (.config f .retry))

/-- A link goes down: BAR accesses of its functions become impossible, no job stops (R315). -/
def State.linkDown (s : State) (l : Nat) : State := s.wrFld (hifReg Reg.HIF_LINK_STATUS) (8 * l + 7) (8 * l) 0

/-- PCIE_LINK_DOWN (R315). -/
def execPcieLinkDown (l : Fin 2) (s : State) : Out := if s.linkUp l then .next (s.linkDown l) else impossible

/-! ### BAR4 (R318) -/

/-- Bytes of a function's BAR4 (R317). PRESUMED: log 87. -/
def State.bar4Bytes (s : State) (f : Nat) : Nat :=
  2 ^ (30 + (if s.physical f then (s.fnAt f).bar4 else (s.fnAt (32 * s.linkOf f)).vfBar4))

/-- What BAR4 does with an offset. -/
inductive Bar4 where
  | device (A : Nat)
  | fail (status : Nat)
  deriving DecidableEq, Repr

/-- Walk the tables of a partition for the north edge die's cache: `net` is the status the network answers table reads
with, 0 where they are served (R150, R318). DEDUCED: log 88. -/
def State.bar4Walk (s : State) (part a net : Nat) (write : Bool) (m : MemFind) : Nat → Nat → Nat → Bar4 × State
  | 0, _, _ => (.fail 0x10, s)
  | fuel + 1, level, table =>
    let A := entryAddr level table a
    if net ≠ 0 then (.fail net, s)
    else
      let r := s.roundTrip hostAgent A 8 none m.rest
      let s := r.2
      if r.1.status ≠ 0 then (.fail r.1.status, s)
      else
        match walkStep level (bytesNat r.1.data) with
        | .missing => (.fail 0x10, s)
        | .next t => s.bar4Walk part a net write m fuel (level + 1) t
        | .leaf e =>
          match leafTarget level e a write with
          | .target (.device x) =>
            (.device x, { s with bar4Tlb := tlbAdd 512 s.bar4Tlb ⟨part, level, a / leafBytes level, BitVec.ofNat 64 e⟩ })
          | .target (.global _) | .missing => (.fail 0x10, s)
          | .permission => (.fail 0x11, s)

/-- Where a BAR4 offset of a function leads (R318). No code is stated for a function without a partition: it is a free
value. DEDUCED: log 88. -/
def State.bar4Target (s : State) (f off net : Nat) (write : Bool) (m : MemFind) : Bar4 × State :=
  if f = 0 ∧ !s.rbit (hifReg Reg.HIF_BAR4_MODE) 0 then (.device (s.rd64 (hifReg Reg.HIF_BAR4_BASE) + off), s)
  else
    match s.partOfFn f with
    | none => (.fail (Config.freeByte s.free).toNat, { s with free := s.free + 1 })
    | some p =>
      if 2 ^ 48 ≤ off then (.fail 0x10, s)
      else
        match tlbFind s.bar4Tlb p off with
        | some (level, e) =>
          (match leafTarget level e off write with
          | .target (.device x) => (.device x, s)
          | .permission => (.fail 0x11, s)
          | _ => (.fail 0x10, s))
        | none => s.bar4Walk p off net write m 4 0 (s.ringPart p).root

/-- A BAR4 request fails: counted, the first one recorded, the function told (R318, R334). -/
def State.bar4Fail (s : State) (f off status : Nat) (write : Bool) : State :=
  let first := !s.rbit (hifReg Reg.HIF_ERR_FLAGS) 3
  let s := (s.bump (hifReg Reg.HIF_BAR4_ERR_COUNT) 1).setFlag (hifReg Reg.HIF_ERR_FLAGS) 3
  let s := s.setFlag (pageReg f Reg.HIF_FN_ERR_FLAGS) 0
  let s := if first then
      (s.wr64 (hifReg Reg.HIF_BAR4_ERR_ADDR) off).wr (hifReg Reg.HIF_BAR4_ERR_INFO)
        (BitVec.ofNat 32 (status * 2 ^ 24 + f * 2 ^ 18 + (if write then 2 ^ 17 else 0)))
    else s
  s.event f 7 0 status

/-- The requests that a BAR4 access of n bytes makes: it is split where a 256-byte granule ends, each part translated and
decoded (R249, R318); with the status of the first part that reaches no memory, none where each does. -/
def State.bar4Plan (s : State) (f net : Nat) (write : Bool) (m : MemFind) : Nat → Nat → Nat → (Option Nat × List (Nat × Nat)) × State
  | 0, _, _ => ((none, []), s)
  | fuel + 1, off, n =>
    if n = 0 then ((none, []), s)
    else
      let t := s.bar4Target f off net write m
      match t.1 with
      | .fail st => ((some st, []), t.2)
      | .device A =>
        match t.2.decoderAnswer 0 A with
        | some (st, u) => ((some st, []), u)
        | none =>
          let k := min n (256 - A % 256)
          let r := t.2.bar4Plan f net write m fuel (off + k) (n - k)
          ((r.1.1, (A, k) :: r.1.2), r.2)

/-- The parts of a BAR4 read, up to the first that fails. -/
def State.bar4Get (s : State) : List (Nat × Nat) → MemFind → MemAns × State
  | [], _ => (⟨0, 0, []⟩, s)
  | (A, k) :: ps, m =>
    let r := s.roundTrip hostAgent A k none m
    if r.1.status ≠ 0 then r
    else
      let x := r.2.bar4Get ps m.rest
      (⟨x.1.status, x.1.addr, r.1.data ++ x.1.data⟩, x.2)

/-- The parts of a BAR4 write, up to the first that fails. -/
def State.bar4Put (s : State) : List (Nat × Nat) → List Byte → MemFind → MemAns × State
  | [], _, _ => (⟨0, 0, []⟩, s)
  | (A, k) :: ps, bs, m =>
    let r := s.roundTrip hostAgent A k (some (bs.take k)) m
    if r.1.status ≠ 0 then r else r.2.bar4Put ps (bs.drop k) m.rest

/-- BAR4_READ (R318, R321): a read of n bytes; a failed one returns ones, one of a function in D3hot Unsupported Request. No request reaches beyond the BAR. `net` is the status
the network answers a table read with where its response times out (R241). -/
def execBar4Read (f : Func) (off n net : Nat) (m : MemFind) (s : State) : Out :=
  if !s.fnReach f || decide (s.bar4Bytes f < off + n) then impossible
  else if (s.fnAt f).d3hot then .next ((s.logAccess 0 false off).emit (.unsupported f))
  else
    let t := s.bar4Plan f net false m (n / 256 + 2) off n
    let ones (s : State) (st : Nat) : State :=
      (s.bar4Fail f off st false).emit (.bar4Data f (List.replicate n 0xFF))
    match t.1.1 with
    | some st => .next (ones t.2 st)
    | none =>
      let r := t.2.bar4Get t.1.2 m
      .next (if r.1.status = 0 then r.2.emit (.bar4Data f r.1.data) else ones r.2 r.1.status)

/-- BAR4_WRITE (R318, R321): a write; a failed one is dropped. An atomic operation completes as Unsupported Request.
DEDUCED: log 88. -/
def execBar4Write (f : Func) (off : Nat) (data : BarStore) (net : Nat) (m : MemFind) (s : State) : Out :=
  if !s.fnReach f || decide (s.bar4Bytes f < off + data.bytes.length) then impossible
  else if data.atomic then .next ((if (s.fnAt f).d3hot then s.logAccess 0 false off else s).emit (.unsupported f))
  else if (s.fnAt f).d3hot then .next (s.logAccess 0 false off)
  else
    let bs := data.bytes
    let t := s.bar4Plan f net true m (bs.length / 256 + 2) off bs.length
    match t.1.1 with
    | some st => .next (t.2.bar4Fail f off st true)
    | none =>
      let r := t.2.bar4Put t.1.2 bs m
      .next (if r.1.status = 0 then r.2 else r.2.bar4Fail f off r.1.status true)

/-! ### Kicks and doorbell records (R322, R323, R328) -/

/-- The host address of a doorbell record of a function: of a submission ring, of a completion ring (R322). -/
def State.recordAddr (s : State) (f : Nat) (cq : Bool) (r : Nat) : Nat :=
  s.rd64 (pageReg f Reg.HIF_DBREC_BASE) + (if cq then 0x2000 else 0) + 8 * r

/-- The host address of entry n of a ring of 2^k entries (R322). -/
def State.entryAddr (s : State) (f r n : Nat) : Nat :=
  s.rd64 (ringKey f false r 0) + 64 * (n % 2 ^ s.ringLog2 f false r)

/-- Reads of doorbell records outstanding on a link (R314). -/
def State.readsOut (s : State) (l : Nat) : Nat :=
  (s.fns.filter (fun e => s.linkOf e.1 == l)).foldl (fun n e => n + e.2.fetching.length) 0

/-- Issue a fetch for every kick bit whose group has none outstanding, of at most 256 reads on a link; its bit clears (R314,
R323, R337). A function in D3hot has its records left alone (R321). -/
def State.fetchGroups (s : State) (f : Nat) : State :=
  if (s.fnAt f).d3hot then s
  else
    (List.range 32).foldl (fun s b =>
      let x := s.fnAt f
      if s.rbit (pageReg f Reg.HIF_KICK) b && !x.fetching.contains b && decide (s.readsOut (s.linkOf f) < 256) then
        ((s.clrBits (pageReg f Reg.HIF_KICK) (2 ^ b)).setFn f { x with fetching := x.fetching ++ [b] }).emit
          (.hostRead f (s.recordAddr f false (32 * b)) 256)
      else s) s

/-- A write to HIF_KICK (R323). -/
def State.kick (s : State) (f : Nat) (w : Word) : State := (s.setBits (pageReg f Reg.HIF_KICK) w.toNat).fetchGroups f

/-- HIF_KICK (R323). -/
def execHifKick (f : Func) (via0 : Bool) (w : Word) (s : State) : Out := s.pageDo f via0 Reg.HIF_KICK (fun s => s.kick f w)

/-- A record of an enabled submission ring has been read (R323, R328). DEDUCED: log 90. -/
def State.tailRead (s : State) (f r tail : Nat) : State :=
  let x := s.sqAt f r
  if !s.ringEnabled f false r then s
  else if 2 ^ 31 ≤ (tail + 2 ^ 32 - x.tail) % 2 ^ 32 then s.ringError f r 10
  else if 2 ^ s.ringLog2 f false r < (tail + 2 ^ 32 - s.rdN (ringKey f false r 0x14)) % 2 ^ 32 then s.ringError f r 11
  else s.setSq f r { x with tail := tail }

/-- A fetch of group g has ended; a kick that has come meanwhile, or that waits for a read of the link, starts the next. -/
def State.fetchEnd (s : State) (f g : Nat) : State :=
  let x := s.fnAt f
  let s := (s.setFn f { x with fetching := x.fetching.filter (· != g) }).fetchGroups f
  s.each ((List.range 64).filter (fun k => s.linkOf k == s.linkOf f && s.rd (pageReg k Reg.HIF_KICK) != 0)) (fun s k => s.fetchGroups k)

/-- The count in doorbell record i of those read: bits [31:0] of its eight bytes (R3, R322). -/
def recordCount (bs : List Byte) (i : Nat) : Nat := bytesNat ((bs.drop (8 * i)).take 4)

/-- Every enabled submission ring of group g goes into error with cause 12 (R328). -/
def State.groupError (s : State) (f g : Nat) : State :=
  s.each ((s.sqsOf f).filter (fun r => r / 32 == g && s.ringEnabled f false r)) (fun s r => s.ringError f r 12)

/-- Replays of a PCIe transfer are counted (R335). -/
def State.replayed (s : State) (n : Nat) : State :=
  if n = 0 then s else (s.bump (hifReg Reg.HIF_REPLAY_COUNT) n).setFlag (hifReg Reg.HIF_ERR_FLAGS) 5

/-- DBREC_FETCH_DONE (R323, R335): the 256 bytes of the records of group g return, or none where the read completes with an
error; with the PCIe replays since the last count. DEDUCED: log 93. -/
def execDbrecFetchDone (f : Func) (g : Fin 32) (records : HostFetch) (s : State) : Out :=
  if !(s.fnAt f).fetching.contains g then impossible
  else
    let s := s.replayed records.replays
    match records.data with
    | none => .next ((s.groupError f g).fetchEnd f g)
    | some bs =>
      let s := s.each ((s.sqsOf f).filter (fun r => r / 32 == g.val)) (fun s r => s.tailRead f r (recordCount bs (r % 32)))
      .next (s.fetchEnd f g)

/-- An enabled submission ring has an entry to read. -/
def State.entryDue (s : State) (f r : Nat) : Bool :=
  s.ringEnabled f false r && s.fnUp f && !(s.fnAt f).d3hot && (s.sqAt f r).barrier.isNone &&
    decide ((s.sqAt f r).tail ≠ s.rdN (ringKey f false r 0x14))

/-- HOST_READ_TIMEOUT (R328): a read of doorbell records (`entry` false, n the group) or of the next entries of ring n
times out. -/
def execHostReadTimeout (f : Func) (entry : Bool) (n : Fin 1024) (s : State) : Out :=
  if entry then (if s.entryDue f n then .next (s.ringError f n 12) else impossible)
  else if (s.fnAt f).fetching.contains n.val then .next ((s.groupError f n).fetchEnd f n)
  else impossible

/-- ENTRY_READ_ERROR (R328): a read of the entries of a submission ring returns with an error. -/
def execEntryReadError (f : Func) (r : Fin 1024) (s : State) : Out :=
  if s.entryDue f r then .next (s.ringError f r 12) else impossible

/-- A completion ring has no room: every slot holds an entry the driver has not consumed (R323). -/
def State.cqFull (s : State) (f q : Nat) : Bool :=
  decide (2 ^ s.ringLog2 f true q ≤ (s.rdN (ringKey f true q 0x14) + 2 ^ 32 - (s.cqAt f q).head) % 2 ^ 32)

/-- CQ_HEAD_POLL (R323): the head record of a full completion ring is read again. -/
def execCqHeadPoll (f : Func) (q : Fin 1024) (record : List Byte) (s : State) : Out :=
  if !s.ringEnabled f true q || !s.cqFull f q || (s.fnAt f).d3hot || !s.fnUp f then impossible
  else .next ((s.emit (.hostRead f (s.recordAddr f true q) 8)).setCq f q { s.cqAt f q with head := recordCount record 0 })

/-! ### Rings (R324, R331) -/

/-- MSI-X vectors of a function (R316). -/
def fnVectors (f : Nat) : Nat := if f = 0 then 1040 else 16

/-- Why an enable of a ring is refused; 0 where it is not (R324). -/
def State.enableCause (s : State) (f : Nat) (cq : Bool) (r : Nat) : Nat :=
  let ver := s.rdN (pageReg f Reg.HIF_VERSION_SEL) % 16
  let log2 := s.ringLog2 f cq r
  if ver = 0 then 1
  else if s.rd64 (ringKey f cq r 0) % 4096 ≠ 0 then 2
  else if log2 < 6 ∨ 16 < log2 then 3
  else if !cq ∧ !s.ringEnabled f true (s.ringCq f r) then 4
  else if 8192 ≤ s.fld (hifReg Reg.HIF_RINGS) (if cq then 31 else 15) (if cq then 16 else 0) then 5
  else if !cq ∧ ver = 2 ∧ s.fld (ringKey f false r 8) 23 22 = 0 then 6
  else if cq ∧ fnVectors f ≤ s.fld (ringKey f true r 8) 10 0 then 7
  else 0

/-- The ring that HIF_RING_SEL of a function's page selects. -/
def State.selCq (s : State) (f : Nat) : Bool := s.rbit (pageReg f Reg.HIF_RING_SEL) 31
def State.selRing (s : State) (f : Nat) : Nat := s.fld (pageReg f Reg.HIF_RING_SEL) 9 0

/-- Enable the selected ring; `rec_` is its doorbell record as read, none where the read fails (R324). A function that SR-IOV has
not enabled has no rings (R316); of one in D3hot, whose records are not read, no ring is enabled (R321). A ring that is
enabled or in error keeps its state until it is disabled. Entries taken before a ring was disabled, and a barrier among them, run on.
DEDUCED: log 89. -/
def State.enableRing (s : State) (f : Nat) (rec_ : Option (List Byte)) : State :=
  let cq := s.selCq f
  let r := s.selRing f
  let st := s.fld (ringKey f cq r 0x10) 31 30
  if st = 1 ∨ st = 2 ∨ !s.fnLive f ∨ (s.fnAt f).d3hot then s
  else
    let c := s.enableCause f cq r
    if c ≠ 0 then (s.setRing f cq r 3 c).setFlag (pageReg f Reg.HIF_FN_ERR_FLAGS) 1
    else
      let n := recordCount (rec_.getD []) 0
      let s := s.emit (.hostRead f (s.recordAddr f cq r) 8)
      let s := (s.setRing f cq r 1 0).wr (ringKey f cq r 0x14) (BitVec.ofNat 32 n)
      let s := if cq then s.setCq f r { s.cqAt f r with head := n, since := 0 }
        else s.setSq f r { s.sqAt f r with tail := n, written := 0 }
      if !cq && rec_.isNone then s.ringError f r 12 else s

/-- RING_ENABLE (R324): enable written to HIF_RING_CTRL. -/
def execRingEnable (f : Func) (via0 : Bool) (record : Option (List Byte)) (s : State) : Out :=
  s.pageDo f via0 Reg.HIF_RING_CTRL (fun s => s.enableRing f record)

/-- An enabled submission ring names the completion ring, or a completion for it is pending (R324). DEDUCED: log 89. -/
def State.cqHeld (s : State) (f q : Nat) : Bool :=
  !(s.cqAt f q).waiting.isEmpty ||
  (s.sqsOf f).any (fun r => s.ringCq f r == q && (s.ringEnabled f false r || !(s.sqAt f r).taken.isEmpty)) ||
  s.jobs.any (fun e => e.2.ent.func == f && e.2.ent.cq == some q)

/-- Disable the selected ring (R324). DEDUCED: log 89. -/
def State.disableRing (s : State) (f : Nat) : State :=
  let cq := s.selCq f
  let r := s.selRing f
  if cq && s.cqHeld f r then
    (s.wrFld (ringKey f true r 0x10) 29 26 8).setFlag (pageReg f Reg.HIF_FN_ERR_FLAGS) 1
  else s.setRing f cq r 0 0

/-- RING_DISABLE (R324): disable written to HIF_RING_CTRL. -/
def execRingDisable (f : Func) (via0 : Bool) (s : State) : Out :=
  s.pageDo f via0 Reg.HIF_RING_CTRL (fun s => s.disableRing f)

/-- Any ring of a function is enabled. -/
def State.anyRing (s : State) (f : Nat) : Bool :=
  (s.sqsOf f).any (fun r => s.ringEnabled f false r) || (s.cqsOf f).any (fun r => s.ringEnabled f true r)

/-- The driver offers interface versions and the device selects the highest common one (R331). -/
def State.offer (s : State) (f : Nat) (w : Word) : State :=
  if s.anyRing f then s.setFlag (pageReg f Reg.HIF_FN_ERR_FLAGS) 1
  else (s.wr (pageReg f Reg.HIF_VERSION_OFFER) w).wr (pageReg f Reg.HIF_VERSION_SEL)
    (if bitOf w.toNat 3 then 3 else if bitOf w.toNat 2 then 2 else 0)

/-- VERSION_OFFER (R331). -/
def execVersionOffer (f : Func) (via0 : Bool) (w : Word) (s : State) : Out :=
  s.pageDo f via0 Reg.HIF_VERSION_OFFER (fun s => s.offer f w)

/-! ### Entries (R325 to R327, R332, R401) -/

/-- A submission entry as its ring's version lays it out. -/
structure RingEntry where
  op : Nat
  irq : Bool
  pinned : Bool
  handle : Nat
  tag : Nat
  params : List Byte
  extAddr : Nat
  extBytes : Nat
  /-- a reserved field is not zero, or an extended area breaks its rule -/
  bad : Bool

/-- A v3 entry (R325). DEDUCED: log 90. -/
def entryV3 (bs : List Byte) : RingEntry :=
  let w := imgN bs 0 4
  let ea := imgN bs 0x30 8
  let eb := imgN bs 0x38 4
  { op := bitsOf w 31 24, irq := bitOf w 23, pinned := bitOf w 22, handle := bitsOf w 20 16, tag := imgN bs 8 6
    params := (bs.drop 0x10).take 32, extAddr := ea, extBytes := eb
    bad := bitOf w 21 || bitsOf w 15 0 != 0 || imgN bs 4 4 != 0 || imgN bs 14 2 != 0 || imgN bs 0x3C 4 != 0 ||
      ea % 32 != 0 || eb % 32 != 0 || decide (4096 < eb) }

/-- A v2 entry (R332): ops 0x01 and 0x04 alone, no extended record. -/
def entryV2 (bs : List Byte) : RingEntry :=
  let w := imgN bs 0 4
  { op := bitsOf w 7 0, irq := false, pinned := false, handle := 0, tag := imgN bs 4 4
    params := (bs.drop 8).take 8, extAddr := 0, extBytes := 0
    bad := bitsOf w 31 8 != 0 || (bs.drop 0x10).any (· != 0) || !(bitsOf w 7 0 == 1 || bitsOf w 7 0 == 4) }

/-- The entry of a ring in 64 bytes. -/
def State.ringEntry (s : State) (f : Nat) (bs : List Byte) : RingEntry :=
  if s.rdN (pageReg f Reg.HIF_VERSION_SEL) % 16 = 2 then entryV2 bs else entryV3 bs

/-- Ristretto entries of a function between being taken and dispatch start (R327). -/
def State.ristrettoHeld (s : State) (f : Nat) : Nat :=
  (s.jobs.filter (fun e => e.2.ent.func == f && e.2.cls == 0 && !e.2.started)).length

/-- The entry as its completion will name it. -/
def State.entryOf (s : State) (f r : Nat) (x : RingEntry) : Entry :=
  { func := f, ring := r, seq := s.rdN (ringKey f false r 0x14), tag := x.tag, irq := x.irq, extAddr := x.extAddr
    extBytes := x.extBytes, v2 := s.rdN (pageReg f Reg.HIF_VERSION_SEL) % 16 == 2, cq := none, epoch := (s.fnAt f).epoch }

/-- The entry on ring r is mirrored while the pair is attached (R401). -/
def State.mirrors (s : State) (f r : Nat) : Option Nat := if s.mirrorOn then s.mirrorIdx f r else none

/-- An entry completes with a resource-class status: a job with its record, a configuration load with that of R225, a pin with its
handle (R326, R329, R330). DEDUCED: log 90. -/
def State.refuseEntry (s : State) (e : Entry) (x : RingEntry) : State :=
  if x.op = 1 then s.complete e .refusedJob
  else if x.op = 2 then
    let v : CfgLoad :=
      { ent := e, addr := 0, bytes := 0, ess := 0, accepted := false, dies := [], isPartial := false, region := 0, segments := 0
        imageId := [], slot := 0, rbIndex := 0, rbVersion := 0, released := [], failed := [], frames := 0 }
    ({ s with nextLoad := s.nextLoad + 1 } : State).refuseLoad s.nextLoad v 0x87 []
  else s.complete e { Report.of 0x87 with detail := if x.op = 5 then x.handle else 0 }

/-- Take the next entry of a ring (R327). Where the engine holds its 32 Ristretto entries, or the mirrored ring has no
empty slot, the entry waits in its ring. `go` is what an accepted entry does. -/
def State.takeEntry (s : State) (f r : Nat) (bs : List Byte) (mine : RingEntry → Bool)
    (go : RingEntry → Entry → State → State) : Out :=
  let x := s.ringEntry f bs
  let held := s.twin.writes.any (fun w => match w.act with | .entry (.barrier e) => e.func == f && e.ring == r | _ => false)
  if !s.entryDue f r || bs.length != 64 || !mine x then impossible
  else if (s.ringClass f r == 0 && decide (32 ≤ s.ristrettoHeld f)) || held ||
      ((s.mirrorIdx f r).isSome && s.mirrorStopped) ||
      (match s.mirrors f r with | some i => (s.mirrorFree i).isNone | none => false) then .next s
  else
    let e := s.entryOf f r x
    let q := s.sqAt f r
    let s := s.emit (.hostRead f (s.entryAddr f r e.seq) 64)
    let s := (s.wr (ringKey f false r 0x14) (BitVec.ofNat 32 (e.seq + 1))).setSq f r { q with taken := q.taken ++ [e.seq] }
    let no := x.bad || ((s.mirrors f r).isSome && (!(x.op == 1 || x.op == 3 || x.op == 4) || x.pinned))
    .next (if no then s.refuseEntry e x else go x e s)

/-- A job taken from a ring: queued, or waiting for the twin's answer (R152, R401). -/
def State.newJob (s : State) (e : Entry) (x : RingEntry) (p : Nat) (bs : List Byte) : State :=
  let n := s.nextJob
  let cls := s.ringClass e.func e.ring
  let mir := (s.mirrors e.func e.ring).bind (fun i => (s.mirrorFree i).map (fun k => (i, k)))
  let v : Job :=
    { phase := if mir.isSome then .mirroring else .queued, ent := e, cls := cls, part := p, image := imgN x.params 0 8
      handle := if x.pinned then some x.handle else none, mirrored := (s.mirrorIdx e.func e.ring).isSome
      hdr := ⟨0, 0, 0, 0, 0, 0, 0, 0, 0, 0, 0⟩, placed := [], status := 0, detail := 0, recordsAccepted := 0, failAddr := 0
      bound := 0, digits := 0, sats := 0, events := 0, pcrs := [], arrivals := [], released := [], ended := []
      started := false, resumed := false, rerun := false, heldTwin := false, loads := [], plan := [], bubbles := []
      vecDone := [], vecEnding := [], satMarks := [], saved := [], again := false }
  let s := ({ s with nextJob := n + 1 } : State).setJob n v
  match mir with
  | some (i, k) => s.mirrorEntry i k e.func e.ring e.seq bs (.job n)
  | none => s.setQueue p cls (s.queueOf p cls ++ [n])

/-- A handle names an image that later entries may use. DEDUCED: log 91. -/
def State.handleLive (s : State) (f h : Nat) : Bool :=
  match s.pins.find? (fun e => e.1 == 16 * f + h) with | some p => p.2.leaving.isNone | none => false

/-- JOB_ENTRY (R326): a job entry is taken and passed to its partition's dispatch queue. An entry whose op is reserved
is taken by this command too, and completes with 0x87. DEDUCED: log 90. -/
def execJobEntry (f : Func) (r : Fin 1024) (bs : List Byte) (s : State) : Out :=
  s.takeEntry f r bs (fun x => x.op == 1 || x.op == 0 || decide (6 < x.op)) (fun x e s =>
    if x.op ≠ 1 then s.refuseEntry e x
    else
      match s.partOfFn f with
      | none => s.refuseEntry e x
      | some p =>
        if x.pinned ∧ (16 ≤ x.handle ∨ !s.handleLive f x.handle) then s.refuseEntry e x
        else s.newJob e x p bs)

/-- CONFIGURATION_ENTRY (R201, R326): a configuration entry requests a load. -/
def execConfigurationEntry (f : Func) (r : Fin 1024) (bs : List Byte) (s : State) : Out :=
  s.takeEntry f r bs (fun x => x.op == 2) (fun x e s =>
    let p := x.params
    if imgN p 0 8 % 256 ≠ 0 ∨ imgN p 8 4 % 4 ≠ 0 ∨ imgN p 12 4 ≠ 0 ∨ imgN p 0x10 8 % 4096 ≠ 0 ∨ imgN p 0x18 8 ≠ 0 then
      s.refuseEntry e x
    else
      let v : CfgLoad :=
        { ent := e, addr := imgN p 0 8, bytes := imgN p 8 4, ess := imgN p 0x10 8, accepted := false, dies := []
          isPartial := false, region := 0, segments := 0, imageId := [], slot := 0, rbIndex := 0, rbVersion := 0
          released := [], failed := [], frames := 0 }
      ({ s with nextLoad := s.nextLoad + 1 } : State).setLoad s.nextLoad v)

/-- The write of an entry that is not a job into the partner's record (R401); none where the ring is not mirrored. -/
def State.mirrorOther (s : State) (e : Entry) (bs : List Byte) (t : MirrorThen) : Option State :=
  (s.mirrors e.func e.ring).bind (fun i => (s.mirrorFree i).map (fun k =>
    s.mirrorEntry i k e.func e.ring e.seq bs t))

/-- A barrier entry: complete once every earlier entry of its ring has completed (R326). -/
def State.barrierEntry (s : State) (e : Entry) : State :=
  let q := s.sqAt e.func e.ring
  if q.taken.all (· == e.seq) then s.complete e (.of 0) else s.setSq e.func e.ring { q with barrier := some e }

/-- RING_BARRIER (R326). -/
def execRingBarrier (f : Func) (r : Fin 1024) (bs : List Byte) (s : State) : Out :=
  s.takeEntry f r bs (fun x => x.op == 3) (fun _ e s =>
    match s.mirrorOther e bs (.barrier e) with | some s => s | none => s.barrierEntry e)

/-- RING_NOP (R326): completes with success. -/
def execRingNop (f : Func) (r : Fin 1024) (bs : List Byte) (s : State) : Out :=
  s.takeEntry f r bs (fun x => x.op == 4) (fun _ e s =>
    match s.mirrorOther e bs (.nop e) with | some s => s | none => s.complete e (.of 0))

/-- Keep a verified copy of an image under a handle, and measure it (R326, R386). DEDUCED: log 91. -/
def State.pinImage (s : State) (e : Entry) (h : Nat) (img : List Byte) : State :=
  let s := { s with pins := tput s.pins (16 * e.func + h) ⟨img, jobHeader img, none⟩ }
  let s := s.extend 6 6 (sha512 ((img.drop 0x40).take 64 ++ natBytes 1 h ++ natBytes 1 e.func)) false
  s.complete e { Report.of 0 with detail := h }

/-- PIN (R326): a pin entry verifies an image and keeps a copy under a free handle. DEDUCED: log 91. -/
def execPin (f : Func) (r : Fin 1024) (bs : List Byte) (m : MemFind) (s : State) : Out :=
  s.takeEntry f r bs (fun x => x.op == 5) (fun x e s =>
    match s.partOfFn f with
    | none => s.refuseEntry e x
    | some p =>
      let used := s.pins.any (fun y => y.1 == 16 * f.val + x.handle)
      if 16 ≤ x.handle ∨ used then s.refuseEntry e x
      else
        let q := (maskQuarters (s.ringPart p).quarters).headD 0
        let c := s.checkImage (s.ctrlAgent q) (imgN x.params 0 8) m
        let s := c.2.2.2
        if c.1 ≠ 0 then
          let k := regKey (.seq (Fin.ofNat 16 (q / 4)))
          let s := (s.setFlag (k Reg.SEQ_ERR_FLAGS) 2).bump (k Reg.SEQ_FAULT_COUNT) 1
          s.complete e { Report.of c.1 with detail := x.handle }
        else if 262144 < (jobHeader c.2.2.1).bytes then s.refuseEntry e x
        else s.pinImage e x.handle c.2.2.1)

/-- UNPIN (R326, R337): frees a handle once every job of it has ended. DEDUCED: log 91. -/
def execUnpin (f : Func) (r : Fin 1024) (bs : List Byte) (s : State) : Out :=
  s.takeEntry f r bs (fun x => x.op == 6) (fun x e s =>
    if (s.partOfFn f).isNone ∨ 16 ≤ x.handle ∨ !s.handleLive f x.handle then s.complete e (.of 0x87)
    else
      match s.pins.find? (fun y => y.1 == 16 * f.val + x.handle) with
      | none => s.complete e (.of 0x87)
      | some p =>
        let s := { s with pins := tput s.pins (16 * f.val + x.handle) { p.2 with leaving := some e } }
        s.checkHandle f x.handle)

/-! ### Completions (R329, R330, R332, R333, R336) -/

/-- sq_head of a completion entry: entries taken from its ring (R329). DEDUCED: log 93. -/
def State.sqHead (s : State) (f : Nat) (c : Cpl) : Nat :=
  if c.event then 0 else if c.away then c.seq % 2 ^ 16 else s.rdN (ringKey f false c.sq 0x14) % 2 ^ 16

/-- The 32 bytes of the n-th completion entry of a ring of 2^k entries. DEDUCED: log 93. -/
def State.cplBytes (s : State) (f : Nat) (c : Cpl) (n k : Nat) : List Byte :=
  let phase := if n / 2 ^ k % 2 = 0 then 1 else 0
  let bound := natBytes 4 (min c.bound (2 ^ 32 - 1))
  let head := s.sqHead f c
  if c.v2 then
    natBytes 4 c.tag ++ natBytes 4 (head * 2 ^ 16 + c.sq % 2 ^ 10) ++ natBytes 4 (phase * 2 ^ 31 + c.status) ++ bound ++
      natBytes 8 c.digits ++ natBytes 4 c.detail ++ natBytes 4 0
  else
    let ext := match c.ext with | some e => e.2.length | none => 0
    natBytes 8 (phase * 2 ^ 63 + c.sq % 2 ^ 10 * 2 ^ 48 + c.tag % 2 ^ 48) ++ natBytes 4 (head * 2 ^ 16 + c.status) ++ bound ++
      natBytes 8 c.digits ++ natBytes 4 c.detail ++ natBytes 4 (ext * 2 ^ 16 + min c.sats 0xFFFF)

/-- The writes of a completion in their order (R329, R332): the extended record, the entry but for the part that holds
the phase, and that part. -/
def cplWrites (c : Cpl) (a : Nat) (bs : List Byte) : List (Nat × List Byte) :=
  (match c.ext with | some e => [e] | none => []) ++
  (if c.v2 then [(a, bs.take 8), (a + 16, bs.drop 16), (a + 8, (bs.drop 8).take 8)]
   else [(a + 8, bs.drop 8), (a, bs.take 8)])

/-- A completion ring raises its vector if a trigger of R333 has come. -/
def State.cqTrigger (s : State) (f q : Nat) (now : Bool) : State :=
  let c := s.cqAt f q
  let cnt := s.fld (ringKey f true q 0xC) 15 0
  if now || (cnt != 0 && decide (cnt ≤ c.since)) then
    (s.setCq f q { c with since := 0 }).message f (s.fld (ringKey f true q 8) 10 0)
  else s

/-- Write the first waiting completion of a ring (R329): `ns` is the time since the end of its job. -/
def State.writeCpl (s : State) (f q : Nat) (c : Cpl) (rest : List Cpl) (ns : Nat) : State :=
  let k := s.ringLog2 f true q
  let n := s.rdN (ringKey f true q 0x14)
  let x := s.cqAt f q
  let ws := cplWrites c (s.rd64 (ringKey f true q 0) + n % 2 ^ k * 32) (s.cplBytes f c n k)
  let s := s.each ws (fun s w => s.emit (.hostWrite f w.1 w.2))
  let s := (s.wr (ringKey f true q 0x14) (BitVec.ofNat 32 (n + 1))).setCq f q { x with waiting := rest, since := x.since + 1 }
  let s := if c.job && !c.away && s.ringClass f c.sq == 0 then
      let s := s.wrMax (hifReg Reg.HIF_RIS_CPL_MAX_NS) ns
      if 2000 < ns then s.setFlag (hifReg Reg.HIF_ERR_FLAGS) 4 else s
    else s
  let s := s.cqTrigger f q (c.irq || c.event)
  if c.event || c.away then s
  else
    let y := s.sqAt f c.sq
    (s.setSq f c.sq { y with written := y.written + 1 }).mirrorDone f c.sq c.seq

/-- COMPLETION_WRITE (R329): the engine writes the first completion that waits for a completion ring with room. `err`: the
write meets a host error, and the completion is discarded (R328). `replays` counts the PCIe replays on the way.
DEDUCED: log 93. -/
def execCompletionWrite (f : Func) (q : Fin 1024) (err : Bool) (ns replays : Nat) (s : State) : Out :=
  let x := s.cqAt f q
  match x.waiting with
  | [] => impossible
  | c :: rest =>
    if !s.ringEnabled f true q || s.cqFull f q || (s.fnAt f).d3hot || !s.fnUp f then impossible
    else
      let s := s.replayed replays
      if err then
        let s := s.setCq f q { x with waiting := rest }
        .next ((s.setFlag (pageReg f Reg.HIF_FN_ERR_FLAGS) 2).event f 6 (2 ^ 31 + q) 0)
      else .next (s.writeCpl f q c rest (ns % 2 ^ 32))

/-- IRQ_DELAY_EXPIRY (R333): irq_delay passes since the first entry written after the last message. -/
def execIrqDelayExpiry (f : Func) (q : Fin 1024) (s : State) : Out :=
  if s.fld (ringKey f true q 0xC) 31 16 = 0 ∨ (s.cqAt f q).since = 0 ∨ !s.ringEnabled f true q then impossible
  else .next (s.cqTrigger f q true)

/-! ### Function resets and power states (R320, R321) -/

/-- FUNCTION_LEVEL_RESET (R320): rings, kick bits and settings of the function go, completions to come are discarded, and
a partition bound to it is reset. DEDUCED: log 92. -/
def execFunctionLevelReset (f : Func) (s : State) : Out :=
  if !s.fnUp f || !s.isReady || !s.fnLive f then impossible
  else
    let s := s.dropRings f
    .next (match s.partOfFn f with
      | some p => if s.rbit (regKey .ctl Reg.CTL_PART_RESETTING) p then s else s.resetPartition p
      | none => s)

/-- D3HOT_ENTRY (R321): the host places a function in D3hot. -/
def execD3hotEntry (f : Func) (s : State) : Out :=
  if !s.fnUp f || !s.isReady || !s.fnLive f || (s.fnAt f).d3hot then impossible
  else .next (s.setFn f { s.fnAt f with d3hot := true })

/-- The completion ring of a function with room whose first waiting entry was formed first. -/
def State.firstHeld (s : State) (f : Nat) : Option (Nat × Cpl × List Cpl) :=
  (s.cqsOf f).foldl (fun a q =>
    match (s.cqAt f q).waiting with
    | [] => a
    | c :: rest =>
      if !s.ringEnabled f true q || s.cqFull f q then a
      else match a with
        | some (_, d, _) => if c.ord < d.ord then some (q, c, rest) else a
        | none => some (q, c, rest)) none

/-- Write the held entries in the order in which they were formed; the time since the end of a job is free. DEDUCED: log 93. -/
def State.writeHeld (s : State) (f : Nat) : Nat → State
  | 0 => s
  | n + 1 =>
    match s.firstHeld f with
    | none => s
    | some (q, c, rest) =>
      (({ s with free := s.free + 1 } : State).writeCpl f q c rest (Config.elapsed s.free % 2 ^ 32)).writeHeld f n

/-- D0_RETURN (R321): held entries are written, each pending message is sent once, and kicks are acted on. -/
def execD0Return (f : Func) (s : State) : Out :=
  let x := s.fnAt f
  if !s.fnUp f || !s.isReady || !x.d3hot then impossible
  else
    let s := s.setFn f { x with d3hot := false }
    let n := (s.cqsOf f).foldl (fun n q => n + (s.cqAt f q).waiting.length) 0
    let s := s.writeHeld f n
    .next ((s.sendPending f).fetchGroups f)

end Sys2Proof.Machine
end

