-- ==== Sys2Proof/Machine/Ctl.lean ====
section
/-! DEFINITION. Control sets, the swap between them, and mailboxes (R340 to R359). -/

namespace Sys2Proof.Machine

/-- A register of the CTL block. -/
def ctlReg (off : Nat) : Nat := regKey .ctl off

/-- An event that sets flag i of CTL_ERR_FLAGS (R355, R358). -/
def State.ctlFlag (s : State) (i : Nat) : State := (s.setFlag (ctlReg Reg.CTL_ERR_FLAGS) i).bump (ctlReg Reg.CTL_FAULT_COUNT) 1

/-! ### Outstanding work of a set (R343) -/

/-- A transaction tagged with a set is outstanding: on the tile network, at a home edge, or through a window. -/
def State.setHeld (s : State) (set : Nat) : Bool :=
  s.noc.any (fun e => !e.2.gone && !e.2.waiting && e.2.set == set) ||
  s.home.any (fun e => match e.2 with | .req _ t _ _ => t == set | _ => false) ||
  s.flights.any (fun f => !f.dead && f.set == set)

/-- The old set is retiring: a swap has completed and transactions of the old set remain. Their number only falls. -/
def State.retiring (s : State) : Bool := s.rbit (ctlReg Reg.CTL_STATUS) 2 && s.setHeld (1 - s.activeSet)

/-- Writes to the shadow, checks and swaps are refused: from the tamp write until retirement (R346). -/
def State.shadowClosed (s : State) : Bool := s.swap.isSome || s.retiring

/-! ### The check (R342) -/

/-- Lowest index below n that breaks a rule. -/
def lowest (n : Nat) (bad : Nat → Bool) : Option Nat := (List.range n).find? bad

/-- Directed links between mesh routers, and to and from stations (1024 + 32 · edge + index), of a path between two places
given by coordinates; none where a coordinate names no place. -/
def placeNode (x y : Nat) : Option (Nat × Option Nat) :=
  if x < 32 ∧ y < 32 then some (y * 32 + x, none)
  else if x < 32 ∧ y = 32 then some (31 * 32 + x, some (1024 + x))
  else if x = 32 ∧ y < 32 then some (y * 32 + 31, some (1056 + y))
  else if x < 32 ∧ y = 63 then some (x, some (1088 + x))
  else if x = 63 ∧ y < 32 then some (y * 32, some (1120 + y))
  else none

/-- Consecutive pairs of a list. -/
def pairsOf : List Nat → List (Nat × Nat)
  | a :: b :: rs => (a, b) :: pairsOf (b :: rs)
  | _ => []

/-- Every link that the XY or YX path between two places may use (R237). -/
def routeLinks (a b : Nat × Option Nat) : List (Nat × Nat) :=
  let full (yx : Bool) : List Nat := a.2.toList ++ pathOf a.1 b.1 yx ++ b.2.toList
  (pairsOf (full false) ++ pairsOf (full true)).eraseDups

/-- A reservation entry of a set (R237). -/
structure Reservation where
  idx : Nat
  init : Nat × Nat × Nat
  rate : Nat
  burst : Nat
  lo : Nat × Nat
  hi : Nat × Nat

/-- The valid reservations of a set. -/
def State.reservations (s : State) (set : Nat) : List Reservation :=
  ((List.range 4096).filter (fun i => s.rbit (setKey set (0x10000 + 16 * i)) 14)).map (fun i =>
    let k := setKey set (0x10000 + 16 * i)
    { idx := i, init := (s.fld k 31 26, s.fld k 25 20, s.fld k 19 15), rate := s.fld k 13 10, burst := s.fld k 9 4
      lo := (s.fld (k + 4) 31 26, s.fld (k + 4) 25 20), hi := (s.fld (k + 4) 19 14, s.fld (k + 4) 13 8) })

/-- The links a reservation may use. -/
def Reservation.links (r : Reservation) : List (Nat × Nat) :=
  match placeNode r.init.1 r.init.2.1 with
  | none => []
  | some a =>
    let pts := (List.range (r.hi.1 + 1 - r.lo.1)).flatMap (fun i => (List.range (r.hi.2 + 1 - r.lo.2)).filterMap (fun j =>
      placeNode (r.lo.1 + i) (r.lo.2 + j)))
    (pts.flatMap (fun b => routeLinks a b)).eraseDups

/-- Sum of a quantity over reservations that may use a link. -/
def linkSum (f : Reservation → Nat) (rs : List (Reservation × List (Nat × Nat))) (l : Nat × Nat) : Nat :=
  rs.foldl (fun n r => if r.2.contains l then n + f r.1 else n) 0

/-- The lowest reservation on a link whose sums are too high. -/
def overLinks (rs : List Reservation) : Option Nat :=
  let xs := rs.map (fun r => (r, r.links))
  (xs.find? (fun x => x.2.any (fun l =>
    decide (8 < linkSum Reservation.rate xs l) || decide (32 < linkSum Reservation.burst xs l)))).map (·.1.idx)

/-- Reserved bits of the word at an offset of a set image, and the index of the entry it belongs to (R340). -/
def reservedBits (off : Nat) : Nat × Nat :=
  if off = 0 then (0x7FF00000, 0)
  else if off = 0x100 then (0xFFFF0000, 0)
  else if 0x104 ≤ off ∧ off < 0x144 then (0xFFFF0000, (off - 0x104) / 4)
  else if 0x200 ≤ off ∧ off < 0x400 then
    (match off % 32 with | 8 => 0x7FFFFFC0 | 0xC => 0xFFFFFFFF | _ => 0, (off - 0x200) / 32)
  else if 0x1000 ≤ off ∧ off < 0x1200 then (0x30FF30FF, (off - 0x1000) / 2)
  else if 0x2000 ≤ off ∧ off < 0x4000 then (0x30FF30FF, (off - 0x2000) / 2)
  else if 0x10000 ≤ off ∧ off < 0x20000 then
    (match off % 16 with | 0 => 0xF | 4 => 0xFF | _ => 0xFFFFFFFF, (off - 0x10000) / 16)
  else (0xFFFFFFFF, 0)

/-- A word of a set image as it reads: reserved fields are kept for the check and read zero (R5, R342). -/
def setWord (v off : Nat) : Nat := v - (v &&& (reservedBits off).1)

/-- The lowest entry of a set with a reserved field that is not zero; two route entries share a word. -/
def State.reservedFault (s : State) (set : Nat) : Option Nat :=
  let base := setKey set 0
  let hits := s.regs.filterMap (fun e =>
    if base ≤ e.1 ∧ e.1 < base + 0x20000 then
      let off := e.1 - base
      let b := reservedBits off
      let v := e.2.toNat &&& b.1
      if v = 0 then none
      else some (b.2 + (if 0x1000 ≤ off ∧ off < 0x4000 ∧ v % 65536 = 0 then 1 else 0))
    else none)
  hits.foldl (fun a n => match a with | none => some n | some m => some (min m n)) none

/-- The cause for which a set is invalid and the lowest entry at fault; none where it is valid (R342). DEDUCED: log 96. -/
def State.checkSet (s : State) (set : Nat) : Option (Nat × Nat) :=
  let p (i : Nat) : PartEntry := s.partIn set i
  let clash (f : PartEntry → PartEntry → Bool) : Option Nat := lowest 16 (fun i =>
    (p i).enabled && (List.range 16).any (fun j => j != i && (p j).enabled && f (p i) (p j)))
  let rs := s.reservations set
  match clash (fun a b => a.quarters &&& b.quarters != 0) with
  | some i => some (1, i)
  | none =>
  match clash (fun a b => a.func == b.func) with
  | some i => some (2, i)
  | none =>
  match lowest 16 (fun i => (p i).enabled && (maskQuarters (p i).quarters).any (fun q => !s.quarterOk q || s.testing q)) with
  | some i => some (3, i)
  | none =>
  match rs.find? (fun r => rs.any (fun q => q.idx != r.idx && q.init == r.init)) with
  | some r => some (4, r.idx)
  | none =>
  match overLinks rs with
  | some i => some (5, i)
  | none =>
  match s.reservedFault set with
  | some i => some (6, i)
  | none => if (variantOf s.variant).watts < s.fld (setKey set 0x100) 15 0 then some (7, 0) else none

/-- Check the shadow: CTL_CHECK takes the outcome. -/
def State.checkShadow (s : State) : State :=
  s.wr (ctlReg Reg.CTL_CHECK) (BitVec.ofNat 32 (match s.checkSet (1 - s.activeSet) with
    | none => 2 ^ 31
    | some (c, i) => c * 2 ^ 27 + i))

/-- The shadow is checked. -/
def State.isChecked (s : State) : Bool := s.rbit (ctlReg Reg.CTL_CHECK) 31

/-- A write of CTL_CTRL that the state of the swap refuses, or its effect (R346). -/
def State.ctlCmd (s : State) (go : State → State) : State := if s.shadowClosed then s.ctlFlag 2 else go s

/-- CHECK (R342). -/
def execCheck (s : State) : Out := s.bar0Do (ctlReg Reg.CTL_CTRL) (fun s => s.ctlCmd State.checkShadow)

/-- Write a word of the shadow image (R341, R342, R346). -/
def State.writeShadow (s : State) (off : Nat) (w : Word) : State :=
  s.ctlCmd (fun s => (s.wr (setKey (1 - s.activeSet) off) w).wrFld (ctlReg Reg.CTL_CHECK) 31 31 0)

/-- SHADOW_WRITE (R341): word `i` of the shadow image is written. -/
def execShadowWrite (i : Fin 32768) (w : Word) (s : State) : Out :=
  s.bar0Do (ctlReg (Reg.CTL_SHADOW + 4 * i)) (fun s => s.writeShadow (4 * i) w)

/-- Copy the whole active image into the shadow (R348). DEDUCED: log 96. -/
def State.copyActive (s : State) : State :=
  let a := setKey s.activeSet 0
  let b := setKey (1 - s.activeSet) 0
  let kept := s.regs.filter (fun e => !(decide (b ≤ e.1) && decide (e.1 < b + 0x20000)))
  let s' : State := { s with regs := kept }
  let s' := s'.each (s.regs.filter (fun e => decide (a ≤ e.1) && decide (e.1 < a + 0x20000))) (fun s e => s.wr (b + (e.1 - a)) e.2)
  s'.wrFld (ctlReg Reg.CTL_CHECK) 31 31 0

/-- COPY_ACTIVE (R348). -/
def execCopyActive (s : State) : Out := s.bar0Do (ctlReg Reg.CTL_CTRL) (fun s => s.ctlCmd State.copyActive)

/-! ### The swap (R343 to R347, R157, R158) -/

/-- Domains that count as switched: dies that did not answer, compute dies whose logic is unconfigured, and those whose
quarters are all gated (R218, R343, R364, R419). DEDUCED: log 96. -/
def State.switchedAtOnce (s : State) : List Nat := (List.range 20).filter (fun d =>
  s.plan.unreach.contains d || (decide (d < 16) && (s.dieState d == 0 || (List.range 4).all (fun k => s.gated (4 * d + k)))))

/-- The domains that have switched: those that have reported, and those that count as switched (R343). -/
def State.switched (s : State) : List Nat := s.swap.getD [] ++ s.switchedAtOnce

/-- A quarter of the change from set `old` to set `new`: it joins a partition, or leaves the one it was in. -/
def State.memberIn (s : State) (set q : Nat) : Option Nat :=
  (List.range 16).find? (fun p => (s.partIn set p).enabled && bitOf (s.partIn set p).quarters q)

/-- A quarter is ungated: its tile rail is on again (R419). DEDUCED: log 113. -/
def State.ungate (s : State) (q : Nat) : State :=
  (s.wrFld (regKey .pwr Reg.PWR_QTR_GATE + 4 * (q / 32)) (q % 32) (q % 32) 0).wrFld
    (regKey .pwr Reg.PWR_QTR_GATED + 4 * (q / 32)) (q % 32) (q % 32) 0

/-- Partitions grow and shrink as a swap completes: an idle quarter that changes its partition is zeroed; a job that holds
a departing one is pre-empted whole (R157, R158). DEDUCED: log 53. -/
def State.resize (s : State) (old : Nat) : State :=
  let moved := (List.range 64).filter (fun q => s.memberIn old q != s.memberIn s.activeSet q)
  let idle := moved.filter (fun q => !s.quarterBusy q && !s.inReset q)
  let s := s.each ((List.range 64).filter (fun q => s.gated q && (s.memberIn s.activeSet q).isSome)) (fun s q => s.ungate q)
  let s := s.each idle (fun s q => s.setBits (regKey (.seq (Fin.ofNat 16 (q / 4))) Reg.SEQ_RESET_STATE) (2 ^ (q % 4)))
  s.each (s.jobs.filter (fun e => e.2.placed.any (fun q => moved.contains q))) (fun s e => s.preemptNow e.1)

/-- Registers of a mailbox endpoint. -/
def mbxReg (e off : Nat) : Nat := regKey .mbx (0x1000 * e + off)

/-- The endpoint of 0 to 31 that a function owns (R350). -/
def State.endpointOf (s : State) (f : Nat) : Option Nat :=
  (List.range 32).find? (fun e => s.rbit (mbxReg e Reg.MBX_OWNER) 6 && s.fld (mbxReg e Reg.MBX_OWNER) 5 0 == f)

/-- Firmware gives every function bound to an enabled partition an endpoint: the lowest free one (R350).
DEDUCED: log 94. -/
def State.assignEndpoints (s : State) : State :=
  s.each (List.range 16) (fun s p =>
    let x := s.part p
    if !x.enabled || (s.endpointOf x.func).isSome then s
    else
      match (List.range 31).find? (fun e => !s.rbit (mbxReg (e + 1) Reg.MBX_OWNER) 6) with
      | some e => s.wr (mbxReg (e + 1) Reg.MBX_OWNER) (BitVec.ofNat 32 (64 + x.func))
      | none => s)

/-- The last domain has reported: the swap is complete (R343). DEDUCED: log 96. -/
def State.swapDone (s : State) (us : Nat) : State :=
  let old := s.activeSet
  let s := ({ s with swap := none } : State).wr (ctlReg Reg.CTL_STATUS) (BitVec.ofNat 32 (4 + (1 - old)))
  let s := (s.bump (ctlReg Reg.CTL_TAMP_COUNT) 1).wrMax (ctlReg Reg.CTL_TAMP_MAX_US) us
  let s := s.wrFld (ctlReg Reg.CTL_CHECK) 31 31 0
  (s.resize old).assignEndpoints

/-- Before the fabric first opens, firmware sets the response limit of every router to 4 ms (R270). DEDUCED: log 79. -/
def State.beforeFabric (s : State) : State :=
  if s.plan.fabric || !s.fabricOpen (1 - s.activeSet) then s
  else
    ({ s with plan := { s.plan with fabric := true } } : State).each (List.range 1024) (fun s r => s.wr (nocReg r Reg.NOC_RESP_LIMIT) 4000)

/-- A swap of the control sets begins; one whose shadow does not pass the check is refused (R343). -/
def State.startSwap (s : State) : State :=
  let s := if s.isChecked then s else s.checkShadow
  if !s.isChecked then s.ctlFlag 0
  else ({ s.beforeFabric with swap := some s.switchedAtOnce } : State).wrFld (ctlReg Reg.CTL_STATUS) 2 1 1

/-- TAMP (R343). -/
def execTamp (s : State) : Out := s.bar0Do (ctlReg Reg.CTL_CTRL) (fun s => s.ctlCmd State.startSwap)

/-- SWITCH_REPORT (R343, R344): a domain has switched and reports; `us` is the time since the tamp. -/
def execSwitchReport (d : Fin 21) (us : Nat) (s : State) : Out :=
  match s.swap with
  | none => impossible
  | some ds =>
    if ds.contains d.val then impossible
    else
      let ds := ds ++ [d.val]
      let s := { s with swap := some ds }
      .next (if (List.range 21).all (fun i => s.switched.contains i) then s.swapDone (us % 2 ^ 32) else s)

/-- TAMP_LIMIT_EXPIRY (R347): a domain has not reported within CTL_TAMP_LIMIT. -/
def execTampLimitExpiry (s : State) : Out :=
  match s.swap with
  | none => impossible
  | some _ =>
    let late := (lowest 21 (fun i => !s.switched.contains i)).getD 0
    .next ((s.ctlFlag 3).wr (ctlReg Reg.CTL_LAGGARD) (BitVec.ofNat 32 late))

/-! ### Mailboxes (R350 to R354) -/

/-- Tell the owner of an endpoint that the doorbell bits in `fresh` are set and not masked (R350, R352): a function by its
message, a die controller for its eight bits, or Ryhal. DEDUCED: log 95. -/
def State.notify (s : State) (e : Nat) (fresh : Nat → Bool) : State :=
  if e < 32 then
    if s.rbit (mbxReg e Reg.MBX_OWNER) 6 ∧ (List.range 32).any fresh then
      s.message (s.fld (mbxReg e Reg.MBX_OWNER) 5 0) (s.fld (mbxReg e Reg.MBX_VECTOR) 10 0)
    else s
  else if e < 48 then
    s.each ((List.range 4).filter (fun k => (List.range 8).any (fun i => fresh (8 * k + i)))) (fun s k =>
      s.emit (.doorbell e (4 * (e - 32) + k)))
  else if e < 50 ∧ (List.range 32).any fresh then s.emit (.doorbell e 64)
  else s

/-- Set doorbell bits (R352): the owner is told where a bit sets that is not masked; a write without a 1 sets nothing.
DEDUCED: log 95. -/
def State.ring (s : State) (e m : Nat) : State :=
  let old := s.rdN (mbxReg e Reg.MBX_DB)
  let mask := s.rdN (mbxReg e Reg.MBX_DB_MASK)
  if m % 2 ^ 32 = 0 then s
  else ((s.setBits (mbxReg e Reg.MBX_DB) m).bump (mbxReg e Reg.MBX_DB_COUNT) 1).notify e (fun i =>
    bitOf m i && !bitOf old i && !bitOf mask i)

/-- Write the mask of an endpoint's doorbells: a bit set while masked raises its notification when it is unmasked. -/
def State.writeMask (s : State) (e m : Nat) : State :=
  let db := s.rdN (mbxReg e Reg.MBX_DB)
  let old := s.rdN (mbxReg e Reg.MBX_DB_MASK)
  (s.wr (mbxReg e Reg.MBX_DB_MASK) (BitVec.ofNat 32 m)).notify e (fun i => bitOf db i && bitOf old i && !bitOf m i)

/-- Commit a word to an inbox: stored, or dropped where a word is still there (R351). -/
def State.post (s : State) (e : Nat) (lo hi : Word) (src : Nat) : State :=
  if s.rbit (mbxReg e Reg.MBX_STATUS) 0 then
    (s.setFlag (mbxReg e Reg.MBX_STATUS) 1).bump (mbxReg e Reg.MBX_OVERRUN_COUNT) 1
  else
    let s := ((s.wr (mbxReg e Reg.MBX_IN_LO) lo).wr (mbxReg e Reg.MBX_IN_HI) hi).wr (mbxReg e Reg.MBX_IN_SRC) (BitVec.ofNat 32 src)
    (s.setFlag (mbxReg e Reg.MBX_STATUS) 0).bump (mbxReg e Reg.MBX_MSG_COUNT) 1

/-- The domain of an endpoint takes accesses: die controllers are in reset until phase 5 boots them, and in a test of their
die (R353, R360, R373). DEDUCED: log 95. -/
def State.endpointLive (s : State) (e : Nat) : Bool :=
  !(decide (32 ≤ e) && decide (e < 48)) ||
    (s.dieLive (e - 32) && decide (5 ≤ s.bootPhase) && !s.dieTesting (e - 32))

/-- A control core may write an endpoint (R350): die controllers 0 to 63, Ryhal 64. DEDUCED: log 95. -/
def coreWrites (core e : Nat) : Bool :=
  (decide (e < 32) && core == 64) || (decide (32 ≤ e) && decide (e < 48)) || (e == 49 && decide (core < 64))

/-- A control core's access to an endpoint whose domain is down is answered by its router with a status, and nothing is
delivered (R240, R353). -/
def State.mbxRefused (s : State) (e off : Nat) : State := s.emit (.regFail (.net .mbx (0x1000 * e + off)) 0x23)

/-- MBX_OUT_HI (R351, R353): a control core commits the word whose low half it has staged. A write to an endpoint that
is not its to write, or whose domain is down, delivers nothing. DEDUCED: log 95. -/
def execMbxOutHi (core : Fin 65) (e : Fin 64) (w : Word) (s : State) : Out :=
  .next (if !s.endpointLive e then s.mbxRefused e Reg.MBX_OUT_HI
    else if coreWrites core e then s.post e (s.rd (mbxReg e Reg.MBX_OUT_LO)) w core else s)

/-- A host function commits a word to endpoint 48 and sets its doorbell bit there (R353). -/
def State.sendWord (s : State) (f : Nat) (w : Word) : State :=
  (s.post 48 (s.rd (pageReg f 0xC00)) w (2 ^ 31 + f)).ring 48 (2 ^ (f % 32))

/-- MBX_SEND_HI (R353). -/
def execMbxSendHi (f : Func) (via0 : Bool) (w : Word) (s : State) : Out := s.pageDo f via0 0xC04 (fun s => s.sendWord f w)

/-- MBX_DB_SET (R352): a sender writes 1s to MBX_DB_SET: a control core, or the host through function 0 (none). -/
def execMbxDbSet (core : Option (Fin 65)) (e : Fin 64) (w : Word) (s : State) : Out :=
  match core with
  | none => s.bar0Do (mbxReg e Reg.MBX_DB_SET) (fun s => if s.endpointLive e then s.ring e w.toNat else s.logAccess 2 false (mbxReg e Reg.MBX_DB_SET))
  | some c => .next (if !s.endpointLive e then s.mbxRefused e Reg.MBX_DB_SET else if coreWrites c e then s.ring e w.toNat else s)

/-- MBX_DB_MASK_WRITE (R352, R353): the owner writes the mask: a function on its own page, the host through function 0, or
a control core. -/
def execMbxDbMaskWrite (by_ : MailboxOwner) (e : Fin 64) (w : Word) (s : State) : Out :=
  match by_ with
  | .core => .next (if s.endpointLive e then s.writeMask e w.toNat else s.mbxRefused e Reg.MBX_DB_MASK)
  | .host => s.bar0Do (mbxReg e Reg.MBX_DB_MASK) (fun s =>
      if s.endpointLive e then s.writeMask e w.toNat else s.logAccess 2 false (mbxReg e Reg.MBX_DB_MASK))
  | .function f =>
    s.pageDo f false (0x800 + Reg.MBX_DB_MASK) (fun s =>
      match s.endpointOf f with
      | some x => s.writeMask x w.toNat
      | none => s.logAccess 1 true (0x800 + Reg.MBX_DB_MASK))

/-- ENDPOINT_WITHDRAW (R350, R354): firmware withdraws the endpoint of a function bound to no enabled partition; it is free for a
function that has none. -/
def execEndpointWithdraw (e : Fin 32) (s : State) : Out :=
  let o := mbxReg e Reg.MBX_OWNER
  if e.val == 0 || !s.rbit o 6 || (s.partOfFn (s.fld o 5 0)).isSome then impossible
  else
    let s := s.wrFld o 6 6 0
    let s := if s.rbit (mbxReg e Reg.MBX_STATUS) 0 then
        (s.clrBits (mbxReg e Reg.MBX_STATUS) 1).bump (mbxReg e Reg.MBX_OVERRUN_COUNT) 1 else s
    .next ((s.wr (mbxReg e Reg.MBX_DB) 0).wr (mbxReg e Reg.MBX_DB_MASK) 0xFFFFFFFF).assignEndpoints

end Sys2Proof.Machine
end

