-- ==== Sys2Proof/Machine/Line.lean ====
section
/-! DEFINITION. From a codeword message to line symbols and back: scrambling, the Reed-Solomon code, striping, PAM4,
markers, PRBS and stuffing (R294 to R299, R305, R310). -/

namespace Sys2Proof.Machine

/-! ### Bits -/

/-- The n low bits of a number, bit 0 first, and the number of a list of bits. -/
def bitsLow (n x : Nat) : List Bool := (List.range n).map (fun i => bitOf x i)
def ofBits (bs : List Bool) : Nat := bs.foldr (fun b n => 2 * n + (if b then 1 else 0)) 0

/-- Cut a list into pieces of n. -/
def chunks {α : Type} (n : Nat) : Nat → List α → List (List α)
  | 0, _ => []
  | k + 1, xs => xs.take n :: chunks n k (xs.drop n)

/-- Scramble bits with x^58 + x^39 + 1 (R295); descrambling takes the received bits into the state. -/
def scramble (st : BitVec 58) : List Bool → List Bool × BitVec 58
  | [] => ([], st)
  | b :: bs =>
    let o := xor b (xor (st.getLsbD 38) (st.getLsbD 57))
    let r := scramble ((st <<< 1) ||| (if o then 1 else 0)) bs
    (o :: r.1, r.2)
def descramble (st : BitVec 58) : List Bool → List Bool × BitVec 58
  | [] => ([], st)
  | b :: bs =>
    let r := descramble ((st <<< 1) ||| (if b then 1 else 0)) bs
    (xor b (xor (st.getLsbD 38) (st.getLsbD 57)) :: r.1, r.2)

/-! ### RS(544,514) over GF(2^10), clause 91 (R294) -/

/-- Product in GF(2^10) with field polynomial x^10 + x^3 + 1. -/
def rsMul (a b : Nat) : Nat :=
  ((List.range 10).foldl (fun (x : Nat × Nat) i =>
    (if bitOf b i then x.1 ^^^ x.2 else x.1, if 512 ≤ x.2 then (2 * x.2) ^^^ 0x409 else 2 * x.2)) (0, a)).1

/-- Powers of the primitive element 2. -/
def rsPow (n : Nat) : Nat := (List.range n).foldl (fun x _ => rsMul x 2) 1

/-- Coefficients of the generator polynomial with roots 2^0 to 2^29, highest first, the leading 1 left out.
PRESUMED: log 82. -/
def rsGenerator : List Nat :=
  (((List.range 30).foldl (fun (g : List Nat) j =>
    let r := rsPow j
    (List.zip (g ++ [0]) (0 :: g)).map (fun x => x.1 ^^^ rsMul x.2 r)) [1])).drop 1

/-- The 30 check symbols of a message, in the order sent. PRESUMED: log 82. -/
def rsParity (msg : List Nat) : List Nat :=
  let g := rsGenerator
  msg.foldl (fun reg m =>
    let fb := m ^^^ reg.headD 0
    (List.zip (reg.drop 1 ++ [0]) g).map (fun x => x.1 ^^^ rsMul fb x.2)) (List.replicate 30 0)

/-! ### Decoding (R294): up to 15 symbol errors -/

/-- Inverse in GF(2^10). -/
def rsInv (a : Nat) : Nat := (List.range 1022).foldl (fun x _ => rsMul x a) 1

/-- A polynomial at x: coefficients highest first, and lowest first (nothing so far adds nothing). -/
def rsEval (p : List Nat) (x : Nat) : Nat :=
  p.foldl (fun a c => match a with | 0 => c | a + 1 => rsMul (a + 1) x ^^^ c) 0
def rsEvalLow (p : List Nat) (x : Nat) : Nat := rsEval p.reverse x

/-- The 30 syndromes of 544 received symbols. -/
def syndromes (cw : List Nat) : List Nat := (List.range 30).map (fun j => rsEval cw (rsPow j))

/-- Sum of polynomials, lowest first. -/
def rsAdd (a b : List Nat) : List Nat := (List.range (max a.length b.length)).map (fun i => nthN a i ^^^ nthN b i)

/-- A search for the shortest recurrence of the syndromes: its polynomial, lowest first, with the one before its last change of
length, the length, the steps since then, and the discrepancy then. -/
structure Recurrence where
  now : List Nat
  old : List Nat
  len : Nat
  gap : Nat
  disc : Nat

/-- One step of the search, at syndrome n. -/
def Recurrence.step (ss : List Nat) (r : Recurrence) (n : Nat) : Recurrence :=
  let d := (List.range (r.len + 1)).foldl (fun x i => x ^^^ rsMul (nthN r.now i) (nthN ss (n - i))) 0
  if d = 0 then { r with gap := r.gap + 1 }
  else
    let k := rsMul d (rsInv r.disc)
    let next := rsAdd r.now (List.replicate r.gap 0 ++ r.old.map (rsMul k))
    if 2 * r.len ≤ n then ⟨next, r.now, n + 1 - r.len, 1, d⟩ else { r with now := next, gap := r.gap + 1 }

/-- Correct 544 received symbols: none where no codeword lies within 15 symbol errors. PRESUMED: log 82. -/
def rsCorrect (cw : List Nat) : Option (List Nat) :=
  let ss := syndromes cw
  if ss.all (· == 0) then some cw
  else
    let r := (List.range 30).foldl (Recurrence.step ss) ⟨[1], [1], 0, 1, 1⟩
    let locator := r.now
    let value := (List.range 30).map (fun n => (List.range (n + 1)).foldl (fun x i => x ^^^ rsMul (nthN locator i) (nthN ss (n - i))) 0)
    let slope := (List.range 15).flatMap (fun i => [nthN locator (2 * i + 1), 0])
    let fixed := cw.zipIdx.map (fun c =>
      let x := rsPow (543 - c.2)
      let y := rsInv x
      if rsEvalLow locator y = 0 then c.1 ^^^ rsMul x (rsMul (rsEvalLow value y) (rsInv (rsEvalLow slope y))) else c.1)
    let wrong := ((List.zip cw fixed).filter (fun c => c.1 != c.2)).length
    if r.len ≤ 15 ∧ wrong ≤ 15 ∧ (syndromes fixed).all (· == 0) then some fixed else none

/-! ### Symbols (R294, R298) -/

/-- A pair of bits as a PAM4 level under the Gray code. -/
def gray (x : Nat) : Nat := match x with | 0 => 0 | 1 => 1 | 3 => 2 | _ => 3

/-- Bits, most significant first, as levels. -/
def levelsOf (width x : Nat) : List Nat :=
  (List.range (width / 2)).map (fun i => gray (x / 2 ^ (width - 2 - 2 * i) % 4))

/-- The levels of one lane of a codeword: RS symbols i with i mod 4 the lane, five levels each. -/
def laneLevels (cw : List Nat) (lane : Nat) : List Nat :=
  (List.range 136).flatMap (fun k => levelsOf 10 (nthN cw (4 * k + lane)))

/-- The pair of bits of a level, and the number that levels spell, most significant first. -/
def ungray (v : Nat) : Nat := match v with | 0 => 0 | 1 => 1 | 2 => 3 | _ => 2
def levelsNat (vs : List Nat) : Nat := vs.foldl (fun n v => 4 * n + ungray v) 0

/-- Insert stuff symbols: after 31 symbols at one level, the opposite level (R298). The answer is the line, the level and
run it ends with, and the stuff symbols inserted. -/
def stuff (level run : Nat) : List Nat → List Nat × Nat × Nat × Nat
  | [] => ([], level, run, 0)
  | v :: vs =>
    let run := if v = level ∧ run ≠ 0 then run + 1 else 1
    if run = 31 then
      let r := stuff (3 - v) 1 vs
      (v :: (3 - v) :: r.1, r.2.1, r.2.2.1, r.2.2.2 + 1)
    else
      let r := stuff v run vs
      (v :: r.1, r.2)

/-- Remove stuff symbols: the symbol after 31 at one level (R298). The answer is what is left, the level and run it ends with,
and the symbols removed that were not at the opposite level. -/
def destuff (level run : Nat) : List Nat → List Nat × Nat × Nat × Nat
  | [] => ([], level, run, 0)
  | v :: vs =>
    if run = 31 then
      let r := destuff v 1 vs
      (r.1, r.2.1, r.2.2.1, r.2.2.2 + (if v = 3 - level then 0 else 1))
    else
      let r := destuff v (if v = level ∧ run ≠ 0 then run + 1 else 1) vs
      (v :: r.1, r.2)

/-- The first n symbols of a line but for stuff symbols, the stuff symbol after the last among what is taken: what they are, the rest
of the line, the level and run reached, and the symbols removed that were not at the opposite level (R298). -/
def takeSyms (n level run : Nat) : List Nat → List Nat × List Nat × Nat × Nat × Nat
  | [] => ([], [], level, run, 0)
  | v :: vs =>
    if run = 31 then
      let r := takeSyms n v 1 vs
      (r.1, r.2.1, r.2.2.1, r.2.2.2.1, r.2.2.2.2 + (if v = 3 - level then 0 else 1))
    else if n = 0 then ([], v :: vs, level, run, 0)
    else
      let r := takeSyms (n - 1) v (if v = level ∧ run ≠ 0 then run + 1 else 1) vs
      (v :: r.1, r.2)

/-- The first n symbols of each lane, one of each lane in turn. -/
def interleave : Nat → List (List Nat) → List Nat
  | 0, _ => []
  | n + 1, lanes => lanes.map (·.headD 0) ++ interleave n (lanes.map (·.drop 1))

/-- The 544 symbols of a codeword from the 680 levels of each of its four lanes, in the order of the sender's lanes. -/
def unstripe (lanes : List (List Nat)) : List Nat :=
  interleave 136 (lanes.map (fun vs => (chunks 5 136 vs).map levelsNat))

/-! ### Pattern sequences (R296, R310) -/

/-- One bit of a PRBS: kind 1 is x^7 + x^6 + 1, kind 2 x^13 + x^12 + x^2 + x + 1, kind 3 x^31 + x^28 + 1.
PRESUMED: log 82. -/
def prbsBit (kind st : Nat) : Bool × Nat :=
  let b (i : Nat) : Bool := bitOf st i
  let o := match kind with
    | 1 => xor (b 6) (b 5)
    | 2 => xor (xor (b 12) (b 11)) (xor (b 1) (b 0))
    | _ => xor (b 30) (b 27)
  (o, (2 * st + (if o then 1 else 0)) % 2 ^ (match kind with | 1 => 7 | 2 => 13 | _ => 31))

/-- n levels of a PRBS, two bits each, and the state after them. -/
def prbsLevels (kind : Nat) : Nat → Nat → List Nat × Nat
  | 0, st => ([], st)
  | n + 1, st =>
    let a := prbsBit kind st
    let b := prbsBit kind a.2
    let r := prbsLevels kind n b.2
    (gray ((if a.1 then 2 else 0) + (if b.1 then 1 else 0)) :: r.1, r.2)

/-- The levels of PRBS13 that fill n line symbols, their stuff symbols among them, after a run on a level, and the state after them
(R296, R298). -/
def fillLevels : Nat → Nat → Nat → Nat → Nat → List Nat × Nat
  | 0, _, _, _, st => ([], st)
  | fuel + 1, n, level, run, st =>
    if n = 0 then ([], st)
    else
      let a := prbsLevels 2 1 st
      let v := a.1.headD 0
      let k := if v = level ∧ run ≠ 0 then run + 1 else 1
      let b := if k = 31 then fillLevels fuel (n - 2) (3 - v) 1 a.2 else fillLevels fuel (n - 1) v k a.2
      (v :: b.1, b.2)

/-- A checker on its way (R310): locked, its PRBS state, error-free symbols in a row, bits compared, bit errors. -/
structure Checker where
  lock : Bool
  st : Nat
  run : Nat
  bits : Nat
  errors : Nat
  deriving DecidableEq, Repr

/-- A checker takes a symbol: before it locks it predicts it from the bits received, then from its own sequence. PRESUMED: log 82. -/
def Checker.take (kind : Nat) (c : Checker) (v : Nat) : Checker :=
  let r := prbsLevels kind 1 c.st
  let same := r.1 == [v]
  let x := ungray v
  if c.lock then
    let d := x ^^^ ungray (r.1.headD 0)
    { c with st := r.2, bits := c.bits + 2, errors := c.errors + d / 2 + d % 2 }
  else
    let run := if same then c.run + 1 else 0
    { c with lock := decide (64 ≤ run), run := run, st := (4 * c.st + x) % 2 ^ (match kind with | 1 => 7 | 2 => 13 | _ => 31) }

/-! ### Markers and records (R297, R305) -/

/-- CRC-16/CCITT of bits, most significant first. PRESUMED: log 82. -/
def crc16 (bs : List Bool) : Nat :=
  bs.foldl (fun c b =>
    let top := xor (bitOf c 15) b
    let c := c * 2 % 65536
    if top then c ^^^ 0x1021 else c) 0xFFFF

/-- The 64 levels of a marker. -/
def markerLevels (kind lane block : Nat) : List Nat :=
  let hi := kind * 2 ^ 46 + lane * 2 ^ 44 + block % 65536 * 2 ^ 28
  levelsOf 64 0x3C5A96E10F69A5C3 ++ levelsOf 64 (hi * 2 ^ 16 + crc16 ((bitsLow 48 hi).reverse))

/-- What the levels where a marker is expected say: its sync value, CRC and kind (R297). DEDUCED: log 84. -/
def markerOf (vs : List Nat) : MarkerFind :=
  let x := levelsNat (vs.drop 32)
  if vs.length ≠ 64 ∨ levelsNat (vs.take 32) ≠ 0x3C5A96E10F69A5C3 ∨ crc16 ((bitsLow 48 (x / 2 ^ 16)).reverse) ≠ x % 2 ^ 16 then .bad
  else match x / 2 ^ 62 with | 0 => .good | 2 => .idle | _ => .bad

/-- The block count of a marker (R297). -/
def markerBlock (vs : List Nat) : Nat := bitsOf (levelsNat (vs.drop 32)) 59 44

/-- A capability record of this module (R305). -/
def recordOf (lane port id reach : Nat) (valid ack : Bool) : Nat :=
  let hi := 1 * 2 ^ 92 + 1 * 2 ^ 84 + lane * 2 ^ 82 + port * 2 ^ 78 + id * 2 ^ 58 + reach * 2 ^ 56 +
    (if valid then 2 ^ 55 else 0) + (if ack then 2 ^ 54 else 0)
  hi * 2 ^ 32 + (crc32 (natBytes 12 hi)).toNat

/-! ### Codeword messages (R299) -/

/-- The 5,140 bits of a message. -/
def messageBits (seq ack : Nat) (slots link : List Byte) : List Bool :=
  bitsLow 20 (seq * 2 ^ 10 + ack) ++ (slots ++ link).flatMap (fun b => bitsLow 8 b.toNat)

/-- The link slot: credit returns, a nak, cont and start, the idle bit, and the CRC over all before it. -/
def linkSlot (seq ack : Nat) (slots : List Byte) (credits : List Nat) (nak : Option Nat) (cont start : Nat) (idle : Bool) :
    List Byte :=
  let a := credits.flatMap (fun c => natBytes 1 c) ++ natBytes 2 (match nak with | some n => 2 ^ 15 + n | none => 0) ++
    natBytes 3 (cont * 2 ^ 19 + start) ++ natBytes 1 (if idle then 1 else 0) ++ List.replicate 6 0
  a ++ natBytes 4 (crc32 (natBytes 3 (seq * 2 ^ 10 + ack) ++ slots ++ a)).toNat

/-- A message as received. -/
structure Message where
  seq : Nat
  ack : Nat
  slots : List Byte
  link : List Byte
  good : Bool

/-- Read a message from its bits, after descrambling. -/
def messageOf (bs : List Bool) : Message :=
  let h := ofBits (bs.take 20)
  let bytes := (chunks 8 640 (bs.drop 20)).map (fun c => BitVec.ofNat 8 (ofBits c))
  let slots := bytes.take 608
  let link := bytes.drop 608
  { seq := h / 2 ^ 10, ack := h % 2 ^ 10, slots := slots, link := link
    good := (crc32 (natBytes 3 h ++ slots ++ link.take 28)).toNat == bytesNat (link.drop 28) }

end Sys2Proof.Machine
end

