-- ==== Sys2Proof/Machine/LnkOps.lean ====
section
/-! DEFINITION. Fabric ports: going down and starting bring-up, forming codewords, and taking received ones (R287, R294 to
R304). -/

namespace Sys2Proof.Machine

/-! ### Down and up (R287, R302, R304) -/

/-- An event that sets flag i of LNK_ERR_FLAGS; FAULT_COUNT takes those of bits [8:3] (R313). -/
def State.lnkFlag (s : State) (p i : Nat) : State :=
  let s := s.setFlag (lnkReg (p / 3) Reg.LNK_ERR_FLAGS) i
  if 3 ≤ i then s.bump (lnkReg (p / 3) Reg.LNK_FAULT_COUNT) 1 else s

def State.setPortState (s : State) (p st : Nat) : State := s.wrFld (lnkPort p Reg.LNK_P_STATE) 31 28 st
def State.portEnabled (s : State) (p : Nat) : Bool := s.rbit (lnkPort p Reg.LNK_P_CTRL) 0
def State.portTest (s : State) (p : Nat) : Bool := s.rbit (lnkPort p Reg.LNK_P_CTRL) 2
def State.portCable (s : State) (p : Nat) : Bool := s.rbit (lnkPort p Reg.LNK_P_STATE) 21
/-- The 156.25 MHz reference is present (R303). -/
def State.refOk (s : State) (p : Nat) : Bool := s.rbit (lnkReg (p / 3) Reg.LNK_STATUS) 12
/-- A port is in service on this module: not fused off or removed (R14, R370). -/
def State.portFitted (s : State) (p : Nat) : Bool := s.laneOk (4 * p)

/-- The state bring-up starts in: no cable, test, disabled, or acquire (R302, R304, R308, R310). A port that is not fitted carries no
signal (R14); without the reference none starts (R303). What it has received stays (R287). DEDUCED: log 85. -/
def State.portStart (s : State) (p : Nat) : State :=
  let s := s.each (List.range 4) (fun s i =>
    (s.wrFld (lnkLane (4 * p + i) Reg.LNK_L_STATE) 31 30 0).wrFld (lnkLane (4 * p + i) Reg.LNK_L_STATE) 11 0 0)
  let l := s.linkAt p
  let s := s.setLink p { LinkPort.init with lanes := l.lanes.map (fun x => { LaneState.init with inject := x.inject })
                                            kept := l.kept ++ l.arrived }
  let s := s.wrFld (lnkPort p Reg.LNK_P_STATE) 27 24 0
  s.setPortState p (if !s.portFitted p || !(s.portTest p || s.portEnabled p) then 0 else if !s.portCable p then 1
    else if s.portTest p then 7 else if s.refOk p then 2 else 0)

/-- Packets of a port that no ack covers, and those queued for it (R287). -/
def LinkPort.unsent (l : LinkPort) : List FabricPacket :=
  l.replay.flatMap (·.packets) ++ l.cur.toList ++ l.queue

/-- A packet lost with its port: a request is answered 0x6A, a response discarded, and both are counted (R287). -/
def State.losePacket (s : State) (p : Nat) (x : FabricPacket) : State :=
  let s := s.downDrop p
  let e := p / 3
  let set := s.domainSet (16 + e)
  if x.resp then s
  else if x.srcModule = s.moduleId set then
    match s.home.findSome? (fun y => match y.2 with
      | .req r t true _ =>
        let q := s.packetOf t r
        if q.srcX == x.srcX && q.srcY == x.srcY && q.srcEp == x.srcEp && q.tag == x.tag && q.gaddr == x.gaddr
        then some (y.1, r) else none
      | _ => none) with
    | some (n, r) => (s.homeAnswer n r 0x6A []).settleFences
    | none => s
  else s.respond e set x 0x6A []

/-- A port goes down (R302): its packets are lost, the physical function is told, and bring-up starts again where it can.
DEDUCED: log 85. -/
def State.portDown (s : State) (p : Nat) : State :=
  let st := s.portState p
  if 2 ≤ st ∧ st ≤ 6 then
    let xs := (s.linkAt p).unsent
    let s := (s.bump (lnkPort p Reg.LNK_P_DOWNS) 1).portStart p
    let s := s.each xs (fun s x => s.losePacket p x)
    let s := s.event 0 3 p 0
    if p = s.twinPort then s.partnerLost 2 else s
  else s.portStart p

/-- A port goes down for a cause that sets a flag. -/
def State.portFail (s : State) (p flag : Nat) : State := (s.lnkFlag p flag).portDown p

/-- Change the record of one lane of a port. -/
def State.mapLane (s : State) (l : Nat) (f : LaneState → LaneState) : State :=
  let p := l / 4
  let k := s.linkAt p
  s.setLink p { k with lanes := setNth k.lanes (l % 4) (f (k.lanes.getD (l % 4) LaneState.init)) }
def State.laneAt (s : State) (l : Nat) : LaneState := (s.linkAt (l / 4)).lanes.getD (l % 4) LaneState.init

/-! ### Sending (R294 to R300, R311) -/

/-- The header and payload of a packet in 32-byte slots (R279, R299). -/
def FabricPacket.words (p : FabricPacket) : List (List Byte) :=
  let w2 := p.srcModule * 2 ^ 44 + p.srcX * 2 ^ 38 + p.srcY * 2 ^ 32 + p.srcEp * 2 ^ 27 + p.tag * 2 ^ 17
  let w4 := p.op * 2 ^ 28 + p.cls * 2 ^ 26 + (if p.resp then 2 ^ 25 else 0) + (if p.dateline then 2 ^ 24 else 0) +
    p.hops * 2 ^ 16 + p.bytes * 2 ^ 7
  let h := natBytes 8 p.gaddr ++ natBytes 8 w2 ++ natBytes 4 w4 ++ natBytes 4 (p.atomicOp * 2 ^ 28 + p.status) ++ natBytes 8 0
  let x := h ++ p.payload
  chunks 32 p.slots (x ++ List.replicate (32 * p.slots - x.length) 0)

/-- Payload bytes that a header announces (R279, R281). -/
def payloadLen (resp : Bool) (op atomic status bytes : Nat) : Nat :=
  if resp then (if status = 0 ∧ (op = 0 ∨ op = 2) then bytes else 0)
  else if op = 1 then bytes else if op = 2 then (if atomic = 2 then 16 else bytes) else 0

/-- The packet in bytes received, once they are all there. -/
def packetIn (bs : List Byte) : Option FabricPacket :=
  if bs.length < 32 then none
  else
    let n (o k : Nat) : Nat := bytesNat ((bs.drop o).take k)
    let w2 := n 8 8
    let w4 := n 0x10 4
    let p : FabricPacket :=
      { gaddr := n 0 8, srcModule := bitsOf w2 63 44, srcX := bitsOf w2 43 38, srcY := bitsOf w2 37 32
        srcEp := bitsOf w2 31 27, tag := bitsOf w2 26 17, op := bitsOf w4 31 28, cls := bitsOf w4 27 26, resp := bitOf w4 25
        dateline := bitOf w4 24, hops := bitsOf w4 23 16, bytes := bitsOf w4 15 7, atomicOp := bitsOf (n 0x14 4) 31 28
        status := n 0x14 1, payload := [] }
    let k := payloadLen p.resp p.op p.atomicOp p.status p.bytes
    if bs.length < 32 + k then none else some { p with payload := (bs.drop 32).take k }

/-- The first packet of a queue that may start: the first of its virtual channel, with credit, and not a Ristretto packet
that waits for its token (R278, R289, R299). -/
def pickPacket (credits : List Nat) (shaped : Bool) : List FabricPacket → List Nat → Option FabricPacket
  | [], _ => none
  | x :: xs, blocked =>
    if !blocked.contains x.chan && decide (x.slots ≤ nthN credits x.chan) && !(shaped && x.cls == 0) then some x
    else pickPacket credits shaped xs (x.chan :: blocked)

/-- A codeword being filled. -/
structure Filling where
  slots : List Byte
  used : Nat
  start : Nat
  ends : List FabricPacket

/-- Fill the slots of a data codeword. -/
def fillSlots (shaped : Bool) : Nat → LinkPort → Filling → LinkPort × Filling
  | 0, l, f => (l, f)
  | fuel + 1, l, f =>
    if 19 ≤ f.used then (l, f)
    else
      match l.cur, l.left with
      | some c, w :: ws =>
        let f := { f with slots := f.slots ++ w, used := f.used + 1 }
        if ws.isEmpty then fillSlots shaped fuel { l with cur := none, left := [] } { f with ends := f.ends ++ [c] }
        else fillSlots shaped fuel { l with left := ws } f
      | _, _ =>
        match pickPacket l.credits shaped l.queue [] with
        | none => (l, f)
        | some x =>
          fillSlots shaped fuel { l with queue := l.queue.erase x, cur := some x, left := x.words
                                         credits := setNth l.credits x.chan (nthN l.credits x.chan - x.slots) }
            { f with start := f.start + 2 ^ f.used }

/-- Apply an armed injection to the levels of a lane's codeword (R311): symbols at the opposite level. -/
def injected (levels : List Nat) (n : Nat) : List Nat := levels.zipIdx.map (fun x => if x.2 < n then 3 - x.1 else x.1)

/-- The taps of a lane come from LNK_L_EQ (R306). -/
def State.takeTaps (s : State) (l : Nat) : State :=
  s.mapLane l (fun x => { x with pre := s.fld (lnkLane l Reg.LNK_L_EQ) 23 19, post := s.fld (lnkLane l Reg.LNK_L_EQ) 18 13 })

/-- Send levels on a lane, with stuffing (R298), and count the stuff symbols. -/
def State.sendLevels (s : State) (l : Nat) (levels : List Nat) (stuffing : Bool) : State :=
  let x := s.laneAt l
  let taps := (x.pre, 64 - x.pre - x.post, x.post)
  if !stuffing then s.emit (.line l taps levels)
  else
    let r := stuff x.level x.run levels
    let s := s.mapLane l (fun x => { x with level := r.2.1, run := r.2.2.1, stuffed := x.stuffed + r.2.2.2 })
    (s.bump (lnkLane l Reg.LNK_L_STUFFS) r.2.2.2).emit (.line l taps r.1)

/-- Send levels that stand outside a block's parts: their stuff symbols are not of its number s (R296). -/
def State.sendAside (s : State) (l : Nat) (levels : List Nat) : State :=
  (s.sendLevels l levels true).mapLane l (fun x => { x with stuffed := (s.laneAt l).stuffed })

/-- A block marker on every lane of a port. -/
def State.sendMarkers (s : State) (p : Nat) : State :=
  s.each (List.range 4) (fun s i => s.sendLevels (4 * p + i) (markerLevels 0 i (s.linkAt p).block) true)

/-- The fill that ends a block, its count where stuff symbols have lengthened it, and the taps of the next (R296, R306). -/
def State.endBlock (s : State) (p : Nat) : State :=
  let tooMany := (List.range 4).any (fun i => decide (5376 < (s.laneAt (4 * p + i)).stuffed))
  let s := s.each (List.range 4) (fun s i =>
    let x := s.laneAt (4 * p + i)
    let f := fillLevels 5376 (5376 - x.stuffed) x.level x.run x.fill
    let s := s.mapLane (4 * p + i) (fun x => { x with fill := f.2 })
    ((s.sendLevels (4 * p + i) f.1 true).mapLane (4 * p + i) (fun x => { x with stuffed := 0 })).takeTaps (4 * p + i))
  let l := s.linkAt p
  let s := s.setLink p { l with blockPos := 0, block := (l.block + 1) % 65536 }
  if tooMany then s.bump (lnkPort p Reg.LNK_P_STUFF_OVER) 1 else s

/-- Injection kind 3: 16 symbols of the codeword are corrupted; which, and how, is not stated. DEDUCED: log 85. -/
def State.corrupt (s : State) (cw : List Nat) : List Nat × State :=
  (cw.zipIdx.map (fun x => if x.2 < 16 then (x.1 ^^^ (1 + (Config.freeWord (s.free + x.2)).toNat % 1023)) else x.1),
   { s with free := s.free + 16 })

/-- Encode a message and send it on the four lanes of a port (R294, R311). -/
def State.sendCodeword (s : State) (p : Nat) (bits : List Bool) : State :=
  let l := s.linkAt p
  let sc := scramble l.scrTx bits
  let msg := (chunks 10 514 sc.1).map ofBits
  let s := s.setLink p { l with scrTx := sc.2, blockPos := l.blockPos + 1, ackDue := false }
  let three := l.lanes.any (fun x => match x.inject with | some (3, _) => true | _ => false)
  let c := if three then s.corrupt (msg ++ rsParity msg) else (msg ++ rsParity msg, s)
  let s := c.2.each (List.range 4) (fun s i =>
    let x := s.laneAt (4 * p + i)
    let lv := laneLevels c.1 i
    let lv := match x.inject with
      | some (1, _) => injected lv 1
      | some (2, n) => injected lv (n + 1)
      | _ => lv
    (s.mapLane (4 * p + i) (fun x => { x with inject := none })).sendLevels (4 * p + i) lv true)
  if (s.linkAt p).blockPos = 2048 then s.endBlock p else s

/-- The Ristretto packet that a codeword would take and that finds no token (R289). -/
def LinkPort.tokenless (l : LinkPort) (shaped : Bool) : Option FabricPacket :=
  if shaped && l.resend.isEmpty then pickPacket l.credits false (l.queue.filter (fun x => x.cls == 0)) [] else none

/-- A packet that finds no token waits, and is counted once (R289). DEDUCED: log 86. -/
def State.awaitToken (s : State) (p : Nat) (shaped : Bool) : State :=
  let l := s.linkAt p
  match l.tokenless shaped with
  | some x =>
    if l.waited.contains x then s
    else (s.bump (eovPort p Reg.EOV_P_RIS_SHAPED) 1).setLink p { l with waited := l.waited ++ [x] }
  | none => s

/-- Credits a codeword returns, at most 255 in each channel, and what is still owed. DEDUCED: log 84. -/
def takeOwed (owed : List Nat) : List Nat × List Nat := (owed.map (min 255), owed.map (fun n => n - min 255 n))

/-- The next codeword of a port that is up: one to send again, a new data codeword, or an idle one (R299, R300). `shaped`:
a Ristretto packet finds no token. DEDUCED: log 86. -/
def State.nextCodeword (s : State) (p : Nat) (shaped : Bool) : State :=
  let l := s.linkAt p
  let s := if l.blockPos = 0 then s.sendMarkers p else s
  let s := s.awaitToken p shaped
  let l := s.linkAt p
  let nak := if l.nak then some l.expect else none
  match l.resend with
  | n :: rest =>
    (match l.replay.find? (fun x => x.seq == n) with
    | none => s.setLink p { l with resend := rest }
    | some x =>
      (s.setLink p { l with resend := rest }).sendCodeword p
        (messageBits n l.lastGood x.slots (linkSlot n l.lastGood x.slots x.credits nak x.cont x.start false)))
  | [] =>
    let ow := takeOwed l.owed
    let f := fillSlots shaped 64 l ⟨[], 0, 0, []⟩
    if l.replay.length < 512 && decide (0 < f.2.used) then
      let slots := f.2.slots ++ List.replicate (608 - f.2.slots.length) 0
      let cont := min l.left.length 19
      let x : Sent := ⟨l.nextSeq, cont, f.2.start, slots, ow.1, f.2.ends⟩
      let sent := l.queue.filter (fun y => !f.1.queue.contains y)
      let s := s.setLink p { f.1 with owed := ow.2, waited := l.waited.filter (fun y => f.1.queue.contains y), nextSeq := (l.nextSeq + 1) % 1024, replay := l.replay ++ [x] }
      let s := s.each sent (fun s y =>
        (s.bump64 (eovPort p Reg.EOV_P_TX_BYTES) (32 + y.payload.length)).bump64 (eovPort p Reg.EOV_P_TX_PKTS) 1)
      s.sendCodeword p (messageBits x.seq l.lastGood slots (linkSlot x.seq l.lastGood slots ow.1 nak cont x.start false))
    else
      let slots := List.replicate 608 (0 : Byte)
      (s.setLink p { l with owed := ow.2, idleCredits := ow.1 }).sendCodeword p
        (messageBits 0 l.lastGood slots (linkSlot 0 l.lastGood slots ow.1 nak 0 0 true))

/-! ### Retries (R300) -/

/-- A retry: the codewords of a list are sent again; beyond the limit the port goes down. DEDUCED: log 84, 86. -/
def State.retry (s : State) (p : Nat) (seqs : List Nat) : State :=
  let l := s.linkAt p
  let s := (s.bump (lnkPort p Reg.LNK_P_RETRIES) 1).lnkFlag p 0
  let ns := Config.elapsed s.free % 2 ^ 32
  let s := ({ s with free := s.free + 1 } : State).wrMax (lnkPort p Reg.LNK_P_RETRY_MAX_NS) ns
  if s.fld (lnkPort p Reg.LNK_P_RETRY_LIMIT) 4 0 ≤ l.tries + 1 then s.portFail p 4
  else s.setLink p { l with resend := seqs, tries := l.tries + 1 }

/-- Drop codewords from the replay buffer up to the one an ack names. -/
def ackTo (rs : List Sent) (a : Nat) : List Sent :=
  if rs.any (fun x => x.seq == a) then (rs.dropWhile (fun x => x.seq != a)).drop 1 else rs

/-- Take the acks, the nak and the credits of a good codeword. A nak of a codeword that is not in the replay buffer tells of an idle
codeword that failed: the credits of the last one are owed again (R300, R301). DEDUCED: log 84. -/
def State.takeLink (s : State) (p : Nat) (m : Message) : State :=
  let l := s.linkAt p
  let rs := ackTo l.replay m.ack
  let w := bytesNat ((m.link.drop 16).take 2)
  let nak := bitOf w 15
  let n := w % 1024
  let rs := if nak then ackTo rs ((n + 1023) % 1024) else rs
  let credits := (List.range 16).map (fun c => nthN l.credits c + (m.link.getD c 0).toNat)
  let moved := rs.length < l.replay.length
  let s := s.setLink p { l with replay := rs, resend := l.resend.filter (fun x => rs.any (fun y => y.seq == x))
                                tries := if moved then 0 else l.tries, credits := credits
                                idleCredits := List.replicate 16 0
                                owed := if nak ∧ !rs.any (fun x => x.seq == n) then
                                    (List.range 16).map (fun c => nthN l.owed c + nthN l.idleCredits c) else l.owed }
  let again := (rs.dropWhile (fun x => x.seq != n)).map (·.seq)
  if nak && !again.isEmpty && (s.linkAt p).resend.isEmpty then s.retry p again else s

/-- Put the slots of an accepted data codeword together into packets (R299). -/
def takeSlots (cont start : Nat) : List (Nat × List Byte) → List Byte → List Byte × List FabricPacket
  | [], part => (part, [])
  | (n, w) :: ws, part =>
    let part := if bitOf start n then w else if n < cont ∨ part ≠ [] then part ++ w else []
    match (if part = [] then none else packetIn part) with
    | some x =>
      let r := takeSlots cont start ws []
      (r.1, x :: r.2)
    | none => takeSlots cont start ws part

end Sys2Proof.Machine
end

