-- ==== Sys2Proof/Machine/PowerOps.lean ====
section
/-! DEFINITION. The module going down, field fuses, and the levels and events of power and heat (R16, R17, R363, R369,
R410 to R421). -/

namespace Sys2Proof.Machine

def State.setBoard (s : State) (b : Pins) : State := { s with board := b }

/-! ### Going down (R7, R16, R17, R363) -/

/-- Registers that run through PERST#: the calendar time and its status (R396). DESIGN CHOICE: log 14. -/
def outlives (e : Nat × Word) : Bool :=
  (decide (rtcReg 0 ≤ e.1) && decide (e.1 < rtcReg Reg.RTC_CAP_MV))

/-- Everything but fuses, non-volatile storage, the calendar clock, pins and what the sender still holds is lost. The link
mode that was stored comes into force (R315). -/
def State.cold (s : State) : State :=
  let cables := (List.range 12).filter (fun p => s.portCable p)
  let t : State := { State.reset with regs := s.regs.filter outlives, nv := s.nv, board := s.board, pending := s.pending
                                      out := s.out, free := s.free }
  let t := t.each cables (fun t p => t.wrFld (lnkPort p Reg.LNK_P_STATE) 21 21 1)
  if s.nv.bifurcate then
    (t.wrFld (hifReg Reg.HIF_STATUS) 28 28 1).wrFld (hifReg Reg.HIF_LINK_MODE) 0 0 1
  else t

/-- The module stops, unless it is held already. -/
def State.stop (s : State) : State := if s.board.held then s else s.cold

/-- FAULT# goes low and the cause is recorded in the Ryhal fault log (R16); the next start reports the first that stands.
DEDUCED: log 98. -/
def State.logShutdown (s : State) (code : Nat) : State :=
  { s with nv := { s.nv with log := s.nv.log ++ [code], shut := if s.nv.shut = 0 then code else s.nv.shut }
           board := { s.board with fault := true } }

/-- Turn every rail but the calendar clock's off, PWRGD and FAULT# low, the cause in the fault log (R16, R417).
DEDUCED: log 98. -/
def State.shutdown (s : State) (cause src : Nat) : State :=
  let s := s.stop
  let s := ({ s with nv := { s.nv with shut := 0 } } : State).logShutdown (cause + 16 * src)
  s.setBoard { s.board with rails := false, pwrgd := false, fault := true, held := true, latched := decide (3 ≤ cause) }

/-- Units whose count has reached 3 and that are not in the field bank (R368, R369). -/
def State.fuseDue (s : State) : List Nat :=
  if s.isFinal then (s.nv.counts.filter (fun e => e.2 == 3 && !s.inField e.1)).map (·.1) else []

/-- An entry that reads as spoiled takes the next position (R369). -/
def State.spoilField (s : State) : State := { s with nv := { s.nv with field := s.nv.field ++ [0xFFFFFFFF] } }

/-- What was being written when the module went down: a field entry (R369), an owner position (R391). -/
def State.canCut (s : State) : Cut → Bool
  | .clean => true
  | .fieldFuse => !s.fuseDue.isEmpty && decide (s.nv.field.length < 512)
  | .owner _ => (match s.sec.service with | some v => v.op == 0x23 && v.status == 0 | none => false) &&
      decide (s.secStore.owners.length < 8)
/-- A hash is burned into the next owner position; check bits that do not verify differ from what the hash calls for in a way
that is not stated (R391). DEDUCED: log 106. -/
def State.burnOwner (s : State) (hash : List Byte) (good : Bool) : State :=
  let check : BitVec 16 := if good then 0 else BitVec.ofNat 16 (1 + (Config.freeWord s.free).toNat % 65535)
  let s := if good then s else { s with free := s.free + 1 }
  s.setStore { s.secStore with owners := s.secStore.owners ++ [OwnerPos.mk hash check false] }

def State.cutShort (s : State) : Cut → State
  | .clean => s
  | .fieldFuse => s.spoilField
  | .owner good =>
    let req := s.sec.service.map (·.req)
    let s := s.burnOwner ((req.getD []).take 64) good
    if good then s.setStore { s.secStore with transfer := req } else s

/-! ### Power and heat (R410 to R421) -/

def pwrReg (off : Nat) : Nat := regKey .pwr off
def pwrDie (d off : Nat) : Nat := pwrReg (off + 0x20 * d)

/-- An event that sets a flag of PWR_ERR_FLAGS (R423). -/
def State.pwrFlag (s : State) (i : Nat) : State := (s.setFlag (pwrReg Reg.PWR_ERR_FLAGS) i).bump (pwrReg Reg.PWR_FAULT_COUNT) 1

/-- A power event (R421). -/
def State.pwrEvent (s : State) (kind src value : Nat) : State :=
  s.event 0 9 (kind * 2 ^ 28 + src * 2 ^ 23 + value % 2 ^ 16) 0

def State.heatAt (s : State) (src : Nat) : Heat := tget (fun _ => Heat.init) s.heat src
def State.setHeat (s : State) (src : Nat) (h : Heat) : State := { s with heat := tput s.heat src h }

/-- The hottest sensor of a source. -/
def Heat.hottest (h : Heat) : Nat := h.temps.foldl max 0

/-- A die's levels. -/
def State.powerLevel (s : State) (d : Nat) : Nat := s.fld (pwrDie d Reg.PWR_D_STATUS) 26 23
def State.thermalLevel (s : State) (d : Nat) : Nat := s.fld (pwrDie d Reg.PWR_D_STATUS) 22 18
def State.floorLevel (s : State) (d : Nat) : Nat := s.fld (pwrDie d Reg.PWR_D_FLOOR) 3 0

/-- The throttle level of a die follows its three inputs (R411); PWR_STATUS says whether some die is slowed by heat. -/
def State.levels (s : State) (d : Nat) : State :=
  let s := s.wrFld (pwrDie d Reg.PWR_D_STATUS) 31 27 (max (max (s.powerLevel d) (s.thermalLevel d)) (s.floorLevel d))
  s.wrFld (pwrReg Reg.PWR_STATUS) 30 30 (if (List.range 16).any (fun i => decide (0 < s.thermalLevel i)) then 1 else 0)

def State.setPowerLevel (s : State) (d l : Nat) : State := (s.wrFld (pwrDie d Reg.PWR_D_STATUS) 26 23 l).levels d
def State.setThermalLevel (s : State) (d l : Nat) : State := (s.wrFld (pwrDie d Reg.PWR_D_STATUS) 22 18 l).levels d

/-- Quarters of a die that are gated. -/
def State.dieGated (s : State) (d : Nat) : Bool := (List.range 4).any (fun k => s.gated (4 * d + k))

/-- The causes of a die's telemetry record (R420). DEDUCED: log 111. -/
def State.dieCauses (s : State) (d : Nat) : Nat :=
  (if 0 < s.powerLevel d then 1 else 0) + (if 0 < s.thermalLevel d then 2 else 0) +
  (if (s.heatAt d).critical then 4 else 0) + (if 0 < s.floorLevel d then 8 else 0) +
  (if (s.heatAt d).unmet then 16 else 0) + (if s.dieGated d then 32 else 0)

/-! ### Caps (R413, R414) -/

/-- module_cap_w and die_cap_w of a set as they are used. -/
def State.moduleCap (s : State) (set : Nat) : Nat :=
  let w := s.fld (setKey set 0x100) 15 0
  if w = 0 then (variantOf s.variant).watts else w
def State.dieCap (s : State) (set d : Nat) : Nat := min 200 (max 20 (s.fld (setKey set (0x104 + 4 * d)) 15 0))

/-- A ratio in lowest terms. -/
def ratio (n d : Nat) : Nat × Nat := (n / Nat.gcd n d, d / Nat.gcd n d)

/-- One ratio is at most another. -/
def ratioLe (a b : Nat × Nat) : Bool := decide (a.1 * b.2 ≤ b.1 * a.2)
def ratioMin (a b : Nat × Nat) : Nat × Nat := if ratioLe a b then a else b
def ratioMax (a b : Nat × Nat) : Nat × Nat := if ratioLe a b then b else a

/-- The next scale for a module power in 0.1 W (R414): at most 1, at least one half, and at most 0.05 up.
DEDUCED: log 110. -/
def nextScale (now : Nat × Nat) (cap p : Nat) : Nat × Nat :=
  let raw := if p = 0 then (1, 1) else ratio (now.1 * cap * 10) (now.2 * p)
  let up := ratio (now.1 * 20 + now.2) (now.2 * 20)
  ratioMax (1, 2) (ratioMin (1, 1) (ratioMin raw up))

/-- c_d in 0.1 W, as a ratio. DEDUCED: log 110. -/
def State.dieLimit (s : State) (d : Nat) : Nat × Nat := ratio (s.scale.1 * s.dieCap (s.domainSet d) d * 10) s.scale.2

/-- PWR_D_CAP shows c_d; PWR_STATUS shows s, whose full value does not fit its field. -/
def State.showCap (s : State) (d : Nat) : State :=
  s.wr (pwrDie d Reg.PWR_D_CAP) (BitVec.ofNat 32 ((s.dieLimit d).1 / (s.dieLimit d).2 % 65536))
/-- DEDUCED: log 110. -/
def State.showScale (s : State) : State :=
  let full := s.scale.1 == s.scale.2
  let s := s.wrFld (pwrReg Reg.PWR_STATUS) 31 31 (if full then 0 else 1)
  s.wrFld (pwrReg Reg.PWR_STATUS) 15 0 (if full then Config.fullScale.toNat else s.scale.1 * 65536 / s.scale.2)

end Sys2Proof.Machine
end

