-- ==== Sys2Proof/Machine/Boot.lean ====
section
/-! DEFINITION. Bring-up, field fuses and commanded tests (R360 to R377). -/

namespace Sys2Proof.Machine

def tstReg (off : Nat) : Nat := regKey .tst off
def fplReg (off : Nat) : Nat := regKey .fpl off

/-! ### Phase 1: management (R360, R365, R381, R384, R391) -/

/-- The units that fuses mark bad: the factory map, then field entries; empty, reserved and spoiled entries name none
(R365, R367). -/
def Stored.fused (v : Stored) : List Defect :=
  let names (u : Nat) : Bool := decide (1 ≤ u / 2 ^ 28) && decide (u / 2 ^ 28 ≤ 10)
  ((v.factory.filter names).map (fun u => Defect.mk u 0)) ++
  ((v.field.filter (fun u => names u && !v.factory.contains u)).map (fun u => Defect.mk u 1))

/-- Read the fuses: the defects of the boot, channels fused off or bad, routers in bypass or dead (R233, R261, R365).
DEDUCED: log 100. -/
def State.readFuses (s : State) : State :=
  let ds := s.nv.fused
  let s := { s with plan := { s.plan with defects := ds } }
  let s := if s.nv.field.contains 0xFFFFFFFF then s.setFlag (fplReg Reg.FPL_ERR_FLAGS) 0 else s
  s.each ds (fun s d =>
    let i := d.unit / 2 ^ 7 % 2 ^ 21
    match d.unit / 2 ^ 28 with
    | 4 => { s with plan := { s.plan with routers := tput s.plan.routers i (max 1 (s.routerMode i)) } }
    | 5 => { s with plan := { s.plan with routers := tput s.plan.routers i 2 } }
    | 8 => s.setChanState i d.source
    | _ => s)

/-- The set of a firmware bank verifies: each of its images by the rules of R384. DEDUCED: log 101. -/
def State.bankGood (s : State) (b : Nat) : Bool × State :=
  (List.range 3).foldl (fun r t =>
    let v := r.2.verifyImage t (r.2.secStore.image b t)
    (r.1 && v.1 == 0, v.2)) (true, s)

/-- The calendar clock as the start finds it (R21, R396). DESIGN CHOICE: log 14. DEDUCED: log 104. -/
def State.startClock (s : State) : State :=
  let k := rtcReg Reg.RTC_STATUS
  let s := s.wrFld k 29 29 (if s.rbit k 30 then 0 else 1)
  let s := s.wrFld k 30 30 1
  if s.rbit k 31 then s else s.setFlag (rtcReg Reg.RTC_ERR_FLAGS) 0

/-- The shutdown that the fault log holds is reported (R418). -/
def State.reportShutdown (s : State) : State :=
  if s.nv.shut = 0 then s
  else (s.wr (pwrReg Reg.PWR_SHUTDOWN_CAUSE) (BitVec.ofNat 32 s.nv.shut)).pwrFlag 6

/-- A sealed item as storage gives it back at start: opened, or, where it fails its tag, absent and flagged (R383).
DEDUCED: log 101. -/
def State.unsealed (s : State) (e : Sealed × List Byte) : State :=
  let v := openSealed e.2
  let s := s.setStore (s.secStore.found e.1 v)
  if v.isSome then s
  else match e.1 with
    | .ock | .uak | .signer _ => s.secFlag 1
    | .counters => s.secFlag 4
    | .image _ _ => s

/-- A test of the security module fails: the error state (R381). -/
def State.secError (s : State) (flag : Nat) : State := (s.secFlag flag).setSecState 2

/-- The signatures a test leaves, by block number (R377). -/
def State.putSigs (s : State) (sigs : List (Nat × BitVec 64)) : State :=
  s.each sigs (fun s x => s.wr64 (tstReg (Reg.TST_MISR + 8 * (x.1 % 0x4800))) x.2.toNat)

/-- A phase ends: its number and its time (R360). -/
def State.phaseEnds (s : State) (n us : Nat) : State :=
  (s.wrFld (tstReg Reg.TST_BOOT_PHASE) 2 0 n).wr (tstReg (0x20 + 4 * n)) (BitVec.ofNat 32 us)

/-- Phase 1 ends, or bring-up stops where a test or the firmware of both banks fails. DEDUCED: log 101, 102. -/
def State.phase1 (s : State) (f : PhaseFind) : State :=
  let halt (s : State) : State := { s with plan := { s.plan with stopped := true } }
  let s := (s.startClock.readFuses).reportShutdown
  let bad (s : State) : State := s.secError (if f.selfTest = 2 then 6 else 7)
  -- a scrapped module stays so; the storage key is out of its reach, and with it every firmware image
  if s.secStore.killed then halt ((if f.selfTest ≠ 0 then bad s else s).setSecState 4)
  else if f.selfTest ≠ 0 then halt (bad s)
  else
    let s := s.each f.seals State.unsealed
    let bank := s.secStore.bank
    let g := s.bankGood bank
    let h := if g.1 then g else (g.2.secFlag 8).bankGood (1 - bank)
    let s := h.2
    if !h.1 then halt (s.secError 7)
    else
      let used := if g.1 then bank else 1 - bank
      let s := s.wrFld (secReg Reg.SEC_STATUS) 12 12 used
      let s := (s.extend 0 0 (sha512 (s.secStore.fwHeader used 0)) false)
      let s := match s.secStore.transfer with | some r => s.finishTransfer r | none => s
      (s.setSecState 1).phaseEnds 1 f.us

/-! ### Phases 2 to 4 (R233, R364, R366) -/

/-- A unit fails its start-up test, unless it lies behind such a failure (R366). -/
def State.bootFail (s : State) (u : Nat) : State := if s.behindFailure u then s else s.unitFail u

/-- The kinds of unit that a phase tests. -/
def phaseTests (n u : Nat) : Bool :=
  match n, u / 2 ^ 28 with
  | 3, 6 => true
  | 4, 7 => true
  | 5, 1 => true | 5, 2 => true | 5, 3 => true | 5, 9 => true | 5, 10 => true
  | _, _ => false

/-- Tests of a phase. -/
def State.phaseUnits (s : State) (n : Nat) (f : PhaseFind) : State :=
  (s.putSigs f.sigs).each (f.units.filter (phaseTests n)) (fun s u => s.bootFail u)

/-- Phase 2 ends: dies that did not answer, routers, references, rail voltages (R233, R360, R364, R412).
DEDUCED: log 99. -/
def State.phase2 (s : State) (f : PhaseFind) : State :=
  let s := { s with plan := { s.plan with unreach := f.unreach.filter (fun d => decide (d < 20)) } }
  let s := s.each ((List.range 64).filter (fun c => !s.edgeReach (c / 16))) (fun s c =>
    if 2 ≤ s.chanState c then s.setChanState c 1 else s)
  let s := s.each f.bypass (fun s r =>
    let s := s.bootFail (unitEntry 4 r)
    { s with plan := { s.plan with routers := tput s.plan.routers r.val (max 1 (s.routerMode r)) } })
  let s := s.each f.dead (fun s r =>
    let s := s.bootFail (unitEntry 5 r)
    { s with plan := { s.plan with routers := tput s.plan.routers r.val 2 } })
  let s := s.each ((List.range 4).filter (fun e => s.edgeReach e && s.board.fabricRef)) (fun s e =>
    s.wrFld (lnkReg e Reg.LNK_STATUS) 12 12 1)
  let s := s.each (List.range 16) (fun s d => s.wrFld (pwrDie d Reg.PWR_D_STATUS) 7 0 (65 + (f.vtile.getD d 0).val))
  let s := if s.edgeReach 0 then s
    else ({ s with board := { s.board with fault := true } } : State).note 5
  -- phase 3 begins: firmware writes the stored delays of the pending channels (R262)
  let s := s.each ((List.range 64).filter (fun c => s.chanState c == 2)) State.loadDelays
  (s.putSigs f.sigs).phaseEnds 2 f.us

/-- Phase 3 ends: rows that fail, and slices whose test the 17 ms cut leaves unfinished (R361). DEDUCED: log 100. -/
def State.phase3 (s : State) (f : PhaseFind) (cut : Bool) : State :=
  let s := s.phaseUnits 3 f
  let s := if cut then { s with plan := { s.plan with slices := f.slices.map (·.val) } } else s
  let s := if cut ∧ (f.chansLate ∨ f.slices ≠ []) then s.wrFld (tstReg Reg.TST_BOOT_PHASE) 18 18 1 else s
  s.phaseEnds 3 f.us

/-- Phase 4 ends: lanes are tested, every port in service is enabled, and bring-up starts where a cable is (R304, R366).
DEDUCED: log 100. -/
def State.phase4 (s : State) (f : PhaseFind) : State :=
  let s := s.phaseUnits 4 f
  let s := s.each ((List.range 12).filter (fun p => s.portFitted p)) (fun s p =>
    (s.wrFld (lnkPort p Reg.LNK_P_CTRL) 0 0 1).portStart p)
  s.phaseEnds 4 f.us

/-! ### Phase 5 and the ready point (R319, R360, R363, R371, R385, R386) -/

/-- The first eight bytes of a valid reservation entry (R237): initiator, and the corners of its target rectangle; one
unit of rate and eight flits of burst. -/
def reservationWord (x y ep x0 y0 x1 y1 : Nat) : Nat :=
  x * 2 ^ 26 + y * 2 ^ 20 + ep * 2 ^ 15 + 2 ^ 14 + 1 * 2 ^ 10 + 8 * 2 ^ 4 +
    (x0 * 2 ^ 26 + y0 * 2 ^ 20 + x1 * 2 ^ 14 + y1 * 2 ^ 8) * 2 ^ 32

/-- The entries that firmware installs (R237): Ryhal at each of its stations and the ring engine at each of its stations reach
the row or column of the mesh behind it, a die controller its quarter. DESIGN CHOICE: log 126. -/
def State.firmwareReservations (s : State) : List Nat :=
  ((List.range 32).map (fun y => reservationWord 63 y 12 0 y 31 y)) ++
  ((List.range 32).map (fun x => reservationWord x 32 4 x 0 x 31)) ++
  ((List.range 64).filterMap (fun q => (s.firstRouted (baysOfQuarter q)).map (fun b =>
    let r := routerOfBay b
    let x := q / 4 % 4 * 8 + q % 2 * 4
    let y := q / 16 * 8 + q % 4 / 2 * 4
    reservationWord (rx r) (ry r) 13 x y (x + 3) (y + 3))))

/-- The initial active set: no partition, fabric closed, caps at the variant's power and 150 W for each die (R360, R413).
DEDUCED: log 97. DESIGN CHOICE: log 126. -/
def State.initialSet (s : State) : State :=
  let s := s.wr (setKey s.activeSet 0x100) (BitVec.ofNat 32 (variantOf s.variant).watts)
  let s := s.each (List.range 16) (fun s d => s.wr (setKey s.activeSet (0x104 + 4 * d)) 150)
  s.each s.firmwareReservations.zipIdx (fun s x => s.wr64 (setKey s.activeSet (0x10000 + 16 * x.2)) x.1)

/-- The ready point. DEDUCED: log 94. -/
def State.ready (s : State) (f : PhaseFind) : State :=
  let x := s.secStore
  let bank := s.fld (secReg Reg.SEC_STATUS) 12 12
  let hdrs := (List.range 3).map (fun t => x.fwHeader bank t)
  let s := s.extend 3 3 (sha512 (Config.ownership x.lifecycle x.owner x.vendorRevoked ((List.range 16).map x.counter))) false
  let s := s.initialSet
  let s := s.wr (mbxReg 0 Reg.MBX_OWNER) 0x40
  let s := s.wrFld (hifReg Reg.HIF_STATUS) 31 31 1
  let s := s.wrFld (hifReg Reg.HIF_STATUS) 29 29 (if s.tierOpen then 0 else 1)
  let s := s.wr (hifReg Reg.HIF_READY_US) (BitVec.ofNat 32 f.us)
  let s := (s.writeCounts.showPlan.evalDegraded).checkOverflow
  let s := s.wrFld (fplReg Reg.FPL_STATUS) 31 31 1
  let s := s.each s.plan.noted State.note
  let s := s.each f.drs (fun s l => if s.linkUp l then s.emit (.readiness l) else s)
  let s := s.setStore (hdrs.foldl (fun v h => v.raise (bitsOf (hdrNat h 4 4) 19 12) (hdrNat h 8 4)) s.secStore)
  let s := { s with nv := { s.nv with shut := 0 } }
  let s := s.each (List.range 16) (fun s d => s.showCap d)
  s.showScale.tierCheck

/-- Phase 5 ends: firmware measured and multicast, tests done, the floor plan built; the module is ready.
DEDUCED: log 102. -/
def State.phase5 (s : State) (f : PhaseFind) : State :=
  let bank := s.fld (secReg Reg.SEC_STATUS) 12 12
  let s := s.extend 1 1 (sha512 (s.secStore.fwHeader bank 1)) false
  let s := s.extend 2 2 (sha512 (s.secStore.fwHeader bank 2)) false
  let s := s.each (List.range 16) (fun s d => s.bump (regKey (.seq (Fin.ofNat 16 d)) Reg.SEQ_MCAST_RETRY) (nthN f.retries d))
  let s := s.each f.lost (fun s b => s.bootFail (unitEntry 3 b))
  let s := s.firmLoad ((List.range 1024).filter s.bayOk) ((s.secStore.image bank 2).drop fwPrefix)
  ((s.phaseUnits 5 f).phaseEnds 5 f.us).ready f

/-- Bring-up goes on: out of reset, not stopped, not in recovery. -/
def State.bringing (s : State) : Bool := !s.board.held && !s.plan.stopped && !s.inRecovery && decide (s.bootPhase < 5)

/-- BRINGUP_PHASE_END (R360): the phase under way ends with what it found. -/
def execBringupPhaseEnd (f : PhaseFind) (s : State) : Out :=
  if !s.bringing then impossible
  else .next (match s.bootPhase with
    | 0 => s.phase1 f
    | 1 => s.phase2 f
    | 2 => s.phase3 f false
    | 3 => s.phase4 f
    | _ => s.phase5 f)

/-- PHASE_DEADLINE (R361): a phase has not ended by its deadline: it is late; at 17 ms phase 3 ends all the same. -/
def execPhaseDeadline (n : Fin 5) (f : PhaseFind) (s : State) : Out :=
  if s.board.held || s.inRecovery || decide (n.val < s.bootPhase) then impossible
  else if n.val = 2 ∧ s.bringing ∧ s.bootPhase = 2 then .next (s.phase3 f true)
  else .next (s.wrFld (tstReg Reg.TST_BOOT_PHASE) (16 + n) (16 + n) 1)

/-- RECOVERY_POINT (R319, R361): 900 ms have passed. -/
def execRecoveryPoint (s : State) : Out :=
  if s.board.held || s.isReady then impossible
  else .next ((s.wrFld (hifReg Reg.HIF_STATUS) 30 30 1).wrFld (tstReg Reg.TST_BOOT_PHASE) 31 31 1)

/-- Training of every pending channel starts, once (R362). -/
def State.startTraining (s : State) : State :=
  if s.plan.trained then s
  else
    let s := { s with plan := { s.plan with trained := true } }
    s.each ((List.range 64).filter (fun c => s.chanState c == 2)) (fun s c => s.setChanState c 3)

/-- TRAINING_START_POINT (R362): 60 ms have passed. -/
def execTrainingStartPoint (s : State) : Out :=
  if s.board.held then impossible else .next s.startTraining

/-- PCIE_LINK_UP (R315, R319, R362): a link reaches L0, from phase 4 on and only with the north edge die; the first one
starts training of pending channels. -/
def execPcieLinkUp (l : Fin 2) (speed : Fin 8) (width : Fin 5) (s : State) : Out :=
  if s.linkUp l || speed.val == 0 || (l.val == 1 && !s.rbit (hifReg Reg.HIF_STATUS) 28) ||
      (s.rbit (hifReg Reg.HIF_STATUS) 28 && decide (3 < width.val)) || s.board.held || !s.edgeReach 0 ||
      !(decide (3 ≤ s.bootPhase) || s.inRecovery) then impossible
  else .next (s.wrFld (hifReg Reg.HIF_LINK_STATUS) (8 * l + 7) (8 * l) (128 + speed * 16 + width)).startTraining

/-! ### Field fuses (R368, R369) -/

/-- FIELD_FUSE_WRITE (R369): the entry of a unit at count 3 is written to the next position; `ok`: it reads back. -/
def execFieldFuseWrite (u : Nat) (ok : Bool) (s : State) : Out :=
  if !s.fuseDue.contains u then impossible
  else if 512 ≤ s.nv.field.length then .next (s.setFlag (fplReg Reg.FPL_ERR_FLAGS) 1)
  else if ok then
    .next { s with nv := { s.nv with field := s.nv.field ++ [u], counts := terase s.nv.counts u } }
  else .next (s.spoilField.setFlag (fplReg Reg.FPL_ERR_FLAGS) 2)

/-! ### Commanded tests (R373, R374, R377) -/

/-- The quarters a test covers. -/
def testQuarters (die : Bool) (target : Nat) : List Nat := if die then (List.range 4).map (4 * target + ·) else [target]

/-- Why a test is refused; 0 where it is not. DEDUCED: log 103. -/
def State.testCause (s : State) (op : Nat) (die : Bool) (target : Nat) : Nat :=
  let qs := testQuarters die target
  if qs.any (fun q => (s.memberIn 0 q).isSome || (s.memberIn 1 q).isSome) then 1
  else if die && target < 16 && s.dieState target != 0 then 2
  else if s.test.isSome then 3
  else if (if die then !(decide (target < 16) && s.dieReach target) else !s.quarterOk target) then 4
  else if op = 0 ∨ 3 < op then 5
  else 0

/-- A write of TST_CMD (R373). -/
def State.testCmd (s : State) (op : Nat) (die : Bool) (target : Nat) : State :=
  let k := tstReg Reg.TST_STATUS
  let c := s.testCause op die target
  let s := s.wrFld k 5 0 target
  if c = 0 then
    let s := ({ s with test := some (TestRun.mk op die target) } : State).wrFld k 31 25 0x40
    s.each ((testQuarters die target).flatMap baysOfQuarter) (fun s b => s.each (List.range 12) (fun s i => s.absorbAll b i))
  else (s.wrFld k 29 25 (16 + c)).setFlag (tstReg Reg.TST_ERR_FLAGS) 0

/-- A test is started by function 0 through BAR0, or by firmware. -/
def State.testStart (s : State) (host : Bool) (op : Nat) (die : Bool) (target : Nat) : Out :=
  if host then s.bar0Do (tstReg Reg.TST_CMD) (fun s => s.testCmd op die target) else .next (s.testCmd op die target)

/-- LOGIC_BIST, MEMORY_BIST, BOTH_BIST (R373). -/
def execLogicBist (host die : Bool) (target : Fin 64) (s : State) : Out := s.testStart host 1 die target
def execMemoryBist (host die : Bool) (target : Fin 64) (s : State) : Out := s.testStart host 2 die target
def execBothBist (host die : Bool) (target : Fin 64) (s : State) : Out := s.testStart host 3 die target

/-- Block numbers of a test: (address − 0x1_0000) ÷ 8; bay blocks of the quarters covered, and with the die scope the die
blocks 0–9. -/
def bayBlock (q j b : Nat) : Nat := 0x480 * (q / 4) + 0x100 * (q % 4) + 0x10 * j + b
def dieBlock (d b : Nat) : Nat := 0x480 * d + 0x400 + b

/-- The units a test judges, each with its blocks and whether the block is of memory BIST (R377). DEDUCED: log 103. -/
def State.testUnits (s : State) (t : TestRun) : List (Nat × List (Nat × Bool)) :=
  let lo (n : Nat) : List (Nat × Bool) := if t.op % 2 = 1 then [(n, false)] else []
  let me (n : Nat) : List (Nat × Bool) := if 2 ≤ t.op then [(n, true)] else []
  let bay (q j b : Nat) : List (Nat × List (Nat × Bool)) :=
    ((List.range 8).map (fun i => (unitEntry 1 (8 * b + i), lo (bayBlock q j i) ++ me (bayBlock q j i)))) ++
    [(unitEntry 2 b, lo (bayBlock q j 8) ++ me (bayBlock q j 8) ++ me (bayBlock q j 9)),
     (unitEntry 3 b, lo (bayBlock q j 9) ++ lo (bayBlock q j 10) ++ me (bayBlock q j 10) ++ lo (bayBlock q j 11) ++
       me (bayBlock q j 11) ++ lo (bayBlock q j 13)),
     (unitEntry 4 (routerOfBay b), lo (bayBlock q j 12))]
  let bays := (testQuarters t.die t.target).flatMap (fun q =>
    ((baysOfQuarter q).zipIdx.filter (fun x => s.routerMode (routerOfBay x.1) == 0)).flatMap (fun x => bay q x.2 x.1))
  let dies := if t.die then
      ((List.range 4).map (fun k => (unitEntry 9 (4 * t.target + k), [(dieBlock t.target k, t.op == 2)]))) ++
      [(unitEntry 10 t.target, [(dieBlock t.target 4, t.op == 2)])]
    else []
  (bays ++ dies).filter (fun u => !u.2.isEmpty)

/-- A unit that was bad only by test in this boot returns to good (R374). -/
def State.unitGood (s : State) (u : Nat) : State :=
  { s with plan := { s.plan with defects := s.plan.defects.filter (fun d => !(d.unit == u && d.source == 2)) } }

/-- Memory BIST ends by zeroing what it tested (R59, R373). DEDUCED: log 103. -/
def State.testZero (s : State) (t : TestRun) : State :=
  let bays := ((testQuarters t.die t.target).flatMap baysOfQuarter).filter (fun b => s.routerMode (routerOfBay b) == 0)
  let inBays (b : Nat) : Bool := bays.contains b
  let inMem (A : Nat) : Bool := decide (0x10000000000 ≤ A) && (let x := A - 0x10000000000
    inBays (x / 0x100000000 * 64 + x % 0x100000000 / 0x4000000))
  { s.firmZero bays with
    mtx := s.mtx.filter (fun e => !inBays (e.1 / 8))
    vec := s.vec.filter (fun e => !inBays e.1)
    mem := s.mem.filter (fun e => !inMem e.1)
    poison := s.poison.filter (fun e => !inMem e.1) }

/-- The longest that a test takes, in µs (R373). -/
def testLimit (t : TestRun) : Nat :=
  1000 * (match t.op, t.die with
    | 1, false => 3 | 1, true => 4
    | 2, false => 6 | 2, true => 7
    | _, false => 9 | _, true => 11)

/-- BIST_DONE (R374): the test ends, its signatures are compared, and the floor plan takes the results.
DEDUCED: log 103. -/
def execBistDone (f : BistFind) (s : State) : Out :=
  match s.test with
  | none => impossible
  | some t =>
    if testLimit t < f.us then impossible else
    let was := s.plan.defects
    let us := s.testUnits t
    let bays := ((testQuarters t.die t.target).flatMap baysOfQuarter).filter (fun b => s.routerMode (routerOfBay b) == 0)
    let s := if 2 ≤ t.op then s.testZero t else s
    let s : State := { s with test := none }
    let s := s.each us (fun s u => if u.2.any (fun b => f.bad.contains b) then s.unitFail u.1 else s.unitGood u.1)
    let s := if 2 ≤ t.op then
        let s : State := { s with plan := { s.plan with defects := s.plan.defects.filter (fun d =>
          !(d.source == 2 && d.unit / 2 ^ 28 == 6 && bays.contains (d.unit / 2 ^ 7 % 2 ^ 21 / 1536) &&
            !f.rows.contains (d.unit / 2 ^ 7 % 2 ^ 21))) } }
        s.each (f.rows.filter (fun r => bays.contains (r / 1536))) (fun s r => s.unitFail (unitEntry 6 r))
      else s
    let s := s.putSigs f.sigs
    let s := s.wrFld (tstReg Reg.TST_STATUS) 31 30 1
    let s := (s.bump (tstReg Reg.TST_RUNS) 1).wr (tstReg Reg.TST_FAIL_COUNT) (BitVec.ofNat 32 f.bad.length)
    let s := s.wr (tstReg Reg.TST_LAST_US) (BitVec.ofNat 32 f.us)
    let s := if f.bad.isEmpty then s else s.setFlag (tstReg Reg.TST_ERR_FLAGS) 1
    let same := s.plan.defects == was && s.plan.field == s.nv.field &&
      s.plan.defects.all (fun d => s.countShown d.unit == tget (fun _ => 0) s.nv.counts d.unit)
    .next (if same then s.showPlan.evalDegraded else s.showPlan.planChanged.evalDegraded)

end Sys2Proof.Machine
end

