-- ==== Sys2Proof/Machine/Eov.lean ====
section
/-! DEFINITION. The commands of the Eovaol fabric (R269 to R293). -/

namespace Sys2Proof.Machine

/-- A request reaches its home edge under a set, which answers it or keeps and sends it; none where 4,096 are kept and it
waits (R270, R271, R282). DEDUCED: log 79. -/
def State.homeTake (s : State) (r : GlobalRequest) (set : Nat) (noc : Option Nat) : Option State :=
  if malformed r then some (s.edgeAnswer r set noc 0x67 [])
  else if !s.fabricOpen set then some (s.edgeAnswer r set noc 0x60 [])
  else if 4096 ≤ s.homeCount (homeEdge r.src) then none
  else some (s.addHome (.req r set false noc))

/-- HOME_EDGE_REQUEST (R270, R271, R282): a requester's global request reaches its home edge, which answers it, keeps
and sends it, or, with 4,096 kept, lets it wait. DEDUCED: log 79. -/
def execHomeEdgeRequest (r : GlobalRequest) (s : State) : Out :=
  .next ((s.homeTake r (s.domainSet (placeDomain r.src r.srcEp)) none).getD s)

/-- FENCE (R284): a fence reaches the initiator's home edge; scope 0 or 1. -/
def execFence (src : NocPlace) (ep : Fin 32) (tag : Fin 1024) (cls : Fin 4) (id : BitVec 20) (scope : Fin 2) (s : State) : Out :=
  .next (s.addHome (.fence src ep tag id.toNat cls scope (s.domainSet (placeDomain src ep)) none))

/-! ### Arrivals -/

/-- Take the oldest packet that has arrived at a port: its slots' credit is owed back, but of one that came before the port last went
down (R287, R299). DEDUCED: log 85. -/
def State.takeArrived (s : State) (p : Nat) (resp : Bool) : Option (FabricPacket × State) :=
  let l := s.linkAt p
  match l.kept, l.arrived with
  | x :: rest, _ => if x.resp != resp then none else some (x, s.setLink p { l with kept := rest })
  | [], [] => none
  | [], x :: rest =>
    if x.resp != resp then none
    else
      let owed := setNth l.owed x.chan (nthN l.owed x.chan + x.slots)
      let s := s.setLink p { l with arrived := rest, owed := owed }
      some (x, s)

/-- A Ristretto packet has crossed the module to an exit port: the longest time is kept, counted by the edge die (R290).
DEDUCED: log 86. -/
def State.crossTime (s : State) (set : Nat) (p : FabricPacket) : State :=
  let port := bitsOf (s.routeEntry set p.dest) 11 8
  if p.cls ≠ 0 then s
  else ({ s with free := s.free + 1 } : State).wrMax (eovPort port Reg.EOV_P_RIS_MAX_NS) (Config.elapsed s.free % 2 ^ 32)

/-- FABRIC_PACKET_RECEIVE (R270, R273, R277, R278, R280): the oldest packet that has arrived at a port is a request, which
is answered, looked up in the window table, or sent on. -/
def execFabricPacketReceive (p : Port) (s : State) : Out :=
  match s.takeArrived p false with
  | none => impossible
  | some (x, s) =>
    let e := p.val / 3
    let set := s.domainSet (16 + e)
    if !s.fabricOpen set then .next (s.respond e set x 0x60 [])
    else if x.dest ≠ s.moduleId set then
      let y := s.sendPacket e set x
      .next (if y.1 = 0 then y.2.crossTime set x else y.2.respond e set x y.1 [])
    else if 2 < x.op ∨ 8 < x.atomicOp then .next (s.respond e set x 0x67 [])
    else
      let o := x.gaddr % 2 ^ 44
      let way := s.edgeWay e (ownerEdge o) x.gaddr
      if way ≠ 0 then .next (s.respond e set x way [])
      else
      let y := s.lookup o set (x.srcModule / 256) x.op
      match y.1 with
      | .refused st => .next (y.2.respond (ownerEdge o) set x st [])
      | .hit i A => .next (y.2.launch (ownerEdge o) i A set x (.remote x))

/-- The request at a home edge that a response answers. -/
def State.homeOf (s : State) (p : FabricPacket) : Option (Nat × GlobalRequest) :=
  s.home.findSome? (fun x => match x.2 with
    | .req r set true _ =>
      let q := s.packetOf set r
      if q.srcX == p.srcX && q.srcY == p.srcY && q.srcEp == p.srcEp && q.tag == p.tag && q.gaddr % 2 ^ 44 == p.gaddr % 2 ^ 44
      then some (x.1, r) else none
    | _ => none)

/-- The edge die that was home to the request of a response, by the place that the response names (R271, R279). -/
def FabricPacket.home (p : FabricPacket) : Nat :=
  if p.srcX < 32 ∧ p.srcY < 32 then homeOfBay (bayOfRouter (p.srcY * 32 + p.srcX))
  else if p.srcY = 32 then 0 else if p.srcX = 32 then 1 else if p.srcY = 63 then 2 else 3

/-- FABRIC_RESPONSE_RECEIVE (R270, R271, R277, R285, R286, R356): the oldest packet that has arrived at a port is a response, which
is handed to its requester over its home edge, sent on, or discarded; one to no kept request is late, and counted. -/
def execFabricResponseReceive (p : Port) (s : State) : Out :=
  match s.takeArrived p true with
  | none => impossible
  | some (x, s) =>
    let e := p.val / 3
    let set := s.domainSet (16 + e)
    if !s.fabricOpen set then .next s
    else if x.dest ≠ s.moduleId set then
      let y := s.sendPacket e set x
      .next (if y.1 = 0 then y.2.crossTime set x else y.2)
    else
      match s.homeOf x with
      | some (n, r) =>
        if s.edgeWay e (homeEdge r.src) x.gaddr ≠ 0 then .next s
        else .next ((s.homeResponse n r x.srcModule x.status x.payload).settleFences)
      | none => .next (s.tally (eovReg x.home Reg.EOV_RESP_TIMEOUT))

/-- FABRIC_RESP_TIMEOUT (R285): EOV_RESP_LIMIT expires on a request of a home edge, sent or held behind a fence.
DEDUCED: log 81. -/
def execFabricRespTimeout (n : Nat) (s : State) : Out :=
  match s.homeAt n with
  | some (.req r _ _ _) =>
    let e := homeEdge r.src
    let s := (s.bump (eovReg e Reg.EOV_RESP_TIMEOUT) 1).eovFlag e 7
    .next ((s.homeAnswer n r 0x68 []).settleFences)
  | _ => impossible

/-! ### Windows (R274, R276) -/

/-- Why a commit is refused; none where it stands (R274). DEDUCED: log 80. -/
def State.commitCause (s : State) (e i new : Nat) : Option Nat :=
  let old := s.winAt e i
  let a := winOf old
  let b := winOf new
  let key := winKey b.size b.base
  let act := s.activeSet
  let empties := a.state == 3 && new == 0
  if b.bad || b.size == 3 then some 0
  else if b.base % winBytes b.size ≠ 0 ∨ b.dev % winBytes b.size ≠ 0 then some 1
  else if b.state != 0 && (bucketOf key != i / 8 || ownerEdge b.base != e) then some 2
  else if (a.state != 0 && !empties && (a.vis - (a.vis &&& b.vis) != 0)) ||
      (bitOf b.vis act && !(a.state != 0 && bitOf a.vis act)) then some 3
  else if a.state != 0 && !empties && (a.size != b.size || a.base != b.base || a.dev != b.dev) then some 4
  else if b.state == 3 || !(a.state == b.state || (a.state == 0 && b.state == 1) || (a.state == 1 && b.state == 2) ||
      (a.state == 2 && b.state == 1) || empties) then some 4
  else if b.state != 0 && (List.range 8).any (fun t =>
      let j := i / 8 * 8 + t
      let c := winOf (s.winAt e j)
      j != i && c.state != 0 && winKey c.size c.base == key && c.vis &&& b.vis != 0) then some 5
  else if a.state == 1 && b.state == 2 && (List.range 64).all (fun t => tget (fun _ => 0) s.trackers (64 * e + t) != 0) then
    some 6
  else none

/-- Write bytes 0x0C to 0x0F of an entry: commit the staged bytes with them (R274, R276). DEDUCED: log 80. -/
def State.commit (s : State) (e i : Nat) (w : Word) : State :=
  let k := e * 2 ^ 19 + i
  let old := s.winAt e i
  let new := tget (fun _ => old % 2 ^ 96) s.staged k + w.toNat * 2 ^ 96
  let s := { s with staged := terase s.staged k }
  match s.commitCause e i new with
  | some c =>
    let first := !s.rbit (eovReg e Reg.EOV_ERR_FLAGS) 0
    let s := (s.setFlag (eovReg e Reg.EOV_ERR_FLAGS) 0).bump (eovReg e Reg.EOV_WT_REFUSED) 1
    if first then s.wr (eovReg e Reg.EOV_WT_FAULT) (BitVec.ofNat 32 (c * 2 ^ 28 + i)) else s
  | none =>
    let a := (winOf old).state
    let b := (winOf new).state
    let s := s.setWin e i new
    if a = 1 ∧ b = 2 then
      let free := (List.range 64).find? (fun t => tget (fun _ => 0) s.trackers (64 * e + t) == 0)
      (({ s with trackers := tput s.trackers (64 * e + free.getD 0) (i + 1) } : State)).trackerCheck e i
    else if a = 2 ∧ b = 1 then
      match s.trackerOf e i with
      | some t => { s with trackers := terase s.trackers (64 * e + t) }
      | none => s
    else s

/-- Offset of an entry in the window-table access port (R275). -/
def wtpOffset (e i : Nat) : Nat := 0x3000000 + e * 0x400000 + i / 8 % 32768 * 128 + i % 8 * 16

/-- WINDOW_ENTRY_COMMIT (R274, R275): the write of the last four bytes of a window entry, by firmware at endpoint 2 of the
edge die, or by the host through the half of the table that the port shows. -/
def execWindowEntryCommit (e : Edge) (i : Fin 524288) (host : Bool) (w : Word) (s : State) : Out :=
  if !host then .next (s.commit e i w)
  else if s.fld (eovReg 0 Reg.EOV_WTP_SEL) 0 0 ≠ i.val / 8 / 32768 then impossible
  else s.edgeDo e (wtpOffset e i + 12) (fun s => s.commit e i w)

/-- DRAIN_LIMIT_EXPIRY (R276): a drain tracker's limit expires: requests in flight are answered 0x64, and the window is
drained. -/
def execDrainLimitExpiry (e : Edge) (t : Fin 64) (s : State) : Out :=
  match tget (fun _ => 0) s.trackers (64 * e + t) with
  | 0 => impossible
  | i + 1 =>
    let fs := s.flights.filter (fun f => f.edge == e.val && f.entry == i && !f.dead)
    let s := { s with flights := s.flights.map (fun (f : WinFlight) => if f.edge == e.val && f.entry == i then { f with dead := true } else f) }
    let s := (s.bump (eovReg e Reg.EOV_DRAIN_TIMEOUT) fs.length).eovFlag e 6
    let s := s.each fs (fun s f => s.answerOrigin f 0x64 [])
    .next (s.trackerEnd e i)

/-! ### Limits (R285) -/

/-- A write to a limit of R285 that is refused. -/
def State.limitRefused (s : State) (e : Nat) : State := s.eovFlag e 10

/-- Write EOV_DRAIN_LIMIT, clamped to 300 (R285, R293). -/
def State.writeDrainLimit (s : State) (e : Nat) (w : Word) : State :=
  let v := min (w.toNat % 512) 300
  if s.fld (eovReg e Reg.EOV_RESP_LIMIT) 8 0 < v + 50 then s.limitRefused e
  else s.wr (eovReg e Reg.EOV_DRAIN_LIMIT) (BitVec.ofNat 32 v)

/-- Write EOV_RESP_LIMIT (R285, R293). -/
def State.writeRespLimit (s : State) (e : Nat) (w : Word) : State :=
  let v := w.toNat % 512
  if v < s.fld (eovReg e Reg.EOV_DRAIN_LIMIT) 8 0 + 50 then s.limitRefused e
  else s.wr (eovReg e Reg.EOV_RESP_LIMIT) (BitVec.ofNat 32 v)

/-- DRAIN_LIMIT_WRITE (R285). -/
def execDrainLimitWrite (e : Edge) (w : Word) (s : State) : Out :=
  s.edgeDo e (eovReg e Reg.EOV_DRAIN_LIMIT) (fun s => s.writeDrainLimit e w)

/-- RESP_LIMIT_WRITE (R285). -/
def execRespLimitWrite (e : Edge) (w : Word) (s : State) : Out :=
  s.edgeDo e (eovReg e Reg.EOV_RESP_LIMIT) (fun s => s.writeRespLimit e w)

end Sys2Proof.Machine
end

