-- ==== Sys2Proof/Machine/Lnk.lean ====
section
/-! DEFINITION. The commands of the serial lanes (R294 to R313). -/

namespace Sys2Proof.Machine

/-! ### Codewords, markers and retries -/

/-- A lane in bring-up sends a training block (R304). -/
def State.sendTraining (s : State) (p i : Nat) : State :=
  let l := 4 * p + i
  let s := s.takeTaps l
  let x := s.laneAt l
  let valid := decide (3 ≤ s.portState p) || s.rbit (lnkLane l Reg.LNK_L_STATE) 31
  let set := s.domainSet (16 + p / 3)
  let id := if s.fabricOpen set then s.moduleId set else 0
  let r := recordOf i p id (s.fld (lnkPort p Reg.LNK_P_STATE) 23 22) valid (decide (8 ≤ x.good))
  let f := prbsLevels 2 3968 x.fill
  let s := s.mapLane l (fun x => { x with fill := f.2 })
  s.sendAside l (markerLevels 1 i (s.linkAt p).block ++ levelsOf 128 r ++ f.1)

/-- A lane in pattern test sends its next symbol (R310, R311). -/
def State.sendPattern (s : State) (l : Nat) : State :=
  let x := s.laneAt l
  let g := s.fld (lnkLane l Reg.LNK_L_PAT) 31 30
  if g = 0 then s
  else
    let s := s.takeTaps l
    let r := prbsLevels g 1 x.pattern
    let flip := match x.inject with | some (1, _) => true | some (2, _) => true | _ => false
    let left := match x.inject with | some (2, n + 1) => some (2, n) | _ => none
    let s := s.mapLane l (fun x => { x with pattern := r.2, inject := if flip then left else x.inject })
    s.sendLevels l (if flip then injected r.1 1 else r.1) false

/-- CODEWORD_TRANSMIT (R294 to R300, R304, R310, R311): a port's transmitter sends its next codeword, training blocks while
it comes up, or pattern symbols in test mode; without the reference it sends nothing (R303). `shaped`: a Ristretto packet finds no
token (R289). -/
def execCodewordTransmit (p : Port) (shaped : Bool) (s : State) : Out :=
  let st := s.portState p
  if !s.refOk p then impossible
  else if st = 5 ∨ st = 6 then (if (s.linkAt p).idleTx then impossible else .next (s.nextCodeword p shaped))
  else if st = 4 then .next (s.nextCodeword p false)
  else if st = 2 ∨ st = 3 then .next (s.each (List.range 4) (fun s i => s.sendTraining p i))
  else if st = 7 then .next (s.each (List.range 4) (fun s i => s.sendPattern (4 * p + i)))
  else impossible

/-- Count what the decoder and the stuff removal found (R298, R313). -/
def State.countLine (s : State) (p : Nat) (c : CodewordFind) : State :=
  let s := s.bump64 (lnkPort p Reg.LNK_P_CW) 1
  let s := s.each (List.range 4) (fun s i => s.bump (lnkLane (4 * p + i) Reg.LNK_L_SYM_ERRS) (nthN c.fixed i))
  let s := s.each (List.range 4) (fun s i =>
    if nthN c.viol i = 0 then s
    else (s.bump (lnkLane (4 * p + i) Reg.LNK_L_STUFF_VIOL) (nthN c.viol i)).lnkFlag p 2)
  if c.good && c.fixed.any (· != 0) then s.bump64 (lnkPort p Reg.LNK_P_CW_CE) 1 else s

/-- A codeword that cannot be used: counted, and a nak is due (R300). `ue`: it is uncorrectable, and not only its CRC bad. -/
def State.badCodeword (s : State) (p : Nat) (ue : Bool) : State :=
  let s := s.bump (lnkPort p Reg.LNK_P_CW_UE) 1
  let s := if ue then s.lnkFlag p 1 else s
  s.setLink p { s.linkAt p with nak := true }

/-- A good codeword: acks, naks and credits, and the packets of a data codeword that is the one expected (R299, R300). -/
def State.goodCodeword (s : State) (p : Nat) (m : Message) : State :=
  let l := s.linkAt p
  let idle := (m.link.getD 21 0).getLsbD 0
  if idle then s.takeLink p m
  else if m.seq ≠ l.expect then s.setLink p { l with nak := true }
  else
    let w := bytesNat ((m.link.drop 18).take 3)
    let r := takeSlots (bitsOf w 23 19) (bitsOf w 18 0) ((chunks 32 19 m.slots).zipIdx.map (fun x => (x.2, x.1))) l.part
    let s := s.setLink p { l with expect := (m.seq + 1) % 1024, lastGood := m.seq, nak := false, ackDue := true, part := r.1
                                  arrived := l.arrived ++ r.2 }
    let s := s.each r.2 (fun s x => s.bump64 (eovPort p Reg.EOV_P_RX_BYTES) (32 + x.payload.length))
    s.takeLink p m

/-- The lane of a port that carries the sender's lane n (R305). -/
def LinkPort.laneOf (l : LinkPort) (n : Nat) : Nat := l.lanes.findIdx (fun x => x.recLane == n)

/-- What a lane makes of the line symbols of a codeword: its 680 symbols, the violations, and the lane's record then. The training
burst of a direction that leaves idle comes first (R298, R309). None where the line is not that of one codeword, or where the lane
expects a marker (R297). -/
def LaneState.takeCodeword (x : LaneState) (line : List Nat) : Option (List Nat × Nat × LaneState) :=
  let a := takeSyms (if x.rxIdle then 4096 else 0) x.rxLevel x.rxRun line
  let b := takeSyms 680 a.2.2.1 a.2.2.2.1 a.2.1
  if x.rxAt < 2048 ∧ a.1.length = (if x.rxIdle then 4096 else 0) ∧ b.1.length = 680 ∧ b.2.1 = [] then
    some (b.1, a.2.2.2.2 + b.2.2.2.2, { x with rxLevel := b.2.2.1, rxRun := b.2.2.2.1, rxAt := x.rxAt + 1, rxIdle := false
                                               rxStuffed := x.rxStuffed + (a.2.1.length - 680) })
  else none

/-- The symbols of a codeword from the line symbols of a port's lanes, and each lane's violations: stuff symbols are removed
(R298), and the lanes are put in the sender's order (R305). None where a lane's line symbols are not those of one codeword. -/
def State.takeLines (s : State) (p : Nat) (lines : List (List Nat)) : Option (List Nat × List Nat × State) :=
  let l := s.linkAt p
  let d := (List.range 4).filterMap (fun i => (s.laneAt (4 * p + i)).takeCodeword (lines.getD i []))
  if d.length = 4 then
    some (unstripe ((List.range 4).map (fun n => match d[l.laneOf n]? with | some x => x.1 | none => [])),
      d.map (·.2.1), s.each (List.range 4) (fun s i =>
        match d[i]? with
        | some x => s.mapLane (4 * p + i) (fun _ => x.2.2)
        | none => s))
  else none

/-- What the correction of a codeword found, and on which lanes the symbols it corrected came (R294). -/
def LinkPort.found (l : LinkPort) (cw viol : List Nat) (fix : Option (List Nat)) : CodewordFind :=
  let out := fix.getD cw
  ⟨fix.isSome, out.take 514, (List.range 4).map (fun i =>
    ((List.zip cw out).zipIdx.filter (fun c => c.1.1 != c.1.2 && l.laneOf (c.2 % 4) == i)).length), viol⟩

/-- What a port makes of the line symbols of its lanes: the codeword, put together and corrected (R294). -/
def State.receiveLines (s : State) (p : Nat) (lines : List (List Nat)) : Option (CodewordFind × State) :=
  match s.takeLines p lines with
  | none => none
  | some (cw, viol, t) => some ((s.linkAt p).found cw viol (rsCorrect cw), t)

/-- A lane has marker lock. -/
def State.aligned (s : State) (l : Nat) : Bool := s.rbit (lnkLane l Reg.LNK_L_STATE) 30

/-- The four lanes of a port stand at the same place of the same block (R297). -/
def State.inStep (s : State) (p : Nat) : Bool :=
  (List.range 4).all (fun i => s.aligned (4 * p + i) && (s.laneAt (4 * p + i)).rxBlock == (s.laneAt (4 * p)).rxBlock &&
    (s.laneAt (4 * p + i)).rxAt == (s.laneAt (4 * p)).rxAt)

/-- A port receives codewords: it is up, or its lanes have aligned in deskew. -/
def State.receives (s : State) (p : Nat) : Bool := s.portUp p || (s.portState p == 4 && s.inStep p)

/-- The direction from the partner leaves idle (R309). -/
def State.leaveIdle (s : State) (p : Nat) : State :=
  let l := s.linkAt p
  if l.idleRx then (s.setLink p { l with idleRx := false }).setPortState p (if l.idleTx then 6 else 5) else s

/-- CODEWORD_RECEIVE (R294, R295, R298 to R301): the line symbols of a codeword arrive on the lanes of a port that is up, or in
deskew, where they only bring the descrambler and the runs up. DEDUCED: log 83. -/
def execCodewordReceive (p : Port) (lines : List (List Nat)) (s : State) : Out :=
  if !s.receives p then impossible
  else
    match s.receiveLines p lines with
    | none => impossible
    | some (c, s) =>
      let s := (s.leaveIdle p).countLine p c
      let l := s.linkAt p
      let r := descramble l.scrRx (c.symbols.flatMap (bitsLow 10))
      let s := s.setLink p { l with scrRx := r.2 }
      let m := messageOf r.1
      .next (if !s.portUp p then s else if c.good && m.good then s.goodCodeword p m else s.badCodeword p !c.good)

/-- A lane takes what it finds where it expects a marker (R297, R309): three bad ones in a row take its port down. A block begins
there, but at an idle marker. -/
def State.markerFound (s : State) (l : Nat) (m : MarkerFind) (block stuffs : Nat) : State :=
  let p := l / 4
  match m with
  | .good =>
    (s.mapLane l (fun x => { x with badMarkers := 0, rxAt := 0, rxBlock := block, rxStuffed := stuffs })).wrFld (lnkLane l Reg.LNK_L_STATE) 30 30 1
  | .idle =>
    if s.portUp p then
      let s := s.mapLane l (fun x => { x with badMarkers := 0, rxIdle := true })
      (s.setLink p { s.linkAt p with idleRx := true }).setPortState p 6
    else s
  | .bad =>
    let n := (s.laneAt l).badMarkers + 1
    let s := (s.mapLane l (fun x => { x with badMarkers := n, rxAt := 0, rxBlock := (x.rxBlock + 1) % 65536, rxStuffed := stuffs })).wrFld
      (lnkLane l Reg.LNK_L_STATE) 30 30 0
    if 3 ≤ n then s.portFail p 3 else s

/-- What stands before a marker where a lane expects one: the fill, in line symbols, after a whole block; the training burst, in
symbols, of a direction that leaves idle there; nothing of an idle marker amid a block (R296, R297, R309). None where no marker can
stand. -/
def LaneState.beforeMarker (x : LaneState) (line : List Nat) : Option (List Nat × List Nat × Nat × Nat × Nat) :=
  if x.rxIdle then (if x.rxAt = 2048 then some (takeSyms 4096 x.rxLevel x.rxRun line) else none)
  else if x.rxAt = 2048 then
    let k := 5376 - x.rxStuffed
    let d := destuff x.rxLevel x.rxRun (line.take k)
    if line.length < k then none else some (d.1, line.drop k, d.2)
  else some ([], line, x.rxLevel, x.rxRun, 0)

/-- What a lane makes of its line symbols since its last codeword, at whose end it expects a marker: the marker's 64 symbols, the stuff
symbols in it, the violations, and the level and run reached. -/
def LaneState.takeMarker (x : LaneState) (line : List Nat) : Option (List Nat × Nat × Nat × Nat × Nat) :=
  match x.beforeMarker line with
  | none => none
  | some a =>
    let b := takeSyms 64 a.2.2.1 a.2.2.2.1 a.2.1
    if b.1.length = 64 ∧ b.2.1 = [] ∧ (x.rxAt = 2048 ∨ markerOf b.1 = .idle) then
      some (b.1, a.2.1.length - 64, a.2.2.2.2 + b.2.2.2.2, b.2.2.1, b.2.2.2.1)
    else none

/-- A lane has read line symbols: the run it stands in, and the violations it counts (R298). -/
def State.lineRead (s : State) (l level run viol : Nat) : State :=
  let s := s.mapLane l (fun y => { y with rxLevel := level, rxRun := run })
  if viol = 0 then s else (s.bump (lnkLane l Reg.LNK_L_STUFF_VIOL) viol).lnkFlag (l / 4) 2

/-- MARKER_CHECK (R296 to R298, R309): the line symbols of a lane since its last codeword, at whose end it expects a marker, or the
notice that its partner goes idle; in deskew the lane looks for its first marker, which the line ends with. DEDUCED: log 83. -/
def execMarkerCheck (l : Lane) (line : List Nat) (s : State) : Out :=
  let p := l.val / 4
  let x := s.laneAt l
  if s.portState p = 4 ∧ !s.aligned l then
    let d := destuff x.rxLevel x.rxRun line
    let vs := d.1.drop (d.1.length - 64)
    let s := s.lineRead l d.2.1 d.2.2.1 d.2.2.2
    .next (if markerOf vs = .good then s.markerFound l .good (markerBlock vs) 0 else s)
  else if !(s.portUp p || s.portState p == 4) then impossible
  else
    match x.takeMarker line with
    | none => impossible
    | some (vs, stuffs, viol, level, run) =>
      let s := s.lineRead l level run viol
      let s := if x.rxIdle then (s.mapLane l (fun y => { y with rxIdle := false })).leaveIdle p else s
      .next (s.markerFound l (markerOf vs) (markerBlock vs) stuffs)

/-- RETRY_TIMER_EXPIRY (R300): no ack progress and no nak within LNK_P_RETRY_TIMER. -/
def execRetryTimerExpiry (p : Port) (s : State) : Out :=
  let l := s.linkAt p
  if !s.portUp p || l.replay.isEmpty then impossible else .next (s.retry p (l.replay.map (·.seq)))

/-! ### What takes a port down (R302, R303, R308) -/

/-- LANE_LOCK_LOSS (R302, R309): a lane loses lock; that a partner in electrical idle sends nothing is no loss. -/
def execLaneLockLoss (l : Lane) (s : State) : Out :=
  if !s.rbit (lnkLane l Reg.LNK_L_STATE) 31 then impossible
  else .next (if (s.laneAt l).rxIdle then s else s.portDown (l.val / 4))

/-- CABLE_PRESENCE_CHANGE (R302, R304, R308): the presence pin of a port's connector changes. -/
def execCablePresenceChange (p : Port) (present : Bool) (s : State) : Out :=
  let s := s.wrFld (lnkPort p Reg.LNK_P_STATE) 21 21 (if present then 1 else 0)
  .next (if present then (if s.portState p = 1 then s.portStart p else s) else s.portDown p)

/-- PPM_MEASURE (R303): the offset between the recovered and the local clock of a port, in 0.1 ppm. -/
def execPpmMeasure (p : Port) (offset : Int) (s : State) : Out :=
  let st := s.portState p
  if st < 2 ∨ 6 < st then impossible
  else
    let s := s.wr (lnkPort p Reg.LNK_P_PPM) (BitVec.ofNat 32 (BitVec.ofInt 16 offset).toNat)
    .next (if 200 < offset.natAbs then s.portFail p 8 else s)

/-! ### Bring-up (R304, R305) -/

/-- LANE_ACQUIRE_LOCK (R304, R307): a lane locks on its partner's training markers; `ctle` is the peaking it adapted.
DEDUCED: log 83. -/
def execLaneAcquireLock (l : Lane) (ctle : Fin 37) (s : State) : Out :=
  let p := l.val / 4
  if s.portState p ≠ 2 ∨ !s.refOk p ∨ s.rbit (lnkLane l Reg.LNK_L_STATE) 31 then impossible
  else
    let eq := lnkLane l Reg.LNK_L_EQ
    let code := if s.rbit eq 31 then s.fld eq 29 24 else ctle.val
    let s := (s.wrFld (lnkLane l Reg.LNK_L_STATE) 29 24 code).wrFld (lnkLane l Reg.LNK_L_STATE) 31 31 1
    let all := (List.range 4).all (fun i => s.rbit (lnkLane (4 * p + i) Reg.LNK_L_STATE) 31)
    .next (if all then s.setPortState p 3 else s)

/-- Bring-up has failed: counted, and it starts again at acquire (R304, R305). -/
def State.trainFail (s : State) (p : Nat) : State :=
  ((s.bump (lnkPort p Reg.LNK_P_TRAIN_FAILS) 1).lnkFlag p 5).portStart p

/-- The records of the four lanes agree: one sending port, four lanes (R305). -/
def State.recordsAgree (s : State) (p : Nat) : Bool :=
  let ls := (s.linkAt p).lanes
  let q := (ls.headD LaneState.init).recPort
  ls.all (fun x => x.recPort == q) && decide ((ls.map (·.recLane)).Nodup)

/-- A port enters deskew: its lanes send blocks from here on, and look for those of the partner (R296, R304). DEDUCED: log 83. -/
def State.enterDeskew (s : State) (p : Nat) : State :=
  (s.each (List.range 4) (fun s i => s.mapLane (4 * p + i) (fun x => { x with stuffed := 0 }))).setPortState p 4

/-- CAPABILITY_RECORD_RECEIVE (R304, R305): a lane receives its partner's capability record. DEDUCED: log 83. -/
def execCapabilityRecordReceive (l : Lane) (r : BitVec 128) (s : State) : Out :=
  let p := l.val / 4
  let x := r.toNat
  let st := s.portState p
  if !(st = 2 ∨ st = 3) ∨ !s.rbit (lnkLane l Reg.LNK_L_STATE) 31 then impossible
  else
    let good := bitsOf x 127 124 == 1 && bitOf x 87 && (crc32 (natBytes 12 (x / 2 ^ 32))).toNat == x % 2 ^ 32
    if !good then .next (s.mapLane l (fun y => { y with good := 0, acks := 0 }))
    else if !bitOf x 116 then .next (s.lnkFlag p 6)
    else
      let n := (s.laneAt l).good + 1
      let s := s.mapLane l (fun y => { y with good := n, acks := if bitOf x 86 then y.acks + 1 else 0
                                              recPort := bitsOf x 113 110, recLane := bitsOf x 115 114 })
      let s := s.wrFld (lnkPort p Reg.LNK_P_STATE) 27 24 1
      let s := s.wr (lnkPort p Reg.LNK_P_REMOTE) (BitVec.ofNat 32 (bitsOf x 113 110 * 2 ^ 20 + bitsOf x 109 90))
      let done := st == 3 && (List.range 4).all (fun i => decide (8 ≤ (s.laneAt (4 * p + i)).acks))
      .next (if !done then s else if s.recordsAgree p then s.enterDeskew p else s.trainFail p)

/-- DESKEW_DONE (R304, R312): the four lanes align by marker, and the port is up; `skews` is what each lane applies.
DEDUCED: log 86. -/
def execDeskewDone (p : Port) (skews : List Nat) (s : State) : Out :=
  if s.portState p ≠ 4 || !s.inStep p then impossible
  else
    let s := s.each (List.range 4) (fun s i => s.wrFld (lnkLane (4 * p + i) Reg.LNK_L_STATE) 11 0 (nthN skews i))
    let l := s.linkAt p
    let s := s.setLink p { LinkPort.init with lanes := l.lanes, kept := l.kept, scrTx := l.scrTx, scrRx := l.scrRx, blockPos := l.blockPos
                                              block := l.block }
    let s := s.wr (lnkPort p Reg.LNK_P_UP_US) (BitVec.ofNat 32 (Config.elapsed s.free))
    .next (({ s with free := s.free + 1 } : State).setPortState p 5)

/-- BRINGUP_TIMEOUT (R304): a port is not up 2 ms after it started. -/
def execBringupTimeout (p : Port) (s : State) : Out :=
  let st := s.portState p
  if st < 2 ∨ 4 < st ∨ !s.refOk p then impossible else .next (s.trainFail p)

/-! ### Control writes (R302, R310, R311, R313) -/

/-- Write enable of LNK_P_CTRL: a port fused off ignores it. -/
def State.writeEnable (s : State) (p : Nat) (on : Bool) : State :=
  if !s.portFitted p || s.portEnabled p == on then s
  else
    let s := s.wrFld (lnkPort p Reg.LNK_P_CTRL) 0 0 (if on then 1 else 0)
    if on then (if s.portTest p then s else s.portStart p) else s.portDown p

/-- ENABLE (R302, R304): a write of enable. -/
def execEnable (p : Port) (on : Bool) (s : State) : Out :=
  s.edgeDo (p / 3) (lnkPort p Reg.LNK_P_CTRL) (fun s => s.writeEnable p on)

/-- RETRAIN (R302): a write of retrain takes the port down and starts bring-up. -/
def execRetrain (p : Port) (s : State) : Out :=
  s.edgeDo (p / 3) (lnkPort p Reg.LNK_P_CTRL) (fun s => s.portDown p)

/-- Write test_mode of LNK_P_CTRL (R310). -/
def State.writeTest (s : State) (p : Nat) (on : Bool) : State :=
  if s.portTest p == on then s
  else
    let s := s.wrFld (lnkPort p Reg.LNK_P_CTRL) 2 2 (if on then 1 else 0)
    let s := s.each (List.range 4) (fun s i => s.wrFld (lnkLane (4 * p + i) Reg.LNK_L_PAT) 27 27 0)
    if on then s.portDown p else s.portStart p

/-- TEST_MODE (R310): setting test_mode takes the port down into pattern test; clearing it starts bring-up. -/
def execTestMode (p : Port) (on : Bool) (s : State) : Out :=
  s.edgeDo (p / 3) (lnkPort p Reg.LNK_P_CTRL) (fun s => s.writeTest p on)

/-- CHECKER_LOCK (R310): a symbol of a pattern and the `rest` after it arrive at a lane's checker, which locks after 64
error-free ones and counts the bits it compares from then on, and their errors. -/
def execCheckerLock (l : Lane) (first : Nat) (rest : List Nat) (s : State) : Out :=
  let kind := s.fld (lnkLane l Reg.LNK_L_PAT) 29 28
  if s.portState (l.val / 4) ≠ 7 ∨ kind = 0 then impossible
  else
    let x := s.laneAt l
    let c := (first :: rest).foldl (Checker.take kind) ⟨s.rbit (lnkLane l Reg.LNK_L_PAT) 27, x.chk, x.chkRun, 0, 0⟩
    let s := (s.mapLane l (fun y => { y with chk := c.st, chkRun := c.run })).wrFld (lnkLane l Reg.LNK_L_PAT) 27 27 (if c.lock then 1 else 0)
    .next ((s.bump64 (lnkLane l Reg.LNK_L_CHK_BITS) c.bits).bump64 (lnkLane l Reg.LNK_L_CHK_ERRS) c.errors)

/-- Write LNK_L_INJECT (R311): kind 3 is ignored unless the port is up. -/
def State.writeInject (s : State) (l kind len : Nat) : State :=
  if kind = 3 ∧ !s.portUp (l / 4) then s
  else s.mapLane l (fun x => { x with inject := if kind = 0 then none else some (kind, len) })

/-- INJECT (R311). -/
def execInject (l : Lane) (kind : Fin 4) (len : Fin 64) (s : State) : Out :=
  s.edgeDo (l / 12) (lnkLane l Reg.LNK_L_INJECT) (fun s => s.writeInject l kind len)

/-! ### Electrical idle (R309) -/

/-- The transmit direction has nothing to send. -/
def LinkPort.quiet (l : LinkPort) : Bool :=
  l.queue.isEmpty && l.left.isEmpty && !l.ackDue && !l.nak && l.owed.all (· == 0)

/-- IDLE_TIMER_EXPIRY (R309, R312): nothing to send for the timer's period, and the replay buffer empty. -/
def execIdleTimerExpiry (p : Port) (s : State) : Out :=
  let l := s.linkAt p
  if !s.portUp p || s.fld (lnkPort p Reg.LNK_P_IDLE_TIMER) 15 0 == 0 || !l.quiet || !l.replay.isEmpty || l.idleTx then impossible
  else
    let s := s.each (List.range 4) (fun s i => s.sendAside (4 * p + i) (markerLevels 2 i (s.linkAt p).block))
    .next ((s.setLink p { s.linkAt p with idleTx := true }).setPortState p 6)

/-- IDLE_EXIT (R309): an idle direction gets something to send: a training burst, then data. -/
def execIdleExit (p : Port) (s : State) : Out :=
  let l := s.linkAt p
  if !s.portUp p || !l.idleTx || l.quiet then impossible
  else
    let s := s.each (List.range 4) (fun s i =>
      let f := prbsLevels 2 4096 (s.laneAt (4 * p + i)).fill
      (s.mapLane (4 * p + i) (fun x => { x with fill := f.2 })).sendAside (4 * p + i) f.1)
    .next ((s.setLink p { s.linkAt p with idleTx := false }).setPortState p (if l.idleRx then 6 else 5))

end Sys2Proof.Machine
end

