-- ==== Sys2Proof/Machine/Mem.lean ====
section
/-! DEFINITION. Commands of crema and LPDDR5X: patrol reads, training, initialisation, power-down and refresh
(R255, R260 to R264). -/

namespace Sys2Proof.Machine

/-- CREMA_PATROL_READ (R252, R255): the scrubber of bay `b` reads the word at offset `o`. It runs while the die's period
is not 0 or a commanded sweep has words left. DEDUCED: log 56. -/
def execCremaPatrolRead (b : Bay) (o : Nat) (e : List Ecc) (s : State) : Out :=
  let left := tget (fun _ => 0) s.sweeps b.val
  if decide (0x3000000 ≤ o) || o % 32 != 0 || s.rowRemoved b (o / 0x8000) ||
      (s.rdN (crmReg (b / 64) Reg.CRM_SCRUB_PERIOD) == 0 && left == 0) then impossible
  else
    let A := cremaAddr b o
    let s := { s with sweeps := tset (fun _ => 0) s.sweeps b.val (left - 1) }
    let t := s.meetErrors [A] e
    .next (if (s.badUnits [A] e).isEmpty then t else t.memFlag A 4)

/-- SCRUB_NOW (R255, R267): a patrol sweep of every slice of the die. -/
def execScrubNow (d : Die) (s : State) : Out :=
  .next (s.each (List.range 64) (fun s i =>
    { s with sweeps := tset (fun _ => 0) s.sweeps (d.val * 64 + i) (s.sliceRows (d.val * 64 + i) * 1024) }))

/-- TRAIN_START (R261, R268): a pending channel moves to training; no effect in other states. -/
def execTrainStart (c : Dram) (s : State) : Out :=
  .next (if s.chanState c = 2 then s.setChanState c 3 else s)

/-- INIT_START (R261, R262, R263): a channel pending or training moves to initialising; it has passed its check or its
training, and its new delays, as its registers then hold them, are stored. The writing of the whole channel is behind every
pattern chunk. DEDUCED: log 70. -/
def execInitStart (c : Dram) (s : State) : Out :=
  if s.chanState c = 2 ∨ s.chanState c = 3 then
    let s := if s.chanState c = 3 then
      { s with nv := { s.nv with delays := tput s.nv.delays c ⟨s.delaysOf c, true⟩ } } else s
    let s : State := { s with patterns := terase s.patterns c }
    .next ((s.setChanState c 4).unitPass (unitEntry 8 c))
  else .next s

/-- MARK_BAD (R261, R263, R268): a channel pending, training or initialising is bad for the boot; a failed training is
flagged and counted. -/
def execMarkBad (c : Dram) (s : State) : Out :=
  let st := s.chanState c
  if 2 ≤ st ∧ st ≤ 4 then
    let s := if st = 3 then
      (s.setFlag (drcCh c Reg.DRC_CH_ERR_FLAGS) 4).setFlag (drcReg (c / 16) Reg.DRC_ERR_FLAGS) 0 else s
    .next (((s.setChanState c 1).unitFail (unitEntry 8 c)).planChanged.tierCheck)
  else .next s

/-- CHANNEL_INIT_DONE (R261): the whole channel has been written with zeros; it is ready, and the tier may open. -/
def execChannelInitDone (c : Dram) (s : State) : Out :=
  if s.chanState c = 4 then .next ((s.setChanState c 5).tierCheck) else impossible

/-! ### The pattern helpers (R262, R263) -/

/-- The 16 bits of beat i of a pattern: a fixed word, low half first; a one that walks up the DQ; PRBS7 or PRBS15 from the seed, the
DQ in bit order. The spec does not say how a pattern lies on the DQ. DEDUCED: log 70. -/
def patternBeat (pattern : Nat) (seed : Word) (i : Nat) : BitVec 16 :=
  let prbs (n a b : Nat) : BitVec 16 :=
    let step (r : Nat) : Nat := (r * 2 + (if bitOf r a != bitOf r b then 1 else 0)) % 2 ^ n
    let r := (List.range (16 * i)).foldl (fun r _ => step r) (seed.toNat % 2 ^ n)
    ((List.range 16).foldl (fun x k => (step x.1, if bitOf x.1 a then x.2 ||| BitVec.twoPow 16 k else x.2)) (r, (0 : BitVec 16))).2
  match pattern with
  | 0 => BitVec.ofNat 16 (seed.toNat / (if i % 2 = 0 then 1 else 2 ^ 16))
  | 1 => BitVec.twoPow 16 (i % 16)
  | 2 => prbs 7 6 5
  | _ => prbs 15 14 13

/-- The run that the helper of a channel is asked for: its first chunk, how many, its pattern and its seed. -/
def State.patternRun (s : State) (c : Nat) : PatRun :=
  let w := s.rdN (drcCh c Reg.DRC_TRAIN_PAT)
  ⟨s.rdN (drcCh c Reg.DRC_TRAIN_ADDR) % 2 ^ 26, w % 2 ^ 16, bitsOf w 31 30, s.rd (drcCh c Reg.DRC_TRAIN_SEED)⟩

/-- Beat i of chunk k of a channel as the helper wrote it last; what stood there before is not stated, and is free. DEDUCED: log 70. -/
def State.patternAt (s : State) (c k i : Nat) : BitVec 16 :=
  match (tget (fun _ => []) s.patterns c).find? (fun p => decide (p.first ≤ k) && decide (k < p.first + p.chunks)) with
  | some p => patternBeat p.pattern p.seed (128 * (k - p.first) + i)
  | none => (Config.freeWord (s.free + 128 * k + i)).setWidth 16

/-- What the compare helper finds over a run: the DQ that mismatch and the beats that do. The interface has inverted the DQ
`flips` in the first `beats` beats. -/
def State.patternCompare (s : State) (c : Nat) (p : PatRun) (flips : BitVec 16) (beats : Nat) : BitVec 16 × Nat :=
  (List.range (128 * p.chunks)).foldl (fun x i =>
    let got := s.patternAt c (p.first + i / 128) (i % 128) ^^^ (if i < beats then flips else 0)
    let bad := got ^^^ patternBeat p.pattern p.seed i
    (x.1 ||| bad, if bad = 0 then x.2 else x.2 + 1)) (0, 0)

/-- The pattern helper of a channel is running (R263, R268). DEDUCED: log 70. -/
def State.patternRuns (s : State) (c : Nat) : Bool :=
  s.fld (drcCh c Reg.DRC_TRAIN_PAT) 29 28 != 0 && !s.rbit (drcCh c Reg.DRC_TRAIN_RESULT) 31

/-- TRAIN_PATTERN_START (R260, R263, R268): a write of `w` to DRC_TRAIN_PAT; an op other than 0 starts the helper on a channel
that is pending or training, whose rank wakes. DEDUCED: log 70. -/
def execTrainPatternStart (c : Dram) (w : Word) (s : State) : Out :=
  let s := s.wr (drcCh c Reg.DRC_TRAIN_PAT) (w &&& 0xF800FFFF)
  let op := bitsOf w.toNat 29 28
  if op ≠ 0 ∧ (s.chanState c = 2 ∨ s.chanState c = 3) then
    let s := s.touchRow c (s.rdN (drcCh c Reg.DRC_TRAIN_ADDR) % 2 ^ 26 * 256)
    .next ((s.wr (drcCh c Reg.DRC_TRAIN_RESULT) 0).wr (drcCh c Reg.DRC_TRAIN_ERRS) 0)
  else if op ≠ 0 then .next (s.wrFld (drcCh c Reg.DRC_TRAIN_PAT) 29 28 0)
  else .next s

/-- TRAIN_PATTERN_DONE (R262, R263): the helper ends: a write has left the pattern in its chunks, and a compare gives the DQ and the
beats that mismatch, the interface having inverted the DQ `flips` in the first `beats` of them. A mismatch in the check of a
pending channel is flagged. DEDUCED: log 70. -/
def execTrainPatternDone (c : Dram) (flips : BitVec 16) (beats : Word) (s : State) : Out :=
  if s.patternRuns c then
    let op := s.fld (drcCh c Reg.DRC_TRAIN_PAT) 29 28
    let p := s.patternRun c
    let s : State := if bitOf op 0 then { s with patterns := tput s.patterns c (p :: tget (fun _ => []) s.patterns c) } else s
    let x : BitVec 16 × Nat := if bitOf op 1 then s.patternCompare c p flips beats.toNat else (0, 0)
    let s := s.wr (drcCh c Reg.DRC_TRAIN_RESULT) (BitVec.ofNat 32 (2 ^ 31 + x.1.toNat))
    let s := if bitOf op 1 then
      ({ s with free := s.free + 128 * 2 ^ 26 } : State).wr (drcCh c Reg.DRC_TRAIN_ERRS) (BitVec.ofNat 32 x.2) else s
    let s := s.wrFld (drcCh c Reg.DRC_TRAIN_PAT) 29 28 0
    .next (if bitOf op 1 ∧ x.1 ≠ 0 ∧ s.chanState c = 2 then s.chanFlag c 4 else s)
  else impossible

/-- POWER_DOWN_EXPIRY (R260): a rank that held no request for the time of DRC_PD_TIMER powers down. -/
def execPowerDownExpiry (c : Dram) (rank : Bool) (s : State) : Out :=
  let lo := if rank then 26 else 24
  let held := s.bankQ.any (fun x => match s.bankOf x.addr with | some (b, _, _) => b / 16 == c.val * 2 + (if rank then 1 else 0) | none => false)
  if s.chanState c ≤ 1 ∨ held ∨ s.rdN (drcCh c Reg.DRC_PD_TIMER) = 0 ∨ s.fld (drcCh c Reg.DRC_CH_STATE) (lo + 1) lo = 1 then
    impossible
  else .next (s.wrFld (drcCh c Reg.DRC_CH_STATE) (lo + 1) lo 1)

/-- REFRESH_DUE (R256, R260): the refresh of one bank of a rank falls due: the controller wakes the rank, and the bank, whose
row is closed for it, is refreshed. The rank shows refreshing until its next access or power-down. DESIGN CHOICE: log 116. -/
def execRefreshDue (c : Dram) (b : RankBank) (s : State) : Out :=
  if s.chanState c ≤ 1 then impossible
  else
    let k := c.val * 32 + (if b.rank then 16 else 0) + b.bank
    .next (({ s with openRows := terase s.openRows k, hitRuns := terase s.hitRuns k } : State).wakeRank c (if b.rank then 1 else 0) 2)

/-- LPDDR_PATROL_READ (R255, R259, R260, R264): the scrubber of a ready channel `c` reads the chunk at data address `256·k`, with
its check chunk. While the tier is closed the chunk has no device address yet: what is recorded as its address is free, and an
error that cannot be corrected is kept for the chunk until the tier opens. DEDUCED: log 56. -/
def execLpddrPatrolRead (c : Dram) (k : Nat) (e : List Ecc) (s : State) : Out :=
  let L := s.usableChans
  if s.chanState c != 5 || decide (chanBytes / 256 ≤ k) ||
      s.rdN (drcReg (c / 16) Reg.DRC_SCRUB_PERIOD) == 0 then impossible
  else
    let s := (s.touchRow c (dataPhys (256 * k))).useCheck c (256 * k) false ⟨[], 0, none, 0⟩
    if s.tierOpen then
      let A := (k * L.length + L.findIdx (· == c.val)) * 256
      let t := s.meetErrors [A] e
      .next (if (s.badUnits [A] e).isEmpty then t else t.memFlag A 3)
    else if s.closedBad c k || e.any (·.bad) then
      let t := ({ s with free := s.free + 2 } : State).chanUE c
        ((Config.freeWord s.free).toNat * 2 ^ 32 + (Config.freeWord (s.free + 1)).toNat)
      .next (({ t with poison := tput t.poison (closedKey c k) 0 } : State).chanFlag c 3)
    else .next (if e.isEmpty then s else s.chanCE c)

end Sys2Proof.Machine
end

