-- ==== Sys2Proof/Machine/Module.lean ====
section
/-! DEFINITION. The pins, references and supply of the module (R15 to R21). -/

namespace Sys2Proof.Machine

/-- PERST_ASSERT (R7, R17, R363): PERST# is asserted; `cut` is what it cuts short (R369, R391). -/
def execPerstAssert (cut : Cut) (s : State) : Out :=
  if s.board.perst || (!s.canCut cut) then impossible
  else .next ((if s.board.held then s else (s.cutShort cut).cold).setBoard { s.board with perst := true, held := true })

/-- PERST_RELEASE (R7, R17, R315): with PWRGD high the module starts afresh. -/
def execPerstRelease (s : State) : Out :=
  if !s.board.perst then impossible
  else .next (s.cold.setBoard { s.board with perst := false, held := !s.board.pwrgd })

/-- PWRGD_RISE (R16, R17): the input has entered its range, PWRDIS is low, and no thermal shutdown holds the module off.
DEDUCED: log 98. -/
def execPwrgdRise (s : State) : Out :=
  if s.board.pwrgd || s.board.pwrdis || s.board.latched then impossible
  else .next (s.setBoard { s.board with pwrgd := true, rails := true, fault := false })

/-- PWRGD_FALL (R17): as if PERST# were asserted at that instant. DEDUCED: log 98. -/
def execPwrgdFall (cut : Cut) (s : State) : Out :=
  if !s.board.pwrgd || (!s.canCut cut) then impossible
  else .next ((s.cutShort cut).stop.setBoard { s.board with pwrgd := false, held := true })

/-- PWRDIS_CHANGE (R16, R418): held high, the power stages are off and PWRGD is low; `ms` is how long it was high when it
goes low, and 10 ms end the hold after a thermal shutdown. -/
def execPwrdisChange (high : Bool) (ms : Nat) (cut : Cut) (s : State) : Out :=
  if high == s.board.pwrdis || !s.canCut cut || (cut != .clean && !high) then impossible
  else if high then
    .next ((s.cutShort cut).stop.setBoard { s.board with pwrdis := true, pwrgd := false, rails := false, held := true })
  else .next (s.setBoard { s.board with pwrdis := false, latched := s.board.latched && decide (ms < 10) })

/-- UNDERVOLTAGE_LOCKOUT (R16, R418): the input is below 38 V for more than 50 µs, or gone. DEDUCED: log 98. -/
def execUndervoltageLockout (cut : Cut) (s : State) : Out :=
  if !s.canCut cut then impossible
  else if s.board.rails then .next ((s.cutShort cut).shutdown 1 0)
  else .next ((s.setBoard { s.board with latched := false }).logShutdown 1)

/-- OVERVOLTAGE_SHUTDOWN (R16): the input is above 62 V for more than 50 µs. -/
def execOvervoltageShutdown (cut : Cut) (s : State) : Out :=
  if !s.canCut cut then impossible
  else if s.board.rails then .next ((s.cutShort cut).shutdown 2 0)
  else .next (s.logShutdown 2)

/-- PCIE_REFCLK_LOSS (R20, R315): the links share the 100 MHz reference and go down. DEDUCED: log 98. -/
def execPcieRefclkLoss (s : State) : Out :=
  .next (s.each (List.range 2) (fun s l => if s.linkUp l then s.linkDown l else s))

/-- REF_LOSS (R20, R303): the 156.25 MHz reference is lost; every port goes down with ref_loss. DEDUCED: log 85. -/
def execRefLoss (s : State) : Out :=
  if !s.board.fabricRef then impossible
  else
    let on := (List.range 12).filter (fun p => s.refOk p)
    let s := s.setBoard { s.board with fabricRef := false }
    let s := s.each (List.range 4) (fun s e => s.wrFld (lnkReg e Reg.LNK_STATUS) 12 12 0)
    .next (s.each on (fun s p => if 2 ≤ s.portState p ∧ s.portState p ≤ 6 then s.portFail p 7 else s))

/-- REF_RETURN (R303): the reference is back, and bring-up of the ports starts again. -/
def execRefReturn (s : State) : Out :=
  if s.board.fabricRef then impossible
  else
    let s := s.setBoard { s.board with fabricRef := true }
    if decide (s.bootPhase < 2) then .next s
    else
      let s := s.each ((List.range 4).filter (fun e => s.edgeReach e)) (fun s e => s.wrFld (lnkReg e Reg.LNK_STATUS) 12 12 1)
      .next (if s.bootPhase < 3 then s
        else s.each ((List.range 12).filter (fun p => (s.portEnabled p || s.portTest p) && s.refOk p)) (fun s p => s.portStart p))

/-- CAPACITOR_LOW (R21, R396): the backup capacitor falls below 1.8 V and the calendar clock stops at the time it
shows. -/
def execCapacitorLow (s : State) : Out :=
  let t := s.now
  .next ((t.2.wr64 (rtcReg Reg.RTC_TIME) t.1).wrFld (rtcReg Reg.RTC_STATUS) 31 30 0)

end Sys2Proof.Machine
end

