-- ==== Sys2Proof/Machine/Pwr.lean ====
section
/-! DEFINITION. Caps, temperatures, stretching, gating and telemetry (R410 to R423). -/

namespace Sys2Proof.Machine

/-- The module runs: out of reset with its rails on. -/
def State.running (s : State) : Bool := !s.board.held && s.board.rails

/-! ### Power (R410, R413 to R415) -/

/-- MODULE_CAP_STEP (R414): Ryhal has measured module power p, in 0.1 W, over 100 µs; it sets the scale and sends every die
its effective cap. -/
def execModuleCapStep (p : Nat) (s : State) : Out :=
  if !s.running || !s.isReady then impossible
  else
    let s := { s with scale := nextScale s.scale (s.moduleCap (s.domainSet 20)) p }
    .next (s.each (List.range 16) (fun s d => s.showCap d)).showScale

/-- DIE_CAP_EVAL (R411, R413, R415): a die's power controller has measured power p, in 0.1 W, over 10 µs. -/
def execDieCapEval (d : Die) (p : Nat) (s : State) : Out :=
  if !s.running || !s.isReady || !s.dieReach d then impossible
  else
    let s := s.showCap d
    let c := s.dieLimit d
    let above := decide (c.1 < p * c.2)
    let l := s.powerLevel d
    let unmet := above && l == 15
    let s := if above then s.setPowerLevel d (min 15 (l + 1))
      else if p * c.2 * 100 < 95 * c.1 then s.setPowerLevel d (l - 1) else s
    let h := s.heatAt d
    let s := s.setHeat d { h with unmet := unmet }
    .next (if unmet && !h.unmet then (s.pwrFlag 3).pwrEvent 4 d p else s)

/-- DROOP_DETECT (R410): a die's tile core rail falls below 95 % of its setpoint and its clock is stretched. -/
def execDroopDetect (d : Die) (s : State) : Out :=
  let h := s.heatAt d
  if !s.running || h.stretched then impossible
  else .next (((s.setHeat d { h with stretched := true }).bump (pwrDie d Reg.PWR_D_STRETCHES) 1).pwrFlag 5)

/-- STRETCH_END (R410): the rail has stood above that level for 64 cycles. -/
def execStretchEnd (d : Die) (s : State) : Out :=
  let h := s.heatAt d
  if h.stretched then .next (s.setHeat d { h with stretched := false }) else impossible

/-! ### Temperature (R416, R417) -/

/-- Sensors of a source. -/
def sensorsOf (src : Nat) : Nat := if src < 16 then 6 else if src < 20 then 2 else if src = 20 then 1 else 8

/-- The trip points in force: warn, throttle, critical. -/
def State.warnPoint (s : State) : Nat := s.fld (pwrReg Reg.PWR_TRIP) 7 0
def State.throttlePoint (s : State) : Nat := s.fld (pwrReg Reg.PWR_TRIP) 15 8
def State.criticalPoint (s : State) : Nat := s.fld (pwrReg Reg.PWR_TRIP) 23 16

/-- A reading of at most 125 °C; a sensor that does not answer is taken as 125 °C (R416). DEDUCED: log 111. -/
def sensorValue (t : Option Nat) : Nat := min 125 (t.getD 125)

/-- Compare a die's hottest sensor with the warn and critical points (R417). -/
def State.judgeHeat (s : State) (src hot : Nat) : State :=
  let h := s.heatAt src
  let warn := decide (s.warnPoint ≤ hot)
  let enter := !h.critical && decide (s.criticalPoint ≤ hot)
  let leave := h.critical && decide (hot < s.throttlePoint)
  let s := s.setHeat src { h with warn := warn, critical := (h.critical || enter) && !leave }
  let s := if warn && !h.warn then (s.pwrFlag 0).pwrEvent 1 src hot else s
  let s := if enter then (s.pwrFlag 2).pwrEvent 3 src hot else s
  let s := if src < 16 then (if enter then s.setThermalLevel src 16 else if leave then s.setThermalLevel src 15 else s) else s
  s.wrFld (pwrReg Reg.PWR_STATUS) 29 29 (if s.heat.any (fun e => e.2.critical) then 1 else 0)

/-- SENSOR_READ (R416, R417): the sensors of a source are read; none where one does not answer. A shutdown point turns the
module off. -/
def execSensorRead (src : Fin 22) (ts : List (Option Nat)) (s : State) : Out :=
  if !s.running || ts.length != sensorsOf src then impossible
  else
    let temps := ts.map sensorValue
    let failed := (ts.zipIdx.filter (fun t => t.1.isNone)).map (·.2)
    let h := s.heatAt src
    let s := s.setHeat src { h with temps := temps, failed := failed }
    let s := if failed.any (fun i => !h.failed.contains i) then s.pwrFlag 7 else s
    let hot := temps.foldl max 0
    let s := if src.val < 16 then s.wrFld (pwrDie src Reg.PWR_D_STATUS) 14 8 hot else s
    .next (if (if src.val = 21 then 125 else 115) ≤ hot then s.shutdown (if src.val = 21 then 4 else 3) src
      else if src.val = 21 then s else s.judgeHeat src hot)

/-- THERMAL_STEP (R417, R421): 100 µs have passed on a die. DEDUCED: log 111. -/
def execThermalStep (d : Die) (s : State) : Out :=
  let h := s.heatAt d
  let l := s.thermalLevel d
  if !s.running then impossible
  else if h.critical then .next s
  else if s.throttlePoint ≤ h.hottest then
    let s := s.setThermalLevel d (if l < 15 then l + 1 else l)
    .next (if l = 0 then (s.pwrFlag 1).pwrEvent 2 d h.hottest else s)
  else if h.hottest + 3 < s.throttlePoint ∧ 0 < l then
    let s := s.setThermalLevel d (l - 1)
    .next (if l = 1 ∧ s.dieCauses d = 0 then s.pwrEvent 5 d 0 else s)
  else .next s

/-- A write of PWR_TRIP (R417): ignored where it raises a point above its default or breaks their order.
DEDUCED: log 111. -/
def State.writeTrip (s : State) (w : Nat) : State :=
  let warn := bitsOf w 7 0
  let thr := bitsOf w 15 8
  let crit := bitsOf w 23 16
  if 95 < warn ∨ 100 < thr ∨ 108 < crit ∨ thr < warn ∨ crit < thr then s.pwrFlag 8
  else s.wrFld (pwrReg Reg.PWR_TRIP) 23 0 (w % 2 ^ 24)

/-- TRIP_WRITE (R417): a write of PWR_TRIP by function 0, or by firmware. -/
def execTripWrite (host : Bool) (w : Word) (s : State) : Out :=
  if host then s.bar0Do (pwrReg Reg.PWR_TRIP) (fun s => s.writeTrip w.toNat) else .next (s.writeTrip w.toNat)

/-! ### Gating (R419) -/

/-- A quarter belongs to an enabled partition of the active set or of the shadow. -/
def State.quarterBound (s : State) (q : Nat) : Bool := (s.memberIn 0 q).isSome || (s.memberIn 1 q).isSome

/-- Gate a quarter: a job that still holds it ends, its passes abandoned (R85); its endpoints are isolated and its tile rail goes
off; tile and vector memories lose their contents, and block states stay (R54). DEDUCED: log 113. DESIGN CHOICE: log 121. -/
def State.gate (s : State) (q : Nat) : State :=
  if s.quarterBound q then s.pwrFlag 4
  else if s.gated q then s
  else
    let s := s.each (s.jobs.filter (fun e => e.2.placed.contains q)) (fun s e => s.failJob e.1 0x23 none 0)
    let s := (s.setBits (pwrReg Reg.PWR_QTR_GATE + 4 * (q / 32)) (2 ^ (q % 32))).setBits
      (pwrReg Reg.PWR_QTR_GATED + 4 * (q / 32)) (2 ^ (q % 32))
    let bs := baysOfQuarter q
    let s : State := { s with
      mtx := s.mtx.map (fun e => if bs.contains (e.1 / 8) then (e.1, { Mtx.init with blocks := e.2.blocks, halted := e.2.halted }) else e)
      vec := s.vec.map (fun e => if bs.contains e.1 then (e.1, { Vec.init with blocks := e.2.blocks, state := e.2.state }) else e) }
    s.each bs (fun s b => s.each (List.range 11) (fun s i => s.absorbAll b (i + 1)))

/-- QUARTER_GATE (R419): a quarter's bit in PWR_QTR_GATE is set. -/
def execQuarterGate (q : Quarter) (s : State) : Out := .next (s.gate q)

/-- QUARTER_UNGATE (R419): its bit is cleared, and the quarter is ungated. -/
def execQuarterUngate (q : Quarter) (s : State) : Out := .next (s.ungate q)

/-! ### Telemetry (R420) -/

/-- The telemetry record with number seq. DEDUCED: log 112. -/
def State.telemetry (s : State) (m : Measured) (seq time : Nat) : List Byte :=
  let w16 (xs : List (BitVec 16)) (i : Nat) : Nat := ((xs.map BitVec.toNat).getD i 0)
  let hot (src : Nat) : Nat := (s.heatAt src).hottest
  let die (d : Nat) : List Byte :=
    natBytes 8 (min 0xFFFF (s.rdN (pwrDie d Reg.PWR_D_STRETCHES)) * 2 ^ 48 + s.dieCauses d * 2 ^ 40 +
      s.fld (pwrDie d Reg.PWR_D_STATUS) 7 0 * 2 ^ 32 + hot d * 2 ^ 24 + ((m.share.map BitVec.toNat).getD d 0) * 2 ^ 16 +
      w16 m.dieAverage d)
  natBytes 4 seq ++ natBytes 4 (if s.timeValid then 1 else 0) ++ natBytes 8 time ++
  natBytes 4 (m.iin.toNat * 65536 + m.vin.toNat) ++ natBytes 4 (m.peak.toNat * 65536 + m.average.toNat) ++
  (List.range 16).flatMap die ++
  (List.range 4).flatMap (fun e => natBytes 8 (hot (16 + e) * 65536 + w16 m.edgeAverage e)) ++
  (List.range 16).map (fun p => if (List.range 4).all (fun i => s.chanState (4 * p + i) == 0) then 0xFF
    else m.mr4.getD p 0) ++
  (List.range 8).map (fun k => BitVec.ofNat 8 (nthN (s.heatAt 21).temps k)) ++
  [BitVec.ofNat 8 (nthN (s.heatAt 20).temps 0)] ++ List.replicate 43 0 ++ natBytes 4 seq

/-- TELEMETRY_RECORD (R420): 1 ms has passed; the record is written, to the host buffer too where it is enabled and function 0 is not in D3hot (R321).
DEDUCED: log 112. -/
def execTelemetryRecord (m : Measured) (s : State) : Out :=
  if !s.running || s.bootPhase == 0 then impossible
  else
    let t := s.now
    let s := t.2
    let seq := (s.rdN (pwrReg Reg.PWR_TLM_SEQ) + 1) % 2 ^ 32
    let s := s.each (List.range 16) (fun s d =>
      let s := s.wr (pwrDie d Reg.PWR_D_POWER) (BitVec.ofNat 32 (((m.diePeak.map BitVec.toNat).getD d 0) * 65536 +
        (m.dieAverage.map BitVec.toNat).getD d 0))
      s.bump64 (pwrDie d Reg.PWR_D_UNDELIVERED) (nthN m.undelivered d))
    let s := s.wr (pwrReg Reg.PWR_INPUT) (m.iin ++ m.vin)
    let s := s.wr (pwrReg Reg.PWR_MODULE_W) (m.peak ++ m.average)
    let r := s.telemetry m seq t.1
    let s := (s.wrBytes (pwrReg (Reg.PWR_TLM + 0x100 * (seq % 64))) r).wr (pwrReg Reg.PWR_TLM_SEQ) (BitVec.ofNat 32 seq)
    let base := s.rd64 (pwrReg Reg.PWR_TLM_HOST)
    .next (if bitOf base 0 && s.fnUp 0 && !(s.fnAt 0).d3hot then s.emit (.hostWrite 0 (base / 4096 * 4096 + 256 * (seq % 64)) r) else s)

end Sys2Proof.Machine
end

