-- ==== Sys2Proof/Machine/RegRead.lean ====
section
/-! DEFINITION. What a read of a register shows: the stored value, or what the state makes of it (R4 to R10, and the register
maps of every block). -/

namespace Sys2Proof.Machine

/-! ### Words made of bits -/

/-- Bits lo to lo + 31 of a set of numbers. -/
def maskWord (lo : Nat) (p : Nat → Bool) : Nat := (List.range 32).foldl (fun n i => if p (lo + i) then n + 2 ^ i else n) 0

/-- Word w of a large number. -/
def wordOf (x w : Nat) : Nat := x / 2 ^ (32 * w) % 2 ^ 32

/-- A value that firmware writes before the ready point reads as zero until then (R7). DEDUCED: log 13. -/
def State.fw (s : State) (v : Nat) : Nat := if s.isReady then v else 0

/-! ### Matrix tile, vector tile, stream engine -/

/-- A pass names a half of the buffer: a moving vector lies there, or the stationary operand that it loads; one that runs on
held values loads none. DEDUCED: log 18. -/
def Pass.namesHalf (p : Pass) (half : Nat) : Bool :=
  p.desc.active.any (fun q =>
    let r := p.desc.qrec q
    (blocksOf r.movAddr (r.movStride * (r.count - 1) + p.desc.movBytes)).any (fun b => b / 32 == half) ||
      (!p.kept && r.staAddr / 0x20000 == half))

/-- half_a and half_b of MTX_STATUS (R73). -/
def Mtx.halfState (m : Mtx) (half : Nat) : Nat :=
  if (match m.cur with | some p => p.namesHalf half | none => false) then 2
  else if (List.range 32).any (fun i => m.block (32 * half + i) != .free) then 1 else 0

/-- The state field of MTX_STATUS but gated: of a pass and a drain beside it, a stall shows before work, and the pass before
the drain. DEDUCED: log 18. -/
def Mtx.stateCode (m : Mtx) : Nat :=
  if m.halted then 6
  else
    match m.cur with
    | some p => if m.feedStalled then 4 else if m.drainStalled && !m.drains.isEmpty then 5 else if p.loaded then 2 else 1
    | none => if m.drains.isEmpty then 0 else if m.drainStalled then 5 else 3

/-- Registers of a matrix tile that its state makes (R73). -/
def State.viewMtx (s : State) (t off : Nat) : Option Nat :=
  let m := s.mtxAt t
  match off with
  | 0x0 => some ((if s.tileOk t then 0 else 2 ^ 31) + t)
  | 0x4 =>
    some ((if s.gated (quarterOfBay (t / 8)) then 7 else m.stateCode) * 2 ^ 24 + (if m.staValid then 2 ^ 23 else 0) +
      (if s.rbit (mtxReg t Reg.MTX_STATUS) 22 then 2 ^ 22 else 0) + m.halfState 0 * 2 ^ 20 + m.halfState 1 * 2 ^ 18)
  | 0x48 => some (wordOf (boundClip m.bPass) 0)
  | 0x4C => some (wordOf (boundClip m.bPass) 1)
  | 0x50 => some (wordOf (boundClip m.bRun) 0)
  | 0x54 => some (wordOf (boundClip m.bRun) 1)
  | _ => none

/-- The state field of VEC_STATUS but gated (R116). -/
def vecStateCode : VecState → Nat
  | .idle => 0 | .running => 1 | .waitStall => 2 | .sendStall => 3 | .sync => 4 | .preempted => 5 | .halted => 6

/-- Registers of a vector tile that its state makes (R116). DEDUCED: log 18. -/
def State.viewVec (s : State) (b off : Nat) : Option Nat :=
  let v := s.vecAt b
  if off = 0x0 then some ((if s.vecOk b then 0 else 2 ^ 31) + b)
  else if off = 0x4 then
    some ((if s.gated (quarterOfBay b) then 7 else vecStateCode v.state) * 2 ^ 24 + v.reps.length * 2 ^ 21 +
      v.sends.length * 2 ^ 18 + v.pc % 4096)
  else if 0x30 ≤ off ∧ off < 0x50 then some (vecBlockWord v ((off - 0x30) / 4))
  else if 0x1000 ≤ off ∧ off < 0x2000 then
    (match v.state with
      | .preempted => some (imgN (vecImage v) (off - 0x1000) 4)
      | .halted => some (imgN (vecImage v) (off - 0x1000) 4)
      | .idle => some 0
      | _ => some (Config.freeWord s.free).toNat)
  else none

/-- Staging blocks of an engine that channels hold (R128). -/
def State.stagingHeld (s : State) (b : Nat) : Nat := (List.range 16).foldl (fun n c => n + (s.chanAt b c).heldCount) 0

/-- What the registers of a channel show: of a stream that has not started, the stream before it (R144). -/
def Chan.showing (c : Chan) : ChanShown :=
  if c.state == .waitBarrier then c.shown else ⟨c.status, c.desc.layer, c.done, c.faultAddr, c.cursor⟩

/-- Registers of a channel that its state makes (R144). -/
def Chan.view (c : Chan) (o : Nat) : Option Nat :=
  let x := c.showing
  match o with
  | 0x0 => some c.stateWord
  | 0x8 => some (x.status * 2 ^ 24 + x.layer)
  | 0x10 => some (wordOf x.delivered 0)
  | 0x14 => some (wordOf x.delivered 1)
  | 0x18 => some (wordOf x.faultAddr 0)
  | 0x1C => some (wordOf x.faultAddr 1)
  | 0x20 => some (wordOf x.cursor 0)
  | 0x24 => some (wordOf x.cursor 1)
  | 0x28 => some (wordOf x.cursor 2)
  | 0x2C => some (wordOf x.cursor 3)
  | _ => none

/-- Registers of a stream engine that its state makes (R144). -/
def State.viewStr (s : State) (b off : Nat) : Option Nat :=
  if 0x100 ≤ off ∧ off < 0x500 then (s.chanAt b ((off - 0x100) / 0x40)).view ((off - 0x100) % 0x40)
  else
    match off with
    | 0x0 => some ((if s.bayOk b then 0 else 2 ^ 31) + b)
    | 0x4 => some (((List.range 16).foldl (fun n c => if (s.chanAt b c).live then n + 2 ^ (16 + c) else n) 0) +
        ((List.range 16).foldl (fun n c => if (s.chanAt b c).state == .paused then n + 2 ^ c else n) 0))
    | 0xC => some (s.floors b * 2 ^ 16 + (64 - s.floors b - s.poolTaken b) * 2 ^ 8 + (64 - s.stagingHeld b))
    | _ => none

/-! ### Compute die windows -/

/-- A job has bays on a die. -/
def Job.onDie (j : Job) (d : Nat) : Bool :=
  (j.phase == .running || j.phase == .preempting || j.phase == .ending) && j.placed.any (fun q => q / 4 == d)

/-- Registers of the SEQ summary that the state makes (R166). DEDUCED: log 18. -/
def State.viewSeq (s : State) (d off : Nat) : Option Nat :=
  let en (i : Nat) : Bool := s.bayOk (d * 64 + i)
  let busy (i : Nat) : Bool := (s.bayAt (d * 64 + i)).job.isSome
  match off with
  | 0x0 => some ((if decide (5 ≤ s.bootPhase) then (maskWord 0 (fun k => decide (k < 4) && s.ctrlOk (4 * d + k))) * 16 else 0) + d)
  | 0x8 => some (s.fw (maskWord 0 en))
  | 0xC => some (s.fw (maskWord 32 en))
  | 0x10 => some (maskWord 0 busy)
  | 0x14 => some (maskWord 32 busy)
  | 0x20 => some ((s.jobs.filter (fun e => e.2.onDie d)).length % 2 ^ 16)
  | _ => none

/-- The frequency of a global in kHz (R181, R182, R197): that of the PLL output it follows; that of a signal from outside or from
logic is not for the spec to say, and is free. A global that does not run reads 0. DEDUCED: log 18. -/
def State.clkKhz (s : State) (d g : Nat) : Nat :=
  if !s.globalRuns d g then 0
  else match s.globalInputs d g with
    | some (.pll n o, _) => (match s.pllOf d n with | some c => pllKhz c o % 2 ^ 20 | none => 0)
    | _ => (Config.freeWord s.free).toNat % 2 ^ 20

/-- The delay calibration of a die's I/O cells (R195, R197): while it has not converged the register reads as at reset; then
the mean tap is within 2 % of 4,000 fs. When it converges the spec does not say. DEDUCED: log 18. -/
def State.delayCal (s : State) (d : Nat) : Nat :=
  let w := (Config.freeWord s.free).toNat
  if d < 12 || !decide (2 ≤ s.bootPhase) || w / 2 ^ 31 = 0 then 0 else 2 ^ 31 + 3920 + w % 161

/-- Registers of the LGA summary that the state makes (R197): the open ports, the frequency of a global, and what the
calibration of the delay taps measures. DEDUCED: log 18. -/
def State.viewLga (s : State) (d off : Nat) : Option Nat :=
  if 0xA0 ≤ off ∧ off < 0xC0 then
    some (maskWord ((off - 0xA0) * 8) (fun i => s.portOpen (d * 64 + i / 4) (i % 4)))
  else if 0x40 ≤ off ∧ off < 0x80 then
    some (s.clkKhz d ((off - 0x40) / 4))
  else if off = 0xD4 then some (s.delayCal d)
  else none

/-- Sixteen router modes in one word (R247, R376). -/
def modesWord (f : Nat → Nat) : Nat := (List.range 16).foldl (fun n k => n + f k * 4 ^ k) 0

/-- Registers of the NOC block of a bay's router that the state makes (R247). DEDUCED: log 99. -/
def State.viewNoc (s : State) (b off : Nat) : Option Nat :=
  let r := routerOfBay b
  if off = 0x0 then some (rx r * 2 ^ 26 + ry r * 2 ^ 20 + s.fw (s.routerMode r) * 2 ^ 18 + b / 64)
  else if off = 0x4 then some (if s.rbit (regKey (.noc b) Reg.NOC_CTRL) 1 || decide (2 ≤ s.bootPhase) then 2 else 0)
  else if off = 0x8 then some (maskWord 0 (s.epCut b))
  else if 0x40 ≤ off ∧ off < 0x140 then some (modesWord (fun k => s.routerMode ((off - 0x40) * 4 + k)))
  else if 0x680 ≤ off ∧ off < 0x800 ∧ !s.hasController b then some 0
  else if off = 0x140 then some (s.setOutstanding r 1 % 2 ^ 16 * 2 ^ 16 + s.setOutstanding r 0 % 2 ^ 16)
  else none

/-- Registers of the CRM summary that the state makes (R267). -/
def State.viewCrm (s : State) (d off : Nat) : Option Nat :=
  if off = 0x0 then some (if decide (3 ≤ s.bootPhase) then 1 else 0)
  else if 0x100 ≤ off ∧ off < 0x200 then some (s.fw (s.sliceRows (d * 64 + (off - 0x100) / 4)))
  else if 0x1000 ≤ off ∧ off < 0x4000 then
    let b := d * 64 + (off - 0x1000) / 0xC0
    some (s.fw (maskWord ((off - 0x1000) % 0xC0 * 8) (fun r => s.rowRemoved b r)))
  else none

/-! ### Edge die windows -/

/-- Word w of the map of usable channels (R268, R376). -/
def State.chanMap (s : State) (w : Nat) : Nat := maskWord (32 * w) (fun c => decide (2 ≤ s.chanState c))

/-- Registers of the DRC block that the state makes (R268). DEDUCED: log 18. -/
def State.viewDrc (s : State) (e off : Nat) : Option Nat :=
  match off with
  | 0x0 => some ((if s.tierOpen then 2 ^ 31 else 0) +
      (if s.tierOpen then s.fld (drcReg 0 Reg.DRC_STATUS) 22 16 else s.fw s.usableChans.length) * 2 ^ 16 +
      (List.range 16).foldl (fun n k =>
        if decide (2 ≤ s.chanState (16 * e + k)) && decide (s.chanState (16 * e + k) ≤ 4) then n + 2 ^ k else n) 0)
  | 0x8 => some (s.chanMap 0)
  | 0xC => some (s.chanMap 1)
  | _ => none

/-- Requests that an edge die holds as a home edge. -/
def State.homeHeld (s : State) (e : Nat) : Nat :=
  (s.home.filter (fun x => match x.2 with | .req r _ _ _ => homeEdge r.src == e | _ => false)).length

/-- A drain tracker's registers: an idle one reads zero; the time it has run passes outside the model (R276, R293).
DEDUCED: log 18. -/
def State.viewTracker (s : State) (e t : Nat) (hi : Bool) : Nat :=
  match tget (fun _ => 0) s.trackers (64 * e + t) with
  | 0 => 0
  | i + 1 => if hi then Config.elapsed s.free % 2 ^ 16 * 2 ^ 16 + s.winInFlight e i % 2 ^ 13 else 2 ^ 31 + i

/-- Registers of the EOV block that the state makes (R293). DEDUCED: log 18. -/
def State.viewEov (s : State) (e off : Nat) : Option Nat :=
  if 0x100 ≤ off ∧ off < 0x300 then some (s.viewTracker e ((off - 0x100) / 8) (off % 8 == 4))
  else
    match off with
    | 0x0 => some ((if s.fabricOpen s.activeSet then 2 ^ 31 else 0) + s.moduleId s.activeSet * 2 ^ 8 +
        maskWord 0 (fun p => decide (p < 3) && s.portUp (3 * e + p)))
    | 0x3C => some (s.homeHeld e % 2 ^ 13)
    | 0x50 => some (countWhere 64 (fun t => tget (fun _ => 0) s.trackers (64 * e + t) != 0))
    | _ => none

/-! ### Ryhal's blocks -/

/-- Registers of the HIF block that the state makes (R338). -/
def State.viewHif (s : State) (off : Nat) : Option Nat :=
  match off with
  | 0x0 => some (0x6A160000 + s.variant * 2 ^ 8)
  | 0x4 => some (s.rdN (hifReg Reg.HIF_STATUS) - s.fld (hifReg Reg.HIF_STATUS) 28 28 * 2 ^ 28 +
      s.fw (s.fld (hifReg Reg.HIF_STATUS) 28 28 * 2 ^ 28))
  | 0x8 => some ((if s.rbit (hifReg Reg.HIF_LINK_MODE) 31 then 2 ^ 31 else 0) + s.fw (if s.nv.bifurcate then 1 else 0))
  | _ => none

/-- Registers of a page that the state makes: the status of the function, and those of the selected ring (R339). -/
def State.viewPage (s : State) (f off : Nat) : Option Nat :=
  let ring (o : Nat) : Option Nat :=
    some (s.rdN (ringKey f (s.rbit (pageReg f Reg.HIF_RING_SEL) 31) (s.fld (pageReg f Reg.HIF_RING_SEL) 9 0) o))
  match off with
  | 0x10 => some ((if s.isReady then 2 ^ 31 else 0) +
      (match s.partOfFn f with | some p => 2 ^ 30 + p * 2 ^ 26 | none => 0))
  | 0x28 => ring 0x0
  | 0x2C => ring 0x4
  | 0x30 => ring 0x8
  | 0x34 => ring 0xC
  | 0x3C => ring 0x10
  | 0x40 => ring 0x14
  | _ => none

/-- Registers of the CTL block that the state makes: retiring, the resets asked for and not ended, and the two images (R6,
R341, R349, R358). DEDUCED: log 94. -/
def State.viewCtl (s : State) (off : Nat) : Option Nat :=
  if off = 0x0 then some (s.rdN (ctlReg Reg.CTL_STATUS) % 4 + (if s.retiring then 4 else 0))
  else if off = Reg.CTL_PART_RESET then some (s.rdN (ctlReg Reg.CTL_PART_RESETTING))
  else if 0x40000 ≤ off ∧ off < 0x60000 then some (setWord (s.rdN (setKey (1 - s.activeSet) (off - 0x40000))) (off - 0x40000))
  else if 0x80000 ≤ off ∧ off < 0xA0000 then some (setWord (s.rdN (setKey s.activeSet (off - 0x80000))) (off - 0x80000))
  else none

/-- The defect list with the source of each entry: the list of the boot, then the units removed (R367, R376). -/
def State.defectEntries (s : State) : List (Nat × Nat) :=
  s.plan.defects.map (fun d => (d.unit, d.source)) ++ s.removedUnits.map (fun u => (u, 3))

/-- Registers of the record of die d (R376). -/
def State.viewDie (s : State) (d o : Nat) : Option Nat :=
  if o < 0x40 then some (s.fw (maskWord (8 * o) (fun t => s.tileOk (d * 512 + t))))
  else if 0x50 ≤ o ∧ o < 0x60 then
    some (s.fw (modesWord (fun k => s.routerMode (routerOfBay (d * 64 + (o - 0x50) * 4 + k)))))
  else
    match o with
    | 0x40 => some (s.fw (maskWord 0 (fun b => s.vecOk (d * 64 + b))))
    | 0x44 => some (s.fw (maskWord 32 (fun b => s.vecOk (d * 64 + b))))
    | 0x48 => some (s.fw (maskWord 0 (fun b => s.bayOk (d * 64 + b))))
    | 0x4C => some (s.fw (maskWord 32 (fun b => s.bayOk (d * 64 + b))))
    | 0x60 => some (s.fw ((List.range 64).foldl (fun n b => n + s.sliceRows (d * 64 + b)) 0))
    | 0x64 =>
      let four (p : Nat → Bool) : Nat := maskWord 0 (fun k => decide (k < 4) && p (4 * d + k))
      some (four s.testing * 2 ^ 10 + s.fw ((if s.dieReach d then 2 ^ 9 else 0) + (if s.logicOk d then 2 ^ 8 else 0) +
        four s.ctrlOk * 2 ^ 4 + four s.quarterOk))
    | _ => none

/-- Registers of the FPL block that the state makes (R376). -/
def State.viewFpl (s : State) (off : Nat) : Option Nat :=
  if 0x1000 ≤ off ∧ off < 0x2000 then s.viewDie ((off - 0x1000) / 0x100) (off % 0x100)
  else if 0x4000 ≤ off ∧ off < 0x10000 then
    some (s.fw (match s.defectEntries[(off - 0x4000) / 8]? with
      | none => 0
      | some (u, src) => if off % 8 = 0 then u else src * 2 ^ 30 + s.countShown u * 2 ^ 28))
  else if 0x10000 ≤ off ∧ off < 0x10800 then some (nthN s.fieldShown ((off - 0x10000) / 4))
  else
    match off with
    | 0x0 => some (s.rdN (regKey .fpl Reg.FPL_STATUS) + s.variant * 2 ^ 8)
    | 0x8 => some (s.fw s.mtxEnabled)
    | 0xC => some (s.fw s.vecEnabled)
    | 0x10 => some (s.fw (maskWord 0 (fun l => decide (l < 48) && s.laneOk l)))
    | 0x14 => some (s.fw (maskWord 32 (fun l => decide (l < 48) && s.laneOk l)))
    | 0x18 => some (s.fw (s.chanMap 0))
    | 0x1C => some (s.fw (s.chanMap 1))
    | 0x20 => some (s.fw (maskWord 0 s.quarterOk))
    | 0x24 => some (s.fw (maskWord 32 s.quarterOk))
    | 0x28 => some (s.fw (maskWord 0 (fun d => decide (d < 16) && s.logicOk d)))
    | 0x2C => some (s.fw s.cremaRows)
    | 0x30 => some s.fieldShown.length
    | 0x34 => some (s.fw (min s.defectCount 6144))
    | _ => none

/-- Registers of the SEC block that the state makes (R383, R389, R395). -/
def State.viewSec (s : State) (off : Nat) : Option Nat :=
  let x := s.secStore
  if 0x100 ≤ off ∧ off < 0x500 then some (s.fw (x.counter ((off - 0x100) / 4)))
  else
    match off with
    | 0x0 => some (s.rdN (secReg Reg.SEC_STATUS) &&& 0xF000C000 ||| s.fw (s.rdN (secReg Reg.SEC_STATUS) &&& 0x1000) ||| (x.lifecycle * 2 ^ 24 +
        (match x.owner with | some p => p * 2 ^ 21 + 2 ^ 20 | none => 0) +
        (List.range 4).foldl (fun n v => if x.vendorRevoked.contains v then n + 2 ^ (16 + v) else n) 0 +
        s.fw (if x.ock.isSome then 2 ^ 13 else 0)))
    | 0x18 => some (wordOf Config.serial.toNat 0)
    | 0x1C => some (wordOf Config.serial.toNat 1)
    | _ => none

/-- The half of the window table that the access port shows, and the entry and byte at a port offset (R275). -/
def State.wtpEntry (s : State) (off : Nat) : Nat × Nat × Nat :=
  (off / 0x400000, (off % 0x400000 / 128 + 32768 * s.fld (eovReg 0 Reg.EOV_WTP_SEL) 0 0) * 8 + off % 128 / 16, off % 16)

/-! ### Reading -/

/-- What a register shows, and the state after: the clock passes outside the model, and so does what a sensor measures.
DEDUCED: log 18. -/
def State.readReg (s : State) (b : Block) (off : Nat) : Word × State :=
  let view (v : Option Nat) : Word × State := (BitVec.ofNat 32 (v.getD (s.rdN (regKey b off))), { s with free := s.free + 1 })
  match b with
  | .mtx t => view (s.viewMtx t off)
  | .vec v => view (s.viewVec v off)
  | .str e => view (s.viewStr e off)
  | .seq d => view (s.viewSeq d off)
  | .lga d => view (s.viewLga d off)
  | .noc r => view (s.viewNoc r off)
  | .crm d => view (s.viewCrm d off)
  | .drc e => view (s.viewDrc e off)
  | .eov e => view (s.viewEov e off)
  | .lnk e => view (if off = 0 then some (s.rdN (lnkReg e 0) / 4096 % 2 * 4096 +
      maskWord 0 (fun k => decide (k < 12) && s.laneOk (12 * e + k))) else none)
  | .hif => view (s.viewHif off)
  | .page f => view (s.viewPage f off)
  | .ctl => view (s.viewCtl off)
  | .fpl => view (s.viewFpl off)
  | .sec => view (s.viewSec off)
  | .wtp =>
    let x := s.wtpEntry off
    (BitVec.ofNat 32 (wordOf (s.winAt x.1 x.2.1) (x.2.2 / 4)), s)
  | .mbx => view (if off % 0x1000 = Reg.MBX_OUT_LO then some 0
      else if off % 0x1000 = Reg.MBX_DB_SET then some (s.rdN (mbxReg (off / 0x1000) Reg.MBX_DB)) else none)
  | .rtc =>
    if off = 0 then
      let t := s.now
      (BitVec.ofNat 32 t.1, t.2.wr64 (rtcReg Reg.RTC_TIME) t.1)
    else if off = 0xC then view (some ((Config.freeWord s.free).toNat % 2 ^ 16))
    else view none
  | _ => view none

/-! ### 64-bit registers (R73) -/

/-- The LO half of a 64-bit counter, or of a 64-bit register that reads as R73 lays down. DEDUCED: log 15. -/
def loHalf (b : Block) (off : Nat) : Bool :=
  match b with
  | .mtx _ => [0x10, 0x18, 0x20, 0x28].contains off
  | .vec _ => [0x10, 0x18].contains off
  | .str _ => [0x20, 0x28].contains off
  | .seq _ => [0x8, 0x10].contains off
  | .cfg _ => decide (0x100 ≤ off) && decide (off < 0x308) && off % 8 == 0
  | .noc _ => decide (0x200 ≤ off) && [0x0, 0x8, 0x10].contains ((off - 0x200) % 0x60)
  | .crm _ => [0x28, 0x30].contains off
  | .drc _ => decide (0x1000 ≤ off) && [0x80, 0x88, 0x90, 0x98, 0xA0].contains (off % 0x400)
  | .eov _ => decide (0x400 ≤ off) && [0x0, 0x8, 0x10].contains (off % 0x100)
  | .lnk _ => (decide (0x400 ≤ off) && decide (off < 0x700) && [0x20, 0x28].contains (off % 0x100)) ||
      (decide (0x1000 ≤ off) && [0x10, 0x18].contains (off % 0x100))
  | .pwr => decide (0x100 ≤ off) && decide (off < 0x300) && off % 0x20 == 0x10
  | .twn => [0x30, 0x40].contains off
  | .rtc => off == 0
  | _ => false

/-- The holding register of the HI half of a register. DEDUCED: log 15. -/
def holdKey (b : Block) (off : Nat) : Nat := 0x80000000 + regKey b off

/-- Read a register: a LO half captures the HI half, and a HI half shows what was captured (R73). DEDUCED: log 15. -/
def State.readHeld (s : State) (b : Block) (off : Nat) : Word × State :=
  if loHalf b off then
    let lo := s.readReg b off
    let hi := lo.2.readReg b (off + 4)
    (lo.1, hi.2.wr (holdKey b (off + 4)) hi.1)
  else if decide (4 ≤ off) && loHalf b (off - 4) then (s.rd (holdKey b off), s)
  else s.readReg b off

/-! ### Where an access goes (R4, R9, R10, R317, R353, R354) -/

/-- The domain of a block runs (R10). DEDUCED: log 17. -/
def State.blockLive (s : State) (b : Block) (off : Nat) : Bool :=
  match b with
  | .mtx t => s.epIsolated (t / 8) (4 + t % 8) == false
  | .vec v => s.epIsolated v 3 == false
  | .str v => s.epIsolated v 2 == false
  | .noc r => s.dieLive (r / 64) && s.routerMode (routerOfBay r) == 0
  | .seq d => s.dieLive d
  | .lga d => s.dieLive d
  | .cfg d => s.dieLive d
  | .crm d => s.dieLive d
  | .drc e => s.edgeLive e
  | .lnk e => s.edgeLive e
  | .eov e => s.edgeLive e
  | .wtp => s.edgeLive (off / 0x400000)
  | .mbx => s.endpointLive (off / 0x1000)
  | _ => true

/-- Where a word of a request lands. -/
inductive Landed where
  /-- reserved space -/
  | hole
  /-- an offset of a die window, or of a block in one, that no register map lists -/
  | gap (b : Block) (off : Nat)
  /-- a register of a block -/
  | reg (b : Block) (off : Nat)
  /-- the staged low word, or the commit, of a function's message to endpoint 48 -/
  | send (f : Nat) (hi : Bool)
  deriving DecidableEq, Repr

/-- A register of a block, where its map has one. An offset that the map does not list is taken as reserved space (R9).
DEDUCED: log 16. -/
def landBlock (b : Block) (off : Nat) : Landed :=
  if b = .wtp ∨ (findRow b off).isSome then .reg b off else .hole

/-- Where a word of a function's page lies (R317, R353, R354). -/
def State.landPage (s : State) (f : Func) (off : Nat) : Landed :=
  if off < 0x800 then landBlock (.page f) off
  else if off < 0xC00 then
    match s.endpointOf f with
    | some e => if off - 0x800 < 0x30 then landBlock .mbx (0x1000 * e + (off - 0x800)) else .hole
    | none => .hole
  else if off = 0xC00 then .send f false
  else if off = 0xC04 then .send f true
  else .hole

/-- Where a word of a BAR0 request lies (R8): what no map lists in a die window still belongs to the window's domain (R10).
DEDUCED: log 16. -/
def landBar0 (a : Nat) : Landed :=
  match bar0Block a with
  | some (b, off) => if decide (0x1000000 ≤ a) && landBlock b off == .hole then .gap b off else landBlock b off
  | none =>
    if 0x1000000 ≤ a ∧ a < 0x2000000 then .gap (.seq (Fin.ofNat 16 (a / 0x100000 - 16))) (a % 0x100000)
    else if 0x2000000 ≤ a ∧ a < 0x2400000 then .gap (.lnk (Fin.ofNat 4 (a / 0x100000 - 32))) (a % 0x100000)
    else .hole

/-- Where a word of a BAR2 request lies: function 0 reaches every page (R317). -/
def State.landBar2 (s : State) (f : Func) (a : Nat) : Landed :=
  if f = 0 then (if a < 0x40000 then s.landPage (Fin.ofNat 64 (a / 0x1000)) (a % 0x1000) else .hole) else s.landPage f a

/-- A request of 4 or 8 bytes, naturally aligned (R4). -/
def goodSize (a size : Nat) : Bool := (size == 4 || size == 8) && a % size == 0

/-- Read one word of a host request: zero from reserved space, all ones from a domain that does not run, both logged. -/
def State.readLanded (s : State) (x : Landed) (bar2 : Bool) (a : Nat) : Word × State :=
  match x with
  | .hole => (0, s.logAccess 1 bar2 a)
  | .gap b off => if s.blockLive b off then (0, s.logAccess 1 bar2 a) else (0xFFFFFFFF, s.logAccess 2 bar2 a)
  | .send _ _ => (0, s)
  | .reg b off => if s.blockLive b off then s.readHeld b off else (0xFFFFFFFF, s.logAccess 2 bar2 a)

/-- Read the words of a host request, lower address first (R4). -/
def State.readWords (s : State) (land : State → Nat → Landed) (bar2 : Bool) (a : Nat) : Nat → List Word × State
  | 0 => ([], s)
  | n + 1 =>
    let x := s.readLanded (land s a) bar2 a
    let y := x.2.readWords land bar2 (a + 4) n
    (x.1 :: y.1, y.2)

end Sys2Proof.Machine
end

