-- ==== Sys2Proof/Machine/Sec.lean ====
section
/-! DEFINITION. The services of the security module: how a request is judged when it is taken, and what it does when it is
done (R378 to R394). -/

namespace Sys2Proof.Machine

/-! ### Requests (R380) -/

/-- Bytes of a service's request: the fields of R380 one after another from the start of SEC_REQ.
DESIGN CHOICE: log 105. -/
def reqBytes (op : Nat) : Nat :=
  match op with
  | 0x10 => 34 | 0x11 => 65 | 0x12 => 8 | 0x20 => 40 | 0x21 => 40 | 0x22 => 1985 | 0x23 => 72 | 0x24 => 1 | 0x25 => 8
  | 0x26 => 5 | _ => 0

/-- The request that stands in SEC_REQ. DESIGN CHOICE: log 105. -/
def State.request (s : State) (op : Nat) : List Byte :=
  (s.rdBytes (secReg Reg.SEC_REQ) ((reqBytes op + 3) / 4)).take (reqBytes op)

def reqNat (r : List Byte) (o n : Nat) : Nat := bytesNat ((r.drop o).take n)

/-- The op names a service. -/
def isService (op : Nat) : Bool :=
  [0x01, 0x02, 0x10, 0x11, 0x12, 0x20, 0x21, 0x22, 0x23, 0x24, 0x25, 0x26, 0x30, 0x31].contains op

/-- The service has no role (R379). -/
def openService (op : Nat) : Bool := op == 0x01 || op == 0x02

/-- Roles that may have a service: as the user, as the crypto officer (R380). -/
def userMay (op : Nat) : Bool := op == 0x10 || op == 0x11 || op == 0x12 || op == 0x30
def officerMay (op : Nat) : Bool := op == 0x12 || decide (0x20 ≤ op)

/-! ### Authentication (R379) -/

/-- The message a crypto officer signs. DESIGN CHOICE: log 105. -/
def officerMsg (challenge req : List Byte) : List Byte :=
  sha512 (ascii "GARNOS CO" ++ natBytes 8 Config.serial.toNat ++ challenge ++ req)

/-- The slots under which a crypto officer may sign a request: the current owner's, or, while there is none, usable vendor
slots; for a revocation vendor slots other than the one named (R379, R380). -/
def SecStore.officerSlots (x : SecStore) (op : Nat) (req : List Byte) : List Nat :=
  if op = 0x24 then (List.range 4).filter (fun v => x.slotUsable v && v != reqNat req 0 1)
  else match x.owner with
    | some p => [0x10 + p]
    | none => (List.range 4).filter x.slotUsable

/-- Both signatures verify under a slot. Where an owner installs its first signer keys, they are those of the request, which
its fuse hash vouches for (R391). DEDUCED: log 106. -/
def SecStore.officerVerify (x : SecStore) (op : Nat) (req msg ed ml : List Byte) (slot : Nat) : Bool :=
  if x.slotUsable slot then x.bothVerify slot msg ed ml
  else if op = 0x22 ∧ reqNat req 0 1 = slot ∧ x.slotHash slot = some (sha512 (req.drop 1)) then
    edVerify ((req.drop 1).take 32) msg ed && mldsaVerify (req.drop 33) msg ml
  else false

/-- The slots a credential verifies under; for a user, whether it verifies. -/
def State.verifies (s : State) (op : Nat) (req : List Byte) : Credential → Bool × List Nat
  | .none => (false, [])
  | .user mac =>
    match s.sec.challenge, s.secStore.uak with
    | some c, some k => (kmac256 k (c ++ req) "GARNOS USER" == mac, [])
    | _, _ => (false, [])
  | .officer ed ml =>
    match s.sec.challenge with
    | some c =>
      let vs := (s.secStore.officerSlots op req).filter (fun v => s.secStore.officerVerify op req (officerMsg c req) ed ml v)
      (!vs.isEmpty, vs)
    | none => (false, [])

def isOfficer : Credential → Bool
  | .officer _ _ => true
  | _ => false
def isUser : Credential → Bool
  | .user _ => true
  | _ => false

/-- An authentication fails: counted, flagged, and the eighth in a row brings the refusal of 60 s. -/
def State.authFail (s : State) : State :=
  let s := (s.secFlag 5).bump (secReg Reg.SEC_AUTH_FAILS) 1
  s.setSec { s.sec with strikes := s.sec.strikes + 1, lockout := s.sec.lockout || decide (8 ≤ s.sec.strikes + 1) }

/-- Judge a service (R379, R380, R382): the status it is refused with, or 0, and the slots it is signed under. A request that
needs a role consumes the challenge, whatever becomes of it. DEDUCED: log 106. -/
def State.judge (s : State) (op : Nat) (req : List Byte) (c : Credential) : Nat × List Nat × State :=
  let no (s : State) : Nat × List Nat × State := (0x76, [], s.secFlag 0)
  let shut := s.secState == 2 || s.secState == 4 || s.secState == 0
  if !isService op || (openService op && shut) then no s
  else if openService op then (0, [], s)
  else
    let v := s.verifies op req c
    let t := s.setSec { s.sec with challenge := none }
    let t := if isOfficer c && !shut then t.verifyTimed else t
    if shut || s.sec.lockout || (s.secState == 3 && isUser c) then no t
    else if !v.1 then (0x75, [], t.authFail)
    else
      let t := t.setSec { t.sec with strikes := 0 }
      if (isUser c && !userMay op) || ((isOfficer c) && !officerMay op) then no t else (0, v.2, t)

/-- A service is refused while another is under way: the challenge is used up where a role is needed, and the result shows the
refusal (R379, R380). DEDUCED: log 106. -/
def State.turnedAway (s : State) (op : Nat) : State :=
  let s := if isService op && !openService op then s.setSec { s.sec with challenge := none } else s
  (s.secFlag 0).wr (secReg Reg.SEC_RESULT) 0x76000000

/-- Take a service from SEC_CMD (R380). DEDUCED: log 106. -/
def State.takeService (s : State) (op : Nat) (c : Credential) : State :=
  if s.sec.service.isSome then s.turnedAway op
  else
    let req := s.request op
    let j := s.judge op req c
    let s := j.2.2
    let s := s.setSec { s.sec with service := some (SecService.mk op req j.1 (isOfficer c) j.2.1) }
    let s := s.wrFld (secReg Reg.SEC_STATUS) 15 14 2
    if op = 0x01 ∧ j.1 = 0 then (s.setSec { s.sec with back := s.secState }).setSecState 0 else s

/-- A write of an op to SEC_CMD by function 0. -/
def State.service (s : State) (op : Nat) (c : Credential) : Out := s.bar0Do (secReg Reg.SEC_CMD) (fun s => s.takeService op c)

/-- SELF_TEST, CHALLENGE (R380). -/
def execSelfTest (s : State) : Out := s.service 0x01 .none
def execChallenge (s : State) : Out := s.service 0x02 .none
/-- ATTEST (R380, R389). -/
def execAttest (c : Credential) (s : State) : Out := s.service 0x10 c
/-- EXTEND (R380, R387). -/
def execExtend (c : Credential) (s : State) : Out := s.service 0x11 c
/-- SET_TIME (R380, R392). -/
def execSetTime (c : Credential) (s : State) : Out := s.service 0x12 c
/-- INSTALL_OCK, INSTALL_UAK, INSTALL_SIGNER_KEYS (R380). -/
def execInstallOck (c : Credential) (s : State) : Out := s.service 0x20 c
def execInstallUak (c : Credential) (s : State) : Out := s.service 0x21 c
def execInstallSignerKeys (c : Credential) (s : State) : Out := s.service 0x22 c
/-- TRANSFER_OWNERSHIP (R380, R391). -/
def execTransferOwnership (c : Credential) (s : State) : Out := s.service 0x23 c
/-- REVOKE_VENDOR_SLOT (R380). -/
def execRevokeVendorSlot (c : Credential) (s : State) : Out := s.service 0x24 c
/-- INSTALL_FIRMWARE (R380, R384). -/
def execInstallFirmware (c : Credential) (s : State) : Out := s.service 0x25 c
/-- ADVANCE_COUNTER (R380, R385). -/
def execAdvanceCounter (c : Credential) (s : State) : Out := s.service 0x26 c
/-- ZEROISE, SCRAP (R380, R382). -/
def execZeroise (c : Credential) (s : State) : Out := s.service 0x30 c
def execScrap (c : Credential) (s : State) : Out := s.service 0x31 c

/-! ### Effects -/

/-- What a service that was let through ends with: its status, its response, and the state it leaves. -/
abbrev Served := Nat × List Byte × State

/-- A refusal by the effect's own rule. -/
def State.refuseService (s : State) : Served := (0x76, [], s.secFlag 0)

/-- Extend M7 with the request (R386). -/
def State.extendM7 (s : State) (req : List Byte) : State := s.extend 7 7 (sha512 req) false

/-- A fresh challenge (R378, R380). -/
def State.freshChallenge (s : State) : Served :=
  let r := s.draw
  (0, [], (r.2.setSec { r.2.sec with challenge := some r.1 }).wrBytes (secReg Reg.SEC_CHALLENGE) r.1)

/-- The body of an attestation report and the registers selected (R389). -/
def State.reportBody (s : State) (nonce : List Byte) (mask time : Nat) : List Byte :=
  let x := s.secStore
  let w0 := 2 ^ 24 + x.lifecycle * 2 ^ 20 + s.variant % 16 * 2 ^ 16 + mask
  let w1 := 0x6A16 * 65536 + (if s.rbit (secReg Reg.SEC_ERR_FLAGS) 2 then 4 else 0) +
    (if s.rbit (regKey .fpl Reg.FPL_STATUS) 30 then 2 else 0) + (if s.timeValid then 1 else 0)
  let owner := match x.owner with | some p => p | none => 0xFFFFFFFF
  let hash := match x.owner with | some p => (x.slotHash (0x10 + p)).getD [] | none => List.replicate 64 0
  natBytes 4 w0 ++ natBytes 4 w1 ++ natBytes 8 Config.serial.toNat ++ natBytes 8 time ++
  natBytes 4 (s.rdN (secReg Reg.SEC_LOG_ENTRIES)) ++ natBytes 4 owner ++ nonce ++ hash ++
  (List.range 16).flatMap (fun i => natBytes 4 (x.counter i)) ++ List.replicate 64 0 ++
  ((List.range 16).filter (fun r => bitOf mask r)).flatMap s.mreg

/-- Attest (R383, R388, R389): a report signed with both identity keys, and behind it the certificates as far as SEC_RESP holds
them. DESIGN CHOICE: log 107. -/
def State.attest (s : State) (req : List Byte) : Served :=
  let mask := reqNat req 32 2
  if 7 < ((List.range 16).filter (fun r => bitOf mask r)).length ∨ s.sec.erased then s.refuseService
  else
    let t := s.now
    let s := t.2
    let b := s.reportBody (req.take 32) mask t.1
    let d := sha512 b
    let r := s.draw
    (0, (b ++ edSign edSeed d ++ mldsaSign mldsaSeed d r.1 ++ [0, 0, 0] ++ Config.certificates).take 4096, r.2)

/-- Set time (R392). -/
def State.setTime (s : State) (new : Nat) (officer : Bool) : Served :=
  let t := s.now
  let s := t.2
  let step := max new t.1 - min new t.1
  if !officer && s.timeValid && decide (60 * 65536 < step) then
    (s.setFlag (rtcReg Reg.RTC_ERR_FLAGS) 1).refuseService
  else
    let s := (s.wr64 (rtcReg Reg.RTC_TIME) new).wrFld (rtcReg Reg.RTC_STATUS) 31 31 1
    (0, [], (s.bump (rtcReg Reg.RTC_SET_COUNT) 1).wr64 (rtcReg Reg.RTC_LAST_SET) new)

/-- Zeroise (R382, R394): the owner's keys, the volatile keys and the controllers' key registers are erased; a load in
progress fails. -/
def State.zeroiseKeys (s : State) : State :=
  let s := s.setStore { s.secStore with ock := none, uak := none }
  let s := s.setSec { s.sec with erased := true, drbg := none, challenge := none }
  s.each (List.range 16) (fun s d => s.failLoad d 8 0x72 0)

/-- Store a key that comes wrapped under KEK_entry; an OCK brings a zeroised module back to the approved state, whose services
have the identity keys (R382, R383). DEDUCED: log 106. -/
def State.installKey (s : State) (req : List Byte) (ock : Bool) : Served :=
  match kwUnwrap kekEntry req with
  | none => (0x73, [], s)
  | some k =>
    let x := s.secStore
    let s := if ock then s.setStore { x with ock := some k } else s.setStore { x with uak := some k }
    let s := if ock && s.secState == 3 then (s.setSec { s.sec with erased := false }).setSecState 1 else s
    (0, [], s.extendM7 req)

/-- Install signer keys: stored only when they hash to the slot's fuse value. -/
def State.installSigners (s : State) (req : List Byte) : Served :=
  let slot := reqNat req 0 1
  let x := s.secStore
  if x.slotHash slot = some (sha512 (req.drop 1)) then
    (0, [], (s.setStore { x with signers := tput x.signers slot (req.drop 1) }).extendM7 req)
  else (0x73, [], s)

/-- Transfer ownership (R391); `good`: the check bits of the new position verify. -/
def State.transferOwner (s : State) (req : List Byte) (good : Bool) : Served :=
  let x := s.secStore
  let t := s.now
  let s := t.2
  if !s.timeValid || decide (reqNat req 64 8 < t.1 / 65536) || decide (8 ≤ x.owners.length) ||
      (req.take 64).all (· == 0) then s.refuseService
  else
    let s := s.burnOwner (req.take 64) good
    if good then (0, [], (s.zeroiseKeys.setSecState 3).finishTransfer req) else s.refuseService

/-- Read and verify the three images of a set that stand one after another (R384): the status, and the images. A read that fails
refuses the service (R380). DEDUCED: log 101. -/
def State.readSet (s : State) (m : MemFind) : List Nat → Nat → List (List Byte) → Nat × List (List Byte) × State
  | [], _, got => (0, got, s)
  | t :: ts, A, got =>
    let h := s.readLong ryhalAgent A 256 m
    if h.1.status ≠ 0 then (0x76, got, h.2.secFlag 0)
    else if (if t = 0 then 0x200000 else 0x800000) < hdrNat h.1.data 0x0C 4 then (0x76, got, h.2.secFlag 0)
    else
      let r := h.2.readLong ryhalAgent A (fwBytes h.1.data) m
      if r.1.status ≠ 0 then (0x76, got, r.2.secFlag 0)
      else
        let v := r.2.verifyImage t r.1.data
        if v.1 ≠ 0 then (v.1, got, v.2) else State.readSet v.2 m ts (A + fwBytes h.1.data) (got ++ [r.1.data])

/-- Install firmware (R384): a verified set goes into the inactive bank, which the next start boots. -/
def State.installSet (s : State) (req : List Byte) (m : MemFind) : Served :=
  let r := s.readSet m [0, 1, 2] (reqNat req 0 8) []
  let s := r.2.2
  if r.1 ≠ 0 then (r.1, [], s)
  else
    let x := s.secStore
    let b := 1 - s.fld (secReg Reg.SEC_STATUS) 12 12
    let banks := r.2.1.zipIdx.foldl (fun t e => tput t (4 * b + e.2) e.1) x.banks
    (0, [], (s.setStore { x with banks := banks, bank := b }).extendM7 req)

/-- The effect of a service that was let through. DEDUCED: log 106. DESIGN CHOICE: log 107. -/
def State.serve (s : State) (v : SecService) (pass : Bool) (m : MemFind) : Served :=
  let req := v.req
  let x := s.secStore
  match v.op with
  | 0x01 => if pass then (0, [], s.setSecState s.sec.back) else (0x76, [], (s.secFlag 7).setSecState 2)
  | 0x02 => s.freshChallenge
  | 0x10 => s.attest req
  | 0x11 =>
    let r := reqNat req 0 1
    if 8 ≤ r ∧ r < 16 then (0, [], s.extend r 8 (req.drop 1) false) else s.refuseService
  | 0x12 => s.setTime (reqNat req 0 8) v.officer
  | 0x20 => s.installKey req true
  | 0x21 => s.installKey req false
  | 0x22 => s.installSigners req
  | 0x23 => s.transferOwner req pass
  | 0x24 =>
    let n := reqNat req 0 1
    if 4 ≤ n then s.refuseService
    else (0, [], (s.setStore { x with vendorRevoked := if x.vendorRevoked.contains n then x.vendorRevoked
                                                       else x.vendorRevoked ++ [n] }).extendM7 req)
  | 0x25 => s.installSet req m
  | 0x26 => (0, [], s.setStore (x.raise (reqNat req 0 1) (reqNat req 1 4)))
  | 0x30 => (0, [], (s.zeroiseKeys.setSecState 3).extendM7 req)
  | _ => (0, [], ((s.setStore { x with killed := true }).zeroiseKeys.setSecState 4).extendM7 req)

/-- SEC_SERVICE_DONE (R380): the service under way is done. `pass`: its tests passed, or the check bits it burned verify;
`m`: what reading an image meets. -/
def execSecServiceDone (pass : Bool) (m : MemFind) (s : State) : Out :=
  match s.sec.service with
  | none => impossible
  | some v =>
    let s := s.setSec { s.sec with service := none }
    let r := if v.status ≠ 0 then (v.status, [], s) else s.serve v pass m
    let s := r.2.2.wrFld (secReg Reg.SEC_STATUS) 15 14 1
    let s := s.wr (secReg Reg.SEC_RESULT) (BitVec.ofNat 32 (r.1 * 2 ^ 24 + r.2.1.length % 2 ^ 13))
    .next (s.wrBytes (secReg Reg.SEC_RESP) r.2.1)

/-- AUTH_LOCKOUT_END (R379): 60 s have passed since the eighth failure. -/
def execAuthLockoutEnd (s : State) : Out :=
  if s.sec.lockout then .next (s.setSec { s.sec with lockout := false, strikes := 0 }) else impossible

/-- ENTROPY_TEST_FAIL (R381, R394): a continuous test of the entropy source fails; a service under way ends refused, a
verification fails; in phase 1 bring-up stops. -/
def execEntropyTestFail (s : State) : Out :=
  if s.board.held || s.secState == 4 then impossible
  else
    let s := (s.secFlag 6).setSecState 2
    let s := if s.bootPhase = 0 then { s with plan := { s.plan with stopped := true } } else s
    .next (s.setSec { s.sec with service := s.sec.service.map (fun v =>
      if v.status = 0 then { v with status := if v.op = 0x25 then 0x72 else 0x76 } else v) })

end Sys2Proof.Machine
end

