-- ==== Sys2Proof/Machine/Str.lean ====
section
/-! DEFINITION. The commands of the stream engines (R126 to R144, R150). -/

namespace Sys2Proof.Machine

/-- A cycle in which a channel waits for a destination credit or a staging block (R144). -/
def State.creditWait (s : State) (b c : Nat) : State :=
  (s.setChan b c { s.chanAt b c with state := .creditWait }).bump (chReg b c Reg.STR_CH_CREDIT_WAIT) 1

/-- A stream starts: its floor is reserved, its counters start at 0 (R128, R144). A stream outside the plan whose floor the
engine cannot reserve beside the floors in force is refused (R129); one in the plan waits for it. DEDUCED: log 42. -/
def State.startStream (s : State) (b c : Nat) : Out :=
  let ch := s.chanAt b c
  if 64 < s.floors b + ch.desc.floor ∧ !ch.planned then
    let s := s.strFault b 0x80
    .next (s.failBay b 0x41 none 0)
  else if 64 < s.floors b + s.poolTaken b + ch.desc.floor then impossible
  else
    let s := s.each chCounters (fun s o => s.wr (chReg b c o) 0)
    .next (s.setChan b c { ch with state := .running })

/-- STREAM_BEGIN (R130): a placed stream without weight_ahead begins; a fetch or a copy waits until every output of the
layers before its own has been written. DEDUCED: log 45. -/
def execStreamBegin (b : Bay) (c : Channel) (s : State) : Out :=
  let ch := s.chanAt b c
  if ch.state != .waitBarrier || ch.desc.weightAhead || ch.stopReq ||
      (ch.desc.kind != 1 && s.outputsPending b ch.desc.layer ch.desc.bubble) then impossible
  else s.startStream b c

/-- WEIGHT_AHEAD_BEGIN (R131): a weight-ahead stream begins at the first pass acceptance of the layer before its own, or
at the command that opens its layer. -/
def execWeightAheadBegin (b : Bay) (c : Channel) (s : State) : Out :=
  let ch := s.chanAt b c
  if ch.state != .waitBarrier || !ch.desc.weightAhead || ch.stopReq || !s.weightAheadOpen b ch.desc.layer then impossible
  else s.startStream b c

/-- Translate the request at the front: from the cache, or by a walk that starts at the root (R150). -/
def State.translateFront (s : State) (b c : Nat) : State :=
  match (s.chanAt b c).todo with
  | [] => s
  | r :: _ =>
    let part := s.bayPart b
    if r.addr / 2 ^ 48 ≠ 0 then s.translated b c r .missing
    else
      match tlbFind (s.bayAt b).tlb part r.addr with
      | some (level, e) => s.translated b c r (leafTarget level e r.addr r.write)
      | none => s.startWalk b c r 0 (s.partFor (dieOfBay b) part).root

/-- A channel that forms no unit waits for a credit or a staging block that it lacks (R144): a fetch for the credit of its next
unit, a copy for a staging block, a store for one to grant where it holds none. -/
def State.lacks (s : State) (b c : Nat) : Bool :=
  let ch := s.chanAt b c
  match ch.desc.kind with
  | 0 => decide (ch.formed < ch.desc.rows)
  | 1 => decide (ch.formed < ch.desc.total) && ch.stages.all (·.complete) && !s.stagingFree b c
  | _ => decide (ch.formed < ch.desc.total)

/-- Accesses of a bay's engine that have set out and are not answered, table reads included (R117, R230). DEDUCED: log 43. -/
def State.engineFlying (s : State) (b : Nat) : Nat :=
  (List.range 16).foldl (fun n i => n + (s.chanAt b i).flying.length + (if (s.chanAt b i).walk.isSome then 1 else 0)) 0

/-- STREAM_REQUEST_ISSUE (R134, R117): the next request of the unit is translated and issued; the next unit is formed
once its credit or its records and its staging block are there, and the channel waits until then. -/
def execStreamRequestIssue (b : Bay) (c : Channel) (s : State) : Out :=
  let ch := s.chanAt b c
  let early (r : Req) : Bool := match ch.fault with | some f => decide (r.first < f.elem) | none => true
  if !ch.started || ch.state == .paused || ch.walk.isSome || decide (128 ≤ ch.flying.length) ||
      decide (1024 ≤ s.engineFlying b) || (ch.stopReq && ch.desc.kind != 1) then impossible
  else
    match ch.todo with
    | r :: _ => if early r then .next (s.translateFront b c) else impossible
    | [] =>
      if ch.fault.isSome then impossible
      else
        -- a store whose peer has stopped writes out what it holds (R142)
        let ch := if ch.stopReq && s.peerStopped b ch.desc && ch.arrivals.isEmpty then
          { ch with stages := ch.stages.map (fun g => { g with complete := true }) } else ch
        let s := s.setChan b c ch
        let s0 := s
        match s.formUnit b c with
        | none => .next ((if s.lacks b c then s.creditWait b c else s).settle b c)
        | some ch =>
          let s := (s.setChan b c ch).settle b c
          let s := if ch.heldCount = (s0.chanAt b c).heldCount then s else s.tookStaging s0 b c
          .next (if (s.chanAt b c).fault.isNone then s.translateFront b c else s)

/-- TABLE_WALK_RESPONSE (R150): the read of a table entry returns; the walk goes on, maps, faults, or ends the stream
short with the status of the read. The answer to a walk the channel has given up is discarded (R159). -/
def execTableWalkResponse (b : Bay) (c : Channel) (m : MemFind) (s : State) : Out :=
  match (s.chanAt b c).walk with
  | none => .next s
  | some w =>
    match s.answered w.entryAddr w.net w.back (fun s => s.memRead (homeOfBay b) w.entryAddr 8 m) with
    | none => impossible
    | some (a, s) =>
      if a.status ≠ 0 then
        let k := regKey (.seq (Fin.ofNat 16 (dieOfBay b)))
        let s := (s.setFlag (k Reg.SEQ_ERR_FLAGS) 1).bump (k Reg.SEQ_FAULT_COUNT) 1
        .next ((s.setChan b c ((s.chanAt b c).meet ⟨w.req.first, 0, a.status, a.addr, if a.status = 0x20 then 8 else 4⟩)).settle b c)
      else
        let e := bytesNat a.data
        match walkStep w.level e with
        | .missing => .next (s.translated b c w.req .missing)
        | .next t => .next (s.startWalk b c w.req (w.level + 1) t)
        | .leaf e =>
          let x := leafTarget w.level e w.req.addr w.req.write
          let s := match x with
            | .target _ =>
              let y := s.bayAt b
              let t : TlbEntry := ⟨s.bayPart b, w.level, w.req.addr / leafBytes w.level, BitVec.ofNat 64 e⟩
              s.setBay b { y with tlb := tlbAdd 256 y.tlb t }
            | _ => s
          .next (s.translated b c w.req x)

/-- Data of a read has come: rows are converted, or a copy's writes are formed. -/
def State.dataCame (s : State) (b c id : Nat) (r : Req) (data : List Byte) : State :=
  let ch := s.chanAt b c
  let s := s.setChan b c { ch with outstanding := ch.outstanding.map (fun q =>
    if q.id == id then { q with data := some data } else q) }
  let s := s.bump64 (strReg b Reg.STR_BYTES_IN) r.len
  if ch.desc.kind = 2 then s.setChan b c (Chan.copyAll ch.desc.total (s.chanAt b c))
  else s.convertRows b c (ch.desc.rows - ch.converted)

/-- STREAM_READ_RESPONSE (R121 to R125, R134, R136, R139): read data returns and rows are assembled in order. The data of
a request the channel has given up is discarded. DEDUCED: log 43. -/
def execStreamReadResponse (b : Bay) (c : Channel) (id : Nat) (m : MemFind) (s : State) : Out :=
  match (s.chanAt b c).outstanding.find? (fun r => r.id == id && !r.write && r.data.isNone) with
  | none => .next s
  | some r =>
    match s.perform b r m with
    | none => impossible
    | some (a, s) =>
      let ch := s.chanAt b c
      if r.gone then .next ((s.setChan b c { ch with outstanding := ch.outstanding.filter (fun q => q.id != id) }).settle b c)
      else if a.status ≠ 0 then
        let ch := { ch with outstanding := ch.outstanding.filter (fun q => q.id != id) }
        .next ((s.setChan b c (ch.meet (requestFault r a))).settle b c)
      else .next ((s.dataCame b c id r a.data).settle b c)

/-- STREAM_ROW_ACCEPT (R126, R135): the destination accepts the next row under its credits, and the cursor advances. -/
def execStreamRowAccept (b : Bay) (c : Channel) (s : State) : Out :=
  let ch := s.chanAt b c
  match ch.rows with
  | [] => impossible
  | r :: rest =>
    if !ch.deliverable then .next (s.creditWait b c)
    else
      match s.deliver b (chanWriter b c) ch.desc.peer ch.desc.peerChannel (ch.desc.rowAddr r.num) (r.bytes.map some)
          (decide (r.num + 1 = ch.desc.rows) && ch.desc.toPort) with
      | none => impossible
      | some s =>
        let ch := s.chanAt b c
        let s := s.setChan b c { ch with rows := rest, accepted := ch.accepted + 1
                                         state := if ch.state == .creditWait then .running else ch.state }
        .next ((s.bump64 (strReg b Reg.STR_BYTES_OUT) r.bytes.length).settle b c)

/-- A record of a writer lands in the writer's first open staging block, and ends it where it is the 32nd or has done set
(R127, R186). -/
def Chan.land (ch : Chan) (w : Writer) (bytes : List Byte) (done : Bool) : Chan :=
  match ch.stages.find? (fun g => g.writer == w && !g.complete) with
  | none => ch
  | some g =>
    let slots := g.slots ++ [bytes]
    { ch with stages := ch.stages.map (fun x =>
        if x.num == g.num then { g with slots := slots, complete := decide (32 ≤ slots.length) || done } else x) }

/-- STORE_RECORD_RECEIVE (R127): the oldest record accepted by a store channel lands in the next slot of its staging
block; the end of a drain or send behind it completes the writer's blocks. -/
def execStoreRecordReceive (b : Bay) (c : Channel) (s : State) : Out :=
  let ch := s.chanAt b c
  match ch.arrivals with
  | [] => impossible
  | .record w bytes done :: rest =>
    let ch := ch.land w bytes done
    match rest with
    | .ends _ bs :: rest' => .next ((s.setChan b c ({ ch with arrivals := rest' }.completeStages bs)).settle b c)
    | _ => .next ((s.setChan b c { ch with arrivals := rest }).settle b c)
  | .ends _ bs :: rest => .next ((s.setChan b c ({ ch with arrivals := rest }.completeStages bs)).settle b c)

/-- Put a write back among those to issue, in request order (R138). -/
def Chan.reissue (ch : Chan) (r : Req) : Chan := ch.reissueAll [r]

/-- A write has been acknowledged: its staging block returns once no write of it is left (R127). -/
def Chan.acked (ch : Chan) (r : Req) : Chan :=
  if (ch.todo ++ ch.outstanding).any (fun q => q.stage == r.stage) then ch
  else { ch with stages := ch.stages.filter (fun g => g.num != r.stage), held := ch.held.filter (· != r.stage) }

/-- STREAM_WRITE_ACK (R127, R135, R138, R139): memory or the fabric acknowledges a write; a staging block returns when
all its writes are acknowledged. A write to a draining window, and those after it, whatever they are answered, are issued
again after resume; of two faults the one with the lower linear index decides (R140). DEDUCED: log 45, 43. -/
def execStreamWriteAck (b : Bay) (c : Channel) (id : Nat) (m : MemFind) (s : State) : Out :=
  match (s.chanAt b c).outstanding.find? (fun r => r.id == id && r.write) with
  | none => .next s
  | some r =>
    match s.perform b r m with
    | none => impossible
    | some (a, s) =>
      let ch := s.chanAt b c
      let ch := { ch with outstanding := ch.outstanding.filter (fun q => q.id != id) }
      if r.gone then .next ((s.setChan b c ch).settle b c)
      else if a.status ≠ 0 then
        let f := requestFault r a
        .next ((s.setChan b c ((if f.cause ≠ 0 then ch.reissue r else { ch with failed := ch.failed ++ [r] }).meet f)).settle b c)
      else
        let again := match ch.fault with | some f => f.cause == 3 && decide (f.elem < r.first) | none => false
        let s := s.setChan b c (if again then ch.reissue r else ch.acked r)
        .next ((s.bump64 (strReg b Reg.STR_BYTES_OUT) r.len).settle b c)

/-- The channel goes on from its cursor (R137, R142): requests of elements not delivered are formed again.
DEDUCED: log 45. -/
def Chan.again (ch : Chan) : Chan :=
  let ch := { ch with state := .running, cause := 0, walk := none, fault := none }
  match ch.desc.kind with
  | 0 => { ch with formed := ch.accepted, converted := ch.accepted, rows := [], todo := [], outstanding := ch.leftover }
  | 1 => { ch with todo := ch.todo.map (fun r => { r with target := none }) }
  | _ => { ch with formed := ch.delivered, converted := ch.delivered, todo := [], outstanding := ch.leftover, held := [] }

/-- STREAM_RESUME (R137, R140, R160): a paused channel translates again from its cursor, or, under a pre-emption, stops there;
no effect on a channel not paused. -/
def execStreamResume (b : Bay) (c : Channel) (s : State) : Out :=
  let ch := s.chanAt b c
  if ch.state = .paused then .next ((s.setChan b c ch.again).settle b c) else .next s

/-- End a paused channel short with a translation-class status, and its job with it (R137). -/
def State.abortStream (s : State) (b c st : Nat) : State :=
  let ch := s.chanAt b c
  (s.endShort b c st ch.faultAddr 0).failBay b st none 0

/-- STREAM_ABORT (R137): a paused channel ends short; no effect on a channel not paused. -/
def execStreamAbort (b : Bay) (c : Channel) (s : State) : Out :=
  let ch := s.chanAt b c
  if ch.state = .paused then .next (s.abortStream b c (0x0F + ch.cause)) else .next s

/-- PAUSE_LIMIT_EXPIRY (R137): STR_PAUSE_LIMIT expires on a paused channel, which ends short. -/
def execPauseLimitExpiry (b : Bay) (c : Channel) (s : State) : Out :=
  if (s.chanAt b c).state != .paused || s.rdN (strReg b Reg.STR_PAUSE_LIMIT) == 0 then impossible
  else .next (s.abortStream b c 0x13)

/-- STR_SOFT_RESET (R139, R144): every stream of the engine ends short and all staging returns; the job ends. -/
def execStrSoftReset (b : Bay) (s : State) : Out :=
  let live := (List.range 16).any (fun c => (s.chanAt b c).live)
  let s := s.each (List.range 16) (fun s c => s.endShort b c 0xF0 0 0)
  let s := s.each (List.range 16) (fun s c => s.setChan b c { s.chanAt b c with held := [], stages := [], arrivals := [] })
  .next (if live then s.failBay b 0xF0 none 0 else s)

end Sys2Proof.Machine
end

