-- ==== Sys2Proof/Machine/Twn.lean ====
section
/-! DEFINITION. Attach, heartbeats, mirroring, takeover and detach of a twin pair (R397 to R408). -/

namespace Sys2Proof.Machine

/-- A register command of TWN_CTRL by function 0. -/
def State.twinCmd (s : State) (go : State → State) : Out := s.bar0Do (twnReg Reg.TWN_CTRL) go

/-! ### Attach (R404) -/

/-- Why an attach is refused; 0 where it is not. -/
def State.attachCause (s : State) : Nat :=
  let p := s.twinPort
  let id := s.fld (twnReg Reg.TWN_PARTNER) 19 0
  let r := s.routeEntry s.activeSet id
  if s.twinState ≠ 0 then 1
  else if !s.tierOpen then 2
  else if !(decide (p < 12) && s.portUp p && s.fld (lnkPort p Reg.LNK_P_REMOTE) 19 0 == id) then 3
  else if !(bitOf r 15 && !bitOf r 14 && bitsOf r 11 8 == p) then 4
  else if id = s.moduleId s.activeSet ∨ !s.fabricOpen s.activeSet then 5
  else 0

/-- The ring-state record of listed ring i as it stands: TWN_RING_i, the counts, and empty slots (R398).
DEDUCED: log 109. -/
def State.ringRecord (s : State) (i : Nat) : List (Nat × List Byte) :=
  let k := twnReg (Reg.TWN_RING + 8 * i)
  if s.rbit (k + 4) 31 then
    [(s.mirrorAddr i 0, natBytes 8 (s.rd64 k)),
     (s.mirrorAddr i 8, s.mirrorCounts (s.fld (k + 4) 29 24) (s.fld (k + 4) 17 8)),
     (s.mirrorAddr i 0x40, List.replicate (64 * 63) 0)]
  else []

/-- What the sync copies: every listed region in full and every listed ring's record (R404). -/
def State.syncParts (s : State) : List (Nat × List Byte) :=
  (List.range 16).flatMap (fun i =>
    let k := twnReg (Reg.TWN_REGION_BASE + 0x20 * i)
    if s.rd64 (k + 8) = 0 then [] else [(s.rd64 (k + 16), s.readBytes (s.rd64 k) (s.rd64 (k + 8)))]) ++
  (List.range 64).flatMap s.ringRecord

/-- Start a pair, or refuse to (R404). -/
def State.attach (s : State) : State :=
  let c := s.attachCause
  if c ≠ 0 then (s.wr (twnReg Reg.TWN_ATTACH_CAUSE) (BitVec.ofNat 32 c)).twinFlag 4
  else
    let s := { s with twin := { TwinState.init with made := s.twin.made, mine := s.twin.mine } }
    let s := (s.wr (twnReg Reg.TWN_STATUS) 0).setTwin 1 0
    s.mirrorSend s.syncParts .sync

/-- ATTACH (R404). -/
def execAttach (s : State) : Out := s.twinCmd State.attach

/-- The pair is protected once this module has synced and the partner shows synced (R403). -/
def State.protect (s : State) : State :=
  if s.twinState = 1 ∧ s.rbit (twnReg Reg.TWN_STATUS) 19 ∧ s.rbit (twnReg Reg.TWN_STATUS) 18 then s.setTwin 2 0 else s

/-- SYNC_DONE (R404): the partner has answered the whole copy; `us` is the time taken. -/
def execSyncDone (us : Nat) (s : State) : Out :=
  if s.twinState != 1 || s.rbit (twnReg Reg.TWN_STATUS) 19 || s.twin.writes.any (fun x => x.act == .sync) then impossible
  else .next ((s.wrFld (twnReg Reg.TWN_STATUS) 19 19 1).wr (twnReg Reg.TWN_SYNC_US) (BitVec.ofNat 32 us)).protect

/-! ### Heartbeats (R399, R400) -/

/-- HEARTBEAT_SEND (R398, R399). -/
def execHeartbeatSend (s : State) : Out :=
  if s.twinState = 0 then impossible
  else
    let n := s.twin.sent + 1
    let s := { s with twin := { s.twin with sent := n } }
    let w := n % 2 ^ 32 + s.twinState * 2 ^ 32 + s.moduleId s.activeSet * 2 ^ 36 +
      (if s.rbit (twnReg Reg.TWN_STATUS) 19 then 2 ^ 56 else 0)
    .next ((s.mirrorSend [(s.rd64 (twnReg Reg.TWN_PARTNER_MIRROR), natBytes 32 w)] .heartbeat).bump64
      (twnReg Reg.TWN_HB_SENT) 1)

/-- HEARTBEAT_CHECK (R400, R408): the engine reads its heartbeat slot; `m` is what the read meets. A slot that cannot be
read shows no changed seq. DEDUCED: log 109. -/
def execHeartbeatCheck (m : MemFind) (s : State) : Out :=
  if s.twinState = 0 then impossible
  else
    let p := s.twinPort
    let r := s.roundTrip (twinAgent p) (s.rd64 (twnReg Reg.TWN_MIRROR_BASE)) 32 none m
    let s := r.2
    let w := bytesNat (r.1.data.take 8)
    let st := bitsOf w 35 32
    let s := if r.1.status ≠ 0 then s
      else (s.wrFld (twnReg Reg.TWN_STATUS) 23 20 st).wrFld (twnReg Reg.TWN_STATUS) 18 18 (bitsOf w 56 56)
    if r.1.status ≠ 0 ∨ bitsOf w 31 0 = s.twin.seen then
      let n := s.twin.misses + 1
      let s := (({ s with twin := { s.twin with misses := n } } : State).bump (twnReg Reg.TWN_HB_MISSED) 1)
      .next (if s.fld (twnReg Reg.TWN_HB_MISS) 7 0 ≤ n then s.partnerLost 1
        else if r.1.status = 0 ∧ 3 ≤ st ∧ st ≤ 5 then s.partnerLost 4 else s.protect)
    else
      let s := { s with twin := { s.twin with misses := 0, seen := bitsOf w 31 0 } }
      .next (if 3 ≤ st ∧ st ≤ 5 then s.partnerLost 4 else s.protect)

/-! ### Answers of the partner (R400, R401, R402) -/

/-- What waits for the write of an entry goes on. -/
def State.afterMirror (s : State) : MirrorThen → State
  | .job j =>
    match s.jobAt j with
    | some v =>
      if v.phase = .mirroring then
        (s.setJob j { v with phase := .queued }).setQueue v.part v.cls (s.queueOf v.part v.cls ++ [j])
      else s
    | none => s
  | .nop e => s.complete e (.of 0)
  | .barrier e => s.barrierEntry e

/-- A transfer to the partner has its answer: every request of it is answered, or one with a status other than 0 (R400). -/
def MirrorXfer.ended (x : MirrorXfer) : Bool := x.status != 0 || (x.todo.isEmpty && x.left == 0)

/-- MIRROR_WRITE_RESPONSE (R400 to R402): the engine sees the answer of the i-th transfer that waits; the status is what the home
edge has had for it, 0x68 of a request that timed out and 0x69 of a remote error among them (R285, R286). DEDUCED: log 109. -/
def execMirrorWriteResponse (i status : Nat) (s : State) : Out :=
  match s.twin.writes[i]? with
  | none => impossible
  | some x =>
    if !x.ended || x.status % 256 != status % 256 then impossible
    else
    let w := x.act
    let s : State := { s with twin := { s.twin with writes := s.twin.writes.eraseIdx i } }
    let s := if w = .heartbeat then s else s.bump64 (twnReg Reg.TWN_MIRROR_WRITES) 1
    let s := if status % 256 ≠ 0 then s.partnerLost 3 else s
    .next (match w with
      | .entry t => s.afterMirror t
      | .ckpt off v n =>
        if status % 256 ≠ 0 then s
        else if n = 0 then s.mirrorFence (.ckpt off v 1)
        else if n = 1 then s.mirrorSend [(off, v)] (.ckpt off v 2)
        else s
      | _ => s)

/-! ### Takeover and detach (R406, R407) -/

/-- Entries whose writes have no answer go on, and jobs that were held may be placed again. -/
def State.releaseHeld (s : State) : State :=
  let ws := s.twin.writes
  let s : State := { s with twin := { s.twin with writes := s.twin.writes.filter (fun w => match w.act with | .entry _ => false | _ => true) } }
  let s := s.each (s.jobs.filter (fun e => e.2.heldTwin)) (fun s e => s.mapJob e.1 (fun v => { v with heldTwin := false }))
  s.each ws (fun s w => match w.act with | .entry t => s.afterMirror t | _ => s)

/-- An entry of the partner, placed on this module's own dispatch queue (R406). `word` is the record's TWN_RING,
`taken` its count of entries, `earlier` the tags of lower slots. DEDUCED: log 109. -/
def State.takeOver (s : State) (word taken : Nat) (earlier : List Nat) (bs : List Byte) : State :=
  let x := entryV3 bs
  let f := bitsOf word 37 32
  let e : Entry := { func := f, ring := bitsOf word 49 40, seq := taken, tag := x.tag, irq := x.irq, extAddr := x.extAddr
                     extBytes := x.extBytes, v2 := false, cq := some (bitsOf word 25 16), epoch := (s.fnAt f).epoch }
  if x.op = 4 then s.complete e (.of 0)
  else if x.op = 3 then
    let left := earlier.filter (fun t => s.jobs.any (fun j =>
      j.2.ent.tag == t && j.2.ent.func == f && j.2.ent.ring == e.ring && j.2.ent.cq == e.cq))
    if left.isEmpty then s.complete e (.of 0)
    else { s with twin := { s.twin with barriers := s.twin.barriers ++ [(e, left)] } }
  else
    match (if x.op = 1 ∧ !x.pinned then s.partOfFn f else none) with
    | none => s.refuseEntry e x
    | some p =>
      let n := s.nextJob
      let cls := 1 + (Config.freeWord s.free).toNat % 3
      let rec_ := s.readQuad (s.ckptAddr p 0)
      let v : Job :=
        { phase := .queued, ent := e, cls := cls, part := p, image := imgN x.params 0 8, handle := none, mirrored := false
          hdr := ⟨0, 0, 0, 0, 0, 0, 0, 0, 0, 0, 0⟩, placed := [], status := 0, detail := 0, recordsAccepted := 0
          failAddr := 0, bound := 0, digits := 0, sats := 0, events := 0, pcrs := [], arrivals := [], released := []
          ended := [], started := false, resumed := bitOf rec_ 63 && rec_ % 2 ^ 48 == x.tag, rerun := true
          heldTwin := false, loads := [], plan := [], bubbles := [], vecDone := [], vecEnding := [], satMarks := [], saved := [], again := false }
      let s := ({ s with nextJob := n + 1, free := s.free + 1 } : State).setJob n v
      s.setQueue p cls (s.queueOf p cls ++ [n])

/-- Take over the entries of the record of the partner's mirrored ring r, in ascending slot order. DEDUCED: log 109. -/
def State.takeRecord (s : State) (m : MemFind) (r : Nat) : Nat × State :=
  let A := s.rd64 (twnReg Reg.TWN_MIRROR_BASE) + 0x1000 + 0x1000 * r
  let x := s.readLong (twinAgent s.twinPort) A 4096 m
  let s := x.2
  let word := imgN x.1.data 0 8
  if x.1.status ≠ 0 ∨ !bitOf word 63 then (0, s)
  else
    let slots := ((List.range 63).map (fun i => (x.1.data.drop (0x40 + 64 * i)).take 64)).filter (fun b => bitsOf (imgN b 0 4) 31 24 != 0)
    let taken := imgN x.1.data 8 4
    (slots.length, (s.each slots.zipIdx (fun s b =>
      s.takeOver word taken ((slots.take b.2).map (fun y => (entryV3 y).tag)) b.1)))

/-- TAKEOVER (R406, R408): in state lost, the partner's entries are served here; `m` is what the reads meet. -/
def execTakeover (m : MemFind) (s : State) : Out :=
  s.twinCmd (fun s =>
    if s.twinState ≠ 3 then s.twinFlag 0
    else
      let r := (List.range 64).foldl (fun x i => let y := x.2.takeRecord m i; (x.1 + y.1, y.2)) (0, s)
      let s := (r.2.bump (twnReg Reg.TWN_TAKEOVER_ENTRIES) r.1).setTwin 4 r.1
      s.releaseHeld)

/-- Back to unpaired: heartbeats stop, and what was held goes on (R407). -/
def State.unpair (s : State) : State :=
  let s := s.releaseHeld
  let s : State := { s with twin := { TwinState.init with barriers := s.twin.barriers, made := s.twin.made, mine := s.twin.mine } }
  (s.wrFld (twnReg Reg.TWN_STATUS) 19 18 0).setTwin 0 0

/-- A protected module enters detaching; one that is lost or serving, or detaching with every mirror write answered,
returns to unpaired. In other states nothing is left to detach, and the write is refused (R407). DEDUCED: log 109. -/
def State.detach (s : State) : State :=
  match s.twinState with
  | 2 => (s.setTwin 5 0).holdMirrored
  | 3 => s.unpair
  | 4 => s.unpair
  | 5 => if s.twin.writes.all (fun x => x.act == .heartbeat) then s.unpair else s.twinFlag 0
  | _ => s.twinFlag 0

/-- DETACH (R407). -/
def execDetach (s : State) : Out := s.twinCmd State.detach

end Sys2Proof.Machine
end

