-- ==== Sys2Proof/Machine/Vec.lean ====
section
/-! DEFINITION. The commands of the vector tiles: one per operation of a packet's slots, sends and soft reset
(R92 to R116). A slot of the packet at the pc acts by its own command; the packet has issued when all its slots have. -/

namespace Sys2Proof.Machine

/-- Saturations of a vector tile: counted, flagged, and added to its job (R97). -/
def State.vecSats (s : State) (b n : Nat) : State :=
  if n = 0 then s
  else ((s.bump (vecReg b Reg.VEC_SAT_COUNT) n).setFlag (vecReg b Reg.VEC_ERR_FLAGS) 6).addSats b n

/-- Corrected errors of data or instruction memory (R94). -/
def State.vecCorrected (s : State) (b n : Nat) : State :=
  if n = 0 then s else (s.bump (vecReg b Reg.VEC_CE_COUNT) n).setFlag (vecReg b Reg.VEC_ERR_FLAGS) 0

/-- The error checks of a read: corrected errors are counted, one that cannot be corrected ends the job with the address
of its word, and otherwise the access goes on (R94). `groups` are the places read cycle by cycle, in words of `unit` bytes;
`flag` is the memory's. -/
def State.vecChecked (s : State) (b unit flag : Nat) (es : List Ecc) (groups : List (List Nat)) (act : State → State) : State :=
  let r := readFinds unit es groups
  let s := s.vecCorrected b r.1
  match r.2 with
  | some a => s.vecHalt b flag 0x20 a
  | none => act s

/-- A program error ends the job (R107). -/
def State.vecProgramError (s : State) (b : Nat) : State := s.vecHalt b 5 0x33 0

/-- A cycle in which no packet issues while the program runs (R116); results in flight move on. DESIGN CHOICE: log 8. -/
def State.vecStall (s : State) (b : Nat) (st : VecState) : State :=
  let v := s.vecAt b
  (s.setVec b { v.tick with state := st }).bump64 (vecReg b Reg.VEC_STALL) 1

/-- A slot of the packet has acted; once all have, the packet has issued and the next one is current. A program that
runs past its packets without an end is in error (R107); the packet index recorded is the one it has come to. A tile that
has seen a pre-emption request stops here (R113). DESIGN CHOICE: log 31, 125. DEDUCED: log 37. -/
def State.slotDone (s : State) (b : Nat) (sl : Slot) : State :=
  let v := s.vecAt b
  let ran := v.ran ++ [sl]
  if (packetSlots v.packet).all (fun k => ran.contains k) then
    let v' := { v with ran := ran, state := .running }.advance
    let s := ((s.setVec b v').bump64 (vecReg b Reg.VEC_PACKETS) 1).bump64 (vecReg b Reg.VEC_STALL) v.stallAfter
    if v'.ending then
      if v'.sends.isEmpty then s.setVec b { v' with state := .idle, ending := false, stopReq := false }
      else s.setVec b (if v'.stopReq then v'.stop else { v' with state := .sync })
    else if v'.packets ≤ v'.pc then s.vecProgramError b
    else if v'.stopReq then s.setVec b v'.stop
    else s
  else s.setVec b { v with ran := ran, state := .running }

/-- Run one slot of the packet at the pc: the first slot to act fetches and checks the packet (R94, R107); the control slot,
where its opcode is one of R107, acts before the others. `act` is the slot's own effect; it answers the state with the slot
done, stalled or halted. DESIGN CHOICE: log 31. -/
def runSlot (b : Nat) (e : List Ecc) (sl : Slot) (want : Nat → Bool) (act : State → Nat → State) (s : State) : Out :=
  let v := s.vecAt b
  let p := v.packet
  let controlFirst := decide (1 ≤ pkCtl p) && decide (pkCtl p ≤ 0xB)
  if !v.active || v.ending || v.ran.contains sl || !want p || (sl != .control && controlFirst && !v.ran.contains .control) then
    impossible
  else if v.ran.isEmpty then
    .next (s.vecChecked b 8 2 e [[8 * v.pc]] (fun s => if v.packetError p then s.vecProgramError b else act s p))
  else .next (act s p)

/-- The compute slot: results of every lane go into flight (R104, R105). -/
def computeAct (b : Nat) (s : State) (p : Nat) : State :=
  let v := s.vecAt b
  let r := v.compute p s.free
  if r.nonfinite then s.vecHalt b 4 0x31 0
  else
    let s := if pkOp p = 0x1E then s.drew 32 else s
    ((s.setVec b (v.launch (computeLatency (pkOp p)) 0 r.writes)).vecSats b r.sats).slotDone b .compute

/-- A compute command acts on a packet whose compute op is its own. -/
def runCompute (op : Nat) (b : Nat) (e : List Ecc) (s : State) : Out :=
  runSlot b e .compute (fun p => pkOp p == op) (computeAct b) s

/-- nop; it also carries a packet whose compute opcode is reserved to its program error (R104, R107). -/
def execVecNop (v : Bay) (f : List Ecc) (s : State) : Out :=
  runSlot v f .compute (fun p => pkOp p == 0 || !computeOps.contains (pkOp p)) (computeAct v) s
def execAdd (v : Bay) (f : List Ecc) (s : State) : Out := runCompute 0x01 v f s
def execSub (v : Bay) (f : List Ecc) (s : State) : Out := runCompute 0x02 v f s
def execMin (v : Bay) (f : List Ecc) (s : State) : Out := runCompute 0x03 v f s
def execMax (v : Bay) (f : List Ecc) (s : State) : Out := runCompute 0x04 v f s
def execAnd (v : Bay) (f : List Ecc) (s : State) : Out := runCompute 0x05 v f s
def execOr (v : Bay) (f : List Ecc) (s : State) : Out := runCompute 0x06 v f s
def execXor (v : Bay) (f : List Ecc) (s : State) : Out := runCompute 0x07 v f s
def execShl (v : Bay) (f : List Ecc) (s : State) : Out := runCompute 0x08 v f s
def execSra (v : Bay) (f : List Ecc) (s : State) : Out := runCompute 0x09 v f s
def execSrl (v : Bay) (f : List Ecc) (s : State) : Out := runCompute 0x0A v f s
def execMovi (v : Bay) (f : List Ecc) (s : State) : Out := runCompute 0x0B v f s
def execBfly (v : Bay) (f : List Ecc) (s : State) : Out := runCompute 0x0C v f s
def execRot (v : Bay) (f : List Ecc) (s : State) : Out := runCompute 0x0D v f s
def execMul (v : Bay) (f : List Ecc) (s : State) : Out := runCompute 0x10 v f s
def execMac (v : Bay) (f : List Ecc) (s : State) : Out := runCompute 0x11 v f s
def execMsu (v : Bay) (f : List Ecc) (s : State) : Out := runCompute 0x12 v f s
def execSqs (v : Bay) (f : List Ecc) (s : State) : Out := runCompute 0x13 v f s
def execSbm (v : Bay) (f : List Ecc) (s : State) : Out := runCompute 0x14 v f s
def execClr (v : Bay) (f : List Ecc) (s : State) : Out := runCompute 0x15 v f s
def execLda (v : Bay) (f : List Ecc) (s : State) : Out := runCompute 0x16 v f s
def execNrw (v : Bay) (f : List Ecc) (s : State) : Out := runCompute 0x17 v f s
def execNrm2 (v : Bay) (f : List Ecc) (s : State) : Out := runCompute 0x18 v f s
def execHdm (v : Bay) (f : List Ecc) (s : State) : Out := runCompute 0x19 v f s
def execShb (v : Bay) (f : List Ecc) (s : State) : Out := runCompute 0x1A v f s
def execBhd (v : Bay) (f : List Ecc) (s : State) : Out := runCompute 0x1B v f s
def execBst (v : Bay) (f : List Ecc) (s : State) : Out := runCompute 0x1C v f s
def execFn (v : Bay) (f : List Ecc) (s : State) : Out := runCompute 0x1D v f s
def execFcv (v : Bay) (f : List Ecc) (s : State) : Out := runCompute 0x1E v f s
def execIcv (v : Bay) (f : List Ecc) (s : State) : Out := runCompute 0x1F v f s
def execPadd (v : Bay) (f : List Ecc) (s : State) : Out := runCompute 0x20 v f s
def execPsub (v : Bay) (f : List Ecc) (s : State) : Out := runCompute 0x21 v f s
def execPsla (v : Bay) (f : List Ecc) (s : State) : Out := runCompute 0x22 v f s
def execPsra (v : Bay) (f : List Ecc) (s : State) : Out := runCompute 0x23 v f s
def execPnrw (v : Bay) (f : List Ecc) (s : State) : Out := runCompute 0x24 v f s
def execImm (v : Bay) (f : List Ecc) (s : State) : Out := runCompute 0x7F v f s

/-! ### Memory slots (R93 to R96, R102) -/

/-- A post increment of the slot's generator, when the packet has issued (R101). -/
def Vec.post (v : Vec) (m : Nat) : Vec :=
  if msPost m then { v with effects := v.effects ++ [.post (msAg m)] } else v

/-- The slot of a memory access. -/
def memSlot (y : Bool) : Slot := if y then .y else .x
def memField (y : Bool) (p : Nat) : Nat := if y then pkY p else pkX p

/-- A load: the lanes' words go into flight for three cycles (R102, R105). -/
def loadAct (b : Nat) (y : Bool) (d : List Ecc) (s : State) (p : Nat) : State :=
  let m := memField y p
  s.vecChecked b 4 1 d [(s.vecAt b).accessWords y m] (fun s =>
    let v := s.vecAt b
    (s.setVec b ((v.launch 3 (if y then 2 else 1) (v.loadLanes y m)).post m)).slotDone b (memSlot y))

/-- A memory slot loads; `f` is what the packet fetch found, `d` what the data read found. -/
def execVecLoad (v : Bay) (y : Bool) (f d : List Ecc) (s : State) : Out :=
  runSlot v f (memSlot y) (fun p => msOp (memField y p) == 1 || msOp (memField y p) == 3) (loadAct v y d) s

/-- A store: a block that is free or filling ends the job; of the bytes it stores, those that a crossbar write of the same cycle
(`hit`, from an address) covers are the crossbar's, and the collision is counted (R95, R96). -/
def storeAct (b : Nat) (y : Bool) (hit : Option (Nat × List Byte)) (s : State) (p : Nat) : State :=
  let m := memField y p
  let v := s.vecAt b
  if (v.accessBlocks y m).any (fun k => !(v.block k).usable) then s.vecProgramError b
  else
    let both : List (Nat × Byte) := match hit with
      | some h => h.2.zipIdx.filterMap (fun x => if (v.accessBytes y m).contains (h.1 + x.2) then some (h.1 + x.2, x.1) else none)
      | none => []
    let v1 := v.storeLanes y m
    let v2 := { v1 with dmem := both.foldl (fun t (x : Nat × Byte) => tset (fun _ => 0) t x.1 x.2) v1.dmem }
    let s := s.setVec b (v2.post m)
    let s := if both.isEmpty then s else s.bump (vecReg b Reg.VEC_PORT_COLLIDE) 1
    s.slotDone b (memSlot y)

/-- A memory slot stores; `hit` is a crossbar write in the same cycle, if any (R95). -/
def execVecStore (v : Bay) (y : Bool) (f : List Ecc) (hit : Option (Nat × List Byte)) (s : State) : Out :=
  runSlot v f (memSlot y) (fun p => msOp (memField y p) == 2) (storeAct v y hit) s

/-! ### Control slot (R107, R108) -/

/-- A control command acts on a packet whose control op is its own. -/
def runControl (op : Nat) (b : Nat) (e : List Ecc) (act : State → Nat → State) (s : State) : Out :=
  runSlot b e .control (fun p => pkCtl p == op) act s

/-- rep pushes a repeat level; a count of 0 skips the body (R108). DEDUCED: log 33. -/
def repAct (b : Nat) (s : State) (p : Nat) : State :=
  let v := s.vecAt b
  let count := pkWide p % 2 ^ 16
  let last := v.pc + pkArg p
  let nx := if count = 0 then afterPacket v.reps last else (v.pc + 1, ⟨v.pc + 1, last, count⟩ :: v.reps)
  (s.setVec b { v with nextPc := some nx }).slotDone b .control
def execRep (v : Bay) (f : List Ecc) (s : State) : Out := runControl 0x1 v f (repAct v) s

/-- jmp moves within the program (R108). DEDUCED: log 33. -/
def jmpAct (b : Nat) (s : State) (p : Nat) : State :=
  let v := s.vecAt b
  (s.setVec b { v with nextPc := some (((v.pc : Int) + jmpOffset (pkArg p)).toNat, v.reps) }).slotDone b .control
def execJmp (v : Bay) (f : List Ecc) (s : State) : Out := runControl 0x2 v f (jmpAct v) s

/-- brk pops the innermost level and goes on as after its last packet (R108). -/
def brkAct (b : Nat) (s : State) (_p : Nat) : State :=
  let v := s.vecAt b
  let nx := match v.reps with
    | r :: rs => afterPacket rs r.last
    | [] => (v.pc + 1, [])
  (s.setVec b { v with nextPc := some nx }).slotDone b .control
def execBrk (v : Bay) (f : List Ecc) (s : State) : Out := runControl 0x3 v f (brkAct v) s

/-- wait stalls its packet until its blocks are valid (R96). -/
def waitAct (b : Nat) (s : State) (p : Nat) : State :=
  let v := s.vecAt b
  if (waitBlocks (pkArg p)).all (fun k => v.block k == .valid) then s.slotDone b .control
  else (s.vecStall b .waitStall).bump (vecReg b Reg.VEC_WAIT_STALL) 1
def execVecWait (v : Bay) (f : List Ecc) (s : State) : Out := runControl 0x4 v f (waitAct v) s

/-- give offers held and valid blocks (R96). -/
def giveAct (b : Nat) (s : State) (p : Nat) : State :=
  let v := s.vecAt b
  (s.setVec b { v with effects := v.effects ++ (waitBlocks (pkArg p)).map PacketEffect.give }).slotDone b .control
def execGive (v : Bay) (f : List Ecc) (s : State) : Out := runControl 0x5 v f (giveAct v) s

/-- send queues a send; a fifth one stalls; a bad preset or a free or filling source block ends the job (R96, R110, R111).
The send belongs to the layer that is open as it is queued, also in a program started in an earlier layer (R130).
DEDUCED: log 36. DESIGN CHOICE: log 131. -/
def sendAct (b : Nat) (s : State) (p : Nat) : State :=
  let v := s.vecAt b
  let pr := v.sendPreset (pkArg p % 16)
  if v.sends.length = 4 then (s.vecStall b .sendStall).bump (vecReg b Reg.VEC_SEND_STALL) 1
  else if sendRefused pr || (sendBlocks pr).any (fun k => !(v.block k).usable) then s.vecProgramError b
  else
    (s.setVec b { v with sends := v.sends ++ [⟨pkArg p % 16, 0, (s.bayAt b).layer⟩] }).slotDone b .control
def execVecSend (v : Bay) (f : List Ecc) (s : State) : Out := runControl 0x6 v f (sendAct v) s

/-- sync stalls until every queued send has ended (R107). -/
def syncAct (b : Nat) (s : State) (_p : Nat) : State :=
  let v := s.vecAt b
  if v.sends.isEmpty then s.slotDone b .control else s.vecStall b .sync
def execSync (v : Bay) (f : List Ecc) (s : State) : Out := runControl 0x7 v f (syncAct v) s

/-- agld loads a preset; bit reversal needs a power of two (R100). The reserved bit of a preset is not judged.
DESIGN CHOICE: log 124. -/
def agldAct (b : Nat) (s : State) (p : Nat) : State :=
  let v := s.vecAt b
  let pr := tget (fun _ => (0 : BitVec 64)) v.presets (bitsOf (pkArg p) 5 0)
  if genBitrev pr.toNat && !isPow2 (genMod pr.toNat) then s.vecProgramError b
  else (s.setVec b { v with effects := v.effects ++ [.gen (bitsOf (pkArg p) 8 6) pr] }).slotDone b .control
def execAgld (v : Bay) (f : List Ecc) (s : State) : Out := runControl 0x8 v f (agldAct v) s

/-- The first X row of a table load. -/
def Vec.ldtRow (v : Vec) (p : Nat) : Nat := genRow (v.genAt (bitsOf (pkArg p) 3 1)) 0 false

/-- The lane words of the eight rows a table load reads, row by row (R109). -/
def ldtWords (row : Nat) : List (List Nat) :=
  (List.range 8).map (fun k => (List.range 32).map (fun l => dmAddr false ((row + k) % 2048) (4 * l)))

/-- ldt loads slot 6 or 7; the program stalls for 8 cycles once the packet has issued (R109). -/
def ldtAct (b : Nat) (d : List Ecc) (s : State) (p : Nat) : State :=
  s.vecChecked b 4 1 d (ldtWords ((s.vecAt b).ldtRow p)) (fun s =>
    let v := s.vecAt b
    (s.setVec b { v with effects := v.effects ++ [.table (pkArg p % 2) (v.ldtRow p)] }).slotDone b .control)
def execLdt (v : Bay) (f d : List Ecc) (s : State) : Out := runControl 0x9 v f (ldtAct v d) s

/-- evt posts a value by the message of an event command, and the job counts it (R107, R147, R330). DESIGN CHOICE: log 134. -/
def evtAct (b : Nat) (s : State) (_p : Nat) : State :=
  let s := match s.bayJob b with
    | none => s
    | some j => match s.jobAt j with | some v => s.postEvent b j v | none => s
  s.slotDone b .control
def execEvt (v : Bay) (f : List Ecc) (s : State) : Out := runControl 0xA v f (evtAct v) s

/-- end ends the program once every queued send has ended (R107). DEDUCED: log 35. -/
def endAct (b : Nat) (s : State) (_p : Nat) : State :=
  let v := s.vecAt b
  (s.setVec b { v with ending := true, nextPc := some (v.pc, v.reps) }).slotDone b .control
def execVecEnd (v : Bay) (f : List Ecc) (s : State) : Out := runControl 0xB v f (endAct v) s

/-! ### Sends, time-out and reset (R110 to R112) -/

/-- A send row can be accepted or time out: the program runs, or the tile was offering the row as it was pre-empted (R113). -/
def Vec.offering (v : Vec) : Bool :=
  match v.state with
  | .halted => false | .preempted => v.rowOpen | _ => true

/-- The send row is accepted: the cursor moves, and with the last row the send ends, and a program that was ending with it. -/
def State.rowTaken (s : State) (b : Nat) (q : QueuedSend) (rest : List QueuedSend) (rows : Nat) : State :=
  let w := { s.vecAt b with rowOpen := false }
  if q.accepted + 1 = rows then
    let fin := w.ending && rest.isEmpty && w.state != .preempted
    (s.setVec b { w with sends := rest, state := if fin then .idle else w.state, ending := w.ending && !fin }).completeWriter b (.send b)
  else s.setVec b { w with sends := { q with accepted := q.accepted + 1 } :: rest }

/-- The destination accepts the next row of the first queued send (R110); a row whose block has become free or filling
ends the job (R96); `collide` is a crossbar write to the same memory in this cycle, for which the row waits (R95). A
pre-empted tile finishes the row it was offering (R113). DEDUCED: log 36. -/
def execSendRowAccept (v : Bay) (e : List Ecc) (collide : Bool) (s : State) : Out :=
  let x := s.vecAt v
  match x.sends with
  | [] => impossible
  | q :: rest =>
    let p := x.sendPreset q.preset
    if !x.offering then impossible
    else if !(x.block ((spSrc p + q.accepted) / 32)).usable then .next (s.vecProgramError v)
    else if collide then .next (s.bump (vecReg v Reg.VEC_SEND_STALL) 1)
    else
      let r := readFinds 4 e [(List.range (spWords p)).map (fun i => (spSrc p + q.accepted) * 128 + 4 * i)]
      let s := s.vecCorrected v r.1
      match r.2 with
      | some a => .next (s.vecHalt v 1 0x20 a)
      | none =>
        match s.deliver v (.send v) (spDst p) (spChannel p) (spAddr p + q.accepted * spStride p)
            ((x.sendRow p q.accepted).map some) (decide (q.accepted + 1 = spRows p) && decide (10 ≤ spDst p)) with
        | none => impossible
        | some s => .next (s.rowTaken v q rest (spRows p))

/-- A send row not accepted within 65,536 delivered cycles ends the job (R111). -/
def execSendTimeout (v : Bay) (s : State) : Out :=
  if (s.vecAt v).sends.isEmpty || !(s.vecAt v).offering then impossible else .next (s.vecHalt v 3 0x34 0)

/-- soft_reset of VEC_CTRL ends any program, a pre-empted one too, as a fault and restores the start state of R92 (R112, R116).
The fault is recorded; no flag stands for it, so it is not counted. DEDUCED: log 114. -/
def execVecSoftReset (v : Bay) (s : State) : Out :=
  let x := s.vecAt v
  let s := if x.active || x.state == .preempted then
      ((s.vecFirst v 0xF0 0).setVec v x.halt).failBay v 0xF0 (some (vecDetail (s.bayAt v).logical x.pc, 0)) 0
    else s
  .next (s.setVec v { (s.vecAt v).start with state := .idle })

end Sys2Proof.Machine
end

