-- ==== Sys2Proof/Machine/RegWrite.lean ====
section
/-! DEFINITION. What a write of a register does: the access codes of its map, and the actions of its fields (R6). -/

namespace Sys2Proof.Machine

/-- The state a step answers with; unchanged where it answers none. -/
def State.after (s : State) (o : Out) : State :=
  match o with
  | .next t => t
  | _ => s

/-- The word a write leaves by access codes alone (R6): RW and unlocked RWL bits take the written value, a 1 clears a W1C bit
and sets a W1S bit. -/
def RegRow.written (r : RegRow) (old w : Word) (locked : Bool) : Word :=
  let rw := BitVec.ofNat 32 (r.rw ||| (if locked then 0 else r.rwl))
  (((old &&& ~~~rw) ||| (w &&& rw)) &&& ~~~(w &&& BitVec.ofNat 32 r.w1c)) ||| (w &&& BitVec.ofNat 32 r.w1s)

/-- Write a register by its access codes (R6). -/
def State.writePlain (s : State) (b : Block) (off : Nat) (w : Word) : State :=
  match findRow b off with
  | none => s
  | some r => s.wr (regKey b off) (r.written (s.rd (regKey b off)) w true)

/-- cnt_clear: every counter of the block reads zero (R73). -/
def State.clearCounters (s : State) (b : Block) : State := s.clearRegs b (counterOffsets b)

/-- Do something where bit i of a word is 1. -/
def State.ifBit (s : State) (w : Word) (i : Nat) (go : State → State) : State := if bitOf w.toNat i then go s else s

/-- Where a block has cnt_clear: the offset of its control register and the bit. -/
def cntBit (b : Block) : Option (Nat × Nat) :=
  match b with
  | .hif => some (Reg.HIF_CTRL, 0)
  | .ctl => some (Reg.CTL_CTRL, 3)
  | .twn => some (Reg.TWN_CTRL, 3)
  | .pwr => some (Reg.PWR_CTRL, 0)
  | .noc _ => some (Reg.NOC_CTRL, 0)
  | .crm _ => some (Reg.CRM_CTRL, 0)
  | .drc _ => some (Reg.DRC_CTRL, 0)
  | .eov _ => some (Reg.EOV_CTRL, 0)
  | .lnk _ => some (Reg.LNK_CTRL, 0)
  | .lga _ => some (Reg.LGA_CTRL, 0)
  | .cfg _ => some (Reg.CFG_CTRL, 1)
  | .mtx _ => some (Reg.MTX_CTRL, 1)
  | .vec _ => some (Reg.VEC_CTRL, 1)
  | .str _ => some (Reg.STR_CTRL, 1)
  | _ => none

/-! ### Blocks whose fields act -/

/-- A page's setting of the selected ring, under the bits its map gives (R324, R339). DEDUCED: log 89. -/
def State.writeRing (s : State) (f : Nat) (o : Nat) (w : Word) (mask : Nat) : State :=
  let cq := s.selCq f
  let r := s.selRing f
  if s.ringEnabled f cq r then
    (s.wrFld (ringKey f cq r 0x10) 29 26 9).setFlag (pageReg f Reg.HIF_FN_ERR_FLAGS) 1
  else s.wr (ringKey f cq r o) (w &&& BitVec.ofNat 32 mask)

/-- A write to a function's page (R323, R324, R331, R339). -/
def State.writePage (s : State) (f : Func) (off : Nat) (w : Word) : State :=
  match off with
  | 0x0 => s.kick f w
  | 0x8 => s.offer f w
  | 0x28 => s.writeRing f 0x0 w 0xFFFFFFFF
  | 0x2C => s.writeRing f 0x4 w 0xFFFFFFFF
  | 0x30 => s.writeRing f 0x8 w 0x1FFFF7FF
  | 0x34 => s.writeRing f 0xC w 0xFFFFFFFF
  | 0x38 => s.ifBit w 1 (fun s => s.disableRing f)
  | _ => s.writePlain (.page f) off w

/-- A write to the HIF block (R315, R338): bifurcate is stored unless lock is set. -/
def State.writeHif (s : State) (off : Nat) (w : Word) : State :=
  if off = Reg.HIF_LINK_MODE then
    if s.rbit (hifReg Reg.HIF_LINK_MODE) 31 then s.logAccess 3 false off
    else ({ s with nv := { s.nv with bifurcate := bitOf w.toNat 0 } } : State).ifBit w 31 (fun s => s.setFlag (hifReg Reg.HIF_LINK_MODE) 31)
  else s.writePlain .hif off w

/-- A write to a mailbox endpoint (R350 to R353): MBX_OUT is for control cores alone. -/
def State.writeMbx (s : State) (off : Nat) (w : Word) (host : Bool) : State :=
  let e := off / 0x1000
  match off % 0x1000 with
  | 0x14 => s.ring e w.toNat
  | 0x18 => s.writeMask e w.toNat
  | 0x30 => if host then s else s.wr (mbxReg e Reg.MBX_OUT_LO) w
  | _ => s.writePlain .mbx off w

/-- A write to the CTL block (R341 to R349). -/
def State.writeCtl (s : State) (off : Nat) (w : Word) : State :=
  if 0x40000 ≤ off ∧ off < 0x60000 then s.writeShadow (off - 0x40000) w
  else if 0x80000 ≤ off ∧ off < 0xA0000 then s.ctlFlag 1
  else
    match off with
    | 0x4 => ((s.ifBit w 0 (fun s => s.ctlCmd State.checkShadow)).ifBit w 1 (fun s => s.ctlCmd State.startSwap)).ifBit w 2
        (fun s => s.ctlCmd State.copyActive)
    | 0x1C => s.wr (ctlReg Reg.CTL_TAMP_LIMIT) (if w &&& 0xFFFF = 0 then 20 else w &&& 0xFFFF)
    | 0x24 => s.each (List.range 16) (fun s p => s.ifBit w p (fun s => s.after (execPartitionReset (Fin.ofNat 16 p) s)))
    | _ => s.writePlain .ctl off w

/-- A write to the PWR block (R413, R417, R419): a changed bit of PWR_QTR_GATE gates or ungates its quarter. -/
def State.writePwr (s : State) (off : Nat) (w : Word) : State :=
  if off = Reg.PWR_TRIP then s.writeTrip w.toNat
  else if off = 0x20 ∨ off = 0x24 then
    let q0 := (off - 0x20) * 8
    s.each (List.range 32) (fun s i =>
      if bitOf w.toNat i == s.rbit (pwrReg off) i then s
      else if bitOf w.toNat i then s.gate (q0 + i) else s.ungate (q0 + i))
  else if 0x100 ≤ off ∧ off < 0x300 ∧ off % 0x20 = 4 then (s.writePlain .pwr off w).levels ((off - 0x100) / 0x20)
  else s.writePlain .pwr off w

/-- A listing of a mirrored ring stands: an enabled version 3 ring that is not Ristretto (R401). `hi` is its high word.
DEDUCED: log 109. -/
def State.listable (s : State) (hi : Word) : Bool :=
  let f := bitsOf hi.toNat 29 24
  let r := bitsOf hi.toNat 17 8
  s.ringEnabled f false r && s.rdN (pageReg f Reg.HIF_VERSION_SEL) % 16 == 3 && s.ringClass f r != 0

/-- A write to the TWN block (R400, R401, R404, R407, R409): the settings of the pair stand still outside unpaired.
DEDUCED: log 109. -/
def State.writeTwn (s : State) (off : Nat) (w : Word) : State :=
  if off = Reg.TWN_CTRL then (s.ifBit w 0 State.attach).ifBit w 1 State.detach
  else if off = Reg.TWN_HB_MISS then s.wr (twnReg off) (if w &&& 0xFF = 0 then 1 else w &&& 0xFF)
  else if off = Reg.TWN_SYNC_RATE then s.wr (twnReg off) (if 200 < (w &&& 0xFF).toNat then 200 else w &&& 0xFF)
  else if (0x8 ≤ off ∧ off < 0x20) ∨ 0x100 ≤ off then
    if s.twinState ≠ 0 then s.twinFlag 0
    else if 0x100 ≤ off ∧ off < 0x300 ∧ off % 8 = 4 ∧ bitOf w.toNat 31 ∧ !s.listable w then s.twinFlag 3
    else s.writePlain .twn off w
  else s.writePlain .twn off w

/-- Isolate endpoints of a bay's router by a write (R239, R240). -/
def State.isolate (s : State) (b : Nat) (w : Word) : State :=
  let s := s.setBits (regKey (.noc b) Reg.NOC_ISOLATED) w.toNat
  s.each ((List.range 32).filter (fun e => bitOf w.toNat e)) (fun s e => s.absorbAll b e)

/-- End the isolation of endpoints (R240). -/
def State.release (s : State) (b : Nat) (w : Word) : State := s.clrBits (regKey (.noc b) Reg.NOC_ISOLATED) w.toNat

/-- A write to a router's NOC block (R233, R239, R247): the map is locked before the block can be reached.
DEDUCED: log 18, 99. -/
def State.writeNoc (s : State) (b off : Nat) (w : Word) : State :=
  if off = Reg.NOC_ISOLATE_SET then s.isolate b w
  else if off = Reg.NOC_ISOLATE_CLR then s.release b w
  else if 0x40 ≤ off ∧ off < 0x140 then s.logAccess 3 false (regKey (.noc b) off)
  else s.writePlain (.noc b) off w

/-- A write to a channel of the DRC block (R261, R263, R268). -/
def State.writeDrc (s : State) (e : Edge) (off : Nat) (w : Word) : State :=
  let c : Dram := Fin.ofNat 64 (16 * e.val + (off - 0x1000) / 0x400)
  if 0x1000 ≤ off ∧ off % 0x400 = 4 then
    ((s.ifBit w 0 (fun s => s.after (execTrainStart c s))).ifBit w 1 (fun s => s.after (execInitStart c s))).ifBit w 2
      (fun s => s.after (execMarkBad c s))
  else if 0x1000 ≤ off ∧ off % 0x400 = 0x40 then s.after (execTrainPatternStart c w s)
  else s.writePlain (.drc e) off w

/-- Once bits [7:1] of MTX_ERR_FLAGS are all clear, the next fault is the first (R73). -/
def State.mtxCleared (s : State) (t : Nat) : State :=
  if s.fld (mtxReg t Reg.MTX_ERR_FLAGS) 7 1 = 0 then s.wr (mtxRecorded t) 0 else s

/-- A write to the EOV block (R275, R285, R293). -/
def State.writeEov (s : State) (e : Edge) (off : Nat) (w : Word) : State :=
  match off with
  | 0x8 => if e = 0 then s.writePlain (.eov e) off w else s
  | 0xC => s.writeDrainLimit e w
  | 0x10 => s.writeRespLimit e w
  | _ => s.writePlain (.eov e) off w

/-- A write to the LNK block (R300, R302, R307, R310, R311, R313). DEDUCED: log 19. -/
def State.writeLnk (s : State) (e : Edge) (off : Nat) (w : Word) : State :=
  let p := 3 * e.val + (off - 0x400) / 0x100
  let l := 12 * e.val + (off - 0x1000) / 0x100
  if 0x400 ≤ off ∧ off < 0x700 ∧ off % 0x100 = 4 then
    ((s.writeTest p (bitOf w.toNat 2)).writeEnable p (bitOf w.toNat 0)).ifBit w 1 (fun s => s.portDown p)
  else if 0x400 ≤ off ∧ off < 0x700 ∧ off % 0x100 = 0x10 then
    s.wr (regKey (.lnk e) off) (if w &&& 0x1F = 0 then 1 else w &&& 0x1F)
  else if 0x1000 ≤ off ∧ off % 0x100 = 4 then
    let x := w.toNat
    let v := bitsOf x 31 31 * 2 ^ 31 + min 36 (bitsOf x 29 24) * 2 ^ 24 + min 16 (bitsOf x 23 19) * 2 ^ 19 +
      min 24 (bitsOf x 18 13) * 2 ^ 13
    s.wr (regKey (.lnk e) off) (BitVec.ofNat 32 v)
  else if 0x1000 ≤ off ∧ off % 0x100 = 8 then
    -- a generator given another pattern starts it, and a checker looks for it afresh
    let g := s.fld (lnkLane l Reg.LNK_L_PAT) 31 30
    let t := s.writePlain (.lnk e) off w
    let t := if g = bitsOf w.toNat 31 30 then t else t.mapLane l (fun x => { x with pattern := 1 })
    if s.fld (lnkLane l Reg.LNK_L_PAT) 29 28 = bitsOf w.toNat 29 28 then t
    else (t.wrFld (lnkLane l Reg.LNK_L_PAT) 27 27 0).mapLane l (fun x => { x with chk := 0, chkRun := 0 })
  else if 0x1000 ≤ off ∧ off % 0x100 = 0xC then s.writeInject l (bitsOf w.toNat 31 30) (bitsOf w.toNat 5 0)
  else s.writePlain (.lnk e) off w

/-- A write of a word of a window entry: the first three are staged, the last commits (R274). -/
def State.writeWindow (s : State) (e i byte : Nat) (w : Word) : State :=
  if byte = 12 then s.commit e i w
  else
    let k := e * 2 ^ 19 + i
    let now := tget (fun _ => s.winAt e i % 2 ^ 96) s.staged k
    { s with staged := tput s.staged k (putBits now (8 * byte + 31) (8 * byte) w.toNat) }

/-! ### Every block -/

/-- A write of a register of any block; `host`: by a host access rather than by firmware. Of MTX_CTRL, cnt_clear comes
before soft_reset. DEDUCED: log 19. DESIGN CHOICE: log 135. -/
def State.writeReg (s : State) (b : Block) (off : Nat) (w : Word) (host : Bool) : State :=
  let s := match cntBit b with
    | some (o, i) => if o = off ∧ bitOf w.toNat i then s.clearCounters b else s
    | none => s
  match b with
  | .page f => s.writePage f off w
  | .hif => s.writeHif off w
  | .mbx => s.writeMbx off w host
  | .ctl => s.writeCtl off w
  | .sec => if off = Reg.SEC_CMD then s.takeService (w.toNat % 256) .none else s.writePlain .sec off w
  | .tst => if off = Reg.TST_CMD then s.testCmd (bitsOf w.toNat 31 28) (bitOf w.toNat 27) (bitsOf w.toNat 5 0)
      else s.writePlain .tst off w
  | .pwr => s.writePwr off w
  | .twn => s.writeTwn off w
  | .noc r => s.writeNoc r off w
  | .cfg d => if off = Reg.CFG_CTRL then s.ifBit w 0 (fun s => s.after (execAbortLoad d s)) else s.writePlain (.cfg d) off w
  | .crm d => if off = Reg.CRM_CTRL then s.ifBit w 1 (fun s => s.after (execScrubNow d s)) else s.writePlain (.crm d) off w
  | .drc e => s.writeDrc e off w
  | .eov e => s.writeEov e off w
  | .lnk e => s.writeLnk e off w
  | .wtp => let x := s.wtpEntry off; s.writeWindow x.1 x.2.1 x.2.2 w
  | .mtx t => if off = Reg.MTX_CTRL then s.ifBit w 0 (fun s => s.after (execMtxSoftReset t s))
      else (s.writePlain (.mtx t) off w).mtxCleared t
  | .vec v => if off = Reg.VEC_CTRL then s.ifBit w 0 (fun s => s.after (execVecSoftReset v s)) else s.writePlain (.vec v) off w
  | .str v =>
    if off = Reg.STR_CTRL then s.ifBit w 0 (fun s => s.after (execStrSoftReset v s))
    else if 0x100 ≤ off ∧ off % 0x40 = 4 then
      let c : Channel := Fin.ofNat 16 ((off - 0x100) / 0x40)
      if bitOf w.toNat 1 then s.after (execStreamAbort v c s) else s.ifBit w 0 (fun s => s.after (execStreamResume v c s))
    else s.writePlain (.str v) off w
  | _ => s.writePlain b off w

/-- A write whose effect hangs on what the hardware finds, which the field's own command brings with it: the enable of a ring
reads its record, a takeover reads the partner's entries, and a control core's commit and its doorbells carry their sender,
which decides whether the endpoint is its to write (R350).
DEDUCED: log 19. -/
def ownCommand (b : Block) (off : Nat) (w : Word) (host : Bool) : Bool :=
  match b with
  | .page _ => off == Reg.HIF_RING_CTRL && bitOf w.toNat 0
  | .twn => off == Reg.TWN_CTRL && bitOf w.toNat 2
  | .mbx => !host && (off % 0x1000 == Reg.MBX_OUT_HI || off % 0x1000 == Reg.MBX_DB_SET)
  | _ => false

/-- Write one word of a host request: dropped in reserved space and in a domain that does not run, both logged (R9, R10). -/
def State.writeLanded (s : State) (x : Landed) (bar2 : Bool) (a : Nat) (w : Word) : State :=
  match x with
  | .hole => s.logAccess 1 bar2 a
  | .gap b off => s.logAccess (if s.blockLive b off then 1 else 2) bar2 a
  | .send f hi => if hi then s.sendWord f w else s.wr (pageReg f 0xC00) w
  | .reg b off => if s.blockLive b off then s.writeReg b off w true else s.logAccess 2 bar2 a

/-- Write the words of a host request, lower address first (R4). -/
def State.writeWords (s : State) (land : State → Nat → Landed) (bar2 : Bool) (a : Nat) : List Word → State
  | [] => s
  | w :: ws => (s.writeLanded (land s a) bar2 a w).writeWords land bar2 (a + 4) ws

end Sys2Proof.Machine
end

