-- ==== Sys2Proof/WellFormed.lean ====
section
/-! DEFINITION. Which commands are well formed: whose operands can be what their sender or the hardware gives. The shapes
of an operand that the type does not already hold are checked here; the meanings do not rest on it. -/

namespace Sys2Proof

/-- A record of user logic: whole words, at most 32 of them, with the fields of R186 in their widths. -/
def portPushOk (r : PortPush) : Bool :=
  r.bytes.length % 4 == 0 && decide (r.bytes.length ≤ 128) && decide (r.addr < 2 ^ 19) && decide (r.dst ≤ 15) &&
  decide (r.channel ≤ 15)

/-- A request packet: the address in its 48 bits, at most 256 bytes, and a payload of as many bytes as it states where its type has
one; a multicast carries the header of R154 and up to 4,096 bytes (R154, R230, R231). An atomic may state the bytes of its response
(R230, R281). DEDUCED: log 75. -/
def nocPacketOk (p : NocPacket) : Bool :=
  decide (p.addr < 2 ^ 48) && (p.type.val == 4 || decide (p.bytes ≤ 256)) &&
  (match p.type.val with
   | 0 => p.payload.isEmpty
   | 2 => decide (p.payload.length ≤ 16) && (p.payload.length == p.bytes || p.bytes == 4 || p.bytes == 8)
   | 4 => p.payload.length == p.bytes && decide (p.bytes ≤ 4128)
   | _ => p.payload.length == p.bytes)

/-- A global request: a write carries its bytes, a read none (R271, R279). -/
def globalRequestOk (r : GlobalRequest) : Bool :=
  match r.op.val with
  | 0 => r.payload.isEmpty
  | 1 => r.payload.length == r.bytes
  | _ => true

/-- Line symbols: PAM4 levels (R294). -/
def lineOk (line : List Nat) : Bool := line.all (fun v => decide (v < 4))

/-- A credential: a 256-bit code of the user, or the two signatures of a crypto officer (R379). -/
def credentialOk : Credential → Bool
  | .none => true
  | .user mac => mac.length == 32
  | .officer ed ml => ed.length == 64 && ml.length == 3309

/-- A telemetry measurement: a value for each of the 16 compute dies, the 4 edge dies and the packages (R420). -/
def measuredOk (m : Measured) : Bool :=
  m.diePeak.length == 16 && m.dieAverage.length == 16 && m.share.length == 16 && m.undelivered.length == 16 &&
  m.edgeAverage.length == 4

/-- The command is well formed. -/
def Instr.wellFormed : Instr → Bool
  | .registerWrite _ ws => !ws.isEmpty
  | .creditGrant _ dst _ _ => decide (dst ≤ 13)
  | .blockComplete _ dst _ _ _ => decide (dst ≤ 13)
  | .vecStore _ _ _ hit => match hit with | some h => decide (h.1 + h.2.length ≤ 0x80000) | none => true
  | .multicastAck _ lb _ => decide (lb < 1024)
  | .multicastRetry _ lb => decide (lb < 1024)
  | .translationInvalidate _ part lo hi => decide (part < 16) && decide (lo ≤ hi)
  | .tilePortPush _ _ rs => rs.all portPushOk && !rs.isEmpty && decide (rs.length ≤ 4)
  | .configurationEntry _ _ bs => bs.length == 64
  | .nocInject p => nocPacketOk p
  | .cremaPatrolRead _ o _ => decide (o < 0x3000000) && o % 32 == 0
  | .homeEdgeRequest r => globalRequestOk r
  | .codewordReceive _ ls => ls.length == 4 && ls.all lineOk
  | .markerCheck _ line => lineOk line
  | .checkerLock _ first rest => lineOk (first :: rest)
  | .deskewDone _ ks => ks.length == 4 && ks.all (fun k => decide (k < 4096))
  | .dbrecFetchDone _ _ x => x.data.all (fun bs => bs.length == 256)
  | .cqHeadPoll _ _ bs => bs.length == 8
  | .ringEnable _ _ bs => bs.all (fun bs => bs.length == 8)
  | .jobEntry _ _ bs => bs.length == 64
  | .ringBarrier _ _ bs => bs.length == 64
  | .ringNop _ _ bs => bs.length == 64
  | .pin _ _ bs _ => bs.length == 64
  | .unpin _ _ bs => bs.length == 64
  | .fieldFuseWrite u _ => decide (u < 2 ^ 32)
  | .attest c => credentialOk c
  | .extend c => credentialOk c
  | .setTime c => credentialOk c
  | .installOck c => credentialOk c
  | .installUak c => credentialOk c
  | .installSignerKeys c => credentialOk c
  | .transferOwnership c => credentialOk c
  | .revokeVendorSlot c => credentialOk c
  | .installFirmware c => credentialOk c
  | .advanceCounter c => credentialOk c
  | .zeroise c => credentialOk c
  | .scrap c => credentialOk c
  | .telemetryRecord m => measuredOk m
  | .counterLoRead .. | .cntClear .. | .perstAssert .. | .perstRelease .. | .pwrgdRise .. | .pwrgdFall ..
  | .pwrdisChange .. | .undervoltageLockout .. | .overvoltageShutdown .. | .pcieRefclkLoss .. | .refLoss ..
  | .refReturn .. | .capacitorLow .. | .passCmd .. | .passAccept .. | .vectorFeed .. | .vectorStreamEnd ..
  | .drainRecord .. | .drainRecordAccept .. | .passBudgetExpiry .. | .mtxSoftReset .. | .preemption .. | .vprog ..
  | .vwait .. | .vecNop .. | .add .. | .sub .. | .min .. | .max .. | .and .. | .or .. | .xor .. | .shl .. | .sra ..
  | .srl .. | .movi .. | .bfly .. | .rot .. | .mul .. | .mac .. | .msu .. | .sqs .. | .sbm .. | .clr .. | .lda ..
  | .nrw .. | .nrm2 .. | .hdm .. | .shb .. | .bhd .. | .bst .. | .fn .. | .fcv .. | .icv .. | .padd .. | .psub ..
  | .psla .. | .psra .. | .pnrw .. | .imm .. | .vecLoad .. | .rep .. | .jmp .. | .brk .. | .vecWait .. | .give ..
  | .vecSend .. | .sendRowAccept .. | .sendTimeout .. | .sync .. | .agld .. | .ldt .. | .evt .. | .vecEnd ..
  | .vecSoftReset .. | .streamCmd .. | .streamBegin .. | .weightAheadBegin .. | .streamRequestIssue ..
  | .tableWalkResponse .. | .streamReadResponse .. | .streamRowAccept .. | .storeRecordReceive ..
  | .streamWriteAck .. | .streamResume .. | .streamAbort .. | .pauseLimitExpiry .. | .strSoftReset .. | .layer ..
  | .barrierCmd .. | .barrierArrival .. | .barrierRelease .. | .barrierLimitExpiry .. | .eventCmd .. | .seqEnd ..
  | .bayEndMsg .. | .timeLimitExpiry .. | .jobDispatch .. | .jobPlacement .. | .invalidationComplete ..
  | .quarterZeroed .. | .checkpointRecordWrite .. | .partitionReset .. | .partitionResetEnd .. | .llContention .. | .scrubRead ..
  | .bramEccRead .. | .pllLockLoss .. | .pllRelock .. | .globalClockSwitch .. | .tilePortGrant .. | .tilePortPop ..
  | .delayTapLoad .. | .delayTapStep .. | .header .. | .seg .. | .segmentAuthenticated .. | .cfgNop .. | .regw ..
  | .faddr .. | .fdata .. | .keyroll .. | .cfgEnd .. | .sig .. | .frameCommit .. | .signatureReport ..
  | .borderOpen .. | .abortLoad .. | .scrubWriteBack .. | .essResetEnd .. | .nocRead .. | .nocWrite ..
  | .nocAtomic .. | .nocMessage .. | .nocMulticast .. | .nocResponse .. | .deadLimitExpiry .. | .isolateSet ..
  | .isolateClr .. | .mapLock .. | .crossingCrcError .. | .respTimeout .. | .scrubNow .. | .trainStart ..
  | .initStart .. | .markBad .. | .channelInitDone .. | .trainPatternStart .. | .trainPatternDone ..
  | .powerDownExpiry .. | .refreshDue .. | .lpddrPatrolRead .. | .fence .. | .fabricPacketReceive ..
  | .fabricResponseReceive .. | .windowEntryCommit .. | .drainLimitExpiry .. | .fabricRespTimeout ..
  | .drainLimitWrite .. | .respLimitWrite .. | .retryTimerExpiry .. | .laneLockLoss ..
  | .cablePresenceChange .. | .ppmMeasure .. | .laneAcquireLock .. | .capabilityRecordReceive ..
  | .bringupTimeout .. | .enable .. | .retrain .. | .testMode .. | .idleTimerExpiry ..
  | .idleExit .. | .inject .. | .pcieConfigRequest .. | .pcieLinkUp .. | .pcieLinkDown .. | .bar4Read ..
  | .bar4Write .. | .functionLevelReset .. | .d3hotEntry .. | .d0Return .. | .hifKick ..
  | .ringDisable .. | .completionWrite .. | .versionOffer .. | .irqDelayExpiry .. | .check ..
  | .tamp .. | .copyActive .. | .shadowWrite .. | .switchReport .. | .tampLimitExpiry .. | .mbxOutHi ..
  | .mbxSendHi .. | .mbxDbSet .. | .mbxDbMaskWrite .. | .endpointWithdraw .. | .bringupPhaseEnd ..
  | .phaseDeadline .. | .recoveryPoint .. | .trainingStartPoint .. | .logicBist .. | .memoryBist .. | .bothBist ..
  | .bistDone .. | .selfTest .. | .challenge .. | .authLockoutEnd .. | .entropyTestFail .. | .attach .. | .detach ..
  | .takeover .. | .heartbeatSend .. | .heartbeatCheck .. | .mirrorWriteResponse .. | .syncDone ..
  | .moduleCapStep .. | .dieCapEval .. | .sensorRead .. | .thermalStep .. | .droopDetect .. | .stretchEnd ..
  | .tripWrite .. | .quarterGate .. | .quarterUngate .. | .secServiceDone .. | .hostReadTimeout ..
  | .entryReadError .. | .codewordTransmit .. => true

end Sys2Proof
end

