-- ==== Sys2Proof/Machine/Noc.lean ====
section
/-! DEFINITION. The commands of the tile network: injection, service at endpoints, responses, isolation and crossings
(R227 to R247, R253, R281). -/

namespace Sys2Proof.Machine

/-! ### Injection (R230, R236, R238) -/

/-- A request of the same initiator endpoint is outstanding under the tag. -/
def State.tagBusy (s : State) (p : NocPacket) : Bool :=
  s.noc.any (fun e => !e.2.gone && e.2.pkt.src == p.src && e.2.pkt.srcEp == p.srcEp && e.2.pkt.tag == p.tag)

/-- NOC_INJECT (R231 to R238, R242): a request leaves its initiator, or, beyond 32 outstanding Ristretto requests, waits at
its injection port. A tag that is in use cannot be chosen, nor a packet whose payload is not of the bytes it states or is above 256.
DEDUCED: log 74. -/
def execNocInject (p : NocPacket) (s : State) : Out :=
  if s.tagBusy p || !nocPacketOk p then impossible else .next (s.nocSubmit p .bare none).2

/-! ### Endpoints (R229) -/

/-- Where an address of an endpoint lies. -/
inductive Cell where
  /-- device memory -/
  | memory (A : Nat)
  /-- beyond the 48 MiB of a slice -/
  | beyond
  /-- registers of a block from an offset on -/
  | regs (b : Block) (off : Nat)
  /-- sequencer memories, vector data memory -/
  | firm (key : Nat)
  /-- command memory: the page of the command list that a sequencer holds (R147) -/
  | cmds (bay o : Nat)
  | dmem (bay a : Nat)
  /-- a window entry and its first byte asked for -/
  | window (e i byte : Nat)
  /-- global addresses -/
  | global
  /-- an endpoint whose layout is not stated -/
  | unknown
  deriving DecidableEq, Repr

/-- The block of a compute die window at an offset (R8). DEDUCED: log 77. -/
def windowBlock (d off : Nat) : Cell :=
  match bar0Block (0x1000000 + d * 0x100000 + off) with
  | some (b, o) => .regs b o
  | none => .unknown

/-- Where a request lands (R229). Firmware memory lies at 0, job memory at 0x1_0000 and command memory at 0x2_0000 of endpoint 1,
and vector data memory at 0x8_0000 of endpoint 3 (DESIGN CHOICE: the places are not stated). DESIGN CHOICE: log 76. -/
def cellOf (p : NocPacket) : Cell :=
  match p.dst with
  | .router r =>
    let b := bayOfRouter r
    let ep := p.dstEp.val
    if ep = 0 then (if p.addr < 0x3000000 then .memory (cremaAddr b p.addr) else .beyond)
    else if ep = 1 then (if p.addr < 0x20000 then .firm (firmKey b (decide (0x10000 ≤ p.addr)) (p.addr % 0x10000))
      else if p.addr < 0x21000 then .cmds b (p.addr - 0x20000) else .unknown)
    else if ep = 2 then .regs (.str (Fin.ofNat 1024 b)) p.addr
    else if ep = 3 then
      (if 0x80000 ≤ p.addr ∧ p.addr < 0x100000 then .dmem b (p.addr - 0x80000) else .regs (.vec (Fin.ofNat 1024 b)) p.addr)
    else if ep ≤ 11 then .regs (.mtx (Fin.ofNat 8192 (b * 8 + (ep - 4)))) p.addr
    else if ep = 12 then .regs (.noc b) p.addr
    else if ep = 14 then windowBlock (b / 64) p.addr
    else .unknown
  | .edge e =>
    match p.dstEp.val with
    | 0 => .memory p.addr
    | 1 => .global
    | 2 => if p.addr < 0x800000 then .window e (p.addr / 128 * 8 + p.addr % 128 / 16) (p.addr % 16) else .unknown
    | 3 =>
      (match bar0Block (0x2000000 + e.val * 0x100000 + p.addr) with
       | some (b, o) => .regs b o
       | none => .unknown)
    | _ => .unknown

/-- Where a request lands as the module stands: endpoint 0 of an edge die serves the memory behind that die's channels, and no other
device address (R229, R249). DESIGN CHOICE: log 76. -/
def State.cellFor (s : State) (p : NocPacket) : Cell :=
  match p.dst, cellOf p with
  | .edge e, .memory A =>
    (match s.place A with
     | .lpddr c _ => if c / 16 = e.val then .memory A else .beyond
     | .crema _ _ => .beyond
     | .removed _ => .beyond
     | _ => .memory A)
  | _, x => x

/-- The page of the command list that a sequencer holds, as bytes, and a write to it. DESIGN CHOICE: log 76. -/
def State.cmdBytes (s : State) (b o n : Nat) : List Byte :=
  let bs := match (s.bayAt b).page with | some x => x.2 | none => []
  (List.range n).map (fun i => bs.getD (o + i) 0)
def State.putCmds (s : State) (b o : Nat) (bs : List Byte) : State :=
  match (s.bayAt b).page with
  | some (n, old) => s.setBay b { s.bayAt b with page := some (n, (List.range old.length).map (fun i =>
      if o ≤ i ∧ i < o + bs.length then bs.getD (i - o) 0 else old.getD i 0)) }
  | none => s

/-- Free bytes, one draw each. DESIGN CHOICE: log 76. -/
def State.freeBytes (s : State) (n : Nat) : List Byte × State :=
  ((List.range n).map (fun i => Config.freeByte (s.free + i)), { s with free := s.free + n })

/-- Read words of a block from a word offset on; offsets without a register read zero (R5, R9). -/
def State.readRegs (s : State) (b : Block) (off : Nat) : Nat → List Byte × State
  | 0 => ([], s)
  | n + 1 =>
    let x := if landBlock b off = .hole then (0, s) else s.readHeld b off
    let y := x.2.readRegs b (off + 4) n
    (natBytes 4 x.1.toNat ++ y.1, y.2)

/-- Write whole words to a block from a word offset on (R4). -/
def State.writeRegs (s : State) (b : Block) (off : Nat) : List Word → State
  | [] => s
  | w :: ws =>
    ((if landBlock b off = .hole ∨ ownCommand b off w false then s else s.writeReg b off w false)).writeRegs b (off + 4) ws

/-- Whole words of a payload. DEDUCED: log 77. -/
def wordsOf (bs : List Byte) : List Word :=
  (List.range (bs.length / 4)).map (fun i => BitVec.ofNat 32 (bytesNat ((bs.drop (4 * i)).take 4)))

/-- Write whole words of window entries, each committed by its last (R274). -/
def State.writeWindows (s : State) (e i byte : Nat) : List Word → State
  | [] => s
  | w :: ws => (s.writeWindow e i byte w).writeWindows e (if byte = 12 then i + 1 else i) ((byte + 4) % 16) ws

/-- A request at endpoint 1 of an edge die becomes a request that it keeps as a home edge, under the set of its tag, or waits
for room there (R242, R271). Bits [63:48] of a global address for which an initiator gives only the header's 48 are free.
DEDUCED: log 78. -/
def State.toHome (s : State) (n : Nat) (v : NocReq) : State :=
  let hi := (Config.freeWord s.free).toNat % 2 ^ 16
  let t : State := { s with free := s.free + 1 }
  match t.homeTake
    { src := v.pkt.src, srcEp := v.pkt.srcEp, tag := v.pkt.tag, cls := Fin.ofNat 4 v.cls, op := v.pkt.type, atomicOp := v.pkt.atomicOp
      gaddr := BitVec.ofNat 64 (v.gaddr.getD (hi * 2 ^ 48 + v.pkt.addr % 2 ^ 48)), bytes := v.pkt.bytes, payload := v.pkt.payload }
    v.set (some n) with
  | none => s
  | some u =>
    match u.nocAt n with
    | some w => u.setNoc n { w with delivered := true }
    | none => u

/-- A target answers with data, or that it has done what was asked. -/
def State.done (s : State) (n : Nat) (v : NocReq) (data : List Byte) : State := s.reply n v ⟨0, v.pkt.addr, data⟩

/-- An earlier request of the same initiator endpoint to the same endpoint in the same class has not arrived (R232). -/
def State.behind (s : State) (n : Nat) (v : NocReq) : Bool :=
  s.noc.any (fun e => decide (e.1 < n) && e.2.answer.isNone && !e.2.waiting && !e.2.delivered && e.2.pkt.type.val != 4 &&
    e.2.pkt.src == v.pkt.src && e.2.pkt.srcEp == v.pkt.srcEp && e.2.pkt.dst == v.pkt.dst &&
    e.2.pkt.dstEp == v.pkt.dstEp && e.2.cls == v.cls)

/-- An unanswered request of a type reaches its target, or one that waits in a bank queue there is served: isolated endpoints
answer by their router (R240). A home edge answers what it keeps by itself. -/
def State.arrive (s : State) (n type : Nat) (go : NocReq → Out) : Out :=
  match s.nocAt n with
  | none => impossible
  | some v =>
    if v.answer.isSome || v.waiting || v.pkt.type.val != type || s.behind n v then impossible
    else if s.dstIsolated v.pkt then .next (s.absorb n v)
    else go v

/-! ### Requests to LPDDR5X (R258) -/

/-- A write covers whole chunks of LPDDR5X (R258). -/
def fullChunks (A : Nat) (bs : List Byte) : Bool := !bs.isEmpty && (partUnits A bs.length).isEmpty

/-- A request to LPDDR5X reaches its channel: it enters its bank queue, or waits in the ingress while the queue holds 16; a
full-chunk write is acknowledged as it enters, and its bytes stand in the queue until its turn (R258). -/
def State.enqueue (s : State) (n : Nat) (v : NocReq) (A bank : Nat) : State :=
  if 16 ≤ (s.bankQueue bank).length then s
  else
    let posted := v.pkt.type.val = 1 ∧ fullChunks A v.pkt.payload
    let s := { s with bankQ := s.bankQ ++ [BankItem.mk n (v.cls == 0) A (decide posted) (if posted then v.pkt.payload else [])] }
    if posted then s.done n v [] else s.setNoc n { v with delivered := true }

/-- The queued full-chunk write that stands last before request n among the requests to its chunk, other reads apart, where it holds
the n bytes from address A (R258). DESIGN CHOICE: log 119. -/
def State.queuedWrite (s : State) (n A len : Nat) : Option (List Byte) :=
  let chunk (a : Nat) := (s.bankOf a).map (·.2.2)
  let isRead (x : BankItem) : Bool := match s.nocAt x.noc with | some v => !x.posted && v.pkt.type.val == 0 | none => false
  match ((s.bankQ.takeWhile (fun x => x.noc != n)).filter (fun x => chunk x.addr == chunk A && !isRead x)).getLast? with
  | some x => if x.posted ∧ x.addr ≤ A ∧ A + len ≤ x.addr + x.data.length then some ((x.data.drop (A - x.addr)).take len) else none
  | none => none

/-- A request to device memory reaches its endpoint: in LPDDR5X it first enters its bank queue and is served when the
controller picks it, or, a read of bytes of a queued full-chunk write, from that write (R258). -/
def State.memArrive (s : State) (n : Nat) (v : NocReq) (A : Nat) (go : State → MemAns × State) : Out :=
  match s.bankOf A with
  | none => let r := go s; .next (r.2.reply n v r.1)
  | some (bank, _, _) =>
    if !v.delivered then .next (s.enqueue n v A bank)
    else if let some bs := (if v.pkt.type.val = 0 then s.queuedWrite n A v.pkt.bytes else none) then
      .next (({ s with bankQ := s.bankQ.filter (fun y => y.noc != n) } : State).done n v bs)
    else
      match s.pick bank with
      | some x => if x.noc = n then let r := go (s.unqueue bank x); .next (r.2.reply n v r.1) else impossible
      | none => impossible

/-- The controller writes the chunk of a full-chunk write that was acknowledged as it entered, in its turn (R258). -/
def State.servePosted (s : State) (n : Nat) (m : MemFind) : Out :=
  match s.bankQ.find? (fun x => x.noc == n && x.posted) with
  | none => impossible
  | some x =>
    match s.bankOf x.addr with
    | none => impossible
    | some (bank, _, _) =>
      if (s.pick bank).map (·.noc) = some n then .next ((s.unqueue bank x).serveQueued x (m.of 1)) else impossible

/-! ### Reads and writes -/

/-- NOC_READ (R231, R249, R251, R252, R258): request n reaches its target; `m` is what memory meets. -/
def execNocRead (n : Nat) (m : MemFind) (s : State) : Out :=
  s.arrive n 0 (fun v =>
    let p := v.pkt
    match s.cellFor p with
    | .memory A => s.memArrive n v A (fun s => s.memRead (homeEdge p.src) A p.bytes (m.of v.cls))
    | .beyond => .next (s.reply n v ⟨stHole, p.addr, []⟩)
    | .regs b off =>
      let r := s.readRegs b (off / 4 * 4) ((off % 4 + p.bytes + 3) / 4)
      .next (r.2.done n v ((r.1.drop (off % 4)).take p.bytes))
    | .firm k => .next (s.done n v (s.firmRead k p.bytes))
    | .cmds b o => .next (s.done n v (s.cmdBytes b o p.bytes))
    | .dmem b a => .next (s.done n v (tbytes (s.vecAt b).dmem a p.bytes))
    | .window e i byte =>
      .next (s.done n v ((List.range p.bytes).map (fun k => ((natBytes 16 (s.winAt e (i + (byte + k) / 16))).getD ((byte + k) % 16) 0))))
    | .global => if v.delivered then impossible else .next (s.toHome n v)
    | .unknown => let r := s.freeBytes p.bytes; .next (r.2.done n v r.1))

/-- NOC_WRITE (R231, R249, R253, R258, R274): request n reaches its target, or a write that a bank queue has acknowledged is
performed. Registers and window entries take whole words. -/
def execNocWrite (n : Nat) (m : MemFind) (s : State) : Out :=
  if s.bankQ.any (fun x => x.noc == n && x.posted) then s.servePosted n m
  else s.arrive n 1 (fun v =>
    let p := v.pkt
    match s.cellFor p with
    | .memory A => s.memArrive n v A (fun s => s.memWrite (homeEdge p.src) A p.payload (m.of v.cls))
    | .beyond => .next (s.reply n v ⟨stHole, p.addr, []⟩)
    | .regs b off => .next ((s.writeRegs b off (if off % 4 = 0 then wordsOf p.payload else [])).done n v [])
    | .firm k => .next ((s.firmWrite k p.payload).done n v [])
    | .cmds b o => .next ((s.putCmds b o p.payload).done n v [])
    | .dmem b a => .next ((s.setVec b { s.vecAt b with dmem := tputBytes (s.vecAt b).dmem a p.payload }).done n v [])
    | .window e i byte => .next ((s.writeWindows e i byte (if byte % 4 = 0 then wordsOf p.payload else [])).done n v [])
    | .global => if v.delivered then impossible else .next (s.toHome n v)
    | .unknown => .next (s.done n v []))

/-! ### Atomics (R281) -/

/-- An atomic that is not performed is answered with a status that is not 0 and not stated. DEDUCED: log 74. -/
def State.atomicRefused (s : State) (n : Nat) (v : NocReq) : Out :=
  .next (({ s with free := s.free + 1 } : State).reply n v ⟨1 + (Config.freeByte s.free).toNat % 255, v.pkt.addr, []⟩)

/-- NOC_ATOMIC (R231, R253, R281): request n reaches endpoint 0 of its target, which answers with the old value. An atomic
with a reserved code, off its alignment, or at another endpoint changes nothing. DEDUCED: log 74. -/
def execNocAtomic (n : Nat) (m : MemFind) (s : State) : Out :=
  s.arrive n 2 (fun v =>
    let p := v.pkt
    match s.cellFor p, atomicWidth p.atomicOp with
    | .memory A, some w =>
      if A % w = 0 then
        s.memArrive n v A (fun s => s.memUpdate (homeEdge p.src) A w (fun old => atomicNew p.atomicOp w old p.payload) (m.of v.cls))
      else s.atomicRefused n v
    | .beyond, _ => .next (s.reply n v ⟨stHole, p.addr, []⟩)
    | .global, _ => if v.delivered then impossible else .next (s.toHome n v)
    | _, _ => s.atomicRefused n v)

/-- NOC_MESSAGE (R231, R284): request n, a message, is delivered to its endpoint and answered; at endpoint 1 of an edge die it
is a fence, which is answered when its scope lets it. The top of the module ID is free as in `toHome`. DEDUCED: log 78, 81. -/
def execNocMessage (n : Nat) (s : State) : Out :=
  s.arrive n 3 (fun v =>
    let p := v.pkt
    match s.cellFor p with
    | .global =>
      let hi := (Config.freeWord s.free).toNat % 2 ^ 16
      let g := v.gaddr.getD (hi * 2 ^ 48 + p.addr % 2 ^ 48)
      let scope := (p.payload.getD 0 0).toNat
      if v.delivered then impossible
      else if 2 ≤ scope then .next (s.done n v [])
      else
        let t : State := ({ s with free := s.free + 1 } : State).setNoc n { v with delivered := true }
        .next (t.addHome (.fence p.src p.srcEp p.tag (g / 2 ^ 44) v.cls scope v.set (some n)))
    | _ => .next ((s.emit (.nocMessage p.dst p.dstEp p.payload)).done n v []))

/-! ### Multicast (R154, R243) -/

/-- NOC_MULTICAST (R154, R243, R245): the copy of multicast request n for a bay reaches its target, which answers by unicast;
the last answer completes the request. DEDUCED: log 75. -/
def execNocMulticast (n : Nat) (c : CopyFind) (s : State) : Out :=
  match s.nocAt n with
  | none => impossible
  | some v =>
    if v.answer.isSome || v.waiting || v.pkt.type.val != 4 || !v.targets.contains c.bay.val then impossible
    else
      let x := s.mcastTarget v.pkt c.bay
      let x := (s.copyAnswer v.pkt c.bay x.1, x.2)
      let left := v.targets.filter (· != c.bay.val)
      let s := if v.gone then x.2
        else (x.2.countResponse v.pkt v.cls x.1 0 c.lat).emit (.nocAnswer v.pkt.src v.pkt.srcEp v.pkt.tag v.set x.1 [])
      .next (s.setNoc n { v with targets := left, answer := if left.isEmpty then some (0, []) else none })

/-! ### Responses (R238, R241, R245) -/

/-- Hand an answer to the initiator: a stream channel takes its own, a window's request goes back to its origin (R134, R276,
R280); the targets of a multicast have answered one by one. DEDUCED: log 75. -/
def State.deliverNoc (s : State) (n : Nat) (v : NocReq) (status : Nat) (data : List Byte) : State :=
  if s.flights.any (fun f => f.noc == n) then s.flightEnd n status data
  else if v.owner ≠ .bare then s.toOwner n v.owner status v.failAddr data
  else if v.pkt.type.val = 4 ∧ status = 0 then s
  else s.emit (.nocAnswer v.pkt.src v.pkt.srcEp v.pkt.tag v.set status data)

/-- Ristretto cycles without a token, at output ports of the routers of a request's way and of its answer's (R236).
DEDUCED: log 77. -/
def State.shapedAt (s : State) (v : NocReq) (xs : List (Fin 1024 × Nat)) : State :=
  let x := s.nocEnds v.pkt
  let way := pathOf x.1 x.2 v.yx ++ pathOf x.2 x.1 v.yx
  s.each (xs.filter (fun y => v.cls == 0 && decide (0 < y.2) && way.contains y.1.val)) (fun s y =>
    (s.bump (nocReg y.1 Reg.NOC_RIS_SHAPED) y.2).setFlag (nocReg y.1 Reg.NOC_ERR_FLAGS) 1)

/-- The response of a multicast has been counted target by target; any other is counted as it arrives. -/
def State.countAnswer (s : State) (v : NocReq) (status bytes lat : Nat) : State :=
  if v.pkt.type.val = 4 then s else s.countResponse v.pkt v.cls status bytes lat

/-- A response that comes after its timer has expired is discarded and counted by the block that owns the timer: the source's
router or edge die (R241, R285, R356). No register shows the count. DEDUCED: log 74. -/
def State.lateTally (s : State) (src : NocPlace) : State :=
  s.tally (match src with | .router r => nocReg r Reg.NOC_RESP_TIMEOUT | .edge e => regKey (.eov e) Reg.EOV_RESP_TIMEOUT)

/-- NOC_RESPONSE (R234, R236, R238, R241, R245, R356): the response to request n reaches its initiator, having met `w` on its way;
one that comes after the timeout is discarded and counted. -/
def execNocResponse (n : Nat) (w : WayFind) (s : State) : Out :=
  match s.nocAt n with
  | none => impossible
  | some v =>
    match v.answer with
    | none => impossible
    | some (st0, data0) =>
      let a := s.answerMeets v.pkt v.yx st0 data0
      let st := a.1
      let data := a.2
      let s := ({ s with noc := terase s.noc n } : State).shapedAt v w.shaped
      if v.gone then .next (s.lateTally v.pkt.src)
      else .next (((s.countAnswer v st data.length w.lat).deliverNoc n v st data).nocWake v.pkt)

/-- RESP_TIMEOUT (R241, R245): NOC_RESP_LIMIT expires on request n, which is completed, and counted, as if answered then with a
memory-class status; what comes later is discarded. DEDUCED: log 74. -/
def execRespTimeout (n : Nat) (s : State) : Out :=
  match s.nocAt n with
  | none => impossible
  | some v =>
    if v.gone || v.waiting then impossible
    else
      let s := s.srcBump v.pkt Reg.NOC_RESP_TIMEOUT 6
      let s := match v.pkt.src with
        | .router r => s.countAnswer v 0x24 0 (s.fld (nocReg r Reg.NOC_RESP_LIMIT) 15 0 * 1600)
        | .edge _ => s
      .next (((s.setNoc n { v with gone := true }).deliverNoc n v 0x24 []).nocWake v.pkt)

/-! ### Isolation (R239, R240) -/

/-- A request that an endpoint of a bay's router has not taken waits there, or a copy of a multicast. -/
def State.waitsAt (s : State) (b ep : Nat) : Bool :=
  s.noc.any (fun e => e.2.answer.isNone && !e.2.waiting &&
    (if e.2.pkt.type.val = 4 then e.2.targets.contains b && multicastEp e.2.pkt.payload == ep
     else !e.2.delivered && e.2.pkt.dstEp.val == ep && e.2.pkt.dst == .router (Fin.ofNat 1024 (routerOfBay b))))

/-- DEAD_LIMIT_EXPIRY (R239, R240): a request has waited NOC_DEAD_LIMIT cycles at an endpoint, which its router isolates. -/
def execDeadLimitExpiry (b : Bay) (ep : Fin 32) (s : State) : Out :=
  if s.rdN (regKey (.noc b) Reg.NOC_DEAD_LIMIT) == 0 || !s.waitsAt b ep || s.epIsolated b ep then impossible
  else .next ((s.isolate b (BitVec.ofNat 32 (2 ^ ep.val))).setFlag (regKey (.noc b) Reg.NOC_ERR_FLAGS) 2)

/-- A write to a register of a bay's NOC block by firmware, or by function 0 through the die window. -/
def State.nocCmd (s : State) (b off : Nat) (host : Bool) (go : State → State) : Out :=
  if host then
    s.bar0Do (regKey (.noc b) off) (fun s =>
      if s.blockLive (.noc b) off then go s else s.logAccess 2 false (regKey (.noc b) off))
  else .next (if s.blockLive (.noc b) off then go s else s)

/-- ISOLATE_SET (R239, R240): endpoints of a bay's router are isolated. -/
def execIsolateSet (b : Bay) (w : Word) (host : Bool) (s : State) : Out :=
  s.nocCmd b Reg.NOC_ISOLATE_SET host (fun s => s.isolate b w)

/-- ISOLATE_CLR (R240): the isolation of endpoints ends. -/
def execIsolateClr (b : Bay) (w : Word) (host : Bool) (s : State) : Out :=
  s.nocCmd b Reg.NOC_ISOLATE_CLR host (fun s => s.release b w)

/-- MAP_LOCK (R233, R247): map_lock of a router is set. -/
def execMapLock (b : Bay) (host : Bool) (s : State) : Out :=
  s.nocCmd b Reg.NOC_CTRL host (fun s => s.setFlag (regKey (.noc b) Reg.NOC_CTRL) 1)

/-! ### Crossings (R234) -/

/-- The router on the other side of a crossing, where there is one. -/
def acrossRouter (r dir : Nat) : Option Nat :=
  match dir with
  | 0 => if rx r = 31 then none else some (r + 1)
  | 1 => if ry r = 31 then none else some (r + 32)
  | 2 => if rx r = 0 then none else some (r - 1)
  | _ => if ry r = 0 then none else some (r - 32)

/-- A crossing goes down: both sides flag it, Ryhal is told, and every request still on its way over it is answered.
DEDUCED: log 73. -/
def State.crossingDown (s : State) (r dir : Nat) : State :=
  let s := { s with crossings := tput s.crossings (crossKey r dir) 1 }
  let s := s.each (r :: (acrossRouter r dir).toList) (fun s x => s.setFlag (nocReg x Reg.NOC_ERR_FLAGS) 3)
  let s := s.emit (.crossingDown r dir)
  let held := s.noc.filter (fun e => e.2.answer.isNone && !e.2.waiting && !e.2.delivered && e.2.pkt.type.val != 4 &&
    (s.nocLinks e.2.pkt e.2.yx).contains (crossKey r dir))
  s.each held (fun s e => s.setNoc e.1 { e.2 with answer := some (0x23, []) })

/-- CROSSING_CRC_ERROR (R234, R246): a flit that router r, or the station there, sends over a crossing fails its CRC and is
replayed. The sixteenth failed replay in a row takes the crossing down. DEDUCED: log 73. -/
def execCrossingCrcError (r : Fin 1024) (dir : Fin 4) (f : FlitFind) (s : State) : Out :=
  let k := senderKey r dir f.station
  if !isCrossing r dir || (f.station && (acrossRouter r dir).isSome) || s.linkDownOn [crossKey r dir] then impossible
  else
    let n := if f.again then tget (fun _ => 0) s.crossings k + 1 else 0
    let s := { s with crossings := tset (fun _ => 0) s.crossings k n }
    if n = 16 then .next (s.crossingDown r dir)
    else if f.station then .next s
    else .next ((s.bump (nocReg r Reg.NOC_CROSSING_RETRY) 1).setFlag (nocReg r Reg.NOC_ERR_FLAGS) 4)

end Sys2Proof.Machine
end

