-- ==== Sys2Proof/Machine/Reg.lean ====
section
/-! DEFINITION. Register accesses: writes, reads with the holding registers of 64-bit counters, and cnt_clear (R4 to R10,
R73). -/

namespace Sys2Proof.Machine

/-- The words of a request, as many as its size holds. -/
def sized (size : Nat) (ws : List Word) : List Word := (List.range (size / 4)).map (fun i => ws.getD i 0)

/-- A word of a host write that its own command stands for. -/
def Landed.own (x : Landed) (w : Word) : Bool :=
  match x with
  | .reg b off => ownCommand b off w true
  | _ => false

/-- A request of function f's BAR2 that its decoder takes. -/
def inBar2 (f : Func) (a : Nat) : Bool := decide (a < if f = 0 then 0x100000 else 0x1000)

/-- REGISTER_WRITE (R4, R6, R9, R10). -/
def execRegisterWrite (t : RegTarget) (ws : List Word) (s : State) : Out :=
  match t with
  | .bar0 a size =>
    let ws := sized size ws
    if decide (0x4000000 ≤ a) || (goodSize a size && ws.zipIdx.any (fun x => (landBar0 (a + 4 * x.2)).own x.1)) then impossible
    else s.bar0Do a (fun s =>
      if goodSize a size then s.writeWords (fun _ a => landBar0 a) false a ws else s.logAccess 0 false a)
  | .bar2 f a size =>
    let ws := sized size ws
    if !inBar2 f a || (goodSize a size && ws.zipIdx.any (fun x => (s.landBar2 f (a + 4 * x.2)).own x.1)) then impossible
    else s.pageDo f false a (fun s =>
      if goodSize a size then s.writeWords (fun s a => s.landBar2 f a) true a ws else s.logAccess 0 true a)
  | .net b off =>
    let w := ws.headD 0
    if landBlock b off = .hole ∨ ownCommand b off w false then impossible
    else if s.blockLive b off then .next (s.writeReg b off w false)
    else .next (s.emit (.regFail t 0x23))

/-- COUNTER_LO_READ (R73), and every other read of a register (R4, R6, R9, R10): what is read goes out. -/
def execCounterLoRead (t : RegTarget) (s : State) : Out :=
  match t with
  | .bar0 a size =>
    if 0x4000000 ≤ a then impossible
    else s.bar0Do a (fun s =>
      if goodSize a size then
        let x := s.readWords (fun _ a => landBar0 a) false a (size / 4)
        x.2.emit (.regData t (some x.1))
      else (s.logAccess 0 false a).emit (.regData t none)) (fun s => s.emit (.regData t none))
  | .bar2 f a size =>
    if !inBar2 f a then impossible
    else s.pageDo f false a (fun s =>
      if goodSize a size then
        let x := s.readWords (fun s a => s.landBar2 f a) true a (size / 4)
        x.2.emit (.regData t (some x.1))
      else (s.logAccess 0 true a).emit (.regData t none)) (fun s => s.emit (.regData t none))
  | .net b off =>
    if landBlock b off = .hole then impossible
    else if s.blockLive b off then
      let x := s.readHeld b off
      .next (x.2.emit (.regData t (some [x.1])))
    else .next (s.emit (.regFail t 0x23))

/-- CNT_CLEAR (R73): cnt_clear of a block's control register is written: by firmware, or by function 0 where BAR0 maps the
block. A block whose map has no cnt_clear has no such write. -/
def execCntClear (b : Block) (host : Bool) (s : State) : Out :=
  match cntBit b with
  | none => impossible
  | some (o, _) =>
    if host then
      if landBar0 (regKey b o) = .reg b o then
        s.bar0Do (regKey b o) (fun s => if s.blockLive b o then s.clearCounters b else s.logAccess 2 false (regKey b o))
      else impossible
    else .next (if s.blockLive b o then s.clearCounters b else s)

end Sys2Proof.Machine
end

