-- ==== Sys2Proof/Machine/Dispatch.lean ====
section
/-! DEFINITION. One arm per command: each calls that command's own meaning. -/

namespace Sys2Proof.Machine

/-- The effect of a command on everything but the queue. DESIGN CHOICE: log 10. -/
def exec (i : Instr) (s : State) : Host.Outcome State Fault Refusal :=
  match i with
  | .registerWrite t ws => Sys2Proof.Machine.execRegisterWrite t ws s
  | .counterLoRead t => Sys2Proof.Machine.execCounterLoRead t s
  | .cntClear b host => Sys2Proof.Machine.execCntClear b host s
  | .perstAssert cut => Sys2Proof.Machine.execPerstAssert cut s
  | .perstRelease => Sys2Proof.Machine.execPerstRelease s
  | .pwrgdRise => Sys2Proof.Machine.execPwrgdRise s
  | .pwrgdFall cut => Sys2Proof.Machine.execPwrgdFall cut s
  | .pwrdisChange high ms cut => Sys2Proof.Machine.execPwrdisChange high ms cut s
  | .undervoltageLockout cut => Sys2Proof.Machine.execUndervoltageLockout cut s
  | .overvoltageShutdown cut => Sys2Proof.Machine.execOvervoltageShutdown cut s
  | .pcieRefclkLoss => Sys2Proof.Machine.execPcieRefclkLoss s
  | .refLoss => Sys2Proof.Machine.execRefLoss s
  | .refReturn => Sys2Proof.Machine.execRefReturn s
  | .capacitorLow => Sys2Proof.Machine.execCapacitorLow s
  | .passCmd b m => Sys2Proof.Machine.execPassCmd b m s
  | .passAccept t e => Sys2Proof.Machine.execPassAccept t e s
  | .vectorFeed t q e => Sys2Proof.Machine.execVectorFeed t q e s
  | .vectorStreamEnd t q e => Sys2Proof.Machine.execVectorStreamEnd t q e s
  | .drainRecord t e => Sys2Proof.Machine.execDrainRecord t e s
  | .drainRecordAccept t e => Sys2Proof.Machine.execDrainRecordAccept t e s
  | .passBudgetExpiry t => Sys2Proof.Machine.execPassBudgetExpiry t s
  | .mtxSoftReset t => Sys2Proof.Machine.execMtxSoftReset t s
  | .creditGrant b dst blk w => Sys2Proof.Machine.execCreditGrant b dst blk w s
  | .blockComplete b dst blk w e => Sys2Proof.Machine.execBlockComplete b dst blk w e s
  | .preemption j => Sys2Proof.Machine.execPreemption j s
  | .vprog b m => Sys2Proof.Machine.execVprog b m s
  | .vwait b m => Sys2Proof.Machine.execVwait b m s
  | .vecNop v f => Sys2Proof.Machine.execVecNop v f s
  | .add v f => Sys2Proof.Machine.execAdd v f s
  | .sub v f => Sys2Proof.Machine.execSub v f s
  | .min v f => Sys2Proof.Machine.execMin v f s
  | .max v f => Sys2Proof.Machine.execMax v f s
  | .and v f => Sys2Proof.Machine.execAnd v f s
  | .or v f => Sys2Proof.Machine.execOr v f s
  | .xor v f => Sys2Proof.Machine.execXor v f s
  | .shl v f => Sys2Proof.Machine.execShl v f s
  | .sra v f => Sys2Proof.Machine.execSra v f s
  | .srl v f => Sys2Proof.Machine.execSrl v f s
  | .movi v f => Sys2Proof.Machine.execMovi v f s
  | .bfly v f => Sys2Proof.Machine.execBfly v f s
  | .rot v f => Sys2Proof.Machine.execRot v f s
  | .mul v f => Sys2Proof.Machine.execMul v f s
  | .mac v f => Sys2Proof.Machine.execMac v f s
  | .msu v f => Sys2Proof.Machine.execMsu v f s
  | .sqs v f => Sys2Proof.Machine.execSqs v f s
  | .sbm v f => Sys2Proof.Machine.execSbm v f s
  | .clr v f => Sys2Proof.Machine.execClr v f s
  | .lda v f => Sys2Proof.Machine.execLda v f s
  | .nrw v f => Sys2Proof.Machine.execNrw v f s
  | .nrm2 v f => Sys2Proof.Machine.execNrm2 v f s
  | .hdm v f => Sys2Proof.Machine.execHdm v f s
  | .shb v f => Sys2Proof.Machine.execShb v f s
  | .bhd v f => Sys2Proof.Machine.execBhd v f s
  | .bst v f => Sys2Proof.Machine.execBst v f s
  | .fn v f => Sys2Proof.Machine.execFn v f s
  | .fcv v f => Sys2Proof.Machine.execFcv v f s
  | .icv v f => Sys2Proof.Machine.execIcv v f s
  | .padd v f => Sys2Proof.Machine.execPadd v f s
  | .psub v f => Sys2Proof.Machine.execPsub v f s
  | .psla v f => Sys2Proof.Machine.execPsla v f s
  | .psra v f => Sys2Proof.Machine.execPsra v f s
  | .pnrw v f => Sys2Proof.Machine.execPnrw v f s
  | .imm v f => Sys2Proof.Machine.execImm v f s
  | .vecLoad v y f d => Sys2Proof.Machine.execVecLoad v y f d s
  | .vecStore v y f hit => Sys2Proof.Machine.execVecStore v y f hit s
  | .rep v f => Sys2Proof.Machine.execRep v f s
  | .jmp v f => Sys2Proof.Machine.execJmp v f s
  | .brk v f => Sys2Proof.Machine.execBrk v f s
  | .vecWait v f => Sys2Proof.Machine.execVecWait v f s
  | .give v f => Sys2Proof.Machine.execGive v f s
  | .vecSend v f => Sys2Proof.Machine.execVecSend v f s
  | .sendRowAccept v e collide => Sys2Proof.Machine.execSendRowAccept v e collide s
  | .sendTimeout v => Sys2Proof.Machine.execSendTimeout v s
  | .sync v f => Sys2Proof.Machine.execSync v f s
  | .agld v f => Sys2Proof.Machine.execAgld v f s
  | .ldt v f d => Sys2Proof.Machine.execLdt v f d s
  | .evt v f => Sys2Proof.Machine.execEvt v f s
  | .vecEnd v f => Sys2Proof.Machine.execVecEnd v f s
  | .vecSoftReset v => Sys2Proof.Machine.execVecSoftReset v s
  | .streamCmd b m => Sys2Proof.Machine.execStreamCmd b m s
  | .streamBegin b c => Sys2Proof.Machine.execStreamBegin b c s
  | .weightAheadBegin b c => Sys2Proof.Machine.execWeightAheadBegin b c s
  | .streamRequestIssue b c => Sys2Proof.Machine.execStreamRequestIssue b c s
  | .tableWalkResponse b c m => Sys2Proof.Machine.execTableWalkResponse b c m s
  | .streamReadResponse b c id m => Sys2Proof.Machine.execStreamReadResponse b c id m s
  | .streamRowAccept b c => Sys2Proof.Machine.execStreamRowAccept b c s
  | .storeRecordReceive b c => Sys2Proof.Machine.execStoreRecordReceive b c s
  | .streamWriteAck b c id m => Sys2Proof.Machine.execStreamWriteAck b c id m s
  | .streamResume b c => Sys2Proof.Machine.execStreamResume b c s
  | .streamAbort b c => Sys2Proof.Machine.execStreamAbort b c s
  | .pauseLimitExpiry b c => Sys2Proof.Machine.execPauseLimitExpiry b c s
  | .strSoftReset b => Sys2Proof.Machine.execStrSoftReset b s
  | .layer b m => Sys2Proof.Machine.execLayer b m s
  | .barrierCmd b m => Sys2Proof.Machine.execBarrierCmd b m s
  | .barrierArrival b m => Sys2Proof.Machine.execBarrierArrival b m s
  | .barrierRelease b => Sys2Proof.Machine.execBarrierRelease b s
  | .barrierLimitExpiry j k => Sys2Proof.Machine.execBarrierLimitExpiry j k s
  | .eventCmd b m => Sys2Proof.Machine.execEventCmd b m s
  | .seqEnd b m => Sys2Proof.Machine.execSeqEnd b m s
  | .bayEndMsg b => Sys2Proof.Machine.execBayEndMsg b s
  | .timeLimitExpiry j => Sys2Proof.Machine.execTimeLimitExpiry j s
  | .jobDispatch j m => Sys2Proof.Machine.execJobDispatch j m s
  | .jobPlacement j m bad => Sys2Proof.Machine.execJobPlacement j m bad s
  | .multicastAck j lb ok => Sys2Proof.Machine.execMulticastAck j lb ok s
  | .multicastRetry j lb => Sys2Proof.Machine.execMulticastRetry j lb s
  | .translationInvalidate b part lo hi => Sys2Proof.Machine.execTranslationInvalidate b part lo hi s
  | .invalidationComplete b => Sys2Proof.Machine.execInvalidationComplete b s
  | .quarterZeroed q => Sys2Proof.Machine.execQuarterZeroed q s
  | .checkpointRecordWrite b m us => Sys2Proof.Machine.execCheckpointRecordWrite b m us s
  | .partitionReset p => Sys2Proof.Machine.execPartitionReset p s
  | .partitionResetEnd p => Sys2Proof.Machine.execPartitionResetEnd p s
  | .llContention d rr line => Sys2Proof.Machine.execLlContention d rr line s
  | .bramEccRead d memory word flips => Sys2Proof.Machine.execBramEccRead d memory word flips s
  | .pllLockLoss d n => Sys2Proof.Machine.execPllLockLoss d n s
  | .pllRelock d n => Sys2Proof.Machine.execPllRelock d n s
  | .globalClockSwitch d g stopped stopped2 => Sys2Proof.Machine.execGlobalClockSwitch d g stopped stopped2 s
  | .tilePortPush b p rs => Sys2Proof.Machine.execTilePortPush b p rs s
  | .tilePortGrant b p => Sys2Proof.Machine.execTilePortGrant b p s
  | .tilePortPop b p => Sys2Proof.Machine.execTilePortPop b p s
  | .delayTapLoad c tap => Sys2Proof.Machine.execDelayTapLoad c tap s
  | .delayTapStep c up => Sys2Proof.Machine.execDelayTapStep c up s
  | .configurationEntry f r bs => Sys2Proof.Machine.execConfigurationEntry f r bs s
  | .header l m => Sys2Proof.Machine.execHeader l m s
  | .seg d m => Sys2Proof.Machine.execSeg d m s
  | .segmentAuthenticated d m => Sys2Proof.Machine.execSegmentAuthenticated d m s
  | .cfgNop d => Sys2Proof.Machine.execCfgNop d s
  | .regw d => Sys2Proof.Machine.execRegw d s
  | .faddr d => Sys2Proof.Machine.execFaddr d s
  | .fdata d => Sys2Proof.Machine.execFdata d s
  | .keyroll d => Sys2Proof.Machine.execKeyroll d s
  | .cfgEnd d => Sys2Proof.Machine.execCfgEnd d s
  | .sig d m => Sys2Proof.Machine.execSig d m s
  | .frameCommit d => Sys2Proof.Machine.execFrameCommit d s
  | .signatureReport l => Sys2Proof.Machine.execSignatureReport l s
  | .borderOpen d => Sys2Proof.Machine.execBorderOpen d s
  | .abortLoad d => Sys2Proof.Machine.execAbortLoad d s
  | .scrubRead d data check m => Sys2Proof.Machine.execScrubRead d data check m s
  | .scrubWriteBack d => Sys2Proof.Machine.execScrubWriteBack d s
  | .essResetEnd d r => Sys2Proof.Machine.execEssResetEnd d r s
  | .nocInject p => Sys2Proof.Machine.execNocInject p s
  | .nocRead n m => Sys2Proof.Machine.execNocRead n m s
  | .nocWrite n m => Sys2Proof.Machine.execNocWrite n m s
  | .nocAtomic n m => Sys2Proof.Machine.execNocAtomic n m s
  | .nocMessage n => Sys2Proof.Machine.execNocMessage n s
  | .nocMulticast n c => Sys2Proof.Machine.execNocMulticast n c s
  | .nocResponse n w => Sys2Proof.Machine.execNocResponse n w s
  | .deadLimitExpiry b ep => Sys2Proof.Machine.execDeadLimitExpiry b ep s
  | .isolateSet b w host => Sys2Proof.Machine.execIsolateSet b w host s
  | .isolateClr b w host => Sys2Proof.Machine.execIsolateClr b w host s
  | .mapLock b host => Sys2Proof.Machine.execMapLock b host s
  | .crossingCrcError r dir f => Sys2Proof.Machine.execCrossingCrcError r dir f s
  | .respTimeout n => Sys2Proof.Machine.execRespTimeout n s
  | .cremaPatrolRead b o e => Sys2Proof.Machine.execCremaPatrolRead b o e s
  | .scrubNow d => Sys2Proof.Machine.execScrubNow d s
  | .trainStart c => Sys2Proof.Machine.execTrainStart c s
  | .initStart c => Sys2Proof.Machine.execInitStart c s
  | .markBad c => Sys2Proof.Machine.execMarkBad c s
  | .channelInitDone c => Sys2Proof.Machine.execChannelInitDone c s
  | .trainPatternStart c w => Sys2Proof.Machine.execTrainPatternStart c w s
  | .trainPatternDone c fail beats => Sys2Proof.Machine.execTrainPatternDone c fail beats s
  | .powerDownExpiry c rank => Sys2Proof.Machine.execPowerDownExpiry c rank s
  | .refreshDue c b => Sys2Proof.Machine.execRefreshDue c b s
  | .lpddrPatrolRead c k e => Sys2Proof.Machine.execLpddrPatrolRead c k e s
  | .homeEdgeRequest r => Sys2Proof.Machine.execHomeEdgeRequest r s
  | .fence src ep tag cls id scope => Sys2Proof.Machine.execFence src ep tag cls id scope s
  | .fabricPacketReceive p => Sys2Proof.Machine.execFabricPacketReceive p s
  | .fabricResponseReceive p => Sys2Proof.Machine.execFabricResponseReceive p s
  | .windowEntryCommit e n host w => Sys2Proof.Machine.execWindowEntryCommit e n host w s
  | .drainLimitExpiry e t => Sys2Proof.Machine.execDrainLimitExpiry e t s
  | .fabricRespTimeout n => Sys2Proof.Machine.execFabricRespTimeout n s
  | .drainLimitWrite e w => Sys2Proof.Machine.execDrainLimitWrite e w s
  | .respLimitWrite e w => Sys2Proof.Machine.execRespLimitWrite e w s
  | .codewordReceive p lines => Sys2Proof.Machine.execCodewordReceive p lines s
  | .markerCheck l line => Sys2Proof.Machine.execMarkerCheck l line s
  | .retryTimerExpiry p => Sys2Proof.Machine.execRetryTimerExpiry p s
  | .laneLockLoss l => Sys2Proof.Machine.execLaneLockLoss l s
  | .cablePresenceChange p present => Sys2Proof.Machine.execCablePresenceChange p present s
  | .ppmMeasure p offset => Sys2Proof.Machine.execPpmMeasure p offset s
  | .laneAcquireLock l ctle => Sys2Proof.Machine.execLaneAcquireLock l ctle s
  | .capabilityRecordReceive l r => Sys2Proof.Machine.execCapabilityRecordReceive l r s
  | .deskewDone p skews => Sys2Proof.Machine.execDeskewDone p skews s
  | .bringupTimeout p => Sys2Proof.Machine.execBringupTimeout p s
  | .enable p on => Sys2Proof.Machine.execEnable p on s
  | .retrain p => Sys2Proof.Machine.execRetrain p s
  | .testMode p on => Sys2Proof.Machine.execTestMode p on s
  | .checkerLock l first rest => Sys2Proof.Machine.execCheckerLock l first rest s
  | .idleTimerExpiry p => Sys2Proof.Machine.execIdleTimerExpiry p s
  | .idleExit p => Sys2Proof.Machine.execIdleExit p s
  | .inject l kind len => Sys2Proof.Machine.execInject l kind len s
  | .pcieConfigRequest f q => Sys2Proof.Machine.execPcieConfigRequest f q s
  | .pcieLinkUp l speed width => Sys2Proof.Machine.execPcieLinkUp l speed width s
  | .pcieLinkDown l => Sys2Proof.Machine.execPcieLinkDown l s
  | .bar4Read f off n net m => Sys2Proof.Machine.execBar4Read f off n net m s
  | .bar4Write f off bs net m => Sys2Proof.Machine.execBar4Write f off bs net m s
  | .functionLevelReset f => Sys2Proof.Machine.execFunctionLevelReset f s
  | .d3hotEntry f => Sys2Proof.Machine.execD3hotEntry f s
  | .d0Return f => Sys2Proof.Machine.execD0Return f s
  | .hifKick f via0 w => Sys2Proof.Machine.execHifKick f via0 w s
  | .dbrecFetchDone f g records => Sys2Proof.Machine.execDbrecFetchDone f g records s
  | .cqHeadPoll f q record => Sys2Proof.Machine.execCqHeadPoll f q record s
  | .ringEnable f via0 record => Sys2Proof.Machine.execRingEnable f via0 record s
  | .ringDisable f via0 => Sys2Proof.Machine.execRingDisable f via0 s
  | .jobEntry f r bs => Sys2Proof.Machine.execJobEntry f r bs s
  | .ringBarrier f r bs => Sys2Proof.Machine.execRingBarrier f r bs s
  | .ringNop f r bs => Sys2Proof.Machine.execRingNop f r bs s
  | .pin f r bs m => Sys2Proof.Machine.execPin f r bs m s
  | .unpin f r bs => Sys2Proof.Machine.execUnpin f r bs s
  | .completionWrite f q err ns replays => Sys2Proof.Machine.execCompletionWrite f q err ns replays s
  | .versionOffer f via0 w => Sys2Proof.Machine.execVersionOffer f via0 w s
  | .irqDelayExpiry f q => Sys2Proof.Machine.execIrqDelayExpiry f q s
  | .check => Sys2Proof.Machine.execCheck s
  | .tamp => Sys2Proof.Machine.execTamp s
  | .copyActive => Sys2Proof.Machine.execCopyActive s
  | .shadowWrite n w => Sys2Proof.Machine.execShadowWrite n w s
  | .switchReport d us => Sys2Proof.Machine.execSwitchReport d us s
  | .tampLimitExpiry => Sys2Proof.Machine.execTampLimitExpiry s
  | .mbxOutHi core e w => Sys2Proof.Machine.execMbxOutHi core e w s
  | .mbxSendHi f via0 w => Sys2Proof.Machine.execMbxSendHi f via0 w s
  | .mbxDbSet core e w => Sys2Proof.Machine.execMbxDbSet core e w s
  | .mbxDbMaskWrite by_ e w => Sys2Proof.Machine.execMbxDbMaskWrite by_ e w s
  | .endpointWithdraw e => Sys2Proof.Machine.execEndpointWithdraw e s
  | .bringupPhaseEnd f => Sys2Proof.Machine.execBringupPhaseEnd f s
  | .phaseDeadline n f => Sys2Proof.Machine.execPhaseDeadline n f s
  | .recoveryPoint => Sys2Proof.Machine.execRecoveryPoint s
  | .trainingStartPoint => Sys2Proof.Machine.execTrainingStartPoint s
  | .fieldFuseWrite u ok => Sys2Proof.Machine.execFieldFuseWrite u ok s
  | .logicBist host die target => Sys2Proof.Machine.execLogicBist host die target s
  | .memoryBist host die target => Sys2Proof.Machine.execMemoryBist host die target s
  | .bothBist host die target => Sys2Proof.Machine.execBothBist host die target s
  | .bistDone f => Sys2Proof.Machine.execBistDone f s
  | .selfTest => Sys2Proof.Machine.execSelfTest s
  | .challenge => Sys2Proof.Machine.execChallenge s
  | .attest c => Sys2Proof.Machine.execAttest c s
  | .extend c => Sys2Proof.Machine.execExtend c s
  | .setTime c => Sys2Proof.Machine.execSetTime c s
  | .installOck c => Sys2Proof.Machine.execInstallOck c s
  | .installUak c => Sys2Proof.Machine.execInstallUak c s
  | .installSignerKeys c => Sys2Proof.Machine.execInstallSignerKeys c s
  | .transferOwnership c => Sys2Proof.Machine.execTransferOwnership c s
  | .revokeVendorSlot c => Sys2Proof.Machine.execRevokeVendorSlot c s
  | .installFirmware c => Sys2Proof.Machine.execInstallFirmware c s
  | .advanceCounter c => Sys2Proof.Machine.execAdvanceCounter c s
  | .zeroise c => Sys2Proof.Machine.execZeroise c s
  | .scrap c => Sys2Proof.Machine.execScrap c s
  | .authLockoutEnd => Sys2Proof.Machine.execAuthLockoutEnd s
  | .entropyTestFail => Sys2Proof.Machine.execEntropyTestFail s
  | .attach => Sys2Proof.Machine.execAttach s
  | .detach => Sys2Proof.Machine.execDetach s
  | .takeover m => Sys2Proof.Machine.execTakeover m s
  | .heartbeatSend => Sys2Proof.Machine.execHeartbeatSend s
  | .heartbeatCheck m => Sys2Proof.Machine.execHeartbeatCheck m s
  | .mirrorWriteResponse n status => Sys2Proof.Machine.execMirrorWriteResponse n status s
  | .syncDone us => Sys2Proof.Machine.execSyncDone us s
  | .moduleCapStep p => Sys2Proof.Machine.execModuleCapStep p s
  | .dieCapEval d p => Sys2Proof.Machine.execDieCapEval d p s
  | .sensorRead src ts => Sys2Proof.Machine.execSensorRead src ts s
  | .thermalStep d => Sys2Proof.Machine.execThermalStep d s
  | .droopDetect d => Sys2Proof.Machine.execDroopDetect d s
  | .stretchEnd d => Sys2Proof.Machine.execStretchEnd d s
  | .tripWrite host w => Sys2Proof.Machine.execTripWrite host w s
  | .quarterGate q => Sys2Proof.Machine.execQuarterGate q s
  | .quarterUngate q => Sys2Proof.Machine.execQuarterUngate q s
  | .telemetryRecord m => Sys2Proof.Machine.execTelemetryRecord m s
  | .secServiceDone pass m => Sys2Proof.Machine.execSecServiceDone pass m s
  | .hostReadTimeout f entry n => Sys2Proof.Machine.execHostReadTimeout f entry n s
  | .entryReadError f r => Sys2Proof.Machine.execEntryReadError f r s
  | .codewordTransmit p shaped => Sys2Proof.Machine.execCodewordTransmit p shaped s

end Sys2Proof.Machine
end

