-- ==== Sys2Proof/Safety.lean ====
section
/-! DEFINITION. The terms that claims are made in: what an answer is, what a step leaves, and what every step keeps. -/

namespace Sys2Proof.Machine

/-- A command completes: it answers a next state, of which P holds. -/
def Completes (o : Out) (P : State → Prop) : Prop := ∃ t, o = .next t ∧ P t

/-- Nothing but registers has changed, and of these only those listed. -/
def OnlyRegs (s t : State) (ks : List Nat) : Prop :=
  t = { s with regs := t.regs } ∧ ∀ k, k ∉ ks → t.rd k = s.rd k

/-- Of the registers, only those listed have changed. -/
def RegsKept (s t : State) (ks : List Nat) : Prop := ∀ k, k ∉ ks → t.rd k = s.rd k

/-- Every byte of device memory reads as before. -/
def MemKept (s t : State) : Prop := ∀ a, t.readByte a = s.readByte a

/-- Every byte of device memory outside n bytes from address a reads as before. -/
def MemKeptOutside (s t : State) (a n : Nat) : Prop := ∀ b, b < a ∨ a + n ≤ b → t.readByte b = s.readByte b

/-- Work in flight and volatile state are gone: what a reset by PERST# leaves of them (R7, R17, R363). -/
def WorkLost (t : State) : Prop :=
  t.mem = [] ∧ t.poison = [] ∧ t.mtx = [] ∧ t.vec = [] ∧ t.chans = [] ∧ t.bays = [] ∧ t.ports = [] ∧ t.jobs = [] ∧
  t.queues = [] ∧ t.cqs = [] ∧ t.sqs = [] ∧ t.fns = [] ∧ t.pins = [] ∧ t.sec = .init ∧ t.cfgs = [] ∧ t.loads = [] ∧
  t.firm = [] ∧ t.noc = [] ∧ t.swap = none ∧ t.home = [] ∧ t.windows = [] ∧ t.flights = [] ∧ t.links = [] ∧
  t.twin = .init ∧ t.plan = .init ∧ t.test = none ∧ t.flops = [] ∧ t.lutMems = [] ∧ t.brams = [] ∧ t.lines = [] ∧
  t.ioRegs = [] ∧ t.taps = [] ∧ t.clocks = [] ∧ t.userIo = [] ∧ t.bankQ = [] ∧ t.checks = [] ∧ t.crossings = [] ∧
  t.patterns = [] ∧ t.poolLast = [] ∧ t.clkSeen = [] ∧ t.clkEdges = [] ∧ t.tallies = [] ∧ t.fwBody = [] ∧ t.fwBays = []

/-- How the state may go on from s: the queue is the sender's, what was sent out stays sent, free values are drawn in turn,
tables keep their canonical form, and fuses are never unblown (R365, R369, R382, R383). -/
structure Evolves (s t : State) : Prop where
  queue : t.pending = s.pending
  out : s.out <+: t.out
  free : s.free ≤ t.free
  mem : Memory.wf s.mem → Memory.wf t.mem
  regs : Registers.wf s.regs → Registers.wf t.regs
  factory : t.nv.factory = s.nv.factory
  field : s.nv.field <+: t.nv.field
  killed : s.nv.sec.killed = true → t.nv.sec.killed = true

/-- What holds of every state a run reaches: memory and registers in canonical form. -/
def State.Inv (s : State) : Prop := Memory.wf s.mem ∧ Registers.wf s.regs

/-- The slot of the packet at the pc of a vector tile can act and the packet is in order (R94, R103, R107). -/
def State.slotReady (s : State) (b : Nat) (sl : Slot) : Prop :=
  (s.vecAt b).active = true ∧ (s.vecAt b).ending = false ∧ sl ∉ (s.vecAt b).ran ∧
  (sl = .control ∨ pkCtl (s.vecAt b).packet = 0 ∨ .control ∈ (s.vecAt b).ran) ∧
  (s.vecAt b).packetError (s.vecAt b).packet = false

/-- A slot has acted, its own effect having made the tile w: with another slot of the packet still to act the tile is w
with the slot noted; with none the packet has issued and is counted, and the program goes on, ends, or stops for a
pre-emption (R103, R107, R113). -/
def SlotActed (s t : State) (b : Nat) (sl : Slot) (w : Vec) : Prop :=
  let w' : Vec := { w with ran := w.ran ++ [sl], state := .running }
  let kept := t.mem = s.mem ∧ ∀ x, x ≠ b → t.vecAt x = s.vecAt x
  ((∃ y ∈ packetSlots (s.vecAt b).packet, y ≠ sl ∧ y ∉ (s.vecAt b).ran) → t.vecAt b = w' ∧ kept) ∧
  ((∀ y ∈ packetSlots (s.vecAt b).packet, y = sl ∨ y ∈ (s.vecAt b).ran) →
    (w'.advance.ending = false → w'.advance.pc < w'.advance.packets → kept ∧
      t.vecAt b = (if w'.advance.stopReq then w'.advance.stop else w'.advance) ∧
      t.rd64 (vecReg b Reg.VEC_PACKETS) = (s.rd64 (vecReg b Reg.VEC_PACKETS) + 1) % 2 ^ 64) ∧
    (w'.advance.ending = true → kept ∧ t.vecAt b =
      if w'.advance.sends.isEmpty then { w'.advance with state := .idle, ending := false, stopReq := false }
      else if w'.advance.stopReq then w'.advance.stop else { w'.advance with state := .sync }))

/-- A bay's next command, of operation op, has been fetched: it is the word c of job j, the fetch left u, and w is what
further reads meet (R147, R152). -/
def State.fetched (s : State) (b op : Nat) (m w : MemFind) (j : Nat) (v : Job) (c : Nat) (u : State) : Prop :=
  (s.bayAt b).job = some j ∧ s.jobAt j = some v ∧ v.phase = .running ∧ (s.bayAt b).running = true ∧
  (s.bayAt b).waiting = false ∧ (s.bayAt b).finished = false ∧ 8 * (s.bayAt b).next < (s.bayAt b).cmdBytes ∧
  (∃ r : MemAns, s.fetchPage b v m = (r, u) ∧ r.status = 0 ∧ imgN r.data (8 * (s.bayAt b).next % 4096) 8 = c) ∧
  cmdOp c = op ∧ w = (if (s.bayAt b).page.any (fun p => p.1 == 8 * (s.bayAt b).next / 4096) then m else m.rest)

/-- The next entry of a submission ring can be taken: it is due, whole and in order, its ring is not mirrored, and the
engine has room for it (R325, R327, R401). -/
def State.entryReady (s : State) (f r : Nat) (bs : List Byte) : Prop :=
  s.entryDue f r = true ∧ bs.length = 64 ∧ (s.ringEntry f bs).bad = false ∧ s.mirrorIdx f r = none ∧
  (s.ringClass f r ≠ 0 ∨ s.ristrettoHeld f < 32) ∧
  ∀ e : Entry, MirrorWrite.entry (.barrier e) ∈ s.twin.writes.map (·.act) → ¬ (e.func = f ∧ e.ring = r)

/-- The state once the next entry of a ring has been taken: its 64 bytes are read, the count moves on and the entry is noted
(R322, R327). -/
def State.entryTaken (s : State) (f r : Nat) : State :=
  ((s.emit (.hostRead f (s.entryAddr f r (s.rdN (ringKey f false r 0x14))) 64)).wr (ringKey f false r 0x14) (BitVec.ofNat 32 (s.rdN (ringKey f false r 0x14) + 1))).setSq f r
    { s.sqAt f r with taken := (s.sqAt f r).taken ++ [s.rdN (ringKey f false r 0x14)] }

end Sys2Proof.Machine
end

