-- ==== Sys2Proof/Certificates/Slice0/Obligations.lean ====
section
/-! DEFINITION. The statements about the model. -/

open Sys2Proof Sys2Proof.Machine

/-- A step runs the command at the front of the queue. For every command c, queue rest and state s, a step of s with c
at the front of its queue is exec of c on s with the queue's rest. (INDEX.md; 95_what_each_step_holds.md) -/
def Obligations.StepRunsTheFrontCommand : Prop :=
  ∀ (c : Instr) (rest : List Instr) (s : State), step { s with pending := c :: rest } = exec c { s with pending := rest }

/-- With no command waiting the module idles, or a user clock has an edge. A step on an empty queue completes. With
released logic on no die it answers the state unchanged; with released logic on some die one edge of one user clock
passes, which touches no device memory, no tile, no job, no storage, no pin and sends nothing out. That an empty queue
stands for such an edge is the model's own choice (log entries 1 and 128). (95_what_each_step_holds.md;
08_logic_array.md (R171, R176)) -/
def Obligations.StepIdlesOnAnEmptyQueue : Prop :=
  ∀ s : State, s.pending = [] → Completes (step s) fun t =>
    ((∀ d < 16, s.dieState d ≠ 3) → t = s) ∧ t.pending = [] ∧ t.mem = s.mem ∧ t.mtx = s.mtx ∧ t.vec = s.vec ∧
    t.chans = s.chans ∧ t.jobs = s.jobs ∧ t.noc = s.noc ∧ t.nv = s.nv ∧ t.board = s.board ∧ t.out = s.out

/-- After reset the queue is empty, memory lists nothing, and registers hold the values of their Reset columns.
State.reset has no command waiting, no work of any kind, and an unlisted register reads its reset value; among them
PWR_TRIP 95, 100, 108 and 115 °C, CTL_TAMP_LIMIT 1,000 µs, EOV_DRAIN_LIMIT 2 ms and EOV_RESP_LIMIT 3.5 ms in units of
10 µs. That nothing listed reads zero, and that no fuse is blown, are the model's choices (log entries 2 and 12).
(00_scope.md (R7); 19_power_thermal.md (R417, R423); 15_control_sets_and_mailboxes.md (R358); 12_eovaol_fabric.md
(R293)) -/
def Obligations.ResetHoldsTheStatedValues : Prop :=
  State.reset.pending = [] ∧ State.reset.out = [] ∧ WorkLost State.reset ∧ (∀ k, State.reset.rd k = regReset k) ∧
  State.reset.rdN (regKey .pwr Reg.PWR_TRIP) =
    115 * 2 ^ 24 + 108 * 2 ^ 16 + 100 * 2 ^ 8 + 95 ∧
  State.reset.rdN (regKey .ctl Reg.CTL_TAMP_LIMIT) = 1000 ∧
  (∀ e : Edge, State.reset.rdN (regKey (.eov e) Reg.EOV_DRAIN_LIMIT) = 200 ∧
    State.reset.rdN (regKey (.eov e) Reg.EOV_RESP_LIMIT) = 350)

/-- The state after reset meets the invariant. In State.reset device memory and the registers are in canonical form.
(00_scope.md (R7)) -/
def Obligations.ResetMeetsTheInvariant : Prop := State.reset.Inv

/-- Every step keeps memory and registers in canonical form. For every state whose memory and registers are in
canonical form (addresses strictly rising, no entry equal to what an unlisted one reads as), if a step answers a next
state, that state's are too. (95_what_each_step_holds.md; 00_scope.md (R3, R6)) -/
def Obligations.EveryStepKeepsTheInvariant : Prop := ∀ s t : State, s.Inv → step s = .next t → t.Inv

/-- A step takes one command from the front of the queue and leaves the others. Whatever the command at the front
does, a next state's queue is the rest of the queue. (95_what_each_step_holds.md) -/
def Obligations.NoCommandTouchesTheQueue : Prop :=
  ∀ (s t : State) (c : Instr) (rest : List Instr), s.pending = c :: rest → step s = .next t → t.pending = rest

/-- Nothing that the module has sent out is taken back. The outputs of a state are a prefix of the outputs of the
state that a step answers. (14_host_interface.md (R329); 13_serial_lanes.md (R299)) -/
def Obligations.WhatIsSentStaysSent : Prop := ∀ s t : State, step s = .next t → s.out <+: t.out

/-- No step takes an entry out of the fuses. Whatever a step does, the factory map stays as it is, entries of the
field fuse bank are only added behind those that stand there, and the kill fuse stays blown.
(16_bring_up_and_floor_plan.md (R365, R369); 17_security.md (R382)) -/
def Obligations.FusesAreNeverUnblown : Prop :=
  ∀ s t : State, step s = .next t → t.nv.factory = s.nv.factory ∧ s.nv.field <+: t.nv.field ∧
    (s.nv.sec.killed = true → t.nv.sec.killed = true)

/-- A write changes each bit of a register as its access code says. For every row of every register map, a write sets
RW bits to the written value, clears the W1C bits written 1, sets the W1S bits written 1, sets RWL bits until the lock
is set and leaves them after it, and leaves every other bit (RO, WO, reserved). (00_scope.md (R6)) -/
def Obligations.WriteAccessCodes : Prop :=
  ∀ (b : Block) (r : RegRow) (old w : Word) (locked : Bool) (i : Nat), r ∈ blockRows b → i < 32 →
    (r.written old w locked).getLsbD i =
      if r.rw.testBit i then w.getLsbD i
      else if r.w1c.testBit i then old.getLsbD i && !w.getLsbD i
      else if r.w1s.testBit i then old.getLsbD i || w.getLsbD i
      else if r.rwl.testBit i then (if locked then old.getLsbD i else w.getLsbD i)
      else old.getLsbD i

/-- Writes and reads of registers, and cnt_clear, complete with their effect. A 32-bit write by firmware, or by
function 0 through BAR0, to a register of the SEQ, LGA, RTC or FPL blocks that is not a control register with
cnt_clear writes that register by its access codes and changes nothing else. A read by firmware answers the value the
register shows, and a read by function 0 answers every word that the request holds, lower address first. cnt_clear
sets every counter of its block to zero and changes nothing else. (00_scope.md (R4, R6); 03_matrix_tiles.md (R73)) -/
def Obligations.RegisterAccessesComplete : Prop :=
  (∀ (b : Block) (off : Nat) (r : RegRow) (w : Word) (s : State),
    ((∃ d, b = .seq d ∨ b = .lga d) ∨ b = .rtc ∨ b = .fpl) → findRow b off = some r →
    (∀ o i, cntBit b = some (o, i) → o ≠ off) → s.blockLive b off = true →
    Completes (exec (.registerWrite (.net b off) [w]) s) fun t =>
      OnlyRegs s t [regKey b off] ∧ t.rd (regKey b off) = r.written (s.rd (regKey b off)) w true) ∧
  (∀ (b : Block) (a off : Nat) (r : RegRow) (w : Word) (s : State),
    ((∃ d, b = .seq d ∨ b = .lga d) ∨ b = .rtc ∨ b = .fpl) → bar0Block a = some (b, off) → findRow b off = some r →
    a < 0x4000000 → a % 4 = 0 → (∀ o i, cntBit b = some (o, i) → o ≠ off) → s.blockLive b off = true →
    s.fnReach 0 = true → (s.fnAt 0).d3hot = false →
    Completes (exec (.registerWrite (.bar0 a 4) [w]) s) fun t =>
      OnlyRegs s t [regKey b off] ∧ t.rd (regKey b off) = r.written (s.rd (regKey b off)) w true) ∧
  (∀ (b : Block) (off : Nat) (s : State), landBlock b off ≠ .hole → s.blockLive b off = true →
    Completes (exec (.counterLoRead (.net b off)) s) fun t =>
      t.out = s.out ++ [.regData (.net b off) (some [(s.readHeld b off).1])] ∧ t.mem = s.mem) ∧
  (∀ (a size : Nat) (s : State), goodSize a size = true → a < 0x4000000 → s.fnReach 0 = true →
    (s.fnAt 0).d3hot = false →
    Completes (exec (.counterLoRead (.bar0 a size)) s) fun t => ∃ ws, ws.length = size / 4 ∧
      t.out = s.out ++ [.regData (.bar0 a size) (some ws)] ∧ t.mem = s.mem ∧
      ws.head? = some (s.readLanded (landBar0 a) false a).1) ∧
  (∀ (b : Block) (o i : Nat) (s : State), cntBit b = some (o, i) → s.blockLive b o = true →
    Completes (exec (.cntClear b false) s) fun t =>
      OnlyRegs s t ((counterOffsets b).map (regKey b)) ∧ ∀ off ∈ counterOffsets b, t.rd (regKey b off) = 0)

/-- The HI half of a 64-bit counter reads as it was when the LO half was read. After the LO half of a 64-bit counter
of any block has been read, a read of the HI half in any later state whose holding register is untouched answers the
HI half as it stood at the read of the LO half, whatever the counter has done since, and changes nothing.
(03_matrix_tiles.md (R73)) -/
def Obligations.CounterHighHalfIsHeld : Prop :=
  ∀ (b : Block) (off : Nat) (s t : State), loHalf b off = true → loHalf b (off + 4) = false →
    t.rd (holdKey b (off + 4)) = (s.readHeld b off).2.rd (holdKey b (off + 4)) →
    t.readHeld b (off + 4) = (((s.readReg b off).2.readReg b (off + 4)).1, t)

/-- Reserved BAR0 space reads zero, takes no write, and both are counted. An access of function 0, 32 bits wide and
aligned, that falls in reserved BAR0 space completes: a read answers zero, a write answers nothing and has no effect,
and each increments the counter of the HIF error log. But for the error log's own registers (the count, its flags and
its record) nothing changes. (R9) -/
def Obligations.ReservedSpaceReadsZero : Prop :=
  ∀ (a : Nat) (w : Word) (s : State), landBar0 a = .hole → a < 0x4000000 → a % 4 = 0 →
    s.fnReach 0 = true → (s.fnAt 0).d3hot = false →
    (Completes (exec (.counterLoRead (.bar0 a 4)) s) fun t =>
      t.out = s.out ++ [.regData (.bar0 a 4) (some [0])] ∧
      t.rd (hifReg Reg.HIF_RESERVED_ACCESS_COUNT) = s.rd (hifReg Reg.HIF_RESERVED_ACCESS_COUNT) + 1 ∧
      t = { s with regs := t.regs, out := t.out } ∧
      RegsKept s t [hifReg Reg.HIF_RESERVED_ACCESS_COUNT, hifReg Reg.HIF_ERR_FLAGS, hifReg Reg.HIF_ERR_INFO]) ∧
    (Completes (exec (.registerWrite (.bar0 a 4) [w]) s) fun t =>
      t.rd (hifReg Reg.HIF_RESERVED_ACCESS_COUNT) = s.rd (hifReg Reg.HIF_RESERVED_ACCESS_COUNT) + 1 ∧
      OnlyRegs s t [hifReg Reg.HIF_RESERVED_ACCESS_COUNT, hifReg Reg.HIF_ERR_FLAGS, hifReg Reg.HIF_ERR_INFO])

/-- A block whose domain does not run reads all ones and drops writes, and both are logged. An access of function 0,
32 bits wide and aligned, to a register of a block whose domain does not run completes: a read answers all ones, a
write is dropped, and each is counted in the HIF error log. It holds for die windows and for mailboxes, and but for
the error log's own registers nothing changes. (R10) -/
def Obligations.DeadDomainReadsOnes : Prop :=
  ∀ (a off : Nat) (b : Block) (w : Word) (s : State), landBar0 a = .reg b off → s.blockLive b off = false →
    a < 0x4000000 → a % 4 = 0 → s.fnReach 0 = true → (s.fnAt 0).d3hot = false →
    (Completes (exec (.counterLoRead (.bar0 a 4)) s) fun t =>
      t.out = s.out ++ [.regData (.bar0 a 4) (some [0xFFFFFFFF])] ∧
      t.rd (hifReg Reg.HIF_DEAD_ACCESS_COUNT) = s.rd (hifReg Reg.HIF_DEAD_ACCESS_COUNT) + 1 ∧
      t = { s with regs := t.regs, out := t.out } ∧
      RegsKept s t [hifReg Reg.HIF_DEAD_ACCESS_COUNT, hifReg Reg.HIF_ERR_FLAGS, hifReg Reg.HIF_ERR_INFO]) ∧
    (Completes (exec (.registerWrite (.bar0 a 4) [w]) s) fun t =>
      t.rd (hifReg Reg.HIF_DEAD_ACCESS_COUNT) = s.rd (hifReg Reg.HIF_DEAD_ACCESS_COUNT) + 1 ∧
      OnlyRegs s t [hifReg Reg.HIF_DEAD_ACCESS_COUNT, hifReg Reg.HIF_ERR_FLAGS, hifReg Reg.HIF_ERR_INFO])

/-- A BAR0 request of another size or alignment is unsupported, has no effect and is logged. A read or a write of
function 0 in BAR0 that is not a naturally aligned request of 4 or 8 bytes is answered as unsupported, changes nothing
but the error log's registers, and is counted there. (00_scope.md (R4)) -/
def Obligations.MisshapenAccessHasNoEffect : Prop :=
  ∀ (a size : Nat) (ws : List Word) (s : State), goodSize a size = false → a < 0x4000000 →
    s.fnReach 0 = true → (s.fnAt 0).d3hot = false →
    (Completes (exec (.counterLoRead (.bar0 a size)) s) fun t =>
      t.out = s.out ++ [.regData (.bar0 a size) none] ∧
      t.rd (hifReg Reg.HIF_BAD_ACCESS_COUNT) = s.rd (hifReg Reg.HIF_BAD_ACCESS_COUNT) + 1 ∧
      t = { s with regs := t.regs, out := t.out } ∧
      RegsKept s t [hifReg Reg.HIF_BAD_ACCESS_COUNT, hifReg Reg.HIF_ERR_FLAGS, hifReg Reg.HIF_ERR_INFO]) ∧
    (Completes (exec (.registerWrite (.bar0 a size) ws) s) fun t =>
      t.rd (hifReg Reg.HIF_BAD_ACCESS_COUNT) = s.rd (hifReg Reg.HIF_BAD_ACCESS_COUNT) + 1 ∧
      OnlyRegs s t [hifReg Reg.HIF_BAD_ACCESS_COUNT, hifReg Reg.HIF_ERR_FLAGS, hifReg Reg.HIF_ERR_INFO])

/-- Every event on the power and reset pins has its effect. PERST# asserted holds the module in reset; a rise of PWRGD
turns the rails on; a fall of PWRGD, PWRDIS held high, undervoltage and overvoltage hold the module in reset and leave
nothing of the work in flight unless it was held already, and the lockouts turn the rails off, drive PWRGD and FAULT#
low and put their cause at the end of the fault log, with the rails off already as well; PWRDIS low ends the hold of a
thermal shutdown after 10 ms; the backup capacitor low stops the calendar clock at the time it shows, clears the
running and valid bits of its status and touches no other register. (01_module.md (R15 to R17, R20, R21); 16_bring_up_and_floor_plan.md (R363); 19_power_thermal.md (R418)) -/
def Obligations.PinsAndSupplyComplete : Prop :=
  (∀ (cut : Cut) (s : State), s.board.perst = false → s.canCut cut = true →
    Completes (exec (.perstAssert cut) s) fun t =>
      t.board = { s.board with perst := true, held := true } ∧ (s.board.held = false → WorkLost t)) ∧
  (∀ s : State, s.board.pwrgd = false → s.board.pwrdis = false → s.board.latched = false →
    exec .pwrgdRise s = .next { s with board := { s.board with pwrgd := true, rails := true, fault := false } }) ∧
  (∀ (cut : Cut) (s : State), s.board.pwrgd = true → s.canCut cut = true →
    Completes (exec (.pwrgdFall cut) s) fun t =>
      t.board = { s.board with pwrgd := false, held := true } ∧ (s.board.held = false → WorkLost t)) ∧
  (∀ (ms : Nat) (cut : Cut) (s : State), s.board.pwrdis = false → s.canCut cut = true →
    Completes (exec (.pwrdisChange true ms cut) s) fun t =>
      t.board = { s.board with pwrdis := true, pwrgd := false, rails := false, held := true } ∧
      (s.board.held = false → WorkLost t)) ∧
  (∀ (ms : Nat) (s : State), s.board.pwrdis = true →
    exec (.pwrdisChange false ms .clean) s =
      .next { s with board := { s.board with pwrdis := false, latched := s.board.latched && decide (ms < 10) } }) ∧
  (∀ (cut : Cut) (s : State), s.board.rails = true → s.canCut cut = true →
    Completes (exec (.undervoltageLockout cut) s) fun t =>
      t.board = { s.board with rails := false, pwrgd := false, fault := true, held := true, latched := false } ∧
      t.nv.log = s.nv.log ++ [1] ∧ (s.board.held = false → WorkLost t)) ∧
  (∀ (cut : Cut) (s : State), s.board.rails = false → s.canCut cut = true →
    Completes (exec (.undervoltageLockout cut) s) fun t =>
      t = { s with board := { s.board with latched := false, fault := true }, nv := t.nv } ∧
      t.nv = { s.nv with log := s.nv.log ++ [1], shut := t.nv.shut }) ∧
  (∀ (cut : Cut) (s : State), s.board.rails = true → s.canCut cut = true →
    Completes (exec (.overvoltageShutdown cut) s) fun t =>
      t.board = { s.board with rails := false, pwrgd := false, fault := true, held := true, latched := false } ∧
      t.nv.log = s.nv.log ++ [2] ∧ (s.board.held = false → WorkLost t)) ∧
  (∀ (cut : Cut) (s : State), s.board.rails = false → s.canCut cut = true →
    Completes (exec (.overvoltageShutdown cut) s) fun t =>
      t = { s with board := { s.board with fault := true }, nv := t.nv } ∧
      t.nv = { s.nv with log := s.nv.log ++ [2], shut := t.nv.shut }) ∧
  (∀ s : State, Completes (exec .capacitorLow s) fun t =>
    t = { s with regs := t.regs, free := t.free } ∧
    RegsKept s t [rtcReg Reg.RTC_TIME, rtcReg (Reg.RTC_TIME + 4), rtcReg Reg.RTC_STATUS] ∧
    t.rd64 (rtcReg Reg.RTC_TIME) = s.now.1 ∧ t.rbit (rtcReg Reg.RTC_STATUS) 31 = false ∧
    t.rbit (rtcReg Reg.RTC_STATUS) 30 = false ∧ t.now = (s.now.1, t))

/-- After PERST# is released every register but the calendar clock's holds its reset value. With PWRGD high, the
release of PERST# brings the module out of reset with nothing of the work before it. Every register reads its reset
value but the calendar clock's time and status, the cable presence of the ports, and the bifurcation that HIF_STATUS
and HIF_LINK_MODE take from storage. Fuses, storage, outputs and the queue stay. (00_scope.md (R7); 01_module.md
(R17); 14_host_interface.md (R315); 16_bring_up_and_floor_plan.md (R363); 17_security.md (R396)) -/
def Obligations.ReleaseOfPerstStartsAfresh : Prop :=
  ∀ s : State, s.board.perst = true → s.board.pwrgd = true →
    Completes (exec .perstRelease s) fun t =>
      t.board = { s.board with perst := false, held := false } ∧ WorkLost t ∧ t.nv = s.nv ∧ t.out = s.out ∧
      t.pending = s.pending ∧
      (∀ k, ¬ (rtcReg 0 ≤ k ∧ k < rtcReg Reg.RTC_CAP_MV) → k ≠ hifReg Reg.HIF_STATUS → k ≠ hifReg Reg.HIF_LINK_MODE →
        (∀ p < 12, k ≠ lnkPort p Reg.LNK_P_STATE) → t.rd k = regReset k) ∧
      (∀ k, rtcReg 0 ≤ k → k < rtcReg Reg.RTC_CAP_MV → t.rd k = s.rd k)

/-- Losing a reference clock takes its links down, and the other domains go on. Loss of the 100 MHz reference takes
both PCIe links down and touches no other register. Loss of the 156.25 MHz reference is taken note of, and where no
port is in bring-up or up it drops the reference bit on every edge die and touches nothing else; its return lets it be
seen again where the edge dies can be reached. No memory and no tile changes. (01_module.md (R20); 13_serial_lanes.md
(R303); 14_host_interface.md (R315)) -/
def Obligations.ReferenceClocksComplete : Prop :=
  (∀ s : State, Completes (exec .pcieRefclkLoss s) fun t =>
    OnlyRegs s t [hifReg Reg.HIF_LINK_STATUS] ∧ t.linkUp 0 = false ∧ t.linkUp 1 = false) ∧
  (∀ s : State, s.board.fabricRef = true → Completes (exec .refLoss s) fun t =>
    t.board = { s.board with fabricRef := false } ∧ t.mem = s.mem ∧ t.mtx = s.mtx ∧ t.vec = s.vec) ∧
  (∀ s : State, s.board.fabricRef = true → (∀ p < 12, ¬ (2 ≤ s.portState p ∧ s.portState p ≤ 6)) →
    Completes (exec .refLoss s) fun t => (∀ p < 12, t.refOk p = false) ∧
      t = { s with regs := t.regs, board := { s.board with fabricRef := false } } ∧
      RegsKept s t ((List.range 4).map (fun e => lnkReg e Reg.LNK_STATUS))) ∧
  (∀ s : State, s.board.fabricRef = false → 2 ≤ s.bootPhase → Completes (exec .refReturn s) fun t =>
    t.board = { s.board with fabricRef := true } ∧ t.mem = s.mem ∧ t.jobs = s.jobs ∧ t.mtx = s.mtx ∧ t.vec = s.vec ∧
    ∀ p < 12, s.edgeReach (p / 3) = true → t.refOk p = true)

/-- Phases of bring-up, their deadlines, and the first link up complete. While bring-up goes on, each of phases 2 to 4
ends and is the last phase ended; phase 5 ends with the module ready; phase 1 ends unless a self-test or the firmware
of both banks fails. A phase past its deadline is flagged late; 900 ms without ready bring recovery; 60 ms, or the
first link up, start training of every pending channel. (16_bring_up_and_floor_plan.md (R360 to R363);
14_host_interface.md (R315, R319)) -/
def Obligations.BringUpCompletes : Prop :=
  (∀ (f : PhaseFind) (s : State), s.bringing = true → Completes (exec (.bringupPhaseEnd f) s) fun t =>
    (s.bootPhase = 1 → t.bootPhase = 2) ∧ (s.bootPhase = 2 → t.bootPhase = 3) ∧ (s.bootPhase = 3 → t.bootPhase = 4) ∧
    (s.bootPhase = 4 → t.isReady = true) ∧ (s.bootPhase = 0 → t.plan.stopped = false → t.bootPhase = 1)) ∧
  (∀ (n : Fin 5) (f : PhaseFind) (s : State), s.board.held = false → s.inRecovery = false → s.bootPhase ≤ n.val →
    n.val ≠ 2 → Completes (exec (.phaseDeadline n f) s) fun t =>
      OnlyRegs s t [tstReg Reg.TST_BOOT_PHASE] ∧ t.rbit (tstReg Reg.TST_BOOT_PHASE) (16 + n) = true ∧
      t.bootPhase = s.bootPhase) ∧
  (∀ (f : PhaseFind) (s : State), s.bringing = true → s.bootPhase = 2 →
    Completes (exec (.phaseDeadline 2 f) s) fun t => t.bootPhase = 3 ∧
      (f.chansLate = true → t.rbit (tstReg Reg.TST_BOOT_PHASE) 18 = true)) ∧
  (∀ s : State, s.board.held = false → s.isReady = false → Completes (exec .recoveryPoint s) fun t =>
    OnlyRegs s t [hifReg Reg.HIF_STATUS, tstReg Reg.TST_BOOT_PHASE] ∧ t.inRecovery = true) ∧
  (∀ s : State, s.board.held = false → s.plan.trained = false → Completes (exec .trainingStartPoint s) fun t =>
    t.plan.trained = true ∧ ∀ c < 64, t.chanState c = if s.chanState c = 2 then 3 else s.chanState c) ∧
  (∀ (speed : Fin 8) (width : Fin 5) (s : State), s.linkUp 0 = false → speed ≠ 0 →
    (s.rbit (hifReg Reg.HIF_STATUS) 28 = true → width.val ≤ 3) → s.board.held = false → s.edgeReach 0 = true →
    (3 ≤ s.bootPhase ∨ s.inRecovery = true) → Completes (exec (.pcieLinkUp 0 speed width) s) fun t =>
      t.linkUp 0 = true ∧ t.plan.trained = true ∧ t.linkUp 1 = s.linkUp 1)

/-- A field fuse write adds one entry, or spoils one position, or finds the bank full. For a unit whose count has
reached 3 and that is not in the bank: with the bank full nothing is written and a flag is set; a good write puts the
unit's entry at the next position and takes its count away; a failed one leaves the spoiled entry 0xFFFFFFFF at that
position, keeps the count and sets a flag. (16_bring_up_and_floor_plan.md (R368, R369)) -/
def Obligations.FieldFuseWriteKeepsEntries : Prop :=
  ∀ (u : Nat) (ok : Bool) (s : State), u ∈ s.fuseDue →
    Completes (exec (.fieldFuseWrite u ok) s) fun t =>
      (512 ≤ s.nv.field.length → t = s.setFlag (fplReg Reg.FPL_ERR_FLAGS) 1) ∧
      (s.nv.field.length < 512 → ok = true →
        t = { s with nv := { s.nv with field := s.nv.field ++ [u], counts := terase s.nv.counts u } }) ∧
      (s.nv.field.length < 512 → ok = false → t.nv = { s.nv with field := s.nv.field ++ [0xFFFFFFFF] } ∧
        t.rbit (fplReg Reg.FPL_ERR_FLAGS) 2 = true ∧ t.mem = s.mem ∧
        RegsKept s t [fplReg Reg.FPL_ERR_FLAGS])

/-- Commanded tests start unless a cause refuses them, and end with their results. A write of TST_CMD by firmware with
no cause against it puts the test under way with its operation, scope and target; with a cause the cause is shown and
refused is set. A test that ends within the limit of its operation is no longer under way, its run is counted, and its
failed blocks and its time are shown. (16_bring_up_and_floor_plan.md (R373, R374, R377)) -/
def Obligations.CommandedTestsComplete : Prop :=
  (∀ (die : Bool) (target : Fin 64) (s : State), s.testCause 1 die target = 0 →
    Completes (exec (.logicBist false die target) s) fun t => t.test = some ⟨1, die, target⟩ ∧ t.mem = s.mem) ∧
  (∀ (die : Bool) (target : Fin 64) (s : State), s.testCause 2 die target = 0 →
    Completes (exec (.memoryBist false die target) s) fun t => t.test = some ⟨2, die, target⟩ ∧ t.mem = s.mem) ∧
  (∀ (die : Bool) (target : Fin 64) (s : State), s.testCause 3 die target = 0 →
    Completes (exec (.bothBist false die target) s) fun t => t.test = some ⟨3, die, target⟩ ∧ t.mem = s.mem) ∧
  (∀ (die : Bool) (target : Fin 64) (s : State), s.testCause 1 die target ≠ 0 →
    Completes (exec (.logicBist false die target) s) fun t =>
      OnlyRegs s t [tstReg Reg.TST_STATUS, tstReg Reg.TST_ERR_FLAGS] ∧
      t.fld (tstReg Reg.TST_STATUS) 28 25 = s.testCause 1 die target ∧ t.rbit (tstReg Reg.TST_ERR_FLAGS) 0 = true) ∧
  (∀ (f : BistFind) (r : TestRun) (s : State), s.test = some r → f.us ≤ testLimit r → Completes (exec (.bistDone f) s) fun t =>
    t.test = none ∧ t.fld (tstReg Reg.TST_STATUS) 31 30 = 1 ∧
    t.rd (tstReg Reg.TST_LAST_US) = BitVec.ofNat 32 f.us ∧
    t.rd (tstReg Reg.TST_FAIL_COUNT) = BitVec.ofNat 32 f.bad.length)

/-- check, tamp, copy_active, shadow writes and switch reports complete as R341 to R348 lay down. Written by function
0 while no swap runs and nothing of the old set is outstanding, a shadow write stores its word in the shadow, clears
checked and changes no other register; check puts the outcome into CTL_CHECK; tamp with a checked shadow begins a swap
in which the domains that cannot switch (a die that does not answer, a die whose logic is unconfigured or whose quarters
are all gated) count as switched, and where it is the first to open the fabric every router has
the response limit of 4 ms; copy_active makes every word of the shadow the word of the
active set. While a swap runs each of the four is refused and sets shadow_refused. A report of a domain adds it to
those that have switched; the last one ends the swap and flips active_set (stated where no job has been taken, so that
none is pre-empted). A limit that expires records the first laggard. (15_control_sets_and_mailboxes.md (R341 to R349);
12_eovaol_fabric.md (R270)) -/
def Obligations.ControlSetsComplete : Prop :=
  (∀ s : State, s.fnReach 0 = true → (s.fnAt 0).d3hot = false → s.shadowClosed = false →
    (∀ (i : Fin 32768) (w : Word), Completes (exec (.shadowWrite i w) s) fun t =>
      t.rd (setKey (1 - s.activeSet) (4 * i)) = w ∧ t.isChecked = false ∧
      OnlyRegs s t [setKey (1 - s.activeSet) (4 * i), ctlReg Reg.CTL_CHECK]) ∧
    (Completes (exec .check s) fun t => OnlyRegs s t [ctlReg Reg.CTL_CHECK] ∧
      (t.isChecked = true ↔ s.checkSet (1 - s.activeSet) = none)) ∧
    (s.isChecked = true → Completes (exec .tamp s) fun t => t.swap = some s.switchedAtOnce ∧
      t = { s with regs := t.regs, swap := t.swap, plan := t.plan } ∧ t.activeSet = s.activeSet ∧
      RegsKept s t (ctlReg Reg.CTL_STATUS :: (List.range 1024).map (fun r => nocReg r Reg.NOC_RESP_LIMIT)) ∧
      (s.plan.fabric = true ∨ s.fabricOpen (1 - s.activeSet) = false →
        t = { s with regs := t.regs, swap := t.swap } ∧ RegsKept s t [ctlReg Reg.CTL_STATUS]) ∧
      (s.plan.fabric = false → s.fabricOpen (1 - s.activeSet) = true →
        ∀ r < 1024, t.rdN (nocReg r Reg.NOC_RESP_LIMIT) = 4000)) ∧
    (s.isChecked = false → s.checkSet (1 - s.activeSet) ≠ none → Completes (exec .tamp s) fun t => t.swap = none ∧
      OnlyRegs s t [ctlReg Reg.CTL_CHECK, ctlReg Reg.CTL_ERR_FLAGS, ctlReg Reg.CTL_FAULT_COUNT] ∧
      t.rbit (ctlReg Reg.CTL_ERR_FLAGS) 0 = true) ∧
    (Registers.wf s.regs → Completes (exec .copyActive s) fun t =>
      (∀ off < 0x20000, t.rd (setKey (1 - s.activeSet) off) = s.rd (setKey s.activeSet off)) ∧ t.isChecked = false ∧
      t = { s with regs := t.regs })) ∧
  (∀ s : State, s.fnReach 0 = true → (s.fnAt 0).d3hot = false → s.shadowClosed = true →
    ∀ c : Instr, (c ∈ [Instr.check, .tamp, .copyActive] ∨ ∃ i w, c = .shadowWrite i w) → Completes (exec c s) fun t =>
      OnlyRegs s t [ctlReg Reg.CTL_ERR_FLAGS, ctlReg Reg.CTL_FAULT_COUNT] ∧
      t.rbit (ctlReg Reg.CTL_ERR_FLAGS) 2 = true ∧
      t.rd (ctlReg Reg.CTL_FAULT_COUNT) = s.rd (ctlReg Reg.CTL_FAULT_COUNT) + 1) ∧
  (∀ (d : Fin 21) (us : Nat) (ds : List Nat) (s : State), s.swap = some ds → d.val ∉ ds →
    Completes (exec (.switchReport d us) s) fun t =>
      ((∃ i < 21, i ≠ d.val ∧ i ∉ s.switched) → t = { s with swap := some (ds ++ [d.val]) }) ∧
      ((∀ i < 21, i = d.val ∨ i ∈ s.switched) → s.jobs = [] → t.swap = none ∧ t.activeSet = 1 - s.activeSet)) ∧
  (∀ (ds : List Nat) (s : State), s.swap = some ds → Completes (exec .tampLimitExpiry s) fun t =>
    OnlyRegs s t [ctlReg Reg.CTL_ERR_FLAGS, ctlReg Reg.CTL_FAULT_COUNT, ctlReg Reg.CTL_LAGGARD] ∧
    t.rbit (ctlReg Reg.CTL_ERR_FLAGS) 3 = true ∧
    ∀ i < 21, i ∉ s.switched → (∀ j < i, j ∈ s.switched) → t.rdN (ctlReg Reg.CTL_LAGGARD) = i)

/-- A committed word is stored in an empty inbox and dropped as an overrun at a full one. When a control core that may
write endpoint e commits a word: if full is 0, the word with its staged low half is stored, full sets, MBX_IN_SRC
takes the sender and MBX_MSG_COUNT increments; if full is 1, the word is dropped, the stored word stays, overrun sets
and MBX_OVERRUN_COUNT increments. Nothing else changes. (15_control_sets_and_mailboxes.md (R351)) -/
def Obligations.MailboxWordStoredOrDropped : Prop :=
  ∀ (core : Fin 65) (e : Fin 64) (w : Word) (s : State), coreWrites core e = true → s.endpointLive e = true →
    (s.rbit (mbxReg e Reg.MBX_STATUS) 0 = false → Completes (exec (.mbxOutHi core e w) s) fun t =>
      t.rd (mbxReg e Reg.MBX_IN_LO) = s.rd (mbxReg e Reg.MBX_OUT_LO) ∧ t.rd (mbxReg e Reg.MBX_IN_HI) = w ∧
      t.rdN (mbxReg e Reg.MBX_IN_SRC) = core ∧ t.rbit (mbxReg e Reg.MBX_STATUS) 0 = true ∧
      t.rbit (mbxReg e Reg.MBX_STATUS) 1 = s.rbit (mbxReg e Reg.MBX_STATUS) 1 ∧
      t.rd (mbxReg e Reg.MBX_MSG_COUNT) = s.rd (mbxReg e Reg.MBX_MSG_COUNT) + 1 ∧
      OnlyRegs s t [mbxReg e Reg.MBX_IN_LO, mbxReg e Reg.MBX_IN_HI, mbxReg e Reg.MBX_IN_SRC, mbxReg e Reg.MBX_STATUS,
        mbxReg e Reg.MBX_MSG_COUNT]) ∧
    (s.rbit (mbxReg e Reg.MBX_STATUS) 0 = true → Completes (exec (.mbxOutHi core e w) s) fun t =>
      t.rbit (mbxReg e Reg.MBX_STATUS) 1 = true ∧ t.rbit (mbxReg e Reg.MBX_STATUS) 0 = true ∧
      t.rd (mbxReg e Reg.MBX_OVERRUN_COUNT) = s.rd (mbxReg e Reg.MBX_OVERRUN_COUNT) + 1 ∧
      OnlyRegs s t [mbxReg e Reg.MBX_STATUS, mbxReg e Reg.MBX_OVERRUN_COUNT])

/-- Doorbells, masks, the send register of a function and the withdrawal of an endpoint complete. A function that the
host reaches commits its staged word to endpoint 48 with its own index as sender. A setting of doorbell bits of a live
endpoint ors them in and is counted, one that writes no 1 is not. The owner's write of the mask stores it. Bits that are all masked, and a mask
that unmasks no set bit, notify nobody. The endpoint of a function bound to no enabled partition is withdrawn: its
doorbells clear, its mask bits set and a word left in its inbox is an overrun; valid clears, and where no other function
waits for an endpoint it stays clear. A control core's write to an endpoint whose domain is down is refused with a
status and changes nothing. (15_control_sets_and_mailboxes.md (R350 to R354)) -/
def Obligations.MailboxCommandsComplete : Prop :=
  (∀ (f : Func) (w : Word) (s : State), s.fnReach f = true → (s.fnAt f).d3hot = false →
    s.rbit (mbxReg 48 Reg.MBX_STATUS) 0 = false → Completes (exec (.mbxSendHi f false w) s) fun t =>
      t.rd (mbxReg 48 Reg.MBX_IN_LO) = s.rd (pageReg f 0xC00) ∧ t.rd (mbxReg 48 Reg.MBX_IN_HI) = w ∧
      t.rdN (mbxReg 48 Reg.MBX_IN_SRC) = 2 ^ 31 + f ∧ t.rbit (mbxReg 48 Reg.MBX_STATUS) 0 = true ∧
      t.rbit (mbxReg 48 Reg.MBX_DB) (f % 32) = true) ∧
  (∀ (core : Fin 65) (e : Fin 64) (w : Word) (s : State), coreWrites core e = true → s.endpointLive e = true →
    w &&& ~~~(s.rd (mbxReg e Reg.MBX_DB_MASK)) = 0 → Completes (exec (.mbxDbSet (some core) e w) s) fun t =>
      t.rd (mbxReg e Reg.MBX_DB) = s.rd (mbxReg e Reg.MBX_DB) ||| w ∧
      t.rd (mbxReg e Reg.MBX_DB_COUNT) = s.rd (mbxReg e Reg.MBX_DB_COUNT) + (if w = 0 then 0 else 1) ∧
      OnlyRegs s t [mbxReg e Reg.MBX_DB, mbxReg e Reg.MBX_DB_COUNT]) ∧
  (∀ (e : Fin 64) (w : Word) (s : State), s.endpointLive e = true → s.rd (mbxReg e Reg.MBX_DB) &&& ~~~w = 0 →
    Completes (exec (.mbxDbMaskWrite .core e w) s) fun t =>
      t.rd (mbxReg e Reg.MBX_DB_MASK) = w ∧ OnlyRegs s t [mbxReg e Reg.MBX_DB_MASK]) ∧
  (∀ (e : Fin 32) (s : State), e ≠ 0 → s.rbit (mbxReg e Reg.MBX_OWNER) 6 = true →
    s.partOfFn (s.fld (mbxReg e Reg.MBX_OWNER) 5 0) = none → Completes (exec (.endpointWithdraw e) s) fun t =>
      t.rd (mbxReg e Reg.MBX_DB) = 0 ∧
      t.rd (mbxReg e Reg.MBX_DB_MASK) = 0xFFFFFFFF ∧ t.rbit (mbxReg e Reg.MBX_STATUS) 0 = false ∧
      t.rd (mbxReg e Reg.MBX_OVERRUN_COUNT) = s.rd (mbxReg e Reg.MBX_OVERRUN_COUNT) +
        (if s.rbit (mbxReg e Reg.MBX_STATUS) 0 then 1 else 0) ∧
      OnlyRegs s t ([mbxReg e Reg.MBX_DB, mbxReg e Reg.MBX_DB_MASK, mbxReg e Reg.MBX_STATUS,
        mbxReg e Reg.MBX_OVERRUN_COUNT] ++ (List.range 32).map (fun i => mbxReg i Reg.MBX_OWNER)) ∧
      ((∀ p < 16, (s.part p).enabled = true → (s.endpointOf (s.part p).func).isSome = true) →
        t.rbit (mbxReg e Reg.MBX_OWNER) 6 = false ∧
        ∀ i < 32, i ≠ e.val → t.rd (mbxReg i Reg.MBX_OWNER) = s.rd (mbxReg i Reg.MBX_OWNER))) ∧
  (∀ (core : Fin 65) (e : Fin 64) (w : Word) (s : State), s.endpointLive e = false →
    exec (.mbxOutHi core e w) s = .next (s.mbxRefused e Reg.MBX_OUT_HI) ∧
    exec (.mbxDbSet (some core) e w) s = .next (s.mbxRefused e Reg.MBX_DB_SET) ∧
    exec (.mbxDbMaskWrite .core e w) s = .next (s.mbxRefused e Reg.MBX_DB_MASK))

/-- Device memory reads back what was written, and a write leaves every other byte. A write of whole units of memory
that names memory succeeds, the bytes written read back, and every byte outside them reads as before; a read that
meets no error answers the bytes that stand there and changes no byte; an access that names no memory answers a status
other than 0 and changes no byte. (11_crema_and_lpddr.md (R248, R249, R252, R253)) -/
def Obligations.ReadAfterWriteOfMemory : Prop :=
  ∀ (home A : Nat) (bs : List Byte) (n : Nat) (m : MemFind) (s : State),
    (s.noMemory home A = none → partUnits A bs.length = [] →
      (s.memWrite home A bs m).1.status = 0 ∧ (s.memWrite home A bs m).2.readBytes A bs.length = bs ∧
      MemKeptOutside s (s.memWrite home A bs m).2 A bs.length) ∧
    (s.noMemory home A = none → (∀ u ∈ unitsOf A n, s.poisoned u = false) → m.ecc = [] →
      (s.memRead home A n m).1 = ⟨0, A, s.readBytes A n⟩ ∧ MemKept s (s.memRead home A n m).2) ∧
    (s.noMemory home A ≠ none →
      (s.memWrite home A bs m).1.status ≠ 0 ∧ MemKept s (s.memWrite home A bs m).2 ∧
      (s.memRead home A n m).1.status ≠ 0 ∧ MemKept s (s.memRead home A n m).2)

/-- Patrol reads, channel states, the pattern helper, power-down and refresh complete. A patrol read of a running
scrubber that meets nothing leaves memory as it is; one of a ready channel opens its row and looks up its check chunk,
whether the tier is open or not. scrub_now gives every slice of the die a sweep of its usable rows.
train_start, init_start and mark_bad move a channel as R261 and R263 allow and have no effect in other states; a
channel that finishes zeroing is ready. The pattern helper runs on a pending or training channel, whose rank wakes; its
end shows done, a write leaves its run of chunks, and a compare shows the bits and beats in which the chunks differ from
the pattern. A rank that holds no request powers down; a refresh of one bank
wakes the rank and closes that bank's row and no other (that the rank then shows as refreshing is the model's choice,
log entry 116). (11_crema_and_lpddr.md (R255, R260 to R264, R267, R268)) -/
def Obligations.MemoryControllersComplete : Prop :=
  (∀ (b : Bay) (o : Nat) (s : State), o < 0x3000000 → o % 32 = 0 → s.rowRemoved b (o / 0x8000) = false →
    s.rdN (crmReg (b / 64) Reg.CRM_SCRUB_PERIOD) ≠ 0 → s.poisoned (cremaAddr b o) = false →
    Completes (exec (.cremaPatrolRead b o []) s) fun t => t = { s with sweeps := t.sweeps }) ∧
  (∀ (d : Die) (s : State), Completes (exec (.scrubNow d) s) fun t => t = { s with sweeps := t.sweeps } ∧
    ∀ i < 64, tget (fun _ => 0) t.sweeps (d * 64 + i) = s.sliceRows (d * 64 + i) * 1024) ∧
  (∀ (c : Dram) (s : State), Completes (exec (.trainStart c) s) fun t =>
    t.chanState c = (if s.chanState c = 2 then 3 else s.chanState c) ∧
    OnlyRegs s t [drcCh c Reg.DRC_CH_STATE]) ∧
  (∀ (c : Dram) (s : State), Completes (exec (.initStart c) s) fun t =>
    t.chanState c = (if s.chanState c = 2 ∨ s.chanState c = 3 then 4 else s.chanState c) ∧
    t.mem = s.mem ∧ RegsKept s t [drcCh c Reg.DRC_CH_STATE]) ∧
  (∀ (c : Dram) (s : State), Completes (exec (.markBad c) s) fun t =>
    (s.chanState c < 2 ∨ 4 < s.chanState c → t = s) ∧
    (2 ≤ s.chanState c → s.chanState c ≤ 4 → t.chanState c = 1 ∧ t.isBad 8 c = true)) ∧
  (∀ (c : Dram) (s : State), s.chanState c = 4 → Completes (exec (.channelInitDone c) s) fun t =>
    t.chanState c = 5 ∧ ∀ c2 < 64, c2 ≠ c.val → t.chanState c2 = s.chanState c2) ∧
  (∀ (c : Dram) (w : Word) (s : State), bitsOf w.toNat 29 28 ≠ 0 → s.chanState c = 2 ∨ s.chanState c = 3 →
    Completes (exec (.trainPatternStart c w) s) fun t =>
      t.rd (drcCh c Reg.DRC_TRAIN_PAT) = w &&& 0xF800FFFF ∧ t.rd (drcCh c Reg.DRC_TRAIN_RESULT) = 0 ∧
      t.rd (drcCh c Reg.DRC_TRAIN_ERRS) = 0 ∧ t.patternRuns c = true ∧ t.chanState c = s.chanState c ∧
      t = { s with regs := t.regs, free := t.free, openRows := t.openRows } ∧
      RegsKept s t ([drcCh c Reg.DRC_TRAIN_PAT, drcCh c Reg.DRC_TRAIN_RESULT, drcCh c Reg.DRC_TRAIN_ERRS,
        drcCh c Reg.DRC_CH_STATE] ++ [Reg.DRC_PD_CYCLES, Reg.DRC_ROW_HITS, Reg.DRC_ACTS].flatMap (fun o =>
          [drcCh c o, drcCh c (o + 4)]))) ∧
  (∀ (c : Dram) (flips : BitVec 16) (beats : Word) (s : State), s.patternRuns c = true →
    Completes (exec (.trainPatternDone c flips beats) s) fun t =>
      t.rbit (drcCh c Reg.DRC_TRAIN_RESULT) 31 = true ∧ t.patternRuns c = false ∧ t.mem = s.mem ∧
      (s.rbit (drcCh c Reg.DRC_TRAIN_PAT) 28 = true →
        tget (fun _ => []) t.patterns c = s.patternRun c :: tget (fun _ => []) s.patterns c) ∧
      (s.rbit (drcCh c Reg.DRC_TRAIN_PAT) 28 = false → t.patterns = s.patterns) ∧
      (s.rbit (drcCh c Reg.DRC_TRAIN_PAT) 29 = true → s.rbit (drcCh c Reg.DRC_TRAIN_PAT) 28 = false →
        t.fld (drcCh c Reg.DRC_TRAIN_RESULT) 15 0 = (s.patternCompare c (s.patternRun c) flips beats.toNat).1.toNat ∧
        t.rd (drcCh c Reg.DRC_TRAIN_ERRS) =
          BitVec.ofNat 32 (s.patternCompare c (s.patternRun c) flips beats.toNat).2)) ∧
  (∀ (c : Dram) (rank : Bool) (s : State), 2 ≤ s.chanState c → s.rdN (drcCh c Reg.DRC_PD_TIMER) ≠ 0 →
    s.fld (drcCh c Reg.DRC_CH_STATE) (if rank then 27 else 25) (if rank then 26 else 24) = 0 →
    (∀ x ∈ s.bankQ, ∀ k row chunk, s.bankOf x.addr = some (k, row, chunk) → k / 16 ≠ c.val * 2 + (if rank then 1 else 0)) →
    Completes (exec (.powerDownExpiry c rank) s) fun t => OnlyRegs s t [drcCh c Reg.DRC_CH_STATE] ∧
      t.chanState c = s.chanState c ∧
      t.fld (drcCh c Reg.DRC_CH_STATE) (if rank then 27 else 25) (if rank then 26 else 24) = 1) ∧
  (∀ (c : Dram) (rank : Bool) (bank : Fin 16) (s : State), 2 ≤ s.chanState c →
    Completes (exec (.refreshDue c ⟨rank, bank⟩) s) fun t =>
      t = { s with regs := t.regs, openRows := t.openRows, hitRuns := t.hitRuns, free := t.free } ∧
      RegsKept s t [drcCh c Reg.DRC_CH_STATE, drcCh c Reg.DRC_PD_CYCLES, drcCh c (Reg.DRC_PD_CYCLES + 4)] ∧
      t.chanState c = s.chanState c ∧
      t.fld (drcCh c Reg.DRC_CH_STATE) (if rank then 27 else 25) (if rank then 26 else 24) = 2 ∧
      ∀ k, tget (fun _ => 0) t.openRows k = if k = c.val * 32 + (if rank then 16 else 0) + bank.val then 0
        else tget (fun _ => 0) s.openRows k) ∧
  (∀ (c : Dram) (k : Nat) (s : State), s.chanState c = 5 → k < chanBytes / 256 →
    s.rdN (drcReg (c / 16) Reg.DRC_SCRUB_PERIOD) ≠ 0 → s.poison = [] →
    Completes (exec (.lpddrPatrolRead c k []) s) fun t => t.chanState c = 5 ∧
      t = { s with regs := t.regs, free := t.free, openRows := t.openRows, checks := t.checks } ∧
      RegsKept s t ([drcCh c Reg.DRC_CH_STATE, drcCh c Reg.DRC_CHK_MISS] ++
        [Reg.DRC_PD_CYCLES, Reg.DRC_ROW_HITS, Reg.DRC_ACTS].flatMap (fun o => [drcCh c o, drcCh c (o + 4)])))

/-- Events of the logic array and its I/O cells complete with their records. Contention on a line of which two mode-2
taps are enabled is counted and flagged, the first with its place, and the line is in contention. Port A of a block
memory of 512 × 72 shape with ECC on, in logic that runs, reads a word: with no upset bit it puts the word out; with one
it puts the corrected word out, counted as corrected; with two it puts the word out as it stands, counted as
uncorrectable, the first of them with its place. A locked PLL that loses lock is shown unlocked and counted, and one of
a released die whose reference is there locks again. A global clock changes over to its other input, and where an input
has stopped it holds low. A delay tap takes the tap loaded, and a step moves it by one where a tap lies there. Nothing
else changes, but for what the die's logic does at once where its clocks or its signals change: kept values of lines,
contentions that end, flip-flops set or reset asynchronously, and edges of globals that follow routed signals.
(08_logic_array.md (R171, R177, R179 to R183, R195)) -/
def Obligations.LogicArrayEventsComplete : Prop :=
  (∀ (d : Die) (rr line : Fin 16) (s : State), 2 ≤ (s.enabledTaps d rr line).length → lineKey d rr line ∉ s.contending →
    Completes (exec (.llContention d rr line) s) fun t =>
      t.rd (lgaReg d Reg.LGA_LL_CONTEND_COUNT) = s.rd (lgaReg d Reg.LGA_LL_CONTEND_COUNT) + 1 ∧
      t.rbit (lgaReg d Reg.LGA_ERR_FLAGS) 1 = true ∧
      t.rd (lgaReg d Reg.LGA_LL_CONTEND_INFO) = (if s.rbit (lgaReg d Reg.LGA_ERR_FLAGS) 1 then
        s.rd (lgaReg d Reg.LGA_LL_CONTEND_INFO) else BitVec.ofNat 32 (rr * 16 + line)) ∧
      t = { s with regs := t.regs, contending := s.contending ++ [lineKey d rr line] } ∧
      RegsKept s t [lgaReg d Reg.LGA_LL_CONTEND_COUNT, lgaReg d Reg.LGA_ERR_FLAGS, lgaReg d Reg.LGA_LL_CONTEND_INFO]) ∧
  (∀ (d : Die) (memory : Fin 2048) (word : Fin 512) (c : BramCfg) (i j : Fin 72) (s : State),
    (s.cfgAt d).memAt memory = some c → c.a.shape = 6 → c.ecc = true → s.tileRuns d (memTile memory) = true →
    s.bramFlip d memory word = 0 → i ≠ j →
    (Completes (exec (.bramEccRead d memory word []) s) fun t =>
      t.bramOut d memory 0 = ⟨s.bramWord d memory word, false, false⟩ ∧ t.regs = s.regs ∧ t.brams = s.brams) ∧
    (Completes (exec (.bramEccRead d memory word [i]) s) fun t =>
      t.bramOut d memory 0 = ⟨s.bramWord d memory word, true, false⟩ ∧
      t.rd (lgaReg d Reg.LGA_BRAM_CE_COUNT) = s.rd (lgaReg d Reg.LGA_BRAM_CE_COUNT) + 1 ∧
      t.rbit (lgaReg d Reg.LGA_ERR_FLAGS) 2 = true ∧
      t = { s with regs := t.regs, bramFlips := t.bramFlips, bramOuts := t.bramOuts } ∧
      RegsKept s t [lgaReg d Reg.LGA_BRAM_CE_COUNT, lgaReg d Reg.LGA_ERR_FLAGS]) ∧
    (Completes (exec (.bramEccRead d memory word [i, j]) s) fun t =>
      t.bramOut d memory 0 = ⟨s.bramWord d memory word ^^^ BitVec.twoPow 72 i ^^^ BitVec.twoPow 72 j, true, true⟩ ∧
      t.rd (lgaReg d Reg.LGA_BRAM_UE_COUNT) = s.rd (lgaReg d Reg.LGA_BRAM_UE_COUNT) + 1 ∧
      t.rbit (lgaReg d Reg.LGA_ERR_FLAGS) 3 = true ∧
      t.rd (lgaReg d Reg.LGA_BRAM_FAULT) = (if s.rbit (lgaReg d Reg.LGA_ERR_FLAGS) 3 then
        s.rd (lgaReg d Reg.LGA_BRAM_FAULT) else BitVec.ofNat 32 (memory * 2 ^ 16 + word)) ∧
      t = { s with regs := t.regs, bramFlips := t.bramFlips, bramOuts := t.bramOuts } ∧
      RegsKept s t [lgaReg d Reg.LGA_BRAM_UE_COUNT, lgaReg d Reg.LGA_ERR_FLAGS, lgaReg d Reg.LGA_BRAM_FAULT])) ∧
  (∀ (d : Die) (n : Fin 8) (s : State), s.pllLocked d n = true →
    Completes (exec (.pllLockLoss d n) s) fun t => t.pllLocked d n = false ∧
      t.rd (lgaReg d (Reg.LGA_PLL_LOSS + 4 * n)) = s.rd (lgaReg d (Reg.LGA_PLL_LOSS + 4 * n)) + 1 ∧
      t.rbit (lgaReg d Reg.LGA_ERR_FLAGS) 0 = true ∧
      t = { s with regs := t.regs, lines := t.lines, contending := t.contending, flops := t.flops, clkSeen := t.clkSeen,
                   clkEdges := t.clkEdges } ∧
      RegsKept s t [lgaReg d Reg.LGA_STATUS, lgaReg d (Reg.LGA_PLL_LOSS + 4 * n), lgaReg d Reg.LGA_ERR_FLAGS]) ∧
  (∀ (d : Die) (n : Fin 8) (c : PllCfg) (s : State), s.pllOf d n = some c → s.dieState d = 3 →
    s.pllLocked d n = false → s.refRuns d c.ref = true →
    Completes (exec (.pllRelock d n) s) fun t => t.pllLocked d n = true ∧
      ((∀ b p, (s.portAt b p).outQ = []) → RegsKept s t [lgaReg d Reg.LGA_STATUS] ∧
        t = { s with regs := t.regs, lines := t.lines, contending := t.contending, flops := t.flops, clkSeen := t.clkSeen,
                     clkEdges := t.clkEdges })) ∧
  (∀ (d : Die) (g : Fin 16) (x : ClockInput × ClockInput) (s : State), s.globalInputs d g = some x → s.dieState d = 3 →
    (s.inputRuns d x.1 = true → s.inputRuns d x.2 = true → Completes (exec (.globalClockSwitch d g false false) s) fun t =>
      t.globalInputs d g = some (x.2, x.1) ∧ t.globalRuns d g = true ∧
      t = { s with clkSel := t.clkSel, clkHeld := t.clkHeld, clkSeen := t.clkSeen, clkEdges := t.clkEdges }) ∧
    (s.inputRuns d x.1 = false ∨ s.inputRuns d x.2 = false → Completes (exec (.globalClockSwitch d g false false) s) fun t =>
      t.globalInputs d g = some x ∧ t.globalRuns d g = false ∧
      t = { s with clkHeld := t.clkHeld, clkSeen := t.clkSeen, clkEdges := t.clkEdges }) ∧
    (∀ p q : Bool, (p || q) = true → (p = true → ∀ n o, x.1 ≠ .pll n o) → (q = true → ∀ n o, x.2 ≠ .pll n o) →
      Completes (exec (.globalClockSwitch d g p q) s) fun t =>
      t.globalInputs d g = some x ∧ t.globalRuns d g = false ∧
      t = { s with clkHeld := t.clkHeld, clkSeen := t.clkSeen, clkEdges := t.clkEdges })) ∧
  (∀ (c : Fin 96) (tap : Fin 512) (s : State), s.dieState (dieOfCell c) = 3 →
    Completes (exec (.delayTapLoad c tap) s) fun t => t = { s with taps := t.taps } ∧
      tget (fun _ => 0) t.taps c = tap ∧ ∀ c2 ≠ c.val, tget (fun _ => 0) t.taps c2 = tget (fun _ => 0) s.taps c2) ∧
  (∀ (c : Fin 96) (s : State), s.dieState (dieOfCell c) = 3 →
    (tget (fun _ => 0) s.taps c < 511 → Completes (exec (.delayTapStep c true) s) fun t =>
      t = { s with taps := t.taps } ∧ tget (fun _ => 0) t.taps c = tget (fun _ => 0) s.taps c + 1) ∧
    (tget (fun _ => 0) s.taps c ≠ 0 → Completes (exec (.delayTapStep c false) s) fun t =>
      t = { s with taps := t.taps } ∧ tget (fun _ => 0) t.taps c = tget (fun _ => 0) s.taps c - 1))

/-- User logic pushes, grants and pops at an open tile port. Where the logic behind a port runs, and its clock: each
record of a beat pushed at a closed port is discarded and counted; a beat that keeps the protocol, pushed at an open
port while no credit lets its first record go, stands in the outbound queue; a grant at an open port with fewer than
four blocks adds one credit, beyond four it is ignored and counted, and at a closed port it is ignored; a pop at an open
port hands a beat to the logic, the oldest inbound records that fill the port's width or as many as there are, and each
record marked block_end returns its block. (08_logic_array.md (R185 to R192)) -/
def Obligations.TilePortsComplete : Prop :=
  (∀ (b : Bay) (p : Fin 4) (rs : List PortPush) (s : State), s.logicRuns b p = true → s.portOpen b p = false →
    (s.portAt b p).outQ = [] → rs.length = s.beat b p → rs ≠ [] → (∀ r ∈ rs, r.bytes.length % 4 = 0 ∧
      r.bytes.length ≤ 128 ∧ r.addr < 2 ^ 19 ∧ r.dst ≤ 15 ∧ r.channel ≤ 15) → rs.length ≤ 128 →
    Completes (exec (.tilePortPush b p rs) s) fun t =>
      t.rd (lgaReg (dieOfBay b) Reg.LGA_PORT_DROP_COUNT) =
        s.rd (lgaReg (dieOfBay b) Reg.LGA_PORT_DROP_COUNT) + BitVec.ofNat 32 rs.length ∧
      t.rbit (lgaReg (dieOfBay b) Reg.LGA_ERR_FLAGS) 6 = true ∧ t.ports = s.ports ∧
      OnlyRegs s t [lgaReg (dieOfBay b) Reg.LGA_PORT_DROP_COUNT, lgaReg (dieOfBay b) Reg.LGA_ERR_FLAGS]) ∧
  (∀ (b : Bay) (p : Fin 4) (r : PortPush) (rs : List PortPush) (s s' : State), s.logicRuns b p = true →
    s.portOpen b p = true → (s.portAt b p).outQ = [] → (r :: rs).length = s.beat b p → (∀ x ∈ r :: rs,
      x.bytes.length % 4 = 0 ∧ x.bytes.length ≤ 128 ∧ x.addr < 2 ^ 19 ∧ x.dst ≤ 15 ∧ x.channel ≤ 15 ∧
      pushFault x = none) → (r :: rs).length ≤ 128 →
    s' = s.setPort b p { s.portAt b p with outQ := (r :: rs).map (fun x => ⟨x.dst, x.addr, x.channel, x.done, x.bytes⟩) } →
    s'.deliver b (.port b p) r.dst r.channel r.addr (r.bytes.map some) r.done = none →
    exec (.tilePortPush b p (r :: rs)) s = .next s') ∧
  (∀ (b : Bay) (p : Fin 4) (s : State), s.logicRuns b p = true → s.portOpen b p = true →
    Completes (exec (.tilePortGrant b p) s) fun t =>
      if 4 ≤ (s.portAt b p).credits + (s.portAt b p).blocks.length then
        t.rd (lgaReg (dieOfBay b) Reg.LGA_PORT_DROP_COUNT) = s.rd (lgaReg (dieOfBay b) Reg.LGA_PORT_DROP_COUNT) + 1 ∧
        t.rbit (lgaReg (dieOfBay b) Reg.LGA_ERR_FLAGS) 4 = true ∧
        OnlyRegs s t [lgaReg (dieOfBay b) Reg.LGA_PORT_DROP_COUNT, lgaReg (dieOfBay b) Reg.LGA_ERR_FLAGS]
      else t = s.setPort b p { s.portAt b p with credits := (s.portAt b p).credits + 1 }) ∧
  (∀ (b : Bay) (p : Fin 4) (s : State), s.logicRuns b p = true → s.portOpen b p = false →
    exec (.tilePortGrant b p) s = .next s) ∧
  (∀ (b : Bay) (p : Fin 4) (rs rest : List InRecord) (s : State), s.logicRuns b p = true → s.portOpen b p = true →
    (s.portAt b p).inQ = rs ++ rest → rs ≠ [] → rs.length = s.beat b p ∨ rs.length < s.beat b p ∧ rest = [] →
    Completes (exec (.tilePortPop b p) s) fun t =>
      t.out = s.out ++ rs.map (fun r => .toLogic b p r.src r.tag r.blockEnd r.bytes) ∧ (t.portAt b p).inQ = rest ∧
      (t.portAt b p).blocks = (s.portAt b p).blocks.filter (fun g => !rs.any (fun r => r.blockEnd && r.block == g.num)) ∧
      t = { s with ports := t.ports, out := t.out })

/-- Caps, throttle levels, stretching, trip points and telemetry complete. While the module runs: the scale becomes
that of R414; a die whose power is above its effective cap goes one power level up, at most to 15, and one below 95 %
of it one level down; a droop marks the die's clock stretched and counts, until 64 cycles above the level end it; the
thermal level rises by one at the throttle point; a write of trip points that neither raises one above its default nor
breaks their order takes them, and any other leaves them and sets trip_refused; a telemetry record shows the next
number. (19_power_thermal.md (R410, R413 to R415, R417, R420, R421)) -/
def Obligations.CapsAndThrottlingComplete : Prop :=
  (∀ (p : Nat) (s : State), s.running = true → s.isReady = true → Completes (exec (.moduleCapStep p) s) fun t =>
    t.scale = nextScale s.scale (s.moduleCap (s.domainSet 20)) p ∧ t = { s with regs := t.regs, scale := t.scale } ∧
    RegsKept s t (pwrReg Reg.PWR_STATUS :: (List.range 16).map (fun d => pwrDie d Reg.PWR_D_CAP))) ∧
  (∀ (d : Die) (p : Nat) (s : State), s.running = true → s.isReady = true → s.dieReach d = true →
    Completes (exec (.dieCapEval d p) s) fun t => t.mem = s.mem ∧
      t.powerLevel d = (if (s.dieLimit d).1 < p * (s.dieLimit d).2 then min 15 (s.powerLevel d + 1)
        else if p * (s.dieLimit d).2 * 100 < 95 * (s.dieLimit d).1 then s.powerLevel d - 1 else s.powerLevel d)) ∧
  (∀ (d : Die) (s : State), s.running = true → (s.heatAt d).stretched = false →
    Completes (exec (.droopDetect d) s) fun t => (t.heatAt d).stretched = true ∧
      t.rd (pwrDie d Reg.PWR_D_STRETCHES) = s.rd (pwrDie d Reg.PWR_D_STRETCHES) + 1 ∧
      t.rbit (pwrReg Reg.PWR_ERR_FLAGS) 5 = true ∧
      t.rd (pwrReg Reg.PWR_FAULT_COUNT) = s.rd (pwrReg Reg.PWR_FAULT_COUNT) + 1 ∧
      RegsKept s t [pwrDie d Reg.PWR_D_STRETCHES, pwrReg Reg.PWR_ERR_FLAGS, pwrReg Reg.PWR_FAULT_COUNT]) ∧
  (∀ (d : Die) (s : State), (s.heatAt d).stretched = true →
    exec (.stretchEnd d) s = .next (s.setHeat d { s.heatAt d with stretched := false })) ∧
  (∀ (src : Fin 22) (ts : List (Option Nat)) (s : State), s.running = true → ts.length = sensorsOf src →
    (∀ x ∈ ts, ∃ n, x = some n ∧ n < 125) → src.val = 21 →
    Completes (exec (.sensorRead src ts) s) fun t =>
      t = s.setHeat src { s.heatAt src with temps := ts.map sensorValue, failed := [] }) ∧
  (∀ (src : Fin 22) (ts : List (Option Nat)) (s : State), s.running = true → ts.length = sensorsOf src →
    src.val ≠ 21 → (∀ x ∈ ts, ∃ n, x = some n ∧ n < s.warnPoint ∧ n < s.criticalPoint ∧ n < 115) →
    (s.heatAt src).critical = false → Completes (exec (.sensorRead src ts) s) fun t =>
      (t.heatAt src).temps = ts.map sensorValue ∧ (t.heatAt src).warn = false ∧ (t.heatAt src).critical = false ∧
      t.board = s.board) ∧
  (∀ (d : Die) (s : State), s.running = true → (s.heatAt d).critical = false →
    s.throttlePoint ≤ (s.heatAt d).hottest → s.thermalLevel d < 15 → Completes (exec (.thermalStep d) s) fun t =>
      t.thermalLevel d = s.thermalLevel d + 1 ∧ t.mem = s.mem) ∧
  (∀ (w : Word) (s : State), Completes (exec (.tripWrite false w) s) fun t =>
    if bitsOf w.toNat 7 0 ≤ 95 ∧ bitsOf w.toNat 15 8 ≤ 100 ∧ bitsOf w.toNat 23 16 ≤ 108 ∧
        bitsOf w.toNat 7 0 ≤ bitsOf w.toNat 15 8 ∧ bitsOf w.toNat 15 8 ≤ bitsOf w.toNat 23 16 then
      t.warnPoint = bitsOf w.toNat 7 0 ∧ t.throttlePoint = bitsOf w.toNat 15 8 ∧
      t.criticalPoint = bitsOf w.toNat 23 16 ∧ t.fld (pwrReg Reg.PWR_TRIP) 31 24 = s.fld (pwrReg Reg.PWR_TRIP) 31 24 ∧
      OnlyRegs s t [pwrReg Reg.PWR_TRIP]
    else t.rbit (pwrReg Reg.PWR_ERR_FLAGS) 8 = true ∧
      t.rd (pwrReg Reg.PWR_FAULT_COUNT) = s.rd (pwrReg Reg.PWR_FAULT_COUNT) + 1 ∧
      OnlyRegs s t [pwrReg Reg.PWR_ERR_FLAGS, pwrReg Reg.PWR_FAULT_COUNT]) ∧
  (∀ (m : Measured) (s : State), s.running = true → s.bootPhase ≠ 0 →
    Completes (exec (.telemetryRecord m) s) fun t => t.mem = s.mem ∧
      t.rd (pwrReg Reg.PWR_TLM_SEQ) = s.rd (pwrReg Reg.PWR_TLM_SEQ) + 1 ∧
      t.rd (pwrReg Reg.PWR_INPUT) = m.iin ++ m.vin)

/-- A sensor at the shutdown point turns the module off. When a sensor of a die reads 115 °C or more, or one of the
power stages 125 °C, or it does not answer, the rails go off, PWRGD and FAULT# go low, the cause stands at the end of
the fault log, the module is held off until the latch is cleared, and nothing of the work in flight is left.
(19_power_thermal.md (R416 to R418)) -/
def Obligations.ShutdownPointTurnsTheModuleOff : Prop :=
  ∀ (src : Fin 22) (ts : List (Option Nat)) (s : State), s.running = true → ts.length = sensorsOf src →
    (∃ x ∈ ts, (if src.val = 21 then 125 else 115) ≤ sensorValue x) →
    Completes (exec (.sensorRead src ts) s) fun t =>
      t.board = { s.board with rails := false, pwrgd := false, fault := true, held := true, latched := true } ∧
      t.nv.log = s.nv.log ++ [(if src.val = 21 then 4 else 3) + 16 * src.val] ∧ WorkLost t

/-- A quarter of no partition is gated with its tiles' contents lost, any other is left alone. A quarter that belongs
to an enabled partition of either set is not gated, and gate_refused is set. Another is shown as gated, and its matrix and
vector tiles lose their contents, but for the states of their blocks and of the tile itself; where no job is placed on it,
these, the tiles of other quarters and device memory stay. Ungating clears both of its bits
and changes no other register. (19_power_thermal.md (R419)) -/
def Obligations.QuarterGatingCompletes : Prop :=
  (∀ (q : Quarter) (s : State), s.quarterBound q = true → Completes (exec (.quarterGate q) s) fun t =>
    t.rbit (pwrReg Reg.PWR_ERR_FLAGS) 4 = true ∧
    OnlyRegs s t [pwrReg Reg.PWR_ERR_FLAGS, pwrReg Reg.PWR_FAULT_COUNT]) ∧
  (∀ (q : Quarter) (s : State), s.quarterBound q = false → s.gated q = false →
    Completes (exec (.quarterGate q) s) fun t => t.gated q = true ∧
      (∀ b ∈ baysOfQuarter q, t.vecAt b = { Vec.init with blocks := (t.vecAt b).blocks, state := (t.vecAt b).state }) ∧
      (∀ x, x / 8 ∈ baysOfQuarter q →
        t.mtxAt x = { Mtx.init with blocks := (t.mtxAt x).blocks, halted := (t.mtxAt x).halted }) ∧
      ((∀ e ∈ s.jobs, q.val ∉ e.2.placed) → t.mem = s.mem ∧
        (∀ b ∈ baysOfQuarter q, (t.vecAt b).blocks = (s.vecAt b).blocks ∧ (t.vecAt b).state = (s.vecAt b).state) ∧
        (∀ b ∉ baysOfQuarter q, t.vecAt b = s.vecAt b) ∧
        (∀ x, x / 8 ∈ baysOfQuarter q →
          (t.mtxAt x).blocks = (s.mtxAt x).blocks ∧ (t.mtxAt x).halted = (s.mtxAt x).halted) ∧
        (∀ x, x / 8 ∉ baysOfQuarter q → t.mtxAt x = s.mtxAt x))) ∧
  (∀ (q : Quarter) (s : State), Completes (exec (.quarterUngate q) s) fun t => t.gated q = false ∧
    OnlyRegs s t [pwrReg Reg.PWR_QTR_GATE + 4 * (q / 32), pwrReg Reg.PWR_QTR_GATED + 4 * (q / 32)])

/-- The planes of an operand, streamed to the last, make the exact product. For every number n of planes, every list
of moving values that fit n radix-4 digits in two's complement, and every list of stationary values, the column
partial after all n planes is the exact sum of the products row by row. (02_number_formats.md (R27, R28)) -/
def Obligations.DigitPlanesMakeTheProduct : Prop :=
  ∀ (n : Nat) (ws xs : List Int), 0 < n → (∀ x ∈ xs, -(2 ^ (2 * n - 1) : Int) ≤ x ∧ x < 2 ^ (2 * n - 1)) →
    partialSum n ws xs n = (List.zipWith (fun w x => w * x) ws xs).foldl (· + ·) 0

/-- What the planes after a stop would have added is bounded by the magnitude sum times the tail. For moving values
that fit n digits, after n − t planes the partial, scaled by 4^t, differs from the exact sum of products by at most S
· tail(t), where S is the sum of the magnitudes of the stationary values and tail(t) = 2 (4^t − 1) / 3.
(02_number_formats.md (R27, R28, R35)) -/
def Obligations.StoppedPartialStaysWithinTail : Prop :=
  ∀ (n t : Nat) (ws xs : List Int), 0 < n → t ≤ n → (∀ x ∈ xs, -(2 ^ (2 * n - 1) : Int) ≤ x ∧ x < 2 ^ (2 * n - 1)) →
    ((List.zipWith (fun w x => w * x) ws xs).foldl (· + ·) 0 - 4 ^ t * partialSum n ws xs (n - t)).natAbs ≤
      (ws.foldl (fun a w => a + w.natAbs) 0) * tailBound t

/-- The planes that a vector skips are those in which its partial is zero, and its elements then lie in the shorter
range. For moving values that fit n digits: in every plane that is skipped the digit of every element is zero, so the
partial stays zero whatever the stationary values; with z planes skipped and fewer than n, every element lies between
−2^(2(n−z)−1) and 2^(2(n−z)−1) − 1; and conversely, where every element lies in the range of 2(n−z) bits, at least z
planes are skipped. (02_number_formats.md (R33)) -/
def Obligations.SkippedPlanesAreExact : Prop :=
  ∀ (n : Nat) (ws xs : List Int), 0 < n → (∀ x ∈ xs, -(2 ^ (2 * n - 1) : Int) ≤ x ∧ x < 2 ^ (2 * n - 1)) →
    (∀ m ≤ skipPlanes n xs, partialSum n ws xs m = 0) ∧
    (skipPlanes n xs < n → ∀ x ∈ xs, -(2 ^ (2 * (n - skipPlanes n xs) - 1) : Int) ≤ x ∧
      x < 2 ^ (2 * (n - skipPlanes n xs) - 1)) ∧
    (∀ z < n, (∀ x ∈ xs, -(2 ^ (2 * (n - z) - 1) : Int) ≤ x ∧ x < 2 ^ (2 * (n - z) - 1)) → z ≤ skipPlanes n xs)

/-- Rounding to nearest takes the nearest integer with ties to even, rounding toward zero never passes the value. For
every value x · 2^−k, rounding to nearest gives an integer at most half a unit away, and the even one where two are
equally near; rounding toward zero gives the integer of largest magnitude that does not exceed the value in magnitude,
with its sign. (02_number_formats.md (R26, R42)) -/
def Obligations.ConversionsRound : Prop :=
  ∀ (x : Int) (k : Nat),
    2 * (roundPow .nearestEven x (-k) * 2 ^ k - x).natAbs ≤ 2 ^ k ∧
    (0 < k → 2 * (roundPow .nearestEven x (-k) * 2 ^ k - x).natAbs = 2 ^ k → roundPow .nearestEven x (-k) % 2 = 0) ∧
    (roundPow .towardZero x (-k)).natAbs * 2 ^ k ≤ x.natAbs ∧
    x.natAbs < ((roundPow .towardZero x (-k)).natAbs + 1) * 2 ^ k ∧
    0 ≤ x * roundPow .towardZero x (-k)

/-- Elements packed into the bytes of a record unpack to the same codes. For every element width from 1 to 64 bits and
every list of codes of that width, element e of the packed record is code e; and the little-endian bytes of a number
read back as that number, modulo 256 to the number of bytes. (02_number_formats.md; 03_matrix_tiles.md (R55, R66);
00_scope.md (R3)) -/
def Obligations.PackedElementsReadBack : Prop :=
  (∀ (b : Nat) (cs : List Nat) (e : Nat), 0 < b → b ≤ 64 → (∀ c ∈ cs, c < 2 ^ b) → ∀ h : e < cs.length,
    unpackElem b (packBytes b cs) e = cs[e]) ∧
  (∀ n x : Nat, bytesNat (natBytes n x) = x % 256 ^ n)

/-- A matrix tile accepts a pass, feeds and lands its vectors, and drains its records. A descriptor handed to an idle
tile that is not refused, with no output of an earlier layer pending, becomes the tile's current pass with nothing
fed, and MTX_PASS_INDEX shows it. A feed of a valid vector that no drain holds enters it in flight with its skip and
stop planes and counts it fed. A vector whose last plane is done adds its partials to the entries and, where it is not
the pass's last, leaves the pass current. A drain reads its next entry and offers the record; a record accepted leaves
the queue of those offered, the last one ends the pass and counts it, and one refused for lack of credit waits. Other
tiles and device memory do not change. (03_matrix_tiles.md (R51 to R55, R58 to R61, R65, R73); 04_pass_timing.md (R74
to R80)) -/
def Obligations.MatrixPassesComplete : Prop :=
  (∀ (tl : Tile) (e : List Ecc) (h : Handed) (rest : List Handed) (s : State), (s.mtxAt tl).handed = h :: rest →
    (s.mtxAt tl).cur = none → (s.mtxAt tl).halted = false → (s.mtxAt tl).preempt = false →
    s.outputsPending (bayOfTile tl) h.layer (passDesc h.words).micro = false →
    passRefused h.words (tl % 8) = false → ((s.mtxAt tl).loadFinds (passDesc h.words) e).2 = [] →
    Completes (exec (.passAccept tl e) s) fun t => ∃ p, (t.mtxAt tl).cur = some p ∧ p.index = h.index ∧
      p.desc = passDesc h.words ∧ p.fed = [0, 0, 0, 0] ∧ (t.mtxAt tl).handed = rest ∧
      t.rd (mtxReg tl Reg.MTX_PASS_INDEX) = BitVec.ofNat 32 h.index ∧ t.mem = s.mem ∧
      ∀ x ≠ tl.val, t.mtxAt x = s.mtxAt x) ∧
  (∀ (tl : Tile) (q : Quad) (e : List Ecc) (p : Pass) (s : State), (s.mtxAt tl).cur = some p → p.loaded = true →
    q.val ∈ p.desc.active → nthN p.fed q < (p.desc.qrec q).count →
    ((s.mtxAt tl).preempt = false ∨ ∃ n ∈ p.fed, n ≠ 0) →
    (s.mtxAt tl).validRange ((p.desc.qrec q).movAddr + nthN p.fed q * (p.desc.qrec q).movStride) p.desc.movBytes = true →
    (s.mtxAt tl).holdsVector p.desc q (nthN p.fed q) = false →
    ((s.mtxAt tl).feedFinds p.desc q (nthN p.fed q) e).2 = [] →
    Completes (exec (.vectorFeed tl q e) s) fun t => ∃ dg, t.mtxAt tl = { s.mtxAt tl with
      feedStalled := false
      cur := some { p with fed := setNth p.fed q (nthN p.fed q + 1)
                           inFlight := p.inFlight ++ [(s.mtxAt tl).feedVector p.desc q (nthN p.fed q)], digits := dg } } ∧
      t.rd (mtxReg tl Reg.MTX_BUF_CE_COUNT) = s.rd (mtxReg tl Reg.MTX_BUF_CE_COUNT) +
        BitVec.ofNat 32 ((s.mtxAt tl).feedFinds p.desc q (nthN p.fed q) e).1 ∧ t.mem = s.mem ∧ ∀ x ≠ tl.val, t.mtxAt x = s.mtxAt x) ∧
  (∀ (tl : Tile) (q : Quad) (e : List Ecc) (p : Pass) (f : InFlight) (s : State), (s.mtxAt tl).cur = some p →
    p.inFlight.find? (fun f => f.quad == q.val) = some f → (p.desc.landFinds q f.vec e).2 = [] →
    (∃ i ∈ p.desc.active, nthN (setNth p.landed q (nthN p.landed q + 1)) i ≠ (p.desc.qrec i).count) →
    Completes (exec (.vectorStreamEnd tl q e) s) fun t => (t.mtxAt tl).acc = ((s.mtxAt tl).landVector p.desc f).1.acc ∧
      (∃ p', (t.mtxAt tl).cur = some p' ∧ p'.inFlight = p.inFlight.erase f ∧
        p'.landed = setNth p.landed q (nthN p.landed q + 1) ∧ p'.fed = p.fed) ∧
      (t.mtxAt tl).buf = (s.mtxAt tl).buf ∧ t.mem = s.mem ∧ ∀ x ≠ tl.val, t.mtxAt x = s.mtxAt x) ∧
  (∀ (tl : Tile) (e : List Ecc) (x : Drain) (s : State),
    (s.mtxAt tl).drains.find? (fun x => decide (x.next < x.desc.drainPlan.length)) = some x →
    (x.desc.drainFinds (x.desc.drainPlan.getD x.next (0, 0)).1 (x.desc.drainPlan.getD x.next (0, 0)).2 e).2 = [] →
    Completes (exec (.drainRecord tl e) s) fun t =>
      (∃ x', (t.mtxAt tl).drains = (s.mtxAt tl).drains.map (fun y => if y.index == x.index then x' else y) ∧
        x'.next = x.next + 1 ∧ x'.accepted = x.accepted ∧ x'.offered = x.offered ++
          ((s.mtxAt tl).drainRecord x.desc (x.desc.drainPlan.getD x.next (0, 0)).1
            (x.desc.drainPlan.getD x.next (0, 0)).2).1) ∧
      (t.mtxAt tl).acc = (s.mtxAt tl).acc ∧ t.mem = s.mem ∧ ∀ y ≠ tl.val, t.mtxAt y = s.mtxAt y) ∧
  (∀ (tl : Tile) (e : List Ecc) (x : Drain) (rest : List Drain) (r : OutRecord) (more : List OutRecord) (done : Bool)
    (s : State), (s.mtxAt tl).drains = x :: rest → x.offered = r :: more →
    done = (more.isEmpty && x.next == x.desc.drainPlan.length && decide (10 ≤ x.desc.dst)) →
    (s.deliver (bayOfTile tl) (.drain tl) x.desc.dst x.desc.dstChannel r.addr r.bytes done = none →
      exec (.drainRecordAccept tl e) s = .next ((s.setMtx tl { s.mtxAt tl with drainStalled := true }).bump
        (mtxReg tl Reg.MTX_DRAIN_STALL) 1)) ∧
    (∀ u, s.deliver (bayOfTile tl) (.drain tl) x.desc.dst x.desc.dstChannel r.addr r.bytes done = some u →
      (more ≠ [] ∨ x.next ≠ x.desc.drainPlan.length) →
      exec (.drainRecordAccept tl e) s = .next (u.setMtx tl { u.mtxAt tl with
        drains := { x with offered := more, accepted := x.accepted + 1 } :: rest, drainStalled := false })) ∧
    (∀ u, s.deliver (bayOfTile tl) (.drain tl) x.desc.dst x.desc.dstChannel r.addr r.bytes done = some u →
      more = [] → x.next = x.desc.drainPlan.length → (u.mtxAt tl).cur = none →
      Completes (exec (.drainRecordAccept tl e) s) fun t => (t.mtxAt tl).drains = rest ∧
        (t.mtxAt tl).lastEnded = some x.index ∧
        t.rd (mtxReg tl Reg.MTX_PASS_COUNT) = s.rd (mtxReg tl Reg.MTX_PASS_COUNT) + 1 ∧ t.mem = s.mem))

/-- A column's contribution changes its own entry by acc_mode, saturating, and no other. When a finished vector
reaches column j, its entry becomes, by acc_mode, the aligned contribution, its sum with the old value, the old value
less it, or its negation, brought inside the 48-bit accumulator's limits; every other entry, the buffer and the cells
stay. (02_number_formats.md (R32, R40); 03_matrix_tiles.md (R58)) -/
def Obligations.AccumulatorEntriesTakeContributions : Prop :=
  ∀ (m : Mtx) (d : PassDesc) (f : InFlight) (j : Nat), d.entry f.quad f.vec < 512 →
    let c := alignPartial (m.partialOf d f j) (m.alignExp d f.quad j f.exp) (d.planes - 1 - f.stop)
    let old := m.accGet j (d.entry f.quad f.vec)
    (m.landColumn d f j).1.accGet j (d.entry f.quad f.vec) = (accSat (match d.accMode with
      | 0 => c | 1 => old + c | 2 => old - c | _ => -c)).1 ∧
    (∀ j' e', e' < 512 → (j', e') ≠ (j, d.entry f.quad f.vec) →
      (m.landColumn d f j).1.accGet j' e' = m.accGet j' e') ∧
    (m.landColumn d f j).1 = { m with acc := (m.landColumn d f j).1.acc }

/-- A pass over its cycle budget is abandoned, and soft_reset frees the tile's blocks. A running or draining pass that reaches
its cycle budget is abandoned: the tile halts with no pass, no drain and no held operand, the abandonment is flagged
and counted, and then the job of its bay ends with status 0x32 naming the pass. soft_reset of an idle tile clears
sta_valid, frees both halves and leaves it not halted; of a running or draining one it abandons the pass first, and the
tile is halted. (03_matrix_tiles.md (R73); 04_pass_timing.md
(R81, R85, R86)) -/
def Obligations.AbandonedPassesHaltTheirTile : Prop :=
  (∀ (tl : Tile) (i : Nat × Nat × Nat) (s : State), (s.mtxAt tl).oldest = some i →
    Completes (exec (.passBudgetExpiry tl) s) fun t => ∃ (u : State) (n : Nat),
      t = u.failBay (bayOfTile tl) 0x32 (some (i.1, n)) 0 ∧ (u.mtxAt tl).halted = true ∧ (u.mtxAt tl).cur = none ∧
      (u.mtxAt tl).drains = [] ∧ (u.mtxAt tl).handed = [] ∧ (u.mtxAt tl).staValid = false ∧
      u.rbit (mtxReg tl Reg.MTX_ERR_FLAGS) 7 = true ∧
      u.rd (mtxReg tl Reg.MTX_FAULT_COUNT) = s.rd (mtxReg tl Reg.MTX_FAULT_COUNT) + 1 ∧ u.mem = s.mem) ∧
  (∀ (tl : Tile) (s : State), (s.mtxAt tl).oldest = none → exec (.mtxSoftReset tl) s =
    .next (s.setMtx tl { s.mtxAt tl with
      blocks := [], staValid := false, halted := false, feedStalled := false, drainStalled := false, gone := none })) ∧
  (∀ (tl : Tile) (i : Nat × Nat × Nat) (s : State), (s.mtxAt tl).oldest = some i →
    Completes (exec (.mtxSoftReset tl) s) fun t => (t.mtxAt tl).blocks = [] ∧ (t.mtxAt tl).staValid = false ∧
      (t.mtxAt tl).cur = none ∧ (t.mtxAt tl).drains = [] ∧ (t.mtxAt tl).halted = true)

/-- Credits are granted to the writer that asks, and a completed block becomes valid. A free block of an operand
buffer or of vector data memory for which a drain or a send asks becomes filling by that writer. A stream that asks,
with a staging block of its floor free, or one of the pool in its turn, takes the credit and a staging block with it; a
block of the pool turns the rotation. A drain or a send whose turn it is at a tile
port with a credit and a block number free takes the block. A channel done with a block of vector data
memory that it fills makes it valid and gives a staging block back. (03_matrix_tiles.md (R53); 05_vector_tiles.md
(R96); 06_streams.md (R126 to R128); 08_logic_array.md (R187)) -/
def Obligations.CreditsAndBlocksComplete : Prop :=
  (∀ (b : Bay) (dst blk : Nat) (w : Writer) (s : State), ((∃ x, w = .drain x) ∨ ∃ x, w = .send x) →
    (dst, blk) ∈ s.asks b w →
    (dst = 1 → (s.vecAt b).block blk = .free →
      exec (.creditGrant b dst blk w) s = .next (s.setVec b ((s.vecAt b).setBlock blk (.filling w)))) ∧
    (2 ≤ dst → dst ≤ 9 → (s.mtxAt (b * 8 + (dst - 2))).block blk = .free →
      exec (.creditGrant b dst blk w) s = .next (s.setMtx (b * 8 + (dst - 2))
        ((s.mtxAt (b * 8 + (dst - 2))).setBlock blk (.filling w))))) ∧
  (∀ (b : Bay) (blk c : Nat) (s : State), (1, blk) ∈ s.asks b (.stream b c) → s.stagingTurn b c = true →
    (s.vecAt b).block blk = .free → Completes (exec (.creditGrant b 1 blk (.stream b c)) s) fun t =>
      (t.vecAt b).block blk = .filling (.stream b c) ∧ (t.chanAt b c).credits = (s.chanAt b c).credits ++ [blk] ∧
      ((s.chanAt b c).heldCount < (s.chanAt b c).desc.floor → t.poolLast = s.poolLast) ∧
      ((s.chanAt b c).desc.floor ≤ (s.chanAt b c).heldCount → tget (fun _ => 15) t.poolLast b = c) ∧
      t = { s with vec := t.vec, chans := t.chans, poolLast := t.poolLast }) ∧
  (∀ (b : Bay) (p : Fin 4) (n : Nat) (w : Writer) (s : State), ((∃ x, w = .drain x) ∨ ∃ x, w = .send x) →
    (∃ k, (10 + p.val, k) ∈ s.asks b w) → s.portOpen b p = true → 0 < (s.portAt b p).credits →
    s.portTurn b p = some w → (List.range 4).find? (fun n => !(s.portAt b p).blocks.any (fun g => g.num == n)) = some n →
    exec (.creditGrant b (10 + p) 0 w) s = .next (s.setPort b p { s.portAt b p with
      credits := (s.portAt b p).credits - 1, blocks := (s.portAt b p).blocks ++ [⟨n, w, 0, false⟩], last := srcCode w })) ∧
  (∀ (b : Bay) (blk c : Nat) (e : List Ecc) (s : State), (s.chanAt b c).doneWith blk = true →
    (s.chanAt b c).desc.peer = 1 → (s.chanAt b c).desc.kind = 0 → (s.vecAt b).block blk = .filling (.stream b c) →
    Completes (exec (.blockComplete b 1 blk (.stream b c) e) s) fun t => (t.vecAt b).block blk = .valid ∧
      (t.chanAt b c).credits = (s.chanAt b c).credits.erase blk ∧ t = { s with vec := t.vec, chans := t.chans })

/-- A pre-emption stops new passes, vector programs and streams on every bay of the job. When a running job is pre-empted,
the command completes. Where none of its channels holds a fault, the job is preempting and its arrivals at barriers are
discarded; on each of its bays no tile has a pass handed to it and each sees the request, the vector tile is not active,
or, inside a packet, takes the request and stops with it, and the sequencer does not run; and only tiles, channels, ports,
bays and jobs change: device memory does not. (04_pass_timing.md (R82); 05_vector_tiles.md (R113); 06_streams.md (R142);
07_sequencers_and_jobs.md (R148, R158, R160)) -/
def Obligations.PreemptionReachesEveryBay : Prop :=
  ∀ (j : Nat) (v : Job) (s : State), s.jobAt j = some v → v.phase = .running →
    ∃ t, Sys2Proof.Machine.exec (.preemption j) s = .next t ∧
      ((∀ b ∈ v.bays, ∀ c < 16, (s.chanAt b c).fault = none) →
        t.jobAt j = some { v with phase := .preempting, arrivals := [] } ∧
        (∀ b ∈ v.bays, (∀ i < 8, (t.mtxAt (b * 8 + i)).preempt = true ∧ (t.mtxAt (b * 8 + i)).handed = []) ∧
          ((s.vecAt b).active = false ∨ (s.vecAt b).ran = [] → (t.vecAt b).active = false) ∧
          ((s.vecAt b).active = true → (s.vecAt b).ran ≠ [] → t.vecAt b = { s.vecAt b with stopReq := true }) ∧
          (t.bayAt b).running = false) ∧
        t = { s with jobs := t.jobs, mtx := t.mtx, vec := t.vec, chans := t.chans, bays := t.bays, ports := t.ports })

/-- Every compute operation sends the results of all lanes into flight and its packet goes on. Each of the 37 compute
commands acts on a packet in order whose compute operation is its own: unless icv meets an infinity or NaN, the
results of the 32 lanes go into flight with the operation's latency, the tile is otherwise as it was, and the packet
waits for its other slots or issues. Device memory and other vector tiles do not change. (05_vector_tiles.md (R92, R97
to R99, R103 to R107, R109)) -/
def Obligations.ComputeSlotsComplete : Prop :=
  ∀ x ∈ [(0x00, Instr.vecNop), (0x01, Instr.add), (0x02, Instr.sub), (0x03, Instr.min), (0x04, Instr.max),
      (0x05, Instr.and), (0x06, Instr.or), (0x07, Instr.xor), (0x08, Instr.shl), (0x09, Instr.sra), (0x0A, Instr.srl),
      (0x0B, Instr.movi), (0x0C, Instr.bfly), (0x0D, Instr.rot), (0x10, Instr.mul), (0x11, Instr.mac),
      (0x12, Instr.msu), (0x13, Instr.sqs), (0x14, Instr.sbm), (0x15, Instr.clr), (0x16, Instr.lda),
      (0x17, Instr.nrw), (0x18, Instr.nrm2), (0x19, Instr.hdm), (0x1A, Instr.shb), (0x1B, Instr.bhd),
      (0x1C, Instr.bst), (0x1D, Instr.fn), (0x1E, Instr.fcv), (0x1F, Instr.icv), (0x20, Instr.padd),
      (0x21, Instr.psub), (0x22, Instr.psla), (0x23, Instr.psra), (0x24, Instr.pnrw), (0x7F, Instr.imm)],
  ∀ (b : Bay) (e : List Ecc) (s : State), s.slotReady b .compute → (readFinds 8 e [[8 * (s.vecAt b).pc]]).2 = none →
    pkOp (s.vecAt b).packet = x.1 →
    ((s.vecAt b).compute (s.vecAt b).packet s.free).nonfinite = false →
    Completes (exec (x.2 b e) s) fun t => SlotActed s t b .compute ((s.vecAt b).launch (computeLatency x.1) 0
      ((s.vecAt b).compute (s.vecAt b).packet s.free).writes)

/-- Lane results are the exact ones, wrapped, saturated or rounded as the operation says. For every lane: add, sub,
padd and psub wrap the exact sum or difference; min and max choose by signed value; bfly takes the lane whose number
differs in one bit; mac and msu saturate the exact sum at plus or minus 2^39 - 1 and count a saturation exactly where
it lies outside; nrw within range answers a value at most half a unit from the accumulator divided by 2^(imm + be)
when that exponent is not negative, and the even one at a tie; hdm keeps the smaller headroom. (05_vector_tiles.md
(R97, R98, R99, R104)) -/
def Obligations.VectorArithmetic : Prop :=
  ∀ (v : Vec) (p l hi : Nat),
    let a := v.dAt l (pkSa p)
    let b := v.dAt l (pkSb p)
    (pkOp p = 0x01 → (v.computeLane p l hi).writes = [.d l (pkDst p) (BitVec.ofInt 32 (a.toInt + b.toInt))]) ∧
    (pkOp p = 0x02 → (v.computeLane p l hi).writes = [.d l (pkDst p) (BitVec.ofInt 32 (a.toInt - b.toInt))]) ∧
    (pkOp p = 0x03 → (v.computeLane p l hi).writes = [.d l (pkDst p) (if a.slt b then a else b)]) ∧
    (pkOp p = 0x04 → (v.computeLane p l hi).writes = [.d l (pkDst p) (if a.slt b then b else a)]) ∧
    (pkOp p = 0x0C → (v.computeLane p l hi).writes = [.d l (pkDst p) (v.dAt (l ^^^ 2 ^ pkImm p) (pkSa p))]) ∧
    (∀ (op : Nat) (x : Int), op = 0x11 ∧ x = v.aForward l (pkDst p % 2) + lo16 a * lo16 b ∨
        op = 0x12 ∧ x = v.aForward l (pkDst p % 2) - lo16 a * lo16 b → pkOp p = op →
      ∃ y : BitVec 40, (v.computeLane p l hi).writes = [.a l (pkDst p % 2) y] ∧
        y.toInt = Max.max (-(2 ^ 39 - 1)) (Min.min (2 ^ 39 - 1) x) ∧
        ((v.computeLane p l hi).sats = 0 ↔ -(2 ^ 39 - 1) ≤ x ∧ x ≤ 2 ^ 39 - 1)) ∧
    (∀ k : Nat, pkOp p = 0x17 → (pkImm p : Int) + v.beAt l = k → pkSb p = 0 →
      (v.computeLane p l hi).sats = 0 → ∃ y : Word, (v.computeLane p l hi).writes = [.d l (pkDst p) y] ∧
        2 * (y.toInt * 2 ^ k - v.aAt l (pkSa p % 2)).natAbs ≤ 2 ^ k ∧
        (2 * (y.toInt * 2 ^ k - v.aAt l (pkSa p % 2)).natAbs = 2 ^ k → 0 < k → y.toInt % 2 = 0)) ∧
    (pkOp p = 0x19 → ∃ y : BitVec 5, (v.computeLane p l hi).writes = [.hd l y] ∧
      y.toNat = Min.min (v.hdAt l) (redundantSigns a)) ∧
    (pkOp p = 0x20 → (v.computeLane p (2 * (l / 2)) hi).writes = [.d (2 * (l / 2)) (pkDst p)
        (BitVec.ofInt 32 (v.pairAt l (pkSa p) + v.pairAt l (pkSb p)))] ∧
      (v.computeLane p (2 * (l / 2) + 1) hi).writes = [.d (2 * (l / 2) + 1) (pkDst p)
        (BitVec.ofInt 32 ((v.pairAt l (pkSa p) + v.pairAt l (pkSb p)) / 2 ^ 32))])

/-- Every memory and control operation of a packet has its effect. A load sends the lanes' words into flight for three
cycles and a store writes the lanes' registers into usable blocks, each with its post increment; a crossbar write of
the same cycle prevails in the bytes that both write. rep, jmp and brk set where control goes; wait goes on only with its blocks
valid, and stalls otherwise; give frees its blocks and agld loads a generator when the packet issues; send queues a
send or stalls with four queued; sync waits for the sends; ldt fills a table when the packet has issued; evt is
posted by a message that the job counts; end lets the program end. (05_vector_tiles.md (R93 to R96, R100 to R103, R107 to R109)) -/
def Obligations.MemoryAndControlSlotsComplete : Prop :=
  ∀ (b : Bay) (e : List Ecc) (s : State), (readFinds 8 e [[8 * (s.vecAt b).pc]]).2 = none →
    let v := s.vecAt b
    let a := pkArg v.packet
    (∀ y : Bool, s.slotReady b (memSlot y) →
      let m := memField y v.packet
      (msOp m = 1 ∨ msOp m = 3 → ∀ d, (readFinds 4 d [v.accessWords y m]).2 = none →
        Completes (exec (.vecLoad b y e d) s) fun t =>
        SlotActed s t b (memSlot y) ((v.launch 3 (if y then 2 else 1) (v.loadLanes y m)).post m)) ∧
      (msOp m = 2 → (∀ k ∈ v.accessBlocks y m, v.block k = .held ∨ v.block k = .valid) →
        (Completes (exec (.vecStore b y e none) s) fun t =>
          SlotActed s t b (memSlot y) ((v.storeLanes y m).post m)) ∧
        ∀ h : Nat × List Byte, Completes (exec (.vecStore b y e (some h)) s) fun t => ∃ dm,
          SlotActed s t b (memSlot y) (({ v.storeLanes y m with dmem := dm } : Vec).post m) ∧
          ∀ i, tget (fun _ => (0 : Byte)) dm i =
            if h.1 ≤ i ∧ i < h.1 + h.2.length ∧ i ∈ v.accessBytes y m then h.2.getD (i - h.1) 0
            else tget (fun _ => (0 : Byte)) (v.storeLanes y m).dmem i)) ∧
    (s.slotReady b .control →
      (pkCtl v.packet = 1 → Completes (exec (.rep b e) s) fun t =>
        SlotActed s t b .control { v with nextPc := some (if pkWide v.packet % 2 ^ 16 = 0
          then afterPacket v.reps (v.pc + a)
          else (v.pc + 1, .mk (v.pc + 1) (v.pc + a) (pkWide v.packet % 2 ^ 16) :: v.reps)) }) ∧
      (pkCtl v.packet = 2 → Completes (exec (.jmp b e) s) fun t =>
        SlotActed s t b .control { v with nextPc := some (((v.pc : Int) + jmpOffset a).toNat, v.reps) }) ∧
      (pkCtl v.packet = 3 → ∀ r rs, v.reps = r :: rs → Completes (exec (.brk b e) s) fun t =>
        SlotActed s t b .control { v with nextPc := some (afterPacket rs r.last) }) ∧
      (pkCtl v.packet = 4 →
        ((∀ k ∈ waitBlocks a, v.block k = .valid) → Completes (exec (.vecWait b e) s) fun t =>
          SlotActed s t b .control v) ∧
        ((∃ k ∈ waitBlocks a, v.block k ≠ .valid) → Completes (exec (.vecWait b e) s) fun t =>
          t.vecAt b = { v.tick with state := .waitStall } ∧ t.mem = s.mem ∧
          t.rd (vecReg b Reg.VEC_WAIT_STALL) = s.rd (vecReg b Reg.VEC_WAIT_STALL) + 1)) ∧
      (pkCtl v.packet = 5 → Completes (exec (.give b e) s) fun t => SlotActed s t b .control
        { v with effects := v.effects ++ (waitBlocks a).map PacketEffect.give }) ∧
      (pkCtl v.packet = 6 →
        (v.sends.length ≠ 4 → sendRefused (v.sendPreset (a % 16)) = false →
          (∀ k ∈ sendBlocks (v.sendPreset (a % 16)), v.block k = .held ∨ v.block k = .valid) →
          Completes (exec (.vecSend b e) s) fun t => SlotActed s t b .control
            { v with sends := v.sends ++ [.mk (a % 16) 0 (s.bayAt b).layer] }) ∧
        (v.sends.length = 4 → Completes (exec (.vecSend b e) s) fun t =>
          t.vecAt b = { v.tick with state := .sendStall } ∧ t.mem = s.mem ∧
          t.rd (vecReg b Reg.VEC_SEND_STALL) = s.rd (vecReg b Reg.VEC_SEND_STALL) + 1)) ∧
      (pkCtl v.packet = 7 →
        (v.sends = [] → Completes (exec (.sync b e) s) fun t => SlotActed s t b .control v) ∧
        (v.sends ≠ [] → Completes (exec (.sync b e) s) fun t =>
          t.vecAt b = { v.tick with state := .sync } ∧ t.mem = s.mem)) ∧
      (pkCtl v.packet = 8 →
        let g := tget (fun _ => (0 : BitVec 64)) v.presets (bitsOf a 5 0)
        (genBitrev g.toNat = false ∨ isPow2 (genMod g.toNat) = true) → Completes (exec (.agld b e) s) fun t =>
          SlotActed s t b .control { v with effects := v.effects ++ [.gen (bitsOf a 8 6) g] }) ∧
      (pkCtl v.packet = 9 → ∀ d, (readFinds 4 d (ldtWords (v.ldtRow v.packet))).2 = none →
        Completes (exec (.ldt b e d) s) fun t =>
        SlotActed s t b .control { v with effects := v.effects ++ [.table (a % 2) (v.ldtRow v.packet)] }) ∧
      (pkCtl v.packet = 10 → ∀ (j : Nat) (x : Job), (s.bayAt b).job = some j → s.jobAt j = some x →
        (∃ y ∈ packetSlots v.packet, y ≠ .control ∧ y ∉ v.ran) → Completes (exec (.evt b e) s) fun t =>
          SlotActed s t b .control v ∧ t.jobAt j = some { x with
            events := x.events + if (s.messageTrip (seqAgent b) (s.leadAgent x)).1 = 0 then 1 else 0 }) ∧
      (pkCtl v.packet = 11 → Completes (exec (.vecEnd b e) s) fun t =>
        SlotActed s t b .control { v with ending := true, nextPc := some (v.pc, v.reps) }))

/-- Rows of a send are accepted one by one, a send may time out, and soft_reset restores the start state. A row of the
first queued send that its destination accepts is counted; the last one ends the send and makes the blocks of its
writer complete. From a block held or valid, a row that a crossbar write holds up waits and is counted. A row not
accepted in time ends the job with 0x34, the tile halted. A tile that was offering a row as it was pre-empted
still has it accepted or timed out. soft_reset leaves the tile idle at packet 0 with cleared lane registers and no send. (05_vector_tiles.md (R92, R95, R96, R110 to R112, R116)) -/
def Obligations.SendsAndVectorResetComplete : Prop :=
  ∀ (b : Bay) (s : State),
    let v := s.vecAt b
    (∀ (q : QueuedSend) (rest : List QueuedSend), v.sends = q :: rest → v.offering = true →
      let p := v.sendPreset q.preset
      (v.block ((spSrc p + q.accepted) / 32) = .held ∨ v.block ((spSrc p + q.accepted) / 32) = .valid) →
      (∀ e, exec (.sendRowAccept b e true) s = .next (s.bump (vecReg b Reg.VEC_SEND_STALL) 1)) ∧
      (∀ e n u, readFinds 4 e [(List.range (spWords p)).map (fun i => (spSrc p + q.accepted) * 128 + 4 * i)] = (n, none) →
          (s.vecCorrected b n).deliver b (.send b) (spDst p) (spChannel p) (spAddr p + q.accepted * spStride p)
          ((v.sendRow p q.accepted).map some) (decide (q.accepted + 1 = spRows p) && decide (10 ≤ spDst p)) = some u →
        (q.accepted + 1 ≠ spRows p → exec (.sendRowAccept b e false) s =
          .next (u.setVec b { u.vecAt b with rowOpen := false, sends := { q with accepted := q.accepted + 1 } :: rest })) ∧
        (q.accepted + 1 = spRows p → Completes (exec (.sendRowAccept b e false) s) fun t =>
          (t.vecAt b).sends = rest ∧ (t.vecAt b).pc = v.pc ∧ t.mem = s.mem ∧
          ∀ k < 128, (t.vecAt b).block k ≠ .filling (.send b)))) ∧
    (v.sends ≠ [] → v.offering = true → Completes (exec (.sendTimeout b) s) fun t =>
      ∃ u : State, t = u.failBay b 0x34 (some (vecDetail (s.bayAt b).logical v.pc, 0)) 0 ∧ u.vecAt b = v.halt ∧
        u.rbit (vecReg b Reg.VEC_ERR_FLAGS) 3 = true ∧ u.mem = s.mem ∧
        u.rd (vecReg b Reg.VEC_FAULT_COUNT) = s.rd (vecReg b Reg.VEC_FAULT_COUNT) + 1) ∧
    (Completes (exec (.vecSoftReset b) s) fun t =>
      (t.vecAt b).state = .idle ∧ (t.vecAt b).pc = 0 ∧ (t.vecAt b).d = [] ∧ (t.vecAt b).a = [] ∧ (t.vecAt b).be = [] ∧
      (t.vecAt b).hd = [] ∧ (t.vecAt b).reps = [] ∧ (t.vecAt b).sends = [] ∧ (t.vecAt b).flight = [] ∧
      (t.vecAt b).userTab = [] ∧ (v.active = false → v.state ≠ .preempted → t = { s with vec := t.vec }))

/-- Streams are placed, begin, go on after a pause, and end short. A stream command places an accepted descriptor on a
channel whose stream has ended, completing the blocks that stream still fills, waits while the channel is busy, and fails the job on a refused descriptor; requests of
the stream before it that are in flight are given up. A placed stream begins, with its counters at 0, when its floor fits
and nothing it must wait for is pending: an ordinary one by STREAM_BEGIN, a weight-ahead one once its layer opens. Resume
puts a paused channel back to its cursor and leaves others; abort and the pause limit end a paused channel short with its
status and then its job; soft reset returns all staging. (06_streams.md (R122, R128 to R131, R137, R139, R144);
07_sequencers_and_jobs.md (R147)) -/
def Obligations.StreamCommandsComplete : Prop :=
  (∀ (b : Bay) (m m' : MemFind) (j c n : Nat) (v : Job) (r : MemAns) (d : StreamDesc) (s u w : State),
    s.fetched b 2 m m' j v c u → n = (if v.hdr.ver = 2 then 64 else 96) → offOk v c 32 n = true →
    u.fetchDesc b v (cmdDesc c) n m' = (r, w) → r.status = 0 → streamOf r.data = some d →
    (d.ver = v.hdr.ver → d.refused = false →
      (d.layer = (w.bayAt b).layer ∨ d.weightAhead = true ∧ d.layer = (w.bayAt b).layer + 1) →
      ((w.chanAt b (cmdUnit c)).live = true → exec (.streamCmd b m) s = .next w) ∧
      ((w.chanAt b (cmdUnit c)).live = false → Completes (exec (.streamCmd b m) s) fun t =>
        t = { w with chans := t.chans, bays := t.bays, mtx := t.mtx, vec := t.vec } ∧
        ((w.chanAt b (cmdUnit c)).state ≠ .ended ∨ (w.chanAt b (cmdUnit c)).credits = [] →
          t = { w with chans := t.chans, bays := t.bays }) ∧
        ((w.chanAt b (cmdUnit c)).state = .ended → (w.chanAt b (cmdUnit c)).desc.peer = 1 →
          ∀ blk ∈ (w.chanAt b (cmdUnit c)).credits, (t.vecAt b).block blk ≠ .filling (chanWriter b (cmdUnit c))) ∧
        (t.chanAt b (cmdUnit c)).state = .waitBarrier ∧ (t.chanAt b (cmdUnit c)).desc = d ∧
        (t.chanAt b (cmdUnit c)).raw = r.data ∧ (t.chanAt b (cmdUnit c)).todo = [] ∧
        (t.chanAt b (cmdUnit c)).accepted = 0 ∧ (t.chanAt b (cmdUnit c)).formed = 0 ∧
        (∀ q ∈ (t.chanAt b (cmdUnit c)).outstanding, q.gone = true) ∧
        (t.bayAt b).next = (w.bayAt b).next + 1 ∧ (t.bayAt b).waiting = false)) ∧
    (d.refused = true → exec (.streamCmd b m) s = .next ((w.strFault b 0x40).failBay b 0x40 none 0))) ∧
  (∀ (b : Bay) (c : Channel) (s : State),
    let ch := s.chanAt b c
    let begun (t : State) : Prop := t = { s with chans := t.chans, regs := t.regs } ∧
      t.chanAt b c = { ch with state := .running } ∧
      (∀ o ∈ [Reg.STR_CH_CREDIT_WAIT, Reg.STR_CH_PAUSES, Reg.STR_CH_SAT, Reg.STR_CH_ROUNDED], t.rd (chReg b c o) = 0) ∧
      RegsKept s t ([Reg.STR_CH_CREDIT_WAIT, Reg.STR_CH_PAUSES, Reg.STR_CH_SAT, Reg.STR_CH_ROUNDED].map (chReg b c))
    (ch.state = .waitBarrier → ch.stopReq = false → s.floors b + s.poolTaken b + ch.desc.floor ≤ 64 →
      (ch.desc.weightAhead = false → (ch.desc.kind = 1 ∨ s.outputsPending b ch.desc.layer ch.desc.bubble = false) →
        Completes (exec (.streamBegin b c) s) begun) ∧
      (ch.desc.weightAhead = true → s.weightAheadOpen b ch.desc.layer = true →
        Completes (exec (.weightAheadBegin b c) s) begun)) ∧
    (ch.state ≠ .paused → exec (.streamResume b c) s = .next s ∧ exec (.streamAbort b c) s = .next s) ∧
    (ch.state = .paused →
      exec (.streamResume b c) s = .next ((s.setChan b c ch.again).settle b c) ∧
      let short (n : Nat) (t : State) : Prop := ∃ u : State, t = u.failBay b n none 0 ∧
        (u.chanAt b c).state = .endedShort ∧ (u.chanAt b c).status = n ∧
        (∀ q ∈ (u.chanAt b c).outstanding, q.gone = true) ∧
        (u.chanAt b c).held = [] ∧ u.rbit (strReg b Reg.STR_ERR_FLAGS) 0 = true ∧ u.mem = s.mem
      Completes (exec (.streamAbort b c) s) (short (0x0F + ch.cause)) ∧
      (s.rd (strReg b Reg.STR_PAUSE_LIMIT) ≠ 0 → Completes (exec (.pauseLimitExpiry b c) s) (short 0x13)))) ∧
  (∀ (b : Bay) (s : State), Completes (exec (.strSoftReset b) s) fun t => ∃ u : State,
    (t = u ∧ (∀ c < 16, (s.chanAt b c).live = false) ∨
      t = u.failBay b 0xF0 none 0 ∧ ∃ c < 16, (s.chanAt b c).live = true) ∧ u.mem = s.mem ∧
    ∀ c < 16, (u.chanAt b c).live = false ∧ (u.chanAt b c).held = [] ∧ (u.chanAt b c).stages = [] ∧
      (u.chanAt b c).arrivals = [])

/-- Requests are issued, translated and answered, and rows and records move on. A request whose translation is cached
is issued to the address its leaf maps; one that is not starts a walk at the partition's root. With nothing to form for
want of a credit or a staging block, the channel waits and counts. A table entry read goes on to the next table, or maps
and is cached. Read data is kept with its request and counted; an answer for a request given up, or for none, is
discarded; a row accepted under its credits advances the channel and is counted; a record accepted lands in its writer's
staging block, and the end of its writer completes the writer's blocks; an acknowledged write leaves the outstanding
requests and is counted, its bytes standing in device memory where it went through the crema port. (06_streams.md (R117,
R121 to R128, R134 to R136); 07_sequencers_and_jobs.md (R150, R159)) -/
def Obligations.StreamTransfersComplete : Prop :=
  ∀ (b : Bay) (c : Channel) (s : State),
    let ch := s.chanAt b c
    let issued (u t : State) (r : Req) (x : Target) : Prop := t.mem = u.mem ∧
      (t.chanAt b c).todo = (u.chanAt b c).todo.filter (fun q => q.id != r.id) ∧ (t.chanAt b c).walk = none ∧
      (t.chanAt b c).state = .running ∧ ∃ net back, (t.chanAt b c).outstanding = (u.chanAt b c).outstanding ++
        [{ r with target := some x, net := net, back := back, gone := false }]
    let walking (u t : State) (r : Req) (level table : Nat) : Prop := t.mem = u.mem ∧ ∃ net back, t.chanAt b c =
      { u.chanAt b c with state := .running, walk := some (.mk r level (entryAddr level table r.addr) net back) }
    (ch.started = true → ch.state ≠ .paused → ch.walk = none → ch.flying.length < 128 → s.engineFlying b < 1024 →
      ch.fault = none → ch.stopReq = false →
      (∀ (r : Req) (rest : List Req), ch.todo = r :: rest → r.addr / 2 ^ 48 = 0 →
        (∀ level e x, tlbFind (s.bayAt b).tlb (s.bayPart b) r.addr = some (level, e) →
          leafTarget level e r.addr r.write = .target x →
          Completes (exec (.streamRequestIssue b c) s) fun t => issued s t r x) ∧
        (tlbFind (s.bayAt b).tlb (s.bayPart b) r.addr = none → Completes (exec (.streamRequestIssue b c) s) fun t =>
          walking s t r 0 (s.partFor (dieOfBay b) (s.bayPart b)).root)) ∧
      (ch.todo = [] → ch.finished = false → (s.setChan b c ch).formUnit b c = none →
        (s.setChan b c ch).lacks b c = true → Completes (exec (.streamRequestIssue b c) s) fun t =>
          t.chanAt b c = { ch with state := .creditWait } ∧ t = { s with chans := t.chans, regs := t.regs } ∧
          t.rd (chReg b c Reg.STR_CH_CREDIT_WAIT) = s.rd (chReg b c Reg.STR_CH_CREDIT_WAIT) + 1)) ∧
    (∀ m, ch.walk = none → exec (.tableWalkResponse b c m) s = .next s) ∧
    (∀ (w : Walk) (m : MemFind) (a : MemAns) (u : State), ch.walk = some w →
      s.answered w.entryAddr w.net w.back (fun s => s.memRead (homeOfBay b) w.entryAddr 8 m) = some (a, u) →
      a.status = 0 →
      (∀ tb, walkStep w.level (bytesNat a.data) = .next tb → Completes (exec (.tableWalkResponse b c m) s) fun t =>
        walking u t w.req (w.level + 1) tb) ∧
      (∀ e x, walkStep w.level (bytesNat a.data) = .leaf e → leafTarget w.level e w.req.addr w.req.write = .target x →
        Completes (exec (.tableWalkResponse b c m) s) fun t => issued u t w.req x ∧
          (.mk (u.bayPart b) w.level (w.req.addr / leafBytes w.level) (BitVec.ofNat 64 e) : TlbEntry) ∈ (t.bayAt b).tlb)) ∧
    (∀ (id : Nat) (m : MemFind),
      (ch.outstanding.find? (fun r => r.id == id && !r.write && r.data.isNone) = none →
        exec (.streamReadResponse b c id m) s = .next s) ∧
      (∀ (r : Req) (a : MemAns) (u : State),
        ch.outstanding.find? (fun r => r.id == id && !r.write && r.data.isNone) = some r →
        s.perform b r m = some (a, u) →
        (r.gone = true → exec (.streamReadResponse b c id m) s = .next ((u.setChan b c { u.chanAt b c with
          outstanding := (u.chanAt b c).outstanding.filter (fun q => q.id != id) }).settle b c)) ∧
        (r.gone = false → a.status = 0 → Completes (exec (.streamReadResponse b c id m) s) fun t =>
          ∃ w : State, w.rd64 (strReg b Reg.STR_BYTES_IN) = (u.rd64 (strReg b Reg.STR_BYTES_IN) + r.len) % 2 ^ 64 ∧
            w.chanAt b c = { u.chanAt b c with
              outstanding := (u.chanAt b c).outstanding.map (fun q => if q.id == id then { q with data := some a.data } else q) } ∧
            w.mem = u.mem ∧
            t = (if (u.chanAt b c).desc.kind = 2 then
                w.setChan b c (Chan.copyAll (u.chanAt b c).desc.total (w.chanAt b c))
              else w.convertRows b c ((u.chanAt b c).desc.rows - (u.chanAt b c).converted)).settle b c)) ∧
      (∀ (r : Req) (a : MemAns) (u : State), ch.outstanding.find? (fun r => r.id == id && r.write) = some r →
        s.perform b r m = some (a, u) → a.status = 0 → r.gone = false → (u.chanAt b c).fault = none →
        Completes (exec (.streamWriteAck b c id m) s) fun t => t.mem = u.mem ∧
          (∃ w : State, t = w.settle b c ∧
            w.rd64 (strReg b Reg.STR_BYTES_OUT) = (u.rd64 (strReg b Reg.STR_BYTES_OUT) + r.len) % 2 ^ 64 ∧
            (w.chanAt b c).outstanding = (u.chanAt b c).outstanding.filter (fun q => q.id != id)) ∧
          ∀ (x : Nat) (bs : List Byte), r.target = some (.device x) → r.net = none → r.back = none → r.data = some bs →
            t.readBytes x bs.length = bs)) ∧
    (∀ (r : Row) (rest : List Row) (u : State), ch.rows = r :: rest → ch.deliverable = true →
      s.deliver b (chanWriter b c) ch.desc.peer ch.desc.peerChannel (ch.desc.rowAddr r.num) (r.bytes.map some)
        (decide (r.num + 1 = ch.desc.rows) && ch.desc.toPort) = some u → ch.fault = none →
      Completes (exec (.streamRowAccept b c) s) fun t => t.mem = s.mem ∧ ∃ w : State, t = w.settle b c ∧
        (w.chanAt b c).rows = rest ∧ (w.chanAt b c).accepted = (u.chanAt b c).accepted + 1 ∧
        w.rd64 (strReg b Reg.STR_BYTES_OUT) = (s.rd64 (strReg b Reg.STR_BYTES_OUT) + r.bytes.length) % 2 ^ 64) ∧
    (∀ (w : Writer) (bytes : List Byte) (done : Bool) (rest : List Arrival), ch.arrivals = .record w bytes done :: rest →
      (∀ v bs, rest.head? ≠ some (.ends v bs)) → exec (.storeRecordReceive b c) s =
        .next ((s.setChan b c { ch.land w bytes done with arrivals := rest }).settle b c)) ∧
    (∀ (w : Writer) (bs : List Nat) (rest : List Arrival), ch.arrivals = .ends w bs :: rest →
      exec (.storeRecordReceive b c) s =
        .next ((s.setChan b c ({ ch with arrivals := rest }.completeStages bs)).settle b c))

/-- Every command of a bay's list has its effect, and barriers gather and release their bays. A pass command hands its
descriptor to the tile with the next pass index and waits; a vector program is loaded and starts at packet 0 with
cleared lanes, or waits while one runs, and one whose section is malformed ends the job when it is reached; a wait for it completes once it has ended; a layer opens; an event is counted;
a bay arrives at a barrier once its outputs are written; end finishes the bay once its passes, streams and program
have ended. An arrival message short of the barrier's count is noted and the one that meets it releases every bay at the
barrier; a release message completes the bay's command; a message that the network answers with an error changes nothing
else (the model's choice, log entry 134); a barrier over its limit ends the job with 0x84.
(07_sequencers_and_jobs.md (R146 to R148); 04_pass_timing.md (R88); 05_vector_tiles.md (R92, R96)) -/
def Obligations.SequencerCommandsComplete : Prop :=
  (∀ (b : Bay) (m m' : MemFind) (j c : Nat) (v : Job) (s u : State),
    (s.fetched b 1 m m' j v c u → cmdUnit c ≤ 7 → bitOf (u.bayAt b).tiles (cmdUnit c) = true → offOk v c 32 96 = true →
      ∀ (r : MemAns) (w : State), u.imgRead (seqAgent b) v (cmdDesc c) 96 m' = (r, w) → r.status = 0 →
      Completes (exec (.passCmd b m) s) fun t => t = { w with mtx := t.mtx, bays := t.bays } ∧
        t.mtxAt (b * 8 + cmdUnit c) = { w.mtxAt (b * 8 + cmdUnit c) with
          handed := (w.mtxAt (b * 8 + cmdUnit c)).handed ++ [.mk (u.bayAt b).passIndex (u.bayAt b).layer (u.bayAt b).next
            ((List.range 24).map (fun i => BitVec.ofNat 32 (imgN r.data (4 * i) 4)))] } ∧
        t.bayAt b = { w.bayAt b with waiting := true, passIndex := (u.bayAt b).passIndex + 1 }) ∧
    (s.fetched b 3 m m' j v c u → (u.bayAt b).vector = true →
      cmdDesc c % 8 = 0 → cmdDesc c + 8 ≤ v.hdr.bytes →
      ∀ (h : MemAns) (w : State), u.fetchDesc b v (cmdDesc c) 8 m' = (h, w) → h.status = 0 →
      (sectionPackets v (cmdDesc c) h.data = none → exec (.vprog b m) s = .next (w.badCommand b)) ∧
      (∀ n, sectionPackets v (cmdDesc c) h.data = some n →
        ((w.vecAt b).active = true → exec (.vprog b m) s = .next w) ∧
        (∀ (a : MemAns) (x : State), (w.vecAt b).active = false →
          w.loadPackets b v (cmdDesc c) n (if (u.bayAt b).desc.isSome then m' else m'.rest) = (a, x) → a.status = 0 →
          Completes (exec (.vprog b m) s) fun t => t = { x with vec := t.vec, bays := t.bays } ∧
            t.vecAt b = { (x.vecAt b).start with state := .running } ∧ t.bayAt b = { x.bayAt b with
              vprogOff := some (cmdDesc c), next := (x.bayAt b).next + 1, waiting := false, desc := none }))) ∧
    (s.fetched b 4 m m' j v c u → (u.bayAt b).vector = true → Completes (exec (.vwait b m) s) fun t =>
      ((u.vecAt b).active = true → t = u) ∧ ((u.vecAt b).active = false → t = u.cmdDone b)) ∧
    (s.fetched b 5 m m' j v c u → Completes (exec (.layer b m) s) fun t => t = { u with bays := t.bays } ∧
      t.bayAt b = { u.bayAt b with
        layer := cmdArg c, layerOpen := true, next := (u.bayAt b).next + 1, waiting := false, desc := none }) ∧
    (s.fetched b 6 m m' j v c u → cmdArg c < v.hdr.barriers → Completes (exec (.barrierCmd b m) s) fun t =>
      (u.outputsWritten b = false → t = u) ∧ (u.outputsWritten b = true → t = { u with bays := t.bays } ∧
        t.bayAt b = { u.bayAt b with waiting := true, barrier := some (cmdArg c) })) ∧
    (s.fetched b 7 m m' j v c u → ∀ (x : Job) (n : Nat) (g : State), u.jobAt j = some x →
      u.messageTrip (seqAgent b) (u.leadAgent v) = (n, g) → Completes (exec (.eventCmd b m) s) fun t =>
      t.jobAt j = some { x with events := x.events + if n = 0 then 1 else 0 } ∧
      t.bayAt b = { u.bayAt b with next := (u.bayAt b).next + 1, waiting := false, desc := none } ∧
      t = { g with jobs := t.jobs, bays := t.bays }) ∧
    (s.fetched b 15 m m' j v c u → Completes (exec (.seqEnd b m) s) fun t =>
      ((u.passesEnded b = true ∧ (u.vecAt b).active = false ∧ ∀ i < 16, (u.chanAt b i).live = false) →
        t = { u with bays := t.bays } ∧ t.bayAt b = { u.bayAt b with finished := true, running := false }) ∧
      ((u.passesEnded b = false ∨ (u.vecAt b).active = true ∨ ∃ i < 16, (u.chanAt b i).live = true) → t = u))) ∧
  (∀ (b : Bay) (j k : Nat) (v : Job) (s : State), (s.bayAt b).job = some j → s.jobAt j = some v → v.phase = .running →
    (s.bayAt b).barrier = some k →
    (∀ (m : MemFind) (n : Nat) (g : State), (k, (s.bayAt b).logical) ∉ v.arrivals →
      (k, (s.bayAt b).logical) ∉ v.released → s.messageTrip (seqAgent b) (s.leadAgent v) = (n, g) → n ≠ 0 →
      exec (.barrierArrival b m) s = .next g) ∧
    (∀ (m : MemFind) (g : State) (r : MemAns) (u : State), (k, (s.bayAt b).logical) ∉ v.arrivals →
      (k, (s.bayAt b).logical) ∉ v.released → s.messageTrip (seqAgent b) (s.leadAgent v) = (0, g) →
      g.imgRead (s.leadAgent v) v (v.hdr.barrierOff + 4 * k) 4 m = (r, u) → r.status = 0 →
      let arr := v.arrivals ++ [(k, (s.bayAt b).logical)]
      let here := arr.filter (fun a => a.1 == k)
      (here.length < bitsOf (bytesNat r.data) 10 0 →
        exec (.barrierArrival b m) s = .next (u.setJob j { v with arrivals := arr })) ∧
      (bitsOf (bytesNat r.data) 10 0 ≤ here.length → exec (.barrierArrival b m) s = .next (u.setJob j
        { v with arrivals := arr.filter (fun a => a.1 != k), released := v.released ++ here }))) ∧
    ((k, (s.bayAt b).logical) ∈ v.released → ∀ (n : Nat) (g : State),
      s.messageTrip (s.leadAgent v) (seqAgent b) = (n, g) →
      (n ≠ 0 → exec (.barrierRelease b) s = .next g) ∧
      (n = 0 → Completes (exec (.barrierRelease b) s) fun t =>
        t.jobAt j = some { v with released := v.released.erase (k, (s.bayAt b).logical) } ∧
        t.bayAt b = { s.bayAt b with barrier := none, next := (s.bayAt b).next + 1, waiting := false, desc := none } ∧
        t = { g with jobs := t.jobs, bays := t.bays }))) ∧
  (∀ (j k : Nat) (v : Job) (s : State), s.jobAt j = some v → v.hdr.barrierLimit ≠ 0 → v.phase = .running →
    (∃ a ∈ v.arrivals, a.1 = k) →
    exec (.barrierLimitExpiry j k) s = .next ((s.leadFlag v 4).failJob j 0x84 none 0))

/-- Jobs are dispatched, placed, loaded, checkpointed and ended, and partitions are reset. The first queued job of the
highest class is dispatched with the header and the declared streams of its checked image, or with those of its pinned
handle. One that fits the free quarters runs on them and leaves its queue; one that fits only quarters in use waits. A
packet that a bay did not take leaves its load as it was; one it took moves its load on, and the last one completes it,
the packet standing in its target. A load without an answer is tried again three times, and then fails the job with
0x83. The last end message ends the job; the time limit fails it with 0x85. An invalidation drops the translations it
covers, begins the walks it covers anew, and completes when no request waits. A zeroed quarter's crema, buffers,
accumulators and data memories read zero. A stopped bay writes its record. A reset of a partition not enabled is
refused, one in reset is absorbed, and the end of a reset clears its bit and is told to the owning function.
(07_sequencers_and_jobs.md (R149, R151 to R154, R157 to R165); 14_host_interface.md (R326, R334, R336);
15_control_sets_and_mailboxes.md (R349)) -/
def Obligations.JobCommandsComplete : Prop :=
  (∀ (j : Nat) (v : Job) (s : State), s.jobAt j = some v →
    (∀ m : MemFind, v.phase = .queued → (s.queuedAt (· == .queued) v.part v.cls).head? = some j →
      (∀ c < v.cls, s.queuedAt (· == .queued) v.part c = []) →
      (∀ h p, v.handle = some h → s.pins.find? (fun e => e.1 == 16 * v.ent.func + h) = some p →
        exec (.jobDispatch j m) s =
          .next (s.setJob j { v with phase := .waiting, hdr := p.2.hdr, plan := imgPlan p.2.image p.2.hdr })) ∧
      (∀ c st bs u, v.handle = none → s.checkImage (s.leadAgent v) v.image m = (c, st, bs, u) →
        Completes (exec (.jobDispatch j m) s) fun t => c = 0 → v.wrongVersion (jobHeader bs).ver = false →
          t = u.setJob j { v with phase := .waiting, hdr := jobHeader bs, plan := imgPlan bs (jobHeader bs) })) ∧
    (∀ (m : MemFind) (bad : Nat × MemFind) (r : MemAns) (es : List BayEntry) (u : State),
      v.phase = .waiting ∨ v.phase = .preempted →
      let open_ (p : JobPhase) : Bool := p == .queued || p == .waiting || p == .preempted
      (s.queuedAt open_ v.part v.cls).head? = some j → (∀ c < v.cls, s.queuedAt open_ v.part c = []) →
      s.bayEntries v m = (r, es, u) → r.status = 0 →
      (u.fill (byQuarter v.hdr.quarters es) (u.freeQuarters v.part) = none →
        v.resumed = true ∨ u.fill (byQuarter v.hdr.quarters es) (u.partQuarters v.part) ≠ none →
        exec (.jobPlacement j m bad) s = .next u) ∧
      (∀ qs c cmds w, u.fill (byQuarter v.hdr.quarters es) (u.freeQuarters v.part) = some qs → v.resumed = false →
        u.cmdLists v es = (c, cmds, w) → c.status = 0 → Completes (exec (.jobPlacement j m bad) s) fun t =>
          (∃ x, t.jobAt j = some x ∧ x.placed = qs ∧ x.phase = .running ∧ x.hdr = v.hdr ∧ x.ent = v.ent) ∧
          j ∉ t.queueOf v.part v.cls)) ∧
    (∀ (l : BayLoad) (m : MemFind), v.phase = .running → v.loads.find? (fun x => x.lb == l.lb) = some l →
      exec (.multicastAck j l.lb none) s = .next s ∧
      (∀ r u, s.bayParts v l.lb m = (r, u) → r.status = 0 →
        let b := v.bays.getD l.lb 0
        (u.1.length ≤ l.part → Completes (exec (.multicastAck j l.lb (some m)) s) fun t =>
          ∃ x, t.jobAt j = some x ∧ x.loads = v.loads.filter (fun y => y.lb != l.lb)) ∧
        (∀ x n w, u.1[l.part]? = some x →
          let q := u.2.mcastIssue (u.2.loadPacket v b l.tries x)
          let v' := if l.first then v.loadSent l else v
          (if l.first then q.2.setJob j v' else u.2).mcastTrip q.1 b = (n, w) →
          (n ≠ 0 → exec (.multicastAck j l.lb (some m)) s = .next w) ∧
          (n = 0 → Completes (exec (.multicastAck j l.lb (some m)) s) fun t =>
            ∃ y, t.jobAt j = some y ∧ y.loads = (v'.took l.lb (l.part + 1) (decide (u.1.length ≤ l.part + 1))).loads))) ∧
      (l.tries < 3 → Completes (exec (.multicastRetry j l.lb) s) fun t => t.jobAt j = some { v with
        loads := v.loads.map (fun x => if x.lb == l.lb then { x with tries := l.tries + 1, tried := false } else x) } ∧
        t = { s with jobs := t.jobs, regs := t.regs }) ∧
      (3 ≤ l.tries → exec (.multicastRetry j l.lb) s = .next ((s.leadFlag v 5).failJob j 0x83 none 0))) ∧
    (v.hdr.timeLimit ≠ 0 → v.started = true → v.status = 0 → v.phase = .running ∨ v.phase = .preempting →
      exec (.timeLimitExpiry j) s = .next ((s.leadFlag v 3).failJob j 0x85 none 0)) ∧
    (∀ b : Bay, (s.bayAt b).job = some j → (s.bayAt b).finished = true → (s.bayAt b).logical ∉ v.ended →
      ∀ (n : Nat) (g : State), s.messageTrip (seqAgent b) (s.leadAgent v) = (n, g) →
      let u := g.setJob j { v with ended := v.ended ++ [(s.bayAt b).logical] }
      (n ≠ 0 → v.phase = .running ∨ v.phase = .ending → exec (.bayEndMsg b) s = .next g) ∧
      (n = 0 → v.phase = .running ∨ v.phase = .ending →
        exec (.bayEndMsg b) s = .next (if 16 * v.hdr.quarters ≤ v.ended.length + 1 then u.finishJob j else u)) ∧
      (n = 0 → v.phase = .preempting → (∀ x ∈ v.bays, (s.bayAt x).finished = true) → exec (.bayEndMsg b) s =
        .next (if 16 * v.hdr.quarters ≤ v.ended.length + 1 then (u.clearRecords v).finishJob j else u))) ∧
    (∀ (b : Bay) (m : MemFind) (us : Nat), (s.bayAt b).job = some j → v.phase = .preempting →
      (s.bayAt b).recorded = false → s.bayStopped b = true → (∃ x ∈ v.bays, x ≠ b.val ∧ (s.bayAt x).recorded = false) →
      (∃ x ∈ v.bays, (s.bayAt x).finished = false) →
      let r := (s.each (List.range 4) (fun s p => s.closePort b p)).writeRecord b (s.ckptAddr v.part (s.bayAt b).logical)
        v.ent.tag m
      Completes (exec (.checkpointRecordWrite b m us) s) fun t =>
        (r.1.status = 0 → t.bayAt b = { s.bayAt b with recorded := true, stopped := true } ∧ t.jobAt j = some v ∧
          t.mem = r.2.mem) ∧
        (r.1.status ≠ 0 → t = (r.2.leadFlag v 7).failJob j 0x25 none 0))) ∧
  (∀ (b : Bay) (part lo hi : Nat) (s : State), Completes (exec (.translationInvalidate b part lo hi) s) fun t =>
    (∀ e, e ∈ (t.bayAt b).tlb ↔ e ∈ (s.bayAt b).tlb ∧ e.covered part lo hi = false) ∧
    (∀ e, e ∈ t.bar4Tlb ↔ e ∈ s.bar4Tlb ∧ e.covered part lo hi = false) ∧ t.mem = s.mem ∧
    (∀ c < 16, ∀ w, (s.chanAt b c).walk = some w → s.bayPart b = part → lo < w.req.addr + w.req.len → w.req.addr ≤ hi →
      ∃ x, (t.chanAt b c).walk = some x ∧ x.req = w.req ∧ x.level = 0) ∧
    ((∀ c < 16, (s.chanAt b c).walk = none) → t = { s with bays := t.bays, bar4Tlb := t.bar4Tlb })) ∧
  (∀ (b : Bay) (i : Invalidation) (rest : List Invalidation) (s : State), (s.bayAt b).invalidations = i :: rest →
    (∀ w ∈ i.waits, ∀ r ∈ (s.chanAt b w.1).flying, r.id ≠ w.2) →
    exec (.invalidationComplete b) s = .next (s.setBay b { s.bayAt b with invalidations := rest })) ∧
  (∀ (q : Quarter) (s : State), s.quarterResetting q = true → s.inReset q = false → s.quarterBusy q = false →
    Completes (exec (.quarterZeroed q) s) fun t => t.quarterResetting q = false ∧
      (∀ b ∈ baysOfQuarter q, (t.vecAt b).dmem = [] ∧
        (∀ i < 8, (t.mtxAt (b * 8 + i)).buf = [] ∧ (t.mtxAt (b * 8 + i)).acc = []) ∧
        ∀ a, cremaAddr b 0 ≤ a → a < cremaAddr b 0x3000000 → t.readByte a = 0) ∧
      (∀ a, (∀ b ∈ baysOfQuarter q, a < cremaAddr b 0 ∨ cremaAddr b 0x3000000 ≤ a) → t.readByte a = s.readByte a)) ∧
  (∀ (p : Fin 16) (s : State),
    ((s.part p).enabled = false → Completes (exec (.partitionReset p) s) fun t =>
      OnlyRegs s t [regKey .ctl Reg.CTL_ERR_FLAGS, regKey .ctl Reg.CTL_FAULT_COUNT] ∧
      t.rbit (regKey .ctl Reg.CTL_ERR_FLAGS) 4 = true) ∧
    ((s.part p).enabled = true → s.rbit (regKey .ctl Reg.CTL_PART_RESETTING) p = true →
      exec (.partitionReset p) s = .next s) ∧
    ((s.part p).enabled = true → s.rbit (regKey .ctl Reg.CTL_PART_RESETTING) p = false →
      exec (.partitionReset p) s = .next (s.resetPartition p)) ∧
    (s.rbit (regKey .ctl Reg.CTL_PART_RESETTING) p = true → Completes (exec (.partitionResetEnd p) s) fun t =>
      t.rbit (regKey .ctl Reg.CTL_PART_RESETTING) p = false ∧ t.mem = s.mem ∧ t.jobs = s.jobs ∧
      ∃ u : State, t = u.event (tget (fun _ => 0) s.resets p / 2 ^ 64) 1 p 0 ∧ u.out = s.out))

/-- A configuration stream is taken, opened, read command by command, committed and verified. A header that fits, for
free dies and under admitted rules, is accepted and every die it names takes the load under the stream's key and the
hash of the header; one that does not is refused with 0x50, and one for a die under load with 0x88, which comes before
what stands on the die for a partial request. A segment command of the expected number and length seals the
segment; a segment whose tag verifies becomes text, one whose tag does not fails the load as unauthentic. NOP, REGW,
FADDR and FDATA leave their commands' effect on the load; KEYROLL rolls key and chain; END with every frame written
verifies; a supplied frame is committed with its check bits, its column configures what it says, and it is counted; SIG that ends the stream awaits the signatures. Abort fails a
load not yet being released, and does nothing without one. (09_configuration_loading.md (R203 to R211, R216 to R221);
17_security.md (R386)) -/
def Obligations.ConfigurationStreamsComplete : Prop :=
  (∀ (l : Nat) (m : MemFind) (v : CfgLoad) (r : MemAns) (s u : State), s.loadAt l = some v → v.accepted = false →
    260 ≤ v.bytes → s.readLong ryhalAgent v.addr 260 m = (r, u) → r.status = 0 → let h := r.data.drop 4
    let form := u.headerForm v (imgN r.data 0 4) h
    let free : Prop := ∀ d ∈ hdrDies h, (u.cfgAt d).load = none
    (form = true → u.headerFits v h = true → free →
      ∀ key w, u.streamRules (bitsOf (hdrW h 0x1C) 31 24) (bitsOf (hdrW h 0x1C) 23 16) (hdrW h 0x20)
        ((h.drop 0x28).take 40) = (0, key, w) → Completes (exec (.header l m) s) fun t =>
        (∃ x, t.loadAt l = some x ∧ x.accepted = true ∧ x.dies = hdrDies h ∧ x.ent = v.ent) ∧
        (∀ d ∈ hdrDies h, ∃ x, (t.cfgAt d).load = some x ∧ x.load = l ∧ x.stage = .clear ∧ x.seg = 0 ∧ x.key = key ∧
          x.chain = sha512 h ∧ x.pos = 260 ∧ t.rd (cfgReg d Reg.CFG_FRAMES) = 0) ∧ t.mem = w.mem) ∧
    (form = false ∨ u.headerFits v h = false ∧ (free ∨ bitsOf (hdrW h 4) 22 21 = 0) →
      exec (.header l m) s = .next (u.refuseLoad l v 0x50 (hdrDies h))) ∧
    (form = true → ¬ free → u.headerFits v h = true ∨ bitsOf (hdrW h 4) 22 21 = 1 →
      exec (.header l m) s = .next (u.refuseLoad l v 0x88 (hdrDies h)))) ∧
  (∀ (d : Die) (x : DieLoad) (v : CfgLoad) (s : State),
    (∀ (m : MemFind) (r : MemAns) (u : State), s.dieLoad d .clear = some (x, v) → x.seg < v.segments →
      x.pos + 8 ≤ v.bytes → s.readLong (s.cfgAgent d) (v.addr + x.pos) 8 m = (r, u) → r.status = 0 →
      imgN r.data 0 4 = 0x50000000 + x.seg → imgN r.data 4 4 % 4 = 0 → 8 ≤ imgN r.data 4 4 → imgN r.data 4 4 ≤ 1048576 →
      exec (.seg d m) s = .next (u.setDieLoad d { x with stage := .sealed, segCmd := r.data, segLen := imgN r.data 4 4 })) ∧
    (∀ (m : MemFind) (r : MemAns) (u : State), s.dieLoad d .sealed = some (x, v) → x.pos + 24 + x.segLen ≤ v.bytes →
      s.readLong (s.cfgAgent d) (v.addr + x.pos + 8) (x.segLen + 16) m = (r, u) → r.status = 0 →
      let opened := gcmOpen x.key (v.imageId ++ natBytes 4 x.seg) (x.chain ++ x.segCmd) (r.data.take x.segLen)
        (r.data.drop x.segLen)
      (opened = none → x.queue = [] → exec (.segmentAuthenticated d m) s = .next (u.failLoad d 4 0x71 0)) ∧
      (∀ text, opened = some text →
        imgN text (text.length - 4) 4 = (if x.seg + 1 = v.segments then 0x70000000 else 0x60000000) →
        exec (.segmentAuthenticated d m) s = .next (u.setDieLoad d { x with
          stage := .text, text := text, tag := r.data.drop x.segLen, pos := x.pos + 24 + x.segLen }))) ∧
    (s.dieLoad d .text = some (x, v) → let w := imgN x.text 0 4
      (w = 0 → 4 ≤ x.text.length → exec (.cfgNop d) s = .next (s.setDieLoad d { x with text := x.text.drop 4 })) ∧
      (∀ n, 0 < n → n < 256 → w = 0x20000000 + n → 4 + 8 * n ≤ x.text.length →
        let ps := (List.range n).map (fun i => (argWord x (1 + 2 * i), argWord x (2 + 2 * i)))
        (∀ p ∈ ps, regwOk v p = true) → exec (.regw d) s = .next (s.setDieLoad d { x with
          text := x.text.drop (4 * (1 + 2 * n)), regw := x.regw ++ ps })) ∧
      (w = 0x30000000 → 8 ≤ x.text.length →
        (s.frameAllowed d v (argWord x 1) = true → exec (.faddr d) s = .next (s.setDieLoad d { x with
          text := x.text.drop 8, faddr := some (argWord x 1) })) ∧
        (s.frameAllowed d v (argWord x 1) = false → x.queue = [] →
          exec (.faddr d) s = .next (s.failLoad d 2 0x53 (argWord x 1)))) ∧
      (∀ n a, 0 < n → n ≤ 104 → w = 0x40000000 + n → 4 + 400 * n ≤ x.text.length → x.faddr = some a →
        faMinor a + n ≤ minorCount (faCol a) → exec (.fdata d) s = .next (s.setDieLoad d { x with
          text := x.text.drop (4 * (1 + 100 * n)), queue := x.queue ++ (List.range n).map (fun i =>
            (a + 128 * i, (x.text.drop (4 + 400 * i)).take 400)) })) ∧
      (w = 0x60000000 → x.text.length = 4 → x.seg + 1 < v.segments → exec (.keyroll d) s = .next (s.setDieLoad d
        { x with text := [], stage := .clear, seg := x.seg + 1, chain := sha512 (x.chain ++ x.tag),
                 key := kmac256 x.key (natBytes 8 (x.seg + 1)) "GARNOS CFG ROLL" })) ∧
      (w = 0x70000000 → x.queue ≠ [] → exec (.cfgEnd d) s = .next s) ∧
      (w = 0x70000000 → x.text.length = 4 → x.queue = [] → x.seg + 1 = v.segments → s.framesDone d x v = true →
        Completes (exec (.cfgEnd d) s) fun t => (∃ y, (t.cfgAt d).load = some y ∧ y.stage = .ended ∧ y.key = [] ∧
            y.chain = sha512 (x.chain ++ x.tag)) ∧
          (if v.isPartial then t.regionState d v.region = 3 else t.dieState d = 2))) ∧
    (∀ (m : MemFind) (r : MemAns) (u : State), s.dieLoad d .ended = some (x, v) → x.pos + 3380 = v.bytes →
      s.readLong (s.cfgAgent d) (v.addr + x.pos) 3380 m = (r, u) → r.status = 0 → imgN r.data 0 4 = 0x80000000 →
      (∀ y ∈ r.data.drop 3377, y = 0) →
      exec (.sig d m) s = .next (u.setDieLoad d { x with stage := .signed, text := r.data })) ∧
    (∀ a data rest, (s.cfgAt d).load = some x → x.queue = (a, data) :: rest → s.loadAt x.load = some v →
      s.frameAllowed d v a = true → a ∉ x.written →
      ¬ (faCol a < 800 ∧ (faMinor a = 3 ∨ faMinor a = 4)) → Completes (exec (.frameCommit d) s) fun t =>
        (t.cfgAt d).load = some { x with queue := rest, written := x.written ++ [a] } ∧
        (t.cfgAt d).frameAt (a / 128) = data ∧
        (∀ k, k ≠ a / 128 → (t.cfgAt d).frameAt k = (s.cfgAt d).frameAt k) ∧
        (∃ col, (a / 128, Frame.mk (if v.isPartial then v.region else 64) data (frameCheck (some col) a data)) ∈
          (t.cfgAt d).frames ∧ (faCol a < 832 → (t.cfgAt d).colAt (faRow a) (faCol a) = some col)) ∧
        t.rd (cfgReg d Reg.CFG_FRAMES) = s.rd (cfgReg d Reg.CFG_FRAMES) + 1 ∧ t = { s with cfgs := t.cfgs, regs := t.regs }) ∧
    ((s.cfgAt d).load = none → exec (.abortLoad d) s = .next s) ∧
    ((s.cfgAt d).load = some x → x.stage ≠ .releasing →
      exec (.abortLoad d) s = .next (s.failLoad d 0x400 0x56 0)))

/-- Verified dies are released and run, and frames are scrubbed. Where both signatures over a load's chain verify, its
waiting die begins its release; where they do not, its load fails as badly signed. When the borders open the load
leaves the die, the die or its region runs, and the release is counted. The scrubber reads the next frame of a
released die: a clean one only moves it on; an upset within eight adjacent bits, none of them user state, waits for its
write-back, which counts it, an essential one of a region that does not run without a flag (the model's reading, log entry
63); a wider one is counted as uncorrectable and not written back. A region in essential reset
runs again at its end. (09_configuration_loading.md (R209, R213, R216 to R218, R222 to R226)) -/
def Obligations.ReleaseAndScrubbingComplete : Prop :=
  (∀ (l d : Nat) (x : DieLoad) (v : CfgLoad) (s : State), s.loadAt l = some v → v.dies = [d] →
    (s.cfgAt d).load = some x → x.load = l → x.stage = .signed →
    let ok := (s.secState == 1 || s.secState == 3) &&
      s.secStore.bothVerify v.slot x.chain ((x.text.drop 4).take 64) ((x.text.drop 68).take 3309)
    Completes (exec (.signatureReport l) s) fun t =>
      (ok = true → (t.cfgAt d).load = some { x with stage := .releasing } ∧ t.mem = s.mem) ∧
      (ok = false → ∃ u : State, t = u.failLoad d 8 0x72 0 ∧ u.cfgs = s.cfgs ∧ u.loads = s.loads ∧ u.mem = s.mem)) ∧
  (∀ (d : Die) (x : DieLoad) (v : CfgLoad) (s : State), s.dieLoad d .releasing = some (x, v) →
    Completes (exec (.borderOpen d) s) fun t => (t.cfgAt d).load = none ∧ t.mem = s.mem ∧
      (v.isPartial = true → v.region < 64 → t.regionState d v.region = 1) ∧
      (v.isPartial = false → t.dieState d = 3 ∧ t.rbit (lgaReg d Reg.LGA_STATUS) 8 = true) ∧
      t.rd (cfgReg d Reg.CFG_LOADS) = s.rd (cfgReg d Reg.CFG_LOADS) + 1) ∧
  (∀ (d : Die) (m : MemFind) (s : State), s.dieState d = 3 → (s.cfgAt d).fix = none → let k := (s.cfgAt d).scrub
    (∀ n, nextScrub d k = some n →
      exec (.scrubRead d [] [] m) s = .next (s.setCfg d { s.cfgAt d with scrub := n }) ∧
      ∀ (data : List (Fin 3200)) (check : List (Fin 32)),
        let bits := data.map (·.val) ++ check.map (3200 + ·.val)
        bits ≠ [] → (∀ i ∈ data, userBit ((s.cfgAt d).colAt (k / 2 ^ 17) (k / 128 % 1024)) (k * 128) i = false) →
        Completes (exec (.scrubRead d data check m) s) fun t => (t.cfgAt d).scrub = n ∧ (t.cfgAt d).frames = (s.cfgAt d).frames ∧
          ((∀ i ∈ bits, ∀ j ∈ bits, j < i + 8) → ∃ ws e, (t.cfgAt d).fix = some (k, ws, e)) ∧
          ((∃ i ∈ bits, ∃ j ∈ bits, i + 8 ≤ j) → (t.cfgAt d).fix = none ∧
            t.rd (cfgReg d Reg.CFG_UPSET_UE_COUNT) = s.rd (cfgReg d Reg.CFG_UPSET_UE_COUNT) + 1)) ∧
    (nextScrub d k = none → Completes (exec (.scrubRead d [] [] m) s) fun t => (t.cfgAt d).scrub = 0 ∧
      t.rd (cfgReg d Reg.CFG_SCRUB_SWEEPS) = s.rd (cfgReg d Reg.CFG_SCRUB_SWEEPS) + 1)) ∧
  (∀ (d : Die) (a : Nat) (ws : List Nat) (ess : Bool) (s : State), (s.cfgAt d).fix = some (a, ws, ess) →
    let idle : Prop := ∃ r, s.frameRegion d a = some r ∧ s.regionState d r ≠ 1
    Completes (exec (.scrubWriteBack d) s) fun t => (t.cfgAt d).fix = none ∧
      t.rd (cfgReg d Reg.CFG_UPSET_CE_COUNT) = s.rd (cfgReg d Reg.CFG_UPSET_CE_COUNT) + 1 ∧
      (ess = false → t.rbit (cfgReg d Reg.CFG_ERR_FLAGS) 6 = true ∧
        OnlyRegs (s.setCfg d { s.cfgAt d with fix := none }) t [cfgReg d Reg.CFG_UPSET_CE_COUNT, cfgReg d Reg.CFG_ERR_FLAGS]) ∧
      (ess = true → t.rd (cfgReg d Reg.CFG_UPSET_ESS_COUNT) = s.rd (cfgReg d Reg.CFG_UPSET_ESS_COUNT) + 1 ∧
        (idle → OnlyRegs (s.setCfg d { s.cfgAt d with fix := none }) t
          [cfgReg d Reg.CFG_UPSET_CE_COUNT, cfgReg d Reg.CFG_UPSET_ESS_COUNT]) ∧
        (¬ idle → t.rbit (cfgReg d Reg.CFG_ERR_FLAGS) 6 = true ∧ t.rbit (cfgReg d Reg.CFG_ERR_FLAGS) 7 = true))) ∧
  (∀ (d : Die) (r : Fin 64) (s : State), s.regionState d r = 5 → Completes (exec (.essResetEnd d r) s) fun t =>
    t.regionState d r = 1 ∧ (∀ q < 64, q ≠ r.val → t.regionState d q = s.regionState d q) ∧
    OnlyRegs { s with lines := t.lines, contending := t.contending, flops := t.flops, clkSeen := t.clkSeen
                      clkEdges := t.clkEdges } t [cfgReg d (Reg.CFG_REGION_STATE + 4 * (r / 8))])

/-- Requests are injected, served, answered and timed out, and endpoints are isolated. An injected request is
outstanding under the set of its domain, or waits at its injection port beyond 32 Ristretto requests. A read, write or
atomic of crema that reaches its target is answered with what memory answers; one of LPDDR5X enters its bank's queue, or
waits while that holds 16, and is served when the controller picks it, a full-chunk write being acknowledged as it
enters, a later read of its bytes being answered from the queue, and its bytes being stored in its turn; an address beyond a slice is a hole; a message is delivered; at an isolated endpoint each is
answered with 0x23 and nothing is done. A multicast copy is answered and its last answer completes the request. A
response, which a crossing that is down on its way turns into 0x23, or a time-out is handed to the initiator once, and a
late response is dropped. Isolation sets the bits and
answers all that waits there; its end clears them; map_lock sets. A replayed flit of a router is counted, and the
sixteenth failed replay in a row takes the crossing down. (10_tile_network.md (R229 to R231, R234 to R245);
11_crema_and_lpddr.md (R258); 07_sequencers_and_jobs.md (R154); 12_eovaol_fabric.md (R281)) -/
def Obligations.NetworkCommandsComplete : Prop :=
  (∀ (p : NocPacket) (s : State), s.tagBusy p = false → nocPacketOk p = true →
    let set := s.tagSet s.nextNoc p
    let c := (s.travelClass set p).1
    Completes (exec (.nocInject p) s) fun t => t.nextNoc = s.nextNoc + 1 ∧
      t = { s with regs := t.regs, noc := t.noc, nextNoc := t.nextNoc } ∧
      ∃ v, t.nocAt s.nextNoc = some v ∧ v.pkt = p ∧ v.gone = false ∧ v.delivered = false ∧
        (c = 0 → 32 ≤ s.risOutstanding p → v.waiting = true ∧ v.answer = none ∧ t.regs = s.regs) ∧
        (c ≠ 0 ∨ s.risOutstanding p < 32 → v.waiting = false ∧ v.cls = c ∧ v.set = set ∧
          v.targets = if p.type.val = 4 then multicastBays p.payload else [])) ∧
  (∀ (n : Nat) (v : NocReq) (s : State), s.nocAt n = some v → v.answer = none → v.waiting = false → s.behind n v = false →
    (∀ x ∈ s.bankQ, x.noc ≠ n ∨ x.posted = false) →
    (s.dstIsolated v.pkt = true → ∀ m : MemFind, ∀ c ∈ [Instr.nocRead n m, .nocWrite n m, .nocAtomic n m, .nocMessage n],
      (c = Instr.nocRead n m → v.pkt.type = 0) → (c = .nocWrite n m → v.pkt.type = 1) →
      (c = .nocAtomic n m → v.pkt.type = 2) → (c = .nocMessage n → v.pkt.type = 3) → Completes (exec c s) fun t =>
        t.nocAt n = some { v with answer := some (0x23, []) } ∧ t = { s with noc := t.noc, regs := t.regs }) ∧
    (s.dstIsolated v.pkt = false →
      (∀ (m : MemFind) (A : Nat) (a : MemAns) (u : State), s.cellFor v.pkt = .memory A → s.bankOf A = none →
        (v.pkt.type = 0 → s.memRead (homeEdge v.pkt.src) A v.pkt.bytes (m.of v.cls) = (a, u) →
          exec (.nocRead n m) s = .next (u.reply n v a)) ∧
        (v.pkt.type = 1 → s.memWrite (homeEdge v.pkt.src) A v.pkt.payload (m.of v.cls) = (a, u) →
          exec (.nocWrite n m) s = .next (u.reply n v a)) ∧
        (∀ w, v.pkt.type = 2 → atomicWidth v.pkt.atomicOp = some w → A % w = 0 →
          s.memUpdate (homeEdge v.pkt.src) A w (fun old => atomicNew v.pkt.atomicOp w old v.pkt.payload) (m.of v.cls) =
            (a, u) → exec (.nocAtomic n m) s = .next (u.reply n v a))) ∧
      (∀ (m : MemFind) (A k row chunk : Nat), s.cellFor v.pkt = .memory A → s.bankOf A = some (k, row, chunk) →
        let queued (posted : Bool) (data : List Byte) : State :=
          { s with bankQ := s.bankQ ++ [BankItem.mk n (v.cls == 0) A posted data] }
        (v.pkt.type = 0 →
          (v.delivered = false → 16 ≤ (s.bankQueue k).length → exec (.nocRead n m) s = .next s) ∧
          (v.delivered = false → (s.bankQueue k).length < 16 →
            exec (.nocRead n m) s = .next ((queued false []).setNoc n { v with delivered := true })) ∧
          (∀ bs, v.delivered = true → s.queuedWrite n A v.pkt.bytes = some bs → exec (.nocRead n m) s =
            .next (({ s with bankQ := s.bankQ.filter (fun y => y.noc != n) } : State).done n v bs)) ∧
          (∀ x a u, v.delivered = true → s.queuedWrite n A v.pkt.bytes = none → s.pick k = some x → x.noc = n →
            (s.unqueue k x).memRead (homeEdge v.pkt.src) A v.pkt.bytes (m.of v.cls) = (a, u) →
            exec (.nocRead n m) s = .next (u.reply n v a))) ∧
        (v.pkt.type = 1 → v.delivered = false → (s.bankQueue k).length < 16 →
          (fullChunks A v.pkt.payload = true →
            exec (.nocWrite n m) s = .next ((queued true v.pkt.payload).done n v [])) ∧
          (fullChunks A v.pkt.payload = false →
            exec (.nocWrite n m) s = .next ((queued false []).setNoc n { v with delivered := true })))) ∧
      (∀ m : MemFind, s.cellFor v.pkt = .beyond →
        (v.pkt.type = 0 → exec (.nocRead n m) s = .next (s.reply n v ⟨0x21, v.pkt.addr, []⟩)) ∧
        (v.pkt.type = 1 → exec (.nocWrite n m) s = .next (s.reply n v ⟨0x21, v.pkt.addr, []⟩))) ∧
      (∀ (m : MemFind) (b a : Nat), s.cellFor v.pkt = .dmem b a →
        (v.pkt.type = 0 → exec (.nocRead n m) s = .next (s.done n v (tbytes (s.vecAt b).dmem a v.pkt.bytes))) ∧
        (v.pkt.type = 1 → Completes (exec (.nocWrite n m) s) fun t =>
          tbytes (t.vecAt b).dmem a v.pkt.payload.length = v.pkt.payload ∧ t.mem = s.mem)) ∧
      (v.pkt.type = 3 → s.cellFor v.pkt ≠ .global → exec (.nocMessage n) s =
        .next ((s.emit (.nocMessage v.pkt.dst v.pkt.dstEp v.pkt.payload)).done n v [])))) ∧
  (∀ (n k row chunk : Nat) (m : MemFind) (x : BankItem) (s : State),
    s.bankQ.find? (fun y => y.noc == n && y.posted) = some x → s.bankOf x.addr = some (k, row, chunk) →
    (s.pick k).map (·.noc) = some n → fullChunks x.addr x.data = true → Completes (exec (.nocWrite n m) s) fun t =>
      (∀ y ∈ t.bankQ, y.noc ≠ n) ∧ t.noc = s.noc ∧ t.readBytes x.addr x.data.length = x.data ∧
      MemKeptOutside s t x.addr x.data.length) ∧
  (∀ (n lat : Nat) (b : Bay) (v : NocReq) (s : State), s.nocAt n = some v → v.answer = none → v.waiting = false →
    v.pkt.type = 4 → b.val ∈ v.targets → Completes (exec (.nocMulticast n ⟨b, lat⟩) s) fun t =>
      t.nocAt n = some { v with
        targets := v.targets.filter (· != b.val)
        answer := if (v.targets.filter (· != b.val)).isEmpty then some (0, []) else none } ∧
      (v.gone = true → t.out = s.out) ∧
      (v.gone = false → ∃ st, t.out = s.out ++ [.nocAnswer v.pkt.src v.pkt.srcEp v.pkt.tag v.set st []])) ∧
  (∀ (n lat st : Nat) (sh : List (Fin 1024 × Nat)) (bs : List Byte) (v : NocReq) (s : State),
    s.nocAt n = some v → v.answer = some (st, bs) →
    (v.gone = true → exec (.nocResponse n ⟨lat, sh⟩) s =
      .next ((({ s with noc := terase s.noc n } : State).shapedAt v sh).lateTally v.pkt.src)) ∧
    (v.gone = false → (∀ f ∈ s.flights, f.noc ≠ n) → Completes (exec (.nocResponse n ⟨lat, sh⟩) s) fun t => t.nocAt n = none ∧
      (v.owner = .bare → v.pkt.type ≠ 4 → t = { s with noc := t.noc, out := t.out, regs := t.regs } ∧
        t.out = s.out ++ [.nocAnswer v.pkt.src v.pkt.srcEp v.pkt.tag v.set (s.answerMeets v.pkt v.yx st bs).1
          (s.answerMeets v.pkt v.yx st bs).2]) ∧
      (∀ b c id, v.owner = .stream b c id → t = { s with noc := t.noc, chans := t.chans, regs := t.regs } ∧
        t.chanAt b c = { s.chanAt b c with outstanding := (s.chanAt b c).outstanding.map (fun (r : Req) =>
          if r.id == id && r.net == some n then
            { r with back := some ((s.answerMeets v.pkt v.yx st bs).1, v.failAddr, (s.answerMeets v.pkt v.yx st bs).2) }
          else r) }))) ∧
  (∀ (n : Nat) (v : NocReq) (s : State), s.nocAt n = some v → v.gone = false → v.waiting = false → v.owner = .bare →
    (∀ f ∈ s.flights, f.noc ≠ n) → Completes (exec (.respTimeout n) s) fun t => t.nocAt n = some { v with gone := true } ∧
      t.out = s.out ++ [.nocAnswer v.pkt.src v.pkt.srcEp v.pkt.tag v.set 0x24 []] ∧
      t = { s with noc := t.noc, out := t.out, regs := t.regs }) ∧
  (∀ (b : Bay) (s : State),
    let waiting (e : Nat) (v : NocReq) : Prop := v.answer = none ∧ v.waiting = false ∧ v.pkt.type ≠ 4 ∧
      v.pkt.dstEp.val = e ∧ v.pkt.dst = .router (Fin.ofNat 1024 (routerOfBay b))
    (∀ (ep : Fin 32), s.rd (regKey (.noc b) Reg.NOC_DEAD_LIMIT) ≠ 0 → s.waitsAt b ep = true → s.epIsolated b ep = false →
      Completes (exec (.deadLimitExpiry b ep) s) fun t => t.rbit (regKey (.noc b) Reg.NOC_ISOLATED) ep = true ∧
        t.rbit (regKey (.noc b) Reg.NOC_ERR_FLAGS) 2 = true ∧
        ∀ n v, s.nocAt n = some v → waiting ep v → ∃ x, t.nocAt n = some x ∧ x.answer = some (0x23, [])) ∧
    (∀ (w : Word) (host : Bool), (host = true → s.fnReach 0 = true ∧ (s.fnAt 0).d3hot = false) →
      (∀ off, s.blockLive (.noc b) off = true) →
      (Completes (exec (.isolateSet b w host) s) fun t =>
        t.rd (regKey (.noc b) Reg.NOC_ISOLATED) = s.rd (regKey (.noc b) Reg.NOC_ISOLATED) ||| w ∧
        t = { s with regs := t.regs, noc := t.noc } ∧
        ∀ n v e, e < 32 → bitOf w.toNat e = true → s.nocAt n = some v → waiting e v →
          ∃ x, t.nocAt n = some x ∧ x.answer = some (0x23, [])) ∧
      (Completes (exec (.isolateClr b w host) s) fun t =>
        t.rd (regKey (.noc b) Reg.NOC_ISOLATED) = s.rd (regKey (.noc b) Reg.NOC_ISOLATED) &&& ~~~w ∧
        OnlyRegs s t [regKey (.noc b) Reg.NOC_ISOLATED]) ∧
      (Completes (exec (.mapLock b host) s) fun t => t.rbit (regKey (.noc b) Reg.NOC_CTRL) 1 = true ∧
        OnlyRegs s t [regKey (.noc b) Reg.NOC_CTRL]))) ∧
  (∀ (r : Fin 1024) (dir : Fin 4) (station again : Bool) (s : State), isCrossing r dir = true →
    (station = true → acrossRouter r dir = none) → s.linkDownOn [crossKey r dir] = false →
    let k := senderKey r dir station
    let n := if again then tget (fun _ => 0) s.crossings k + 1 else 0
    (n ≠ 16 → Completes (exec (.crossingCrcError r dir ⟨station, again⟩) s) fun t =>
      tget (fun _ => 0) t.crossings k = n ∧ t = { s with regs := t.regs, crossings := t.crossings } ∧
      (station = true → t.regs = s.regs) ∧ (station = false → t.rd (nocReg r Reg.NOC_CROSSING_RETRY) =
        s.rd (nocReg r Reg.NOC_CROSSING_RETRY) + 1)) ∧
    (n = 16 → Completes (exec (.crossingCrcError r dir ⟨station, again⟩) s) fun t => t.linkDownOn [crossKey r dir] = true ∧
      t.rbit (nocReg r Reg.NOC_ERR_FLAGS) 3 = true ∧ t.out = s.out ++ [.crossingDown r dir]))

/-- Home edges, windows and packets of the Eovaol fabric complete. A home edge answers a malformed request with 0x67
and one while the fabric is closed with 0x60, lets one wait when it keeps 4,096, and sends one for another module to
its exit port. A fence that nothing holds is answered. A packet for this module that names no window is answered with
0x61; one for another module goes on with one more hop. A response is handed to its requester, over the request on the
tile network that it came as, or dropped and counted. A window entry that is allowed becomes the committed one; one that is not is
refused and counted. Drain and response limits answer what waits. The limits are kept 50 apart. (12_eovaol_fabric.md
(R270 to R287, R293)) -/
def Obligations.FabricCommandsComplete : Prop :=
  (∀ (r : GlobalRequest) (s : State),
    let set := s.domainSet (placeDomain r.src r.srcEp)
    (malformed r = true → exec (.homeEdgeRequest r) s = .next (s.emit (.nocAnswer r.src r.srcEp r.tag set 0x67 []))) ∧
    (malformed r = false → s.fabricOpen set = false →
      exec (.homeEdgeRequest r) s = .next (s.emit (.nocAnswer r.src r.srcEp r.tag set 0x60 []))) ∧
    (malformed r = false → s.fabricOpen set = true → 4096 ≤ s.homeCount (homeEdge r.src) →
      exec (.homeEdgeRequest r) s = .next s) ∧
    (malformed r = false → s.fabricOpen set = true → s.home = [] → s.twinWaiting = 0 →
      let p := s.packetOf set r
      let e := s.routeEntry set p.dest
      let port := bitsOf e 11 8
      p.dest ≠ s.moduleId set → bitOf e 15 = true → port < 12 → s.portUp port = true →
      s.edgeWay (homeEdge r.src) (port / 3) p.gaddr = 0 →
      Completes (exec (.homeEdgeRequest r) s) fun t => t.homeAt s.nextHome = some (.req r set true none) ∧
        (t.linkAt port).queue = (s.linkAt port).queue ++ [{ p with hops := 1, dateline := bitOf e 14 }] ∧
        t = { s with home := t.home, nextHome := t.nextHome, links := t.links })) ∧
  (∀ src ep tag cls id scope s, s.home = [] → s.twinWaiting = 0 → s.twinItem s.nextHome = none →
    Completes (exec (.fence src ep tag cls id scope) s) fun t =>
    t.home = [] ∧ t.out = s.out ++ [.nocAnswer src ep tag (s.domainSet (placeDomain src ep)) 0 []] ∧
    t = { s with nextHome := t.nextHome, out := t.out }) ∧
  (∀ (p : Port) (x : FabricPacket) (rest : List FabricPacket) (s : State),
    ((s.linkAt p).kept = [] ∧ (s.linkAt p).arrived = x :: rest ∨ (s.linkAt p).kept = x :: rest) →
    let e := p.val / 3
    let set := s.domainSet (16 + e)
    let port := bitsOf (s.routeEntry set x.dest) 11 8
    let left (t : State) : Prop := if (s.linkAt p).kept = [] then (t.linkAt p).arrived = rest
      else (t.linkAt p).kept = rest ∧ (t.linkAt p).arrived = (s.linkAt p).arrived
    let taken (t : State) : Prop := left t ∧ t = { s with links := t.links }
    s.fabricOpen set = true →
    (x.resp = false → x.dest ≠ s.moduleId set → x.hops < 255 → x.cls ≠ 0 →
      bitOf (s.routeEntry set x.dest) 15 = true → port < 12 → s.portUp port = true →
      (bitOf (s.routeEntry set x.dest) 14 = true → x.dateline = false) → s.edgeWay e (port / 3) x.gaddr = 0 →
      Completes (exec (.fabricPacketReceive p) s) fun t => (t.linkAt port).queue = (s.linkAt port).queue ++
        [{ x with hops := x.hops + 1, dateline := x.dateline || bitOf (s.routeEntry set x.dest) 14 }] ∧ taken t) ∧
    (x.resp = false → x.dest = s.moduleId set → x.op ≤ 2 → x.atomicOp ≤ 8 →
      s.edgeWay e (ownerEdge (x.gaddr % 2 ^ 44)) x.gaddr = 0 → (∀ z < 3, s.winMatch (x.gaddr % 2 ^ 44) set z = none) → Completes (exec (.fabricPacketReceive p) s) fun t =>
        t.mem = s.mem ∧ t.rd (eovReg (ownerEdge (x.gaddr % 2 ^ 44)) Reg.EOV_NO_WINDOW) =
          s.rd (eovReg (ownerEdge (x.gaddr % 2 ^ 44)) Reg.EOV_NO_WINDOW) + 1) ∧
    (x.resp = true → x.dest = s.moduleId set → s.homeOf x = none →
      Completes (exec (.fabricResponseReceive p) s) fun t => left t ∧ t = { s with links := t.links, tallies := t.tallies }) ∧
    (∀ n r k noc, x.resp = true → x.dest = s.moduleId set → s.home = [(n, .req r k true noc)] →
      s.homeOf x = some (n, r) → s.edgeWay e (homeEdge r.src) x.gaddr = 0 → s.twinItem n = none → s.twinWaiting = 0 →
      x.status = 0 →
      Completes (exec (.fabricResponseReceive p) s) fun t => ∃ u : State, t = u.edgeAnswer r k noc 0 x.payload ∧
        u = { s with links := u.links, home := [] } ∧ left u ∧
        (noc = none → t.out = s.out ++ [.nocAnswer r.src r.srcEp r.tag k 0 x.payload]) ∧
        (∀ q v, noc = some q → s.nocAt q = some v →
          t.nocAt q = some { v with delivered := true, answer := some (0, x.payload) }))) ∧
  (∀ (n k : Nat) (r : GlobalRequest) (sent : Bool) (noc : Option Nat) (s : State), s.home = [(n, .req r k sent noc)] →
    s.twinItem n = none → s.twinWaiting = 0 → Completes (exec (.fabricRespTimeout n) s) fun t => ∃ u : State, t = u.edgeAnswer r k noc 0x68 [] ∧
      u = { s with regs := u.regs, home := [] } ∧
      u.rd (eovReg (homeEdge r.src) Reg.EOV_RESP_TIMEOUT) = s.rd (eovReg (homeEdge r.src) Reg.EOV_RESP_TIMEOUT) + 1 ∧
      (noc = none → t.out = s.out ++ [.nocAnswer r.src r.srcEp r.tag k 0x68 []])) ∧
  (∀ (e : Edge) (i : Fin 524288) (host : Bool) (w : Word) (s : State),
    (host = true → s.fnReach 0 = true ∧ (s.fnAt 0).d3hot = false ∧ s.edgeLive e = true ∧
      s.fld (eovReg 0 Reg.EOV_WTP_SEL) 0 0 = i.val / 8 / 32768) →
    let new := tget (fun _ => s.winAt e i % 2 ^ 96) s.staged (e * 2 ^ 19 + i) + w.toNat * 2 ^ 96
    let u : State := { s with staged := terase s.staged (e * 2 ^ 19 + i) }
    (u.commitCause e i new = none → ¬ ((winOf (s.winAt e i)).state = 1 ∧ (winOf new).state = 2) →
      Completes (exec (.windowEntryCommit e i host w) s) fun t => t.winAt e i = new ∧ t.mem = s.mem ∧
        ∀ j < 524288, j ≠ i.val → t.winAt e j = s.winAt e j) ∧
    (∀ c, u.commitCause e i new = some c → Completes (exec (.windowEntryCommit e i host w) s) fun t =>
      t.windows = s.windows ∧ t.rbit (eovReg e Reg.EOV_ERR_FLAGS) 0 = true ∧
      t.rd (eovReg e Reg.EOV_WT_REFUSED) = s.rd (eovReg e Reg.EOV_WT_REFUSED) + 1)) ∧
  (∀ (e : Edge) (t : Fin 64) (i : Nat) (s : State), tget (fun _ => 0) s.trackers (64 * e + t) = i + 1 → s.flights = [] →
    Completes (exec (.drainLimitExpiry e t) s) fun u => (winOf (u.winAt e i)).state = 3 ∧
      u.rbit (eovReg e Reg.EOV_ERR_FLAGS) 6 = true ∧ u.mem = s.mem) ∧
  (∀ (e : Edge) (w : Word) (s : State), s.fnReach 0 = true → (s.fnAt 0).d3hot = false → s.edgeLive e = true →
    (Completes (exec (.drainLimitWrite e w) s) fun t =>
      let v := Min.min (w.toNat % 512) 300
      (v + 50 ≤ s.fld (eovReg e Reg.EOV_RESP_LIMIT) 8 0 → t = s.wr (eovReg e Reg.EOV_DRAIN_LIMIT) (BitVec.ofNat 32 v)) ∧
      (s.fld (eovReg e Reg.EOV_RESP_LIMIT) 8 0 < v + 50 → t.rbit (eovReg e Reg.EOV_ERR_FLAGS) 10 = true ∧
        OnlyRegs s t [eovReg e Reg.EOV_ERR_FLAGS, eovReg e Reg.EOV_FAULT_COUNT])) ∧
    (Completes (exec (.respLimitWrite e w) s) fun t =>
      let v := w.toNat % 512
      (s.fld (eovReg e Reg.EOV_DRAIN_LIMIT) 8 0 + 50 ≤ v → t = s.wr (eovReg e Reg.EOV_RESP_LIMIT) (BitVec.ofNat 32 v)) ∧
      (v < s.fld (eovReg e Reg.EOV_DRAIN_LIMIT) 8 0 + 50 → t.rbit (eovReg e Reg.EOV_ERR_FLAGS) 10 = true ∧
        OnlyRegs s t [eovReg e Reg.EOV_ERR_FLAGS, eovReg e Reg.EOV_FAULT_COUNT])))

/-- Ports come up lane by lane, and go down to where bring-up starts. A lane that locks is shown with its peaking, and
the fourth brings the port to training. A capability record that fails its check resets its count; a good one is kept,
and eight with ack set on every lane, that agree, bring the port to deskew; lanes that stand in step bring it up with an
empty replay buffer and full credits. A time-out, a lane that loses lock, unless its partner idles, a cable, enable,
retrain and test mode take the port to where bring-up starts: disabled where it is not fitted, or neither enabled nor in
test mode, else no cable, test, acquire, or, without the reference, disabled; what it has received stays. A clock offset is shown, and one
beyond 20 ppm takes the port down. A checker takes the symbols of a line, locks and counts, a locked one whose sequence
the line follows finding no error, and an injection is armed. (13_serial_lanes.md (R302 to R311, R313)) -/
def Obligations.PortBringUpComplete : Prop :=
  let start (s : State) (p : Nat) : Nat := if s.portFitted p = false ∨ (s.portTest p = false ∧ s.portEnabled p = false) then 0
    else if s.portCable p = false then 1 else if s.portTest p then 7 else if s.refOk p then 2 else 0
  (∀ (p : Port) (s : State), 2 ≤ s.portState p → s.portState p ≤ 6 → (s.linkAt p).unsent = [] → p.val ≠ s.twinPort →
    (s.portDown p).portState p = start s p ∧
    (s.portDown p).rd (lnkPort p Reg.LNK_P_DOWNS) = s.rd (lnkPort p Reg.LNK_P_DOWNS) + 1 ∧
    ((s.portDown p).linkAt p).arrived = [] ∧
    ((s.portDown p).linkAt p).kept = (s.linkAt p).kept ++ (s.linkAt p).arrived ∧ (s.portDown p).mem = s.mem) ∧
  (∀ (l : Lane) (s : State), let p := l.val / 4
    (s.rbit (lnkLane l Reg.LNK_L_STATE) 31 = true →
      exec (.laneLockLoss l) s = .next (if (s.laneAt l).rxIdle then s else s.portDown p)) ∧
    (∀ ctle : Fin 37, s.portState p = 2 → s.refOk p = true → s.rbit (lnkLane l Reg.LNK_L_STATE) 31 = false →
      Completes (exec (.laneAcquireLock l ctle) s) fun t => t.rbit (lnkLane l Reg.LNK_L_STATE) 31 = true ∧
        t.fld (lnkLane l Reg.LNK_L_STATE) 29 24 = (if s.rbit (lnkLane l Reg.LNK_L_EQ) 31
          then s.fld (lnkLane l Reg.LNK_L_EQ) 29 24 else ctle.val) ∧
        t.portState p = (if (List.range 4).all (fun i => 4 * p + i == l.val ||
          s.rbit (lnkLane (4 * p + i) Reg.LNK_L_STATE) 31) then 3 else 2) ∧ OnlyRegs s t [lnkLane l Reg.LNK_L_STATE, lnkPort p Reg.LNK_P_STATE]) ∧
    (∀ r : BitVec 128, s.portState p = 2 ∨ s.portState p = 3 → s.rbit (lnkLane l Reg.LNK_L_STATE) 31 = true →
      (s.linkAt p).lanes.length = 4 →
      let good := bitsOf r.toNat 127 124 == 1 && bitOf r.toNat 87 &&
        (crc32 (natBytes 12 (r.toNat / 2 ^ 32))).toNat == r.toNat % 2 ^ 32
      (good = false → Completes (exec (.capabilityRecordReceive l r) s) fun t => (t.laneAt l).good = 0 ∧
        (t.laneAt l).acks = 0 ∧ t = { s with links := t.links }) ∧
      (good = true → bitOf r.toNat 116 = true → bitOf r.toNat 86 = true → s.portState p = 3 →
        let u := s.mapLane l (fun y => { y with
          good := y.good + 1, acks := y.acks + 1, recPort := bitsOf r.toNat 113 110, recLane := bitsOf r.toNat 115 114 })
        (∀ i < 4, 8 ≤ (u.laneAt (4 * p + i)).acks) → u.recordsAgree p = true →
        Completes (exec (.capabilityRecordReceive l r) s) fun t => t.portState p = 4) ∧
      (good = true → bitOf r.toNat 116 = true → s.portState p = 2 →
        Completes (exec (.capabilityRecordReceive l r) s) fun t =>
          (t.laneAt l).recPort = bitsOf r.toNat 113 110 ∧ (t.laneAt l).recLane = bitsOf r.toNat 115 114 ∧
          t.portState p = 2 ∧ t = { s with links := t.links, regs := t.regs } ∧
          t.rdN (lnkPort p Reg.LNK_P_REMOTE) = bitsOf r.toNat 113 110 * 2 ^ 20 + bitsOf r.toNat 109 90)) ∧
    (∀ (first : Nat) (rest : List Nat), let line := first :: rest; let kind := s.fld (lnkLane l Reg.LNK_L_PAT) 29 28
      s.portState p = 7 → kind ≠ 0 → (s.linkAt p).lanes.length = 4 →
      let locked := s.rbit (lnkLane l Reg.LNK_L_PAT) 27
      let c := line.foldl (Checker.take kind) ⟨locked, (s.laneAt l).chk, (s.laneAt l).chkRun, 0, 0⟩
      Completes (exec (.checkerLock l first rest) s) fun t => t = { s with links := t.links, regs := t.regs } ∧
        t.rbit (lnkLane l Reg.LNK_L_PAT) 27 = c.lock ∧ (t.laneAt l).chk = c.st ∧
        t.rd64 (lnkLane l Reg.LNK_L_CHK_BITS) = (s.rd64 (lnkLane l Reg.LNK_L_CHK_BITS) + c.bits) % 2 ^ 64 ∧
        t.rd64 (lnkLane l Reg.LNK_L_CHK_ERRS) = (s.rd64 (lnkLane l Reg.LNK_L_CHK_ERRS) + c.errors) % 2 ^ 64 ∧
        (∀ n, locked = true → line = (prbsLevels kind n (s.laneAt l).chk).1 → c.bits = 2 * n ∧ c.errors = 0)) ∧
    (∀ (kind : Fin 4) (len : Fin 64), s.fnReach 0 = true → (s.fnAt 0).d3hot = false → s.edgeLive (l / 12) = true →
      (s.linkAt p).lanes.length = 4 →
      Completes (exec (.inject l kind len) s) fun t =>
        (kind = 3 → s.portUp p = false → t = s) ∧
        (kind ≠ 3 ∨ s.portUp p = true → t = { s with links := t.links } ∧ (t.linkAt p).queue = (s.linkAt p).queue ∧
          (t.laneAt l).inject = if kind = 0 then none else some (kind.val, len.val)))) ∧
  (∀ (p : Port) (s : State),
    (∀ skews : List Nat, s.portState p = 4 → s.inStep p = true → Completes (exec (.deskewDone p skews) s) fun t => t.portState p = 5 ∧
      (t.linkAt p).replay = [] ∧ (t.linkAt p).queue = [] ∧ (t.linkAt p).credits = List.replicate 16 128 ∧
      (t.linkAt p).nextSeq = 1 ∧ (t.linkAt p).scrRx = (s.linkAt p).scrRx ∧ t.mem = s.mem) ∧
    (2 ≤ s.portState p → s.portState p ≤ 4 → s.refOk p = true → Completes (exec (.bringupTimeout p) s) fun t =>
      t.portState p = start s p ∧
      t.rd (lnkPort p Reg.LNK_P_TRAIN_FAILS) = s.rd (lnkPort p Reg.LNK_P_TRAIN_FAILS) + 1) ∧
    (Completes (exec (.cablePresenceChange p true) s) fun t => t.portCable p = true ∧
      (s.portState p = 1 → t.portState p = start (s.wrFld (lnkPort p Reg.LNK_P_STATE) 21 21 1) p) ∧
      (s.portState p ≠ 1 → t.portState p = s.portState p ∧ OnlyRegs s t [lnkPort p Reg.LNK_P_STATE])) ∧
    (exec (.cablePresenceChange p false) s = .next ((s.wrFld (lnkPort p Reg.LNK_P_STATE) 21 21 0).portDown p)) ∧
    (∀ offset : Int, 2 ≤ s.portState p → s.portState p ≤ 6 → Completes (exec (.ppmMeasure p offset) s) fun t =>
      (offset.natAbs ≤ 200 → OnlyRegs s t [lnkPort p Reg.LNK_P_PPM] ∧
        (BitVec.ofNat 16 (t.rdN (lnkPort p Reg.LNK_P_PPM))).toInt = offset) ∧
      (200 < offset.natAbs → ∃ u : State, t = u.portDown p ∧ u.rbit (lnkReg (p / 3) Reg.LNK_ERR_FLAGS) 8 = true ∧
        OnlyRegs s u [lnkPort p Reg.LNK_P_PPM, lnkReg (p / 3) Reg.LNK_ERR_FLAGS, lnkReg (p / 3) Reg.LNK_FAULT_COUNT])) ∧
    (s.fnReach 0 = true → (s.fnAt 0).d3hot = false → s.edgeLive (p / 3) = true →
      exec (.retrain p) s = .next (s.portDown p) ∧
      (∀ on, s.portFitted p = false ∨ s.portEnabled p = on → exec (.enable p on) s = .next s) ∧
      (s.portFitted p = true → s.portEnabled p = false → s.portTest p = false →
        Completes (exec (.enable p true) s) fun t => t.portEnabled p = true ∧
          t.portState p = if s.portCable p then (if s.refOk p then 2 else 0) else 1) ∧
      (s.portFitted p = true → s.portEnabled p = true → exec (.enable p false) s =
        .next ((s.wrFld (lnkPort p Reg.LNK_P_CTRL) 0 0 0).portDown p)) ∧
      (∀ on, s.portTest p = on → exec (.testMode p on) s = .next s) ∧
      (s.portTest p = true → Completes (exec (.testMode p false) s) fun t => t.portTest p = false ∧
        t.portState p = if s.portFitted p = false ∨ s.portEnabled p = false then 0 else if s.portCable p = false then 1
          else if s.refOk p then 2 else 0) ∧
      (s.portTest p = false → (s.portState p < 2 ∨ 6 < s.portState p) → Completes (exec (.testMode p true) s) fun t =>
        t.portTest p = true ∧ t.portState p = if s.portFitted p then (if s.portCable p then 7 else 1) else 0)))

/-- Codewords are sent, taken, acknowledged and sent again. A port that is up and not idle sends a codeword on its
lanes, one in training its blocks, one in test its pattern. Of the line symbols that make a codeword, a codeword the
decoder or the check refuses is counted and a nak is due; the data codeword expected advances the count and owes an ack, and another asks for a retry; an idle one
delivers no packet. In deskew a lane aligns on the first good marker. Where an aligned lane expects a marker, a good one clears the count of bad ones; an idle marker puts the direction to sleep; a third
bad one takes the port down. The retry timer sends the replay buffer again, below its limit. A quiet port goes idle,
and comes back when it has something to send. (13_serial_lanes.md (R294 to R301, R309 to R311)) -/
def Obligations.CodewordsComplete : Prop :=
  (∀ (p : Port) (shaped : Bool) (s : State), s.refOk p = true →
    (s.portUp p = true → (s.linkAt p).idleTx = false →
      exec (.codewordTransmit p shaped) s = .next (s.nextCodeword p shaped)) ∧
    (s.portState p = 4 → exec (.codewordTransmit p shaped) s = .next (s.nextCodeword p false)) ∧
    (s.portState p = 2 ∨ s.portState p = 3 → Completes (exec (.codewordTransmit p shaped) s) fun t =>
      t.portState p = s.portState p ∧ t.out.length = s.out.length + 4 ∧ t.mem = s.mem) ∧
    (s.portState p = 7 → (∀ i < 4, s.fld (lnkLane (4 * p + i) Reg.LNK_L_PAT) 31 30 = 0) →
      exec (.codewordTransmit p shaped) s = .next s) ∧
    (s.portState p = 7 → (∀ i < 4, s.fld (lnkLane (4 * p + i) Reg.LNK_L_PAT) 31 30 ≠ 0) →
      Completes (exec (.codewordTransmit p shaped) s) fun t => t.out.length = s.out.length + 4 ∧
        t = { s with links := t.links, out := t.out })) ∧
  (∀ (p : Port) (lines : List (List Nat)) (c : CodewordFind) (s u : State), s.portUp p = true →
    s.receiveLines p lines = some (c, u) → let l := u.linkAt p
    let m := messageOf (descramble l.scrRx (c.symbols.flatMap (bitsLow 10))).1
    (c.good = false ∨ m.good = false → Completes (exec (.codewordReceive p lines) s) fun t =>
      t.rd (lnkPort p Reg.LNK_P_CW_UE) = s.rd (lnkPort p Reg.LNK_P_CW_UE) + 1 ∧
      t.rd64 (lnkPort p Reg.LNK_P_CW) = (s.rd64 (lnkPort p Reg.LNK_P_CW) + 1) % 2 ^ 64 ∧ (t.linkAt p).idleRx = false ∧
      (t.linkAt p).nak = true ∧ (t.linkAt p).expect = l.expect ∧ (t.linkAt p).arrived = l.arrived) ∧
    (c.good = true → m.good = true → (m.link.getD 21 0).getLsbD 0 = false → m.seq ≠ l.expect →
      Completes (exec (.codewordReceive p lines) s) fun t => (t.linkAt p).nak = true ∧ (t.linkAt p).expect = l.expect ∧
        (t.linkAt p).arrived = l.arrived) ∧
    (c.good = true → m.good = true → (m.link.getD 21 0).getLsbD 0 = false → m.seq = l.expect →
      bitOf (bytesNat ((m.link.drop 16).take 2)) 15 = false → Completes (exec (.codewordReceive p lines) s) fun t =>
        (t.linkAt p).nak = false ∧ (t.linkAt p).expect = (l.expect + 1) % 1024 ∧ (t.linkAt p).lastGood = l.expect ∧
        (t.linkAt p).ackDue = true ∧ l.arrived <+: (t.linkAt p).arrived ∧
        (t.linkAt p).replay = ackTo l.replay m.ack) ∧
    (c.good = true → m.good = true → (m.link.getD 21 0).getLsbD 0 = true →
      bitOf (bytesNat ((m.link.drop 16).take 2)) 15 = false → Completes (exec (.codewordReceive p lines) s) fun t =>
        (t.linkAt p).arrived = l.arrived ∧ (t.linkAt p).replay = ackTo l.replay m.ack ∧
        ∀ v < 16, nthN (t.linkAt p).credits v = nthN l.credits v + (m.link.getD v 0).toNat)) ∧
  (∀ (l : Lane) (line : List Nat) (s : State), s.portState (l / 4) = 4 → s.aligned l = false →
    (s.linkAt (l / 4)).lanes.length = 4 →
    let d := destuff (s.laneAt l).rxLevel (s.laneAt l).rxRun line
    let vs := d.1.drop (d.1.length - 64)
    Completes (exec (.markerCheck l line) s) fun t => t.aligned l = (markerOf vs == .good) ∧
      (markerOf vs = .good → (t.laneAt l).rxAt = 0 ∧ (t.laneAt l).rxBlock = markerBlock vs) ∧
      t = { s with links := t.links, regs := t.regs }) ∧
  (∀ (l : Lane) (line vs : List Nat) (stuffs viol level run : Nat) (s : State), s.portUp (l / 4) = true →
    (s.laneAt l).rxIdle = false → (s.linkAt (l / 4)).lanes.length = 4 →
    (s.laneAt l).takeMarker line = some (vs, stuffs, viol, level, run) →
    let found := markerOf vs
    (found = .good → Completes (exec (.markerCheck l line) s) fun t =>
      (t.laneAt l).badMarkers = 0 ∧ t.rbit (lnkLane l Reg.LNK_L_STATE) 30 = true ∧ (t.laneAt l).rxAt = 0 ∧
      (t.laneAt l).rxBlock = markerBlock vs ∧ t = { s with links := t.links, regs := t.regs }) ∧
    (found = .idle → Completes (exec (.markerCheck l line) s) fun t =>
      (t.linkAt (l / 4)).idleRx = true ∧ (t.laneAt l).badMarkers = 0 ∧ (t.laneAt l).rxIdle = true ∧ t.portState (l / 4) = 6) ∧
    (found = .bad → (s.laneAt l).badMarkers < 2 → Completes (exec (.markerCheck l line) s) fun t =>
      (t.laneAt l).badMarkers = (s.laneAt l).badMarkers + 1 ∧ t.portState (l / 4) = s.portState (l / 4)) ∧
    (found = .bad → 2 ≤ (s.laneAt l).badMarkers → Completes (exec (.markerCheck l line) s) fun t =>
      ∃ u : State, t = u.portDown (l / 4) ∧ u.rbit (lnkReg (l / 12) Reg.LNK_ERR_FLAGS) 3 = true ∧
        u = { s with regs := u.regs, links := u.links } ∧ RegsKept s u [lnkLane l Reg.LNK_L_STATE,
          lnkLane l Reg.LNK_L_STUFF_VIOL, lnkReg (l / 12) Reg.LNK_ERR_FLAGS, lnkReg (l / 12) Reg.LNK_FAULT_COUNT])) ∧
  (∀ (p : Port) (s : State), s.portUp p = true →
    ((s.linkAt p).replay ≠ [] → Completes (exec (.retryTimerExpiry p) s) fun t =>
      ((s.linkAt p).tries + 1 < s.fld (lnkPort p Reg.LNK_P_RETRY_LIMIT) 4 0 →
        t.linkAt p = { s.linkAt p with resend := (s.linkAt p).replay.map (·.seq), tries := (s.linkAt p).tries + 1 } ∧
        t.rd (lnkPort p Reg.LNK_P_RETRIES) = s.rd (lnkPort p Reg.LNK_P_RETRIES) + 1) ∧
      (s.fld (lnkPort p Reg.LNK_P_RETRY_LIMIT) 4 0 ≤ (s.linkAt p).tries + 1 →
        ∃ u : State, t = u.portDown p ∧ u.rbit (lnkReg (p / 3) Reg.LNK_ERR_FLAGS) 4 = true ∧
          u = { s with regs := u.regs, free := s.free + 1 } ∧ RegsKept s u [lnkPort p Reg.LNK_P_RETRIES,
            lnkPort p Reg.LNK_P_RETRY_MAX_NS, lnkReg (p / 3) Reg.LNK_ERR_FLAGS, lnkReg (p / 3) Reg.LNK_FAULT_COUNT])) ∧
    (s.fld (lnkPort p Reg.LNK_P_IDLE_TIMER) 15 0 ≠ 0 → (s.linkAt p).quiet = true → (s.linkAt p).replay = [] →
      (s.linkAt p).idleTx = false → Completes (exec (.idleTimerExpiry p) s) fun t =>
        (t.linkAt p).idleTx = true ∧ t.portState p = 6 ∧ t.out.length = s.out.length + 4) ∧
    ((s.linkAt p).idleTx = true → (s.linkAt p).quiet = false → Completes (exec (.idleExit p) s) fun t =>
      (t.linkAt p).idleTx = false ∧ t.portState p = (if (s.linkAt p).idleRx then 6 else 5) ∧
      (t.linkAt p).queue = (s.linkAt p).queue))

/-- Configuration requests, BAR4, completions, messages, resets and power states of functions complete. A
configuration request before ready is retried and counted; after it, a function that is there answers, and SR-IOV, BAR4
size and MSI-X settings take effect, a virtual function no longer enabled keeping no ring; one that is not there is
unsupported. A link that goes down is down. A BAR4 access is cut where a 256-byte granule ends; a read whose parts all
lead to memory answers what memory holds, a failed one ones, counted; a write likewise; an atomic operation, and a read
of a function in D3hot, complete as Unsupported Request. A waiting completion is written to the host in order and its
ring advances, and then its slot in the partner's record is emptied; one that meets a host error is discarded. An interrupt delay that expires
sends its message. A function level reset disables the rings and ends the epoch of the function, and resets its
partition. A function enters D3hot, and its return sends each message held. (14_host_interface.md (R315, R316, R318 to
R321, R328, R329, R333, R337); 11_crema_and_lpddr.md (R249)) -/
def Obligations.LinkAndFunctionCommandsComplete : Prop :=
  (∀ (l : Fin 2) (s : State), s.linkUp l = true → Completes (exec (.pcieLinkDown l) s) fun t => t.linkUp l = false ∧
    t.linkUp (1 - l) = s.linkUp (1 - l) ∧ OnlyRegs s t [hifReg Reg.HIF_LINK_STATUS]) ∧
  (∀ (f : Func) (s : State), let x := s.fnAt f
    let sent (ms : List Nat) : List Output :=
      (ms.filter (fun v => !(x.vector v).masked)).map (fun v => .msix f v (x.vector v).addr (x.vector v).data)
    (s.fnUp f = true →
      (s.isReady = false → s.inRecovery = false → ∀ q, exec (.pcieConfigRequest f q) s =
        .next ((s.bump (hifReg Reg.HIF_RRS_COUNT) 1).emit (.config f .retry))) ∧
      (s.isReady = false → s.inRecovery = true → ∀ q, exec (.pcieConfigRequest f q) s =
        .next (s.emit (.config f (if f.val = 0 then .success else .unsupported)))) ∧
      (s.isReady = true → s.fnLive f = false → ∀ q, exec (.pcieConfigRequest f q) s =
        .next (s.emit (.config f .unsupported))) ∧
      (s.isReady = true → s.fnLive f = true → let done (o : List Output) : List Output := s.out ++ o ++ [.config f .success]
        (exec (.pcieConfigRequest f .other) s = .next (s.emit (.config f .success))) ∧
        (∀ n, Completes (exec (.pcieConfigRequest f (.virtualFunctions n)) s) fun t => t.out = done [] ∧ t.mem = s.mem ∧
          (s.physical f = true → let k := Min.min n (if s.rbit (hifReg Reg.HIF_STATUS) 28 then 31 else 63)
            (t.fnAt f).vfs = k ∧
            ∀ i, k ≤ i → i < x.vfs → ∀ r ∈ s.sqsOf (f + i + 1), t.ringEnabled (f + i + 1) false r = false)) ∧
        (∀ virt n, Completes (exec (.pcieConfigRequest f (.bar4Size virt n)) s) fun t => t.out = done [] ∧
          (f.val = 0 → virt = false → t.bar4Bytes 0 = 2 ^ (30 + n.val)) ∧ t = { s with fns := t.fns, out := t.out }) ∧
        (∀ on mask, Completes (exec (.pcieConfigRequest f (.msix on mask)) s) fun t =>
          (t.fnAt f).msixOn = on ∧ (t.fnAt f).msixMask = mask ∧
          t.out = done (if on && !mask && !x.d3hot then sent x.msix else []) ∧ t = { s with fns := t.fns, out := t.out }) ∧
        (∀ v addr data masked, Completes (exec (.pcieConfigRequest f (.vector v addr data masked)) s) fun t =>
          (t.fnAt f).vector v = .mk addr.toNat data.toNat masked ∧ t = { s with fns := t.fns, out := t.out }) ∧
        (x.d3hot = false → exec (.d3hotEntry f) s = .next (s.setFn f { x with d3hot := true })) ∧
        (x.d3hot = true → s.rd (pageReg f Reg.HIF_KICK) = 0 → (∀ q ∈ s.cqsOf f, (s.cqAt f q).waiting = []) →
          Completes (exec (.d0Return f) s) fun t => (t.fnAt f).d3hot = false ∧
            t.out = s.out ++ (if x.msixOn && !x.msixMask then sent x.msix else []) ∧
            t = { s with fns := t.fns, out := t.out }) ∧
        (Completes (exec (.functionLevelReset f) s) fun t => ∃ u : State,
          (∀ r ∈ s.sqsOf f, u.ringEnabled f false r = false) ∧ (∀ r ∈ s.cqsOf f, u.ringEnabled f true r = false) ∧
          (u.fnAt f).epoch = x.epoch + 1 ∧ (u.fnAt f).d3hot = false ∧ (u.fnAt f).fetching = [] ∧ u.mem = s.mem ∧
          u.jobs = s.jobs ∧ (s.partOfFn f = none → t = u) ∧ ∀ p, s.partOfFn f = some p →
            s.rbit (regKey .ctl Reg.CTL_PART_RESETTING) p = false → t = u.resetPartition p))) ∧
    (s.fnReach f = true → ∀ (off net : Nat) (m : MemFind),
      (∀ bs, off + bs.length ≤ s.bar4Bytes f → x.d3hot = false →
        exec (.bar4Write f off ⟨bs, true⟩ net m) s = .next (s.emit (.unsupported f))) ∧
      (x.d3hot = true → (∀ n, off + n ≤ s.bar4Bytes f → Completes (exec (.bar4Read f off n net m) s) fun t =>
          t.out = s.out ++ [.unsupported f] ∧ t.mem = s.mem) ∧
        ∀ bs, off + bs.length ≤ s.bar4Bytes f → Completes (exec (.bar4Write f off ⟨bs, false⟩ net m) s) fun t =>
          t.out = s.out ∧ t.mem = s.mem)) ∧
    (s.fnReach f = true → x.d3hot = false → ∀ (off n net : Nat) (m : MemFind),
      let plan (write : Bool) (n : Nat) := s.bar4Plan f net write m (n / 256 + 2) off n
      let failed (u t : State) : Prop := t.mem = u.mem ∧
        t.rd (hifReg Reg.HIF_BAR4_ERR_COUNT) = u.rd (hifReg Reg.HIF_BAR4_ERR_COUNT) + 1
      (∀ write, ∀ q ∈ (plan write n).1.2, q.1 % 256 + q.2 ≤ 256) ∧
      (off + n ≤ s.bar4Bytes f → ∀ ps u,
        (plan false n = ((none, ps), u) → ∀ r w, u.bar4Get ps m = (r, w) →
          (r.status = 0 → exec (.bar4Read f off n net m) s = .next (w.emit (.bar4Data f r.data))) ∧
          (r.status ≠ 0 → Completes (exec (.bar4Read f off n net m) s) fun t => failed w t ∧
            t.out = w.out ++ [.bar4Data f (List.replicate n 0xFF)])) ∧
        (∀ st, plan false n = ((some st, ps), u) → Completes (exec (.bar4Read f off n net m) s) fun t => failed u t ∧
          t.out = u.out ++ [.bar4Data f (List.replicate n 0xFF)])) ∧
      (∀ bs, off + bs.length ≤ s.bar4Bytes f → ∀ ps u,
        (plan true bs.length = ((none, ps), u) → ∀ r w, u.bar4Put ps bs m = (r, w) →
          (r.status = 0 → exec (.bar4Write f off ⟨bs, false⟩ net m) s = .next w) ∧
          (r.status ≠ 0 → Completes (exec (.bar4Write f off ⟨bs, false⟩ net m) s) (failed w))) ∧
        (∀ st, plan true bs.length = ((some st, ps), u) → Completes (exec (.bar4Write f off ⟨bs, false⟩ net m) s) (failed u))))) ∧
  (∀ (f : Func) (q : Fin 1024) (s : State), s.ringEnabled f true q = true →
    (∀ (c : Cpl) (rest : List Cpl) (ns : Nat), (s.cqAt f q).waiting = c :: rest → s.cqFull f q = false →
      (s.fnAt f).d3hot = false → s.fnUp f = true →
      (Completes (exec (.completionWrite f q false ns 0) s) fun t => ∃ u : State, (u.cqAt f q).waiting = rest ∧
        u.rd (ringKey f true q 0x14) = s.rd (ringKey f true q 0x14) + 1 ∧ u.mem = s.mem ∧ u.twin = s.twin ∧
        (let k := s.ringLog2 f true q
         let n := s.rdN (ringKey f true q 0x14)
         s.out ++ (cplWrites c (s.rd64 (ringKey f true q 0) + n % 2 ^ k * 32) (s.cplBytes f c n k)).map
          (fun w => Output.hostWrite f w.1 w.2) <+: u.out) ∧
        t = if c.event || c.away then u else u.mirrorDone f c.sq c.seq) ∧
      (Completes (exec (.completionWrite f q true ns 0) s) fun t => rest <+: (t.cqAt f q).waiting ∧ t.out = s.out ∧
        t.rd (ringKey f true q 0x14) = s.rd (ringKey f true q 0x14) ∧
        t.rbit (pageReg f Reg.HIF_FN_ERR_FLAGS) 2 = true)) ∧
    (s.fld (ringKey f true q 0xC) 31 16 ≠ 0 → (s.cqAt f q).since ≠ 0 → Completes (exec (.irqDelayExpiry f q) s) fun t =>
      (t.cqAt f q).since = 0 ∧ let n := s.fld (ringKey f true q 8) 10 0
      let v := (s.fnAt f).vector n
      ((s.fnAt f).msixOn = true → (s.fnAt f).msixMask = false → (s.fnAt f).d3hot = false → v.masked = false →
        t.out = s.out ++ [.msix f n v.addr v.data])))

/-- Kicks, doorbell records, rings and entries complete. A kick starts a fetch of each group kicked that has none
outstanding; a fetch that returns ends and moves the tails of enabled rings; a read that fails or times out puts its
rings in error with cause 12. A full ring's head is read again. The highest common version is selected while no ring
is enabled. A disabled ring that may be enabled takes its record and is enabled; one that may not shows its cause; a
ring not held is disabled. An entry due is taken: a job is queued, a configuration load requested, a nop completes, a
barrier completes or waits, a pin keeps a verified image, an unpin frees its handle. (14_host_interface.md (R322 to
R332, R336, R337); 09_configuration_loading.md (R201)) -/
def Obligations.RingCommandsComplete : Prop :=
  (∀ (f : Func) (via0 : Bool) (s : State), s.fnReach (if via0 then 0 else f) = true →
    (s.fnAt (if via0 then 0 else f)).d3hot = false →
    (∀ w : Word, (s.fnAt f).d3hot = false → (s.fnAt f).fetching = [] → s.rd (pageReg f Reg.HIF_KICK) = 0 →
      s.readsOut (s.linkOf f) + 32 ≤ 256 → Completes (exec (.hifKick f via0 w) s) fun t => t.rd (pageReg f Reg.HIF_KICK) = 0 ∧
        (t.fnAt f).fetching = (List.range 32).filter (fun b => bitOf w.toNat b) ∧
        t.out = s.out ++ ((List.range 32).filter (fun b => bitOf w.toNat b)).map (fun b =>
          Output.hostRead f (s.rd64 (pageReg f Reg.HIF_DBREC_BASE) + 256 * b) 256) ∧
        t = { s with regs := t.regs, fns := t.fns, out := t.out }) ∧
    (∀ w : Word, Completes (exec (.versionOffer f via0 w) s) fun t =>
      (s.anyRing f = false → t.rdN (pageReg f Reg.HIF_VERSION_SEL) =
        (if bitOf w.toNat 3 then 3 else if bitOf w.toNat 2 then 2 else 0) ∧ t.rd (pageReg f Reg.HIF_VERSION_OFFER) = w ∧
        OnlyRegs s t [pageReg f Reg.HIF_VERSION_OFFER, pageReg f Reg.HIF_VERSION_SEL]) ∧
      (s.anyRing f = true → t.rbit (pageReg f Reg.HIF_FN_ERR_FLAGS) 1 = true ∧
        OnlyRegs s t [pageReg f Reg.HIF_FN_ERR_FLAGS])) ∧
    (let cq := s.selCq f
     let r := s.selRing f
     let st := s.fld (ringKey f cq r 0x10) 31 30
     (s.fnLive f = false ∨ (s.fnAt f).d3hot = true → ∀ bs, exec (.ringEnable f via0 bs) s = .next s) ∧
     (st ≠ 1 → st ≠ 2 → s.fnLive f = true → (s.fnAt f).d3hot = false →
      (∀ bs, s.enableCause f cq r = 0 → Completes (exec (.ringEnable f via0 (some bs)) s) fun t =>
        t.ringEnabled f cq r = true ∧
        t.out = s.out ++ [.hostRead f (s.rd64 (pageReg f Reg.HIF_DBREC_BASE) + (if cq then 0x2000 else 0) + 8 * r) 8] ∧
        (t.sqAt f r).taken = (s.sqAt f r).taken ∧ (t.sqAt f r).barrier = (s.sqAt f r).barrier ∧ t.rd (ringKey f cq r 0x14) = BitVec.ofNat 32 (recordCount bs 0) ∧
        (if cq then (t.cqAt f r).head = recordCount bs 0 else (t.sqAt f r).tail = recordCount bs 0)) ∧
      (s.enableCause f cq r = 0 → cq = false → Completes (exec (.ringEnable f via0 none) s) fun t =>
        t.fld (ringKey f cq r 0x10) 31 30 = 2 ∧ t.fld (ringKey f cq r 0x10) 29 26 = 12) ∧
      (∀ bs, s.enableCause f cq r ≠ 0 → Completes (exec (.ringEnable f via0 bs) s) fun t =>
        t.fld (ringKey f cq r 0x10) 31 30 = 3 ∧ t.fld (ringKey f cq r 0x10) 29 26 = s.enableCause f cq r ∧
        t.rbit (pageReg f Reg.HIF_FN_ERR_FLAGS) 1 = true))) ∧
    (let cq := s.selCq f
     let r := s.selRing f
     (cq = false ∨ s.cqHeld f r = false → Completes (exec (.ringDisable f via0) s) fun t =>
        t.rd (ringKey f cq r 0x10) = 0 ∧ t = { s with regs := t.regs }) ∧
     (cq = true → s.cqHeld f r = true → Completes (exec (.ringDisable f via0) s) fun t =>
        t.fld (ringKey f true r 0x10) 29 26 = 8 ∧ t.ringEnabled f true r = s.ringEnabled f true r))) ∧
  (∀ (f : Func) (g : Fin 32) (s : State), g.val ∈ (s.fnAt f).fetching →
    (∀ k < 64, s.linkOf k = s.linkOf f → s.rd (pageReg k Reg.HIF_KICK) = 0) →
    (∀ (bs : List Byte) (n : Nat), (∀ r ∈ s.sqsOf f, r / 32 = g.val → s.ringEnabled f false r = true →
        let x := recordCount bs (r % 32)
        (x + 2 ^ 32 - (s.sqAt f r).tail) % 2 ^ 32 < 2 ^ 31 ∧
        (x + 2 ^ 32 - s.rdN (ringKey f false r 0x14)) % 2 ^ 32 ≤ 2 ^ s.ringLog2 f false r) →
      Completes (exec (.dbrecFetchDone f g ⟨some bs, n⟩) s) fun t =>
        (t.fnAt f).fetching = (s.fnAt f).fetching.filter (· != g.val) ∧
        t = { s with fns := t.fns, sqs := t.sqs, regs := t.regs } ∧
        t.rd (hifReg Reg.HIF_REPLAY_COUNT) = s.rd (hifReg Reg.HIF_REPLAY_COUNT) + BitVec.ofNat 32 n ∧
        OnlyRegs { s with fns := t.fns, sqs := t.sqs } t
          (if n = 0 then [] else [hifReg Reg.HIF_REPLAY_COUNT, hifReg Reg.HIF_ERR_FLAGS]) ∧
        ∀ r ∈ s.sqsOf f, r / 32 = g.val → s.ringEnabled f false r = true →
          (t.sqAt f r).tail = recordCount bs (r % 32)) ∧
    (∀ n, ∀ c ∈ [Instr.dbrecFetchDone f g ⟨none, n⟩, .hostReadTimeout f false ⟨g.val, by omega⟩], Completes (exec c s) fun t =>
      (∀ r ∈ s.sqsOf f, r / 32 = g.val → s.ringEnabled f false r = true →
        t.fld (ringKey f false r 0x10) 31 30 = 2 ∧ t.fld (ringKey f false r 0x10) 29 26 = 12) ∧
      (t.fnAt f).fetching = (s.fnAt f).fetching.filter (· != g.val))) ∧
  (∀ (f : Func) (r : Fin 1024) (s : State), s.entryDue f r = true →
    exec (.hostReadTimeout f true r) s = .next (s.ringError f r 12) ∧
    exec (.entryReadError f r) s = .next (s.ringError f r 12)) ∧
  (∀ (f : Func) (q : Fin 1024) (record : List Byte) (s : State), s.ringEnabled f true q = true → s.cqFull f q = true →
    (s.fnAt f).d3hot = false → s.fnUp f = true →
    exec (.cqHeadPoll f q record) s = .next ((s.emit (.hostRead f
      (s.rd64 (pageReg f Reg.HIF_DBREC_BASE) + 0x2000 + 8 * q) 8)).setCq f q
        { s.cqAt f q with head := recordCount record 0 })) ∧
  (∀ (f : Func) (r : Fin 1024) (bs : List Byte) (s : State), s.entryReady f r bs →
    let x := s.ringEntry f bs
    let e := s.entryOf f r x
    let u := s.entryTaken f r
    (x.op = 1 → ∀ p, u.partOfFn f = some p → (x.pinned = false ∨ x.handle < 16 ∧ u.handleLive f x.handle = true) →
      Completes (exec (.jobEntry f r bs) s) fun t => t.nextJob = s.nextJob + 1 ∧
        s.nextJob ∈ t.queueOf p (u.ringClass f r) ∧ (∃ v, t.jobAt s.nextJob = some v ∧ v.phase = .queued ∧ v.ent = e ∧
          v.part = p ∧ v.image = imgN x.params 0 8 ∧ v.handle = if x.pinned then some x.handle else none) ∧
        t = { u with jobs := t.jobs, queues := t.queues, nextJob := t.nextJob }) ∧
    (x.op = 2 → imgN x.params 0 8 % 256 = 0 → imgN x.params 8 4 % 4 = 0 → imgN x.params 12 4 = 0 →
      imgN x.params 0x10 8 % 4096 = 0 → imgN x.params 0x18 8 = 0 → Completes (exec (.configurationEntry f r bs) s) fun t =>
        t = { u with loads := t.loads, nextLoad := s.nextLoad + 1 } ∧ ∃ v, t.loadAt s.nextLoad = some v ∧ v.ent = e ∧
          v.addr = imgN x.params 0 8 ∧ v.bytes = imgN x.params 8 4 ∧ v.ess = imgN x.params 0x10 8 ∧ v.accepted = false) ∧
    (x.op = 3 → Completes (exec (.ringBarrier f r bs) s) fun t =>
      ((s.sqAt f r).taken = [] → t = u.complete e (.of 0)) ∧
      ((∃ n ∈ (s.sqAt f r).taken, n ≠ e.seq) → t = u.setSq f r { u.sqAt f r with barrier := some e })) ∧
    (x.op = 4 → exec (.ringNop f r bs) s = .next (u.complete e (.of 0))) ∧
    (x.op = 5 → ∀ (m : MemFind) (p c st : Nat) (img : List Byte) (w : State), u.partOfFn f = some p → x.handle < 16 →
      (∀ y ∈ u.pins, y.1 ≠ 16 * f.val + x.handle) →
      u.checkImage (u.ctrlAgent ((maskQuarters (u.ringPart p).quarters).headD 0)) (imgN x.params 0 8) m = (c, st, img, w) →
      Completes (exec (.pin f r bs m) s) fun t => t.mem = w.mem ∧ (c = 0 → (jobHeader img).bytes ≤ 262144 →
        tget (fun _ => none) (t.pins.map (fun y => (y.1, some y.2))) (16 * f.val + x.handle) =
          some (.mk img (jobHeader img) none))) ∧
    (x.op = 5 → ∀ m, (u.partOfFn f).isSome = true → (16 ≤ x.handle ∨ ∃ y ∈ u.pins, y.1 = 16 * f.val + x.handle) →
      exec (.pin f r bs m) s = .next (u.complete e { Report.of 0x87 with detail := x.handle })) ∧
    (x.op = 6 → x.handle < 16 → (u.partOfFn f).isSome = true → u.handleLive f x.handle = true →
      u.handleBusy f x.handle = true → Completes (exec (.unpin f r bs) s) fun t => t.jobs = s.jobs ∧
        t.handleLive f x.handle = false ∧ t.handleBusy f x.handle = true))

/-- Security services are taken as their credentials allow, and have their effects when done. With no service under
way, each service that its role and credential let through is taken with its request and no refusal, the challenge
used up; one whose credential fails is refused with 0x75 and counted; a second one is refused, its result shown, and the
challenge used up where it needs a role. When done, its result
is shown: a fresh challenge stands; an extension hashes into its register; the time is set; a key that unwraps is
stored; a vendor slot is revoked; a counter takes the larger value; zeroise erases the owner's keys and scrap kills
the module. The refusal of 60 s ends, and a failing entropy source puts the module into its error state and stops bring-up in
phase 1.
(17_security.md (R379 to R382, R385 to R387, R391, R392, R394, R395)) -/
def Obligations.SecurityServicesComplete : Prop :=
  (∀ s : State, s.fnReach 0 = true → (s.fnAt 0).d3hot = false → s.sec.service = none →
    (∀ x ∈ [(0x10, Instr.attest), (0x11, Instr.extend), (0x12, Instr.setTime), (0x20, Instr.installOck),
        (0x21, Instr.installUak), (0x22, Instr.installSignerKeys), (0x23, Instr.transferOwnership),
        (0x24, Instr.revokeVendorSlot), (0x25, Instr.installFirmware), (0x26, Instr.advanceCounter), (0x30, Instr.zeroise),
        (0x31, Instr.scrap)], ∀ c : Credential, s.secState = 1 ∨ s.secState = 3 ∧ isUser c = false → s.sec.lockout = false →
      Completes (exec (x.2 c) s) fun t => t.sec.challenge = none ∧ t.fld (secReg Reg.SEC_STATUS) 15 14 = 2 ∧
        t = { s with sec := t.sec, regs := t.regs, free := t.free } ∧
        (∀ vs, s.verifies x.1 (s.request x.1) c = (true, vs) → (isUser c = true → userMay x.1 = true) →
          (isOfficer c = true → officerMay x.1 = true) → t.sec.strikes = 0 ∧
          RegsKept s t [secReg Reg.SEC_STATUS, secReg Reg.SEC_VERIFY_MAX_US] ∧
          t.sec.service = some (.mk x.1 (s.request x.1) 0 (isOfficer c) vs)) ∧
        ((s.verifies x.1 (s.request x.1) c).1 = false → t.sec.strikes = s.sec.strikes + 1 ∧
          t.rd (secReg Reg.SEC_AUTH_FAILS) = s.rd (secReg Reg.SEC_AUTH_FAILS) + 1 ∧
          ∃ w, t.sec.service = some w ∧ w.status = 0x75)) ∧
    (s.secState = 1 ∨ s.secState = 3 → (Completes (exec .challenge s) fun t =>
        t.sec.service = some (.mk 2 [] 0 false []) ∧ RegsKept s t [secReg Reg.SEC_STATUS]) ∧
      (Completes (exec .selfTest s) fun t => t.sec.service = some (.mk 1 [] 0 false []) ∧ t.secState = 0 ∧
        t.sec.back = s.secState ∧ RegsKept s t [secReg Reg.SEC_STATUS]))) ∧
  (∀ s : State, s.fnReach 0 = true → (s.fnAt 0).d3hot = false → s.sec.service ≠ none →
    (∀ c ∈ [Instr.selfTest, .challenge], exec c s = .next ((s.secFlag 0).wr (secReg Reg.SEC_RESULT) 0x76000000)) ∧
    (∀ k, ∀ c ∈ [Instr.attest k, .extend k, .setTime k, .installOck k, .installUak k, .installSignerKeys k,
      .transferOwnership k, .revokeVendorSlot k, .installFirmware k, .advanceCounter k, .zeroise k, .scrap k],
      exec c s = .next (((s.setSec { s.sec with challenge := none }).secFlag 0).wr (secReg Reg.SEC_RESULT) 0x76000000))) ∧
  (∀ (v : SecService) (pass : Bool) (m : MemFind) (s : State), s.sec.service = some v →
    Completes (exec (.secServiceDone pass m) s) fun t =>
      t.sec.service = none ∧ t.fld (secReg Reg.SEC_STATUS) 15 14 = 1 ∧
      (v.status ≠ 0 → t.fld (secReg Reg.SEC_RESULT) 31 24 = v.status % 256 ∧ t.nv = s.nv) ∧
      (v.status = 0 →
        (v.op = 0x01 → (pass = true → s.sec.back < 16 → t.secState = s.sec.back) ∧ (pass = false → t.secState = 2)) ∧
        (v.op = 0x02 → ∃ c, t.sec.challenge = some c ∧ c.length = 32) ∧
        (v.op = 0x11 → 8 ≤ reqNat v.req 0 1 → reqNat v.req 0 1 < 16 →
          t.mreg (reqNat v.req 0 1) = sha512 (s.mreg (reqNat v.req 0 1) ++ v.req.drop 1)) ∧
        (v.op = 0x12 → v.officer = true → t.rd64 (rtcReg Reg.RTC_TIME) = reqNat v.req 0 8 ∧ t.timeValid = true) ∧
        (v.op = 0x20 → t.nv.sec = match kwUnwrap kekEntry v.req with
          | some k => { s.nv.sec with ock := some k } | none => s.nv.sec) ∧
        (v.op = 0x21 → t.nv.sec = match kwUnwrap kekEntry v.req with
          | some k => { s.nv.sec with uak := some k } | none => s.nv.sec) ∧
        (v.op = 0x22 → (s.nv.sec.slotHash (reqNat v.req 0 1) = some (sha512 (v.req.drop 1)) →
            t.nv.sec.slotKeys (reqNat v.req 0 1) = some (v.req.drop 1)) ∧
          (s.nv.sec.slotHash (reqNat v.req 0 1) ≠ some (sha512 (v.req.drop 1)) → t.nv = s.nv ∧
            t.fld (secReg Reg.SEC_RESULT) 31 24 = 0x73)) ∧
        (v.op = 0x24 → reqNat v.req 0 1 < 4 → t.nv.sec.slotLive (reqNat v.req 0 1) = false) ∧
        (v.op = 0x26 → t.nv.sec.counter (reqNat v.req 0 1) =
          Max.max (s.nv.sec.counter (reqNat v.req 0 1)) (reqNat v.req 1 4)) ∧
        (v.op = 0x30 → (∀ d < 16, (s.cfgAt d).load = none) → t.nv.sec = { s.nv.sec with ock := none, uak := none } ∧
          t.secState = 3) ∧
        (v.op = 0x31 → (∀ d < 16, (s.cfgAt d).load = none) → t.nv.sec = { s.nv.sec with
          killed := true, ock := none, uak := none } ∧ t.secState = 4))) ∧
  (∀ s : State, s.sec.lockout = true →
    exec .authLockoutEnd s = .next (s.setSec { s.sec with lockout := false, strikes := 0 })) ∧
  (∀ s : State, s.board.held = false → s.secState ≠ 4 → Completes (exec .entropyTestFail s) fun t => t.secState = 2 ∧
    t.rbit (secReg Reg.SEC_ERR_FLAGS) 6 = true ∧ t = { s with
      regs := t.regs, sec := t.sec, plan := if s.bootPhase = 0 then { s.plan with stopped := true } else s.plan })

/-- A pair attaches, syncs, beats, mirrors, takes over and detaches. An attach that nothing stands against copies
regions and records to the partner and syncs; one that fails shows its cause. A sync answered in full is shown, and
protects the pair where the partner has synced. A heartbeat sends the next count; a check that sees a new one clears
the misses, one that does not counts a miss. A transfer to the partner goes as writes of at most a 256-byte granule,
kept by the engine's own edge die until they are answered. One that is answered in full leaves those waiting, and its
job is queued; one that failed loses the partner. Takeover serves from state lost and is refused elsewhere; detach leaves
lost or serving for unpaired, and protected for detaching, which stays while a write waits.
(12_eovaol_fabric.md (R271, R285, R286); 18_twin_pairing.md (R397 to R407)) -/
def Obligations.TwinCommandsComplete : Prop :=
  (∀ s : State, s.fnReach 0 = true → (s.fnAt 0).d3hot = false →
    (s.attachCause = 0 → Completes (exec .attach s) fun t => ∃ u : State, t = u.mirrorSend s.syncParts .sync ∧
      u.twinState = 1 ∧ u.twin = { TwinState.init with made := s.twin.made, mine := s.twin.mine } ∧
      u = { s with regs := u.regs, twin := u.twin } ∧ OnlyRegs { s with twin := u.twin } u [twnReg Reg.TWN_STATUS]) ∧
    (s.attachCause ≠ 0 → Completes (exec .attach s) fun t => t.twin = s.twin ∧
      t.rdN (twnReg Reg.TWN_ATTACH_CAUSE) = s.attachCause ∧ t.rbit (twnReg Reg.TWN_ERR_FLAGS) 4 = true ∧
      OnlyRegs s t [twnReg Reg.TWN_ATTACH_CAUSE, twnReg Reg.TWN_ERR_FLAGS, twnReg Reg.TWN_FAULT_COUNT]) ∧
    (∀ m : MemFind, s.twinState ≠ 3 → exec (.takeover m) s = .next (s.twinFlag 0)) ∧
    (∀ m : MemFind, s.twinState = 3 → Completes (exec (.takeover m) s) fun t =>
      t.twinState = 4 ∧ (∀ e, MirrorWrite.entry e ∉ t.twin.writes.map (·.act)) ∧ ∀ j v, t.jobAt j = some v → v.heldTwin = false) ∧
    (s.twinState = 3 ∨ s.twinState = 4 → Completes (exec .detach s) fun t => t.twinState = 0 ∧
      t.twin = { TwinState.init with barriers := t.twin.barriers, made := t.twin.made, mine := t.twin.mine }) ∧
    (s.twinState = 5 → (∃ x ∈ s.twin.writes, x.act ≠ .heartbeat) → exec .detach s = .next (s.twinFlag 0)) ∧
    (s.twinState = 2 → s.mirroredJobs = [] → Completes (exec .detach s) fun t => t.twinState = 5 ∧ t.twin = s.twin ∧
      OnlyRegs s t [twnReg Reg.TWN_STATUS]) ∧
    (s.twinState < 2 ∨ 5 < s.twinState → exec .detach s = .next (s.twinFlag 0))) ∧
  (∀ (us : Nat) (s : State), s.twinState = 1 → s.rbit (twnReg Reg.TWN_STATUS) 19 = false →
    MirrorWrite.sync ∉ s.twin.writes.map (·.act) → Completes (exec (.syncDone us) s) fun t =>
      t.rbit (twnReg Reg.TWN_STATUS) 19 = true ∧ t.rd (twnReg Reg.TWN_SYNC_US) = BitVec.ofNat 32 us ∧
      t.twinState = (if s.rbit (twnReg Reg.TWN_STATUS) 18 then 2 else 1)) ∧
  (∀ s : State, s.twinState ≠ 0 → Completes (exec .heartbeatSend s) fun t => ∃ bs : List Byte, bs.length = 32 ∧
    bytesNat (bs.take 4) = (s.twin.sent + 1) % 2 ^ 32 ∧ bitsOf (bytesNat bs) 35 32 = s.twinState ∧
    t = (({ s with twin := { s.twin with sent := s.twin.sent + 1 } } : State).mirrorSend
      [(s.rd64 (twnReg Reg.TWN_PARTNER_MIRROR), bs)] .heartbeat).bump64 (twnReg Reg.TWN_HB_SENT) 1) ∧
  (∀ (ws : List (Nat × List Byte)) (w : MirrorWrite) (s : State), ∃ (u : State) (todo : List (Nat × List Byte)),
    s.mirrorSend ws w = u.settleFences ∧ todo.flatMap (·.2) = ws.flatMap (·.2) ∧
    (∀ p ∈ todo, p.1 % 256 + p.2.length ≤ 256 ∧ p.2 ≠ []) ∧
    u = { s with
      out := s.out ++ ws.map (fun x => Output.mirror x.1 x.2)
      twin := { s.twin with made := s.twin.made + 1
                            writes := s.twin.writes ++ [⟨s.twin.made, w, mirrorCls w, todo, 0, 0⟩] } }) ∧
  (∀ (m : MemFind) (r : MemAns) (u s : State), s.twinState ≠ 0 →
    s.roundTrip (twinAgent s.twinPort) (s.rd64 (twnReg Reg.TWN_MIRROR_BASE)) 32 none m = (r, u) → r.status = 0 →
    let w := bytesNat (r.data.take 8)
    (bitsOf w 31 0 ≠ u.twin.seen → ¬ (3 ≤ bitsOf w 35 32 ∧ bitsOf w 35 32 ≤ 5) →
      Completes (exec (.heartbeatCheck m) s) fun t => t.twin = { u.twin with misses := 0, seen := bitsOf w 31 0 } ∧
        t.fld (twnReg Reg.TWN_STATUS) 23 20 = bitsOf w 35 32 ∧ t.mem = u.mem) ∧
    (bitsOf w 31 0 = u.twin.seen → u.twin.misses + 1 < u.fld (twnReg Reg.TWN_HB_MISS) 7 0 →
      ¬ (3 ≤ bitsOf w 35 32 ∧ bitsOf w 35 32 ≤ 5) → Completes (exec (.heartbeatCheck m) s) fun t =>
        t.twin = { u.twin with misses := u.twin.misses + 1 } ∧ t.mem = u.mem ∧
        t.rd (twnReg Reg.TWN_HB_MISSED) = u.rd (twnReg Reg.TWN_HB_MISSED) + 1)) ∧
  (∀ (i : Nat) (x : MirrorXfer) (s : State), s.twin.writes[i]? = some x →
    let u : State := { s with twin := { s.twin with writes := s.twin.writes.eraseIdx i } }
    let v : State := u.bump64 (twnReg Reg.TWN_MIRROR_WRITES) 1
    (x.todo = [] → x.left = 0 → x.status = 0 →
      (x.act = .heartbeat → exec (.mirrorWriteResponse i 0) s = .next u) ∧
      (x.act = .empty ∨ x.act = .sync → exec (.mirrorWriteResponse i 0) s = .next v) ∧
      (∀ j y, x.act = .entry (.job j) → s.jobAt j = some y → y.phase = .mirroring →
        Completes (exec (.mirrorWriteResponse i 0) s) fun t => t.jobAt j = some { y with phase := .queued } ∧
          j ∈ t.queueOf y.part y.cls ∧ t = { v with jobs := t.jobs, queues := t.queues }) ∧
      (∀ off bs, x.act = .ckpt off bs 0 → Completes (exec (.mirrorWriteResponse i 0) s) fun t => ∃ tag set,
        t = (({ v with
          out := v.out ++ [.mirrorFence]
          twin := { v.twin with made := v.twin.made + 1, mine := tput v.twin.mine v.nextHome v.twin.made
                                writes := v.twin.writes ++ [⟨v.twin.made, .ckpt off bs 1, 2, [], 1, 0⟩] } } : State)).addHome
          (.fence (.edge s.twinEdge) 3 tag (s.fld (twnReg Reg.TWN_PARTNER) 19 0) 2 0 set none)) ∧
      (∀ off bs, x.act = .ckpt off bs 1 →
        exec (.mirrorWriteResponse i 0) s = .next (v.mirrorSend [(off, bs)] (.ckpt off bs 2))) ∧
      (∀ off bs, x.act = .ckpt off bs 2 → exec (.mirrorWriteResponse i 0) s = .next v)) ∧
    (x.status % 256 ≠ 0 →
      (x.act = .heartbeat → exec (.mirrorWriteResponse i x.status) s = .next (u.partnerLost 3)) ∧
      (x.act ∈ [.empty, .sync] ∨ (∃ off bs n, x.act = .ckpt off bs n) →
        exec (.mirrorWriteResponse i x.status) s = .next (v.partnerLost 3))))

/-- Bring-up's phases, deadlines and points, training and the PCIe links complete. With the module out of reset, the
phase under way ends: its number and its time are shown, and after phase 5 the module is ready; phase 1 may stop instead
where a test, the kill fuse or the firmware of both banks stands against it. A deadline that a phase misses is flagged;
at 17 ms phase 3 ends with its test cut to the slices done. At 900 ms without ready the module is in recovery. At 60 ms,
and where a PCIe link reaches L0, every pending channel starts training, once; the link is up with its speed and width.
(14_host_interface.md (R315, R319); 16_bring_up_and_floor_plan.md (R360 to R362)) -/
def Obligations.BringUpEventsComplete : Prop :=
  (∀ (f : PhaseFind) (s : State), s.board.held = false → s.plan.stopped = false → s.inRecovery = false →
    s.bootPhase < 5 → ∃ t, Sys2Proof.Machine.exec (.bringupPhaseEnd f) s = .next t ∧
      (t.plan.stopped = false → t.bootPhase = s.bootPhase + 1 ∧
        t.rd (tstReg (0x20 + 4 * (s.bootPhase + 1))) = BitVec.ofNat 32 f.us) ∧
      (s.bootPhase ≠ 0 → t.plan.stopped = false) ∧ (s.bootPhase = 4 → t.isReady = true) ∧
      (s.bootPhase ≠ 4 → t.isReady = s.isReady)) ∧
  (∀ (n : Fin 5) (f : PhaseFind) (s : State), s.board.held = false → s.inRecovery = false → s.bootPhase ≤ n →
    ∃ t, Sys2Proof.Machine.exec (.phaseDeadline n f) s = .next t ∧
      (n.val = 2 → s.plan.stopped = false → s.bootPhase = 2 →
        t.bootPhase = 3 ∧ t.plan.slices = f.slices.map (fun x => x.val)) ∧
      (n.val ≠ 2 ∨ s.plan.stopped = true ∨ s.bootPhase ≠ 2 → t.rbit (tstReg Reg.TST_BOOT_PHASE) (16 + n) = true ∧
        OnlyRegs s t [tstReg Reg.TST_BOOT_PHASE] ∧ t.bootPhase = s.bootPhase)) ∧
  (∀ s : State, s.board.held = false → s.isReady = false →
    ∃ t, Sys2Proof.Machine.exec .recoveryPoint s = .next t ∧ t.inRecovery = true ∧ t.isReady = false ∧
      t.rbit (tstReg Reg.TST_BOOT_PHASE) 31 = true ∧
      OnlyRegs s t [hifReg Reg.HIF_STATUS, tstReg Reg.TST_BOOT_PHASE]) ∧
  (∀ s : State, s.board.held = false → ∃ t, Sys2Proof.Machine.exec .trainingStartPoint s = .next t ∧
    t.plan.trained = true ∧ (s.plan.trained = true → t = s) ∧
    (s.plan.trained = false → ∀ c < 64, t.chanState c = if s.chanState c = 2 then 3 else s.chanState c) ∧
    t = { s with plan := { s.plan with trained := true }, regs := t.regs }) ∧
  (∀ (l : Fin 2) (speed : Fin 8) (width : Fin 5) (s : State), s.linkUp l = false → speed ≠ 0 →
    (l = 1 → s.rbit (hifReg Reg.HIF_STATUS) 28 = true) →
    (s.rbit (hifReg Reg.HIF_STATUS) 28 = true → width.val ≤ 3) → s.board.held = false → s.edgeReach 0 = true →
    3 ≤ s.bootPhase ∨ s.inRecovery = true →
    ∃ t, Sys2Proof.Machine.exec (.pcieLinkUp l speed width) s = .next t ∧ t.linkUp l = true ∧
      t.linkUp (1 - l) = s.linkUp (1 - l) ∧
      t.fld (hifReg Reg.HIF_LINK_STATUS) (8 * l + 6) (8 * l + 4) = speed ∧
      t.fld (hifReg Reg.HIF_LINK_STATUS) (8 * l + 3) (8 * l) = width ∧ t.plan.trained = true ∧
      (s.plan.trained = false → ∀ c < 64, t.chanState c = if s.chanState c = 2 then 3 else s.chanState c) ∧
      t = { s with plan := t.plan, regs := t.regs })

/-- User logic does what its frames configure. No cell propagates and generates at once, and a cluster whose cells all
propagate passes by its skip path the carry that would come through its cells. A flip-flop takes its initial value
while its set/reset is asserted, else what it is configured to take where its clock enable is on, else stays. A write of
distributed memory is read at its address, and no other word changes. At one edge of a block memory a read sees the word
before it, on the writing port too in read-first mode; in write-first mode that port shows what it writes, in no-change
mode what it showed; and where both ports write one word, port A's stands. A long line that one tap drives carries that
tap's value, and one that none drives what the keeper holds. At a release flip-flops are at their initial values,
tables, distributed and block memories at their initial contents, and after a static load lines read 0. The pin of an I/O
cell is unpowered where its bank is off, and pulled down while its die is not released; at 1.2 V it works as LVCMOS12.
That only a static load clears lines is the model's own reading (log entry 127).
(08_logic_array.md (R170 to R172, R175, R176, R179, R194, R196); 09_configuration_loading.md (R217)) -/
def Obligations.UserLogicFollowsItsConfiguration : Prop :=
  (∀ (c : CellCfg) (t : BitVec 64) (a : Nat → Bool), ¬ ((cellTerms c t a).1 = true ∧ (cellTerms c t a).2 = true)) ∧
  (∀ (xs : List (CellCfg × BitVec 64 × (Nat → Bool))) (cin : Bool),
    clusterOut (xs.map (fun x => cellTerms x.1 x.2.1 x.2.2)) cin =
      (xs.map (fun x => cellTerms x.1 x.2.1 x.2.2)).foldl (fun c x => carryOut x c) cin) ∧
  (∀ init sr enable now next, flopNext init sr enable now next = if sr then init else if enable then next else now) ∧
  (∀ (t : BitVec 64) (a b : Nat → Bool) (d0 d1 : Bool),
    ((∀ i < 6, a i = b i) → tableZ (memoryWrite .memory64 t a d0 d1) b = d0) ∧
    ((∃ i, i < 6 ∧ a i ≠ b i) → tableZ (memoryWrite .memory64 t a d0 d1) b = tableZ t b) ∧
    ((∀ i < 5, a i = b i) → tableZL (memoryWrite .memory32 t a d0 d1) b = d0 ∧
      memoryZH (memoryWrite .memory32 t a d0 d1) b = d1) ∧
    ((∃ i, i < 5 ∧ a i ≠ b i) → tableZL (memoryWrite .memory32 t a d0 d1) b = tableZL t b ∧
      memoryZH (memoryWrite .memory32 t a d0 d1) b = memoryZH t b)) ∧
  (∀ (d m : Nat) (c : BramCfg) (x y : MemAsk) (s : State), c.a.shape ≠ 6 → c.b.shape ≠ 6 →
    let t := s.bramEdge d m c (some x) (some y)
    (x.enable = true → x.write = false ∨ c.a.mode = 0 →
      t.bramOut d m 0 = ⟨s.bramRead d m c.a.shape x.addr, false, false⟩) ∧
    (y.enable = true → y.write = false ∨ c.b.mode = 0 →
      t.bramOut d m 1 = ⟨s.bramRead d m c.b.shape y.addr, false, false⟩) ∧
    (x.enable = true → x.write = true → c.a.mode = 1 → t.bramOut d m 0 = ⟨x.data, false, false⟩) ∧
    (x.enable = true → x.write = true → c.a.mode = 2 → t.bramOut d m 0 = s.bramOut d m 0) ∧
    (x.enable = true → x.write = true → x.addr < 2 ^ shapeAddr c.a.shape →
      t.bramRead d m c.a.shape x.addr = BitVec.ofNat 72 (x.data.toNat % 2 ^ shapeWidth c.a.shape)) ∧
    (y.enable = true → y.write = true → (x.enable && x.write) = false →
      y.addr < 2 ^ shapeAddr c.b.shape →
      t.bramRead d m c.b.shape y.addr = BitVec.ofNat 72 (y.data.toNat % 2 ^ shapeWidth c.b.shape))) ∧
  (∀ (d rr line : Nat) (v : Site → Bool) (s : State),
    (∀ col, s.drivers d v rr line = [col] → s.lineValue d v rr line = v ⟨.tapIn, tileOf rr col, col, line⟩) ∧
    (s.drivers d v rr line = [] → s.lineValue d v rr line = tget (fun _ => false) s.lines (lineKey d rr line))) ∧
  (∀ (d rr col n : Nat) (x : DieLoad) (v : CfgLoad) (s : State), rr < 16 → col < 800 → n < 128 →
    let t := s.releaseReset d x v
    (t.cfgAt d).loadTiles v.isPartial v.region (tileOf rr col) = true →
      ∀ (c : CellCfg) (sr : Bool), t.flop d rr col n 0 c sr = c.init.1 ∧ t.flop d rr col n 1 c sr = c.init.2 ∧
        t.tableOf d rr col n c = c.table) ∧
  (∀ (d m w : Nat) (x : DieLoad) (v : CfgLoad) (s : State), m < 2048 → w < 512 →
    let t := s.releaseReset d x v
    (t.cfgAt d).loadTiles v.isPartial v.region (memTile m) = true →
      t.bramWord d m w = t.bramInit (bramKey d m w) ∧ t.bramFlip d m w = 0) ∧
  (∀ (d rr line : Nat) (x : DieLoad) (v : CfgLoad) (s : State), rr < 16 → line < 16 → v.isPartial = false →
    tget (fun _ => false) (s.releaseReset d x v).lines (lineKey d rr line) = false) ∧
  (∀ (c : Nat) (s : State),
    (s.fld (lgaReg (dieOfCell c) Reg.LGA_IO_BANK) 3 2 = 0 → s.pinState c = .unpowered) ∧
    (s.fld (lgaReg (dieOfCell c) Reg.LGA_IO_BANK) 3 2 ≠ 0 → s.dieState (dieOfCell c) ≠ 3 → s.pinState c = .pulldown)) ∧
  (∀ (x : IoCellCfg) (c : Nat), ioStandard 1 x c = .lvcmos12 ∧ (ioStandard 2 x c = .lvds → (ioPair c).isSome = true))
end

