-- ==== Sys2Proof/Laws/Table.lean ====
section
/-! SUPPORT. Laws of tables: what a read after a write gives, and that every table operation keeps the canonical form. -/

namespace Sys2Proof.Machine

variable {α : Type}

/-- Reading a table after an entry is put. -/
theorem tget_tput (d : Nat → α) (t : Table α) (k k2 : Nat) (v : α) :
    tget d (tput t k v) k2 = if k2 = k then v else tget d t k2 := by
  fun_induction tput t k v <;> grind [tget]

/-- Reading a table after an entry is removed. -/
theorem tget_terase (d : Nat → α) (t : Table α) (k k2 : Nat) :
    tget d (terase t k) k2 = if k2 = k then d k else tget d t k2 := by
  induction t with grind [terase, tget]

theorem tget_tput_same (d : Nat → α) (t : Table α) (k : Nat) (v : α) : tget d (tput t k v) k = v := by
  rw [tget_tput, if_pos rfl]

theorem tget_tput_ne (d : Nat → α) (t : Table α) {k k2 : Nat} (v : α) (h : k2 ≠ k) :
    tget d (tput t k v) k2 = tget d t k2 := by
  rw [tget_tput, if_neg h]

theorem tget_terase_same (d : Nat → α) (t : Table α) (k : Nat) : tget d (terase t k) k = d k := by
  rw [tget_terase, if_pos rfl]

theorem tget_terase_ne (d : Nat → α) (t : Table α) {k k2 : Nat} (h : k2 ≠ k) :
    tget d (terase t k) k2 = tget d t k2 := by
  rw [tget_terase, if_neg h]

@[simp] theorem tget_tset_same [DecidableEq α] (d : Nat → α) (t : Table α) (k : Nat) (v : α) :
    tget d (tset d t k v) k = v := by
  unfold tset
  split
  · next h => rw [tget_terase_same, h]
  · exact tget_tput_same d t k v

theorem tget_tset_ne [DecidableEq α] (d : Nat → α) (t : Table α) {k k2 : Nat} (v : α) (h : k2 ≠ k) :
    tget d (tset d t k v) k2 = tget d t k2 := by
  unfold tset
  split
  · exact tget_terase_ne d t h
  · exact tget_tput_ne d t v h

/-- Reading a table after a write, in one line. -/
theorem tget_tset [DecidableEq α] (d : Nat → α) (t : Table α) (k k2 : Nat) (v : α) :
    tget d (tset d t k v) k2 = if k2 = k then v else tget d t k2 := by
  split
  · next h => subst h; exact tget_tset_same d t k2 v
  · next h => exact tget_tset_ne d t v h

/-! ### Canonical form -/

theorem sorted_iff_pairwise (t : Table α) : Table.sorted t = true ↔ t.Pairwise (fun a b => a.1 < b.1) := by
  fun_induction Table.sorted t <;> grind [List.pairwise_cons]

theorem mem_tput {t : Table α} {k : Nat} {v : α} {e : Nat × α} (h : e ∈ tput t k v) : e = (k, v) ∨ e ∈ t := by
  fun_induction tput t k v <;> grind

theorem tput_sorted {t : Table α} (k : Nat) (v : α) (h : Table.sorted t = true) : Table.sorted (tput t k v) = true := by
  rw [sorted_iff_pairwise] at *
  fun_induction tput t k v <;> grind [→ mem_tput, List.pairwise_cons]

theorem terase_sorted {t : Table α} (k : Nat) (h : Table.sorted t = true) : Table.sorted (terase t k) = true := by
  rw [sorted_iff_pairwise] at *
  exact h.filter _

theorem wf_iff [DecidableEq α] (d : Nat → α) (t : Table α) :
    Table.wf d t = true ↔ Table.sorted t = true ∧ ∀ e ∈ t, e.2 ≠ d e.1 := by
  simp [Table.wf, List.all_eq_true]

/-- Removing an entry keeps the canonical form. -/
theorem terase_wf [DecidableEq α] {d : Nat → α} {t : Table α} (k : Nat) (h : Table.wf d t = true) :
    Table.wf d (terase t k) = true := by
  rw [wf_iff] at *
  exact ⟨terase_sorted k h.1, fun e he => h.2 e (List.mem_filter.1 he).1⟩

/-- Keeping a part of the entries keeps the canonical form. -/
theorem filter_wf [DecidableEq α] {d : Nat → α} {t : Table α} (p : Nat × α → Bool) (h : Table.wf d t = true) :
    Table.wf d (t.filter p) = true := by
  rw [wf_iff, sorted_iff_pairwise] at *
  exact ⟨h.1.filter p, fun e he => h.2 e (List.mem_filter.1 he).1⟩

/-- A write keeps the canonical form. -/
theorem tset_wf [DecidableEq α] {d : Nat → α} {t : Table α} (k : Nat) (v : α) (h : Table.wf d t = true) :
    Table.wf d (tset d t k v) = true := by
  unfold tset
  split
  · exact terase_wf k h
  · next hv =>
    rw [wf_iff] at *
    refine ⟨tput_sorted k v h.1, fun e he => ?_⟩
    rcases mem_tput he with rfl | he
    · exact hv
    · exact h.2 e he

/-- Writing bytes keeps the canonical form. -/
theorem tputBytes_wf {t : Table Byte} (a : Nat) (vs : List Byte) (h : Table.wf (fun _ => 0) t = true) :
    Table.wf (fun _ => 0) (tputBytes t a vs) = true := by
  induction vs generalizing t a with
  | nil => exact h
  | cons v vs ih => exact ih (a + 1) (tset_wf a v h)

theorem tputSome_wf {t : Table Byte} (a : Nat) (vs : List (Option Byte)) (h : Table.wf (fun _ => 0) t = true) :
    Table.wf (fun _ => 0) (tputSome t a vs) = true := by
  induction vs generalizing t a with
  | nil => exact h
  | cons v vs ih =>
    cases v with
    | none => exact ih (a + 1) h
    | some v => exact ih (a + 1) (tset_wf a v h)

/-- A byte outside the written ones reads as before. -/
theorem tget_tputBytes_out (t : Table Byte) (a : Nat) (vs : List Byte) (k : Nat) (h : k < a ∨ a + vs.length ≤ k) :
    tget (fun _ => 0) (tputBytes t a vs) k = tget (fun _ => 0) t k := by
  induction vs generalizing t a with
  | nil => rfl
  | cons v vs ih =>
    simp only [List.length_cons] at h
    rw [tputBytes, ih _ _ (by omega), tget_tset_ne _ _ _ (by omega)]

/-- A written byte reads as written. -/
theorem tget_tputBytes_in (t : Table Byte) (a : Nat) (vs : List Byte) (i : Nat) (h : i < vs.length) :
    tget (fun _ => 0) (tputBytes t a vs) (a + i) = vs[i] := by
  induction vs generalizing t a i with
  | nil => simp at h
  | cons v vs ih =>
    cases i with
    | zero => rw [tputBytes, tget_tputBytes_out _ _ _ _ (by omega)]; simp
    | succ i =>
      have := ih (tset (fun _ => 0) t a v) (a + 1) i (by simpa using h)
      simpa [tputBytes, Nat.add_assoc, Nat.add_comm 1 i] using this

end Sys2Proof.Machine
end

