-- ==== Sys2Proof/Laws/State.lean ====
section
/-! SUPPORT. What each plain update leaves of the state: one lemma per field and update, so that no proof unfolds a record
update; and the read-after-write laws of registers, memory and units. -/

namespace Sys2Proof.Machine

variable (s : State)

/-! ### regs -/

@[simp] theorem setChan_regs (b c : Nat) (v : Chan) : (s.setChan b c v).regs = s.regs := rfl
@[simp] theorem setMtx_regs (t : Nat) (m : Mtx) : (s.setMtx t m).regs = s.regs := rfl
@[simp] theorem emit_regs (o : Output) : (s.emit o).regs = s.regs := rfl
@[simp] theorem setVec_regs (b : Nat) (v : Vec) : (s.setVec b v).regs = s.regs := rfl
@[simp] theorem setPort_regs (b p : Nat) (v : TilePort) : (s.setPort b p v).regs = s.regs := rfl
@[simp] theorem setBay_regs (b : Nat) (v : BaySeq) : (s.setBay b v).regs = s.regs := rfl
@[simp] theorem writeBytes_regs (a : Nat) (vs : List Byte) : (s.writeBytes a vs).regs = s.regs := rfl
@[simp] theorem setCfg_regs (d : Nat) (v : DieCfg) : (s.setCfg d v).regs = s.regs := rfl
@[simp] theorem setCq_regs (f r : Nat) (v : CplRing) : (s.setCq f r v).regs = s.regs := rfl
@[simp] theorem setJob_regs (j : Nat) (v : Job) : (s.setJob j v).regs = s.regs := rfl
@[simp] theorem setBoard_regs (b : Pins) : (s.setBoard b).regs = s.regs := rfl
@[simp] theorem setFn_regs (f : Nat) (v : FnState) : (s.setFn f v).regs = s.regs := rfl
@[simp] theorem setSq_regs (f r : Nat) (v : SubRing) : (s.setSq f r v).regs = s.regs := rfl
@[simp] theorem setHeat_regs (src : Nat) (h : Heat) : (s.setHeat src h).regs = s.regs := rfl
@[simp] theorem writeByte_regs (a : Nat) (v : BitVec 8) : (s.writeByte a v).regs = s.regs := rfl

/-! ### mem -/

@[simp] theorem wr_mem (k : Nat) (v : Word) : (s.wr k v).mem = s.mem := rfl
@[simp] theorem setChan_mem (b c : Nat) (v : Chan) : (s.setChan b c v).mem = s.mem := rfl
@[simp] theorem setMtx_mem (t : Nat) (m : Mtx) : (s.setMtx t m).mem = s.mem := rfl
@[simp] theorem emit_mem (o : Output) : (s.emit o).mem = s.mem := rfl
@[simp] theorem setVec_mem (b : Nat) (v : Vec) : (s.setVec b v).mem = s.mem := rfl
@[simp] theorem setPort_mem (b p : Nat) (v : TilePort) : (s.setPort b p v).mem = s.mem := rfl
@[simp] theorem setBay_mem (b : Nat) (v : BaySeq) : (s.setBay b v).mem = s.mem := rfl
@[simp] theorem setCfg_mem (d : Nat) (v : DieCfg) : (s.setCfg d v).mem = s.mem := rfl
@[simp] theorem setCq_mem (f r : Nat) (v : CplRing) : (s.setCq f r v).mem = s.mem := rfl
@[simp] theorem setJob_mem (j : Nat) (v : Job) : (s.setJob j v).mem = s.mem := rfl
@[simp] theorem setBoard_mem (b : Pins) : (s.setBoard b).mem = s.mem := rfl
@[simp] theorem setFn_mem (f : Nat) (v : FnState) : (s.setFn f v).mem = s.mem := rfl
@[simp] theorem setSq_mem (f r : Nat) (v : SubRing) : (s.setSq f r v).mem = s.mem := rfl
@[simp] theorem setHeat_mem (src : Nat) (h : Heat) : (s.setHeat src h).mem = s.mem := rfl

/-! ### poison -/

@[simp] theorem wr_poison (k : Nat) (v : Word) : (s.wr k v).poison = s.poison := rfl
@[simp] theorem setChan_poison (b c : Nat) (v : Chan) : (s.setChan b c v).poison = s.poison := rfl
@[simp] theorem setMtx_poison (t : Nat) (m : Mtx) : (s.setMtx t m).poison = s.poison := rfl
@[simp] theorem emit_poison (o : Output) : (s.emit o).poison = s.poison := rfl
@[simp] theorem setVec_poison (b : Nat) (v : Vec) : (s.setVec b v).poison = s.poison := rfl
@[simp] theorem setPort_poison (b p : Nat) (v : TilePort) : (s.setPort b p v).poison = s.poison := rfl
@[simp] theorem setBay_poison (b : Nat) (v : BaySeq) : (s.setBay b v).poison = s.poison := rfl
@[simp] theorem writeBytes_poison (a : Nat) (vs : List Byte) : (s.writeBytes a vs).poison = s.poison := rfl
@[simp] theorem setCfg_poison (d : Nat) (v : DieCfg) : (s.setCfg d v).poison = s.poison := rfl
@[simp] theorem setCq_poison (f r : Nat) (v : CplRing) : (s.setCq f r v).poison = s.poison := rfl
@[simp] theorem setJob_poison (j : Nat) (v : Job) : (s.setJob j v).poison = s.poison := rfl
@[simp] theorem setBoard_poison (b : Pins) : (s.setBoard b).poison = s.poison := rfl
@[simp] theorem setFn_poison (f : Nat) (v : FnState) : (s.setFn f v).poison = s.poison := rfl
@[simp] theorem setSq_poison (f r : Nat) (v : SubRing) : (s.setSq f r v).poison = s.poison := rfl
@[simp] theorem setHeat_poison (src : Nat) (h : Heat) : (s.setHeat src h).poison = s.poison := rfl
@[simp] theorem writeByte_poison (a : Nat) (v : BitVec 8) : (s.writeByte a v).poison = s.poison := rfl

/-! ### openRows -/

@[simp] theorem wr_openRows (k : Nat) (v : Word) : (s.wr k v).openRows = s.openRows := rfl
@[simp] theorem setChan_openRows (b c : Nat) (v : Chan) : (s.setChan b c v).openRows = s.openRows := rfl
@[simp] theorem setMtx_openRows (t : Nat) (m : Mtx) : (s.setMtx t m).openRows = s.openRows := rfl
@[simp] theorem emit_openRows (o : Output) : (s.emit o).openRows = s.openRows := rfl
@[simp] theorem setVec_openRows (b : Nat) (v : Vec) : (s.setVec b v).openRows = s.openRows := rfl
@[simp] theorem setPort_openRows (b p : Nat) (v : TilePort) : (s.setPort b p v).openRows = s.openRows := rfl
@[simp] theorem setBay_openRows (b : Nat) (v : BaySeq) : (s.setBay b v).openRows = s.openRows := rfl
@[simp] theorem writeBytes_openRows (a : Nat) (vs : List Byte) : (s.writeBytes a vs).openRows = s.openRows := rfl
@[simp] theorem setCfg_openRows (d : Nat) (v : DieCfg) : (s.setCfg d v).openRows = s.openRows := rfl
@[simp] theorem setCq_openRows (f r : Nat) (v : CplRing) : (s.setCq f r v).openRows = s.openRows := rfl
@[simp] theorem setJob_openRows (j : Nat) (v : Job) : (s.setJob j v).openRows = s.openRows := rfl
@[simp] theorem setBoard_openRows (b : Pins) : (s.setBoard b).openRows = s.openRows := rfl
@[simp] theorem setFn_openRows (f : Nat) (v : FnState) : (s.setFn f v).openRows = s.openRows := rfl
@[simp] theorem setSq_openRows (f r : Nat) (v : SubRing) : (s.setSq f r v).openRows = s.openRows := rfl
@[simp] theorem setHeat_openRows (src : Nat) (h : Heat) : (s.setHeat src h).openRows = s.openRows := rfl
@[simp] theorem writeByte_openRows (a : Nat) (v : BitVec 8) : (s.writeByte a v).openRows = s.openRows := rfl

/-! ### hitRuns -/

@[simp] theorem wr_hitRuns (k : Nat) (v : Word) : (s.wr k v).hitRuns = s.hitRuns := rfl
@[simp] theorem setChan_hitRuns (b c : Nat) (v : Chan) : (s.setChan b c v).hitRuns = s.hitRuns := rfl
@[simp] theorem setMtx_hitRuns (t : Nat) (m : Mtx) : (s.setMtx t m).hitRuns = s.hitRuns := rfl
@[simp] theorem emit_hitRuns (o : Output) : (s.emit o).hitRuns = s.hitRuns := rfl
@[simp] theorem setVec_hitRuns (b : Nat) (v : Vec) : (s.setVec b v).hitRuns = s.hitRuns := rfl
@[simp] theorem setPort_hitRuns (b p : Nat) (v : TilePort) : (s.setPort b p v).hitRuns = s.hitRuns := rfl
@[simp] theorem setBay_hitRuns (b : Nat) (v : BaySeq) : (s.setBay b v).hitRuns = s.hitRuns := rfl
@[simp] theorem writeBytes_hitRuns (a : Nat) (vs : List Byte) : (s.writeBytes a vs).hitRuns = s.hitRuns := rfl
@[simp] theorem setCfg_hitRuns (d : Nat) (v : DieCfg) : (s.setCfg d v).hitRuns = s.hitRuns := rfl
@[simp] theorem setCq_hitRuns (f r : Nat) (v : CplRing) : (s.setCq f r v).hitRuns = s.hitRuns := rfl
@[simp] theorem setJob_hitRuns (j : Nat) (v : Job) : (s.setJob j v).hitRuns = s.hitRuns := rfl
@[simp] theorem setBoard_hitRuns (b : Pins) : (s.setBoard b).hitRuns = s.hitRuns := rfl
@[simp] theorem setFn_hitRuns (f : Nat) (v : FnState) : (s.setFn f v).hitRuns = s.hitRuns := rfl
@[simp] theorem setSq_hitRuns (f r : Nat) (v : SubRing) : (s.setSq f r v).hitRuns = s.hitRuns := rfl
@[simp] theorem setHeat_hitRuns (src : Nat) (h : Heat) : (s.setHeat src h).hitRuns = s.hitRuns := rfl
@[simp] theorem writeByte_hitRuns (a : Nat) (v : BitVec 8) : (s.writeByte a v).hitRuns = s.hitRuns := rfl

/-! ### bankQ -/

@[simp] theorem wr_bankQ (k : Nat) (v : Word) : (s.wr k v).bankQ = s.bankQ := rfl
@[simp] theorem setChan_bankQ (b c : Nat) (v : Chan) : (s.setChan b c v).bankQ = s.bankQ := rfl
@[simp] theorem setMtx_bankQ (t : Nat) (m : Mtx) : (s.setMtx t m).bankQ = s.bankQ := rfl
@[simp] theorem emit_bankQ (o : Output) : (s.emit o).bankQ = s.bankQ := rfl
@[simp] theorem setVec_bankQ (b : Nat) (v : Vec) : (s.setVec b v).bankQ = s.bankQ := rfl
@[simp] theorem setPort_bankQ (b p : Nat) (v : TilePort) : (s.setPort b p v).bankQ = s.bankQ := rfl
@[simp] theorem setBay_bankQ (b : Nat) (v : BaySeq) : (s.setBay b v).bankQ = s.bankQ := rfl
@[simp] theorem writeBytes_bankQ (a : Nat) (vs : List Byte) : (s.writeBytes a vs).bankQ = s.bankQ := rfl
@[simp] theorem setCfg_bankQ (d : Nat) (v : DieCfg) : (s.setCfg d v).bankQ = s.bankQ := rfl
@[simp] theorem setCq_bankQ (f r : Nat) (v : CplRing) : (s.setCq f r v).bankQ = s.bankQ := rfl
@[simp] theorem setJob_bankQ (j : Nat) (v : Job) : (s.setJob j v).bankQ = s.bankQ := rfl
@[simp] theorem setBoard_bankQ (b : Pins) : (s.setBoard b).bankQ = s.bankQ := rfl
@[simp] theorem setFn_bankQ (f : Nat) (v : FnState) : (s.setFn f v).bankQ = s.bankQ := rfl
@[simp] theorem setSq_bankQ (f r : Nat) (v : SubRing) : (s.setSq f r v).bankQ = s.bankQ := rfl
@[simp] theorem setHeat_bankQ (src : Nat) (h : Heat) : (s.setHeat src h).bankQ = s.bankQ := rfl
@[simp] theorem writeByte_bankQ (a : Nat) (v : BitVec 8) : (s.writeByte a v).bankQ = s.bankQ := rfl

/-! ### checks -/

@[simp] theorem wr_checks (k : Nat) (v : Word) : (s.wr k v).checks = s.checks := rfl
@[simp] theorem setChan_checks (b c : Nat) (v : Chan) : (s.setChan b c v).checks = s.checks := rfl
@[simp] theorem setMtx_checks (t : Nat) (m : Mtx) : (s.setMtx t m).checks = s.checks := rfl
@[simp] theorem emit_checks (o : Output) : (s.emit o).checks = s.checks := rfl
@[simp] theorem setVec_checks (b : Nat) (v : Vec) : (s.setVec b v).checks = s.checks := rfl
@[simp] theorem setPort_checks (b p : Nat) (v : TilePort) : (s.setPort b p v).checks = s.checks := rfl
@[simp] theorem setBay_checks (b : Nat) (v : BaySeq) : (s.setBay b v).checks = s.checks := rfl
@[simp] theorem writeBytes_checks (a : Nat) (vs : List Byte) : (s.writeBytes a vs).checks = s.checks := rfl
@[simp] theorem setCfg_checks (d : Nat) (v : DieCfg) : (s.setCfg d v).checks = s.checks := rfl
@[simp] theorem setCq_checks (f r : Nat) (v : CplRing) : (s.setCq f r v).checks = s.checks := rfl
@[simp] theorem setJob_checks (j : Nat) (v : Job) : (s.setJob j v).checks = s.checks := rfl
@[simp] theorem setBoard_checks (b : Pins) : (s.setBoard b).checks = s.checks := rfl
@[simp] theorem setFn_checks (f : Nat) (v : FnState) : (s.setFn f v).checks = s.checks := rfl
@[simp] theorem setSq_checks (f r : Nat) (v : SubRing) : (s.setSq f r v).checks = s.checks := rfl
@[simp] theorem setHeat_checks (src : Nat) (h : Heat) : (s.setHeat src h).checks = s.checks := rfl
@[simp] theorem writeByte_checks (a : Nat) (v : BitVec 8) : (s.writeByte a v).checks = s.checks := rfl

/-! ### sweeps -/

@[simp] theorem wr_sweeps (k : Nat) (v : Word) : (s.wr k v).sweeps = s.sweeps := rfl
@[simp] theorem setChan_sweeps (b c : Nat) (v : Chan) : (s.setChan b c v).sweeps = s.sweeps := rfl
@[simp] theorem setMtx_sweeps (t : Nat) (m : Mtx) : (s.setMtx t m).sweeps = s.sweeps := rfl
@[simp] theorem emit_sweeps (o : Output) : (s.emit o).sweeps = s.sweeps := rfl
@[simp] theorem setVec_sweeps (b : Nat) (v : Vec) : (s.setVec b v).sweeps = s.sweeps := rfl
@[simp] theorem setPort_sweeps (b p : Nat) (v : TilePort) : (s.setPort b p v).sweeps = s.sweeps := rfl
@[simp] theorem setBay_sweeps (b : Nat) (v : BaySeq) : (s.setBay b v).sweeps = s.sweeps := rfl
@[simp] theorem writeBytes_sweeps (a : Nat) (vs : List Byte) : (s.writeBytes a vs).sweeps = s.sweeps := rfl
@[simp] theorem setCfg_sweeps (d : Nat) (v : DieCfg) : (s.setCfg d v).sweeps = s.sweeps := rfl
@[simp] theorem setCq_sweeps (f r : Nat) (v : CplRing) : (s.setCq f r v).sweeps = s.sweeps := rfl
@[simp] theorem setJob_sweeps (j : Nat) (v : Job) : (s.setJob j v).sweeps = s.sweeps := rfl
@[simp] theorem setBoard_sweeps (b : Pins) : (s.setBoard b).sweeps = s.sweeps := rfl
@[simp] theorem setFn_sweeps (f : Nat) (v : FnState) : (s.setFn f v).sweeps = s.sweeps := rfl
@[simp] theorem setSq_sweeps (f r : Nat) (v : SubRing) : (s.setSq f r v).sweeps = s.sweeps := rfl
@[simp] theorem setHeat_sweeps (src : Nat) (h : Heat) : (s.setHeat src h).sweeps = s.sweeps := rfl
@[simp] theorem writeByte_sweeps (a : Nat) (v : BitVec 8) : (s.writeByte a v).sweeps = s.sweeps := rfl

/-! ### mtx -/

@[simp] theorem wr_mtx (k : Nat) (v : Word) : (s.wr k v).mtx = s.mtx := rfl
@[simp] theorem setChan_mtx (b c : Nat) (v : Chan) : (s.setChan b c v).mtx = s.mtx := rfl
@[simp] theorem emit_mtx (o : Output) : (s.emit o).mtx = s.mtx := rfl
@[simp] theorem setVec_mtx (b : Nat) (v : Vec) : (s.setVec b v).mtx = s.mtx := rfl
@[simp] theorem setPort_mtx (b p : Nat) (v : TilePort) : (s.setPort b p v).mtx = s.mtx := rfl
@[simp] theorem setBay_mtx (b : Nat) (v : BaySeq) : (s.setBay b v).mtx = s.mtx := rfl
@[simp] theorem writeBytes_mtx (a : Nat) (vs : List Byte) : (s.writeBytes a vs).mtx = s.mtx := rfl
@[simp] theorem setCfg_mtx (d : Nat) (v : DieCfg) : (s.setCfg d v).mtx = s.mtx := rfl
@[simp] theorem setCq_mtx (f r : Nat) (v : CplRing) : (s.setCq f r v).mtx = s.mtx := rfl
@[simp] theorem setJob_mtx (j : Nat) (v : Job) : (s.setJob j v).mtx = s.mtx := rfl
@[simp] theorem setBoard_mtx (b : Pins) : (s.setBoard b).mtx = s.mtx := rfl
@[simp] theorem setFn_mtx (f : Nat) (v : FnState) : (s.setFn f v).mtx = s.mtx := rfl
@[simp] theorem setSq_mtx (f r : Nat) (v : SubRing) : (s.setSq f r v).mtx = s.mtx := rfl
@[simp] theorem setHeat_mtx (src : Nat) (h : Heat) : (s.setHeat src h).mtx = s.mtx := rfl
@[simp] theorem writeByte_mtx (a : Nat) (v : BitVec 8) : (s.writeByte a v).mtx = s.mtx := rfl

/-! ### vec -/

@[simp] theorem wr_vec (k : Nat) (v : Word) : (s.wr k v).vec = s.vec := rfl
@[simp] theorem setChan_vec (b c : Nat) (v : Chan) : (s.setChan b c v).vec = s.vec := rfl
@[simp] theorem setMtx_vec (t : Nat) (m : Mtx) : (s.setMtx t m).vec = s.vec := rfl
@[simp] theorem emit_vec (o : Output) : (s.emit o).vec = s.vec := rfl
@[simp] theorem setPort_vec (b p : Nat) (v : TilePort) : (s.setPort b p v).vec = s.vec := rfl
@[simp] theorem setBay_vec (b : Nat) (v : BaySeq) : (s.setBay b v).vec = s.vec := rfl
@[simp] theorem writeBytes_vec (a : Nat) (vs : List Byte) : (s.writeBytes a vs).vec = s.vec := rfl
@[simp] theorem setCfg_vec (d : Nat) (v : DieCfg) : (s.setCfg d v).vec = s.vec := rfl
@[simp] theorem setCq_vec (f r : Nat) (v : CplRing) : (s.setCq f r v).vec = s.vec := rfl
@[simp] theorem setJob_vec (j : Nat) (v : Job) : (s.setJob j v).vec = s.vec := rfl
@[simp] theorem setBoard_vec (b : Pins) : (s.setBoard b).vec = s.vec := rfl
@[simp] theorem setFn_vec (f : Nat) (v : FnState) : (s.setFn f v).vec = s.vec := rfl
@[simp] theorem setSq_vec (f r : Nat) (v : SubRing) : (s.setSq f r v).vec = s.vec := rfl
@[simp] theorem setHeat_vec (src : Nat) (h : Heat) : (s.setHeat src h).vec = s.vec := rfl
@[simp] theorem writeByte_vec (a : Nat) (v : BitVec 8) : (s.writeByte a v).vec = s.vec := rfl

/-! ### chans -/

@[simp] theorem wr_chans (k : Nat) (v : Word) : (s.wr k v).chans = s.chans := rfl
@[simp] theorem setMtx_chans (t : Nat) (m : Mtx) : (s.setMtx t m).chans = s.chans := rfl
@[simp] theorem emit_chans (o : Output) : (s.emit o).chans = s.chans := rfl
@[simp] theorem setVec_chans (b : Nat) (v : Vec) : (s.setVec b v).chans = s.chans := rfl
@[simp] theorem setPort_chans (b p : Nat) (v : TilePort) : (s.setPort b p v).chans = s.chans := rfl
@[simp] theorem setBay_chans (b : Nat) (v : BaySeq) : (s.setBay b v).chans = s.chans := rfl
@[simp] theorem writeBytes_chans (a : Nat) (vs : List Byte) : (s.writeBytes a vs).chans = s.chans := rfl
@[simp] theorem setCfg_chans (d : Nat) (v : DieCfg) : (s.setCfg d v).chans = s.chans := rfl
@[simp] theorem setCq_chans (f r : Nat) (v : CplRing) : (s.setCq f r v).chans = s.chans := rfl
@[simp] theorem setJob_chans (j : Nat) (v : Job) : (s.setJob j v).chans = s.chans := rfl
@[simp] theorem setBoard_chans (b : Pins) : (s.setBoard b).chans = s.chans := rfl
@[simp] theorem setFn_chans (f : Nat) (v : FnState) : (s.setFn f v).chans = s.chans := rfl
@[simp] theorem setSq_chans (f r : Nat) (v : SubRing) : (s.setSq f r v).chans = s.chans := rfl
@[simp] theorem setHeat_chans (src : Nat) (h : Heat) : (s.setHeat src h).chans = s.chans := rfl
@[simp] theorem writeByte_chans (a : Nat) (v : BitVec 8) : (s.writeByte a v).chans = s.chans := rfl

/-! ### bays -/

@[simp] theorem wr_bays (k : Nat) (v : Word) : (s.wr k v).bays = s.bays := rfl
@[simp] theorem setChan_bays (b c : Nat) (v : Chan) : (s.setChan b c v).bays = s.bays := rfl
@[simp] theorem setMtx_bays (t : Nat) (m : Mtx) : (s.setMtx t m).bays = s.bays := rfl
@[simp] theorem emit_bays (o : Output) : (s.emit o).bays = s.bays := rfl
@[simp] theorem setVec_bays (b : Nat) (v : Vec) : (s.setVec b v).bays = s.bays := rfl
@[simp] theorem setPort_bays (b p : Nat) (v : TilePort) : (s.setPort b p v).bays = s.bays := rfl
@[simp] theorem writeBytes_bays (a : Nat) (vs : List Byte) : (s.writeBytes a vs).bays = s.bays := rfl
@[simp] theorem setCfg_bays (d : Nat) (v : DieCfg) : (s.setCfg d v).bays = s.bays := rfl
@[simp] theorem setCq_bays (f r : Nat) (v : CplRing) : (s.setCq f r v).bays = s.bays := rfl
@[simp] theorem setJob_bays (j : Nat) (v : Job) : (s.setJob j v).bays = s.bays := rfl
@[simp] theorem setBoard_bays (b : Pins) : (s.setBoard b).bays = s.bays := rfl
@[simp] theorem setFn_bays (f : Nat) (v : FnState) : (s.setFn f v).bays = s.bays := rfl
@[simp] theorem setSq_bays (f r : Nat) (v : SubRing) : (s.setSq f r v).bays = s.bays := rfl
@[simp] theorem setHeat_bays (src : Nat) (h : Heat) : (s.setHeat src h).bays = s.bays := rfl
@[simp] theorem writeByte_bays (a : Nat) (v : BitVec 8) : (s.writeByte a v).bays = s.bays := rfl

/-! ### ports -/

@[simp] theorem wr_ports (k : Nat) (v : Word) : (s.wr k v).ports = s.ports := rfl
@[simp] theorem setChan_ports (b c : Nat) (v : Chan) : (s.setChan b c v).ports = s.ports := rfl
@[simp] theorem setMtx_ports (t : Nat) (m : Mtx) : (s.setMtx t m).ports = s.ports := rfl
@[simp] theorem emit_ports (o : Output) : (s.emit o).ports = s.ports := rfl
@[simp] theorem setVec_ports (b : Nat) (v : Vec) : (s.setVec b v).ports = s.ports := rfl
@[simp] theorem setBay_ports (b : Nat) (v : BaySeq) : (s.setBay b v).ports = s.ports := rfl
@[simp] theorem writeBytes_ports (a : Nat) (vs : List Byte) : (s.writeBytes a vs).ports = s.ports := rfl
@[simp] theorem setCfg_ports (d : Nat) (v : DieCfg) : (s.setCfg d v).ports = s.ports := rfl
@[simp] theorem setCq_ports (f r : Nat) (v : CplRing) : (s.setCq f r v).ports = s.ports := rfl
@[simp] theorem setJob_ports (j : Nat) (v : Job) : (s.setJob j v).ports = s.ports := rfl
@[simp] theorem setBoard_ports (b : Pins) : (s.setBoard b).ports = s.ports := rfl
@[simp] theorem setFn_ports (f : Nat) (v : FnState) : (s.setFn f v).ports = s.ports := rfl
@[simp] theorem setSq_ports (f r : Nat) (v : SubRing) : (s.setSq f r v).ports = s.ports := rfl
@[simp] theorem setHeat_ports (src : Nat) (h : Heat) : (s.setHeat src h).ports = s.ports := rfl
@[simp] theorem writeByte_ports (a : Nat) (v : BitVec 8) : (s.writeByte a v).ports = s.ports := rfl

/-! ### jobs -/

@[simp] theorem wr_jobs (k : Nat) (v : Word) : (s.wr k v).jobs = s.jobs := rfl
@[simp] theorem setChan_jobs (b c : Nat) (v : Chan) : (s.setChan b c v).jobs = s.jobs := rfl
@[simp] theorem setMtx_jobs (t : Nat) (m : Mtx) : (s.setMtx t m).jobs = s.jobs := rfl
@[simp] theorem emit_jobs (o : Output) : (s.emit o).jobs = s.jobs := rfl
@[simp] theorem setVec_jobs (b : Nat) (v : Vec) : (s.setVec b v).jobs = s.jobs := rfl
@[simp] theorem setPort_jobs (b p : Nat) (v : TilePort) : (s.setPort b p v).jobs = s.jobs := rfl
@[simp] theorem setBay_jobs (b : Nat) (v : BaySeq) : (s.setBay b v).jobs = s.jobs := rfl
@[simp] theorem writeBytes_jobs (a : Nat) (vs : List Byte) : (s.writeBytes a vs).jobs = s.jobs := rfl
@[simp] theorem setCfg_jobs (d : Nat) (v : DieCfg) : (s.setCfg d v).jobs = s.jobs := rfl
@[simp] theorem setCq_jobs (f r : Nat) (v : CplRing) : (s.setCq f r v).jobs = s.jobs := rfl
@[simp] theorem setBoard_jobs (b : Pins) : (s.setBoard b).jobs = s.jobs := rfl
@[simp] theorem setFn_jobs (f : Nat) (v : FnState) : (s.setFn f v).jobs = s.jobs := rfl
@[simp] theorem setSq_jobs (f r : Nat) (v : SubRing) : (s.setSq f r v).jobs = s.jobs := rfl
@[simp] theorem setHeat_jobs (src : Nat) (h : Heat) : (s.setHeat src h).jobs = s.jobs := rfl
@[simp] theorem writeByte_jobs (a : Nat) (v : BitVec 8) : (s.writeByte a v).jobs = s.jobs := rfl

/-! ### bar4Tlb -/

@[simp] theorem wr_bar4Tlb (k : Nat) (v : Word) : (s.wr k v).bar4Tlb = s.bar4Tlb := rfl
@[simp] theorem setChan_bar4Tlb (b c : Nat) (v : Chan) : (s.setChan b c v).bar4Tlb = s.bar4Tlb := rfl
@[simp] theorem setMtx_bar4Tlb (t : Nat) (m : Mtx) : (s.setMtx t m).bar4Tlb = s.bar4Tlb := rfl
@[simp] theorem emit_bar4Tlb (o : Output) : (s.emit o).bar4Tlb = s.bar4Tlb := rfl
@[simp] theorem setVec_bar4Tlb (b : Nat) (v : Vec) : (s.setVec b v).bar4Tlb = s.bar4Tlb := rfl
@[simp] theorem setPort_bar4Tlb (b p : Nat) (v : TilePort) : (s.setPort b p v).bar4Tlb = s.bar4Tlb := rfl
@[simp] theorem setBay_bar4Tlb (b : Nat) (v : BaySeq) : (s.setBay b v).bar4Tlb = s.bar4Tlb := rfl
@[simp] theorem writeBytes_bar4Tlb (a : Nat) (vs : List Byte) : (s.writeBytes a vs).bar4Tlb = s.bar4Tlb := rfl
@[simp] theorem setCfg_bar4Tlb (d : Nat) (v : DieCfg) : (s.setCfg d v).bar4Tlb = s.bar4Tlb := rfl
@[simp] theorem setCq_bar4Tlb (f r : Nat) (v : CplRing) : (s.setCq f r v).bar4Tlb = s.bar4Tlb := rfl
@[simp] theorem setJob_bar4Tlb (j : Nat) (v : Job) : (s.setJob j v).bar4Tlb = s.bar4Tlb := rfl
@[simp] theorem setBoard_bar4Tlb (b : Pins) : (s.setBoard b).bar4Tlb = s.bar4Tlb := rfl
@[simp] theorem setFn_bar4Tlb (f : Nat) (v : FnState) : (s.setFn f v).bar4Tlb = s.bar4Tlb := rfl
@[simp] theorem setSq_bar4Tlb (f r : Nat) (v : SubRing) : (s.setSq f r v).bar4Tlb = s.bar4Tlb := rfl
@[simp] theorem setHeat_bar4Tlb (src : Nat) (h : Heat) : (s.setHeat src h).bar4Tlb = s.bar4Tlb := rfl
@[simp] theorem writeByte_bar4Tlb (a : Nat) (v : BitVec 8) : (s.writeByte a v).bar4Tlb = s.bar4Tlb := rfl

/-! ### resets -/

@[simp] theorem wr_resets (k : Nat) (v : Word) : (s.wr k v).resets = s.resets := rfl
@[simp] theorem setChan_resets (b c : Nat) (v : Chan) : (s.setChan b c v).resets = s.resets := rfl
@[simp] theorem setMtx_resets (t : Nat) (m : Mtx) : (s.setMtx t m).resets = s.resets := rfl
@[simp] theorem emit_resets (o : Output) : (s.emit o).resets = s.resets := rfl
@[simp] theorem setVec_resets (b : Nat) (v : Vec) : (s.setVec b v).resets = s.resets := rfl
@[simp] theorem setPort_resets (b p : Nat) (v : TilePort) : (s.setPort b p v).resets = s.resets := rfl
@[simp] theorem setBay_resets (b : Nat) (v : BaySeq) : (s.setBay b v).resets = s.resets := rfl
@[simp] theorem writeBytes_resets (a : Nat) (vs : List Byte) : (s.writeBytes a vs).resets = s.resets := rfl
@[simp] theorem setCfg_resets (d : Nat) (v : DieCfg) : (s.setCfg d v).resets = s.resets := rfl
@[simp] theorem setCq_resets (f r : Nat) (v : CplRing) : (s.setCq f r v).resets = s.resets := rfl
@[simp] theorem setJob_resets (j : Nat) (v : Job) : (s.setJob j v).resets = s.resets := rfl
@[simp] theorem setBoard_resets (b : Pins) : (s.setBoard b).resets = s.resets := rfl
@[simp] theorem setFn_resets (f : Nat) (v : FnState) : (s.setFn f v).resets = s.resets := rfl
@[simp] theorem setSq_resets (f r : Nat) (v : SubRing) : (s.setSq f r v).resets = s.resets := rfl
@[simp] theorem setHeat_resets (src : Nat) (h : Heat) : (s.setHeat src h).resets = s.resets := rfl
@[simp] theorem writeByte_resets (a : Nat) (v : BitVec 8) : (s.writeByte a v).resets = s.resets := rfl

/-! ### nextJob -/

@[simp] theorem wr_nextJob (k : Nat) (v : Word) : (s.wr k v).nextJob = s.nextJob := rfl
@[simp] theorem setChan_nextJob (b c : Nat) (v : Chan) : (s.setChan b c v).nextJob = s.nextJob := rfl
@[simp] theorem setMtx_nextJob (t : Nat) (m : Mtx) : (s.setMtx t m).nextJob = s.nextJob := rfl
@[simp] theorem emit_nextJob (o : Output) : (s.emit o).nextJob = s.nextJob := rfl
@[simp] theorem setVec_nextJob (b : Nat) (v : Vec) : (s.setVec b v).nextJob = s.nextJob := rfl
@[simp] theorem setPort_nextJob (b p : Nat) (v : TilePort) : (s.setPort b p v).nextJob = s.nextJob := rfl
@[simp] theorem setBay_nextJob (b : Nat) (v : BaySeq) : (s.setBay b v).nextJob = s.nextJob := rfl
@[simp] theorem writeBytes_nextJob (a : Nat) (vs : List Byte) : (s.writeBytes a vs).nextJob = s.nextJob := rfl
@[simp] theorem setCfg_nextJob (d : Nat) (v : DieCfg) : (s.setCfg d v).nextJob = s.nextJob := rfl
@[simp] theorem setCq_nextJob (f r : Nat) (v : CplRing) : (s.setCq f r v).nextJob = s.nextJob := rfl
@[simp] theorem setJob_nextJob (j : Nat) (v : Job) : (s.setJob j v).nextJob = s.nextJob := rfl
@[simp] theorem setBoard_nextJob (b : Pins) : (s.setBoard b).nextJob = s.nextJob := rfl
@[simp] theorem setFn_nextJob (f : Nat) (v : FnState) : (s.setFn f v).nextJob = s.nextJob := rfl
@[simp] theorem setSq_nextJob (f r : Nat) (v : SubRing) : (s.setSq f r v).nextJob = s.nextJob := rfl
@[simp] theorem setHeat_nextJob (src : Nat) (h : Heat) : (s.setHeat src h).nextJob = s.nextJob := rfl
@[simp] theorem writeByte_nextJob (a : Nat) (v : BitVec 8) : (s.writeByte a v).nextJob = s.nextJob := rfl

/-! ### queues -/

@[simp] theorem wr_queues (k : Nat) (v : Word) : (s.wr k v).queues = s.queues := rfl
@[simp] theorem setChan_queues (b c : Nat) (v : Chan) : (s.setChan b c v).queues = s.queues := rfl
@[simp] theorem setMtx_queues (t : Nat) (m : Mtx) : (s.setMtx t m).queues = s.queues := rfl
@[simp] theorem emit_queues (o : Output) : (s.emit o).queues = s.queues := rfl
@[simp] theorem setVec_queues (b : Nat) (v : Vec) : (s.setVec b v).queues = s.queues := rfl
@[simp] theorem setPort_queues (b p : Nat) (v : TilePort) : (s.setPort b p v).queues = s.queues := rfl
@[simp] theorem setBay_queues (b : Nat) (v : BaySeq) : (s.setBay b v).queues = s.queues := rfl
@[simp] theorem writeBytes_queues (a : Nat) (vs : List Byte) : (s.writeBytes a vs).queues = s.queues := rfl
@[simp] theorem setCfg_queues (d : Nat) (v : DieCfg) : (s.setCfg d v).queues = s.queues := rfl
@[simp] theorem setCq_queues (f r : Nat) (v : CplRing) : (s.setCq f r v).queues = s.queues := rfl
@[simp] theorem setJob_queues (j : Nat) (v : Job) : (s.setJob j v).queues = s.queues := rfl
@[simp] theorem setBoard_queues (b : Pins) : (s.setBoard b).queues = s.queues := rfl
@[simp] theorem setFn_queues (f : Nat) (v : FnState) : (s.setFn f v).queues = s.queues := rfl
@[simp] theorem setSq_queues (f r : Nat) (v : SubRing) : (s.setSq f r v).queues = s.queues := rfl
@[simp] theorem setHeat_queues (src : Nat) (h : Heat) : (s.setHeat src h).queues = s.queues := rfl
@[simp] theorem writeByte_queues (a : Nat) (v : BitVec 8) : (s.writeByte a v).queues = s.queues := rfl

/-! ### cqs -/

@[simp] theorem wr_cqs (k : Nat) (v : Word) : (s.wr k v).cqs = s.cqs := rfl
@[simp] theorem setChan_cqs (b c : Nat) (v : Chan) : (s.setChan b c v).cqs = s.cqs := rfl
@[simp] theorem setMtx_cqs (t : Nat) (m : Mtx) : (s.setMtx t m).cqs = s.cqs := rfl
@[simp] theorem emit_cqs (o : Output) : (s.emit o).cqs = s.cqs := rfl
@[simp] theorem setVec_cqs (b : Nat) (v : Vec) : (s.setVec b v).cqs = s.cqs := rfl
@[simp] theorem setPort_cqs (b p : Nat) (v : TilePort) : (s.setPort b p v).cqs = s.cqs := rfl
@[simp] theorem setBay_cqs (b : Nat) (v : BaySeq) : (s.setBay b v).cqs = s.cqs := rfl
@[simp] theorem writeBytes_cqs (a : Nat) (vs : List Byte) : (s.writeBytes a vs).cqs = s.cqs := rfl
@[simp] theorem setCfg_cqs (d : Nat) (v : DieCfg) : (s.setCfg d v).cqs = s.cqs := rfl
@[simp] theorem setJob_cqs (j : Nat) (v : Job) : (s.setJob j v).cqs = s.cqs := rfl
@[simp] theorem setBoard_cqs (b : Pins) : (s.setBoard b).cqs = s.cqs := rfl
@[simp] theorem setFn_cqs (f : Nat) (v : FnState) : (s.setFn f v).cqs = s.cqs := rfl
@[simp] theorem setSq_cqs (f r : Nat) (v : SubRing) : (s.setSq f r v).cqs = s.cqs := rfl
@[simp] theorem setHeat_cqs (src : Nat) (h : Heat) : (s.setHeat src h).cqs = s.cqs := rfl
@[simp] theorem writeByte_cqs (a : Nat) (v : BitVec 8) : (s.writeByte a v).cqs = s.cqs := rfl

/-! ### sqs -/

@[simp] theorem wr_sqs (k : Nat) (v : Word) : (s.wr k v).sqs = s.sqs := rfl
@[simp] theorem setChan_sqs (b c : Nat) (v : Chan) : (s.setChan b c v).sqs = s.sqs := rfl
@[simp] theorem setMtx_sqs (t : Nat) (m : Mtx) : (s.setMtx t m).sqs = s.sqs := rfl
@[simp] theorem emit_sqs (o : Output) : (s.emit o).sqs = s.sqs := rfl
@[simp] theorem setVec_sqs (b : Nat) (v : Vec) : (s.setVec b v).sqs = s.sqs := rfl
@[simp] theorem setPort_sqs (b p : Nat) (v : TilePort) : (s.setPort b p v).sqs = s.sqs := rfl
@[simp] theorem setBay_sqs (b : Nat) (v : BaySeq) : (s.setBay b v).sqs = s.sqs := rfl
@[simp] theorem writeBytes_sqs (a : Nat) (vs : List Byte) : (s.writeBytes a vs).sqs = s.sqs := rfl
@[simp] theorem setCfg_sqs (d : Nat) (v : DieCfg) : (s.setCfg d v).sqs = s.sqs := rfl
@[simp] theorem setCq_sqs (f r : Nat) (v : CplRing) : (s.setCq f r v).sqs = s.sqs := rfl
@[simp] theorem setJob_sqs (j : Nat) (v : Job) : (s.setJob j v).sqs = s.sqs := rfl
@[simp] theorem setBoard_sqs (b : Pins) : (s.setBoard b).sqs = s.sqs := rfl
@[simp] theorem setFn_sqs (f : Nat) (v : FnState) : (s.setFn f v).sqs = s.sqs := rfl
@[simp] theorem setHeat_sqs (src : Nat) (h : Heat) : (s.setHeat src h).sqs = s.sqs := rfl
@[simp] theorem writeByte_sqs (a : Nat) (v : BitVec 8) : (s.writeByte a v).sqs = s.sqs := rfl

/-! ### fns -/

@[simp] theorem wr_fns (k : Nat) (v : Word) : (s.wr k v).fns = s.fns := rfl
@[simp] theorem setChan_fns (b c : Nat) (v : Chan) : (s.setChan b c v).fns = s.fns := rfl
@[simp] theorem setMtx_fns (t : Nat) (m : Mtx) : (s.setMtx t m).fns = s.fns := rfl
@[simp] theorem emit_fns (o : Output) : (s.emit o).fns = s.fns := rfl
@[simp] theorem setVec_fns (b : Nat) (v : Vec) : (s.setVec b v).fns = s.fns := rfl
@[simp] theorem setPort_fns (b p : Nat) (v : TilePort) : (s.setPort b p v).fns = s.fns := rfl
@[simp] theorem setBay_fns (b : Nat) (v : BaySeq) : (s.setBay b v).fns = s.fns := rfl
@[simp] theorem writeBytes_fns (a : Nat) (vs : List Byte) : (s.writeBytes a vs).fns = s.fns := rfl
@[simp] theorem setCfg_fns (d : Nat) (v : DieCfg) : (s.setCfg d v).fns = s.fns := rfl
@[simp] theorem setCq_fns (f r : Nat) (v : CplRing) : (s.setCq f r v).fns = s.fns := rfl
@[simp] theorem setJob_fns (j : Nat) (v : Job) : (s.setJob j v).fns = s.fns := rfl
@[simp] theorem setBoard_fns (b : Pins) : (s.setBoard b).fns = s.fns := rfl
@[simp] theorem setSq_fns (f r : Nat) (v : SubRing) : (s.setSq f r v).fns = s.fns := rfl
@[simp] theorem setHeat_fns (src : Nat) (h : Heat) : (s.setHeat src h).fns = s.fns := rfl
@[simp] theorem writeByte_fns (a : Nat) (v : BitVec 8) : (s.writeByte a v).fns = s.fns := rfl

/-! ### pins -/

@[simp] theorem wr_pins (k : Nat) (v : Word) : (s.wr k v).pins = s.pins := rfl
@[simp] theorem setChan_pins (b c : Nat) (v : Chan) : (s.setChan b c v).pins = s.pins := rfl
@[simp] theorem setMtx_pins (t : Nat) (m : Mtx) : (s.setMtx t m).pins = s.pins := rfl
@[simp] theorem emit_pins (o : Output) : (s.emit o).pins = s.pins := rfl
@[simp] theorem setVec_pins (b : Nat) (v : Vec) : (s.setVec b v).pins = s.pins := rfl
@[simp] theorem setPort_pins (b p : Nat) (v : TilePort) : (s.setPort b p v).pins = s.pins := rfl
@[simp] theorem setBay_pins (b : Nat) (v : BaySeq) : (s.setBay b v).pins = s.pins := rfl
@[simp] theorem writeBytes_pins (a : Nat) (vs : List Byte) : (s.writeBytes a vs).pins = s.pins := rfl
@[simp] theorem setCfg_pins (d : Nat) (v : DieCfg) : (s.setCfg d v).pins = s.pins := rfl
@[simp] theorem setCq_pins (f r : Nat) (v : CplRing) : (s.setCq f r v).pins = s.pins := rfl
@[simp] theorem setJob_pins (j : Nat) (v : Job) : (s.setJob j v).pins = s.pins := rfl
@[simp] theorem setBoard_pins (b : Pins) : (s.setBoard b).pins = s.pins := rfl
@[simp] theorem setFn_pins (f : Nat) (v : FnState) : (s.setFn f v).pins = s.pins := rfl
@[simp] theorem setSq_pins (f r : Nat) (v : SubRing) : (s.setSq f r v).pins = s.pins := rfl
@[simp] theorem setHeat_pins (src : Nat) (h : Heat) : (s.setHeat src h).pins = s.pins := rfl
@[simp] theorem writeByte_pins (a : Nat) (v : BitVec 8) : (s.writeByte a v).pins = s.pins := rfl

/-! ### qtrHandle -/

@[simp] theorem wr_qtrHandle (k : Nat) (v : Word) : (s.wr k v).qtrHandle = s.qtrHandle := rfl
@[simp] theorem setChan_qtrHandle (b c : Nat) (v : Chan) : (s.setChan b c v).qtrHandle = s.qtrHandle := rfl
@[simp] theorem setMtx_qtrHandle (t : Nat) (m : Mtx) : (s.setMtx t m).qtrHandle = s.qtrHandle := rfl
@[simp] theorem emit_qtrHandle (o : Output) : (s.emit o).qtrHandle = s.qtrHandle := rfl
@[simp] theorem setVec_qtrHandle (b : Nat) (v : Vec) : (s.setVec b v).qtrHandle = s.qtrHandle := rfl
@[simp] theorem setPort_qtrHandle (b p : Nat) (v : TilePort) : (s.setPort b p v).qtrHandle = s.qtrHandle := rfl
@[simp] theorem setBay_qtrHandle (b : Nat) (v : BaySeq) : (s.setBay b v).qtrHandle = s.qtrHandle := rfl
@[simp] theorem writeBytes_qtrHandle (a : Nat) (vs : List Byte) : (s.writeBytes a vs).qtrHandle = s.qtrHandle := rfl
@[simp] theorem setCfg_qtrHandle (d : Nat) (v : DieCfg) : (s.setCfg d v).qtrHandle = s.qtrHandle := rfl
@[simp] theorem setCq_qtrHandle (f r : Nat) (v : CplRing) : (s.setCq f r v).qtrHandle = s.qtrHandle := rfl
@[simp] theorem setJob_qtrHandle (j : Nat) (v : Job) : (s.setJob j v).qtrHandle = s.qtrHandle := rfl
@[simp] theorem setBoard_qtrHandle (b : Pins) : (s.setBoard b).qtrHandle = s.qtrHandle := rfl
@[simp] theorem setFn_qtrHandle (f : Nat) (v : FnState) : (s.setFn f v).qtrHandle = s.qtrHandle := rfl
@[simp] theorem setSq_qtrHandle (f r : Nat) (v : SubRing) : (s.setSq f r v).qtrHandle = s.qtrHandle := rfl
@[simp] theorem setHeat_qtrHandle (src : Nat) (h : Heat) : (s.setHeat src h).qtrHandle = s.qtrHandle := rfl
@[simp] theorem writeByte_qtrHandle (a : Nat) (v : BitVec 8) : (s.writeByte a v).qtrHandle = s.qtrHandle := rfl

/-! ### sec -/

@[simp] theorem wr_sec (k : Nat) (v : Word) : (s.wr k v).sec = s.sec := rfl
@[simp] theorem setChan_sec (b c : Nat) (v : Chan) : (s.setChan b c v).sec = s.sec := rfl
@[simp] theorem setMtx_sec (t : Nat) (m : Mtx) : (s.setMtx t m).sec = s.sec := rfl
@[simp] theorem emit_sec (o : Output) : (s.emit o).sec = s.sec := rfl
@[simp] theorem setVec_sec (b : Nat) (v : Vec) : (s.setVec b v).sec = s.sec := rfl
@[simp] theorem setPort_sec (b p : Nat) (v : TilePort) : (s.setPort b p v).sec = s.sec := rfl
@[simp] theorem setBay_sec (b : Nat) (v : BaySeq) : (s.setBay b v).sec = s.sec := rfl
@[simp] theorem writeBytes_sec (a : Nat) (vs : List Byte) : (s.writeBytes a vs).sec = s.sec := rfl
@[simp] theorem setCfg_sec (d : Nat) (v : DieCfg) : (s.setCfg d v).sec = s.sec := rfl
@[simp] theorem setCq_sec (f r : Nat) (v : CplRing) : (s.setCq f r v).sec = s.sec := rfl
@[simp] theorem setJob_sec (j : Nat) (v : Job) : (s.setJob j v).sec = s.sec := rfl
@[simp] theorem setBoard_sec (b : Pins) : (s.setBoard b).sec = s.sec := rfl
@[simp] theorem setFn_sec (f : Nat) (v : FnState) : (s.setFn f v).sec = s.sec := rfl
@[simp] theorem setSq_sec (f r : Nat) (v : SubRing) : (s.setSq f r v).sec = s.sec := rfl
@[simp] theorem setHeat_sec (src : Nat) (h : Heat) : (s.setHeat src h).sec = s.sec := rfl
@[simp] theorem writeByte_sec (a : Nat) (v : BitVec 8) : (s.writeByte a v).sec = s.sec := rfl

/-! ### cfgs -/

@[simp] theorem wr_cfgs (k : Nat) (v : Word) : (s.wr k v).cfgs = s.cfgs := rfl
@[simp] theorem setChan_cfgs (b c : Nat) (v : Chan) : (s.setChan b c v).cfgs = s.cfgs := rfl
@[simp] theorem setMtx_cfgs (t : Nat) (m : Mtx) : (s.setMtx t m).cfgs = s.cfgs := rfl
@[simp] theorem emit_cfgs (o : Output) : (s.emit o).cfgs = s.cfgs := rfl
@[simp] theorem setVec_cfgs (b : Nat) (v : Vec) : (s.setVec b v).cfgs = s.cfgs := rfl
@[simp] theorem setPort_cfgs (b p : Nat) (v : TilePort) : (s.setPort b p v).cfgs = s.cfgs := rfl
@[simp] theorem setBay_cfgs (b : Nat) (v : BaySeq) : (s.setBay b v).cfgs = s.cfgs := rfl
@[simp] theorem writeBytes_cfgs (a : Nat) (vs : List Byte) : (s.writeBytes a vs).cfgs = s.cfgs := rfl
@[simp] theorem setCq_cfgs (f r : Nat) (v : CplRing) : (s.setCq f r v).cfgs = s.cfgs := rfl
@[simp] theorem setJob_cfgs (j : Nat) (v : Job) : (s.setJob j v).cfgs = s.cfgs := rfl
@[simp] theorem setBoard_cfgs (b : Pins) : (s.setBoard b).cfgs = s.cfgs := rfl
@[simp] theorem setFn_cfgs (f : Nat) (v : FnState) : (s.setFn f v).cfgs = s.cfgs := rfl
@[simp] theorem setSq_cfgs (f r : Nat) (v : SubRing) : (s.setSq f r v).cfgs = s.cfgs := rfl
@[simp] theorem setHeat_cfgs (src : Nat) (h : Heat) : (s.setHeat src h).cfgs = s.cfgs := rfl
@[simp] theorem writeByte_cfgs (a : Nat) (v : BitVec 8) : (s.writeByte a v).cfgs = s.cfgs := rfl

/-! ### loads -/

@[simp] theorem wr_loads (k : Nat) (v : Word) : (s.wr k v).loads = s.loads := rfl
@[simp] theorem setChan_loads (b c : Nat) (v : Chan) : (s.setChan b c v).loads = s.loads := rfl
@[simp] theorem setMtx_loads (t : Nat) (m : Mtx) : (s.setMtx t m).loads = s.loads := rfl
@[simp] theorem emit_loads (o : Output) : (s.emit o).loads = s.loads := rfl
@[simp] theorem setVec_loads (b : Nat) (v : Vec) : (s.setVec b v).loads = s.loads := rfl
@[simp] theorem setPort_loads (b p : Nat) (v : TilePort) : (s.setPort b p v).loads = s.loads := rfl
@[simp] theorem setBay_loads (b : Nat) (v : BaySeq) : (s.setBay b v).loads = s.loads := rfl
@[simp] theorem writeBytes_loads (a : Nat) (vs : List Byte) : (s.writeBytes a vs).loads = s.loads := rfl
@[simp] theorem setCfg_loads (d : Nat) (v : DieCfg) : (s.setCfg d v).loads = s.loads := rfl
@[simp] theorem setCq_loads (f r : Nat) (v : CplRing) : (s.setCq f r v).loads = s.loads := rfl
@[simp] theorem setJob_loads (j : Nat) (v : Job) : (s.setJob j v).loads = s.loads := rfl
@[simp] theorem setBoard_loads (b : Pins) : (s.setBoard b).loads = s.loads := rfl
@[simp] theorem setFn_loads (f : Nat) (v : FnState) : (s.setFn f v).loads = s.loads := rfl
@[simp] theorem setSq_loads (f r : Nat) (v : SubRing) : (s.setSq f r v).loads = s.loads := rfl
@[simp] theorem setHeat_loads (src : Nat) (h : Heat) : (s.setHeat src h).loads = s.loads := rfl
@[simp] theorem writeByte_loads (a : Nat) (v : BitVec 8) : (s.writeByte a v).loads = s.loads := rfl

/-! ### nextLoad -/

@[simp] theorem wr_nextLoad (k : Nat) (v : Word) : (s.wr k v).nextLoad = s.nextLoad := rfl
@[simp] theorem setChan_nextLoad (b c : Nat) (v : Chan) : (s.setChan b c v).nextLoad = s.nextLoad := rfl
@[simp] theorem setMtx_nextLoad (t : Nat) (m : Mtx) : (s.setMtx t m).nextLoad = s.nextLoad := rfl
@[simp] theorem emit_nextLoad (o : Output) : (s.emit o).nextLoad = s.nextLoad := rfl
@[simp] theorem setVec_nextLoad (b : Nat) (v : Vec) : (s.setVec b v).nextLoad = s.nextLoad := rfl
@[simp] theorem setPort_nextLoad (b p : Nat) (v : TilePort) : (s.setPort b p v).nextLoad = s.nextLoad := rfl
@[simp] theorem setBay_nextLoad (b : Nat) (v : BaySeq) : (s.setBay b v).nextLoad = s.nextLoad := rfl
@[simp] theorem writeBytes_nextLoad (a : Nat) (vs : List Byte) : (s.writeBytes a vs).nextLoad = s.nextLoad := rfl
@[simp] theorem setCfg_nextLoad (d : Nat) (v : DieCfg) : (s.setCfg d v).nextLoad = s.nextLoad := rfl
@[simp] theorem setCq_nextLoad (f r : Nat) (v : CplRing) : (s.setCq f r v).nextLoad = s.nextLoad := rfl
@[simp] theorem setJob_nextLoad (j : Nat) (v : Job) : (s.setJob j v).nextLoad = s.nextLoad := rfl
@[simp] theorem setBoard_nextLoad (b : Pins) : (s.setBoard b).nextLoad = s.nextLoad := rfl
@[simp] theorem setFn_nextLoad (f : Nat) (v : FnState) : (s.setFn f v).nextLoad = s.nextLoad := rfl
@[simp] theorem setSq_nextLoad (f r : Nat) (v : SubRing) : (s.setSq f r v).nextLoad = s.nextLoad := rfl
@[simp] theorem setHeat_nextLoad (src : Nat) (h : Heat) : (s.setHeat src h).nextLoad = s.nextLoad := rfl
@[simp] theorem writeByte_nextLoad (a : Nat) (v : BitVec 8) : (s.writeByte a v).nextLoad = s.nextLoad := rfl

/-! ### clkSel -/

@[simp] theorem wr_clkSel (k : Nat) (v : Word) : (s.wr k v).clkSel = s.clkSel := rfl
@[simp] theorem setChan_clkSel (b c : Nat) (v : Chan) : (s.setChan b c v).clkSel = s.clkSel := rfl
@[simp] theorem setMtx_clkSel (t : Nat) (m : Mtx) : (s.setMtx t m).clkSel = s.clkSel := rfl
@[simp] theorem emit_clkSel (o : Output) : (s.emit o).clkSel = s.clkSel := rfl
@[simp] theorem setVec_clkSel (b : Nat) (v : Vec) : (s.setVec b v).clkSel = s.clkSel := rfl
@[simp] theorem setPort_clkSel (b p : Nat) (v : TilePort) : (s.setPort b p v).clkSel = s.clkSel := rfl
@[simp] theorem setBay_clkSel (b : Nat) (v : BaySeq) : (s.setBay b v).clkSel = s.clkSel := rfl
@[simp] theorem writeBytes_clkSel (a : Nat) (vs : List Byte) : (s.writeBytes a vs).clkSel = s.clkSel := rfl
@[simp] theorem setCfg_clkSel (d : Nat) (v : DieCfg) : (s.setCfg d v).clkSel = s.clkSel := rfl
@[simp] theorem setCq_clkSel (f r : Nat) (v : CplRing) : (s.setCq f r v).clkSel = s.clkSel := rfl
@[simp] theorem setJob_clkSel (j : Nat) (v : Job) : (s.setJob j v).clkSel = s.clkSel := rfl
@[simp] theorem setBoard_clkSel (b : Pins) : (s.setBoard b).clkSel = s.clkSel := rfl
@[simp] theorem setFn_clkSel (f : Nat) (v : FnState) : (s.setFn f v).clkSel = s.clkSel := rfl
@[simp] theorem setSq_clkSel (f r : Nat) (v : SubRing) : (s.setSq f r v).clkSel = s.clkSel := rfl
@[simp] theorem setHeat_clkSel (src : Nat) (h : Heat) : (s.setHeat src h).clkSel = s.clkSel := rfl
@[simp] theorem writeByte_clkSel (a : Nat) (v : BitVec 8) : (s.writeByte a v).clkSel = s.clkSel := rfl

/-! ### clkHeld -/

@[simp] theorem wr_clkHeld (k : Nat) (v : Word) : (s.wr k v).clkHeld = s.clkHeld := rfl
@[simp] theorem setChan_clkHeld (b c : Nat) (v : Chan) : (s.setChan b c v).clkHeld = s.clkHeld := rfl
@[simp] theorem setMtx_clkHeld (t : Nat) (m : Mtx) : (s.setMtx t m).clkHeld = s.clkHeld := rfl
@[simp] theorem emit_clkHeld (o : Output) : (s.emit o).clkHeld = s.clkHeld := rfl
@[simp] theorem setVec_clkHeld (b : Nat) (v : Vec) : (s.setVec b v).clkHeld = s.clkHeld := rfl
@[simp] theorem setPort_clkHeld (b p : Nat) (v : TilePort) : (s.setPort b p v).clkHeld = s.clkHeld := rfl
@[simp] theorem setBay_clkHeld (b : Nat) (v : BaySeq) : (s.setBay b v).clkHeld = s.clkHeld := rfl
@[simp] theorem writeBytes_clkHeld (a : Nat) (vs : List Byte) : (s.writeBytes a vs).clkHeld = s.clkHeld := rfl
@[simp] theorem setCfg_clkHeld (d : Nat) (v : DieCfg) : (s.setCfg d v).clkHeld = s.clkHeld := rfl
@[simp] theorem setCq_clkHeld (f r : Nat) (v : CplRing) : (s.setCq f r v).clkHeld = s.clkHeld := rfl
@[simp] theorem setJob_clkHeld (j : Nat) (v : Job) : (s.setJob j v).clkHeld = s.clkHeld := rfl
@[simp] theorem setBoard_clkHeld (b : Pins) : (s.setBoard b).clkHeld = s.clkHeld := rfl
@[simp] theorem setFn_clkHeld (f : Nat) (v : FnState) : (s.setFn f v).clkHeld = s.clkHeld := rfl
@[simp] theorem setSq_clkHeld (f r : Nat) (v : SubRing) : (s.setSq f r v).clkHeld = s.clkHeld := rfl
@[simp] theorem setHeat_clkHeld (src : Nat) (h : Heat) : (s.setHeat src h).clkHeld = s.clkHeld := rfl
@[simp] theorem writeByte_clkHeld (a : Nat) (v : BitVec 8) : (s.writeByte a v).clkHeld = s.clkHeld := rfl

/-! ### clkSeen -/

@[simp] theorem wr_clkSeen (k : Nat) (v : Word) : (s.wr k v).clkSeen = s.clkSeen := rfl
@[simp] theorem setChan_clkSeen (b c : Nat) (v : Chan) : (s.setChan b c v).clkSeen = s.clkSeen := rfl
@[simp] theorem setMtx_clkSeen (t : Nat) (m : Mtx) : (s.setMtx t m).clkSeen = s.clkSeen := rfl
@[simp] theorem emit_clkSeen (o : Output) : (s.emit o).clkSeen = s.clkSeen := rfl
@[simp] theorem setVec_clkSeen (b : Nat) (v : Vec) : (s.setVec b v).clkSeen = s.clkSeen := rfl
@[simp] theorem setPort_clkSeen (b p : Nat) (v : TilePort) : (s.setPort b p v).clkSeen = s.clkSeen := rfl
@[simp] theorem setBay_clkSeen (b : Nat) (v : BaySeq) : (s.setBay b v).clkSeen = s.clkSeen := rfl
@[simp] theorem writeBytes_clkSeen (a : Nat) (vs : List Byte) : (s.writeBytes a vs).clkSeen = s.clkSeen := rfl
@[simp] theorem setCfg_clkSeen (d : Nat) (v : DieCfg) : (s.setCfg d v).clkSeen = s.clkSeen := rfl
@[simp] theorem setCq_clkSeen (f r : Nat) (v : CplRing) : (s.setCq f r v).clkSeen = s.clkSeen := rfl
@[simp] theorem setJob_clkSeen (j : Nat) (v : Job) : (s.setJob j v).clkSeen = s.clkSeen := rfl
@[simp] theorem setBoard_clkSeen (b : Pins) : (s.setBoard b).clkSeen = s.clkSeen := rfl
@[simp] theorem setFn_clkSeen (f : Nat) (v : FnState) : (s.setFn f v).clkSeen = s.clkSeen := rfl
@[simp] theorem setSq_clkSeen (f r : Nat) (v : SubRing) : (s.setSq f r v).clkSeen = s.clkSeen := rfl
@[simp] theorem setHeat_clkSeen (src : Nat) (h : Heat) : (s.setHeat src h).clkSeen = s.clkSeen := rfl
@[simp] theorem writeByte_clkSeen (a : Nat) (v : BitVec 8) : (s.writeByte a v).clkSeen = s.clkSeen := rfl

/-! ### clkEdges -/

@[simp] theorem wr_clkEdges (k : Nat) (v : Word) : (s.wr k v).clkEdges = s.clkEdges := rfl
@[simp] theorem setChan_clkEdges (b c : Nat) (v : Chan) : (s.setChan b c v).clkEdges = s.clkEdges := rfl
@[simp] theorem setMtx_clkEdges (t : Nat) (m : Mtx) : (s.setMtx t m).clkEdges = s.clkEdges := rfl
@[simp] theorem emit_clkEdges (o : Output) : (s.emit o).clkEdges = s.clkEdges := rfl
@[simp] theorem setVec_clkEdges (b : Nat) (v : Vec) : (s.setVec b v).clkEdges = s.clkEdges := rfl
@[simp] theorem setPort_clkEdges (b p : Nat) (v : TilePort) : (s.setPort b p v).clkEdges = s.clkEdges := rfl
@[simp] theorem setBay_clkEdges (b : Nat) (v : BaySeq) : (s.setBay b v).clkEdges = s.clkEdges := rfl
@[simp] theorem writeBytes_clkEdges (a : Nat) (vs : List Byte) : (s.writeBytes a vs).clkEdges = s.clkEdges := rfl
@[simp] theorem setCfg_clkEdges (d : Nat) (v : DieCfg) : (s.setCfg d v).clkEdges = s.clkEdges := rfl
@[simp] theorem setCq_clkEdges (f r : Nat) (v : CplRing) : (s.setCq f r v).clkEdges = s.clkEdges := rfl
@[simp] theorem setJob_clkEdges (j : Nat) (v : Job) : (s.setJob j v).clkEdges = s.clkEdges := rfl
@[simp] theorem setBoard_clkEdges (b : Pins) : (s.setBoard b).clkEdges = s.clkEdges := rfl
@[simp] theorem setFn_clkEdges (f : Nat) (v : FnState) : (s.setFn f v).clkEdges = s.clkEdges := rfl
@[simp] theorem setSq_clkEdges (f r : Nat) (v : SubRing) : (s.setSq f r v).clkEdges = s.clkEdges := rfl
@[simp] theorem setHeat_clkEdges (src : Nat) (h : Heat) : (s.setHeat src h).clkEdges = s.clkEdges := rfl
@[simp] theorem writeByte_clkEdges (a : Nat) (v : BitVec 8) : (s.writeByte a v).clkEdges = s.clkEdges := rfl

/-! ### tallies -/

@[simp] theorem wr_tallies (k : Nat) (v : Word) : (s.wr k v).tallies = s.tallies := rfl
@[simp] theorem setChan_tallies (b c : Nat) (v : Chan) : (s.setChan b c v).tallies = s.tallies := rfl
@[simp] theorem setMtx_tallies (t : Nat) (m : Mtx) : (s.setMtx t m).tallies = s.tallies := rfl
@[simp] theorem emit_tallies (o : Output) : (s.emit o).tallies = s.tallies := rfl
@[simp] theorem setVec_tallies (b : Nat) (v : Vec) : (s.setVec b v).tallies = s.tallies := rfl
@[simp] theorem setPort_tallies (b p : Nat) (v : TilePort) : (s.setPort b p v).tallies = s.tallies := rfl
@[simp] theorem setBay_tallies (b : Nat) (v : BaySeq) : (s.setBay b v).tallies = s.tallies := rfl
@[simp] theorem writeBytes_tallies (a : Nat) (vs : List Byte) : (s.writeBytes a vs).tallies = s.tallies := rfl
@[simp] theorem setCfg_tallies (d : Nat) (v : DieCfg) : (s.setCfg d v).tallies = s.tallies := rfl
@[simp] theorem setCq_tallies (f r : Nat) (v : CplRing) : (s.setCq f r v).tallies = s.tallies := rfl
@[simp] theorem setJob_tallies (j : Nat) (v : Job) : (s.setJob j v).tallies = s.tallies := rfl
@[simp] theorem setBoard_tallies (b : Pins) : (s.setBoard b).tallies = s.tallies := rfl
@[simp] theorem setFn_tallies (f : Nat) (v : FnState) : (s.setFn f v).tallies = s.tallies := rfl
@[simp] theorem setSq_tallies (f r : Nat) (v : SubRing) : (s.setSq f r v).tallies = s.tallies := rfl
@[simp] theorem setHeat_tallies (src : Nat) (h : Heat) : (s.setHeat src h).tallies = s.tallies := rfl
@[simp] theorem writeByte_tallies (a : Nat) (v : BitVec 8) : (s.writeByte a v).tallies = s.tallies := rfl

/-! ### patterns -/

@[simp] theorem wr_patterns (k : Nat) (v : Word) : (s.wr k v).patterns = s.patterns := rfl
@[simp] theorem setChan_patterns (b c : Nat) (v : Chan) : (s.setChan b c v).patterns = s.patterns := rfl
@[simp] theorem setMtx_patterns (t : Nat) (m : Mtx) : (s.setMtx t m).patterns = s.patterns := rfl
@[simp] theorem emit_patterns (o : Output) : (s.emit o).patterns = s.patterns := rfl
@[simp] theorem setVec_patterns (b : Nat) (v : Vec) : (s.setVec b v).patterns = s.patterns := rfl
@[simp] theorem setPort_patterns (b p : Nat) (v : TilePort) : (s.setPort b p v).patterns = s.patterns := rfl
@[simp] theorem setBay_patterns (b : Nat) (v : BaySeq) : (s.setBay b v).patterns = s.patterns := rfl
@[simp] theorem writeBytes_patterns (a : Nat) (vs : List Byte) : (s.writeBytes a vs).patterns = s.patterns := rfl
@[simp] theorem setCfg_patterns (d : Nat) (v : DieCfg) : (s.setCfg d v).patterns = s.patterns := rfl
@[simp] theorem setCq_patterns (f r : Nat) (v : CplRing) : (s.setCq f r v).patterns = s.patterns := rfl
@[simp] theorem setJob_patterns (j : Nat) (v : Job) : (s.setJob j v).patterns = s.patterns := rfl
@[simp] theorem setBoard_patterns (b : Pins) : (s.setBoard b).patterns = s.patterns := rfl
@[simp] theorem setFn_patterns (f : Nat) (v : FnState) : (s.setFn f v).patterns = s.patterns := rfl
@[simp] theorem setSq_patterns (f r : Nat) (v : SubRing) : (s.setSq f r v).patterns = s.patterns := rfl
@[simp] theorem setHeat_patterns (src : Nat) (h : Heat) : (s.setHeat src h).patterns = s.patterns := rfl
@[simp] theorem writeByte_patterns (a : Nat) (v : BitVec 8) : (s.writeByte a v).patterns = s.patterns := rfl

/-! ### poolLast -/

@[simp] theorem wr_poolLast (k : Nat) (v : Word) : (s.wr k v).poolLast = s.poolLast := rfl
@[simp] theorem setChan_poolLast (b c : Nat) (v : Chan) : (s.setChan b c v).poolLast = s.poolLast := rfl
@[simp] theorem setMtx_poolLast (t : Nat) (m : Mtx) : (s.setMtx t m).poolLast = s.poolLast := rfl
@[simp] theorem emit_poolLast (o : Output) : (s.emit o).poolLast = s.poolLast := rfl
@[simp] theorem setVec_poolLast (b : Nat) (v : Vec) : (s.setVec b v).poolLast = s.poolLast := rfl
@[simp] theorem setPort_poolLast (b p : Nat) (v : TilePort) : (s.setPort b p v).poolLast = s.poolLast := rfl
@[simp] theorem setBay_poolLast (b : Nat) (v : BaySeq) : (s.setBay b v).poolLast = s.poolLast := rfl
@[simp] theorem writeBytes_poolLast (a : Nat) (vs : List Byte) : (s.writeBytes a vs).poolLast = s.poolLast := rfl
@[simp] theorem setCfg_poolLast (d : Nat) (v : DieCfg) : (s.setCfg d v).poolLast = s.poolLast := rfl
@[simp] theorem setCq_poolLast (f r : Nat) (v : CplRing) : (s.setCq f r v).poolLast = s.poolLast := rfl
@[simp] theorem setJob_poolLast (j : Nat) (v : Job) : (s.setJob j v).poolLast = s.poolLast := rfl
@[simp] theorem setBoard_poolLast (b : Pins) : (s.setBoard b).poolLast = s.poolLast := rfl
@[simp] theorem setFn_poolLast (f : Nat) (v : FnState) : (s.setFn f v).poolLast = s.poolLast := rfl
@[simp] theorem setSq_poolLast (f r : Nat) (v : SubRing) : (s.setSq f r v).poolLast = s.poolLast := rfl
@[simp] theorem setHeat_poolLast (src : Nat) (h : Heat) : (s.setHeat src h).poolLast = s.poolLast := rfl
@[simp] theorem writeByte_poolLast (a : Nat) (v : BitVec 8) : (s.writeByte a v).poolLast = s.poolLast := rfl

/-! ### fwBody -/

@[simp] theorem wr_fwBody (k : Nat) (v : Word) : (s.wr k v).fwBody = s.fwBody := rfl
@[simp] theorem setChan_fwBody (b c : Nat) (v : Chan) : (s.setChan b c v).fwBody = s.fwBody := rfl
@[simp] theorem setMtx_fwBody (t : Nat) (m : Mtx) : (s.setMtx t m).fwBody = s.fwBody := rfl
@[simp] theorem emit_fwBody (o : Output) : (s.emit o).fwBody = s.fwBody := rfl
@[simp] theorem setVec_fwBody (b : Nat) (v : Vec) : (s.setVec b v).fwBody = s.fwBody := rfl
@[simp] theorem setPort_fwBody (b p : Nat) (v : TilePort) : (s.setPort b p v).fwBody = s.fwBody := rfl
@[simp] theorem setBay_fwBody (b : Nat) (v : BaySeq) : (s.setBay b v).fwBody = s.fwBody := rfl
@[simp] theorem writeBytes_fwBody (a : Nat) (vs : List Byte) : (s.writeBytes a vs).fwBody = s.fwBody := rfl
@[simp] theorem setCfg_fwBody (d : Nat) (v : DieCfg) : (s.setCfg d v).fwBody = s.fwBody := rfl
@[simp] theorem setCq_fwBody (f r : Nat) (v : CplRing) : (s.setCq f r v).fwBody = s.fwBody := rfl
@[simp] theorem setJob_fwBody (j : Nat) (v : Job) : (s.setJob j v).fwBody = s.fwBody := rfl
@[simp] theorem setBoard_fwBody (b : Pins) : (s.setBoard b).fwBody = s.fwBody := rfl
@[simp] theorem setFn_fwBody (f : Nat) (v : FnState) : (s.setFn f v).fwBody = s.fwBody := rfl
@[simp] theorem setSq_fwBody (f r : Nat) (v : SubRing) : (s.setSq f r v).fwBody = s.fwBody := rfl
@[simp] theorem setHeat_fwBody (src : Nat) (h : Heat) : (s.setHeat src h).fwBody = s.fwBody := rfl
@[simp] theorem writeByte_fwBody (a : Nat) (v : BitVec 8) : (s.writeByte a v).fwBody = s.fwBody := rfl

/-! ### fwBays -/

@[simp] theorem wr_fwBays (k : Nat) (v : Word) : (s.wr k v).fwBays = s.fwBays := rfl
@[simp] theorem setChan_fwBays (b c : Nat) (v : Chan) : (s.setChan b c v).fwBays = s.fwBays := rfl
@[simp] theorem setMtx_fwBays (t : Nat) (m : Mtx) : (s.setMtx t m).fwBays = s.fwBays := rfl
@[simp] theorem emit_fwBays (o : Output) : (s.emit o).fwBays = s.fwBays := rfl
@[simp] theorem setVec_fwBays (b : Nat) (v : Vec) : (s.setVec b v).fwBays = s.fwBays := rfl
@[simp] theorem setPort_fwBays (b p : Nat) (v : TilePort) : (s.setPort b p v).fwBays = s.fwBays := rfl
@[simp] theorem setBay_fwBays (b : Nat) (v : BaySeq) : (s.setBay b v).fwBays = s.fwBays := rfl
@[simp] theorem writeBytes_fwBays (a : Nat) (vs : List Byte) : (s.writeBytes a vs).fwBays = s.fwBays := rfl
@[simp] theorem setCfg_fwBays (d : Nat) (v : DieCfg) : (s.setCfg d v).fwBays = s.fwBays := rfl
@[simp] theorem setCq_fwBays (f r : Nat) (v : CplRing) : (s.setCq f r v).fwBays = s.fwBays := rfl
@[simp] theorem setJob_fwBays (j : Nat) (v : Job) : (s.setJob j v).fwBays = s.fwBays := rfl
@[simp] theorem setBoard_fwBays (b : Pins) : (s.setBoard b).fwBays = s.fwBays := rfl
@[simp] theorem setFn_fwBays (f : Nat) (v : FnState) : (s.setFn f v).fwBays = s.fwBays := rfl
@[simp] theorem setSq_fwBays (f r : Nat) (v : SubRing) : (s.setSq f r v).fwBays = s.fwBays := rfl
@[simp] theorem setHeat_fwBays (src : Nat) (h : Heat) : (s.setHeat src h).fwBays = s.fwBays := rfl
@[simp] theorem writeByte_fwBays (a : Nat) (v : BitVec 8) : (s.writeByte a v).fwBays = s.fwBays := rfl

/-! ### clocks -/

@[simp] theorem wr_clocks (k : Nat) (v : Word) : (s.wr k v).clocks = s.clocks := rfl
@[simp] theorem setChan_clocks (b c : Nat) (v : Chan) : (s.setChan b c v).clocks = s.clocks := rfl
@[simp] theorem setMtx_clocks (t : Nat) (m : Mtx) : (s.setMtx t m).clocks = s.clocks := rfl
@[simp] theorem emit_clocks (o : Output) : (s.emit o).clocks = s.clocks := rfl
@[simp] theorem setVec_clocks (b : Nat) (v : Vec) : (s.setVec b v).clocks = s.clocks := rfl
@[simp] theorem setPort_clocks (b p : Nat) (v : TilePort) : (s.setPort b p v).clocks = s.clocks := rfl
@[simp] theorem setBay_clocks (b : Nat) (v : BaySeq) : (s.setBay b v).clocks = s.clocks := rfl
@[simp] theorem writeBytes_clocks (a : Nat) (vs : List Byte) : (s.writeBytes a vs).clocks = s.clocks := rfl
@[simp] theorem setCfg_clocks (d : Nat) (v : DieCfg) : (s.setCfg d v).clocks = s.clocks := rfl
@[simp] theorem setCq_clocks (f r : Nat) (v : CplRing) : (s.setCq f r v).clocks = s.clocks := rfl
@[simp] theorem setJob_clocks (j : Nat) (v : Job) : (s.setJob j v).clocks = s.clocks := rfl
@[simp] theorem setBoard_clocks (b : Pins) : (s.setBoard b).clocks = s.clocks := rfl
@[simp] theorem setFn_clocks (f : Nat) (v : FnState) : (s.setFn f v).clocks = s.clocks := rfl
@[simp] theorem setSq_clocks (f r : Nat) (v : SubRing) : (s.setSq f r v).clocks = s.clocks := rfl
@[simp] theorem setHeat_clocks (src : Nat) (h : Heat) : (s.setHeat src h).clocks = s.clocks := rfl
@[simp] theorem writeByte_clocks (a : Nat) (v : BitVec 8) : (s.writeByte a v).clocks = s.clocks := rfl

/-! ### userIo -/

@[simp] theorem wr_userIo (k : Nat) (v : Word) : (s.wr k v).userIo = s.userIo := rfl
@[simp] theorem setChan_userIo (b c : Nat) (v : Chan) : (s.setChan b c v).userIo = s.userIo := rfl
@[simp] theorem setMtx_userIo (t : Nat) (m : Mtx) : (s.setMtx t m).userIo = s.userIo := rfl
@[simp] theorem emit_userIo (o : Output) : (s.emit o).userIo = s.userIo := rfl
@[simp] theorem setVec_userIo (b : Nat) (v : Vec) : (s.setVec b v).userIo = s.userIo := rfl
@[simp] theorem setPort_userIo (b p : Nat) (v : TilePort) : (s.setPort b p v).userIo = s.userIo := rfl
@[simp] theorem setBay_userIo (b : Nat) (v : BaySeq) : (s.setBay b v).userIo = s.userIo := rfl
@[simp] theorem writeBytes_userIo (a : Nat) (vs : List Byte) : (s.writeBytes a vs).userIo = s.userIo := rfl
@[simp] theorem setCfg_userIo (d : Nat) (v : DieCfg) : (s.setCfg d v).userIo = s.userIo := rfl
@[simp] theorem setCq_userIo (f r : Nat) (v : CplRing) : (s.setCq f r v).userIo = s.userIo := rfl
@[simp] theorem setJob_userIo (j : Nat) (v : Job) : (s.setJob j v).userIo = s.userIo := rfl
@[simp] theorem setBoard_userIo (b : Pins) : (s.setBoard b).userIo = s.userIo := rfl
@[simp] theorem setFn_userIo (f : Nat) (v : FnState) : (s.setFn f v).userIo = s.userIo := rfl
@[simp] theorem setSq_userIo (f r : Nat) (v : SubRing) : (s.setSq f r v).userIo = s.userIo := rfl
@[simp] theorem setHeat_userIo (src : Nat) (h : Heat) : (s.setHeat src h).userIo = s.userIo := rfl
@[simp] theorem writeByte_userIo (a : Nat) (v : BitVec 8) : (s.writeByte a v).userIo = s.userIo := rfl

/-! ### flops -/

@[simp] theorem wr_flops (k : Nat) (v : Word) : (s.wr k v).flops = s.flops := rfl
@[simp] theorem setChan_flops (b c : Nat) (v : Chan) : (s.setChan b c v).flops = s.flops := rfl
@[simp] theorem setMtx_flops (t : Nat) (m : Mtx) : (s.setMtx t m).flops = s.flops := rfl
@[simp] theorem emit_flops (o : Output) : (s.emit o).flops = s.flops := rfl
@[simp] theorem setVec_flops (b : Nat) (v : Vec) : (s.setVec b v).flops = s.flops := rfl
@[simp] theorem setPort_flops (b p : Nat) (v : TilePort) : (s.setPort b p v).flops = s.flops := rfl
@[simp] theorem setBay_flops (b : Nat) (v : BaySeq) : (s.setBay b v).flops = s.flops := rfl
@[simp] theorem writeBytes_flops (a : Nat) (vs : List Byte) : (s.writeBytes a vs).flops = s.flops := rfl
@[simp] theorem setCfg_flops (d : Nat) (v : DieCfg) : (s.setCfg d v).flops = s.flops := rfl
@[simp] theorem setCq_flops (f r : Nat) (v : CplRing) : (s.setCq f r v).flops = s.flops := rfl
@[simp] theorem setJob_flops (j : Nat) (v : Job) : (s.setJob j v).flops = s.flops := rfl
@[simp] theorem setBoard_flops (b : Pins) : (s.setBoard b).flops = s.flops := rfl
@[simp] theorem setFn_flops (f : Nat) (v : FnState) : (s.setFn f v).flops = s.flops := rfl
@[simp] theorem setSq_flops (f r : Nat) (v : SubRing) : (s.setSq f r v).flops = s.flops := rfl
@[simp] theorem setHeat_flops (src : Nat) (h : Heat) : (s.setHeat src h).flops = s.flops := rfl
@[simp] theorem writeByte_flops (a : Nat) (v : BitVec 8) : (s.writeByte a v).flops = s.flops := rfl

/-! ### lutMems -/

@[simp] theorem wr_lutMems (k : Nat) (v : Word) : (s.wr k v).lutMems = s.lutMems := rfl
@[simp] theorem setChan_lutMems (b c : Nat) (v : Chan) : (s.setChan b c v).lutMems = s.lutMems := rfl
@[simp] theorem setMtx_lutMems (t : Nat) (m : Mtx) : (s.setMtx t m).lutMems = s.lutMems := rfl
@[simp] theorem emit_lutMems (o : Output) : (s.emit o).lutMems = s.lutMems := rfl
@[simp] theorem setVec_lutMems (b : Nat) (v : Vec) : (s.setVec b v).lutMems = s.lutMems := rfl
@[simp] theorem setPort_lutMems (b p : Nat) (v : TilePort) : (s.setPort b p v).lutMems = s.lutMems := rfl
@[simp] theorem setBay_lutMems (b : Nat) (v : BaySeq) : (s.setBay b v).lutMems = s.lutMems := rfl
@[simp] theorem writeBytes_lutMems (a : Nat) (vs : List Byte) : (s.writeBytes a vs).lutMems = s.lutMems := rfl
@[simp] theorem setCfg_lutMems (d : Nat) (v : DieCfg) : (s.setCfg d v).lutMems = s.lutMems := rfl
@[simp] theorem setCq_lutMems (f r : Nat) (v : CplRing) : (s.setCq f r v).lutMems = s.lutMems := rfl
@[simp] theorem setJob_lutMems (j : Nat) (v : Job) : (s.setJob j v).lutMems = s.lutMems := rfl
@[simp] theorem setBoard_lutMems (b : Pins) : (s.setBoard b).lutMems = s.lutMems := rfl
@[simp] theorem setFn_lutMems (f : Nat) (v : FnState) : (s.setFn f v).lutMems = s.lutMems := rfl
@[simp] theorem setSq_lutMems (f r : Nat) (v : SubRing) : (s.setSq f r v).lutMems = s.lutMems := rfl
@[simp] theorem setHeat_lutMems (src : Nat) (h : Heat) : (s.setHeat src h).lutMems = s.lutMems := rfl
@[simp] theorem writeByte_lutMems (a : Nat) (v : BitVec 8) : (s.writeByte a v).lutMems = s.lutMems := rfl

/-! ### brams -/

@[simp] theorem wr_brams (k : Nat) (v : Word) : (s.wr k v).brams = s.brams := rfl
@[simp] theorem setChan_brams (b c : Nat) (v : Chan) : (s.setChan b c v).brams = s.brams := rfl
@[simp] theorem setMtx_brams (t : Nat) (m : Mtx) : (s.setMtx t m).brams = s.brams := rfl
@[simp] theorem emit_brams (o : Output) : (s.emit o).brams = s.brams := rfl
@[simp] theorem setVec_brams (b : Nat) (v : Vec) : (s.setVec b v).brams = s.brams := rfl
@[simp] theorem setPort_brams (b p : Nat) (v : TilePort) : (s.setPort b p v).brams = s.brams := rfl
@[simp] theorem setBay_brams (b : Nat) (v : BaySeq) : (s.setBay b v).brams = s.brams := rfl
@[simp] theorem writeBytes_brams (a : Nat) (vs : List Byte) : (s.writeBytes a vs).brams = s.brams := rfl
@[simp] theorem setCfg_brams (d : Nat) (v : DieCfg) : (s.setCfg d v).brams = s.brams := rfl
@[simp] theorem setCq_brams (f r : Nat) (v : CplRing) : (s.setCq f r v).brams = s.brams := rfl
@[simp] theorem setJob_brams (j : Nat) (v : Job) : (s.setJob j v).brams = s.brams := rfl
@[simp] theorem setBoard_brams (b : Pins) : (s.setBoard b).brams = s.brams := rfl
@[simp] theorem setFn_brams (f : Nat) (v : FnState) : (s.setFn f v).brams = s.brams := rfl
@[simp] theorem setSq_brams (f r : Nat) (v : SubRing) : (s.setSq f r v).brams = s.brams := rfl
@[simp] theorem setHeat_brams (src : Nat) (h : Heat) : (s.setHeat src h).brams = s.brams := rfl
@[simp] theorem writeByte_brams (a : Nat) (v : BitVec 8) : (s.writeByte a v).brams = s.brams := rfl

/-! ### bramFlips -/

@[simp] theorem wr_bramFlips (k : Nat) (v : Word) : (s.wr k v).bramFlips = s.bramFlips := rfl
@[simp] theorem setChan_bramFlips (b c : Nat) (v : Chan) : (s.setChan b c v).bramFlips = s.bramFlips := rfl
@[simp] theorem setMtx_bramFlips (t : Nat) (m : Mtx) : (s.setMtx t m).bramFlips = s.bramFlips := rfl
@[simp] theorem emit_bramFlips (o : Output) : (s.emit o).bramFlips = s.bramFlips := rfl
@[simp] theorem setVec_bramFlips (b : Nat) (v : Vec) : (s.setVec b v).bramFlips = s.bramFlips := rfl
@[simp] theorem setPort_bramFlips (b p : Nat) (v : TilePort) : (s.setPort b p v).bramFlips = s.bramFlips := rfl
@[simp] theorem setBay_bramFlips (b : Nat) (v : BaySeq) : (s.setBay b v).bramFlips = s.bramFlips := rfl
@[simp] theorem writeBytes_bramFlips (a : Nat) (vs : List Byte) : (s.writeBytes a vs).bramFlips = s.bramFlips := rfl
@[simp] theorem setCfg_bramFlips (d : Nat) (v : DieCfg) : (s.setCfg d v).bramFlips = s.bramFlips := rfl
@[simp] theorem setCq_bramFlips (f r : Nat) (v : CplRing) : (s.setCq f r v).bramFlips = s.bramFlips := rfl
@[simp] theorem setJob_bramFlips (j : Nat) (v : Job) : (s.setJob j v).bramFlips = s.bramFlips := rfl
@[simp] theorem setBoard_bramFlips (b : Pins) : (s.setBoard b).bramFlips = s.bramFlips := rfl
@[simp] theorem setFn_bramFlips (f : Nat) (v : FnState) : (s.setFn f v).bramFlips = s.bramFlips := rfl
@[simp] theorem setSq_bramFlips (f r : Nat) (v : SubRing) : (s.setSq f r v).bramFlips = s.bramFlips := rfl
@[simp] theorem setHeat_bramFlips (src : Nat) (h : Heat) : (s.setHeat src h).bramFlips = s.bramFlips := rfl
@[simp] theorem writeByte_bramFlips (a : Nat) (v : BitVec 8) : (s.writeByte a v).bramFlips = s.bramFlips := rfl

/-! ### bramOuts -/

@[simp] theorem wr_bramOuts (k : Nat) (v : Word) : (s.wr k v).bramOuts = s.bramOuts := rfl
@[simp] theorem setChan_bramOuts (b c : Nat) (v : Chan) : (s.setChan b c v).bramOuts = s.bramOuts := rfl
@[simp] theorem setMtx_bramOuts (t : Nat) (m : Mtx) : (s.setMtx t m).bramOuts = s.bramOuts := rfl
@[simp] theorem emit_bramOuts (o : Output) : (s.emit o).bramOuts = s.bramOuts := rfl
@[simp] theorem setVec_bramOuts (b : Nat) (v : Vec) : (s.setVec b v).bramOuts = s.bramOuts := rfl
@[simp] theorem setPort_bramOuts (b p : Nat) (v : TilePort) : (s.setPort b p v).bramOuts = s.bramOuts := rfl
@[simp] theorem setBay_bramOuts (b : Nat) (v : BaySeq) : (s.setBay b v).bramOuts = s.bramOuts := rfl
@[simp] theorem writeBytes_bramOuts (a : Nat) (vs : List Byte) : (s.writeBytes a vs).bramOuts = s.bramOuts := rfl
@[simp] theorem setCfg_bramOuts (d : Nat) (v : DieCfg) : (s.setCfg d v).bramOuts = s.bramOuts := rfl
@[simp] theorem setCq_bramOuts (f r : Nat) (v : CplRing) : (s.setCq f r v).bramOuts = s.bramOuts := rfl
@[simp] theorem setJob_bramOuts (j : Nat) (v : Job) : (s.setJob j v).bramOuts = s.bramOuts := rfl
@[simp] theorem setBoard_bramOuts (b : Pins) : (s.setBoard b).bramOuts = s.bramOuts := rfl
@[simp] theorem setFn_bramOuts (f : Nat) (v : FnState) : (s.setFn f v).bramOuts = s.bramOuts := rfl
@[simp] theorem setSq_bramOuts (f r : Nat) (v : SubRing) : (s.setSq f r v).bramOuts = s.bramOuts := rfl
@[simp] theorem setHeat_bramOuts (src : Nat) (h : Heat) : (s.setHeat src h).bramOuts = s.bramOuts := rfl
@[simp] theorem writeByte_bramOuts (a : Nat) (v : BitVec 8) : (s.writeByte a v).bramOuts = s.bramOuts := rfl

/-! ### lines -/

@[simp] theorem wr_lines (k : Nat) (v : Word) : (s.wr k v).lines = s.lines := rfl
@[simp] theorem setChan_lines (b c : Nat) (v : Chan) : (s.setChan b c v).lines = s.lines := rfl
@[simp] theorem setMtx_lines (t : Nat) (m : Mtx) : (s.setMtx t m).lines = s.lines := rfl
@[simp] theorem emit_lines (o : Output) : (s.emit o).lines = s.lines := rfl
@[simp] theorem setVec_lines (b : Nat) (v : Vec) : (s.setVec b v).lines = s.lines := rfl
@[simp] theorem setPort_lines (b p : Nat) (v : TilePort) : (s.setPort b p v).lines = s.lines := rfl
@[simp] theorem setBay_lines (b : Nat) (v : BaySeq) : (s.setBay b v).lines = s.lines := rfl
@[simp] theorem writeBytes_lines (a : Nat) (vs : List Byte) : (s.writeBytes a vs).lines = s.lines := rfl
@[simp] theorem setCfg_lines (d : Nat) (v : DieCfg) : (s.setCfg d v).lines = s.lines := rfl
@[simp] theorem setCq_lines (f r : Nat) (v : CplRing) : (s.setCq f r v).lines = s.lines := rfl
@[simp] theorem setJob_lines (j : Nat) (v : Job) : (s.setJob j v).lines = s.lines := rfl
@[simp] theorem setBoard_lines (b : Pins) : (s.setBoard b).lines = s.lines := rfl
@[simp] theorem setFn_lines (f : Nat) (v : FnState) : (s.setFn f v).lines = s.lines := rfl
@[simp] theorem setSq_lines (f r : Nat) (v : SubRing) : (s.setSq f r v).lines = s.lines := rfl
@[simp] theorem setHeat_lines (src : Nat) (h : Heat) : (s.setHeat src h).lines = s.lines := rfl
@[simp] theorem writeByte_lines (a : Nat) (v : BitVec 8) : (s.writeByte a v).lines = s.lines := rfl

/-! ### contending -/

@[simp] theorem wr_contending (k : Nat) (v : Word) : (s.wr k v).contending = s.contending := rfl
@[simp] theorem setChan_contending (b c : Nat) (v : Chan) : (s.setChan b c v).contending = s.contending := rfl
@[simp] theorem setMtx_contending (t : Nat) (m : Mtx) : (s.setMtx t m).contending = s.contending := rfl
@[simp] theorem emit_contending (o : Output) : (s.emit o).contending = s.contending := rfl
@[simp] theorem setVec_contending (b : Nat) (v : Vec) : (s.setVec b v).contending = s.contending := rfl
@[simp] theorem setPort_contending (b p : Nat) (v : TilePort) : (s.setPort b p v).contending = s.contending := rfl
@[simp] theorem setBay_contending (b : Nat) (v : BaySeq) : (s.setBay b v).contending = s.contending := rfl
@[simp] theorem writeBytes_contending (a : Nat) (vs : List Byte) : (s.writeBytes a vs).contending = s.contending := rfl
@[simp] theorem setCfg_contending (d : Nat) (v : DieCfg) : (s.setCfg d v).contending = s.contending := rfl
@[simp] theorem setCq_contending (f r : Nat) (v : CplRing) : (s.setCq f r v).contending = s.contending := rfl
@[simp] theorem setJob_contending (j : Nat) (v : Job) : (s.setJob j v).contending = s.contending := rfl
@[simp] theorem setBoard_contending (b : Pins) : (s.setBoard b).contending = s.contending := rfl
@[simp] theorem setFn_contending (f : Nat) (v : FnState) : (s.setFn f v).contending = s.contending := rfl
@[simp] theorem setSq_contending (f r : Nat) (v : SubRing) : (s.setSq f r v).contending = s.contending := rfl
@[simp] theorem setHeat_contending (src : Nat) (h : Heat) : (s.setHeat src h).contending = s.contending := rfl
@[simp] theorem writeByte_contending (a : Nat) (v : BitVec 8) : (s.writeByte a v).contending = s.contending := rfl

/-! ### ioRegs -/

@[simp] theorem wr_ioRegs (k : Nat) (v : Word) : (s.wr k v).ioRegs = s.ioRegs := rfl
@[simp] theorem setChan_ioRegs (b c : Nat) (v : Chan) : (s.setChan b c v).ioRegs = s.ioRegs := rfl
@[simp] theorem setMtx_ioRegs (t : Nat) (m : Mtx) : (s.setMtx t m).ioRegs = s.ioRegs := rfl
@[simp] theorem emit_ioRegs (o : Output) : (s.emit o).ioRegs = s.ioRegs := rfl
@[simp] theorem setVec_ioRegs (b : Nat) (v : Vec) : (s.setVec b v).ioRegs = s.ioRegs := rfl
@[simp] theorem setPort_ioRegs (b p : Nat) (v : TilePort) : (s.setPort b p v).ioRegs = s.ioRegs := rfl
@[simp] theorem setBay_ioRegs (b : Nat) (v : BaySeq) : (s.setBay b v).ioRegs = s.ioRegs := rfl
@[simp] theorem writeBytes_ioRegs (a : Nat) (vs : List Byte) : (s.writeBytes a vs).ioRegs = s.ioRegs := rfl
@[simp] theorem setCfg_ioRegs (d : Nat) (v : DieCfg) : (s.setCfg d v).ioRegs = s.ioRegs := rfl
@[simp] theorem setCq_ioRegs (f r : Nat) (v : CplRing) : (s.setCq f r v).ioRegs = s.ioRegs := rfl
@[simp] theorem setJob_ioRegs (j : Nat) (v : Job) : (s.setJob j v).ioRegs = s.ioRegs := rfl
@[simp] theorem setBoard_ioRegs (b : Pins) : (s.setBoard b).ioRegs = s.ioRegs := rfl
@[simp] theorem setFn_ioRegs (f : Nat) (v : FnState) : (s.setFn f v).ioRegs = s.ioRegs := rfl
@[simp] theorem setSq_ioRegs (f r : Nat) (v : SubRing) : (s.setSq f r v).ioRegs = s.ioRegs := rfl
@[simp] theorem setHeat_ioRegs (src : Nat) (h : Heat) : (s.setHeat src h).ioRegs = s.ioRegs := rfl
@[simp] theorem writeByte_ioRegs (a : Nat) (v : BitVec 8) : (s.writeByte a v).ioRegs = s.ioRegs := rfl

/-! ### taps -/

@[simp] theorem wr_taps (k : Nat) (v : Word) : (s.wr k v).taps = s.taps := rfl
@[simp] theorem setChan_taps (b c : Nat) (v : Chan) : (s.setChan b c v).taps = s.taps := rfl
@[simp] theorem setMtx_taps (t : Nat) (m : Mtx) : (s.setMtx t m).taps = s.taps := rfl
@[simp] theorem emit_taps (o : Output) : (s.emit o).taps = s.taps := rfl
@[simp] theorem setVec_taps (b : Nat) (v : Vec) : (s.setVec b v).taps = s.taps := rfl
@[simp] theorem setPort_taps (b p : Nat) (v : TilePort) : (s.setPort b p v).taps = s.taps := rfl
@[simp] theorem setBay_taps (b : Nat) (v : BaySeq) : (s.setBay b v).taps = s.taps := rfl
@[simp] theorem writeBytes_taps (a : Nat) (vs : List Byte) : (s.writeBytes a vs).taps = s.taps := rfl
@[simp] theorem setCfg_taps (d : Nat) (v : DieCfg) : (s.setCfg d v).taps = s.taps := rfl
@[simp] theorem setCq_taps (f r : Nat) (v : CplRing) : (s.setCq f r v).taps = s.taps := rfl
@[simp] theorem setJob_taps (j : Nat) (v : Job) : (s.setJob j v).taps = s.taps := rfl
@[simp] theorem setBoard_taps (b : Pins) : (s.setBoard b).taps = s.taps := rfl
@[simp] theorem setFn_taps (f : Nat) (v : FnState) : (s.setFn f v).taps = s.taps := rfl
@[simp] theorem setSq_taps (f r : Nat) (v : SubRing) : (s.setSq f r v).taps = s.taps := rfl
@[simp] theorem setHeat_taps (src : Nat) (h : Heat) : (s.setHeat src h).taps = s.taps := rfl
@[simp] theorem writeByte_taps (a : Nat) (v : BitVec 8) : (s.writeByte a v).taps = s.taps := rfl

/-! ### firm -/

@[simp] theorem wr_firm (k : Nat) (v : Word) : (s.wr k v).firm = s.firm := rfl
@[simp] theorem setChan_firm (b c : Nat) (v : Chan) : (s.setChan b c v).firm = s.firm := rfl
@[simp] theorem setMtx_firm (t : Nat) (m : Mtx) : (s.setMtx t m).firm = s.firm := rfl
@[simp] theorem emit_firm (o : Output) : (s.emit o).firm = s.firm := rfl
@[simp] theorem setVec_firm (b : Nat) (v : Vec) : (s.setVec b v).firm = s.firm := rfl
@[simp] theorem setPort_firm (b p : Nat) (v : TilePort) : (s.setPort b p v).firm = s.firm := rfl
@[simp] theorem setBay_firm (b : Nat) (v : BaySeq) : (s.setBay b v).firm = s.firm := rfl
@[simp] theorem writeBytes_firm (a : Nat) (vs : List Byte) : (s.writeBytes a vs).firm = s.firm := rfl
@[simp] theorem setCfg_firm (d : Nat) (v : DieCfg) : (s.setCfg d v).firm = s.firm := rfl
@[simp] theorem setCq_firm (f r : Nat) (v : CplRing) : (s.setCq f r v).firm = s.firm := rfl
@[simp] theorem setJob_firm (j : Nat) (v : Job) : (s.setJob j v).firm = s.firm := rfl
@[simp] theorem setBoard_firm (b : Pins) : (s.setBoard b).firm = s.firm := rfl
@[simp] theorem setFn_firm (f : Nat) (v : FnState) : (s.setFn f v).firm = s.firm := rfl
@[simp] theorem setSq_firm (f r : Nat) (v : SubRing) : (s.setSq f r v).firm = s.firm := rfl
@[simp] theorem setHeat_firm (src : Nat) (h : Heat) : (s.setHeat src h).firm = s.firm := rfl
@[simp] theorem writeByte_firm (a : Nat) (v : BitVec 8) : (s.writeByte a v).firm = s.firm := rfl

/-! ### noc -/

@[simp] theorem wr_noc (k : Nat) (v : Word) : (s.wr k v).noc = s.noc := rfl
@[simp] theorem setChan_noc (b c : Nat) (v : Chan) : (s.setChan b c v).noc = s.noc := rfl
@[simp] theorem setMtx_noc (t : Nat) (m : Mtx) : (s.setMtx t m).noc = s.noc := rfl
@[simp] theorem emit_noc (o : Output) : (s.emit o).noc = s.noc := rfl
@[simp] theorem setVec_noc (b : Nat) (v : Vec) : (s.setVec b v).noc = s.noc := rfl
@[simp] theorem setPort_noc (b p : Nat) (v : TilePort) : (s.setPort b p v).noc = s.noc := rfl
@[simp] theorem setBay_noc (b : Nat) (v : BaySeq) : (s.setBay b v).noc = s.noc := rfl
@[simp] theorem writeBytes_noc (a : Nat) (vs : List Byte) : (s.writeBytes a vs).noc = s.noc := rfl
@[simp] theorem setCfg_noc (d : Nat) (v : DieCfg) : (s.setCfg d v).noc = s.noc := rfl
@[simp] theorem setCq_noc (f r : Nat) (v : CplRing) : (s.setCq f r v).noc = s.noc := rfl
@[simp] theorem setJob_noc (j : Nat) (v : Job) : (s.setJob j v).noc = s.noc := rfl
@[simp] theorem setBoard_noc (b : Pins) : (s.setBoard b).noc = s.noc := rfl
@[simp] theorem setFn_noc (f : Nat) (v : FnState) : (s.setFn f v).noc = s.noc := rfl
@[simp] theorem setSq_noc (f r : Nat) (v : SubRing) : (s.setSq f r v).noc = s.noc := rfl
@[simp] theorem setHeat_noc (src : Nat) (h : Heat) : (s.setHeat src h).noc = s.noc := rfl
@[simp] theorem writeByte_noc (a : Nat) (v : BitVec 8) : (s.writeByte a v).noc = s.noc := rfl

/-! ### nextNoc -/

@[simp] theorem wr_nextNoc (k : Nat) (v : Word) : (s.wr k v).nextNoc = s.nextNoc := rfl
@[simp] theorem setChan_nextNoc (b c : Nat) (v : Chan) : (s.setChan b c v).nextNoc = s.nextNoc := rfl
@[simp] theorem setMtx_nextNoc (t : Nat) (m : Mtx) : (s.setMtx t m).nextNoc = s.nextNoc := rfl
@[simp] theorem emit_nextNoc (o : Output) : (s.emit o).nextNoc = s.nextNoc := rfl
@[simp] theorem setVec_nextNoc (b : Nat) (v : Vec) : (s.setVec b v).nextNoc = s.nextNoc := rfl
@[simp] theorem setPort_nextNoc (b p : Nat) (v : TilePort) : (s.setPort b p v).nextNoc = s.nextNoc := rfl
@[simp] theorem setBay_nextNoc (b : Nat) (v : BaySeq) : (s.setBay b v).nextNoc = s.nextNoc := rfl
@[simp] theorem writeBytes_nextNoc (a : Nat) (vs : List Byte) : (s.writeBytes a vs).nextNoc = s.nextNoc := rfl
@[simp] theorem setCfg_nextNoc (d : Nat) (v : DieCfg) : (s.setCfg d v).nextNoc = s.nextNoc := rfl
@[simp] theorem setCq_nextNoc (f r : Nat) (v : CplRing) : (s.setCq f r v).nextNoc = s.nextNoc := rfl
@[simp] theorem setJob_nextNoc (j : Nat) (v : Job) : (s.setJob j v).nextNoc = s.nextNoc := rfl
@[simp] theorem setBoard_nextNoc (b : Pins) : (s.setBoard b).nextNoc = s.nextNoc := rfl
@[simp] theorem setFn_nextNoc (f : Nat) (v : FnState) : (s.setFn f v).nextNoc = s.nextNoc := rfl
@[simp] theorem setSq_nextNoc (f r : Nat) (v : SubRing) : (s.setSq f r v).nextNoc = s.nextNoc := rfl
@[simp] theorem setHeat_nextNoc (src : Nat) (h : Heat) : (s.setHeat src h).nextNoc = s.nextNoc := rfl
@[simp] theorem writeByte_nextNoc (a : Nat) (v : BitVec 8) : (s.writeByte a v).nextNoc = s.nextNoc := rfl

/-! ### crossings -/

@[simp] theorem wr_crossings (k : Nat) (v : Word) : (s.wr k v).crossings = s.crossings := rfl
@[simp] theorem setChan_crossings (b c : Nat) (v : Chan) : (s.setChan b c v).crossings = s.crossings := rfl
@[simp] theorem setMtx_crossings (t : Nat) (m : Mtx) : (s.setMtx t m).crossings = s.crossings := rfl
@[simp] theorem emit_crossings (o : Output) : (s.emit o).crossings = s.crossings := rfl
@[simp] theorem setVec_crossings (b : Nat) (v : Vec) : (s.setVec b v).crossings = s.crossings := rfl
@[simp] theorem setPort_crossings (b p : Nat) (v : TilePort) : (s.setPort b p v).crossings = s.crossings := rfl
@[simp] theorem setBay_crossings (b : Nat) (v : BaySeq) : (s.setBay b v).crossings = s.crossings := rfl
@[simp] theorem writeBytes_crossings (a : Nat) (vs : List Byte) : (s.writeBytes a vs).crossings = s.crossings := rfl
@[simp] theorem setCfg_crossings (d : Nat) (v : DieCfg) : (s.setCfg d v).crossings = s.crossings := rfl
@[simp] theorem setCq_crossings (f r : Nat) (v : CplRing) : (s.setCq f r v).crossings = s.crossings := rfl
@[simp] theorem setJob_crossings (j : Nat) (v : Job) : (s.setJob j v).crossings = s.crossings := rfl
@[simp] theorem setBoard_crossings (b : Pins) : (s.setBoard b).crossings = s.crossings := rfl
@[simp] theorem setFn_crossings (f : Nat) (v : FnState) : (s.setFn f v).crossings = s.crossings := rfl
@[simp] theorem setSq_crossings (f r : Nat) (v : SubRing) : (s.setSq f r v).crossings = s.crossings := rfl
@[simp] theorem setHeat_crossings (src : Nat) (h : Heat) : (s.setHeat src h).crossings = s.crossings := rfl
@[simp] theorem writeByte_crossings (a : Nat) (v : BitVec 8) : (s.writeByte a v).crossings = s.crossings := rfl

/-! ### swap -/

@[simp] theorem wr_swap (k : Nat) (v : Word) : (s.wr k v).swap = s.swap := rfl
@[simp] theorem setChan_swap (b c : Nat) (v : Chan) : (s.setChan b c v).swap = s.swap := rfl
@[simp] theorem setMtx_swap (t : Nat) (m : Mtx) : (s.setMtx t m).swap = s.swap := rfl
@[simp] theorem emit_swap (o : Output) : (s.emit o).swap = s.swap := rfl
@[simp] theorem setVec_swap (b : Nat) (v : Vec) : (s.setVec b v).swap = s.swap := rfl
@[simp] theorem setPort_swap (b p : Nat) (v : TilePort) : (s.setPort b p v).swap = s.swap := rfl
@[simp] theorem setBay_swap (b : Nat) (v : BaySeq) : (s.setBay b v).swap = s.swap := rfl
@[simp] theorem writeBytes_swap (a : Nat) (vs : List Byte) : (s.writeBytes a vs).swap = s.swap := rfl
@[simp] theorem setCfg_swap (d : Nat) (v : DieCfg) : (s.setCfg d v).swap = s.swap := rfl
@[simp] theorem setCq_swap (f r : Nat) (v : CplRing) : (s.setCq f r v).swap = s.swap := rfl
@[simp] theorem setJob_swap (j : Nat) (v : Job) : (s.setJob j v).swap = s.swap := rfl
@[simp] theorem setBoard_swap (b : Pins) : (s.setBoard b).swap = s.swap := rfl
@[simp] theorem setFn_swap (f : Nat) (v : FnState) : (s.setFn f v).swap = s.swap := rfl
@[simp] theorem setSq_swap (f r : Nat) (v : SubRing) : (s.setSq f r v).swap = s.swap := rfl
@[simp] theorem setHeat_swap (src : Nat) (h : Heat) : (s.setHeat src h).swap = s.swap := rfl
@[simp] theorem writeByte_swap (a : Nat) (v : BitVec 8) : (s.writeByte a v).swap = s.swap := rfl

/-! ### home -/

@[simp] theorem wr_home (k : Nat) (v : Word) : (s.wr k v).home = s.home := rfl
@[simp] theorem setChan_home (b c : Nat) (v : Chan) : (s.setChan b c v).home = s.home := rfl
@[simp] theorem setMtx_home (t : Nat) (m : Mtx) : (s.setMtx t m).home = s.home := rfl
@[simp] theorem emit_home (o : Output) : (s.emit o).home = s.home := rfl
@[simp] theorem setVec_home (b : Nat) (v : Vec) : (s.setVec b v).home = s.home := rfl
@[simp] theorem setPort_home (b p : Nat) (v : TilePort) : (s.setPort b p v).home = s.home := rfl
@[simp] theorem setBay_home (b : Nat) (v : BaySeq) : (s.setBay b v).home = s.home := rfl
@[simp] theorem writeBytes_home (a : Nat) (vs : List Byte) : (s.writeBytes a vs).home = s.home := rfl
@[simp] theorem setCfg_home (d : Nat) (v : DieCfg) : (s.setCfg d v).home = s.home := rfl
@[simp] theorem setCq_home (f r : Nat) (v : CplRing) : (s.setCq f r v).home = s.home := rfl
@[simp] theorem setJob_home (j : Nat) (v : Job) : (s.setJob j v).home = s.home := rfl
@[simp] theorem setBoard_home (b : Pins) : (s.setBoard b).home = s.home := rfl
@[simp] theorem setFn_home (f : Nat) (v : FnState) : (s.setFn f v).home = s.home := rfl
@[simp] theorem setSq_home (f r : Nat) (v : SubRing) : (s.setSq f r v).home = s.home := rfl
@[simp] theorem setHeat_home (src : Nat) (h : Heat) : (s.setHeat src h).home = s.home := rfl
@[simp] theorem writeByte_home (a : Nat) (v : BitVec 8) : (s.writeByte a v).home = s.home := rfl

/-! ### nextHome -/

@[simp] theorem wr_nextHome (k : Nat) (v : Word) : (s.wr k v).nextHome = s.nextHome := rfl
@[simp] theorem setChan_nextHome (b c : Nat) (v : Chan) : (s.setChan b c v).nextHome = s.nextHome := rfl
@[simp] theorem setMtx_nextHome (t : Nat) (m : Mtx) : (s.setMtx t m).nextHome = s.nextHome := rfl
@[simp] theorem emit_nextHome (o : Output) : (s.emit o).nextHome = s.nextHome := rfl
@[simp] theorem setVec_nextHome (b : Nat) (v : Vec) : (s.setVec b v).nextHome = s.nextHome := rfl
@[simp] theorem setPort_nextHome (b p : Nat) (v : TilePort) : (s.setPort b p v).nextHome = s.nextHome := rfl
@[simp] theorem setBay_nextHome (b : Nat) (v : BaySeq) : (s.setBay b v).nextHome = s.nextHome := rfl
@[simp] theorem writeBytes_nextHome (a : Nat) (vs : List Byte) : (s.writeBytes a vs).nextHome = s.nextHome := rfl
@[simp] theorem setCfg_nextHome (d : Nat) (v : DieCfg) : (s.setCfg d v).nextHome = s.nextHome := rfl
@[simp] theorem setCq_nextHome (f r : Nat) (v : CplRing) : (s.setCq f r v).nextHome = s.nextHome := rfl
@[simp] theorem setJob_nextHome (j : Nat) (v : Job) : (s.setJob j v).nextHome = s.nextHome := rfl
@[simp] theorem setBoard_nextHome (b : Pins) : (s.setBoard b).nextHome = s.nextHome := rfl
@[simp] theorem setFn_nextHome (f : Nat) (v : FnState) : (s.setFn f v).nextHome = s.nextHome := rfl
@[simp] theorem setSq_nextHome (f r : Nat) (v : SubRing) : (s.setSq f r v).nextHome = s.nextHome := rfl
@[simp] theorem setHeat_nextHome (src : Nat) (h : Heat) : (s.setHeat src h).nextHome = s.nextHome := rfl
@[simp] theorem writeByte_nextHome (a : Nat) (v : BitVec 8) : (s.writeByte a v).nextHome = s.nextHome := rfl

/-! ### windows -/

@[simp] theorem wr_windows (k : Nat) (v : Word) : (s.wr k v).windows = s.windows := rfl
@[simp] theorem setChan_windows (b c : Nat) (v : Chan) : (s.setChan b c v).windows = s.windows := rfl
@[simp] theorem setMtx_windows (t : Nat) (m : Mtx) : (s.setMtx t m).windows = s.windows := rfl
@[simp] theorem emit_windows (o : Output) : (s.emit o).windows = s.windows := rfl
@[simp] theorem setVec_windows (b : Nat) (v : Vec) : (s.setVec b v).windows = s.windows := rfl
@[simp] theorem setPort_windows (b p : Nat) (v : TilePort) : (s.setPort b p v).windows = s.windows := rfl
@[simp] theorem setBay_windows (b : Nat) (v : BaySeq) : (s.setBay b v).windows = s.windows := rfl
@[simp] theorem writeBytes_windows (a : Nat) (vs : List Byte) : (s.writeBytes a vs).windows = s.windows := rfl
@[simp] theorem setCfg_windows (d : Nat) (v : DieCfg) : (s.setCfg d v).windows = s.windows := rfl
@[simp] theorem setCq_windows (f r : Nat) (v : CplRing) : (s.setCq f r v).windows = s.windows := rfl
@[simp] theorem setJob_windows (j : Nat) (v : Job) : (s.setJob j v).windows = s.windows := rfl
@[simp] theorem setBoard_windows (b : Pins) : (s.setBoard b).windows = s.windows := rfl
@[simp] theorem setFn_windows (f : Nat) (v : FnState) : (s.setFn f v).windows = s.windows := rfl
@[simp] theorem setSq_windows (f r : Nat) (v : SubRing) : (s.setSq f r v).windows = s.windows := rfl
@[simp] theorem setHeat_windows (src : Nat) (h : Heat) : (s.setHeat src h).windows = s.windows := rfl
@[simp] theorem writeByte_windows (a : Nat) (v : BitVec 8) : (s.writeByte a v).windows = s.windows := rfl

/-! ### staged -/

@[simp] theorem wr_staged (k : Nat) (v : Word) : (s.wr k v).staged = s.staged := rfl
@[simp] theorem setChan_staged (b c : Nat) (v : Chan) : (s.setChan b c v).staged = s.staged := rfl
@[simp] theorem setMtx_staged (t : Nat) (m : Mtx) : (s.setMtx t m).staged = s.staged := rfl
@[simp] theorem emit_staged (o : Output) : (s.emit o).staged = s.staged := rfl
@[simp] theorem setVec_staged (b : Nat) (v : Vec) : (s.setVec b v).staged = s.staged := rfl
@[simp] theorem setPort_staged (b p : Nat) (v : TilePort) : (s.setPort b p v).staged = s.staged := rfl
@[simp] theorem setBay_staged (b : Nat) (v : BaySeq) : (s.setBay b v).staged = s.staged := rfl
@[simp] theorem writeBytes_staged (a : Nat) (vs : List Byte) : (s.writeBytes a vs).staged = s.staged := rfl
@[simp] theorem setCfg_staged (d : Nat) (v : DieCfg) : (s.setCfg d v).staged = s.staged := rfl
@[simp] theorem setCq_staged (f r : Nat) (v : CplRing) : (s.setCq f r v).staged = s.staged := rfl
@[simp] theorem setJob_staged (j : Nat) (v : Job) : (s.setJob j v).staged = s.staged := rfl
@[simp] theorem setBoard_staged (b : Pins) : (s.setBoard b).staged = s.staged := rfl
@[simp] theorem setFn_staged (f : Nat) (v : FnState) : (s.setFn f v).staged = s.staged := rfl
@[simp] theorem setSq_staged (f r : Nat) (v : SubRing) : (s.setSq f r v).staged = s.staged := rfl
@[simp] theorem setHeat_staged (src : Nat) (h : Heat) : (s.setHeat src h).staged = s.staged := rfl
@[simp] theorem writeByte_staged (a : Nat) (v : BitVec 8) : (s.writeByte a v).staged = s.staged := rfl

/-! ### flights -/

@[simp] theorem wr_flights (k : Nat) (v : Word) : (s.wr k v).flights = s.flights := rfl
@[simp] theorem setChan_flights (b c : Nat) (v : Chan) : (s.setChan b c v).flights = s.flights := rfl
@[simp] theorem setMtx_flights (t : Nat) (m : Mtx) : (s.setMtx t m).flights = s.flights := rfl
@[simp] theorem emit_flights (o : Output) : (s.emit o).flights = s.flights := rfl
@[simp] theorem setVec_flights (b : Nat) (v : Vec) : (s.setVec b v).flights = s.flights := rfl
@[simp] theorem setPort_flights (b p : Nat) (v : TilePort) : (s.setPort b p v).flights = s.flights := rfl
@[simp] theorem setBay_flights (b : Nat) (v : BaySeq) : (s.setBay b v).flights = s.flights := rfl
@[simp] theorem writeBytes_flights (a : Nat) (vs : List Byte) : (s.writeBytes a vs).flights = s.flights := rfl
@[simp] theorem setCfg_flights (d : Nat) (v : DieCfg) : (s.setCfg d v).flights = s.flights := rfl
@[simp] theorem setCq_flights (f r : Nat) (v : CplRing) : (s.setCq f r v).flights = s.flights := rfl
@[simp] theorem setJob_flights (j : Nat) (v : Job) : (s.setJob j v).flights = s.flights := rfl
@[simp] theorem setBoard_flights (b : Pins) : (s.setBoard b).flights = s.flights := rfl
@[simp] theorem setFn_flights (f : Nat) (v : FnState) : (s.setFn f v).flights = s.flights := rfl
@[simp] theorem setSq_flights (f r : Nat) (v : SubRing) : (s.setSq f r v).flights = s.flights := rfl
@[simp] theorem setHeat_flights (src : Nat) (h : Heat) : (s.setHeat src h).flights = s.flights := rfl
@[simp] theorem writeByte_flights (a : Nat) (v : BitVec 8) : (s.writeByte a v).flights = s.flights := rfl

/-! ### trackers -/

@[simp] theorem wr_trackers (k : Nat) (v : Word) : (s.wr k v).trackers = s.trackers := rfl
@[simp] theorem setChan_trackers (b c : Nat) (v : Chan) : (s.setChan b c v).trackers = s.trackers := rfl
@[simp] theorem setMtx_trackers (t : Nat) (m : Mtx) : (s.setMtx t m).trackers = s.trackers := rfl
@[simp] theorem emit_trackers (o : Output) : (s.emit o).trackers = s.trackers := rfl
@[simp] theorem setVec_trackers (b : Nat) (v : Vec) : (s.setVec b v).trackers = s.trackers := rfl
@[simp] theorem setPort_trackers (b p : Nat) (v : TilePort) : (s.setPort b p v).trackers = s.trackers := rfl
@[simp] theorem setBay_trackers (b : Nat) (v : BaySeq) : (s.setBay b v).trackers = s.trackers := rfl
@[simp] theorem writeBytes_trackers (a : Nat) (vs : List Byte) : (s.writeBytes a vs).trackers = s.trackers := rfl
@[simp] theorem setCfg_trackers (d : Nat) (v : DieCfg) : (s.setCfg d v).trackers = s.trackers := rfl
@[simp] theorem setCq_trackers (f r : Nat) (v : CplRing) : (s.setCq f r v).trackers = s.trackers := rfl
@[simp] theorem setJob_trackers (j : Nat) (v : Job) : (s.setJob j v).trackers = s.trackers := rfl
@[simp] theorem setBoard_trackers (b : Pins) : (s.setBoard b).trackers = s.trackers := rfl
@[simp] theorem setFn_trackers (f : Nat) (v : FnState) : (s.setFn f v).trackers = s.trackers := rfl
@[simp] theorem setSq_trackers (f r : Nat) (v : SubRing) : (s.setSq f r v).trackers = s.trackers := rfl
@[simp] theorem setHeat_trackers (src : Nat) (h : Heat) : (s.setHeat src h).trackers = s.trackers := rfl
@[simp] theorem writeByte_trackers (a : Nat) (v : BitVec 8) : (s.writeByte a v).trackers = s.trackers := rfl

/-! ### links -/

@[simp] theorem wr_links (k : Nat) (v : Word) : (s.wr k v).links = s.links := rfl
@[simp] theorem setChan_links (b c : Nat) (v : Chan) : (s.setChan b c v).links = s.links := rfl
@[simp] theorem setMtx_links (t : Nat) (m : Mtx) : (s.setMtx t m).links = s.links := rfl
@[simp] theorem emit_links (o : Output) : (s.emit o).links = s.links := rfl
@[simp] theorem setVec_links (b : Nat) (v : Vec) : (s.setVec b v).links = s.links := rfl
@[simp] theorem setPort_links (b p : Nat) (v : TilePort) : (s.setPort b p v).links = s.links := rfl
@[simp] theorem setBay_links (b : Nat) (v : BaySeq) : (s.setBay b v).links = s.links := rfl
@[simp] theorem writeBytes_links (a : Nat) (vs : List Byte) : (s.writeBytes a vs).links = s.links := rfl
@[simp] theorem setCfg_links (d : Nat) (v : DieCfg) : (s.setCfg d v).links = s.links := rfl
@[simp] theorem setCq_links (f r : Nat) (v : CplRing) : (s.setCq f r v).links = s.links := rfl
@[simp] theorem setJob_links (j : Nat) (v : Job) : (s.setJob j v).links = s.links := rfl
@[simp] theorem setBoard_links (b : Pins) : (s.setBoard b).links = s.links := rfl
@[simp] theorem setFn_links (f : Nat) (v : FnState) : (s.setFn f v).links = s.links := rfl
@[simp] theorem setSq_links (f r : Nat) (v : SubRing) : (s.setSq f r v).links = s.links := rfl
@[simp] theorem setHeat_links (src : Nat) (h : Heat) : (s.setHeat src h).links = s.links := rfl
@[simp] theorem writeByte_links (a : Nat) (v : BitVec 8) : (s.writeByte a v).links = s.links := rfl

/-! ### twin -/

@[simp] theorem wr_twin (k : Nat) (v : Word) : (s.wr k v).twin = s.twin := rfl
@[simp] theorem setChan_twin (b c : Nat) (v : Chan) : (s.setChan b c v).twin = s.twin := rfl
@[simp] theorem setMtx_twin (t : Nat) (m : Mtx) : (s.setMtx t m).twin = s.twin := rfl
@[simp] theorem emit_twin (o : Output) : (s.emit o).twin = s.twin := rfl
@[simp] theorem setVec_twin (b : Nat) (v : Vec) : (s.setVec b v).twin = s.twin := rfl
@[simp] theorem setPort_twin (b p : Nat) (v : TilePort) : (s.setPort b p v).twin = s.twin := rfl
@[simp] theorem setBay_twin (b : Nat) (v : BaySeq) : (s.setBay b v).twin = s.twin := rfl
@[simp] theorem writeBytes_twin (a : Nat) (vs : List Byte) : (s.writeBytes a vs).twin = s.twin := rfl
@[simp] theorem setCfg_twin (d : Nat) (v : DieCfg) : (s.setCfg d v).twin = s.twin := rfl
@[simp] theorem setCq_twin (f r : Nat) (v : CplRing) : (s.setCq f r v).twin = s.twin := rfl
@[simp] theorem setJob_twin (j : Nat) (v : Job) : (s.setJob j v).twin = s.twin := rfl
@[simp] theorem setBoard_twin (b : Pins) : (s.setBoard b).twin = s.twin := rfl
@[simp] theorem setFn_twin (f : Nat) (v : FnState) : (s.setFn f v).twin = s.twin := rfl
@[simp] theorem setSq_twin (f r : Nat) (v : SubRing) : (s.setSq f r v).twin = s.twin := rfl
@[simp] theorem setHeat_twin (src : Nat) (h : Heat) : (s.setHeat src h).twin = s.twin := rfl
@[simp] theorem writeByte_twin (a : Nat) (v : BitVec 8) : (s.writeByte a v).twin = s.twin := rfl

/-! ### formed -/

@[simp] theorem wr_formed (k : Nat) (v : Word) : (s.wr k v).formed = s.formed := rfl
@[simp] theorem setChan_formed (b c : Nat) (v : Chan) : (s.setChan b c v).formed = s.formed := rfl
@[simp] theorem setMtx_formed (t : Nat) (m : Mtx) : (s.setMtx t m).formed = s.formed := rfl
@[simp] theorem emit_formed (o : Output) : (s.emit o).formed = s.formed := rfl
@[simp] theorem setVec_formed (b : Nat) (v : Vec) : (s.setVec b v).formed = s.formed := rfl
@[simp] theorem setPort_formed (b p : Nat) (v : TilePort) : (s.setPort b p v).formed = s.formed := rfl
@[simp] theorem setBay_formed (b : Nat) (v : BaySeq) : (s.setBay b v).formed = s.formed := rfl
@[simp] theorem writeBytes_formed (a : Nat) (vs : List Byte) : (s.writeBytes a vs).formed = s.formed := rfl
@[simp] theorem setCfg_formed (d : Nat) (v : DieCfg) : (s.setCfg d v).formed = s.formed := rfl
@[simp] theorem setCq_formed (f r : Nat) (v : CplRing) : (s.setCq f r v).formed = s.formed := rfl
@[simp] theorem setJob_formed (j : Nat) (v : Job) : (s.setJob j v).formed = s.formed := rfl
@[simp] theorem setBoard_formed (b : Pins) : (s.setBoard b).formed = s.formed := rfl
@[simp] theorem setFn_formed (f : Nat) (v : FnState) : (s.setFn f v).formed = s.formed := rfl
@[simp] theorem setSq_formed (f r : Nat) (v : SubRing) : (s.setSq f r v).formed = s.formed := rfl
@[simp] theorem setHeat_formed (src : Nat) (h : Heat) : (s.setHeat src h).formed = s.formed := rfl
@[simp] theorem writeByte_formed (a : Nat) (v : BitVec 8) : (s.writeByte a v).formed = s.formed := rfl

/-! ### nv -/

@[simp] theorem wr_nv (k : Nat) (v : Word) : (s.wr k v).nv = s.nv := rfl
@[simp] theorem setChan_nv (b c : Nat) (v : Chan) : (s.setChan b c v).nv = s.nv := rfl
@[simp] theorem setMtx_nv (t : Nat) (m : Mtx) : (s.setMtx t m).nv = s.nv := rfl
@[simp] theorem emit_nv (o : Output) : (s.emit o).nv = s.nv := rfl
@[simp] theorem setVec_nv (b : Nat) (v : Vec) : (s.setVec b v).nv = s.nv := rfl
@[simp] theorem setPort_nv (b p : Nat) (v : TilePort) : (s.setPort b p v).nv = s.nv := rfl
@[simp] theorem setBay_nv (b : Nat) (v : BaySeq) : (s.setBay b v).nv = s.nv := rfl
@[simp] theorem writeBytes_nv (a : Nat) (vs : List Byte) : (s.writeBytes a vs).nv = s.nv := rfl
@[simp] theorem setCfg_nv (d : Nat) (v : DieCfg) : (s.setCfg d v).nv = s.nv := rfl
@[simp] theorem setCq_nv (f r : Nat) (v : CplRing) : (s.setCq f r v).nv = s.nv := rfl
@[simp] theorem setJob_nv (j : Nat) (v : Job) : (s.setJob j v).nv = s.nv := rfl
@[simp] theorem setBoard_nv (b : Pins) : (s.setBoard b).nv = s.nv := rfl
@[simp] theorem setFn_nv (f : Nat) (v : FnState) : (s.setFn f v).nv = s.nv := rfl
@[simp] theorem setSq_nv (f r : Nat) (v : SubRing) : (s.setSq f r v).nv = s.nv := rfl
@[simp] theorem setHeat_nv (src : Nat) (h : Heat) : (s.setHeat src h).nv = s.nv := rfl
@[simp] theorem writeByte_nv (a : Nat) (v : BitVec 8) : (s.writeByte a v).nv = s.nv := rfl

/-! ### plan -/

@[simp] theorem wr_plan (k : Nat) (v : Word) : (s.wr k v).plan = s.plan := rfl
@[simp] theorem setChan_plan (b c : Nat) (v : Chan) : (s.setChan b c v).plan = s.plan := rfl
@[simp] theorem setMtx_plan (t : Nat) (m : Mtx) : (s.setMtx t m).plan = s.plan := rfl
@[simp] theorem emit_plan (o : Output) : (s.emit o).plan = s.plan := rfl
@[simp] theorem setVec_plan (b : Nat) (v : Vec) : (s.setVec b v).plan = s.plan := rfl
@[simp] theorem setPort_plan (b p : Nat) (v : TilePort) : (s.setPort b p v).plan = s.plan := rfl
@[simp] theorem setBay_plan (b : Nat) (v : BaySeq) : (s.setBay b v).plan = s.plan := rfl
@[simp] theorem writeBytes_plan (a : Nat) (vs : List Byte) : (s.writeBytes a vs).plan = s.plan := rfl
@[simp] theorem setCfg_plan (d : Nat) (v : DieCfg) : (s.setCfg d v).plan = s.plan := rfl
@[simp] theorem setCq_plan (f r : Nat) (v : CplRing) : (s.setCq f r v).plan = s.plan := rfl
@[simp] theorem setJob_plan (j : Nat) (v : Job) : (s.setJob j v).plan = s.plan := rfl
@[simp] theorem setBoard_plan (b : Pins) : (s.setBoard b).plan = s.plan := rfl
@[simp] theorem setFn_plan (f : Nat) (v : FnState) : (s.setFn f v).plan = s.plan := rfl
@[simp] theorem setSq_plan (f r : Nat) (v : SubRing) : (s.setSq f r v).plan = s.plan := rfl
@[simp] theorem setHeat_plan (src : Nat) (h : Heat) : (s.setHeat src h).plan = s.plan := rfl
@[simp] theorem writeByte_plan (a : Nat) (v : BitVec 8) : (s.writeByte a v).plan = s.plan := rfl

/-! ### board -/

@[simp] theorem wr_board (k : Nat) (v : Word) : (s.wr k v).board = s.board := rfl
@[simp] theorem setChan_board (b c : Nat) (v : Chan) : (s.setChan b c v).board = s.board := rfl
@[simp] theorem setMtx_board (t : Nat) (m : Mtx) : (s.setMtx t m).board = s.board := rfl
@[simp] theorem emit_board (o : Output) : (s.emit o).board = s.board := rfl
@[simp] theorem setVec_board (b : Nat) (v : Vec) : (s.setVec b v).board = s.board := rfl
@[simp] theorem setPort_board (b p : Nat) (v : TilePort) : (s.setPort b p v).board = s.board := rfl
@[simp] theorem setBay_board (b : Nat) (v : BaySeq) : (s.setBay b v).board = s.board := rfl
@[simp] theorem writeBytes_board (a : Nat) (vs : List Byte) : (s.writeBytes a vs).board = s.board := rfl
@[simp] theorem setCfg_board (d : Nat) (v : DieCfg) : (s.setCfg d v).board = s.board := rfl
@[simp] theorem setCq_board (f r : Nat) (v : CplRing) : (s.setCq f r v).board = s.board := rfl
@[simp] theorem setJob_board (j : Nat) (v : Job) : (s.setJob j v).board = s.board := rfl
@[simp] theorem setFn_board (f : Nat) (v : FnState) : (s.setFn f v).board = s.board := rfl
@[simp] theorem setSq_board (f r : Nat) (v : SubRing) : (s.setSq f r v).board = s.board := rfl
@[simp] theorem setHeat_board (src : Nat) (h : Heat) : (s.setHeat src h).board = s.board := rfl
@[simp] theorem writeByte_board (a : Nat) (v : BitVec 8) : (s.writeByte a v).board = s.board := rfl

/-! ### test -/

@[simp] theorem wr_test (k : Nat) (v : Word) : (s.wr k v).test = s.test := rfl
@[simp] theorem setChan_test (b c : Nat) (v : Chan) : (s.setChan b c v).test = s.test := rfl
@[simp] theorem setMtx_test (t : Nat) (m : Mtx) : (s.setMtx t m).test = s.test := rfl
@[simp] theorem emit_test (o : Output) : (s.emit o).test = s.test := rfl
@[simp] theorem setVec_test (b : Nat) (v : Vec) : (s.setVec b v).test = s.test := rfl
@[simp] theorem setPort_test (b p : Nat) (v : TilePort) : (s.setPort b p v).test = s.test := rfl
@[simp] theorem setBay_test (b : Nat) (v : BaySeq) : (s.setBay b v).test = s.test := rfl
@[simp] theorem writeBytes_test (a : Nat) (vs : List Byte) : (s.writeBytes a vs).test = s.test := rfl
@[simp] theorem setCfg_test (d : Nat) (v : DieCfg) : (s.setCfg d v).test = s.test := rfl
@[simp] theorem setCq_test (f r : Nat) (v : CplRing) : (s.setCq f r v).test = s.test := rfl
@[simp] theorem setJob_test (j : Nat) (v : Job) : (s.setJob j v).test = s.test := rfl
@[simp] theorem setBoard_test (b : Pins) : (s.setBoard b).test = s.test := rfl
@[simp] theorem setFn_test (f : Nat) (v : FnState) : (s.setFn f v).test = s.test := rfl
@[simp] theorem setSq_test (f r : Nat) (v : SubRing) : (s.setSq f r v).test = s.test := rfl
@[simp] theorem setHeat_test (src : Nat) (h : Heat) : (s.setHeat src h).test = s.test := rfl
@[simp] theorem writeByte_test (a : Nat) (v : BitVec 8) : (s.writeByte a v).test = s.test := rfl

/-! ### heat -/

@[simp] theorem wr_heat (k : Nat) (v : Word) : (s.wr k v).heat = s.heat := rfl
@[simp] theorem setChan_heat (b c : Nat) (v : Chan) : (s.setChan b c v).heat = s.heat := rfl
@[simp] theorem setMtx_heat (t : Nat) (m : Mtx) : (s.setMtx t m).heat = s.heat := rfl
@[simp] theorem emit_heat (o : Output) : (s.emit o).heat = s.heat := rfl
@[simp] theorem setVec_heat (b : Nat) (v : Vec) : (s.setVec b v).heat = s.heat := rfl
@[simp] theorem setPort_heat (b p : Nat) (v : TilePort) : (s.setPort b p v).heat = s.heat := rfl
@[simp] theorem setBay_heat (b : Nat) (v : BaySeq) : (s.setBay b v).heat = s.heat := rfl
@[simp] theorem writeBytes_heat (a : Nat) (vs : List Byte) : (s.writeBytes a vs).heat = s.heat := rfl
@[simp] theorem setCfg_heat (d : Nat) (v : DieCfg) : (s.setCfg d v).heat = s.heat := rfl
@[simp] theorem setCq_heat (f r : Nat) (v : CplRing) : (s.setCq f r v).heat = s.heat := rfl
@[simp] theorem setJob_heat (j : Nat) (v : Job) : (s.setJob j v).heat = s.heat := rfl
@[simp] theorem setBoard_heat (b : Pins) : (s.setBoard b).heat = s.heat := rfl
@[simp] theorem setFn_heat (f : Nat) (v : FnState) : (s.setFn f v).heat = s.heat := rfl
@[simp] theorem setSq_heat (f r : Nat) (v : SubRing) : (s.setSq f r v).heat = s.heat := rfl
@[simp] theorem writeByte_heat (a : Nat) (v : BitVec 8) : (s.writeByte a v).heat = s.heat := rfl

/-! ### scale -/

@[simp] theorem wr_scale (k : Nat) (v : Word) : (s.wr k v).scale = s.scale := rfl
@[simp] theorem setChan_scale (b c : Nat) (v : Chan) : (s.setChan b c v).scale = s.scale := rfl
@[simp] theorem setMtx_scale (t : Nat) (m : Mtx) : (s.setMtx t m).scale = s.scale := rfl
@[simp] theorem emit_scale (o : Output) : (s.emit o).scale = s.scale := rfl
@[simp] theorem setVec_scale (b : Nat) (v : Vec) : (s.setVec b v).scale = s.scale := rfl
@[simp] theorem setPort_scale (b p : Nat) (v : TilePort) : (s.setPort b p v).scale = s.scale := rfl
@[simp] theorem setBay_scale (b : Nat) (v : BaySeq) : (s.setBay b v).scale = s.scale := rfl
@[simp] theorem writeBytes_scale (a : Nat) (vs : List Byte) : (s.writeBytes a vs).scale = s.scale := rfl
@[simp] theorem setCfg_scale (d : Nat) (v : DieCfg) : (s.setCfg d v).scale = s.scale := rfl
@[simp] theorem setCq_scale (f r : Nat) (v : CplRing) : (s.setCq f r v).scale = s.scale := rfl
@[simp] theorem setJob_scale (j : Nat) (v : Job) : (s.setJob j v).scale = s.scale := rfl
@[simp] theorem setBoard_scale (b : Pins) : (s.setBoard b).scale = s.scale := rfl
@[simp] theorem setFn_scale (f : Nat) (v : FnState) : (s.setFn f v).scale = s.scale := rfl
@[simp] theorem setSq_scale (f r : Nat) (v : SubRing) : (s.setSq f r v).scale = s.scale := rfl
@[simp] theorem setHeat_scale (src : Nat) (h : Heat) : (s.setHeat src h).scale = s.scale := rfl
@[simp] theorem writeByte_scale (a : Nat) (v : BitVec 8) : (s.writeByte a v).scale = s.scale := rfl

/-! ### out -/

@[simp] theorem wr_out (k : Nat) (v : Word) : (s.wr k v).out = s.out := rfl
@[simp] theorem setChan_out (b c : Nat) (v : Chan) : (s.setChan b c v).out = s.out := rfl
@[simp] theorem setMtx_out (t : Nat) (m : Mtx) : (s.setMtx t m).out = s.out := rfl
@[simp] theorem setVec_out (b : Nat) (v : Vec) : (s.setVec b v).out = s.out := rfl
@[simp] theorem setPort_out (b p : Nat) (v : TilePort) : (s.setPort b p v).out = s.out := rfl
@[simp] theorem setBay_out (b : Nat) (v : BaySeq) : (s.setBay b v).out = s.out := rfl
@[simp] theorem writeBytes_out (a : Nat) (vs : List Byte) : (s.writeBytes a vs).out = s.out := rfl
@[simp] theorem setCfg_out (d : Nat) (v : DieCfg) : (s.setCfg d v).out = s.out := rfl
@[simp] theorem setCq_out (f r : Nat) (v : CplRing) : (s.setCq f r v).out = s.out := rfl
@[simp] theorem setJob_out (j : Nat) (v : Job) : (s.setJob j v).out = s.out := rfl
@[simp] theorem setBoard_out (b : Pins) : (s.setBoard b).out = s.out := rfl
@[simp] theorem setFn_out (f : Nat) (v : FnState) : (s.setFn f v).out = s.out := rfl
@[simp] theorem setSq_out (f r : Nat) (v : SubRing) : (s.setSq f r v).out = s.out := rfl
@[simp] theorem setHeat_out (src : Nat) (h : Heat) : (s.setHeat src h).out = s.out := rfl
@[simp] theorem writeByte_out (a : Nat) (v : BitVec 8) : (s.writeByte a v).out = s.out := rfl

/-! ### free -/

@[simp] theorem wr_free (k : Nat) (v : Word) : (s.wr k v).free = s.free := rfl
@[simp] theorem setChan_free (b c : Nat) (v : Chan) : (s.setChan b c v).free = s.free := rfl
@[simp] theorem setMtx_free (t : Nat) (m : Mtx) : (s.setMtx t m).free = s.free := rfl
@[simp] theorem emit_free (o : Output) : (s.emit o).free = s.free := rfl
@[simp] theorem setVec_free (b : Nat) (v : Vec) : (s.setVec b v).free = s.free := rfl
@[simp] theorem setPort_free (b p : Nat) (v : TilePort) : (s.setPort b p v).free = s.free := rfl
@[simp] theorem setBay_free (b : Nat) (v : BaySeq) : (s.setBay b v).free = s.free := rfl
@[simp] theorem writeBytes_free (a : Nat) (vs : List Byte) : (s.writeBytes a vs).free = s.free := rfl
@[simp] theorem setCfg_free (d : Nat) (v : DieCfg) : (s.setCfg d v).free = s.free := rfl
@[simp] theorem setCq_free (f r : Nat) (v : CplRing) : (s.setCq f r v).free = s.free := rfl
@[simp] theorem setJob_free (j : Nat) (v : Job) : (s.setJob j v).free = s.free := rfl
@[simp] theorem setBoard_free (b : Pins) : (s.setBoard b).free = s.free := rfl
@[simp] theorem setFn_free (f : Nat) (v : FnState) : (s.setFn f v).free = s.free := rfl
@[simp] theorem setSq_free (f r : Nat) (v : SubRing) : (s.setSq f r v).free = s.free := rfl
@[simp] theorem setHeat_free (src : Nat) (h : Heat) : (s.setHeat src h).free = s.free := rfl
@[simp] theorem writeByte_free (a : Nat) (v : BitVec 8) : (s.writeByte a v).free = s.free := rfl

/-! ### pending -/

@[simp] theorem wr_pending (k : Nat) (v : Word) : (s.wr k v).pending = s.pending := rfl
@[simp] theorem setChan_pending (b c : Nat) (v : Chan) : (s.setChan b c v).pending = s.pending := rfl
@[simp] theorem setMtx_pending (t : Nat) (m : Mtx) : (s.setMtx t m).pending = s.pending := rfl
@[simp] theorem emit_pending (o : Output) : (s.emit o).pending = s.pending := rfl
@[simp] theorem setVec_pending (b : Nat) (v : Vec) : (s.setVec b v).pending = s.pending := rfl
@[simp] theorem setPort_pending (b p : Nat) (v : TilePort) : (s.setPort b p v).pending = s.pending := rfl
@[simp] theorem setBay_pending (b : Nat) (v : BaySeq) : (s.setBay b v).pending = s.pending := rfl
@[simp] theorem writeBytes_pending (a : Nat) (vs : List Byte) : (s.writeBytes a vs).pending = s.pending := rfl
@[simp] theorem setCfg_pending (d : Nat) (v : DieCfg) : (s.setCfg d v).pending = s.pending := rfl
@[simp] theorem setCq_pending (f r : Nat) (v : CplRing) : (s.setCq f r v).pending = s.pending := rfl
@[simp] theorem setJob_pending (j : Nat) (v : Job) : (s.setJob j v).pending = s.pending := rfl
@[simp] theorem setBoard_pending (b : Pins) : (s.setBoard b).pending = s.pending := rfl
@[simp] theorem setFn_pending (f : Nat) (v : FnState) : (s.setFn f v).pending = s.pending := rfl
@[simp] theorem setSq_pending (f r : Nat) (v : SubRing) : (s.setSq f r v).pending = s.pending := rfl
@[simp] theorem setHeat_pending (src : Nat) (h : Heat) : (s.setHeat src h).pending = s.pending := rfl
@[simp] theorem writeByte_pending (a : Nat) (v : BitVec 8) : (s.writeByte a v).pending = s.pending := rfl

/-! ### Registers -/

@[simp] theorem wr_regs (k : Nat) (v : Word) : (s.wr k v).regs = tset regReset s.regs k v := rfl

@[simp] theorem rd_wr_same (k : Nat) (v : Word) : (s.wr k v).rd k = v := tget_tset_same ..

theorem rd_wr_ne {k k2 : Nat} (v : Word) (h : k2 ≠ k) : (s.wr k v).rd k2 = s.rd k2 := tget_tset_ne _ _ _ h

theorem rd_wr (k k2 : Nat) (v : Word) : (s.wr k v).rd k2 = if k2 = k then v else s.rd k2 := tget_tset ..

/-- Reading depends on the registers alone. -/
theorem rd_congr {s t : State} (h : s.regs = t.regs) (k : Nat) : s.rd k = t.rd k := by rw [State.rd, State.rd, h]

theorem wrFld_eq (k hi lo v : Nat) : s.wrFld k hi lo v = s.wr k (BitVec.ofNat 32 (putBits (s.rdN k) hi lo v)) := rfl
theorem setBits_eq (k m : Nat) : s.setBits k m = s.wr k (s.rd k ||| BitVec.ofNat 32 m) := rfl
theorem clrBits_eq (k m : Nat) : s.clrBits k m = s.wr k (s.rd k &&& ~~~(BitVec.ofNat 32 m)) := rfl
theorem setFlag_eq (k i : Nat) : s.setFlag k i = s.wr k (s.rd k ||| BitVec.ofNat 32 (2 ^ i)) := rfl
theorem bump_eq (k n : Nat) : s.bump k n = s.wr k (s.rd k + BitVec.ofNat 32 n) := rfl
theorem wr64_eq (k v : Nat) :
    s.wr64 k v = (s.wr k (BitVec.ofNat 32 v)).wr (k + 4) (BitVec.ofNat 32 (v / 2 ^ 32)) := rfl

/-- A register operation writes at most the registers it names. -/
theorem rd_setFlag_ne {k k2 : Nat} (i : Nat) (h : k2 ≠ k) : (s.setFlag k i).rd k2 = s.rd k2 := rd_wr_ne s _ h
theorem rd_bump_ne {k k2 : Nat} (n : Nat) (h : k2 ≠ k) : (s.bump k n).rd k2 = s.rd k2 := rd_wr_ne s _ h
theorem rd_wrFld_ne {k k2 : Nat} (hi lo v : Nat) (h : k2 ≠ k) : (s.wrFld k hi lo v).rd k2 = s.rd k2 := rd_wr_ne s _ h
@[simp] theorem rd_bump_same (k n : Nat) : (s.bump k n).rd k = s.rd k + BitVec.ofNat 32 n := rd_wr_same ..
@[simp] theorem rd_setFlag_same (k i : Nat) : (s.setFlag k i).rd k = s.rd k ||| BitVec.ofNat 32 (2 ^ i) := rd_wr_same ..

/-! ### Memory -/

@[simp] theorem writeByte_mem (a : Nat) (v : Byte) : (s.writeByte a v).mem = tset (fun _ => 0) s.mem a v := rfl
@[simp] theorem writeBytes_mem (a : Nat) (vs : List Byte) : (s.writeBytes a vs).mem = tputBytes s.mem a vs := rfl

@[simp] theorem readByte_writeByte_same (a : Nat) (v : Byte) : (s.writeByte a v).readByte a = v := tget_tset_same ..

theorem readByte_writeByte_ne {a b : Nat} (v : Byte) (h : b ≠ a) : (s.writeByte a v).readByte b = s.readByte b :=
  tget_tset_ne _ _ _ h

theorem readByte_writeBytes_in (a : Nat) (vs : List Byte) (i : Nat) (h : i < vs.length) :
    (s.writeBytes a vs).readByte (a + i) = vs[i] := tget_tputBytes_in ..

theorem readByte_writeBytes_out (a : Nat) (vs : List Byte) (b : Nat) (h : b < a ∨ a + vs.length ≤ b) :
    (s.writeBytes a vs).readByte b = s.readByte b := tget_tputBytes_out _ _ _ _ h

/-- Every memory write keeps the canonical form. -/
theorem writeByte_wf (a : Nat) (v : Byte) (h : Table.wf (fun _ => 0) s.mem = true) :
    Table.wf (fun _ => 0) (s.writeByte a v).mem = true := tset_wf a v h

theorem writeBytes_wf (a : Nat) (vs : List Byte) (h : Table.wf (fun _ => 0) s.mem = true) :
    Table.wf (fun _ => 0) (s.writeBytes a vs).mem = true := tputBytes_wf a vs h

/-- So does every register write. -/
theorem wr_wf (k : Nat) (v : Word) (h : Table.wf regReset s.regs = true) : Table.wf regReset (s.wr k v).regs = true :=
  tset_wf k v h

/-! ### Units -/

@[simp] theorem mtxAt_setMtx_same (t : Nat) (m : Mtx) : (s.setMtx t m).mtxAt t = m := tget_tput_same ..
theorem mtxAt_setMtx_ne {t t2 : Nat} (m : Mtx) (h : t2 ≠ t) : (s.setMtx t m).mtxAt t2 = s.mtxAt t2 := tget_tput_ne _ _ _ h
@[simp] theorem vecAt_setVec_same (b : Nat) (v : Vec) : (s.setVec b v).vecAt b = v := tget_tput_same ..
theorem vecAt_setVec_ne {b b2 : Nat} (v : Vec) (h : b2 ≠ b) : (s.setVec b v).vecAt b2 = s.vecAt b2 := tget_tput_ne _ _ _ h
@[simp] theorem bayAt_setBay_same (b : Nat) (v : BaySeq) : (s.setBay b v).bayAt b = v := tget_tput_same ..
theorem bayAt_setBay_ne {b b2 : Nat} (v : BaySeq) (h : b2 ≠ b) : (s.setBay b v).bayAt b2 = s.bayAt b2 := tget_tput_ne _ _ _ h
@[simp] theorem chanAt_setChan_same (b c : Nat) (v : Chan) : (s.setChan b c v).chanAt b c = v := tget_tput_same ..
theorem chanAt_setChan_ne {b c b2 c2 : Nat} (v : Chan) (h : 16 * b2 + c2 ≠ 16 * b + c) :
    (s.setChan b c v).chanAt b2 c2 = s.chanAt b2 c2 := tget_tput_ne _ _ _ h
@[simp] theorem portAt_setPort_same (b p : Nat) (v : TilePort) : (s.setPort b p v).portAt b p = v := tget_tput_same ..
@[simp] theorem cfgAt_setCfg_same (d : Nat) (v : DieCfg) : (s.setCfg d v).cfgAt d = v := tget_tput_same ..
theorem cfgAt_setCfg_ne {d d2 : Nat} (v : DieCfg) (h : d2 ≠ d) : (s.setCfg d v).cfgAt d2 = s.cfgAt d2 := tget_tput_ne _ _ _ h
@[simp] theorem cqAt_setCq_same (f r : Nat) (v : CplRing) : (s.setCq f r v).cqAt f r = v := tget_tput_same ..
@[simp] theorem sqAt_setSq_same (f r : Nat) (v : SubRing) : (s.setSq f r v).sqAt f r = v := tget_tput_same ..
@[simp] theorem fnAt_setFn_same (f : Nat) (v : FnState) : (s.setFn f v).fnAt f = v := tget_tput_same ..
theorem fnAt_setFn_ne {f f2 : Nat} (v : FnState) (h : f2 ≠ f) : (s.setFn f v).fnAt f2 = s.fnAt f2 := tget_tput_ne _ _ _ h
@[simp] theorem emit_out (o : Output) : (s.emit o).out = s.out ++ [o] := rfl
@[simp] theorem setBoard_board (b : Pins) : (s.setBoard b).board = b := rfl

end Sys2Proof.Machine
end

