-- ==== Sys2Proof/Laws/Bits.lean ====
section
/-! SUPPORT. Laws of bit fields: which bits a field write changes, and what a field reads after it. -/

namespace Sys2Proof.Machine

theorem bitOf_eq (x i : Nat) : bitOf x i = x.testBit i := by
  simp [bitOf, Nat.testBit, Nat.shiftRight_eq_div_pow, Nat.and_comm 1, Nat.and_one_is_mod, Bool.beq_eq_decide_eq]

theorem bitsOf_lt (x hi lo : Nat) : bitsOf x hi lo < 2 ^ (hi - lo + 1) := Nat.mod_lt _ (Nat.two_pow_pos _)

/-- The three parts of a number around bits [hi:lo]. -/
theorem putBits_parts (x hi lo v : Nat) :
    putBits x hi lo v =
      (x / 2 ^ lo / 2 ^ (hi - lo + 1)) * 2 ^ (hi - lo + 1) * 2 ^ lo + v % 2 ^ (hi - lo + 1) * 2 ^ lo + x % 2 ^ lo := by
  have h1 := Nat.div_add_mod x (2 ^ lo)
  have h2 := Nat.div_add_mod (x / 2 ^ lo) (2 ^ (hi - lo + 1))
  unfold putBits bitsOf
  generalize 2 ^ (hi - lo + 1) = W at *
  generalize 2 ^ lo = L at *
  generalize x / L / W = a at *
  generalize x / L % W = m at *
  generalize x % L = b at *
  generalize v % W = w at *
  subst_vars
  rw [← h2] at h1
  have e : x = a * W * L + m * L + b := by
    rw [← h1, Nat.mul_add, Nat.mul_comm L, Nat.mul_comm L, Nat.mul_comm W]
  omega

theorem div_putBits (x hi lo v : Nat) :
    putBits x hi lo v / 2 ^ lo = (x / 2 ^ lo / 2 ^ (hi - lo + 1)) * 2 ^ (hi - lo + 1) + v % 2 ^ (hi - lo + 1) := by
  rw [putBits_parts, ← Nat.add_mul, Nat.mul_comm _ (2 ^ lo), Nat.mul_add_div (Nat.two_pow_pos lo),
    Nat.div_eq_of_lt (Nat.mod_lt _ (Nat.two_pow_pos lo)), Nat.add_zero]

theorem mod_putBits (x hi lo v : Nat) : putBits x hi lo v % 2 ^ lo = x % 2 ^ lo := by
  rw [putBits_parts, ← Nat.add_mul, Nat.mul_comm _ (2 ^ lo), Nat.mul_add_mod, Nat.mod_mod]

/-- Bit i of a number whose field [hi:lo] has been replaced. -/
theorem testBit_putBits (x hi lo v i : Nat) (h : lo ≤ hi) :
    (putBits x hi lo v).testBit i = if lo ≤ i ∧ i ≤ hi then v.testBit (i - lo) else x.testBit i := by
  by_cases h1 : i < lo
  · have a := Nat.testBit_mod_two_pow (putBits x hi lo v) lo i
    have b := Nat.testBit_mod_two_pow x lo i
    rw [mod_putBits] at a
    simp only [h1, decide_true, Bool.true_and] at a b
    rw [← a, b, if_neg (by omega)]
  · have hd : (putBits x hi lo v).testBit i = (putBits x hi lo v / 2 ^ lo).testBit (i - lo) := by
      rw [Nat.testBit_div_two_pow, Nat.sub_add_cancel (by omega)]
    have hx : x.testBit i = (x / 2 ^ lo).testBit (i - lo) := by
      rw [Nat.testBit_div_two_pow, Nat.sub_add_cancel (by omega)]
    rw [hd, div_putBits, Nat.mul_comm,
      Nat.testBit_two_pow_mul_add _ (Nat.mod_lt _ (Nat.two_pow_pos _))]
    by_cases h2 : i - lo < hi - lo + 1
    · rw [if_pos h2, if_pos (by omega), Nat.testBit_mod_two_pow]; simp [h2]
    · rw [if_neg h2, if_neg (by omega), hx, Nat.testBit_div_two_pow, Nat.sub_add_cancel (by omega)]

theorem putBits_lt (x hi lo v n : Nat) (h : lo ≤ hi) (hn : hi < n) (hx : x < 2 ^ n) : putBits x hi lo v < 2 ^ n := by
  apply Nat.lt_pow_two_of_testBit
  intro i hi'
  rw [testBit_putBits _ _ _ _ _ h, if_neg (by omega)]
  exact Nat.testBit_lt_two_pow (Nat.lt_of_lt_of_le hx (Nat.pow_le_pow_right (by decide) hi'))

theorem bitsOf_testBit (x hi lo i : Nat) : (bitsOf x hi lo).testBit i = (decide (i < hi - lo + 1) && x.testBit (i + lo)) := by
  rw [bitsOf, Nat.testBit_mod_two_pow, Nat.testBit_div_two_pow]

theorem bitsOf_putBits_same (x hi lo v : Nat) (h : lo ≤ hi) : bitsOf (putBits x hi lo v) hi lo = v % 2 ^ (hi - lo + 1) := by
  apply Nat.eq_of_testBit_eq
  intro i
  rw [bitsOf_testBit, testBit_putBits _ _ _ _ _ h, Nat.testBit_mod_two_pow]
  by_cases hi' : i < hi - lo + 1
  · rw [if_pos (by omega)]; simp [hi']
  · simp [hi']

theorem bitsOf_putBits_other (x hi lo v hi2 lo2 : Nat) (h : lo ≤ hi) (h2 : lo2 ≤ hi2) (hd : hi2 < lo ∨ hi < lo2) :
    bitsOf (putBits x hi lo v) hi2 lo2 = bitsOf x hi2 lo2 := by
  apply Nat.eq_of_testBit_eq
  intro i
  rw [bitsOf_testBit, bitsOf_testBit, testBit_putBits _ _ _ _ _ h]
  by_cases hi' : i < hi2 - lo2 + 1
  · rw [if_neg (by omega)]
  · simp [hi']

variable (s : State)

theorem rdN_lt (k : Nat) : s.rdN k < 2 ^ 32 := (s.rd k).isLt

theorem rdN_wrFld_same (k hi lo v : Nat) (h : lo ≤ hi) (h2 : hi < 32) :
    (s.wrFld k hi lo v).rdN k = putBits (s.rdN k) hi lo v := by
  rw [State.rdN, wrFld_eq, rd_wr_same, BitVec.toNat_ofNat, Nat.mod_eq_of_lt (putBits_lt _ _ _ _ _ h h2 (rdN_lt s k))]

theorem rdN_wrFld_ne {k k2 : Nat} (hi lo v : Nat) (h : k2 ≠ k) : (s.wrFld k hi lo v).rdN k2 = s.rdN k2 := by
  rw [State.rdN, rd_wrFld_ne _ _ _ _ h, State.rdN]

/-- A field reads as it was written. -/
theorem fld_wrFld_same (k hi lo v : Nat) (h : lo ≤ hi) (h2 : hi < 32) :
    (s.wrFld k hi lo v).fld k hi lo = v % 2 ^ (hi - lo + 1) := by
  rw [State.fld, rdN_wrFld_same _ _ _ _ _ h h2, bitsOf_putBits_same _ _ _ _ h]

/-- A field write leaves the other fields of its register. -/
theorem fld_wrFld_other (k hi lo v hi2 lo2 : Nat) (h : lo ≤ hi) (h2 : hi < 32) (h3 : lo2 ≤ hi2)
    (hd : hi2 < lo ∨ hi < lo2) : (s.wrFld k hi lo v).fld k hi2 lo2 = s.fld k hi2 lo2 := by
  rw [State.fld, rdN_wrFld_same _ _ _ _ _ h h2, bitsOf_putBits_other _ _ _ _ _ _ h h3 hd, State.fld]

theorem fld_wrFld_ne {k k2 : Nat} (hi lo v hi2 lo2 : Nat) (h : k2 ≠ k) :
    (s.wrFld k hi lo v).fld k2 hi2 lo2 = s.fld k2 hi2 lo2 := by
  rw [State.fld, rdN_wrFld_ne _ _ _ _ h, State.fld]

theorem rbit_eq (k i : Nat) : s.rbit k i = (s.rdN k).testBit i := bitOf_eq ..

/-- A bit of a register after a field write. -/
theorem rbit_wrFld (k hi lo v i : Nat) (h : lo ≤ hi) (h2 : hi < 32) :
    (s.wrFld k hi lo v).rbit k i = if lo ≤ i ∧ i ≤ hi then v.testBit (i - lo) else s.rbit k i := by
  rw [rbit_eq, rdN_wrFld_same _ _ _ _ _ h h2, testBit_putBits _ _ _ _ _ h, rbit_eq]

theorem rbit_wrFld_ne {k k2 : Nat} (hi lo v i : Nat) (h : k2 ≠ k) : (s.wrFld k hi lo v).rbit k2 i = s.rbit k2 i := by
  rw [State.rbit, rdN_wrFld_ne _ _ _ _ h, State.rbit]

theorem rbit_setFlag_same (k i : Nat) (h : i < 32) : (s.setFlag k i).rbit k i = true := by
  rw [rbit_eq, State.rdN, rd_setFlag_same]
  simp [Nat.mod_eq_of_lt (Nat.pow_lt_pow_right (by decide : 1 < 2) h : 2 ^ i < 4294967296)]

theorem rbit_setFlag_other (k i j : Nat) (h : i ≠ j) : (s.setFlag k i).rbit k j = s.rbit k j := by
  rw [rbit_eq, rbit_eq, State.rdN, State.rdN, rd_setFlag_same]
  rw [BitVec.toNat_or, Nat.testBit_or, BitVec.toNat_ofNat, Nat.testBit_mod_two_pow, Nat.testBit_two_pow_of_ne h]
  simp

theorem rbit_setFlag_ne {k k2 : Nat} (i j : Nat) (h : k2 ≠ k) : (s.setFlag k i).rbit k2 j = s.rbit k2 j := by
  rw [State.rbit, State.rdN, rd_setFlag_ne _ _ h, State.rbit, State.rdN]

/-- A fold of changes that each leave something leaves it. -/
theorem each_keeps {α β : Type} (P : State → β) (f : State → α → State) (h : ∀ s a, P (f s a) = P s) (xs : List α) :
    P (s.each xs f) = P s := by
  induction xs generalizing s with
  | nil => rfl
  | cons x xs ih => exact (ih (f s x)).trans (h s x)

@[simp] theorem each_nil {α : Type} (f : State → α → State) : s.each [] f = s := rfl
@[simp] theorem each_cons {α : Type} (f : State → α → State) (x : α) (xs : List α) :
    s.each (x :: xs) f = (f s x).each xs f := rfl

end Sys2Proof.Machine
end

