-- ==== Sys2Proof/Laws/Claims.lean ====
section
/-! SUPPORT. The terms of Safety.lean in forms that a proof or an evaluation can use. -/

namespace Sys2Proof.Machine

/-- A fetch by its answer, with nothing left to find. -/
theorem fetched_iff {s u : State} {b op : Nat} {m w : MemFind} {j : Nat} {v : Job} {c : Nat} : s.fetched b op m w j v c u ↔
    ((s.bayAt b).job = some j ∧ s.jobAt j = some v ∧ v.phase = .running ∧ (s.bayAt b).running = true ∧
    (s.bayAt b).waiting = false ∧ (s.bayAt b).finished = false ∧ 8 * (s.bayAt b).next < (s.bayAt b).cmdBytes) ∧
    (s.fetchPage b v m).2 = u ∧ (s.fetchPage b v m).1.status = 0 ∧
    imgN (s.fetchPage b v m).1.data (8 * (s.bayAt b).next % 4096) 8 = c ∧ cmdOp c = op ∧
    w = if (s.bayAt b).page.any (fun p => p.1 == 8 * (s.bayAt b).next / 4096) then m else m.rest := by
  simp only [State.fetched, Prod.ext_iff, ← exists_and_left]
  grind

/-- With no write to the partner under way, an entry that is due is ready. -/
theorem entryReady_of_no_writes {s : State} {f r : Nat} {bs : List Byte}
    (h : s.entryDue f r = true ∧ bs.length = 64 ∧ (s.ringEntry f bs).bad = false ∧ s.mirrorIdx f r = none ∧
      (s.ringClass f r ≠ 0 ∨ s.ristrettoHeld f < 32) ∧ s.twin.writes = []) : s.entryReady f r bs := by
  obtain ⟨h1, h2, h3, h4, h5, h6⟩ := h
  exact ⟨h1, h2, h3, h4, h5, fun e h => by rw [h6] at h; cases h⟩

end Sys2Proof.Machine
end

