-- ==== Sys2Proof/Laws/Network.lean ====
section
/-! SUPPORT. Pinned images stand through what a request and a message between control cores do. -/

namespace Sys2Proof.Machine

theorem State.wrMax_pins (s : State) (k v : Nat) : (s.wrMax k v).pins = s.pins := by unfold State.wrMax; split <;> rfl
theorem State.srcBump_pins (s : State) (p : NocPacket) (o f : Nat) : (s.srcBump p o f).pins = s.pins := by
  unfold State.srcBump; split <;> rfl
theorem State.bump_pins (s : State) (k n : Nat) : (s.bump k n).pins = s.pins := rfl
theorem State.bump64_pins (s : State) (k n : Nat) : (s.bump64 k n).pins = s.pins := rfl

/-- Counting a response leaves the pinned images. -/
theorem State.countResponse_pins (s : State) (p : NocPacket) (cls status bytes lat : Nat) :
    (s.countResponse p cls status bytes lat).pins = s.pins := by
  unfold State.countResponse
  split
  · rfl
  · dsimp only
    split
    · split <;> simp only [State.wrMax_pins, State.bump_pins, State.bump64_pins, apply_ite State.pins, ite_self]
    · simp only [State.wrMax_pins, State.bump_pins, State.bump64_pins, apply_ite State.pins, ite_self]

/-- Issuing a request leaves them. -/
theorem State.nocIssue_pins (s : State) (set : Nat) (p : NocPacket) (o : NocOwner) (g : Option Nat) :
    (s.nocIssue set p o g).2.pins = s.pins := by
  unfold State.nocIssue
  dsimp only
  split <;> (try simp only [State.bump64_pins]) <;> split <;> simp only [State.srcBump_pins, apply_ite State.pins, ite_self]

/-- A message leaves them. -/
theorem State.messageTrip_pins (s : State) (g h : Agent) : (s.messageTrip g h).2.pins = s.pins := by
  unfold State.messageTrip
  simp only [State.countResponse_pins]
  (repeat' split) <;> simp only [State.bump_pins, State.nocIssue_pins]

end Sys2Proof.Machine
end

