-- ==== Sys2Proof/Tests/Slice0.lean ====
section
/-! SUPPORT. Tests of this model: ill-formed commands are refused, a few results of the rules and of the standards the spec
names, and, for each statement with premises, states and operands that meet the premises of each of its clauses. -/

namespace Sys2Proof.Tests

set_option Elab.async false

open Sys2Proof Sys2Proof.Machine

/-! ### Ill-formed commands: one for each check -/

theorem test_wf_register_write : (Instr.registerWrite (.bar0 0 4) []).wellFormed = false := by decide
theorem test_wf_credit_grant : (Instr.creditGrant 0 14 0 (.drain 0)).wellFormed = false := by decide
theorem test_wf_block_complete : (Instr.blockComplete 0 14 0 (.drain 0) []).wellFormed = false := by decide
theorem test_wf_vec_store : (Instr.vecStore 0 false [] (some (0x7FFFF, [1, 2]))).wellFormed = false := by decide
theorem test_wf_multicast : (Instr.multicastAck 0 1024 (some .clean)).wellFormed = false ∧
    (Instr.multicastRetry 0 1024).wellFormed = false := by decide
theorem test_wf_translation_invalidate : (Instr.translationInvalidate 0 16 0 0).wellFormed = false ∧
    (Instr.translationInvalidate 0 0 1 0).wellFormed = false := by decide
theorem test_wf_tile_port_push : (Instr.tilePortPush 0 0 []).wellFormed = false ∧
    (Instr.tilePortPush 0 0 [⟨0, 0, 0, true, [1]⟩]).wellFormed = false ∧
    (Instr.tilePortPush 0 0 [⟨16, 0, 0, true, []⟩]).wellFormed = false := by decide
theorem test_wf_noc_inject :
    (Instr.nocInject ⟨.router 0, 1, 0, .router 1, 0, 1, 0, 2 ^ 48, 4, 0, []⟩).wellFormed = false ∧
    (Instr.nocInject ⟨.router 0, 1, 0, .router 1, 0, 1, 1, 0, 4, 0, [1]⟩).wellFormed = false := by decide
theorem test_wf_crema_patrol : (Instr.cremaPatrolRead 0 16 []).wellFormed = false := by decide
theorem test_wf_home_edge : (Instr.homeEdgeRequest ⟨.router 0, 1, 0, 1, 1, 0, 0, 4, []⟩).wellFormed = false := by decide
theorem test_wf_lines : (Instr.codewordReceive 0 [[], [], []]).wellFormed = false ∧
    (Instr.codewordReceive 0 [[], [], [], [4]]).wellFormed = false ∧ (Instr.markerCheck 0 [4]).wellFormed = false ∧
    (Instr.checkerLock 0 4 []).wellFormed = false := by decide
theorem test_wf_deskew : (Instr.deskewDone 0 [0, 0, 0]).wellFormed = false ∧
    (Instr.deskewDone 0 [0, 0, 0, 4096]).wellFormed = false := by decide
theorem test_wf_records : (Instr.dbrecFetchDone 0 0 ⟨some [], 0⟩).wellFormed = false ∧ (Instr.cqHeadPoll 0 0 [1]).wellFormed = false ∧
    (Instr.ringEnable 0 true (some [1])).wellFormed = false := by decide
theorem test_wf_entries : ∀ c ∈ [Instr.jobEntry 0 0 [], .configurationEntry 0 0 [], .ringBarrier 0 0 [], .ringNop 0 0 [],
    .pin 0 0 [] .clean, .unpin 0 0 []], c.wellFormed = false := by decide
theorem test_wf_field_fuse : (Instr.fieldFuseWrite (2 ^ 32) true).wellFormed = false := by decide
theorem test_wf_telemetry : (Instr.telemetryRecord ⟨0, 0, 0, 0, [], [], [], [], [], []⟩).wellFormed = false := by decide
theorem test_wf_credentials : ∀ c ∈ [Instr.attest, .extend, .setTime, .installOck, .installUak, .installSignerKeys,
    .transferOwnership, .revokeVendorSlot, .installFirmware, .advanceCounter, .zeroise, .scrap].map (fun i => i (.user [1])),
    c.wellFormed = false := by decide
theorem test_wf_good : (Instr.scrubRead 0 [3199] [31] .clean).wellFormed = true ∧
    (Instr.zeroise .none).wellFormed = true := by decide

/-! ### Commands from a table word: the table gives no row any bits -/

theorem test_no_word_spells_a_command : decodeTableWord 32 0 = none ∧ decodeTableWord 8 255 = none := by decide

/-! ### The published vectors of the standards that the spec names -/

/-- FIPS 197, appendix C.3: AES-256. -/
theorem test_aes256 : beNat (aesEncrypt (aesKeys ((List.range 32).map (BitVec.ofNat 8)))
    (beBytes 16 0x00112233445566778899AABBCCDDEEFF)) = 0x8EA2B7CA516745BFEAFC49904B496089 := by decide +kernel
/-- SP 800-38D, test case 14: one block of zeros under a key of zeros. -/
theorem test_gcm : gcmOpen (List.replicate 32 0) (List.replicate 12 0) []
    (beBytes 16 0xCEA7403D4D606B6E074EC5D3BAF39D18) (beBytes 16 0xD0D1C8A799996BF0265B98B5D48AB919) =
    some (List.replicate 16 0) := by decide +kernel
/-- FIPS 180-4: SHA-512 of "abc". -/
theorem test_sha512 : beNat (sha512 (ascii "abc")) =
    0xDDAF35A193617ABACC417349AE20413112E6FA4E89A97EA20A9EEEE64B55D39A2192992A274FC1A836BA3C23A3FEEBBD454D4423643CE80E2A9AC94FA54CA49F := by
  decide +kernel
/-- The check value of CRC-32: the digits 1 to 9 (R272, R299, R305). -/
theorem test_crc32 : crc32 (ascii "123456789") = 0xCBF43926 := by decide +kernel

/-! ### Numbers, addresses and lines, from the rules' own formulas -/

/-- Half a step goes to the even neighbour, and truncation goes to zero (R66, R110). -/
theorem test_rounding : roundPow .nearestEven 5 (-1) = 2 ∧ roundPow .nearestEven 7 (-1) = 4 ∧
    roundPow .nearestEven (-5) (-1) = -2 ∧ roundPow .towardZero (-5) (-1) = -2 := by decide
/-- The crema slice of bay 2 of die 1 starts one die and two bays above the first (R248). -/
theorem test_crema_address : cremaAddr 66 0x40 = 0x10108000040 := by decide
/-- Bay 63 of die 5 stands at router (15, 15): die 5 is second in both directions (R227). -/
theorem test_router : routerOfBay (5 * 64 + 63) = 15 * 32 + 15 ∧ bayOfRouter (15 * 32 + 15) = 5 * 64 + 63 := by decide
/-- X first, then Y (R232). -/
theorem test_path : pathOf 0 66 false = [0, 1, 2, 34, 66] ∧ pathOf 0 66 true = [0, 32, 64, 65, 66] := by decide
/-- The owner of an offset folds its bits [43:36] (R272). -/
theorem test_owner_edge : ownerEdge 0 = 0 ∧ ownerEdge (2 ^ 36) = 1 ∧ ownerEdge (2 ^ 39) = 2 ∧ ownerEdge (5 * 2 ^ 36) = 0 := by decide
/-- Gray-coded pairs: 00, 01, 11, 10 are levels 0 to 3 (R294). -/
theorem test_gray : levelsOf 8 0b00011110 = [0, 1, 2, 3] := by decide
/-- After 31 symbols at a level one of the opposite level is inserted (R298). -/
theorem test_stuffing : (stuff 0 0 (List.replicate 32 0)).1 = List.replicate 31 0 ++ [3, 0] := by decide
/-- A request that crosses a 256-byte line is malformed, one that ends at it is not (R282). -/
theorem test_malformed : malformed ⟨.router 0, 1, 0, 1, 0, 0, 0xF8, 8, []⟩ = false ∧
    malformed ⟨.router 0, 1, 0, 1, 0, 0, 0xF9, 8, []⟩ = true := by decide
/-- An access of 8 bytes is aligned to 8 (R4). -/
theorem test_sizes : goodSize 8 8 = true ∧ goodSize 4 8 = false ∧ goodSize 4 4 = true ∧ goodSize 2 4 = false ∧
    goodSize 0 2 = false := by decide

/-! ### States and operands for the witnesses -/

/-- A module that has come up and that the host reaches. -/
def tReady : State :=
  ((State.reset.wr (hifReg Reg.HIF_STATUS) 0x80000000).wr (hifReg Reg.HIF_LINK_STATUS) 0x84).wr
    (tstReg Reg.TST_BOOT_PHASE) 5
/-- The same with the fabric of compute die 1 not answering. -/
def tDead : State := { tReady with plan := { Plan.init with unreach := [1] } }
/-- The module after reset with pins as given. -/
def tPins (p : Pins) : State := { State.reset with board := p }
def tHeld : State := { tReady with board := { Pins.init with perst := true, held := true } }
def tNoRef : State := { tReady with board := { Pins.init with fabricRef := false } }
/-- A module in bring-up, phases up to p ended. -/
def tBring (p : Nat) : State := State.reset.wr (tstReg Reg.TST_BOOT_PHASE) (BitVec.ofNat 32 p)
def tPhase : PhaseFind := ⟨5000, 0, [], [], [], [], [], [], false, [], [], [], [], []⟩
def tLate : PhaseFind := ⟨45000, 0, [], [], [], [], [], [], true, [], [], [], [], []⟩
/-- A final plan with a unit whose count has reached 3, and n entries in the field bank. -/
def tFuse (n : Nat) : State := { tReady.wr (regKey .fpl Reg.FPL_STATUS) 0x80000000 with
  nv := { Stored.init with counts := [(unitEntry 2 5, 3)], field := List.replicate n 0 } }
def tTest : State := { tReady with test := some ⟨2, true, 0⟩ }
/-- A swap under way in which the domains ds have switched. -/
def tSwap (ds : List Nat) : State := { tReady with swap := some ds }
/-- The shadow set checked. -/
def tChecked : State := tReady.wr (ctlReg Reg.CTL_CHECK) 0x80000000
/-- The inbox of endpoint e full. -/
def tFull (e : Nat) : State := tReady.wr (mbxReg e Reg.MBX_STATUS) 1
/-- Compute die d configured and released. -/
def tDie (d : Nat) : State := tReady.wr (cfgReg d Reg.CFG_STATUS) 0x03000000
/-- Channel c in state st, the tier open. -/
def tChan (c st : Nat) : State :=
  ((tReady.wr (drcCh c Reg.DRC_CH_STATE) (BitVec.ofNat 32 (st * 2 ^ 28))).wr (drcReg 0 Reg.DRC_STATUS) 0x80000000)
/-- Its pattern helper runs in compare mode, or in write mode. -/
def tPattern (write : Bool) : State := (tChan 3 3).wr (drcCh 3 Reg.DRC_TRAIN_PAT) (if write then 0x90000000 else 0xA0000000)
/-- A column with what is given, and die d released with it at row region rr. -/
def tCol : ColumnCfg := ⟨[], [], [], none, [], [], [], []⟩
def tDieCol (d rr col : Nat) (c : ColumnCfg) : State :=
  (tDie d).setCfg d { DieCfg.init with cols := [(rr * 1024 + col, c)] }
/-- A column whose tap on every line is in mode 2, its output-enable on line 15 at 1. -/
def tTap (col : Nat) : ColumnCfg :=
  { tCol with taps := List.replicate 16 2, muxes := [(⟨.tapEnable, tileOf 15 col, col, 15⟩, ⟨.const, tileOf 15 col, 0, 1⟩)] }
def tTwoTaps : State :=
  (tDie 15).setCfg 15 { DieCfg.init with cols := [(15 * 1024, tTap 0), (15 * 1024 + 1, tTap 1)] }
/-- The last block memory of die 15, of 512 × 72 shape with ECC on. -/
def tBramCfg : BramCfg := ⟨⟨6, 0, 0⟩, ⟨6, 0, 0⟩, true⟩
def tBram : State := tDieCol 15 15 815 { tCol with memories := List.replicate 8 tBramCfg }
/-- Die 15 with PLL 7 on the oscillator and global 15 between two inputs. -/
def tPll : PllCfg := ⟨.osc, 1000000, [1, 2, 4, 8]⟩
def tClocks (x y : ClockInput) : State := { tDie 15 with clocks := [(15, ⟨[(7, tPll)], [(15, x, y)]⟩)] }
def tLocks (x y : ClockInput) : State := (tClocks x y).wr (lgaReg 15 Reg.LGA_STATUS) 0x80
/-- Port 3 of bay 0 on a released die whose logic and clock run, in the state v. -/
def tPort (v : TilePort) : State :=
  { tDieCol 0 1 817 { tCol with port := some ⟨0, 0⟩ } with clocks := [(0, ⟨[], [(0, .pair, .pair)]⟩)] }.setPort 0 3 v
def tOpen : TilePort := { TilePort.init with isOpen := true }
def tRec : InRecord := ⟨1, 2, 0, true, [1, 2, 3, 4]⟩
def tPop : TilePort := { tOpen with blocks := [⟨0, .drain 3, 0, true⟩], inQ := [tRec] }
/-- A port of 512 bits with one record. -/
def tPop4 : State :=
  { tDieCol 0 1 817 { tCol with port := some ⟨2, 0⟩ } with clocks := [(0, ⟨[], [(0, .pair, .pair)]⟩)] }.setPort 0 3 tPop
/-- Sources of heat as given. -/
def tHeat (src : Nat) (h : Heat) : State := tReady.setHeat src h
def tMeasured : Measured := ⟨480, 4800, 100, 90, List.replicate 16 0, List.replicate 16 0, List.replicate 16 0,
  List.replicate 16 0, List.replicate 4 0, List.replicate 16 0⟩
def tPush : PortPush := ⟨9, 0x3FFFC, 0, false, [1, 2, 3, 4]⟩
def tPushed : State := tPort { tOpen with outQ := [⟨9, 0x3FFFC, 0, false, [1, 2, 3, 4]⟩] }
def tMem : State := (tChan 0 5).writeBytes 0x10000000000 (List.replicate 64 7)
/-- Partition p of the active set, bound to function f, with the quarters of mask m, root table and checkpoint area. -/
def tPart (s : State) (p f m root ckpt : Nat) : State :=
  let k := setKey s.activeSet (0x200 + 32 * p)
  (((s.wr64 k m).wr (k + 8) (BitVec.ofNat 32 (2 ^ 31 + f))).wr64 (k + 0x10) root).wr64 (k + 0x18) ckpt
/-- A shadow set in which two partitions hold quarter 0. -/
def tBadSet : State := ((tReady.wr (setKey 1 0x200) 1).wr (setKey 1 0x208) 0x80000000).wr (setKey 1 0x220) 1 |>.wr
  (setKey 1 0x228) 0x80000001
def tMost : List Nat := List.range 20
/-- A pass descriptor: two 8-bit moving vectors at 0, entries 510 and 511, operand at 0x20000, drained to vector memory. -/
def tWords : List Word :=
  [0x3040201, 0, 1, 1, 0x80000, 0x7FA0000, 32, 0, 0, 0, 0, 0, 0, 0, 0, 0, 0, 0, 0, 0, 0x12, 0, 128, 0]
def tDesc : PassDesc := passDesc tWords
def tTile (m : Mtx) : State := tReady.setMtx 8191 m
def tHanded : Mtx := { Mtx.init with handed := [⟨7, 1, 0, tWords⟩] }
/-- Its pass under way, with vectors fed and landed as given. -/
def tPass (fed landed : List Nat) (fs : List InFlight) : Pass :=
  ⟨7, 1, 0, tDesc, true, fed, landed, fs, [0, 0, 0, 0], 0, false, false⟩
def tFed : InFlight := ⟨0, 0, [3], 0, 0, 0, false⟩
def tMtx (p : Pass) : Mtx :=
  { Mtx.init with buf := [(0, 3)], blocks := [(0, .valid), (32, .valid)], cells := [(0, 5)], staValid := true, cur := some p }
def tRunning (fed landed : List Nat) (fs : List InFlight) : State := tTile (tMtx (tPass fed landed fs))
/-- A drain that has read `next` entries and offers the records rs. -/
def tDrain (next : Nat) (rs : List OutRecord) : Drain := ⟨7, 1, tDesc, next, rs, 0, none⟩
def tOut : OutRecord := ⟨0, [some 1, some 2, some 3, some 4]⟩
def tDrains (next : Nat) (rs : List OutRecord) : State := tTile { Mtx.init with drains := [tDrain next rs] }
/-- The same with block 0 of the bay's vector data memory in the drain's hands. -/
def tTaking (next : Nat) (rs : List OutRecord) : State :=
  (tDrains next rs).setVec 1023 { Vec.init with blocks := [(0, .filling (.drain 8191))] }
def tTaken (next : Nat) (rs : List OutRecord) : State :=
  (tTaking next rs).setVec 1023
    { Vec.init with blocks := [(0, .filling (.drain 8191))], dmem := [(0, 1), (1, 2), (2, 3), (3, 4)] }
/-- A drain and a send that ask for blocks. -/
def tAsk (dst : Nat) : State :=
  (tTile { Mtx.init with drains := [{ tDrain 1 [tOut] with desc := { tDesc with dst := dst } }] }).setVec 1023
    { Vec.init with blocks := [(0, .free)] }
/-- A running fetch of channel 15 of bay 1023 that writes vector data memory. -/
def tFetchDesc : StreamDesc :=
  { StreamDesc.zero with
    ver := 3, ndim := 1, srcFmt := 2, dstFmt := 15, peer := 1, ceiling := 1, rowBytes := 128, bayStride := 128, counts := [32], strides := [4] }
def tFetch (ch : Chan) : State :=
  (tReady.setChan 1023 15 ch).setVec 1023 { Vec.init with blocks := [(0, .free)] }
def tRunChan : Chan := { Chan.init with state := .running, desc := tFetchDesc }
def tFloorChan : Chan := { tRunChan with desc := { tFetchDesc with floor := 1 } }
def tDoneChan : Chan := { tRunChan with accepted := 1, credits := [0], held := [0] }
def tDone : State := (tFetch tDoneChan).setVec 1023 { Vec.init with blocks := [(0, .filling (.stream 1023 15))] }
/-- Job 5, running on bay 1023. -/
def tEntry : Entry := ⟨0, 0, 0, 0x55, false, 0, 0, false, none, 0⟩
def tHdr : JobHeader := ⟨3, 1, 4096, 0, 0, 64, 0, 0, 0, 0, 0⟩
def tJob (ph : JobPhase) : Job := ⟨ph, tEntry, 1, 0, 0x10000, none, false, tHdr, [63], 0, 0, 0, 0, 0, 0, 0, 0, [], [], [], [],
  true, false, false, false, [], [], [], [], [], [], [], false⟩
def tBay : BaySeq :=
  { BaySeq.init with
    job := some 5, logical := 15, tiles := 255, vector := true, cmdOff := 512, cmdBytes := 64, running := true }
def tJobs : State := { tReady.setJob 5 (tJob .running) with bays := [(1023, tBay)] }
/-- A packet: compute operation, its 17 operand bits, X and Y slots, control operation and argument. -/
def tPk (op wide x y ctl arg : Nat) : BitVec 64 :=
  BitVec.ofNat 64 (op * 2 ^ 57 + wide * 2 ^ 40 + x * 2 ^ 27 + y * 2 ^ 14 + ctl * 2 ^ 10 + arg)
/-- A vector tile about to run packet p. -/
def tTileVec (p : BitVec 64) : Vec :=
  { Vec.init with
    state := .running, packets := 4, imem := [(0, p)], dmem := [(0, 3), (1, 1)], d := [(0, 7), (2, 9)], blocks := [(127, .valid)] }
def tVec (p : BitVec 64) : State := tReady.setVec 1023 (tTileVec p)
/-- The job's vector tile inside a packet. -/
def tMid : State := tJobs.setVec 1023 { tTileVec (tPk 0 0 0 0 0 0) with ran := [.compute] }
def tVecOf (v : Vec) : State := tReady.setVec 1023 v
def tPreset : BitVec 128 := BitVec.ofNat 128 (0x3FF80 * 2 ^ 64 + 32 * 2 ^ 32 + 0x190)
/-- Send preset 15: one row of 32 words from row 0 of vector memory to operand buffer 9. -/
def tSending (p : BitVec 64) (n : Nat) : Vec :=
  { tTileVec p with
    sendPresets := [(15, tPreset)], sends := List.replicate n ⟨15, 0, 1⟩ }
/-- The tile sends the row, with block 63 of buffer 9 in its hands. -/
def tSends : State :=
  (tVecOf (tSending (tPk 0 0 0 0 7 0) 1)).setMtx 8191 { Mtx.init with blocks := [(63, .filling (.send 1023))] }
def tSent : State :=
  tSends.setMtx 8191 { Mtx.init with blocks := [(63, .filling (.send 1023))], buf := [(0x3FF80, 3), (0x3FF81, 1)] }
def tRow : QueuedSend := ⟨15, 0, 1⟩
/-- The tile with slots that have acted. -/
def tRan (p : BitVec 64) (l : List Slot) : State := tVecOf { tTileVec p with ran := l }
def tEvt : State := { tVec (tPk 0 0 0 0 10 0) with jobs := [(5, tJob .running)], bays := [(1023, tBay)] }
/-- The same with two rows to send. -/
def tSending2 : Vec := { tSending (tPk 0 0 0 0 7 0) 1 with sendPresets := [(15, tPreset + 0x100)] }
def tSends2 : State :=
  (tVecOf tSending2).setMtx 8191 { Mtx.init with blocks := [(63, .filling (.send 1023))] }
def tSent2 : State :=
  tSends2.setMtx 8191 { Mtx.init with blocks := [(63, .filling (.send 1023))], buf := [(0x3FF80, 3), (0x3FF81, 1)] }
/-- A job whose pinned image is the bytes given, on bay 1023, which has layer 1 open. -/
def tPinJob : Job := { tJob .running with handle := some 0 }
def tImageBay : BaySeq := { tBay with cmdOff := 0, layer := 1, layerOpen := true }
def tImage (cmd : Nat) (rest : List Byte) : State :=
  { tReady.setJob 5 tPinJob with
    bays := [(1023, tImageBay)], pins := [(0, ⟨natBytes 8 cmd ++ List.replicate 24 0 ++ rest, tHdr, none⟩)] }
def tFind : MemFind := ⟨[], 0, none, 0⟩
/-- A v3 fetch of 32 words at job address 0x20000 into vector memory. -/
def tDescBytes (floor : Nat) : List Byte :=
  natBytes 96 (0x3080001 + 0x2F000000 * 2 ^ 32 + (floor * 2 ^ 24 + 0x20000) * 2 ^ 64 + 0x10080000 * 2 ^ 96 + 128 * 2 ^ 160 +
    0x20000 * 2 ^ 192 + (32 * 2 ^ 44 + 4) * 2 ^ 384)
def tStreamCmd : Nat := 2 * 2 ^ 56 + 15 * 2 ^ 52 + 32
def tStreamJob (floor : Nat) : State := tImage tStreamCmd (tDescBytes floor)
def tStreamD (floor : Nat) : StreamDesc := streamDescV3 (bytesNat (tDescBytes floor))
def tChannel (ch : Chan) : State := (tStreamJob 2).setChan 1023 15 ch
def tWaiting (ahead : Bool) : State :=
  tChannel { Chan.init with state := .waitBarrier, desc := { tStreamD 2 with floor := 64, ceiling := 64, weightAhead := ahead } }
def tPaused : State := tChannel { Chan.init with state := .paused, desc := tStreamD 2, cause := 3 }
def tRunD (ch : Chan) : State := (tPart (tChannel ch) 0 0 (2 ^ 63) 0x10000000000 0)
def tLive : Chan := { Chan.init with state := .running, desc := tStreamD 2 }
def tReq (id : Nat) (wr : Bool) (tg : Option Target) (d : Option (List Byte)) : Req := ⟨id, wr, 0x20000, 128, 0, 31, d, tg, 0, none, none, false⟩
/-- A read-write leaf of a 64 KiB page at device address 0x10000000000. -/
def tLeaf : Nat := 2 ^ 63 + 2 ^ 62 + 2 ^ 61 + 2 ^ 60 + 0x10000000
/-- Memory with a table entry e at 0x10000001000. -/
def tWalking (level e : Nat) : State :=
  (tRunD { tLive with walk := some ⟨tReq 0 false none none, level, 0x10000001000, none, none⟩, todo := [tReq 0 false none none] }).writeBytes
    0x10000001000 (natBytes 8 e)
def tCached : State :=
  let s := tRunD { tLive with todo := [tReq 0 false none none] }
  s.setBay 1023 { s.bayAt 1023 with tlb := [⟨0, 3, 2, BitVec.ofNat 64 tLeaf⟩] }
def tReading : State := tRunD { tLive with outstanding := [tReq 7 false (some (.device 0x10000000000)) none] }
def tWriting : State :=
  tRunD { tLive with
    desc := { tStreamD 2 with kind := 1 },
    outstanding := [tReq 7 true (some (.device 0x10000000000)) (some (List.replicate 128 9))] }
def tBytes : List Byte := List.replicate 4 6
def tRowChan : Chan := { tLive with rows := [⟨0, tBytes⟩], credits := [0], held := [0], converted := 1 }
def tRowState : State := (tChannel tRowChan).setVec 1023 { Vec.init with blocks := [(0, .filling (.stream 1023 15))] }
def tRowDone : State := (tChannel tRowChan).setVec 1023
  { Vec.init with blocks := [(0, .filling (.stream 1023 15))], dmem := [(0, 6), (1, 6), (2, 6), (3, 6)] }
def tArrival : State := tChannel { tLive with
    desc := { tStreamD 2 with kind := 1 }, stages := [⟨0, .send 1023, [], false⟩], arrivals := [.record (.send 1023) tBytes false] }
/-- What the memory accesses of these states answer. -/
def tReadAns (s : State) (a n : Nat) : MemAns × State := s.memRead (homeOfBay 1023) a n tFind
def tWriteAns : MemAns × State := tWriting.memWrite (homeOfBay 1023) 0x10000000000 (List.replicate 128 9) tFind
def tEntryAns (level e : Nat) : MemAns × State := tReadAns (tWalking level e) 0x10000001000 8
def tCmd (op arg off : Nat) : Nat := op * 2 ^ 56 + arg * 2 ^ 32 + off
def tPassJob : State := tImage (tCmd 1 0 32 + 7 * 2 ^ 52) (tWords.flatMap (fun w => natBytes 4 w.toNat))
def tPassAns : MemAns × State := (tPassJob.fetchPage 1023 tPinJob tFind).2.imgRead (seqAgent 1023) tPinJob 32 96 tFind
/-- A vector section of one packet. -/
def tSection : State := tImage (tCmd 3 0 32) (natBytes 8 1 ++ natBytes 8 (11 * 2 ^ 10))
def tSectionBusy : State := tSection.setVec 1023 { Vec.init with state := .running }
def tSection0 : State := tImage (tCmd 3 0 32) (natBytes 8 0)
def tOp (op arg : Nat) : State := tImage (tCmd op arg 0) []
def tBusyVec (op : Nat) : State := (tOp op 0).setVec 1023 { Vec.init with state := .running }
def tBarrierHdr : JobHeader := { tHdr with barriers := 1024, barrierOff := 32, barrierLimit := 5, timeLimit := 1 }
def tBarJob (arr rel : List (Nat × Nat)) : Job :=
  { tPinJob with hdr := tBarrierHdr, arrivals := arr, released := rel, loads := [⟨15, 0, 3, 0, true⟩, ⟨14, 0, 2, 0, true⟩] }
/-- Bay 1023, logical bay 15, at barrier 0 of n bays. -/
def tBarrier (n : Nat) (arr rel : List (Nat × Nat)) : State :=
  let s := tImage 0 (natBytes 4 n)
  { s with jobs := [(5, tBarJob arr rel)], bays := [(1023, { tImageBay with waiting := true, barrier := some 0 })] }
def tBarWord : MemAns := ⟨0, 32, [2, 0, 0, 0]⟩
def tBarCmd (k : Nat) : State :=
  let s := tImage (tCmd 6 k 0) []
  { s with jobs := [(5, tBarJob [] [])] }
/-- The smallest job image: a header, the SHA-512 of what follows it, and an empty bay table and plan. -/
def tImgBytes : List Byte :=
  natBytes 4 0x03102000 ++ natBytes 4 392 ++ natBytes 8 0 ++ natBytes 4 128 ++ natBytes 4 384 ++ natBytes 40 0 ++
  natBytes 64 7186428088655464755061822817944627971805762983920790944055125360055941513070376706476949038501896763381600386205251147541245430028080258218749377057651315 ++
  natBytes 264 0
def tQJob (ph : JobPhase) (h : Option Nat) : Job := { tJob ph with handle := h, image := 0x10000000000, placed := [], hdr := jobHeader tImgBytes }
/-- Job 5 in the queue of partition 0, whose one quarter is 63. -/
def tQueued (v : Job) : State :=
  { (tPart tReady 0 0 (2 ^ 63) 0 0x10000000000).setJob 5 v with
    queues := [(1, [5])], pins := [(0, ⟨tImgBytes, jobHeader tImgBytes, none⟩)] }
def tStored (v : Job) : State := (tQueued v).writeBytes 0x10000000000 tImgBytes
def tChecked4 : Nat × Nat × List Byte × State :=
  (tStored (tQJob .queued none)).checkImage ((tStored (tQJob .queued none)).leadAgent (tQJob .queued none)) (tQJob .queued none).image
    tFind
/-- The same with bay 1023 in the hands of another job. -/
def tBusy : State := { tQueued (tQJob .waiting (some 0)) with bays := [(1023, { tBay with job := some 4 })] }
def tEntries (s : State) : MemAns × List BayEntry × State := s.bayEntries (tQJob .waiting (some 0)) tFind
def tFree : State := tQueued (tQJob .waiting (some 0))
def tLists : MemAns × List (List Byte) × State := tFree.cmdLists (tQJob .waiting (some 0)) (tEntries tFree).2.1
/-- Bay 1023 as given, its job 5 as given. -/
def tBayJob (v : Job) (x : BaySeq) : State := { tPart tReady 0 0 (2 ^ 63) 0 0x10000000000 with jobs := [(5, v)], bays := [(1023, x)] }
def tEnding (n : Nat) : State := tBayJob { tJob .running with ended := List.range n } { tBay with finished := true }
def tStopping : State := tBayJob (tJob .preempting) { tBay with logical := 0 }
def tInval : Invalidation := ⟨0, 0, 0xFFFF, [(15, 8)]⟩
def tInvalid : State := tReading.setBay 1023 { tImageBay with invalidations := [tInval] }
def tZeroing : State :=
  ((tReady.setBits (regKey (.seq 15) Reg.SEQ_RESET_STATE) 8).writeBytes (cremaAddr 1023 0x2FFFFFF) [5]).setVec 1023
    { Vec.init with dmem := [(0, 3)] }
def tResets (on : Bool) : State :=
  if on then (tPart tReady 15 32 (2 ^ 63) 0 0).wr (regKey .ctl Reg.CTL_PART_RESETTING) 0x8000
  else tPart tReady 15 32 (2 ^ 63) 0 0
/-- An owner whose stored keys match its fuses, and the key-wrap example of RFC 3394 section 4.6. -/
def tOwner : SecStore :=
  { SecStore.init with
    owners := [⟨sha512 [1, 2, 3], 0, false⟩], signers := [(16, [1, 2, 3])],
    ock := some ((List.range 32).map (BitVec.ofNat 8)) }
def tWrapped : List Byte :=
  (natBytes 40 0x28C9F404C4B810F4CBCCB35CFB87F8263F5786E2D80ED326CBC7F0E71A99F43BFB988B9B7A02DD21).reverse
def tUnwrapped : List Byte :=
  (natBytes 32 0x00112233445566778899AABBCCDDEEFF000102030405060708090A0B0C0D0E0F).reverse
/-- The sync word and header of a static stream of one segment for die 15, its first word as given. -/
def tHeader (sync : Nat) : List Byte :=
  natBytes 4 sync ++ natBytes 4 0x10036A16 ++ natBytes 4 0x18000000 ++ natBytes 4 0x8000 ++ natBytes 4 1 ++ natBytes 8 0 ++
  natBytes 4 3664 ++ natBytes 4 0x10100000 ++ natBytes 8 0 ++ tWrapped
def tLoadReq : CfgLoad := ⟨tEntry, 0x10000000000, 3664, 0, false, [], false, 0, 0, [], 0, 0, 0, [], [], 0⟩
def tHeaderState (sync : Nat) : State :=
  let s := (tReady.wr (secReg Reg.SEC_STATUS) 0x10000000).writeBytes 0x10000000000 (tHeader sync)
  { s with loads := [(3, tLoadReq)], nv := { Stored.init with sec := tOwner } }
def tHeaderAns (sync : Nat) : MemAns × State := (tHeaderState sync).readLong ryhalAgent 0x10000000000 260 tFind
/-- An accepted load of die 15, and its place in the stream. -/
def tAccepted : CfgLoad :=
  { tLoadReq with accepted := true, dies := [15], segments := 1, imageId := List.replicate 8 0, slot := 16 }
def tDieLoad (st : LoadStage) (text : List Byte) : DieLoad :=
  ⟨3, st, 0, 260, [], 16, List.replicate 32 0, [], [], text, none, [], [], []⟩
def tLoading (x : DieLoad) (v : CfgLoad) : State :=
  { tReady with loads := [(3, v)], cfgs := [(15, { DieCfg.init with load := some x })] }
def tStream (st : LoadStage) (off : Nat) (bs : List Byte) : State :=
  (tLoading (tDieLoad st []) tAccepted).writeBytes (0x10000000000 + off) bs
def tStreamAns (st : LoadStage) (off : Nat) (bs : List Byte) (at_ n : Nat) : MemAns × State :=
  (tStream st off bs).readLong ((tStream st off bs).cfgAgent 15) (0x10000000000 + at_) n tFind
def tSegWords : List Byte := natBytes 4 0x50000000 ++ natBytes 4 16
/-- A segment of one block under the key of zeros that ends in END, and its tag. -/
def tSealed (tag : Nat) : List Byte := natBytes 16 139059845595932997669192356622256613326 ++ natBytes 16 tag
def tGoodTag : Nat := 184181694336024327080343017938029371654
def tPlain : List Byte := List.replicate 15 0 ++ [0x70]
def tText (words : List Nat) : DieLoad := tDieLoad .text (words.flatMap (natBytes 4))
def tTexts (words : List Nat) : State := tLoading (tText words) tAccepted
/-- The last frame of a die with user I/O. -/
def tFrame : Nat := 15 * 2 ^ 24 + 841 * 2 ^ 14 + 15 * 2 ^ 7
def tFdata : DieLoad := { tDieLoad .text (natBytes 4 0x40000001 ++ List.replicate 400 5) with faddr := some tFrame }
def tPartial : CfgLoad := { tAccepted with isPartial := true, region := 63 }
def tTwo : CfgLoad := { tAccepted with segments := 2 }
def tEnded : DieLoad := tDieLoad .ended []
def tQueueLoad : DieLoad := { tDieLoad .text [] with queue := [(tFrame, [1, 2])] }
def tQueueEnd : DieLoad := { tText [0x70000000] with queue := [(tFrame, [1, 2])] }
def tScrub (f : Nat) (fix : Option (Nat × List Nat × Bool)) : State :=
  (tDie 15).setCfg 15 { DieCfg.init with scrub := f, fix := fix }
/-- An essential upset in frame 0, whose tile is of no region or of region 0, which does not run. -/
def tEssential (map : Table Nat) : State :=
  (tDie 15).setCfg 15 { DieCfg.init with fix := some (0, [99], true), tileMap := map }
def tSigState : State :=
  (tLoading { tEnded with pos := 284 } tAccepted).writeBytes 0x1000000011C (natBytes 4 0x80000000)
def tSigAns : MemAns × State := tSigState.readLong (tSigState.cfgAgent 15) 0x1000000011C 3380 tFind
/-- A request of router 5's endpoint 1, or of endpoint 13 there, to an endpoint of router 0. -/
def tPkt (dstEp : Fin 32) (cls : Fin 4) (ty : Fin 16) (addr n : Nat) (op : Fin 16) (bs : List Byte) : NocPacket :=
  ⟨.router 5, 1, 9, .router 0, dstEp, cls, ty, addr, n, op, bs⟩
def tCopy : NocPacket := tPkt 1 1 4 0 16 0 (natBytes 4 0x10000 ++ natBytes 8 3 ++ natBytes 4 0)
def tReqOf (p : NocPacket) (ans : Option (Nat × List Byte)) (gone : Bool) : NocReq :=
  ⟨p, .bare, none, false, 1, 0, false, false, ans, 0, if p.type.val = 4 then [0, 1] else [], gone⟩
/-- It is outstanding under number 4. -/
def tNoc (v : NocReq) : State := { tReady with noc := [(4, v)], nextNoc := 5 }
def tRis : State := { tReady with noc := (List.range 32).map (fun i => (i, { tReqOf (tPkt 0 0 0 0 4 0 []) none false with cls := 0 })), nextNoc := 32 }
/-- A valid reservation of set 0 for the requests of router 5's endpoint 1 to any place. -/
def tReserve (s : State) : State :=
  (s.wr (setKey 0 0x10000) (BitVec.ofNat 32 (5 * 2 ^ 26 + 2 ^ 15 + 2 ^ 14))).wr (setKey 0 0x10004) 0xFFFFF
def tRisP : NocPacket := { tPkt 0 0 0 0 4 0 [] with tag := 10 }
def tIso (v : NocReq) : State := (tNoc v).setFlag (nocReg 0 Reg.NOC_ISOLATED) v.pkt.dstEp
def tRd : NocReq := tReqOf (tPkt 0 1 0 0x40 4 0 []) none false
def tWrt : NocReq := tReqOf (tPkt 0 1 1 0x40 4 0 [1, 2, 3, 4]) none false
def tAtm : NocReq := tReqOf (tPkt 0 1 2 0x40 4 0 [1, 0, 0, 0]) none false
def tMsg : NocReq := tReqOf (tPkt 13 1 3 0 4 0 [1, 0, 0, 0]) none false
def tDmR : NocReq := tReqOf (tPkt 3 1 0 0x80010 4 0 []) none false
def tDmW : NocReq := tReqOf (tPkt 3 1 1 0x80010 4 0 [1, 2, 3, 4]) none false
def tCop (g : Bool) : NocReq := tReqOf tCopy none g
def tHome5 : Nat := homeEdge (NocPlace.router 5)
def tAddr0 : Nat := cremaAddr (bayOfRouter 0) 0x40
/-- A global request of router 5's endpoint 1. -/
def tGlob (ga : Nat) (n : Nat) : GlobalRequest := ⟨.router 5, 1, 9, 1, 0, 0, BitVec.ofNat 64 ga, n, []⟩
/-- The fabric is open to module 0x101, and module 0x102 lies behind port 4, which is up. -/
def tOpenSet : State :=
  let s := (tReady.wr (setKey 0 0) 0x80000101).wr (setKey 0 0x1004) 0x8400
  s.wrFld (lnkPort 4 Reg.LNK_P_STATE) 31 28 5
def tAt2 : Nat := 0x102 * 2 ^ 44 + 0x1000
def tFull4096 : State := { tOpenSet with home := (List.range 4096).map (fun i => (i, .req (tGlob tAt2 4) 0 true none)), nextHome := 4096 }
def tFab (dest : Nat) (resp : Bool) : FabricPacket :=
  ⟨dest * 2 ^ 44 + 0x1000, 0x103, 5, 0, 1, 9, 0, 1, resp, false, 3, 4, 0, 0, if resp then [1, 2, 3, 4] else []⟩
/-- A packet has arrived at port 2. -/
def tArrived (x : FabricPacket) : State := tOpenSet.setLink 2 { LinkPort.init with arrived := [x] }
def tHeldBack (x : FabricPacket) : State := tOpenSet.setLink 2 { LinkPort.init with kept := [x] }
def tKept (ga : Nat) (s : State) : State := { s with home := [(6, .req (tGlob ga 4) 0 true none)], nextHome := 7 }
def tHomeReq : GlobalRequest := tGlob tAt2 4
def tRespArr : State :=
  let x : FabricPacket := { tFab 0x101 true with srcModule := 0x102, srcX := rx 5, srcY := ry 5 }
  tKept tAt2 (tArrived x)
def tRespX : FabricPacket := { tFab 0x101 true with srcModule := 0x102, srcX := rx 5, srcY := ry 5 }
/-- A window of 2 MiB at offset 0, active, whose low 96 bits are staged. -/
def tWinLow : Nat := 2 ^ 60 + 2 ^ 58
def tWinIdx : Nat := bucketOf (winKey 0 0) * 8
def tStaged (low : Nat) : State := { tReady with staged := [(tWinIdx, low)] }
def tTracked : State := { tReady with trackers := [(67, 101)], windows := [(2 ^ 19 + 100, 2 * 2 ^ 60)] }
/-- Port 4, enabled and cabled, in state st. -/
def tLink (st : Nat) : State :=
  (tReady.wr (lnkPort 4 Reg.LNK_P_CTRL) 1).wr (lnkPort 4 Reg.LNK_P_STATE) (BitVec.ofNat 32 (st * 2 ^ 28 + 2 ^ 21))
/-- Its lane 16 locked. -/
def tLocked (st : Nat) : State := (tLink st).wr (lnkLane 16 Reg.LNK_L_STATE) 0x80000000
def tOther (l : LinkPort) : State := (tLink 5).setLink 4 l
def tAgain : Sent := ⟨7, 0, 0, [], [], []⟩
/-- A capability record with ack clear, of port 3 of module 5, and one whose check fails. -/
def tRecord : BitVec 128 :=
  let hi := 2 ^ 92 + 2 ^ 84 + 2 * 2 ^ 82 + 3 * 2 ^ 78 + 5 * 2 ^ 58 + 2 ^ 55
  BitVec.ofNat 128 (hi * 2 ^ 32 + (crc32 (natBytes 12 hi)).toNat)
/-- The same with ack set. -/
def tRecordAck : BitVec 128 :=
  let hi := 2 ^ 92 + 2 ^ 84 + 2 * 2 ^ 82 + 3 * 2 ^ 78 + 5 * 2 ^ 58 + 2 ^ 55 + 2 ^ 54
  BitVec.ofNat 128 (hi * 2 ^ 32 + (crc32 (natBytes 12 hi)).toNat)
/-- The reference clock is there. -/
def tRef (s : State) : State := s.setBits (lnkReg 1 Reg.LNK_STATUS) 4096
/-- A port in training whose lanes have each seen eight good records with ack. -/
def tTraining : State :=
  [(0, 0), (1, 0), (2, 1), (3, 3)].foldl (fun s i => s.mapLane (16 + i.1) (fun x => { x with
    good := 8, acks := 8, recPort := 3, recLane := i.2 })) (tLocked 3)
def tTrained (r : BitVec 128) : State := tTraining.mapLane 16 (fun y => { y with
  good := y.good + 1, acks := y.acks + 1, recPort := bitsOf r.toNat 113 110, recLane := bitsOf r.toNat 115 114 })
/-- A port in deskew whose lanes have aligned at the same place. -/
def tAligned : State := (List.range 4).foldl (fun s i => s.wr (lnkLane (16 + i) Reg.LNK_L_STATE) 0xC0000000) (tLink 4)
/-- Lane 16 stands where it expects a marker. -/
def tExpects (s : State) : State := s.mapLane 16 (fun x => { x with rxAt := 2048, rxStuffed := 5376 })
def tTest7 : State := ((tLink 7).setBits (lnkPort 4 Reg.LNK_P_CTRL) 4).wr (lnkLane 16 Reg.LNK_L_PAT) 0x10000000
def tPatterns : State :=
  (List.range 4).foldl (fun s i => s.wr (lnkLane (16 + i) Reg.LNK_L_PAT) 0xD0000000) ((tLink 7).setBits (lnkPort 4 Reg.LNK_P_CTRL) 4)
/-- The symbols of a codeword of a port after reset: a message of empty slots. -/
def tSymbols (seq : Nat) (idle : Bool) : List Nat :=
  let slots := List.replicate 608 (0 : Byte)
  (chunks 10 514 (scramble 0 (messageBits seq 0 slots (linkSlot seq 0 slots (List.replicate 16 1) none 0 0 idle))).1).map ofBits
def tCw (good : Bool) (xs : List Nat) : CodewordFind := ⟨good, xs, [0, 0, 0, 0], [0, 0, 0, 0]⟩
def tRetries (limit : Word) : State := (tOther { LinkPort.init with replay := [tAgain] }).wr (lnkPort 4 Reg.LNK_P_RETRY_LIMIT) limit
def tQuiet : State := (tLink 5).wr (lnkPort 4 Reg.LNK_P_IDLE_TIMER) 100
/-- Function 0 with MSI-X on, version 3, completion ring 2 and submission ring 3 of 64 entries enabled. -/
def tRings : State :=
  let s := (tReady.setFn 0 { FnState.init with msixOn := true }).wr (pageReg 0 Reg.HIF_VERSION_SEL) 3
  let s := (s.wr (ringKey 0 true 2 8) 0x06000005).wr (ringKey 0 false 3 8) 0x06402000
  (((s.setRing 0 true 2 1 0).setRing 0 false 3 1 0).setCq 0 2 CplRing.init).setSq 0 3 SubRing.init
/-- Function 1 in D3hot. -/
def tSleeps : State := tReady.setFn 1 { FnState.init with d3hot := true }
/-- An entry of op and word fields waits in ring 3. -/
def tDue : State := tRings.setSq 0 3 { SubRing.init with tail := 1 }
def tPdue : State := (tPart tReady 0 0 (2 ^ 63) 0 0x10000000000) |> fun s =>
  let s := (s.setFn 0 { FnState.init with msixOn := true }).wr (pageReg 0 Reg.HIF_VERSION_SEL) 3
  let s := (s.wr (ringKey 0 true 2 8) 0x06000005).wr (ringKey 0 false 3 8) 0x06402000
  (((s.setRing 0 true 2 1 0).setRing 0 false 3 1 0).setCq 0 2 CplRing.init).setSq 0 3 { SubRing.init with tail := 1 }
def tEnt (w : Nat) (params : List Byte) : List Byte :=
  natBytes 4 w ++ natBytes 4 0 ++ natBytes 6 0x55 ++ natBytes 2 0 ++ params ++ List.replicate (32 - params.length) 0 ++ natBytes 16 0
def tOpEnt (op h : Nat) : List Byte := tEnt (op * 2 ^ 24 + h * 2 ^ 16) (natBytes 8 0x10000000000)
def tFnPins (s : State) (h : Nat) : State := { s with pins := [(h, ⟨tImgBytes, jobHeader tImgBytes, none⟩)] }
def tHandleBusy : State := (tFnPins tPdue 0).setJob 5 { tJob .running with handle := some 0 }
def tPinDue : State := tPdue.writeBytes 0x10000000000 tImgBytes
def tTaken3 : State := (tPdue.setSq 0 3 { SubRing.init with tail := 1, taken := [9] })
def tSel (cq : Bool) (r : Nat) : State :=
  ((tRings.wr (pageReg 0 Reg.HIF_RING_SEL) (BitVec.ofNat 32 ((if cq then 2 ^ 31 else 0) + r))).wr (ringKey 0 true 4 8) 0x06000005).wr
    (ringKey 0 false 4 8) 0x06402000
def tCpl : Cpl := ⟨0, false, false, false, 3, 0x55, 0, none, 0, 0, 0, 0, 0, false, false⟩
def tWaitCpl : State := tRings.setCq 0 2 { CplRing.init with waiting := [tCpl] }
def tDelay : State := (tRings.setCq 0 2 { CplRing.init with since := 1 }).wr (ringKey 0 true 2 0xC) 0x00100000
def tFullCq : State := tRings.wr (ringKey 0 true 2 0x14) 64
def tFetching : State := tRings.setFn 0 { FnState.init with fetching := [0] }
def tNotReady (rec_ : Bool) : State := (State.reset.wr (hifReg Reg.HIF_STATUS) (if rec_ then 0x40000000 else 0)).wr (hifReg Reg.HIF_LINK_STATUS) 0x84
def tD3 : State := tRings.setFn 0 { FnState.init with msixOn := true, d3hot := true, msix := [5] }
def tBar4 : State := tReady.writeBytes 0x10000000000 [1, 2, 3, 4]
def tBar4At : State := tBar4.wr64 (hifReg Reg.HIF_BAR4_BASE) 0x10000000000
def tBarMode : State := tPart (tReady.wr (hifReg Reg.HIF_BAR4_MODE) 1) 0 0 (2 ^ 63) 0x10000000000 0
/-- The security module in state st, with a user key and a challenge outstanding. -/
def tSec (st : Nat) : State :=
  let s := tReady.wr (secReg Reg.SEC_STATUS) (BitVec.ofNat 32 (st * 2 ^ 28))
  { s with nv := { Stored.init with sec := { tOwner with uak := some [1, 2] } }, sec := { SecState.init with challenge := some [7] } }
def tMac : Credential := .user (kmac256 [1, 2] ([7] ++ (tSec 1).request 0x10) "GARNOS USER")
def tService (op : Nat) (req : List Byte) (officer : Bool) (st : Nat) : State :=
  { tSec 1 with sec := { SecState.init with service := some ⟨op, req, st, officer, []⟩ } }
def tSvc (op : Nat) (req : List Byte) (officer : Bool) (st : Nat) : SecService := ⟨op, req, st, officer, []⟩
/-- What a damaged word of memory meets. -/
def tDamage : MemFind := ⟨[.uncorrectable 0x10000000000], 0, none, 0⟩
/-- A pair in state st over port 4. -/
def tTwin (st : Nat) : State :=
  (tReady.wr (twnReg Reg.TWN_STATUS) (BitVec.ofNat 32 (st * 2 ^ 28))).wr (twnReg Reg.TWN_CFG) 4
def tXfer (w : MirrorWrite) : MirrorXfer := ⟨0, w, mirrorCls w, [], 0, 0⟩
def tMirrors (st : Nat) (ws : List MirrorXfer) : State :=
  { tTwin st with twin := { TwinState.init with made := 1, writes := ws } }
/-- The same, the transfer answered with status 0x23. -/
def tRefused (w : MirrorWrite) : State := tMirrors 2 [{ tXfer w with status := 0x23 }]
/-- All that an attach asks for: the tier open, port 4 up to module 0x102, and a route through it. -/
def tAttach : State :=
  (((tOpenSet.wr (drcReg 0 Reg.DRC_STATUS) 0x80000000).wr (twnReg Reg.TWN_CFG) 4).wr (twnReg Reg.TWN_PARTNER) 0x102).wr
    (lnkPort 4 Reg.LNK_P_REMOTE) 0x102
def tBeats (n : Nat) : State :=
  ((tTwin 1).wr64 (twnReg Reg.TWN_MIRROR_BASE) 0x10000000000).writeBytes 0x10000000000 (natBytes 8 (n + 2 * 2 ^ 32))
def tBeatAns (n : Nat) : MemAns × State := (tBeats n).roundTrip (twinAgent (tBeats n).twinPort) 0x10000000000 32 none tFind
def tMirJob : State := (tMirrors 2 [tXfer (.entry (.job 5))]).setJob 5 (tJob .mirroring)
/-- Operands of single clauses. -/
def tRow8 : RegRow := ⟨0x8, 1, 0x0, 1, 4, 0, 0xff, 0, 0, 0, 0, false⟩
def tEmptyPush : PortPush := ⟨15, 0x7FFFF, 15, true, []⟩
def tHand : Handed := ⟨7, 1, 0, tWords⟩
def tFed1 : InFlight := { tFed with vec := 1 }
def tDescAns (floor : Nat) : MemAns := ⟨0, 32, tDescBytes floor⟩
def tWalk (level : Nat) : Walk := ⟨tReq 0 false none none, level, 0x10000001000, none, none⟩
def tRow0 : Row := ⟨0, tBytes⟩
def tEndedJob (n : Nat) : Job := { tJob .running with ended := List.range n }
def tSigLoad : DieLoad := { tEnded with pos := 284 }
def tTap511 : State := { tDie (dieOfCell 95) with taps := [(95, 511)] }
def tCross15 : State := { tReady with crossings := [(senderKey 7 0 false, 15)] }
def tLockout : State := { tSec 1 with sec := { SecState.init with lockout := true } }
def tNoRec : BitVec 128 := 0
def tPort0 : State := (tStaged tWinLow).wr (eovReg 0 Reg.EOV_WTP_SEL) (BitVec.ofNat 32 (tWinIdx / 8 / 32768))
def tBadMarkers : State := (tOther LinkPort.init).mapLane 16 (fun x => { x with badMarkers := 2 })
/-- A drain asks for a block of port 3, which is open and has a credit. -/
def tAskPort : State :=
  ((tTile { Mtx.init with drains := [{ tDrain 1 [tOut] with desc := { tDesc with dst := 13 } }] }).setPort 1023 3
    { tOpen with credits := 1 })
/-- A state of bay 1023 once the page of its next command, and the descriptor it names, have been fetched. -/
def tFetched (s : State) : State := (s.fetchPage 1023 tPinJob tFind).2
def tFetchedB (s : State) : State := (s.fetchPage 1023 (tBarJob [] []) tFind).2
def tDescribed (s : State) : State := ((tFetched s).fetchDesc 1023 tPinJob 32 96 tFind).2
def tGoneReq : Req := { tReq 7 false (some (.device 0x10000000000)) none with gone := true }
def tGone : State := tRunD { tLive with outstanding := [tGoneReq] }
def tEndArrival : State := tChannel { tLive with
    desc := { tStreamD 2 with kind := 1 }, stages := [⟨0, .send 1023, [], false⟩], arrivals := [.ends (.send 1023) [0]] }
/-- Job 5 loading logical bay 15, whose list runs one vector section. -/
def tLoadJob : Job := { tPinJob with loads := [⟨15, 0, 0, 0, true⟩] }
def tLoadState : State := { tSection with jobs := [(5, tLoadJob)] }
def tParts (s : State) (v : Job) : MemAns × List (Nat × Nat × List Byte) × State := s.bayParts v 15 tFind
def tPart0 : Nat × Nat × List Byte := (tParts tLoadState tLoadJob).2.1.getD 0 (0, 0, [])
theorem pairZero (x : Nat × State) (h : x.1 = 0) : x = (0, x.2) := Prod.ext h rfl
def tLoad0 : BayLoad := ⟨15, 0, 0, 0, true⟩
/-- The same with every endpoint of die 15 isolated; the multicast of the part, and what becomes of the copy. -/
def tCut (s : State) : State :=
  (List.range 64).foldl (fun s i => s.wr (nocReg (routerOfBay (960 + i)) Reg.NOC_ISOLATED) 0xFFFFFFFF) s
def tIssue (s : State) : NocReq × State := (tParts s tLoadJob).2.2.mcastIssue ((tParts s tLoadJob).2.2.loadPacket tLoadJob
  (tLoadJob.bays.getD tLoad0.lb 0) tLoad0.tries tPart0)
def tHead (s : State) : MemAns × State := (tFetched s).fetchDesc 1023 tPinJob (cmdDesc (tCmd 3 0 32)) 8 tFind
def tLoaded : MemAns × State := (tHead tSection).2.loadPackets 1023 tPinJob (cmdDesc (tCmd 3 0 32)) 1
  (if ((tFetched tSection).bayAt 1023).desc.isSome then tFind else tFind.rest)
def tArrive (s : State) (v : Job) : Nat × State := s.messageTrip (seqAgent 1023) (s.leadAgent v)
def tRelease (s : State) (v : Job) : Nat × State := s.messageTrip (s.leadAgent v) (seqAgent 1023)
def tCount (s : State) (v : Job) : MemAns × State :=
  (tArrive s v).2.imgRead (s.leadAgent v) v (v.hdr.barrierOff + 4 * 0) 4 tFind
/-- The count of a barrier stands in the pinned image, whatever the message before it counted. -/
theorem tCount_spec {s : State} {v : Job} {h : Nat} {e : Nat × Pinned} (hv : v.handle = some h)
    (hp : s.pins.find? (fun x => x.1 == 16 * v.ent.func + h) = some e) :
    (tCount s v).1 = ⟨0, v.hdr.barrierOff, (List.range 4).map (fun i => e.2.image.getD (v.hdr.barrierOff + i) 0)⟩ := by
  simp only [tCount, tArrive, State.imgRead, hv, State.messageTrip_pins, hp, Nat.mul_zero, Nat.add_zero]
def tTrip (s : State) : Nat × State :=
  ((tIssue s).2.setJob 5 (tLoadJob.loadSent tLoad0)).mcastTrip (tIssue s).1 (tLoadJob.bays.getD tLoad0.lb 0)
theorem tTrip_spec {s : State} {n : Nat} (h : (tTrip s).1 = n) :
    (if tLoad0.first then ((tParts s tLoadJob).2.2.mcastIssue ((tParts s tLoadJob).2.2.loadPacket tLoadJob
      (tLoadJob.bays.getD tLoad0.lb 0) tLoad0.tries tPart0)).2.setJob 5 (if tLoad0.first then tLoadJob.loadSent tLoad0 else tLoadJob)
      else (tParts s tLoadJob).2.2).mcastTrip ((tParts s tLoadJob).2.2.mcastIssue ((tParts s tLoadJob).2.2.loadPacket tLoadJob
      (tLoadJob.bays.getD tLoad0.lb 0) tLoad0.tries tPart0)).1 (tLoadJob.bays.getD tLoad0.lb 0) = (n, (tTrip s).2) := by
  have hf : tLoad0.first = true := by decide
  subst h
  simp only [tTrip, tIssue, hf, if_true, Prod.mk.eta]
/-- A job being pre-empted whose every bay has finished. -/
def tAllEnd : Job := { tJob .preempting with ended := List.range 15 }
def tAllEnding : State :=
  { tPart tReady 0 0 (2 ^ 63) 0 0x10000000000 with
    jobs := [(5, tAllEnd)]
    bays := tAllEnd.bays.map (fun b => (b, { tBay with logical := if b = 1023 then 15 else 0, finished := true })) }
/-- The same request with a load under way on the die it names. -/
def tHeaderBusy : State := (tHeaderState 0x9C5A3E71).setCfg 15 { DieCfg.init with load := some (tDieLoad .text []) }
def tHeaderBusyAns : MemAns × State := tHeaderBusy.readLong ryhalAgent 0x10000000000 260 tFind
/-- Requests of router 5's endpoint 1 to LPDDR5X, whose first chunk is bank 0 of channel 0. -/
def tLpReq (ty : Fin 16) (n : Nat) (bs : List Byte) (taken : Bool) : NocReq :=
  { tReqOf { tPkt 0 1 ty 0 n 0 bs with dst := .edge 0 } none false with delivered := taken }
def tLp (v : NocReq) (q : List BankItem) : State := { tChan 0 5 with noc := [(4, v)], nextNoc := 5, bankQ := q }
def tFullBank : List BankItem := (List.range 16).map (fun i => ⟨i + 5, false, 0, false, []⟩)
def tLpTaken : State := tLp (tLpReq 0 64 [] true) [⟨4, false, 0, false, []⟩]
def tLpAns : MemAns × State := (tLpTaken.unqueue 0 ⟨4, false, 0, false, []⟩).memRead tHome5 0 64 tFind
/-- Full-chunk writes wait in the bank queue: one alone, and one before a read of its bytes. -/
def tPosted : BankItem := ⟨9, false, 0, true, List.replicate 256 7⟩
def tLpPosted : State := tLp (tLpReq 0 64 [] false) [tPosted]
def tLpBehind : State := tLp (tLpReq 0 64 [] true) [tPosted, ⟨4, false, 0, false, []⟩]
def tBeyR : NocReq := tReqOf (tPkt 0 1 0 0x3000000 4 0 []) none false
def tBeyW : NocReq := tReqOf (tPkt 0 1 1 0x3000000 4 0 [1, 2, 3, 4]) none false
/-- A request of channel 15 of bay 1023, answered. -/
def tStreamAnswered : NocReq := { tReqOf (tPkt 0 1 0 0x40 4 0 []) (some (0, [1, 2, 3, 4])) false with owner := .stream 1023 15 7 }
def tStreamNoc : State :=
  { (tRunD { tLive with outstanding := [{ tReq 7 false (some (.device 0x10000000000)) none with net := some 4 }] }) with
    noc := [(4, tStreamAnswered)], nextNoc := 5 }
/-- A port that is up, its lanes' order known. -/
def tUp : State := (List.range 4).foldl (fun s i => s.mapLane (16 + i) (fun x => { x with recLane := i })) (tOther LinkPort.init)
/-- Whole codewords, symbol i in bits 10i to 10i + 9: messages of empty slots (`tSymbols`) with their check symbols. -/
def tSyms (n : Nat) : List Nat := (List.range 544).map (fun i => n / 1024 ^ i % 1024)
def tWord1 : List Nat := tSyms (
  0x3AFE1514C2A6C0F4 * 2 ^ 5376 +
  0x075B54153A77F086AEDC33EEEE60A134D429C9AEF24EF0FAFFDD4CB8007493E649868917DCE7B2F2C3FC1D88BA5DABFB4A780B619602C816 * 2 ^ 4928 +
  0xC30404010436213201234461610460A0C4C500C0E100341137C216C002D5041750075A005E010E142014041500C1251021A301745067CE04 * 2 ^ 4480 +
  0x9100CF3400150126E0171102E7601554076EC054000FD5002110112201D100326402040034C00A0101C12035140422C0F41013C703705053 * 2 ^ 4032 +
  0x0E0E90010E143501050420E30111206365045460CEC40101C13520151502E2D0111207670054540ECE000000151501112022240101C06470 * 2 ^ 3584 +
  0x040700C090010E012000142402C70010E007150053600E54000FC0152001310025D001F20072000734009A000FC0003500202007F400F3C0 * 2 ^ 3136 +
  0x16700333005A900ECE0115003404053300E320116503606054C40EC1C1002035350516D0E2D21117036754545E0ECE0100153515251124E2 * 2 ^ 2688 +
  0x21D10173646754049EC0CF01003521211417E2C2F11016670734505ACE0EC000151414110132202301016460600404C0C0C1000021013410 * 2 ^ 2240 +
  0x16C202D00017040750005E000E0100142015040120C02110016300645004CE00C100013401150012E002110007600454000EC00000011500 * 2 ^ 1792 +
  0x2110042200C100106403040050C00E0101012034140502C0E0101107036050540E0EC00100143501051020E20111006364045400CEC00101 * 2 ^ 1344 +
  0x013520151402E2C0111007670054500ECE000000151401110022200101006460040400C0C00100012100141002C200100007040050000E00 * 2 ^ 896 +
  0x000100142001040020C00110006300045000CE000100013400150002E000110007600054000EC00000001500011000220001000064000400 * 2 ^ 448 +
  0x00C0000100012000140002C000100007000050000E00000000140001000020000100006000040000C0000000010000100002000000000400)
def tWord3 : List Nat := tSyms (
  0x64EF65D1B0FB2436 * 2 ^ 5376 +
  0x2EB541A83BF17B6EEB43A3035D409F7D817C9D986158FAEE946ADF0BD6C6EDB2750FBF14410DF2B2E9B99827707842B56630A51A0AB7E80B * 2 ^ 4928 +
  0x752C2C232C7A63560365CCA3A30CA1E14D4F014123005C3358463B40077F0C39F009EE00E203123C603C0C3F01436F3062E5039CF0A8520D * 2 ^ 4480 +
  0xB301515C003F036B2039330729A03FFC09B340FC00107F006330336602730056AC060C005D401E030243605F3C0C67411C3034490590F0F5 * 2 ^ 4032 +
  0x1213B003123C5F030F0C6125033360A5AF0CFCA1534C0302435F603F3F072770333609A900FCFC13520000003F3F033360666C030240AC90 * 2 ^ 3584 +
  0x0C090141B003120360003C6C0749003120093F00F5A012FC0010403F600353006E700216009600095C01AE001040005F006060081C011440 * 2 ^ 3136 +
  0x3A90055500EFB01352033F005C0C0F5501256033AF05A0A0FD4C13424300605F5F0F3B712776333905A9FCFCE2135203003F5F3F6F336D26 * 2 ^ 2688 +
  0x62730395ACA9FC0DA3415103005F63633C38274713303AA9095CF0EF521340003F3C3C33035660650303ACA0A00C0D414143000063035C30 * 2 ^ 2240 +
  0x3B46077000390C09F000E2001203003C603F0C036140633003A500ACF00D52014300035C033F00372006330009A00CFC0013400000033F00 * 2 ^ 1792 +
  0x63300C6601430030AC050C00F14012030303605C3C0F07412030330905A0F0FC12134003003C5F030F306126033300A5AC0CFC0153400303 * 2 ^ 1344 +
  0x035F603F3C072740333009A900FCF013520000003F3C0333006660030300ACA00C0C01414003000363003C300746003000090C00F0001200 * 2 ^ 896 +
  0x0003003C60030C006140033000A5000CF00152000300035C003F00072000330009A000FC0013400000003F000330006600030000AC000C00 * 2 ^ 448 +
  0x01400003000360003C000740003000090000F00012000000003C000300006000030000A0000C000140000000030000300006000000000C00)
def tWordIdle : List Nat := tSyms (
  0xC44B2E2CAA1EE1C6 * 2 ^ 5376 +
  0x5EC42CD73238A896446EAC71543D0E3B76CC878F70F6B7D8B8C320BBF32FCFBCECC2121E121292D2C6DEDF5F5F4F5F5C5C5C5C5C58585818 * 2 ^ 4928 +
  0x1810101010100000000000000000000000000000000000000000000000000000000000000000000000000000000000000000000000000000 * 2 ^ 4480 +
  0x0000000000000000000000000000000000000000000000000000000000000000000000000000000000000000000000000000000000000000 * 2 ^ 4032 +
  0x0000000000000000000000000000000000000000000000000000000000000000000000000000000000000000000000000000000000000000 * 2 ^ 3584 +
  0x0000000000000000000000000000000000000000000000000000000000000000000000000000000000000000000000000000000000000000 * 2 ^ 3136 +
  0x0000000000000000000000000000000000000000000000000000000000000000000000000000000000000000000000000000000000000000 * 2 ^ 2688 +
  0x0000000000000000000000000000000000000000000000000000000000000000000000000000000000000000000000000000000000000000 * 2 ^ 2240 +
  0x0000000000000000000000000000000000000000000000000000000000000000000000000000000000000000000000000000000000000000 * 2 ^ 1792 +
  0x0000000000000000000000000000000000000000000000000000000000000000000000000000000000000000000000000000000000000000 * 2 ^ 1344 +
  0x0000000000000000000000000000000000000000000000000000000000000000000000000000000000000000000000000000000000000000 * 2 ^ 896 +
  0x0000000000000000000000000000000000000000000000000000000000000000000000000000000000000000000000000000000000000000 * 2 ^ 448 +
  0x0000000000000000000000000000000000000000000000000000000000000000000000000000000000000000000000000000000000000000)
def tZeros : List Nat := List.replicate 544 0
/-- The line symbols of a codeword on a port after reset, what the port takes from them, and the message they carry. -/
def tLines (xs : List Nat) : List (List Nat) :=
  (List.range 4).map (fun i => (stuff 0 0 ((chunks 4 136 xs).flatMap (fun c => levelsOf 10 (nthN c i)))).1)
def tHeard (xs : List Nat) : List Nat × List Nat × State := (tUp.takeLines 4 (tLines xs)).getD ([], [], tUp)
def tTaken0 (xs : List Nat) : CodewordFind × State := ((tUp.linkAt 4).found xs (tHeard xs).2.1 (some xs), (tHeard xs).2.2)
def tMsg0 (xs : List Nat) : Message :=
  (messageOf (descramble ((tTaken0 xs).2.linkAt 4).scrRx ((tTaken0 xs).1.symbols.flatMap (bitsLow 10))).1)
def tSays (xs : List Nat) : Message := (messageOf (descramble 0 ((xs.take 514).flatMap (bitsLow 10))).1)
/-- The line symbols that lane 0 of a port ends with, a marker of a kind. -/
def tMarker (kind : Nat) : List Nat := (stuff 0 0 (markerLevels kind 0 0)).1
/-- What lane 16 makes of it. -/
def tGot (s : State) (kind : Nat) : List Nat × Nat × Nat × Nat × Nat :=
  ((s.laneAt 16).takeMarker (tMarker kind)).getD ([], 0, 0, 0, 0)
/-- A lane whose checker has locked, and one that has not. -/
def tLockedPat : State := tTest7.wr (lnkLane 16 Reg.LNK_L_PAT) 0x18000000
/-- A cell of distributed memory, and what it holds. -/
def tCell : CellCfg := ⟨.memory32, 5, false, (.z, .z), (true, false), false⟩
def tSevenBits (n : Nat) : Nat → Bool := fun i => bitOf n i
/-- A block memory of 4,096 words of 9 bits, port A in read-first mode and port B in write-first mode. -/
def tMem9 (mode : Fin 3) : BramCfg := ⟨⟨3, mode, 0⟩, ⟨3, 0, 0⟩, false⟩
def tMem1 : BramCfg := ⟨⟨0, 0, 0⟩, ⟨0, 0, 0⟩, false⟩
def tAskW (a : Nat) : MemAsk := ⟨true, true, a, 0x1FF⟩
def tAskR (a : Nat) : MemAsk := ⟨true, false, a, 0⟩
/-- A line with one tap that is always on. -/
def tOnTap : State := tDieCol 15 15 0 { tCol with taps := List.replicate 16 1 }
/-- A static load of die 15 about to be released, its cells and memories configured. -/
def tRelCfg : State :=
  (tDie 15).setCfg 15 { DieCfg.init with
    cols := [(15 * 1024, { tCol with cells := List.replicate 128 tCell }), (15 * 1024 + 815, { tCol with memories := List.replicate 8 tBramCfg })] }
/-- Two virtual functions of function 0, the second with a ring. -/
def tVirtual : State := tRings.setFn 0 { FnState.init with msixOn := true, vfs := 2 }
/-- Vector 5 of function 0 holds a message that is not masked. -/
def tVectors : State :=
  tRings.setFn 0 { FnState.init with msixOn := true, d3hot := true, msix := [5], vectors := [(5, ⟨0x1000, 7, false⟩)] }
def tPlan (s : State) (write : Bool) (n : Nat) : (Option Nat × List (Nat × Nat)) × State := s.bar4Plan 0 0 write tFind (n / 256 + 2) 0 n
def tPinU : State := tPinDue.entryTaken 0 3
def tPinned : Nat × Nat × List Byte × State :=
  tPinU.checkImage (tPinU.ctrlAgent ((maskQuarters (tPinU.ringPart 0).quarters).headD 0))
    (imgN (tPinDue.ringEntry 0 (tOpEnt 5 2)).params 0 8) tFind

/-! ### Key unwrap, round by round: the integrity value and registers of RFC 3394, section 4.6 -/

def tOck : List Byte := (List.range 32).map (BitVec.ofNat 8)
def tRegs (a b c d e : Nat) : List Byte × List (List Byte) := (beBytes 8 a, [beBytes 8 b, beBytes 8 c, beBytes 8 d, beBytes 8 e])
theorem test_unwrap_round_5 : [24, 23, 22, 21].foldl (kwStep (aesKeys tOck) 4)
    (tRegs 0x28C9F404C4B810F4 0xCBCCB35CFB87F826 0x3F5786E2D80ED326 0xCBC7F0E71A99F43B 0xFB988B9B7A02DD21) =
    (tRegs 0xD058823360F88A23 0x1BB8C765A84195E7 0xF7EDAD518C960D36 0x1CFBF6B4C24CB982 0x7DFE775B9687E73) := by decide +kernel
theorem test_unwrap_round_4 : [20, 19, 18, 17].foldl (kwStep (aesKeys tOck) 4)
    (tRegs 0xD058823360F88A23 0x1BB8C765A84195E7 0xF7EDAD518C960D36 0x1CFBF6B4C24CB982 0x7DFE775B9687E73) =
    (tRegs 0x5075496800978B5A 0x4745856AF333F01F 0xBCA418BBF7DCE60B 0xC272E9466AAE98F9 0x40F68C91DB49702C) := by decide +kernel
theorem test_unwrap_round_3 : [16, 15, 14, 13].foldl (kwStep (aesKeys tOck) 4)
    (tRegs 0x5075496800978B5A 0x4745856AF333F01F 0xBCA418BBF7DCE60B 0xC272E9466AAE98F9 0x40F68C91DB49702C) =
    (tRegs 0xF9ED8A1429515669 0xD6AE29ECE7192D43 0xFBEC169FA5C0F6BA 0xF56701DAF0388216 0x3CF149E90E8C04D9) := by decide +kernel
theorem test_unwrap_round_2 : [12, 11, 10, 9].foldl (kwStep (aesKeys tOck) 4)
    (tRegs 0xF9ED8A1429515669 0xD6AE29ECE7192D43 0xFBEC169FA5C0F6BA 0xF56701DAF0388216 0x3CF149E90E8C04D9) =
    (tRegs 0xC58B9D3AC6D5B946 0xE7D1194D853E53F8 0xEFD48BA304945576 0xC365B66943E2D760 0x73E3B6CBE5D05D74) := by decide +kernel
theorem test_unwrap_round_1 : [8, 7, 6, 5].foldl (kwStep (aesKeys tOck) 4)
    (tRegs 0xC58B9D3AC6D5B946 0xE7D1194D853E53F8 0xEFD48BA304945576 0xC365B66943E2D760 0x73E3B6CBE5D05D74) =
    (tRegs 0x564408FDD0DD2EA0 0xF661BD9F31FBFA31 0xF60E0CDB7F429FE8 0x6CA405593A3B5154 0xE5923CB9FDB56FBC) := by decide +kernel
theorem test_unwrap_round_0 : [4, 3, 2, 1].foldl (kwStep (aesKeys tOck) 4)
    (tRegs 0x564408FDD0DD2EA0 0xF661BD9F31FBFA31 0xF60E0CDB7F429FE8 0x6CA405593A3B5154 0xE5923CB9FDB56FBC) =
    (tRegs 0xA6A6A6A6A6A6A6A6 0x11223344556677 0x8899AABBCCDDEEFF 0x1020304050607 0x8090A0B0C0D0E0F) := by decide +kernel
theorem test_unwrap : kwUnwrap tOck tWrapped = some tUnwrapped := by
  have hn : tWrapped.length / 8 - 1 = 4 := by decide +kernel
  have hl : (List.range (6 * 4)).reverse.map (· + 1) =
      ([24, 23, 22, 21] ++ ([20, 19, 18, 17] ++ ([16, 15, 14, 13] ++ ([12, 11, 10, 9] ++ ([8, 7, 6, 5] ++ [4, 3, 2, 1]))))) := by decide
  have hx : (tWrapped.take 8, (List.range 4).map (fun i => (tWrapped.drop (8 * (i + 1))).take 8)) =
      tRegs 0x28C9F404C4B810F4 0xCBCCB35CFB87F826 0x3F5786E2D80ED326 0xCBC7F0E71A99F43B 0xFB988B9B7A02DD21 := by decide +kernel
  simp only [kwUnwrap, hn]
  rw [hl, hx, List.foldl_append, List.foldl_append, List.foldl_append, List.foldl_append, List.foldl_append,
    test_unwrap_round_5, test_unwrap_round_4, test_unwrap_round_3, test_unwrap_round_2, test_unwrap_round_1,
    test_unwrap_round_0]
  decide +kernel

/-- A stream key that opens the wrapped key of a header passes it. -/
theorem streamRules_opens {s : State} {slot idx ver : Nat} {wrapped key k : List Byte}
    (h1 : (s.secState == 1 || s.secState == 3) = true)
    (h2 : (s.secStore.slotUsable slot && (decide (slot < 4) || s.secStore.isOwner slot)) = true)
    (h3 : ¬((4 ≤ slot ∧ idx < 16) ∨ ver < s.secStore.counter idx))
    (h4 : s.secStore.streamKey slot = some key) (h5 : kwUnwrap key wrapped = some k) :
    s.streamRules slot idx ver wrapped = (0, k, s) := by
  simp only [State.streamRules, h1, h2, h3, h4, h5, Option.bind_some, Bool.not_true, Bool.false_eq_true, if_false]

/-- The last of nine premises apart. -/
theorem and_last9 {a b c d e f g h i : Prop} :
    (a ∧ b ∧ c ∧ d ∧ e ∧ f ∧ g ∧ h ∧ i) ↔ ((a ∧ b ∧ c ∧ d ∧ e ∧ f ∧ g ∧ h) ∧ i) := by simp only [and_assoc]

/-! ### Premises that are met: one theorem a statement, one line of premises a clause -/

/-- A command waits in front. -/
def tQueue : State := { tReady with pending := [.counterLoRead (.bar0 0 4), .cntClear (.mtx 8191) false] }

/-- The premises of StepIdlesOnAnEmptyQueue. -/
theorem test_premises_of_step_idles_on_an_empty_queue : State.reset.pending = [] ∧ ∀ d < 16, State.reset.dieState d ≠ 3 := by
  decide +kernel
/-- The premises of EveryStepKeepsTheInvariant, NoCommandTouchesTheQueue, WhatIsSentStaysSent and FusesAreNeverUnblown. -/
theorem test_premises_of_a_step : tQueue.Inv ∧
    tQueue.pending = .counterLoRead (.bar0 0 4) :: [.cntClear (.mtx 8191) false] ∧ ∃ t, step tQueue = .next t :=
  ⟨by unfold State.Inv Memory.wf Registers.wf; decide +kernel, by decide +kernel, _, rfl⟩

/-- The operations of ComputeSlotsComplete. -/
theorem test_premises_of_compute_slots_complete_membership : ((0x1E, Instr.fcv) : Nat × (Bay → List Ecc → Instr)) ∈
    [(0x00, Instr.vecNop), (0x01, Instr.add), (0x02, Instr.sub), (0x03, Instr.min), (0x04, Instr.max), (0x05, Instr.and),
      (0x06, Instr.or), (0x07, Instr.xor), (0x08, Instr.shl), (0x09, Instr.sra), (0x0A, Instr.srl), (0x0B, Instr.movi),
      (0x0C, Instr.bfly), (0x0D, Instr.rot), (0x10, Instr.mul), (0x11, Instr.mac), (0x12, Instr.msu), (0x13, Instr.sqs),
      (0x14, Instr.sbm), (0x15, Instr.clr), (0x16, Instr.lda), (0x17, Instr.nrw), (0x18, Instr.nrm2), (0x19, Instr.hdm),
      (0x1A, Instr.shb), (0x1B, Instr.bhd), (0x1C, Instr.bst), (0x1D, Instr.fn), (0x1E, Instr.fcv), (0x1F, Instr.icv),
      (0x20, Instr.padd), (0x21, Instr.psub), (0x22, Instr.psla), (0x23, Instr.psra), (0x24, Instr.pnrw),
      (0x7F, Instr.imm)] := by simp
/-- The other premises of ComputeSlotsComplete, for each of its operations. -/
theorem test_premises_of_compute_slots_complete : ∀ op ∈ [0x00, 0x01, 0x02, 0x03, 0x04, 0x05, 0x06, 0x07, 0x08, 0x09, 0x0A,
    0x0B, 0x0C, 0x0D, 0x10, 0x11, 0x12, 0x13, 0x14, 0x15, 0x16, 0x17, 0x18, 0x19, 0x1A, 0x1B, 0x1C, 0x1D, 0x1E, 0x1F, 0x20,
    0x21, 0x22, 0x23, 0x24, 0x7F],
    (tVec (tPk op 0x6040 0 0 0 0)).slotReady 1023 .compute ∧
    (readFinds 8 [] [[8 * ((tVec (tPk op 0x6040 0 0 0 0)).vecAt 1023).pc]]).2 = none ∧
    pkOp ((tVec (tPk op 0x6040 0 0 0 0)).vecAt 1023).packet = op ∧
    (((tVec (tPk op 0x6040 0 0 0 0)).vecAt 1023).compute ((tVec (tPk op 0x6040 0 0 0 0)).vecAt 1023).packet
      (tVec (tPk op 0x6040 0 0 0 0)).free).nonfinite = false := by
  unfold State.slotReady
  decide +kernel

/-! ### Codewords on port 4, part by part: their lines, their 30 syndromes, their message -/

set_option maxRecDepth 200000 in
theorem test_word_symbols : tWord1.take 514 = tSymbols 1 false ∧ tWord3.take 514 = tSymbols 3 false ∧
    tWordIdle.take 514 = tSymbols 0 true := by
  decide +kernel

def tHears (xs : List Nat) : Bool :=
  match tUp.takeLines 4 (tLines xs) with
  | none => false
  | some r => r.1 == xs && ((r.2.2.linkAt 4).scrRx == 0 && (r.2.2.linkAt 4).expect == 1)
theorem tHears_spec {xs : List Nat} (h : tHears xs = true) : tUp.takeLines 4 (tLines xs) = some (xs, (tHeard xs).2) ∧
    ((tTaken0 xs).2.linkAt 4).scrRx = 0 ∧ ((tTaken0 xs).2.linkAt 4).expect = 1 := by
  unfold tHears at h
  split at h
  · cases h
  · rename_i r hr
    have ht : tHeard xs = r := by simp [tHeard, hr]
    simp only [Bool.and_eq_true, beq_iff_eq] at h
    simp only [tTaken0, ht]
    exact ⟨by rw [hr, ← h.1], h.2⟩
theorem tReceives {xs : List Nat} (h : tHears xs = true) (a : ∀ j < 10, rsEval xs (rsPow j) = 0)
    (b : ∀ j < 10, rsEval xs (rsPow (j + 10)) = 0) (c : ∀ j < 10, rsEval xs (rsPow (j + 20)) = 0) :
    tUp.receiveLines 4 (tLines xs) = some ((tTaken0 xs).1, (tTaken0 xs).2) ∧ tMsg0 xs = tSays xs := by
  have k : rsCorrect xs = some xs := by
    have hs : (syndromes xs).all (· == 0) = true := by
      simp only [syndromes, List.all_eq_true, List.mem_map, List.mem_range, beq_iff_eq]
      rintro x ⟨j, hj, rfl⟩
      rcases Nat.lt_or_ge j 10 with h | h
      · exact a j h
      · rcases Nat.lt_or_ge j 20 with h' | h'
        · have := b (j - 10) (by omega)
          rwa [Nat.sub_add_cancel h] at this
        · have := c (j - 20) (by omega)
          rwa [Nat.sub_add_cancel h'] at this
    simp only [rsCorrect, hs, if_true]
  have hh := tHears_spec h
  refine ⟨?_, ?_⟩
  · simp only [State.receiveLines, hh.1, k, tTaken0]
  · simp only [tMsg0, hh.2.1, tSays]
    rfl

set_option maxRecDepth 200000 in
theorem test_zeros_lines : tHears tZeros = true := by decide +kernel
set_option maxRecDepth 200000 in
theorem test_zeros_checks_a : ∀ j < 10, rsEval tZeros (rsPow j) = 0 := by decide +kernel
set_option maxRecDepth 200000 in
theorem test_zeros_checks_b : ∀ j < 10, rsEval tZeros (rsPow (j + 10)) = 0 := by decide +kernel
set_option maxRecDepth 200000 in
theorem test_zeros_checks_c : ∀ j < 10, rsEval tZeros (rsPow (j + 20)) = 0 := by decide +kernel
set_option maxRecDepth 200000 in
theorem test_zeros_says : (tSays tZeros).good = false := by
  decide +kernel
/-- The premises of CodewordsComplete, clause 2.1. -/
theorem test_premises_of_codewords_complete_2 : tUp.portUp 4 = true ∧
    tUp.receiveLines 4 (tLines tZeros) = some ((tTaken0 tZeros).1, (tTaken0 tZeros).2) ∧
    ((tTaken0 tZeros).1.good = false ∨ (tMsg0 tZeros).good = false) := by
  have h := tReceives test_zeros_lines test_zeros_checks_a test_zeros_checks_b test_zeros_checks_c
  rw [h.2]
  exact ⟨by decide +kernel, h.1, .inr test_zeros_says⟩

set_option maxRecDepth 200000 in
theorem test_word3_lines : tHears tWord3 = true := by decide +kernel
set_option maxRecDepth 200000 in
theorem test_word3_checks_a : ∀ j < 10, rsEval tWord3 (rsPow j) = 0 := by decide +kernel
set_option maxRecDepth 200000 in
theorem test_word3_checks_b : ∀ j < 10, rsEval tWord3 (rsPow (j + 10)) = 0 := by decide +kernel
set_option maxRecDepth 200000 in
theorem test_word3_checks_c : ∀ j < 10, rsEval tWord3 (rsPow (j + 20)) = 0 := by decide +kernel
set_option maxRecDepth 200000 in
theorem test_word3_says : (tSays tWord3).good = true ∧ ((tSays tWord3).link.getD 21 0).getLsbD 0 = false ∧ (tSays tWord3).seq = 3 := by
  decide +kernel
/-- The premises of CodewordsComplete, clause 2.2. -/
theorem test_premises_of_codewords_complete_3 : tUp.portUp 4 = true ∧
    tUp.receiveLines 4 (tLines tWord3) = some ((tTaken0 tWord3).1, (tTaken0 tWord3).2) ∧ (tTaken0 tWord3).1.good = true ∧
    (tMsg0 tWord3).good = true ∧ ((tMsg0 tWord3).link.getD 21 0).getLsbD 0 = false ∧
    (tMsg0 tWord3).seq ≠ ((tTaken0 tWord3).2.linkAt 4).expect := by
  have h := tReceives test_word3_lines test_word3_checks_a test_word3_checks_b test_word3_checks_c
  rw [h.2]
  exact ⟨by decide +kernel, h.1, rfl, test_word3_says.1, test_word3_says.2.1,
    by rw [test_word3_says.2.2, (tHears_spec test_word3_lines).2.2]; decide⟩

set_option maxRecDepth 200000 in
theorem test_word1_lines : tHears tWord1 = true := by decide +kernel
set_option maxRecDepth 200000 in
theorem test_word1_checks_a : ∀ j < 10, rsEval tWord1 (rsPow j) = 0 := by decide +kernel
set_option maxRecDepth 200000 in
theorem test_word1_checks_b : ∀ j < 10, rsEval tWord1 (rsPow (j + 10)) = 0 := by decide +kernel
set_option maxRecDepth 200000 in
theorem test_word1_checks_c : ∀ j < 10, rsEval tWord1 (rsPow (j + 20)) = 0 := by decide +kernel
set_option maxRecDepth 200000 in
theorem test_word1_says : (tSays tWord1).good = true ∧ ((tSays tWord1).link.getD 21 0).getLsbD 0 = false ∧ (tSays tWord1).seq = 1 ∧
    bitOf (bytesNat (((tSays tWord1).link.drop 16).take 2)) 15 = false := by
  decide +kernel
/-- The premises of CodewordsComplete, clause 2.3. -/
theorem test_premises_of_codewords_complete_4 : tUp.portUp 4 = true ∧
    tUp.receiveLines 4 (tLines tWord1) = some ((tTaken0 tWord1).1, (tTaken0 tWord1).2) ∧ (tTaken0 tWord1).1.good = true ∧
    (tMsg0 tWord1).good = true ∧ ((tMsg0 tWord1).link.getD 21 0).getLsbD 0 = false ∧
    (tMsg0 tWord1).seq = ((tTaken0 tWord1).2.linkAt 4).expect ∧
    bitOf (bytesNat (((tMsg0 tWord1).link.drop 16).take 2)) 15 = false := by
  have h := tReceives test_word1_lines test_word1_checks_a test_word1_checks_b test_word1_checks_c
  rw [h.2]
  exact ⟨by decide +kernel, h.1, rfl, test_word1_says.1, test_word1_says.2.1,
    by rw [test_word1_says.2.2.1, (tHears_spec test_word1_lines).2.2], test_word1_says.2.2.2⟩

set_option maxRecDepth 200000 in
theorem test_idle_lines : tHears tWordIdle = true := by decide +kernel
set_option maxRecDepth 200000 in
theorem test_idle_checks_a : ∀ j < 10, rsEval tWordIdle (rsPow j) = 0 := by decide +kernel
set_option maxRecDepth 200000 in
theorem test_idle_checks_b : ∀ j < 10, rsEval tWordIdle (rsPow (j + 10)) = 0 := by decide +kernel
set_option maxRecDepth 200000 in
theorem test_idle_checks_c : ∀ j < 10, rsEval tWordIdle (rsPow (j + 20)) = 0 := by decide +kernel
set_option maxRecDepth 200000 in
theorem test_idle_says : (tSays tWordIdle).good = true ∧ ((tSays tWordIdle).link.getD 21 0).getLsbD 0 = true ∧
    bitOf (bytesNat (((tSays tWordIdle).link.drop 16).take 2)) 15 = false := by
  decide +kernel
/-- The premises of CodewordsComplete, clause 2.4. -/
theorem test_premises_of_codewords_complete_5 : tUp.portUp 4 = true ∧
    tUp.receiveLines 4 (tLines tWordIdle) = some ((tTaken0 tWordIdle).1, (tTaken0 tWordIdle).2) ∧
    (tTaken0 tWordIdle).1.good = true ∧ (tMsg0 tWordIdle).good = true ∧
    ((tMsg0 tWordIdle).link.getD 21 0).getLsbD 0 = true ∧
    bitOf (bytesNat (((tMsg0 tWordIdle).link.drop 16).take 2)) 15 = false := by
  have h := tReceives test_idle_lines test_idle_checks_a test_idle_checks_b test_idle_checks_c
  rw [h.2]
  exact ⟨by decide +kernel, h.1, rfl, test_idle_says⟩

/-- The premises of WriteAccessCodes. -/
theorem test_premises_of_write_access_codes :
    tRow8 ∈ blockRows (Block.lga 15) ∧ 31 < 32 :=
  by decide +kernel

/-- The premises of RegisterAccessesComplete, clauses 1, 2, 3, 4, 5. -/
theorem test_premises_of_register_accesses_complete :
    (((∃ d, Block.seq 3 = Block.seq d ∨ Block.seq 3 = Block.lga d) ∨ Block.seq 3 = Block.rtc ∨ Block.seq 3 = Block.fpl) ∧
    findRow (Block.seq 3) 56 = some
      { off := 56, c1 := 1, s1 := 0, c2 := 1, s2 := 4, rw := 0, w1c := 254, w1s := 0, rwl := 0, wo := 0, reset := 0, cnt := false }
      ∧ (∀ (o i : ℕ), cntBit (Block.seq 3) = some (o, i) → o ≠ 56) ∧ tReady.blockLive (Block.seq 3) 56 = true) ∧
    (((∃ d, Block.seq 3 = Block.seq d ∨ Block.seq 3 = Block.lga d) ∨ Block.seq 3 = Block.rtc ∨ Block.seq 3 = Block.fpl) ∧
    bar0Block 20054072 = some (Block.seq 3, 56) ∧
    findRow (Block.seq 3) 56 = some
      { off := 56, c1 := 1, s1 := 0, c2 := 1, s2 := 4, rw := 0, w1c := 254, w1s := 0, rwl := 0, wo := 0, reset := 0, cnt := false }
      ∧ 20054072 < 67108864 ∧ 20054072 % 4 = 0 ∧ (∀ (o i : ℕ), cntBit (Block.seq 3) = some (o, i) → o ≠ 56) ∧
    tReady.blockLive (Block.seq 3) 56 = true ∧ tReady.fnReach 0 = true ∧ (tReady.fnAt 0).d3hot = false) ∧
    (landBlock (Block.lga 15) 144 ≠ Landed.hole ∧ tReady.blockLive (Block.lga 15) 144 = true) ∧
    (goodSize 56 8 = true ∧ 56 < 67108864 ∧ tReady.fnReach 0 = true ∧ (tReady.fnAt 0).d3hot = false) ∧
    (cntBit (Block.mtx 8191) = some (Reg.MTX_CTRL, 1) ∧ tReady.blockLive (Block.mtx 8191) Reg.MTX_CTRL = true) :=
  ⟨⟨Or.inl ⟨3, Or.inl rfl⟩, by decide +kernel, (by intro o i h; cases h), by decide +kernel⟩,
  ⟨Or.inl ⟨3, Or.inl rfl⟩, by decide +kernel, by decide +kernel, by decide +kernel, by decide +kernel,
    (by intro o i h; cases h), by decide +kernel⟩, by decide +kernel, by decide +kernel, ⟨rfl, by decide +kernel⟩⟩

/-- The premises of CounterHighHalfIsHeld. -/
theorem test_premises_of_counter_high_half_is_held :
    loHalf (Block.crm 0) 40 = true ∧ loHalf (Block.crm 0) (40 + 4) = false ∧
    (tReady.readHeld (Block.crm 0) 40).2.rd (holdKey (Block.crm 0) (40 + 4)) = (tReady.readHeld (Block.crm 0)
      40).2.rd (holdKey (Block.crm 0) (40 + 4)) :=
  by decide +kernel

/-- The premises of ReservedSpaceReadsZero. -/
theorem test_premises_of_reserved_space_reads_zero :
    (landBar0 3145728 = Landed.hole ∧ 3145728 < 67108864 ∧ 3145728 % 4 = 0 ∧ tReady.fnReach 0 = true ∧
    (tReady.fnAt 0).d3hot = false) ∧
    (landBar0 50331644 = Landed.hole ∧ 50331644 < 67108864 ∧ 50331644 % 4 = 0 ∧ tReady.fnReach 0 = true ∧
    (tReady.fnAt 0).d3hot = false) :=
  by decide +kernel

/-- The premises of DeadDomainReadsOnes. -/
theorem test_premises_of_dead_domain_reads_ones :
    landBar0 17956864 = Landed.reg (Block.seq 1) 0 ∧ tDead.blockLive (Block.seq 1) 0 = false ∧ 17956864 < 67108864 ∧
    17956864 % 4 = 0 ∧ tDead.fnReach 0 = true ∧ (tDead.fnAt 0).d3hot = false :=
  by decide +kernel

/-- The premises of MisshapenAccessHasNoEffect. -/
theorem test_premises_of_misshapen_access_has_no_effect :
    goodSize 67108862 4 = false ∧ 67108862 < 67108864 ∧ tReady.fnReach 0 = true ∧ (tReady.fnAt 0).d3hot = false :=
  by decide +kernel

/-- The premises of PinsAndSupplyComplete, clauses 1, 1, 2, 3, 4, 5, 5, 6, 7, 8, 9. -/
theorem test_premises_of_pins_and_supply_complete :
    (State.reset.board.perst = false ∧ State.reset.canCut Cut.clean = true) ∧
    ((tFuse 511).board.perst = false ∧ (tFuse 511).canCut Cut.fieldFuse = true) ∧
    ((tPins ({ Pins.init with pwrgd := false })).board.pwrgd = false ∧
    (tPins ({ Pins.init with pwrgd := false })).board.pwrdis = false ∧
    (tPins ({ Pins.init with pwrgd := false })).board.latched = false) ∧
    (tReady.board.pwrgd = true ∧ tReady.canCut Cut.clean = true) ∧
    (tReady.board.pwrdis = false ∧ tReady.canCut Cut.clean = true) ∧
    ((tPins ({ Pins.init with pwrdis := true, latched := true })).board.pwrdis = true) ∧
    ((tPins ({ Pins.init with pwrdis := true, latched := true })).board.pwrdis = true) ∧
    (tReady.board.rails = true ∧ tReady.canCut Cut.clean = true) ∧
    ((tPins ({ Pins.init with rails := false })).board.rails = false ∧
    (tPins ({ Pins.init with rails := false })).canCut Cut.clean = true) ∧
    (tReady.board.rails = true ∧ tReady.canCut Cut.clean = true) ∧
    ((tPins ({ Pins.init with rails := false })).board.rails = false ∧
    (tPins ({ Pins.init with rails := false })).canCut Cut.clean = true) := by
  iterate 10 refine ⟨by decide +kernel, ?_⟩
  decide +kernel

/-- The premises of ReleaseOfPerstStartsAfresh. -/
theorem test_premises_of_release_of_perst_starts_afresh :
    tHeld.board.perst = true ∧ tHeld.board.pwrgd = true :=
  by decide +kernel

/-- The premises of ReferenceClocksComplete, clauses 2, 3, 4. -/
theorem test_premises_of_reference_clocks_complete :
    (tReady.board.fabricRef = true) ∧
    (tReady.board.fabricRef = true ∧ (∀ p < 12, ¬(2 ≤ tReady.portState p ∧ tReady.portState p ≤ 6))) ∧
    (tNoRef.board.fabricRef = false ∧ 2 ≤ tNoRef.bootPhase) :=
  by decide +kernel

/-- The premises of BringUpCompletes, clauses 1, 1, 1, 1, 1, 2, 2, 3, 4, 5, 6, 6. -/
theorem test_premises_of_bring_up_completes :
    ((tBring 0).bringing = true) ∧
    ((tBring 1).bringing = true) ∧
    ((tBring 2).bringing = true) ∧
    ((tBring 3).bringing = true) ∧
    ((tBring 4).bringing = true) ∧
    ((tBring 0).board.held = false ∧ (tBring 0).inRecovery = false ∧ (tBring 0).bootPhase ≤ 0 ∧ 0 ≠ 2) ∧
    ((tBring 4).board.held = false ∧ (tBring 4).inRecovery = false ∧ (tBring 4).bootPhase ≤ 4 ∧ 4 ≠ 2) ∧
    ((tBring 2).bringing = true ∧ (tBring 2).bootPhase = 2) ∧
    ((tBring 4).board.held = false ∧ (tBring 4).isReady = false) ∧
    (((tBring 1).wr (drcCh 63 Reg.DRC_CH_STATE) 536870912).board.held = false ∧
    ((tBring 1).wr (drcCh 63 Reg.DRC_CH_STATE) 536870912).plan.trained = false) ∧
    ((tBring 3).linkUp 0 = false ∧ 1 ≠ 0 ∧ ((tBring 3).rbit (hifReg Reg.HIF_STATUS) 28 = true → 0 ≤ 3) ∧
    (tBring 3).board.held = false ∧ (tBring 3).edgeReach 0 = true ∧
    (3 ≤ (tBring 3).bootPhase ∨ (tBring 3).inRecovery = true)) ∧
    ((tBring 3).linkUp 0 = false ∧ 7 ≠ 0 ∧ ((tBring 3).rbit (hifReg Reg.HIF_STATUS) 28 = true → 4 ≤ 3) ∧
    (tBring 3).board.held = false ∧ (tBring 3).edgeReach 0 = true ∧
    (3 ≤ (tBring 3).bootPhase ∨ (tBring 3).inRecovery = true)) := by
  iterate 11 refine ⟨by decide +kernel, ?_⟩
  decide +kernel

/-- The premises of FieldFuseWriteKeepsEntries. -/
theorem test_premises_of_field_fuse_write_keeps_entries :
    (unitEntry 2 5 ∈ (tFuse 0).fuseDue) ∧
    (unitEntry 2 5 ∈ (tFuse 511).fuseDue) ∧
    (unitEntry 2 5 ∈ (tFuse 512).fuseDue) :=
  by decide +kernel

/-- The premises of CommandedTestsComplete, clauses 1, 2, 3, 4, 5. -/
theorem test_premises_of_commanded_tests_complete :
    (tReady.testCause 1 true 15 = 0) ∧
    (tReady.testCause 2 false 63 = 0) ∧
    (tReady.testCause 3 false 0 = 0) ∧
    (tReady.testCause 1 true 16 ≠ 0) ∧
    (tTest.test = some { op := 2, die := true, target := 0 } ∧
    ({ us := 250, sigs := [], bad := [(3, true)], rows := [] } : BistFind).us ≤ testLimit
      { op := 2, die := true, target := 0 }) :=
  by decide +kernel

/-- The premises of ControlSetsComplete, clauses 1.1, 1.2, 1.3, 1.4, 1.5, 3, 3, 4, 2. -/
theorem test_premises_of_control_sets_complete :
    (tReady.fnReach 0 = true ∧ (tReady.fnAt 0).d3hot = false ∧ tReady.shadowClosed = false) ∧
    (tReady.fnReach 0 = true ∧ (tReady.fnAt 0).d3hot = false ∧ tReady.shadowClosed = false) ∧
    (tChecked.fnReach 0 = true ∧ (tChecked.fnAt 0).d3hot = false ∧ tChecked.shadowClosed = false ∧
    tChecked.isChecked = true) ∧
    (tBadSet.fnReach 0 = true ∧ (tBadSet.fnAt 0).d3hot = false ∧ tBadSet.shadowClosed = false ∧
    tBadSet.isChecked = false ∧ tBadSet.checkSet (1 - tBadSet.activeSet) ≠ none) ∧
    (tReady.fnReach 0 = true ∧ (tReady.fnAt 0).d3hot = false ∧ tReady.shadowClosed = false ∧ Registers.wf tReady.regs) ∧
    ((tSwap []).swap = some [] ∧ 20 ∉ [] ∧ ∃ i < 21, i ≠ 20 ∧ i ∉ (tSwap []).switched) ∧
    ((tSwap tMost).swap = some tMost ∧ 20 ∉ tMost ∧ (∀ i < 21, i = 20 ∨ i ∈ (tSwap tMost).switched) ∧ (tSwap tMost).jobs = []) ∧
    ((tSwap tMost).swap = some tMost ∧ 20 ∉ (tSwap tMost).switched ∧ ∀ j < 20, j ∈ (tSwap tMost).switched) ∧
    ((tSwap []).fnReach 0 = true ∧ ((tSwap []).fnAt 0).d3hot = false ∧ (tSwap []).shadowClosed = true ∧
    (Instr.tamp ∈ [Instr.check, Instr.tamp, Instr.copyActive] ∨ ∃ i w, Instr.tamp = Instr.shadowWrite i w)) := by
  iterate 8 refine ⟨by decide +kernel, ?_⟩
  decide +kernel

/-- The premises of MailboxWordStoredOrDropped, clauses 1, 1, 2. -/
theorem test_premises_of_mailbox_word_stored_or_dropped :
    (coreWrites 64 31 = true ∧ tReady.endpointLive 31 = true ∧ tReady.rbit (mbxReg 31 Reg.MBX_STATUS) 0 = false) ∧
    (coreWrites 63 49 = true ∧ tReady.endpointLive 49 = true ∧ tReady.rbit (mbxReg 49 Reg.MBX_STATUS) 0 = false) ∧
    (coreWrites 0 47 = true ∧ (tFull 47).endpointLive 47 = true ∧ (tFull 47).rbit (mbxReg 47 Reg.MBX_STATUS) 0 = true) :=
  by decide +kernel

/-- The premises of MailboxCommandsComplete, clauses 1, 2, 3, 4, 5. -/
theorem test_premises_of_mailbox_commands_complete :
    (tReady.fnReach 0 = true ∧ (tReady.fnAt 0).d3hot = false ∧ tReady.rbit (mbxReg 48 Reg.MBX_STATUS) 0 = false) ∧
    (coreWrites 64 31 = true ∧ (tReady.wr (mbxReg 31 Reg.MBX_DB_MASK) 4294967295).endpointLive 31 = true ∧
    4294967295 &&& ~~~(tReady.wr (mbxReg 31 Reg.MBX_DB_MASK) 4294967295).rd (mbxReg 31 Reg.MBX_DB_MASK) = 0) ∧
    ((tReady.wr (mbxReg 63 Reg.MBX_DB) 4294967294).endpointLive 63 = true ∧
    (tReady.wr (mbxReg 63 Reg.MBX_DB) 4294967294).rd (mbxReg 63 Reg.MBX_DB) &&& ~~~4294967294 = 0) ∧
    (31 ≠ 0 ∧ ((tFull 31).wr (mbxReg 31 Reg.MBX_OWNER) 127).rbit (mbxReg 31 Reg.MBX_OWNER) 6 = true ∧
    ((tFull 31).wr (mbxReg 31 Reg.MBX_OWNER) 127).partOfFn (((tFull 31).wr (mbxReg 31 Reg.MBX_OWNER) 127).fld (mbxReg
      31 Reg.MBX_OWNER) 5 0) = none) ∧
    (tDead.endpointLive 33 = false) :=
  by decide +kernel

/-- The premises of ReadAfterWriteOfMemory, clauses 1, 2, 3. -/
theorem test_premises_of_read_after_write_of_memory :
    (tMem.noMemory 3 1099511627808 = none ∧ partUnits 1099511627808 (List.replicate 64 9).length = []) ∧
    (tMem.noMemory 3 1099511627792 = none ∧ (∀ u ∈ unitsOf 1099511627792 32, tMem.poisoned u = false) ∧ tFind.ecc = []) ∧
    (tMem.noMemory 0 1099561959424 ≠ none) :=
  by decide +kernel

/-- The premises of MemoryControllersComplete, clauses 1, 6, 7, 8, 8, 9, 10, 11. -/
theorem test_premises_of_memory_controllers_complete :
    (50331616 < 50331648 ∧ 50331616 % 32 = 0 ∧ tReady.rowRemoved 1023 (50331616 / 32768) = false ∧
    tReady.rdN (crmReg (1023 / 64) Reg.CRM_SCRUB_PERIOD) ≠ 0 ∧ tReady.poisoned (cremaAddr 1023 50331616) = false) ∧
    ((tChan 0 4).chanState 0 = 4) ∧
    (bitsOf (BitVec.toNat (805306368 : Word)) 29 28 ≠ 0 ∧
    ((tChan 63 2).chanState 63 = 2 ∨ (tChan 63 2).chanState 63 = 3)) ∧
    ((tPattern true).patternRuns 3 = true ∧ (tPattern true).rbit (drcCh 3 Reg.DRC_TRAIN_PAT) 28 = true) ∧
    ((tPattern false).patternRuns 3 = true ∧ (tPattern false).rbit (drcCh 3 Reg.DRC_TRAIN_PAT) 29 = true ∧
    (tPattern false).rbit (drcCh 3 Reg.DRC_TRAIN_PAT) 28 = false) ∧
    (2 ≤ (tChan 63 2).chanState 63 ∧ (tChan 63 2).rdN (drcCh 63 Reg.DRC_PD_TIMER) ≠ 0 ∧
    (tChan 63 2).fld (drcCh 63 Reg.DRC_CH_STATE) (if true = true then 27 else 25) (if true = true then 26 else 24) = 0 ∧
    (∀ x ∈ (tChan 63 2).bankQ, ∀ (k row chunk : ℕ), (tChan 63 2).bankOf x.addr = some (k, row, chunk) → k / 16 ≠ 63 *
      2 + (if true = true then 1 else 0))) ∧
    (2 ≤ (tChan 63 2).chanState 63) ∧
    ((tChan 63 5).chanState 63 = 5 ∧ chanBytes / 256 - 1 < chanBytes / 256 ∧
    (tChan 63 5).rdN (drcReg (63 / 16) Reg.DRC_SCRUB_PERIOD) ≠ 0 ∧ (tChan 63 5).poison = []) := by
  iterate 5 refine ⟨by decide +kernel, ?_⟩
  refine ⟨⟨by decide +kernel, by decide +kernel, by decide +kernel, (by intro x h; cases h)⟩, ?_⟩
  refine ⟨by decide +kernel, ?_⟩
  decide +kernel

/-- The premises of LogicArrayEventsComplete, clauses 1, 2.1, 2.2, 2.3, 3, 4, 5.1, 5.2, 5.3, 6, 7.1, 7.2. -/
theorem test_premises_of_logic_array_events_complete :
    (2 ≤ (tTwoTaps.enabledTaps 15 15 15).length ∧ lineKey 15 15 15 ∉ tTwoTaps.contending) ∧
    ((tBram.cfgAt 15).memAt 2047 = some tBramCfg ∧ tBramCfg.a.shape = 6 ∧ tBramCfg.ecc = true ∧
    tBram.tileRuns 15 (memTile 2047) = true ∧ tBram.bramFlip 15 2047 511 = 0 ∧ 70 ≠ 71) ∧
    ((tBram.cfgAt 15).memAt 2047 = some tBramCfg ∧ tBramCfg.a.shape = 6 ∧ tBramCfg.ecc = true ∧
    tBram.tileRuns 15 (memTile 2047) = true ∧ tBram.bramFlip 15 2047 511 = 0 ∧ 70 ≠ 71) ∧
    ((tBram.cfgAt 15).memAt 2047 = some tBramCfg ∧ tBramCfg.a.shape = 6 ∧ tBramCfg.ecc = true ∧
    tBram.tileRuns 15 (memTile 2047) = true ∧ tBram.bramFlip 15 2047 511 = 0 ∧ 70 ≠ 71) ∧
    ((tLocks ClockInput.pair (ClockInput.pll 7 3)).pllLocked 15 7 = true) ∧
    ((tClocks ClockInput.pair (ClockInput.pll 7 3)).pllOf 15 7 = some tPll ∧
    (tClocks ClockInput.pair (ClockInput.pll 7 3)).dieState 15 = 3 ∧
    (tClocks ClockInput.pair (ClockInput.pll 7 3)).pllLocked 15 7 = false ∧
    (tClocks ClockInput.pair (ClockInput.pll 7 3)).refRuns 15 tPll.ref = true) ∧
    ((tLocks ClockInput.pair (ClockInput.pll 7 3)).globalInputs 15 15 = some (ClockInput.pair, ClockInput.pll 7 3) ∧
    (tLocks ClockInput.pair (ClockInput.pll 7 3)).dieState 15 = 3 ∧
    (tLocks ClockInput.pair (ClockInput.pll 7 3)).inputRuns 15 (ClockInput.pair, ClockInput.pll 7 3).1 = true ∧
    (tLocks ClockInput.pair (ClockInput.pll 7 3)).inputRuns 15 (ClockInput.pair, ClockInput.pll 7 3).2 = true) ∧
    ((tClocks ClockInput.pair (ClockInput.pll 7 3)).globalInputs 15 15 = some (ClockInput.pair, ClockInput.pll 7 3) ∧
    (tClocks ClockInput.pair (ClockInput.pll 7 3)).dieState 15 = 3 ∧
    ((tClocks ClockInput.pair (ClockInput.pll 7 3)).inputRuns 15 (ClockInput.pair, ClockInput.pll 7 3).1 = false ∨
      (tClocks ClockInput.pair (ClockInput.pll 7 3)).inputRuns 15 (ClockInput.pair, ClockInput.pll 7 3).2 = false)) ∧
    ((tLocks ClockInput.pair (ClockInput.pll 7 3)).globalInputs 15 15 = some (ClockInput.pair, ClockInput.pll 7 3) ∧
    (tLocks ClockInput.pair (ClockInput.pll 7 3)).dieState 15 = 3 ∧
    (true || false) = true ∧
    (true = true → ∀ (n : Fin 8) (o : Fin 4), (ClockInput.pair, ClockInput.pll 7 3).1 ≠ ClockInput.pll n o) ∧
    (false = true → ∀ (n : Fin 8) (o : Fin 4), (ClockInput.pair, ClockInput.pll 7 3).2 ≠ ClockInput.pll n o)) ∧
    ((tDie (dieOfCell 95)).dieState (dieOfCell 95) = 3) ∧
    ((tDie (dieOfCell 95)).dieState (dieOfCell 95) = 3 ∧ tget (fun x => 0) (tDie (dieOfCell 95)).taps 95 < 511) ∧
    (tTap511.dieState (dieOfCell 95) = 3 ∧ tget (fun x => 0) tTap511.taps 95 ≠ 0) := by
  iterate 11 refine ⟨by decide +kernel, ?_⟩
  decide +kernel

/-- The premises of TilePortsComplete, clauses 1, 2, 3, 3, 4, 5, 5. -/
theorem test_premises_of_tile_ports_complete :
    ((tPort TilePort.init).logicRuns 0 3 = true ∧ (tPort TilePort.init).portOpen 0 3 = false ∧
    ((tPort TilePort.init).portAt 0 3).outQ = [] ∧ [tEmptyPush].length = (tPort TilePort.init).beat 0 3 ∧
    [tEmptyPush] ≠ [] ∧
    (∀ r ∈ [tEmptyPush], r.bytes.length % 4 = 0 ∧ r.bytes.length ≤ 128 ∧ r.addr < 2 ^ 19 ∧ r.dst ≤ 15 ∧ r.channel ≤
      15) ∧ [tEmptyPush].length ≤ 128) ∧
    ((tPort tOpen).logicRuns 0 3 = true ∧ (tPort tOpen).portOpen 0 3 = true ∧ ((tPort tOpen).portAt 0 3).outQ = [] ∧
    [tPush].length = (tPort tOpen).beat 0 3 ∧
    (∀ x ∈ [tPush], x.bytes.length % 4 = 0 ∧ x.bytes.length ≤ 128 ∧ x.addr < 2 ^ 19 ∧ x.dst ≤ 15 ∧ x.channel ≤ 15 ∧
      pushFault x = none) ∧ [tPush].length ≤ 128 ∧
    tPushed = (tPort tOpen).setPort 0 3
      ({ (tPort tOpen).portAt 0 3 with outQ := List.map (fun x => { dst := x.dst, addr := x.addr, channel := x.channel, done := x.done, bytes := x.bytes }) [tPush] })
      ∧
    tPushed.deliver 0 (Writer.port 0 3) tPush.dst tPush.channel tPush.addr (List.map some tPush.bytes) tPush.done = none) ∧
    ((tPort ({ tOpen with credits := 3 })).logicRuns 0 3 = true ∧
    (tPort ({ tOpen with credits := 3 })).portOpen 0 3 = true) ∧
    ((tPort ({ tOpen with credits := 4 })).logicRuns 0 3 = true ∧
    (tPort ({ tOpen with credits := 4 })).portOpen 0 3 = true) ∧
    ((tPort TilePort.init).logicRuns 0 3 = true ∧ (tPort TilePort.init).portOpen 0 3 = false) ∧
    ((tPort tPop).logicRuns 0 3 = true ∧ (tPort tPop).portOpen 0 3 = true ∧ ((tPort tPop).portAt 0 3).inQ = [tRec] ++ [] ∧
    [tRec] ≠ [] ∧ ([tRec].length = (tPort tPop).beat 0 3 ∨ [tRec].length < (tPort tPop).beat 0 3 ∧ ([] : List InRecord) = [])) ∧
    (tPop4.logicRuns 0 3 = true ∧ tPop4.portOpen 0 3 = true ∧ (tPop4.portAt 0 3).inQ = [tRec] ++ [] ∧
    [tRec] ≠ [] ∧ ([tRec].length = tPop4.beat 0 3 ∨ [tRec].length < tPop4.beat 0 3 ∧ ([] : List InRecord) = [])) :=
  ⟨by decide +kernel, by decide +kernel, by decide +kernel, by decide +kernel, by decide +kernel, by decide +kernel, by decide +kernel⟩

/-- The premises of CapsAndThrottlingComplete, clauses 1, 2, 2, 3, 4, 5, 6, 7, 9. -/
theorem test_premises_of_caps_and_throttling_complete :
    (tReady.running = true ∧ tReady.isReady = true) ∧
    (tReady.running = true ∧ tReady.isReady = true ∧ tReady.dieReach 15 = true) ∧
    ((tReady.wr (pwrDie 15 Reg.PWR_D_STATUS) 125829120).running = true ∧
    (tReady.wr (pwrDie 15 Reg.PWR_D_STATUS) 125829120).isReady = true ∧
    (tReady.wr (pwrDie 15 Reg.PWR_D_STATUS) 125829120).dieReach 15 = true) ∧
    (tReady.running = true ∧ (tReady.heatAt 15).stretched = false) ∧
    (((tHeat 15 ({ Heat.init with stretched := true })).heatAt 15).stretched = true) ∧
    (tReady.running = true ∧ (List.replicate (sensorsOf 21) (some 124)).length = sensorsOf 21 ∧
    (∀ x ∈ List.replicate (sensorsOf 21) (some 124), ∃ n, x = some n ∧ n < 125) ∧ 21 = 21) ∧
    (tReady.running = true ∧ (List.replicate (sensorsOf 15) (some 94)).length = sensorsOf 15 ∧ 15 ≠ 21 ∧
    (∀ x ∈ List.replicate (sensorsOf 15) (some 94), ∃ n, x = some n ∧ n < tReady.warnPoint ∧ n < tReady.criticalPoint
      ∧ n < 115) ∧ (tReady.heatAt 15).critical = false) ∧
    ((tHeat 15 ({ Heat.init with temps := [100] })).running = true ∧
    ((tHeat 15 ({ Heat.init with temps := [100] })).heatAt 15).critical = false ∧
    (tHeat 15 ({ Heat.init with temps := [100] })).throttlePoint ≤ ((tHeat 15
      ({ Heat.init with temps := [100] })).heatAt 15).hottest ∧
    (tHeat 15 ({ Heat.init with temps := [100] })).thermalLevel 15 < 15) ∧
    (tReady.running = true ∧ tReady.bootPhase ≠ 0) := by
  iterate 8 refine ⟨by decide +kernel, ?_⟩
  decide +kernel

/-- The premises of ShutdownPointTurnsTheModuleOff. -/
theorem test_premises_of_shutdown_point_turns_the_module_off :
    (tReady.running = true ∧ (some 115 :: List.replicate (sensorsOf 15 - 1) (some 20)).length = sensorsOf 15 ∧
    (∃ x ∈ some 115 :: List.replicate (sensorsOf 15 - 1) (some 20), (if 15 = 21 then 125 else 115) ≤ sensorValue x)) ∧
    (tReady.running = true ∧ (none :: List.replicate (sensorsOf 21 - 1) (some 20)).length = sensorsOf 21 ∧
    (∃ x ∈ none :: List.replicate (sensorsOf 21 - 1) (some 20), (if 21 = 21 then 125 else 115) ≤ sensorValue x)) :=
  by decide +kernel

/-- The premises of QuarterGatingCompletes, clauses 1, 2. -/
theorem test_premises_of_quarter_gating_completes :
    ((tPart tReady 15 32 (2 ^ 63) 0 0).quarterBound 63 = true) ∧
    (tReady.quarterBound 63 = false ∧ tReady.gated 63 = false ∧ ∀ e ∈ tReady.jobs, 63 ∉ e.2.placed) :=
  by decide +kernel

/-- The premises of DigitPlanesMakeTheProduct. -/
theorem test_premises_of_digit_planes_make_the_product :
    0 < 2 ∧ (∀ x ∈ [-8, 7], -2 ^ (2 * 2 - 1) ≤ x ∧ x < 2 ^ (2 * 2 - 1)) :=
  by decide +kernel

/-- The premises of StoppedPartialStaysWithinTail. -/
theorem test_premises_of_stopped_partial_stays_within_tail :
    0 < 2 ∧ 2 ≤ 2 ∧ (∀ x ∈ [-8, 7], -2 ^ (2 * 2 - 1) ≤ x ∧ x < 2 ^ (2 * 2 - 1)) :=
  by decide +kernel

/-- The premises of SkippedPlanesAreExact. -/
theorem test_premises_of_skipped_planes_are_exact :
    0 < 2 ∧ (∀ x ∈ [-2, 1], -2 ^ (2 * 2 - 1) ≤ x ∧ x < 2 ^ (2 * 2 - 1)) :=
  by decide +kernel

/-- The premises of PackedElementsReadBack, clause 1. -/
theorem test_premises_of_packed_elements_read_back :
    0 < 64 ∧ 64 ≤ 64 ∧ (∀ c ∈ [18446744073709551615, 1], c < 2 ^ 64) ∧ 0 < [18446744073709551615, 1].length :=
  by decide +kernel

/-- The premises of MatrixPassesComplete, clauses 1, 2, 2, 3, 4, 5.1, 5.2, 5.3. -/
theorem test_premises_of_matrix_passes_complete :
    (((tTile tHanded).mtxAt 8191).handed = [tHand] ∧ ((tTile tHanded).mtxAt 8191).cur = none ∧
    ((tTile tHanded).mtxAt 8191).halted = false ∧ ((tTile tHanded).mtxAt 8191).preempt = false ∧
    (tTile tHanded).outputsPending (bayOfTile 8191) tHand.layer (passDesc tHand.words).micro = false ∧
    passRefused tHand.words (8191 % 8) = false ∧
    (((tTile tHanded).mtxAt 8191).loadFinds (passDesc tHand.words) []).2 = []) ∧
    (((tRunning [0, 0, 0, 0] [0, 0, 0, 0] []).mtxAt 8191).cur = some (tPass [0, 0, 0, 0] [0, 0, 0, 0] []) ∧
    (tPass [0, 0, 0, 0] [0, 0, 0, 0] []).loaded = true ∧ 0 ∈ (tPass [0, 0, 0, 0] [0, 0, 0, 0] []).desc.active ∧
    nthN (tPass [0, 0, 0, 0] [0, 0, 0, 0] []).fed 0 < ((tPass [0, 0, 0, 0] [0, 0, 0, 0] []).desc.qrec 0).count ∧
    (((tRunning [0, 0, 0, 0] [0, 0, 0, 0] []).mtxAt 8191).preempt = false ∨ ∃ n ∈ (tPass [0, 0, 0, 0] [0, 0, 0, 0]
      []).fed, n ≠ 0) ∧
    ((tRunning [0, 0, 0, 0] [0, 0, 0, 0] []).mtxAt 8191).validRange (((tPass [0, 0, 0, 0] [0, 0, 0, 0] []).desc.qrec
      0).movAddr + nthN (tPass [0, 0, 0, 0] [0, 0, 0, 0] []).fed 0 * ((tPass [0, 0, 0, 0] [0, 0, 0, 0] []).desc.qrec
      0).movStride) (tPass [0, 0, 0, 0] [0, 0, 0, 0] []).desc.movBytes = true ∧
    ((tRunning [0, 0, 0, 0] [0, 0, 0, 0] []).mtxAt 8191).holdsVector (tPass [0, 0, 0, 0] [0, 0, 0, 0] []).desc 0
      (nthN (tPass [0, 0, 0, 0] [0, 0, 0, 0] []).fed 0) = false ∧
    (((tRunning [0, 0, 0, 0] [0, 0, 0, 0] []).mtxAt 8191).feedFinds (tPass [0, 0, 0, 0] [0, 0, 0, 0] []).desc 0 (nthN
      (tPass [0, 0, 0, 0] [0, 0, 0, 0] []).fed 0) []).2 = []) ∧
    (((tRunning [1, 0, 0, 0] [0, 0, 0, 0] [tFed]).mtxAt 8191).cur = some (tPass [1, 0, 0, 0] [0, 0, 0, 0] [tFed]) ∧
    (tPass [1, 0, 0, 0] [0, 0, 0, 0] [tFed]).loaded = true ∧
    0 ∈ (tPass [1, 0, 0, 0] [0, 0, 0, 0] [tFed]).desc.active ∧
    nthN (tPass [1, 0, 0, 0] [0, 0, 0, 0] [tFed]).fed 0 < ((tPass [1, 0, 0, 0] [0, 0, 0, 0] [tFed]).desc.qrec 0).count ∧
    (((tRunning [1, 0, 0, 0] [0, 0, 0, 0] [tFed]).mtxAt 8191).preempt = false ∨ ∃ n ∈ (tPass [1, 0, 0, 0] [0, 0, 0,
      0] [tFed]).fed, n ≠ 0) ∧
    ((tRunning [1, 0, 0, 0] [0, 0, 0, 0] [tFed]).mtxAt 8191).validRange (((tPass [1, 0, 0, 0] [0, 0, 0, 0]
      [tFed]).desc.qrec 0).movAddr + nthN (tPass [1, 0, 0, 0] [0, 0, 0, 0] [tFed]).fed 0 * ((tPass [1, 0, 0, 0] [0,
      0, 0, 0] [tFed]).desc.qrec 0).movStride) (tPass [1, 0, 0, 0] [0, 0, 0, 0] [tFed]).desc.movBytes = true ∧
    ((tRunning [1, 0, 0, 0] [0, 0, 0, 0] [tFed]).mtxAt 8191).holdsVector (tPass [1, 0, 0, 0] [0, 0, 0, 0]
      [tFed]).desc 0 (nthN (tPass [1, 0, 0, 0] [0, 0, 0, 0] [tFed]).fed 0) = false ∧
    (((tRunning [1, 0, 0, 0] [0, 0, 0, 0] [tFed]).mtxAt 8191).feedFinds (tPass [1, 0, 0, 0] [0, 0, 0, 0] [tFed]).desc
      0 (nthN (tPass [1, 0, 0, 0] [0, 0, 0, 0] [tFed]).fed 0) []).2 = []) ∧
    (((tRunning [1, 0, 0, 0] [0, 0, 0, 0] [tFed]).mtxAt 8191).cur = some (tPass [1, 0, 0, 0] [0, 0, 0, 0] [tFed]) ∧
    List.find? (fun f => f.quad == 0) (tPass [1, 0, 0, 0] [0, 0, 0, 0] [tFed]).inFlight = some tFed ∧
    ((tPass [1, 0, 0, 0] [0, 0, 0, 0] [tFed]).desc.landFinds 0 tFed.vec []).2 = [] ∧
    (∃ i ∈ (tPass [1, 0, 0, 0] [0, 0, 0, 0] [tFed]).desc.active, nthN (setNth (tPass [1, 0, 0, 0] [0, 0, 0, 0]
      [tFed]).landed 0 (nthN (tPass [1, 0, 0, 0] [0, 0, 0, 0] [tFed]).landed 0 + 1)) i ≠ ((tPass [1, 0, 0, 0] [0, 0,
      0, 0] [tFed]).desc.qrec i).count)) ∧
    (List.find? (fun x => decide (x.next < x.desc.drainPlan.length)) ((tDrains 1 [tOut]).mtxAt 8191).drains = some
      (tDrain 1 [tOut]) ∧
    ((tDrain 1 [tOut]).desc.drainFinds ((tDrain 1 [tOut]).desc.drainPlan.getD (tDrain 1 [tOut]).next (0, 0)).1
      ((tDrain 1 [tOut]).desc.drainPlan.getD (tDrain 1 [tOut]).next (0, 0)).2 []).2 = []) ∧
    (((tDrains 1 [tOut]).mtxAt 8191).drains = [tDrain 1 [tOut]] ∧ (tDrain 1 [tOut]).offered = [tOut] ∧
    false = (([] : List OutRecord).isEmpty && (tDrain 1 [tOut]).next == (tDrain 1 [tOut]).desc.drainPlan.length &&
      decide (10 ≤ (tDrain 1 [tOut]).desc.dst)) ∧
    (tDrains 1 [tOut]).deliver (bayOfTile 8191) (Writer.drain 8191) (tDrain 1 [tOut]).desc.dst (tDrain 1
      [tOut]).desc.dstChannel tOut.addr tOut.bytes false = none) ∧
    (((tTaking 1 [tOut]).mtxAt 8191).drains = [tDrain 1 [tOut]] ∧ (tDrain 1 [tOut]).offered = [tOut] ∧
    false = (([] : List OutRecord).isEmpty && (tDrain 1 [tOut]).next == (tDrain 1 [tOut]).desc.drainPlan.length &&
      decide (10 ≤ (tDrain 1 [tOut]).desc.dst)) ∧
    (tTaking 1 [tOut]).deliver (bayOfTile 8191) (Writer.drain 8191) (tDrain 1 [tOut]).desc.dst (tDrain 1
      [tOut]).desc.dstChannel tOut.addr tOut.bytes false = some (tTaken 1 [tOut]) ∧
    (([] : List Nat) ≠ [] ∨ (tDrain 1 [tOut]).next ≠ (tDrain 1 [tOut]).desc.drainPlan.length)) ∧
    (((tTaking 2 [tOut]).mtxAt 8191).drains = [tDrain 2 [tOut]] ∧ (tDrain 2 [tOut]).offered = [tOut] ∧
    false = (([] : List OutRecord).isEmpty && (tDrain 2 [tOut]).next == (tDrain 2 [tOut]).desc.drainPlan.length &&
      decide (10 ≤ (tDrain 2 [tOut]).desc.dst)) ∧
    (tTaking 2 [tOut]).deliver (bayOfTile 8191) (Writer.drain 8191) (tDrain 2 [tOut]).desc.dst (tDrain 2
      [tOut]).desc.dstChannel tOut.addr tOut.bytes false = some (tTaken 2 [tOut]) ∧ ([] : List Nat) = [] ∧
    (tDrain 2 [tOut]).next = (tDrain 2 [tOut]).desc.drainPlan.length ∧ ((tTaken 2 [tOut]).mtxAt 8191).cur = none) := by
  iterate 7 refine ⟨by decide +kernel, ?_⟩
  decide +kernel

/-- The premises of AccumulatorEntriesTakeContributions. -/
theorem test_premises_of_accumulator_entries_take_contributions :
    tDesc.entry tFed1.quad tFed1.vec < 512 :=
  by decide +kernel

/-- The premises of AbandonedPassesHaltTheirTile, clauses 1, 1, 2, 3. -/
theorem test_premises_of_abandoned_passes_halt_their_tile :
    (((tDrains 1 [tOut]).mtxAt 8191).oldest = some (7, 0, 2)) ∧
    (((tRunning [1, 0, 0, 0] [0, 0, 0, 0] [tFed]).mtxAt 8191).oldest = some (7, 0, 1)) ∧
    (((tTile tHanded).mtxAt 8191).oldest = none) ∧
    (((tRunning [1, 0, 0, 0] [0, 0, 0, 0] [tFed]).mtxAt 8191).oldest = some (7, 0, 1)) :=
  by decide +kernel

/-- The premises of CreditsAndBlocksComplete, clauses 1.1, 1.2, 1.2, 2, 2, 4, 3. -/
theorem test_premises_of_credits_and_blocks_complete :
    (((∃ x, Writer.drain 8191 = Writer.drain x) ∨ ∃ x, Writer.drain 8191 = Writer.send x) ∧
    (1, 0) ∈ (tAsk 1).asks 1023 (Writer.drain 8191) ∧ 1 = 1 ∧ ((tAsk 1).vecAt 1023).block 0 = VecBlock.free) ∧
    (((∃ x, Writer.drain 8191 = Writer.drain x) ∨ ∃ x, Writer.drain 8191 = Writer.send x) ∧
    (2, 0) ∈ (tAsk 2).asks 1023 (Writer.drain 8191) ∧ 2 ≤ 2 ∧ 2 ≤ 9 ∧
    ((tAsk 2).mtxAt (1023 * 8 + (2 - 2))).block 0 = BufBlock.free) ∧
    (((∃ x, Writer.drain 8191 = Writer.drain x) ∨ ∃ x, Writer.drain 8191 = Writer.send x) ∧
    (9, 0) ∈ (tAsk 9).asks 1023 (Writer.drain 8191) ∧ 2 ≤ 9 ∧ 9 ≤ 9 ∧
    ((tAsk 9).mtxAt (1023 * 8 + (9 - 2))).block 0 = BufBlock.free) ∧
    ((1, 0) ∈ (tFetch tRunChan).asks 1023 (Writer.stream 1023 15) ∧ (tFetch tRunChan).stagingTurn 1023 15 = true ∧
    ((tFetch tRunChan).vecAt 1023).block 0 = VecBlock.free ∧
    ((tFetch tRunChan).chanAt 1023 15).desc.floor ≤ ((tFetch tRunChan).chanAt 1023 15).heldCount) ∧
    ((1, 0) ∈ (tFetch tFloorChan).asks 1023 (Writer.stream 1023 15) ∧ (tFetch tFloorChan).stagingTurn 1023 15 = true ∧
    ((tFetch tFloorChan).vecAt 1023).block 0 = VecBlock.free ∧
    ((tFetch tFloorChan).chanAt 1023 15).heldCount < ((tFetch tFloorChan).chanAt 1023 15).desc.floor) ∧
    ((tDone.chanAt 1023 15).doneWith 0 = true ∧ (tDone.chanAt 1023 15).desc.peer = 1 ∧
    (tDone.chanAt 1023 15).desc.kind = 0 ∧ (tDone.vecAt 1023).block 0 = VecBlock.filling (Writer.stream 1023 15)) ∧
    (((∃ x, Writer.drain 8191 = Writer.drain x) ∨ ∃ x, Writer.drain 8191 = Writer.send x) ∧
    (∃ k, (10 + 3, k) ∈ tAskPort.asks 1023 (Writer.drain 8191)) ∧ tAskPort.portOpen 1023 3 = true ∧
    0 < (tAskPort.portAt 1023 3).credits ∧ tAskPort.portTurn 1023 3 = some (Writer.drain 8191) ∧
    List.find? (fun n => !(tAskPort.portAt 1023 3).blocks.any fun g => g.num == n) (List.range 4) = some 0) :=
  ⟨⟨Or.inl ⟨_, rfl⟩, by decide +kernel⟩, ⟨Or.inl ⟨_, rfl⟩, by decide +kernel⟩, ⟨Or.inl ⟨_, rfl⟩, by decide +kernel⟩,
  by decide +kernel, by decide +kernel, by decide +kernel, ⟨Or.inl ⟨_, rfl⟩, ⟨0, by decide +kernel⟩, by decide +kernel⟩⟩

/-- The premises of PreemptionReachesEveryBay. -/
theorem test_premises_of_preemption_reaches_every_bay :
    (tJobs.jobAt 5 = some (tJob JobPhase.running) ∧ (tJob JobPhase.running).phase = JobPhase.running ∧
    (∀ b ∈ (tJob JobPhase.running).bays, ∀ c < 16, (tJobs.chanAt b c).fault = none) ∧
    1023 ∈ (tJob JobPhase.running).bays ∧ (tJobs.vecAt 1023).active = false) ∧
    (tMid.jobAt 5 = some (tJob JobPhase.running) ∧ (tJob JobPhase.running).phase = JobPhase.running ∧
    (∀ b ∈ (tJob JobPhase.running).bays, ∀ c < 16, (tMid.chanAt b c).fault = none) ∧
    1023 ∈ (tJob JobPhase.running).bays ∧ (tMid.vecAt 1023).active = true ∧ (tMid.vecAt 1023).ran ≠ []) :=
  by decide +kernel

/-- The premises of VectorArithmetic, clauses 1, 2, 3, 4, 5, 9, 6, 8, 7. -/
theorem test_premises_of_vector_arithmetic :
    (pkOp (tPk 1 24640 0 0 0 0).toNat = 1) ∧
    (pkOp (tPk 2 24640 0 0 0 0).toNat = 2) ∧
    (pkOp (tPk 3 24640 0 0 0 0).toNat = 3) ∧
    (pkOp (tPk 4 24640 0 0 0 0).toNat = 4) ∧
    (pkOp (tPk 12 24640 0 0 0 0).toNat = 12) ∧
    (pkOp (tPk 32 24640 0 0 0 0).toNat = 32) ∧
    ((18 = 17 ∧ -63 = (tTileVec (tPk 18 24640 0 0 0 0)).aForward 0 (pkDst (tPk 18 24640 0 0 0 0).toNat % 2) + lo16
      ((tTileVec (tPk 18 24640 0 0 0 0)).dAt 0 (pkSa (tPk 18 24640 0 0 0 0).toNat)) * lo16 ((tTileVec (tPk 18 24640 0
      0 0 0)).dAt 0 (pkSb (tPk 18 24640 0 0 0 0).toNat)) ∨ 18 = 18 ∧ -63 = (tTileVec (tPk 18 24640 0 0 0 0)).aForward
      0 (pkDst (tPk 18 24640 0 0 0 0).toNat % 2) - lo16 ((tTileVec (tPk 18 24640 0 0 0 0)).dAt 0 (pkSa (tPk 18 24640
      0 0 0 0).toNat)) * lo16 ((tTileVec (tPk 18 24640 0 0 0 0)).dAt 0 (pkSb (tPk 18 24640 0 0 0 0).toNat))) ∧
    pkOp (tPk 18 24640 0 0 0 0).toNat = 18) ∧
    (pkOp (tPk 25 24576 0 0 0 0).toNat = 25) ∧
    (((pkImm (tPk 23 24576 0 0 0 0).toNat : Nat) : Int) + (tTileVec (tPk 23 24576 0 0 0 0)).beAt 0 = (0 : Nat) ∧
    pkOp (tPk 23 24576 0 0 0 0).toNat = 23 ∧ pkSb (tPk 23 24576 0 0 0 0).toNat = 0 ∧
    ((tTileVec (tPk 23 24576 0 0 0 0)).computeLane (tPk 23 24576 0 0 0 0).toNat 0 0).sats = 0) :=
  by decide +kernel

/-- The premises of MemoryAndControlSlotsComplete, clauses 1.1, 1.1, 1.2.1, 1.2.2, 2.1, 2.1, 2.2, 2.3, 2.4.1, 2.4.2, 2.5, 2.6.1, 2.6.2, 2.7.1, 2.7.2, 2.8, 2.9, 2.10, 2.11. -/
theorem test_premises_of_memory_and_control_slots_complete :
    ((readFinds 8 [] [[8 * ((tVec (tPk 0 0 0 2175 0 0)).vecAt 1023).pc]]).2 = none ∧
    (tVec (tPk 0 0 0 2175 0 0)).slotReady 1023 (memSlot true) ∧
    (msOp (memField true ((tVec (tPk 0 0 0 2175 0 0)).vecAt 1023).packet) = 1 ∨ msOp (memField true ((tVec (tPk 0 0 0
      2175 0 0)).vecAt 1023).packet) = 3) ∧
    (readFinds 4 [] [((tVec (tPk 0 0 0 2175 0 0)).vecAt 1023).accessWords true (memField true ((tVec (tPk 0 0 0 2175
      0 0)).vecAt 1023).packet)]).2 = none) ∧
    ((readFinds 8 [] [[8 * ((tRan (tPk 0 0 2049 0 0 0) [Slot.compute]).vecAt 1023).pc]]).2 = none ∧
    (tRan (tPk 0 0 2049 0 0 0) [Slot.compute]).slotReady 1023 (memSlot false) ∧
    (msOp (memField false ((tRan (tPk 0 0 2049 0 0 0) [Slot.compute]).vecAt 1023).packet) = 1 ∨ msOp (memField false
      ((tRan (tPk 0 0 2049 0 0 0) [Slot.compute]).vecAt 1023).packet) = 3) ∧
    (readFinds 4 [] [((tRan (tPk 0 0 2049 0 0 0) [Slot.compute]).vecAt 1023).accessWords false (memField false ((tRan
      (tPk 0 0 2049 0 0 0) [Slot.compute]).vecAt 1023).packet)]).2 = none) ∧
    ((readFinds 8 [] [[8 * ((tVec (tPk 0 0 0 4096 0 0)).vecAt 1023).pc]]).2 = none ∧
    (tVec (tPk 0 0 0 4096 0 0)).slotReady 1023 (memSlot true) ∧
    msOp (memField true ((tVec (tPk 0 0 0 4096 0 0)).vecAt 1023).packet) = 2 ∧
    (∀ k ∈ ((tVec (tPk 0 0 0 4096 0 0)).vecAt 1023).accessBlocks true (memField true ((tVec (tPk 0 0 0 4096 0
      0)).vecAt 1023).packet), ((tVec (tPk 0 0 0 4096 0 0)).vecAt 1023).block k = VecBlock.held ∨ ((tVec (tPk 0 0 0
      4096 0 0)).vecAt 1023).block k = VecBlock.valid)) ∧
    ((readFinds 8 [] [[8 * ((tVec (tPk 0 0 4096 0 0 0)).vecAt 1023).pc]]).2 = none ∧
    (tVec (tPk 0 0 4096 0 0 0)).slotReady 1023 (memSlot false) ∧
    msOp (memField false ((tVec (tPk 0 0 4096 0 0 0)).vecAt 1023).packet) = 2 ∧
    (∀ k ∈ ((tVec (tPk 0 0 4096 0 0 0)).vecAt 1023).accessBlocks false (memField false ((tVec (tPk 0 0 4096 0 0
      0)).vecAt 1023).packet), ((tVec (tPk 0 0 4096 0 0 0)).vecAt 1023).block k = VecBlock.held ∨ ((tVec (tPk 0 0
      4096 0 0 0)).vecAt 1023).block k = VecBlock.valid)) ∧
    ((readFinds 8 [] [[8 * ((tVec (tPk 127 65535 0 0 1 3)).vecAt 1023).pc]]).2 = none ∧
    (tVec (tPk 127 65535 0 0 1 3)).slotReady 1023 Slot.control ∧
    pkCtl ((tVec (tPk 127 65535 0 0 1 3)).vecAt 1023).packet = 1) ∧
    ((readFinds 8 [] [[8 * ((tVec (tPk 127 65536 0 0 1 3)).vecAt 1023).pc]]).2 = none ∧
    (tVec (tPk 127 65536 0 0 1 3)).slotReady 1023 Slot.control ∧
    pkCtl ((tVec (tPk 127 65536 0 0 1 3)).vecAt 1023).packet = 1) ∧
    ((readFinds 8 [] [[8 * ((tVec (tPk 0 0 0 0 2 3)).vecAt 1023).pc]]).2 = none ∧
    (tVec (tPk 0 0 0 0 2 3)).slotReady 1023 Slot.control ∧ pkCtl ((tVec (tPk 0 0 0 0 2 3)).vecAt 1023).packet = 2) ∧
    ((readFinds 8 [] [[8 * ((tVecOf
      ({ tTileVec (tPk 0 0 0 0 3 0) with reps := [{ first := 0, last := 2, runs := 5 }] })).vecAt 1023).pc]]).2 = none ∧
    (tVecOf ({ tTileVec (tPk 0 0 0 0 3 0) with reps := [{ first := 0, last := 2, runs := 5 }] })).slotReady 1023
      Slot.control ∧
    pkCtl ((tVecOf ({ tTileVec (tPk 0 0 0 0 3 0) with reps := [{ first := 0, last := 2, runs := 5 }] })).vecAt
      1023).packet = 3 ∧
    ((tVecOf ({ tTileVec (tPk 0 0 0 0 3 0) with reps := [{ first := 0, last := 2, runs := 5 }] })).vecAt 1023).reps =
      [{ first := 0, last := 2, runs := 5 }]) ∧
    ((readFinds 8 [] [[8 * ((tVec (tPk 0 0 0 0 4 127)).vecAt 1023).pc]]).2 = none ∧
    (tVec (tPk 0 0 0 0 4 127)).slotReady 1023 Slot.control ∧
    pkCtl ((tVec (tPk 0 0 0 0 4 127)).vecAt 1023).packet = 4 ∧
    (∀ k ∈ waitBlocks (pkArg ((tVec (tPk 0 0 0 0 4 127)).vecAt 1023).packet), ((tVec (tPk 0 0 0 0 4 127)).vecAt
      1023).block k = VecBlock.valid)) ∧
    ((readFinds 8 [] [[8 * ((tVec (tPk 0 0 0 0 4 896)).vecAt 1023).pc]]).2 = none ∧
    (tVec (tPk 0 0 0 0 4 896)).slotReady 1023 Slot.control ∧
    pkCtl ((tVec (tPk 0 0 0 0 4 896)).vecAt 1023).packet = 4 ∧
    (∃ k ∈ waitBlocks (pkArg ((tVec (tPk 0 0 0 0 4 896)).vecAt 1023).packet), ((tVec (tPk 0 0 0 0 4 896)).vecAt
      1023).block k ≠ VecBlock.valid)) ∧
    ((readFinds 8 [] [[8 * ((tVec (tPk 0 0 0 0 5 127)).vecAt 1023).pc]]).2 = none ∧
    (tVec (tPk 0 0 0 0 5 127)).slotReady 1023 Slot.control ∧ pkCtl ((tVec (tPk 0 0 0 0 5 127)).vecAt 1023).packet = 5) ∧
    ((readFinds 8 [] [[8 * ((tVecOf (tSending (tPk 0 0 0 0 6 15) 3)).vecAt 1023).pc]]).2 = none ∧
    (tVecOf (tSending (tPk 0 0 0 0 6 15) 3)).slotReady 1023 Slot.control ∧
    pkCtl ((tVecOf (tSending (tPk 0 0 0 0 6 15) 3)).vecAt 1023).packet = 6 ∧
    ((tVecOf (tSending (tPk 0 0 0 0 6 15) 3)).vecAt 1023).sends.length ≠ 4 ∧
    sendRefused (((tVecOf (tSending (tPk 0 0 0 0 6 15) 3)).vecAt 1023).sendPreset (pkArg ((tVecOf (tSending (tPk 0 0
      0 0 6 15) 3)).vecAt 1023).packet % 16)) = false ∧
    (∀ k ∈ sendBlocks (((tVecOf (tSending (tPk 0 0 0 0 6 15) 3)).vecAt 1023).sendPreset (pkArg ((tVecOf (tSending
      (tPk 0 0 0 0 6 15) 3)).vecAt 1023).packet % 16)), ((tVecOf (tSending (tPk 0 0 0 0 6 15) 3)).vecAt 1023).block k
      = VecBlock.held ∨ ((tVecOf (tSending (tPk 0 0 0 0 6 15) 3)).vecAt 1023).block k = VecBlock.valid)) ∧
    ((readFinds 8 [] [[8 * ((tVecOf (tSending (tPk 0 0 0 0 6 15) 4)).vecAt 1023).pc]]).2 = none ∧
    (tVecOf (tSending (tPk 0 0 0 0 6 15) 4)).slotReady 1023 Slot.control ∧
    pkCtl ((tVecOf (tSending (tPk 0 0 0 0 6 15) 4)).vecAt 1023).packet = 6 ∧
    ((tVecOf (tSending (tPk 0 0 0 0 6 15) 4)).vecAt 1023).sends.length = 4) ∧
    ((readFinds 8 [] [[8 * ((tVecOf (tSending (tPk 0 0 0 0 7 0) 0)).vecAt 1023).pc]]).2 = none ∧
    (tVecOf (tSending (tPk 0 0 0 0 7 0) 0)).slotReady 1023 Slot.control ∧
    pkCtl ((tVecOf (tSending (tPk 0 0 0 0 7 0) 0)).vecAt 1023).packet = 7 ∧
    ((tVecOf (tSending (tPk 0 0 0 0 7 0) 0)).vecAt 1023).sends = []) ∧
    ((readFinds 8 [] [[8 * ((tVecOf (tSending (tPk 0 0 0 0 7 0) 1)).vecAt 1023).pc]]).2 = none ∧
    (tVecOf (tSending (tPk 0 0 0 0 7 0) 1)).slotReady 1023 Slot.control ∧
    pkCtl ((tVecOf (tSending (tPk 0 0 0 0 7 0) 1)).vecAt 1023).packet = 7 ∧
    ((tVecOf (tSending (tPk 0 0 0 0 7 0) 1)).vecAt 1023).sends ≠ []) ∧
    ((readFinds 8 [] [[8 * ((tVec (tPk 0 0 0 0 8 511)).vecAt 1023).pc]]).2 = none ∧
    (tVec (tPk 0 0 0 0 8 511)).slotReady 1023 Slot.control ∧
    pkCtl ((tVec (tPk 0 0 0 0 8 511)).vecAt 1023).packet = 8 ∧
    (genBitrev (tget (fun x => 0) ((tVec (tPk 0 0 0 0 8 511)).vecAt 1023).presets (bitsOf (pkArg ((tVec (tPk 0 0 0 0
      8 511)).vecAt 1023).packet) 5 0)).toNat = false ∨ isPow2 (genMod (tget (fun x => 0) ((tVec (tPk 0 0 0 0 8
      511)).vecAt 1023).presets (bitsOf (pkArg ((tVec (tPk 0 0 0 0 8 511)).vecAt 1023).packet) 5 0)).toNat) = true)) ∧
    ((readFinds 8 [] [[8 * ((tVec (tPk 0 0 0 0 9 1)).vecAt 1023).pc]]).2 = none ∧
    (tVec (tPk 0 0 0 0 9 1)).slotReady 1023 Slot.control ∧ pkCtl ((tVec (tPk 0 0 0 0 9 1)).vecAt 1023).packet = 9 ∧
    (readFinds 4 [] (ldtWords (((tVec (tPk 0 0 0 0 9 1)).vecAt 1023).ldtRow ((tVec (tPk 0 0 0 0 9 1)).vecAt
      1023).packet))).2 = none) ∧
    ((readFinds 8 [] [[8 * (tEvt.vecAt 1023).pc]]).2 = none ∧ tEvt.slotReady 1023 Slot.control ∧
    pkCtl (tEvt.vecAt 1023).packet = 10 ∧ (tEvt.bayAt 1023).job = some 5 ∧
    tEvt.jobAt 5 = some (tJob JobPhase.running) ∧
    (∃ y ∈ packetSlots (tEvt.vecAt 1023).packet, y ≠ Slot.control ∧ y ∉ (tEvt.vecAt 1023).ran)) ∧
    ((readFinds 8 [] [[8 * ((tVec (tPk 0 0 0 0 11 0)).vecAt 1023).pc]]).2 = none ∧
    (tVec (tPk 0 0 0 0 11 0)).slotReady 1023 Slot.control ∧ pkCtl ((tVec (tPk 0 0 0 0 11 0)).vecAt 1023).packet = 11) := by
  iterate 18 refine ⟨by unfold State.slotReady; decide +kernel, ?_⟩
  exact by unfold State.slotReady; decide +kernel

/-- The premises of SendsAndVectorResetComplete, clauses 1.1, 1.2.1, 1.2.2, 2. -/
theorem test_premises_of_sends_and_vector_reset_complete :
    ((tSends.vecAt 1023).sends = [tRow] ∧ (tSends.vecAt 1023).offering = true ∧
    ((tSends.vecAt 1023).block ((spSrc ((tSends.vecAt 1023).sendPreset tRow.preset) + tRow.accepted) / 32) =
      VecBlock.held ∨ (tSends.vecAt 1023).block ((spSrc ((tSends.vecAt 1023).sendPreset tRow.preset) + tRow.accepted)
      / 32) = VecBlock.valid)) ∧
    ((tSends2.vecAt 1023).sends = [tRow] ∧ (tSends2.vecAt 1023).offering = true ∧
    ((tSends2.vecAt 1023).block ((spSrc ((tSends2.vecAt 1023).sendPreset tRow.preset) + tRow.accepted) / 32) =
      VecBlock.held ∨ (tSends2.vecAt 1023).block ((spSrc ((tSends2.vecAt 1023).sendPreset tRow.preset) +
      tRow.accepted) / 32) = VecBlock.valid) ∧
    readFinds 4 [] [List.map (fun i => (spSrc ((tSends2.vecAt 1023).sendPreset tRow.preset) + tRow.accepted) * 128 +
      4 * i) (List.range (spWords ((tSends2.vecAt 1023).sendPreset tRow.preset)))] = (0, none) ∧
    (tSends2.vecCorrected 1023 0).deliver 1023 (Writer.send 1023) (spDst ((tSends2.vecAt 1023).sendPreset
      tRow.preset)) (spChannel ((tSends2.vecAt 1023).sendPreset tRow.preset)) (spAddr ((tSends2.vecAt
      1023).sendPreset tRow.preset) + tRow.accepted * spStride ((tSends2.vecAt 1023).sendPreset tRow.preset))
      (List.map some ((tSends2.vecAt 1023).sendRow ((tSends2.vecAt 1023).sendPreset tRow.preset) tRow.accepted))
      (decide (tRow.accepted + 1 = spRows ((tSends2.vecAt 1023).sendPreset tRow.preset)) && decide (10 ≤ spDst
      ((tSends2.vecAt 1023).sendPreset tRow.preset))) = some tSent2 ∧
    tRow.accepted + 1 ≠ spRows ((tSends2.vecAt 1023).sendPreset tRow.preset)) ∧
    ((tSends.vecAt 1023).sends = [tRow] ∧ (tSends.vecAt 1023).offering = true ∧
    ((tSends.vecAt 1023).block ((spSrc ((tSends.vecAt 1023).sendPreset tRow.preset) + tRow.accepted) / 32) =
      VecBlock.held ∨ (tSends.vecAt 1023).block ((spSrc ((tSends.vecAt 1023).sendPreset tRow.preset) + tRow.accepted)
      / 32) = VecBlock.valid) ∧
    readFinds 4 [] [List.map (fun i => (spSrc ((tSends.vecAt 1023).sendPreset tRow.preset) + tRow.accepted) * 128 + 4
      * i) (List.range (spWords ((tSends.vecAt 1023).sendPreset tRow.preset)))] = (0, none) ∧
    (tSends.vecCorrected 1023 0).deliver 1023 (Writer.send 1023) (spDst ((tSends.vecAt 1023).sendPreset tRow.preset))
      (spChannel ((tSends.vecAt 1023).sendPreset tRow.preset)) (spAddr ((tSends.vecAt 1023).sendPreset tRow.preset) +
      tRow.accepted * spStride ((tSends.vecAt 1023).sendPreset tRow.preset)) (List.map some ((tSends.vecAt
      1023).sendRow ((tSends.vecAt 1023).sendPreset tRow.preset) tRow.accepted)) (decide (tRow.accepted + 1 = spRows
      ((tSends.vecAt 1023).sendPreset tRow.preset)) && decide (10 ≤ spDst ((tSends.vecAt 1023).sendPreset
      tRow.preset))) = some tSent ∧ tRow.accepted + 1 = spRows ((tSends.vecAt 1023).sendPreset tRow.preset)) ∧
    ((tSends.vecAt 1023).sends ≠ [] ∧ (tSends.vecAt 1023).offering = true) :=
  ⟨by decide +kernel, by decide +kernel, by decide +kernel, by decide +kernel⟩

/-- The premises of StreamCommandsComplete, clauses 1.1.1, 1.1.2, 1.2, 2.1.1, 2.1.2, 2.2, 2.3.1, 2.3.2.1, 2.3.2.2. -/
theorem test_premises_of_stream_commands_complete :
    ((tChannel tLive).fetched 1023 2 tFind tFind 5 tPinJob tStreamCmd (tFetched (tChannel tLive)) ∧
    96 = (if tPinJob.hdr.ver = 2 then 64 else 96) ∧ offOk tPinJob tStreamCmd 32 96 = true ∧
    (tFetched (tChannel tLive)).fetchDesc 1023 tPinJob (cmdDesc tStreamCmd) 96 tFind = (tDescAns 2, tDescribed
      (tChannel tLive)) ∧ (tDescAns 2).status = 0 ∧ streamOf (tDescAns 2).data = some (tStreamD 2) ∧
    (tStreamD 2).ver = tPinJob.hdr.ver ∧ (tStreamD 2).refused = false ∧
    ((tStreamD 2).layer = ((tDescribed (tChannel tLive)).bayAt 1023).layer ∨ (tStreamD 2).weightAhead = true ∧
      (tStreamD 2).layer = ((tDescribed (tChannel tLive)).bayAt 1023).layer + 1) ∧
    ((tDescribed (tChannel tLive)).chanAt 1023 (cmdUnit tStreamCmd)).live = true) ∧
    ((tStreamJob 2).fetched 1023 2 tFind tFind 5 tPinJob tStreamCmd (tFetched (tStreamJob 2)) ∧
    96 = (if tPinJob.hdr.ver = 2 then 64 else 96) ∧ offOk tPinJob tStreamCmd 32 96 = true ∧
    (tFetched (tStreamJob 2)).fetchDesc 1023 tPinJob (cmdDesc tStreamCmd) 96 tFind = (tDescAns 2, tDescribed
      (tStreamJob 2)) ∧ (tDescAns 2).status = 0 ∧ streamOf (tDescAns 2).data = some (tStreamD 2) ∧
    (tStreamD 2).ver = tPinJob.hdr.ver ∧ (tStreamD 2).refused = false ∧
    ((tStreamD 2).layer = ((tDescribed (tStreamJob 2)).bayAt 1023).layer ∨ (tStreamD 2).weightAhead = true ∧
      (tStreamD 2).layer = ((tDescribed (tStreamJob 2)).bayAt 1023).layer + 1) ∧
    ((tDescribed (tStreamJob 2)).chanAt 1023 (cmdUnit tStreamCmd)).live = false) ∧
    ((tStreamJob 1).fetched 1023 2 tFind tFind 5 tPinJob tStreamCmd (tFetched (tStreamJob 1)) ∧
    96 = (if tPinJob.hdr.ver = 2 then 64 else 96) ∧ offOk tPinJob tStreamCmd 32 96 = true ∧
    (tFetched (tStreamJob 1)).fetchDesc 1023 tPinJob (cmdDesc tStreamCmd) 96 tFind = (tDescAns 1, tDescribed
      (tStreamJob 1)) ∧ (tDescAns 1).status = 0 ∧ streamOf (tDescAns 1).data = some (tStreamD 1) ∧
    (tStreamD 1).refused = true) ∧
    (((tWaiting false).chanAt 1023 15).state = ChanState.waitBarrier ∧
    ((tWaiting false).chanAt 1023 15).stopReq = false ∧
    (tWaiting false).floors 1023 + (tWaiting false).poolTaken 1023 + ((tWaiting false).chanAt 1023 15).desc.floor ≤ 64 ∧
    ((tWaiting false).chanAt 1023 15).desc.weightAhead = false ∧
    (((tWaiting false).chanAt 1023 15).desc.kind = 1 ∨ (tWaiting false).outputsPending 1023 ((tWaiting false).chanAt
      1023 15).desc.layer ((tWaiting false).chanAt 1023 15).desc.bubble = false)) ∧
    (((tWaiting true).chanAt 1023 15).state = ChanState.waitBarrier ∧
    ((tWaiting true).chanAt 1023 15).stopReq = false ∧
    (tWaiting true).floors 1023 + (tWaiting true).poolTaken 1023 + ((tWaiting true).chanAt 1023 15).desc.floor ≤ 64 ∧
    ((tWaiting true).chanAt 1023 15).desc.weightAhead = true ∧
    (tWaiting true).weightAheadOpen 1023 ((tWaiting true).chanAt 1023 15).desc.layer = true) ∧
    (((tChannel tLive).chanAt 1023 15).state ≠ ChanState.paused) ∧
    ((tPaused.chanAt 1023 15).state = ChanState.paused) ∧
    ((tPaused.chanAt 1023 15).state = ChanState.paused) ∧
    (((tPaused.wr (strReg 1023 Reg.STR_PAUSE_LIMIT) 1).chanAt 1023 15).state = ChanState.paused ∧
    (tPaused.wr (strReg 1023 Reg.STR_PAUSE_LIMIT) 1).rd (strReg 1023 Reg.STR_PAUSE_LIMIT) ≠ 0) := by
  iterate 3 refine ⟨⟨by rw [fetched_iff]; decide +kernel, by decide +kernel⟩, ?_⟩
  iterate 5 refine ⟨by decide +kernel, ?_⟩
  decide +kernel

/-- The premises of StreamTransfersComplete, clauses 1.1.1, 1.1.2, 1.2, 3.1, 3.2, 4.1, 4.2.2, 4.3, 5, 6, 2, 7, 4.2.1. -/
theorem test_premises_of_stream_transfers_complete :
    ((tCached.chanAt 1023 15).started = true ∧ (tCached.chanAt 1023 15).state ≠ ChanState.paused ∧
    (tCached.chanAt 1023 15).walk = none ∧ (tCached.chanAt 1023 15).flying.length < 128 ∧
    tCached.engineFlying 1023 < 1024 ∧ (tCached.chanAt 1023 15).fault = none ∧
    (tCached.chanAt 1023 15).stopReq = false ∧ (tCached.chanAt 1023 15).todo = [tReq 0 false none none] ∧
    (tReq 0 false none none).addr / 2 ^ 48 = 0 ∧
    tlbFind (tCached.bayAt 1023).tlb (tCached.bayPart 1023) (tReq 0 false none none).addr = some (3, tLeaf) ∧
    leafTarget 3 tLeaf (tReq 0 false none none).addr (tReq 0 false none none).write = Xlat.target (Target.device
      1099511627776)) ∧
    (((tRunD ({ tLive with todo := [tReq 0 false none none] })).chanAt 1023 15).started = true ∧
    ((tRunD ({ tLive with todo := [tReq 0 false none none] })).chanAt 1023 15).state ≠ ChanState.paused ∧
    ((tRunD ({ tLive with todo := [tReq 0 false none none] })).chanAt 1023 15).walk = none ∧
    ((tRunD ({ tLive with todo := [tReq 0 false none none] })).chanAt 1023 15).flying.length < 128 ∧
    (tRunD ({ tLive with todo := [tReq 0 false none none] })).engineFlying 1023 < 1024 ∧
    ((tRunD ({ tLive with todo := [tReq 0 false none none] })).chanAt 1023 15).fault = none ∧
    ((tRunD ({ tLive with todo := [tReq 0 false none none] })).chanAt 1023 15).stopReq = false ∧
    ((tRunD ({ tLive with todo := [tReq 0 false none none] })).chanAt 1023 15).todo = [tReq 0 false none none] ∧
    (tReq 0 false none none).addr / 2 ^ 48 = 0 ∧
    tlbFind ((tRunD ({ tLive with todo := [tReq 0 false none none] })).bayAt 1023).tlb ((tRunD
      ({ tLive with todo := [tReq 0 false none none] })).bayPart 1023) (tReq 0 false none none).addr = none) ∧
    (((tRunD tLive).chanAt 1023 15).started = true ∧ ((tRunD tLive).chanAt 1023 15).state ≠ ChanState.paused ∧
    ((tRunD tLive).chanAt 1023 15).walk = none ∧ ((tRunD tLive).chanAt 1023 15).flying.length < 128 ∧
    (tRunD tLive).engineFlying 1023 < 1024 ∧ ((tRunD tLive).chanAt 1023 15).fault = none ∧
    ((tRunD tLive).chanAt 1023 15).stopReq = false ∧ ((tRunD tLive).chanAt 1023 15).todo = [] ∧
    ((tRunD tLive).chanAt 1023 15).finished = false ∧
    ((tRunD tLive).setChan 1023 15 ((tRunD tLive).chanAt 1023 15)).formUnit 1023 15 = none ∧
    ((tRunD tLive).setChan 1023 15 ((tRunD tLive).chanAt 1023 15)).lacks 1023 15 = true) ∧
    (((tWalking 0 (2 ^ 63 + 268435456)).chanAt 1023 15).walk = some (tWalk 0) ∧
    ((tWalking 0 (2 ^ 63 + 268435456)).answered (tWalk 0).entryAddr (tWalk 0).net (tWalk 0).back fun s => s.memRead
      (homeOfBay 1023) (tWalk 0).entryAddr 8 tFind) = some ((tEntryAns 0 (2 ^ 63 + 268435456)).1, (tEntryAns 0 (2 ^
      63 + 268435456)).2) ∧ (tEntryAns 0 (2 ^ 63 + 268435456)).1.status = 0 ∧
    walkStep (tWalk 0).level (bytesNat (tEntryAns 0 (2 ^ 63 + 268435456)).1.data) = WalkStep.next 1099511627776) ∧
    (((tWalking 3 tLeaf).chanAt 1023 15).walk = some (tWalk 3) ∧
    ((tWalking 3 tLeaf).answered (tWalk 3).entryAddr (tWalk 3).net (tWalk 3).back fun s => s.memRead (homeOfBay 1023)
      (tWalk 3).entryAddr 8 tFind) = some ((tEntryAns 3 tLeaf).1, (tEntryAns 3 tLeaf).2) ∧
    (tEntryAns 3 tLeaf).1.status = 0 ∧
    walkStep (tWalk 3).level (bytesNat (tEntryAns 3 tLeaf).1.data) = WalkStep.leaf tLeaf ∧
    leafTarget (tWalk 3).level tLeaf (tWalk 3).req.addr (tWalk 3).req.write = Xlat.target (Target.device 1099511627776)) ∧
    (List.find? (fun r => r.id == 8 && !r.write && r.data.isNone) (tReading.chanAt 1023 15).outstanding = none) ∧
    (List.find? (fun r => r.id == 7 && !r.write && r.data.isNone) (tReading.chanAt 1023 15).outstanding = some (tReq 7
      false (some (Target.device 1099511627776)) none) ∧
    tReading.perform 1023 (tReq 7 false (some (Target.device 1099511627776)) none) tFind = some ((tReadAns tReading
      1099511627776 128).1, (tReadAns tReading 1099511627776 128).2) ∧
    (tReq 7 false (some (Target.device 1099511627776)) none).gone = false ∧
    (tReadAns tReading 1099511627776 128).1.status = 0) ∧
    (List.find? (fun r => r.id == 7 && r.write) (tWriting.chanAt 1023 15).outstanding = some (tReq 7 true (some
      (Target.device 1099511627776)) (some (List.replicate 128 9))) ∧
    tWriting.perform 1023 (tReq 7 true (some (Target.device 1099511627776)) (some (List.replicate 128 9))) tFind =
      some (tWriteAns.1, tWriteAns.2) ∧ tWriteAns.1.status = 0 ∧
    (tReq 7 true (some (Target.device 1099511627776)) (some (List.replicate 128 9))).gone = false ∧
    (tWriteAns.2.chanAt 1023 15).fault = none) ∧
    ((tRowState.chanAt 1023 15).rows = [tRow0] ∧ (tRowState.chanAt 1023 15).deliverable = true ∧
    tRowState.deliver 1023 (chanWriter 1023 15) (tRowState.chanAt 1023 15).desc.peer (tRowState.chanAt 1023
      15).desc.peerChannel ((tRowState.chanAt 1023 15).desc.rowAddr tRow0.num) (List.map some tRow0.bytes) (decide
      (tRow0.num + 1 = (tRowState.chanAt 1023 15).desc.rows) && (tRowState.chanAt 1023 15).desc.toPort) = some
      tRowDone ∧ (tRowState.chanAt 1023 15).fault = none) ∧
    ((tArrival.chanAt 1023 15).arrivals = [Arrival.record (Writer.send 1023) tBytes false] ∧
    (∀ (v : Writer) (bs : List ℕ), ([] : List Arrival).head? ≠ some (Arrival.ends v bs))) ∧
    ((tReading.chanAt 1023 15).walk = none) ∧
    ((tEndArrival.chanAt 1023 15).arrivals = [Arrival.ends (Writer.send 1023) [0]]) ∧
    (List.find? (fun r => r.id == 7 && !r.write && r.data.isNone) (tGone.chanAt 1023 15).outstanding = some tGoneReq ∧
    tGone.perform 1023 tGoneReq tFind = some ((tReadAns tGone 1099511627776 128).1, (tReadAns tGone 1099511627776
      128).2) ∧ tGoneReq.gone = true) := by
  iterate 9 refine ⟨by decide +kernel, ?_⟩
  refine ⟨⟨by decide +kernel, (by intro v b h; cases h)⟩, ?_⟩
  iterate 2 refine ⟨by decide +kernel, ?_⟩
  decide +kernel

/-- The premises of SequencerCommandsComplete, clauses 1.1, 1.2.1, 1.2.2, 1.3, 1.3, 1.4, 1.5, 1.6, 1.7, 1.7, 2.1.1, 2.1.2, 2.2, 3. -/
theorem test_premises_of_sequencer_commands_complete :
    (tPassJob.fetched 1023 1 tFind tFind 5 tPinJob (tCmd 1 0 32 + 7 * 2 ^ 52) (tFetched tPassJob) ∧
    cmdUnit (tCmd 1 0 32 + 7 * 2 ^ 52) ≤ 7 ∧
    bitOf ((tFetched tPassJob).bayAt 1023).tiles (cmdUnit (tCmd 1 0 32 + 7 * 2 ^ 52)) = true ∧
    offOk tPinJob (tCmd 1 0 32 + 7 * 2 ^ 52) 32 96 = true ∧
    (tFetched tPassJob).imgRead (seqAgent 1023) tPinJob (cmdDesc (tCmd 1 0 32 + 7 * 2 ^ 52)) 96 tFind = (tPassAns.1,
      tPassAns.2) ∧ tPassAns.1.status = 0) ∧
    (tSection0.fetched 1023 3 tFind tFind 5 tPinJob (tCmd 3 0 32) (tFetched tSection0) ∧
    ((tFetched tSection0).bayAt 1023).vector = true ∧ cmdDesc (tCmd 3 0 32) % 8 = 0 ∧
    cmdDesc (tCmd 3 0 32) + 8 ≤ tPinJob.hdr.bytes ∧
    (tFetched tSection0).fetchDesc 1023 tPinJob (cmdDesc (tCmd 3 0 32)) 8 tFind = ((tHead tSection0).1, (tHead tSection0).2) ∧
    (tHead tSection0).1.status = 0 ∧ sectionPackets tPinJob (cmdDesc (tCmd 3 0 32)) (tHead tSection0).1.data = none) ∧
    (tSectionBusy.fetched 1023 3 tFind tFind 5 tPinJob (tCmd 3 0 32) (tFetched tSectionBusy) ∧
    ((tFetched tSectionBusy).bayAt 1023).vector = true ∧ cmdDesc (tCmd 3 0 32) % 8 = 0 ∧
    cmdDesc (tCmd 3 0 32) + 8 ≤ tPinJob.hdr.bytes ∧
    (tFetched tSectionBusy).fetchDesc 1023 tPinJob (cmdDesc (tCmd 3 0 32)) 8 tFind = ((tHead tSectionBusy).1, (tHead tSectionBusy).2) ∧
    (tHead tSectionBusy).1.status = 0 ∧ sectionPackets tPinJob (cmdDesc (tCmd 3 0 32)) (tHead tSectionBusy).1.data = some 1 ∧ ((tHead tSectionBusy).2.vecAt 1023).active = true) ∧
    (tSection.fetched 1023 3 tFind tFind 5 tPinJob (tCmd 3 0 32) (tFetched tSection) ∧
    ((tFetched tSection).bayAt 1023).vector = true ∧ cmdDesc (tCmd 3 0 32) % 8 = 0 ∧
    cmdDesc (tCmd 3 0 32) + 8 ≤ tPinJob.hdr.bytes ∧
    (tFetched tSection).fetchDesc 1023 tPinJob (cmdDesc (tCmd 3 0 32)) 8 tFind = ((tHead tSection).1, (tHead tSection).2) ∧
    (tHead tSection).1.status = 0 ∧ sectionPackets tPinJob (cmdDesc (tCmd 3 0 32)) (tHead tSection).1.data = some 1 ∧
    ((tHead tSection).2.vecAt 1023).active = false ∧
    (tHead tSection).2.loadPackets 1023 tPinJob (cmdDesc (tCmd 3 0 32)) 1 (if ((tFetched tSection).bayAt 1023).desc.isSome then tFind
      else tFind.rest) = (tLoaded.1, tLoaded.2) ∧ tLoaded.1.status = 0) ∧
    ((tBusyVec 4).fetched 1023 4 tFind tFind 5 tPinJob (tCmd 4 0 0) (tFetched (tBusyVec 4)) ∧
    ((tFetched (tBusyVec 4)).bayAt 1023).vector = true) ∧
    ((tOp 4 0).fetched 1023 4 tFind tFind 5 tPinJob (tCmd 4 0 0) (tFetched (tOp 4 0)) ∧
    ((tFetched (tOp 4 0)).bayAt 1023).vector = true) ∧
    ((tOp 5 65535).fetched 1023 5 tFind tFind 5 tPinJob (tCmd 5 65535 0) (tFetched (tOp 5 65535))) ∧
    ((tBarCmd 1023).fetched 1023 6 tFind tFind 5 (tBarJob [] []) (tCmd 6 1023 0) (tFetchedB (tBarCmd 1023)) ∧
    cmdArg (tCmd 6 1023 0) < (tBarJob [] []).hdr.barriers) ∧
    ((tOp 7 0).fetched 1023 7 tFind tFind 5 tPinJob (tCmd 7 0 0) (tFetched (tOp 7 0)) ∧
    (tFetched (tOp 7 0)).jobAt 5 = some tPinJob ∧
    (tFetched (tOp 7 0)).messageTrip (seqAgent 1023) ((tFetched (tOp 7 0)).leadAgent tPinJob) = ((tArrive (tFetched (tOp 7 0))
      tPinJob).1, (tArrive (tFetched (tOp 7 0)) tPinJob).2)) ∧
    ((tOp 15 0).fetched 1023 15 tFind tFind 5 tPinJob (tCmd 15 0 0) (tFetched (tOp 15 0))) ∧
    ((tBusyVec 15).fetched 1023 15 tFind tFind 5 tPinJob (tCmd 15 0 0) (tFetched (tBusyVec 15))) ∧
    (((tBarrier 2 [] []).bayAt 1023).job = some 5 ∧ (tBarrier 2 [] []).jobAt 5 = some (tBarJob [] []) ∧
    (tBarJob [] []).phase = JobPhase.running ∧ ((tBarrier 2 [] []).bayAt 1023).barrier = some 0 ∧
    (0, ((tBarrier 2 [] []).bayAt 1023).logical) ∉ (tBarJob [] []).arrivals ∧
    (0, ((tBarrier 2 [] []).bayAt 1023).logical) ∉ (tBarJob [] []).released ∧
    (tBarrier 2 [] []).messageTrip (seqAgent 1023) ((tBarrier 2 [] []).leadAgent (tBarJob [] [])) = (0, (tArrive (tBarrier 2 [] []) (tBarJob [] [])).2) ∧
    (tArrive (tBarrier 2 [] []) (tBarJob [] [])).2.imgRead ((tBarrier 2 [] []).leadAgent (tBarJob [] [])) (tBarJob [] []) ((tBarJob [] []).hdr.barrierOff + 4 * 0) 4 tFind = ((tCount (tBarrier 2 [] []) (tBarJob [] [])).1, (tCount (tBarrier 2 [] []) (tBarJob [] [])).2) ∧
    (tCount (tBarrier 2 [] []) (tBarJob [] [])).1.status = 0 ∧
    (List.filter (fun a => a.1 == 0) ((tBarJob [] []).arrivals ++ [(0, ((tBarrier 2 [] []).bayAt
      1023).logical)])).length < bitsOf (bytesNat (tCount (tBarrier 2 [] []) (tBarJob [] [])).1.data) 10 0) ∧
    (((tBarrier 2 [(0, 3)] []).bayAt 1023).job = some 5 ∧
    (tBarrier 2 [(0, 3)] []).jobAt 5 = some (tBarJob [(0, 3)] []) ∧ (tBarJob [(0, 3)] []).phase = JobPhase.running ∧
    ((tBarrier 2 [(0, 3)] []).bayAt 1023).barrier = some 0 ∧
    (0, ((tBarrier 2 [(0, 3)] []).bayAt 1023).logical) ∉ (tBarJob [(0, 3)] []).arrivals ∧
    (0, ((tBarrier 2 [(0, 3)] []).bayAt 1023).logical) ∉ (tBarJob [(0, 3)] []).released ∧
    (tBarrier 2 [(0, 3)] []).messageTrip (seqAgent 1023) ((tBarrier 2 [(0, 3)] []).leadAgent (tBarJob [(0, 3)] [])) = (0, (tArrive (tBarrier 2 [(0, 3)] []) (tBarJob [(0, 3)] [])).2) ∧
    (tArrive (tBarrier 2 [(0, 3)] []) (tBarJob [(0, 3)] [])).2.imgRead ((tBarrier 2 [(0, 3)] []).leadAgent (tBarJob [(0, 3)] [])) (tBarJob [(0, 3)] []) ((tBarJob [(0, 3)] []).hdr.barrierOff + 4 * 0) 4 tFind = ((tCount (tBarrier 2 [(0, 3)] []) (tBarJob [(0, 3)] [])).1, (tCount (tBarrier 2 [(0, 3)] []) (tBarJob [(0, 3)] [])).2) ∧
    (tCount (tBarrier 2 [(0, 3)] []) (tBarJob [(0, 3)] [])).1.status = 0 ∧
    bitsOf (bytesNat (tCount (tBarrier 2 [(0, 3)] []) (tBarJob [(0, 3)] [])).1.data) 10 0 ≤ (List.filter (fun a => a.1 == 0) ((tBarJob [(0, 3)] []).arrivals ++ [(0,
      ((tBarrier 2 [(0, 3)] []).bayAt 1023).logical)])).length) ∧
    (((tBarrier 2 [] [(0, 15)]).bayAt 1023).job = some 5 ∧
    (tBarrier 2 [] [(0, 15)]).jobAt 5 = some (tBarJob [] [(0, 15)]) ∧
    (tBarJob [] [(0, 15)]).phase = JobPhase.running ∧ ((tBarrier 2 [] [(0, 15)]).bayAt 1023).barrier = some 0 ∧
    (0, ((tBarrier 2 [] [(0, 15)]).bayAt 1023).logical) ∈ (tBarJob [] [(0, 15)]).released ∧
    (tBarrier 2 [] [(0, 15)]).messageTrip ((tBarrier 2 [] [(0, 15)]).leadAgent (tBarJob [] [(0, 15)])) (seqAgent 1023) = (0, (tRelease (tBarrier 2 [] [(0, 15)]) (tBarJob [] [(0, 15)])).2)) ∧
    ((tBarrier 2 [(0, 3)] []).jobAt 5 = some (tBarJob [(0, 3)] []) ∧ (tBarJob [(0, 3)] []).hdr.barrierLimit ≠ 0 ∧
    (tBarJob [(0, 3)] []).phase = JobPhase.running ∧ (∃ a ∈ (tBarJob [(0, 3)] []).arrivals, a.1 = 0)) ∧
    (((tCut (tBarrier 2 [] [])).bayAt 1023).job = some 5 ∧ (tCut (tBarrier 2 [] [])).jobAt 5 = some (tBarJob [] []) ∧ (tBarJob [] []).phase = JobPhase.running ∧ ((tCut (tBarrier 2 [] [])).bayAt 1023).barrier = some 0 ∧
    (0, ((tCut (tBarrier 2 [] [])).bayAt 1023).logical) ∉ (tBarJob [] []).arrivals ∧ (0, ((tCut (tBarrier 2 [] [])).bayAt 1023).logical) ∉ (tBarJob [] []).released ∧
    (tCut (tBarrier 2 [] [])).messageTrip (seqAgent 1023) ((tCut (tBarrier 2 [] [])).leadAgent (tBarJob [] [])) = ((tArrive (tCut (tBarrier 2 [] [])) (tBarJob [] [])).1, (tArrive (tCut (tBarrier 2 [] [])) (tBarJob [] [])).2) ∧ (tArrive (tCut (tBarrier 2 [] [])) (tBarJob [] [])).1 ≠ 0) ∧
    (((tCut (tBarrier 2 [] [(0, 15)])).bayAt 1023).job = some 5 ∧ (tCut (tBarrier 2 [] [(0, 15)])).jobAt 5 = some (tBarJob [] [(0, 15)]) ∧ (tBarJob [] [(0, 15)]).phase = JobPhase.running ∧ ((tCut (tBarrier 2 [] [(0, 15)])).bayAt 1023).barrier = some 0 ∧
    (0, ((tCut (tBarrier 2 [] [(0, 15)])).bayAt 1023).logical) ∈ (tBarJob [] [(0, 15)]).released ∧
    (tCut (tBarrier 2 [] [(0, 15)])).messageTrip ((tCut (tBarrier 2 [] [(0, 15)])).leadAgent (tBarJob [] [(0, 15)])) (seqAgent 1023) = ((tRelease (tCut (tBarrier 2 [] [(0, 15)])) (tBarJob [] [(0, 15)])).1, (tRelease (tCut (tBarrier 2 [] [(0, 15)])) (tBarJob [] [(0, 15)])).2) ∧ (tRelease (tCut (tBarrier 2 [] [(0, 15)])) (tBarJob [] [(0, 15)])).1 ≠ 0) := by
  refine ⟨⟨by rw [fetched_iff]; decide +kernel, by decide +kernel⟩, ?_⟩
  iterate 2 refine ⟨⟨by rw [fetched_iff]; decide +kernel, by decide +kernel, by decide +kernel, by decide +kernel, by simp only [tHead, Prod.mk.eta], by decide +kernel⟩, ?_⟩
  refine ⟨⟨by rw [fetched_iff]; decide +kernel, by decide +kernel, by decide +kernel, by decide +kernel, by simp only [tHead, Prod.mk.eta], by decide +kernel,
    by decide +kernel, by decide +kernel, by simp only [tLoaded, Prod.mk.eta], by decide +kernel⟩, ?_⟩
  iterate 2 refine ⟨⟨by rw [fetched_iff]; decide +kernel, by decide +kernel⟩, ?_⟩
  refine ⟨by rw [fetched_iff]; decide +kernel, ⟨by rw [fetched_iff]; decide +kernel, by decide +kernel⟩,
    ⟨by rw [fetched_iff]; decide +kernel, by decide +kernel, by simp only [tArrive, Prod.mk.eta]⟩, by rw [fetched_iff]; decide +kernel, by rw [fetched_iff]; decide +kernel, ?_⟩
  iterate 2 refine ⟨⟨by decide +kernel, by decide +kernel, by decide +kernel, by decide +kernel, by decide +kernel, by decide +kernel,
    pairZero _ (by decide +kernel), by simp only [tCount, tArrive, Prod.mk.eta],
    by rw [tCount_spec rfl rfl]; decide +kernel⟩, ?_⟩
  refine ⟨⟨by decide +kernel, by decide +kernel, by decide +kernel, by decide +kernel, by decide +kernel, pairZero _ (by decide +kernel)⟩, by decide +kernel, ?_⟩
  refine ⟨⟨by decide +kernel, by decide +kernel, by decide +kernel, by decide +kernel, by decide +kernel, by decide +kernel,
    by simp only [tArrive, Prod.mk.eta], by decide +kernel⟩, ?_⟩
  exact ⟨by decide +kernel, by decide +kernel, by decide +kernel, by decide +kernel, by decide +kernel, by simp only [tRelease, Prod.mk.eta], by decide +kernel⟩

/-- The premises of JobCommandsComplete, clauses 1.1.1, 1.1.2, 1.2.1, 1.2.2, 3, 4, 5.1, 5.2, 5.3, 5.4, 1.3.1, 1.3.2.1, 1.3.2.2, 1.3.3, 1.3.4, 1.4, 1.5.1, 1.5.1, 1.5.2, 1.6. -/
theorem test_premises_of_job_commands_complete :
    ((tQueued (tQJob JobPhase.queued (some 0))).jobAt 5 = some (tQJob JobPhase.queued (some 0)) ∧
    (tQJob JobPhase.queued (some 0)).phase = JobPhase.queued ∧
    ((tQueued (tQJob JobPhase.queued (some 0))).queuedAt (fun x => x == JobPhase.queued) (tQJob JobPhase.queued (some
      0)).part (tQJob JobPhase.queued (some 0)).cls).head? = some 5 ∧
    (∀ c < (tQJob JobPhase.queued (some 0)).cls, (tQueued (tQJob JobPhase.queued (some 0))).queuedAt (fun x => x ==
      JobPhase.queued) (tQJob JobPhase.queued (some 0)).part c = []) ∧
    (tQJob JobPhase.queued (some 0)).handle = some 0 ∧
    List.find? (fun e => e.1 == 16 * (tQJob JobPhase.queued (some 0)).ent.func + 0) (tQueued (tQJob JobPhase.queued
      (some 0))).pins = some (0, { image := tImgBytes, hdr := jobHeader tImgBytes, leaving := none })) ∧
    ((tStored (tQJob JobPhase.queued none)).jobAt 5 = some (tQJob JobPhase.queued none) ∧
    (tQJob JobPhase.queued none).phase = JobPhase.queued ∧
    ((tStored (tQJob JobPhase.queued none)).queuedAt (fun x => x == JobPhase.queued) (tQJob JobPhase.queued
      none).part (tQJob JobPhase.queued none).cls).head? = some 5 ∧
    (∀ c < (tQJob JobPhase.queued none).cls, (tStored (tQJob JobPhase.queued none)).queuedAt (fun x => x ==
      JobPhase.queued) (tQJob JobPhase.queued none).part c = []) ∧ (tQJob JobPhase.queued none).handle = none ∧
    (tStored (tQJob JobPhase.queued none)).checkImage ((tStored (tQJob JobPhase.queued none)).leadAgent (tQJob
      JobPhase.queued none)) (tQJob JobPhase.queued none).image tFind = (tChecked4.1, tChecked4.2.1, tChecked4.2.2.1,
      tChecked4.2.2.2)) ∧
    (tBusy.jobAt 5 = some (tQJob JobPhase.waiting (some 0)) ∧
    ((tQJob JobPhase.waiting (some 0)).phase = JobPhase.waiting ∨ (tQJob JobPhase.waiting (some 0)).phase =
      JobPhase.preempted) ∧
    (tBusy.queuedAt (fun p => p == JobPhase.queued || p == JobPhase.waiting || p == JobPhase.preempted) (tQJob
      JobPhase.waiting (some 0)).part (tQJob JobPhase.waiting (some 0)).cls).head? = some 5 ∧
    (∀ c < (tQJob JobPhase.waiting (some 0)).cls, tBusy.queuedAt (fun p => p == JobPhase.queued || p ==
      JobPhase.waiting || p == JobPhase.preempted) (tQJob JobPhase.waiting (some 0)).part c = []) ∧
    tBusy.bayEntries (tQJob JobPhase.waiting (some 0)) tFind = ((tEntries tBusy).1, (tEntries tBusy).2.1, (tEntries
      tBusy).2.2) ∧ (tEntries tBusy).1.status = 0 ∧
    (tEntries tBusy).2.2.fill (byQuarter (tQJob JobPhase.waiting (some 0)).hdr.quarters (tEntries tBusy).2.1)
      ((tEntries tBusy).2.2.freeQuarters (tQJob JobPhase.waiting (some 0)).part) = none ∧
    ((tQJob JobPhase.waiting (some 0)).resumed = true ∨ (tEntries tBusy).2.2.fill (byQuarter (tQJob JobPhase.waiting
      (some 0)).hdr.quarters (tEntries tBusy).2.1) ((tEntries tBusy).2.2.partQuarters (tQJob JobPhase.waiting (some
      0)).part) ≠ none)) ∧
    (tFree.jobAt 5 = some (tQJob JobPhase.waiting (some 0)) ∧
    ((tQJob JobPhase.waiting (some 0)).phase = JobPhase.waiting ∨ (tQJob JobPhase.waiting (some 0)).phase =
      JobPhase.preempted) ∧
    (tFree.queuedAt (fun p => p == JobPhase.queued || p == JobPhase.waiting || p == JobPhase.preempted) (tQJob
      JobPhase.waiting (some 0)).part (tQJob JobPhase.waiting (some 0)).cls).head? = some 5 ∧
    (∀ c < (tQJob JobPhase.waiting (some 0)).cls, tFree.queuedAt (fun p => p == JobPhase.queued || p ==
      JobPhase.waiting || p == JobPhase.preempted) (tQJob JobPhase.waiting (some 0)).part c = []) ∧
    tFree.bayEntries (tQJob JobPhase.waiting (some 0)) tFind = ((tEntries tFree).1, (tEntries tFree).2.1, (tEntries
      tFree).2.2) ∧ (tEntries tFree).1.status = 0 ∧
    (tEntries tFree).2.2.fill (byQuarter (tQJob JobPhase.waiting (some 0)).hdr.quarters (tEntries tFree).2.1)
      ((tEntries tFree).2.2.freeQuarters (tQJob JobPhase.waiting (some 0)).part) = some [63] ∧
    (tQJob JobPhase.waiting (some 0)).resumed = false ∧
    (tEntries tFree).2.2.cmdLists (tQJob JobPhase.waiting (some 0)) (tEntries tFree).2.1 = (tLists.1, tLists.2.1,
      tLists.2.2) ∧ tLists.1.status = 0) ∧
    ((tInvalid.bayAt 1023).invalidations = [tInval] ∧
    (∀ w ∈ tInval.waits, ∀ r ∈ (tInvalid.chanAt 1023 w.1).flying, r.id ≠ w.2)) ∧
    (tZeroing.quarterResetting 63 = true ∧ tZeroing.inReset 63 = false ∧ tZeroing.quarterBusy 63 = false) ∧
    ((tReady.part 15).enabled = false) ∧
    (((tResets true).part 15).enabled = true ∧ (tResets true).rbit (regKey Block.ctl Reg.CTL_PART_RESETTING) 15 = true) ∧
    (((tResets false).part 15).enabled = true ∧
    (tResets false).rbit (regKey Block.ctl Reg.CTL_PART_RESETTING) 15 = false) ∧
    ((tResets true).rbit (regKey Block.ctl Reg.CTL_PART_RESETTING) 15 = true) ∧
    ((tBarrier 2 [] []).jobAt 5 = some (tBarJob [] []) ∧ (tBarJob [] []).phase = JobPhase.running ∧
    List.find? (fun x => x.lb == ({ lb := 15, part := 0, tries := 3, sent := 0, tried := true } : BayLoad).lb) (tBarJob [] []).loads = some
      { lb := 15, part := 0, tries := 3, sent := 0, tried := true }) ∧
    ((tBarrier 2 [] []).jobAt 5 = some (tBarJob [] []) ∧ (tBarJob [] []).phase = JobPhase.running ∧
    List.find? (fun x => x.lb == ({ lb := 15, part := 0, tries := 3, sent := 0, tried := true } : BayLoad).lb) (tBarJob [] []).loads = some
      { lb := 15, part := 0, tries := 3, sent := 0, tried := true } ∧
    (tBarrier 2 [] []).bayParts (tBarJob [] []) ({ lb := 15, part := 0, tries := 3, sent := 0, tried := true } : BayLoad).lb tFind = ((tParts
      (tBarrier 2 [] []) (tBarJob [] [])).1, (tParts (tBarrier 2 [] []) (tBarJob [] [])).2) ∧
    (tParts (tBarrier 2 [] []) (tBarJob [] [])).1.status = 0 ∧
    (tParts (tBarrier 2 [] []) (tBarJob [] [])).2.1.length ≤ ({ lb := 15, part := 0, tries := 3, sent := 0, tried := true } : BayLoad).part) ∧
    (tLoadState.jobAt 5 = some tLoadJob ∧ tLoadJob.phase = JobPhase.running ∧
    List.find? (fun x => x.lb == tLoad0.lb) tLoadJob.loads = some tLoad0 ∧
    tLoadState.bayParts tLoadJob tLoad0.lb tFind = ((tParts tLoadState tLoadJob).1, (tParts tLoadState tLoadJob).2) ∧
    (tParts tLoadState tLoadJob).1.status = 0 ∧ (tParts tLoadState tLoadJob).2.1[tLoad0.part]? = some tPart0 ∧
    (if tLoad0.first then ((tParts tLoadState tLoadJob).2.2.mcastIssue ((tParts tLoadState tLoadJob).2.2.loadPacket tLoadJob (tLoadJob.bays.getD tLoad0.lb 0)
      tLoad0.tries tPart0)).2.setJob 5 (if tLoad0.first then tLoadJob.loadSent tLoad0 else tLoadJob)
      else (tParts tLoadState tLoadJob).2.2).mcastTrip ((tParts tLoadState tLoadJob).2.2.mcastIssue ((tParts tLoadState tLoadJob).2.2.loadPacket tLoadJob (tLoadJob.bays.getD tLoad0.lb 0)
      tLoad0.tries tPart0)).1 (tLoadJob.bays.getD tLoad0.lb 0) =
      (0, (tTrip tLoadState).2)) ∧
    ((tCut tLoadState).jobAt 5 = some tLoadJob ∧ tLoadJob.phase = JobPhase.running ∧
    List.find? (fun x => x.lb == tLoad0.lb) tLoadJob.loads = some tLoad0 ∧
    (tCut tLoadState).bayParts tLoadJob tLoad0.lb tFind = ((tParts (tCut tLoadState) tLoadJob).1, (tParts (tCut tLoadState)
      tLoadJob).2) ∧
    (tParts (tCut tLoadState) tLoadJob).1.status = 0 ∧ (tParts (tCut tLoadState) tLoadJob).2.1[tLoad0.part]? = some tPart0 ∧
    (if tLoad0.first then ((tParts (tCut tLoadState) tLoadJob).2.2.mcastIssue ((tParts (tCut tLoadState) tLoadJob).2.2.loadPacket tLoadJob (tLoadJob.bays.getD tLoad0.lb 0)
      tLoad0.tries tPart0)).2.setJob 5 (if tLoad0.first then tLoadJob.loadSent tLoad0 else tLoadJob)
      else (tParts (tCut tLoadState) tLoadJob).2.2).mcastTrip ((tParts (tCut tLoadState) tLoadJob).2.2.mcastIssue ((tParts (tCut tLoadState) tLoadJob).2.2.loadPacket tLoadJob (tLoadJob.bays.getD tLoad0.lb 0)
      tLoad0.tries tPart0)).1 (tLoadJob.bays.getD tLoad0.lb 0) =
      ((tTrip (tCut tLoadState)).1, (tTrip (tCut tLoadState)).2) ∧
    (tTrip (tCut tLoadState)).1 ≠ 0) ∧
    ((tBarrier 2 [] []).jobAt 5 = some (tBarJob [] []) ∧ (tBarJob [] []).phase = JobPhase.running ∧
    List.find? (fun x => x.lb == ({ lb := 14, part := 0, tries := 2, sent := 0, tried := true } : BayLoad).lb) (tBarJob [] []).loads = some
      { lb := 14, part := 0, tries := 2, sent := 0, tried := true } ∧ ({ lb := 14, part := 0, tries := 2, sent := 0, tried := true } : BayLoad).tries < 3) ∧
    ((tBarrier 2 [] []).jobAt 5 = some (tBarJob [] []) ∧ (tBarJob [] []).phase = JobPhase.running ∧
    List.find? (fun x => x.lb == ({ lb := 15, part := 0, tries := 3, sent := 0, tried := true } : BayLoad).lb) (tBarJob [] []).loads = some
      { lb := 15, part := 0, tries := 3, sent := 0, tried := true } ∧ 3 ≤ ({ lb := 15, part := 0, tries := 3, sent := 0, tried := true } : BayLoad).tries) ∧
    ((tBarrier 2 [] []).jobAt 5 = some (tBarJob [] []) ∧ (tBarJob [] []).hdr.timeLimit ≠ 0 ∧
    (tBarJob [] []).started = true ∧ (tBarJob [] []).status = 0 ∧
    ((tBarJob [] []).phase = JobPhase.running ∨ (tBarJob [] []).phase = JobPhase.preempting)) ∧
    ((tEnding 14).jobAt 5 = some (tEndedJob 14) ∧ ((tEnding 14).bayAt 1023).job = some 5 ∧
    ((tEnding 14).bayAt 1023).finished = true ∧ ((tEnding 14).bayAt 1023).logical ∉ (tEndedJob 14).ended ∧
    (tEnding 14).messageTrip (seqAgent 1023) ((tEnding 14).leadAgent (tEndedJob 14)) = (0, (tArrive (tEnding 14) (tEndedJob 14)).2) ∧
    ((tEndedJob 14).phase = JobPhase.running ∨ (tEndedJob 14).phase = JobPhase.ending)) ∧
    ((tEnding 15).jobAt 5 = some (tEndedJob 15) ∧ ((tEnding 15).bayAt 1023).job = some 5 ∧
    ((tEnding 15).bayAt 1023).finished = true ∧ ((tEnding 15).bayAt 1023).logical ∉ (tEndedJob 15).ended ∧
    (tEnding 15).messageTrip (seqAgent 1023) ((tEnding 15).leadAgent (tEndedJob 15)) = (0, (tArrive (tEnding 15) (tEndedJob 15)).2) ∧
    ((tEndedJob 15).phase = JobPhase.running ∨ (tEndedJob 15).phase = JobPhase.ending)) ∧
    (tAllEnding.jobAt 5 = some tAllEnd ∧ (tAllEnding.bayAt 1023).job = some 5 ∧
    (tAllEnding.bayAt 1023).finished = true ∧ (tAllEnding.bayAt 1023).logical ∉ tAllEnd.ended ∧
    tAllEnding.messageTrip (seqAgent 1023) (tAllEnding.leadAgent tAllEnd) = (0, (tArrive tAllEnding tAllEnd).2) ∧
    tAllEnd.phase = JobPhase.preempting ∧ (∀ x ∈ tAllEnd.bays, (tAllEnding.bayAt x).finished = true)) ∧
    ((tCut (tEnding 14)).jobAt 5 = some (tEndedJob 14) ∧ ((tCut (tEnding 14)).bayAt 1023).job = some 5 ∧
    ((tCut (tEnding 14)).bayAt 1023).finished = true ∧ ((tCut (tEnding 14)).bayAt 1023).logical ∉ (tEndedJob 14).ended ∧
    (tCut (tEnding 14)).messageTrip (seqAgent 1023) ((tCut (tEnding 14)).leadAgent (tEndedJob 14)) = ((tArrive (tCut (tEnding
      14)) (tEndedJob 14)).1, (tArrive (tCut (tEnding 14)) (tEndedJob 14)).2) ∧
    (tArrive (tCut (tEnding 14)) (tEndedJob 14)).1 ≠ 0 ∧
    ((tEndedJob 14).phase = JobPhase.running ∨ (tEndedJob 14).phase = JobPhase.ending)) ∧
    (tStopping.jobAt 5 = some (tJob JobPhase.preempting) ∧ (tStopping.bayAt 1023).job = some 5 ∧
    (tJob JobPhase.preempting).phase = JobPhase.preempting ∧ (tStopping.bayAt 1023).recorded = false ∧
    tStopping.bayStopped 1023 = true ∧
    (∃ x ∈ (tJob JobPhase.preempting).bays, x ≠ 1023 ∧ (tStopping.bayAt x).recorded = false) ∧
    (∃ x ∈ (tJob JobPhase.preempting).bays, (tStopping.bayAt x).finished = false)) := by
  refine ⟨by decide +kernel, ?_⟩
  refine ⟨⟨by decide +kernel, by decide +kernel, by decide +kernel, by decide +kernel, by decide +kernel, by rw [← tChecked4]⟩, ?_⟩
  iterate 10 refine ⟨by decide +kernel, ?_⟩
  refine ⟨⟨by decide +kernel, by decide +kernel, by decide +kernel, by decide +kernel, by decide +kernel,
    by decide +kernel, tTrip_spec (by decide +kernel)⟩, ?_⟩
  refine ⟨⟨by decide +kernel, by decide +kernel, by decide +kernel, by decide +kernel, by decide +kernel,
    by decide +kernel, tTrip_spec rfl, by decide +kernel⟩, ?_⟩
  iterate 3 refine ⟨by decide +kernel, ?_⟩
  iterate 3 refine ⟨⟨by decide +kernel, by decide +kernel, by decide +kernel, by decide +kernel,
    pairZero _ (by decide +kernel), by decide +kernel⟩, ?_⟩
  refine ⟨⟨by decide +kernel, by decide +kernel, by decide +kernel, by decide +kernel,
    by simp only [tArrive, Prod.mk.eta], by decide +kernel, by decide +kernel⟩, ?_⟩
  decide +kernel
/-- The premises of ConfigurationStreamsComplete, clauses 1.1, 1.2, 2.1, 2.2.1, 2.2.2, 2.3.1, 2.3.2, 2.3.3.1, 2.3.3.2, 2.3.4, 2.3.5, 2.3.6, 2.3.7, 2.4, 2.5, 2.6, 2.7, 1.3. -/
theorem test_premises_of_configuration_streams_complete :
    ((tHeaderState 2623159921).loadAt 3 = some tLoadReq ∧ tLoadReq.accepted = false ∧ 260 ≤ tLoadReq.bytes ∧
    (tHeaderState 2623159921).readLong ryhalAgent tLoadReq.addr 260 tFind = ((tHeaderAns 2623159921).1, (tHeaderAns
      2623159921).2) ∧ (tHeaderAns 2623159921).1.status = 0 ∧
    (tHeaderAns 2623159921).2.headerForm tLoadReq (imgN (tHeaderAns 2623159921).1.data 0 4) (List.drop 4 (tHeaderAns
      2623159921).1.data) = true ∧
    (tHeaderAns 2623159921).2.headerFits tLoadReq (List.drop 4 (tHeaderAns 2623159921).1.data) = true ∧
    (∀ d ∈ hdrDies (List.drop 4 (tHeaderAns 2623159921).1.data), ((tHeaderAns 2623159921).2.cfgAt d).load = none) ∧
    (tHeaderAns 2623159921).2.streamRules (bitsOf (hdrW (List.drop 4 (tHeaderAns 2623159921).1.data) 28) 31 24)
      (bitsOf (hdrW (List.drop 4 (tHeaderAns 2623159921).1.data) 28) 23 16) (hdrW (List.drop 4 (tHeaderAns
      2623159921).1.data) 32) (List.take 40 (List.drop 40 (List.drop 4 (tHeaderAns 2623159921).1.data))) = (0,
      tUnwrapped, (tHeaderAns 2623159921).2)) ∧
    ((tHeaderState 0).loadAt 3 = some tLoadReq ∧ tLoadReq.accepted = false ∧ 260 ≤ tLoadReq.bytes ∧
    (tHeaderState 0).readLong ryhalAgent tLoadReq.addr 260 tFind = ((tHeaderAns 0).1, (tHeaderAns 0).2) ∧
    (tHeaderAns 0).1.status = 0 ∧
    ((tHeaderAns 0).2.headerForm tLoadReq (imgN (tHeaderAns 0).1.data 0 4) (List.drop 4 (tHeaderAns 0).1.data) =
      false ∨ (tHeaderAns 0).2.headerFits tLoadReq (List.drop 4 (tHeaderAns 0).1.data) = false ∧ ((∀ d ∈ hdrDies
      (List.drop 4 (tHeaderAns 0).1.data), ((tHeaderAns 0).2.cfgAt d).load = none) ∨ bitsOf (hdrW (List.drop 4
      (tHeaderAns 0).1.data) 4) 22 21 = 0))) ∧
    ((tStream LoadStage.clear 260 tSegWords).dieLoad 15 LoadStage.clear = some (tDieLoad LoadStage.clear [], tAccepted) ∧
    (tDieLoad LoadStage.clear []).seg < tAccepted.segments ∧ (tDieLoad LoadStage.clear []).pos + 8 ≤ tAccepted.bytes ∧
    (tStream LoadStage.clear 260 tSegWords).readLong ((tStream LoadStage.clear 260 tSegWords).cfgAgent 15)
      (tAccepted.addr + (tDieLoad LoadStage.clear []).pos) 8 tFind = ((tStreamAns LoadStage.clear 260 tSegWords 260
      8).1, (tStreamAns LoadStage.clear 260 tSegWords 260 8).2) ∧
    (tStreamAns LoadStage.clear 260 tSegWords 260 8).1.status = 0 ∧
    imgN (tStreamAns LoadStage.clear 260 tSegWords 260 8).1.data 0 4 = 1342177280 + (tDieLoad LoadStage.clear []).seg ∧
    imgN (tStreamAns LoadStage.clear 260 tSegWords 260 8).1.data 4 4 % 4 = 0 ∧
    8 ≤ imgN (tStreamAns LoadStage.clear 260 tSegWords 260 8).1.data 4 4 ∧
    imgN (tStreamAns LoadStage.clear 260 tSegWords 260 8).1.data 4 4 ≤ 1048576) ∧
    ((tStream LoadStage.sealed 268 (tSealed 0)).dieLoad 15 LoadStage.sealed = some (tDieLoad LoadStage.sealed [],
      tAccepted) ∧ (tDieLoad LoadStage.sealed []).pos + 24 + (tDieLoad LoadStage.sealed []).segLen ≤ tAccepted.bytes ∧
    (tStream LoadStage.sealed 268 (tSealed 0)).readLong ((tStream LoadStage.sealed 268 (tSealed 0)).cfgAgent 15)
      (tAccepted.addr + (tDieLoad LoadStage.sealed []).pos + 8) ((tDieLoad LoadStage.sealed []).segLen + 16) tFind =
      ((tStreamAns LoadStage.sealed 268 (tSealed 0) 268 32).1, (tStreamAns LoadStage.sealed 268 (tSealed 0) 268 32).2) ∧
    (tStreamAns LoadStage.sealed 268 (tSealed 0) 268 32).1.status = 0 ∧
    gcmOpen (tDieLoad LoadStage.sealed []).key (tAccepted.imageId ++ natBytes 4 (tDieLoad LoadStage.sealed []).seg)
      ((tDieLoad LoadStage.sealed []).chain ++ (tDieLoad LoadStage.sealed []).segCmd) (List.take (tDieLoad
      LoadStage.sealed []).segLen (tStreamAns LoadStage.sealed 268 (tSealed 0) 268 32).1.data) (List.drop (tDieLoad
      LoadStage.sealed []).segLen (tStreamAns LoadStage.sealed 268 (tSealed 0) 268 32).1.data) = none ∧
    (tDieLoad LoadStage.sealed []).queue = []) ∧
    ((tStream LoadStage.sealed 268 (tSealed tGoodTag)).dieLoad 15 LoadStage.sealed = some (tDieLoad LoadStage.sealed
      [], tAccepted) ∧
    (tDieLoad LoadStage.sealed []).pos + 24 + (tDieLoad LoadStage.sealed []).segLen ≤ tAccepted.bytes ∧
    (tStream LoadStage.sealed 268 (tSealed tGoodTag)).readLong ((tStream LoadStage.sealed 268 (tSealed
      tGoodTag)).cfgAgent 15) (tAccepted.addr + (tDieLoad LoadStage.sealed []).pos + 8) ((tDieLoad LoadStage.sealed
      []).segLen + 16) tFind = ((tStreamAns LoadStage.sealed 268 (tSealed tGoodTag) 268 32).1, (tStreamAns
      LoadStage.sealed 268 (tSealed tGoodTag) 268 32).2) ∧
    (tStreamAns LoadStage.sealed 268 (tSealed tGoodTag) 268 32).1.status = 0 ∧
    gcmOpen (tDieLoad LoadStage.sealed []).key (tAccepted.imageId ++ natBytes 4 (tDieLoad LoadStage.sealed []).seg)
      ((tDieLoad LoadStage.sealed []).chain ++ (tDieLoad LoadStage.sealed []).segCmd) (List.take (tDieLoad
      LoadStage.sealed []).segLen (tStreamAns LoadStage.sealed 268 (tSealed tGoodTag) 268 32).1.data) (List.drop
      (tDieLoad LoadStage.sealed []).segLen (tStreamAns LoadStage.sealed 268 (tSealed tGoodTag) 268 32).1.data) =
      some tPlain ∧
    imgN tPlain (tPlain.length - 4) 4 = (if (tDieLoad LoadStage.sealed []).seg + 1 = tAccepted.segments then
      1879048192 else 1610612736)) ∧
    ((tTexts [0]).dieLoad 15 LoadStage.text = some (tText [0], tAccepted) ∧ imgN (tText [0]).text 0 4 = 0 ∧
    4 ≤ (tText [0]).text.length) ∧
    ((tTexts [536870913, 143, 127]).dieLoad 15 LoadStage.text = some (tText [536870913, 143, 127], tAccepted) ∧ 0 < 1 ∧
    1 < 256 ∧ imgN (tText [536870913, 143, 127]).text 0 4 = 536870912 + 1 ∧
    4 + 8 * 1 ≤ (tText [536870913, 143, 127]).text.length ∧
    (∀ p ∈ List.map (fun i => (argWord (tText [536870913, 143, 127]) (1 + 2 * i), argWord (tText [536870913, 143,
      127]) (2 + 2 * i))) (List.range 1), regwOk tAccepted p = true)) ∧
    ((tTexts [805306368, tFrame]).dieLoad 15 LoadStage.text = some (tText [805306368, tFrame], tAccepted) ∧
    imgN (tText [805306368, tFrame]).text 0 4 = 805306368 ∧ 8 ≤ (tText [805306368, tFrame]).text.length ∧
    (tTexts [805306368, tFrame]).frameAllowed 15 tAccepted (argWord (tText [805306368, tFrame]) 1) = true) ∧
    ((tTexts [805306368, tFrame + 128]).dieLoad 15 LoadStage.text = some (tText [805306368, tFrame + 128], tAccepted) ∧
    imgN (tText [805306368, tFrame + 128]).text 0 4 = 805306368 ∧ 8 ≤ (tText [805306368, tFrame + 128]).text.length ∧
    (tTexts [805306368, tFrame + 128]).frameAllowed 15 tAccepted (argWord (tText [805306368, tFrame + 128]) 1) = false ∧
    (tText [805306368, tFrame + 128]).queue = []) ∧
    ((tLoading tFdata tAccepted).dieLoad 15 LoadStage.text = some (tFdata, tAccepted) ∧ 0 < 1 ∧ 1 ≤ 104 ∧
    imgN tFdata.text 0 4 = 1073741824 + 1 ∧ 4 + 400 * 1 ≤ tFdata.text.length ∧ tFdata.faddr = some tFrame ∧
    faMinor tFrame + 1 ≤ minorCount (faCol tFrame)) ∧
    ((tLoading (tText [1610612736]) tTwo).dieLoad 15 LoadStage.text = some (tText [1610612736], tTwo) ∧
    imgN (tText [1610612736]).text 0 4 = 1610612736 ∧ (tText [1610612736]).text.length = 4 ∧
    (tText [1610612736]).seg + 1 < tTwo.segments) ∧
    ((tLoading tQueueEnd tAccepted).dieLoad 15 LoadStage.text = some (tQueueEnd, tAccepted) ∧
    imgN tQueueEnd.text 0 4 = 1879048192 ∧ tQueueEnd.queue ≠ []) ∧
    ((tLoading (tText [1879048192]) tPartial).dieLoad 15 LoadStage.text = some (tText [1879048192], tPartial) ∧
    imgN (tText [1879048192]).text 0 4 = 1879048192 ∧ (tText [1879048192]).text.length = 4 ∧
    (tText [1879048192]).queue = [] ∧ (tText [1879048192]).seg + 1 = tPartial.segments ∧
    (tLoading (tText [1879048192]) tPartial).framesDone 15 (tText [1879048192]) tPartial = true) ∧
    (tSigState.dieLoad 15 LoadStage.ended = some (tSigLoad, tAccepted) ∧ tSigLoad.pos + 3380 = tAccepted.bytes ∧
    tSigState.readLong (tSigState.cfgAgent 15) (tAccepted.addr + tSigLoad.pos) 3380 tFind = (tSigAns.1, tSigAns.2) ∧
    tSigAns.1.status = 0 ∧ imgN tSigAns.1.data 0 4 = 2147483648 ∧ (∀ y ∈ List.drop 3377 tSigAns.1.data, y = 0)) ∧
    (((tLoading tQueueLoad tAccepted).cfgAt 15).load = some tQueueLoad ∧ tQueueLoad.queue = [(tFrame, [1, 2])] ∧
    (tLoading tQueueLoad tAccepted).loadAt tQueueLoad.load = some tAccepted ∧
    (tLoading tQueueLoad tAccepted).frameAllowed 15 tAccepted tFrame = true ∧ tFrame ∉ tQueueLoad.written ∧
    (¬(faCol tFrame < 800 ∧ (faMinor tFrame = 3 ∨ faMinor tFrame = 4)))) ∧
    ((tReady.cfgAt 15).load = none) ∧
    (((tLoading tEnded tAccepted).cfgAt 15).load = some tEnded ∧ tEnded.stage ≠ LoadStage.releasing) ∧
    (tHeaderBusy.loadAt 3 = some tLoadReq ∧ tLoadReq.accepted = false ∧ 260 ≤ tLoadReq.bytes ∧
    tHeaderBusy.readLong ryhalAgent tLoadReq.addr 260 tFind = (tHeaderBusyAns.1, tHeaderBusyAns.2) ∧
    tHeaderBusyAns.1.status = 0 ∧
    tHeaderBusyAns.2.headerForm tLoadReq (imgN tHeaderBusyAns.1.data 0 4) (List.drop 4 tHeaderBusyAns.1.data) = true ∧
    (¬∀ d ∈ hdrDies (List.drop 4 tHeaderBusyAns.1.data), (tHeaderBusyAns.2.cfgAt d).load = none) ∧
    (tHeaderBusyAns.2.headerFits tLoadReq (List.drop 4 tHeaderBusyAns.1.data) = true ∨ bitsOf (hdrW (List.drop 4
      tHeaderBusyAns.1.data) 4) 22 21 = 1)) := by
  refine ⟨?_, ?_⟩
  · have hs : (tHeaderAns 2623159921).2.secStore.streamKey (bitsOf (hdrW (List.drop 4 (tHeaderAns 2623159921).1.data) 28)
        31 24) = some tOck ∧ List.take 40 (List.drop 40 (List.drop 4 (tHeaderAns 2623159921).1.data)) = tWrapped := by
      decide +kernel
    rw [and_last9]
    exact ⟨by decide +kernel, streamRules_opens (by decide +kernel) (by decide +kernel) (by decide +kernel) hs.1
      (hs.2 ▸ test_unwrap)⟩
  iterate 16 refine ⟨by decide +kernel, ?_⟩
  decide +kernel

/-- The premises of ReleaseAndScrubbingComplete, clauses 1, 2, 2, 3.1.1, 3.1.2, 3.2, 4, 5, 3.1.2. -/
theorem test_premises_of_release_and_scrubbing_complete :
    ((tLoading (tDieLoad LoadStage.signed []) tAccepted).loadAt 3 = some tAccepted ∧ tAccepted.dies = [15] ∧
    ((tLoading (tDieLoad LoadStage.signed []) tAccepted).cfgAt 15).load = some (tDieLoad LoadStage.signed []) ∧
    (tDieLoad LoadStage.signed []).load = 3 ∧ (tDieLoad LoadStage.signed []).stage = LoadStage.signed) ∧
    ((tLoading (tDieLoad LoadStage.releasing []) tAccepted).dieLoad 15 LoadStage.releasing = some (tDieLoad
      LoadStage.releasing [], tAccepted)) ∧
    ((tLoading (tDieLoad LoadStage.releasing []) tPartial).dieLoad 15 LoadStage.releasing = some (tDieLoad
      LoadStage.releasing [], tPartial)) ∧
    ((tScrub 0 none).dieState 15 = 3 ∧ ((tScrub 0 none).cfgAt 15).fix = none ∧
    nextScrub 15 ((tScrub 0 none).cfgAt 15).scrub = some 1) ∧
    ((tScrub 0 none).dieState 15 = 3 ∧ ((tScrub 0 none).cfgAt 15).fix = none ∧
    nextScrub 15 ((tScrub 0 none).cfgAt 15).scrub = some 1 ∧ [3199, 3200] ≠ [] ∧
    (∀ i ∈ [3199], userBit (((tScrub 0 none).cfgAt 15).colAt (((tScrub 0 none).cfgAt 15).scrub / 2 ^ 17)
      (((tScrub 0 none).cfgAt 15).scrub / 128 % 1024)) (((tScrub 0 none).cfgAt 15).scrub * 128) ↑i = false) ∧
    (∀ i ∈ [3199, 3200], ∀ j ∈ [3199, 3200], j < i + 8)) ∧
    ((tScrub (tFrame / 128) none).dieState 15 = 3 ∧ ((tScrub (tFrame / 128) none).cfgAt 15).fix = none ∧
    nextScrub 15 ((tScrub (tFrame / 128) none).cfgAt 15).scrub = none) ∧
    (((tScrub 0 (some (tFrame / 128, [99], false))).cfgAt 15).fix = some (tFrame / 128, [99], false)) ∧
    (((tDie 15).setRegionState 15 63 5).regionState 15 63 = 5) ∧
    ((tScrub 0 none).dieState 15 = 3 ∧ ((tScrub 0 none).cfgAt 15).fix = none ∧
    nextScrub 15 ((tScrub 0 none).cfgAt 15).scrub = some 1 ∧ [0, 8] ≠ [] ∧
    (∀ i ∈ [0, 8], userBit (((tScrub 0 none).cfgAt 15).colAt (((tScrub 0 none).cfgAt 15).scrub / 2 ^ 17)
      (((tScrub 0 none).cfgAt 15).scrub / 128 % 1024)) (((tScrub 0 none).cfgAt 15).scrub * 128) ↑i = false) ∧
    (∃ i ∈ [0, 8], ∃ j ∈ [0, 8], i + 8 ≤ j)) ∧
    (((tEssential [(0, 64)]).cfgAt 15).fix = some (0, [99], true) ∧
    (tEssential [(0, 64)]).frameRegion 15 0 = some 0 ∧ (tEssential [(0, 64)]).regionState 15 0 ≠ 1) ∧
    (((tEssential []).cfgAt 15).fix = some (0, [99], true) ∧ (tEssential []).frameRegion 15 0 = none) := by
  iterate 10 refine ⟨by decide +kernel, ?_⟩
  decide +kernel

/-- The premises of NetworkCommandsComplete, clauses 1, 1, 1, 2.1, 2.1, 2.2.1.1, 2.2.1.2, 2.2.1.3, 2.2.4.1, 2.2.4.2, 2.2.5, 3, 3, 4.1, 4.2, 5, 6.1, 6.2.1, 6.2.2, 6.2.3, 7.1, 7.1, 7.2, 2.2.2.1.1, 2.2.2.1.2, 2.2.2.1.3, 2.2.2.2.1, 2.2.2.2.2, 2.2.3.1, 2.2.3.2, 4.2, 7.1. -/
theorem test_premises_of_network_commands_complete :
    ((tReserve tRis).tagBusy tRisP = false ∧ nocPacketOk tRisP = true) ∧
    ((tReserve tReady).tagBusy tRisP = false ∧ nocPacketOk tRisP = true) ∧
    (tReady.tagBusy tCopy = false ∧ nocPacketOk tCopy = true) ∧
    ((tIso tRd).nocAt 4 = some tRd ∧ tRd.answer = none ∧ tRd.waiting = false ∧ (tIso tRd).behind 4 tRd = false ∧
    (∀ x ∈ (tIso tRd).bankQ, x.noc ≠ 4 ∨ x.posted = false) ∧ (tIso tRd).dstIsolated tRd.pkt = true ∧
    Instr.nocRead 4 tFind ∈ [Instr.nocRead 4 tFind, Instr.nocWrite 4 tFind, Instr.nocAtomic 4 tFind, Instr.nocMessage
      4] ∧ (Instr.nocRead 4 tFind = Instr.nocRead 4 tFind → tRd.pkt.type = 0) ∧
    (Instr.nocRead 4 tFind = Instr.nocWrite 4 tFind → tRd.pkt.type = 1) ∧
    (Instr.nocRead 4 tFind = Instr.nocAtomic 4 tFind → tRd.pkt.type = 2) ∧
    (Instr.nocRead 4 tFind = Instr.nocMessage 4 → tRd.pkt.type = 3)) ∧
    ((tIso tMsg).nocAt 4 = some tMsg ∧ tMsg.answer = none ∧ tMsg.waiting = false ∧ (tIso tMsg).behind 4 tMsg = false ∧
    (∀ x ∈ (tIso tMsg).bankQ, x.noc ≠ 4 ∨ x.posted = false) ∧ (tIso tMsg).dstIsolated tMsg.pkt = true ∧
    Instr.nocMessage 4 ∈ [Instr.nocRead 4 tFind, Instr.nocWrite 4 tFind, Instr.nocAtomic 4 tFind, Instr.nocMessage 4] ∧
    (Instr.nocMessage 4 = Instr.nocRead 4 tFind → tMsg.pkt.type = 0) ∧
    (Instr.nocMessage 4 = Instr.nocWrite 4 tFind → tMsg.pkt.type = 1) ∧
    (Instr.nocMessage 4 = Instr.nocAtomic 4 tFind → tMsg.pkt.type = 2) ∧
    (Instr.nocMessage 4 = Instr.nocMessage 4 → tMsg.pkt.type = 3)) ∧
    ((tNoc tRd).nocAt 4 = some tRd ∧ tRd.answer = none ∧ tRd.waiting = false ∧ (tNoc tRd).behind 4 tRd = false ∧
    (∀ x ∈ (tNoc tRd).bankQ, x.noc ≠ 4 ∨ x.posted = false) ∧ (tNoc tRd).dstIsolated tRd.pkt = false ∧
    (tNoc tRd).cellFor tRd.pkt = Cell.memory tAddr0 ∧ (tNoc tRd).bankOf tAddr0 = none ∧ tRd.pkt.type = 0 ∧
    (tNoc tRd).memRead (homeEdge tRd.pkt.src) tAddr0 tRd.pkt.bytes (tFind.of tRd.cls) = (((tNoc tRd).memRead tHome5
      tAddr0 4 tFind).1, ((tNoc tRd).memRead tHome5 tAddr0 4 tFind).2)) ∧
    ((tNoc tWrt).nocAt 4 = some tWrt ∧ tWrt.answer = none ∧ tWrt.waiting = false ∧ (tNoc tWrt).behind 4 tWrt = false ∧
    (∀ x ∈ (tNoc tWrt).bankQ, x.noc ≠ 4 ∨ x.posted = false) ∧ (tNoc tWrt).dstIsolated tWrt.pkt = false ∧
    (tNoc tWrt).cellFor tWrt.pkt = Cell.memory tAddr0 ∧ (tNoc tWrt).bankOf tAddr0 = none ∧ tWrt.pkt.type = 1 ∧
    (tNoc tWrt).memWrite (homeEdge tWrt.pkt.src) tAddr0 tWrt.pkt.payload (tFind.of tWrt.cls) = (((tNoc tWrt).memWrite
      tHome5 tAddr0 [1, 2, 3, 4] tFind).1, ((tNoc tWrt).memWrite tHome5 tAddr0 [1, 2, 3, 4] tFind).2)) ∧
    ((tNoc tAtm).nocAt 4 = some tAtm ∧ tAtm.answer = none ∧ tAtm.waiting = false ∧ (tNoc tAtm).behind 4 tAtm = false ∧
    (∀ x ∈ (tNoc tAtm).bankQ, x.noc ≠ 4 ∨ x.posted = false) ∧ (tNoc tAtm).dstIsolated tAtm.pkt = false ∧
    (tNoc tAtm).cellFor tAtm.pkt = Cell.memory tAddr0 ∧ (tNoc tAtm).bankOf tAddr0 = none ∧ tAtm.pkt.type = 2 ∧
    atomicWidth ↑tAtm.pkt.atomicOp = some 4 ∧ tAddr0 % 4 = 0 ∧
    (tNoc tAtm).memUpdate (homeEdge tAtm.pkt.src) tAddr0 4 (fun old => atomicNew (↑tAtm.pkt.atomicOp) 4 old
      tAtm.pkt.payload) (tFind.of tAtm.cls) = (((tNoc tAtm).memUpdate tHome5 tAddr0 4 (fun old => atomicNew 0 4 old
      [1, 0, 0, 0]) tFind).1, ((tNoc tAtm).memUpdate tHome5 tAddr0 4 (fun old => atomicNew 0 4 old [1, 0, 0, 0])
      tFind).2)) ∧
    ((tNoc tDmR).nocAt 4 = some tDmR ∧ tDmR.answer = none ∧ tDmR.waiting = false ∧ (tNoc tDmR).behind 4 tDmR = false ∧
    (∀ x ∈ (tNoc tDmR).bankQ, x.noc ≠ 4 ∨ x.posted = false) ∧ (tNoc tDmR).dstIsolated tDmR.pkt = false ∧
    (tNoc tDmR).cellFor tDmR.pkt = Cell.dmem (bayOfRouter 0) 16 ∧ tDmR.pkt.type = 0) ∧
    ((tNoc tDmW).nocAt 4 = some tDmW ∧ tDmW.answer = none ∧ tDmW.waiting = false ∧ (tNoc tDmW).behind 4 tDmW = false ∧
    (∀ x ∈ (tNoc tDmW).bankQ, x.noc ≠ 4 ∨ x.posted = false) ∧ (tNoc tDmW).dstIsolated tDmW.pkt = false ∧
    (tNoc tDmW).cellFor tDmW.pkt = Cell.dmem (bayOfRouter 0) 16 ∧ tDmW.pkt.type = 1) ∧
    ((tNoc tMsg).nocAt 4 = some tMsg ∧ tMsg.answer = none ∧ tMsg.waiting = false ∧ (tNoc tMsg).behind 4 tMsg = false ∧
    (∀ x ∈ (tNoc tMsg).bankQ, x.noc ≠ 4 ∨ x.posted = false) ∧ (tNoc tMsg).dstIsolated tMsg.pkt = false ∧
    tMsg.pkt.type = 3 ∧ (tNoc tMsg).cellFor tMsg.pkt ≠ Cell.global) ∧
    ((tNoc (tCop false)).nocAt 4 = some (tCop false) ∧ (tCop false).answer = none ∧ (tCop false).waiting = false ∧
    (tCop false).pkt.type = 4 ∧ 1 ∈ (tCop false).targets) ∧
    ((tNoc (tCop true)).nocAt 4 = some (tCop true) ∧ (tCop true).answer = none ∧ (tCop true).waiting = false ∧
    (tCop true).pkt.type = 4 ∧ 1 ∈ (tCop true).targets) ∧
    ((tNoc (tReqOf (tPkt 0 1 0 64 4 0 []) (some (0, [1, 2, 3, 4])) true)).nocAt 4 = some (tReqOf (tPkt 0 1 0 64 4 0
      []) (some (0, [1, 2, 3, 4])) true) ∧
    (tReqOf (tPkt 0 1 0 64 4 0 []) (some (0, [1, 2, 3, 4])) true).answer = some (0, [1, 2, 3, 4]) ∧
    (tReqOf (tPkt 0 1 0 64 4 0 []) (some (0, [1, 2, 3, 4])) true).gone = true) ∧
    ((tNoc (tReqOf (tPkt 0 1 0 64 4 0 []) (some (0, [1, 2, 3, 4])) false)).nocAt 4 = some (tReqOf (tPkt 0 1 0 64 4 0
      []) (some (0, [1, 2, 3, 4])) false) ∧
    (tReqOf (tPkt 0 1 0 64 4 0 []) (some (0, [1, 2, 3, 4])) false).answer = some (0, [1, 2, 3, 4]) ∧
    (tReqOf (tPkt 0 1 0 64 4 0 []) (some (0, [1, 2, 3, 4])) false).gone = false ∧
    (∀ f ∈ (tNoc (tReqOf (tPkt 0 1 0 64 4 0 []) (some (0, [1, 2, 3, 4])) false)).flights, f.noc ≠ 4)) ∧
    ((tNoc tRd).nocAt 4 = some tRd ∧ tRd.gone = false ∧ tRd.waiting = false ∧ tRd.owner = NocOwner.bare ∧
    (∀ f ∈ (tNoc tRd).flights, f.noc ≠ 4)) ∧
    ((tNoc tRd).rd (regKey (Block.noc ↑(Fin.ofNat 1024 (bayOfRouter 0))) Reg.NOC_DEAD_LIMIT) ≠ 0 ∧
    (tNoc tRd).waitsAt ↑(Fin.ofNat 1024 (bayOfRouter 0)) 0 = true ∧
    (tNoc tRd).epIsolated ↑(Fin.ofNat 1024 (bayOfRouter 0)) 0 = false) ∧
    ((true = true → (tNoc tRd).fnReach 0 = true ∧ ((tNoc tRd).fnAt 0).d3hot = false) ∧
    (∀ (off : ℕ), (tNoc tRd).blockLive (Block.noc ↑(Fin.ofNat 1024 (bayOfRouter 0))) off = true)) ∧
    ((true = true → (tNoc tRd).fnReach 0 = true ∧ ((tNoc tRd).fnAt 0).d3hot = false) ∧
    (∀ (off : ℕ), (tNoc tRd).blockLive (Block.noc ↑(Fin.ofNat 1024 (bayOfRouter 0))) off = true)) ∧
    ((false = true → (tNoc tRd).fnReach 0 = true ∧ ((tNoc tRd).fnAt 0).d3hot = false) ∧
    (∀ (off : ℕ), (tNoc tRd).blockLive (Block.noc ↑(Fin.ofNat 1024 (bayOfRouter 0))) off = true)) ∧
    (isCrossing 7 0 = true ∧ (false = true → acrossRouter 7 0 = none) ∧ tReady.linkDownOn [crossKey 7 0] = false ∧
    (if true = true then tget (fun x => 0) tReady.crossings (senderKey 7 0 false) + 1 else 0) ≠ 16) ∧
    (isCrossing 7 0 = true ∧ (false = true → acrossRouter 7 0 = none) ∧ tReady.linkDownOn [crossKey 7 0] = false ∧
    (if false = true then tget (fun x => 0) tReady.crossings (senderKey 7 0 false) + 1 else 0) ≠ 16) ∧
    (isCrossing 7 0 = true ∧ (false = true → acrossRouter 7 0 = none) ∧ tCross15.linkDownOn [crossKey 7 0] = false ∧
    (if true = true then tget (fun x => 0) tCross15.crossings (senderKey 7 0 false) + 1 else 0) = 16) ∧
    ((tLp (tLpReq 0 64 [] false) tFullBank).nocAt 4 = some (tLpReq 0 64 [] false) ∧
    (tLpReq 0 64 [] false).answer = none ∧ (tLpReq 0 64 [] false).waiting = false ∧
    (tLp (tLpReq 0 64 [] false) tFullBank).behind 4 (tLpReq 0 64 [] false) = false ∧
    (∀ x ∈ (tLp (tLpReq 0 64 [] false) tFullBank).bankQ, x.noc ≠ 4 ∨ x.posted = false) ∧
    (tLp (tLpReq 0 64 [] false) tFullBank).dstIsolated (tLpReq 0 64 [] false).pkt = false ∧
    (tLp (tLpReq 0 64 [] false) tFullBank).cellFor (tLpReq 0 64 [] false).pkt = Cell.memory 0 ∧
    (tLp (tLpReq 0 64 [] false) tFullBank).bankOf 0 = some (0, 0, 0) ∧ (tLpReq 0 64 [] false).pkt.type = 0 ∧
    (tLpReq 0 64 [] false).delivered = false ∧ 16 ≤ ((tLp (tLpReq 0 64 [] false) tFullBank).bankQueue 0).length) ∧
    ((tLp (tLpReq 0 64 [] false) []).nocAt 4 = some (tLpReq 0 64 [] false) ∧ (tLpReq 0 64 [] false).answer = none ∧
    (tLpReq 0 64 [] false).waiting = false ∧ (tLp (tLpReq 0 64 [] false) []).behind 4 (tLpReq 0 64 [] false) = false ∧
    (∀ x ∈ (tLp (tLpReq 0 64 [] false) []).bankQ, x.noc ≠ 4 ∨ x.posted = false) ∧
    (tLp (tLpReq 0 64 [] false) []).dstIsolated (tLpReq 0 64 [] false).pkt = false ∧
    (tLp (tLpReq 0 64 [] false) []).cellFor (tLpReq 0 64 [] false).pkt = Cell.memory 0 ∧ (tLp (tLpReq 0 64 [] false) []).bankOf 0 = some (0, 0, 0) ∧
    (tLpReq 0 64 [] false).pkt.type = 0 ∧ (tLpReq 0 64 [] false).delivered = false ∧
    ((tLp (tLpReq 0 64 [] false) []).bankQueue 0).length < 16) ∧
    (tLpTaken.nocAt 4 = some (tLpReq 0 64 [] true) ∧ (tLpReq 0 64 [] true).answer = none ∧
    (tLpReq 0 64 [] true).waiting = false ∧ tLpTaken.behind 4 (tLpReq 0 64 [] true) = false ∧
    (∀ x ∈ tLpTaken.bankQ, x.noc ≠ 4 ∨ x.posted = false) ∧ tLpTaken.dstIsolated (tLpReq 0 64 [] true).pkt = false ∧
    tLpTaken.cellFor (tLpReq 0 64 [] true).pkt = Cell.memory 0 ∧ tLpTaken.bankOf 0 = some (0, 0, 0) ∧
    (tLpReq 0 64 [] true).pkt.type = 0 ∧ (tLpReq 0 64 [] true).delivered = true ∧
    tLpTaken.queuedWrite 4 0 (tLpReq 0 64 [] true).pkt.bytes = none ∧
    tLpTaken.pick 0 = some { noc := 4, ris := false, addr := 0, posted := false, data := [] } ∧
    ({ noc := 4, ris := false, addr := 0, posted := false, data := [] } : BankItem).noc = 4 ∧
    (tLpTaken.unqueue 0 { noc := 4, ris := false, addr := 0, posted := false, data := [] }).memRead (homeEdge (tLpReq 0 64 []
      true).pkt.src) 0 (tLpReq 0 64 [] true).pkt.bytes (tFind.of (tLpReq 0 64 [] true).cls) = (tLpAns.1, tLpAns.2)) ∧
    ((tLp (tLpReq 1 256 (List.replicate 256 7) false) []).nocAt 4 = some (tLpReq 1 256 (List.replicate 256 7) false) ∧
    (tLpReq 1 256 (List.replicate 256 7) false).answer = none ∧
    (tLpReq 1 256 (List.replicate 256 7) false).waiting = false ∧
    (tLp (tLpReq 1 256 (List.replicate 256 7) false) []).behind 4 (tLpReq 1 256 (List.replicate 256 7) false) = false ∧
    (∀ x ∈ (tLp (tLpReq 1 256 (List.replicate 256 7) false) []).bankQ, x.noc ≠ 4 ∨ x.posted = false) ∧
    (tLp (tLpReq 1 256 (List.replicate 256 7) false) []).dstIsolated (tLpReq 1 256 (List.replicate 256 7) false).pkt
      = false ∧ (tLp (tLpReq 1 256 (List.replicate 256 7) false) []).cellFor (tLpReq 1 256 (List.replicate 256 7) false).pkt = Cell.memory 0 ∧
    (tLp (tLpReq 1 256 (List.replicate 256 7) false) []).bankOf 0 = some (0, 0, 0) ∧
    (tLpReq 1 256 (List.replicate 256 7) false).pkt.type = 1 ∧
    (tLpReq 1 256 (List.replicate 256 7) false).delivered = false ∧
    ((tLp (tLpReq 1 256 (List.replicate 256 7) false) []).bankQueue 0).length < 16 ∧
    fullChunks 0 (tLpReq 1 256 (List.replicate 256 7) false).pkt.payload = true) ∧
    ((tLp (tLpReq 1 64 (List.replicate 64 7) false) []).nocAt 4 = some (tLpReq 1 64 (List.replicate 64 7) false) ∧
    (tLpReq 1 64 (List.replicate 64 7) false).answer = none ∧
    (tLpReq 1 64 (List.replicate 64 7) false).waiting = false ∧
    (tLp (tLpReq 1 64 (List.replicate 64 7) false) []).behind 4 (tLpReq 1 64 (List.replicate 64 7) false) = false ∧
    (∀ x ∈ (tLp (tLpReq 1 64 (List.replicate 64 7) false) []).bankQ, x.noc ≠ 4 ∨ x.posted = false) ∧
    (tLp (tLpReq 1 64 (List.replicate 64 7) false) []).dstIsolated (tLpReq 1 64 (List.replicate 64 7) false).pkt =
      false ∧ (tLp (tLpReq 1 64 (List.replicate 64 7) false) []).cellFor (tLpReq 1 64 (List.replicate 64 7) false).pkt = Cell.memory 0 ∧
    (tLp (tLpReq 1 64 (List.replicate 64 7) false) []).bankOf 0 = some (0, 0, 0) ∧
    (tLpReq 1 64 (List.replicate 64 7) false).pkt.type = 1 ∧
    (tLpReq 1 64 (List.replicate 64 7) false).delivered = false ∧
    ((tLp (tLpReq 1 64 (List.replicate 64 7) false) []).bankQueue 0).length < 16 ∧
    fullChunks 0 (tLpReq 1 64 (List.replicate 64 7) false).pkt.payload = false) ∧
    ((tNoc tBeyR).nocAt 4 = some tBeyR ∧ tBeyR.answer = none ∧ tBeyR.waiting = false ∧
    (tNoc tBeyR).behind 4 tBeyR = false ∧ (∀ x ∈ (tNoc tBeyR).bankQ, x.noc ≠ 4 ∨ x.posted = false) ∧
    (tNoc tBeyR).dstIsolated tBeyR.pkt = false ∧ (tNoc tBeyR).cellFor tBeyR.pkt = Cell.beyond ∧ tBeyR.pkt.type = 0) ∧
    ((tNoc tBeyW).nocAt 4 = some tBeyW ∧ tBeyW.answer = none ∧ tBeyW.waiting = false ∧
    (tNoc tBeyW).behind 4 tBeyW = false ∧ (∀ x ∈ (tNoc tBeyW).bankQ, x.noc ≠ 4 ∨ x.posted = false) ∧
    (tNoc tBeyW).dstIsolated tBeyW.pkt = false ∧ (tNoc tBeyW).cellFor tBeyW.pkt = Cell.beyond ∧ tBeyW.pkt.type = 1) ∧
    (tStreamNoc.nocAt 4 = some tStreamAnswered ∧ tStreamAnswered.answer = some (0, [1, 2, 3, 4]) ∧
    tStreamAnswered.gone = false ∧ (∀ f ∈ tStreamNoc.flights, f.noc ≠ 4)) ∧
    (isCrossing 31 0 = true ∧ (true = true → acrossRouter 31 0 = none) ∧ tReady.linkDownOn [crossKey 31 0] = false ∧
    (if true = true then tget (fun x => 0) tReady.crossings (senderKey 31 0 true) + 1 else 0) ≠ 16) ∧
    (tLpBehind.nocAt 4 = some (tLpReq 0 64 [] true) ∧ (tLpReq 0 64 [] true).answer = none ∧
    (tLpReq 0 64 [] true).waiting = false ∧ tLpBehind.behind 4 (tLpReq 0 64 [] true) = false ∧
    (∀ x ∈ tLpBehind.bankQ, x.noc ≠ 4 ∨ x.posted = false) ∧ tLpBehind.dstIsolated (tLpReq 0 64 [] true).pkt = false ∧
    tLpBehind.cellFor (tLpReq 0 64 [] true).pkt = Cell.memory 0 ∧ tLpBehind.bankOf 0 = some (0, 0, 0) ∧
    (tLpReq 0 64 [] true).pkt.type = 0 ∧ (tLpReq 0 64 [] true).delivered = true ∧
    tLpBehind.queuedWrite 4 0 (tLpReq 0 64 [] true).pkt.bytes = some (List.replicate 64 7)) ∧
    (List.find? (fun y => y.noc == 9 && y.posted) tLpPosted.bankQ = some tPosted ∧
    tLpPosted.bankOf tPosted.addr = some (0, 0, 0) ∧ (tLpPosted.pick 0).map (·.noc) = some 9 ∧
    fullChunks tPosted.addr tPosted.data = true) := by
  iterate 17 refine ⟨by decide +kernel, ?_⟩
  iterate 3 refine ⟨⟨by decide +kernel, fun off => rfl⟩, ?_⟩
  iterate 13 refine ⟨by decide +kernel, ?_⟩
  decide +kernel

/-- The premises of FabricCommandsComplete, clauses 1.1, 1.2, 1.3, 1.4, 2, 3.1, 3.2, 3.3, 3.4, 4, 5.1, 5.1, 5.2, 6, 7.1, 7.1, 7.2, 7.2. -/
theorem test_premises_of_fabric_commands_complete :
    (malformed (tGlob tAt2 0) = true) ∧
    (malformed (tGlob tAt2 4) = false ∧ tReady.fabricOpen (tReady.domainSet (placeDomain (tGlob tAt2 4).src (tGlob tAt2 4).srcEp)) = false) ∧
    (malformed (tGlob tAt2 4) = false ∧
    tFull4096.fabricOpen (tFull4096.domainSet (placeDomain (tGlob tAt2 4).src (tGlob tAt2 4).srcEp)) = true ∧
    4096 ≤ tFull4096.homeCount (homeEdge (tGlob tAt2 4).src)) ∧
    (malformed (tGlob tAt2 4) = false ∧
    tOpenSet.fabricOpen (tOpenSet.domainSet (placeDomain (tGlob tAt2 4).src (tGlob tAt2 4).srcEp)) = true ∧ tOpenSet.home = [] ∧ tOpenSet.twinWaiting = 0 ∧
    (tOpenSet.packetOf (tOpenSet.domainSet (placeDomain (tGlob tAt2 4).src (tGlob tAt2 4).srcEp)) (tGlob tAt2 4)).dest ≠ tOpenSet.moduleId
      (tOpenSet.domainSet (placeDomain (tGlob tAt2 4).src (tGlob tAt2 4).srcEp)) ∧
    bitOf (tOpenSet.routeEntry (tOpenSet.domainSet (placeDomain (tGlob tAt2 4).src (tGlob tAt2 4).srcEp)) (tOpenSet.packetOf
      (tOpenSet.domainSet (placeDomain (tGlob tAt2 4).src (tGlob tAt2 4).srcEp)) (tGlob tAt2 4)).dest) 15 = true ∧
    bitsOf (tOpenSet.routeEntry (tOpenSet.domainSet (placeDomain (tGlob tAt2 4).src (tGlob tAt2 4).srcEp)) (tOpenSet.packetOf
      (tOpenSet.domainSet (placeDomain (tGlob tAt2 4).src (tGlob tAt2 4).srcEp)) (tGlob tAt2 4)).dest) 11 8 < 12 ∧
    tOpenSet.portUp (bitsOf (tOpenSet.routeEntry (tOpenSet.domainSet (placeDomain (tGlob tAt2 4).src (tGlob tAt2 4).srcEp))
      (tOpenSet.packetOf (tOpenSet.domainSet (placeDomain (tGlob tAt2 4).src (tGlob tAt2 4).srcEp)) (tGlob tAt2 4)).dest) 11 8) = true ∧
    tOpenSet.edgeWay (homeEdge (tGlob tAt2 4).src) ((bitsOf (tOpenSet.routeEntry (tOpenSet.domainSet (placeDomain (tGlob tAt2 4).src (tGlob tAt2 4).srcEp))
      (tOpenSet.packetOf (tOpenSet.domainSet (placeDomain (tGlob tAt2 4).src (tGlob tAt2 4).srcEp)) (tGlob tAt2 4)).dest) 11 8) / 3) (tOpenSet.packetOf (tOpenSet.domainSet (placeDomain (tGlob tAt2 4).src (tGlob tAt2 4).srcEp)) (tGlob tAt2 4)).gaddr = 0) ∧
    (tReady.home = [] ∧ tReady.twinWaiting = 0 ∧ tReady.twinItem tReady.nextHome = none) ∧
    ((((tArrived (tFab 258 false)).linkAt 2).kept = [] ∧ ((tArrived (tFab 258 false)).linkAt 2).arrived = [tFab 258 false] ∨
      ((tArrived (tFab 258 false)).linkAt 2).kept = [tFab 258 false]) ∧
    (tArrived (tFab 258 false)).fabricOpen ((tArrived (tFab 258 false)).domainSet (16 + 2 / 3)) = true ∧
    (tFab 258 false).resp = false ∧
    (tFab 258 false).dest ≠ (tArrived (tFab 258 false)).moduleId ((tArrived (tFab 258 false)).domainSet (16 + 2 / 3)) ∧
    (tFab 258 false).hops < 255 ∧ (tFab 258 false).cls ≠ 0 ∧
    bitOf ((tArrived (tFab 258 false)).routeEntry ((tArrived (tFab 258 false)).domainSet (16 + 2 / 3)) (tFab 258
      false).dest) 15 = true ∧
    bitsOf ((tArrived (tFab 258 false)).routeEntry ((tArrived (tFab 258 false)).domainSet (16 + 2 / 3)) (tFab 258
      false).dest) 11 8 < 12 ∧
    (tArrived (tFab 258 false)).portUp (bitsOf ((tArrived (tFab 258 false)).routeEntry ((tArrived (tFab 258
      false)).domainSet (16 + 2 / 3)) (tFab 258 false).dest) 11 8) = true ∧
    (bitOf ((tArrived (tFab 258 false)).routeEntry ((tArrived (tFab 258 false)).domainSet (16 + 2 / 3)) (tFab 258
      false).dest) 14 = true → (tFab 258 false).dateline = false) ∧
    (tArrived (tFab 258 false)).edgeWay (2 / 3) (bitsOf ((tArrived (tFab 258 false)).routeEntry ((tArrived (tFab 258 false)).domainSet (16 + 2 / 3)) (tFab 258 false).dest) 11 8 / 3)
      (tFab 258 false).gaddr = 0) ∧
    ((((tArrived (tFab 257 false)).linkAt 2).kept = [] ∧ ((tArrived (tFab 257 false)).linkAt 2).arrived = [tFab 257 false] ∨
      ((tArrived (tFab 257 false)).linkAt 2).kept = [tFab 257 false]) ∧
    (tArrived (tFab 257 false)).fabricOpen ((tArrived (tFab 257 false)).domainSet (16 + 2 / 3)) = true ∧
    (tFab 257 false).resp = false ∧
    (tFab 257 false).dest = (tArrived (tFab 257 false)).moduleId ((tArrived (tFab 257 false)).domainSet (16 + 2 / 3)) ∧
    (tFab 257 false).op ≤ 2 ∧ (tFab 257 false).atomicOp ≤ 8 ∧
    (tArrived (tFab 257 false)).edgeWay (2 / 3) (ownerEdge ((tFab 257 false).gaddr % 2 ^ 44)) (tFab 257 false).gaddr = 0 ∧
    (∀ z < 3, (tArrived (tFab 257 false)).winMatch ((tFab 257 false).gaddr % 2 ^ 44) ((tArrived (tFab 257
      false)).domainSet (16 + 2 / 3)) z = none)) ∧
    ((((tArrived (tFab 257 true)).linkAt 2).kept = [] ∧ ((tArrived (tFab 257 true)).linkAt 2).arrived = [tFab 257 true] ∨
      ((tArrived (tFab 257 true)).linkAt 2).kept = [tFab 257 true]) ∧
    (tArrived (tFab 257 true)).fabricOpen ((tArrived (tFab 257 true)).domainSet (16 + 2 / 3)) = true ∧
    (tFab 257 true).resp = true ∧
    (tFab 257 true).dest = (tArrived (tFab 257 true)).moduleId ((tArrived (tFab 257 true)).domainSet (16 + 2 / 3)) ∧
    (tArrived (tFab 257 true)).homeOf (tFab 257 true) = none) ∧
    (((tRespArr.linkAt 2).kept = [] ∧ (tRespArr.linkAt 2).arrived = [tRespX] ∨
      (tRespArr.linkAt 2).kept = [tRespX]) ∧ tRespArr.fabricOpen (tRespArr.domainSet (16 + 2 / 3)) = true ∧
    tRespX.resp = true ∧ tRespX.dest = tRespArr.moduleId (tRespArr.domainSet (16 + 2 / 3)) ∧
    tRespArr.home = [(6, HomeItem.req tHomeReq 0 true none)] ∧ tRespArr.homeOf tRespX = some (6, tHomeReq) ∧
    tRespArr.edgeWay (2 / 3) (homeEdge tHomeReq.src) tRespX.gaddr = 0 ∧ tRespArr.twinItem 6 = none ∧ tRespArr.twinWaiting = 0 ∧
    tRespX.status = 0) ∧
    ((tKept tAt2 tReady).home = [(6, HomeItem.req tHomeReq 0 true none)] ∧ (tKept tAt2 tReady).twinItem 6 = none ∧
    (tKept tAt2 tReady).twinWaiting = 0) ∧
    ((false = true → (tStaged tWinLow).fnReach 0 = true ∧ ((tStaged tWinLow).fnAt 0).d3hot = false ∧ (tStaged
      tWinLow).edgeLive 0 = true ∧ (tStaged tWinLow).fld (eovReg 0 Reg.EOV_WTP_SEL) 0 0 = ↑(Fin.ofNat 524288 tWinIdx)
      / 8 / 32768) ∧
    ({ (tStaged tWinLow) with staged := terase (tStaged tWinLow).staged (0 * 2 ^ 19 + ↑(Fin.ofNat 524288 tWinIdx)) }
      : State).commitCause 0 (↑(Fin.ofNat 524288 tWinIdx)) (tget (fun x => (tStaged tWinLow).winAt 0 ↑(Fin.ofNat
      524288 tWinIdx) % 2 ^ 96) (tStaged tWinLow).staged (0 * 2 ^ 19 + ↑(Fin.ofNat 524288 tWinIdx)) + BitVec.toNat
      (4026531840 : Word) * 2 ^ 96) = none ∧
    (¬((winOf ((tStaged tWinLow).winAt 0 ↑(Fin.ofNat 524288 tWinIdx))).state = 1 ∧ (winOf (tget (fun x => (tStaged
      tWinLow).winAt 0 ↑(Fin.ofNat 524288 tWinIdx) % 2 ^ 96) (tStaged tWinLow).staged (0 * 2 ^ 19 + ↑(Fin.ofNat
      524288 tWinIdx)) + BitVec.toNat (4026531840 : Word) * 2 ^ 96)).state = 2))) ∧
    ((true = true → tPort0.fnReach 0 = true ∧ (tPort0.fnAt 0).d3hot = false ∧ tPort0.edgeLive 0 = true ∧ tPort0.fld
      (eovReg 0 Reg.EOV_WTP_SEL) 0 0 = ↑(Fin.ofNat 524288 tWinIdx) / 8 / 32768) ∧
    ({ tPort0 with staged := terase tPort0.staged (0 * 2 ^ 19 + ↑(Fin.ofNat 524288 tWinIdx)) } : State).commitCause 0
      (↑(Fin.ofNat 524288 tWinIdx)) (tget (fun x => tPort0.winAt 0 ↑(Fin.ofNat 524288 tWinIdx) % 2 ^ 96)
      tPort0.staged (0 * 2 ^ 19 + ↑(Fin.ofNat 524288 tWinIdx)) + BitVec.toNat (4026531840 : Word) * 2 ^ 96) = none ∧
    (¬((winOf (tPort0.winAt 0 ↑(Fin.ofNat 524288 tWinIdx))).state = 1 ∧ (winOf (tget (fun x => tPort0.winAt 0
      ↑(Fin.ofNat 524288 tWinIdx) % 2 ^ 96) tPort0.staged (0 * 2 ^ 19 + ↑(Fin.ofNat 524288 tWinIdx)) + BitVec.toNat
      (4026531840 : Word) * 2 ^ 96)).state = 2))) ∧
    ((false = true → (tStaged tWinLow).fnReach 0 = true ∧ ((tStaged tWinLow).fnAt 0).d3hot = false ∧ (tStaged
      tWinLow).edgeLive 0 = true ∧ (tStaged tWinLow).fld (eovReg 0 Reg.EOV_WTP_SEL) 0 0 = ↑(Fin.ofNat 524288 tWinIdx)
      / 8 / 32768) ∧
    ({ (tStaged tWinLow) with staged := terase (tStaged tWinLow).staged (0 * 2 ^ 19 + ↑(Fin.ofNat 524288 tWinIdx)) }
      : State).commitCause 0 (↑(Fin.ofNat 524288 tWinIdx)) (tget (fun x => (tStaged tWinLow).winAt 0 ↑(Fin.ofNat
      524288 tWinIdx) % 2 ^ 96) (tStaged tWinLow).staged (0 * 2 ^ 19 + ↑(Fin.ofNat 524288 tWinIdx)) + BitVec.toNat
      (4026535936 : Word) * 2 ^ 96) = some 0) ∧
    (tget (fun x => 0) tTracked.trackers (64 * 1 + 3) = 100 + 1 ∧ tTracked.flights = []) ∧
    (tReady.fnReach 0 = true ∧ (tReady.fnAt 0).d3hot = false ∧ tReady.edgeLive 1 = true) ∧
    (tReady.fnReach 0 = true ∧ (tReady.fnAt 0).d3hot = false ∧ tReady.edgeLive 1 = true) ∧
    (tReady.fnReach 0 = true ∧ (tReady.fnAt 0).d3hot = false ∧ tReady.edgeLive 1 = true) ∧
    (tReady.fnReach 0 = true ∧ (tReady.fnAt 0).d3hot = false ∧ tReady.edgeLive 1 = true) ∧
    ((((tHeldBack (tFab 258 false)).linkAt 2).kept = [] ∧ ((tHeldBack (tFab 258 false)).linkAt 2).arrived = [tFab 258 false] ∨
      ((tHeldBack (tFab 258 false)).linkAt 2).kept = [tFab 258 false]) ∧
    (tHeldBack (tFab 258 false)).fabricOpen ((tHeldBack (tFab 258 false)).domainSet (16 + 2 / 3)) = true ∧
    (tFab 258 false).resp = false ∧
    (tFab 258 false).dest ≠ (tHeldBack (tFab 258 false)).moduleId ((tHeldBack (tFab 258 false)).domainSet (16 + 2 / 3)) ∧
    (tFab 258 false).hops < 255 ∧ (tFab 258 false).cls ≠ 0 ∧
    bitOf ((tHeldBack (tFab 258 false)).routeEntry ((tHeldBack (tFab 258 false)).domainSet (16 + 2 / 3)) (tFab 258
      false).dest) 15 = true ∧
    bitsOf ((tHeldBack (tFab 258 false)).routeEntry ((tHeldBack (tFab 258 false)).domainSet (16 + 2 / 3)) (tFab 258
      false).dest) 11 8 < 12 ∧
    (tHeldBack (tFab 258 false)).portUp (bitsOf ((tHeldBack (tFab 258 false)).routeEntry ((tArrived (tFab 258
      false)).domainSet (16 + 2 / 3)) (tFab 258 false).dest) 11 8) = true ∧
    (bitOf ((tHeldBack (tFab 258 false)).routeEntry ((tHeldBack (tFab 258 false)).domainSet (16 + 2 / 3)) (tFab 258
      false).dest) 14 = true → (tFab 258 false).dateline = false) ∧
    (tHeldBack (tFab 258 false)).edgeWay (2 / 3) (bitsOf ((tHeldBack (tFab 258 false)).routeEntry ((tHeldBack (tFab 258 false)).domainSet (16 + 2 / 3)) (tFab 258 false).dest) 11 8 / 3)
      (tFab 258 false).gaddr = 0) := by
  iterate 18 refine ⟨by decide +kernel, ?_⟩
  decide +kernel

/-- The premises of PortBringUpComplete, clauses 1, 2.1, 2.2, 2.3.1, 2.3.2, 2.4, 2.5, 2.5, 2.5, 3.1, 3.2, 3.5, 3.5, 3.6.1, 3.6.2, 3.6.3, 3.6.4, 3.6.5, 3.6.6, 3.6.7. -/
theorem test_premises_of_port_bring_up_complete :
    (2 ≤ (tLink 5).portState 4 ∧ (tLink 5).portState 4 ≤ 6 ∧ ((tLink 5).linkAt 4).unsent = [] ∧ 4 ≠ (tLink 5).twinPort) ∧
    ((tLocked 5).rbit (lnkLane 16 Reg.LNK_L_STATE) 31 = true) ∧
    (((tLink 2).setBits (lnkReg 1 Reg.LNK_STATUS) 4096).portState (16 / 4) = 2 ∧
    ((tLink 2).setBits (lnkReg 1 Reg.LNK_STATUS) 4096).refOk (16 / 4) = true ∧
    ((tLink 2).setBits (lnkReg 1 Reg.LNK_STATUS) 4096).rbit (lnkLane 16 Reg.LNK_L_STATE) 31 = false) ∧
    (((tLocked 2).portState (16 / 4) = 2 ∨ (tLocked 2).portState (16 / 4) = 3) ∧
    (tLocked 2).rbit (lnkLane 16 Reg.LNK_L_STATE) 31 = true ∧ ((tLocked 2).linkAt (16 / 4)).lanes.length = 4 ∧
    (bitsOf tNoRec.toNat 127 124 == 1 && bitOf tNoRec.toNat 87 && (crc32 (natBytes 12 (tNoRec.toNat / 2 ^ 32))).toNat
      == tNoRec.toNat % 2 ^ 32) = false) ∧
    (((tLocked 2).portState (16 / 4) = 2 ∨ (tLocked 2).portState (16 / 4) = 3) ∧
    (tLocked 2).rbit (lnkLane 16 Reg.LNK_L_STATE) 31 = true ∧ ((tLocked 2).linkAt (16 / 4)).lanes.length = 4 ∧
    (bitsOf tRecord.toNat 127 124 == 1 && bitOf tRecord.toNat 87 && (crc32 (natBytes 12 (tRecord.toNat / 2 ^
      32))).toNat == tRecord.toNat % 2 ^ 32) = true ∧ bitOf tRecord.toNat 116 = true ∧
    (tLocked 2).portState (16 / 4) = 2) ∧
    (tTest7.portState (16 / 4) = 7 ∧ tTest7.fld (lnkLane 16 Reg.LNK_L_PAT) 29 28 ≠ 0 ∧
    (tTest7.linkAt (16 / 4)).lanes.length = 4) ∧
    ((tLink 5).fnReach 0 = true ∧ ((tLink 5).fnAt 0).d3hot = false ∧ (tLink 5).edgeLive (16 / 12) = true ∧
    ((tLink 5).linkAt (16 / 4)).lanes.length = 4) ∧
    ((tLink 2).fnReach 0 = true ∧ ((tLink 2).fnAt 0).d3hot = false ∧ (tLink 2).edgeLive (16 / 12) = true ∧
    ((tLink 2).linkAt (16 / 4)).lanes.length = 4) ∧
    ((tLink 2).fnReach 0 = true ∧ ((tLink 2).fnAt 0).d3hot = false ∧ (tLink 2).edgeLive (16 / 12) = true ∧
    ((tLink 2).linkAt (16 / 4)).lanes.length = 4) ∧
    (tAligned.portState 4 = 4 ∧ tAligned.inStep 4 = true) ∧
    (2 ≤ (tRef (tLink 3)).portState 4 ∧ (tRef (tLink 3)).portState 4 ≤ 4 ∧ (tRef (tLink 3)).refOk 4 = true) ∧
    (2 ≤ (tLink 5).portState 4 ∧ (tLink 5).portState 4 ≤ 6) ∧
    (2 ≤ (tLink 5).portState 4 ∧ (tLink 5).portState 4 ≤ 6) ∧
    ((tLink 5).fnReach 0 = true ∧ ((tLink 5).fnAt 0).d3hot = false ∧ (tLink 5).edgeLive (4 / 3) = true) ∧
    ((tLink 5).fnReach 0 = true ∧ ((tLink 5).fnAt 0).d3hot = false ∧ (tLink 5).edgeLive (4 / 3) = true ∧
    ((tLink 5).portFitted 4 = false ∨ (tLink 5).portEnabled 4 = true)) ∧
    (tReady.fnReach 0 = true ∧ (tReady.fnAt 0).d3hot = false ∧ tReady.edgeLive (4 / 3) = true ∧
    tReady.portFitted 4 = true ∧ tReady.portEnabled 4 = false ∧ tReady.portTest 4 = false) ∧
    ((tLink 5).fnReach 0 = true ∧ ((tLink 5).fnAt 0).d3hot = false ∧ (tLink 5).edgeLive (4 / 3) = true ∧
    (tLink 5).portFitted 4 = true ∧ (tLink 5).portEnabled 4 = true) ∧
    ((tLink 5).fnReach 0 = true ∧ ((tLink 5).fnAt 0).d3hot = false ∧ (tLink 5).edgeLive (4 / 3) = true ∧
    (tLink 5).portTest 4 = false) ∧
    (tTest7.fnReach 0 = true ∧ (tTest7.fnAt 0).d3hot = false ∧ tTest7.edgeLive (4 / 3) = true ∧
    tTest7.portTest 4 = true) ∧
    ((tLink 1).fnReach 0 = true ∧ ((tLink 1).fnAt 0).d3hot = false ∧ (tLink 1).edgeLive (4 / 3) = true ∧
    (tLink 1).portTest 4 = false ∧ ((tLink 1).portState 4 < 2 ∨ 6 < (tLink 1).portState 4)) ∧
    ((tTraining.portState (16 / 4) = 2 ∨ tTraining.portState (16 / 4) = 3) ∧
    tTraining.rbit (lnkLane 16 Reg.LNK_L_STATE) 31 = true ∧ (tTraining.linkAt (16 / 4)).lanes.length = 4 ∧
    (bitsOf tRecordAck.toNat 127 124 == 1 && bitOf tRecordAck.toNat 87 && (crc32 (natBytes 12 (tRecordAck.toNat / 2 ^
      32))).toNat == tRecordAck.toNat % 2 ^ 32) = true ∧ bitOf tRecordAck.toNat 116 = true ∧
    bitOf tRecordAck.toNat 86 = true ∧ tTraining.portState (16 / 4) = 3 ∧
    (∀ i < 4, 8 ≤ ((tTrained tRecordAck).laneAt (4 * (16 / 4) + i)).acks) ∧ (tTrained tRecordAck).recordsAgree (16 / 4) = true) := by
  iterate 20 refine ⟨by decide +kernel, ?_⟩
  decide +kernel

/-- The premises of CodewordsComplete, clauses 1.1, 1.2, 1.3, 1.4, 1.5, 3.1, 3.2, 3.3, 3.4, 4.1, 4.1, 4.2, 4.3. -/
theorem test_premises_of_codewords_complete :
    ((tRef (tLink 5)).refOk 4 = true ∧ (tRef (tLink 5)).portUp 4 = true ∧ ((tRef (tLink 5)).linkAt 4).idleTx = false) ∧
    ((tRef (tLink 4)).refOk 4 = true ∧ (tRef (tLink 4)).portState 4 = 4) ∧
    ((tRef (tLink 3)).refOk 4 = true ∧ ((tRef (tLink 3)).portState 4 = 2 ∨ (tRef (tLink 3)).portState 4 = 3)) ∧
    ((tRef (tLink 7)).refOk 4 = true ∧ (tRef (tLink 7)).portState 4 = 7 ∧
    (∀ i < 4, (tRef (tLink 7)).fld (lnkLane (4 * 4 + i) Reg.LNK_L_PAT) 31 30 = 0)) ∧
    ((tRef tPatterns).refOk 4 = true ∧ (tRef tPatterns).portState 4 = 7 ∧
    (∀ i < 4, (tRef tPatterns).fld (lnkLane (4 * 4 + i) Reg.LNK_L_PAT) 31 30 ≠ 0)) ∧
    ((tLink 4).portState (16 / 4) = 4 ∧ (tLink 4).aligned 16 = false ∧ ((tLink 4).linkAt (16 / 4)).lanes.length = 4) ∧
    ((tExpects (tLink 5)).portUp (16 / 4) = true ∧ ((tExpects (tLink 5)).laneAt 16).rxIdle = false ∧ ((tExpects (tLink 5)).linkAt (16 / 4)).lanes.length = 4 ∧
    ((tExpects (tLink 5)).laneAt 16).takeMarker (tMarker 0) = some ((tGot (tExpects (tLink 5)) 0).1, (tGot (tExpects (tLink 5)) 0).2.1, (tGot (tExpects (tLink 5)) 0).2.2.1,
      (tGot (tExpects (tLink 5)) 0).2.2.2.1, (tGot (tExpects (tLink 5)) 0).2.2.2.2) ∧
    markerOf (tGot (tExpects (tLink 5)) 0).1 = MarkerFind.good) ∧
    ((tExpects (tLink 5)).portUp (16 / 4) = true ∧ ((tExpects (tLink 5)).laneAt 16).rxIdle = false ∧ ((tExpects (tLink 5)).linkAt (16 / 4)).lanes.length = 4 ∧
    ((tExpects (tLink 5)).laneAt 16).takeMarker (tMarker 2) = some ((tGot (tExpects (tLink 5)) 2).1, (tGot (tExpects (tLink 5)) 2).2.1, (tGot (tExpects (tLink 5)) 2).2.2.1,
      (tGot (tExpects (tLink 5)) 2).2.2.2.1, (tGot (tExpects (tLink 5)) 2).2.2.2.2) ∧
    markerOf (tGot (tExpects (tLink 5)) 2).1 = MarkerFind.idle) ∧
    ((tLink 5).portUp (16 / 4) = true ∧ ((tLink 5).laneAt 16).rxIdle = false ∧ ((tLink 5).linkAt (16 / 4)).lanes.length = 4 ∧
    ((tLink 5).laneAt 16).takeMarker (tMarker 2) = some ((tGot (tLink 5) 2).1, (tGot (tLink 5) 2).2.1, (tGot (tLink 5) 2).2.2.1,
      (tGot (tLink 5) 2).2.2.2.1, (tGot (tLink 5) 2).2.2.2.2) ∧
    markerOf (tGot (tLink 5) 2).1 = MarkerFind.idle) ∧
    ((tExpects (tLink 5)).portUp (16 / 4) = true ∧ ((tExpects (tLink 5)).laneAt 16).rxIdle = false ∧ ((tExpects (tLink 5)).linkAt (16 / 4)).lanes.length = 4 ∧
    ((tExpects (tLink 5)).laneAt 16).takeMarker (tMarker 1) = some ((tGot (tExpects (tLink 5)) 1).1, (tGot (tExpects (tLink 5)) 1).2.1, (tGot (tExpects (tLink 5)) 1).2.2.1,
      (tGot (tExpects (tLink 5)) 1).2.2.2.1, (tGot (tExpects (tLink 5)) 1).2.2.2.2) ∧
    markerOf (tGot (tExpects (tLink 5)) 1).1 = MarkerFind.bad ∧ ((tExpects (tLink 5)).laneAt 16).badMarkers < 2) ∧
    ((tExpects tBadMarkers).portUp (16 / 4) = true ∧ ((tExpects tBadMarkers).laneAt 16).rxIdle = false ∧ ((tExpects tBadMarkers).linkAt (16 / 4)).lanes.length = 4 ∧
    ((tExpects tBadMarkers).laneAt 16).takeMarker (tMarker 3) = some ((tGot (tExpects tBadMarkers) 3).1, (tGot (tExpects tBadMarkers) 3).2.1, (tGot (tExpects tBadMarkers) 3).2.2.1,
      (tGot (tExpects tBadMarkers) 3).2.2.2.1, (tGot (tExpects tBadMarkers) 3).2.2.2.2) ∧
    markerOf (tGot (tExpects tBadMarkers) 3).1 = MarkerFind.bad ∧ 2 ≤ ((tExpects tBadMarkers).laneAt 16).badMarkers) ∧
    ((tRetries 8).portUp 4 = true ∧ ((tRetries 8).linkAt 4).replay ≠ []) ∧
    ((tRetries 1).portUp 4 = true ∧ ((tRetries 1).linkAt 4).replay ≠ []) ∧
    (tQuiet.portUp 4 = true ∧ tQuiet.fld (lnkPort 4 Reg.LNK_P_IDLE_TIMER) 15 0 ≠ 0 ∧ (tQuiet.linkAt 4).quiet = true ∧
    (tQuiet.linkAt 4).replay = [] ∧ (tQuiet.linkAt 4).idleTx = false) ∧
    ((tOther ({ LinkPort.init with nak := true, idleTx := true })).portUp 4 = true ∧
    ((tOther ({ LinkPort.init with nak := true, idleTx := true })).linkAt 4).idleTx = true ∧
    ((tOther ({ LinkPort.init with nak := true, idleTx := true })).linkAt 4).quiet = false) := by
  iterate 14 refine ⟨by decide +kernel, ?_⟩
  decide +kernel

/-- The premises of LinkAndFunctionCommandsComplete, clauses 1, 2.1.1, 2.1.2, 2.1.3, 2.1.4.1, 2.1.4.2, 2.1.4.3, 2.1.4.4, 2.1.4.5, 2.1.4.6, 2.1.4.7, 2.1.4.8, 2.2.1, 2.2.2.1.1, 2.2.2.2, 2.2.3.1.1, 2.2.3.2, 3.1.1, 3.1.2, 3.2. -/
theorem test_premises_of_link_and_function_commands_complete :
    (tReady.linkUp 0 = true) ∧
    ((tNotReady false).fnUp 0 = true ∧ (tNotReady false).isReady = false ∧ (tNotReady false).inRecovery = false) ∧
    ((tNotReady true).fnUp 0 = true ∧ (tNotReady true).isReady = false ∧ (tNotReady true).inRecovery = true) ∧
    (tReady.fnUp 63 = true ∧ tReady.isReady = true ∧ tReady.fnLive 63 = false) ∧
    (tReady.fnUp 0 = true ∧ tReady.isReady = true ∧ tReady.fnLive 0 = true) ∧
    (tVirtual.fnUp 0 = true ∧ tVirtual.isReady = true ∧ tVirtual.fnLive 0 = true) ∧
    (tReady.fnUp 0 = true ∧ tReady.isReady = true ∧ tReady.fnLive 0 = true) ∧
    (tVectors.fnUp 0 = true ∧ tVectors.isReady = true ∧ tVectors.fnLive 0 = true) ∧
    (tReady.fnUp 0 = true ∧ tReady.isReady = true ∧ tReady.fnLive 0 = true) ∧
    (tRings.fnUp 0 = true ∧ tRings.isReady = true ∧ tRings.fnLive 0 = true ∧ (tRings.fnAt 0).d3hot = false) ∧
    (tVectors.fnUp 0 = true ∧ tVectors.isReady = true ∧ tVectors.fnLive 0 = true ∧ (tVectors.fnAt 0).d3hot = true ∧
    tVectors.rd (pageReg 0 Reg.HIF_KICK) = 0 ∧ (∀ q ∈ tVectors.cqsOf 0, (tVectors.cqAt 0 q).waiting = [])) ∧
    (tRings.fnUp 0 = true ∧ tRings.isReady = true ∧ tRings.fnLive 0 = true) ∧
    (tBar4At.fnReach 0 = true ∧ (tBar4At.fnAt 0).d3hot = false ∧
    (1099511628032, 44) ∈ ((fun write n => tBar4At.bar4Plan 0 0 write tFind (n / 256 + 2) 0 n) false 300).1.2) ∧
    (tBar4At.fnReach 0 = true ∧ (tBar4At.fnAt 0).d3hot = false ∧ 0 + 300 ≤ tBar4At.bar4Bytes 0 ∧
    (fun write n => tBar4At.bar4Plan 0 0 write tFind (n / 256 + 2) 0 n) false 300 = ((none, (tPlan tBar4At false
      300).1.2), (tPlan tBar4At false 300).2) ∧
    (tPlan tBar4At false 300).2.bar4Get (tPlan tBar4At false 300).1.2 tFind = (((tPlan tBar4At false 300).2.bar4Get
      (tPlan tBar4At false 300).1.2 tFind).1, ((tPlan tBar4At false 300).2.bar4Get (tPlan tBar4At false 300).1.2
      tFind).2) ∧ ((tPlan tBar4At false 300).2.bar4Get (tPlan tBar4At false 300).1.2 tFind).1.status = 0) ∧
    (tBarMode.fnReach 0 = true ∧ (tBarMode.fnAt 0).d3hot = false ∧ 0 + 4 ≤ tBarMode.bar4Bytes 0 ∧
    (fun write n => tBarMode.bar4Plan 0 0 write tFind (n / 256 + 2) 0 n) false 4 = ((some 16, (tPlan tBarMode false
      4).1.2), (tPlan tBarMode false 4).2)) ∧
    (tBar4At.fnReach 0 = true ∧ (tBar4At.fnAt 0).d3hot = false ∧ 0 + [5, 6].length ≤ tBar4At.bar4Bytes 0 ∧
    (fun write n => tBar4At.bar4Plan 0 0 write tFind (n / 256 + 2) 0 n) true [5, 6].length = ((none, (tPlan tBar4At
      true 2).1.2), (tPlan tBar4At true 2).2) ∧
    (tPlan tBar4At true 2).2.bar4Put (tPlan tBar4At true 2).1.2 [5, 6] tFind = (((tPlan tBar4At true 2).2.bar4Put
      (tPlan tBar4At true 2).1.2 [5, 6] tFind).1, ((tPlan tBar4At true 2).2.bar4Put (tPlan tBar4At true 2).1.2 [5, 6]
      tFind).2) ∧ ((tPlan tBar4At true 2).2.bar4Put (tPlan tBar4At true 2).1.2 [5, 6] tFind).1.status = 0) ∧
    (tBarMode.fnReach 0 = true ∧ (tBarMode.fnAt 0).d3hot = false ∧ 0 + [5, 6].length ≤ tBarMode.bar4Bytes 0 ∧
    (fun write n => tBarMode.bar4Plan 0 0 write tFind (n / 256 + 2) 0 n) true [5, 6].length = ((some 16, (tPlan
      tBarMode true 2).1.2), (tPlan tBarMode true 2).2)) ∧
    (tWaitCpl.ringEnabled 0 true 2 = true ∧ (tWaitCpl.cqAt 0 2).waiting = [tCpl] ∧ tWaitCpl.cqFull 0 2 = false ∧
    (tWaitCpl.fnAt 0).d3hot = false ∧ tWaitCpl.fnUp 0 = true) ∧
    (tWaitCpl.ringEnabled 0 true 2 = true ∧ (tWaitCpl.cqAt 0 2).waiting = [tCpl] ∧ tWaitCpl.cqFull 0 2 = false ∧
    (tWaitCpl.fnAt 0).d3hot = false ∧ tWaitCpl.fnUp 0 = true) ∧
    (tDelay.ringEnabled 0 true 2 = true ∧ tDelay.fld (ringKey 0 true 2 12) 31 16 ≠ 0 ∧ (tDelay.cqAt 0 2).since ≠ 0) ∧
    (tBar4At.fnReach 0 = true ∧ 0 + [5, 6].length ≤ tBar4At.bar4Bytes 0 ∧ (tBar4At.fnAt 0).d3hot = false) ∧
    (tD3.fnReach 0 = true ∧ (tD3.fnAt 0).d3hot = true ∧ 0 + 300 ≤ tD3.bar4Bytes 0) ∧
    (tD3.fnReach 0 = true ∧ (tD3.fnAt 0).d3hot = true ∧ 0 + [5, 6].length ≤ tD3.bar4Bytes 0) ∧
    (tBar4At.fnReach 0 = true ∧ (tBar4At.fnAt 0).d3hot = false ∧ 0 + 300 ≤ tBar4At.bar4Bytes 0 ∧
    (fun write n => tBar4At.bar4Plan 0 0 write tDamage (n / 256 + 2) 0 n) false 300 = ((none, (tPlan tBar4At false
      300).1.2), (tPlan tBar4At false 300).2) ∧
    (tPlan tBar4At false 300).2.bar4Get (tPlan tBar4At false 300).1.2 tDamage = (((tPlan tBar4At false 300).2.bar4Get (tPlan tBar4At false 300).1.2 tDamage).1,
      ((tPlan tBar4At false 300).2.bar4Get (tPlan tBar4At false 300).1.2 tDamage).2) ∧
    ((tPlan tBar4At false 300).2.bar4Get (tPlan tBar4At false 300).1.2 tDamage).1.status ≠ 0) ∧
    (tBar4At.fnReach 0 = true ∧ (tBar4At.fnAt 0).d3hot = false ∧ 0 + [5, 6].length ≤ tBar4At.bar4Bytes 0 ∧
    (fun write n => tBar4At.bar4Plan 0 0 write tDamage (n / 256 + 2) 0 n) true [5, 6].length = ((none, (tPlan tBar4At
      true 2).1.2), (tPlan tBar4At true 2).2) ∧
    (tPlan tBar4At true 2).2.bar4Put (tPlan tBar4At true 2).1.2 [5, 6] tDamage = (((tPlan tBar4At true 2).2.bar4Put (tPlan tBar4At true 2).1.2 [5, 6] tDamage).1,
      ((tPlan tBar4At true 2).2.bar4Put (tPlan tBar4At true 2).1.2 [5, 6] tDamage).2) ∧
    ((tPlan tBar4At true 2).2.bar4Put (tPlan tBar4At true 2).1.2 [5, 6] tDamage).1.status ≠ 0) := by
  iterate 24 refine ⟨by decide +kernel, ?_⟩
  decide +kernel

/-- The premises of RingCommandsComplete, clauses 1.1, 1.2, 1.2, 1.3.2.1, 1.3.2.1, 1.3.2.3, 1.4.1, 1.4.1, 1.4.2, 2.1, 2.2, 2.2, 3, 4, 5.1, 5.2, 5.3, 5.3, 5.4, 5.5, 5.6, 1.3.2.2, 1.3.1. -/
theorem test_premises_of_ring_commands_complete :
    (tRings.fnReach (if true = true then 0 else 0) = true ∧
    (tRings.fnAt (if true = true then 0 else 0)).d3hot = false ∧ (tRings.fnAt 0).d3hot = false ∧
    (tRings.fnAt 0).fetching = [] ∧ tRings.rd (pageReg 0 Reg.HIF_KICK) = 0 ∧
    tRings.readsOut (tRings.linkOf 0) + 32 ≤ 256) ∧
    (tRings.fnReach (if false = true then 0 else 0) = true ∧
    (tRings.fnAt (if false = true then 0 else 0)).d3hot = false) ∧
    (tReady.fnReach (if false = true then 0 else 0) = true ∧
    (tReady.fnAt (if false = true then 0 else 0)).d3hot = false) ∧
    ((tSel false 4).fnReach (if false = true then 0 else 0) = true ∧
    ((tSel false 4).fnAt (if false = true then 0 else 0)).d3hot = false ∧
    (tSel false 4).fld (ringKey 0 ((tSel false 4).selCq 0) ((tSel false 4).selRing 0) 16) 31 30 ≠ 1 ∧
    (tSel false 4).fld (ringKey 0 ((tSel false 4).selCq 0) ((tSel false 4).selRing 0) 16) 31 30 ≠ 2 ∧
    (tSel false 4).fnLive 0 = true ∧ ((tSel false 4).fnAt 0).d3hot = false ∧
    (tSel false 4).enableCause 0 ((tSel false 4).selCq 0) ((tSel false 4).selRing 0) = 0) ∧
    ((tSel true 4).fnReach (if false = true then 0 else 0) = true ∧
    ((tSel true 4).fnAt (if false = true then 0 else 0)).d3hot = false ∧
    (tSel true 4).fld (ringKey 0 ((tSel true 4).selCq 0) ((tSel true 4).selRing 0) 16) 31 30 ≠ 1 ∧
    (tSel true 4).fld (ringKey 0 ((tSel true 4).selCq 0) ((tSel true 4).selRing 0) 16) 31 30 ≠ 2 ∧
    (tSel true 4).fnLive 0 = true ∧ ((tSel true 4).fnAt 0).d3hot = false ∧ (tSel true 4).enableCause 0 ((tSel true 4).selCq 0) ((tSel true 4).selRing 0) = 0) ∧
    ((tSel false 5).fnReach (if false = true then 0 else 0) = true ∧
    ((tSel false 5).fnAt (if false = true then 0 else 0)).d3hot = false ∧
    (tSel false 5).fld (ringKey 0 ((tSel false 5).selCq 0) ((tSel false 5).selRing 0) 16) 31 30 ≠ 1 ∧
    (tSel false 5).fld (ringKey 0 ((tSel false 5).selCq 0) ((tSel false 5).selRing 0) 16) 31 30 ≠ 2 ∧
    (tSel false 5).fnLive 0 = true ∧ ((tSel false 5).fnAt 0).d3hot = false ∧
    (tSel false 5).enableCause 0 ((tSel false 5).selCq 0) ((tSel false 5).selRing 0) ≠ 0) ∧
    ((tSel false 3).fnReach (if false = true then 0 else 0) = true ∧
    ((tSel false 3).fnAt (if false = true then 0 else 0)).d3hot = false ∧
    ((tSel false 3).selCq 0 = false ∨ (tSel false 3).cqHeld 0 ((tSel false 3).selRing 0) = false)) ∧
    ((tSel true 4).fnReach (if false = true then 0 else 0) = true ∧
    ((tSel true 4).fnAt (if false = true then 0 else 0)).d3hot = false ∧
    ((tSel true 4).selCq 0 = false ∨ (tSel true 4).cqHeld 0 ((tSel true 4).selRing 0) = false)) ∧
    ((tSel true 2).fnReach (if false = true then 0 else 0) = true ∧
    ((tSel true 2).fnAt (if false = true then 0 else 0)).d3hot = false ∧ (tSel true 2).selCq 0 = true ∧
    (tSel true 2).cqHeld 0 ((tSel true 2).selRing 0) = true) ∧
    (0 ∈ (tFetching.fnAt 0).fetching ∧
    (∀ k < 64, tFetching.linkOf k = tFetching.linkOf 0 → tFetching.rd (pageReg k Reg.HIF_KICK) = 0) ∧
    (∀ r ∈ tFetching.sqsOf 0, r / 32 = 0 → tFetching.ringEnabled 0 false r = true → ((recordCount (List.replicate 32
      (natBytes 8 5)).flatten (r % 32)) + 2 ^ 32 - (tFetching.sqAt 0 r).tail) % 2 ^ 32 < 2 ^ 31 ∧ ((recordCount
      (List.replicate 32 (natBytes 8 5)).flatten (r % 32)) + 2 ^ 32 - tFetching.rdN (ringKey 0 false r 20)) % 2 ^ 32
      ≤ 2 ^ tFetching.ringLog2 0 false r)) ∧
    (0 ∈ (tFetching.fnAt 0).fetching ∧
    (∀ k < 64, tFetching.linkOf k = tFetching.linkOf 0 → tFetching.rd (pageReg k Reg.HIF_KICK) = 0) ∧
    Instr.dbrecFetchDone 0 0 ⟨none, 0⟩ ∈ [Instr.dbrecFetchDone 0 0 ⟨none, 0⟩, Instr.hostReadTimeout 0 false ⟨0, by decide⟩]) ∧
    (0 ∈ (tFetching.fnAt 0).fetching ∧
    (∀ k < 64, tFetching.linkOf k = tFetching.linkOf 0 → tFetching.rd (pageReg k Reg.HIF_KICK) = 0) ∧
    Instr.hostReadTimeout 0 false 0 ∈ [Instr.dbrecFetchDone 0 0 ⟨none, 0⟩, Instr.hostReadTimeout 0 false ⟨0, by decide⟩]) ∧
    (tDue.entryDue 0 3 = true) ∧
    (tFullCq.ringEnabled 0 true 2 = true ∧ tFullCq.cqFull 0 2 = true ∧ (tFullCq.fnAt 0).d3hot = false ∧
    tFullCq.fnUp 0 = true) ∧
    (tPdue.entryReady 0 3 (tOpEnt 1 0) ∧ (tPdue.ringEntry 0 (tOpEnt 1 0)).op = 1 ∧
    (tPdue.entryTaken 0 3).partOfFn 0 = some 0 ∧
    ((tPdue.ringEntry 0 (tOpEnt 1 0)).pinned = false ∨ (tPdue.ringEntry 0 (tOpEnt 1 0)).handle < 16 ∧
      (tPdue.entryTaken 0 3).handleLive 0 (tPdue.ringEntry 0 (tOpEnt 1 0)).handle = true)) ∧
    (tPdue.entryReady 0 3 (tEnt (2 * 2 ^ 24) (natBytes 8 1099511627776 ++ natBytes 4 3664)) ∧
    (tPdue.ringEntry 0 (tEnt (2 * 2 ^ 24) (natBytes 8 1099511627776 ++ natBytes 4 3664))).op = 2 ∧
    imgN (tPdue.ringEntry 0 (tEnt (2 * 2 ^ 24) (natBytes 8 1099511627776 ++ natBytes 4 3664))).params 0 8 % 256 = 0 ∧
    imgN (tPdue.ringEntry 0 (tEnt (2 * 2 ^ 24) (natBytes 8 1099511627776 ++ natBytes 4 3664))).params 8 4 % 4 = 0 ∧
    imgN (tPdue.ringEntry 0 (tEnt (2 * 2 ^ 24) (natBytes 8 1099511627776 ++ natBytes 4 3664))).params 12 4 = 0 ∧
    imgN (tPdue.ringEntry 0 (tEnt (2 * 2 ^ 24) (natBytes 8 1099511627776 ++ natBytes 4 3664))).params 16 8 % 4096 = 0 ∧
    imgN (tPdue.ringEntry 0 (tEnt (2 * 2 ^ 24) (natBytes 8 1099511627776 ++ natBytes 4 3664))).params 24 8 = 0) ∧
    (tPdue.entryReady 0 3 (tOpEnt 3 0) ∧ (tPdue.ringEntry 0 (tOpEnt 3 0)).op = 3) ∧
    (tTaken3.entryReady 0 3 (tOpEnt 3 0) ∧ (tTaken3.ringEntry 0 (tOpEnt 3 0)).op = 3) ∧
    (tPdue.entryReady 0 3 (tOpEnt 4 0) ∧ (tPdue.ringEntry 0 (tOpEnt 4 0)).op = 4) ∧
    (tPinDue.entryReady 0 3 (tOpEnt 5 2) ∧ (tPinDue.ringEntry 0 (tOpEnt 5 2)).op = 5 ∧
    (tPinDue.entryTaken 0 3).partOfFn 0 = some 0 ∧ (tPinDue.ringEntry 0 (tOpEnt 5 2)).handle < 16 ∧
    (∀ y ∈ (tPinDue.entryTaken 0 3).pins, y.1 ≠ 16 * 0 + (tPinDue.ringEntry 0 (tOpEnt 5 2)).handle) ∧
    (tPinDue.entryTaken 0 3).checkImage ((tPinDue.entryTaken 0 3).ctrlAgent ((maskQuarters ((tPinDue.entryTaken 0
      3).ringPart 0).quarters).headD 0)) (imgN (tPinDue.ringEntry 0 (tOpEnt 5 2)).params 0 8) tFind = (tPinned.1,
      tPinned.2.1, tPinned.2.2.1, tPinned.2.2.2)) ∧
    (tHandleBusy.entryReady 0 3 (tOpEnt 6 0) ∧ (tHandleBusy.ringEntry 0 (tOpEnt 6 0)).op = 6 ∧
    (tHandleBusy.ringEntry 0 (tOpEnt 6 0)).handle < 16 ∧ ((tHandleBusy.entryTaken 0 3).partOfFn 0).isSome = true ∧
    (tHandleBusy.entryTaken 0 3).handleLive 0 (tHandleBusy.ringEntry 0 (tOpEnt 6 0)).handle = true ∧
    (tHandleBusy.entryTaken 0 3).handleBusy 0 (tHandleBusy.ringEntry 0 (tOpEnt 6 0)).handle = true) ∧
    ((tSel false 4).fnReach (if false = true then 0 else 0) = true ∧
    ((tSel false 4).fnAt (if false = true then 0 else 0)).d3hot = false ∧
    (tSel false 4).fld (ringKey 0 ((tSel false 4).selCq 0) ((tSel false 4).selRing 0) 16) 31 30 ≠ 1 ∧
    (tSel false 4).fld (ringKey 0 ((tSel false 4).selCq 0) ((tSel false 4).selRing 0) 16) 31 30 ≠ 2 ∧
    (tSel false 4).fnLive 0 = true ∧ ((tSel false 4).fnAt 0).d3hot = false ∧
    (tSel false 4).enableCause 0 ((tSel false 4).selCq 0) ((tSel false 4).selRing 0) = 0 ∧
    (tSel false 4).selCq 0 = false) ∧
    (tReady.fnReach (if true = true then 0 else 63) = true ∧
    (tReady.fnAt (if true = true then 0 else 63)).d3hot = false ∧ (tReady.fnLive 63 = false ∨ (tReady.fnAt 63).d3hot = true)) ∧
    (tSleeps.fnReach (if true = true then 0 else 1) = true ∧
    (tSleeps.fnAt (if true = true then 0 else 1)).d3hot = false ∧
    (tSleeps.fnLive 1 = false ∨ (tSleeps.fnAt 1).d3hot = true)) ∧
    (tPinDue.entryReady 0 3 (tOpEnt 5 16) ∧ (tPinDue.ringEntry 0 (tOpEnt 5 16)).op = 5 ∧
    ((tPinDue.entryTaken 0 3).partOfFn 0).isSome = true ∧ (16 ≤ (tPinDue.ringEntry 0 (tOpEnt 5 16)).handle ∨
      ∃ y ∈ (tPinDue.entryTaken 0 3).pins, y.1 = 16 * 0 + (tPinDue.ringEntry 0 (tOpEnt 5 16)).handle)) ∧
    ((tFnPins tPinDue 2).entryReady 0 3 (tOpEnt 5 2) ∧ ((tFnPins tPinDue 2).ringEntry 0 (tOpEnt 5 2)).op = 5 ∧
    (((tFnPins tPinDue 2).entryTaken 0 3).partOfFn 0).isSome = true ∧
    (16 ≤ ((tFnPins tPinDue 2).ringEntry 0 (tOpEnt 5 2)).handle ∨ ∃ y ∈ ((tFnPins tPinDue 2).entryTaken 0 3).pins,
      y.1 = 16 * 0 + ((tFnPins tPinDue 2).ringEntry 0 (tOpEnt 5 2)).handle)) := by
  iterate 10 refine ⟨by decide +kernel, ?_⟩
  iterate 2 refine ⟨⟨by decide +kernel, by decide +kernel, by simp⟩, ?_⟩
  iterate 2 refine ⟨by decide +kernel, ?_⟩
  iterate 5 refine ⟨⟨entryReady_of_no_writes (by decide +kernel), by decide +kernel⟩, ?_⟩
  refine ⟨⟨entryReady_of_no_writes (by decide +kernel), by decide +kernel, by decide +kernel, by decide +kernel,
    by decide +kernel, by rw [← tPinU, ← tPinned]⟩, ?_⟩
  refine ⟨⟨entryReady_of_no_writes (by decide +kernel), by decide +kernel⟩, ?_⟩
  iterate 3 refine ⟨by decide +kernel, ?_⟩
  refine ⟨⟨entryReady_of_no_writes (by decide +kernel), by decide +kernel⟩, ?_⟩
  exact ⟨entryReady_of_no_writes (by decide +kernel), by decide +kernel⟩

/-- The premises of SecurityServicesComplete, clauses 1.1, 1.1, 1.2.1, 1.2.2, 2, 2, 3, 3, 3, 3.4.2, 3, 3, 3, 3, 3, 3, 3, 3, 4, 5. -/
theorem test_premises_of_security_services_complete :
    ((tSec 1).fnReach 0 = true ∧ ((tSec 1).fnAt 0).d3hot = false ∧ (tSec 1).sec.service = none ∧
    (16, Instr.attest) ∈ [(16, Instr.attest), (17, Instr.extend), (18, Instr.setTime), (32, Instr.installOck), (33,
      Instr.installUak), (34, Instr.installSignerKeys), (35, Instr.transferOwnership), (36, Instr.revokeVendorSlot),
      (37, Instr.installFirmware), (38, Instr.advanceCounter), (48, Instr.zeroise), (49, Instr.scrap)] ∧
    ((tSec 1).secState = 1 ∨ (tSec 1).secState = 3 ∧ isUser tMac = false) ∧ (tSec 1).sec.lockout = false) ∧
    ((tSec 1).fnReach 0 = true ∧ ((tSec 1).fnAt 0).d3hot = false ∧ (tSec 1).sec.service = none ∧
    (16, Instr.attest) ∈ [(16, Instr.attest), (17, Instr.extend), (18, Instr.setTime), (32, Instr.installOck), (33,
      Instr.installUak), (34, Instr.installSignerKeys), (35, Instr.transferOwnership), (36, Instr.revokeVendorSlot),
      (37, Instr.installFirmware), (38, Instr.advanceCounter), (48, Instr.zeroise), (49, Instr.scrap)] ∧
    ((tSec 1).secState = 1 ∨ (tSec 1).secState = 3 ∧ isUser Credential.none = false) ∧ (tSec 1).sec.lockout = false) ∧
    ((tSec 1).fnReach 0 = true ∧ ((tSec 1).fnAt 0).d3hot = false ∧ (tSec 1).sec.service = none ∧
    ((tSec 1).secState = 1 ∨ (tSec 1).secState = 3)) ∧
    ((tSec 1).fnReach 0 = true ∧ ((tSec 1).fnAt 0).d3hot = false ∧ (tSec 1).sec.service = none ∧
    ((tSec 1).secState = 1 ∨ (tSec 1).secState = 3)) ∧
    ((tService 2 [] false 0).fnReach 0 = true ∧ ((tService 2 [] false 0).fnAt 0).d3hot = false ∧
    (tService 2 [] false 0).sec.service ≠ none ∧ Instr.challenge ∈ [Instr.selfTest, Instr.challenge]) ∧
    ((tService 2 [] false 0).fnReach 0 = true ∧ ((tService 2 [] false 0).fnAt 0).d3hot = false ∧
    (tService 2 [] false 0).sec.service ≠ none ∧ Instr.zeroise Credential.none ∈ [Instr.attest .none, Instr.extend .none,
      Instr.setTime .none, Instr.installOck .none, Instr.installUak .none, Instr.installSignerKeys .none,
      Instr.transferOwnership .none, Instr.revokeVendorSlot .none, Instr.installFirmware .none, Instr.advanceCounter .none,
      Instr.zeroise .none, Instr.scrap .none]) ∧
    ((tService 1 [] false 0).sec.service = some (tSvc 1 [] false 0)) ∧
    ((tService 1 [] false 0).sec.service = some (tSvc 1 [] false 0)) ∧
    ((tService 2 [] false 118).sec.service = some (tSvc 2 [] false 118)) ∧
    ((tService 2 [] false 0).sec.service = some (tSvc 2 [] false 0)) ∧
    ((tService 17 (8 :: List.replicate 64 3) false 0).sec.service = some (tSvc 17 (8 :: List.replicate 64 3) false 0)) ∧
    ((tService 18 (natBytes 8 4886718345) true 0).sec.service = some (tSvc 18 (natBytes 8 4886718345) true 0)) ∧
    ((tService 34 [16, 1, 2, 3] true 0).sec.service = some (tSvc 34 [16, 1, 2, 3] true 0)) ∧
    ((tService 34 [16, 1, 2, 4] true 0).sec.service = some (tSvc 34 [16, 1, 2, 4] true 0)) ∧
    ((tService 36 [2] true 0).sec.service = some (tSvc 36 [2] true 0)) ∧
    ((tService 38 [20, 5, 0, 0, 0] true 0).sec.service = some (tSvc 38 [20, 5, 0, 0, 0] true 0)) ∧
    ((tService 48 [] true 0).sec.service = some (tSvc 48 [] true 0)) ∧
    ((tService 49 [] true 0).sec.service = some (tSvc 49 [] true 0)) ∧
    (tLockout.sec.lockout = true) ∧
    ((tSec 1).board.held = false ∧ (tSec 1).secState ≠ 4) := by
  iterate 2 refine ⟨⟨by decide +kernel, by decide +kernel, by decide +kernel, by simp, by decide +kernel⟩, ?_⟩
  iterate 2 refine ⟨by decide +kernel, ?_⟩
  iterate 2 refine ⟨⟨by decide +kernel, by decide +kernel, by decide +kernel, by simp⟩, ?_⟩
  iterate 13 refine ⟨by decide +kernel, ?_⟩
  decide +kernel

/-- The premises of TwinCommandsComplete, clauses 1.1, 1.2, 1.3, 1.4, 1.5, 1.6, 1.7, 2, 2, 3, 4.1, 4.2, 5.1, 5.2, 5.3, 5.4, 5.5. -/
theorem test_premises_of_twin_commands_complete :
    (tAttach.fnReach 0 = true ∧ (tAttach.fnAt 0).d3hot = false ∧ tAttach.attachCause = 0) ∧
    (tReady.fnReach 0 = true ∧ (tReady.fnAt 0).d3hot = false ∧ tReady.attachCause ≠ 0) ∧
    ((tTwin 2).fnReach 0 = true ∧ ((tTwin 2).fnAt 0).d3hot = false ∧ (tTwin 2).twinState ≠ 3) ∧
    ((tTwin 3).fnReach 0 = true ∧ ((tTwin 3).fnAt 0).d3hot = false ∧ (tTwin 3).twinState = 3) ∧
    ((tTwin 4).fnReach 0 = true ∧ ((tTwin 4).fnAt 0).d3hot = false ∧
    ((tTwin 4).twinState = 3 ∨ (tTwin 4).twinState = 4)) ∧
    ((tMirrors 5 [tXfer .sync]).fnReach 0 = true ∧ ((tMirrors 5 [tXfer .sync]).fnAt 0).d3hot = false ∧
    (tMirrors 5 [tXfer .sync]).twinState = 5 ∧
    (∃ x ∈ (tMirrors 5 [tXfer .sync]).twin.writes, x.act ≠ MirrorWrite.heartbeat)) ∧
    ((tTwin 2).fnReach 0 = true ∧ ((tTwin 2).fnAt 0).d3hot = false ∧ (tTwin 2).twinState = 2 ∧
    (tTwin 2).mirroredJobs = []) ∧
    ((tTwin 1).fnReach 0 = true ∧ ((tTwin 1).fnAt 0).d3hot = false ∧
    ((tTwin 1).twinState < 2 ∨ 5 < (tTwin 1).twinState)) ∧
    ((tTwin 1).twinState = 1 ∧ (tTwin 1).rbit (twnReg Reg.TWN_STATUS) 19 = false ∧
    MirrorWrite.sync ∉ (tTwin 1).twin.writes.map (·.act)) ∧
    (((tTwin 1).setBits (twnReg Reg.TWN_STATUS) (2 ^ 18)).twinState = 1 ∧
    ((tTwin 1).setBits (twnReg Reg.TWN_STATUS) (2 ^ 18)).rbit (twnReg Reg.TWN_STATUS) 19 = false ∧
    MirrorWrite.sync ∉ ((tTwin 1).setBits (twnReg Reg.TWN_STATUS) (2 ^ 18)).twin.writes.map (·.act)) ∧
    ((tTwin 1).twinState ≠ 0) ∧
    ((tBeats 1).twinState ≠ 0 ∧
    (tBeats 1).roundTrip (twinAgent (tBeats 1).twinPort) ((tBeats 1).rd64 (twnReg Reg.TWN_MIRROR_BASE)) 32 none tFind
      = ((tBeatAns 1).1, (tBeatAns 1).2) ∧ (tBeatAns 1).1.status = 0 ∧
    bitsOf (bytesNat (List.take 8 (tBeatAns 1).1.data)) 31 0 ≠ (tBeatAns 1).2.twin.seen ∧
    (¬(3 ≤ bitsOf (bytesNat (List.take 8 (tBeatAns 1).1.data)) 35 32 ∧ bitsOf (bytesNat (List.take 8 (tBeatAns
      1).1.data)) 35 32 ≤ 5))) ∧
    ((tBeats 0).twinState ≠ 0 ∧
    (tBeats 0).roundTrip (twinAgent (tBeats 0).twinPort) ((tBeats 0).rd64 (twnReg Reg.TWN_MIRROR_BASE)) 32 none tFind
      = ((tBeatAns 0).1, (tBeatAns 0).2) ∧ (tBeatAns 0).1.status = 0 ∧
    bitsOf (bytesNat (List.take 8 (tBeatAns 0).1.data)) 31 0 = (tBeatAns 0).2.twin.seen ∧
    (tBeatAns 0).2.twin.misses + 1 < (tBeatAns 0).2.fld (twnReg Reg.TWN_HB_MISS) 7 0 ∧
    (¬(3 ≤ bitsOf (bytesNat (List.take 8 (tBeatAns 0).1.data)) 35 32 ∧ bitsOf (bytesNat (List.take 8 (tBeatAns
      0).1.data)) 35 32 ≤ 5))) ∧
    ((tMirrors 2 [tXfer (.heartbeat)]).twin.writes[0]? = some (tXfer (.heartbeat)) ∧ (tXfer (.heartbeat)).todo = [] ∧ (tXfer (.heartbeat)).left = 0 ∧ (tXfer (.heartbeat)).status = 0 ∧
    (tXfer .heartbeat).act = MirrorWrite.heartbeat) ∧
    ((tMirrors 2 [tXfer (.empty)]).twin.writes[0]? = some (tXfer (.empty)) ∧ (tXfer (.empty)).todo = [] ∧ (tXfer (.empty)).left = 0 ∧ (tXfer (.empty)).status = 0 ∧
    ((tXfer .empty).act = MirrorWrite.empty ∨ (tXfer .empty).act = MirrorWrite.sync)) ∧
    (tMirJob.twin.writes[0]? = some (tXfer (.entry (.job 5))) ∧ (tXfer (.entry (.job 5))).todo = [] ∧ (tXfer (.entry (.job 5))).left = 0 ∧ (tXfer (.entry (.job 5))).status = 0 ∧
    (tXfer (.entry (.job 5))).act = MirrorWrite.entry (.job 5) ∧ tMirJob.jobAt 5 = some (tJob JobPhase.mirroring) ∧
    (tJob JobPhase.mirroring).phase = JobPhase.mirroring) ∧
    ((tMirrors 2 [tXfer (.ckpt 64 [1] 0)]).twin.writes[0]? = some (tXfer (.ckpt 64 [1] 0)) ∧ (tXfer (.ckpt 64 [1] 0)).todo = [] ∧ (tXfer (.ckpt 64 [1] 0)).left = 0 ∧ (tXfer (.ckpt 64 [1] 0)).status = 0 ∧
    (tXfer (.ckpt 64 [1] 0)).act = MirrorWrite.ckpt 64 [1] 0) ∧
    ((tMirrors 2 [tXfer (.ckpt 64 [1] 1)]).twin.writes[0]? = some (tXfer (.ckpt 64 [1] 1)) ∧ (tXfer (.ckpt 64 [1] 1)).todo = [] ∧ (tXfer (.ckpt 64 [1] 1)).left = 0 ∧ (tXfer (.ckpt 64 [1] 1)).status = 0 ∧
    (tXfer (.ckpt 64 [1] 1)).act = MirrorWrite.ckpt 64 [1] 1) ∧
    ((tMirrors 2 [tXfer (.ckpt 64 [1] 2)]).twin.writes[0]? = some (tXfer (.ckpt 64 [1] 2)) ∧ (tXfer (.ckpt 64 [1] 2)).todo = [] ∧ (tXfer (.ckpt 64 [1] 2)).left = 0 ∧ (tXfer (.ckpt 64 [1] 2)).status = 0 ∧
    (tXfer (.ckpt 64 [1] 2)).act = MirrorWrite.ckpt 64 [1] 2) ∧
    ((tRefused (.heartbeat)).twin.writes[0]? = some { tXfer (.heartbeat) with status := 0x23 } ∧
    (35 : Nat) % 256 ≠ 0 ∧ ({ tXfer (.heartbeat) with status := 0x23 } : MirrorXfer).act = MirrorWrite.heartbeat) ∧
    ((tRefused (.empty)).twin.writes[0]? = some { tXfer (.empty) with status := 0x23 } ∧
    (35 : Nat) % 256 ≠ 0 ∧ ({ tXfer (.empty) with status := 0x23 } : MirrorXfer).act ∈ [MirrorWrite.empty, MirrorWrite.sync]) ∧
    ((tRefused (.ckpt 64 [1] 2)).twin.writes[0]? = some { tXfer (.ckpt 64 [1] 2) with status := 0x23 } ∧
    (35 : Nat) % 256 ≠ 0 ∧ ({ tXfer (.ckpt 64 [1] 2) with status := 0x23 } : MirrorXfer).act = MirrorWrite.ckpt 64 [1] 2) := by
  iterate 21 refine ⟨by decide +kernel, ?_⟩
  decide +kernel

/-- The premises of BringUpEventsComplete, clauses 1, 1, 1, 1, 1, 2, 2, 2, 3, 4, 4, 5, 5, 5. -/
theorem test_premises_of_bring_up_events_complete :
    ((tBring 0).board.held = false ∧ (tBring 0).plan.stopped = false ∧ (tBring 0).inRecovery = false ∧
    (tBring 0).bootPhase < 5) ∧
    ((tBring 1).board.held = false ∧ (tBring 1).plan.stopped = false ∧ (tBring 1).inRecovery = false ∧
    (tBring 1).bootPhase < 5) ∧
    ((tBring 2).board.held = false ∧ (tBring 2).plan.stopped = false ∧ (tBring 2).inRecovery = false ∧
    (tBring 2).bootPhase < 5) ∧
    ((tBring 3).board.held = false ∧ (tBring 3).plan.stopped = false ∧ (tBring 3).inRecovery = false ∧
    (tBring 3).bootPhase < 5) ∧
    ((tBring 4).board.held = false ∧ (tBring 4).plan.stopped = false ∧ (tBring 4).inRecovery = false ∧
    (tBring 4).bootPhase < 5) ∧
    ((tBring 0).board.held = false ∧ (tBring 0).inRecovery = false ∧ (tBring 0).bootPhase ≤ 0) ∧
    ((tBring 2).board.held = false ∧ (tBring 2).inRecovery = false ∧ (tBring 2).bootPhase ≤ 2) ∧
    ((tBring 4).board.held = false ∧ (tBring 4).inRecovery = false ∧ (tBring 4).bootPhase ≤ 4) ∧
    ((tBring 4).board.held = false ∧ (tBring 4).isReady = false) ∧
    (((tBring 1).wr (drcCh 63 Reg.DRC_CH_STATE) 536870912).board.held = false) ∧
    (tReady.board.held = false) ∧
    ((tBring 3).linkUp 0 = false ∧ 1 ≠ 0 ∧ (0 = 1 → (tBring 3).rbit (hifReg Reg.HIF_STATUS) 28 = true) ∧
    ((tBring 3).rbit (hifReg Reg.HIF_STATUS) 28 = true → 0 ≤ 3) ∧ (tBring 3).board.held = false ∧
    (tBring 3).edgeReach 0 = true ∧ (3 ≤ (tBring 3).bootPhase ∨ (tBring 3).inRecovery = true)) ∧
    ((tBring 3).linkUp 0 = false ∧ 7 ≠ 0 ∧ (0 = 1 → (tBring 3).rbit (hifReg Reg.HIF_STATUS) 28 = true) ∧
    ((tBring 3).rbit (hifReg Reg.HIF_STATUS) 28 = true → 4 ≤ 3) ∧ (tBring 3).board.held = false ∧
    (tBring 3).edgeReach 0 = true ∧ (3 ≤ (tBring 3).bootPhase ∨ (tBring 3).inRecovery = true)) ∧
    (((tBring 3).setBits (hifReg Reg.HIF_STATUS) 268435456).linkUp 1 = false ∧ 1 ≠ 0 ∧
    (1 = 1 → ((tBring 3).setBits (hifReg Reg.HIF_STATUS) 268435456).rbit (hifReg Reg.HIF_STATUS) 28 = true) ∧
    (((tBring 3).setBits (hifReg Reg.HIF_STATUS) 268435456).rbit (hifReg Reg.HIF_STATUS) 28 = true → 3 ≤ 3) ∧
    ((tBring 3).setBits (hifReg Reg.HIF_STATUS) 268435456).board.held = false ∧
    ((tBring 3).setBits (hifReg Reg.HIF_STATUS) 268435456).edgeReach 0 = true ∧
    (3 ≤ ((tBring 3).setBits (hifReg Reg.HIF_STATUS) 268435456).bootPhase ∨ ((tBring 3).setBits (hifReg
      Reg.HIF_STATUS) 268435456).inRecovery = true)) := by
  iterate 13 refine ⟨by decide +kernel, ?_⟩
  decide +kernel

/-- The premises of UserLogicFollowsItsConfiguration, clauses 4.1, 4.2, 4.3, 4.4, 5.1, 5.2, 5.3, 5.4, 5.5, 5.6, 6.1, 6.2, 7, 8, 9, 10.1, 10.2. -/
theorem test_premises_of_user_logic_follows_its_configuration :
    ((∀ i < 6, tSevenBits 63 i = tSevenBits 63 i)) ∧
    ((∃ i < 6, tSevenBits 63 i ≠ tSevenBits 62 i)) ∧
    ((∀ i < 5, tSevenBits 31 i = tSevenBits 31 i)) ∧
    ((∃ i < 5, tSevenBits 31 i ≠ tSevenBits 0 i)) ∧
    ((tMem9 0).a.shape ≠ 6 ∧ (tMem9 0).b.shape ≠ 6 ∧ (tAskW 4095).enable = true ∧
    ((tAskW 4095).write = false ∨ (tMem9 0).a.mode = 0)) ∧
    ((tMem9 0).a.shape ≠ 6 ∧ (tMem9 0).b.shape ≠ 6 ∧ (tAskR 4095).enable = true ∧
    ((tAskR 4095).write = false ∨ (tMem9 0).b.mode = 0)) ∧
    ((tMem9 1).a.shape ≠ 6 ∧ (tMem9 1).b.shape ≠ 6 ∧ (tAskW 4095).enable = true ∧ (tAskW 4095).write = true ∧
    (tMem9 1).a.mode = 1) ∧
    ((tMem9 2).a.shape ≠ 6 ∧ (tMem9 2).b.shape ≠ 6 ∧ (tAskW 4095).enable = true ∧ (tAskW 4095).write = true ∧
    (tMem9 2).a.mode = 2) ∧
    ((tMem9 0).a.shape ≠ 6 ∧ (tMem9 0).b.shape ≠ 6 ∧ (tAskW 4095).enable = true ∧ (tAskW 4095).write = true ∧
    (tAskW 4095).addr < 2 ^ shapeAddr ↑(tMem9 0).a.shape) ∧
    ((tMem9 0).a.shape ≠ 6 ∧ (tMem9 0).b.shape ≠ 6 ∧ (tAskW 4095).enable = true ∧ (tAskW 4095).write = true ∧
    ((tAskR 4095).enable && (tAskR 4095).write) = false ∧
    (tAskW 4095).addr < 2 ^ shapeAddr ↑(tMem9 0).b.shape) ∧
    (tOnTap.drivers 15 (fun x => true) 15 15 = [0]) ∧
    (tReady.drivers 15 (fun x => true) 15 15 = []) ∧
    (15 < 16 ∧ 0 < 800 ∧ 127 < 128 ∧
    ((tRelCfg.releaseReset 15 (tDieLoad LoadStage.signed []) tAccepted).cfgAt 15).loadTiles tAccepted.isPartial
      tAccepted.region (tileOf 15 0) = true) ∧
    (2047 < 2048 ∧ 511 < 512 ∧
    ((tRelCfg.releaseReset 15 (tDieLoad LoadStage.signed []) tAccepted).cfgAt 15).loadTiles tAccepted.isPartial
      tAccepted.region (memTile 2047) = true) ∧
    (15 < 16 ∧ 15 < 16 ∧ tAccepted.isPartial = false) ∧
    (tReady.fld (lgaReg (dieOfCell 95) Reg.LGA_IO_BANK) 3 2 = 0) ∧
    ((tReady.wr (lgaReg 15 Reg.LGA_IO_BANK) 4).fld (lgaReg (dieOfCell 95) Reg.LGA_IO_BANK) 3 2 ≠ 0 ∧
    (tReady.wr (lgaReg 15 Reg.LGA_IO_BANK) 4).dieState (dieOfCell 95) ≠ 3) ∧
    (tMem1.a.shape ≠ 6 ∧ tMem1.b.shape ≠ 6 ∧ (tAskW 32767).enable = true ∧ (tAskW 32767).write = true ∧
    (tAskW 32767).addr < 2 ^ shapeAddr ↑tMem1.a.shape) ∧
    (tMem1.a.shape ≠ 6 ∧ tMem1.b.shape ≠ 6 ∧ (tAskW 32767).enable = true ∧ (tAskW 32767).write = true ∧
    ((tAskR 32767).enable && (tAskR 32767).write) = false ∧ (tAskW 32767).addr < 2 ^ shapeAddr ↑tMem1.b.shape) := by
  iterate 18 refine ⟨by decide +kernel, ?_⟩
  decide +kernel

end Sys2Proof.Tests
end

section
/-! SUPPORT. Every step goes on from the state it starts in (`Evolves`): the queue, outputs, free values, canonical
tables and fuses. One rule for each operation of the model, in the order of its files: an operation on a state that has
gone on from s₀ leaves one that has; a command `Leads` to such a state. -/

namespace Sys2Proof.Machine

variable {s₀ s t u : State}

theorem Evolves.refl (s : State) : Evolves s s :=
  ⟨rfl, List.prefix_rfl, le_rfl, id, id, rfl, List.prefix_rfl, id⟩

theorem Evolves.trans (h : Evolves s t) (k : Evolves t u) : Evolves s u :=
  ⟨k.queue.trans h.queue, h.out.trans k.out, h.free.trans k.free, k.mem ∘ h.mem, k.regs ∘ h.regs,
    k.factory.trans h.factory, h.field.trans k.field, k.killed ∘ h.killed⟩

/-- The parts of the state that `Evolves` speaks of. -/
def State.core (s : State) : List Instr × List Output × Nat × Table Byte × Table Word × Stored :=
  (s.pending, s.out, s.free, s.mem, s.regs, s.nv)

theorem Evolves.of_core (e : t.core = s.core) : Evolves s t := by
  simp only [State.core, Prod.mk.injEq] at e
  obtain ⟨hq, ho, hf, hm, hr, hn⟩ := e
  exact ⟨hq, ho ▸ List.prefix_rfl, hf.ge, hm ▸ id, hr ▸ id, hn ▸ rfl, hn ▸ List.prefix_rfl, hn ▸ id⟩

/-- A change outside these parts. -/
theorem Evolves.frame {poison openRows hitRuns bankQ checks sweeps patterns mtx vec chans poolLast bays ports jobs
    bar4Tlb resets nextJob queues cqs sqs fns pins qtrHandle sec cfgs loads nextLoad clkSel clkHeld clkSeen clkEdges
    tallies clocks userIo flops lutMems brams bramFlips bramOuts lines contending ioRegs taps firm fwBody fwBays noc
    nextNoc crossings swap home nextHome windows staged flights trackers links twin formed plan board test heat scale}
    (h : Evolves s₀ s) :
    Evolves s₀ { s with
      poison, openRows, hitRuns, bankQ, checks, sweeps, patterns, mtx, vec, chans, poolLast, bays,
      ports, jobs, bar4Tlb, resets, nextJob, queues, cqs, sqs, fns, pins, qtrHandle, sec, cfgs, loads, nextLoad,
      clkSel, clkHeld, clkSeen, clkEdges, tallies, clocks, userIo, flops, lutMems, brams, bramFlips, bramOuts, lines,
      contending, ioRegs, taps, firm, fwBody, fwBays, noc, nextNoc, crossings, swap, home, nextHome, windows, staged,
      flights, trackers, links, twin, formed, plan, board, test, heat, scale } :=
  h.trans (.of_core rfl)

theorem Evolves.wr {k v} (h : Evolves s₀ s) : Evolves s₀ (s.wr k v) :=
  { h with regs := fun w => tset_wf k v (h.regs w) }

theorem Evolves.emit {o} (h : Evolves s₀ s) : Evolves s₀ (s.emit o) :=
  { h with out := h.out.trans (List.prefix_append ..) }

/-- A change outside these parts that draws free values. -/
theorem Evolves.frameDraw {poison openRows hitRuns bankQ checks sweeps patterns mtx vec chans poolLast bays ports jobs
    bar4Tlb resets nextJob queues cqs sqs fns pins qtrHandle sec cfgs loads nextLoad clkSel clkHeld clkSeen clkEdges
    tallies clocks userIo flops lutMems brams bramFlips bramOuts lines contending ioRegs taps firm fwBody fwBays noc
    nextNoc crossings swap home nextHome windows staged flights trackers links twin formed plan board test heat scale}
    {n : Nat} (h : Evolves s₀ s) :
    Evolves s₀ { s with
      poison, openRows, hitRuns, bankQ, checks, sweeps, patterns, mtx, vec, chans, poolLast, bays,
      ports, jobs, bar4Tlb, resets, nextJob, queues, cqs, sqs, fns, pins, qtrHandle, sec, cfgs, loads, nextLoad,
      clkSel, clkHeld, clkSeen, clkEdges, tallies, clocks, userIo, flops, lutMems, brams, bramFlips, bramOuts, lines,
      contending, ioRegs, taps, firm, fwBody, fwBays, noc, nextNoc, crossings, swap, home, nextHome, windows, staged,
      flights, trackers, links, twin, formed, plan, board, test, heat, scale, free := s.free + n } :=
  .frame (s := { s with free := s.free + n }) { h with free := h.free.trans (Nat.le_add_right ..) }

theorem Evolves.ite_snd_snd {α β : Type} {c : Prop} [Decidable c] {x y : α × β × State} (ht : Evolves s₀ x.2.2)
    (hu : Evolves s₀ y.2.2) : Evolves s₀ (if c then x else y).2.2 := by
  split <;> assumption

theorem Evolves.ite {c : Prop} [Decidable c] (ht : Evolves s₀ t) (hu : Evolves s₀ u) :
    Evolves s₀ (if c then t else u) := by
  split <;> assumption

theorem Evolves.ite_snd {α : Type} {c : Prop} [Decidable c] {x y : α × State} (ht : Evolves s₀ x.2)
    (hu : Evolves s₀ y.2) : Evolves s₀ (if c then x else y).2 := by
  split <;> assumption

theorem Evolves.ite_snd_snd_snd {α β γ : Type} {c : Prop} [Decidable c] {x y : α × β × γ × State}
    (ht : Evolves s₀ x.2.2.2) (hu : Evolves s₀ y.2.2.2) : Evolves s₀ (if c then x else y).2.2.2 := by
  split <;> assumption

theorem Evolves.each {α : Type} {f : State → α → State} {xs : List α} (h : Evolves s₀ s)
    (hf : ∀ {s x}, Evolves s₀ s → Evolves s₀ (f s x)) : Evolves s₀ (s.each xs f) := by
  induction xs generalizing s with
  | nil => exact h
  | cons x xs ih => exact ih (hf h)

theorem Evolves.foldl {α : Type} {f : State → α → State} {xs : List α} (h : Evolves s₀ s)
    (hf : ∀ {s x}, Evolves s₀ s → Evolves s₀ (f s x)) : Evolves s₀ (xs.foldl f s) := h.each hf

theorem Evolves.foldl_snd {α β : Type} {f : β × State → α → β × State} {xs : List α} {b : β} (h : Evolves s₀ s)
    (hf : ∀ {r x}, Evolves s₀ r.2 → Evolves s₀ (f r x).2) : Evolves s₀ (xs.foldl f (b, s)).2 := by
  induction xs generalizing b s with
  | nil => exact h
  | cons x xs ih => exact ih (b := (f (b, s) x).1) (hf (r := (b, s)) h)

/-- A change of storage that leaves fuses and the store of the security module. -/
theorem Evolves.stored {v : Stored} (h : Evolves s₀ s) (hf : v.factory = s.nv.factory := by rfl)
    (hd : v.field = s.nv.field := by rfl) (hs : v.sec = s.nv.sec := by rfl) : Evolves s₀ { s with nv := v } :=
  { h with factory := hf.trans h.factory, field := hd ▸ h.field, killed := hs ▸ h.killed }

section
variable {α : Type} {f : α → State}
theorem evolves_none : ∀ t ∈ (none : Option α), Evolves s₀ (f t) := fun _ => nofun
theorem evolves_some {x : α} (h : Evolves s₀ (f x)) : ∀ t ∈ some x, Evolves s₀ (f t) :=
  fun _ e => Option.some.inj e ▸ h
theorem evolves_ite {c : Prop} [Decidable c] {x y : Option α} (hx : ∀ t ∈ x, Evolves s₀ (f t))
    (hy : ∀ t ∈ y, Evolves s₀ (f t)) : ∀ t ∈ (if c then x else y), Evolves s₀ (f t) := by
  split <;> assumption
end

/-- A command that answers a next state answers one that goes on from s. -/
def Leads (s : State) (o : Out) : Prop := ∀ t, o = .next t → Evolves s t

theorem Leads.next (h : Evolves s₀ s) : Leads s₀ (.next s) := fun _ e => Host.Outcome.next.inj e ▸ h
theorem Leads.impossible : Leads s₀ impossible := fun _ e => nomatch e
theorem Leads.ite {c : Prop} [Decidable c] {x y : Out} (hx : Leads s₀ x) (hy : Leads s₀ y) :
    Leads s₀ (if c then x else y) := by
  split <;> assumption

/-! ### Ops -/

theorem Evolves.wrFld {k hi lo v} (h : Evolves s₀ s) : Evolves s₀ (s.wrFld k hi lo v) := h.wr

theorem Evolves.setBits {k m} (h : Evolves s₀ s) : Evolves s₀ (s.setBits k m) := h.wr

theorem Evolves.clrBits {k m} (h : Evolves s₀ s) : Evolves s₀ (s.clrBits k m) := h.wr

theorem Evolves.setFlag {k i} (h : Evolves s₀ s) : Evolves s₀ (s.setFlag k i) := h.setBits

theorem Evolves.bump {k n} (h : Evolves s₀ s) : Evolves s₀ (s.bump k n) := h.wr

theorem Evolves.tally {k} (h : Evolves s₀ s) : Evolves s₀ (s.tally k) := h.frame

theorem Evolves.wr64 {k v} (h : Evolves s₀ s) : Evolves s₀ (s.wr64 k v) := h.wr.wr

theorem Evolves.bump64 {k n} (h : Evolves s₀ s) : Evolves s₀ (s.bump64 k n) := h.wr64

theorem Evolves.wrMax {k v} (h : Evolves s₀ s) : Evolves s₀ (s.wrMax k v) := .ite h.wr h

theorem Evolves.clearRegs {b os} (h : Evolves s₀ s) : Evolves s₀ (s.clearRegs b os) := by
  induction os generalizing s with
  | nil => exact h
  | cons o os ih => exact ih h.wr

theorem Evolves.writeBytes {a vs} (h : Evolves s₀ s) : Evolves s₀ (s.writeBytes a vs) :=
  { h with mem := fun w => Machine.writeBytes_wf s a vs (h.mem w) }

theorem Evolves.setMtx {t m} (h : Evolves s₀ s) : Evolves s₀ (s.setMtx t m) := h.frame

theorem Evolves.setVec {b v} (h : Evolves s₀ s) : Evolves s₀ (s.setVec b v) := h.frame

theorem Evolves.setChan {b c v} (h : Evolves s₀ s) : Evolves s₀ (s.setChan b c v) := h.frame

theorem Evolves.setBay {b v} (h : Evolves s₀ s) : Evolves s₀ (s.setBay b v) := h.frame

theorem Evolves.setPort {b p v} (h : Evolves s₀ s) : Evolves s₀ (s.setPort b p v) := h.frame

theorem Evolves.setCfg {d v} (h : Evolves s₀ s) : Evolves s₀ (s.setCfg d v) := h.frame

theorem Evolves.setJob {j v} (h : Evolves s₀ s) : Evolves s₀ (s.setJob j v) := h.frame

theorem Evolves.mapJob {j f} (h : Evolves s₀ s) : Evolves s₀ (s.mapJob j f) := by
  unfold State.mapJob
  split
  exacts [h, h.setJob]

/-! ### MtxOps -/

theorem Evolves.mtxRecord {t status quad vec pass addr} (h : Evolves s₀ s) :
    Evolves s₀ (s.mtxRecord t status quad vec pass addr) :=
  h.wr.wr.wr.wr

theorem Evolves.mtxFault {t flags causes status quad vec pass addr} (h : Evolves s₀ s) :
    Evolves s₀ (s.mtxFault t flags causes status quad vec pass addr) :=
  .ite h.setBits.bump.mtxRecord h.setBits.bump

theorem Evolves.mtxAlso {t pass c} (h : Evolves s₀ s) : ∀ u ∈ s.mtxAlso t pass c, Evolves s₀ u := by
  unfold State.mtxAlso
  dsimp only
  split
  · exact evolves_none
  · exact evolves_ite evolves_none
      (evolves_some (.ite h.setBits.bump.setMtx.mtxRecord h.setBits.bump.setMtx))

/-! ### VecOps -/

theorem Evolves.vecFirst {b status addr} (h : Evolves s₀ s) : Evolves s₀ (s.vecFirst b status addr) := .ite h.wr.wr h

theorem Evolves.vecFault {b flag status addr} (h : Evolves s₀ s) : Evolves s₀ (s.vecFault b flag status addr) :=
  h.vecFirst.setFlag.bump

/-! ### Fabric -/

theorem Evolves.setRegionState {d r v} (h : Evolves s₀ s) : Evolves s₀ (s.setRegionState d r v) := h.wrFld

theorem Evolves.setBramBit {d m p b} (h : Evolves s₀ s) : Evolves s₀ (s.setBramBit d m p b) := h.frame

theorem Evolves.bramWrite {d m sh a x} (h : Evolves s₀ s) : Evolves s₀ (s.bramWrite d m sh a x) := h.each .setBramBit

theorem Evolves.bramEccRead {d m w} (h : Evolves s₀ s) : Evolves s₀ (s.bramEccRead d m w).2 :=
  .ite_snd h (.ite_snd h.bump.setFlag (.ite_snd (.ite h.bump.setFlag.wr h.bump.setFlag) h.frameDraw))

theorem Evolves.setBramOut {d m q x} (h : Evolves s₀ s) : Evolves s₀ (s.setBramOut d m q x) := h.frame

/-- A write of a port, where one is asked for. -/
theorem Evolves.bramWrite_if {c : Prop} [Decidable c] {d m sh w v} (h : Evolves s₀ s) :
    Evolves s₀ (if c then s.bramWrite d m sh w v else s) := .ite h.bramWrite h

theorem Evolves.bramEdge {d m c a b} (h : Evolves s₀ s) : Evolves s₀ (s.bramEdge d m c a b) := by
  unfold State.bramEdge
  cases a with
  | none => cases b with
    | none => exact h
    | some y => exact h.bramWrite_if.setBramOut
  | some x =>
    have hr {c₁ c₂ : Bool} {w o₁ o₂} : Evolves s₀ (if c₁ then (o₁, s) else if c₂ then s.bramEccRead d m w
        else (o₂, s)).2 :=
      .ite_snd h (.ite_snd h.bramEccRead h)
    cases b with
    | none => exact hr.bramWrite_if.setBramOut
    | some y => exact hr.bramWrite_if.bramWrite_if.setBramOut.setBramOut

theorem Evolves.cellEdge {d v x t} (h : Evolves s₀ t) : Evolves s₀ (s.cellEdge d v x t) := .ite h.frame.frame h.frame

theorem Evolves.bramEdges {d g v t} (h : Evolves s₀ t) : Evolves s₀ (s.bramEdges d g v t) :=
  h.each fun h => by split; exacts [h, h.bramEdge]

theorem Evolves.ioEdges {d g rise v t} (h : Evolves s₀ t) : Evolves s₀ (s.ioEdges d g rise v t) :=
  .ite h (h.each fun h => by dsimp only; split; exacts [h, .ite h h.frame])

theorem Evolves.seeClocks {d} (h : Evolves s₀ s) : Evolves s₀ (s.seeClocks d) := by
  unfold State.seeClocks
  refine .each h (fun h => ?_)
  dsimp only
  split
  exacts [h, h.frame]

theorem Evolves.settleLogic {d} (h : Evolves s₀ s) : Evolves s₀ (s.settleLogic d) :=
  .ite h (.seeClocks (h.frame.each fun h => h.each .frame))

theorem Evolves.around {d f} (h : Evolves s₀ s) (hf : ∀ {s}, Evolves s₀ s → Evolves s₀ (f s)) :
    Evolves s₀ (s.around d f) :=
  .settleLogic (hf h.settleLogic)

theorem Evolves.edgeAt {d g rise} (h : Evolves s₀ s) : Evolves s₀ (s.edgeAt d g rise) :=
  .settleLogic (.ioEdges (.ite (.bramEdges (h.each .cellEdge)) (h.each .cellEdge)))

theorem Evolves.clockEdge {d g rise} (h : Evolves s₀ s) : Evolves s₀ (s.clockEdge d g rise) := .ite h.edgeAt h

theorem Evolves.tick (h : Evolves s₀ s) : Evolves s₀ s.tick := by
  unfold State.tick
  refine .ite ?_ h
  split
  exacts [h.frame.edgeAt, h.clockEdge.frameDraw]

theorem Evolves.holdFlops {d tiles} (h : Evolves s₀ s) : Evolves s₀ (s.holdFlops d tiles) := h.frame

theorem Evolves.loadContents {d tiles} (h : Evolves s₀ s) : Evolves s₀ (s.loadContents d tiles) := h.frame

theorem Evolves.clearClocks {d} (h : Evolves s₀ s) : Evolves s₀ (s.clearClocks d) := h.frame

theorem Evolves.clearLines {d} (h : Evolves s₀ s) : Evolves s₀ (s.clearLines d) := h.frame

/-! ### StrOps -/

theorem Evolves.strFault {b mask} (h : Evolves s₀ s) : Evolves s₀ (s.strFault b mask) := h.setBits.bump

/-! ### Crossbar -/

theorem Evolves.drew {n} (h : Evolves s₀ s) : Evolves s₀ (s.drew n) := h.frameDraw

theorem Evolves.deliver {bay w dst chan addr bytes done} (h : Evolves s₀ s) :
    ∀ u ∈ s.deliver bay w dst chan addr bytes done, Evolves s₀ u := by
  unfold State.deliver
  refine evolves_ite (evolves_ite (evolves_some h.setVec) evolves_none) ?_
  refine evolves_ite (evolves_ite (evolves_some h.setMtx) evolves_none) ?_
  refine evolves_ite (evolves_ite (evolves_some h.setChan.drew) evolves_none) ?_
  refine evolves_ite ?_ evolves_none
  dsimp only
  split
  exacts [evolves_none, evolves_some h.setPort.drew]

theorem Evolves.completeWriter {bay w} (h : Evolves s₀ s) : Evolves s₀ (s.completeWriter bay w) :=
  .each (.each (.ite (.setVec (h.each fun h => .ite h.setMtx h)) (h.each fun h => .ite h.setMtx h)) fun h => .ite
    h.setChan h) fun h => .ite h.setPort h

theorem Evolves.tookStaging {old b c} (h : Evolves s₀ s) : Evolves s₀ (s.tookStaging old b c) := .ite h h.frame

theorem Evolves.recordDone {b p r} (h : Evolves s₀ s) : Evolves s₀ (s.recordDone b p r) :=
  .ite h (.ite (.ite h.setVec h) (.ite h.setMtx h))

theorem Evolves.portFlush {b p n} (h : Evolves s₀ s) : Evolves s₀ (s.portFlush b p n) := by
  induction n generalizing s with
  | zero => exact h
  | succ n ih =>
    unfold State.portFlush
    split
    · exact h
    · split
      · exact h
      · next u hu => exact ih (.ite (h.deliver u hu).setPort.recordDone (h.deliver u hu).setPort)

/-! ### HostOps -/

theorem Evolves.setCq {f r v} (h : Evolves s₀ s) : Evolves s₀ (s.setCq f r v) := h.frame

theorem Evolves.setSq {f r v} (h : Evolves s₀ s) : Evolves s₀ (s.setSq f r v) := h.frame

theorem Evolves.setFn {f v} (h : Evolves s₀ s) : Evolves s₀ (s.setFn f v) := h.frame

theorem Evolves.message {f vector} (h : Evolves s₀ s) : Evolves s₀ (s.message f vector) :=
  .ite h (.ite h.setFn h.emit)

theorem Evolves.sendPending {f} (h : Evolves s₀ s) : Evolves s₀ (s.sendPending f) := .ite h (h.setFn.each .message)

theorem Evolves.event {f code arg status} (h : Evolves s₀ s) : Evolves s₀ (s.event f code arg status) :=
  .ite h.bump.setFlag h.frame.setCq

theorem Evolves.queueCpl {e r} (h : Evolves s₀ s) : Evolves s₀ (s.queueCpl e r) := .ite h h.frame.setCq

theorem Evolves.completeAway {e r} (h : Evolves s₀ s) : Evolves s₀ (s.completeAway e r) :=
  h.queueCpl.frame.foldl .queueCpl

theorem Evolves.complete {e r} (h : Evolves s₀ s) : Evolves s₀ (s.complete e r) := by
  unfold State.complete
  refine .ite h ?_
  refine .ite h.completeAway ?_
  dsimp only
  split
  exacts [.ite h.queueCpl.setSq.queueCpl h.queueCpl.setSq, h.queueCpl.setSq]

theorem Evolves.ringsCount {cq up} (h : Evolves s₀ s) : Evolves s₀ (s.ringsCount cq up) := h.wrFld

theorem Evolves.setRing {f cq r st cause} (h : Evolves s₀ s) : Evolves s₀ (s.setRing f cq r st cause) :=
  .ite h.wr.ringsCount (.ite h.wr.ringsCount h.wr)

theorem Evolves.ringError {f r cause} (h : Evolves s₀ s) : Evolves s₀ (s.ringError f r cause) :=
  h.setRing.setFlag.event

theorem Evolves.logAccess {kind bar2 off} (h : Evolves s₀ s) : Evolves s₀ (s.logAccess kind bar2 off) :=
  .ite h.setFlag.bump.wr h.setFlag.bump

theorem Evolves.pageDo {f via0 off go ur} (h : Evolves s₀ s) (hgo : ∀ {s}, Evolves s₀ s → Evolves s₀ (go s))
    (hur : ∀ {s}, Evolves s₀ s → Evolves s₀ (ur s)) : Leads s₀ (s.pageDo f via0 off go ur) :=
  .ite .impossible (.ite (.next (hur h.logAccess)) (.next (hgo h)))

theorem Evolves.bar0Do {off go ur} (h : Evolves s₀ s) (hgo : ∀ {s}, Evolves s₀ s → Evolves s₀ (go s))
    (hur : ∀ {s}, Evolves s₀ s → Evolves s₀ (ur s)) : Leads s₀ (s.bar0Do off go ur) :=
  .ite .impossible (.ite (.next (hur h.logAccess)) (.next (hgo h)))

/-! ### JobOps -/

theorem Evolves.addSats {b n} (h : Evolves s₀ s) : Evolves s₀ (s.addSats b n) := by
  unfold State.addSats
  dsimp only
  split
  exacts [h, h.setBay.mapJob]

theorem Evolves.addDigits {b n} (h : Evolves s₀ s) : Evolves s₀ (s.addDigits b n) := by
  unfold State.addDigits
  dsimp only
  split
  exacts [h, h.setBay.mapJob]

theorem Evolves.abandonTile {t pass c more} (h : Evolves s₀ s) : Evolves s₀ (s.abandonTile t pass c more) :=
  h.mtxFault.setMtx.completeWriter

theorem Evolves.dropTile {t status} (h : Evolves s₀ s) : Evolves s₀ (s.dropTile t status) := by
  unfold State.dropTile
  dsimp only
  split
  exacts [h.abandonTile, h.setMtx]

theorem Evolves.endShort {b c status faultAddr flags} (h : Evolves s₀ s) :
    Evolves s₀ (s.endShort b c status faultAddr flags) := by
  unfold State.endShort
  refine .ite ?_ h
  dsimp only
  split
  exacts [.setChan (.ite (h.strFault.each .wr) h.strFault), .mapJob (.setChan (.ite (h.strFault.each .wr) h.strFault))]

theorem Evolves.closePort {b p} (h : Evolves s₀ s) : Evolves s₀ (s.closePort b p) := h.setPort.settleLogic

theorem Evolves.openPort {b p} (h : Evolves s₀ s) : Evolves s₀ (s.openPort b p) := h.setPort.settleLogic

theorem Evolves.endBlocks {b success} (h : Evolves s₀ s) : Evolves s₀ (s.endBlocks b success) :=
  .setVec (h.each .setMtx)

theorem Evolves.endBay {b status} (h : Evolves s₀ s) : Evolves s₀ (s.endBay b status) :=
  .setBay (.endBlocks (.each (.each (.ite (.setVec (h.each .dropTile)) (h.each .dropTile)) .endShort) .closePort))

theorem Evolves.firmWrite {k vs} (h : Evolves s₀ s) : Evolves s₀ (s.firmWrite k vs) := by
  induction vs generalizing s k with
  | nil => exact h
  | cons v vs ih => exact ih h.frame

theorem Evolves.firmLoad {bays body} (h : Evolves s₀ s) : Evolves s₀ (s.firmLoad bays body) := h.frame.frame

theorem Evolves.clearRecords {j} (h : Evolves s₀ s) : Evolves s₀ (s.clearRecords j) :=
  h.each fun h => .ite h.writeBytes.setBay h

theorem Evolves.failJob {j status named addr} (h : Evolves s₀ s) : Evolves s₀ (s.failJob j status named addr) := by
  unfold State.failJob
  split
  exacts [h, .ite (.each (.setJob (.ite h.clearRecords h)) .endBay) h]

theorem Evolves.failBay {b status named addr} (h : Evolves s₀ s) : Evolves s₀ (s.failBay b status named addr) := by
  unfold State.failBay
  split
  exacts [h, h.failJob]

theorem Evolves.vecHalt {b flag status addr} (h : Evolves s₀ s) : Evolves s₀ (s.vecHalt b flag status addr) :=
  h.vecFault.setVec.failBay

theorem Evolves.mtxAbandon {t pass records c more} (h : Evolves s₀ s) :
    Evolves s₀ (s.mtxAbandon t pass records c more) :=
  h.abandonTile.failBay

/-! ### MemOps -/

theorem Evolves.chanUE {c A} (h : Evolves s₀ s) : Evolves s₀ (s.chanUE c A) :=
  .ite h.bump.setFlag.setFlag.wr64 h.bump.setFlag.setFlag

theorem Evolves.chanFlag {c i} (h : Evolves s₀ s) : Evolves s₀ (s.chanFlag c i) := h.setFlag.setFlag

theorem Evolves.chanCE {c} (h : Evolves s₀ s) : Evolves s₀ (s.chanCE c) := h.bump.chanFlag

theorem Evolves.memUE {A} (h : Evolves s₀ s) : Evolves s₀ (s.memUE A) := by
  unfold State.memUE
  split
  exacts [.ite h.bump.setFlag.wr64.wr h.bump.setFlag, h.chanUE, h]

theorem Evolves.memCE {A} (h : Evolves s₀ s) : Evolves s₀ (s.memCE A) := by
  unfold State.memCE
  split
  exacts [h.bump.setFlag, h.chanCE, h]

theorem Evolves.memFlag {A i} (h : Evolves s₀ s) : Evolves s₀ (s.memFlag A i) := by
  unfold State.memFlag
  split
  exacts [h.setFlag, h.chanFlag, h]

theorem Evolves.mark {A} (h : Evolves s₀ s) : Evolves s₀ (s.mark A) := h.frame

theorem Evolves.wakeRank {c rank next} (h : Evolves s₀ s) : Evolves s₀ (s.wakeRank c rank next) :=
  .wrFld (.ite h.frameDraw.bump64 h)

theorem Evolves.touchRow {c p} (h : Evolves s₀ s) : Evolves s₀ (s.touchRow c p) := h.wakeRank.frame.bump64

theorem Evolves.useCheck {c d write m} (h : Evolves s₀ s) : Evolves s₀ (s.useCheck c d write m) := by
  unfold State.useCheck
  dsimp only
  split
  exacts [h.frame, .ite h.bump.touchRow.frame (.frame (.ite h.bump.touchRow.touchRow h.bump.touchRow))]

theorem Evolves.touch {A write m} (h : Evolves s₀ s) : Evolves s₀ (s.touch A write m) := by
  unfold State.touch
  split
  exacts [h.touchRow.useCheck.bump.wrMax, h]

theorem Evolves.moved {A n write} (h : Evolves s₀ s) : Evolves s₀ (s.moved A n write) := by
  unfold State.moved
  split
  exacts [h.bump64, h.bump64, h]

theorem Evolves.noMemory {home A} (h : Evolves s₀ s) : ∀ r ∈ s.noMemory home A, Evolves s₀ r.2 := by
  unfold State.noMemory
  split
  exacts [evolves_some h.bump.setFlag, evolves_some h.bump.setFlag, evolves_some h.bump.setFlag, evolves_none]

theorem Evolves.meetUE {A} (h : Evolves s₀ s) : Evolves s₀ (s.meetUE A) := h.mark.memUE

theorem Evolves.meetErrors {us es} (h : Evolves s₀ s) : Evolves s₀ (s.meetErrors us es) :=
  .each (h.each .meetUE) .memCE

theorem Evolves.memRead {home A n m} (h : Evolves s₀ s) : Evolves s₀ (s.memRead home A n m).2 := by
  unfold State.memRead
  split
  · next _ hu =>
      exact (h.noMemory _ hu)
  · dsimp only
    split
    exacts [h.touch.meetErrors, h.touch.meetErrors.moved]

theorem Evolves.storeWhole {A bs} (h : Evolves s₀ s) : Evolves s₀ (s.storeWhole A bs) := h.frame.moved.writeBytes

theorem Evolves.memWrite {home A bs m} (h : Evolves s₀ s) : Evolves s₀ (s.memWrite home A bs m).2 := by
  unfold State.memWrite
  split
  · next _ hu =>
      exact (h.noMemory _ hu)
  · dsimp only
    split
    exacts [h.touch.meetErrors.memFlag, h.touch.meetErrors.storeWhole]

theorem Evolves.memUpdate {home A n f m} (h : Evolves s₀ s) : Evolves s₀ (s.memUpdate home A n f m).2 := by
  unfold State.memUpdate
  split
  · next _ hu =>
      exact (h.noMemory _ hu)
  · dsimp only
    split
    exacts [h.touch.meetErrors.memFlag, h.touch.meetErrors.moved.writeBytes]

/-! ### PlanOps -/

theorem Evolves.edgeDo {e off go} (h : Evolves s₀ s) (hgo : ∀ {s}, Evolves s₀ s → Evolves s₀ (go s)) :
    Leads s₀ (s.edgeDo e off go) :=
  h.bar0Do (fun h => .ite (hgo h) h.logAccess) (fun h => h)

theorem Evolves.evalDegraded (h : Evolves s₀ s) : Evolves s₀ s.evalDegraded := h.wr.wrFld

theorem Evolves.checkOverflow (h : Evolves s₀ s) : Evolves s₀ s.checkOverflow := .ite h.setFlag h

theorem Evolves.planChanged (h : Evolves s₀ s) : Evolves s₀ s.planChanged := .ite h.checkOverflow.wrFld h

theorem Evolves.showPlan (h : Evolves s₀ s) : Evolves s₀ s.showPlan := h.frame

theorem Evolves.showChans (h : Evolves s₀ s) : Evolves s₀ s.showChans := h.frame

theorem Evolves.note {c} (h : Evolves s₀ s) : Evolves s₀ (s.note c) := .ite h.stored h.frame

theorem Evolves.countFail {u} (h : Evolves s₀ s) : Evolves s₀ (s.countFail u) := .ite h h.stored

theorem Evolves.countPass {u} (h : Evolves s₀ s) : Evolves s₀ (s.countPass u) := .ite h h.stored

theorem Evolves.unitFail {u} (h : Evolves s₀ s) : Evolves s₀ (s.unitFail u) :=
  .ite h.note (.ite (.ite h.note h.note.frame) (.ite (.countFail (.frame (.ite h.note h.note.frame))) (.frame (.ite
    h.note h.note.frame))))

theorem Evolves.unitPass {u} (h : Evolves s₀ s) : Evolves s₀ (s.unitPass u) := .ite h.countPass h.frame

theorem Evolves.writeCounts (h : Evolves s₀ s) : Evolves s₀ s.writeCounts :=
  .each (h.each fun h => .ite h h.countPass) .countFail

/-- Entries of memory go: those that a reset, a test or the opening of a tier leaves out. -/
theorem Evolves.dropMem {p} (h : Evolves s₀ s) : Evolves s₀ { s with mem := s.mem.filter p } :=
  { h with mem := fun w => filter_wf p (h.mem w) }

theorem Evolves.tierCheck (h : Evolves s₀ s) : Evolves s₀ s.tierCheck := by
  unfold State.tierCheck
  refine .ite h (.event (.ite ?_ ?_))
  · exact (Evolves.frame (.frame h.dropMem) |>.each .wr).wrFld.showChans.planChanged.evalDegraded
  · exact (Evolves.frame (.frame h.dropMem) |>.each .wr).wrFld

theorem Evolves.loadDelays {c} (h : Evolves s₀ s) : Evolves s₀ (s.loadDelays c) := by
  unfold State.loadDelays
  split
  exacts [.ite (h.each .wr) h, h]

theorem Evolves.setChanState {c st} (h : Evolves s₀ s) : Evolves s₀ (s.setChanState c st) := h.wrFld

/-! ### NocOps -/

theorem Evolves.setNoc {n v} (h : Evolves s₀ s) : Evolves s₀ (s.setNoc n v) := h.frame

theorem Evolves.srcBump {p off flag} (h : Evolves s₀ s) : Evolves s₀ (s.srcBump p off flag) := by
  unfold State.srcBump
  split
  exacts [h.bump.setFlag, h]

theorem Evolves.absorb {n v} (h : Evolves s₀ s) : Evolves s₀ (s.absorb n v) := by
  unfold State.absorb
  refine .setNoc ?_
  split
  exacts [.ite h h.bump, h]

theorem Evolves.absorbAll {b ep} (h : Evolves s₀ s) : Evolves s₀ (s.absorbAll b ep) := h.each .absorb

theorem Evolves.nocIssue {set p owner gaddr} (h : Evolves s₀ s) : Evolves s₀ (s.nocIssue set p owner gaddr).2 := by
  unfold State.nocIssue
  dsimp only
  split
  · refine .bump64 ?_
    refine .bump64 ?_
    split
    exacts [.srcBump (.ite h.srcBump h), .ite h.srcBump h]
  · split
    exacts [.srcBump (.ite h.srcBump h), .ite h.srcBump h]

theorem Evolves.nocSubmit {p owner gaddr} (h : Evolves s₀ s) : Evolves s₀ (s.nocSubmit p owner gaddr).2 :=
  .ite_snd h.frame.setNoc h.frame.nocIssue.setNoc

theorem Evolves.toOwner {n o status addr data} (h : Evolves s₀ s) : Evolves s₀ (s.toOwner n o status addr data) := by
  unfold State.toOwner
  split
  exacts [h, h.setChan, h.setChan]

theorem Evolves.nocWake {p} (h : Evolves s₀ s) : Evolves s₀ (s.nocWake p) := by
  unfold State.nocWake
  split
  exacts [h, .ite h h.nocIssue.setNoc]

theorem Evolves.countResponse {p cls status bytes lat} (h : Evolves s₀ s) :
    Evolves s₀ (s.countResponse p cls status bytes lat) := by
  unfold State.countResponse
  split
  · exact h
  · dsimp only
    split
    exacts [.ite (.bump (.wrMax (.ite h.bump64.bump h.bump64.bump.bump))) (.wrMax (.ite h.bump64.bump
      h.bump64.bump.bump)), .wrMax (.ite h.bump64.bump h.bump64.bump.bump)]

theorem Evolves.decoderAnswer {home A} (h : Evolves s₀ s) : ∀ r ∈ s.decoderAnswer home A, Evolves s₀ r.2 := by
  unfold State.decoderAnswer
  split
  exacts [evolves_none, h.noMemory]

theorem Evolves.reply {n v a} (h : Evolves s₀ s) : Evolves s₀ (s.reply n v a) := h.setNoc

theorem Evolves.unqueue {bank x} (h : Evolves s₀ s) : Evolves s₀ (s.unqueue bank x) := h.frame

theorem Evolves.serveQueued {x m} (h : Evolves s₀ s) : Evolves s₀ (s.serveQueued x m) := by
  unfold State.serveQueued
  refine .ite h.storeWhole.touch ?_
  split
  · exact h
  · refine .reply ?_
    split
    exacts [h.memRead, h.memWrite, h.memUpdate]

theorem Evolves.queueFirst {A} (h : Evolves s₀ s) : Evolves s₀ (s.queueFirst A) := by
  unfold State.queueFirst
  split
  exacts [h, h.each fun h => h.frame.serveQueued]

theorem Evolves.roundTrip {g A n write m} (h : Evolves s₀ s) : Evolves s₀ (s.roundTrip g A n write m).2 := by
  have hi {set p} : Evolves s₀ (s.nocIssue set p .bare none).2 := h.nocIssue
  unfold State.roundTrip
  split
  · next hu => exact h.decoderAnswer _ hu
  · dsimp only
    refine .countResponse (.frameDraw ?_)
    split
    · exact hi
    · refine .ite_snd ?_ ?_
      · dsimp only
        split
        exacts [hi.bump, hi]
      · dsimp only
        split
        exacts [hi.queueFirst.memWrite, hi.queueFirst.memRead]

theorem Evolves.messageTrip {g g'} (h : Evolves s₀ s) : Evolves s₀ (s.messageTrip g g').2 := by
  have hi {set p} : Evolves s₀ (s.nocIssue set p .bare none).2 := h.nocIssue
  unfold State.messageTrip
  dsimp only
  refine .countResponse (.frameDraw ?_)
  split
  · exact hi
  · refine .ite_snd ?_ hi
    dsimp only
    split
    exacts [hi.bump, hi]

theorem Evolves.readLines {g k A n m} (h : Evolves s₀ s) : Evolves s₀ (s.readLines g k A n m).2 := by
  induction k generalizing s A n m with
  | zero => exact h
  | succ k ih => exact .ite_snd h (.ite_snd h.roundTrip (ih h.roundTrip))

theorem Evolves.readLong {g A n m} (h : Evolves s₀ s) : Evolves s₀ (s.readLong g A n m).2 := h.readLines

theorem Evolves.writeLines {g k A bs m} (h : Evolves s₀ s) : Evolves s₀ (s.writeLines g k A bs m).2 := by
  induction k generalizing s A bs m with
  | zero => exact h
  | succ k ih => exact .ite_snd h (.ite_snd h.roundTrip (ih h.roundTrip))

theorem Evolves.writeLong {g A bs m} (h : Evolves s₀ s) : Evolves s₀ (s.writeLong g A bs m).2 := h.writeLines

/-! ### ImageOps -/

theorem Evolves.leadFlag {j i} (h : Evolves s₀ s) : Evolves s₀ (s.leadFlag j i) := h.setFlag.bump

theorem Evolves.postEvent {b j v} (h : Evolves s₀ s) : Evolves s₀ (s.postEvent b j v) :=
  .ite h.messageTrip h.messageTrip.mapJob

theorem Evolves.imgRead {g j off n m} (h : Evolves s₀ s) : Evolves s₀ (s.imgRead g j off n m).2 := by
  unfold State.imgRead
  split
  · split
    exacts [h, h]
  · exact h.readLong

theorem Evolves.checkImage {g A m} (h : Evolves s₀ s) : Evolves s₀ (s.checkImage g A m).2.2.2 :=
  .ite_snd_snd_snd h (.ite_snd_snd_snd h.readLong (.ite_snd_snd_snd h.readLong (.ite_snd_snd_snd h.readLong.readLong
    (.ite_snd_snd_snd h.readLong.readLong (.ite_snd_snd_snd h.readLong.readLong (.ite_snd_snd_snd h.readLong.readLong
    (.ite_snd_snd_snd h.readLong.readLong h.readLong.readLong)))))))

/-! ### EovOps -/

theorem Evolves.eovFlag {e i} (h : Evolves s₀ s) : Evolves s₀ (s.eovFlag e i) := h.setFlag.bump

theorem Evolves.setLink {p v} (h : Evolves s₀ s) : Evolves s₀ (s.setLink p v) := h.frame

theorem Evolves.setWin {e i x} (h : Evolves s₀ s) : Evolves s₀ (s.setWin e i x) := h.frame

theorem Evolves.lookup {o set group op} (h : Evolves s₀ s) : Evolves s₀ (s.lookup o set group op).2 := by
  unfold State.lookup
  dsimp only
  split
  exacts [h.bump.eovFlag, .ite_snd h.bump.eovFlag (.ite_snd h.bump h)]

theorem Evolves.downDrop {p} (h : Evolves s₀ s) : Evolves s₀ (s.downDrop p) := h.bump.eovFlag

theorem Evolves.sendPacket {e set p} (h : Evolves s₀ s) : Evolves s₀ (s.sendPacket e set p).2 :=
  .ite_snd h.bump.eovFlag (.ite_snd h.eovFlag (.ite_snd h.eovFlag (.ite_snd h (.ite_snd h.downDrop h.setLink))))

theorem Evolves.respond {e set p status data} (h : Evolves s₀ s) : Evolves s₀ (s.respond e set p status data) := by
  have eq : s.respond = fun e set p status data => (s.sendPacket e set (s.responseOf set p status data)).2 := rfl
  exact eq ▸ h.sendPacket

theorem Evolves.edgeAnswer {r set noc status data} (h : Evolves s₀ s) :
    Evolves s₀ (s.edgeAnswer r set noc status data) := by
  unfold State.edgeAnswer
  dsimp only
  split
  · split
    exacts [h.setNoc, h]
  · exact h.emit

theorem Evolves.fenceAnswer {src ep tag set noc} (h : Evolves s₀ s) :
    Evolves s₀ (s.fenceAnswer src ep tag set noc) := by
  unfold State.fenceAnswer
  split
  · split
    exacts [h.setNoc, h]
  · exact h.emit

theorem Evolves.twinAnswered {n id status} (h : Evolves s₀ s) : Evolves s₀ (s.twinAnswered n id status) := h.frame

theorem Evolves.homeAnswer {n r status data} (h : Evolves s₀ s) : Evolves s₀ (s.homeAnswer n r status data) := by
  unfold State.homeAnswer
  dsimp only
  split
  exacts [h.frame.twinAnswered, h.frame.edgeAnswer, h.frame]

theorem Evolves.turnAway {e set p status x} (h : Evolves s₀ s) : Evolves s₀ (s.turnAway e set p status x) := by
  unfold State.turnAway
  split
  · exact h.respond
  · split
    exacts [h.homeAnswer, h]

theorem Evolves.launch {e i A set p o} (h : Evolves s₀ s) : Evolves s₀ (s.launch e i A set p o) := by
  unfold State.launch
  split
  · next _ hu =>
      exact (h.decoderAnswer _ hu).turnAway
  · exact h.frame.nocSubmit

theorem Evolves.sendHome {n r set noc} (h : Evolves s₀ s) : Evolves s₀ (s.sendHome n r set noc) := by
  unfold State.sendHome
  refine .ite ?_ (.ite h.sendPacket.frame h.sendPacket.homeAnswer)
  refine .ite h.homeAnswer ?_
  split
  exacts [h.lookup.homeAnswer, h.lookup.frame.launch]

theorem Evolves.settleHome {k before ns} (h : Evolves s₀ s) : Evolves s₀ (s.settleHome k before ns) := by
  induction k generalizing s before ns with
  | zero => exact h
  | succ k ih =>
    cases ns with
    | nil => exact h
    | cons n ns =>
      unfold State.settleHome
      split
      · exact ih h
      · refine .ite (ih h) ?_
        split
        · refine ih ?_
          split
          exacts [h.frame.twinAnswered, h.frame.fenceAnswer]
        · dsimp only
          split
          exacts [ih (.ite h h.sendHome), ih (.ite h h.sendHome)]

theorem Evolves.mirrorFill {k} (h : Evolves s₀ s) : Evolves s₀ (s.mirrorFill k) := by
  induction k generalizing s with
  | zero => exact h
  | succ k ih =>
    unfold State.mirrorFill
    split
    · exact h
    · refine .ite h ?_
      split
      exacts [h, ih (.ite h.frame h.frame)]

theorem Evolves.settleAll {k} (h : Evolves s₀ s) : Evolves s₀ (s.settleAll k) := by
  induction k generalizing s with
  | zero => exact h
  | succ k ih => exact .ite (ih h.mirrorFill.settleHome) h.mirrorFill.settleHome

theorem Evolves.settleFences (h : Evolves s₀ s) : Evolves s₀ s.settleFences := h.settleAll

theorem Evolves.addHome {it} (h : Evolves s₀ s) : Evolves s₀ (s.addHome it) := h.frame.settleFences

theorem Evolves.homeResponse {n r from_ status data} (h : Evolves s₀ s) :
    Evolves s₀ (s.homeResponse n r from_ status data) :=
  .ite h.homeAnswer (.homeAnswer (.ite h.eovFlag.wr.wr64 h.eovFlag))

theorem Evolves.trackerEnd {e i} (h : Evolves s₀ s) : Evolves s₀ (s.trackerEnd e i) := by
  unfold State.trackerEnd
  split
  exacts [h, h.frame.setWin.event]

theorem Evolves.trackerCheck {e i} (h : Evolves s₀ s) : Evolves s₀ (s.trackerCheck e i) := .ite h.trackerEnd h

theorem Evolves.answerOrigin {f status data} (h : Evolves s₀ s) : Evolves s₀ (s.answerOrigin f status data) := by
  unfold State.answerOrigin
  split
  · exact h.respond
  · split
    exacts [h.homeAnswer.settleFences, h]

theorem Evolves.flightEnd {noc status data} (h : Evolves s₀ s) : Evolves s₀ (s.flightEnd noc status data) := by
  unfold State.flightEnd
  split
  exacts [h, .trackerCheck (.ite h.frame h.frame.answerOrigin)]

/-! ### StrRun -/

theorem Evolves.portEnd {b c} (h : Evolves s₀ s) : Evolves s₀ (s.portEnd b c) := .ite h.setPort h

theorem Evolves.settle {b c} (h : Evolves s₀ s) : Evolves s₀ (s.settle b c) := by
  unfold State.settle
  refine .ite h ?_
  split
  exacts [.ite h (.ite h.setChan.bump.setFlag.emit h.endShort.failBay), .ite h.portEnd.setChan (.ite (.ite (.ite
    h.setChan h) (.ite h h.setChan)) h)]

theorem Evolves.sendOut {b o t len write} (h : Evolves s₀ s) : Evolves s₀ (s.sendOut b o t len write).2.2 := by
  unfold State.sendOut
  dsimp only
  split
  · refine .ite_snd_snd h ?_
    split
    · next hu => exact h.decoderAnswer _ hu
    · exact h.nocSubmit
  · exact h.nocSubmit

theorem Evolves.issue {b c r t} (h : Evolves s₀ s) : Evolves s₀ (s.issue b c r t) := h.sendOut.setChan

theorem Evolves.translated {b c r x} (h : Evolves s₀ s) : Evolves s₀ (s.translated b c r x) := by
  unfold State.translated
  dsimp only
  split
  exacts [h.issue, h.setChan.settle, h.setChan.settle]

theorem Evolves.startWalk {b c r level table} (h : Evolves s₀ s) : Evolves s₀ (s.startWalk b c r level table) :=
  h.sendOut.setChan

theorem Evolves.convertRows {b c k} (h : Evolves s₀ s) : Evolves s₀ (s.convertRows b c k) := by
  induction k generalizing s with
  | zero => exact h
  | succ k ih =>
    unfold State.convertRows
    refine .ite h ?_
    dsimp only
    split
    exacts [h, h.setChan, ih (.ite h.setChan.bump h.setChan.bump.bump.bump.setFlag.addSats)]

theorem Evolves.answered {addr net back own} (h : Evolves s₀ s) (hown : ∀ {s}, Evolves s₀ s → Evolves s₀ (own s).2) :
    ∀ r ∈ s.answered addr net back own, Evolves s₀ r.2 := by
  unfold State.answered
  split
  exacts [evolves_some h, evolves_ite evolves_none (evolves_some (hown h))]

theorem Evolves.perform {b r m} (h : Evolves s₀ s) : ∀ x ∈ s.perform b r m, Evolves s₀ x.2 :=
  h.answered fun h => by split; exacts [.ite_snd h.memWrite h.memRead, h]

/-! ### Mtx -/

theorem Evolves.mtxCorrected {t n count flag} (h : Evolves s₀ s) : Evolves s₀ (s.mtxCorrected t n count flag) :=
  .ite h h.bump.setFlag

theorem Evolves.mtxSats {t n} (h : Evolves s₀ s) : Evolves s₀ (s.mtxSats t n) := .ite h h.setMtx.bump.setFlag.addSats

theorem Evolves.mtxStall {t counter} (h : Evolves s₀ s) : Evolves s₀ (s.mtxStall t counter) := h.setMtx.bump

theorem Evolves.tryLoad {t e} (h : Evolves s₀ s) : Evolves s₀ (s.tryLoad t e) := by
  unfold State.tryLoad
  dsimp only
  split
  · exact h
  · refine .ite h ?_
    refine .ite h.mtxStall ?_
    split
    exacts [h.mtxCorrected.mtxAbandon, h.mtxCorrected.setMtx]

theorem Evolves.execPassAccept {t e} (h : Evolves s₀ s) : Leads s₀ (execPassAccept t e s) := by
  unfold Machine.execPassAccept
  dsimp only
  split
  exacts [.impossible, .ite .impossible (.ite (.next h.setMtx.mtxFault.failBay) (.next (.tryLoad (.setBay (.ite
    h.setMtx.wr.wrFld.bump h.setMtx.wr.wrFld)))))]

theorem Evolves.alsoMet {t pass cs} (h : Evolves s₀ s) : Leads s₀ (s.alsoMet t pass cs) := by
  unfold State.alsoMet
  split
  · exact .impossible
  · split
    · exact .impossible
    · next _ hu =>
        exact .next (h.mtxAlso _ hu)

theorem Evolves.execVectorFeed {t q e} (h : Evolves s₀ s) : Leads s₀ (execVectorFeed t q e s) := by
  unfold Machine.execVectorFeed
  dsimp only
  split
  · split
    exacts [.impossible, .ite .impossible h.alsoMet]
  · refine .ite .impossible ?_
    refine .ite (.next h.tryLoad) ?_
    refine .ite (.next h.mtxStall) ?_
    refine .ite (.next h.mtxStall) ?_
    split
    exacts [.next h.mtxCorrected.mtxAbandon, .next h.mtxCorrected.setMtx.bump64.bump64.bump64.addDigits]

theorem Evolves.endPass {t index d} (h : Evolves s₀ s) : Evolves s₀ (s.endPass t index d) := h.setMtx.bump

theorem Evolves.endArray {t p} (h : Evolves s₀ s) : Evolves s₀ (s.endArray t p) :=
  .ite h.wr64.wr64.setMtx h.wr64.wr64.setMtx.endPass

theorem Evolves.execVectorStreamEnd {t q e} (h : Evolves s₀ s) : Leads s₀ (execVectorStreamEnd t q e s) := by
  unfold Machine.execVectorStreamEnd
  dsimp only
  split
  · split
    · exact .impossible
    · split
      exacts [.impossible, h.alsoMet]
  · split
    · exact .impossible
    · split
      exacts [.next h.mtxCorrected.mtxAbandon, .ite (.next h.mtxCorrected.setMtx.mtxSats.endArray) (.next
        h.mtxCorrected.setMtx.mtxSats)]

theorem Evolves.execDrainRecord {t e} (h : Evolves s₀ s) : Leads s₀ (execDrainRecord t e s) := by
  unfold Machine.execDrainRecord
  dsimp only
  split
  · split
    exacts [.impossible, h.alsoMet]
  · split
    exacts [.next h.mtxCorrected.mtxAbandon, .next h.mtxCorrected.setMtx.mtxSats]

theorem Evolves.standLast {t g x r} (h : Evolves s₀ s) : Evolves s₀ (s.standLast t g x r) := by
  unfold State.standLast
  dsimp only
  split
  exacts [.ite h.setMtx.setVec (.ite h.setMtx.setMtx h.setMtx), .mapJob (.ite h.setMtx.setVec (.ite h.setMtx.setMtx
    h.setMtx))]

theorem Evolves.execDrainRecordAccept {t e} (h : Evolves s₀ s) : Leads s₀ (execDrainRecordAccept t e s) := by
  unfold Machine.execDrainRecordAccept
  dsimp only
  split
  · split
    · exact .impossible
    · split
      · split
        exacts [.next h.standLast, .impossible]
      · exact .impossible
  · split
    · exact .impossible
    · split
      · exact .next h.setMtx.bump
      · next u hu =>
        have h := h.deliver u hu
        refine .ite (.next (.tryLoad (.endPass ?_))) (.next h.setMtx)
        split
        exacts [h.setMtx.completeWriter, h.setMtx.completeWriter.mapJob]

theorem Evolves.execPassBudgetExpiry {t} (h : Evolves s₀ s) : Leads s₀ (execPassBudgetExpiry t s) := by
  unfold Machine.execPassBudgetExpiry
  dsimp only
  split
  exacts [h.alsoMet, .next h.mtxAbandon]

theorem Evolves.execMtxSoftReset {t} (h : Evolves s₀ s) : Leads s₀ (execMtxSoftReset t s) := by
  unfold Machine.execMtxSoftReset
  refine .next ?_
  refine .setMtx ?_
  split
  exacts [h.mtxAbandon, h.setMtx]

theorem Evolves.grantBlock {b dst blk w} (h : Evolves s₀ s) : ∀ u ∈ s.grantBlock b dst blk w, Evolves s₀ u := by
  unfold State.grantBlock
  refine evolves_ite (evolves_ite (evolves_some h.setVec) evolves_none) ?_
  refine evolves_ite (evolves_ite (evolves_some h.setMtx) evolves_none) ?_
  refine evolves_ite (evolves_ite (evolves_some h.setChan.tookStaging) evolves_none) ?_
  dsimp only
  split
  exacts [evolves_none, evolves_ite (evolves_some h.setPort) evolves_none]

theorem Evolves.execCreditGrant {b dst blk w} (h : Evolves s₀ s) : Leads s₀ (execCreditGrant b dst blk w s) := by
  unfold Machine.execCreditGrant
  refine .ite .impossible ?_
  split
  · refine .ite .impossible ?_
    split
    · exact .impossible
    · next _ hu =>
        exact .next (h.grantBlock _ hu).setChan.tookStaging
  · split
    · exact .impossible
    · next _ hu =>
        split
        exacts [.next (h.grantBlock _ hu).portFlush, .next (h.grantBlock _ hu)]

theorem Evolves.execBlockComplete {b dst blk w e} (h : Evolves s₀ s) :
    Leads s₀ (execBlockComplete b dst blk w e s) := by
  unfold Machine.execBlockComplete
  split
  exacts [.ite .impossible (.ite (.next (.ite h.setChan.setVec h.setChan)) (.ite (.next (.tryLoad (.ite
    h.setChan.setMtx h.setChan))) (.next h.setChan))), .impossible]

theorem Evolves.preemptBay {b} (h : Evolves s₀ s) : Evolves s₀ (s.preemptBay b) :=
  .setBay (.each (.setVec (h.each .setMtx)) fun h => h.setChan.settle)

theorem Evolves.preemptJob {j v} (h : Evolves s₀ s) : Evolves s₀ (s.preemptJob j v) := h.setJob.each .preemptBay

theorem Evolves.preemptNow {j} (h : Evolves s₀ s) : Evolves s₀ (s.preemptNow j) := by
  unfold State.preemptNow
  split
  exacts [h, .ite h h.preemptJob]

theorem Evolves.execPreemption {j} (h : Evolves s₀ s) : Leads s₀ (execPreemption j s) := by
  unfold Machine.execPreemption
  split
  exacts [.impossible, .ite .impossible (.next h.preemptJob)]

/-! ### Logic -/

theorem Evolves.execLlContention {d rr line} (h : Evolves s₀ s) : Leads s₀ (execLlContention d rr line s) :=
  .ite .impossible (.next (.ite h.frame.bump.setFlag.wr h.frame.bump.setFlag))

theorem Evolves.execBramEccRead {d memory word flips} (h : Evolves s₀ s) :
    Leads s₀ (execBramEccRead d memory word flips s) := by
  unfold Machine.execBramEccRead
  split
  exacts [.impossible, .ite .impossible (.next h.frame.bramEccRead.setBramOut)]

theorem Evolves.execPllLockLoss {d n} (h : Evolves s₀ s) : Leads s₀ (execPllLockLoss d n s) :=
  .ite .impossible (.next h.clrBits.bump.setFlag.settleLogic)

theorem Evolves.execPllRelock {d n} (h : Evolves s₀ s) : Leads s₀ (execPllRelock d n s) := by
  unfold Machine.execPllRelock
  split
  exacts [.impossible, .ite .impossible (.next (h.setBits.settleLogic.each fun h => h.each .portFlush))]

theorem Evolves.dropClock {k} (h : Evolves s₀ s) : Evolves s₀ (s.dropClock k) := .ite h.frame h

theorem Evolves.execGlobalClockSwitch {d g stopped stopped2} (h : Evolves s₀ s) :
    Leads s₀ (execGlobalClockSwitch d g stopped stopped2 s) := by
  unfold Machine.execGlobalClockSwitch
  split
  · exact .impossible
  · refine .ite .impossible ?_
    refine .ite (.next h.frame.dropClock) ?_
    refine .next ?_
    split
    exacts [h.frame.dropClock.frame, h.frame.dropClock]

theorem Evolves.pushBeat {b p rs} (h : Evolves s₀ s) : Evolves s₀ (s.pushBeat b p rs) := by
  induction rs generalizing s with
  | nil => exact h
  | cons r rs ih =>
    unfold State.pushBeat
    refine .ite (ih h.bump.setFlag) ?_
    split
    exacts [.failBay (.ite h.setFlag.wr h.setFlag), ih h.setPort]

theorem Evolves.execTilePortPush {b p rs} (h : Evolves s₀ s) : Leads s₀ (execTilePortPush b p rs s) :=
  .ite .impossible (.next h.pushBeat.portFlush)

theorem Evolves.execTilePortGrant {b p} (h : Evolves s₀ s) : Leads s₀ (execTilePortGrant b p s) :=
  .ite .impossible (.ite (.next h) (.ite (.next h.bump.setFlag) (.next h.setPort)))

theorem Evolves.popRecord {b p} (h : Evolves s₀ s) : Evolves s₀ (s.popRecord b p) := by
  unfold State.popRecord
  dsimp only
  split
  exacts [h, h.setPort.emit]

theorem Evolves.execTilePortPop {b p} (h : Evolves s₀ s) : Leads s₀ (execTilePortPop b p s) :=
  .ite .impossible (.next (h.each .popRecord))

theorem Evolves.execDelayTapLoad {c tap} (h : Evolves s₀ s) : Leads s₀ (execDelayTapLoad c tap s) :=
  .ite .impossible (.next h.frame)

theorem Evolves.execDelayTapStep {c up} (h : Evolves s₀ s) : Leads s₀ (execDelayTapStep c up s) :=
  .ite .impossible (.ite (.next h.frameDraw) (.next h.frame))

/-! ### SecOps -/

/-- The store of the security module is written, with a kill fuse that stays blown (R382). -/
theorem Evolves.setStore {v} (h : Evolves s₀ s) (hk : s₀.nv.sec.killed = true → v.killed = true) :
    Evolves s₀ (s.setStore v) := { h with killed := hk }

theorem Evolves.setSec {v} (h : Evolves s₀ s) : Evolves s₀ (s.setSec v) := h.frame

theorem Evolves.secFlag {i} (h : Evolves s₀ s) : Evolves s₀ (s.secFlag i) := h.setFlag.bump

theorem Evolves.setSecState {v} (h : Evolves s₀ s) : Evolves s₀ (s.setSecState v) := h.wrFld

theorem Evolves.entropy (h : Evolves s₀ s) : Evolves s₀ s.entropy.2 := h.frameDraw

theorem Evolves.draw (h : Evolves s₀ s) : Evolves s₀ s.draw.2 := by
  unfold State.draw
  refine .setSec ?_
  split
  exacts [h.entropy, .ite_snd h.entropy h]

theorem Evolves.streamRules {slot idx ver wrapped} (h : Evolves s₀ s) :
    Evolves s₀ (s.streamRules slot idx ver wrapped).2.2 := by
  unfold State.streamRules
  refine .ite_snd_snd h ?_
  refine .ite_snd_snd (.ite h.secFlag h) ?_
  refine .ite_snd_snd h.secFlag ?_
  split
  exacts [h, h]

theorem Evolves.now (h : Evolves s₀ s) : Evolves s₀ s.now.2 := .ite_snd h.frameDraw h

theorem Evolves.wrBytes {key bs} (h : Evolves s₀ s) : Evolves s₀ (s.wrBytes key bs) := h.each .wr

theorem Evolves.extend {r kind d info} (h : Evolves s₀ s) : Evolves s₀ (s.extend r kind d info) :=
  .ite h.wrBytes.secFlag (.ite h.wrBytes.now.wrBytes.wr.frameDraw h.wrBytes.now.wrBytes.wr)

theorem Evolves.verifyTimed (h : Evolves s₀ s) : Evolves s₀ s.verifyTimed := h.frameDraw.wrMax

theorem Evolves.verifyImage {type img} (h : Evolves s₀ s) : Evolves s₀ (s.verifyImage type img).2 :=
  .ite_snd h (.ite_snd (.ite h.secFlag h) (.ite_snd h.verifyTimed (.ite_snd h.verifyTimed (.ite_snd
    h.verifyTimed.secFlag (.ite_snd h.verifyTimed.now.secFlag (.ite_snd h.verifyTimed.now h.verifyTimed.now))))))

theorem Evolves.finishTransfer {req} (h : Evolves s₀ s) : Evolves s₀ (s.finishTransfer req) :=
  .extend (h.setStore h.killed)

/-! ### Cfg -/

theorem Evolves.setLoad {l v} (h : Evolves s₀ s) : Evolves s₀ (s.setLoad l v) := h.frame

theorem Evolves.checkLoad {l} (h : Evolves s₀ s) : Evolves s₀ (s.checkLoad l) := by
  unfold State.checkLoad
  split
  exacts [h, .ite h.frameDraw.complete h]

theorem Evolves.undefineRegions {d} (h : Evolves s₀ s) : Evolves s₀ (s.undefineRegions d) := h.each .wr

theorem Evolves.setBank {d level} (h : Evolves s₀ s) : Evolves s₀ (s.setBank d level) :=
  h.each fun h => .ite h.wrFld.wrFld.setFlag h.wrFld.wrFld

theorem Evolves.stopLogic {d} (h : Evolves s₀ s) : Evolves s₀ (s.stopLogic d) :=
  .ite (.setBank (.ite (.wrFld (.ite h.wrFld.holdFlops.clearClocks.frame.wrFld h.wrFld.holdFlops.clearClocks.frame))
    (.ite h.wrFld.holdFlops.clearClocks.frame.wrFld h.wrFld.holdFlops.clearClocks.frame))) (.ite (.wrFld (.ite
    h.wrFld.holdFlops.clearClocks.frame.wrFld h.wrFld.holdFlops.clearClocks.frame)) (.ite
    h.wrFld.holdFlops.clearClocks.frame.wrFld h.wrFld.holdFlops.clearClocks.frame))

theorem Evolves.unconfigure {d} (h : Evolves s₀ s) : Evolves s₀ (s.unconfigure d) :=
  h.settleLogic.wrFld.undefineRegions.stopLogic

theorem Evolves.loadOff {d} (h : Evolves s₀ s) : Evolves s₀ (s.loadOff d) := h.wrFld.setCfg

theorem Evolves.recordFault {d flag status seg faddr} (h : Evolves s₀ s) :
    Evolves s₀ (s.recordFault d flag status seg faddr) :=
  .ite h.setBits.wr.wr h.setBits

theorem Evolves.failLoad {d flag status faddr} (h : Evolves s₀ s) : Evolves s₀ (s.failLoad d flag status faddr) := by
  unfold State.failLoad
  split
  · exact h
  · dsimp only
    split
    exacts [h.recordFault.bump.loadOff, .checkLoad (.setLoad (.ite (h.recordFault.bump.loadOff.around
      .setRegionState) h.recordFault.bump.loadOff.unconfigure))]

theorem Evolves.failAfter {d flag status faddr} (h : Evolves s₀ s) :
    Evolves s₀ (s.failAfter d flag status faddr) := by
  unfold State.failAfter
  split
  exacts [h, .ite h.failLoad h]

theorem Evolves.parseError {d} (h : Evolves s₀ s) : Evolves s₀ (s.parseError d) := h.failAfter

theorem Evolves.streamError {d status} (h : Evolves s₀ s) : Evolves s₀ (s.streamError d status) := h.failAfter

theorem Evolves.refuseLoad {l v st ds} (h : Evolves s₀ s) : Evolves s₀ (s.refuseLoad l v st ds) :=
  .complete (.frameDraw (h.each .recordFault))

theorem Evolves.takeLoad {l v key hdr d} (h : Evolves s₀ s) : Evolves s₀ (s.takeLoad l v key hdr d) :=
  .setCfg (.wr (.wrFld (.ite (h.around fun h => h.setRegionState.holdFlops) (h.unconfigure.wrFld.each .wr))))

theorem Evolves.execHeader {l m} (h : Evolves s₀ s) : Leads s₀ (execHeader l m s) := by
  unfold Machine.execHeader
  split
  exacts [.impossible, .ite .impossible (.ite (.next h.refuseLoad) (.ite (.next h.readLong.refuseLoad) (.ite (.next
    h.readLong.refuseLoad) (.ite (.next h.readLong.refuseLoad) (.ite (.next h.readLong.refuseLoad) (.ite (.next
    h.readLong.refuseLoad) (.ite (.next h.readLong.streamRules.refuseLoad) (.next (.setLoad (h.readLong.each
    .takeLoad))))))))))]

theorem Evolves.setDieLoad {d x} (h : Evolves s₀ s) : Evolves s₀ (s.setDieLoad d x) := h.setCfg

theorem Evolves.execSeg {d m} (h : Evolves s₀ s) : Leads s₀ (execSeg d m s) := by
  unfold Machine.execSeg
  split
  exacts [.impossible, .ite .impossible (.ite (.next h.failAfter) (.ite (.next h.readLong.streamError) (.ite (.next
    h.readLong.failAfter) (.next h.readLong.setDieLoad))))]

theorem Evolves.execSegmentAuthenticated {d m} (h : Evolves s₀ s) : Leads s₀ (execSegmentAuthenticated d m s) := by
  unfold Machine.execSegmentAuthenticated
  split
  · exact .impossible
  · refine .ite (.next h.failAfter) ?_
    refine .ite (.next h.readLong.streamError) ?_
    dsimp only
    split
    exacts [.next h.readLong.failAfter, .ite (.next h.readLong.parseError) (.next h.readLong.setDieLoad)]

theorem Evolves.runText {op d words act} (h : Evolves s₀ s)
    (hact : ∀ {x0 x1 x2 s}, Evolves s₀ s → Evolves s₀ (act x0 x1 x2 s)) : Leads s₀ (runText op d words act s) := by
  unfold Machine.runText
  split
  exacts [.impossible, .ite (.next h.parseError) (.ite .impossible (.ite (.next h.parseError) (.next (hact h))))]

theorem Evolves.execCfgNop {d} (h : Evolves s₀ s) : Leads s₀ (execCfgNop d s) :=
  h.runText fun h => .ite h.parseError h.setDieLoad

theorem Evolves.execRegw {d} (h : Evolves s₀ s) : Leads s₀ (execRegw d s) := by
  unfold Machine.execRegw
  split
  exacts [.impossible, h.runText fun h => .ite h.parseError h.setDieLoad]

theorem Evolves.execFaddr {d} (h : Evolves s₀ s) : Leads s₀ (execFaddr d s) := by
  unfold Machine.execFaddr
  split
  exacts [.impossible, h.runText fun h => .ite h.parseError (.ite h.failAfter h.setDieLoad)]

theorem Evolves.execFdata {d} (h : Evolves s₀ s) : Leads s₀ (execFdata d s) := by
  unfold Machine.execFdata
  split
  · exact .impossible
  · refine .runText h (fun h => ?_)
    dsimp only
    split
    exacts [h.parseError, .ite h.parseError h.setDieLoad]

theorem Evolves.execKeyroll {d} (h : Evolves s₀ s) : Leads s₀ (execKeyroll d s) :=
  h.runText fun h => .ite h.parseError h.setDieLoad

theorem Evolves.execCfgEnd {d} (h : Evolves s₀ s) : Leads s₀ (execCfgEnd d s) := by
  unfold Machine.execCfgEnd
  split
  exacts [.impossible, .ite (.next h) (h.runText fun h => .ite h.parseError (.ite h.failLoad (.ite
    h.setDieLoad.setRegionState h.setDieLoad.wrFld)))]

theorem Evolves.execFrameCommit {d} (h : Evolves s₀ s) : Leads s₀ (execFrameCommit d s) := by
  unfold Machine.execFrameCommit
  split
  · exact .impossible
  · split
    exacts [.ite (.next h.failLoad) (.ite (.next h.setCfg.setDieLoad.bump) (.next (.failLoad (.setCfg (h.around
      .setBits))))), .impossible]

theorem Evolves.execSig {d m} (h : Evolves s₀ s) : Leads s₀ (execSig d m s) := by
  unfold Machine.execSig
  split
  exacts [.impossible, .ite (.next h.failLoad) (.ite (.next h.readLong.streamError) (.ite (.next
    h.readLong.parseError) (.ite (.next h.readLong.failLoad) (.next h.readLong.setDieLoad))))]

theorem Evolves.releaseReset {d x v} (h : Evolves s₀ s) : Evolves s₀ (s.releaseReset d x v) :=
  .each (.ite h.setCfg.holdFlops.loadContents h.setCfg.holdFlops.loadContents.clearLines) .wr64

theorem Evolves.execSignatureReport {l} (h : Evolves s₀ s) : Leads s₀ (execSignatureReport l s) := by
  unfold Machine.execSignatureReport
  dsimp only
  split
  · exact .impossible
  · split
    · exact .impossible
    · split
      · exact .impossible
      · refine .next ?_
        refine .each h.verifyTimed (fun h => ?_)
        split
        exacts [h, .ite h.releaseReset h.failLoad]

theorem Evolves.releaseIo {d} (h : Evolves s₀ s) : Evolves s₀ (s.releaseIo d) :=
  .ite h.frame (.ite h.frame.wrFld.frame.setBank h.frame.wrFld.frame.setBank)

theorem Evolves.releaseRecord {x v} (h : Evolves s₀ s) : Evolves s₀ (s.releaseRecord x v) :=
  .ite (.extend (h.setStore h.killed)) (.extend (h.setStore h.killed))

theorem Evolves.execBorderOpen {d} (h : Evolves s₀ s) : Leads s₀ (execBorderOpen d s) := by
  unfold Machine.execBorderOpen
  split
  exacts [.impossible, .next (.checkLoad (.setLoad (.ite (.around (.setCfg (.each (.bump (.loadOff (.ite
    h.releaseRecord h))) .clrBits)) .setRegionState) (.settleLogic (.releaseIo (.each (.wrFld (.wrFld (.setCfg (.each
    (.bump (.loadOff (.ite h.releaseRecord h))) .clrBits)))) fun h => .ite h.setRegionState h))))))]

theorem Evolves.execAbortLoad {d} (h : Evolves s₀ s) : Leads s₀ (execAbortLoad d s) := by
  unfold Machine.execAbortLoad
  split
  exacts [.next h, .ite (.next h.tally) (.next h.failLoad)]

theorem Evolves.upsetInfo {d a word ue} (h : Evolves s₀ s) : Evolves s₀ (s.upsetInfo d a word ue) := .ite h h.wr.wr

theorem Evolves.essential {d a words m} (h : Evolves s₀ s) : Evolves s₀ (s.essential d a words m).2 :=
  .ite_snd h (.ite_snd h.readLong h.readLong)

theorem Evolves.uncorrectedFrame {d a words m} (h : Evolves s₀ s) : Evolves s₀ (s.uncorrectedFrame d a words m) := by
  unfold State.uncorrectedFrame
  dsimp only
  split
  · refine .ite ?_ h.essential.bump.upsetInfo.setFlag.event
    refine .unconfigure ?_
    split
    exacts [h.essential.bump.upsetInfo.setFlag.event.failLoad, h.essential.bump.upsetInfo.setFlag.event]
  · exact .ite h.essential.bump (.ite (h.essential.bump.around fun h => h.setRegionState.holdFlops)
      h.essential.bump.upsetInfo.setFlag.event)

theorem Evolves.execScrubRead {d data check m} (h : Evolves s₀ s) : Leads s₀ (execScrubRead d data check m s) := by
  unfold Machine.execScrubRead
  dsimp only
  refine .ite .impossible (.ite (.next ?_) (.ite (.next (.uncorrectedFrame ?_)) (.next (.setCfg (.essential ?_)))))
  all_goals
    split
    · exact h.setCfg
    · exact .frameDraw (.wr h.setCfg.bump)

theorem Evolves.execScrubWriteBack {d} (h : Evolves s₀ s) : Leads s₀ (execScrubWriteBack d s) := by
  unfold Machine.execScrubWriteBack
  dsimp only
  split
  · exact .impossible
  · refine .ite (.next h.setCfg.bump.setFlag) ?_
    refine .ite (.next h.setCfg.bump.bump) ?_
    split
    exacts [.ite (.next (.setFlag (.bump (h.setCfg.bump.setFlag.upsetInfo.bump.setFlag.event.around fun h =>
      h.setRegionState.holdFlops)))) (.next h.setCfg.bump.setFlag.upsetInfo.bump.setFlag.event), .next
      h.setCfg.bump.setFlag.upsetInfo.bump.setFlag.event]

theorem Evolves.execEssResetEnd {d r} (h : Evolves s₀ s) : Leads s₀ (execEssResetEnd d r s) :=
  .ite (.next (h.around .setRegionState)) .impossible

/-! ### Mcast -/

theorem Evolves.land {b target off bs} (h : Evolves s₀ s) : Evolves s₀ (s.land b target off bs) := by
  unfold State.land
  split
  exacts [h.firmWrite, h.firmWrite, h.setVec, h.setVec]

theorem Evolves.mcastTarget {p b} (h : Evolves s₀ s) : Evolves s₀ (s.mcastTarget p b).2 :=
  .ite_snd h.srcBump (.ite_snd h (.ite_snd h.bump (.ite_snd h.land h.frameDraw)))

theorem Evolves.mcastIssue {p} (h : Evolves s₀ s) : Evolves s₀ (s.mcastIssue p).2 := h.nocIssue

theorem Evolves.mcastTrip {v b} (h : Evolves s₀ s) : Evolves s₀ (s.mcastTrip v b).2 := by
  unfold State.mcastTrip
  refine .countResponse ?_
  refine .frameDraw ?_
  split
  exacts [h, h.mcastTarget]

/-! ### Ckpt -/

theorem Evolves.writeParts {g ps m} (h : Evolves s₀ s) : Evolves s₀ (s.writeParts g ps m).2 := by
  induction ps generalizing s m with
  | nil => exact h
  | cons p ps ih => exact .ite_snd h.writeLong (ih h.writeLong)

theorem Evolves.writeRecord {b A tag m} (h : Evolves s₀ s) : Evolves s₀ (s.writeRecord b A tag m).2 := h.writeParts

theorem Evolves.readParts {g ps m} (h : Evolves s₀ s) : Evolves s₀ (s.readParts g ps m).2 := by
  induction ps generalizing s m with
  | nil => exact h
  | cons p ps ih => exact .ite_snd h.readLong (ih h.readLong)

theorem Evolves.showSaved {b c ch x} (h : Evolves s₀ s) : Evolves s₀ (s.showSaved b c ch x) := .ite h.wr.wr.wr.wr h

theorem Evolves.readRecord {b A j} (h : Evolves s₀ s) : Evolves s₀ (s.readRecord b A j) :=
  .setBay (.setVec (.each (h.each fun h => h.setChan.showSaved) .setMtx))

/-! ### JobRun -/

theorem Evolves.setQueue {part cls q} (h : Evolves s₀ s) : Evolves s₀ (s.setQueue part cls q) := h.frame

theorem Evolves.freeHandle {f h'} (h : Evolves s₀ s) : Evolves s₀ (s.freeHandle f h') := by
  unfold State.freeHandle
  split
  · exact h
  · dsimp only
    split
    exacts [h.frame.complete, h.frame]

theorem Evolves.checkHandle {f h'} (h : Evolves s₀ s) : Evolves s₀ (s.checkHandle f h') := by
  unfold State.checkHandle
  split
  exacts [.ite h.freeHandle h, h]

theorem Evolves.retireJob {j v} (h : Evolves s₀ s) : Evolves s₀ (s.retireJob j v) := by
  unfold State.retireJob
  dsimp only
  split
  exacts [h.frame.setQueue.complete.checkHandle, h.frame.setQueue.complete]

theorem Evolves.freeBay {b} (h : Evolves s₀ s) : Evolves s₀ (s.freeBay b) := h.setBay

theorem Evolves.dropJob {j v st addr} (h : Evolves s₀ s) : Evolves s₀ (s.dropJob j v st addr) := h.retireJob

theorem Evolves.departing {v} (h : Evolves s₀ s) : Evolves s₀ (s.departing v) := h.each .setBits

theorem Evolves.finishJob {j} (h : Evolves s₀ s) : Evolves s₀ (s.finishJob j) := by
  unfold State.finishJob
  split
  exacts [h, .retireJob (.departing (h.each fun h => .freeBay (h.endBlocks.each .closePort)))]

theorem Evolves.bayEntries {j m} (h : Evolves s₀ s) : Evolves s₀ (s.bayEntries j m).2.2 := h.imgRead

theorem Evolves.startBay {b j lb passIndex bubble e} (h : Evolves s₀ s) :
    Evolves s₀ (s.startBay b j lb passIndex bubble e) :=
  .setVec (.each (h.setBay.each fun h => .ite h.setChan h) fun h => h.setMtx.wr)

theorem Evolves.kickTime {cls} (h : Evolves s₀ s) : Evolves s₀ (s.kickTime cls) :=
  .ite h (.ite h.frameDraw.wrMax.setFlag h.frameDraw.wrMax)

theorem Evolves.startSequencers {j} (h : Evolves s₀ s) : Evolves s₀ (s.startSequencers j) := by
  unfold State.startSequencers
  split
  exacts [h, .ite (.kickTime (.setJob (h.frame.each fun h => h.setBay.each .openPort))) h]

theorem Evolves.parkJob {j v} (h : Evolves s₀ s) : Evolves s₀ (s.parkJob j v) :=
  .setQueue (.setJob (.departing (h.bump.bump.each fun h => .freeBay (.each (.setVec (.each (h.each .closePort)
    .setChan)) .setMtx))))

/-! ### Seq -/

theorem Evolves.badCommand {b} (h : Evolves s₀ s) : Evolves s₀ (s.badCommand b) := h.failBay

theorem Evolves.imageFault {b a} (h : Evolves s₀ s) : Evolves s₀ (s.imageFault b a) := h.failBay

theorem Evolves.cmdDone {b} (h : Evolves s₀ s) : Evolves s₀ (s.cmdDone b) := h.setBay

theorem Evolves.fetchPage_go {b v m x p} (h : Evolves s₀ s) : Evolves s₀ (State.fetchPage.go s b v m x p).2 :=
  .ite h.imgRead.setBay h.imgRead

theorem Evolves.fetchPage {b v m} (h : Evolves s₀ s) : Evolves s₀ (s.fetchPage b v m).2 := by
  unfold State.fetchPage
  dsimp only
  split
  exacts [.ite_snd h h.fetchPage_go, h.fetchPage_go]

theorem Evolves.runCmd {op b m act} (h : Evolves s₀ s)
    (hact : ∀ {x0 x1 x2 x3 s}, Evolves s₀ s → Leads s₀ (act x0 x1 x2 x3 s)) : Leads s₀ (runCmd op b m act s) := by
  unfold Machine.runCmd
  dsimp only
  split
  · exact .impossible
  · split
    exacts [.impossible, .ite .impossible (.ite (.next h.badCommand) (.ite (.next h.fetchPage.imageFault) (.ite (.ite
      (hact h.fetchPage) .impossible) (.next h.fetchPage.badCommand))))]

theorem Evolves.fetchDesc {b v off n m} (h : Evolves s₀ s) : Evolves s₀ (s.fetchDesc b v off n m).2 := by
  unfold State.fetchDesc
  split
  exacts [h, .ite h.imgRead.setBay h.imgRead]

theorem Evolves.execPassCmd {b m} (h : Evolves s₀ s) : Leads s₀ (execPassCmd b m s) :=
  h.runCmd fun h => .ite (.next h.badCommand) (.ite (.next h.imgRead.imageFault) (.next h.imgRead.setMtx.setBay))

theorem Evolves.completeCredits {b c} (h : Evolves s₀ s) : Evolves s₀ (s.completeCredits b c) :=
  h.each fun h => .ite (.ite h.setVec h) (.ite (.ite h.setMtx h) h)

theorem Evolves.execStreamCmd {b m} (h : Evolves s₀ s) : Leads s₀ (execStreamCmd b m s) := by
  unfold Machine.execStreamCmd
  refine .runCmd h (fun h => ?_)
  refine .ite (.next h.badCommand) ?_
  refine .ite (.next h.fetchDesc.imageFault) ?_
  split
  exacts [.next h.fetchDesc.strFault.failBay, .ite (.next h.fetchDesc.strFault.failBay) (.ite (.next
    h.fetchDesc.badCommand) (.ite (.next h.fetchDesc) (.next h.fetchDesc.completeCredits.setChan.setBay.cmdDone)))]

theorem Evolves.loadPackets {b v off n m} (h : Evolves s₀ s) : Evolves s₀ (s.loadPackets b v off n m).2 :=
  .ite_snd h.imgRead h.imgRead.setVec

theorem Evolves.loadVector {b v off m} (h : Evolves s₀ s) : ∀ r ∈ s.loadVector b v off m, Evolves s₀ r.2 := by
  unfold State.loadVector
  refine evolves_ite evolves_none (evolves_ite (evolves_some h.imgRead) ?_)
  split
  exacts [evolves_none, evolves_some h.imgRead.loadPackets]

theorem Evolves.execVprog {b m} (h : Evolves s₀ s) : Leads s₀ (execVprog b m s) := by
  unfold Machine.execVprog
  refine .runCmd h (fun h => ?_)
  refine .ite (.next h.badCommand) ?_
  refine .ite (.next h.fetchDesc.imageFault) ?_
  split
  exacts [.next h.fetchDesc.badCommand, .ite (.next h.fetchDesc) (.ite (.next h.fetchDesc.loadPackets.imageFault)
    (.next h.fetchDesc.loadPackets.setVec.setBay.cmdDone))]

theorem Evolves.execVwait {b m} (h : Evolves s₀ s) : Leads s₀ (execVwait b m s) :=
  h.runCmd fun h => .ite (.next h.badCommand) (.ite (.next h) (.next h.cmdDone))

theorem Evolves.execLayer {b m} (h : Evolves s₀ s) : Leads s₀ (execLayer b m s) :=
  h.runCmd fun h => .next h.setBay.cmdDone

theorem Evolves.execBarrierCmd {b m} (h : Evolves s₀ s) : Leads s₀ (execBarrierCmd b m s) :=
  h.runCmd fun h => .ite (.next h.badCommand) (.ite (.next h.setBay) (.next h))

theorem Evolves.execBarrierArrival {b m} (h : Evolves s₀ s) : Leads s₀ (execBarrierArrival b m s) := by
  unfold Machine.execBarrierArrival
  dsimp only
  split
  exacts [.ite .impossible (.ite (.next h.messageTrip) (.ite (.next h.messageTrip.imgRead.imageFault) (.ite (.next
    h.messageTrip.imgRead.setJob) (.next h.messageTrip.imgRead.setJob)))), .impossible]

theorem Evolves.execBarrierRelease {b} (h : Evolves s₀ s) : Leads s₀ (execBarrierRelease b s) := by
  unfold Machine.execBarrierRelease
  dsimp only
  split
  exacts [.ite .impossible (.ite (.next h.messageTrip) (.next h.messageTrip.setJob.setBay.cmdDone)), .impossible]

theorem Evolves.execBarrierLimitExpiry {j k} (h : Evolves s₀ s) : Leads s₀ (execBarrierLimitExpiry j k s) := by
  unfold Machine.execBarrierLimitExpiry
  split
  exacts [.impossible, .ite .impossible (.next h.leadFlag.failJob)]

theorem Evolves.execEventCmd {b m} (h : Evolves s₀ s) : Leads s₀ (execEventCmd b m s) :=
  h.runCmd fun h => .next h.postEvent.cmdDone

theorem Evolves.execSeqEnd {b m} (h : Evolves s₀ s) : Leads s₀ (execSeqEnd b m s) :=
  h.runCmd fun h => .ite (.next h.setBay) (.next h)

/-! ### TwinOps -/

theorem Evolves.twinFlag {i} (h : Evolves s₀ s) : Evolves s₀ (s.twinFlag i) := h.setFlag.bump

theorem Evolves.mirrorSend {ws w} (h : Evolves s₀ s) : Evolves s₀ (s.mirrorSend ws w) :=
  .settleFences (.frame (h.each .emit))

theorem Evolves.mirrorFence {w} (h : Evolves s₀ s) : Evolves s₀ (s.mirrorFence w) := h.emit.frame.addHome

theorem Evolves.mirrorEntry {i slot f r seq bs t} (h : Evolves s₀ s) :
    Evolves s₀ (s.mirrorEntry i slot f r seq bs t) :=
  h.frame.mirrorSend

theorem Evolves.mirrorDone {f r seq} (h : Evolves s₀ s) : Evolves s₀ (s.mirrorDone f r seq) := by
  unfold State.mirrorDone
  split
  exacts [h, .ite h.frame.mirrorSend h.frame]

theorem Evolves.setTwin {st entries} (h : Evolves s₀ s) : Evolves s₀ (s.setTwin st entries) :=
  .ite h.wrFld h.wrFld.event

theorem Evolves.holdMirrored (h : Evolves s₀ s) : Evolves s₀ s.holdMirrored := h.each fun h => h.setJob.preemptNow

theorem Evolves.partnerLost {cause} (h : Evolves s₀ s) : Evolves s₀ (s.partnerLost cause) :=
  .ite (.holdMirrored (.setTwin (.wrFld (.twinFlag (.ite h.twinFlag h))))) h

theorem Evolves.mirrorRecord {A n parts} (h : Evolves s₀ s) : Evolves s₀ (s.mirrorRecord A n parts) := by
  unfold State.mirrorRecord
  refine .ite h ?_
  split
  exacts [h, h.mirrorSend]

/-! ### Jobs -/

theorem Evolves.execBayEndMsg {b} (h : Evolves s₀ s) : Leads s₀ (execBayEndMsg b s) := by
  unfold Machine.execBayEndMsg
  dsimp only
  split
  exacts [.impossible, .ite .impossible (.ite (.next h.messageTrip) (.next (.ite (.finishJob (.ite
    h.messageTrip.setJob.clearRecords h.messageTrip.setJob)) h.messageTrip.setJob)))]

theorem Evolves.execTimeLimitExpiry {j} (h : Evolves s₀ s) : Leads s₀ (execTimeLimitExpiry j s) := by
  unfold Machine.execTimeLimitExpiry
  split
  exacts [.impossible, .ite .impossible (.next h.leadFlag.failJob)]

theorem Evolves.execJobDispatch {j m} (h : Evolves s₀ s) : Leads s₀ (execJobDispatch j m s) := by
  unfold Machine.execJobDispatch
  split
  · exact .impossible
  · refine .ite .impossible ?_
    split
    · split
      exacts [.next h.setJob, .next h.dropJob]
    · exact .ite (.next (.dropJob (.ite h.checkImage.leadFlag.strFault h.checkImage.leadFlag))) (.ite (.next
        h.checkImage.leadFlag.dropJob) (.next h.checkImage.setJob))

theorem Evolves.cmdLists {v es} (h : Evolves s₀ s) : Evolves s₀ (s.cmdLists v es).2.2 := by
  induction es generalizing s with
  | nil => exact h
  | cons e es ih => exact .ite_snd_snd h.imgRead (ih h.imgRead)

theorem Evolves.recordReadable {b A m} (h : Evolves s₀ s) : Evolves s₀ (s.recordReadable b A m).2 := h.readParts

theorem Evolves.recordsReadable {v bad xs} (h : Evolves s₀ s) : Evolves s₀ (s.recordsReadable v bad xs).2 := by
  induction xs generalizing s with
  | nil => exact h
  | cons x xs ih => exact .ite_snd (ih h.recordReadable) h.recordReadable

theorem Evolves.resumeBay {b v lb cmds} (h : Evolves s₀ s) : Evolves s₀ (s.resumeBay b v lb cmds).2 := by
  unfold State.resumeBay
  refine .setBay (.ite (.setVec (.readRecord ?_)) (.ite (.setVec (.readRecord ?_)) (.readRecord ?_)))
  all_goals
    refine .ite_snd ?_ h
    split
    · next hu => exact h.loadVector _ hu
    · exact h

theorem Evolves.resumeBays {v cmds xs} (h : Evolves s₀ s) : Evolves s₀ (s.resumeBays v cmds xs).2 := by
  induction xs generalizing s with
  | nil => exact h
  | cons x xs ih => exact ih h.resumeBay

theorem Evolves.putJob {j v qs es cmds} (h : Evolves s₀ s) : Evolves s₀ (s.putJob j v qs es cmds) :=
  .ite (.failJob (.setJob (.frame (.ite_snd (.resumeBays (h.setQueue.setJob.bump.each .startBay))
    (h.setQueue.setJob.bump.each .startBay))))) (.startSequencers (.setJob (.frame (.ite_snd (.resumeBays
    (h.setQueue.setJob.bump.each .startBay)) (h.setQueue.setJob.bump.each .startBay)))))

theorem Evolves.execJobPlacement {j m bad} (h : Evolves s₀ s) : Leads s₀ (execJobPlacement j m bad s) := by
  unfold Machine.execJobPlacement
  split
  · exact .impossible
  · refine .ite .impossible ?_
    refine .ite (.next h.bayEntries.dropJob) ?_
    dsimp only
    split
    · split
      exacts [.next h.bayEntries, .ite (.next h.bayEntries) (.next h.bayEntries.dropJob)]
    · exact .ite (.next h.bayEntries.cmdLists.dropJob) (.ite (.next (.dropJob (.ite_snd
        h.bayEntries.cmdLists.recordsReadable h.bayEntries.cmdLists))) (.next (.putJob (.ite_snd
        h.bayEntries.cmdLists.recordsReadable h.bayEntries.cmdLists))))

theorem Evolves.sectionParts {v off m} (h : Evolves s₀ s) : Evolves s₀ (s.sectionParts v off m).2.2 := by
  unfold State.sectionParts
  refine .ite_snd_snd h ?_
  dsimp only
  split
  exacts [h.imgRead, h.imgRead.imgRead]

theorem Evolves.sectionsParts {v m os} (h : Evolves s₀ s) : Evolves s₀ (s.sectionsParts v m os).2.2 := by
  induction os generalizing s m with
  | nil => exact h
  | cons o os ih => exact .ite_snd_snd h.sectionParts (ih h.sectionParts)

theorem Evolves.bayParts {v lb m} (h : Evolves s₀ s) : Evolves s₀ (s.bayParts v lb m).2.2 :=
  .ite_snd_snd h.imgRead (.ite_snd_snd h.imgRead.imgRead h.imgRead.imgRead.sectionsParts)

theorem Evolves.execMulticastAck {j lb ok} (h : Evolves s₀ s) : Leads s₀ (execMulticastAck j lb ok s) := by
  unfold Machine.execMulticastAck
  split
  · exact .impossible
  · split
    · exact .impossible
    · refine .ite .impossible ?_
      split
      · exact .next h
      · refine .ite (.next h.bayParts.failJob) ?_
        split
        exacts [.next h.bayParts.setJob.startSequencers, .ite (.next (.mcastTrip (.ite h.bayParts.mcastIssue.setJob
          h.bayParts))) (.next (.startSequencers (.setJob (.mcastTrip (.ite h.bayParts.mcastIssue.setJob
          h.bayParts)))))]

theorem Evolves.execMulticastRetry {j lb} (h : Evolves s₀ s) : Leads s₀ (execMulticastRetry j lb s) := by
  unfold Machine.execMulticastRetry
  split
  · exact .impossible
  · split
    exacts [.impossible, .ite .impossible (.ite (.next h.setJob.bump) (.next h.leadFlag.failJob))]

theorem Evolves.restartWalk {b c part lo hi} (h : Evolves s₀ s) : Evolves s₀ (s.restartWalk b c part lo hi) := by
  unfold State.restartWalk
  split
  exacts [h, .ite h.startWalk h]

theorem Evolves.execTranslationInvalidate {b part lo hi} (h : Evolves s₀ s) :
    Leads s₀ (execTranslationInvalidate b part lo hi s) :=
  .next (h.frame.setBay.each .restartWalk)

theorem Evolves.execInvalidationComplete {b} (h : Evolves s₀ s) : Leads s₀ (execInvalidationComplete b s) := by
  unfold Machine.execInvalidationComplete
  dsimp only
  split
  exacts [.impossible, .ite .impossible (.next h.setBay)]

theorem Evolves.zeroCrema {q} (h : Evolves s₀ s) : Evolves s₀ (s.zeroCrema q) := .frame h.dropMem

theorem Evolves.zeroBay {b} (h : Evolves s₀ s) : Evolves s₀ (s.zeroBay b) := .setVec (h.each .setMtx)

theorem Evolves.showMember {q} (h : Evolves s₀ s) : Evolves s₀ (s.showMember q) := h.wrFld

theorem Evolves.execQuarterZeroed {q} (h : Evolves s₀ s) : Leads s₀ (execQuarterZeroed q s) :=
  .ite .impossible (.next (.showMember (.frame (.clrBits (h.zeroCrema.foldl .zeroBay)))))

theorem Evolves.execCheckpointRecordWrite {b m us} (h : Evolves s₀ s) :
    Leads s₀ (execCheckpointRecordWrite b m us s) := by
  unfold Machine.execCheckpointRecordWrite
  dsimp only
  split
  exacts [.impossible, .ite .impossible (.ite (.next (.failJob (.leadFlag (.writeRecord (h.each .closePort))))) (.ite
    (.next (.setBay (.mirrorRecord (.writeRecord (h.each .closePort))))) (.next (.parkJob (.ite (.leadFlag (.wrMax
    (.setBay (.mirrorRecord (.writeRecord (h.each .closePort)))))) (.wrMax (.setBay (.mirrorRecord (.writeRecord
    (h.each .closePort))))))))))]

theorem Evolves.softResetBay {b} (h : Evolves s₀ s) : Evolves s₀ (s.softResetBay b) :=
  .each (.setVec (h.zeroBay.each .setMtx)) .setChan

theorem Evolves.resetJob {j} (h : Evolves s₀ s) : Evolves s₀ (s.resetJob j) := by
  unfold State.resetJob
  split
  exacts [h, .ite h.failJob.finishJob h.dropJob]

theorem Evolves.resetPartition {p} (h : Evolves s₀ s) : Evolves s₀ (s.resetPartition p) :=
  .each (.each (.each (.each (h.setBits.frame.each .setBits) .resetJob) .freeHandle) .softResetBay) fun h => h.each
    .absorbAll

theorem Evolves.execPartitionReset {p} (h : Evolves s₀ s) : Leads s₀ (execPartitionReset p s) :=
  .ite (.next h.setFlag.bump) (.ite (.next h) (.next h.resetPartition))

theorem Evolves.execPartitionResetEnd {p} (h : Evolves s₀ s) : Leads s₀ (execPartitionResetEnd p s) :=
  .ite .impossible (.next (.event (h.clrBits.frame.each .clrBits)))

/-! ### Hif -/

theorem Evolves.dropRings {f} (h : Evolves s₀ s) : Evolves s₀ (s.dropRings f) :=
  .each (.setFn (.each (h.each fun h => h.setRing.setSq) fun h => h.setRing.setCq)) .wr

theorem Evolves.enableVfs {f n} (h : Evolves s₀ s) : Evolves s₀ (s.enableVfs f n) := .setFn (h.each .dropRings)

theorem Evolves.configure {f q} (h : Evolves s₀ s) : Evolves s₀ (s.configure f q) := by
  unfold State.configure
  dsimp only
  split
  exacts [h, .ite h.enableVfs h, .ite h h.setFn, h.setFn.sendPending, h.setFn.sendPending]

theorem Evolves.execPcieConfigRequest {f q} (h : Evolves s₀ s) : Leads s₀ (execPcieConfigRequest f q s) :=
  .ite .impossible (.ite (.next (.ite h.configure.emit h.emit)) (.ite (.next h.emit) (.next h.bump.emit)))

theorem Evolves.linkDown {l} (h : Evolves s₀ s) : Evolves s₀ (s.linkDown l) := h.wrFld

theorem Evolves.execPcieLinkDown {l} (h : Evolves s₀ s) : Leads s₀ (execPcieLinkDown l s) :=
  .ite (.next h.linkDown) .impossible

theorem Evolves.bar4Walk {part a net write m k level table} (h : Evolves s₀ s) :
    Evolves s₀ (s.bar4Walk part a net write m k level table).2 := by
  induction k generalizing s level table with
  | zero => exact h
  | succ k ih =>
    unfold State.bar4Walk
    refine .ite_snd h (.ite_snd h.roundTrip ?_)
    split
    · exact h.roundTrip
    · exact ih h.roundTrip
    · split
      exacts [h.roundTrip.frame, h.roundTrip, h.roundTrip, h.roundTrip]

theorem Evolves.bar4Target {f off net write m} (h : Evolves s₀ s) :
    Evolves s₀ (s.bar4Target f off net write m).2 := by
  unfold State.bar4Target
  refine .ite_snd h ?_
  split
  · exact h.frameDraw
  · refine .ite_snd h ?_
    split
    · split
      exacts [h, h, h]
    · exact h.bar4Walk

theorem Evolves.bar4Fail {f off status write} (h : Evolves s₀ s) : Evolves s₀ (s.bar4Fail f off status write) :=
  .event (.ite h.bump.setFlag.setFlag.wr64.wr h.bump.setFlag.setFlag)

theorem Evolves.bar4Plan {f net write m k off n} (h : Evolves s₀ s) :
    Evolves s₀ (s.bar4Plan f net write m k off n).2 := by
  induction k generalizing s off n with
  | zero => exact h
  | succ k ih =>
    unfold State.bar4Plan
    refine .ite_snd h ?_
    dsimp only
    split
    · exact h.bar4Target
    · split
      · next hu => exact h.bar4Target.decoderAnswer _ hu
      · exact ih h.bar4Target

theorem Evolves.bar4Get {ps m} (h : Evolves s₀ s) : Evolves s₀ (s.bar4Get ps m).2 := by
  induction ps generalizing s m with
  | nil => exact h
  | cons p ps ih => exact .ite_snd h.roundTrip (ih h.roundTrip)

theorem Evolves.bar4Put {ps bs m} (h : Evolves s₀ s) : Evolves s₀ (s.bar4Put ps bs m).2 := by
  induction ps generalizing s bs m with
  | nil => exact h
  | cons p ps ih => exact .ite_snd h.roundTrip (ih h.roundTrip)

theorem Evolves.execBar4Read {f off n net m} (h : Evolves s₀ s) : Leads s₀ (execBar4Read f off n net m s) := by
  unfold Machine.execBar4Read
  refine .ite .impossible ?_
  refine .ite (.next h.logAccess.emit) ?_
  dsimp only
  split
  exacts [.next h.bar4Plan.bar4Fail.emit, .next (.ite h.bar4Plan.bar4Get.emit h.bar4Plan.bar4Get.bar4Fail.emit)]

theorem Evolves.execBar4Write {f off data net m} (h : Evolves s₀ s) :
    Leads s₀ (execBar4Write f off data net m s) := by
  unfold Machine.execBar4Write
  refine .ite .impossible ?_
  refine .ite (.next (.emit (.ite h.logAccess h))) ?_
  refine .ite (.next h.logAccess) ?_
  dsimp only
  split
  exacts [.next h.bar4Plan.bar4Fail, .next (.ite h.bar4Plan.bar4Put h.bar4Plan.bar4Put.bar4Fail)]

theorem Evolves.fetchGroups {f} (h : Evolves s₀ s) : Evolves s₀ (s.fetchGroups f) :=
  .ite h (h.foldl fun h => .ite h.clrBits.setFn.emit h)

theorem Evolves.kick {f w} (h : Evolves s₀ s) : Evolves s₀ (s.kick f w) := h.setBits.fetchGroups

theorem Evolves.execHifKick {f via0 w} (h : Evolves s₀ s) : Leads s₀ (execHifKick f via0 w s) :=
  h.pageDo (fun h => h.kick) (fun h => h)

theorem Evolves.tailRead {f r tail} (h : Evolves s₀ s) : Evolves s₀ (s.tailRead f r tail) :=
  .ite h (.ite h.ringError (.ite h.ringError h.setSq))

theorem Evolves.fetchEnd {f g} (h : Evolves s₀ s) : Evolves s₀ (s.fetchEnd f g) :=
  h.setFn.fetchGroups.each .fetchGroups

theorem Evolves.groupError {f g} (h : Evolves s₀ s) : Evolves s₀ (s.groupError f g) := h.each .ringError

theorem Evolves.replayed {n} (h : Evolves s₀ s) : Evolves s₀ (s.replayed n) := .ite h h.bump.setFlag

theorem Evolves.execDbrecFetchDone {f g records} (h : Evolves s₀ s) :
    Leads s₀ (execDbrecFetchDone f g records s) := by
  unfold Machine.execDbrecFetchDone
  refine .ite .impossible ?_
  dsimp only
  split
  exacts [.next h.replayed.groupError.fetchEnd, .next (.fetchEnd (h.replayed.each .tailRead))]

theorem Evolves.execHostReadTimeout {f entry n} (h : Evolves s₀ s) : Leads s₀ (execHostReadTimeout f entry n s) :=
  .ite (.ite (.next h.ringError) .impossible) (.ite (.next h.groupError.fetchEnd) .impossible)

theorem Evolves.execEntryReadError {f r} (h : Evolves s₀ s) : Leads s₀ (execEntryReadError f r s) :=
  .ite (.next h.ringError) .impossible

theorem Evolves.execCqHeadPoll {f q record} (h : Evolves s₀ s) : Leads s₀ (execCqHeadPoll f q record s) :=
  .ite .impossible (.next h.emit.setCq)

theorem Evolves.enableRing {f rec_} (h : Evolves s₀ s) : Evolves s₀ (s.enableRing f rec_) :=
  .ite h (.ite h.setRing.setFlag (.ite (.ringError (.ite h.emit.setRing.wr.setCq h.emit.setRing.wr.setSq)) (.ite
    h.emit.setRing.wr.setCq h.emit.setRing.wr.setSq)))

theorem Evolves.execRingEnable {f via0 record} (h : Evolves s₀ s) : Leads s₀ (execRingEnable f via0 record s) :=
  h.pageDo (fun h => h.enableRing) (fun h => h)

theorem Evolves.disableRing {f} (h : Evolves s₀ s) : Evolves s₀ (s.disableRing f) := .ite h.wrFld.setFlag h.setRing

theorem Evolves.execRingDisable {f via0} (h : Evolves s₀ s) : Leads s₀ (execRingDisable f via0 s) :=
  h.pageDo (fun h => h.disableRing) (fun h => h)

theorem Evolves.offer {f w} (h : Evolves s₀ s) : Evolves s₀ (s.offer f w) := .ite h.setFlag h.wr.wr

theorem Evolves.execVersionOffer {f via0 w} (h : Evolves s₀ s) : Leads s₀ (execVersionOffer f via0 w s) :=
  h.pageDo (fun h => h.offer) (fun h => h)

theorem Evolves.refuseEntry {e x} (h : Evolves s₀ s) : Evolves s₀ (s.refuseEntry e x) :=
  .ite h.complete (.ite h.frame.refuseLoad h.complete)

theorem Evolves.takeEntry {f r bs mine go} (h : Evolves s₀ s)
    (hgo : ∀ {x0 x1 s}, Evolves s₀ s → Evolves s₀ (go x0 x1 s)) : Leads s₀ (s.takeEntry f r bs mine go) :=
  .ite .impossible (.ite (.next h) (.next (.ite h.emit.wr.setSq.refuseEntry (hgo h.emit.wr.setSq))))

theorem Evolves.newJob {e x p bs} (h : Evolves s₀ s) : Evolves s₀ (s.newJob e x p bs) := by
  unfold State.newJob
  dsimp only
  split
  exacts [h.frame.setJob.mirrorEntry, h.frame.setJob.setQueue]

theorem Evolves.execJobEntry {f r bs} (h : Evolves s₀ s) : Leads s₀ (execJobEntry f r bs s) := by
  unfold Machine.execJobEntry
  refine .takeEntry h (fun h => ?_)
  refine .ite h.refuseEntry ?_
  split
  exacts [h.refuseEntry, .ite h.refuseEntry h.newJob]

theorem Evolves.execConfigurationEntry {f r bs} (h : Evolves s₀ s) : Leads s₀ (execConfigurationEntry f r bs s) :=
  h.takeEntry fun h => .ite h.refuseEntry h.frame.setLoad

theorem Evolves.mirrorOther {e bs t} (h : Evolves s₀ s) : ∀ u ∈ s.mirrorOther e bs t, Evolves s₀ u := by
  intro u hu
  obtain ⟨i, -, hi⟩ := Option.bind_eq_some_iff.1 hu
  obtain ⟨k, -, rfl⟩ := Option.map_eq_some_iff.1 hi
  exact h.mirrorEntry

theorem Evolves.barrierEntry {e} (h : Evolves s₀ s) : Evolves s₀ (s.barrierEntry e) := .ite h.complete h.setSq

theorem Evolves.execRingBarrier {f r bs} (h : Evolves s₀ s) : Leads s₀ (execRingBarrier f r bs s) := by
  unfold Machine.execRingBarrier
  refine .takeEntry h (fun h => ?_)
  split
  · next _ hu =>
      exact (h.mirrorOther _ hu)
  · exact h.barrierEntry

theorem Evolves.execRingNop {f r bs} (h : Evolves s₀ s) : Leads s₀ (execRingNop f r bs s) := by
  unfold Machine.execRingNop
  refine .takeEntry h (fun h => ?_)
  split
  · next _ hu =>
      exact (h.mirrorOther _ hu)
  · exact h.complete

theorem Evolves.pinImage {e h' img} (h : Evolves s₀ s) : Evolves s₀ (s.pinImage e h' img) := h.frame.extend.complete

theorem Evolves.execPin {f r bs m} (h : Evolves s₀ s) : Leads s₀ (execPin f r bs m s) := by
  unfold Machine.execPin
  refine .takeEntry h (fun h => ?_)
  dsimp only
  split
  exacts [h.refuseEntry, .ite h.refuseEntry (.ite h.checkImage.setFlag.bump.complete (.ite h.checkImage.refuseEntry
    h.checkImage.pinImage))]

theorem Evolves.execUnpin {f r bs} (h : Evolves s₀ s) : Leads s₀ (execUnpin f r bs s) := by
  unfold Machine.execUnpin
  refine .takeEntry h (fun h => ?_)
  refine .ite h.complete ?_
  split
  exacts [h.complete, h.frame.checkHandle]

theorem Evolves.cqTrigger {f q now} (h : Evolves s₀ s) : Evolves s₀ (s.cqTrigger f q now) := .ite h.setCq.message h

theorem Evolves.writeCpl {f q c rest ns} (h : Evolves s₀ s) : Evolves s₀ (s.writeCpl f q c rest ns) :=
  .ite (.cqTrigger (.ite (.ite (.setFlag (.wrMax (.setCq (.wr (h.each .emit))))) (.wrMax (.setCq (.wr (h.each
    .emit))))) (.setCq (.wr (h.each .emit))))) (.mirrorDone (.setSq (.cqTrigger (.ite (.ite (.setFlag (.wrMax (.setCq
    (.wr (h.each .emit))))) (.wrMax (.setCq (.wr (h.each .emit))))) (.setCq (.wr (h.each .emit)))))))

theorem Evolves.execCompletionWrite {f q err ns replays} (h : Evolves s₀ s) :
    Leads s₀ (execCompletionWrite f q err ns replays s) := by
  unfold Machine.execCompletionWrite
  dsimp only
  split
  exacts [.impossible, .ite .impossible (.ite (.next h.replayed.setCq.setFlag.event) (.next h.replayed.writeCpl))]

theorem Evolves.execIrqDelayExpiry {f q} (h : Evolves s₀ s) : Leads s₀ (execIrqDelayExpiry f q s) :=
  .ite .impossible (.next h.cqTrigger)

theorem Evolves.execFunctionLevelReset {f} (h : Evolves s₀ s) : Leads s₀ (execFunctionLevelReset f s) := by
  unfold Machine.execFunctionLevelReset
  refine .ite .impossible ?_
  refine .next ?_
  split
  exacts [.ite h.dropRings h.dropRings.resetPartition, h.dropRings]

theorem Evolves.execD3hotEntry {f} (h : Evolves s₀ s) : Leads s₀ (execD3hotEntry f s) :=
  .ite .impossible (.next h.setFn)

theorem Evolves.writeHeld {f n} (h : Evolves s₀ s) : Evolves s₀ (s.writeHeld f n) := by
  induction n generalizing s with
  | zero => exact h
  | succ n ih =>
    unfold State.writeHeld
    split
    exacts [h, ih h.frameDraw.writeCpl]

theorem Evolves.execD0Return {f} (h : Evolves s₀ s) : Leads s₀ (execD0Return f s) :=
  .ite .impossible (.next h.setFn.writeHeld.sendPending.fetchGroups)

/-! ### Ctl -/

theorem Evolves.ctlFlag {i} (h : Evolves s₀ s) : Evolves s₀ (s.ctlFlag i) := h.setFlag.bump

theorem Evolves.checkShadow (h : Evolves s₀ s) : Evolves s₀ s.checkShadow := h.wr

theorem Evolves.ctlCmd {go} (h : Evolves s₀ s) (hgo : ∀ {s}, Evolves s₀ s → Evolves s₀ (go s)) :
    Evolves s₀ (s.ctlCmd go) :=
  .ite h.ctlFlag (hgo h)

theorem Evolves.execCheck (h : Evolves s₀ s) : Leads s₀ (execCheck s) :=
  h.bar0Do (fun h => h.ctlCmd .checkShadow) (fun h => h)

theorem Evolves.writeShadow {off w} (h : Evolves s₀ s) : Evolves s₀ (s.writeShadow off w) :=
  h.ctlCmd fun h => h.wr.wrFld

theorem Evolves.execShadowWrite {i w} (h : Evolves s₀ s) : Leads s₀ (execShadowWrite i w s) :=
  h.bar0Do (fun h => h.writeShadow) (fun h => h)

/-- Registers go back to their reset values. -/
theorem Evolves.dropRegs {p} (h : Evolves s₀ s) : Evolves s₀ { s with regs := s.regs.filter p } :=
  { h with regs := fun w => filter_wf p (h.regs w) }

theorem Evolves.copyActive (h : Evolves s₀ s) : Evolves s₀ s.copyActive := (h.dropRegs.each .wr).wrFld

theorem Evolves.execCopyActive (h : Evolves s₀ s) : Leads s₀ (execCopyActive s) :=
  h.bar0Do (fun h => h.ctlCmd .copyActive) (fun h => h)

theorem Evolves.ungate {q} (h : Evolves s₀ s) : Evolves s₀ (s.ungate q) := h.wrFld.wrFld

theorem Evolves.resize {old} (h : Evolves s₀ s) : Evolves s₀ (s.resize old) :=
  .each (.each (h.each .ungate) .setBits) .preemptNow

theorem Evolves.assignEndpoints (h : Evolves s₀ s) : Evolves s₀ s.assignEndpoints := by
  unfold State.assignEndpoints
  refine .each h (fun h => ?_)
  refine .ite h ?_
  split
  exacts [h.wr, h]

theorem Evolves.swapDone {us} (h : Evolves s₀ s) : Evolves s₀ (s.swapDone us) :=
  h.frame.wr.bump.wrMax.wrFld.resize.assignEndpoints

theorem Evolves.beforeFabric (h : Evolves s₀ s) : Evolves s₀ s.beforeFabric := .ite h (h.frame.each .wr)

theorem Evolves.startSwap (h : Evolves s₀ s) : Evolves s₀ s.startSwap :=
  .ite (.ctlFlag (.ite h h.checkShadow)) (.wrFld (.frame (.beforeFabric (.ite h h.checkShadow))))

theorem Evolves.execTamp (h : Evolves s₀ s) : Leads s₀ (execTamp s) :=
  h.bar0Do (fun h => h.ctlCmd .startSwap) (fun h => h)

theorem Evolves.execSwitchReport {d us} (h : Evolves s₀ s) : Leads s₀ (execSwitchReport d us s) := by
  unfold Machine.execSwitchReport
  split
  exacts [.impossible, .ite .impossible (.next (.ite h.frame.swapDone h.frame))]

theorem Evolves.execTampLimitExpiry (h : Evolves s₀ s) : Leads s₀ (execTampLimitExpiry s) := by
  unfold Machine.execTampLimitExpiry
  split
  exacts [.impossible, .next h.ctlFlag.wr]

theorem Evolves.notify {e fresh} (h : Evolves s₀ s) : Evolves s₀ (s.notify e fresh) :=
  .ite (.ite h.message h) (.ite (h.each .emit) (.ite h.emit h))

theorem Evolves.ring {e m} (h : Evolves s₀ s) : Evolves s₀ (s.ring e m) := .ite h h.setBits.bump.notify

theorem Evolves.writeMask {e m} (h : Evolves s₀ s) : Evolves s₀ (s.writeMask e m) := h.wr.notify

theorem Evolves.post {e lo hi src} (h : Evolves s₀ s) : Evolves s₀ (s.post e lo hi src) :=
  .ite h.setFlag.bump h.wr.wr.wr.setFlag.bump

theorem Evolves.mbxRefused {e off} (h : Evolves s₀ s) : Evolves s₀ (s.mbxRefused e off) := h.emit

theorem Evolves.execMbxOutHi {core e w} (h : Evolves s₀ s) : Leads s₀ (execMbxOutHi core e w s) :=
  .next (.ite h.mbxRefused (.ite h.post h))

theorem Evolves.sendWord {f w} (h : Evolves s₀ s) : Evolves s₀ (s.sendWord f w) := h.post.ring

theorem Evolves.execMbxSendHi {f via0 w} (h : Evolves s₀ s) : Leads s₀ (execMbxSendHi f via0 w s) :=
  h.pageDo (fun h => h.sendWord) (fun h => h)

theorem Evolves.execMbxDbSet {core e w} (h : Evolves s₀ s) : Leads s₀ (execMbxDbSet core e w s) := by
  unfold Machine.execMbxDbSet
  split
  exacts [h.bar0Do (fun h => .ite h.ring h.logAccess) (fun h => h), .next (.ite h.mbxRefused (.ite h.ring h))]

theorem Evolves.execMbxDbMaskWrite {by_ e w} (h : Evolves s₀ s) : Leads s₀ (execMbxDbMaskWrite by_ e w s) := by
  unfold Machine.execMbxDbMaskWrite
  split
  · exact .next (.ite h.writeMask h.mbxRefused)
  · exact h.bar0Do (fun h => .ite h.writeMask h.logAccess) (fun h => h)
  · refine .pageDo h (fun h => ?_) (fun h => h)
    split
    exacts [h.writeMask, h.logAccess]

theorem Evolves.execEndpointWithdraw {e} (h : Evolves s₀ s) : Leads s₀ (execEndpointWithdraw e s) :=
  .ite .impossible (.next (.assignEndpoints (.wr (.wr (.ite h.wrFld.clrBits.bump h.wrFld)))))

/-! ### LnkOps -/

theorem Evolves.lnkFlag {p i} (h : Evolves s₀ s) : Evolves s₀ (s.lnkFlag p i) := .ite h.setFlag.bump h.setFlag

theorem Evolves.setPortState {p st} (h : Evolves s₀ s) : Evolves s₀ (s.setPortState p st) := h.wrFld

theorem Evolves.portStart {p} (h : Evolves s₀ s) : Evolves s₀ (s.portStart p) :=
  .setPortState (.wrFld (.setLink (h.each fun h => h.wrFld.wrFld)))

theorem Evolves.losePacket {p x} (h : Evolves s₀ s) : Evolves s₀ (s.losePacket p x) := by
  unfold State.losePacket
  refine .ite h.downDrop ?_
  refine .ite ?_ h.downDrop.respond
  split
  exacts [h.downDrop.homeAnswer.settleFences, h.downDrop]

theorem Evolves.portDown {p} (h : Evolves s₀ s) : Evolves s₀ (s.portDown p) :=
  .ite (.ite (.partnerLost (.event (h.bump.portStart.each .losePacket))) (.event (h.bump.portStart.each
    .losePacket))) h.portStart

theorem Evolves.portFail {p flag} (h : Evolves s₀ s) : Evolves s₀ (s.portFail p flag) := h.lnkFlag.portDown

theorem Evolves.mapLane {l f} (h : Evolves s₀ s) : Evolves s₀ (s.mapLane l f) := h.setLink

theorem Evolves.takeTaps {l} (h : Evolves s₀ s) : Evolves s₀ (s.takeTaps l) := h.mapLane

theorem Evolves.sendLevels {l levels stuffing} (h : Evolves s₀ s) : Evolves s₀ (s.sendLevels l levels stuffing) :=
  .ite h.emit h.mapLane.bump.emit

theorem Evolves.sendAside {l levels} (h : Evolves s₀ s) : Evolves s₀ (s.sendAside l levels) := h.sendLevels.mapLane

theorem Evolves.sendMarkers {p} (h : Evolves s₀ s) : Evolves s₀ (s.sendMarkers p) := h.each .sendLevels

theorem Evolves.endBlock {p} (h : Evolves s₀ s) : Evolves s₀ (s.endBlock p) :=
  .ite (.bump (.setLink (h.each fun h => h.mapLane.sendLevels.mapLane.takeTaps))) (.setLink (h.each fun h =>
    h.mapLane.sendLevels.mapLane.takeTaps))

theorem Evolves.corrupt {cw} (h : Evolves s₀ s) : Evolves s₀ (s.corrupt cw).2 := h.frameDraw

theorem Evolves.sendCodeword {p bits} (h : Evolves s₀ s) : Evolves s₀ (s.sendCodeword p bits) :=
  .ite (.endBlock (.each (.ite_snd h.setLink.corrupt h.setLink) fun h => h.mapLane.sendLevels)) (.each (.ite_snd
    h.setLink.corrupt h.setLink) fun h => h.mapLane.sendLevels)

theorem Evolves.awaitToken {p shaped} (h : Evolves s₀ s) : Evolves s₀ (s.awaitToken p shaped) := by
  unfold State.awaitToken
  dsimp only
  split
  exacts [.ite h h.bump.setLink, h]

theorem Evolves.nextCodeword {p shaped} (h : Evolves s₀ s) : Evolves s₀ (s.nextCodeword p shaped) := by
  unfold State.nextCodeword
  dsimp only
  split
  · split
    exacts [.setLink (.awaitToken (.ite h.sendMarkers h)), .sendCodeword (.setLink (.awaitToken (.ite h.sendMarkers
      h)))]
  · exact .ite (.sendCodeword (.each (.setLink (.awaitToken (.ite h.sendMarkers h))) fun h => h.bump64.bump64))
      (.sendCodeword (.setLink (.awaitToken (.ite h.sendMarkers h))))

theorem Evolves.retry {p seqs} (h : Evolves s₀ s) : Evolves s₀ (s.retry p seqs) :=
  .ite h.bump.lnkFlag.frameDraw.wrMax.portFail h.bump.lnkFlag.frameDraw.wrMax.setLink

theorem Evolves.takeLink {p m} (h : Evolves s₀ s) : Evolves s₀ (s.takeLink p m) := .ite h.setLink.retry h.setLink

/-! ### PowerOps -/

theorem Evolves.setBoard {b} (h : Evolves s₀ s) : Evolves s₀ (s.setBoard b) := h.frame

/-- A reset keeps fuses, storage, outputs and the queue; of the registers it keeps some, and memory it empties (R7). -/
theorem Evolves.restart {p} (h : Evolves s₀ s) :
    Evolves s₀ { State.reset with
      regs := s.regs.filter p, nv := s.nv, board := s.board, pending := s.pending, out := s.out, free := s.free } :=
  { h with mem := fun _ => rfl, regs := fun w => filter_wf p (h.regs w) }

theorem Evolves.cold (h : Evolves s₀ s) : Evolves s₀ s.cold :=
  .ite (h.restart.each .wrFld).wrFld.wrFld (h.restart.each .wrFld)

theorem Evolves.stop (h : Evolves s₀ s) : Evolves s₀ s.stop := .ite h h.cold

theorem Evolves.logShutdown {c} (h : Evolves s₀ s) : Evolves s₀ (s.logShutdown c) := { h with }

theorem Evolves.shutdown {cause src} (h : Evolves s₀ s) : Evolves s₀ (s.shutdown cause src) :=
  h.stop.stored.logShutdown.setBoard

/-- An entry is added to the field fuse bank (R369). -/
theorem Evolves.addField {u c} (h : Evolves s₀ s) :
    Evolves s₀ { s with nv := { s.nv with field := s.nv.field ++ [u], counts := c } } :=
  { h with field := h.field.trans (List.prefix_append ..) }

theorem Evolves.spoilField (h : Evolves s₀ s) : Evolves s₀ s.spoilField := h.addField

theorem Evolves.burnOwner {hash good} (h : Evolves s₀ s) : Evolves s₀ (s.burnOwner hash good) :=
  have h : Evolves s₀ (if good then s else { s with free := s.free + 1 }) := .ite h h.frameDraw
  h.setStore h.killed

theorem Evolves.setTransfer {r} (h : Evolves s₀ s) : Evolves s₀ (s.setStore { s.secStore with transfer := r }) :=
  h.setStore h.killed

theorem Evolves.cutShort {x} (h : Evolves s₀ s) : Evolves s₀ (s.cutShort x) := by
  unfold State.cutShort
  split
  exacts [h, h.spoilField, .ite h.burnOwner.setTransfer h.burnOwner]

theorem Evolves.pwrFlag {i} (h : Evolves s₀ s) : Evolves s₀ (s.pwrFlag i) := h.setFlag.bump

theorem Evolves.pwrEvent {kind src value} (h : Evolves s₀ s) : Evolves s₀ (s.pwrEvent kind src value) := h.event

theorem Evolves.setHeat {src h'} (h : Evolves s₀ s) : Evolves s₀ (s.setHeat src h') := h.frame

theorem Evolves.levels {d} (h : Evolves s₀ s) : Evolves s₀ (s.levels d) := h.wrFld.wrFld

theorem Evolves.setPowerLevel {d l} (h : Evolves s₀ s) : Evolves s₀ (s.setPowerLevel d l) := h.wrFld.levels

theorem Evolves.setThermalLevel {d l} (h : Evolves s₀ s) : Evolves s₀ (s.setThermalLevel d l) := h.wrFld.levels

theorem Evolves.showCap {d} (h : Evolves s₀ s) : Evolves s₀ (s.showCap d) := h.wr

theorem Evolves.showScale (h : Evolves s₀ s) : Evolves s₀ s.showScale := h.wrFld.wrFld

/-! ### Boot -/

theorem Evolves.readFuses (h : Evolves s₀ s) : Evolves s₀ s.readFuses := by
  unfold State.readFuses
  refine .each (.ite h.frame.setFlag h.frame) (fun h => ?_)
  dsimp only
  split
  exacts [h.frame, h.frame, h.setChanState, h]

theorem Evolves.bankGood {b} (h : Evolves s₀ s) : Evolves s₀ (s.bankGood b).2 := h.foldl_snd fun h => h.verifyImage

theorem Evolves.startClock (h : Evolves s₀ s) : Evolves s₀ s.startClock := .ite h.wrFld.wrFld h.wrFld.wrFld.setFlag

theorem Evolves.reportShutdown (h : Evolves s₀ s) : Evolves s₀ s.reportShutdown := .ite h h.wr.pwrFlag

/-- What storage gives back leaves the kill fuse. -/
theorem found_killed (x : SecStore) (e : Sealed) (v : Option (List Byte)) : (x.found e v).killed = x.killed := by
  cases e <;> rfl

theorem Evolves.unsealed {e} (h : Evolves s₀ s) : Evolves s₀ (s.unsealed e) := by
  have h : Evolves s₀ (s.setStore (s.secStore.found e.1 (openSealed e.2))) :=
    h.setStore fun k => (found_killed ..).trans (h.killed k)
  unfold State.unsealed
  refine .ite h ?_
  split
  exacts [h.secFlag, h.secFlag, h.secFlag, h.secFlag, h]

theorem Evolves.secError {flag} (h : Evolves s₀ s) : Evolves s₀ (s.secError flag) := h.secFlag.setSecState

theorem Evolves.putSigs {sigs} (h : Evolves s₀ s) : Evolves s₀ (s.putSigs sigs) := h.each .wr64

theorem Evolves.phaseEnds {n us} (h : Evolves s₀ s) : Evolves s₀ (s.phaseEnds n us) := h.wrFld.wr

/-- The firmware bank in use is tried, and then the other (R385). -/
theorem Evolves.bankFound {b c : Nat} (h : Evolves s₀ s) :
    Evolves s₀ (if (s.bankGood b).1 then s.bankGood b else ((s.bankGood b).2.secFlag 8).bankGood c).2 :=
  .ite_snd h.bankGood h.bankGood.secFlag.bankGood

theorem Evolves.phase1 {f} (h : Evolves s₀ s) : Evolves s₀ (s.phase1 f) := by
  have h := h.startClock.readFuses.reportShutdown
  have hu : Evolves s₀ (s.startClock.readFuses.reportShutdown.each f.seals State.unsealed) := h.each .unsealed
  unfold State.phase1
  refine .ite (.frame (.setSecState (.ite h.secError h))) (.ite h.secError.frame
    (.ite hu.bankFound.secError.frame ?_))
  refine .phaseEnds (.setSecState ?_)
  split
  exacts [hu.bankFound.wrFld.extend.finishTransfer, hu.bankFound.wrFld.extend]

theorem Evolves.bootFail {u} (h : Evolves s₀ s) : Evolves s₀ (s.bootFail u) := .ite h h.unitFail

theorem Evolves.phaseUnits {n f} (h : Evolves s₀ s) : Evolves s₀ (s.phaseUnits n f) := h.putSigs.each .bootFail

theorem Evolves.phase2 {f} (h : Evolves s₀ s) : Evolves s₀ (s.phase2 f) := by
  unfold State.phase2
  extract_lets +onlyGivenNames _ r₁ r₂ r₃ r₄ r₅ r₆
  have h₂ : Evolves s₀ r₂ := h.frame.each fun h => .ite h.setChanState h
  have h₄ : Evolves s₀ r₄ := (h₂.each fun h => h.bootFail.frame).each fun h => h.bootFail.frame
  have h₆ : Evolves s₀ r₆ := (h₄.each .wrFld).each .wrFld
  exact .phaseEnds (.putSigs (.each (.ite h₆ h₆.frame.note) .loadDelays))

theorem Evolves.phase3 {f cut} (h : Evolves s₀ s) : Evolves s₀ (s.phase3 f cut) :=
  .phaseEnds (.ite (.wrFld (.ite h.phaseUnits.frame h.phaseUnits)) (.ite h.phaseUnits.frame h.phaseUnits))

theorem Evolves.phase4 {f} (h : Evolves s₀ s) : Evolves s₀ (s.phase4 f) :=
  .phaseEnds (h.phaseUnits.each fun h => h.wrFld.portStart)

theorem Evolves.initialSet (h : Evolves s₀ s) : Evolves s₀ s.initialSet := .each (h.wr.each .wr) .wr64

/-- Counters that are raised leave the kill fuse. -/
theorem foldl_raise_killed {α : Type} (f g : α → Nat) (xs : List α) (x : SecStore) :
    (xs.foldl (fun v y => v.raise (f y) (g y)) x).killed = x.killed := by
  induction xs generalizing x with
  | nil => rfl
  | cons y ys ih => exact ih _

theorem Evolves.raiseCounters {α : Type} {f g : α → Nat} {xs : List α} (h : Evolves s₀ s) :
    Evolves s₀ (s.setStore (xs.foldl (fun v y => v.raise (f y) (g y)) s.secStore)) :=
  h.setStore fun k => (foldl_raise_killed ..).trans (h.killed k)

/-- The cause of a shutdown that storage held is forgotten (R423). -/
theorem Evolves.clearShut (h : Evolves s₀ s) : Evolves s₀ { s with nv := { s.nv with shut := 0 } } := { h with }

theorem Evolves.ready {f} (h : Evolves s₀ s) : Evolves s₀ (s.ready f) := by
  unfold State.ready
  extract_lets +onlyGivenNames x bank hdrs r₁ r₂ r₃ r₄ r₅ r₆ r₇ r₈ r₉ r₁₀
  have h₉ : Evolves s₀ r₉ :=
    h.extend.initialSet.wr.wrFld.wrFld.wr.writeCounts.showPlan.evalDegraded.checkOverflow.wrFld.each .note
  have h₁₀ : Evolves s₀ r₁₀ := h₉.each fun h => .ite h.emit h
  exact .tierCheck (.showScale (h₁₀.raiseCounters.clearShut.each .showCap))

theorem Evolves.phase5 {f} (h : Evolves s₀ s) : Evolves s₀ (s.phase5 f) :=
  .ready (.phaseEnds (.phaseUnits (.firmLoad (.each (h.extend.extend.each .bump) .bootFail))))

theorem Evolves.execBringupPhaseEnd {f} (h : Evolves s₀ s) : Leads s₀ (execBringupPhaseEnd f s) := by
  unfold Machine.execBringupPhaseEnd
  refine .ite .impossible ?_
  refine .next ?_
  split
  exacts [h.phase1, h.phase2, h.phase3, h.phase4, h.phase5]

theorem Evolves.execPhaseDeadline {n f} (h : Evolves s₀ s) : Leads s₀ (execPhaseDeadline n f s) :=
  .ite .impossible (.ite (.next h.phase3) (.next h.wrFld))

theorem Evolves.execRecoveryPoint (h : Evolves s₀ s) : Leads s₀ (execRecoveryPoint s) :=
  .ite .impossible (.next h.wrFld.wrFld)

theorem Evolves.startTraining (h : Evolves s₀ s) : Evolves s₀ s.startTraining := .ite h (h.frame.each .setChanState)

theorem Evolves.execTrainingStartPoint (h : Evolves s₀ s) : Leads s₀ (execTrainingStartPoint s) :=
  .ite .impossible (.next h.startTraining)

theorem Evolves.execPcieLinkUp {l speed width} (h : Evolves s₀ s) : Leads s₀ (execPcieLinkUp l speed width s) :=
  .ite .impossible (.next h.wrFld.startTraining)

theorem Evolves.execFieldFuseWrite {u ok} (h : Evolves s₀ s) : Leads s₀ (execFieldFuseWrite u ok s) :=
  .ite .impossible (.ite (.next h.setFlag) (.ite (.next h.addField) (.next h.spoilField.setFlag)))

theorem Evolves.testCmd {op die target} (h : Evolves s₀ s) : Evolves s₀ (s.testCmd op die target) :=
  .ite (h.wrFld.frame.wrFld.each fun h => h.each .absorbAll) h.wrFld.wrFld.setFlag

theorem Evolves.testStart {host op die target} (h : Evolves s₀ s) : Leads s₀ (s.testStart host op die target) :=
  .ite (h.bar0Do (fun h => h.testCmd) (fun h => h)) (.next h.testCmd)

theorem Evolves.execLogicBist {host die target} (h : Evolves s₀ s) : Leads s₀ (execLogicBist host die target s) :=
  h.testStart

theorem Evolves.execMemoryBist {host die target} (h : Evolves s₀ s) : Leads s₀ (execMemoryBist host die target s) :=
  h.testStart

theorem Evolves.execBothBist {host die target} (h : Evolves s₀ s) : Leads s₀ (execBothBist host die target s) :=
  h.testStart

theorem Evolves.unitGood {u} (h : Evolves s₀ s) : Evolves s₀ (s.unitGood u) := h.frame

theorem Evolves.testZero {t} (h : Evolves s₀ s) : Evolves s₀ (s.testZero t) :=
  .frame (s := { s with mem := s.mem.filter _ }) h.dropMem

theorem Evolves.execBistDone {f} (h : Evolves s₀ s) : Leads s₀ (execBistDone f s) := by
  unfold Machine.execBistDone
  split
  next => exact .impossible
  next t _ =>
    refine .ite .impossible ?_
    extract_lets +onlyGivenNames was us bays r₁ r₂ r₃ _ _ r₄ r₅ r₆ r₇ r₈ r₉
    have h₃ : Evolves s₀ r₃ := (Evolves.ite h.testZero h).frame.each fun h => .ite h.unitFail h.unitGood
    have h₄ : Evolves s₀ r₄ := .ite (h₃.frame.each .unitFail) h₃
    have h₈ : Evolves s₀ r₈ := h₄.putSigs.wrFld.bump.wr.wr
    have h₉ : Evolves s₀ r₉ := .ite h₈ h₈.setFlag
    exact .next (.ite h₉.showPlan.evalDegraded h₉.showPlan.planChanged.evalDegraded)

/-! ### Eov -/

theorem Evolves.homeTake {r set noc} (h : Evolves s₀ s) : ∀ u ∈ s.homeTake r set noc, Evolves s₀ u :=
  evolves_ite (evolves_some h.edgeAnswer) (evolves_ite (evolves_some h.edgeAnswer)
    (evolves_ite evolves_none (evolves_some h.addHome)))

theorem Evolves.execHomeEdgeRequest {r} (h : Evolves s₀ s) : Leads s₀ (execHomeEdgeRequest r s) := by
  refine .next ?_
  cases e : s.homeTake r (s.domainSet (placeDomain r.src r.srcEp)) none with
  | none => exact h
  | some u => exact h.homeTake u e

theorem Evolves.execFence {src ep tag cls id scope} (h : Evolves s₀ s) :
    Leads s₀ (execFence src ep tag cls id scope s) :=
  .next h.addHome

theorem Evolves.takeArrived {p resp} (h : Evolves s₀ s) : ∀ r ∈ s.takeArrived p resp, Evolves s₀ r.2 := by
  unfold State.takeArrived
  dsimp only
  split
  exacts [evolves_ite evolves_none (evolves_some h.setLink), evolves_none,
    evolves_ite evolves_none (evolves_some h.setLink)]

theorem Evolves.crossTime {set p} (h : Evolves s₀ s) : Evolves s₀ (s.crossTime set p) := .ite h h.frameDraw.wrMax

theorem Evolves.execFabricPacketReceive {p} (h : Evolves s₀ s) : Leads s₀ (execFabricPacketReceive p s) := by
  unfold Machine.execFabricPacketReceive
  split
  · exact .impossible
  · next _ hu =>
      refine .ite (.next (h.takeArrived _ hu).respond) ?_
      refine .ite (.next (.ite (h.takeArrived _ hu).sendPacket.crossTime (h.takeArrived _ hu).sendPacket.respond)) ?_
      refine .ite (.next (h.takeArrived _ hu).respond) ?_
      refine .ite (.next (h.takeArrived _ hu).respond) ?_
      dsimp only
      split
      exacts [.next (h.takeArrived _ hu).lookup.respond, .next (h.takeArrived _ hu).lookup.launch]

theorem Evolves.execFabricResponseReceive {p} (h : Evolves s₀ s) : Leads s₀ (execFabricResponseReceive p s) := by
  unfold Machine.execFabricResponseReceive
  split
  · exact .impossible
  · next _ hu =>
      refine .ite (.next (h.takeArrived _ hu)) ?_
      refine .ite (.next (.ite (h.takeArrived _ hu).sendPacket.crossTime (h.takeArrived _ hu).sendPacket)) ?_
      split
      exacts [.ite (.next (h.takeArrived _ hu)) (.next (h.takeArrived _ hu).homeResponse.settleFences), .next
        (h.takeArrived _ hu).tally]

theorem Evolves.execFabricRespTimeout {n} (h : Evolves s₀ s) : Leads s₀ (execFabricRespTimeout n s) := by
  unfold Machine.execFabricRespTimeout
  split
  exacts [.next h.bump.eovFlag.homeAnswer.settleFences, .impossible]

/-- The kernel cannot compare two forms of `commit` while what `commitCause` answers stands in them, so it is taken out
before anything else is done to the body. -/
theorem Evolves.commit {e i w} (h : Evolves s₀ s) : Evolves s₀ (s.commit e i w) := by
  have eq : @State.commit = @State.commit := rfl
  conv at eq => rhs; delta State.commit
  rw [eq]
  beta_reduce
  extract_lets +onlyGivenNames k old new u
  have hu : Evolves s₀ u := h.frame
  generalize u.commitCause e i new = c
  cases c with
  | some c => exact .ite hu.setFlag.bump.wr hu.setFlag.bump
  | none =>
    refine .ite hu.setWin.frame.trackerCheck (.ite ?_ hu.setWin)
    split
    exacts [hu.setWin.frame, hu.setWin]

theorem Evolves.execWindowEntryCommit {e i host w} (h : Evolves s₀ s) :
    Leads s₀ (execWindowEntryCommit e i host w s) :=
  .ite (.next h.commit) (.ite .impossible (h.edgeDo .commit))

theorem Evolves.execDrainLimitExpiry {e t} (h : Evolves s₀ s) : Leads s₀ (execDrainLimitExpiry e t s) := by
  unfold Machine.execDrainLimitExpiry
  split
  exacts [.impossible, .next (.trackerEnd (h.frame.bump.eovFlag.each .answerOrigin))]

theorem Evolves.limitRefused {e} (h : Evolves s₀ s) : Evolves s₀ (s.limitRefused e) := h.eovFlag

theorem Evolves.writeDrainLimit {e w} (h : Evolves s₀ s) : Evolves s₀ (s.writeDrainLimit e w) :=
  .ite h.limitRefused h.wr

theorem Evolves.writeRespLimit {e w} (h : Evolves s₀ s) : Evolves s₀ (s.writeRespLimit e w) :=
  .ite h.limitRefused h.wr

theorem Evolves.execDrainLimitWrite {e w} (h : Evolves s₀ s) : Leads s₀ (execDrainLimitWrite e w s) :=
  h.edgeDo .writeDrainLimit

theorem Evolves.execRespLimitWrite {e w} (h : Evolves s₀ s) : Leads s₀ (execRespLimitWrite e w s) :=
  h.edgeDo .writeRespLimit

/-! ### Lnk -/

theorem Evolves.sendTraining {p i} (h : Evolves s₀ s) : Evolves s₀ (s.sendTraining p i) :=
  h.takeTaps.mapLane.sendAside

theorem Evolves.sendPattern {l} (h : Evolves s₀ s) : Evolves s₀ (s.sendPattern l) :=
  .ite h h.takeTaps.mapLane.sendLevels

theorem Evolves.execCodewordTransmit {p shaped} (h : Evolves s₀ s) : Leads s₀ (execCodewordTransmit p shaped s) :=
  .ite .impossible (.ite (.ite .impossible (.next h.nextCodeword)) (.ite (.next h.nextCodeword) (.ite (.next (h.each
    .sendTraining)) (.ite (.next (h.each .sendPattern)) .impossible))))

theorem Evolves.countLine {p c} (h : Evolves s₀ s) : Evolves s₀ (s.countLine p c) :=
  .ite (.bump64 (.each (h.bump64.each .bump) fun h => .ite h h.bump.lnkFlag)) (.each (h.bump64.each .bump) fun h =>
    .ite h h.bump.lnkFlag)

theorem Evolves.badCodeword {p ue} (h : Evolves s₀ s) : Evolves s₀ (s.badCodeword p ue) :=
  .setLink (.ite h.bump.lnkFlag h.bump)

theorem Evolves.goodCodeword {p m} (h : Evolves s₀ s) : Evolves s₀ (s.goodCodeword p m) :=
  .ite h.takeLink (.ite h.setLink (.takeLink (h.setLink.each .bump64)))

theorem Evolves.takeLines {p lines} (h : Evolves s₀ s) : ∀ r ∈ s.takeLines p lines, Evolves s₀ r.2.2 := by
  unfold State.takeLines
  refine evolves_ite (evolves_some (h.each fun h => ?_)) evolves_none
  split
  exacts [h.mapLane, h]

theorem Evolves.receiveLines {p lines} (h : Evolves s₀ s) : ∀ r ∈ s.receiveLines p lines, Evolves s₀ r.2 := by
  unfold State.receiveLines
  split
  · exact evolves_none
  · next hu => exact evolves_some (h.takeLines _ hu)

theorem Evolves.leaveIdle {p} (h : Evolves s₀ s) : Evolves s₀ (s.leaveIdle p) := .ite h.setLink.setPortState h

theorem Evolves.execCodewordReceive {p lines} (h : Evolves s₀ s) : Leads s₀ (execCodewordReceive p lines s) := by
  unfold Machine.execCodewordReceive
  refine .ite .impossible ?_
  split
  · exact .impossible
  · next _ hu =>
      exact .next (.ite (h.receiveLines _ hu).leaveIdle.countLine.setLink (.ite (h.receiveLines _
        hu).leaveIdle.countLine.setLink.goodCodeword (h.receiveLines _ hu).leaveIdle.countLine.setLink.badCodeword))

theorem Evolves.markerFound {l m block stuffs} (h : Evolves s₀ s) : Evolves s₀ (s.markerFound l m block stuffs) := by
  unfold State.markerFound
  dsimp only
  split
  exacts [h.mapLane.wrFld, .ite h.mapLane.setLink.setPortState h, .ite h.mapLane.wrFld.portFail h.mapLane.wrFld]

theorem Evolves.lineRead {l level run viol} (h : Evolves s₀ s) : Evolves s₀ (s.lineRead l level run viol) :=
  .ite h.mapLane h.mapLane.bump.lnkFlag

theorem Evolves.execMarkerCheck {l line} (h : Evolves s₀ s) : Leads s₀ (execMarkerCheck l line s) := by
  unfold Machine.execMarkerCheck
  refine .ite (.next (.ite h.lineRead.markerFound h.lineRead)) ?_
  refine .ite .impossible ?_
  split
  exacts [.impossible, .next (.markerFound (.ite h.lineRead.mapLane.leaveIdle h.lineRead))]

theorem Evolves.execRetryTimerExpiry {p} (h : Evolves s₀ s) : Leads s₀ (execRetryTimerExpiry p s) :=
  .ite .impossible (.next h.retry)

theorem Evolves.execLaneLockLoss {l} (h : Evolves s₀ s) : Leads s₀ (execLaneLockLoss l s) :=
  .ite .impossible (.next (.ite h h.portDown))

theorem Evolves.execCablePresenceChange {p present} (h : Evolves s₀ s) :
    Leads s₀ (execCablePresenceChange p present s) :=
  .next (.ite (.ite h.wrFld.portStart h.wrFld) h.wrFld.portDown)

theorem Evolves.execPpmMeasure {p offset} (h : Evolves s₀ s) : Leads s₀ (execPpmMeasure p offset s) :=
  .ite .impossible (.next (.ite h.wr.portFail h.wr))

theorem Evolves.execLaneAcquireLock {l ctle} (h : Evolves s₀ s) : Leads s₀ (execLaneAcquireLock l ctle s) :=
  .ite .impossible (.next (.ite h.wrFld.wrFld.setPortState h.wrFld.wrFld))

theorem Evolves.trainFail {p} (h : Evolves s₀ s) : Evolves s₀ (s.trainFail p) := h.bump.lnkFlag.portStart

theorem Evolves.enterDeskew {p} (h : Evolves s₀ s) : Evolves s₀ (s.enterDeskew p) := .setPortState (h.each .mapLane)

theorem Evolves.execCapabilityRecordReceive {l r} (h : Evolves s₀ s) : Leads s₀ (execCapabilityRecordReceive l r s) :=
  .ite .impossible (.ite (.next h.mapLane) (.ite (.next h.lnkFlag) (.next (.ite h.mapLane.wrFld.wr (.ite
    h.mapLane.wrFld.wr.enterDeskew h.mapLane.wrFld.wr.trainFail)))))

theorem Evolves.execDeskewDone {p skews} (h : Evolves s₀ s) : Leads s₀ (execDeskewDone p skews s) :=
  .ite .impossible (.next (.setPortState (.frameDraw (.wr (.setLink (h.each .wrFld))))))

theorem Evolves.execBringupTimeout {p} (h : Evolves s₀ s) : Leads s₀ (execBringupTimeout p s) :=
  .ite .impossible (.next h.trainFail)

theorem Evolves.writeEnable {p on} (h : Evolves s₀ s) : Evolves s₀ (s.writeEnable p on) :=
  .ite h (.ite (.ite h.wrFld h.wrFld.portStart) h.wrFld.portDown)

theorem Evolves.execEnable {p on} (h : Evolves s₀ s) : Leads s₀ (execEnable p on s) := h.edgeDo .writeEnable

theorem Evolves.execRetrain {p} (h : Evolves s₀ s) : Leads s₀ (execRetrain p s) := h.edgeDo .portDown

theorem Evolves.writeTest {p on} (h : Evolves s₀ s) : Evolves s₀ (s.writeTest p on) :=
  .ite h (.ite (.portDown (h.wrFld.each .wrFld)) (.portStart (h.wrFld.each .wrFld)))

theorem Evolves.execTestMode {p on} (h : Evolves s₀ s) : Leads s₀ (execTestMode p on s) := h.edgeDo .writeTest

theorem Evolves.execCheckerLock {l first rest} (h : Evolves s₀ s) : Leads s₀ (execCheckerLock l first rest s) :=
  .ite .impossible (.next h.mapLane.wrFld.bump64.bump64)

theorem Evolves.writeInject {l kind len} (h : Evolves s₀ s) : Evolves s₀ (s.writeInject l kind len) :=
  .ite h h.mapLane

theorem Evolves.execInject {l kind len} (h : Evolves s₀ s) : Leads s₀ (execInject l kind len s) :=
  h.edgeDo .writeInject

theorem Evolves.execIdleTimerExpiry {p} (h : Evolves s₀ s) : Leads s₀ (execIdleTimerExpiry p s) :=
  .ite .impossible (.next (.setPortState (.setLink (h.each .sendAside))))

theorem Evolves.execIdleExit {p} (h : Evolves s₀ s) : Leads s₀ (execIdleExit p s) :=
  .ite .impossible (.next (.setPortState (.setLink (h.each fun h => h.mapLane.sendAside))))

/-! ### Mem -/

theorem Evolves.execCremaPatrolRead {b o e} (h : Evolves s₀ s) : Leads s₀ (execCremaPatrolRead b o e s) :=
  .ite .impossible (.next (.ite h.frame.meetErrors h.frame.meetErrors.memFlag))

theorem Evolves.execScrubNow {d} (h : Evolves s₀ s) : Leads s₀ (execScrubNow d s) := .next (h.each .frame)

theorem Evolves.execTrainStart {c} (h : Evolves s₀ s) : Leads s₀ (execTrainStart c s) := .next (.ite h.setChanState h)

theorem Evolves.execInitStart {c} (h : Evolves s₀ s) : Leads s₀ (execInitStart c s) :=
  .ite (.next (.unitPass (.setChanState (.frame (.ite h.stored h))))) (.next h)

theorem Evolves.execMarkBad {c} (h : Evolves s₀ s) : Leads s₀ (execMarkBad c s) :=
  .ite (.next (.tierCheck (.planChanged (.unitFail (.setChanState (.ite h.setFlag.setFlag h)))))) (.next h)

theorem Evolves.execChannelInitDone {c} (h : Evolves s₀ s) : Leads s₀ (execChannelInitDone c s) :=
  .ite (.next h.setChanState.tierCheck) .impossible

theorem Evolves.execTrainPatternStart {c w} (h : Evolves s₀ s) : Leads s₀ (execTrainPatternStart c w s) :=
  .ite (.next h.wr.touchRow.wr.wr) (.ite (.next h.wr.wrFld) (.next h.wr))

theorem Evolves.execTrainPatternDone {c flips beats} (h : Evolves s₀ s) :
    Leads s₀ (execTrainPatternDone c flips beats s) :=
  .ite (.next (.ite (.chanFlag (.wrFld (.ite (.wr (.frameDraw (.wr (.ite h.frame h)))) (.wr (.ite h.frame h)))))
    (.wrFld (.ite (.wr (.frameDraw (.wr (.ite h.frame h)))) (.wr (.ite h.frame h)))))) .impossible

theorem Evolves.execPowerDownExpiry {c rank} (h : Evolves s₀ s) : Leads s₀ (execPowerDownExpiry c rank s) :=
  .ite .impossible (.next h.wrFld)

theorem Evolves.execRefreshDue {c b} (h : Evolves s₀ s) : Leads s₀ (execRefreshDue c b s) :=
  .ite .impossible (.next h.frame.wakeRank)

theorem Evolves.execLpddrPatrolRead {c k e} (h : Evolves s₀ s) : Leads s₀ (execLpddrPatrolRead c k e s) :=
  .ite .impossible (.ite (.next (.ite h.touchRow.useCheck.meetErrors h.touchRow.useCheck.meetErrors.memFlag)) (.ite
    (.next h.touchRow.useCheck.frameDraw.chanUE.frame.chanFlag) (.next (.ite h.touchRow.useCheck
    h.touchRow.useCheck.chanCE))))

/-! ### Module -/

theorem Evolves.execPerstAssert {cut} (h : Evolves s₀ s) : Leads s₀ (execPerstAssert cut s) :=
  .ite .impossible (.next (.setBoard (.ite h h.cutShort.cold)))

theorem Evolves.execPerstRelease (h : Evolves s₀ s) : Leads s₀ (execPerstRelease s) :=
  .ite .impossible (.next h.cold.setBoard)

theorem Evolves.execPwrgdRise (h : Evolves s₀ s) : Leads s₀ (execPwrgdRise s) := .ite .impossible (.next h.setBoard)

theorem Evolves.execPwrgdFall {cut} (h : Evolves s₀ s) : Leads s₀ (execPwrgdFall cut s) :=
  .ite .impossible (.next h.cutShort.stop.setBoard)

theorem Evolves.execPwrdisChange {high ms cut} (h : Evolves s₀ s) : Leads s₀ (execPwrdisChange high ms cut s) :=
  .ite .impossible (.ite (.next h.cutShort.stop.setBoard) (.next h.setBoard))

theorem Evolves.execUndervoltageLockout {cut} (h : Evolves s₀ s) : Leads s₀ (execUndervoltageLockout cut s) :=
  .ite .impossible (.ite (.next h.cutShort.shutdown) (.next h.setBoard.logShutdown))

theorem Evolves.execOvervoltageShutdown {cut} (h : Evolves s₀ s) : Leads s₀ (execOvervoltageShutdown cut s) :=
  .ite .impossible (.ite (.next h.cutShort.shutdown) (.next h.logShutdown))

theorem Evolves.execPcieRefclkLoss (h : Evolves s₀ s) : Leads s₀ (execPcieRefclkLoss s) :=
  .next (h.each fun h => .ite h.linkDown h)

theorem Evolves.execRefLoss (h : Evolves s₀ s) : Leads s₀ (execRefLoss s) :=
  .ite .impossible (.next (.each (h.setBoard.each .wrFld) fun h => .ite h.portFail h))

theorem Evolves.execRefReturn (h : Evolves s₀ s) : Leads s₀ (execRefReturn s) :=
  .ite .impossible (.ite (.next h.setBoard) (.next (.ite (h.setBoard.each .wrFld) (.each (h.setBoard.each .wrFld)
    .portStart))))

theorem Evolves.execCapacitorLow (h : Evolves s₀ s) : Leads s₀ (execCapacitorLow s) := .next h.now.wr64.wrFld

/-! ### Pwr -/

theorem Evolves.execModuleCapStep {p} (h : Evolves s₀ s) : Leads s₀ (execModuleCapStep p s) :=
  .ite .impossible (.next (.showScale (h.frame.each .showCap)))

theorem Evolves.execDieCapEval {d p} (h : Evolves s₀ s) : Leads s₀ (execDieCapEval d p s) :=
  .ite .impossible (.next (.ite (.pwrEvent (.pwrFlag (.setHeat (.ite h.showCap.setPowerLevel (.ite
    h.showCap.setPowerLevel h.showCap))))) (.setHeat (.ite h.showCap.setPowerLevel (.ite h.showCap.setPowerLevel
    h.showCap)))))

theorem Evolves.execDroopDetect {d} (h : Evolves s₀ s) : Leads s₀ (execDroopDetect d s) :=
  .ite .impossible (.next h.setHeat.bump.pwrFlag)

theorem Evolves.execStretchEnd {d} (h : Evolves s₀ s) : Leads s₀ (execStretchEnd d s) :=
  .ite (.next h.setHeat) .impossible

theorem Evolves.judgeHeat {src hot} (h : Evolves s₀ s) : Evolves s₀ (s.judgeHeat src hot) :=
  .wrFld (.ite (.ite (.setThermalLevel (.ite (.pwrEvent (.pwrFlag (.ite h.setHeat.pwrFlag.pwrEvent h.setHeat))) (.ite
    h.setHeat.pwrFlag.pwrEvent h.setHeat))) (.ite (.setThermalLevel (.ite (.pwrEvent (.pwrFlag (.ite
    h.setHeat.pwrFlag.pwrEvent h.setHeat))) (.ite h.setHeat.pwrFlag.pwrEvent h.setHeat))) (.ite (.pwrEvent (.pwrFlag
    (.ite h.setHeat.pwrFlag.pwrEvent h.setHeat))) (.ite h.setHeat.pwrFlag.pwrEvent h.setHeat)))) (.ite (.pwrEvent
    (.pwrFlag (.ite h.setHeat.pwrFlag.pwrEvent h.setHeat))) (.ite h.setHeat.pwrFlag.pwrEvent h.setHeat)))

theorem Evolves.execSensorRead {src ts} (h : Evolves s₀ s) : Leads s₀ (execSensorRead src ts s) :=
  .ite .impossible (.next (.ite (.shutdown (.ite (.wrFld (.ite h.setHeat.pwrFlag h.setHeat)) (.ite h.setHeat.pwrFlag
    h.setHeat))) (.ite (.ite (.wrFld (.ite h.setHeat.pwrFlag h.setHeat)) (.ite h.setHeat.pwrFlag h.setHeat))
    (.judgeHeat (.ite (.wrFld (.ite h.setHeat.pwrFlag h.setHeat)) (.ite h.setHeat.pwrFlag h.setHeat))))))

theorem Evolves.execThermalStep {d} (h : Evolves s₀ s) : Leads s₀ (execThermalStep d s) :=
  .ite .impossible (.ite (.next h) (.ite (.next (.ite h.setThermalLevel.pwrFlag.pwrEvent h.setThermalLevel)) (.ite
    (.next (.ite h.setThermalLevel.pwrEvent h.setThermalLevel)) (.next h))))

theorem Evolves.writeTrip {w} (h : Evolves s₀ s) : Evolves s₀ (s.writeTrip w) := .ite h.pwrFlag h.wrFld

theorem Evolves.execTripWrite {host w} (h : Evolves s₀ s) : Leads s₀ (execTripWrite host w s) :=
  .ite (h.bar0Do (fun h => h.writeTrip) (fun h => h)) (.next h.writeTrip)

theorem Evolves.gate {q} (h : Evolves s₀ s) : Evolves s₀ (s.gate q) :=
  .ite h.pwrFlag (.ite h (.each (.frame (.setBits (.setBits (h.each .failJob)))) fun h => h.each .absorbAll))

theorem Evolves.execQuarterGate {q} (h : Evolves s₀ s) : Leads s₀ (execQuarterGate q s) := .next h.gate

theorem Evolves.execQuarterUngate {q} (h : Evolves s₀ s) : Leads s₀ (execQuarterUngate q s) := .next h.ungate

theorem Evolves.execTelemetryRecord {m} (h : Evolves s₀ s) : Leads s₀ (execTelemetryRecord m s) :=
  .ite .impossible (.next (.ite (.emit (.wr (.wrBytes (.wr (.wr (h.now.each fun h => h.wr.bump64)))))) (.wr (.wrBytes
    (.wr (.wr (h.now.each fun h => h.wr.bump64)))))))

/-! ### RegRead -/

theorem Evolves.readReg {b off} (h : Evolves s₀ s) : Evolves s₀ (s.readReg b off).2 := by
  unfold State.readReg
  cases b with
  | rtc => exact .ite_snd h.now.wr64 (.ite_snd h.frameDraw h.frameDraw)
  | wtp => exact h
  | _ => exact h.frameDraw

theorem Evolves.readHeld {b off} (h : Evolves s₀ s) : Evolves s₀ (s.readHeld b off).2 :=
  .ite_snd h.readReg.readReg.wr (.ite_snd h h.readReg)

theorem Evolves.readLanded {x bar2 a} (h : Evolves s₀ s) : Evolves s₀ (s.readLanded x bar2 a).2 := by
  unfold State.readLanded
  split
  exacts [h.logAccess, .ite_snd h.logAccess h.logAccess, h, .ite_snd h.readHeld h.logAccess]

theorem Evolves.readWords {land bar2 a n} (h : Evolves s₀ s) : Evolves s₀ (s.readWords land bar2 a n).2 := by
  induction n generalizing s a with
  | zero => exact h
  | succ n ih => exact ih h.readLanded

/-! ### Sec -/

theorem Evolves.authFail (h : Evolves s₀ s) : Evolves s₀ s.authFail := h.secFlag.bump.setSec

theorem Evolves.judge {op req c} (h : Evolves s₀ s) : Evolves s₀ (s.judge op req c).2.2 :=
  .ite_snd_snd h.secFlag (.ite_snd_snd h (.ite_snd_snd (.secFlag (.ite h.setSec.verifyTimed h.setSec)) (.ite_snd_snd
    (.authFail (.ite h.setSec.verifyTimed h.setSec)) (.ite_snd_snd (.secFlag (.setSec (.ite h.setSec.verifyTimed
    h.setSec))) (.setSec (.ite h.setSec.verifyTimed h.setSec))))))

theorem Evolves.turnedAway {op} (h : Evolves s₀ s) : Evolves s₀ (s.turnedAway op) := .wr (.secFlag (.ite h.setSec h))

theorem Evolves.takeService {op c} (h : Evolves s₀ s) : Evolves s₀ (s.takeService op c) :=
  .ite h.turnedAway (.ite h.judge.setSec.wrFld.setSec.setSecState h.judge.setSec.wrFld)

theorem Evolves.service {op c} (h : Evolves s₀ s) : Leads s₀ (s.service op c) :=
  h.bar0Do (fun h => h.takeService) (fun h => h)

theorem Evolves.execSelfTest (h : Evolves s₀ s) : Leads s₀ (execSelfTest s) := h.service

theorem Evolves.execChallenge (h : Evolves s₀ s) : Leads s₀ (execChallenge s) := h.service

theorem Evolves.execAttest {c} (h : Evolves s₀ s) : Leads s₀ (execAttest c s) := h.service

theorem Evolves.execExtend {c} (h : Evolves s₀ s) : Leads s₀ (execExtend c s) := h.service

theorem Evolves.execSetTime {c} (h : Evolves s₀ s) : Leads s₀ (execSetTime c s) := h.service

theorem Evolves.execInstallOck {c} (h : Evolves s₀ s) : Leads s₀ (execInstallOck c s) := h.service

theorem Evolves.execInstallUak {c} (h : Evolves s₀ s) : Leads s₀ (execInstallUak c s) := h.service

theorem Evolves.execInstallSignerKeys {c} (h : Evolves s₀ s) : Leads s₀ (execInstallSignerKeys c s) := h.service

theorem Evolves.execTransferOwnership {c} (h : Evolves s₀ s) : Leads s₀ (execTransferOwnership c s) := h.service

theorem Evolves.execRevokeVendorSlot {c} (h : Evolves s₀ s) : Leads s₀ (execRevokeVendorSlot c s) := h.service

theorem Evolves.execInstallFirmware {c} (h : Evolves s₀ s) : Leads s₀ (execInstallFirmware c s) := h.service

theorem Evolves.execAdvanceCounter {c} (h : Evolves s₀ s) : Leads s₀ (execAdvanceCounter c s) := h.service

theorem Evolves.execZeroise {c} (h : Evolves s₀ s) : Leads s₀ (execZeroise c s) := h.service

theorem Evolves.execScrap {c} (h : Evolves s₀ s) : Leads s₀ (execScrap c s) := h.service

theorem Evolves.refuseService (h : Evolves s₀ s) : Evolves s₀ s.refuseService.2.2 := h.secFlag

theorem Evolves.extendM7 {req} (h : Evolves s₀ s) : Evolves s₀ (s.extendM7 req) := h.extend

theorem Evolves.freshChallenge (h : Evolves s₀ s) : Evolves s₀ s.freshChallenge.2.2 := h.draw.setSec.wrBytes

theorem Evolves.attest {req} (h : Evolves s₀ s) : Evolves s₀ (s.attest req).2.2 :=
  .ite_snd_snd h.refuseService h.now.draw

theorem Evolves.setTime {new officer} (h : Evolves s₀ s) : Evolves s₀ (s.setTime new officer).2.2 :=
  .ite_snd_snd h.now.setFlag.refuseService h.now.wr64.wrFld.bump.wr64

theorem Evolves.zeroiseKeys (h : Evolves s₀ s) : Evolves s₀ s.zeroiseKeys :=
  .each (.setSec (h.setStore h.killed)) .failLoad

theorem Evolves.installKey {req ock} (h : Evolves s₀ s) : Evolves s₀ (s.installKey req ock).2.2 := by
  unfold State.installKey
  split
  exacts [h, .extendM7 (.ite (.setSecState (.setSec (.ite (h.setStore h.killed) (h.setStore h.killed)))) (.ite
    (h.setStore h.killed) (h.setStore h.killed)))]

theorem Evolves.installSigners {req} (h : Evolves s₀ s) : Evolves s₀ (s.installSigners req).2.2 :=
  .ite_snd_snd (.extendM7 (h.setStore h.killed)) h

theorem Evolves.transferOwner {req good} (h : Evolves s₀ s) : Evolves s₀ (s.transferOwner req good).2.2 :=
  .ite_snd_snd h.now.refuseService (.ite_snd_snd h.now.burnOwner.zeroiseKeys.setSecState.finishTransfer
    h.now.burnOwner.refuseService)

theorem Evolves.readSet {m ts A got} (h : Evolves s₀ s) : Evolves s₀ (s.readSet m ts A got).2.2 := by
  induction ts generalizing s A got with
  | nil => exact h
  | cons t ts ih =>
    exact .ite_snd_snd h.readLong.secFlag (.ite_snd_snd h.readLong.secFlag (.ite_snd_snd h.readLong.readLong.secFlag
      (.ite_snd_snd h.readLong.readLong.verifyImage (ih h.readLong.readLong.verifyImage))))

theorem Evolves.installSet {req m} (h : Evolves s₀ s) : Evolves s₀ (s.installSet req m).2.2 :=
  .ite_snd_snd h.readSet (.extendM7 (h.readSet.setStore fun k => h.readSet.killed k))

theorem Evolves.serve {v pass m} (h : Evolves s₀ s) : Evolves s₀ (s.serve v pass m).2.2 := by
  unfold State.serve
  dsimp only
  split
  exacts [.ite_snd_snd h.setSecState h.secFlag.setSecState, h.freshChallenge, h.attest, .ite_snd_snd h.extend
    h.refuseService, h.setTime, h.installKey, h.installKey, h.installSigners, h.transferOwner, .ite_snd_snd
    h.refuseService (.extendM7 (h.setStore h.killed)), h.installSet, h.setStore h.killed,
    h.zeroiseKeys.setSecState.extendM7, .extendM7 (.setSecState (.zeroiseKeys (h.setStore fun _ => rfl)))]

theorem Evolves.execSecServiceDone {pass m} (h : Evolves s₀ s) : Leads s₀ (execSecServiceDone pass m s) := by
  unfold Machine.execSecServiceDone
  split
  exacts [.impossible, .next (.wrBytes (.wr (.wrFld (.ite_snd_snd h.setSec h.setSec.serve))))]

theorem Evolves.execAuthLockoutEnd (h : Evolves s₀ s) : Leads s₀ (execAuthLockoutEnd s) :=
  .ite (.next h.setSec) .impossible

theorem Evolves.execEntropyTestFail (h : Evolves s₀ s) : Leads s₀ (execEntropyTestFail s) :=
  .ite .impossible (.next (.setSec (.ite h.secFlag.setSecState.frame h.secFlag.setSecState)))

/-! ### Str -/

theorem Evolves.creditWait {b c} (h : Evolves s₀ s) : Evolves s₀ (s.creditWait b c) := h.setChan.bump

theorem Evolves.startStream {b c} (h : Evolves s₀ s) : Leads s₀ (s.startStream b c) :=
  .ite (.next h.strFault.failBay) (.ite .impossible (.next (.setChan (h.each .wr))))

theorem Evolves.execStreamBegin {b c} (h : Evolves s₀ s) : Leads s₀ (execStreamBegin b c s) :=
  .ite .impossible h.startStream

theorem Evolves.execWeightAheadBegin {b c} (h : Evolves s₀ s) : Leads s₀ (execWeightAheadBegin b c s) :=
  .ite .impossible h.startStream

theorem Evolves.translateFront {b c} (h : Evolves s₀ s) : Evolves s₀ (s.translateFront b c) := by
  unfold State.translateFront
  split
  · exact h
  · refine .ite h.translated ?_
    split
    exacts [h.translated, h.startWalk]

theorem Evolves.execStreamRequestIssue {b c} (h : Evolves s₀ s) : Leads s₀ (execStreamRequestIssue b c s) := by
  unfold Machine.execStreamRequestIssue
  refine .ite .impossible ?_
  split
  · exact .ite (.next h.translateFront) .impossible
  · refine .ite .impossible ?_
    dsimp only
    split
    exacts [.next (.settle (.ite h.setChan.creditWait h.setChan)), .next (.ite (.translateFront (.ite
      h.setChan.setChan.settle h.setChan.setChan.settle.tookStaging)) (.ite h.setChan.setChan.settle
      h.setChan.setChan.settle.tookStaging))]

theorem Evolves.execTableWalkResponse {b c m} (h : Evolves s₀ s) : Leads s₀ (execTableWalkResponse b c m s) := by
  unfold Machine.execTableWalkResponse
  split
  · exact .next h
  · split
    · exact .impossible
    · next _ hu =>
        refine .ite (.next (h.answered .memRead _ hu).setFlag.bump.setChan.settle) ?_
        dsimp only
        split
        · exact .next (h.answered .memRead _ hu).translated
        · exact .next (h.answered .memRead _ hu).startWalk
        · refine .next ?_
          refine .translated ?_
          split
          exacts [(h.answered .memRead _ hu).setBay, (h.answered .memRead _ hu)]

theorem Evolves.dataCame {b c id r data} (h : Evolves s₀ s) : Evolves s₀ (s.dataCame b c id r data) :=
  .ite h.setChan.bump64.setChan h.setChan.bump64.convertRows

theorem Evolves.execStreamReadResponse {b c id m} (h : Evolves s₀ s) :
    Leads s₀ (execStreamReadResponse b c id m s) := by
  unfold Machine.execStreamReadResponse
  split
  · exact .next h
  · split
    · exact .impossible
    · next _ hu =>
        exact .ite (.next (h.perform _ hu).setChan.settle) (.ite (.next (h.perform _ hu).setChan.settle) (.next
          (h.perform _ hu).dataCame.settle))

theorem Evolves.execStreamRowAccept {b c} (h : Evolves s₀ s) : Leads s₀ (execStreamRowAccept b c s) := by
  unfold Machine.execStreamRowAccept
  dsimp only
  split
  · exact .impossible
  · refine .ite (.next h.creditWait) ?_
    split
    · exact .impossible
    · next _ hu =>
        exact .next (h.deliver _ hu).setChan.bump64.settle

theorem Evolves.execStoreRecordReceive {b c} (h : Evolves s₀ s) : Leads s₀ (execStoreRecordReceive b c s) := by
  unfold Machine.execStoreRecordReceive
  dsimp only
  split
  · exact .impossible
  · split
    exacts [.next h.setChan.settle, .next h.setChan.settle]
  · exact .next h.setChan.settle

theorem Evolves.execStreamWriteAck {b c id m} (h : Evolves s₀ s) : Leads s₀ (execStreamWriteAck b c id m s) := by
  unfold Machine.execStreamWriteAck
  split
  · exact .next h
  · split
    · exact .impossible
    · next _ hu =>
        exact .ite (.next (h.perform _ hu).setChan.settle) (.ite (.next (h.perform _ hu).setChan.settle) (.next
          (h.perform _ hu).setChan.bump64.settle))

theorem Evolves.execStreamResume {b c} (h : Evolves s₀ s) : Leads s₀ (execStreamResume b c s) :=
  .ite (.next h.setChan.settle) (.next h)

theorem Evolves.abortStream {b c st} (h : Evolves s₀ s) : Evolves s₀ (s.abortStream b c st) := h.endShort.failBay

theorem Evolves.execStreamAbort {b c} (h : Evolves s₀ s) : Leads s₀ (execStreamAbort b c s) :=
  .ite (.next h.abortStream) (.next h)

theorem Evolves.execPauseLimitExpiry {b c} (h : Evolves s₀ s) : Leads s₀ (execPauseLimitExpiry b c s) :=
  .ite .impossible (.next h.abortStream)

theorem Evolves.execStrSoftReset {b} (h : Evolves s₀ s) : Leads s₀ (execStrSoftReset b s) :=
  .next (.ite (.failBay (.each (h.each .endShort) .setChan)) (.each (h.each .endShort) .setChan))

/-! ### Twn -/

theorem Evolves.twinCmd {go} (h : Evolves s₀ s) (hgo : ∀ {s}, Evolves s₀ s → Evolves s₀ (go s)) :
    Leads s₀ (s.twinCmd go) :=
  h.bar0Do (fun h => hgo h) (fun h => h)

theorem Evolves.attach (h : Evolves s₀ s) : Evolves s₀ s.attach := .ite h.wr.twinFlag h.frame.wr.setTwin.mirrorSend

theorem Evolves.execAttach (h : Evolves s₀ s) : Leads s₀ (execAttach s) := h.twinCmd .attach

theorem Evolves.protect (h : Evolves s₀ s) : Evolves s₀ s.protect := .ite h.setTwin h

theorem Evolves.execSyncDone {us} (h : Evolves s₀ s) : Leads s₀ (execSyncDone us s) :=
  .ite .impossible (.next h.wrFld.wr.protect)

theorem Evolves.execHeartbeatSend (h : Evolves s₀ s) : Leads s₀ (execHeartbeatSend s) :=
  .ite .impossible (.next h.frame.mirrorSend.bump64)

theorem Evolves.execHeartbeatCheck {m} (h : Evolves s₀ s) : Leads s₀ (execHeartbeatCheck m s) :=
  .ite .impossible (.ite (.next (.ite (.partnerLost (.bump (.frame (.ite h.roundTrip h.roundTrip.wrFld.wrFld))))
    (.ite (.partnerLost (.bump (.frame (.ite h.roundTrip h.roundTrip.wrFld.wrFld)))) (.protect (.bump (.frame (.ite
    h.roundTrip h.roundTrip.wrFld.wrFld))))))) (.next (.ite (.partnerLost (.frame (.ite h.roundTrip
    h.roundTrip.wrFld.wrFld))) (.protect (.frame (.ite h.roundTrip h.roundTrip.wrFld.wrFld))))))

theorem Evolves.afterMirror {x} (h : Evolves s₀ s) : Evolves s₀ (s.afterMirror x) := by
  unfold State.afterMirror
  split
  · split
    exacts [.ite h.setJob.setQueue h, h]
  · exact h.complete
  · exact h.barrierEntry

theorem Evolves.execMirrorWriteResponse {i status} (h : Evolves s₀ s) :
    Leads s₀ (execMirrorWriteResponse i status s) := by
  unfold Machine.execMirrorWriteResponse
  split
  next => exact .impossible
  next x _ =>
    refine .ite .impossible ?_
    extract_lets +onlyGivenNames w _ r₁ r₂ r₃
    have h₂ : Evolves s₀ r₂ := .ite h.frame h.frame.bump64
    have h₃ : Evolves s₀ r₃ := .ite h₂.partnerLost h₂
    clear_value w
    refine .next ?_
    split
    exacts [h₃.afterMirror, .ite h₃ (.ite h₃.mirrorFence (.ite h₃.mirrorSend h₃)), h₃]

theorem Evolves.releaseHeld (h : Evolves s₀ s) : Evolves s₀ s.releaseHeld := by
  unfold State.releaseHeld
  refine .each (h.frame.each .mapJob) (fun h => ?_)
  split
  exacts [h.afterMirror, h]

theorem Evolves.takeOver {word taken earlier bs} (h : Evolves s₀ s) :
    Evolves s₀ (s.takeOver word taken earlier bs) := by
  unfold State.takeOver
  refine .ite h.complete ?_
  refine .ite (.ite h.complete h.frame) ?_
  split
  exacts [h.refuseEntry, h.frameDraw.setJob.setQueue]

theorem Evolves.takeRecord {m r} (h : Evolves s₀ s) : Evolves s₀ (s.takeRecord m r).2 :=
  .ite_snd h.readLong (h.readLong.each .takeOver)

theorem Evolves.execTakeover {m} (h : Evolves s₀ s) : Leads s₀ (execTakeover m s) :=
  h.twinCmd fun h => .ite h.twinFlag (.releaseHeld (.setTwin (.bump (h.foldl_snd fun h => h.takeRecord))))

theorem Evolves.unpair (h : Evolves s₀ s) : Evolves s₀ s.unpair := by
  unfold State.unpair
  exact h.releaseHeld.frame.wrFld.setTwin

theorem Evolves.detach (h : Evolves s₀ s) : Evolves s₀ s.detach := by
  unfold State.detach
  split
  exacts [h.setTwin.holdMirrored, h.unpair, h.unpair, .ite h.unpair h.twinFlag, h.twinFlag]

theorem Evolves.execDetach (h : Evolves s₀ s) : Leads s₀ (execDetach s) := h.twinCmd .detach

/-! ### Vec -/

theorem Evolves.vecSats {b n} (h : Evolves s₀ s) : Evolves s₀ (s.vecSats b n) := .ite h h.bump.setFlag.addSats

theorem Evolves.vecCorrected {b n} (h : Evolves s₀ s) : Evolves s₀ (s.vecCorrected b n) := .ite h h.bump.setFlag

theorem Evolves.vecChecked {b unit flag es groups act} (h : Evolves s₀ s)
    (hact : ∀ {s}, Evolves s₀ s → Evolves s₀ (act s)) : Evolves s₀ (s.vecChecked b unit flag es groups act) := by
  unfold State.vecChecked
  dsimp only
  split
  exacts [h.vecCorrected.vecHalt, hact h.vecCorrected]

theorem Evolves.vecProgramError {b} (h : Evolves s₀ s) : Evolves s₀ (s.vecProgramError b) := h.vecHalt

theorem Evolves.vecStall {b st} (h : Evolves s₀ s) : Evolves s₀ (s.vecStall b st) := h.setVec.bump64

theorem Evolves.slotDone {b sl} (h : Evolves s₀ s) : Evolves s₀ (s.slotDone b sl) :=
  .ite (.ite (.ite h.setVec.bump64.bump64.setVec h.setVec.bump64.bump64.setVec) (.ite
    h.setVec.bump64.bump64.vecProgramError (.ite h.setVec.bump64.bump64.setVec h.setVec.bump64.bump64))) h.setVec

theorem Evolves.runSlot {b e sl want act} (h : Evolves s₀ s) (hact : ∀ {s x1}, Evolves s₀ s → Evolves s₀ (act s x1)) :
    Leads s₀ (runSlot b e sl want act s) :=
  .ite .impossible (.ite (.next (h.vecChecked fun h => .ite h.vecProgramError (hact h))) (.next (hact h)))

theorem Evolves.computeAct {b p} (h : Evolves s₀ s) : Evolves s₀ (computeAct b s p) :=
  .ite h.vecHalt (.slotDone (.vecSats (.setVec (.ite h.drew h))))

theorem Evolves.runCompute {op b e} (h : Evolves s₀ s) : Leads s₀ (runCompute op b e s) := h.runSlot .computeAct

theorem Evolves.execVecNop {v f} (h : Evolves s₀ s) : Leads s₀ (execVecNop v f s) := h.runSlot .computeAct

theorem Evolves.execAdd {v f} (h : Evolves s₀ s) : Leads s₀ (execAdd v f s) := h.runCompute

theorem Evolves.execSub {v f} (h : Evolves s₀ s) : Leads s₀ (execSub v f s) := h.runCompute

theorem Evolves.execMin {v f} (h : Evolves s₀ s) : Leads s₀ (execMin v f s) := h.runCompute

theorem Evolves.execMax {v f} (h : Evolves s₀ s) : Leads s₀ (execMax v f s) := h.runCompute

theorem Evolves.execAnd {v f} (h : Evolves s₀ s) : Leads s₀ (execAnd v f s) := h.runCompute

theorem Evolves.execOr {v f} (h : Evolves s₀ s) : Leads s₀ (execOr v f s) := h.runCompute

theorem Evolves.execXor {v f} (h : Evolves s₀ s) : Leads s₀ (execXor v f s) := h.runCompute

theorem Evolves.execShl {v f} (h : Evolves s₀ s) : Leads s₀ (execShl v f s) := h.runCompute

theorem Evolves.execSra {v f} (h : Evolves s₀ s) : Leads s₀ (execSra v f s) := h.runCompute

theorem Evolves.execSrl {v f} (h : Evolves s₀ s) : Leads s₀ (execSrl v f s) := h.runCompute

theorem Evolves.execMovi {v f} (h : Evolves s₀ s) : Leads s₀ (execMovi v f s) := h.runCompute

theorem Evolves.execBfly {v f} (h : Evolves s₀ s) : Leads s₀ (execBfly v f s) := h.runCompute

theorem Evolves.execRot {v f} (h : Evolves s₀ s) : Leads s₀ (execRot v f s) := h.runCompute

theorem Evolves.execMul {v f} (h : Evolves s₀ s) : Leads s₀ (execMul v f s) := h.runCompute

theorem Evolves.execMac {v f} (h : Evolves s₀ s) : Leads s₀ (execMac v f s) := h.runCompute

theorem Evolves.execMsu {v f} (h : Evolves s₀ s) : Leads s₀ (execMsu v f s) := h.runCompute

theorem Evolves.execSqs {v f} (h : Evolves s₀ s) : Leads s₀ (execSqs v f s) := h.runCompute

theorem Evolves.execSbm {v f} (h : Evolves s₀ s) : Leads s₀ (execSbm v f s) := h.runCompute

theorem Evolves.execClr {v f} (h : Evolves s₀ s) : Leads s₀ (execClr v f s) := h.runCompute

theorem Evolves.execLda {v f} (h : Evolves s₀ s) : Leads s₀ (execLda v f s) := h.runCompute

theorem Evolves.execNrw {v f} (h : Evolves s₀ s) : Leads s₀ (execNrw v f s) := h.runCompute

theorem Evolves.execNrm2 {v f} (h : Evolves s₀ s) : Leads s₀ (execNrm2 v f s) := h.runCompute

theorem Evolves.execHdm {v f} (h : Evolves s₀ s) : Leads s₀ (execHdm v f s) := h.runCompute

theorem Evolves.execShb {v f} (h : Evolves s₀ s) : Leads s₀ (execShb v f s) := h.runCompute

theorem Evolves.execBhd {v f} (h : Evolves s₀ s) : Leads s₀ (execBhd v f s) := h.runCompute

theorem Evolves.execBst {v f} (h : Evolves s₀ s) : Leads s₀ (execBst v f s) := h.runCompute

theorem Evolves.execFn {v f} (h : Evolves s₀ s) : Leads s₀ (execFn v f s) := h.runCompute

theorem Evolves.execFcv {v f} (h : Evolves s₀ s) : Leads s₀ (execFcv v f s) := h.runCompute

theorem Evolves.execIcv {v f} (h : Evolves s₀ s) : Leads s₀ (execIcv v f s) := h.runCompute

theorem Evolves.execPadd {v f} (h : Evolves s₀ s) : Leads s₀ (execPadd v f s) := h.runCompute

theorem Evolves.execPsub {v f} (h : Evolves s₀ s) : Leads s₀ (execPsub v f s) := h.runCompute

theorem Evolves.execPsla {v f} (h : Evolves s₀ s) : Leads s₀ (execPsla v f s) := h.runCompute

theorem Evolves.execPsra {v f} (h : Evolves s₀ s) : Leads s₀ (execPsra v f s) := h.runCompute

theorem Evolves.execPnrw {v f} (h : Evolves s₀ s) : Leads s₀ (execPnrw v f s) := h.runCompute

theorem Evolves.execImm {v f} (h : Evolves s₀ s) : Leads s₀ (execImm v f s) := h.runCompute

theorem Evolves.loadAct {b y d p} (h : Evolves s₀ s) : Evolves s₀ (loadAct b y d s p) := by
  unfold Machine.loadAct
  exact h.vecChecked fun h => h.setVec.slotDone

theorem Evolves.execVecLoad {v y f d} (h : Evolves s₀ s) : Leads s₀ (execVecLoad v y f d s) := h.runSlot .loadAct

theorem Evolves.storeAct {b y hit p} (h : Evolves s₀ s) : Evolves s₀ (storeAct b y hit s p) :=
  .ite h.vecProgramError (.slotDone (.ite h.setVec h.setVec.bump))

theorem Evolves.execVecStore {v y f hit} (h : Evolves s₀ s) : Leads s₀ (execVecStore v y f hit s) :=
  h.runSlot .storeAct

theorem Evolves.runControl {op b e act} (h : Evolves s₀ s) (hact : ∀ {s x1}, Evolves s₀ s → Evolves s₀ (act s x1)) :
    Leads s₀ (runControl op b e act s) :=
  h.runSlot fun h => hact h

theorem Evolves.repAct {b p} (h : Evolves s₀ s) : Evolves s₀ (repAct b s p) := h.setVec.slotDone

theorem Evolves.execRep {v f} (h : Evolves s₀ s) : Leads s₀ (execRep v f s) := h.runControl .repAct

theorem Evolves.jmpAct {b p} (h : Evolves s₀ s) : Evolves s₀ (jmpAct b s p) := h.setVec.slotDone

theorem Evolves.execJmp {v f} (h : Evolves s₀ s) : Leads s₀ (execJmp v f s) := h.runControl .jmpAct

theorem Evolves.brkAct {b _p} (h : Evolves s₀ s) : Evolves s₀ (brkAct b s _p) := h.setVec.slotDone

theorem Evolves.execBrk {v f} (h : Evolves s₀ s) : Leads s₀ (execBrk v f s) := h.runControl .brkAct

theorem Evolves.waitAct {b p} (h : Evolves s₀ s) : Evolves s₀ (waitAct b s p) := .ite h.slotDone h.vecStall.bump

theorem Evolves.execVecWait {v f} (h : Evolves s₀ s) : Leads s₀ (execVecWait v f s) := h.runControl .waitAct

theorem Evolves.giveAct {b p} (h : Evolves s₀ s) : Evolves s₀ (giveAct b s p) := h.setVec.slotDone

theorem Evolves.execGive {v f} (h : Evolves s₀ s) : Leads s₀ (execGive v f s) := h.runControl .giveAct

theorem Evolves.sendAct {b p} (h : Evolves s₀ s) : Evolves s₀ (sendAct b s p) :=
  .ite h.vecStall.bump (.ite h.vecProgramError h.setVec.slotDone)

theorem Evolves.execVecSend {v f} (h : Evolves s₀ s) : Leads s₀ (execVecSend v f s) := h.runControl .sendAct

theorem Evolves.syncAct {b _p} (h : Evolves s₀ s) : Evolves s₀ (syncAct b s _p) := .ite h.slotDone h.vecStall

theorem Evolves.execSync {v f} (h : Evolves s₀ s) : Leads s₀ (execSync v f s) := h.runControl .syncAct

theorem Evolves.agldAct {b p} (h : Evolves s₀ s) : Evolves s₀ (agldAct b s p) :=
  .ite h.vecProgramError h.setVec.slotDone

theorem Evolves.execAgld {v f} (h : Evolves s₀ s) : Leads s₀ (execAgld v f s) := h.runControl .agldAct

theorem Evolves.ldtAct {b d p} (h : Evolves s₀ s) : Evolves s₀ (ldtAct b d s p) :=
  h.vecChecked fun h => h.setVec.slotDone

theorem Evolves.execLdt {v f d} (h : Evolves s₀ s) : Leads s₀ (execLdt v f d s) := h.runControl .ldtAct

theorem Evolves.evtAct {b _p} (h : Evolves s₀ s) : Evolves s₀ (evtAct b s _p) := by
  unfold Machine.evtAct
  refine .slotDone ?_
  split
  · exact h
  · split
    exacts [h.postEvent, h]

theorem Evolves.execEvt {v f} (h : Evolves s₀ s) : Leads s₀ (execEvt v f s) := h.runControl .evtAct

theorem Evolves.endAct {b _p} (h : Evolves s₀ s) : Evolves s₀ (endAct b s _p) := h.setVec.slotDone

theorem Evolves.execVecEnd {v f} (h : Evolves s₀ s) : Leads s₀ (execVecEnd v f s) := h.runControl .endAct

theorem Evolves.rowTaken {b q rest rows} (h : Evolves s₀ s) : Evolves s₀ (s.rowTaken b q rest rows) :=
  .ite h.setVec.completeWriter h.setVec

theorem Evolves.execSendRowAccept {v e collide} (h : Evolves s₀ s) : Leads s₀ (execSendRowAccept v e collide s) := by
  unfold Machine.execSendRowAccept
  dsimp only
  split
  · exact .impossible
  · refine .ite .impossible ?_
    refine .ite (.next h.vecProgramError) ?_
    refine .ite (.next h.bump) ?_
    split
    · exact .next h.vecCorrected.vecHalt
    · split
      · exact .impossible
      · next _ hu =>
          exact .next (h.vecCorrected.deliver _ hu).rowTaken

theorem Evolves.execSendTimeout {v} (h : Evolves s₀ s) : Leads s₀ (execSendTimeout v s) :=
  .ite .impossible (.next h.vecHalt)

theorem Evolves.execVecSoftReset {v} (h : Evolves s₀ s) : Leads s₀ (execVecSoftReset v s) :=
  .next (.setVec (.ite h.vecFirst.setVec.failBay h))

/-! ### RegWrite -/

theorem Evolves.after {o} (h : Evolves s₀ s) (ho : Leads s₀ o) : Evolves s₀ (s.after o) := by
  unfold State.after
  split
  exacts [ho _ rfl, h]

theorem Evolves.writePlain {b off w} (h : Evolves s₀ s) : Evolves s₀ (s.writePlain b off w) := by
  unfold State.writePlain
  split
  exacts [h, h.wr]

theorem Evolves.clearCounters {b} (h : Evolves s₀ s) : Evolves s₀ (s.clearCounters b) := h.clearRegs

theorem Evolves.ifBit {w i go} (h : Evolves s₀ s) (hgo : ∀ {s}, Evolves s₀ s → Evolves s₀ (go s)) :
    Evolves s₀ (s.ifBit w i go) :=
  .ite (hgo h) h

theorem Evolves.writeRing {f o w mask} (h : Evolves s₀ s) : Evolves s₀ (s.writeRing f o w mask) :=
  .ite h.wrFld.setFlag h.wr

theorem Evolves.writePage {f off w} (h : Evolves s₀ s) : Evolves s₀ (s.writePage f off w) := by
  unfold State.writePage
  split
  exacts [h.kick, h.offer, h.writeRing, h.writeRing, h.writeRing, h.writeRing, h.ifBit .disableRing, h.writePlain]

theorem Evolves.writeHif {off w} (h : Evolves s₀ s) : Evolves s₀ (s.writeHif off w) :=
  .ite (.ite h.logAccess (h.stored.ifBit fun h => h.setFlag)) h.writePlain

theorem Evolves.writeMbx {off w host} (h : Evolves s₀ s) : Evolves s₀ (s.writeMbx off w host) := by
  unfold State.writeMbx
  dsimp only
  split
  exacts [h.ring, h.writeMask, .ite h h.wr, h.writePlain]

theorem Evolves.writeCtl {off w} (h : Evolves s₀ s) : Evolves s₀ (s.writeCtl off w) := by
  unfold State.writeCtl
  refine .ite h.writeShadow ?_
  refine .ite h.ctlFlag ?_
  split
  exacts [.ifBit (.ifBit (h.ifBit fun h => h.ctlCmd .checkShadow) fun h => h.ctlCmd .startSwap) fun h => h.ctlCmd
    .copyActive, h.wr, h.each fun h => h.ifBit fun h => h.after h.execPartitionReset, h.writePlain]

theorem Evolves.writePwr {off w} (h : Evolves s₀ s) : Evolves s₀ (s.writePwr off w) :=
  .ite h.writeTrip (.ite (h.each fun h => .ite h (.ite h.gate h.ungate)) (.ite h.writePlain.levels h.writePlain))

theorem Evolves.writeTwn {off w} (h : Evolves s₀ s) : Evolves s₀ (s.writeTwn off w) :=
  .ite (.ifBit (h.ifBit .attach) .detach) (.ite h.wr (.ite h.wr (.ite (.ite h.twinFlag (.ite h.twinFlag
    h.writePlain)) h.writePlain)))

theorem Evolves.isolate {b w} (h : Evolves s₀ s) : Evolves s₀ (s.isolate b w) := h.setBits.each .absorbAll

theorem Evolves.release {b w} (h : Evolves s₀ s) : Evolves s₀ (s.release b w) := h.clrBits

theorem Evolves.writeNoc {b off w} (h : Evolves s₀ s) : Evolves s₀ (s.writeNoc b off w) :=
  .ite h.isolate (.ite h.release (.ite h.logAccess h.writePlain))

theorem Evolves.writeDrc {e off w} (h : Evolves s₀ s) : Evolves s₀ (s.writeDrc e off w) :=
  .ite (.ifBit (.ifBit (h.ifBit fun h => h.after h.execTrainStart) fun h => h.after h.execInitStart) fun h => h.after
    h.execMarkBad) (.ite (h.after h.execTrainPatternStart) h.writePlain)

theorem Evolves.mtxCleared {t} (h : Evolves s₀ s) : Evolves s₀ (s.mtxCleared t) := .ite h.wr h

theorem Evolves.writeEov {e off w} (h : Evolves s₀ s) : Evolves s₀ (s.writeEov e off w) := by
  unfold State.writeEov
  split
  exacts [.ite h.writePlain h, h.writeDrainLimit, h.writeRespLimit, h.writePlain]

theorem Evolves.writeLnk {e off w} (h : Evolves s₀ s) : Evolves s₀ (s.writeLnk e off w) :=
  .ite (h.writeTest.writeEnable.ifBit .portDown) (.ite h.wr (.ite h.wr (.ite (.ite (.ite h.writePlain
    h.writePlain.mapLane) (.mapLane (.wrFld (.ite h.writePlain h.writePlain.mapLane)))) (.ite h.writeInject
    h.writePlain))))

theorem Evolves.writeWindow {e i byte w} (h : Evolves s₀ s) : Evolves s₀ (s.writeWindow e i byte w) :=
  .ite h.commit h.frame

theorem Evolves.writeReg {b off w host} (h : Evolves s₀ s) : Evolves s₀ (s.writeReg b off w host) := by
  unfold State.writeReg
  extract_lets +onlyGivenNames u
  have h : Evolves s₀ u := by
    subst u
    split
    exacts [.ite h.clearCounters h, h]
  clear_value u
  split
  exacts [h.writePage, h.writeHif, h.writeMbx, h.writeCtl, .ite h.takeService h.writePlain, .ite h.testCmd h.writePlain,
    h.writePwr, h.writeTwn, h.writeNoc, .ite (h.ifBit fun h => h.after h.execAbortLoad) h.writePlain,
    .ite (h.ifBit fun h => h.after h.execScrubNow) h.writePlain, h.writeDrc, h.writeEov, h.writeLnk, h.writeWindow,
    .ite (h.ifBit fun h => h.after h.execMtxSoftReset) h.writePlain.mtxCleared,
    .ite (h.ifBit fun h => h.after h.execVecSoftReset) h.writePlain,
    .ite (h.ifBit fun h => h.after h.execStrSoftReset)
      (.ite (.ite (h.after h.execStreamAbort) (h.ifBit fun h => h.after h.execStreamResume)) h.writePlain),
    h.writePlain]

theorem Evolves.writeLanded {x bar2 a w} (h : Evolves s₀ s) : Evolves s₀ (s.writeLanded x bar2 a w) := by
  unfold State.writeLanded
  split
  exacts [h.logAccess, h.logAccess, .ite h.sendWord h.wr, .ite h.writeReg h.logAccess]

theorem Evolves.writeWords {land bar2 a ws} (h : Evolves s₀ s) : Evolves s₀ (s.writeWords land bar2 a ws) := by
  induction ws generalizing s a with
  | nil => exact h
  | cons w ws ih => exact ih h.writeLanded

/-! ### Noc -/

theorem Evolves.execNocInject {p} (h : Evolves s₀ s) : Leads s₀ (execNocInject p s) :=
  .ite .impossible (.next h.nocSubmit)

theorem Evolves.putCmds {b o bs} (h : Evolves s₀ s) : Evolves s₀ (s.putCmds b o bs) := by
  unfold State.putCmds
  split
  exacts [h.setBay, h]

theorem Evolves.freeBytes {n} (h : Evolves s₀ s) : Evolves s₀ (s.freeBytes n).2 := h.frameDraw

theorem Evolves.readRegs {b off n} (h : Evolves s₀ s) : Evolves s₀ (s.readRegs b off n).2 := by
  induction n generalizing s off with
  | zero => exact h
  | succ n ih => exact ih (.ite_snd h h.readHeld)

theorem Evolves.writeRegs {b off ws} (h : Evolves s₀ s) : Evolves s₀ (s.writeRegs b off ws) := by
  induction ws generalizing s off with
  | nil => exact h
  | cons w ws ih => exact ih (.ite h h.writeReg)

theorem Evolves.writeWindows {e i byte ws} (h : Evolves s₀ s) : Evolves s₀ (s.writeWindows e i byte ws) := by
  induction ws generalizing s i byte with
  | nil => exact h
  | cons w ws ih => exact ih h.writeWindow

theorem Evolves.toHome {n v} (h : Evolves s₀ s) : Evolves s₀ (s.toHome n v) := by
  unfold State.toHome
  dsimp only
  split
  · exact h
  · next u hu =>
    have h := (Evolves.frameDraw h).homeTake u hu
    split
    exacts [h.setNoc, h]

theorem Evolves.done {n v data} (h : Evolves s₀ s) : Evolves s₀ (s.done n v data) := h.reply

theorem Evolves.arrive {n type go} (h : Evolves s₀ s) (hgo : ∀ {x0}, Leads s₀ (go x0)) :
    Leads s₀ (s.arrive n type go) := by
  unfold State.arrive
  split
  exacts [.impossible, .ite .impossible (.ite (.next h.absorb) (hgo))]

theorem Evolves.enqueue {n v A bank} (h : Evolves s₀ s) : Evolves s₀ (s.enqueue n v A bank) :=
  .ite h (.ite h.frame.done h.frame.setNoc)

theorem Evolves.memArrive {n v A go} (h : Evolves s₀ s) (hgo : ∀ {s}, Evolves s₀ s → Evolves s₀ (go s).2) :
    Leads s₀ (s.memArrive n v A go) := by
  unfold State.memArrive
  split
  · exact .next (.reply (hgo h))
  · refine .ite (.next h.enqueue) ?_
    split
    · exact .next h.frame.done
    · split
      exacts [.ite (.next (.reply (hgo h.unqueue))) .impossible, .impossible]

theorem Evolves.servePosted {n m} (h : Evolves s₀ s) : Leads s₀ (s.servePosted n m) := by
  unfold State.servePosted
  split
  · exact .impossible
  · split
    exacts [.impossible, .ite (.next h.unqueue.serveQueued) .impossible]

theorem Evolves.execNocRead {n m} (h : Evolves s₀ s) : Leads s₀ (execNocRead n m s) := by
  refine h.arrive ?_
  intro v
  dsimp only
  split
  exacts [h.memArrive .memRead, .next h.reply, .next h.readRegs.done, .next h.done, .next h.done, .next h.done,
    .next h.done, .ite .impossible (.next h.toHome), .next h.freeBytes.done]

theorem Evolves.execNocWrite {n m} (h : Evolves s₀ s) : Leads s₀ (execNocWrite n m s) := by
  refine .ite h.servePosted (h.arrive ?_)
  intro v
  dsimp only
  split
  exacts [h.memArrive .memWrite, .next h.reply, .next h.writeRegs.done, .next h.firmWrite.done, .next h.putCmds.done,
    .next h.setVec.done, .next h.writeWindows.done, .ite .impossible (.next h.toHome), .next h.done]

theorem Evolves.atomicRefused {n v} (h : Evolves s₀ s) : Leads s₀ (s.atomicRefused n v) := .next h.frameDraw.reply

theorem Evolves.execNocAtomic {n m} (h : Evolves s₀ s) : Leads s₀ (execNocAtomic n m s) := by
  refine h.arrive ?_
  intro v
  dsimp only
  split
  exacts [.ite (h.memArrive .memUpdate) h.atomicRefused, .next h.reply, .ite .impossible (.next h.toHome),
    h.atomicRefused]

theorem Evolves.execNocMessage {n} (h : Evolves s₀ s) : Leads s₀ (execNocMessage n s) := by
  refine h.arrive ?_
  intro v
  dsimp only
  split
  exacts [.ite .impossible (.ite (.next h.done) (.next h.frameDraw.setNoc.addHome)), .next h.emit.done]

theorem Evolves.execNocMulticast {n c} (h : Evolves s₀ s) : Leads s₀ (execNocMulticast n c s) := by
  unfold Machine.execNocMulticast
  split
  exacts [.impossible, .ite .impossible (.next (.setNoc (.ite h.mcastTarget h.mcastTarget.countResponse.emit)))]

theorem Evolves.deliverNoc {n v status data} (h : Evolves s₀ s) : Evolves s₀ (s.deliverNoc n v status data) :=
  .ite h.flightEnd (.ite h.toOwner (.ite h h.emit))

theorem Evolves.shapedAt {v xs} (h : Evolves s₀ s) : Evolves s₀ (s.shapedAt v xs) := h.each fun h => h.bump.setFlag

theorem Evolves.countAnswer {v status bytes lat} (h : Evolves s₀ s) : Evolves s₀ (s.countAnswer v status bytes lat) :=
  .ite h h.countResponse

theorem Evolves.lateTally {src} (h : Evolves s₀ s) : Evolves s₀ (s.lateTally src) := h.tally

theorem Evolves.execNocResponse {n w} (h : Evolves s₀ s) : Leads s₀ (execNocResponse n w s) := by
  unfold Machine.execNocResponse
  split
  · exact .impossible
  · split
    exacts [.impossible, .ite (.next h.frame.shapedAt.lateTally) (.next
      h.frame.shapedAt.countAnswer.deliverNoc.nocWake)]

theorem Evolves.execRespTimeout {n} (h : Evolves s₀ s) : Leads s₀ (execRespTimeout n s) := by
  unfold Machine.execRespTimeout
  split
  · exact .impossible
  · refine .ite .impossible ?_
    refine .next ?_
    refine .nocWake ?_
    refine .deliverNoc ?_
    refine .setNoc ?_
    split
    exacts [h.srcBump.countAnswer, h.srcBump]

theorem Evolves.execDeadLimitExpiry {b ep} (h : Evolves s₀ s) : Leads s₀ (execDeadLimitExpiry b ep s) :=
  .ite .impossible (.next h.isolate.setFlag)

theorem Evolves.nocCmd {b off host go} (h : Evolves s₀ s) (hgo : ∀ {s}, Evolves s₀ s → Evolves s₀ (go s)) :
    Leads s₀ (s.nocCmd b off host go) :=
  .ite (h.bar0Do (fun h => .ite (hgo h) h.logAccess) (fun h => h)) (.next (.ite (hgo h) h))

theorem Evolves.execIsolateSet {b w host} (h : Evolves s₀ s) : Leads s₀ (execIsolateSet b w host s) :=
  h.nocCmd .isolate

theorem Evolves.execIsolateClr {b w host} (h : Evolves s₀ s) : Leads s₀ (execIsolateClr b w host s) :=
  h.nocCmd .release

theorem Evolves.execMapLock {b host} (h : Evolves s₀ s) : Leads s₀ (execMapLock b host s) := h.nocCmd .setFlag

theorem Evolves.crossingDown {r dir} (h : Evolves s₀ s) : Evolves s₀ (s.crossingDown r dir) :=
  .each (.emit (h.frame.each .setFlag)) .setNoc

theorem Evolves.execCrossingCrcError {r dir f} (h : Evolves s₀ s) : Leads s₀ (execCrossingCrcError r dir f s) :=
  .ite .impossible (.ite (.next h.frame.crossingDown) (.ite (.next h.frame) (.next h.frame.bump.setFlag)))

/-! ### Reg -/

theorem Evolves.execRegisterWrite {t ws} (h : Evolves s₀ s) : Leads s₀ (execRegisterWrite t ws s) := by
  unfold Machine.execRegisterWrite
  split
  exacts [.ite .impossible (h.bar0Do (fun h => .ite h.writeWords h.logAccess) (fun h => h)), .ite .impossible
    (h.pageDo (fun h => .ite h.writeWords h.logAccess) (fun h => h)), .ite .impossible (.ite (.next h.writeReg)
    (.next h.emit))]

theorem Evolves.execCounterLoRead {t} (h : Evolves s₀ s) : Leads s₀ (execCounterLoRead t s) := by
  unfold Machine.execCounterLoRead
  split
  exacts [.ite .impossible (h.bar0Do (fun h => .ite h.readWords.emit h.logAccess.emit) (fun h => h.emit)), .ite
    .impossible (h.pageDo (fun h => .ite h.readWords.emit h.logAccess.emit) (fun h => h.emit)), .ite .impossible
    (.ite (.next h.readHeld.emit) (.next h.emit))]

theorem Evolves.execCntClear {b host} (h : Evolves s₀ s) : Leads s₀ (execCntClear b host s) := by
  unfold Machine.execCntClear
  split
  exacts [.impossible, .ite (.ite (h.bar0Do (fun h => .ite h.clearCounters h.logAccess) (fun h => h)) .impossible)
    (.next (.ite h.clearCounters h))]

/-! ### Dispatch -/

theorem Evolves.exec {i} (h : Evolves s₀ s) : Leads s₀ (exec i s) := by
  unfold Machine.exec
  split
  exacts [h.execRegisterWrite, h.execCounterLoRead, h.execCntClear, h.execPerstAssert, h.execPerstRelease,
    h.execPwrgdRise, h.execPwrgdFall, h.execPwrdisChange, h.execUndervoltageLockout, h.execOvervoltageShutdown,
    h.execPcieRefclkLoss, h.execRefLoss, h.execRefReturn, h.execCapacitorLow, h.execPassCmd, h.execPassAccept,
    h.execVectorFeed, h.execVectorStreamEnd, h.execDrainRecord, h.execDrainRecordAccept, h.execPassBudgetExpiry,
    h.execMtxSoftReset, h.execCreditGrant, h.execBlockComplete, h.execPreemption, h.execVprog, h.execVwait,
    h.execVecNop, h.execAdd, h.execSub, h.execMin, h.execMax, h.execAnd, h.execOr, h.execXor, h.execShl, h.execSra,
    h.execSrl, h.execMovi, h.execBfly, h.execRot, h.execMul, h.execMac, h.execMsu, h.execSqs, h.execSbm, h.execClr,
    h.execLda, h.execNrw, h.execNrm2, h.execHdm, h.execShb, h.execBhd, h.execBst, h.execFn, h.execFcv, h.execIcv,
    h.execPadd, h.execPsub, h.execPsla, h.execPsra, h.execPnrw, h.execImm, h.execVecLoad, h.execVecStore, h.execRep,
    h.execJmp, h.execBrk, h.execVecWait, h.execGive, h.execVecSend, h.execSendRowAccept, h.execSendTimeout,
    h.execSync, h.execAgld, h.execLdt, h.execEvt, h.execVecEnd, h.execVecSoftReset, h.execStreamCmd,
    h.execStreamBegin, h.execWeightAheadBegin, h.execStreamRequestIssue, h.execTableWalkResponse,
    h.execStreamReadResponse, h.execStreamRowAccept, h.execStoreRecordReceive, h.execStreamWriteAck,
    h.execStreamResume, h.execStreamAbort, h.execPauseLimitExpiry, h.execStrSoftReset, h.execLayer, h.execBarrierCmd,
    h.execBarrierArrival, h.execBarrierRelease, h.execBarrierLimitExpiry, h.execEventCmd, h.execSeqEnd,
    h.execBayEndMsg, h.execTimeLimitExpiry, h.execJobDispatch, h.execJobPlacement, h.execMulticastAck,
    h.execMulticastRetry, h.execTranslationInvalidate, h.execInvalidationComplete, h.execQuarterZeroed,
    h.execCheckpointRecordWrite, h.execPartitionReset, h.execPartitionResetEnd, h.execLlContention,
    h.execBramEccRead, h.execPllLockLoss, h.execPllRelock, h.execGlobalClockSwitch, h.execTilePortPush,
    h.execTilePortGrant, h.execTilePortPop, h.execDelayTapLoad, h.execDelayTapStep, h.execConfigurationEntry,
    h.execHeader, h.execSeg, h.execSegmentAuthenticated, h.execCfgNop, h.execRegw, h.execFaddr, h.execFdata,
    h.execKeyroll, h.execCfgEnd, h.execSig, h.execFrameCommit, h.execSignatureReport, h.execBorderOpen,
    h.execAbortLoad, h.execScrubRead, h.execScrubWriteBack, h.execEssResetEnd, h.execNocInject, h.execNocRead,
    h.execNocWrite, h.execNocAtomic, h.execNocMessage, h.execNocMulticast, h.execNocResponse, h.execDeadLimitExpiry,
    h.execIsolateSet, h.execIsolateClr, h.execMapLock, h.execCrossingCrcError, h.execRespTimeout,
    h.execCremaPatrolRead, h.execScrubNow, h.execTrainStart, h.execInitStart, h.execMarkBad, h.execChannelInitDone,
    h.execTrainPatternStart, h.execTrainPatternDone, h.execPowerDownExpiry, h.execRefreshDue, h.execLpddrPatrolRead,
    h.execHomeEdgeRequest, h.execFence, h.execFabricPacketReceive, h.execFabricResponseReceive,
    h.execWindowEntryCommit, h.execDrainLimitExpiry, h.execFabricRespTimeout, h.execDrainLimitWrite,
    h.execRespLimitWrite, h.execCodewordReceive, h.execMarkerCheck, h.execRetryTimerExpiry, h.execLaneLockLoss,
    h.execCablePresenceChange, h.execPpmMeasure, h.execLaneAcquireLock, h.execCapabilityRecordReceive,
    h.execDeskewDone, h.execBringupTimeout, h.execEnable, h.execRetrain, h.execTestMode, h.execCheckerLock,
    h.execIdleTimerExpiry, h.execIdleExit, h.execInject, h.execPcieConfigRequest, h.execPcieLinkUp,
    h.execPcieLinkDown, h.execBar4Read, h.execBar4Write, h.execFunctionLevelReset, h.execD3hotEntry, h.execD0Return,
    h.execHifKick, h.execDbrecFetchDone, h.execCqHeadPoll, h.execRingEnable, h.execRingDisable, h.execJobEntry,
    h.execRingBarrier, h.execRingNop, h.execPin, h.execUnpin, h.execCompletionWrite, h.execVersionOffer,
    h.execIrqDelayExpiry, h.execCheck, h.execTamp, h.execCopyActive, h.execShadowWrite, h.execSwitchReport,
    h.execTampLimitExpiry, h.execMbxOutHi, h.execMbxSendHi, h.execMbxDbSet, h.execMbxDbMaskWrite,
    h.execEndpointWithdraw, h.execBringupPhaseEnd, h.execPhaseDeadline, h.execRecoveryPoint,
    h.execTrainingStartPoint, h.execFieldFuseWrite, h.execLogicBist, h.execMemoryBist, h.execBothBist,
    h.execBistDone, h.execSelfTest, h.execChallenge, h.execAttest, h.execExtend, h.execSetTime, h.execInstallOck,
    h.execInstallUak, h.execInstallSignerKeys, h.execTransferOwnership, h.execRevokeVendorSlot,
    h.execInstallFirmware, h.execAdvanceCounter, h.execZeroise, h.execScrap, h.execAuthLockoutEnd,
    h.execEntropyTestFail, h.execAttach, h.execDetach, h.execTakeover, h.execHeartbeatSend, h.execHeartbeatCheck,
    h.execMirrorWriteResponse, h.execSyncDone, h.execModuleCapStep, h.execDieCapEval, h.execSensorRead,
    h.execThermalStep, h.execDroopDetect, h.execStretchEnd, h.execTripWrite, h.execQuarterGate, h.execQuarterUngate,
    h.execTelemetryRecord, h.execSecServiceDone, h.execHostReadTimeout, h.execEntryReadError, h.execCodewordTransmit]

/-! ### Step -/

/-- An edge of a user clock goes on from the state itself. -/
theorem Evolves.of_step_nil (hq : s.pending = []) (e : step s = .next t) : Evolves s t := by
  simp only [step, hq] at e
  exact Host.Outcome.next.inj e ▸ (Evolves.refl s).tick

/-- A command goes on from the state that has the rest of the queue. -/
theorem Evolves.of_step_cons {c rest} (hq : s.pending = c :: rest) (e : step s = .next t) :
    Evolves { s with pending := rest } t := by
  simp only [step, hq] at e
  exact (Evolves.refl { s with pending := rest }).exec t e

theorem Evolves.inv (h : Evolves s t) (hs : s.Inv) : t.Inv := ⟨h.mem hs.1, h.regs hs.2⟩

/-- Settles O5: every step goes on from a state whose tables are those of s. -/
theorem everyStepKeepsTheInvariant : Obligations.EveryStepKeepsTheInvariant := by
  intro s t hs e
  cases hq : s.pending with
  | nil => exact (Evolves.of_step_nil hq e).inv hs
  | cons c rest => exact (Evolves.of_step_cons hq e).inv hs

end Sys2Proof.Machine
end

section
/-! SUPPORT. Access codes and reset values of the register maps (R6, R7). -/

namespace Sys2Proof.Machine

/-! ### Access codes -/

/-- No bit of a row has two access codes that a write could tell apart. -/
def RegRow.codesApart (r : RegRow) : Bool := r.w1c &&& (r.rw ||| r.rwl ||| r.w1s) == 0 && r.w1s &&& r.rwl == 0

theorem blockRows_codesApart (b : Block) : (blockRows b).all RegRow.codesApart = true := by cases b <;> rfl

theorem testBit_apart {m n : Nat} (h : m &&& n = 0) (i : Nat) (hm : m.testBit i = true) : n.testBit i = false := by
  have e : (m &&& n).testBit i = false := by rw [h, Nat.zero_testBit]
  rwa [Nat.testBit_and, hm, Bool.true_and] at e

/-- Bit i of a written register, from bit i of each mask. -/
theorem getLsbD_written (r : RegRow) (old w : Word) (locked : Bool) {i : Nat} (hi : i < 32) :
    (r.written old w locked).getLsbD i =
      (((old.getLsbD i && !(r.rw.testBit i || (!locked && r.rwl.testBit i)) ||
        w.getLsbD i && (r.rw.testBit i || (!locked && r.rwl.testBit i))) && !(w.getLsbD i && r.w1c.testBit i)) ||
          w.getLsbD i && r.w1s.testBit i) := by
  cases locked <;> simp [RegRow.written, hi, -BitVec.getLsbD_eq_getElem, BitVec.getLsbD_ofNat]

/-- Settles O9: the masks of a row are apart, so that each bit follows its one code. -/
theorem writeAccessCodes : Obligations.WriteAccessCodes := by
  intro b r old w locked i hr hi
  have hc := List.all_eq_true.1 (blockRows_codesApart b) r hr
  simp only [RegRow.codesApart, Bool.and_eq_true, beq_iff_eq] at hc
  obtain ⟨hc1, hc2⟩ := hc
  have h1 := testBit_apart hc1 i
  have h2 := testBit_apart hc2 i
  simp only [Nat.testBit_or, Bool.or_eq_false_iff] at h1
  rw [getLsbD_written r old w locked hi]
  cases hw1c : r.w1c.testBit i with
  | true =>
    obtain ⟨⟨hrw, hrwl⟩, hw1s⟩ := h1 hw1c
    simp [hrw, hrwl, hw1s]
  | false =>
    cases hw1s : r.w1s.testBit i with
    | true =>
      rw [h2 hw1s]
      cases r.rw.testBit i <;> simp
    | false => cases r.rw.testBit i <;> cases r.rwl.testBit i <;> cases locked <;> simp

/-! ### Reset values -/

/-- Settles O4: the tables of the reset state are empty. -/
theorem resetMeetsTheInvariant : Obligations.ResetMeetsTheInvariant := ⟨rfl, rfl⟩

/-- Settles O3: nothing is listed after reset, and the maps' Reset columns hold the values. -/
theorem resetHoldsTheStatedValues : Obligations.ResetHoldsTheStatedValues := by
  have hlost : WorkLost State.reset := by simp only [WorkLost, State.reset, and_self]
  refine ⟨rfl, rfl, hlost, fun _ => rfl, rfl, rfl, fun e => ?_⟩
  fin_cases e <;> exact ⟨rfl, rfl⟩

end Sys2Proof.Machine
end

section
/-! SUPPORT. What an operation on registers leaves of the state, for `OnlyRegs` and for reads; and where host accesses and
firmware accesses go. -/

namespace Sys2Proof.Machine

section
variable {s t u : State} {ks : List Nat}

/-! ### Changes of registers alone -/

theorem OnlyRegs.refl (s : State) (ks : List Nat) : OnlyRegs s s ks := ⟨rfl, fun _ _ => rfl⟩

theorem OnlyRegs.trans (h : OnlyRegs s t ks) (h' : OnlyRegs t u ks) : OnlyRegs s u ks :=
  ⟨h'.1.trans (congrArg (fun x : State => { x with regs := u.regs }) h.1),
    fun k hk => (h'.2 k hk).trans (h.2 k hk)⟩

theorem OnlyRegs.wr (s : State) (i : Nat) (v : Word) (hi : i ∈ ks) : OnlyRegs s (s.wr i v) ks :=
  ⟨rfl, fun _ hk => rd_wr_ne s v fun e => hk (e ▸ hi)⟩

theorem OnlyRegs.ite {c : Prop} [Decidable c] (ht : OnlyRegs s t ks) (hu : OnlyRegs s u ks) :
    OnlyRegs s (if c then t else u) ks := by
  split <;> assumption

theorem OnlyRegs.each {α : Type} {f : State → α → State} {xs : List α} (s : State)
    (hf : ∀ x ∈ xs, ∀ t, OnlyRegs t (f t x) ks) : OnlyRegs s (s.each xs f) ks := by
  induction xs generalizing s with
  | nil => exact .refl s ks
  | cons x xs ih =>
    exact (hf x List.mem_cons_self s).trans (ih _ fun y hy => hf y (List.mem_cons_of_mem x hy))

theorem rd_clearRegs (s : State) (b : Block) (os : List Nat) (k : Nat) :
    (s.clearRegs b os).rd k = if k ∈ os.map (regKey b) then 0 else s.rd k := by
  induction os generalizing s with
  | nil => rfl
  | cons o os ih =>
    simp only [State.clearRegs, ih, rd_wr, List.map_cons, List.mem_cons]
    by_cases hm : k ∈ os.map (regKey b) <;> by_cases ho : k = regKey b o <;> simp [hm, ho]

theorem clearRegs_frame (s : State) (b : Block) (os : List Nat) :
    s.clearRegs b os = { s with regs := (s.clearRegs b os).regs } := by
  induction os generalizing s with
  | nil => rfl
  | cons o os ih => exact ih (s.wr (regKey b o) 0)

/-- cnt_clear writes zero to the counters of its block (R73). -/
theorem clearCounters_onlyRegs (s : State) (b : Block) :
    OnlyRegs s (s.clearCounters b) ((counterOffsets b).map (regKey b)) :=
  ⟨clearRegs_frame .., fun _ hk => (rd_clearRegs ..).trans (if_neg hk)⟩

theorem rd_clearCounters (s : State) {b : Block} {off : Nat} (h : off ∈ counterOffsets b) :
    (s.clearCounters b).rd (regKey b off) = 0 :=
  (rd_clearRegs ..).trans (if_pos (List.mem_map_of_mem h))

/-! ### Reads -/

/-- What a read may change: holding registers, the calendar clock and the error log, and the free values drawn. -/
def ReadsOnly (s t : State) : Prop := t = { s with regs := t.regs, free := t.free }

theorem ReadsOnly.trans (h : ReadsOnly s t) (h' : ReadsOnly t u) : ReadsOnly s u :=
  Eq.trans h' (congrArg (fun x : State => { x with regs := u.regs, free := u.free }) h)

theorem OnlyRegs.readsOnly (h : OnlyRegs s t ks) : ReadsOnly s t :=
  h.1.trans (congrArg (fun x : State => { s with regs := t.regs, free := x.free }) h.1).symm

theorem ReadsOnly.mem_eq (h : ReadsOnly s t) : t.mem = s.mem := (congrArg State.mem h).trans rfl

theorem ReadsOnly.out_eq (h : ReadsOnly s t) : t.out = s.out := (congrArg State.out h).trans rfl

theorem now_readsOnly (s : State) : ReadsOnly s s.now.2 := by
  unfold State.now
  dsimp only
  split <;> rfl

theorem readReg_readsOnly (s : State) (b : Block) (off : Nat) : ReadsOnly s (s.readReg b off).2 := by
  cases b
  case rtc =>
    unfold State.readReg
    dsimp only
    split
    · exact (now_readsOnly s).trans rfl
    · split <;> rfl
  all_goals rfl

theorem readHeld_readsOnly (s : State) (b : Block) (off : Nat) : ReadsOnly s (s.readHeld b off).2 := by
  unfold State.readHeld
  split
  · exact ((readReg_readsOnly s b off).trans (readReg_readsOnly _ b (off + 4))).trans rfl
  · split
    · rfl
    · exact readReg_readsOnly s b off

/-! ### The error log -/

/-- The counter of the error log that an access of a kind raises (R4, R6, R9, R10). -/
def logCount (kind : Nat) : Nat :=
  hifReg (if (if kind = 3 then 0 else kind) = 0 then Reg.HIF_BAD_ACCESS_COUNT
    else if (if kind = 3 then 0 else kind) = 1 then Reg.HIF_RESERVED_ACCESS_COUNT else Reg.HIF_DEAD_ACCESS_COUNT)

theorem logAccess_eq (s : State) (kind : Nat) (bar2 : Bool) (off : Nat) :
    ∃ (i : Nat) (c : Prop) (_ : Decidable c) (v : Word), s.logAccess kind bar2 off =
      if c then ((s.setFlag (hifReg Reg.HIF_ERR_FLAGS) i).bump (logCount kind) 1).wr (hifReg Reg.HIF_ERR_INFO) v
      else (s.setFlag (hifReg Reg.HIF_ERR_FLAGS) i).bump (logCount kind) 1 := ⟨_, _, _, _, rfl⟩

theorem logAccess_onlyRegs (s : State) (kind : Nat) (bar2 : Bool) (off : Nat) :
    OnlyRegs s (s.logAccess kind bar2 off) [logCount kind, hifReg Reg.HIF_ERR_FLAGS, hifReg Reg.HIF_ERR_INFO] := by
  obtain ⟨i, c, _, v, e⟩ := logAccess_eq s kind bar2 off
  rw [e]
  have h : OnlyRegs s ((s.setFlag (hifReg Reg.HIF_ERR_FLAGS) i).bump (logCount kind) 1)
      [logCount kind, hifReg Reg.HIF_ERR_FLAGS, hifReg Reg.HIF_ERR_INFO] :=
    (OnlyRegs.wr s _ _ (by simp)).trans (.wr _ _ _ (by simp))
  exact .ite (h.trans (.wr _ _ v (by simp))) h

theorem logCount_ne (kind : Nat) :
    logCount kind ≠ hifReg Reg.HIF_ERR_FLAGS ∧ logCount kind ≠ hifReg Reg.HIF_ERR_INFO := by
  unfold logCount
  split_ifs <;> decide

theorem rd_logAccess_count (s : State) (kind : Nat) (bar2 : Bool) (off : Nat) :
    (s.logAccess kind bar2 off).rd (logCount kind) = s.rd (logCount kind) + 1 := by
  obtain ⟨hf, hi⟩ := logCount_ne kind
  obtain ⟨i, c, _, v, e⟩ := logAccess_eq s kind bar2 off
  have h : ((s.setFlag (hifReg Reg.HIF_ERR_FLAGS) i).bump (logCount kind) 1).rd (logCount kind) =
      s.rd (logCount kind) + 1 := by rw [rd_bump_same, rd_setFlag_ne s i hf]; rfl
  rw [e]
  split
  · rw [rd_wr_ne _ _ hi, h]
  · exact h

/-! ### Words of a request -/

theorem readLanded_readsOnly (s : State) (x : Landed) (bar2 : Bool) (a : Nat) :
    ReadsOnly s (s.readLanded x bar2 a).2 := by
  cases x with
  | hole => exact (logAccess_onlyRegs ..).readsOnly
  | send f hi => rfl
  | gap b off =>
    unfold State.readLanded
    dsimp only
    split <;> exact (logAccess_onlyRegs ..).readsOnly
  | reg b off =>
    unfold State.readLanded
    dsimp only
    split
    · exact readHeld_readsOnly s b off
    · exact (logAccess_onlyRegs ..).readsOnly

theorem readWords_readsOnly (s : State) (land : State → Nat → Landed) (bar2 : Bool) (a n : Nat) :
    ReadsOnly s (s.readWords land bar2 a n).2 := by
  induction n generalizing s a with
  | zero => rfl
  | succ n ih => exact (readLanded_readsOnly ..).trans (ih ..)

theorem readWords_length (s : State) (land : State → Nat → Landed) (bar2 : Bool) (a n : Nat) :
    (s.readWords land bar2 a n).1.length = n := by
  induction n generalizing s a with
  | zero => rfl
  | succ n ih => exact congrArg (· + 1) (ih ..)

theorem readWords_head (s : State) (land : State → Nat → Landed) (bar2 : Bool) (a : Nat) {n : Nat} (hn : 0 < n) :
    (s.readWords land bar2 a n).1.head? = some (s.readLanded (land s a) bar2 a).1 := by
  obtain ⟨m, rfl⟩ := Nat.exists_eq_add_of_lt hn
  rfl

/-! ### Accesses of function 0 -/

theorem bar0Do_next {off : Nat} {go ur : State → State} (hr : s.fnReach 0 = true) (hd : (s.fnAt 0).d3hot = false) :
    s.bar0Do off go ur = .next (go s) := by
  simp [State.bar0Do, hr, hd]

theorem execCounterLoRead_bar0 {a size : Nat} (ha : a < 0x4000000) (hr : s.fnReach 0 = true)
    (hd : (s.fnAt 0).d3hot = false) :
    exec (.counterLoRead (.bar0 a size)) s = .next (if goodSize a size then
      (s.readWords (fun _ a => landBar0 a) false a (size / 4)).2.emit
        (.regData (.bar0 a size) (some (s.readWords (fun _ a => landBar0 a) false a (size / 4)).1))
      else (s.logAccess 0 false a).emit (.regData (.bar0 a size) none)) :=
  (if_neg (Nat.not_le.2 ha)).trans (bar0Do_next hr hd)

theorem execRegisterWrite_bar0 {a size : Nat} {ws : List Word} (ha : a < 0x4000000) (hr : s.fnReach 0 = true)
    (hd : (s.fnAt 0).d3hot = false)
    (ho : goodSize a size = true → ∀ x ∈ (sized size ws).zipIdx, (landBar0 (a + 4 * x.2)).own x.1 = false) :
    exec (.registerWrite (.bar0 a size) ws) s = .next (if goodSize a size then
      s.writeWords (fun _ a => landBar0 a) false a (sized size ws) else s.logAccess 0 false a) := by
  have hc : (decide (0x4000000 ≤ a) ||
      (goodSize a size && (sized size ws).zipIdx.any fun x => (landBar0 (a + 4 * x.2)).own x.1)) = false := by
    cases hg : goodSize a size with
    | false => simp [ha]
    | true => simpa [ha] using ho hg
  exact (if_neg (by rw [hc]; exact Bool.false_ne_true)).trans (bar0Do_next hr hd)

/-- One aligned word read, by where it lands. -/
theorem execCounterLoRead_word {a : Nat} (ha : a < 0x4000000) (h4 : a % 4 = 0) (hr : s.fnReach 0 = true)
    (hd : (s.fnAt 0).d3hot = false) :
    exec (.counterLoRead (.bar0 a 4)) s = .next ((s.readLanded (landBar0 a) false a).2.emit
      (.regData (.bar0 a 4) (some [(s.readLanded (landBar0 a) false a).1]))) :=
  (execCounterLoRead_bar0 ha hr hd).trans (by rw [if_pos (by simp [goodSize, h4])]; rfl)

/-- One aligned word written, by where it lands. -/
theorem execRegisterWrite_word {a : Nat} {w : Word} (ha : a < 0x4000000) (h4 : a % 4 = 0) (hr : s.fnReach 0 = true)
    (hd : (s.fnAt 0).d3hot = false) (ho : (landBar0 a).own w = false) :
    exec (.registerWrite (.bar0 a 4) [w]) s = .next (s.writeLanded (landBar0 a) false a w) := by
  rw [execRegisterWrite_bar0 ha hr hd (by simpa [sized] using fun _ => ho), if_pos (by simp [goodSize, h4])]
  rfl
end

/-- A read that is logged answers its word, and changes the error log alone. -/
theorem completes_of_logged_read {s : State} {kind a size : Nat} {ws : Option (List Word)} :
    Completes (.next ((s.logAccess kind false a).emit (.regData (.bar0 a size) ws))) fun t =>
      t.out = s.out ++ [.regData (.bar0 a size) ws] ∧ t.rd (logCount kind) = s.rd (logCount kind) + 1 ∧
      t = { s with regs := t.regs, out := t.out } ∧
      RegsKept s t [logCount kind, hifReg Reg.HIF_ERR_FLAGS, hifReg Reg.HIF_ERR_INFO] := by
  obtain ⟨hframe, hkept⟩ := logAccess_onlyRegs s kind false a
  refine ⟨_, rfl, ?_, rd_logAccess_count s kind false a, ?_, hkept⟩
  · rw [emit_out, hframe]
  · exact congrArg (fun x : State => { x with
      out := (s.logAccess kind false a).out ++ [Output.regData (.bar0 a size) ws] }) hframe

/-- A write that is logged changes the error log alone. -/
theorem completes_of_logged_write {s : State} {kind a : Nat} :
    Completes (.next (s.logAccess kind false a)) fun t =>
      t.rd (logCount kind) = s.rd (logCount kind) + 1 ∧
      OnlyRegs s t [logCount kind, hifReg Reg.HIF_ERR_FLAGS, hifReg Reg.HIF_ERR_INFO] :=
  ⟨_, rfl, rd_logAccess_count s kind false a, logAccess_onlyRegs s kind false a⟩

/-- Settles O12: a word in reserved space is logged as kind 1, and nothing else. -/
theorem reservedSpaceReadsZero : Obligations.ReservedSpaceReadsZero := by
  intro a w s hl ha h4 hr hd
  rw [execCounterLoRead_word ha h4 hr hd, execRegisterWrite_word ha h4 hr hd (by rw [hl]; rfl), hl]
  exact ⟨completes_of_logged_read (kind := 1), completes_of_logged_write (kind := 1)⟩

/-- A field whose own command stands for its write belongs to a block that always runs. -/
theorem own_eq_false_of_not_live {s : State} {b : Block} {off : Nat} (h : s.blockLive b off = false) (w : Word) :
    (Landed.reg b off).own w = false := by
  cases b
  case page => cases h
  case twn => cases h
  all_goals rfl

/-- Settles O13: a word in a domain that does not run is logged as kind 2, and nothing else. -/
theorem deadDomainReadsOnes : Obligations.DeadDomainReadsOnes := by
  intro a off b w s hl hb ha h4 hr hd
  have hread : s.readLanded (landBar0 a) false a = (0xFFFFFFFF, s.logAccess 2 false a) := by
    rw [hl]
    exact if_neg (by simp [hb])
  have hwrite : s.writeLanded (landBar0 a) false a w = s.logAccess 2 false a := by
    rw [hl]
    exact if_neg (by simp [hb])
  rw [execCounterLoRead_word ha h4 hr hd,
    execRegisterWrite_word ha h4 hr hd (by rw [hl]; exact own_eq_false_of_not_live hb w), hread, hwrite]
  exact ⟨completes_of_logged_read (kind := 2), completes_of_logged_write (kind := 2)⟩

/-- Settles O14: a misshapen request never reaches a register; it is logged as kind 0. -/
theorem misshapenAccessHasNoEffect : Obligations.MisshapenAccessHasNoEffect := by
  intro a size ws s hg ha hr hd
  have hn : ¬ goodSize a size = true := by simp [hg]
  rw [execCounterLoRead_bar0 ha hr hd, execRegisterWrite_bar0 ha hr hd fun h => absurd h hn, if_neg hn, if_neg hn]
  exact ⟨completes_of_logged_read (kind := 0), completes_of_logged_write (kind := 0)⟩

/-! ### Registers whose writes act by their access codes alone -/

/-- A write of a block that has no fields that act, but for cnt_clear. -/
theorem writeReg_plain {b : Block} {off : Nat} (hb : ((∃ d, b = .seq d ∨ b = .lga d) ∨ b = .rtc ∨ b = .fpl))
    (hc : ∀ o i, cntBit b = some (o, i) → o ≠ off) (s : State) (w : Word) (host : Bool) :
    s.writeReg b off w host = s.writePlain b off w := by
  rcases hb with ⟨d, rfl | rfl⟩ | rfl | rfl
  case inl.inr =>
    have hne : Reg.LGA_CTRL ≠ off := hc _ _ rfl
    simp [State.writeReg, cntBit, hne]
  all_goals rfl

theorem own_eq_false_of_plain {b : Block} (hb : ((∃ d, b = .seq d ∨ b = .lga d) ∨ b = .rtc ∨ b = .fpl)) (off : Nat)
    (w : Word) (host : Bool) : ownCommand b off w host = false := by
  rcases hb with ⟨d, rfl | rfl⟩ | rfl | rfl <;> rfl

theorem landBlock_of_findRow {b : Block} {off : Nat} {r : RegRow} (h : findRow b off = some r) :
    landBlock b off = .reg b off :=
  if_pos (.inr (by rw [h]; rfl))

theorem landBar0_of_findRow {a : Nat} {b : Block} {off : Nat} {r : RegRow} (ha : bar0Block a = some (b, off))
    (h : findRow b off = some r) : landBar0 a = .reg b off := by
  simp [landBar0, ha, landBlock_of_findRow h]

/-- A plain write leaves its register with the word that the access codes give. -/
theorem completes_of_writePlain {s : State} {b : Block} {off : Nat} {r : RegRow} (w : Word)
    (h : findRow b off = some r) :
    Completes (.next (s.writePlain b off w)) fun t =>
      OnlyRegs s t [regKey b off] ∧ t.rd (regKey b off) = r.written (s.rd (regKey b off)) w true := by
  have e : s.writePlain b off w = s.wr (regKey b off) (r.written (s.rd (regKey b off)) w true) := by
    rw [State.writePlain, h]
  exact ⟨_, rfl, e ▸ .wr s _ _ (List.mem_singleton_self _), e ▸ rd_wr_same s _ _⟩

/-- Settles O10: each access reaches the register it names and nothing beside it. -/
theorem registerAccessesComplete : Obligations.RegisterAccessesComplete := by
  refine ⟨?_, ?_, ?_, ?_, ?_⟩
  · intro b off r w s hb hf hc hl
    have hland : ¬ (landBlock b off = .hole ∨ ownCommand b off w false = true) := by
      simp [landBlock_of_findRow hf, own_eq_false_of_plain hb]
    have e : exec (.registerWrite (.net b off) [w]) s = .next (s.writePlain b off w) :=
      (if_neg hland).trans ((if_pos hl).trans (congrArg _ (writeReg_plain hb hc s w false)))
    exact e ▸ completes_of_writePlain w hf
  · intro b a off r w s hb hblk hf ha h4 hc hl hr hd
    have hland := landBar0_of_findRow hblk hf
    have hown : (landBar0 a).own w = false := by rw [hland]; exact own_eq_false_of_plain hb off w true
    have e : s.writeLanded (landBar0 a) false a w = s.writePlain b off w := by
      rw [hland]
      exact (if_pos hl).trans (writeReg_plain hb hc s w true)
    rw [execRegisterWrite_word ha h4 hr hd hown, e]
    exact completes_of_writePlain w hf
  · intro b off s hland hl
    have hread := readHeld_readsOnly s b off
    exact ⟨_, (if_neg hland).trans (if_pos hl), congrArg (· ++ _) hread.out_eq, hread.mem_eq⟩
  · intro a size s hg ha hr hd
    have hread := readWords_readsOnly s (fun _ a => landBar0 a) false a (size / 4)
    have hsize : 0 < size / 4 := by
      simp only [goodSize, Bool.and_eq_true, Bool.or_eq_true, beq_iff_eq] at hg
      omega
    rw [execCounterLoRead_bar0 ha hr hd, if_pos hg]
    exact ⟨_, rfl, _, readWords_length .., congrArg (· ++ _) hread.out_eq, hread.mem_eq, readWords_head _ _ _ _ hsize⟩
  · intro b o i s hc hl
    have e : exec (.cntClear b false) s = .next (s.clearCounters b) := by
      change execCntClear b false s = _
      simp [execCntClear, hc, hl]
    exact ⟨_, e, clearCounters_onlyRegs s b, fun off ho => rd_clearCounters s ho⟩

/-! ### Going down and starting afresh -/

theorem tget_filter {α : Type} (d : Nat → α) (q : Nat → Bool) (t : Table α) (k : Nat) :
    tget d (t.filter fun e => q e.1) k = if q k then tget d t k else d k := by
  induction t with
  | nil => simp [tget]
  | cons e t ih =>
    obtain ⟨i, v⟩ := e
    by_cases hq : q i = true <;> by_cases hk : k = i <;> grind [tget]

/-- The registers that a cold start writes after its reset: what the cables and the stored link mode show (R315). -/
def coldRegs : List Nat :=
  (List.range 12).map (fun p => lnkPort p Reg.LNK_P_STATE) ++ [hifReg Reg.HIF_STATUS, hifReg Reg.HIF_LINK_MODE]

/-- The state that keeps storage, pins, outputs, the queue, and of the registers the calendar clock's alone. -/
def State.restarted (s : State) : State :=
  { State.reset with regs := s.regs.filter outlives, nv := s.nv, board := s.board, pending := s.pending, out := s.out,
                     free := s.free }

theorem cold_onlyRegs (s : State) : OnlyRegs s.restarted s.cold coldRegs := by
  have hcable : OnlyRegs s.restarted (s.restarted.each ((List.range 12).filter fun p => s.portCable p)
      fun t p => t.wrFld (lnkPort p Reg.LNK_P_STATE) 21 21 1) coldRegs :=
    .each _ fun p hp t => .wr t _ _ (List.mem_append_left _ (List.mem_map_of_mem (List.mem_filter.1 hp).1))
  refine .ite ((hcable.trans (.wr _ _ _ ?_)).trans (.wr _ _ _ ?_)) hcable <;> simp [coldRegs]

theorem rd_restarted (s : State) (k : Nat) :
    s.restarted.rd k = if rtcReg 0 ≤ k ∧ k < rtcReg Reg.RTC_CAP_MV then s.rd k else regReset k := by
  have h := tget_filter regReset (fun k => decide (rtcReg 0 ≤ k) && decide (k < rtcReg Reg.RTC_CAP_MV)) s.regs k
  simp only [Bool.and_eq_true, decide_eq_true_eq] at h
  exact h

theorem cold_workLost (s : State) : WorkLost s.cold := by
  rw [(cold_onlyRegs s).1]
  simp only [WorkLost, State.restarted, State.reset, and_self]

theorem not_mem_coldRegs {k : Nat} (h1 : k ≠ hifReg Reg.HIF_STATUS) (h2 : k ≠ hifReg Reg.HIF_LINK_MODE)
    (h3 : ∀ p < 12, k ≠ lnkPort p Reg.LNK_P_STATE) : k ∉ coldRegs := by
  simp only [coldRegs, List.mem_append, List.mem_map, List.mem_range, List.mem_cons, List.not_mem_nil]
  rintro (⟨p, hp, rfl⟩ | rfl | rfl | h)
  exacts [h3 p hp rfl, h1 rfl, h2 rfl, h]

/-- The keys that a cold start writes lie outside the calendar clock. -/
theorem coldRegs_not_rtc : ∀ k ∈ coldRegs, ¬ (rtcReg 0 ≤ k ∧ k < rtcReg Reg.RTC_CAP_MV) := by decide

/-- Settles O16: a cold start is the reset state with what outlives it, and writes only the keys it names. -/
theorem releaseOfPerstStartsAfresh : Obligations.ReleaseOfPerstStartsAfresh := by
  intro s hp hg
  obtain ⟨hframe, hkept⟩ := cold_onlyRegs s
  have e : exec .perstRelease s = .next (s.cold.setBoard { s.board with perst := false, held := false }) := by
    change execPerstRelease s = _
    simp [execPerstRelease, hp, hg]
  refine ⟨_, e, rfl, cold_workLost s, ?_, ?_, ?_, ?_, ?_⟩
  · exact (congrArg State.nv hframe).trans rfl
  · exact (congrArg State.out hframe).trans rfl
  · exact (congrArg State.pending hframe).trans rfl
  · intro k hrtc h1 h2 h3
    exact (hkept k (not_mem_coldRegs h1 h2 h3)).trans ((rd_restarted s k).trans (if_neg hrtc))
  · intro k hlo hhi
    have hk : k ∉ coldRegs := fun h => coldRegs_not_rtc k h ⟨hlo, hhi⟩
    exact (hkept k hk).trans ((rd_restarted s k).trans (if_pos ⟨hlo, hhi⟩))

end Sys2Proof.Machine
end

section
/-! SUPPORT. The pins and the references: what a cut write leaves, what each way of going down leaves, the calendar
clock when its capacitor is low, and the loss of the reference under the twin port. -/

namespace Sys2Proof.Machine

section
variable {s t : State} {c : Nat}

/-! ### Going down -/

/-- What was being written when the module went down leaves its mark in storage alone (R369, R391). -/
theorem cutShort_frame (s : State) (cut : Cut) :
    s.cutShort cut = { s with nv := (s.cutShort cut).nv, free := (s.cutShort cut).free } := by
  cases cut with
  | clean => rfl
  | fieldFuse => rfl
  | owner good => cases good <;> rfl

@[simp] theorem cutShort_board (s : State) (cut : Cut) : (s.cutShort cut).board = s.board :=
  (congrArg State.board (cutShort_frame s cut)).trans rfl

/-- A cut write is no entry of the fault log. -/
theorem cutShort_log (s : State) (cut : Cut) : (s.cutShort cut).nv.log = s.nv.log := by
  cases cut with
  | clean => rfl
  | fieldFuse => rfl
  | owner good => cases good <;> rfl

@[simp] theorem cold_board (s : State) : s.cold.board = s.board :=
  (congrArg State.board (cold_onlyRegs s).1).trans rfl

@[simp] theorem cold_nv (s : State) : s.cold.nv = s.nv :=
  (congrArg State.nv (cold_onlyRegs s).1).trans rfl

theorem stop_board (s : State) : s.stop.board = s.board := by
  unfold State.stop
  split
  · rfl
  · exact cold_board s

theorem stop_nv (s : State) : s.stop.nv = s.nv := by
  unfold State.stop
  split
  · rfl
  · exact cold_nv s

theorem stop_workLost (h : s.board.held = false) : WorkLost s.stop := by
  rw [State.stop, if_neg (by simp [h])]
  exact cold_workLost s

/-- Pins and storage are no work in flight. -/
theorem WorkLost.setPinsAndStorage (h : WorkLost t) (b : Pins) (v : Stored) : WorkLost { t with board := b, nv := v } := h

/-- The module stops after a cut write, and its pins change. -/
theorem completes_of_stop (s : State) (cut : Cut) (b : Pins) :
    Completes (.next ((s.cutShort cut).stop.setBoard b)) fun t =>
      t.board = b ∧ (s.board.held = false → WorkLost t) :=
  ⟨_, rfl, rfl, fun h => (stop_workLost (by rw [cutShort_board, h])).setPinsAndStorage b _⟩

/-- A lockout stops the module, turns its rails off and goes into the fault log (R16). -/
theorem completes_of_lockout (s : State) (cut : Cut) (hc : c < 3) :
    Completes (.next ((s.cutShort cut).shutdown c 0)) fun t =>
      t.board = { s.board with rails := false, pwrgd := false, fault := true, held := true, latched := false } ∧
      t.nv.log = s.nv.log ++ [c] ∧ (s.board.held = false → WorkLost t) := by
  refine ⟨_, rfl, ?_, ?_, fun h => ?_⟩
  · have hlatch : decide (3 ≤ c) = false := by simp [hc]
    simp [State.shutdown, State.logShutdown, stop_board, hlatch]
  · simp [State.shutdown, State.logShutdown, stop_nv, cutShort_log]
  · exact (stop_workLost (by rw [cutShort_board, h])).setPinsAndStorage _ _

/-! ### The calendar clock stops (R21) -/

theorem rd64_lt (s : State) (k : Nat) : s.rd64 k < 2 ^ 64 := by
  have h0 := rdN_lt s k
  have h4 := rdN_lt s (k + 4)
  simp only [State.rd64]
  omega

theorem rd64_wr64 (s : State) (k : Nat) {v : Nat} (h : v < 2 ^ 64) : (s.wr64 k v).rd64 k = v := by
  have hlo : (s.wr64 k v).rdN k = v % 2 ^ 32 := by
    rw [State.rdN, wr64_eq, rd_wr_ne _ _ (by omega), rd_wr_same, BitVec.toNat_ofNat]
  have hhi : (s.wr64 k v).rdN (k + 4) = v / 2 ^ 32 % 2 ^ 32 := by
    rw [State.rdN, wr64_eq, rd_wr_same, BitVec.toNat_ofNat]
  rw [State.rd64, hlo, hhi]
  omega

theorem now_lt (s : State) : s.now.1 < 2 ^ 64 := by
  unfold State.now
  dsimp only
  split
  · exact Nat.mod_lt _ (by decide)
  · exact rd64_lt s _

/-- A time that is shown draws at most a free value. -/
theorem now_regs (s : State) : s.now.2.regs = s.regs := by
  unfold State.now
  dsimp only
  split <;> rfl

/-- A clock that has stopped stands at the time it shows. -/
theorem now_of_stopped (h : s.rbit (rtcReg Reg.RTC_STATUS) 30 = false) : s.now = (s.rd64 (rtcReg Reg.RTC_TIME), s) := by
  simp [State.now, h]

/-- The clock stopped at the time it shows, its running and valid bits clear. -/
def State.clockStopped (s : State) : State :=
  (s.now.2.wr64 (rtcReg Reg.RTC_TIME) s.now.1).wrFld (rtcReg Reg.RTC_STATUS) 31 30 0

theorem exec_capacitorLow (s : State) : exec .capacitorLow s = .next s.clockStopped := rfl

theorem clockStopped_rbit (s : State) {i : Nat} (h30 : 30 ≤ i) (h31 : i ≤ 31) :
    s.clockStopped.rbit (rtcReg Reg.RTC_STATUS) i = false := by
  rw [State.clockStopped, rbit_wrFld _ _ _ _ _ _ (by decide) (by decide), if_pos ⟨h30, h31⟩, Nat.zero_testBit]

theorem clockStopped_rd64 (s : State) : s.clockStopped.rd64 (rtcReg Reg.RTC_TIME) = s.now.1 := by
  have hlo : rtcReg Reg.RTC_TIME ≠ rtcReg Reg.RTC_STATUS := by decide
  have hhi : rtcReg Reg.RTC_TIME + 4 ≠ rtcReg Reg.RTC_STATUS := by decide
  rw [State.clockStopped, State.rd64, rdN_wrFld_ne _ _ _ _ hlo, rdN_wrFld_ne _ _ _ _ hhi]
  exact rd64_wr64 _ _ (now_lt s)

/-- Beside the free value that a reading draws, the clock's time and status alone change. -/
theorem clockStopped_onlyRegs (s : State) :
    OnlyRegs s.now.2 s.clockStopped [rtcReg Reg.RTC_TIME, rtcReg (Reg.RTC_TIME + 4), rtcReg Reg.RTC_STATUS] :=
  ((OnlyRegs.wr _ (rtcReg Reg.RTC_TIME) _ (by simp)).trans (.wr _ (rtcReg (Reg.RTC_TIME + 4)) _ (by simp))).trans
    (.wr _ (rtcReg Reg.RTC_STATUS) _ (by simp))
end

/-- Settles O15: each way down is a cut write, a stop and new pins, with a lockout in the fault log; the calendar clock
stands once its running bit is clear. -/
theorem pinsAndSupplyComplete : Obligations.PinsAndSupplyComplete := by
  refine ⟨?_, ?_, ?_, ?_, ?_, ?_, ?_, ?_, ?_, ?_⟩
  · intro cut s hp hcut
    have e : exec (.perstAssert cut) s = .next ((if s.board.held then s else (s.cutShort cut).cold).setBoard
        { s.board with perst := true, held := true }) := if_neg (by simp [hp, hcut])
    refine ⟨_, e, rfl, fun hheld => ?_⟩
    rw [if_neg (by simp [hheld])]
    exact (cold_workLost _).setPinsAndStorage _ _
  · intro s hg hd hl
    exact if_neg (by simp [hg, hd, hl])
  · intro cut s hg hcut
    have e : exec (.pwrgdFall cut) s = .next ((s.cutShort cut).stop.setBoard
        { s.board with pwrgd := false, held := true }) := if_neg (by simp [hg, hcut])
    exact e ▸ completes_of_stop s cut _
  · intro ms cut s hd hcut
    have e : exec (.pwrdisChange true ms cut) s = .next ((s.cutShort cut).stop.setBoard
        { s.board with pwrdis := true, pwrgd := false, rails := false, held := true }) :=
      (if_neg (by simp [hd, hcut])).trans (if_pos rfl)
    exact e ▸ completes_of_stop s cut _
  · intro ms s hd
    exact (if_neg (by simp [hd, State.canCut])).trans (if_neg Bool.false_ne_true)
  · intro cut s hr hcut
    have e : exec (.undervoltageLockout cut) s = .next ((s.cutShort cut).shutdown 1 0) :=
      (if_neg (by simp [hcut])).trans (if_pos hr)
    exact e ▸ completes_of_lockout s cut (by decide)
  · intro cut s hr hcut
    have e : exec (.undervoltageLockout cut) s = .next ((s.setBoard { s.board with latched := false }).logShutdown 1) :=
      (if_neg (by simp [hcut])).trans (if_neg (by simp [hr]))
    exact ⟨_, e, rfl, rfl⟩
  · intro cut s hr hcut
    have e : exec (.overvoltageShutdown cut) s = .next ((s.cutShort cut).shutdown 2 0) :=
      (if_neg (by simp [hcut])).trans (if_pos hr)
    exact e ▸ completes_of_lockout s cut (by decide)
  · intro cut s hr hcut
    have e : exec (.overvoltageShutdown cut) s = .next (s.logShutdown 2) :=
      (if_neg (by simp [hcut])).trans (if_neg (by simp [hr]))
    exact ⟨_, e, rfl, rfl⟩
  · intro s
    have honly := clockStopped_onlyRegs s
    have hstopped := clockStopped_rbit s (i := 30) (by decide) (by decide)
    refine ⟨_, exec_capacitorLow s, (now_readsOnly s).trans honly.readsOnly,
      fun k hk => (honly.2 k hk).trans (rd_congr (now_regs s) k), clockStopped_rd64 s,
      clockStopped_rbit s (by decide) (by decide), hstopped, ?_⟩
    rw [now_of_stopped hstopped, clockStopped_rd64]

/-! ### The reference is lost under the twin port (R303, R400, R405) -/

/-- Job 0, of a mirrored ring, running on the bays of quarter 0. -/
def mirroredJob : Job :=
  { phase := .running, ent := ⟨0, 0, 0, 0, false, 0, 0, false, none, 0⟩, cls := 1, part := 0, image := 0x10000
    handle := none, mirrored := true, hdr := ⟨3, 1, 4096, 0, 0, 64, 0, 0, 0, 0, 0⟩, placed := [0], status := 0
    detail := 0, recordsAccepted := 0, failAddr := 0, bound := 0, digits := 0, sats := 0, events := 0, pcrs := []
    arrivals := [], released := [], ended := [], started := true, resumed := false, rerun := false, heldTwin := false
    loads := [], plan := [], bubbles := [], vecDone := [], vecEnding := [], satMarks := [], saved := [], again := false }

/-- A protected pair over port 0, which is up on a reference that is there, and the mirrored job at work. -/
def twinAtWork : State :=
  { (((State.reset.wr (lnkReg 0 Reg.LNK_STATUS) 0x1000).wr (lnkPort 0 Reg.LNK_P_CTRL) 1).wr
      (lnkPort 0 Reg.LNK_P_STATE) 0x50200000).wr (twnReg Reg.TWN_STATUS) 0x20000000 with
    jobs := [(0, mirroredJob)], bays := [(0, { BaySeq.init with job := some 0, running := true })] }

/-- The partner is lost with the port, so the job is pre-empted, and its tiles are told to stop. -/
theorem refLoss_preempts_mirrored_job :
    Completes (exec .refLoss twinAtWork) fun t => (twinAtWork.mtxAt 0).preempt = false ∧ (t.mtxAt 0).preempt = true :=
  ⟨_, rfl, rfl, by decide +kernel⟩

/-- Refutes O17: the loss of the 156.25 MHz reference takes the twin port down, the pair is lost, and the pre-emption
of the running mirrored job (R405) reaches its matrix tiles, which the second clause has unchanged. -/
theorem not_referenceClocksComplete : ¬ Obligations.ReferenceClocksComplete := by
  intro ⟨_, hloss, _⟩
  obtain ⟨t, ht, _, _, hmtx, _⟩ := hloss twinAtWork rfl
  obtain ⟨u, hu, hbefore, hafter⟩ := refLoss_preempts_mirrored_job
  have htu : u = t := Host.Outcome.next.inj (hu.symm.trans ht)
  have hsame : t.mtxAt 0 = twinAtWork.mtxAt 0 := by rw [State.mtxAt, State.mtxAt, hmtx]
  rw [htu, hsame, hbefore] at hafter
  exact Bool.false_ne_true hafter

end Sys2Proof.Machine
end

section
/-! SUPPORT. Digit planes: what the upper pairs of a number make (R27), and with it the column partial (R28), the planes
a vector skips (R33) and what the planes after a stop would add (R35). -/

namespace Sys2Proof.Machine

/-! ### One number and its digits (R27) -/

theorem intBit_cases (x : Int) (j : Nat) : intBit x j = 0 ∨ intBit x j = 1 := Int.emod_two_eq_zero_or_one _

theorem ediv_two_pow_eq (x : Int) (j : Nat) : x / 2 ^ j = 2 * (x / 2 ^ (j + 1)) + intBit x j := by
  rw [intBit, pow_succ, ← Int.ediv_ediv_of_nonneg (by positivity), Int.mul_ediv_add_emod]

theorem natAbs_digit_le (x : Int) (i : Nat) : (digit x i).natAbs ≤ 2 := by
  have hhigh := intBit_cases x (2 * i + 1)
  have hmid := intBit_cases x (2 * i)
  have hlow := intBit_cases x (2 * i - 1)
  unfold digit
  split <;> omega

/-- What the digits of the pairs from i on make, in units of 4^i: the bits from 2i on, and the bit below them. -/
def upperPart (x : Int) (i : Nat) : Int := x / 2 ^ (2 * i) + (if i = 0 then 0 else intBit x (2 * i - 1))

@[simp] theorem upperPart_zero (x : Int) : upperPart x 0 = x := by simp [upperPart]

/-- One pair more: the digits of a number recode it, by Horner's rule. -/
theorem upperPart_eq (x : Int) (i : Nat) : upperPart x i = 4 * upperPart x (i + 1) + digit x i := by
  have hmid := ediv_two_pow_eq x (2 * i)
  have hhigh := ediv_two_pow_eq x (2 * i + 1)
  unfold upperPart digit
  rw [if_neg i.succ_ne_zero, show 2 * (i + 1) = 2 * i + 1 + 1 by omega, Nat.add_sub_cancel]
  omega

/-- Nothing lies above the lowest i pairs just where the number lies in the two's-complement range of 2i bits. -/
theorem upperPart_eq_zero_iff {i : Nat} (hi : 0 < i) (x : Int) :
    upperPart x i = 0 ↔ -(2 ^ (2 * i - 1) : Int) ≤ x ∧ x < 2 ^ (2 * i - 1) := by
  have hbits := ediv_two_pow_eq x (2 * i - 1)
  have hlow := intBit_cases x (2 * i - 1)
  have hge := Int.le_ediv_iff_mul_le (a := -1) (b := x) (show (0 : Int) < 2 ^ (2 * i - 1) by positivity)
  have hlt := Int.ediv_lt_iff_lt_mul (a := x) (b := 1) (show (0 : Int) < 2 ^ (2 * i - 1) by positivity)
  rw [Nat.sub_add_cancel (by omega)] at hbits
  unfold upperPart
  rw [if_neg hi.ne']
  omega

theorem upperPart_eq_zero_iff_succ (x : Int) (i : Nat) :
    upperPart x i = 0 ↔ upperPart x (i + 1) = 0 ∧ digit x i = 0 := by
  have hhorner := upperPart_eq x i
  have hdigit := natAbs_digit_le x i
  omega

/-- In a number of n digits, the parts above the lower pairs are zero just as long as the leading planes are. -/
theorem upperPart_sub_eq_zero_iff {n : Nat} {x : Int} (hx : upperPart x n = 0) {z : Nat} (hz : z ≤ n) :
    upperPart x (n - z) = 0 ↔ ∀ p < z, planeDigit n x p = 0 := by
  induction z with
  | zero => simpa using hx
  | succ z ih =>
    have hpair : n - (z + 1) + 1 = n - z := by omega
    rw [upperPart_eq_zero_iff_succ, hpair, ih (by omega), Nat.forall_lt_succ_right, planeDigit, Nat.sub_sub,
      Nat.add_comm 1]

/-! ### Sums over the rows (R28) -/

/-- Σ w · f(x) over the rows, w and x paired row by row. -/
def rowSum (ws xs : List Int) (f : Int → Int) : Int := (List.zipWith (fun w x => w * f x) ws xs).foldl (· + ·) 0

theorem rowSum_cons (w x : Int) (ws xs : List Int) (f : Int → Int) :
    rowSum (w :: ws) (x :: xs) f = w * f x + rowSum ws xs f := by
  simp only [rowSum, ← List.sum_eq_foldl, List.zipWith_cons_cons, List.sum_cons]

theorem rowSum_nil_left (xs : List Int) (f : Int → Int) : rowSum [] xs f = 0 := rfl

theorem rowSum_nil_right (ws : List Int) (f : Int → Int) : rowSum ws [] f = 0 := by simp [rowSum]

theorem rowSum_add_mul (ws xs : List Int) (f g : Int → Int) (a : Int) :
    rowSum ws xs (fun x => a * f x + g x) = a * rowSum ws xs f + rowSum ws xs g := by
  induction ws generalizing xs with
  | nil => simp [rowSum_nil_left]
  | cons w ws ih =>
    cases xs with
    | nil => simp [rowSum_nil_right]
    | cons x xs => simp only [rowSum_cons, ih]; ring

theorem foldl_natAbs_cons (w : Int) (ws : List Int) :
    (w :: ws).foldl (fun a w => a + w.natAbs) 0 = w.natAbs + ws.foldl (fun a w => a + w.natAbs) 0 := by
  simp only [← List.foldl_map (f := Int.natAbs) (g := (· + ·)), ← List.sum_eq_foldl, List.map_cons, List.sum_cons]

/-- A sum over the rows stays within the magnitude sum of the stationary values (R35) times a bound of each row. -/
theorem natAbs_rowSum_le {xs : List Int} {f : Int → Int} {B : Nat} (h : ∀ x ∈ xs, (f x).natAbs ≤ B) (ws : List Int) :
    (rowSum ws xs f).natAbs ≤ ws.foldl (fun a w => a + w.natAbs) 0 * B := by
  induction ws generalizing xs with
  | nil => simp [rowSum_nil_left]
  | cons w ws ih =>
    cases xs with
    | nil => simp [rowSum_nil_right]
    | cons x xs =>
      obtain ⟨hx, hxs⟩ := List.forall_mem_cons.1 h
      rw [rowSum_cons, foldl_natAbs_cons, Nat.add_mul]
      calc (w * f x + rowSum ws xs f).natAbs
        _ ≤ w.natAbs * (f x).natAbs + (rowSum ws xs f).natAbs := by
          rw [← Int.natAbs_mul]; exact Int.natAbs_add_le _ _
        _ ≤ _ := Nat.add_le_add (Nat.mul_le_mul_left _ hx) (ih hxs)

theorem rowSum_eq_zero {xs : List Int} {f : Int → Int} (h : ∀ x ∈ xs, f x = 0) (ws : List Int) :
    rowSum ws xs f = 0 := by
  simpa using natAbs_rowSum_le (B := 0) (fun x hx => by simp [h x hx]) ws

/-- The partial after m of n planes is the sum over the parts of the moving values above the pairs still to come. -/
theorem partialSum_eq_rowSum {n : Nat} {xs : List Int} (hxs : ∀ x ∈ xs, upperPart x n = 0) (ws : List Int) {m : Nat}
    (hm : m ≤ n) : partialSum n ws xs m = rowSum ws xs (upperPart · (n - m)) := by
  induction m with
  | zero => exact (rowSum_eq_zero hxs ws).symm
  | succ m ih =>
    have hpair : n - m = n - 1 - m + 1 := by omega
    calc partialSum n ws xs (m + 1)
      _ = 4 * rowSum ws xs (upperPart · (n - m)) + rowSum ws xs (planeDigit n · m) := by
        rw [← ih (by omega)]; rfl
      _ = rowSum ws xs (fun x => 4 * upperPart x (n - m) + planeDigit n x m) := (rowSum_add_mul ..).symm
      _ = rowSum ws xs (upperPart · (n - (m + 1))) := by
        simp only [planeDigit, hpair, ← upperPart_eq, Nat.sub_sub, Nat.add_comm 1]

/-- Settles O31: after all planes nothing of a moving value is still to come. -/
theorem digitPlanesMakeTheProduct : Obligations.DigitPlanesMakeTheProduct := by
  intro n ws xs hn hfit
  rw [partialSum_eq_rowSum (fun x hx => (upperPart_eq_zero_iff hn x).2 (hfit x hx)) ws le_rfl, Nat.sub_self]
  simp only [upperPart_zero]
  rfl

/-! ### The planes after a stop (R35) -/

theorem tailBound_succ (t : Nat) : tailBound (t + 1) = tailBound t + 4 ^ t * 2 := by
  have hpos : 0 < 4 ^ t := by positivity
  have hmod : 4 ^ t % 3 = 1 := by simp [Nat.pow_mod]
  unfold tailBound
  omega

/-- The lowest t digits, each of magnitude at most 2, make at most tail(t). -/
theorem natAbs_sub_upperPart_le (x : Int) (t : Nat) : (x - 4 ^ t * upperPart x t).natAbs ≤ tailBound t := by
  induction t with
  | zero => simp
  | succ t ih =>
    have hsplit : x - 4 ^ (t + 1) * upperPart x (t + 1) = (x - 4 ^ t * upperPart x t) + 4 ^ t * digit x t := by
      rw [upperPart_eq x t]; ring
    calc (x - 4 ^ (t + 1) * upperPart x (t + 1)).natAbs
      _ ≤ (x - 4 ^ t * upperPart x t).natAbs + (4 ^ t * digit x t : Int).natAbs := hsplit ▸ Int.natAbs_add_le _ _
      _ = (x - 4 ^ t * upperPart x t).natAbs + 4 ^ t * (digit x t).natAbs := by
        rw [Int.natAbs_mul, Int.natAbs_pow]; rfl
      _ ≤ tailBound t + 4 ^ t * 2 := Nat.add_le_add ih (Nat.mul_le_mul_left _ (natAbs_digit_le x t))
      _ = tailBound (t + 1) := (tailBound_succ t).symm

/-- Settles O32: the planes still to come hold the lowest t digits of every moving value. -/
theorem stoppedPartialStaysWithinTail : Obligations.StoppedPartialStaysWithinTail := by
  intro n t ws xs hn ht hfit
  have hpartial := partialSum_eq_rowSum (fun x hx => (upperPart_eq_zero_iff hn x).2 (hfit x hx)) ws (Nat.sub_le n t)
  rw [Nat.sub_sub_self ht] at hpartial
  have hrest : rowSum ws xs (fun x => x) - 4 ^ t * partialSum n ws xs (n - t) =
      rowSum ws xs (fun x => -4 ^ t * upperPart x t + x) := by
    rw [rowSum_add_mul, hpartial]; ring
  change (rowSum ws xs (fun x => x) - _).natAbs ≤ _
  rw [hrest]
  refine natAbs_rowSum_le (fun x _ => ?_) ws
  rw [neg_mul, neg_add_eq_sub]
  exact natAbs_sub_upperPart_le x t

/-! ### The planes skipped (R33) -/

theorem le_length_takeWhile_iff {α : Type} (q : α → Bool) (l : List α) {z : Nat} (hz : z ≤ l.length) :
    z ≤ (l.takeWhile q).length ↔ ∀ a ∈ l.take z, q a = true := by
  induction l generalizing z with
  | nil => simp_all
  | cons a l ih =>
    cases z with
    | zero => simp
    | succ z =>
      have hrest := ih (Nat.le_of_succ_le_succ hz)
      cases ha : q a with
      | false => simp [ha]
      | true => simp [ha, hrest]

theorem skipPlanes_le (n : Nat) (xs : List Int) : skipPlanes n xs ≤ n :=
  (List.takeWhile_sublist _).length_le.trans_eq List.length_range

theorem le_skipPlanes_iff {n z : Nat} (hz : z ≤ n) (xs : List Int) :
    z ≤ skipPlanes n xs ↔ ∀ x ∈ xs, ∀ p < z, planeDigit n x p = 0 := by
  rw [skipPlanes, le_length_takeWhile_iff _ _ (by simpa using hz), List.take_range, Nat.min_eq_left hz]
  simp only [List.mem_range, List.all_eq_true, decide_eq_true_eq]
  exact ⟨fun h x hx p hp => h p hp x hx, fun h p hp x hx => h x hx p hp⟩

/-- So many planes are skipped as leave nothing of any element above the pairs still to come. -/
theorem le_skipPlanes_iff_upperPart {n z : Nat} {xs : List Int} (hxs : ∀ x ∈ xs, upperPart x n = 0) (hz : z ≤ n) :
    z ≤ skipPlanes n xs ↔ ∀ x ∈ xs, upperPart x (n - z) = 0 :=
  (le_skipPlanes_iff hz xs).trans (forall₂_congr fun x hx => (upperPart_sub_eq_zero_iff (hxs x hx) hz).symm)

/-- Settles O33: the parts above the pairs still to come are zero in the planes skipped, and no longer. -/
theorem skippedPlanesAreExact : Obligations.SkippedPlanesAreExact := by
  intro n ws xs hn hfit
  have hxs : ∀ x ∈ xs, upperPart x n = 0 := fun x hx => (upperPart_eq_zero_iff hn x).2 (hfit x hx)
  have hle := skipPlanes_le n xs
  refine ⟨fun m hm => ?_, fun hskip x hx => ?_, fun z hz hrange => ?_⟩
  · rw [partialSum_eq_rowSum hxs ws (hm.trans hle)]
    exact rowSum_eq_zero ((le_skipPlanes_iff_upperPart hxs (hm.trans hle)).1 hm) ws
  · exact (upperPart_eq_zero_iff (by omega) x).1 ((le_skipPlanes_iff_upperPart hxs hle).1 le_rfl x hx)
  · exact (le_skipPlanes_iff_upperPart hxs hz.le).2 fun x hx => (upperPart_eq_zero_iff (by omega) x).2 (hrange x hx)

end Sys2Proof.Machine
end

section
/-! SUPPORT. Conversions round (R26, R42), and the accumulator's entries (R40, R58). -/

namespace Sys2Proof.Machine

/-! ### Rounding -/

/-- Rounding x · 2^−k to nearest; with k = 0 nothing is left over. -/
theorem roundPow_nearestEven_neg (x : Int) (k : Nat) :
    roundPow .nearestEven x (-k) =
      if 2 * (x % 2 ^ k) < 2 ^ k then x / 2 ^ k
      else if 2 ^ k < 2 * (x % 2 ^ k) then x / 2 ^ k + 1
      else if x / 2 ^ k % 2 = 0 then x / 2 ^ k else x / 2 ^ k + 1 := by
  cases k with
  | zero => simp [roundPow]
  | succ k => rw [roundPow, if_neg (by omega), neg_neg, Int.toNat_natCast]

theorem roundPow_towardZero_neg (x : Int) (k : Nat) : roundPow .towardZero x (-k) = x.tdiv (2 ^ k) := by
  cases k with
  | zero => simp [roundPow]
  | succ k => rw [roundPow, if_neg (by omega), neg_neg, Int.toNat_natCast]

theorem natAbs_roundPow_towardZero (x : Int) (k : Nat) : (roundPow .towardZero x (-k)).natAbs = x.natAbs / 2 ^ k := by
  rw [roundPow_towardZero_neg, Int.natAbs_tdiv, Int.natAbs_pow]; rfl

/-- How far the nearest integer lies from x · 2^−k, in units of 2^−k, and which of two it is. -/
theorem roundPow_nearestEven_dist (x : Int) (k : Nat) :
    2 * (roundPow .nearestEven x (-k) * 2 ^ k - x).natAbs ≤ 2 ^ k ∧
    (2 * (roundPow .nearestEven x (-k) * 2 ^ k - x).natAbs = 2 ^ k → roundPow .nearestEven x (-k) % 2 = 0) := by
  have hpos : (0 : Int) < 2 ^ k := by positivity
  have hcast : ((2 ^ k : Nat) : Int) = 2 ^ k := by push_cast; rfl
  have hrem := Int.emod_nonneg x hpos.ne'
  have hlt := Int.emod_lt_of_pos x hpos
  have hx := Int.ediv_mul_add_emod x (2 ^ k)
  have hdown : x / 2 ^ k * 2 ^ k - x = -(x % 2 ^ k) := by omega
  have hup : (x / 2 ^ k + 1) * 2 ^ k - x = 2 ^ k - x % 2 ^ k := by rw [add_mul]; omega
  rw [roundPow_nearestEven_neg]
  split
  · rw [hdown]; omega
  split
  · rw [hup]; omega
  split
  · rw [hdown]; omega
  · rw [hup]; omega

/-- Settles O34: rounding to nearest by the remainder, rounding toward zero by the quotient of the magnitudes. -/
theorem conversionsRound : Obligations.ConversionsRound := by
  intro x k
  obtain ⟨hhalf, heven⟩ := roundPow_nearestEven_dist x k
  refine ⟨hhalf, fun _ => heven, ?_, ?_, ?_⟩
  · rw [natAbs_roundPow_towardZero]
    exact Nat.div_mul_le_self ..
  · rw [natAbs_roundPow_towardZero]
    exact (Nat.div_lt_iff_lt_mul (Nat.two_pow_pos k)).1 (Nat.lt_succ_self _)
  · rw [roundPow_towardZero_neg]
    have hpos : (0 : Int) ≤ 2 ^ k := by positivity
    obtain hx | hx := le_total 0 x
    · exact mul_nonneg hx (Int.tdiv_nonneg hx hpos)
    · have hneg := Int.tdiv_nonneg (neg_nonneg.2 hx) hpos
      rw [Int.neg_tdiv, neg_nonneg] at hneg
      exact mul_nonneg_of_nonpos_of_nonpos hx hneg

/-! ### Entries of the accumulator -/

/-- A value inside the accumulator's limits keeps its 48 bits. -/
theorem toInt_ofInt_accSat (x : Int) : (BitVec.ofInt 48 (accSat x).1).toInt = (accSat x).1 := by
  have hlim : -accLimit ≤ (accSat x).1 ∧ (accSat x).1 ≤ accLimit := by
    unfold accSat clampInt accLimit
    dsimp only
    split_ifs <;> omega
  rw [BitVec.toInt_ofInt]
  unfold accLimit at hlim
  apply Int.bmod_eq_of_le <;> omega

theorem accGet_accPut_same (m : Mtx) (j e : Nat) (x : Int) :
    (m.accPut j e (accSat x).1).accGet j e = (accSat x).1 := by
  rw [Mtx.accGet, Mtx.accPut, tget_tset_same, toInt_ofInt_accSat]

/-- Entries below 512 of different columns lie apart, so that a write reaches its own alone. -/
theorem accGet_accPut_ne (m : Mtx) {j e j' e' : Nat} (he : e < 512) (he' : e' < 512) (hne : (j', e') ≠ (j, e))
    (v : Int) : (m.accPut j e v).accGet j' e' = m.accGet j' e' := by
  have hkey : 512 * j' + e' ≠ 512 * j + e := fun h => hne (Prod.ext (by dsimp only; omega) (by dsimp only; omega))
  rw [Mtx.accGet, Mtx.accPut, tget_tset_ne _ _ _ hkey, Mtx.accGet]

/-- Settles O37: a column's contribution is one write to its own entry, within the limits. -/
theorem accumulatorEntriesTakeContributions : Obligations.AccumulatorEntriesTakeContributions := by
  intro m d f j he
  exact ⟨accGet_accPut_same .., fun j' e' he' hne => accGet_accPut_ne m he he' hne _, rfl⟩

end Sys2Proof.Machine
end

section
/-! SUPPORT. The HI half of a 64-bit register (R73), and elements packed into bytes (R3, R55, R66). -/

namespace Sys2Proof.Machine

/-! ### The holding register (R73) -/

/-- A read of a LO half captures the HI half as it then stands. -/
theorem rd_holdKey_readHeld {b : Block} {off : Nat} (s : State) (h : loHalf b off = true) :
    (s.readHeld b off).2.rd (holdKey b (off + 4)) = ((s.readReg b off).2.readReg b (off + 4)).1 := by
  rw [State.readHeld, if_pos h]
  exact rd_wr_same ..

/-- A read of a HI half shows its holding register. -/
theorem readHeld_hiHalf {b : Block} {off : Nat} (t : State) (hlo : loHalf b off = true)
    (hhi : loHalf b (off + 4) = false) : t.readHeld b (off + 4) = (t.rd (holdKey b (off + 4)), t) := by
  simp [State.readHeld, hlo, hhi]

/-- Settles O11: the HI half shows the holding register, and this holds what the read of the LO half captured. -/
theorem counterHighHalfIsHeld : Obligations.CounterHighHalfIsHeld := by
  intro b off s t hlo hhi hkept
  rw [readHeld_hiHalf t hlo hhi, hkept, rd_holdKey_readHeld s hlo]

/-! ### Bytes and packed elements (R3, R55) -/

theorem bytesNat_natBytes (n x : Nat) : bytesNat (natBytes n x) = x % 256 ^ n := by
  induction n generalizing x with
  | zero => simp [natBytes, bytesNat, Nat.mod_one]
  | succ n ih => rw [natBytes, bytesNat, ih, BitVec.toNat_ofNat, pow_succ' 256 n, Nat.mod_mul]

theorem packBits_lt (b : Nat) (cs : List Nat) : packBits b cs < 2 ^ (b * cs.length) := by
  induction cs with
  | nil => simp [packBits]
  | cons c cs ih =>
    rw [packBits, List.length_cons, Nat.mul_add_one, Nat.add_comm, Nat.pow_add, Nat.mul_comm (2 ^ (b * _))]
    calc 2 ^ b * packBits b cs + c % 2 ^ b
        < 2 ^ b * packBits b cs + 2 ^ b := by gcongr; exact Nat.mod_lt _ (by positivity)
      _ = 2 ^ b * (packBits b cs + 1) := by ring
      _ ≤ 2 ^ b * 2 ^ (b * cs.length) := by gcongr; omega

/-- The bytes of a record hold all the bits packed into it. -/
theorem bytesNat_packBytes (b : Nat) (cs : List Nat) : bytesNat (packBytes b cs) = packBits b cs := by
  rw [packBytes, bytesNat_natBytes, Nat.mod_eq_of_lt]
  calc packBits b cs < 2 ^ (b * cs.length) := packBits_lt b cs
    _ ≤ 2 ^ (8 * ((b * cs.length + 7) / 8)) := Nat.pow_le_pow_right (by decide) (by omega)
    _ = 256 ^ ((b * cs.length + 7) / 8) := Nat.pow_mul 2 8 _

theorem packBits_element {b : Nat} {cs : List Nat} (h : ∀ c ∈ cs, c < 2 ^ b) (e : Nat) (he : e < cs.length) :
    packBits b cs / 2 ^ (e * b) % 2 ^ b = cs[e] := by
  induction cs generalizing e with
  | nil => simp at he
  | cons c cs ih =>
    have hc : c < 2 ^ b := h c List.mem_cons_self
    rw [packBits, Nat.mod_eq_of_lt hc]
    cases e with
    | zero => simp [Nat.mod_eq_of_lt hc]
    | succ e =>
      have hdiv : (c + 2 ^ b * packBits b cs) / 2 ^ b = packBits b cs := by
        rw [Nat.add_mul_div_left _ _ (by positivity), Nat.div_eq_of_lt hc, Nat.zero_add]
      rw [Nat.add_one_mul, Nat.add_comm (e * b), Nat.pow_add, ← Nat.div_div_eq_div_mul, hdiv]
      exact ih (fun c hc => h c (List.mem_cons_of_mem _ hc)) e (Nat.lt_of_succ_lt_succ he)

/-- Settles O35: a record's bytes hold its packed bits, and element e stands b · e bits up. -/
theorem packedElementsReadBack : Obligations.PackedElementsReadBack :=
  ⟨fun b cs e _ _ hcs he => (congrArg (· / 2 ^ (e * b) % 2 ^ b) (bytesNat_packBytes b cs)).trans
    (packBits_element hcs e he), bytesNat_natBytes⟩

end Sys2Proof.Machine
end

section
/-! SUPPORT. What a command of a matrix tile leaves of the rest of the state, its operations one by one, and what the
completion signal of a writer changes (R53 to R55, R58 to R61, R73, R78). -/

namespace Sys2Proof.Machine

/-! ### Folds over the state -/

/-- What every step of a fold keeps true stays true. -/
theorem each_induction {α : Type} (P : State → Prop) {f : State → α → State} (hf : ∀ s x, P s → P (f s x)) {s : State}
    (xs : List α) (h : P s) : P (s.each xs f) :=
  List.foldlRecOn xs f h fun s hs x _ => hf s x hs

/-! ### Registers of a tile -/

theorem mtxReg_ne {t o o' : Nat} (h : o ≠ o') : mtxReg t o ≠ mtxReg t o' := fun e => h (Nat.add_left_cancel e)

theorem mtxReg_add (t o n : Nat) : mtxReg t o + n = mtxReg t (o + n) := Nat.add_assoc ..

/-! ### The frame of a tile's command -/

/-- Nothing but tile `tl`, its registers, and what bays and jobs count has changed; of the tile's registers, only those
at the offsets listed. -/
structure TileFrame (tl : Nat) (os : List Nat) (s t : State) : Prop where
  rest : t = { s with regs := t.regs, mtx := t.mtx, bays := t.bays, jobs := t.jobs }
  tiles : ∀ x ≠ tl, t.mtxAt x = s.mtxAt x
  regs : ∀ o ∉ os, t.rd (mtxReg tl o) = s.rd (mtxReg tl o)

namespace TileFrame

variable {tl : Nat} {os : List Nat} {s t u : State}

theorem refl (s : State) : TileFrame tl os s s := ⟨rfl, fun _ _ => rfl, fun _ _ => rfl⟩

theorem trans (h : TileFrame tl os s t) (k : TileFrame tl os t u) : TileFrame tl os s u where
  rest := k.rest.trans
    (congrArg (fun x : State => { x with regs := u.regs, mtx := u.mtx, bays := u.bays, jobs := u.jobs }) h.rest)
  tiles x hx := (k.tiles x hx).trans (h.tiles x hx)
  regs o ho := (k.regs o ho).trans (h.regs o ho)

theorem of_onlyRegs (h : OnlyRegs s t (os.map (mtxReg tl))) : TileFrame tl os s t where
  rest := h.1.trans (congrArg (fun x : State => { s with regs := t.regs, mtx := x.mtx, bays := x.bays, jobs := x.jobs })
    h.1).symm
  tiles x _ := (congrArg (fun u : State => u.mtxAt x) h.1).trans rfl
  regs o ho := h.2 _ fun ho' => by
    obtain ⟨o', ho', e⟩ := List.mem_map.1 ho'
    exact ho (Nat.add_left_cancel e ▸ ho')

theorem mem_eq (h : TileFrame tl os s t) : t.mem = s.mem := (congrArg State.mem h.rest).trans rfl

theorem wr (s : State) {o : Nat} (v : Word) (ho : o ∈ os) : TileFrame tl os s (s.wr (mtxReg tl o) v) :=
  ⟨rfl, fun _ _ => rfl, fun _ ho' => rd_wr_ne s v (mtxReg_ne fun e => ho' (e ▸ ho))⟩

theorem wr64 (s : State) {o : Nat} (v : Nat) (ho : o ∈ os) (ho4 : o + 4 ∈ os) :
    TileFrame tl os s (s.wr64 (mtxReg tl o) v) :=
  (TileFrame.wr s _ ho).trans (mtxReg_add tl o 4 ▸ TileFrame.wr _ _ ho4)

theorem bump64 (s : State) {o : Nat} (n : Nat) (ho : o ∈ os) (ho4 : o + 4 ∈ os) :
    TileFrame tl os s (s.bump64 (mtxReg tl o) n) := .wr64 s _ ho ho4

theorem setMtx (s : State) (m : Mtx) : TileFrame tl os s (s.setMtx tl m) :=
  ⟨rfl, fun _ hx => mtxAt_setMtx_ne s m hx, fun _ _ => rfl⟩

theorem setBay (s : State) (b : Nat) (v : BaySeq) : TileFrame tl os s (s.setBay b v) :=
  ⟨rfl, fun _ _ => rfl, fun _ _ => rfl⟩

theorem ite {c : Prop} [Decidable c] (ht : TileFrame tl os s t) (hu : TileFrame tl os s u) :
    TileFrame tl os s (if c then t else u) := by
  split <;> assumption

theorem mapJob (s : State) (j : Nat) (f : Job → Job) : TileFrame tl os s (s.mapJob j f) := by
  unfold State.mapJob
  split
  · exact refl s
  · exact ⟨rfl, fun _ _ => rfl, fun _ _ => rfl⟩

theorem addSats (s : State) (b n : Nat) : TileFrame tl os s (s.addSats b n) := by
  unfold State.addSats
  dsimp only
  split
  · exact refl s
  · exact (setBay s _ _).trans (mapJob _ _ _)

theorem addDigits (s : State) (b n : Nat) : TileFrame tl os s (s.addDigits b n) := by
  unfold State.addDigits
  dsimp only
  split
  · exact refl s
  · exact (setBay s _ _).trans (mapJob _ _ _)

/-- Corrected errors change a counter and the flags (R57, R61). -/
theorem mtxCorrected (s : State) {n count flag : Nat} (hc : count ∈ os) (hf : Reg.MTX_ERR_FLAGS ∈ os) :
    TileFrame tl os s (s.mtxCorrected tl n count flag) :=
  .ite (refl s) ((TileFrame.wr s _ hc).trans (.wr _ _ hf))

/-- A stall changes the tile's note of it and a counter (R79). -/
theorem mtxStall (s : State) {counter : Nat} (hc : counter ∈ os) : TileFrame tl os s (s.mtxStall tl counter) :=
  (setMtx s _).trans (.wr _ _ hc)

/-- Saturations change the tile's mark, a counter, the flags, and what the job counts (R39, R40). -/
theorem mtxSats (s : State) {n : Nat} (hc : Reg.MTX_SAT_COUNT ∈ os) (hf : Reg.MTX_ERR_FLAGS ∈ os) :
    TileFrame tl os s (s.mtxSats tl n) :=
  .ite (refl s) ((((setMtx s _).trans (.wr _ _ hc)).trans (.wr _ _ hf)).trans (addSats _ _ _))

end TileFrame

/-! ### The tile itself under what a command counts -/

section
variable (s : State) (t : Nat)

/-- A tile is read from the table of tiles alone. -/
theorem mtxAt_congr {s u : State} (h : u.mtx = s.mtx) (t : Nat) : u.mtxAt t = s.mtxAt t :=
  congrArg (fun x => tget (fun _ => Mtx.init) x t) h

@[simp] theorem wr_mtxAt (k : Nat) (v : Word) : (s.wr k v).mtxAt t = s.mtxAt t := mtxAt_congr (wr_mtx s k v) t
@[simp] theorem bump_mtxAt (k n : Nat) : (s.bump k n).mtxAt t = s.mtxAt t := wr_mtxAt ..
@[simp] theorem setFlag_mtxAt (k i : Nat) : (s.setFlag k i).mtxAt t = s.mtxAt t := wr_mtxAt ..
@[simp] theorem wrFld_mtxAt (k hi lo v : Nat) : (s.wrFld k hi lo v).mtxAt t = s.mtxAt t := wr_mtxAt ..
@[simp] theorem wr64_mtxAt (k n : Nat) : (s.wr64 k n).mtxAt t = s.mtxAt t := (wr_mtxAt ..).trans (wr_mtxAt ..)
@[simp] theorem bump64_mtxAt (k n : Nat) : (s.bump64 k n).mtxAt t = s.mtxAt t := wr64_mtxAt ..
@[simp] theorem setBay_mtxAt (b : Nat) (v : BaySeq) : (s.setBay b v).mtxAt t = s.mtxAt t :=
  mtxAt_congr (setBay_mtx s b v) t

@[simp] theorem mapJob_mtx (j : Nat) (f : Job → Job) : (s.mapJob j f).mtx = s.mtx := by
  unfold State.mapJob
  split <;> rfl

@[simp] theorem mapJob_mtxAt (j : Nat) (f : Job → Job) : (s.mapJob j f).mtxAt t = s.mtxAt t :=
  mtxAt_congr (mapJob_mtx s j f) t

@[simp] theorem addSats_mtxAt (b n : Nat) : (s.addSats b n).mtxAt t = s.mtxAt t := by
  unfold State.addSats
  dsimp only
  split
  · rfl
  · exact mapJob_mtxAt ..

@[simp] theorem addDigits_mtxAt (b n : Nat) : (s.addDigits b n).mtxAt t = s.mtxAt t := by
  unfold State.addDigits
  dsimp only
  split
  · rfl
  · exact mapJob_mtxAt ..

/-- Saturations leave a mark on the tile and nothing else. -/
theorem mtxSats_mtxAt (n : Nat) : ∃ b, (s.mtxSats t n).mtxAt t = { s.mtxAt t with satSinceSet := b } := by
  unfold State.mtxSats
  split
  · exact ⟨_, rfl⟩
  · exact ⟨true, by simp⟩

/-- A counter of corrected errors counts them, none included (R57, R61). -/
theorem rd_mtxCorrected_count {count : Nat} (n flag : Nat) (h : count ≠ Reg.MTX_ERR_FLAGS) :
    (s.mtxCorrected t n count flag).rd (mtxReg t count) = s.rd (mtxReg t count) + BitVec.ofNat 32 n := by
  unfold State.mtxCorrected
  split
  · next hn => simp [hn]
  · rw [rd_setFlag_ne _ _ (mtxReg_ne h), rd_bump_same]

end

/-! ### Blocks of the buffer -/

/-- `m'` is `m` but for the states of its blocks. -/
def Mtx.SameButBlocks (m' m : Mtx) : Prop := m' = { m with blocks := m'.blocks }

theorem Mtx.SameButBlocks.refl (m : Mtx) : m.SameButBlocks m := rfl

theorem Mtx.SameButBlocks.trans {m m' m'' : Mtx} (h : m''.SameButBlocks m') (k : m'.SameButBlocks m) :
    m''.SameButBlocks m :=
  Eq.trans h (congrArg (fun x : Mtx => { x with blocks := m''.blocks }) k)

/-- A change of blocks is a change of nothing else. -/
theorem mapBlocks_sameButBlocks (m : Mtx) (f : Nat → BufBlock → BufBlock) :
    (m.mapBlocks f).SameButBlocks m :=
  List.foldlRecOn (motive := fun m' : Mtx => m'.SameButBlocks m) _ _ (.refl m) fun _ h _ _ =>
    Mtx.SameButBlocks.trans rfl h

theorem Mtx.SameButBlocks.setLastEnded {m m' : Mtx} (h : m'.SameButBlocks m) (i : Option Nat) :
    Mtx.SameButBlocks { m' with lastEnded := i } { m with lastEnded := i } :=
  Eq.trans (congrArg (fun x : Mtx => { x with lastEnded := i }) h) rfl

theorem release_sameButBlocks (m : Mtx) (a b : Bool) : (m.release a b).SameButBlocks m := mapBlocks_sameButBlocks ..
theorem complete_sameButBlocks (m : Mtx) (w : Writer) : (m.complete w).SameButBlocks m := mapBlocks_sameButBlocks ..
theorem endJobBlocks_sameButBlocks (m : Mtx) (success : Bool) : (m.endJobBlocks success).SameButBlocks m :=
  mapBlocks_sameButBlocks ..

/-- A write of a tile whose blocks alone it changes, as every tile sees it. -/
theorem setMtx_sameButBlocks (s : State) {k : Nat} {m : Mtx} (h : m.SameButBlocks (s.mtxAt k)) (x : Nat) :
    ((s.setMtx k m).mtxAt x).SameButBlocks (s.mtxAt x) := by
  by_cases hx : x = k
  · subst hx
    rwa [mtxAt_setMtx_same]
  · rw [mtxAt_setMtx_ne s m hx]
    exact .refl _

/-! ### The completion signal of a writer (R53, R96, R127, R187) -/

/-- The part of the signal that reaches the operand buffers of the bay. -/
def State.completeBuffers (s : State) (b : Nat) (w : Writer) : State :=
  s.each (List.range 8) (fun s i =>
    if (List.range 64).any (fun k => (s.mtxAt (b * 8 + i)).block k == .filling w) then
      s.setMtx (b * 8 + i) ((s.mtxAt (b * 8 + i)).complete w) else s)

/-- The rest of it reaches vector data memory, channels and ports. -/
theorem completeWriter_rest (s : State) (b : Nat) (w : Writer) :
    ((s.completeWriter b w).core, (s.completeWriter b w).mtx) =
      ((s.completeBuffers b w).core, (s.completeBuffers b w).mtx) := by
  let g (s : State) := (s.core, s.mtx)
  unfold State.completeWriter
  refine (each_keeps _ g _ (fun s p => ?_) _).trans ((each_keeps _ g _ (fun s c => ?_) _).trans ?_)
  · split <;> rfl
  · dsimp only
    split <;> rfl
  · rw [← State.completeBuffers]
    generalize s.completeBuffers b w = u
    split <;> rfl

theorem completeWriter_mtx (s : State) (b : Nat) (w : Writer) :
    (s.completeWriter b w).mtx = (s.completeBuffers b w).mtx := (Prod.mk.inj (completeWriter_rest s b w)).2

/-- It changes neither registers nor memory. -/
theorem completeWriter_core (s : State) (b : Nat) (w : Writer) : (s.completeWriter b w).core = s.core := by
  refine (Prod.mk.inj (completeWriter_rest s b w)).1.trans ?_
  unfold State.completeBuffers
  refine each_keeps s State.core _ (fun s i => ?_) _
  split <;> rfl

theorem mem_eq_of_core {s t : State} (h : t.core = s.core) : t.mem = s.mem := congrArg (fun x => x.2.2.2.1) h
theorem regs_eq_of_core {s t : State} (h : t.core = s.core) : t.regs = s.regs := congrArg (fun x => x.2.2.2.2.1) h

/-- Of a tile it changes blocks alone. -/
theorem completeWriter_mtxAt (s : State) (b : Nat) (w : Writer) (x : Nat) :
    ((s.completeWriter b w).mtxAt x).SameButBlocks (s.mtxAt x) := by
  rw [mtxAt_congr (completeWriter_mtx s b w)]
  refine each_induction (fun u => (u.mtxAt x).SameButBlocks (s.mtxAt x)) (fun u i h => ?_) _ (.refl _)
  split
  · exact (setMtx_sameButBlocks u (complete_sameButBlocks ..) x).trans h
  · exact h

end Sys2Proof.Machine
end

section
/-! SUPPORT. Abandonment: what it leaves of its tile and records of it, and that the end of the job starts no pass
(R73, R81, R85, R86). -/

namespace Sys2Proof.Machine

/-! ### What abandonment records (R73, R85) -/

/-- The first-fault registers, and the word that says they hold a fault. -/
def firstFault : List Nat := [0x80, Reg.MTX_FAULT_INFO, Reg.MTX_FAULT_PASS, Reg.MTX_FAULT_ADDR]

theorem mtxRecord_onlyRegs {os : List Nat} (hos : firstFault ⊆ os) (s : State) (t status quad vec pass addr : Nat) :
    OnlyRegs s (s.mtxRecord t status quad vec pass addr) (os.map (mtxReg t)) :=
  have hin (o : Nat) (ho : o ∈ firstFault) : mtxReg t o ∈ os.map (mtxReg t) := List.mem_map_of_mem (hos ho)
  (((OnlyRegs.wr s _ _ (hin 0x80 (by decide))).trans (.wr _ _ _ (hin _ (by decide)))).trans
    (.wr _ _ _ (hin _ (by decide)))).trans (.wr _ _ _ (hin _ (by decide)))

theorem mtxFault_onlyRegs (s : State) (t flags causes status quad vec pass addr : Nat) :
    OnlyRegs s (s.mtxFault t flags causes status quad vec pass addr)
      ((Reg.MTX_ERR_FLAGS :: Reg.MTX_FAULT_COUNT :: firstFault).map (mtxReg t)) := by
  have hcount : OnlyRegs s ((s.setBits (mtxReg t Reg.MTX_ERR_FLAGS) flags).bump (mtxReg t Reg.MTX_FAULT_COUNT) causes)
      ((Reg.MTX_ERR_FLAGS :: Reg.MTX_FAULT_COUNT :: firstFault).map (mtxReg t)) :=
    (OnlyRegs.wr s _ _ (List.mem_map_of_mem (by decide))).trans (.wr _ _ _ (List.mem_map_of_mem (by decide)))
  unfold State.mtxFault
  exact .ite (hcount.trans (mtxRecord_onlyRegs (by decide) ..)) hcount

/-- A fault sets its flags and counts its causes, whether or not it is the first. -/
theorem rd_mtxFault (s : State) (t flags causes status quad vec pass addr : Nat) {o : Nat}
    (ho : o ∉ firstFault) :
    (s.mtxFault t flags causes status quad vec pass addr).rd (mtxReg t o) =
      ((s.setBits (mtxReg t Reg.MTX_ERR_FLAGS) flags).bump (mtxReg t Reg.MTX_FAULT_COUNT) causes).rd (mtxReg t o) := by
  unfold State.mtxFault
  split
  · exact (TileFrame.of_onlyRegs (mtxRecord_onlyRegs (List.Subset.refl _) ..)).regs o ho
  · rfl

theorem rd_mtxFault_count (s : State) (t flags causes status quad vec pass addr : Nat) :
    (s.mtxFault t flags causes status quad vec pass addr).rd (mtxReg t Reg.MTX_FAULT_COUNT) =
      s.rd (mtxReg t Reg.MTX_FAULT_COUNT) + BitVec.ofNat 32 causes := by
  rw [rd_mtxFault _ _ _ _ _ _ _ _ _ (by decide), rd_bump_same, setBits_eq, rd_wr_ne _ _ (mtxReg_ne (by decide))]

theorem rd_mtxFault_flags (s : State) (t flags causes status quad vec pass addr : Nat) :
    (s.mtxFault t flags causes status quad vec pass addr).rd (mtxReg t Reg.MTX_ERR_FLAGS) =
      s.rd (mtxReg t Reg.MTX_ERR_FLAGS) ||| BitVec.ofNat 32 flags := by
  rw [rd_mtxFault _ _ _ _ _ _ _ _ _ (by decide), rd_bump_ne _ _ (mtxReg_ne (by decide)), setBits_eq, rd_wr_same]

theorem mtxFault_mem (s : State) (t flags causes status quad vec pass addr : Nat) :
    (s.mtxFault t flags causes status quad vec pass addr).mem = s.mem :=
  (congrArg State.mem (mtxFault_onlyRegs ..).1).trans rfl

theorem mtxFault_mtx (s : State) (t flags causes status quad vec pass addr : Nat) :
    (s.mtxFault t flags causes status quad vec pass addr).mtx = s.mtx :=
  (congrArg State.mtx (mtxFault_onlyRegs ..).1).trans rfl

/-! ### What abandonment leaves of the tile (R86) -/

/-- But for its blocks the tile is as abandonment makes it. -/
theorem abandonTile_mtxAt (s : State) (t pass : Nat) (c : MtxCause) (more : List MtxCause) :
    ((s.abandonTile t pass c more).mtxAt t).SameButBlocks
      ((s.mtxAt t).abandon ((c :: more).map MtxCause.rank) (s.mtxOpen t) (s.refusedNow t)) := by
  unfold State.abandonTile
  have h := completeWriter_mtxAt ((s.mtxFault t ((c :: more).foldl (fun n x => n ||| x.flag) 0x80) (more.length + 1)
    c.status c.quad c.vec pass c.addr).setMtx t
    ((s.mtxAt t).abandon ((c :: more).map MtxCause.rank) (s.mtxOpen t) (s.refusedNow t))) (bayOfTile t) (.drain t) t
  rwa [mtxAt_setMtx_same] at h

theorem abandonTile_rd (s : State) (t pass : Nat) (c : MtxCause) (more : List MtxCause) (k : Nat) :
    (s.abandonTile t pass c more).rd k = (s.mtxFault t ((c :: more).foldl (fun n x => n ||| x.flag) 0x80)
      (more.length + 1) c.status c.quad c.vec pass c.addr).rd k :=
  rd_congr (regs_eq_of_core (completeWriter_core ..)) k

theorem abandonTile_count (s : State) (t pass : Nat) (c : MtxCause) (more : List MtxCause) :
    (s.abandonTile t pass c more).rd (mtxReg t Reg.MTX_FAULT_COUNT) =
      s.rd (mtxReg t Reg.MTX_FAULT_COUNT) + BitVec.ofNat 32 (more.length + 1) :=
  (abandonTile_rd ..).trans (rd_mtxFault_count ..)

theorem abandonTile_flags (s : State) (t pass : Nat) (c : MtxCause) (more : List MtxCause) :
    (s.abandonTile t pass c more).rd (mtxReg t Reg.MTX_ERR_FLAGS) = s.rd (mtxReg t Reg.MTX_ERR_FLAGS) |||
      BitVec.ofNat 32 ((c :: more).foldl (fun n x => n ||| x.flag) 0x80) :=
  (abandonTile_rd ..).trans (rd_mtxFault_flags ..)

theorem abandonTile_mem (s : State) (t pass : Nat) (c : MtxCause) (more : List MtxCause) :
    (s.abandonTile t pass c more).mem = s.mem :=
  (mem_eq_of_core (completeWriter_core ..)).trans (mtxFault_mem ..)

/-! ### No pass -/

/-- No pass is running or draining. -/
def Mtx.Passless (m : Mtx) : Prop := m.cur = none ∧ m.drains = []

theorem Mtx.SameButBlocks.passless {m m' : Mtx} (h : m'.SameButBlocks m) (hm : m.Passless) : m'.Passless := by
  rw [h]
  exact hm

theorem setMtx_passless {s : State} {k x : Nat} {m : Mtx} (h : (s.mtxAt x).Passless)
    (hm : (s.mtxAt k).Passless → m.Passless) : ((s.setMtx k m).mtxAt x).Passless := by
  by_cases hx : x = k
  · subst hx
    rw [mtxAt_setMtx_same]
    exact hm h
  · rwa [mtxAt_setMtx_ne s m hx]

theorem passless_of_mtx_eq {s u : State} {x : Nat} (e : u.mtx = s.mtx) (h : (s.mtxAt x).Passless) :
    (u.mtxAt x).Passless := by
  rwa [mtxAt_congr e]

theorem abandonTile_passless {s : State} {x : Nat} (t pass : Nat) (c : MtxCause) (more : List MtxCause)
    (h : (s.mtxAt x).Passless) : ((s.abandonTile t pass c more).mtxAt x).Passless :=
  (completeWriter_mtxAt ..).passless
    (setMtx_passless (passless_of_mtx_eq (mtxFault_mtx ..) h) fun _ => ⟨rfl, rfl⟩)

theorem dropTile_passless {s : State} {x : Nat} (t status : Nat) (h : (s.mtxAt x).Passless) :
    ((s.dropTile t status).mtxAt x).Passless := by
  unfold State.dropTile
  dsimp only
  split
  · exact abandonTile_passless _ _ _ _ h
  · exact setMtx_passless h id

/-! ### The end of a bay's units starts no pass -/

theorem seeClocks_mtx (s : State) (d : Nat) : (s.seeClocks d).mtx = s.mtx := by
  unfold State.seeClocks
  refine each_keeps s State.mtx _ (fun s g => ?_) _
  dsimp only
  split <;> rfl

theorem settleLogic_mtx (s : State) (d : Nat) : (s.settleLogic d).mtx = s.mtx := by
  unfold State.settleLogic
  split
  · rfl
  · refine (seeClocks_mtx ..).trans (each_keeps _ State.mtx _ (fun t e => ?_) _)
    refine each_keeps t State.mtx _ (fun t x => ?_) _
    rfl

theorem closePort_mtx (s : State) (b p : Nat) : (s.closePort b p).mtx = s.mtx := settleLogic_mtx ..

theorem endShort_mtx (s : State) (b c status faultAddr flags : Nat) :
    (s.endShort b c status faultAddr flags).mtx = s.mtx := by
  have hcounters (u : State) : (u.each chCounters (fun s o => s.wr (chReg b c o) 0)).mtx = u.mtx :=
    each_keeps u State.mtx _ (fun s o => wr_mtx s _ _) _
  have hfault : (s.strFault b (flags ||| 1)).mtx = s.mtx := by rw [State.strFault, bump_eq, setBits_eq, wr_mtx, wr_mtx]
  unfold State.endShort
  dsimp only
  split
  · split <;> simp only [mapJob_mtx, setChan_mtx] <;> split <;> simp only [hcounters, hfault]
  · rfl

theorem endBlocks_passless {s : State} {x : Nat} (b : Nat) (success : Bool) (h : (s.mtxAt x).Passless) :
    ((s.endBlocks b success).mtxAt x).Passless := by
  unfold State.endBlocks
  refine passless_of_mtx_eq (setVec_mtx ..) (each_induction (fun u => (u.mtxAt x).Passless) (fun u i h => ?_) _ h)
  exact setMtx_passless h (endJobBlocks_sameButBlocks ..).passless

theorem endBay_passless {s : State} {x : Nat} (b status : Nat) (h : (s.mtxAt x).Passless) :
    ((s.endBay b status).mtxAt x).Passless := by
  unfold State.endBay
  refine passless_of_mtx_eq (setBay_mtx ..) (endBlocks_passless b false ?_)
  refine passless_of_mtx_eq (each_keeps _ State.mtx _ (fun s p => closePort_mtx s b p) _) ?_
  refine passless_of_mtx_eq (each_keeps _ State.mtx _ (fun s c => endShort_mtx s b c status 0 0) _) ?_
  have htiles := each_induction (fun u => (u.mtxAt x).Passless)
    (fun _ i h => dropTile_passless (b * 8 + i) status h) (List.range 8) h
  split
  · exact passless_of_mtx_eq (setVec_mtx ..) htiles
  · exact htiles

theorem clearRecords_mtx (s : State) (j : Job) : (s.clearRecords j).mtx = s.mtx := by
  refine each_keeps s State.mtx _ (fun s b => ?_) _
  dsimp only
  split <;> rfl

theorem failJob_passless {s : State} {x : Nat} (j status : Nat) (named : Option (Nat × Nat)) (addr : Nat)
    (h : (s.mtxAt x).Passless) : ((s.failJob j status named addr).mtxAt x).Passless := by
  unfold State.failJob
  split
  · exact h
  · split
    · refine each_induction (fun u => (u.mtxAt x).Passless) (fun _ b h => endBay_passless b status h) _ ?_
      refine passless_of_mtx_eq (setJob_mtx ..) ?_
      split
      · exact passless_of_mtx_eq (clearRecords_mtx ..) h
      · exact h
    · exact h

theorem failBay_passless {s : State} {x : Nat} (b status : Nat) (named : Option (Nat × Nat)) (addr : Nat)
    (h : (s.mtxAt x).Passless) : ((s.failBay b status named addr).mtxAt x).Passless := by
  unfold State.failBay
  split
  · exact h
  · exact failJob_passless _ _ _ _ h

theorem mtxAbandon_passless (s : State) (t pass records : Nat) (c : MtxCause) (more : List MtxCause) :
    ((s.mtxAbandon t pass records c more).mtxAt t).Passless :=
  failBay_passless _ _ _ _ ((abandonTile_mtxAt ..).passless ⟨rfl, rfl⟩)

/-! ### Expiry and soft reset -/

theorem execPassBudgetExpiry_oldest {s : State} {tl : Tile} {i : Nat × Nat × Nat} (h : (s.mtxAt tl).oldest = some i) :
    execPassBudgetExpiry tl s =
      .next (s.mtxAbandon tl i.1 (s.mtxAt tl).recordsDone ((s.mtxAt tl).plainCause 0x32) []) := by
  simp only [execPassBudgetExpiry, h]

theorem execMtxSoftReset_idle {s : State} {tl : Tile} (h : (s.mtxAt tl).oldest = none) :
    execMtxSoftReset tl s = .next ((s.setMtx tl { s.mtxAt tl with gone := none }).setMtx tl
      { s.mtxAt tl with blocks := [], staValid := false, halted := false, feedStalled := false, drainStalled := false,
                        gone := none }) := by
  simp only [execMtxSoftReset, h, mtxAt_setMtx_same, Mtx.freeAll, Option.isSome_none]

theorem execMtxSoftReset_oldest {s : State} {tl : Tile} {i : Nat × Nat × Nat} (h : (s.mtxAt tl).oldest = some i) :
    ∃ u : State, (u.mtxAt tl).Passless ∧ execMtxSoftReset tl s = .next (u.setMtx tl
      { u.mtxAt tl with
        blocks := [], staValid := false, halted := true, feedStalled := false, drainStalled := false }) := by
  refine ⟨_, mtxAbandon_passless s tl i.1 (s.mtxAt tl).recordsDone ((s.mtxAt tl).plainCause 0xF0 true) [], ?_⟩
  simp only [execMtxSoftReset, h, Mtx.freeAll, Option.isSome_some]

theorem tput_tput_same {α : Type} (t : Table α) (k : Nat) (v w : α) : tput (tput t k v) k w = tput t k w := by
  fun_induction tput t k v <;> grind [tput]

/-- Settles O38: the expiry is an abandonment for cause 0x32, which ends the job; a soft reset is one for the tile's own
cause, after which the end of the job brings back no pass. -/
theorem abandonedPassesHaltTheirTile : Obligations.AbandonedPassesHaltTheirTile := by
  refine ⟨fun tl i s h => ?_, fun tl s h => ?_, fun tl i s h => ?_⟩
  · refine ⟨_, execPassBudgetExpiry_oldest h, s.abandonTile tl i.1 ((s.mtxAt tl).plainCause 0x32) [],
      (s.mtxAt tl).recordsDone, rfl, ?_⟩
    have hm := abandonTile_mtxAt s tl i.1 ((s.mtxAt tl).plainCause 0x32) []
    rw [hm]
    refine ⟨rfl, rfl, rfl, rfl, rfl, ?_, ?_, abandonTile_mem ..⟩
    · have hflags : [(s.mtxAt tl).plainCause 0x32].foldl (fun n x => n ||| x.flag) 0x80 = 2 ^ 7 := by
        simp [Mtx.plainCause]
      have hbit := rbit_setFlag_same s (mtxReg tl Reg.MTX_ERR_FLAGS) 7 (by decide)
      rwa [State.rbit, State.rdN, rd_setFlag_same, ← hflags, ← abandonTile_flags] at hbit
    · exact abandonTile_count ..
  · exact (execMtxSoftReset_idle h).trans
      (congrArg (fun m => Host.Outcome.next { s with mtx := m }) (tput_tput_same ..))
  · obtain ⟨u, ⟨hcur, hdrains⟩, e⟩ := execMtxSoftReset_oldest h
    refine ⟨_, e, ?_⟩
    simp only [mtxAt_setMtx_same]
    exact ⟨trivial, trivial, hcur, hdrains, trivial⟩

end Sys2Proof.Machine
end

section
/-! SUPPORT. Credits and blocks: what a consumer grants, and what a channel's completion signal does (R53, R96, R126 to
R128, R187). -/

namespace Sys2Proof.Machine

@[simp] theorem block_setBlock_same (v : Vec) (k : Nat) (x : VecBlock) : (v.setBlock k x).block k = x :=
  tget_tset_same ..

/-! ### What the consumer gives (R126, R127, R187) -/

section
variable {s t : State} {b dst blk : Nat} {w : Writer}

theorem grantBlock_vec (h : (s.vecAt b).block blk = .free) :
    s.grantBlock b 1 blk w = some (s.setVec b ((s.vecAt b).setBlock blk (.filling w))) := by
  simp [State.grantBlock, h]

theorem grantBlock_mtx (h2 : 2 ≤ dst) (h9 : dst ≤ 9) (h : (s.mtxAt (b * 8 + (dst - 2))).block blk = .free) :
    s.grantBlock b dst blk w = some (s.setMtx (b * 8 + (dst - 2))
      ((s.mtxAt (b * 8 + (dst - 2))).setBlock blk (.filling w))) := by
  rw [State.grantBlock, if_neg (by omega), if_pos ⟨h2, h9⟩]
  simp only [h, if_true]

theorem grantBlock_port {p n : Nat} (ho : s.portOpen b p = true) (hc : 0 < (s.portAt b p).credits)
    (ht : s.portTurn b p = some w)
    (hn : (List.range 4).find? (fun n => !(s.portAt b p).blocks.any (fun g => g.num == n)) = some n) :
    s.grantBlock b (10 + p) blk w = some (s.setPort b p { s.portAt b p with
      credits := (s.portAt b p).credits - 1, blocks := (s.portAt b p).blocks ++ [⟨n, w, 0, false⟩]
      last := srcCode w }) := by
  rw [State.grantBlock, if_neg (by omega), if_neg (by omega), if_neg (by omega)]
  simp [hn, ho, hc, ht]

/-! ### What the writer then holds -/

/-- A drain or a send that asks is granted what the consumer gives, and takes nothing more with it. -/
theorem execCreditGrant_record {b : Bay} (hw : (∃ x, w = .drain x) ∨ ∃ x, w = .send x)
    (ha : (dst, blk) ∈ s.asks b w ∨ 10 ≤ dst ∧ ∃ k, (dst, k) ∈ s.asks b w) (hg : s.grantBlock b dst blk w = some t) :
    execCreditGrant b dst blk w s = .next t := by
  have hasks : (!(s.asks b w).contains (dst, blk) &&
      !(s.asks b w).any fun x => x.1 == dst && decide (10 ≤ dst)) = false := by
    rcases ha with ha | ⟨h10, k, hk⟩
    · simp [ha]
    · rw [List.any_eq_true.2 ⟨_, hk, by simp [h10]⟩]
      simp
  obtain ⟨x, rfl⟩ | ⟨x, rfl⟩ := hw <;> simp only [execCreditGrant, hasks, hg, Bool.false_eq_true, if_false]

/-- A stream that asks takes the credit and a staging block with it (R128). -/
theorem execCreditGrant_stream {b : Bay} {c : Nat} (ha : (dst, blk) ∈ s.asks b (.stream b c))
    (hs : s.stagingTurn b c = true) (hg : s.grantBlock b dst blk (.stream b c) = some t) :
    execCreditGrant b dst blk (.stream b c) s = .next ((t.setChan b c { t.chanAt b c with
      credits := (t.chanAt b c).credits ++ [blk], held := (t.chanAt b c).held ++ [(t.chanAt b c).nextStage]
      nextStage := (t.chanAt b c).nextStage + 1 }).tookStaging s b c) := by
  simp [execCreditGrant, ha, hs, hg]

/-- A block of the floor leaves the rotation of the pool; a block of the pool turns it to the channel (R128). -/
theorem tookStaging_eq (s old : State) (b c : Nat) :
    ∃ q, s.tookStaging old b c = { s with poolLast := q } ∧
      ((old.chanAt b c).heldCount < (old.chanAt b c).desc.floor → q = s.poolLast) ∧
      ((old.chanAt b c).desc.floor ≤ (old.chanAt b c).heldCount → tget (fun _ => 15) q b = c) := by
  unfold State.tookStaging
  split
  · next h => exact ⟨_, rfl, fun _ => rfl, fun h' => absurd h (Nat.not_lt.2 h')⟩
  · next h => exact ⟨_, rfl, fun h' => absurd h' h, fun _ => tget_tset_same ..⟩

/-- A channel done with a block of vector data memory signals it complete. -/
theorem execBlockComplete_vec {b : Bay} {c : Nat} {e : List Ecc} (hd : (s.chanAt b c).doneWith blk = true)
    (hp : (s.chanAt b c).desc.peer = 1) (hk : (s.chanAt b c).desc.kind = 0)
    (hb : (s.vecAt b).block blk = .filling (.stream b c)) :
    execBlockComplete b 1 blk (.stream b c) e s = .next ((s.setChan b c { s.chanAt b c with
      credits := (s.chanAt b c).credits.erase blk, held := (s.chanAt b c).held.drop 1 }).setVec b
        ((s.vecAt b).setBlock blk .valid)) := by
  have hv (v : Chan) : (s.setChan b c v).vecAt b = s.vecAt b := rfl
  simp [execBlockComplete, hd, hp, hk, hv, hb]

end

/-- Settles O39: each grant is the consumer's answer to the writer, with what the writer takes beside it. -/
theorem creditsAndBlocksComplete : Obligations.CreditsAndBlocksComplete := by
  refine ⟨fun b dst blk w s hw ha => ⟨?_, ?_⟩, fun b blk c s ha hs hf => ?_, ?_, ?_⟩
  · rintro rfl hf
    exact execCreditGrant_record hw (.inl ha) (grantBlock_vec hf)
  · intro h2 h9 hf
    exact execCreditGrant_record hw (.inl ha) (grantBlock_mtx h2 h9 hf)
  · have e := execCreditGrant_stream ha hs (grantBlock_vec hf)
    obtain ⟨q, htook, hfloor, hpool⟩ := tookStaging_eq (State.setChan _ b c _) s b c
    rw [htook] at e
    refine ⟨_, e, ?_, ?_, hfloor, hpool, rfl⟩
    · exact (congrArg (fun v : Vec => v.block blk) (vecAt_setVec_same ..)).trans (block_setBlock_same ..)
    · exact congrArg Chan.credits (chanAt_setChan_same ..)
  · intro b p n w s hw ⟨k, hk⟩ ho hc ht hn
    exact execCreditGrant_record hw (.inr ⟨Nat.le_add_right .., k, hk⟩) (grantBlock_port ho hc ht hn)
  · intro b blk c e s hd hp hk hb
    refine ⟨_, execBlockComplete_vec hd hp hk hb, ?_, ?_, rfl⟩
    · rw [vecAt_setVec_same, block_setBlock_same]
    · exact congrArg Chan.credits (chanAt_setChan_same ..)

end Sys2Proof.Machine
end

section
/-! SUPPORT. The course of a pass: acceptance and load, feed, landing, drain and the acceptance of its records (R51 to
R61, R65, R74 to R80). -/

namespace Sys2Proof.Machine

/-! ### Acceptance and load (R51, R80) -/

/-- The load fills cells and column scales. -/
theorem loadCells_handed (m : Mtx) (d : PassDesc) : (m.loadCells d).handed = m.handed :=
  List.foldlRecOn (motive := fun m' : Mtx => m'.handed = m.handed) _ _ rfl fun _ h _ _ => h

theorem tryLoad_of_no_pass {s : State} {t : Nat} (e : List Ecc) (h : (s.mtxAt t).cur = none) : s.tryLoad t e = s := by
  simp only [State.tryLoad, h]

/-- The registers that a load without a bad cycle may change. -/
def loadRegs : List Nat := [Reg.MTX_FEED_STALL, Reg.MTX_BUF_CE_COUNT, Reg.MTX_ERR_FLAGS]

/-- A load that finds nothing it cannot correct runs, waits or is not needed: in each case the pass stays current, and
so do the descriptors handed to the tile. -/
theorem tryLoad_keeps_pass {s : State} {t : Nat} {e : List Ecc} {p : Pass} (hcur : (s.mtxAt t).cur = some p)
    (hfinds : ((s.mtxAt t).loadFinds p.desc e).2 = []) :
    TileFrame t loadRegs s (s.tryLoad t e) ∧ (∃ l, ((s.tryLoad t e).mtxAt t).cur = some { p with loaded := l }) ∧
      ((s.tryLoad t e).mtxAt t).handed = (s.mtxAt t).handed := by
  simp only [State.tryLoad, hcur, hfinds]
  split
  · exact ⟨.refl s, ⟨p.loaded, hcur⟩, rfl⟩
  · split
    · refine ⟨.mtxStall s (by decide), ⟨p.loaded, ?_⟩, ?_⟩ <;> simp only [State.mtxStall, bump_mtxAt, mtxAt_setMtx_same]
      exact hcur
    · refine ⟨(TileFrame.mtxCorrected s (by decide) (by decide)).trans (.setMtx _ _), ⟨true, ?_⟩, ?_⟩ <;>
        rw [mtxAt_setMtx_same]
      exact loadCells_handed ..

/-- The pass that a descriptor becomes; `keep`: it runs on the values held (R52). -/
def Handed.pass (h : Handed) (keep : Bool) : Pass :=
  { index := h.index, layer := h.layer, cmd := h.cmd, desc := passDesc h.words, loaded := keep, fed := [0, 0, 0, 0],
    landed := [0, 0, 0, 0], inFlight := [], digits := [0, 0, 0, 0], maxErr := 0, sat := false, kept := keep }

/-- The registers that acceptance writes, but for the index of the pass. -/
def acceptRegs : List Nat := [Reg.MTX_STATUS, Reg.MTX_STA_RELOADS]

/-- A descriptor that is taken becomes the current pass, and its load may begin. -/
theorem execPassAccept_accepts {s : State} {tl : Tile} {h : Handed} {rest : List Handed} (e : List Ecc)
    (hh : (s.mtxAt tl).handed = h :: rest) (hcur : (s.mtxAt tl).cur = none) (hhalt : (s.mtxAt tl).halted = false)
    (hpre : (s.mtxAt tl).preempt = false)
    (hout : s.outputsPending (bayOfTile tl) h.layer (passDesc h.words).micro = false)
    (href : passRefused h.words (tl % 8) = false) :
    ∃ (u : State) (keep : Bool), execPassAccept tl e s = .next (u.tryLoad tl e) ∧
      u.mtxAt tl = { s.mtxAt tl with handed := rest, cur := some (h.pass keep), feedStalled := false } ∧
      TileFrame tl acceptRegs ((s.setMtx tl { s.mtxAt tl with
        handed := rest, cur := some (h.pass keep), feedStalled := false }).wr (mtxReg tl Reg.MTX_PASS_INDEX)
          (BitVec.ofNat 32 h.index)) u := by
  simp only [execPassAccept, hh, hcur, hhalt, hpre, hout, href, Option.isSome_none, Bool.or_self, Bool.false_eq_true,
    if_false]
  refine ⟨_, (passDesc h.words).staKeep && (s.mtxAt tl).keeps (passDesc h.words), rfl, ?_, ?_⟩
  · rw [setBay_mtxAt]
    split <;> simp only [bump_mtxAt, wrFld_mtxAt, wr_mtxAt, mtxAt_setMtx_same] <;> rfl
  · refine TileFrame.trans ?_ (.setBay _ _ _)
    exact .ite (.trans (.wr _ _ (by decide)) (.wr _ _ (by decide))) (.wr _ _ (by decide))

/-! ### Feed (R55) -/

/-- The counters of a feed, by their words. -/
def feedRegs : List Nat :=
  [Reg.MTX_DIGIT_CYCLES, Reg.MTX_DIGIT_CYCLES + 4, Reg.MTX_SKIP_PLANES, Reg.MTX_SKIP_PLANES + 4, Reg.MTX_STOP_PLANES,
    Reg.MTX_STOP_PLANES + 4]

/-- Digit cycles so far, quadrant by quadrant, once a vector has entered (R75). -/
def Pass.digitsWith (p : Pass) (q : Nat) (f : InFlight) : List Nat :=
  setNth p.digits q (nthN p.digits q + digitCycles f.skip f.stop)

/-- A feed that nothing holds: corrected errors are counted, then the vector enters and its planes are counted. -/
theorem execVectorFeed_feeds {s : State} {tl : Tile} {q : Quad} {e : List Ecc} {p : Pass}
    (hcur : (s.mtxAt tl).cur = some p) (hload : p.loaded = true) (hq : q.val ∈ p.desc.active)
    (hleft : nthN p.fed q < (p.desc.qrec q).count) (hpre : (s.mtxAt tl).preempt = false ∨ ∃ n ∈ p.fed, n ≠ 0)
    (hvalid : (s.mtxAt tl).validRange ((p.desc.qrec q).movAddr + nthN p.fed q * (p.desc.qrec q).movStride)
      p.desc.movBytes = true)
    (hheld : (s.mtxAt tl).holdsVector p.desc q (nthN p.fed q) = false)
    (hfinds : ((s.mtxAt tl).feedFinds p.desc q (nthN p.fed q) e).2 = []) :
    ∃ t : State, execVectorFeed tl q e s = .next t ∧
      t.mtxAt tl = { s.mtxAt tl with
        feedStalled := false
        cur := some { p with
          fed := setNth p.fed q (nthN p.fed q + 1)
          inFlight := p.inFlight ++ [(s.mtxAt tl).feedVector p.desc q (nthN p.fed q)]
          digits := p.digitsWith q ((s.mtxAt tl).feedVector p.desc q (nthN p.fed q)) } } ∧
      TileFrame tl feedRegs (s.mtxCorrected tl ((s.mtxAt tl).feedFinds p.desc q (nthN p.fed q) e).1
        Reg.MTX_BUF_CE_COUNT 0) t := by
  have hgo : (!(p.desc.active.contains q.val) || decide ((p.desc.qrec q).count ≤ nthN p.fed q) ||
      ((s.mtxAt tl).preempt && !(p.fed.any (· != 0)))) = false := by
    rcases hpre with h | ⟨n, hn, h0⟩
    · simp [hq, hleft, h]
    · rw [List.any_eq_true.2 ⟨n, hn, by simp [h0]⟩]
      simp [hq, hleft]
  simp only [execVectorFeed, hcur, hgo, hload, hvalid, hheld, hfinds, Bool.not_true, Bool.false_eq_true, if_false]
  refine ⟨_, rfl, ?_, ?_⟩
  · simp only [addDigits_mtxAt, bump64_mtxAt, mtxAt_setMtx_same]
    rfl
  · exact ((((TileFrame.setMtx _ _).trans (.bump64 _ _ (by decide) (by decide))).trans
      (.bump64 _ _ (by decide) (by decide))).trans (.bump64 _ _ (by decide) (by decide))).trans (.addDigits _ _ _)

/-! ### A write of the tile between what it counts (R40, R61) -/

/-- A tile is written once `n` corrected errors of its accumulator are counted; then `sats` saturations are. -/
def State.countedWrite (s : State) (tl n sats : Nat) (m : Mtx) : State :=
  ((s.mtxCorrected tl n Reg.MTX_ACC_CE_COUNT 2).setMtx tl m).mtxSats tl sats

theorem countedWrite_frame (s : State) (tl n sats : Nat) (m : Mtx) :
    TileFrame tl [Reg.MTX_ACC_CE_COUNT, Reg.MTX_SAT_COUNT, Reg.MTX_ERR_FLAGS] s (s.countedWrite tl n sats m) :=
  .trans (.trans (.mtxCorrected s (by decide) (by decide)) (.setMtx _ _)) (.mtxSats _ (by decide) (by decide))

/-- The tile is as written, but that saturations mark it. -/
theorem countedWrite_mtxAt (s : State) (tl n sats : Nat) (m : Mtx) :
    ∃ b, (s.countedWrite tl n sats m).mtxAt tl = { m with satSinceSet := b } := by
  have h := mtxSats_mtxAt ((s.mtxCorrected tl n Reg.MTX_ACC_CE_COUNT 2).setMtx tl m) tl sats
  rwa [mtxAt_setMtx_same] at h

/-! ### Landing (R32, R58) -/

/-- Contributions change accumulator entries alone. -/
theorem landVector_frame (m : Mtx) (d : PassDesc) (f : InFlight) :
    (m.landVector d f).1 = { m with acc := (m.landVector d f).1.acc } :=
  List.foldlRecOn (motive := fun r : Mtx × Nat × Nat => r.1 = { m with acc := r.1.acc }) _ _ rfl
    fun r h j _ => congrArg (fun x : Mtx => { x with acc := (r.1.landColumn d f j).1.acc }) h

/-- The pass once a vector has landed; `sats` and `err` are what its contributions answer (R39, R40). -/
def Pass.land (p : Pass) (q : Nat) (f : InFlight) (sats err : Nat) : Pass :=
  { p with inFlight := p.inFlight.erase f, landed := setNth p.landed q (nthN p.landed q + 1)
           maxErr := max p.maxErr err, sat := p.sat || sats != 0 }

/-- A vector that is not the pass's last lands: errors and saturations are counted, and the pass goes on. -/
theorem execVectorStreamEnd_lands {s : State} {tl : Tile} {q : Quad} {e : List Ecc} {p : Pass} {f : InFlight}
    (hcur : (s.mtxAt tl).cur = some p) (hf : p.inFlight.find? (fun f => f.quad == q.val) = some f)
    (hfinds : (p.desc.landFinds q f.vec e).2 = [])
    (hmore : ∃ i ∈ p.desc.active, nthN (setNth p.landed q (nthN p.landed q + 1)) i ≠ (p.desc.qrec i).count) :
    execVectorStreamEnd tl q e s = .next
      (s.countedWrite tl (p.desc.landFinds q f.vec e).1 ((s.mtxAt tl).landVector p.desc f).2.1
        { ((s.mtxAt tl).landVector p.desc f).1 with
          cur := some (p.land q f ((s.mtxAt tl).landVector p.desc f).2.1
            ((s.mtxAt tl).landVector p.desc f).2.2) }) := by
  have hgo : p.desc.active.all (fun i =>
      nthN (setNth p.landed q (nthN p.landed q + 1)) i == (p.desc.qrec i).count) = false := by
    obtain ⟨i, hi, hne⟩ := hmore
    exact List.all_eq_false.2 ⟨i, hi, by simpa using hne⟩
  simp only [execVectorStreamEnd, hcur, hf, hfinds, hgo, Bool.false_eq_true, if_false]
  rfl

/-! ### Drain (R60, R77) -/

/-- The drain once a record of it has been read and offered. -/
def Drain.offer (x : Drain) (rs : List OutRecord) (report : Option Nat) : Drain :=
  { x with next := x.next + 1, offered := x.offered ++ rs, report := report }

/-- A drain reads its next entry: errors and saturations are counted, and the record joins those offered. -/
theorem execDrainRecord_offers {s : State} {tl : Tile} {e : List Ecc} {x : Drain}
    (hx : (s.mtxAt tl).drains.find? (fun x => decide (x.next < x.desc.drainPlan.length)) = some x)
    (hfinds : (x.desc.drainFinds (x.desc.drainPlan.getD x.next (0, 0)).1
      (x.desc.drainPlan.getD x.next (0, 0)).2 e).2 = []) :
    ∃ (report : Option Nat) (n sats : Nat), execDrainRecord tl e s =
      .next (s.countedWrite tl n sats { s.mtxAt tl with
        drains := (s.mtxAt tl).drains.map (fun y => if y.index == x.index then
          x.offer ((s.mtxAt tl).drainRecord x.desc (x.desc.drainPlan.getD x.next (0, 0)).1
            (x.desc.drainPlan.getD x.next (0, 0)).2).1 report else y) }) := by
  simp only [execDrainRecord, hx, hfinds]
  exact ⟨_, _, _, rfl⟩

/-! ### Acceptance of a record (R65, R78) -/

section
variable {s u : State}

/-- A delivery reaches memories of the bay, staging or a port. -/
theorem deliver_keeps {bay dst chan addr : Nat} {w : Writer} {bytes : List (Option Byte)} {done : Bool}
    (h : s.deliver bay w dst chan addr bytes done = some u) : u.mem = s.mem ∧ u.regs = s.regs := by
  unfold State.deliver at h
  dsimp only at h
  split_ifs at h
  · cases h; exact ⟨rfl, rfl⟩
  · cases h; exact ⟨rfl, rfl⟩
  · cases h; exact ⟨rfl, rfl⟩
  all_goals
    split at h
    · cases h
    · cases h; exact ⟨rfl, rfl⟩

theorem mapJob_core (s : State) (j : Nat) (f : Job → Job) : (s.mapJob j f).core = s.core := by
  unfold State.mapJob
  split <;> rfl

theorem endPass_mtxAt (s : State) (t index : Nat) (d : PassDesc) :
    ((s.endPass t index d).mtxAt t).SameButBlocks { s.mtxAt t with lastEnded := some index } := by
  unfold State.endPass
  rw [bump_mtxAt, mtxAt_setMtx_same]
  exact (release_sameButBlocks ..).setLastEnded (some index)

theorem endPass_mem (s : State) (t index : Nat) (d : PassDesc) : (s.endPass t index d).mem = s.mem := rfl

theorem rd_endPass_count (s : State) (t index : Nat) (d : PassDesc) :
    (s.endPass t index d).rd (mtxReg t Reg.MTX_PASS_COUNT) = s.rd (mtxReg t Reg.MTX_PASS_COUNT) + 1 :=
  rd_bump_same ..

variable {tl : Tile} {e : List Ecc} {x : Drain} {rest : List Drain} {r : OutRecord} {more : List OutRecord}

/-- The job's bound takes what the drain reports (R39). -/
def State.raiseBound (s : State) (b bound : Nat) : State :=
  match s.bayJob b with
  | none => s
  | some j => s.mapJob j (fun v => { v with bound := max v.bound bound })

theorem raiseBound_core (s : State) (b bound : Nat) : (s.raiseBound b bound).core = s.core := by
  unfold State.raiseBound
  split
  · rfl
  · exact mapJob_core ..

theorem raiseBound_mtxAt (s : State) (b bound t : Nat) : (s.raiseBound b bound).mtxAt t = s.mtxAt t := by
  unfold State.raiseBound
  split
  · rfl
  · exact mapJob_mtxAt ..

/-- The state in which the last record of a drain has been accepted: the drain is over, its writer's blocks are
complete, and the job has its bound. -/
def State.drained (u : State) (tl : Nat) (x : Drain) (rest : List Drain) : State :=
  ((u.setMtx tl { u.mtxAt tl with drains := rest, drainStalled := false }).completeWriter (bayOfTile tl)
    (.drain tl)).raiseBound (bayOfTile tl) (x.report.getD 0)

theorem drained_core (u : State) (tl : Nat) (x : Drain) (rest : List Drain) : (u.drained tl x rest).core = u.core :=
  (raiseBound_core ..).trans (completeWriter_core ..)

theorem drained_mtxAt (u : State) (tl : Nat) (x : Drain) (rest : List Drain) :
    ((u.drained tl x rest).mtxAt tl).SameButBlocks { u.mtxAt tl with drains := rest, drainStalled := false } := by
  have h := completeWriter_mtxAt (u.setMtx tl { u.mtxAt tl with drains := rest, drainStalled := false }) (bayOfTile tl)
    (.drain tl) tl
  rw [mtxAt_setMtx_same] at h
  rwa [State.drained, raiseBound_mtxAt]

/-- The tile once the pass has ended too. -/
theorem endPass_drained_mtxAt (u : State) (tl : Nat) (x : Drain) (rest : List Drain) :
    (((u.drained tl x rest).endPass tl x.index x.desc).mtxAt tl).SameButBlocks
      { u.mtxAt tl with drains := rest, drainStalled := false, lastEnded := some x.index } :=
  (endPass_mtxAt ..).trans ((drained_mtxAt u tl x rest).setLastEnded (some x.index))

/-- The last record ends the pass, and a load may follow. -/
theorem execDrainRecordAccept_last (hd : (s.mtxAt tl).drains = x :: rest) (ho : x.offered = [r])
    (hn : x.next = x.desc.drainPlan.length)
    (hu : s.deliver (bayOfTile tl) (.drain tl) x.desc.dst x.desc.dstChannel r.addr r.bytes
      (([] : List OutRecord).isEmpty && x.next == x.desc.drainPlan.length && decide (10 ≤ x.desc.dst)) = some u) :
    execDrainRecordAccept tl e s = .next (((u.drained tl x rest).endPass tl x.index x.desc).tryLoad tl e) := by
  have hend : (([] : List OutRecord).isEmpty && x.next == x.desc.drainPlan.length) = true := by simp [hn]
  simp only [execDrainRecordAccept, hd, ho, hu]
  refine (if_pos hend).trans ?_
  unfold State.drained State.raiseBound
  generalize State.completeWriter _ _ _ = v
  rfl

/-- A record that is not the last leaves the queue. -/
theorem execDrainRecordAccept_more (hd : (s.mtxAt tl).drains = x :: rest) (ho : x.offered = r :: more)
    (hn : more ≠ [] ∨ x.next ≠ x.desc.drainPlan.length)
    (hu : s.deliver (bayOfTile tl) (.drain tl) x.desc.dst x.desc.dstChannel r.addr r.bytes
      (more.isEmpty && x.next == x.desc.drainPlan.length && decide (10 ≤ x.desc.dst)) = some u) :
    execDrainRecordAccept tl e s = .next (u.setMtx tl { u.mtxAt tl with
      drains := { x with offered := more, accepted := x.accepted + 1 } :: rest, drainStalled := false }) := by
  have hgo : ¬ (more.isEmpty && x.next == x.desc.drainPlan.length) = true := by
    rcases hn with h | h <;> simp [h]
  simp only [execDrainRecordAccept, hd, ho, hu]
  rw [if_neg hgo]

/-- A record refused for lack of credit waits (R79). -/
theorem execDrainRecordAccept_waits (hd : (s.mtxAt tl).drains = x :: rest) (ho : x.offered = r :: more)
    (hu : s.deliver (bayOfTile tl) (.drain tl) x.desc.dst x.desc.dstChannel r.addr r.bytes
      (more.isEmpty && x.next == x.desc.drainPlan.length && decide (10 ≤ x.desc.dst)) = none) :
    execDrainRecordAccept tl e s =
      .next ((s.setMtx tl { s.mtxAt tl with drainStalled := true }).bump (mtxReg tl Reg.MTX_DRAIN_STALL) 1) := by
  simp only [execDrainRecordAccept, hd, ho, hu]

end

/-- Settles O36: acceptance, feed, landing and drain in turn, each with the frame of a tile's command; and the three
ways in which the acceptance of a record can go. -/
theorem matrixPassesComplete : Obligations.MatrixPassesComplete := by
  refine ⟨?_, ?_, ?_, ?_, ?_⟩
  · intro tl e h rest s hh hcur hhalt hpre hout href hfinds
    obtain ⟨u, keep, haccept, hm, hframe⟩ := execPassAccept_accepts e hh hcur hhalt hpre hout href
    obtain ⟨hloadFrame, ⟨l, hl⟩, hhanded⟩ := tryLoad_keeps_pass (s := u) (t := tl) (e := e) (p := h.pass keep)
      (by rw [hm]) (by rw [hm]; exact hfinds)
    refine ⟨_, haccept, _, hl, rfl, rfl, rfl, ?_, ?_, ?_, ?_⟩
    · rw [hhanded, hm]
    · rw [hloadFrame.regs _ (by decide), hframe.regs _ (by decide), rd_wr_same]
    · rw [hloadFrame.mem_eq, hframe.mem_eq, wr_mem, setMtx_mem]
    · intro x hx
      rw [hloadFrame.tiles x hx, hframe.tiles x hx, wr_mtxAt, mtxAt_setMtx_ne _ _ hx]
  · intro tl q e p s hcur hload hq hleft hpre hvalid hheld hfinds
    obtain ⟨t, hfeed, hm, hframe⟩ := execVectorFeed_feeds hcur hload hq hleft hpre hvalid hheld hfinds
    have hcorrected := TileFrame.mtxCorrected (tl := tl) (os := [Reg.MTX_BUF_CE_COUNT, Reg.MTX_ERR_FLAGS]) s
      (n := ((s.mtxAt tl).feedFinds p.desc q (nthN p.fed q) e).1) (count := Reg.MTX_BUF_CE_COUNT) (flag := 0)
      (by decide) (by decide)
    refine ⟨t, hfeed, _, hm, ?_, ?_, ?_⟩
    · rw [hframe.regs _ (by decide), rd_mtxCorrected_count _ _ _ _ (by decide)]
    · rw [hframe.mem_eq, hcorrected.mem_eq]
    · intro x hx
      rw [hframe.tiles x hx, hcorrected.tiles x hx]
  · intro tl q e p f s hcur hf hfinds hmore
    obtain ⟨b, hm⟩ := countedWrite_mtxAt s tl _ _ _
    refine ⟨_, execVectorStreamEnd_lands hcur hf hfinds hmore, (congrArg Mtx.acc hm).trans rfl,
      ⟨_, (congrArg Mtx.cur hm).trans rfl, rfl, rfl, rfl⟩, ?_, (countedWrite_frame ..).mem_eq,
      (countedWrite_frame ..).tiles⟩
    exact (congrArg Mtx.buf hm).trans ((congrArg Mtx.buf (landVector_frame (s.mtxAt tl) p.desc f)).trans rfl)
  · intro tl e x s hx hfinds
    obtain ⟨report, n, sats, hdrain⟩ := execDrainRecord_offers hx hfinds
    obtain ⟨b, hm⟩ := countedWrite_mtxAt s tl n sats _
    exact ⟨_, hdrain, ⟨_, (congrArg Mtx.drains hm).trans rfl, rfl, rfl, rfl⟩, (congrArg Mtx.acc hm).trans rfl,
      (countedWrite_frame ..).mem_eq, (countedWrite_frame ..).tiles⟩
  · intro tl e x rest r more done s hd ho hdone
    subst hdone
    refine ⟨execDrainRecordAccept_waits hd ho, fun u hu hn => execDrainRecordAccept_more hd ho hn hu, ?_⟩
    intro u hu hmore hn hcur
    subst hmore
    obtain ⟨hmem, hregs⟩ := deliver_keeps hu
    have hm := endPass_drained_mtxAt u tl x rest
    refine ⟨_, execDrainRecordAccept_last hd ho hn hu, ?_⟩
    dsimp only
    rw [tryLoad_of_no_pass e ((congrArg Mtx.cur hm).trans hcur), hm, rd_endPass_count, endPass_mem,
      mem_eq_of_core (drained_core ..), rd_congr (regs_eq_of_core (drained_core ..)), rd_congr hregs]
    exact ⟨rfl, rfl, rfl, hmem⟩

end Sys2Proof.Machine
end

section
/-! SUPPORT. Pre-emption: what each unit of a bay makes of the request, that a channel which holds no fault settles
within itself and its port, and what has reached the bays of a list (R82, R113, R142, R148, R160; log 31, 37). -/

namespace Sys2Proof.Machine

variable {s t u : State} {bs bs' : List Nat} {b c : Nat}

/-! ### What a unit makes of the request (R82, R113) -/

@[simp] theorem preemptTile_preempt (m : Mtx) : m.preemptTile.1.preempt = true := by
  unfold Mtx.preemptTile
  split
  · split <;> rfl
  · rfl

@[simp] theorem preemptTile_handed (m : Mtx) : m.preemptTile.1.handed = [] := by
  unfold Mtx.preemptTile
  split
  · split <;> rfl
  · rfl

/-- A second request finds nothing left to withdraw. -/
theorem preemptTile_preemptTile (m : Mtx) : m.preemptTile.1.preemptTile.1 = m.preemptTile.1 := by
  cases hcur : m.cur with
  | none => simp [Mtx.preemptTile, hcur]
  | some p =>
    by_cases hspent : p.fed.any (· != 0)
    · simp [Mtx.preemptTile, hcur, hspent]
    · simp [Mtx.preemptTile, hcur, hspent]

/-- A tile that runs no program has nothing to stop. -/
theorem preemptVec_of_not_active {v : Vec} (h : v.active = false) : v.preemptVec = v := if_pos (by simp [h])

/-- Between packets the tile stops at once. -/
theorem preemptVec_of_ran_nil {v : Vec} (ha : v.active = true) (hr : v.ran = []) : v.preemptVec = v.stop :=
  (if_neg (by simp [ha])).trans (if_pos (by simp [hr]))

/-- Inside a packet the tile notes the request. -/
theorem preemptVec_of_ran_ne_nil {v : Vec} (ha : v.active = true) (hr : v.ran ≠ []) :
    v.preemptVec = { v with stopReq := true } :=
  (if_neg (by simp [ha])).trans (if_neg (by simp [hr]))

theorem stop_active (v : Vec) : v.stop.active = false := rfl

/-- A tile that is idle or between packets is not active once it has seen the request. -/
theorem preemptVec_active {v : Vec} (h : v.active = false ∨ v.ran = []) : v.preemptVec.active = false := by
  cases ha : v.active with
  | false => rwa [preemptVec_of_not_active ha]
  | true => rw [preemptVec_of_ran_nil ha (h.resolve_left (by simp [ha])), stop_active]

/-- A second request changes nothing. -/
theorem preemptVec_preemptVec (v : Vec) : v.preemptVec.preemptVec = v.preemptVec := by
  cases ha : v.active with
  | false => rw [preemptVec_of_not_active ha, preemptVec_of_not_active ha]
  | true =>
    by_cases hr : v.ran = []
    · exact preemptVec_of_not_active (preemptVec_active (.inr hr))
    · rw [preemptVec_of_ran_ne_nil ha hr]
      exact preemptVec_of_ran_ne_nil ha hr

@[simp] theorem preemptChan_fault (ch : Chan) : ch.preemptChan.fault = ch.fault := by
  unfold Chan.preemptChan
  split <;> rfl

/-! ### Channels without a fault (R142) -/

/-- Only channels and ports have changed, and no channel has come to a fault. -/
structure StreamsOnly (s t : State) : Prop where
  rest : ∃ chans ports, t = { s with chans, ports }
  faultless : ∀ x k, (s.chanAt x k).fault = none → (t.chanAt x k).fault = none

theorem StreamsOnly.refl (s : State) : StreamsOnly s s := ⟨⟨_, _, rfl⟩, fun _ _ h => h⟩

theorem StreamsOnly.trans (h : StreamsOnly s t) (k : StreamsOnly t u) : StreamsOnly s u where
  rest := by
    obtain ⟨_, _, rfl⟩ := h.rest
    obtain ⟨_, _, rfl⟩ := k.rest
    exact ⟨_, _, rfl⟩
  faultless x n hn := k.faultless x n (h.faultless x n hn)

theorem StreamsOnly.ite {p : Prop} [Decidable p] (ht : StreamsOnly s t) (hu : StreamsOnly s u) :
    StreamsOnly s (if p then t else u) := by
  split <;> assumption

theorem chanAt_setChan (s : State) (b c x k : Nat) (ch : Chan) :
    (s.setChan b c ch).chanAt x k = if 16 * x + k = 16 * b + c then ch else s.chanAt x k := tget_tput ..

theorem StreamsOnly.setChan (s : State) (b c : Nat) {ch : Chan} (h : ch.fault = none) :
    StreamsOnly s (s.setChan b c ch) where
  rest := ⟨_, _, rfl⟩
  faultless x k hk := by
    rw [chanAt_setChan]
    split <;> assumption

theorem StreamsOnly.portEnd (s : State) (b c : Nat) : StreamsOnly s (s.portEnd b c) :=
  .ite ⟨⟨_, _, rfl⟩, fun _ _ h => h⟩ (.refl s)

/-- A channel that holds no fault goes on, ends or stops, and none of these reaches beyond channels and ports. -/
theorem settle_streamsOnly (h : (s.chanAt b c).fault = none) : StreamsOnly s (s.settle b c) := by
  simp only [State.settle, h]
  refine .ite (.refl s) (.ite ((StreamsOnly.portEnd s b c).trans (.setChan _ b c rfl)) (.ite (.ite ?_ ?_) (.refl s)))
  · exact .ite (.setChan s b c rfl) (.refl s)
  · exact .ite (.refl s) (.setChan s b c rfl)

/-- The request on one channel of a bay. -/
theorem preemptChan_streamsOnly (h : (s.chanAt b c).fault = none) :
    StreamsOnly s ((s.setChan b c (s.chanAt b c).preemptChan).settle b c) :=
  (StreamsOnly.setChan s b c ((preemptChan_fault _).trans h)).trans
    (settle_streamsOnly (by rw [chanAt_setChan_same, preemptChan_fault, h]))

/-- The request on every channel of a bay. -/
def State.preemptChans (s : State) (b : Nat) : State :=
  s.each (List.range 16) fun s c => (s.setChan b c (s.chanAt b c).preemptChan).settle b c

theorem preemptChans_streamsOnly (h : ∀ c < 16, (s.chanAt b c).fault = none) : StreamsOnly s (s.preemptChans b) :=
  List.foldlRecOn (motive := StreamsOnly s) _ _ (.refl s) fun _ hu c hc =>
    hu.trans (preemptChan_streamsOnly (hu.faultless b c (h c (List.mem_range.1 hc))))

/-! ### The tiles of a bay (R82) -/

/-- The request on every tile of a bay. -/
def State.preemptTiles (s : State) (b : Nat) : State :=
  s.each (List.range 8) fun s i => s.setMtx (b * 8 + i) (s.mtxAt (b * 8 + i)).preemptTile.1

theorem each_range_succ (s : State) (n : Nat) (f : State → Nat → State) :
    s.each (List.range (n + 1)) f = f (s.each (List.range n) f) n := by
  simp [State.each, List.range_succ]

theorem mtxAt_each_setMtx (f : Mtx → Mtx) (s : State) (base n x : Nat) :
    (s.each (List.range n) fun s i => s.setMtx (base + i) (f (s.mtxAt (base + i)))).mtxAt x =
      if base ≤ x ∧ x < base + n then f (s.mtxAt x) else s.mtxAt x := by
  induction n with
  | zero => exact (if_neg (by omega)).symm
  | succ n ih =>
    rw [each_range_succ]
    by_cases hx : x = base + n
    · subst hx
      rw [mtxAt_setMtx_same, ih, if_neg (by omega), if_pos (by omega)]
    · rw [mtxAt_setMtx_ne _ _ hx, ih]
      exact if_congr (by omega) rfl rfl

/-- The tiles of the bay see the request; other tiles do not. -/
theorem mtxAt_preemptTiles (s : State) (b x : Nat) {i : Nat} (hi : i < 8) :
    (s.preemptTiles b).mtxAt (x * 8 + i) =
      if x = b then (s.mtxAt (x * 8 + i)).preemptTile.1 else s.mtxAt (x * 8 + i) :=
  (mtxAt_each_setMtx (fun m => m.preemptTile.1) s (b * 8) 8 (x * 8 + i)).trans (if_congr (by omega) rfl rfl)

/-- Nothing but tiles has changed. -/
theorem preemptTiles_eq (s : State) (b : Nat) : ∃ mtx, s.preemptTiles b = { s with mtx } := by
  refine each_induction (fun u => ∃ mtx, u = { s with mtx }) ?_ (List.range 8) ⟨_, rfl⟩
  rintro _ i ⟨_, rfl⟩
  exact ⟨_, rfl⟩

/-! ### The units of a bay (R82, R113) -/

/-- The request has reached the tiles and the vector tile of bay b, and nothing else has changed. -/
structure UnitsPreempted (b : Nat) (s t : State) : Prop where
  rest : ∃ mtx vec, t = { s with mtx, vec }
  tile : ∀ x, ∀ i < 8, t.mtxAt (x * 8 + i) =
    if x = b then (s.mtxAt (x * 8 + i)).preemptTile.1 else s.mtxAt (x * 8 + i)
  vector : ∀ x, t.vecAt x = if x = b then (s.vecAt x).preemptVec else s.vecAt x

theorem UnitsPreempted.chanAt (h : UnitsPreempted b s t) (x c : Nat) : t.chanAt x c = s.chanAt x c := by
  obtain ⟨_, _, rfl⟩ := h.rest
  rfl

/-- The request on the tiles and the vector tile of a bay. -/
def State.preemptUnits (s : State) (b : Nat) : State :=
  (s.preemptTiles b).setVec b ((s.preemptTiles b).vecAt b).preemptVec

theorem preemptUnits_unitsPreempted (s : State) (b : Nat) : UnitsPreempted b s (s.preemptUnits b) := by
  have htile := fun x i => mtxAt_preemptTiles s b x (i := i)
  unfold State.preemptUnits
  obtain ⟨m, e⟩ := preemptTiles_eq s b
  rw [e] at htile ⊢
  refine ⟨⟨_, _, rfl⟩, htile, fun x => ?_⟩
  split
  case isTrue hx => exact hx ▸ vecAt_setVec_same ..
  case isFalse hx => exact vecAt_setVec_ne _ _ hx

/-! ### What has reached the bays of a list (R82, R113, R142, R148) -/

/-- The request has reached the bays listed: their tiles and vector tiles have seen it and their sequencers do not run.
Other bays' are as they were; beside tiles, channels, ports and bays nothing has changed, and no channel has come to a
fault. -/
structure BaysPreempted (bs : List Nat) (s t : State) : Prop where
  rest : ∃ mtx vec chans bays ports, t = { s with mtx, vec, chans, bays, ports }
  faultless : ∀ x k, (s.chanAt x k).fault = none → (t.chanAt x k).fault = none
  tile : ∀ x, ∀ i < 8, t.mtxAt (x * 8 + i) =
    if x ∈ bs then (s.mtxAt (x * 8 + i)).preemptTile.1 else s.mtxAt (x * 8 + i)
  vector : ∀ x, t.vecAt x = if x ∈ bs then (s.vecAt x).preemptVec else s.vecAt x
  sequencer : ∀ x, (t.bayAt x).running = if x ∈ bs then false else (s.bayAt x).running

theorem BaysPreempted.refl (s : State) : BaysPreempted [] s s :=
  ⟨⟨_, _, _, _, _, rfl⟩, fun _ _ h => h, fun _ _ _ => rfl, fun _ => rfl, fun _ => rfl⟩

/-- Doing f on the bays of two lists in turn, where doing it twice is doing it once. -/
theorem ite_mem_append {β : Type} {f : β → β} (hf : ∀ y, f (f y) = f y) (x : Nat) (y : β) :
    (if x ∈ bs' then f (if x ∈ bs then f y else y) else if x ∈ bs then f y else y) =
      if x ∈ bs ++ bs' then f y else y := by
  by_cases h : x ∈ bs <;> by_cases h' : x ∈ bs' <;> simp [h, h', hf]

theorem BaysPreempted.trans (h : BaysPreempted bs s t) (k : BaysPreempted bs' t u) :
    BaysPreempted (bs ++ bs') s u where
  rest := by
    obtain ⟨_, _, _, _, _, rfl⟩ := h.rest
    obtain ⟨_, _, _, _, _, rfl⟩ := k.rest
    exact ⟨_, _, _, _, _, rfl⟩
  faultless x n hn := k.faultless x n (h.faultless x n hn)
  tile x i hi := by
    rw [k.tile x i hi, h.tile x i hi]
    exact ite_mem_append (f := fun m : Mtx => m.preemptTile.1) preemptTile_preemptTile x _
  vector x := by rw [k.vector, h.vector, ite_mem_append preemptVec_preemptVec]
  sequencer x := by rw [k.sequencer, h.sequencer, ite_mem_append (f := fun _ => false) fun _ => rfl]

theorem running_setBay {q : BaySeq} (hq : q.running = false) (x : Nat) :
    ((s.setBay b q).bayAt x).running = if x = b then false else (s.bayAt x).running := by
  rw [State.setBay, State.bayAt, tget_tput]
  split
  case isTrue => exact hq
  case isFalse => rfl

/-- One bay: units, then channels, then the sequencer. -/
theorem BaysPreempted.of_parts {q : BaySeq} (hu : UnitsPreempted b s t) (hc : StreamsOnly t u)
    (hq : q.running = false) : BaysPreempted [b] s (u.setBay b q) := by
  have hfaultless (x k : Nat) (hk : (s.chanAt x k).fault = none) : (u.chanAt x k).fault = none :=
    hc.faultless x k ((congrArg Chan.fault (hu.chanAt x k)).trans hk)
  have hsequencer := running_setBay (s := u) (b := b) hq
  obtain ⟨chans, ports, rfl⟩ := hc.rest
  have htile := hu.tile
  have hvector := hu.vector
  obtain ⟨mtx, vec, rfl⟩ := hu.rest
  simp only [← List.mem_singleton (b := b)] at htile hvector hsequencer
  exact ⟨⟨_, _, _, _, _, rfl⟩, hfaultless, htile, hvector, hsequencer⟩

theorem preemptBay_eq (s : State) (b : Nat) : ∃ next, s.preemptBay b =
    ((s.preemptUnits b).preemptChans b).setBay b { ((s.preemptUnits b).preemptChans b).bayAt b with
      next, waiting := false, running := false, barrier := none } := ⟨_, rfl⟩

theorem preemptBay_baysPreempted (h : ∀ c < 16, (s.chanAt b c).fault = none) :
    BaysPreempted [b] s (s.preemptBay b) := by
  obtain ⟨next, e⟩ := preemptBay_eq s b
  have hu := preemptUnits_unitsPreempted s b
  rw [e]
  exact .of_parts hu (preemptChans_streamsOnly fun c hc => (congrArg Chan.fault (hu.chanAt b c)).trans (h c hc)) rfl

theorem each_preemptBay_baysPreempted (h : ∀ b ∈ bs, ∀ c < 16, (s.chanAt b c).fault = none) :
    BaysPreempted bs s (s.each bs State.preemptBay) := by
  induction bs generalizing s with
  | nil => exact .refl s
  | cons b bs ih =>
    obtain ⟨hb, hbs⟩ := List.forall_mem_cons.1 h
    have hfirst := preemptBay_baysPreempted hb
    rw [each_cons, ← List.singleton_append]
    exact hfirst.trans (ih fun x hx c hc => hfirst.faultless x c (hbs x hx c hc))

/-! ### The job (R148, R158, R160) -/

theorem execPreemption_running {j : Nat} {v : Job} (hj : s.jobAt j = some v) (hv : v.phase = .running) :
    execPreemption j s = .next (s.preemptJob j v) := by
  simp [execPreemption, hj, hv]

theorem jobAt_setJob_same (s : State) (j : Nat) (v : Job) : (s.setJob j v).jobAt j = some v := by
  have hput : (tput s.jobs j v).find? (fun e => e.1 == j) = some (j, v) := by
    fun_induction tput s.jobs j v <;> grind
  exact congrArg (Option.map Prod.snd) hput

/-- Settles O40: the command is the request on the job's bays one after another, and what it makes of each is read off
the units, of which none reacts to it twice. -/
theorem preemptionReachesEveryBay : Obligations.PreemptionReachesEveryBay := by
  intro j v s hj hv
  refine ⟨_, execPreemption_running hj hv, fun hfault => ?_⟩
  have h : BaysPreempted v.bays (s.setJob j { v with phase := .preempting, arrivals := [] }) (s.preemptJob j v) :=
    each_preemptBay_baysPreempted hfault
  obtain ⟨_, _, _, _, _, e⟩ := h.rest
  refine ⟨?_, fun b hb => ⟨fun i hi => ?_, fun hidle => ?_, fun hactive hran => ?_, ?_⟩, ?_⟩
  · rw [e]
    exact jobAt_setJob_same s j _
  · rw [h.tile b i hi, if_pos hb]
    exact ⟨preemptTile_preempt _, preemptTile_handed _⟩
  · rw [h.vector b, if_pos hb]
    exact preemptVec_active hidle
  · rw [h.vector b, if_pos hb]
    exact preemptVec_of_ran_ne_nil hactive hran
  · rw [h.sequencer b, if_pos hb]
  · rw [e]
    rfl

end Sys2Proof.Machine
end

section
/-! SUPPORT. Transfers of a stream: what sending out a request or a table read leaves of the state, what a write through
the crema port stores, and each answer's effect on its channel (R117, R121 to R128, R134 to R136, R150, R159). -/

namespace Sys2Proof.Machine

variable {s t u : State} {b c : Nat}

/-! ### What sending out leaves (R134, R231, R249) -/

/-- Only registers and the packets of the tile network have changed. -/
def NetworkOnly (s t : State) : Prop := t = { s with regs := t.regs, noc := t.noc, nextNoc := t.nextNoc }

namespace NetworkOnly

theorem refl (s : State) : NetworkOnly s s := rfl

theorem trans (h : NetworkOnly s t) (k : NetworkOnly t u) : NetworkOnly s u :=
  Eq.trans k (congrArg (fun x : State => { x with regs := u.regs, noc := u.noc, nextNoc := u.nextNoc }) h)

theorem ite {p : Prop} [Decidable p] (ht : NetworkOnly s t) (hu : NetworkOnly s u) :
    NetworkOnly s (if p then t else u) := by
  split <;> assumption

theorem wr (s : State) (k : Nat) (v : Word) : NetworkOnly s (s.wr k v) := rfl

theorem bump64 (s : State) (k n : Nat) : NetworkOnly s (s.bump64 k n) := (wr ..).trans (.wr ..)

/-- A refused access counts and leaves a flag. -/
theorem bump_setFlag (s : State) (k n k' i : Nat) : NetworkOnly s ((s.bump k n).setFlag k' i) := (wr ..).trans (.wr ..)

theorem srcBump (s : State) (p : NocPacket) (o f : Nat) : NetworkOnly s (s.srcBump p o f) := by
  unfold State.srcBump
  split
  · exact bump_setFlag ..
  · exact refl s

theorem setNoc (s : State) (n : Nat) (v : NocReq) : NetworkOnly s (s.setNoc n v) := rfl

theorem nocIssue (s : State) (set : Nat) (p : NocPacket) (o : NocOwner) (g : Option Nat) :
    NetworkOnly s (s.nocIssue set p o g).2 := by
  have hdemoted {x : Prop} [Decidable x] : NetworkOnly s (if x then s.srcBump p Reg.NOC_RIS_DEMOTED 0 else s) :=
    .ite (.srcBump ..) (.refl s)
  unfold State.nocIssue
  dsimp only
  split
  · refine .trans (.trans ?_ (.bump64 ..)) (.bump64 ..)
    split
    · exact hdemoted.trans (.srcBump ..)
    · exact hdemoted
  · split
    · exact hdemoted.trans (.srcBump ..)
    · exact hdemoted

theorem nocSubmit (s : State) (p : NocPacket) (o : NocOwner) (g : Option Nat) :
    NetworkOnly s (s.nocSubmit p o g).2 := by
  have hnumber (n : Nat) : NetworkOnly s { s with nextNoc := n } := rfl
  unfold State.nocSubmit
  dsimp only
  split
  · exact (hnumber _).trans (.setNoc ..)
  · exact ((hnumber _).trans (.nocIssue ..)).trans (.setNoc ..)

theorem noMemory (s : State) (home A : Nat) : ∀ r ∈ s.noMemory home A, NetworkOnly s r.2 := by
  intro r hr
  unfold State.noMemory at hr
  split at hr
  case h_4 => cases hr
  all_goals
    obtain rfl := Option.some.inj hr
    exact bump_setFlag ..

theorem sendOut (s : State) (b : Nat) (o : NocOwner) (t : Target) (len : Nat) (w : Option (List Byte)) :
    NetworkOnly s (s.sendOut b o t len w).2.2 := by
  unfold State.sendOut State.decoderAnswer
  dsimp only
  split
  · split
    · exact refl s
    · split
      · next h =>
        split at h
        · cases h
        · exact noMemory s _ _ _ h
      · exact nocSubmit ..
  · exact nocSubmit ..

theorem chanAt (h : NetworkOnly s t) (b c : Nat) : t.chanAt b c = s.chanAt b c := by rw [h]; rfl

end NetworkOnly

/-! ### Requests and table reads set out (R134, R150) -/

/-- Request r of channel c has been issued to x. -/
def Issued (b c : Nat) (s t : State) (r : Req) (x : Target) : Prop :=
  t.mem = s.mem ∧ (t.chanAt b c).todo = (s.chanAt b c).todo.filter (fun q => q.id != r.id) ∧
  (t.chanAt b c).walk = none ∧ (t.chanAt b c).state = .running ∧
  ∃ net back, (t.chanAt b c).outstanding = (s.chanAt b c).outstanding ++
    [{ r with target := some x, net := net, back := back, gone := false }]

/-- The walk for request r of channel c reads its entry in a table of a level. -/
def Walking (b c : Nat) (s t : State) (r : Req) (level table : Nat) : Prop :=
  t.mem = s.mem ∧ ∃ net back, t.chanAt b c =
    { s.chanAt b c with state := .running, walk := some (.mk r level (entryAddr level table r.addr) net back) }

/-- An issue changes the channel beside what sending out changes. -/
theorem issue_eq (s : State) (b c : Nat) (r : Req) (x : Target) : ∃ (u : State) (ch : Chan),
    NetworkOnly s u ∧ s.issue b c r x = u.setChan b c ch := ⟨_, _, .sendOut .., rfl⟩

theorem issue_issued (s : State) (b c : Nat) (r : Req) (x : Target) : Issued b c s (s.issue b c r x) r x := by
  have h := NetworkOnly.sendOut s b (.stream b c r.id) x r.len (if r.write then some (r.data.getD []) else none)
  unfold Issued State.issue
  dsimp only
  rw [chanAt_setChan_same, h.chanAt]
  exact ⟨(congrArg State.mem h).trans rfl, rfl, rfl, rfl, _, _, rfl⟩

theorem issue_bayAt (s : State) (b c : Nat) (r : Req) (x : Target) (k : Nat) :
    (s.issue b c r x).bayAt k = s.bayAt k := by
  obtain ⟨u, ch, h, e⟩ := issue_eq s b c r x
  rw [e]
  exact (congrArg (fun v : State => v.bayAt k) h).trans rfl

theorem startWalk_walking (s : State) (b c : Nat) (r : Req) (level table : Nat) :
    Walking b c s (s.startWalk b c r level table) r level table := by
  have h := NetworkOnly.sendOut s b (.walk b c) (.device (entryAddr level table r.addr)) 8 none
  unfold Walking State.startWalk
  dsimp only
  rw [chanAt_setChan_same, h.chanAt]
  exact ⟨(congrArg State.mem h).trans rfl, _, _, rfl⟩

theorem translateFront_cached {r : Req} {rest : List Req} {level e : Nat} (hr : (s.chanAt b c).todo = r :: rest)
    (hrange : r.addr / 2 ^ 48 = 0) (htlb : tlbFind (s.bayAt b).tlb (s.bayPart b) r.addr = some (level, e)) :
    s.translateFront b c = s.translated b c r (leafTarget level e r.addr r.write) := by
  simp only [State.translateFront, hr, htlb]
  rw [if_neg (not_not.2 hrange)]

theorem translateFront_missed {r : Req} {rest : List Req} (hr : (s.chanAt b c).todo = r :: rest)
    (hrange : r.addr / 2 ^ 48 = 0) (htlb : tlbFind (s.bayAt b).tlb (s.bayPart b) r.addr = none) :
    s.translateFront b c = s.startWalk b c r 0 (s.partFor (dieOfBay b) (s.bayPart b)).root := by
  simp only [State.translateFront, hr, htlb]
  rw [if_neg (not_not.2 hrange)]

/-! ### Issue, and the wait for credit (R117, R134, R144) -/

/-- The channel may issue: it has started, it is neither paused nor stopping nor coming to a fault, no walk of its is
under way, and neither it nor its engine has all its requests in flight. -/
structure MayIssue (s : State) (b c : Nat) : Prop where
  started : (s.chanAt b c).started = true
  notPaused : (s.chanAt b c).state ≠ .paused
  noWalk : (s.chanAt b c).walk = none
  flying : (s.chanAt b c).flying.length < 128
  engineFlying : s.engineFlying b < 1024
  faultless : (s.chanAt b c).fault = none
  notStopping : (s.chanAt b c).stopReq = false

section
variable {b : Bay} {c : Channel}

theorem execStreamRequestIssue_front (h : MayIssue s b c) {r : Req} {rest : List Req}
    (hr : (s.chanAt b c).todo = r :: rest) : execStreamRequestIssue b c s = .next (s.translateFront b c) := by
  simp [execStreamRequestIssue, h.started, h.notPaused, h.noWalk, h.flying, h.engineFlying, h.faultless,
    h.notStopping, hr]

theorem execStreamRequestIssue_lacks (h : MayIssue s b c) (hr : (s.chanAt b c).todo = [])
    (hform : (s.setChan b c (s.chanAt b c)).formUnit b c = none)
    (hlacks : (s.setChan b c (s.chanAt b c)).lacks b c = true) :
    execStreamRequestIssue b c s = .next (((s.setChan b c (s.chanAt b c)).creditWait b c).settle b c) := by
  simp [execStreamRequestIssue, h.started, h.notPaused, h.noWalk, h.flying, h.engineFlying, h.faultless,
    h.notStopping, hr, hform, hlacks]

end

/-- A channel that has neither ended nor been asked to stop goes on as it is. -/
theorem settle_eq_self (hf : (s.chanAt b c).fault = none) (hn : (s.chanAt b c).finished = false)
    (hs : (s.chanAt b c).stopReq = false) : s.settle b c = s := by
  simp [State.settle, hf, hn, hs]

theorem creditWait_chanAt (s : State) (b c : Nat) :
    (s.creditWait b c).chanAt b c = { s.chanAt b c with state := .creditWait } := chanAt_setChan_same ..

theorem execStreamRequestIssue_waits {b : Bay} {c : Channel} (h : MayIssue s b c) (hr : (s.chanAt b c).todo = [])
    (hn : (s.chanAt b c).finished = false) (hform : (s.setChan b c (s.chanAt b c)).formUnit b c = none)
    (hlacks : (s.setChan b c (s.chanAt b c)).lacks b c = true) :
    execStreamRequestIssue b c s = .next ((s.setChan b c (s.chanAt b c)).creditWait b c) := by
  have hw := creditWait_chanAt (s.setChan b c (s.chanAt b c)) b c
  rw [chanAt_setChan_same] at hw
  rw [execStreamRequestIssue_lacks h hr hform hlacks, settle_eq_self]
  · exact (congrArg Chan.fault hw).trans h.faultless
  · exact (congrArg Chan.finished hw).trans hn
  · exact (congrArg Chan.stopReq hw).trans h.notStopping

/-! ### A table entry answers (R150, R159) -/

/-- The leaf that a walk has come to joins the cached translations of the bay. -/
def State.cacheLeaf (s : State) (b : Nat) (w : Walk) (e : Nat) : State :=
  let t : TlbEntry := ⟨s.bayPart b, w.level, w.req.addr / leafBytes w.level, BitVec.ofNat 64 e⟩
  s.setBay b { s.bayAt b with tlb := tlbAdd 256 (s.bayAt b).tlb t }

theorem mem_cacheLeaf (s : State) (b : Nat) (w : Walk) (e : Nat) :
    ⟨s.bayPart b, w.level, w.req.addr / leafBytes w.level, BitVec.ofNat 64 e⟩ ∈ ((s.cacheLeaf b w e).bayAt b).tlb := by
  rw [State.cacheLeaf, bayAt_setBay_same]
  exact List.mem_append_right _ (List.mem_singleton_self _)

section
variable {b : Bay} {c : Channel} {w : Walk} {m : MemFind} {a : MemAns}

theorem execTableWalkResponse_noWalk (m : MemFind) (h : (s.chanAt b c).walk = none) :
    execTableWalkResponse b c m s = .next s := by
  simp only [execTableWalkResponse, h]

variable (hw : (s.chanAt b c).walk = some w)
  (ha : s.answered w.entryAddr w.net w.back (fun s => s.memRead (homeOfBay b) w.entryAddr 8 m) = some (a, u))
  (hstatus : a.status = 0)
include hw ha hstatus

theorem execTableWalkResponse_next {table : Nat} (hstep : walkStep w.level (bytesNat a.data) = .next table) :
    execTableWalkResponse b c m s = .next (u.startWalk b c w.req (w.level + 1) table) := by
  simp only [execTableWalkResponse, hw, ha, hstep]
  exact if_neg (not_not.2 hstatus)

theorem execTableWalkResponse_leaf {e : Nat} {x : Target} (hstep : walkStep w.level (bytesNat a.data) = .leaf e)
    (hx : leafTarget w.level e w.req.addr w.req.write = .target x) :
    execTableWalkResponse b c m s = .next ((u.cacheLeaf b w e).issue b c w.req x) := by
  simp only [execTableWalkResponse, hw, ha, hstep, hx]
  exact if_neg (not_not.2 hstatus)

end

/-! ### Counters of bytes (R144) -/

theorem wr64_mod (s : State) (k v : Nat) : s.wr64 k (v % 2 ^ 64) = s.wr64 k v := by
  have hlo : BitVec.ofNat 32 (v % 2 ^ 64) = BitVec.ofNat 32 v := BitVec.eq_of_toNat_eq (by simp)
  have hhi : BitVec.ofNat 32 (v % 2 ^ 64 / 2 ^ 32) = BitVec.ofNat 32 (v / 2 ^ 32) :=
    BitVec.eq_of_toNat_eq (by simp only [BitVec.toNat_ofNat]; omega)
  rw [wr64_eq, wr64_eq, hlo, hhi]

theorem rd64_bump64 (s : State) (k n : Nat) : (s.bump64 k n).rd64 k = (s.rd64 k + n) % 2 ^ 64 := by
  rw [State.bump64, ← wr64_mod, rd64_wr64 s k (Nat.mod_lt _ (by decide))]

theorem rd64_congr {s t : State} (h : s.regs = t.regs) (k : Nat) : s.rd64 k = t.rd64 k := by
  simp only [State.rd64, State.rdN, rd_congr h]

/-! ### A read or a write answers (R134 to R136, R159) -/

/-- The data of an answer is kept with its request. -/
def Chan.keep (ch : Chan) (id : Nat) (data : List Byte) : Chan :=
  { ch with outstanding := ch.outstanding.map (fun q => if q.id == id then { q with data := some data } else q) }

/-- A request leaves the outstanding ones. -/
def Chan.forget (ch : Chan) (id : Nat) : Chan := { ch with outstanding := ch.outstanding.filter (fun q => q.id != id) }

/-- An acknowledgement may return a staging block, and changes nothing else. -/
theorem acked_eq (ch : Chan) (r : Req) : ∃ stages held, ch.acked r = { ch with stages, held } := by
  unfold Chan.acked
  split <;> exact ⟨_, _, rfl⟩

section
variable {b : Bay} {c : Channel} {id : Nat} {m : MemFind} {r : Req} {a : MemAns}

theorem execStreamReadResponse_unknown (m : MemFind)
    (h : (s.chanAt b c).outstanding.find? (fun r => r.id == id && !r.write && r.data.isNone) = none) :
    execStreamReadResponse b c id m s = .next s := by
  simp only [execStreamReadResponse, h]

theorem execStreamReadResponse_gone
    (h : (s.chanAt b c).outstanding.find? (fun r => r.id == id && !r.write && r.data.isNone) = some r)
    (hp : s.perform b r m = some (a, u)) (hgone : r.gone = true) :
    execStreamReadResponse b c id m s = .next ((u.setChan b c ((u.chanAt b c).forget id)).settle b c) := by
  simp only [execStreamReadResponse, h, hp, hgone, if_true]
  rfl

theorem execStreamReadResponse_data
    (h : (s.chanAt b c).outstanding.find? (fun r => r.id == id && !r.write && r.data.isNone) = some r)
    (hp : s.perform b r m = some (a, u)) (hgone : r.gone = false) (hstatus : a.status = 0) :
    execStreamReadResponse b c id m s = .next ((u.dataCame b c id r a.data).settle b c) := by
  simp only [execStreamReadResponse, h, hp, hgone, Bool.false_eq_true, if_false]
  exact if_neg (not_not.2 hstatus)

/-- A write acknowledged on a channel without a fault. -/
theorem execStreamWriteAck_done (h : (s.chanAt b c).outstanding.find? (fun r => r.id == id && r.write) = some r)
    (hp : s.perform b r m = some (a, u)) (hstatus : a.status = 0) (hgone : r.gone = false)
    (hf : (u.chanAt b c).fault = none) :
    execStreamWriteAck b c id m s = .next (((u.setChan b c (((u.chanAt b c).forget id).acked r)).bump64
      (strReg b Reg.STR_BYTES_OUT) r.len).settle b c) := by
  simp only [execStreamWriteAck, Chan.forget, h, hp, hgone, hf, Bool.false_eq_true, if_false]
  exact if_neg (not_not.2 hstatus)

end

/-- Read data is kept and counted. -/
def State.keepData (s : State) (b c id : Nat) (r : Req) (data : List Byte) : State :=
  (s.setChan b c ((s.chanAt b c).keep id data)).bump64 (strReg b Reg.STR_BYTES_IN) r.len

/-- Then writes or rows are formed of it. -/
theorem dataCame_eq (s : State) (b c id : Nat) (r : Req) (data : List Byte) :
    s.dataCame b c id r data =
      if (s.chanAt b c).desc.kind = 2 then (s.keepData b c id r data).setChan b c
        (Chan.copyAll (s.chanAt b c).desc.total ((s.keepData b c id r data).chanAt b c))
      else (s.keepData b c id r data).convertRows b c ((s.chanAt b c).desc.rows - (s.chanAt b c).converted) := rfl

/-! ### A write through the crema port (R249, R253) -/

theorem tbytes_tputBytes (t : Table Byte) (a : Nat) (vs : List Byte) : tbytes (tputBytes t a vs) a vs.length = vs := by
  refine List.ext_getElem (by simp [tbytes]) fun i hi hi' => ?_
  simp only [tbytes, List.getElem_map, List.getElem_range]
  exact tget_tputBytes_in t a vs i hi'

/-- An access that reaches no memory is answered with a status that says so. -/
theorem noMemory_status {home A : Nat} : ∀ r ∈ s.noMemory home A, r.1 ≠ 0 := by
  intro r hr
  unfold State.noMemory at hr
  split at hr
  case h_4 => cases hr
  all_goals
    obtain rfl := Option.some.inj hr
    exact Nat.succ_ne_zero _

/-- A write that is answered with status 0 has stored its bytes. -/
theorem memWrite_stores {home A : Nat} {bs : List Byte} {m : MemFind} (h : (s.memWrite home A bs m).1.status = 0) :
    (s.memWrite home A bs m).2.readBytes A bs.length = bs := by
  unfold State.memWrite at h ⊢
  split
  next st v hno =>
    rw [hno] at h
    exact absurd h (noMemory_status _ hno)
  next hno =>
    rw [hno] at h
    dsimp only at h ⊢
    split
    next a more hbad =>
      rw [hbad] at h
      cases h
    next => exact tbytes_tputBytes _ A bs

theorem perform_stores {b A : Nat} {r : Req} {m : MemFind} {a : MemAns} {bs : List Byte}
    (hp : s.perform b r m = some (a, u)) (hstatus : a.status = 0) (hwrite : r.write = true)
    (htarget : r.target = some (.device A)) (hnet : r.net = none) (hback : r.back = none) (hdata : r.data = some bs) :
    u.readBytes A bs.length = bs := by
  simp only [State.perform, State.answered, hback, hnet, htarget, hwrite, hdata, Option.isSome_none, Bool.false_eq_true,
    if_false, if_true, Option.getD_some, Option.some.injEq] at hp
  have h := memWrite_stores (s := s) (home := homeOfBay b) (A := A) (bs := bs) (m := m)
  rw [hp] at h
  exact h hstatus

/-! ### Rows and records (R126, R127, R135) -/

/-- A delivery brings no channel to a fault. -/
theorem deliver_fault {bay dst chan addr : Nat} {w : Writer} {bytes : List (Option Byte)} {done : Bool}
    (h : s.deliver bay w dst chan addr bytes done = some u) (x k : Nat) :
    (u.chanAt x k).fault = (s.chanAt x k).fault := by
  have harrivals (xs : List Arrival) :
      ((s.setChan bay chan { s.chanAt bay chan with arrivals := xs }).chanAt x k).fault = (s.chanAt x k).fault := by
    rw [chanAt_setChan]
    split
    next e => exact congrArg (fun n => (tget (fun _ => Chan.init) s.chans n).fault) e.symm
    next => rfl
  unfold State.deliver at h
  dsimp only at h
  split_ifs at h
  · cases h; rfl
  · cases h; rfl
  · cases h; exact harrivals _
  all_goals
    split at h
    · cases h
    · cases h; rfl

section
variable {b : Bay} {c : Channel}

/-- The channel once the row at its front has been accepted. -/
def Chan.advance (ch : Chan) (rest : List Row) : Chan :=
  { ch with rows := rest, accepted := ch.accepted + 1, state := if ch.state == .creditWait then .running else ch.state }

theorem execStreamRowAccept_accepts {r : Row} {rest : List Row} (hr : (s.chanAt b c).rows = r :: rest)
    (hcredit : (s.chanAt b c).deliverable = true)
    (hu : s.deliver b (chanWriter b c) (s.chanAt b c).desc.peer (s.chanAt b c).desc.peerChannel
      ((s.chanAt b c).desc.rowAddr r.num) (r.bytes.map some)
      (decide (r.num + 1 = (s.chanAt b c).desc.rows) && (s.chanAt b c).desc.toPort) = some u) :
    execStreamRowAccept b c s = .next (((u.setChan b c ((u.chanAt b c).advance rest)).bump64
      (strReg b Reg.STR_BYTES_OUT) r.bytes.length).settle b c) := by
  simp only [execStreamRowAccept, hr, hcredit, hu, Bool.not_true, Bool.false_eq_true, if_false]
  rfl

theorem execStoreRecordReceive_record {w : Writer} {bytes : List Byte} {done : Bool} {rest : List Arrival}
    (h : (s.chanAt b c).arrivals = .record w bytes done :: rest) (hrest : ∀ v bs, rest.head? ≠ some (.ends v bs)) :
    execStoreRecordReceive b c s =
      .next ((s.setChan b c { (s.chanAt b c).land w bytes done with arrivals := rest }).settle b c) := by
  simp only [execStoreRecordReceive, h]
  split
  · exact absurd rfl (hrest _ _)
  · rfl

theorem execStoreRecordReceive_ends {w : Writer} {bs : List Nat} {rest : List Arrival}
    (h : (s.chanAt b c).arrivals = .ends w bs :: rest) : execStoreRecordReceive b c s =
      .next ((s.setChan b c ({ s.chanAt b c with arrivals := rest }.completeStages bs)).settle b c) := by
  simp only [execStoreRecordReceive, h]

end

/-- A channel without a fault settles without touching memory. -/
theorem settle_mem (h : (s.chanAt b c).fault = none) : (s.settle b c).mem = s.mem := by
  obtain ⟨_, _, e⟩ := (settle_streamsOnly h).rest
  rw [e]

/-- Settles O46: issue and wait, walk, answers, rows and records in turn: the next state of each command, and its
channel. -/
theorem streamTransfersComplete : Obligations.StreamTransfersComplete := by
  intro b c s
  refine ⟨?_, ?_, ?_, ?_, ?_, ?_, ?_⟩
  · intro hstarted hpaused hwalk hflying hengine hfault hstop
    have may : MayIssue s b c := ⟨hstarted, hpaused, hwalk, hflying, hengine, hfault, hstop⟩
    refine ⟨fun r rest hr hrange => ⟨fun level e x htlb hx => ?_, fun htlb => ?_⟩, fun hr hn hform hlacks => ?_⟩
    · refine ⟨_, execStreamRequestIssue_front may hr, ?_⟩
      rw [translateFront_cached hr hrange htlb, hx]
      exact issue_issued s b c r x
    · refine ⟨_, execStreamRequestIssue_front may hr, ?_⟩
      rw [translateFront_missed hr hrange htlb]
      exact startWalk_walking ..
    · refine ⟨_, execStreamRequestIssue_waits may hr hn hform hlacks, ?_, rfl, rd_bump_same ..⟩
      rw [creditWait_chanAt, chanAt_setChan_same]
  · exact fun m => execTableWalkResponse_noWalk m
  · intro w m a u hw ha hstatus
    refine ⟨fun table hstep => ?_, fun e x hstep hx => ?_⟩
    · exact ⟨_, execTableWalkResponse_next hw ha hstatus hstep, startWalk_walking ..⟩
    · refine ⟨_, execTableWalkResponse_leaf hw ha hstatus hstep hx, issue_issued _ b c w.req x, ?_⟩
      rw [issue_bayAt]
      exact mem_cacheLeaf ..
  · intro id m
    refine ⟨execStreamReadResponse_unknown m, fun r a u hr hp => ⟨?_, fun hgone hstatus => ?_⟩,
      fun r a u hr hp hstatus hgone hfault => ?_⟩
    · exact execStreamReadResponse_gone hr hp
    · refine ⟨_, execStreamReadResponse_data hr hp hgone hstatus, u.keepData b c id r a.data, rd64_bump64 ..,
        chanAt_setChan_same .., rfl, ?_⟩
      rw [dataCame_eq]
    · have hwrite : r.write = true := 
        (Bool.and_eq_true_iff.1 (List.find?_some (p := fun q : Req => q.id == id && q.write) hr)).2
      obtain ⟨stages, held, hacked⟩ := acked_eq ((u.chanAt b c).forget id) r
      have hchan := (chanAt_setChan_same u b c (((u.chanAt b c).forget id).acked r)).trans hacked
      have hmem := settle_mem (s := (u.setChan b c (((u.chanAt b c).forget id).acked r)).bump64
        (strReg b Reg.STR_BYTES_OUT) r.len) (b := b) (c := c) ((congrArg Chan.fault hchan).trans hfault)
      refine ⟨_, execStreamWriteAck_done hr hp hstatus hgone hfault, hmem, ⟨_, rfl, rd64_bump64 .., ?_⟩, ?_⟩
      · exact congrArg Chan.outstanding hchan
      · intro x bs htarget hnet hback hdata
        have hstored := perform_stores hp hstatus hwrite htarget hnet hback hdata
        exact (congrArg (fun mem => tbytes mem x bs.length) hmem).trans hstored
  · intro r rest u hr hcredit hu hfault
    obtain ⟨hmem, hregs⟩ := deliver_keeps hu
    have hchan := chanAt_setChan_same u b c ((u.chanAt b c).advance rest)
    refine ⟨_, execStreamRowAccept_accepts hr hcredit hu, ?_, _, rfl, ?_, ?_, ?_⟩
    · refine (settle_mem ?_).trans hmem
      exact (congrArg Chan.fault hchan).trans ((deliver_fault hu b c).trans hfault)
    · exact congrArg Chan.rows hchan
    · exact congrArg Chan.accepted hchan
    · exact (rd64_bump64 ..).trans (congrArg (fun n => (n + r.bytes.length) % 2 ^ 64) (rd64_congr hregs _))
  · exact fun w bytes done rest => execStoreRecordReceive_record
  · exact fun w bs rest => execStoreRecordReceive_ends

end Sys2Proof.Machine
end

section
/-! SUPPORT. The course of a stream: what a command of the sequencer comes to once it is fetched, where a stream is placed
and begins, and what a short end leaves of its channel (R122, R128 to R131, R137, R139, R144, R147). -/

namespace Sys2Proof.Machine

variable {s t u : State}

/-! ### A command of the sequencer (R147) -/

/-- A command that has been fetched runs. -/
theorem runCmd_fetched {b op j c : Nat} {m w : MemFind} {v : Job} (h : s.fetched b op m w j v c u)
    (hop : op ∈ [1, 2, 3, 4, 5, 6, 7, 15]) (act : Nat → Job → Nat → MemFind → State → Out) :
    runCmd op b m act s = act j v c w u := by
  obtain ⟨hjob, hv, hphase, hrun, hwait, hfin, hlist, ⟨r, hr, hstatus, hc⟩, hcop, hw⟩ := h
  have hmore : ¬ (s.bayAt b).cmdBytes ≤ 8 * (s.bayAt b).next := Nat.not_le.2 hlist
  have hknown : [1, 2, 3, 4, 5, 6, 7, 15].contains (cmdOp c) = true := by
    rw [hcop]
    exact List.contains_iff_mem.2 hop
  simp only [runCmd, hjob, hv, hr, hc, hrun, hwait, hfin, hphase, if_neg hmore, if_neg (not_not.2 hstatus),
    if_pos hknown, if_pos hcop]
  rw [hw]
  rfl

/-! ### The blocks of the stream before (R126, R135) -/

/-- Completing them reaches operand buffers and vector data memory. -/
theorem completeCredits_eq (s : State) (b c : Nat) : ∃ mtx vec, s.completeCredits b c = { s with mtx, vec } := by
  refine each_induction (fun u => ∃ mtx vec, u = { s with mtx, vec }) ?_ _ ⟨_, _, rfl⟩
  rintro _ blk ⟨mtx, vec, rfl⟩
  dsimp only
  split
  · split <;> exact ⟨_, _, rfl⟩
  · split
    · split <;> exact ⟨_, _, rfl⟩
    · exact ⟨_, _, rfl⟩

theorem completeCredits_of_none {b c : Nat} (h : (s.chanAt b c).state ≠ .ended ∨ (s.chanAt b c).credits = []) :
    s.completeCredits b c = s := by
  have hnone : (if (s.chanAt b c).state = .ended then (s.chanAt b c).credits else []) = [] := by
    rcases h with h | h
    · exact if_neg h
    · rw [h, ite_self]
  simp only [State.completeCredits, hnone, each_nil]

/-- Block `blk` of vector data memory is complete where w was filling it. -/
def State.vecComplete (s : State) (b : Nat) (w : Writer) (blk : Nat) : State :=
  if (s.vecAt b).block blk = .filling w then s.setVec b ((s.vecAt b).setBlock blk .valid) else s

theorem completeCredits_vec {b c : Nat} (hend : (s.chanAt b c).state = .ended) (hpeer : (s.chanAt b c).desc.peer = 1) :
    s.completeCredits b c = s.each (s.chanAt b c).credits fun s => s.vecComplete b (chanWriter b c) := by
  simp only [State.completeCredits, hend, hpeer, if_true]
  rfl

/-- A block that is not filling stays so. -/
theorem vecComplete_keeps {b k : Nat} {w : Writer} (blk : Nat) (h : (s.vecAt b).block k ≠ .filling w) :
    ((s.vecComplete b w blk).vecAt b).block k ≠ .filling w := by
  unfold State.vecComplete
  split
  · rw [vecAt_setVec_same, Vec.block, Vec.setBlock, tget_tset]
    split
    · exact VecBlock.noConfusion
    · exact h
  · exact h

theorem vecComplete_done (s : State) (b : Nat) (w : Writer) (blk : Nat) :
    ((s.vecComplete b w blk).vecAt b).block blk ≠ .filling w := by
  unfold State.vecComplete
  split
  · rw [vecAt_setVec_same, block_setBlock_same]
    exact VecBlock.noConfusion
  · assumption

/-- After them none of the blocks is filling. -/
theorem each_vecComplete (b : Nat) (w : Writer) (blks : List Nat) : ∀ (s : State), ∀ k ∈ blks,
    ((s.each blks fun s => s.vecComplete b w).vecAt b).block k ≠ .filling w := by
  induction blks with
  | nil => exact fun _ _ h => nomatch h
  | cons blk blks ih =>
    intro s k hk
    rw [each_cons]
    rcases List.mem_cons.1 hk with rfl | hk
    · exact each_induction (fun u => (u.vecAt b).block k ≠ .filling w) (fun _ blk h => vecComplete_keeps blk h) blks
        (vecComplete_done s b w k)
    · exact ih _ k hk

/-! ### Placing (R122, R147) -/

theorem leftover_gone (ch : Chan) : ∀ q ∈ ch.leftover, q.gone = true := by simp [Chan.leftover]

/-- The state in which d has been placed on channel c: the blocks of the stream before are complete, and so is the
command. -/
def State.placed (s : State) (b c : Nat) (d : StreamDesc) (raw : List Byte) (inPlan : Bool) : State :=
  (((s.completeCredits b c).setChan b c ((s.chanAt b c).place d raw inPlan)).setBay b
    { s.bayAt b with bubble := (s.bayAt b).bubble || d.bubble != 0 }).cmdDone b

section
variable (s : State) (b c : Nat) (d : StreamDesc) (raw : List Byte) (inPlan : Bool)

theorem placed_eq : s.placed b c d raw inPlan =
    { s with chans := (s.placed b c d raw inPlan).chans, bays := (s.placed b c d raw inPlan).bays
             mtx := (s.placed b c d raw inPlan).mtx, vec := (s.placed b c d raw inPlan).vec } := by
  obtain ⟨mtx, vec, e⟩ := completeCredits_eq s b c
  unfold State.placed
  rw [e]
  rfl

theorem placed_eq_of_none (h : s.completeCredits b c = s) : s.placed b c d raw inPlan =
    { s with chans := (s.placed b c d raw inPlan).chans, bays := (s.placed b c d raw inPlan).bays } := by
  unfold State.placed
  rw [h]
  rfl

theorem placed_chanAt : (s.placed b c d raw inPlan).chanAt b c = (s.chanAt b c).place d raw inPlan :=
  chanAt_setChan_same ..

theorem placed_vecAt : (s.placed b c d raw inPlan).vecAt b = (s.completeCredits b c).vecAt b := rfl

theorem placed_bayAt : (s.placed b c d raw inPlan).bayAt b = { s.bayAt b with
    bubble := (s.bayAt b).bubble || d.bubble != 0, next := (s.bayAt b).next + 1, waiting := false, desc := none } := by
  rw [State.placed, State.cmdDone, bayAt_setBay_same, bayAt_setBay_same]

end

section
variable {b : Bay} {m m' : MemFind} {j c n : Nat} {v : Job} {r : MemAns} {d : StreamDesc} {w : State}

/-- A stream command has been fetched and its descriptor d read, which left w. -/
structure StreamRead (b : Bay) (m m' : MemFind) (j c n : Nat) (v : Job) (r : MemAns) (d : StreamDesc) (s u w : State) :
    Prop where
  fetched : s.fetched b 2 m m' j v c u
  size : n = if v.hdr.ver = 2 then 64 else 96
  inImage : offOk v c 32 n = true
  read : u.fetchDesc b v (cmdDesc c) n m' = (r, w)
  status : r.status = 0
  decoded : streamOf r.data = some d

theorem execStreamCmd_refused (h : StreamRead b m m' j c n v r d s u w) (href : d.refused = true) :
    execStreamCmd b m s = .next ((w.strFault b 0x40).failBay b 0x40 none 0) := by
  obtain ⟨hfetch, rfl, hoff, hread, hstatus, hd⟩ := h
  rw [execStreamCmd, runCmd_fetched hfetch (by decide)]
  simp only [hoff, hread, hstatus, hd, href, or_true, if_true]
  rfl

/-- The command that places an accepted descriptor goes by the state of its channel. -/
theorem execStreamCmd_accepted (h : StreamRead b m m' j c n v r d s u w) (hver : d.ver = v.hdr.ver)
    (href : d.refused = false)
    (hlayer : d.layer = (w.bayAt b).layer ∨ d.weightAhead = true ∧ d.layer = (w.bayAt b).layer + 1) :
    execStreamCmd b m s = if (w.chanAt b (cmdUnit c)).live then .next w else
      .next (w.placed b (cmdUnit c) d r.data
        (planned v.plan (w.bayAt b).logical (cmdUnit c) d.layer (cmdDesc c))) := by
  obtain ⟨hfetch, rfl, hoff, hread, hstatus, hd⟩ := h
  have hopen : (d.layer == (w.bayAt b).layer || (d.weightAhead && d.layer == (w.bayAt b).layer + 1)) = true := by
    simpa using hlayer
  rw [execStreamCmd, runCmd_fetched hfetch (by decide)]
  simp [hoff, hread, hstatus, hd, hver, href, hopen, State.placed]

end

/-! ### Changes of registers alone -/

section
variable {ks ks' : List Nat} (h : OnlyRegs s t ks)
include h

theorem OnlyRegs.mono (hks : ks ⊆ ks') : OnlyRegs s t ks' := ⟨h.1, fun k hk => h.2 k fun hk' => hk (hks hk')⟩

theorem OnlyRegs.mem_eq : t.mem = s.mem := (congrArg State.mem h.1).trans rfl

theorem OnlyRegs.chanAt_eq (b c : Nat) : t.chanAt b c = s.chanAt b c :=
  (congrArg (fun x : State => x.chanAt b c) h.1).trans rfl

end

/-! ### Beginning (R128 to R131, R144) -/

/-- The counters of a channel at zero. -/
def State.zeroCounters (s : State) (b c : Nat) : State := s.each chCounters fun s o => s.wr (chReg b c o) 0

theorem zeroCounters_onlyRegs (s : State) (b c : Nat) :
    OnlyRegs s (s.zeroCounters b c) (chCounters.map (chReg b c)) :=
  .each s fun _ ho t => .wr t _ 0 (List.mem_map_of_mem ho)

theorem rd_each_zero (f : Nat → Nat) (s : State) (os : List Nat) (k : Nat) :
    (s.each os fun s o => s.wr (f o) 0).rd k = if k ∈ os.map f then 0 else s.rd k := by
  induction os generalizing s with
  | nil => rfl
  | cons o os ih =>
    rw [each_cons, ih, rd_wr]
    by_cases hm : k ∈ os.map f <;> by_cases ho : k = f o <;> simp [hm, ho]

theorem rd_zeroCounters (s : State) (b c : Nat) {o : Nat} (ho : o ∈ chCounters) :
    (s.zeroCounters b c).rd (chReg b c o) = 0 :=
  (rd_each_zero (chReg b c) s chCounters _).trans (if_pos (List.mem_map_of_mem ho))

/-- The state in which the stream of a channel has begun. -/
def State.begun (s : State) (b c : Nat) : State :=
  (s.zeroCounters b c).setChan b c { s.chanAt b c with state := .running }

/-- The stream of channel c runs, with its counters at 0, and nothing else has changed. -/
def Begun (b c : Nat) (s t : State) : Prop :=
  t = { s with chans := t.chans, regs := t.regs } ∧ t.chanAt b c = { s.chanAt b c with state := .running } ∧
  (∀ o ∈ chCounters, t.rd (chReg b c o) = 0) ∧ RegsKept s t (chCounters.map (chReg b c))

theorem begun_begun (s : State) (b c : Nat) : Begun b c s (s.begun b c) := by
  have h := zeroCounters_onlyRegs s b c
  have hrd (k : Nat) : (s.begun b c).rd k = (s.zeroCounters b c).rd k := rd_congr (setChan_regs ..) k
  refine ⟨?_, chanAt_setChan_same .., fun o ho => (hrd _).trans (rd_zeroCounters s b c ho),
    fun k hk => (hrd k).trans (h.2 k hk)⟩
  unfold State.begun
  rw [h.1]
  rfl

/-- A stream begins where its floor fits. -/
theorem startStream_begins {b c : Nat} (h : s.floors b + s.poolTaken b + (s.chanAt b c).desc.floor ≤ 64) :
    s.startStream b c = .next (s.begun b c) := by
  have hplan : ¬ (64 < s.floors b + (s.chanAt b c).desc.floor ∧ !(s.chanAt b c).planned) := fun hn => by omega
  have hpool : ¬ 64 < s.floors b + s.poolTaken b + (s.chanAt b c).desc.floor := Nat.not_lt.2 h
  exact (if_neg hplan).trans (if_neg hpool)

theorem execStreamBegin_begins {b : Bay} {c : Channel} (hwait : (s.chanAt b c).state = .waitBarrier)
    (hstop : (s.chanAt b c).stopReq = false)
    (hfloor : s.floors b + s.poolTaken b + (s.chanAt b c).desc.floor ≤ 64)
    (hnow : (s.chanAt b c).desc.weightAhead = false)
    (hready : (s.chanAt b c).desc.kind = 1 ∨
      s.outputsPending b (s.chanAt b c).desc.layer (s.chanAt b c).desc.bubble = false) :
    execStreamBegin b c s = .next (s.begun b c) := by
  have hpending : ((s.chanAt b c).desc.kind != 1 &&
      s.outputsPending b (s.chanAt b c).desc.layer (s.chanAt b c).desc.bubble) = false := by
    rcases hready with h | h <;> simp [h]
  simp [execStreamBegin, hwait, hstop, hnow, hpending, startStream_begins hfloor]

theorem execWeightAheadBegin_begins {b : Bay} {c : Channel} (hwait : (s.chanAt b c).state = .waitBarrier)
    (hstop : (s.chanAt b c).stopReq = false)
    (hfloor : s.floors b + s.poolTaken b + (s.chanAt b c).desc.floor ≤ 64)
    (hahead : (s.chanAt b c).desc.weightAhead = true) (hopen : s.weightAheadOpen b (s.chanAt b c).desc.layer = true) :
    execWeightAheadBegin b c s = .next (s.begun b c) := by
  simp [execWeightAheadBegin, hwait, hstop, hahead, hopen, startStream_begins hfloor]

/-! ### A short end (R137, R139, R141) -/

/-- The channel of a stream that ends short; a stream that has ended is left as it is. -/
def Chan.shortEnd (ch : Chan) (status faultAddr : Nat) : Chan :=
  if ch.live then { ch.clear with state := .endedShort, status, faultAddr, credits := ch.credits } else ch

theorem shortEnd_of_live {ch : Chan} (h : ch.live = true) (status faultAddr : Nat) :
    ch.shortEnd status faultAddr = { ch.clear with state := .endedShort, status, faultAddr, credits := ch.credits } :=
  if_pos h

theorem shortEnd_live (ch : Chan) (status faultAddr : Nat) : (ch.shortEnd status faultAddr).live = false := by
  unfold Chan.shortEnd
  split
  · rfl
  case isFalse h => exact Bool.eq_false_iff.2 h

/-- What the engine counts of a short end of channel c. -/
def State.countShortEnd (s : State) (b c flags : Nat) : State :=
  let t := s.strFault b (flags ||| 1)
  if (s.chanAt b c).state = .waitBarrier then t.zeroCounters b c else t

theorem countShortEnd_onlyRegs (s : State) (b c flags : Nat) : OnlyRegs s (s.countShortEnd b c flags)
    ([strReg b Reg.STR_ERR_FLAGS, strReg b Reg.STR_FAULT_COUNT] ++ chCounters.map (chReg b c)) := by
  have hfault : OnlyRegs s (s.strFault b (flags ||| 1))
      ([strReg b Reg.STR_ERR_FLAGS, strReg b Reg.STR_FAULT_COUNT] ++ chCounters.map (chReg b c)) :=
    (OnlyRegs.wr s _ _ (by simp)).trans (.wr _ _ _ (by simp))
  unfold State.countShortEnd
  exact .ite (hfault.trans ((zeroCounters_onlyRegs ..).mono (List.subset_append_right ..))) hfault

theorem strReg_ne {b o o' : Nat} (h : o ≠ o') : strReg b o ≠ strReg b o' := fun e => h (Nat.add_left_cancel e)

/-- Of a stream that has begun it leaves the flag of a short end. -/
theorem countShortEnd_flag {b c : Nat} (h : (s.chanAt b c).state ≠ .waitBarrier) :
    (s.countShortEnd b c 0).rbit (strReg b Reg.STR_ERR_FLAGS) 0 = true := by
  have hne : strReg b Reg.STR_ERR_FLAGS ≠ strReg b Reg.STR_FAULT_COUNT := strReg_ne (by decide)
  have hflag := rbit_setFlag_same s (strReg b Reg.STR_ERR_FLAGS) 0 (by decide)
  rw [State.countShortEnd, if_neg h, State.rbit, State.rdN, State.strFault, rd_bump_ne _ _ hne]
  exact hflag

/-- A stream that ends short is counted, its channel has its end, and its record joins the job. -/
theorem endShort_of_live {b c : Nat} (h : (s.chanAt b c).live = true) (status faultAddr flags : Nat) : ∃ jobs,
    s.endShort b c status faultAddr flags =
      { (s.countShortEnd b c flags).setChan b c ((s.chanAt b c).shortEnd status faultAddr) with jobs } := by
  rw [shortEnd_of_live h]
  simp only [State.endShort, if_pos h]
  rw [← State.zeroCounters, ← State.countShortEnd]
  generalize State.setChan _ b c _ = u
  split
  · exact ⟨_, rfl⟩
  · unfold State.mapJob
    split <;> exact ⟨_, rfl⟩

theorem endShort_of_not_live {b c : Nat} (h : (s.chanAt b c).live = false) (status faultAddr flags : Nat) :
    s.endShort b c status faultAddr flags = s := if_neg (by simp [h])

/-- Of the channels of the bay the one that ends short alone changes. -/
theorem endShort_chanAt (s : State) (b c status faultAddr flags k : Nat) :
    (s.endShort b c status faultAddr flags).chanAt b k =
      if k = c then (s.chanAt b k).shortEnd status faultAddr else s.chanAt b k := by
  cases h : (s.chanAt b c).live with
  | true =>
    obtain ⟨jobs, e⟩ := endShort_of_live h status faultAddr flags
    rw [e]
    refine (chanAt_setChan _ b c b k _).trans ?_
    by_cases hk : k = c
    · rw [if_pos (by omega), if_pos hk, hk]
    · rw [if_neg (by omega), if_neg hk]
      exact (countShortEnd_onlyRegs s b c flags).chanAt_eq b k
  | false =>
    rw [endShort_of_not_live h]
    split
    case isTrue hk =>
      subst hk
      rw [Chan.shortEnd, if_neg (by simp [h])]
    case isFalse => rfl

theorem endShort_mem (s : State) (b c status faultAddr flags : Nat) :
    (s.endShort b c status faultAddr flags).mem = s.mem := by
  cases h : (s.chanAt b c).live with
  | true =>
    obtain ⟨jobs, e⟩ := endShort_of_live h status faultAddr flags
    rw [e]
    exact (countShortEnd_onlyRegs s b c flags).mem_eq
  | false => rw [endShort_of_not_live h]

/-! ### Pause and soft reset (R137, R139, R144) -/

/-- The stream of channel c has ended short with status n, in a state the rest of the job's end goes on from. -/
def EndsShort (b c : Nat) (s : State) (n : Nat) (t : State) : Prop := ∃ u : State, t = u.failBay b n none 0 ∧
  (u.chanAt b c).state = .endedShort ∧ (u.chanAt b c).status = n ∧ (∀ q ∈ (u.chanAt b c).outstanding, q.gone = true) ∧
  (u.chanAt b c).held = [] ∧ u.rbit (strReg b Reg.STR_ERR_FLAGS) 0 = true ∧ u.mem = s.mem

theorem abortStream_endsShort {b c : Nat} (h : (s.chanAt b c).state = .paused) (n : Nat) :
    EndsShort b c s n (s.abortStream b c n) := by
  have hlive : (s.chanAt b c).live = true := by simp [Chan.live, h]
  have hchan := (endShort_chanAt s b c n (s.chanAt b c).faultAddr 0 c).trans
    ((if_pos rfl).trans (shortEnd_of_live hlive n (s.chanAt b c).faultAddr))
  refine ⟨s.endShort b c n (s.chanAt b c).faultAddr 0, rfl, ?_, ?_, ?_, ?_, ?_, endShort_mem ..⟩
  · rw [hchan]
  · rw [hchan]
  · rw [hchan]
    exact leftover_gone _
  · rw [hchan]
    rfl
  · obtain ⟨jobs, e⟩ := endShort_of_live hlive n (s.chanAt b c).faultAddr 0
    rw [e]
    exact countShortEnd_flag (by simp [h])

section
variable {b : Bay} {c : Channel}

theorem execStreamResume_not_paused (h : (s.chanAt b c).state ≠ .paused) : execStreamResume b c s = .next s := if_neg h

theorem execStreamAbort_not_paused (h : (s.chanAt b c).state ≠ .paused) : execStreamAbort b c s = .next s := if_neg h

theorem execStreamResume_paused (h : (s.chanAt b c).state = .paused) :
    execStreamResume b c s = .next ((s.setChan b c (s.chanAt b c).again).settle b c) := if_pos h

theorem execStreamAbort_paused (h : (s.chanAt b c).state = .paused) :
    execStreamAbort b c s = .next (s.abortStream b c (0x0F + (s.chanAt b c).cause)) := if_pos h

theorem execPauseLimitExpiry_paused (h : (s.chanAt b c).state = .paused)
    (hlimit : s.rd (strReg b Reg.STR_PAUSE_LIMIT) ≠ 0) :
    execPauseLimitExpiry b c s = .next (s.abortStream b c 0x13) := by
  have hlimitN : s.rdN (strReg b Reg.STR_PAUSE_LIMIT) ≠ 0 := fun e => hlimit (BitVec.eq_of_toNat_eq e)
  simp [execPauseLimitExpiry, h, hlimitN]

end

/-- Changing each channel of a bay in turn. -/
theorem chanAt_each {b : Nat} {f : State → Nat → State} {g : Chan → Chan}
    (hf : ∀ s c k, (f s c).chanAt b k = if k = c then g (s.chanAt b k) else s.chanAt b k) (s : State) (n k : Nat) :
    (s.each (List.range n) f).chanAt b k = if k < n then g (s.chanAt b k) else s.chanAt b k := by
  induction n with
  | zero => rfl
  | succ n ih =>
    rw [each_range_succ, hf, ih]
    by_cases hk : k = n
    · rw [if_pos hk, if_neg (by omega), if_pos (by omega)]
    · rw [if_neg hk]
      exact if_congr (by omega) rfl rfl

/-- The channel once its staging has returned. -/
def Chan.returnStaging (ch : Chan) : Chan := { ch with held := [], stages := [], arrivals := [] }

/-- Every stream of the engine has ended short. -/
def State.endStreams (s : State) (b : Nat) : State := s.each (List.range 16) fun s c => s.endShort b c 0xF0 0 0

/-- All staging of the engine has returned. -/
def State.returnAll (s : State) (b : Nat) : State :=
  s.each (List.range 16) fun s c => s.setChan b c (s.chanAt b c).returnStaging

theorem chanAt_softReset (s : State) (b : Nat) {c : Nat} (hc : c < 16) :
    ((s.endStreams b).returnAll b).chanAt b c = ((s.chanAt b c).shortEnd 0xF0 0).returnStaging := by
  have hreturn (s : State) (c k : Nat) : (s.setChan b c (s.chanAt b c).returnStaging).chanAt b k =
      if k = c then (s.chanAt b k).returnStaging else s.chanAt b k := by
    rw [chanAt_setChan]
    by_cases hk : k = c
    · rw [if_pos (by omega), if_pos hk, hk]
    · rw [if_neg (by omega), if_neg hk]
  unfold State.returnAll State.endStreams
  rw [chanAt_each hreturn, if_pos hc, chanAt_each (g := fun ch => ch.shortEnd 0xF0 0)
    (fun s c k => endShort_chanAt s b c 0xF0 0 0 k), if_pos hc]

theorem endStreams_mem (s : State) (b : Nat) : (s.endStreams b).mem = s.mem :=
  each_keeps s State.mem _ (fun s c => endShort_mem s b c 0xF0 0 0) _

theorem returnAll_mem (s : State) (b : Nat) : (s.returnAll b).mem = s.mem :=
  each_keeps s State.mem _ (fun s c => setChan_mem s b c _) _

theorem execStrSoftReset_eq (b : Bay) (s : State) : execStrSoftReset b s =
    .next (if (List.range 16).any (fun c => (s.chanAt b c).live) then
      ((s.endStreams b).returnAll b).failBay b 0xF0 none 0 else (s.endStreams b).returnAll b) := rfl

/-- Settles O45: placing, beginning, the commands of a paused channel and soft reset in turn: the next state of each, and
the channel in it. -/
theorem streamCommandsComplete : Obligations.StreamCommandsComplete := by
  refine ⟨fun b m m' j c n v r d s u w hfetch hn hoff hread hstatus hd => ⟨fun hver href hlayer => ?_, ?_⟩,
    fun b c s => ⟨fun hwait hstop hfloor => ?_, fun h => ?_, fun h => ?_⟩, fun b s => ?_⟩
  · have h : StreamRead b m m' j c n v r d s u w := ⟨hfetch, hn, hoff, hread, hstatus, hd⟩
    have hexec := execStreamCmd_accepted h hver href hlayer
    refine ⟨fun hlive => hexec.trans (if_pos hlive), fun hlive => ⟨_, hexec.trans (if_neg (by simp [hlive])), ?_⟩⟩
    dsimp only
    rw [placed_chanAt, placed_bayAt, placed_vecAt]
    refine ⟨placed_eq .., fun hnone => placed_eq_of_none (h := completeCredits_of_none hnone) ..,
      fun hend hpeer => ?_, rfl, rfl, rfl, rfl, rfl, rfl, leftover_gone _, rfl, rfl⟩
    rw [completeCredits_vec hend hpeer]
    exact each_vecComplete b (chanWriter b (cmdUnit c)) _ w
  · exact execStreamCmd_refused ⟨hfetch, hn, hoff, hread, hstatus, hd⟩
  · have hbegun : Begun b c s (s.begun b c) := begun_begun s b c
    exact ⟨fun hnow hready => ⟨_, execStreamBegin_begins hwait hstop hfloor hnow hready, hbegun⟩,
      fun hahead hopen => ⟨_, execWeightAheadBegin_begins hwait hstop hfloor hahead hopen, hbegun⟩⟩
  · exact ⟨execStreamResume_not_paused h, execStreamAbort_not_paused h⟩
  · exact ⟨execStreamResume_paused h, ⟨_, execStreamAbort_paused h, abortStream_endsShort h _⟩,
      fun hlimit => ⟨_, execPauseLimitExpiry_paused h hlimit, abortStream_endsShort h _⟩⟩
  · refine ⟨_, execStrSoftReset_eq b s, (s.endStreams b).returnAll b, ?_, (returnAll_mem ..).trans (endStreams_mem s b),
      fun c hc => ?_⟩
    · split
      case isTrue h =>
        obtain ⟨c, hc, hlive⟩ := List.any_eq_true.1 h
        exact .inr ⟨rfl, c, List.mem_range.1 hc, hlive⟩
      case isFalse h =>
        simp only [List.any_eq_true, List.mem_range, not_exists, not_and, Bool.not_eq_true] at h
        exact .inl ⟨rfl, h⟩
    · rw [chanAt_softReset s b hc]
      exact ⟨shortEnd_live .., rfl, rfl, rfl⟩

end Sys2Proof.Machine
end

section
/-! SUPPORT. The commands of a bay's sequencer once they are fetched, and the messages that barriers and events send (R88,
R92, R147, R148). -/

namespace Sys2Proof.Machine

variable {s t u w : State} {b : Bay} {m m' : MemFind} {j c k n : Nat} {v : Job}

/-! ### Passes (R88, R147) -/

/-- The pass descriptor in ws has been handed to tile i of bay b, which waits for the pass; x is the bay as the command was
fetched. -/
def State.handed (s : State) (b i : Nat) (x : BaySeq) (ws : List Word) : State :=
  let k := s.mtxAt (b * 8 + i)
  (s.setMtx (b * 8 + i) { k with handed := k.handed ++ [⟨x.passIndex, x.layer, x.next, ws⟩] }).setBay b
    { s.bayAt b with waiting := true, passIndex := x.passIndex + 1 }

theorem execPassCmd_hands (h : s.fetched b 1 m m' j v c u) (hunit : cmdUnit c ≤ 7)
    (htile : bitOf (u.bayAt b).tiles (cmdUnit c) = true) (hoff : offOk v c 32 96 = true) {r : MemAns}
    (hr : u.imgRead (seqAgent b) v (cmdDesc c) 96 m' = (r, w)) (hstatus : r.status = 0) :
    execPassCmd b m s = .next (w.handed b (cmdUnit c) (u.bayAt b)
      ((List.range 24).map fun i => BitVec.ofNat 32 (imgN r.data (4 * i) 4))) := by
  rw [execPassCmd, runCmd_fetched h (by decide)]
  simp only [Nat.not_lt.2 hunit, htile, hoff, hr, hstatus, Bool.not_true, Bool.false_eq_true, or_false, ne_eq,
    not_true_eq_false, if_false]
  rfl

/-! ### Vector programs (R92, R96, R147, R428) -/

/-- A vprog command has been fetched, and the first words r of its section read, which left w. -/
structure SectionRead (b : Bay) (m m' : MemFind) (j c : Nat) (v : Job) (r : MemAns) (s u w : State) : Prop where
  fetched : s.fetched b 3 m m' j v c u
  vector : (u.bayAt b).vector = true
  aligned : cmdDesc c % 8 = 0
  inImage : cmdDesc c + 8 ≤ v.hdr.bytes
  read : u.fetchDesc b v (cmdDesc c) 8 m' = (r, w)
  status : r.status = 0

/-- The program of the section at off, which has been loaded, has started, and its command has completed. -/
def State.programStarted (s : State) (b off : Nat) : State :=
  let s := s.setVec b { (s.vecAt b).start with state := .running }
  (s.setBay b { s.bayAt b with vprogOff := some off }).cmdDone b

theorem programStarted_bayAt (s : State) (b off : Nat) : (s.programStarted b off).bayAt b =
    { s.bayAt b with vprogOff := some off, next := (s.bayAt b).next + 1, waiting := false, desc := none } := by
  rw [State.programStarted, State.cmdDone, bayAt_setBay_same, bayAt_setBay_same]
  rfl

section
variable {r : MemAns} (h : SectionRead b m m' j c v r s u w)
include h

theorem execVprog_malformed (hn : sectionPackets v (cmdDesc c) r.data = none) :
    execVprog b m s = .next (w.badCommand b) := by
  obtain ⟨hfetch, hvector, halign, himage, hread, hstatus⟩ := h
  rw [execVprog, runCmd_fetched hfetch (by decide)]
  simp [hvector, halign, Nat.not_lt.2 himage, hread, hstatus, hn]

theorem execVprog_waits (hn : sectionPackets v (cmdDesc c) r.data = some n) (hactive : (w.vecAt b).active = true) :
    execVprog b m s = .next w := by
  obtain ⟨hfetch, hvector, halign, himage, hread, hstatus⟩ := h
  rw [execVprog, runCmd_fetched hfetch (by decide)]
  simp [hvector, halign, Nat.not_lt.2 himage, hread, hstatus, hn, hactive]

theorem execVprog_starts (hn : sectionPackets v (cmdDesc c) r.data = some n) (hactive : (w.vecAt b).active = false)
    {a : MemAns} {x : State}
    (hload : w.loadPackets b v (cmdDesc c) n (if (u.bayAt b).desc.isSome then m' else m'.rest) = (a, x))
    (ha : a.status = 0) : execVprog b m s = .next (x.programStarted b (cmdDesc c)) := by
  obtain ⟨hfetch, hvector, halign, himage, hread, hstatus⟩ := h
  rw [execVprog, runCmd_fetched hfetch (by decide)]
  simp [hvector, halign, Nat.not_lt.2 himage, hread, hstatus, hn, hactive, hload, ha, State.programStarted]

end

theorem execVwait_eq (h : s.fetched b 4 m m' j v c u) (hvector : (u.bayAt b).vector = true) :
    execVwait b m s = .next (if (u.vecAt b).active then u else u.cmdDone b) := by
  rw [execVwait, runCmd_fetched h (by decide)]
  simp only [hvector, Bool.not_true, Bool.false_eq_true, if_false]
  split <;> rfl

/-! ### Layers, events and the end of the list (R147) -/

theorem cmdDone_bayAt (s : State) (b : Nat) : (s.cmdDone b).bayAt b =
    { s.bayAt b with next := (s.bayAt b).next + 1, waiting := false, desc := none } := bayAt_setBay_same ..

theorem execLayer_opens (h : s.fetched b 5 m m' j v c u) : execLayer b m s =
    .next ((u.setBay b { u.bayAt b with layer := cmdArg c, layerOpen := true }).cmdDone b) := by
  rw [execLayer, runCmd_fetched h (by decide)]

theorem execSeqEnd_eq (h : s.fetched b 15 m m' j v c u) : execSeqEnd b m s =
    .next (if u.passesEnded b && !(u.vecAt b).active && (List.range 16).all (fun i => !(u.chanAt b i).live) then
      u.setBay b { u.bayAt b with finished := true, running := false } else u) := by
  rw [execSeqEnd, runCmd_fetched h (by decide)]
  dsimp only
  split <;> rfl

/-- The work of a bay has ended: its passes, its program and its streams. -/
theorem workEnded_iff (u : State) (b : Nat) :
    (u.passesEnded b && !(u.vecAt b).active && (List.range 16).all (fun i => !(u.chanAt b i).live)) = true ↔
      u.passesEnded b = true ∧ (u.vecAt b).active = false ∧ ∀ i < 16, (u.chanAt b i).live = false := by
  simp [and_assoc]

theorem execEventCmd_eq (h : s.fetched b 7 m m' j v c u) :
    execEventCmd b m s = .next ((u.postEvent b j v).cmdDone b) := by
  rw [execEventCmd, runCmd_fetched h (by decide)]

/-! ### Barriers (R148) -/

theorem execBarrierCmd_eq (h : s.fetched b 6 m m' j v c u) (harg : cmdArg c < v.hdr.barriers) : execBarrierCmd b m s =
    .next (if u.outputsWritten b then u.setBay b { u.bayAt b with waiting := true, barrier := some (cmdArg c) }
      else u) := by
  rw [execBarrierCmd, runCmd_fetched h (by decide)]
  simp only [if_neg (Nat.not_le.2 harg)]
  split <;> rfl

theorem jobOf_eq (hjob : (s.bayAt b).job = some j) (hv : s.jobAt j = some v) : s.jobOf b = some (j, v) := by
  simp [State.jobOf, hjob, hv]

section
variable (hjob : s.jobOf b = some (j, v)) (hphase : v.phase = .running) (hbar : (s.bayAt b).barrier = some k)
include hjob hphase hbar

section
variable (harr : (k, (s.bayAt b).logical) ∉ v.arrivals) (hrel : (k, (s.bayAt b).logical) ∉ v.released)
include harr hrel

theorem execBarrierArrival_refused {g : State} (m : MemFind)
    (htrip : s.messageTrip (seqAgent b) (s.leadAgent v) = (n, g)) (hn : n ≠ 0) :
    execBarrierArrival b m s = .next g := by
  simp [execBarrierArrival, hjob, hphase, hbar, harr, hrel, htrip, hn]

/-- An arrival that has reached the lead controller is noted, or it releases the bays at the barrier. -/
theorem execBarrierArrival_arrives {g : State} {r : MemAns}
    (htrip : s.messageTrip (seqAgent b) (s.leadAgent v) = (0, g))
    (hread : g.imgRead (s.leadAgent v) v (v.hdr.barrierOff + 4 * k) 4 m = (r, u)) (hstatus : r.status = 0) :
    let arr := v.arrivals ++ [(k, (s.bayAt b).logical)]
    let here := arr.filter (fun a => a.1 == k)
    execBarrierArrival b m s = .next (if bitsOf (bytesNat r.data) 10 0 ≤ here.length then
      u.setJob j { v with arrivals := arr.filter (fun a => a.1 != k), released := v.released ++ here }
      else u.setJob j { v with arrivals := arr }) := by
  simp only [execBarrierArrival, hjob, hphase, hbar, htrip, hread, hstatus]
  simp only [List.contains_eq_mem, harr, hrel, decide_false, bne_self_eq_false, Bool.or_false, Bool.false_eq_true,
    if_false, ne_eq, not_true_eq_false]
  split <;> rfl

end

section
variable {g : State} (hrel : (k, (s.bayAt b).logical) ∈ v.released)
  (htrip : s.messageTrip (s.leadAgent v) (seqAgent b) = (n, g))
include hrel htrip

theorem execBarrierRelease_refused (hn : n ≠ 0) : execBarrierRelease b s = .next g := by
  simp [execBarrierRelease, hjob, hphase, hbar, hrel, htrip, hn]

theorem execBarrierRelease_releases (hn : n = 0) : execBarrierRelease b s =
    .next (((g.setJob j { v with released := v.released.erase (k, (s.bayAt b).logical) }).setBay b
      { s.bayAt b with barrier := none }).cmdDone b) := by
  simp [execBarrierRelease, hjob, hphase, hbar, hrel, htrip, hn]

end
end

theorem execBarrierLimitExpiry_fails (hj : s.jobAt j = some v) (hlimit : v.hdr.barrierLimit ≠ 0)
    (hphase : v.phase = .running) (harr : ∃ a ∈ v.arrivals, a.1 = k) :
    execBarrierLimitExpiry j k s = .next ((s.leadFlag v 4).failJob j 0x84 none 0) := by
  have hany : v.arrivals.any (fun a => a.1 == k) = true := by simpa using harr
  simp [execBarrierLimitExpiry, hj, hlimit, hphase, hany]

end Sys2Proof.Machine
end

section
/-! SUPPORT. What leaves the jobs, their queues and the sequencers of bays as they are: the traffic of control cores, the
settling of user logic, accesses to memory, and the home edges (R145, R182, R253, R258, R271, R399). -/

namespace Sys2Proof.Machine

variable {s₀ s t u : State} {p : Prop}

/-- The jobs, their queues and the sequencers of bays have not changed, and, where p holds, nor has device memory. -/
structure Beside (p : Prop) (s t : State) : Prop where
  jobs : t.jobs = s.jobs
  queues : t.queues = s.queues
  bays : t.bays = s.bays
  mem : p → t.mem = s.mem

namespace Beside

theorem refl (s : State) : Beside p s s := ⟨rfl, rfl, rfl, fun _ => rfl⟩

theorem jobAt (h : Beside p s t) (j : Nat) : t.jobAt j = s.jobAt j :=
  congrArg (fun x : Table Job => (x.find? fun e : Nat × Job => e.1 == j).map Prod.snd) h.jobs

theorem bayAt (h : Beside p s t) (b : Nat) : t.bayAt b = s.bayAt b :=
  congrArg (fun x => tget (fun _ => BaySeq.init) x b) h.bays

/-- A change elsewhere. -/
theorem frame (h : Beside p s₀ s) (hj : t.jobs = s.jobs := by rfl) (hq : t.queues = s.queues := by rfl)
    (hb : t.bays = s.bays := by rfl) (hm : t.mem = s.mem := by rfl) : Beside p s₀ t :=
  ⟨hj.trans h.jobs, hq.trans h.queues, hb.trans h.bays, fun hp => hm.trans (h.mem hp)⟩

/-- A free value is drawn. -/
theorem draw {n : Nat} (h : Beside p s₀ s) : Beside p s₀ { s with free := s.free + n } := h.frame

theorem of_networkOnly (h : Beside p s₀ s) (k : NetworkOnly s t) : Beside p s₀ t :=
  h.frame ((congrArg State.jobs k).trans rfl) ((congrArg State.queues k).trans rfl)
    ((congrArg State.bays k).trans rfl) ((congrArg State.mem k).trans rfl)

theorem ite {c : Prop} [Decidable c] (ht : Beside p s₀ t) (hu : Beside p s₀ u) : Beside p s₀ (if c then t else u) := by
  split <;> assumption

theorem ite_snd {α : Type} {c : Prop} [Decidable c] {x y : α × State} (ht : Beside p s₀ x.2) (hu : Beside p s₀ y.2) :
    Beside p s₀ (if c then x else y).2 := by
  split <;> assumption

theorem each {α : Type} {f : State → α → State} {xs : List α} (h : Beside p s₀ s)
    (hf : ∀ {s x}, Beside p s₀ s → Beside p s₀ (f s x)) : Beside p s₀ (s.each xs f) :=
  each_induction (Beside p s₀) (fun _ _ => hf) xs h

/-! ### Registers -/

theorem wr {k v} (h : Beside p s₀ s) : Beside p s₀ (s.wr k v) := h.frame
theorem wrFld {k hi lo v} (h : Beside p s₀ s) : Beside p s₀ (s.wrFld k hi lo v) := h.wr
theorem bump {k n} (h : Beside p s₀ s) : Beside p s₀ (s.bump k n) := h.wr
theorem setFlag {k i} (h : Beside p s₀ s) : Beside p s₀ (s.setFlag k i) := h.wr
theorem wr64 {k v} (h : Beside p s₀ s) : Beside p s₀ (s.wr64 k v) := h.wr.wr
theorem bump64 {k n} (h : Beside p s₀ s) : Beside p s₀ (s.bump64 k n) := h.wr64
theorem wrMax {k v} (h : Beside p s₀ s) : Beside p s₀ (s.wrMax k v) := .ite h.wr h
theorem leadFlag {j i} (h : Beside p s₀ s) : Beside p s₀ (s.leadFlag j i) := h.setFlag.bump

/-! ### Messages of control cores (R145, R245) -/

theorem countResponse {q cls status bytes lat} (h : Beside p s₀ s) :
    Beside p s₀ (s.countResponse q cls status bytes lat) := by
  unfold State.countResponse
  split
  · exact h
  · have hcount {k : Nat} : Beside p s₀
        (((if status = 0 then (s.bump64 (k + 0x10) bytes).bump (k + 0x20 + 4 * latBin lat) 1 else
          ((s.bump64 (k + 0x10) bytes).bump (k + 0x20 + 4 * latBin lat) 1).bump (k + 0x18) 1)).wrMax (k + 0x1C)
          (min lat (2 ^ 32 - 1))) := .wrMax (.ite h.bump64.bump h.bump64.bump.bump)
    dsimp only
    split
    exacts [.ite hcount.bump hcount, hcount]

theorem nocIssue {set q o g} (h : Beside p s₀ s) : Beside p s₀ (s.nocIssue set q o g).2 := h.of_networkOnly (.nocIssue ..)

theorem messageTrip {g g'} (h : Beside p s₀ s) : Beside p s₀ (s.messageTrip g g').2 := by
  have hi {set q} : Beside p s₀ (s.nocIssue set q .bare none).2 := h.nocIssue
  unfold State.messageTrip
  dsimp only
  refine .countResponse (.draw ?_)
  split
  · exact hi
  · refine .ite_snd ?_ hi
    dsimp only
    split
    exacts [hi.bump, hi]

/-! ### User logic settles (R171, R182) -/

theorem seeClocks {d} (h : Beside p s₀ s) : Beside p s₀ (s.seeClocks d) := by
  unfold State.seeClocks
  refine h.each fun h => ?_
  dsimp only
  split
  exacts [h, h.frame]

theorem settleLogic {d} (h : Beside p s₀ s) : Beside p s₀ (s.settleLogic d) :=
  .ite h (.seeClocks (.each h.frame fun h => h.each .frame))

theorem setPort {b i v} (h : Beside p s₀ s) : Beside p s₀ (s.setPort b i v) := h.frame
theorem closePort {b i} (h : Beside p s₀ s) : Beside p s₀ (s.closePort b i) := h.setPort.settleLogic
theorem openPort {b i} (h : Beside p s₀ s) : Beside p s₀ (s.openPort b i) := h.setPort.settleLogic

/-- The longest time since a kick is kept (R335). -/
theorem kickTime {cls} (h : Beside p s₀ s) : Beside p s₀ (s.kickTime cls) :=
  .ite h (.ite h.draw.wrMax.setFlag h.draw.wrMax)

/-! ### Accesses to memory (R252, R253, R258 to R260) -/

theorem writeBytes {a bs} (h : Beside False s₀ s) : Beside False s₀ (s.writeBytes a bs) :=
  ⟨h.jobs, h.queues, h.bays, nofun⟩

theorem meetUE {A} (h : Beside p s₀ s) : Beside p s₀ (s.meetUE A) := by
  have hm : Beside p s₀ (s.mark A) := h.frame
  unfold State.meetUE State.memUE
  split
  exacts [.ite hm.bump.setFlag.wr64.wr hm.bump.setFlag, .ite hm.bump.setFlag.setFlag.wr64 hm.bump.setFlag.setFlag, hm]

theorem memCE {A} (h : Beside p s₀ s) : Beside p s₀ (s.memCE A) := by
  unfold State.memCE
  split
  exacts [h.bump.setFlag, h.bump.setFlag.setFlag, h]

theorem memFlag {A i} (h : Beside p s₀ s) : Beside p s₀ (s.memFlag A i) := by
  unfold State.memFlag
  split
  exacts [h.setFlag, h.setFlag.setFlag, h]

theorem meetErrors {us es} (h : Beside p s₀ s) : Beside p s₀ (s.meetErrors us es) := .each (h.each .meetUE) .memCE

theorem touchRow {c a} (h : Beside p s₀ s) : Beside p s₀ (s.touchRow c a) := by
  have hwake : Beside p s₀ (s.wakeRank c (a / 2 ^ 33 % 2) 0) := .wrFld (.ite h.draw.bump64 h)
  exact .bump64 (hwake.frame)

theorem setChecks {checks} (h : Beside p s₀ s) : Beside p s₀ { s with checks } := h.frame

theorem useCheck {c d write m} (h : Beside p s₀ s) : Beside p s₀ (s.useCheck c d write m) := by
  have hmiss {k} : Beside p s₀ ((s.bump (drcCh c Reg.DRC_CHK_MISS) 1).touchRow c k) := h.bump.touchRow
  unfold State.useCheck
  dsimp only
  split
  · exact h.frame
  · exact .ite hmiss.setChecks (.setChecks (.ite hmiss.touchRow hmiss))

theorem touch {A write m} (h : Beside p s₀ s) : Beside p s₀ (s.touch A write m) := by
  unfold State.touch
  split
  exacts [h.touchRow.useCheck.bump.wrMax, h]

theorem moved {A n write} (h : Beside p s₀ s) : Beside p s₀ (s.moved A n write) := by
  unfold State.moved
  split
  exacts [h.bump64, h.bump64, h]

theorem storeWhole {A bs} (h : Beside False s₀ s) : Beside False s₀ (s.storeWhole A bs) :=
  .writeBytes (.moved h.frame)

theorem noMemory {home A} (h : Beside p s₀ s) : ∀ r ∈ s.noMemory home A, Beside p s₀ r.2 := fun r hr =>
  h.of_networkOnly (.noMemory s home A r hr)

theorem memRead {home A n m} (h : Beside p s₀ s) : Beside p s₀ (s.memRead home A n m).2 := by
  unfold State.memRead
  split
  · next hu => exact h.noMemory _ hu
  · dsimp only
    split
    exacts [h.touch.meetErrors, h.touch.meetErrors.moved]

theorem memWrite {home A bs m} (h : Beside False s₀ s) : Beside False s₀ (s.memWrite home A bs m).2 := by
  unfold State.memWrite
  split
  · next hu => exact h.noMemory _ hu
  · dsimp only
    split
    exacts [h.touch.meetErrors.memFlag, h.touch.meetErrors.storeWhole]

theorem memUpdate {home A n f m} (h : Beside False s₀ s) : Beside False s₀ (s.memUpdate home A n f m).2 := by
  unfold State.memUpdate
  split
  · next hu => exact h.noMemory _ hu
  · dsimp only
    split
    exacts [h.touch.meetErrors.memFlag, h.touch.meetErrors.moved.writeBytes]

theorem serveQueued {x m} (h : Beside False s₀ s) : Beside False s₀ (s.serveQueued x m) := by
  unfold State.serveQueued
  refine .ite h.storeWhole.touch ?_
  split
  · exact h
  · refine .frame (s := Prod.snd _) ?_
    split
    exacts [h.memRead, h.memWrite, h.memUpdate]

theorem queueFirst {A} (h : Beside False s₀ s) : Beside False s₀ (s.queueFirst A) := by
  unfold State.queueFirst
  split
  exacts [h, h.each fun h => h.frame.serveQueued]

theorem decoderAnswer {home A} (h : Beside p s₀ s) : ∀ r ∈ s.decoderAnswer home A, Beside p s₀ r.2 := by
  intro r hr
  unfold State.decoderAnswer at hr
  split at hr
  · cases hr
  · exact h.noMemory r hr

theorem roundTrip {g A n write m} (h : Beside False s₀ s) : Beside False s₀ (s.roundTrip g A n write m).2 := by
  have hi {set q} : Beside False s₀ (s.nocIssue set q .bare none).2 := h.nocIssue
  unfold State.roundTrip
  split
  · next hu => exact h.decoderAnswer _ hu
  · dsimp only
    refine .countResponse (.draw ?_)
    split
    · exact hi
    · refine .ite_snd ?_ ?_ <;> dsimp only <;> split
      exacts [hi.bump, hi, hi.queueFirst.memWrite, hi.queueFirst.memRead]

theorem writeLines {g k A bs m} (h : Beside False s₀ s) : Beside False s₀ (s.writeLines g k A bs m).2 := by
  induction k generalizing s A bs m with
  | zero => exact h
  | succ k ih => exact .ite_snd h (.ite_snd h.roundTrip (ih h.roundTrip))

theorem writeParts {g ps m} (h : Beside False s₀ s) : Beside False s₀ (s.writeParts g ps m).2 := by
  induction ps generalizing s m with
  | nil => exact h
  | cons x ps ih => exact .ite_snd h.writeLines (ih h.writeLines)

theorem writeRecord {b A tag m} (h : Beside False s₀ s) : Beside False s₀ (s.writeRecord b A tag m).2 := h.writeParts

/-! ### Home edges and transfers to the partner (R271, R284, R399) -/

theorem emit {o} (h : Beside p s₀ s) : Beside p s₀ (s.emit o) := h.frame
theorem setNoc {k v} (h : Beside p s₀ s) : Beside p s₀ (s.setNoc k v) := h.frame
theorem eovFlag {e i} (h : Beside p s₀ s) : Beside p s₀ (s.eovFlag e i) := h.setFlag.bump

theorem lookup {o set group op} (h : Beside p s₀ s) : Beside p s₀ (s.lookup o set group op).2 := by
  unfold State.lookup
  dsimp only
  split
  exacts [h.bump.eovFlag, .ite_snd h.bump.eovFlag (.ite_snd h.bump h)]

theorem sendPacket {e set q} (h : Beside p s₀ s) : Beside p s₀ (s.sendPacket e set q).2 :=
  .ite_snd h.bump.eovFlag (.ite_snd h.eovFlag (.ite_snd h.eovFlag (.ite_snd h (.ite_snd h.bump.eovFlag h.frame))))

theorem respond {e set q status data} (h : Beside p s₀ s) : Beside p s₀ (s.respond e set q status data) := by
  have heq : s.respond = fun e set q status data => (s.sendPacket e set (s.responseOf set q status data)).2 := rfl
  rw [heq]
  exact h.sendPacket

theorem edgeAnswer {r set noc status data} (h : Beside p s₀ s) : Beside p s₀ (s.edgeAnswer r set noc status data) := by
  unfold State.edgeAnswer
  dsimp only
  split
  · split
    exacts [h.setNoc, h]
  · exact h.emit

theorem fenceAnswer {src ep tag set noc} (h : Beside p s₀ s) : Beside p s₀ (s.fenceAnswer src ep tag set noc) := by
  unfold State.fenceAnswer
  split
  · split
    exacts [h.setNoc, h]
  · exact h.emit

theorem twinAnswered {n id status} (h : Beside p s₀ s) : Beside p s₀ (s.twinAnswered n id status) := h.frame

theorem homeAnswer {n r status data} (h : Beside p s₀ s) : Beside p s₀ (s.homeAnswer n r status data) := by
  have ht : Beside p s₀ { s with home := terase s.home n } := h.frame
  unfold State.homeAnswer
  dsimp only
  split
  exacts [ht.twinAnswered, ht.edgeAnswer, ht]

theorem turnAway {e set q status x} (h : Beside p s₀ s) : Beside p s₀ (s.turnAway e set q status x) := by
  unfold State.turnAway
  split
  · exact h.respond
  · split
    exacts [h.homeAnswer, h]

theorem launch {e i A set q o} (h : Beside p s₀ s) : Beside p s₀ (s.launch e i A set q o) := by
  unfold State.launch
  split
  · next hu => exact (h.decoderAnswer _ hu).turnAway
  · exact .of_networkOnly (s := { s with flights := _ }) h.frame (.nocSubmit ..)

theorem sendHome {n r set noc} (h : Beside p s₀ s) : Beside p s₀ (s.sendHome n r set noc) := by
  unfold State.sendHome
  refine .ite (.ite h.homeAnswer ?_) (.ite h.sendPacket.frame h.sendPacket.homeAnswer)
  split
  exacts [h.lookup.homeAnswer, .launch h.lookup.frame]

theorem settleHome {k before ns} (h : Beside p s₀ s) : Beside p s₀ (s.settleHome k before ns) := by
  induction k generalizing s before ns with
  | zero => exact h
  | succ k ih =>
    cases ns with
    | nil => exact h
    | cons n ns =>
      have ht : Beside p s₀ { s with home := terase s.home n } := h.frame
      unfold State.settleHome
      split
      · exact ih h
      · refine .ite (ih h) ?_
        split
        · refine ih ?_
          split
          exacts [ht.twinAnswered, ht.fenceAnswer]
        · dsimp only
          split <;> exact ih (.ite h h.sendHome)

theorem mirrorFill {k} (h : Beside p s₀ s) : Beside p s₀ (s.mirrorFill k) := by
  induction k generalizing s with
  | zero => exact h
  | succ k ih =>
    unfold State.mirrorFill
    split
    · exact h
    · refine .ite h ?_
      split
      · exact h
      · exact ih (.ite h.frame h.frame)

theorem settleFences (h : Beside p s₀ s) : Beside p s₀ s.settleFences := by
  unfold State.settleFences
  generalize s.twinWaiting + 1 = k
  induction k generalizing s with
  | zero => exact h
  | succ k ih => exact .ite (ih h.mirrorFill.settleHome) h.mirrorFill.settleHome

theorem mirrorRecord {A n parts} (h : Beside p s₀ s) : Beside p s₀ (s.mirrorRecord A n parts) := by
  unfold State.mirrorRecord
  refine .ite h ?_
  split
  · exact h
  · exact .settleFences (.frame (h.each .emit))

end Beside
end Sys2Proof.Machine
end

section
/-! SUPPORT. What an event posted by a bay's sequencer leaves, and with it all commands of a list (R147, R148). -/

namespace Sys2Proof.Machine

variable {s t u w : State} {b : Bay} {m m' : MemFind} {j c k n : Nat} {v : Job}

theorem beside_of_messageTrip {g : State} {a a' : Agent} (h : s.messageTrip a a' = (n, g)) : Beside True s g := by
  simpa only [h] using (Beside.refl s).messageTrip (g := a) (g' := a')

/-- A job counts the event where its message has arrived. -/
theorem postEvent_eq {x : Job} {g : State} (hx : u.jobAt j = some x)
    (htrip : u.messageTrip (seqAgent b) (u.leadAgent v) = (n, g)) :
    u.postEvent b j v = if n = 0 then g.setJob j { x with events := x.events + 1 } else g := by
  have hg := beside_of_messageTrip htrip
  simp only [State.postEvent, htrip, State.mapJob, hg.jobAt, hx, ne_eq, ite_not]

/-- The event command has posted its event in g and completed. -/
theorem postEvent_cmdDone {x : Job} {g : State} (hx : u.jobAt j = some x)
    (htrip : u.messageTrip (seqAgent b) (u.leadAgent v) = (n, g)) :
    let t := (u.postEvent b j v).cmdDone b
    t.jobAt j = some { x with events := x.events + if n = 0 then 1 else 0 } ∧
      t.bayAt b = { u.bayAt b with next := (u.bayAt b).next + 1, waiting := false, desc := none } ∧
      t = { g with jobs := t.jobs, bays := t.bays } := by
  have hg := beside_of_messageTrip htrip
  rw [postEvent_eq hx htrip]
  by_cases hn : n = 0
  · simp only [if_pos hn]
    refine ⟨jobAt_setJob_same g j _, ?_, rfl⟩
    have hbay : (g.setJob j { x with events := x.events + 1 }).bayAt b = u.bayAt b := hg.bayAt b
    rw [cmdDone_bayAt, hbay]
  · simp only [if_neg hn]
    refine ⟨(hg.jobAt j).trans hx, ?_, rfl⟩
    rw [cmdDone_bayAt, hg.bayAt]

/-- Settles O47: the commands of a list in the order of their operations, then the messages of a barrier and its limit. -/
theorem sequencerCommandsComplete : Obligations.SequencerCommandsComplete := by
  refine ⟨fun b m m' j c v s u => ⟨fun h hunit htile hoff r w hr hstatus => ?_,
    fun h hvector halign himage r w hread hstatus => ?_, fun h hvector => ?_, fun h => ?_, fun h harg => ?_,
    fun h x n g hx htrip => ?_, fun h => ?_⟩, fun b j k v s hjob hv hphase hbar => ?_,
    fun j k v s => execBarrierLimitExpiry_fails⟩
  · exact ⟨_, execPassCmd_hands h hunit htile hoff hr hstatus, rfl, mtxAt_setMtx_same .., bayAt_setBay_same ..⟩
  · have hsec : SectionRead b m m' j c v r s u w := ⟨h, hvector, halign, himage, hread, hstatus⟩
    exact ⟨execVprog_malformed hsec, fun n hn => ⟨execVprog_waits hsec hn, fun a x hactive hload ha =>
      ⟨_, execVprog_starts hsec hn hactive hload ha, rfl, vecAt_setVec_same .., programStarted_bayAt ..⟩⟩⟩
  · exact ⟨_, execVwait_eq h hvector, fun ha => if_pos ha, fun ha => if_neg (by simp [ha])⟩
  · refine ⟨_, execLayer_opens h, rfl, ?_⟩
    rw [cmdDone_bayAt, bayAt_setBay_same]
  · refine ⟨_, execBarrierCmd_eq h harg, fun hout => if_neg (by simp [hout]), fun hout => ?_⟩
    rw [if_pos hout]
    exact ⟨rfl, bayAt_setBay_same ..⟩
  · exact ⟨_, execEventCmd_eq h, postEvent_cmdDone hx htrip⟩
  · refine ⟨_, execSeqEnd_eq h, fun hend => ?_, fun hgoing => if_neg fun hend => ?_⟩
    · rw [if_pos ((workEnded_iff u b).2 hend)]
      exact ⟨rfl, bayAt_setBay_same ..⟩
    · obtain ⟨hpasses, hprogram, hstreams⟩ := (workEnded_iff u b).1 hend
      rcases hgoing with h | h | ⟨i, hi, h⟩
      · simp [hpasses] at h
      · simp [hprogram] at h
      · simp [hstreams i hi] at h
  · have hof := jobOf_eq hjob hv
    refine ⟨fun m n g harr hrel => execBarrierArrival_refused hof hphase hbar harr hrel m,
      fun m g r u harr hrel htrip hread hstatus => ?_, fun hrel n g htrip => ⟨?_, fun hn => ?_⟩⟩
    · have hexec := execBarrierArrival_arrives hof hphase hbar harr hrel htrip hread hstatus
      exact ⟨fun hshort => hexec.trans (by rw [if_neg (Nat.not_le.2 hshort)]), fun hmet => hexec.trans (by rw [if_pos hmet])⟩
    · exact execBarrierRelease_refused hof hphase hbar hrel htrip
    · refine ⟨_, execBarrierRelease_releases hof hphase hbar hrel htrip hn, jobAt_setJob_same g j _, ?_, rfl⟩
      rw [cmdDone_bayAt, bayAt_setBay_same]

end Sys2Proof.Machine
end

section
/-! SUPPORT. The life of a job: dispatch, placement and the loading of its sections, its time limit, and the end messages of
its bays (R149, R152 to R154, R326, R336). -/

namespace Sys2Proof.Machine

variable {s t u w : State} {j n : Nat} {v : Job} {m : MemFind}

/-! ### Dispatch (R152, R326, R327) -/

/-- Job j stands first in its queue among those that p takes, and no higher class of its partition has such a job. -/
structure FirstOf (s : State) (q : JobPhase → Bool) (j : Nat) (v : Job) : Prop where
  job : s.jobAt j = some v
  first : (s.queuedAt q v.part v.cls).head? = some j
  highest : ∀ c < v.cls, s.queuedAt q v.part c = []

theorem FirstOf.no_higher {q : JobPhase → Bool} (h : FirstOf s q j v) :
    ((List.range v.cls).any fun c => !(s.queuedAt q v.part c).isEmpty) = false := by
  simp only [List.any_eq_false, List.mem_range]
  intro c hc
  simp [h.highest c hc]

section
variable (h : FirstOf s (· == .queued) j v) (hphase : v.phase = .queued)
include h hphase

theorem execJobDispatch_pinned {k : Nat} {e : Nat × Pinned} (hk : v.handle = some k)
    (he : s.pins.find? (fun e => e.1 == 16 * v.ent.func + k) = some e) : execJobDispatch j m s =
      .next (s.setJob j { v with phase := .waiting, hdr := e.2.hdr, plan := imgPlan e.2.image e.2.hdr }) := by
  simp [execJobDispatch, h.job, h.first, h.no_higher, hphase, hk, he]

/-- The state a dispatch comes to once the image has been read, with status c: the job waits for quarters, or it is refused
and completes. -/
def State.dispatched (s : State) (j : Nat) (v : Job) (c addr : Nat) (img : List Byte) : State :=
  let flagged := s.leadFlag v 2
  if c ≠ 0 then
    (if c = 0x41 then flagged.strFault ((baysOfQuarter (flagged.leadQuarter v)).headD 0) 0x80 else flagged).dropJob j v c addr
  else if v.wrongVersion (jobHeader img).ver then flagged.dropJob j v 0x87 0
  else s.setJob j { v with phase := .waiting, hdr := jobHeader img, plan := imgPlan img (jobHeader img) }

theorem execJobDispatch_checked {c addr : Nat} {img : List Byte} (hk : v.handle = none)
    (hcheck : s.checkImage (s.leadAgent v) v.image m = (c, addr, img, u)) :
    execJobDispatch j m s = .next (u.dispatched j v c addr img) := by
  simp only [execJobDispatch, h.job, h.first, h.no_higher, hphase, hk, hcheck, State.dispatched]
  by_cases hc : c = 0
  · by_cases hv : v.wrongVersion (jobHeader img).ver = true <;> simp [hc, hv]
  · simp [hc]

end

theorem dispatched_accepted {c : Nat} (hc : c = 0) {img : List Byte} (hv : v.wrongVersion (jobHeader img).ver = false)
    (addr : Nat) : u.dispatched j v c addr img =
      u.setJob j { v with phase := .waiting, hdr := jobHeader img, plan := imgPlan img (jobHeader img) } := by
  simp [State.dispatched, hc, hv]

/-! ### The sequencers start (R152, R154) -/

theorem startSequencers_queues (s : State) (j : Nat) : (s.startSequencers j).queues = s.queues := by
  unfold State.startSequencers
  split
  · rfl
  · split
    · refine (Beside.kickTime (p := True) (.refl _)).queues.trans ?_
      refine each_keeps _ State.queues _ (fun s b => ?_) _
      exact (Beside.each (p := True) (.refl _) .openPort).queues
    · rfl

/-- The job itself changes in its mark that the sequencers have started. -/
theorem startSequencers_jobAt (h : s.jobAt j = some v) : ∃ b, (s.startSequencers j).jobAt j = some { v with started := b } := by
  simp only [State.startSequencers, h]
  split
  · exact ⟨true, ((Beside.kickTime (p := True) (.refl _)).jobAt j).trans (jobAt_setJob_same ..)⟩
  · exact ⟨v.started, h⟩

/-! ### Placement (R153) -/

/-- A phase in which a job stands in its queue. -/
def JobPhase.isOpen (q : JobPhase) : Bool := q == .queued || q == .waiting || q == .preempted

theorem placeable (h : v.phase = .waiting ∨ v.phase = .preempted) :
    (!(v.phase == .waiting || v.phase == .preempted)) = false := by
  rcases h with h | h <;> rw [h] <;> rfl

section
variable (h : FirstOf s JobPhase.isOpen j v) (hphase : v.phase = .waiting ∨ v.phase = .preempted)
  {r : MemAns} {es : List BayEntry} (hentries : s.bayEntries v m = (r, es, u)) (hstatus : r.status = 0)
include h hphase hentries hstatus

theorem execJobPlacement_waits (bad : Nat × MemFind)
    (hfree : u.fill (byQuarter v.hdr.quarters es) (u.freeQuarters v.part) = none)
    (hfits : v.resumed = true ∨ u.fill (byQuarter v.hdr.quarters es) (u.partQuarters v.part) ≠ none) :
    execJobPlacement j m bad s = .next u := by
  have hhigher := h.no_higher
  have hfirst := h.first
  unfold JobPhase.isOpen at hhigher hfirst
  simp only [execJobPlacement, h.job, placeable hphase, hhigher, hfirst, hentries, hstatus, hfree]
  cases hpart : u.fill (byQuarter v.hdr.quarters es) (u.partQuarters v.part) with
  | some qs => simp
  | none =>
    rcases hfits with hr | hne
    · simp [hr]
    · exact absurd hpart hne

theorem execJobPlacement_places (bad : Nat × MemFind) {qs : List Nat} {c : MemAns} {cmds : List (List Byte)}
    (hfree : u.fill (byQuarter v.hdr.quarters es) (u.freeQuarters v.part) = some qs) (hfresh : v.resumed = false)
    (hlists : u.cmdLists v es = (c, cmds, w)) (hc : c.status = 0) :
    execJobPlacement j m bad s = .next (w.putJob j v qs es cmds) := by
  have hhigher := h.no_higher
  have hfirst := h.first
  unfold JobPhase.isOpen at hhigher hfirst
  simp [execJobPlacement, h.job, placeable hphase, hhigher, hfirst, hentries, hstatus, hfree, hfresh, hlists, hc]

end

theorem startBay_queues (s : State) (b j lb passIndex : Nat) (bubble : Bool) (e : BayEntry) :
    (s.startBay b j lb passIndex bubble e).queues = s.queues := by
  unfold State.startBay
  rw [setVec_queues]
  refine (each_keeps _ State.queues _ (fun s i => ?_) _).trans ((each_keeps _ State.queues _ (fun s c => ?_) _).trans ?_)
  · rw [wr_queues, setMtx_queues]
  · dsimp only
    split <;> rfl
  · rw [setBay_queues]

/-- The state in which job v, with its quarters chosen, has left its queue and its bays have been given it. -/
def State.startBays (s : State) (j : Nat) (v : Job) (es : List BayEntry) (cmds : List (List Byte)) : State :=
  let s := s.setQueue v.part v.cls ((s.queueOf v.part v.cls).filter (· != j))
  let s := (s.setJob j v).bump ((s.setJob j v).leadReg v Reg.SEQ_DISPATCH_COUNT) 1
  s.each v.bays.zipIdx fun s x => s.startBay x.1 j x.2 (nthN (passStarts 0 (cmds.map passCount)) x.2)
    (v.bubbles.contains x.2) (es.getD x.2 ⟨0, false, 0, 0, false⟩)

theorem startBays_queues (s : State) (j : Nat) (v : Job) (es : List BayEntry) (cmds : List (List Byte)) :
    (s.startBays j v es cmds).queues =
      (s.setQueue v.part v.cls ((s.queueOf v.part v.cls).filter (· != j))).queues :=
  each_keeps _ State.queues _ (fun _ _ => startBay_queues ..) _

/-- A job put on quarters for the first time has its sections loaded, or its sequencers start. -/
theorem putJob_fresh (hfresh : v.resumed = false) (s : State) (j : Nat) (qs : List Nat) (es : List BayEntry)
    (cmds : List (List Byte)) : ∃ (t : State) (loads : List BayLoad),
      t.queues = (s.startBays j { v with placed := qs, phase := .running } es cmds).queues ∧
      s.putJob j v qs es cmds = (t.setJob j { v with
        placed := qs, phase := .running, loads, resumed := false, started := false, again := false }).startSequencers j := by
  simp only [State.putJob, hfresh, Bool.false_eq_true, if_false, ne_eq, not_true_eq_false]
  refine ⟨_, _, ?_, rfl⟩
  rfl

theorem putJob_placed (hfresh : v.resumed = false) (s : State) (j : Nat) (qs : List Nat) (es : List BayEntry)
    (cmds : List (List Byte)) :
    (∃ x, (s.putJob j v qs es cmds).jobAt j = some x ∧ x.placed = qs ∧ x.phase = .running ∧ x.hdr = v.hdr ∧
      x.ent = v.ent) ∧ j ∉ (s.putJob j v qs es cmds).queueOf v.part v.cls := by
  obtain ⟨t, loads, hqueues, hput⟩ := putJob_fresh hfresh s j qs es cmds
  rw [hput]
  constructor
  · obtain ⟨b, hb⟩ := startSequencers_jobAt (jobAt_setJob_same t j { v with
      placed := qs, phase := .running, loads, resumed := false, started := false, again := false })
    exact ⟨_, hb, rfl, rfl, rfl, rfl⟩
  · rw [State.queueOf, startSequencers_queues, setJob_queues, hqueues, startBays_queues, State.setQueue, tget_tset_same]
    simp

/-! ### Loading of sections (R152, R154) -/

section
variable {l : BayLoad} (hv : s.jobAt j = some v) (hphase : v.phase = .running)
  (hl : v.loads.find? (fun x => x.lb == l.lb) = some l)
include hv hphase hl

theorem execMulticastAck_untaken : execMulticastAck j l.lb none s = .next s := by
  simp [execMulticastAck, hv, hl, hphase]

theorem execMulticastRetry_again (h : l.tries < 3) : execMulticastRetry j l.lb s =
    .next ((s.setJob j { v with loads := v.loads.map (fun x =>
      if x.lb == l.lb then { x with tries := l.tries + 1, tried := false } else x) }).bump
        ((s.setJob j { v with loads := v.loads.map (fun x =>
          if x.lb == l.lb then { x with tries := l.tries + 1, tried := false } else x) }).leadReg v Reg.SEQ_MCAST_RETRY) 1) := by
  simp [execMulticastRetry, hv, hl, hphase, h]

theorem execMulticastRetry_fails (h : 3 ≤ l.tries) :
    execMulticastRetry j l.lb s = .next ((s.leadFlag v 5).failJob j 0x83 none 0) := by
  simp [execMulticastRetry, hv, hl, hphase, Nat.not_lt.2 h]

section
variable {r : MemAns} {parts : List (Nat × Nat × List Byte)} (hparts : s.bayParts v l.lb m = (r, parts, u))
  (hstatus : r.status = 0)
include hparts hstatus

/-- A load that has no part left is complete. -/
theorem execMulticastAck_complete (h : parts.length ≤ l.part) : execMulticastAck j l.lb (some m) s =
    .next ((u.setJob j (v.took l.lb l.part true)).startSequencers j) := by
  simp [execMulticastAck, hv, hl, hphase, hparts, hstatus, List.getElem?_eq_none h]

/-- The job as a packet for load l is answered: it notes the packet as sent where this is its first answer. -/
def Job.answered (v : Job) (l : BayLoad) : Job := if l.first then v.loadSent l else v

/-- The packet of part x is sent, or, where it was sent before, stands; its answer from the bay comes back. -/
def State.partTrip (s : State) (j : Nat) (v : Job) (l : BayLoad) (x : Nat × Nat × List Byte) : Nat × State :=
  let b := v.bays.getD l.lb 0
  let q := s.mcastIssue (s.loadPacket v b l.tries x)
  (if l.first then q.2.setJob j (v.answered l) else s).mcastTrip q.1 b

theorem execMulticastAck_answered {x : Nat × Nat × List Byte} (hx : parts[l.part]? = some x)
    (htrip : u.partTrip j v l x = (n, w)) : execMulticastAck j l.lb (some m) s =
      if n ≠ 0 then .next w
      else .next ((w.setJob j ((v.answered l).took l.lb (l.part + 1) (decide (parts.length ≤ l.part + 1)))).startSequencers j)
    := by
  have hexec : execMulticastAck j l.lb (some m) s = if (u.partTrip j v l x).1 ≠ 0 then .next (u.partTrip j v l x).2
      else .next (((u.partTrip j v l x).2.setJob j ((v.answered l).took l.lb (l.part + 1)
        (decide (parts.length ≤ l.part + 1)))).startSequencers j) := by
    simp only [execMulticastAck, hv, hl, hparts, hstatus, hx]
    rw [if_neg (by simp [hphase]), if_neg (not_not.2 rfl)]
    cases hfirst : l.first <;> simp [State.partTrip, Job.answered, hfirst]
  rw [hexec, htrip]

end
end

/-! ### The time limit and the end messages (R149, R336) -/

theorem execTimeLimitExpiry_fails (hv : s.jobAt j = some v) (hlimit : v.hdr.timeLimit ≠ 0) (hstarted : v.started = true)
    (hstatus : v.status = 0) (hphase : v.phase = .running ∨ v.phase = .preempting) :
    execTimeLimitExpiry j s = .next ((s.leadFlag v 3).failJob j 0x85 none 0) := by
  rcases hphase with h | h <;> simp [execTimeLimitExpiry, hv, hlimit, hstarted, hstatus, h]

section
variable {b : Bay} {g : State} (hof : s.jobOf b = some (j, v)) (hfin : (s.bayAt b).finished = true)
  (hnew : (s.bayAt b).logical ∉ v.ended) (htrip : s.messageTrip (seqAgent b) (s.leadAgent v) = (n, g))
include hof hfin hnew htrip

/-- The job once the end message of the bay has been counted. -/
def Job.heard (v : Job) (lb : Nat) : Job := { v with ended := v.ended ++ [lb] }

theorem execBayEndMsg_live (hphase : v.phase = .running ∨ v.phase = .ending) : execBayEndMsg b s =
    .next (if n ≠ 0 then g
      else if 16 * v.hdr.quarters ≤ v.ended.length + 1 then (g.setJob j (v.heard (s.bayAt b).logical)).finishJob j
      else g.setJob j (v.heard (s.bayAt b).logical)) := by
  by_cases hn : n = 0 <;> rcases hphase with h | h <;>
    simp [execBayEndMsg, hof, hfin, hnew, htrip, h, hn, Job.heard]

theorem execBayEndMsg_preempting (hn : n = 0) (hphase : v.phase = .preempting)
    (hall : ∀ x ∈ v.bays, (s.bayAt x).finished = true) : execBayEndMsg b s =
    .next (if 16 * v.hdr.quarters ≤ v.ended.length + 1 then
        ((g.setJob j (v.heard (s.bayAt b).logical)).clearRecords v).finishJob j
      else g.setJob j (v.heard (s.bayAt b).logical)) := by
  have hallB : v.bays.all (fun x => (s.bayAt x).finished) = true := List.all_eq_true.2 hall
  simp [execBayEndMsg, hof, hfin, hnew, htrip, hphase, hn, hallB, Job.heard]

end

end Sys2Proof.Machine
end

section
/-! SUPPORT. Checkpoint records, invalidations, the zeroing of quarters, and resets of partitions (R151, R157 to R165, R334,
R349). -/

namespace Sys2Proof.Machine

variable {s t u w : State} {j n : Nat} {v : Job} {m : MemFind}

/-! ### Checkpoint records (R161, R164, R165, R189) -/

/-- A bay that has stopped for a pre-emption writes the record of job v, in which others still have theirs to write. -/
structure Stopped (s : State) (b : Bay) (j : Nat) (v : Job) : Prop where
  job : s.jobOf b = some (j, v)
  phase : v.phase = .preempting
  unrecorded : (s.bayAt b).recorded = false
  stopped : s.bayStopped b = true
  others : ∃ x ∈ v.bays, x ≠ b.val ∧ (s.bayAt x).recorded = false
  unfinished : ∃ x ∈ v.bays, (s.bayAt x).finished = false

/-- The settling of user logic leaves all but lines, flip-flops and clocks. -/
theorem seeClocks_keeps {β : Type} (f : State → β)
    (hclk : ∀ (s : State) clkSeen clkEdges, f { s with clkSeen, clkEdges } = f s) (s : State) (d : Nat) :
    f (s.seeClocks d) = f s := by
  unfold State.seeClocks
  refine each_keeps s f _ (fun s g => ?_) _
  dsimp only
  split
  exacts [rfl, hclk ..]

theorem settleLogic_keeps {β : Type} (f : State → β)
    (hclk : ∀ (s : State) clkSeen clkEdges, f { s with clkSeen, clkEdges } = f s)
    (hlines : ∀ (s : State) lines contending, f { s with lines, contending } = f s)
    (hflops : ∀ (s : State) flops, f { s with flops } = f s) (s : State) (d : Nat) : f (s.settleLogic d) = f s := by
  unfold State.settleLogic
  split
  · rfl
  · refine (seeClocks_keeps f hclk ..).trans ((each_keeps _ f _ (fun t e => ?_) _).trans (hlines ..))
    exact each_keeps t f _ (fun t x => hflops ..) _

/-- Where a record stands follows from the control sets alone. -/
theorem ckptAddr_congr (hregs : t.regs = s.regs) (hswap : t.swap = s.swap) (part lb : Nat) :
    t.ckptAddr part lb = s.ckptAddr part lb := by
  obtain ⟨⟩ := s
  obtain ⟨⟩ := t
  cases hregs
  cases hswap
  rfl

/-- The ports of a bay have closed. -/
def State.portsClosed (s : State) (b : Nat) : State := s.each (List.range 4) fun s p => s.closePort b p

theorem portsClosed_beside (s : State) (b : Nat) : Beside False s (s.portsClosed b) := (Beside.refl s).each .closePort

theorem portsClosed_keeps {β : Type} (f : State → β) (hports : ∀ (s : State) ports, f { s with ports } = f s)
    (hclk : ∀ (s : State) clkSeen clkEdges, f { s with clkSeen, clkEdges } = f s)
    (hlines : ∀ (s : State) lines contending, f { s with lines, contending } = f s)
    (hflops : ∀ (s : State) flops, f { s with flops } = f s) (s : State) (b : Nat) : f (s.portsClosed b) = f s := by
  refine each_keeps s f (fun s p => s.closePort b p) (fun s p => ?_) _
  exact (settleLogic_keeps f hclk hlines hflops ..).trans (hports ..)

theorem portsClosed_ckptAddr (s : State) (b part lb : Nat) : (s.portsClosed b).ckptAddr part lb = s.ckptAddr part lb :=
  ckptAddr_congr (portsClosed_keeps State.regs (fun _ _ => rfl) (fun _ _ _ => rfl) (fun _ _ _ => rfl) (fun _ _ => rfl) s b)
    (portsClosed_keeps State.swap (fun _ _ => rfl) (fun _ _ _ => rfl) (fun _ _ _ => rfl) (fun _ _ => rfl) s b) part lb

/-- The ports of the bay have closed and its record for job v has been written, or writing it has failed. -/
def State.recordWritten (s : State) (b : Nat) (v : Job) (m : MemFind) : MemAns × State :=
  (s.portsClosed b).writeRecord b (s.ckptAddr v.part (s.bayAt b).logical) v.ent.tag m

/-- The state in which the record of the bay has been written and noted. -/
def State.recorded (s : State) (b : Nat) (v : Job) (m : MemFind) : State :=
  let A := s.ckptAddr v.part (s.bayAt b).logical
  ((s.recordWritten b v m).2.mirrorRecord A ckptBytes ((s.portsClosed b).recordParts b A v.ent.tag)).setBay b
    { s.bayAt b with recorded := true, stopped := true }

theorem recorded_beside (s : State) (b : Nat) (v : Job) (m : MemFind) : ∃ t, Beside False s t ∧
    s.recorded b v m = t.setBay b { s.bayAt b with recorded := true, stopped := true } ∧
    t.mem = (s.recordWritten b v m).2.mem :=
  ⟨_, (portsClosed_beside s b).writeRecord.mirrorRecord, rfl, (Beside.refl (p := True) _).mirrorRecord.mem trivial⟩

section
variable {b : Bay} (h : Stopped s b j v)
include h

theorem recorded_not_all : (s.recorded b v m).allRecorded v = false := by
  obtain ⟨t, hbeside, heq, -⟩ := recorded_beside s b v m
  obtain ⟨x, hx, hne, hrec⟩ := h.others
  refine List.all_eq_false.2 ⟨x, hx, ?_⟩
  rw [heq, bayAt_setBay_ne _ _ hne, hbeside.bayAt, hrec]
  exact Bool.false_ne_true

theorem execCheckpointRecordWrite_eq (us : Nat) : execCheckpointRecordWrite b m us s =
    .next (if (s.recordWritten b v m).1.status ≠ 0 then ((s.recordWritten b v m).2.leadFlag v 7).failJob j 0x25 none 0
      else s.recorded b v m) := by
  have hrunning : v.bays.all (fun x => (s.bayAt x).finished) = false := by simpa using h.unfinished
  have hmore := recorded_not_all (m := m) h
  simp only [execCheckpointRecordWrite, h.job]
  rw [if_neg (by simp [h.phase, h.unrecorded, h.stopped, hrunning]), ← State.portsClosed, portsClosed_ckptAddr,
    ← State.recordWritten]
  split
  · rfl
  · exact if_pos ((Bool.not_eq_true' _).mpr hmore)

end

/-! ### Invalidations (R151, R318) -/

/-- A walk that begins anew changes its channel beside what sending out changes. -/
theorem restartWalk_eq (s : State) (b c part lo hi : Nat) : ∃ u chans, NetworkOnly s u ∧
    s.restartWalk b c part lo hi = { u with chans } := by
  unfold State.restartWalk
  split
  · exact ⟨s, _, .refl s, rfl⟩
  · split
    · exact ⟨_, _, .sendOut .., rfl⟩
    · exact ⟨s, _, .refl s, rfl⟩

theorem Beside.restartWalk {p : Prop} {s₀ s : State} {b c part lo hi : Nat} (h : Beside p s₀ s) :
    Beside p s₀ (s.restartWalk b c part lo hi) := by
  obtain ⟨u, chans, hu, heq⟩ := restartWalk_eq s b c part lo hi
  rw [heq]
  exact (h.of_networkOnly hu).frame

theorem restartWalk_bar4Tlb (s : State) (b c part lo hi : Nat) :
    (s.restartWalk b c part lo hi).bar4Tlb = s.bar4Tlb := by
  obtain ⟨u, chans, hu, heq⟩ := restartWalk_eq s b c part lo hi
  rw [heq]
  exact (congrArg State.bar4Tlb hu).trans rfl

theorem restartWalk_of_none {b c : Nat} (h : (s.chanAt b c).walk = none) (part lo hi : Nat) :
    s.restartWalk b c part lo hi = s := by
  simp only [State.restartWalk, h]

theorem restartWalk_chanAt_ne {b c k : Nat} (hk : k ≠ c) (part lo hi : Nat) :
    (s.restartWalk b c part lo hi).chanAt b k = s.chanAt b k := by
  unfold State.restartWalk
  split
  · rfl
  · split
    · exact (chanAt_setChan_ne _ _ (by omega)).trans ((NetworkOnly.sendOut ..).chanAt b k)
    · rfl

theorem bayPart_congr {b : Nat} (hjob : (t.bayAt b).job = (s.bayAt b).job) (hjobs : t.jobs = s.jobs) :
    t.bayPart b = s.bayPart b := by
  simp only [State.bayPart, State.bayJob, State.jobAt, hjob, hjobs]

/-- A walk of the partition for an address of the range begins anew. -/
theorem restartWalk_restarts {b c part lo hi : Nat} {x : Walk} (hx : (s.chanAt b c).walk = some x)
    (hpart : s.bayPart b = part) (hlo : lo < x.req.addr + x.req.len) (hhi : x.req.addr ≤ hi) :
    ∃ y, ((s.restartWalk b c part lo hi).chanAt b c).walk = some y ∧ y.req = x.req ∧ y.level = 0 := by
  simp only [State.restartWalk, hx, hpart, beq_self_eq_true, hlo, hhi, decide_true, Bool.and_self, if_true]
  obtain ⟨-, net, back, hchan⟩ := startWalk_walking s b c x.req 0 (s.partFor (dieOfBay b) part).root
  exact ⟨_, congrArg Chan.walk hchan, rfl, rfl⟩

/-- The walks of a bay's first n channels, restarted one after another. -/
def State.restartWalks (s : State) (b part lo hi n : Nat) : State :=
  s.each (List.range n) fun s c => s.restartWalk b c part lo hi

theorem restartWalks_beside (s : State) (b part lo hi n : Nat) : Beside True s (s.restartWalks b part lo hi n) :=
  (Beside.refl s).each .restartWalk

theorem restartWalks_bayPart (s : State) (b part lo hi n : Nat) :
    (s.restartWalks b part lo hi n).bayPart b = s.bayPart b :=
  bayPart_congr (congrArg BaySeq.job ((restartWalks_beside ..).bayAt b)) (restartWalks_beside ..).jobs

theorem restartWalks_succ (s : State) (b part lo hi n : Nat) :
    s.restartWalks b part lo hi (n + 1) = (s.restartWalks b part lo hi n).restartWalk b n part lo hi := each_range_succ ..

/-- A channel's turn has not come. -/
theorem restartWalks_chanAt (s : State) (b part lo hi : Nat) {n k : Nat} (h : n ≤ k) :
    (s.restartWalks b part lo hi n).chanAt b k = s.chanAt b k := by
  induction n with
  | zero => rfl
  | succ n ih => rw [restartWalks_succ, restartWalk_chanAt_ne (by omega), ih (by omega)]

theorem restartWalks_restarts {b part lo hi n k : Nat} (hk : k < n) {x : Walk} (hx : (s.chanAt b k).walk = some x)
    (hpart : s.bayPart b = part) (hlo : lo < x.req.addr + x.req.len) (hhi : x.req.addr ≤ hi) :
    ∃ y, ((s.restartWalks b part lo hi n).chanAt b k).walk = some y ∧ y.req = x.req ∧ y.level = 0 := by
  induction n with
  | zero => omega
  | succ n ih =>
    rw [restartWalks_succ]
    by_cases hn : k = n
    · subst hn
      refine restartWalk_restarts ?_ ((restartWalks_bayPart ..).trans hpart) hlo hhi
      rw [restartWalks_chanAt _ _ _ _ _ (le_refl k), hx]
    · rw [restartWalk_chanAt_ne hn]
      exact ih (by omega)

theorem restartWalks_of_none {b n : Nat} (h : ∀ c < n, (s.chanAt b c).walk = none) (part lo hi : Nat) :
    s.restartWalks b part lo hi n = s := by
  induction n with
  | zero => rfl
  | succ n ih =>
    rw [restartWalks_succ, ih fun c hc => h c (by omega), restartWalk_of_none (h n (by omega))]

/-- An invalidation has reached the bay: the translations it covers are gone, and it is noted with the requests in flight
that it waits for. -/
def State.invalidated (s : State) (b part lo hi : Nat) : State :=
  let waits := (List.range 16).flatMap fun c =>
    ((s.chanAt b c).flying.filter fun r => s.bayPart b == part && decide (lo < r.addr + r.len) && decide (r.addr ≤ hi)).map
      fun r => (c, r.id)
  ({ s with bar4Tlb := s.bar4Tlb.filter fun e => !e.covered part lo hi } : State).setBay b { s.bayAt b with
    tlb := (s.bayAt b).tlb.filter fun e => !e.covered part lo hi
    invalidations := (s.bayAt b).invalidations ++ [⟨part, lo, hi, waits⟩] }

theorem execTranslationInvalidate_eq (b : Bay) (part lo hi : Nat) (s : State) :
    execTranslationInvalidate b part lo hi s = .next ((s.invalidated b part lo hi).restartWalks b part lo hi 16) := rfl

theorem invalidated_bayPart (s : State) (b part lo hi : Nat) : (s.invalidated b part lo hi).bayPart b = s.bayPart b := by
  refine bayPart_congr ?_ rfl
  rw [State.invalidated, bayAt_setBay_same]

theorem mem_filter_uncovered {es : List TlbEntry} {part lo hi : Nat} (e : TlbEntry) :
    e ∈ es.filter (fun e => !e.covered part lo hi) ↔ e ∈ es ∧ e.covered part lo hi = false := by simp

theorem execInvalidationComplete_done {b : Bay} {i : Invalidation} {rest : List Invalidation}
    (hi : (s.bayAt b).invalidations = i :: rest) (hnone : ∀ x ∈ i.waits, ∀ r ∈ (s.chanAt b x.1).flying, r.id ≠ x.2) :
    execInvalidationComplete b s = .next (s.setBay b { s.bayAt b with invalidations := rest }) := by
  have hdone : i.waits.any (fun x => (s.chanAt b x.1).flying.any fun r => r.id == x.2) = false := by simpa using hnone
  simp [execInvalidationComplete, hi, hdone]

/-! ### Zeroing of a quarter (R157, R158) -/

/-- What one step of a fold establishes and every step keeps holds after it. -/
theorem each_establishes {α : Type} {P : State → Prop} {f : State → α → State} {x : α} (hx : ∀ s, P (f s x))
    (hf : ∀ s y, P s → P (f s y)) {xs : List α} (s : State) (hmem : x ∈ xs) : P (s.each xs f) := by
  induction xs generalizing s with
  | nil => cases hmem
  | cons y ys ih =>
    rcases List.mem_cons.1 hmem with rfl | hmem
    · exact each_induction P hf ys (hx s)
    · exact ih (f s y) hmem

/-- The operand buffer and the accumulators of a tile hold zeros. -/
def Mtx.Zeroed (m : Mtx) : Prop := m.buf = [] ∧ m.acc = []

/-- The tile once it has been zeroed. -/
def Mtx.zero (m : Mtx) : Mtx := { m with buf := [], acc := [], staValid := false }

theorem zero_zeroed (m : Mtx) : m.zero.Zeroed := ⟨rfl, rfl⟩

theorem setMtx_zeroed {x : Nat} (k : Nat) (h : (s.mtxAt x).Zeroed) : ((s.setMtx k (s.mtxAt k).zero).mtxAt x).Zeroed := by
  by_cases hx : x = k
  · rw [hx, mtxAt_setMtx_same]
    exact zero_zeroed _
  · rwa [mtxAt_setMtx_ne _ _ hx]

/-- The tiles of a bay have been zeroed. -/
def State.zeroTiles (s : State) (b : Nat) : State :=
  s.each (List.range 8) fun s i => s.setMtx (b * 8 + i) (s.mtxAt (b * 8 + i)).zero

theorem zeroBay_eq (s : State) (b : Nat) :
    s.zeroBay b = (s.zeroTiles b).setVec b { (s.zeroTiles b).vecAt b with dmem := [] } := rfl

theorem zeroTiles_vecAt (s : State) (b x : Nat) : (s.zeroTiles b).vecAt x = s.vecAt x := by
  unfold State.zeroTiles
  exact each_keeps s (fun u => u.vecAt x) (fun u i => u.setMtx (b * 8 + i) (u.mtxAt (b * 8 + i)).zero) (fun _ _ => rfl) _

theorem zeroBay_mem (s : State) (b : Nat) : (s.zeroBay b).mem = s.mem := by
  rw [zeroBay_eq, setVec_mem]
  exact each_keeps s State.mem _ (fun s _ => setMtx_mem s _ _) _

/-- A tile that is zeroed stays so. -/
theorem zeroBay_mtxAt_keeps {x : Nat} (b : Nat) (h : (s.mtxAt x).Zeroed) : ((s.zeroBay b).mtxAt x).Zeroed := by
  rw [zeroBay_eq, mtxAt_congr (setVec_mtx ..)]
  exact each_induction (fun u => (u.mtxAt x).Zeroed) (fun _ i hu => setMtx_zeroed (b * 8 + i) hu) (List.range 8) h

theorem zeroBay_mtxAt (s : State) (b : Nat) {i : Nat} (hi : i < 8) : ((s.zeroBay b).mtxAt (b * 8 + i)).Zeroed := by
  rw [zeroBay_eq, mtxAt_congr (setVec_mtx ..)]
  refine each_establishes (P := fun u => (u.mtxAt (b * 8 + i)).Zeroed) (fun u => ?_)
    (fun _ k hu => setMtx_zeroed (b * 8 + k) hu) s (List.mem_range.2 hi)
  rw [mtxAt_setMtx_same]
  exact zero_zeroed _

theorem zeroBay_vecAt (s : State) (b : Nat) : ((s.zeroBay b).vecAt b).dmem = [] := by
  rw [zeroBay_eq, vecAt_setVec_same]

theorem zeroBay_vecAt_keeps {x : Nat} (b : Nat) (h : (s.vecAt x).dmem = []) : ((s.zeroBay b).vecAt x).dmem = [] := by
  by_cases hx : x = b
  · rw [hx]
    exact zeroBay_vecAt s b
  · rwa [zeroBay_eq, vecAt_setVec_ne _ _ hx, zeroTiles_vecAt]

theorem readByte_congr (h : t.mem = s.mem) (a : Nat) : t.readByte a = s.readByte a :=
  congrArg (fun x => tget (fun _ => 0) x a) h

/-- The memories of a quarter have been zeroed. -/
def State.zeroQuarter (s : State) (q : Nat) : State := (s.zeroCrema q).each (baysOfQuarter q) State.zeroBay

theorem zeroQuarter_vecAt (s : State) (q : Nat) {b : Nat} (hb : b ∈ baysOfQuarter q) :
    ((s.zeroQuarter q).vecAt b).dmem = [] :=
  each_establishes (P := fun u => (u.vecAt b).dmem = []) (fun u => zeroBay_vecAt u b) (fun _ x => zeroBay_vecAt_keeps x) _ hb

theorem zeroQuarter_mtxAt (s : State) (q : Nat) {b i : Nat} (hb : b ∈ baysOfQuarter q) (hi : i < 8) :
    ((s.zeroQuarter q).mtxAt (b * 8 + i)).Zeroed :=
  each_establishes (P := fun u => (u.mtxAt (b * 8 + i)).Zeroed) (fun u => zeroBay_mtxAt u b hi)
    (fun _ x => zeroBay_mtxAt_keeps x) _ hb

theorem zeroQuarter_readByte (s : State) (q a : Nat) : (s.zeroQuarter q).readByte a =
    if ∃ b ∈ baysOfQuarter q, cremaAddr b 0 ≤ a ∧ a < cremaAddr b 0x3000000 then 0 else s.readByte a := by
  have hmem : (s.zeroQuarter q).mem = (s.zeroCrema q).mem := each_keeps _ State.mem _ zeroBay_mem _
  refine (readByte_congr hmem a).trans ?_
  refine (tget_filter (fun _ => 0) (fun a => !(baysOfQuarter q).any fun b =>
    decide (cremaAddr b 0 ≤ a) && decide (a < cremaAddr b 0x3000000)) s.mem a).trans ?_
  simp only [Bool.not_eq_true', List.any_eq_false, Bool.and_eq_true, decide_eq_true_eq]
  split
  case isTrue h => rw [if_neg (by simpa using h)]; rfl
  case isFalse h => rw [if_pos (by simpa using h)]

/-- A bit of a register that has been cleared. -/
theorem rbit_clrBits_same (s : State) (k : Nat) {i : Nat} : (s.clrBits k (2 ^ i)).rbit k i = false := by
  rw [rbit_eq, State.rdN, clrBits_eq, rd_wr_same, BitVec.testBit_toNat, BitVec.getLsbD_and,
    BitVec.getLsbD_not, BitVec.getLsbD_ofNat, Nat.testBit_two_pow_self]
  cases decide (i < 32) <;> simp

theorem rbit_bump_ne (s : State) {k k' : Nat} (n i : Nat) (h : k' ≠ k) : (s.bump k n).rbit k' i = s.rbit k' i := by
  rw [State.rbit, State.rdN, rd_bump_ne _ _ h, State.rbit, State.rdN]

theorem rbit_clrBits_ne {k k' : Nat} (m i : Nat) (h : k' ≠ k) : (s.clrBits k m).rbit k' i = s.rbit k' i := by
  rw [State.rbit, State.rdN, clrBits_eq, rd_wr_ne _ _ h]
  rfl

theorem vecAt_congr (h : t.vec = s.vec) (b : Nat) : t.vecAt b = s.vecAt b :=
  congrArg (fun x => tget (fun _ => Vec.init) x b) h

/-- A quarter that has been reset takes part again, in the partition it belongs to now. -/
def State.memberAgain (s : State) (q : Nat) : State :=
  let s := s.clrBits (regKey (.seq (Fin.ofNat 16 (q / 4))) Reg.SEQ_RESET_STATE) (2 ^ (q % 4))
  ({ s with qtrHandle := tset (fun _ => 0) s.qtrHandle q 0 } : State).showMember q

theorem execQuarterZeroed_back {q : Quarter} (hreset : s.quarterResetting q = true) (hin : s.inReset q = false)
    (hbusy : s.quarterBusy q = false) : execQuarterZeroed q s = .next ((s.zeroQuarter q).memberAgain q) := by
  have h : (!s.quarterResetting q || s.inReset q || s.quarterBusy q) = false := by
    rw [hreset, hin, hbusy]
    rfl
  simp only [execQuarterZeroed, h, Bool.false_eq_true, if_false]
  rfl

theorem memberAgain_quarterResetting (s : State) (q : Nat) : (s.memberAgain q).quarterResetting q = false := by
  have hne : regKey (.seq (Fin.ofNat 16 (q / 4))) Reg.SEQ_RESET_STATE ≠
      regKey (.seq (Fin.ofNat 16 (q / 4))) Reg.SEQ_QTR_MAP := fun e => absurd (Nat.add_left_cancel e) (by decide)
  have hhandle (u : State) (x : Table Nat) (k i : Nat) : ({ u with qtrHandle := x } : State).rbit k i = u.rbit k i := rfl
  rw [State.quarterResetting, State.memberAgain, State.showMember, rbit_wrFld_ne _ _ _ _ _ hne, hhandle,
    rbit_clrBits_same]

theorem memberAgain_vec (s : State) (q : Nat) : (s.memberAgain q).vec = s.vec := by
  rw [State.memberAgain, State.showMember, wrFld_eq, wr_vec, clrBits_eq, wr_vec]

theorem memberAgain_mtx (s : State) (q : Nat) : (s.memberAgain q).mtx = s.mtx := by
  rw [State.memberAgain, State.showMember, wrFld_eq, wr_mtx, clrBits_eq, wr_mtx]

theorem memberAgain_mem (s : State) (q : Nat) : (s.memberAgain q).mem = s.mem := by
  rw [State.memberAgain, State.showMember, wrFld_eq, wr_mem, clrBits_eq, wr_mem]

/-! ### Resets of partitions (R159, R334, R349) -/

section
variable {p : Fin 16}

theorem execPartitionReset_refused (h : (s.part p).enabled = false) : execPartitionReset p s =
    .next ((s.setFlag (regKey .ctl Reg.CTL_ERR_FLAGS) 4).bump (regKey .ctl Reg.CTL_FAULT_COUNT) 1) := by
  simp [execPartitionReset, h]

theorem execPartitionReset_absorbed (h : (s.part p).enabled = true)
    (hin : s.rbit (regKey .ctl Reg.CTL_PART_RESETTING) p = true) : execPartitionReset p s = .next s := by
  simp [execPartitionReset, h, hin]

theorem execPartitionReset_starts (h : (s.part p).enabled = true)
    (hin : s.rbit (regKey .ctl Reg.CTL_PART_RESETTING) p = false) :
    execPartitionReset p s = .next (s.resetPartition p) := by
  simp [execPartitionReset, h, hin]

end

/-- An event is counted as lost in its function's page, or it is formed and waits in a completion ring. -/
theorem event_cases (s : State) (f code arg status : Nat) :
    s.event f code arg status =
      (s.bump (pageReg f Reg.HIF_FN_EVENTS_LOST) 1).setFlag (pageReg f Reg.HIF_FN_ERR_FLAGS) 3 ∨
    ∃ formed cqs, s.event f code arg status = { s with formed, cqs } := by
  simp only [State.event]
  split
  · exact .inl rfl
  · exact .inr ⟨_, _, rfl⟩

theorem event_mem (s : State) (f code arg status : Nat) : (s.event f code arg status).mem = s.mem := by
  rcases event_cases s f code arg status with h | ⟨_, _, h⟩ <;> rw [h]
  rw [setFlag_eq, wr_mem, bump_eq, wr_mem]

theorem event_jobs (s : State) (f code arg status : Nat) : (s.event f code arg status).jobs = s.jobs := by
  rcases event_cases s f code arg status with h | ⟨_, _, h⟩ <;> rw [h]
  rw [setFlag_eq, wr_jobs, bump_eq, wr_jobs]

theorem ctl_ne_pageReg {o : Nat} (ho : o < 0x1000) (f o' : Nat) : regKey .ctl o ≠ pageReg f o' := by
  simp only [pageReg, regKey, blockBase]
  omega

theorem ctl_ne_seq {o : Nat} (ho : o < 0x1000) (d : Fin 16) (o' : Nat) : regKey .ctl o ≠ regKey (.seq d) o' := by
  simp only [regKey, blockBase]
  omega

theorem event_rbit_ctl {o : Nat} (ho : o < 0x1000) (s : State) (f code arg status i : Nat) :
    (s.event f code arg status).rbit (regKey .ctl o) i = s.rbit (regKey .ctl o) i := by
  rcases event_cases s f code arg status with h | ⟨_, _, h⟩ <;> rw [h]
  · rw [rbit_setFlag_ne _ _ _ (ctl_ne_pageReg ho f _), rbit_bump_ne _ _ _ (ctl_ne_pageReg ho f _)]
  · rfl

/-- The state in which the reset of partition p has ended, but for the event that tells of it. -/
def State.resetEnded (s : State) (p : Nat) : State :=
  let s' := s.clrBits (regKey .ctl Reg.CTL_PART_RESETTING) (2 ^ p)
  let s' : State := { s' with resets := terase s'.resets p }
  s'.each ((maskQuarters (tget (fun _ => 0) s.resets p)).filter fun q => s'.partOfQuarter q == some p) fun s q =>
    s.clrBits (regKey (.seq (Fin.ofNat 16 (q / 4))) Reg.SEQ_RESET_STATE) (2 ^ (q % 4))

theorem execPartitionResetEnd_ends {p : Fin 16} (h : s.rbit (regKey .ctl Reg.CTL_PART_RESETTING) p = true) :
    execPartitionResetEnd p s = .next ((s.resetEnded p).event (tget (fun _ => 0) s.resets p / 2 ^ 64) 1 p 0) := by
  simp [execPartitionResetEnd, h]
  rfl

/-- Ending a reset keeps what clearing bits of registers keeps. -/
theorem resetEnded_keeps {β : Type} (f : State → β) (hclr : ∀ s k m, f (State.clrBits s k m) = f s)
    (hresets : ∀ (s : State) r, f { s with resets := r } = f s) (s : State) (p : Nat) : f (s.resetEnded p) = f s :=
  (each_keeps _ f _ (fun s _ => hclr s _ _) _).trans ((hresets _ _).trans (hclr ..))

theorem resetEnded_rbit (s : State) (p : Nat) : (s.resetEnded p).rbit (regKey .ctl Reg.CTL_PART_RESETTING) p = false := by
  unfold State.resetEnded
  refine (each_keeps _ (fun u => u.rbit (regKey .ctl Reg.CTL_PART_RESETTING) p) _ (fun u q => ?_) _).trans
    (rbit_clrBits_same ..)
  exact rbit_clrBits_ne _ _ (ctl_ne_seq (by decide) _ _)

/-! ### What the obligation says of an invalidation, of a quarter's return and of a refused reset -/

section
variable (s : State) (b part lo hi : Nat)

theorem invalidate_bayAt : (((s.invalidated b part lo hi).restartWalks b part lo hi 16).bayAt b).tlb =
    (s.bayAt b).tlb.filter fun e => !e.covered part lo hi := by
  rw [(restartWalks_beside ..).bayAt, State.invalidated, bayAt_setBay_same]

theorem invalidate_bar4Tlb : ((s.invalidated b part lo hi).restartWalks b part lo hi 16).bar4Tlb =
    s.bar4Tlb.filter fun e => !e.covered part lo hi :=
  each_keeps _ State.bar4Tlb _ (fun s c => restartWalk_bar4Tlb s b c part lo hi) _

theorem invalidate_mem : ((s.invalidated b part lo hi).restartWalks b part lo hi 16).mem = s.mem :=
  (restartWalks_beside ..).mem trivial

end

theorem quarterBack_zero (s : State) (q : Nat) {b : Nat} (hb : b ∈ baysOfQuarter q) :
    let t := (s.zeroQuarter q).memberAgain q
    (t.vecAt b).dmem = [] ∧ (∀ i < 8, (t.mtxAt (b * 8 + i)).buf = [] ∧ (t.mtxAt (b * 8 + i)).acc = []) ∧
      ∀ a, cremaAddr b 0 ≤ a → a < cremaAddr b 0x3000000 → t.readByte a = 0 := by
  refine ⟨?_, fun i hi => ?_, fun a hlo hhi => ?_⟩
  · rw [vecAt_congr (memberAgain_vec ..)]
    exact zeroQuarter_vecAt s q hb
  · rw [mtxAt_congr (memberAgain_mtx ..)]
    exact zeroQuarter_mtxAt s q hb hi
  · rw [readByte_congr (memberAgain_mem ..)]
    exact (zeroQuarter_readByte s q a).trans (if_pos ⟨b, hb, hlo, hhi⟩)

theorem quarterBack_readByte (s : State) (q : Nat) {a : Nat}
    (h : ∀ b ∈ baysOfQuarter q, a < cremaAddr b 0 ∨ cremaAddr b 0x3000000 ≤ a) :
    ((s.zeroQuarter q).memberAgain q).readByte a = s.readByte a := by
  rw [readByte_congr (memberAgain_mem ..)]
  refine (zeroQuarter_readByte s q a).trans (if_neg ?_)
  rintro ⟨b, hb, hlo, hhi⟩
  have := h b hb
  omega

/-- A job changes and something is counted. -/
theorem setJob_bump_frame (s : State) (j : Nat) (v : Job) (k n : Nat) :
    let t := (s.setJob j v).bump k n
    t.jobAt j = some v ∧ t = { s with jobs := t.jobs, regs := t.regs } :=
  ⟨jobAt_setJob_same s j v, rfl⟩

/-- A refusal sets a flag and counts. -/
theorem flagged_counted (s : State) {k k' i n : Nat} (hk : k ≠ k') (hi : i < 32) :
    OnlyRegs s ((s.setFlag k i).bump k' n) [k, k'] ∧ ((s.setFlag k i).bump k' n).rbit k i = true := by
  refine ⟨(OnlyRegs.wr s k _ (by simp)).trans (OnlyRegs.wr _ k' _ (by simp)), ?_⟩
  rw [rbit_bump_ne _ _ _ hk, rbit_setFlag_same _ _ _ hi]

/-- Settles O48: the commands of a job in the order of its life, then invalidations, and the resets of quarters and
partitions. -/
theorem jobCommandsComplete : Obligations.JobCommandsComplete := by
  refine ⟨fun j v s hv => ⟨fun m hphase hfirst hhigh => ?_, fun m bad r es u hphase hfirst hhigh hentries hr => ?_,
    fun l m hphase hl => ?_, execTimeLimitExpiry_fails hv, fun b hjob hfin hnew n g htrip => ?_,
    fun b m us hjob hphase hrec hstop hmore hunfin => ?_⟩, fun b part lo hi s => ?_,
    fun b i rest s => execInvalidationComplete_done, fun q s hreset hin hbusy => ?_, fun p s => ?_⟩
  · have hj : FirstOf s (· == .queued) j v := ⟨hv, hfirst, hhigh⟩
    refine ⟨fun h p hh hp => execJobDispatch_pinned hj hphase hh hp, fun c st bs u hh hcheck => ?_⟩
    exact ⟨_, execJobDispatch_checked hj hphase hh hcheck, fun hc hver => dispatched_accepted hc hver st⟩
  · have hj : FirstOf s JobPhase.isOpen j v := ⟨hv, hfirst, hhigh⟩
    refine ⟨fun hfree hfits => execJobPlacement_waits hj hphase hentries hr bad hfree hfits,
      fun qs c cmds w hfree hfresh hlists hc => ?_⟩
    exact ⟨_, execJobPlacement_places hj hphase hentries hr bad hfree hfresh hlists hc, putJob_placed hfresh w j qs es cmds⟩
  · refine ⟨execMulticastAck_untaken hv hphase hl, fun r u hparts hr => ⟨fun hlast => ?_, fun x n w hx htrip => ?_⟩,
      fun h => ?_, execMulticastRetry_fails hv hphase hl⟩
    · obtain ⟨_, hjob⟩ := startSequencers_jobAt (jobAt_setJob_same u.2 j (v.took l.lb l.part true))
      exact ⟨_, execMulticastAck_complete hv hphase hl hparts hr hlast, _, hjob, rfl⟩
    · have hexec := execMulticastAck_answered hv hphase hl hparts hr hx htrip
      refine ⟨fun hn => hexec.trans (if_pos hn), fun hn => ?_⟩
      obtain ⟨_, hjob⟩ := startSequencers_jobAt (jobAt_setJob_same w j
        ((v.answered l).took l.lb (l.part + 1) (decide (u.1.length ≤ l.part + 1))))
      exact ⟨_, hexec.trans (if_neg (not_not.2 hn)), _, hjob, rfl⟩
    · exact ⟨_, execMulticastRetry_again hv hphase hl h, setJob_bump_frame ..⟩
  · have hof := jobOf_eq hjob hv
    exact ⟨fun hn hphase => (execBayEndMsg_live hof hfin hnew htrip hphase).trans (congrArg _ (if_pos hn)),
      fun hn hphase => (execBayEndMsg_live hof hfin hnew htrip hphase).trans (congrArg _ (if_neg (not_not.2 hn))),
      execBayEndMsg_preempting hof hfin hnew htrip⟩
  · have hb : Stopped s b j v := ⟨jobOf_eq hjob hv, hphase, hrec, hstop, hmore, hunfin⟩
    refine ⟨_, execCheckpointRecordWrite_eq hb us, fun hr => ?_, fun hr => ?_⟩
    · obtain ⟨t, ht, heq, hmem⟩ := recorded_beside s b v m
      have hwritten : ¬(s.recordWritten b v m).1.status ≠ 0 := not_not.2 hr
      rw [if_neg hwritten, heq]
      exact ⟨bayAt_setBay_same .., (ht.jobAt j).trans hv, hmem⟩
    · have hfailed : (s.recordWritten b v m).1.status ≠ 0 := hr
      rw [if_pos hfailed]
      rfl
  · refine ⟨_, execTranslationInvalidate_eq b part lo hi s, fun e => ?_, fun e => ?_, invalidate_mem s b part lo hi,
      fun c hc w hw hpart => ?_, fun hnone => ?_⟩
    · rw [invalidate_bayAt, mem_filter_uncovered]
    · rw [invalidate_bar4Tlb, mem_filter_uncovered]
    · exact restartWalks_restarts hc hw ((invalidated_bayPart ..).trans hpart)
    · rw [restartWalks_of_none (s := s.invalidated b part lo hi) hnone]
      rfl
  · exact ⟨_, execQuarterZeroed_back hreset hin hbusy, memberAgain_quarterResetting .., fun b hb => quarterBack_zero s q hb,
      fun a ha => quarterBack_readByte s q ha⟩
  · have hflag : regKey .ctl Reg.CTL_ERR_FLAGS ≠ regKey .ctl Reg.CTL_FAULT_COUNT := fun e =>
      absurd (Nat.add_left_cancel e) (by decide)
    refine ⟨fun h => ⟨_, execPartitionReset_refused h, flagged_counted s hflag (by decide)⟩, execPartitionReset_absorbed,
      execPartitionReset_starts, fun h => ⟨_, execPartitionResetEnd_ends h, ?_, ?_, ?_, _, rfl, ?_⟩⟩
    · exact (event_rbit_ctl (by decide) ..).trans (resetEnded_rbit ..)
    · exact (event_mem ..).trans (resetEnded_keeps State.mem (fun _ _ _ => rfl) (fun _ _ => rfl) ..)
    · exact (event_jobs ..).trans (resetEnded_keeps State.jobs (fun _ _ _ => rfl) (fun _ _ => rfl) ..)
    · exact resetEnded_keeps State.out (fun _ _ _ => rfl) (fun _ _ => rfl) ..

end Sys2Proof.Machine
end

section
/-! SUPPORT. What user logic changes by itself: its settling, and an edge of one of its clocks (R171, R176, R182). -/

namespace Sys2Proof.Machine

/-- The state with all taken out of it that an edge of a user clock may change: registers, free values, and what user logic
holds. -/
def State.besideLogic (s : State) : State :=
  { s with regs := [], free := 0, clkSeen := [], clkEdges := [], flops := [], lutMems := [], brams := [], bramFlips := [],
           bramOuts := [], lines := [], contending := [], ioRegs := [] }

/-- Nothing else has changed. -/
def LogicOnly (s t : State) : Prop := t.besideLogic = s.besideLogic

namespace LogicOnly

variable {s₀ s t u : State}

theorem frame {regs free clkSeen clkEdges flops lutMems brams bramFlips bramOuts lines contending ioRegs}
    (h : LogicOnly s₀ s) :
    LogicOnly s₀ { s with
      regs, free, clkSeen, clkEdges, flops, lutMems, brams, bramFlips, bramOuts, lines, contending, ioRegs } := h

theorem ite {p : Prop} [Decidable p] (ht : LogicOnly s₀ t) (hu : LogicOnly s₀ u) :
    LogicOnly s₀ (if p then t else u) := by
  split <;> assumption

theorem ite_snd {α : Type} {p : Prop} [Decidable p] {x y : α × State} (hx : LogicOnly s₀ x.2) (hy : LogicOnly s₀ y.2) :
    LogicOnly s₀ (if p then x else y).2 := by
  split <;> assumption

theorem each {α : Type} {f : State → α → State} {xs : List α} (h : LogicOnly s₀ s)
    (hf : ∀ {s x}, LogicOnly s₀ s → LogicOnly s₀ (f s x)) : LogicOnly s₀ (s.each xs f) :=
  each_induction (LogicOnly s₀) (fun _ _ => hf) xs h

theorem settleLogic {d} (h : LogicOnly s₀ s) : LogicOnly s₀ (s.settleLogic d) :=
  (settleLogic_keeps State.besideLogic (fun _ _ _ => rfl) (fun _ _ _ => rfl) (fun _ _ => rfl) s d).trans h

theorem wr {k v} (h : LogicOnly s₀ s) : LogicOnly s₀ (s.wr k v) := h.frame

theorem bump {k n} (h : LogicOnly s₀ s) : LogicOnly s₀ (s.bump k n) := h.wr

theorem setFlag {k i} (h : LogicOnly s₀ s) : LogicOnly s₀ (s.setFlag k i) := h.wr

theorem cellEdge {d v x} (h : LogicOnly s₀ t) : LogicOnly s₀ (s.cellEdge d v x t) := .ite h.frame h.frame

theorem bramEccRead {d m w} (h : LogicOnly s₀ s) : LogicOnly s₀ (s.bramEccRead d m w).2 :=
  .ite_snd h (.ite_snd h.bump.setFlag (.ite_snd (.ite h.bump.setFlag.wr h.bump.setFlag) h.frame))

theorem setBramBit {d m p b} (h : LogicOnly s₀ s) : LogicOnly s₀ (s.setBramBit d m p b) := h.frame

theorem bramWrite {d m sh a x} (h : LogicOnly s₀ s) : LogicOnly s₀ (s.bramWrite d m sh a x) := h.each .setBramBit

theorem bramWrite_if {p : Prop} [Decidable p] {d m sh w v} (h : LogicOnly s₀ s) :
    LogicOnly s₀ (if p then s.bramWrite d m sh w v else s) := .ite h.bramWrite h

theorem setBramOut {d m q x} (h : LogicOnly s₀ s) : LogicOnly s₀ (s.setBramOut d m q x) := h.frame

theorem bramEdge {d m c a b} (h : LogicOnly s₀ s) : LogicOnly s₀ (s.bramEdge d m c a b) := by
  unfold State.bramEdge
  cases a with
  | none => cases b with
    | none => exact h
    | some y => exact h.bramWrite_if.setBramOut
  | some x =>
    have hread {c₁ c₂ : Bool} {w o₁ o₂} : LogicOnly s₀ (if c₁ then (o₁, s) else if c₂ then s.bramEccRead d m w
        else (o₂, s)).2 := .ite_snd h (.ite_snd h.bramEccRead h)
    cases b with
    | none => exact hread.bramWrite_if.setBramOut
    | some y => exact hread.bramWrite_if.bramWrite_if.setBramOut.setBramOut

theorem bramEdges {d g v} (h : LogicOnly s₀ t) : LogicOnly s₀ (s.bramEdges d g v t) :=
  h.each fun h => by split; exacts [h, h.bramEdge]

theorem ioEdges {d g rise v} (h : LogicOnly s₀ t) : LogicOnly s₀ (s.ioEdges d g rise v t) :=
  .ite h (h.each fun h => by dsimp only; split; exacts [h, .ite h h.frame])

theorem edgeAt {d g rise} (h : LogicOnly s₀ s) : LogicOnly s₀ (s.edgeAt d g rise) :=
  .settleLogic (.ioEdges (.ite (.bramEdges (h.each .cellEdge)) (h.each .cellEdge)))

theorem clockEdge {d g rise} (h : LogicOnly s₀ s) : LogicOnly s₀ (s.clockEdge d g rise) := .ite h.edgeAt h

/-- One edge of a user clock changes registers, free values and what user logic holds, and nothing else. -/
theorem tick (h : LogicOnly s₀ s) : LogicOnly s₀ s.tick := by
  unfold State.tick
  refine .ite ?_ h
  split
  exacts [h.frame.edgeAt, h.clockEdge.frame]

/-- What does not depend on any of these is as it was. -/
theorem keeps {β : Type} (h : LogicOnly s t) (f : State → β) (hf : ∀ u : State, f u.besideLogic = f u) : f t = f s :=
  (hf t).symm.trans ((congrArg f h).trans (hf s))

end LogicOnly

theorem tick_of_unreleased {s : State} (h : ∀ d < 16, s.dieState d ≠ 3) : s.tick = s := by
  have hnone : (List.range 16).any (fun d => s.dieState d == 3) = false := by simpa using h
  exact if_neg (Bool.eq_false_iff.1 hnone)

/-- Settles O2: an empty queue stands for one edge of a user clock, and logic that is released on no die has none. -/
theorem stepIdlesOnAnEmptyQueue : Obligations.StepIdlesOnAnEmptyQueue := by
  intro s hempty
  have hstep : step s = .next s.tick := by rw [step, hempty]
  have h : LogicOnly s s.tick := .tick rfl
  exact ⟨_, hstep, tick_of_unreleased, (h.keeps State.pending fun _ => rfl).trans hempty, h.keeps State.mem fun _ => rfl,
    h.keeps State.mtx fun _ => rfl, h.keeps State.vec fun _ => rfl, h.keeps State.chans fun _ => rfl,
    h.keeps State.jobs fun _ => rfl, h.keeps State.noc fun _ => rfl, h.keeps State.nv fun _ => rfl,
    h.keeps State.board fun _ => rfl, h.keeps State.out fun _ => rfl⟩

end Sys2Proof.Machine
end

section
/-! SUPPORT. What user logic holds: numbers from bits, tables and distributed memory, block memories at an edge of a clock, and
what a release leaves (R170 to R176, R217). -/

namespace Sys2Proof.Machine

/-! ### Numbers from their bits -/

theorem bitsNat_cons (b : Bool) (bs : List Bool) : bitsNat (b :: bs) = Nat.bit b (bitsNat bs) := by
  cases b <;> simp [bitsNat, Nat.bit, Nat.add_comm]

theorem testBit_bitsNat (bs : List Bool) (i : Nat) : (bitsNat bs).testBit i = bs.getD i false := by
  induction bs generalizing i with
  | nil => simp [bitsNat]
  | cons b bs ih =>
    rw [bitsNat_cons]
    cases i with
    | zero => simp
    | succ i => rw [Nat.testBit_bit_succ, ih, List.getD_cons_succ]

/-- The number whose bits below n are those of a. -/
def bitsBelow (n : Nat) (a : Nat → Bool) : Nat := bitsNat ((List.range n).map a)

theorem testBit_bitsBelow (n : Nat) (a : Nat → Bool) (i : Nat) :
    (bitsBelow n a).testBit i = (decide (i < n) && a i) := by
  rw [bitsBelow, testBit_bitsNat]
  by_cases h : i < n <;> simp [h]

theorem bitsBelow_lt (n : Nat) (a : Nat → Bool) : bitsBelow n a < 2 ^ n := by
  refine Nat.lt_pow_two_of_testBit _ fun i hi => ?_
  simp [testBit_bitsBelow, hi]

theorem bitsBelow_congr {n : Nat} {a b : Nat → Bool} (h : ∀ i < n, a i = b i) : bitsBelow n b = bitsBelow n a :=
  congrArg bitsNat (List.map_congr_left fun i hi => (h i (List.mem_range.1 hi)).symm)

theorem bitsBelow_ne {n : Nat} {a b : Nat → Bool} (h : ∃ i, i < n ∧ a i ≠ b i) : bitsBelow n b ≠ bitsBelow n a := by
  obtain ⟨i, hi, hne⟩ := h
  intro e
  have hbit := congrArg (·.testBit i) e
  simp only [testBit_bitsBelow, hi, decide_true, Bool.true_and] at hbit
  exact hne hbit.symm

theorem bitsBelow_testBit (n x : Nat) : bitsBelow n x.testBit = x % 2 ^ n := by
  refine Nat.eq_of_testBit_eq fun i => ?_
  rw [testBit_bitsBelow, Nat.testBit_mod_two_pow]

/-! ### A word of which one bit is written -/

/-- The word with bit i replaced, as user logic writes its memories. -/
def putBit {n : Nat} (w : BitVec n) (i : Nat) (b : Bool) : BitVec n :=
  if b then w ||| BitVec.twoPow n i else w &&& ~~~(BitVec.twoPow n i)

theorem getLsbD_putBit {n i : Nat} (w : BitVec n) (hi : i < n) (b : Bool) (j : Nat) :
    (putBit w i b).getLsbD j = if j = i then b else w.getLsbD j := by
  by_cases hj : j = i
  · subst hj
    cases b <;> simp [putBit, hi]
  · have hne : ¬i = j := fun e => hj e.symm
    cases b <;> simp [putBit, hj, hne]
    exact fun h => BitVec.lt_of_getLsbD h

/-! ### Cells: carries, tables and distributed memory (R170, R172) -/

theorem not_propagates_and_generates (c : CellCfg) (t : BitVec 64) (a : Nat → Bool) :
    ¬((cellTerms c t a).1 = true ∧ (cellTerms c t a).2 = true) := by
  unfold cellTerms
  split
  · rintro ⟨hp, hg⟩
    exact absurd hp (by simpa using (Bool.and_eq_true_iff.1 hg).2)
  · exact fun h => absurd h.2 Bool.false_ne_true

theorem foldl_carryOut_propagates {xs : List (Bool × Bool)} (h : ∀ x ∈ xs, x = (true, false)) (cin : Bool) :
    xs.foldl (fun c x => carryOut x c) cin = cin := by
  induction xs with
  | nil => rfl
  | cons x xs ih =>
    obtain ⟨hx, hxs⟩ := List.forall_mem_cons.1 h
    rw [List.foldl_cons, hx]
    exact ih hxs

/-- The skip path carries what the cells would. -/
theorem clusterOut_eq {xs : List (Bool × Bool)} (h : ∀ x ∈ xs, ¬(x.1 = true ∧ x.2 = true)) (cin : Bool) :
    clusterOut xs cin = xs.foldl (fun c x => carryOut x c) cin := by
  unfold clusterOut
  split
  · next hall =>
    refine (foldl_carryOut_propagates (fun x hx => ?_) cin).symm
    have hp := List.all_eq_true.1 hall x hx
    exact Prod.ext hp (Bool.eq_false_iff.2 fun hg => h x hx ⟨hp, hg⟩)
  · rfl

theorem getLsbD_memoryWrite64 (t : BitVec 64) (a : Nat → Bool) (d0 d1 : Bool) (j : Nat) :
    (memoryWrite .memory64 t a d0 d1).getLsbD j = if j = bitsBelow 6 a then d0 else t.getLsbD j :=
  getLsbD_putBit t (bitsBelow_lt 6 a) d0 j

theorem getLsbD_memoryWrite32 (t : BitVec 64) (a : Nat → Bool) (d0 d1 : Bool) (j : Nat) :
    (memoryWrite .memory32 t a d0 d1).getLsbD j =
      if j = 32 + bitsBelow 5 a then d1 else if j = bitsBelow 5 a then d0 else t.getLsbD j := by
  have hlt : bitsBelow 5 a < 32 := bitsBelow_lt 5 a
  have hlow := getLsbD_putBit t (hlt.trans (by decide : 32 < 64)) d0 j
  exact (getLsbD_putBit (putBit t _ d0) (Nat.add_lt_add_left hlt 32) d1 j).trans (if_congr Iff.rfl rfl hlow)

/-- A memory of one-bit words reads what was written where the addresses agree, and what it held elsewhere. -/
theorem tableZ_memoryWrite (t : BitVec 64) (a b : Nat → Bool) (d0 d1 : Bool) :
    tableZ (memoryWrite .memory64 t a d0 d1) b = if bitsBelow 6 b = bitsBelow 6 a then d0 else tableZ t b :=
  getLsbD_memoryWrite64 t a d0 d1 _

/-- A memory of two-bit words reads its low bits from one half of the table and its high bits from the other. -/
theorem tableZL_memoryWrite (t : BitVec 64) (a b : Nat → Bool) (d0 d1 : Bool) :
    tableZL (memoryWrite .memory32 t a d0 d1) b = if bitsBelow 5 b = bitsBelow 5 a then d0 else tableZL t b := by
  have hlt : bitsBelow 5 b < 32 := bitsBelow_lt 5 b
  exact (getLsbD_memoryWrite32 t a d0 d1 _).trans (if_neg (Nat.lt_add_right _ hlt).ne)

theorem memoryZH_memoryWrite (t : BitVec 64) (a b : Nat → Bool) (d0 d1 : Bool) :
    memoryZH (memoryWrite .memory32 t a d0 d1) b = if bitsBelow 5 b = bitsBelow 5 a then d1 else memoryZH t b := by
  have hlt : bitsBelow 5 a < 32 := bitsBelow_lt 5 a
  have hhigh : 32 + bitsBelow 5 b ≠ bitsBelow 5 a := (Nat.lt_add_right _ hlt).ne'
  exact (getLsbD_memoryWrite32 t a d0 d1 _).trans (if_congr Nat.add_right_inj rfl (if_neg hhigh))

/-! ### Block memories (R175, R176) -/

section
variable (s : State) (d m : Nat)

theorem bramWord_setBramBit (p w : Nat) (b : Bool) : (s.setBramBit d m p b).bramWord d m w =
    if w = p / 72 then putBit (s.bramWord d m (p / 72)) (p % 72) b else s.bramWord d m w :=
  (tget_tput s.bramInit ..).trans (if_congr Nat.add_right_inj rfl rfl)

theorem bramFlip_setBramBit (p w : Nat) (b : Bool) : (s.setBramBit d m p b).bramFlip d m w =
    if w = p / 72 then putBit (s.bramFlip d m (p / 72)) (p % 72) false else s.bramFlip d m w :=
  (tget_tset (fun _ => 0) ..).trans (if_congr Nat.add_right_inj rfl rfl)

/-- A bit that is written stands as written, upset or not before, and no other changes. -/
theorem bramBit_setBramBit (p p' : Nat) (b : Bool) :
    (s.setBramBit d m p b).bramBit d m p' = if p' = p then b else s.bramBit d m p' := by
  have hlt : p % 72 < 72 := Nat.mod_lt _ (by decide)
  rw [State.bramBit, bramWord_setBramBit, bramFlip_setBramBit]
  by_cases hw : p' / 72 = p / 72
  · rw [if_pos hw, if_pos hw, BitVec.getLsbD_xor, getLsbD_putBit _ hlt, getLsbD_putBit _ hlt]
    by_cases hp : p' = p
    · simp [hp]
    · have hbit : p' % 72 ≠ p % 72 := by omega
      rw [if_neg hbit, if_neg hbit, if_neg hp, State.bramBit, hw, BitVec.getLsbD_xor]
  · have hp : p' ≠ p := fun e => hw (congrArg (· / 72) e)
    rw [if_neg hw, if_neg hw, if_neg hp]
    rfl

/-- Bits written to places of their own all stand as written. -/
theorem bramBit_each_setBramBit (place : Nat → Nat) (x : Nat → Bool) {n : Nat} (hplace : Set.InjOn place (Set.Iio n))
    {i : Nat} (hi : i < n) : (s.each (List.range n) fun s i => s.setBramBit d m (place i) (x i)).bramBit d m (place i) = x i := by
  induction n with
  | zero => cases hi
  | succ n ih =>
    rw [State.each, List.range_succ, List.foldl_append]
    refine (bramBit_setBramBit _ d m (place n) (place i) (x n)).trans ?_
    by_cases hn : i = n
    · rw [hn, if_pos rfl]
    · have hlt : i < n := by omega
      rw [if_neg fun e => hn (hplace hi (Set.mem_Iio.2 n.lt_succ_self) e)]
      exact ih (hplace.mono (Set.Iio_subset_Iio n.le_succ)) hlt

/-- The bits of a word of a narrow shape lie within the 36 Kbit. -/
theorem narrow_place_lt {sh a i : Nat} (hnarrow : shapeWidth sh < 9) (ha : a < 2 ^ shapeAddr sh) (hi : i < shapeWidth sh) :
    a * shapeWidth sh + i < 36864 := by
  match sh with
  | 0 => simp [shapeWidth, shapeAddr, nthN] at *; omega
  | 1 => simp [shapeWidth, shapeAddr, nthN] at *; omega
  | 2 => simp [shapeWidth, shapeAddr, nthN] at *; omega
  | 3 | 4 | 5 | 6 => simp [shapeWidth, nthN] at hnarrow
  | n + 7 => simp [shapeWidth, nthN] at hi

theorem shapeBit_injOn {sh a : Nat} (ha : a < 2 ^ shapeAddr sh) : Set.InjOn (shapeBit sh a) (Set.Iio (shapeWidth sh)) := by
  intro i hi j hj h
  unfold shapeBit at h
  split at h
  · next hnarrow =>
    have hplace := congrArg Fin.val ((Config.narrowBit sh).injective (Fin.val_injective h))
    simp only [Fin.ofNat_eq_cast, Fin.val_natCast, Nat.mod_eq_of_lt (narrow_place_lt hnarrow ha hi),
      Nat.mod_eq_of_lt (narrow_place_lt hnarrow ha hj)] at hplace
    exact Nat.add_left_cancel hplace
  · exact Nat.add_left_cancel h

/-- A word of a shape reads as it was written. -/
theorem bramRead_bramWrite {sh a : Nat} (x : BitVec 72) (ha : a < 2 ^ shapeAddr sh) :
    (s.bramWrite d m sh a x).bramRead d m sh a = BitVec.ofNat 72 (x.toNat % 2 ^ shapeWidth sh) := by
  rw [← bitsBelow_testBit]
  refine congrArg (fun bs => BitVec.ofNat 72 (bitsNat bs)) (List.map_congr_left fun i hi => ?_)
  exact bramBit_each_setBramBit s d m (shapeBit sh a) x.getLsbD (shapeBit_injOn ha) (List.mem_range.1 hi)

theorem bramOut_setBramOut_same (q : Nat) (x : BramOut) : (s.setBramOut d m q x).bramOut d m q = x := tget_tput_same ..

theorem bramOut_setBramOut_ne {q q' : Nat} (x : BramOut) (h : q' ≠ q) :
    (s.setBramOut d m q x).bramOut d m q' = s.bramOut d m q' :=
  tget_tput_ne _ _ _ fun e => h (Nat.add_left_cancel e)

theorem bramRead_setBramOut (q : Nat) (x : BramOut) (sh a : Nat) :
    (s.setBramOut d m q x).bramRead d m sh a = s.bramRead d m sh a := rfl

/-- The memory once a port has written what it is asked to. -/
def State.portWritten (p : MemPortCfg) (x : MemAsk) : State :=
  if x.enable && x.write then s.bramWrite d m p.shape x.addr x.data else s

/-- What a port shows after an edge, the array before it being that of s. -/
def State.portShown (p : MemPortCfg) (x : MemAsk) (q : Nat) : BramOut :=
  memShows p x (s.bramOut d m q) ⟨s.bramRead d m p.shape x.addr, false, false⟩

/-- An edge of both ports: port B writes, then port A, and each shows what it saw before. -/
theorem bramEdge_both {c : BramCfg} (x y : MemAsk) (hshape : c.a.shape ≠ 6) : s.bramEdge d m c (some x) (some y) =
    (((s.portWritten d m c.b y).portWritten d m c.a x).setBramOut d m 0 (s.portShown d m c.a x 0)).setBramOut d m 1
      (s.portShown d m c.b y 1) := by
  unfold State.bramEdge State.portWritten State.portShown
  cases hx : x.enable <;> simp [hshape, hx, memShows]

variable {c : BramCfg} {x y : MemAsk}

theorem bramEdge_showsA (hshape : c.a.shape ≠ 6) :
    (s.bramEdge d m c (some x) (some y)).bramOut d m 0 = s.portShown d m c.a x 0 := by
  rw [bramEdge_both s d m x y hshape, bramOut_setBramOut_ne _ _ _ _ (by decide), bramOut_setBramOut_same]

theorem bramEdge_showsB (hshape : c.a.shape ≠ 6) :
    (s.bramEdge d m c (some x) (some y)).bramOut d m 1 = s.portShown d m c.b y 1 := by
  rw [bramEdge_both s d m x y hshape, bramOut_setBramOut_same]

theorem bramEdge_bramRead (hshape : c.a.shape ≠ 6) (sh a : Nat) :
    (s.bramEdge d m c (some x) (some y)).bramRead d m sh a =
      ((s.portWritten d m c.b y).portWritten d m c.a x).bramRead d m sh a := by
  rw [bramEdge_both s d m x y hshape, bramRead_setBramOut, bramRead_setBramOut]

/-- What a port sees of the word before the edge: on a read, and in read-first mode on a write. -/
theorem portShown_before {p : MemPortCfg} (q : Nat) (he : x.enable = true) (h : x.write = false ∨ p.mode = 0) :
    s.portShown d m p x q = ⟨s.bramRead d m p.shape x.addr, false, false⟩ := by
  obtain hw | hm := h
  · simp [State.portShown, memShows, he, hw]
  · simp [State.portShown, memShows, he, hm]

theorem portShown_writeFirst {p : MemPortCfg} (q : Nat) (he : x.enable = true) (hw : x.write = true) (hm : p.mode = 1) :
    s.portShown d m p x q = ⟨x.data, false, false⟩ := by
  simp [State.portShown, memShows, he, hw, hm]

theorem portShown_noChange {p : MemPortCfg} (q : Nat) (he : x.enable = true) (hw : x.write = true) (hm : p.mode = 2) :
    s.portShown d m p x q = s.bramOut d m q := by
  simp [State.portShown, memShows, he, hw, hm]

theorem portWritten_bramRead {p : MemPortCfg} (he : x.enable = true) (hw : x.write = true)
    (ha : x.addr < 2 ^ shapeAddr p.shape) :
    (s.portWritten d m p x).bramRead d m p.shape x.addr = BitVec.ofNat 72 (x.data.toNat % 2 ^ shapeWidth p.shape) := by
  rw [State.portWritten, he, hw]
  exact bramRead_bramWrite s d m x.data ha

theorem portWritten_idle {p : MemPortCfg} (h : (x.enable && x.write) = false) : s.portWritten d m p x = s :=
  if_neg (Bool.eq_false_iff.1 h)

end

/-! ### A release (R217) -/

theorem each_wr64_eq (s : State) (k : Nat → Nat) (v : Nat) (ns : List Nat) :
    ∃ regs, s.each ns (fun s n => s.wr64 (k n) v) = { s with regs } := by
  induction ns generalizing s with
  | nil => exact ⟨s.regs, rfl⟩
  | cons n ns ih => exact ih (s.wr64 (k n) v)

/-- A release, in its step 1, resets the tiles of its load, in the map then in force, and gives them their initial contents; a
static one clears the lines. Beside this it writes registers. -/
theorem releaseReset_eq (s : State) (d : Nat) (x : DieLoad) (v : CfgLoad) : ∃ (c : DieCfg) (regs : Table Word),
    let u := ((s.setCfg d c).holdFlops d (c.loadTiles v.isPartial v.region)).loadContents d
      (c.loadTiles v.isPartial v.region)
    s.releaseReset d x v = { (if v.isPartial then u else u.clearLines d) with regs } :=
  ⟨_, each_wr64_eq _ _ _ _⟩

/-- What user logic holds after it. -/
structure Released (s t : State) (d : Nat) (tiles : Nat → Bool) : Prop where
  flops : t.flops = (s.holdFlops d tiles).flops
  lutMems : t.lutMems = (s.loadContents d tiles).lutMems
  brams : t.brams = (s.loadContents d tiles).brams
  bramFlips : t.bramFlips = (s.loadContents d tiles).bramFlips

theorem releaseReset_released (s : State) (d : Nat) (x : DieLoad) (v : CfgLoad) :
    Released s (s.releaseReset d x v) d (((s.releaseReset d x v).cfgAt d).loadTiles v.isPartial v.region) := by
  obtain ⟨c, regs, e⟩ := releaseReset_eq s d x v
  have hcfg : (s.releaseReset d x v).cfgAt d = c := by
    rw [e]
    cases v.isPartial <;> exact tget_tput_same ..
  rw [hcfg, e]
  cases v.isPartial <;> exact ⟨rfl, rfl, rfl, rfl⟩

theorem releaseReset_lines (s : State) (d : Nat) (x : DieLoad) {v : CfgLoad} (h : v.isPartial = false) :
    (s.releaseReset d x v).lines = (s.clearLines d).lines := by
  obtain ⟨c, regs, e⟩ := releaseReset_eq s d x v
  rw [e, h]
  rfl

section
variable (d : Nat)

theorem cellDie_cellKey {rr col n : Nat} (hrr : rr < 16) (hcol : col < 800) (hn : n < 128) :
    cellDie (cellKey d rr col n) = d := by
  unfold cellDie cellKey
  omega

theorem cellTile_cellKey {rr col n : Nat} (hrr : rr < 16) (hcol : col < 800) (hn : n < 128) :
    cellTile (cellKey d rr col n) = tileOf rr col := by
  unfold cellTile cellKey
  congr 1 <;> omega

/-- What a table keeps under other keys only reads as it does where nothing is listed. -/
theorem tget_filter_dropped {α : Type} {f : Nat → α} {q : Nat → Bool} (t : Table α) {k : Nat} (h : q k = false) :
    tget f (t.filter fun e => q e.1) k = f k :=
  (tget_filter f q t k).trans (if_neg (Bool.eq_false_iff.1 h))

variable {s t : State} {tiles : Nat → Bool}

namespace Released

theorem flop {rr col n k : Nat} (h : Released s t d tiles) (hrr : rr < 16) (hcol : col < 800) (hn : n < 128) (hk : k < 2)
    (htile : tiles (tileOf rr col) = true) (c : CellCfg) (sr : Bool) :
    t.flop d rr col n k c sr = if k = 0 then c.init.1 else c.init.2 := by
  have hkey : (2 * cellKey d rr col n + k) / 2 = cellKey d rr col n := by omega
  unfold State.flop
  dsimp only
  rw [h.flops]
  refine (if_congr Iff.rfl rfl (tget_filter_dropped
    (q := fun i => !(decide (cellDie (i / 2) = d) && tiles (cellTile (i / 2)))) _ ?_)).trans (ite_self _)
  simp [hkey, cellDie_cellKey d hrr hcol hn, cellTile_cellKey d hrr hcol hn, htile]

theorem tableOf {rr col n : Nat} (h : Released s t d tiles) (hrr : rr < 16) (hcol : col < 800) (hn : n < 128)
    (htile : tiles (tileOf rr col) = true) (c : CellCfg) : t.tableOf d rr col n c = c.table := by
  have hread : tget (fun _ => c.table) t.lutMems (cellKey d rr col n) = c.table := by
    rw [h.lutMems]
    refine tget_filter_dropped (q := fun i => !(decide (cellDie i = d) && tiles (cellTile i))) _ ?_
    simp [cellDie_cellKey d hrr hcol hn, cellTile_cellKey d hrr hcol hn, htile]
  unfold State.tableOf
  split
  exacts [hread, hread, rfl]

theorem memory_dropped {m w : Nat} (hm : m < 2048) (hw : w < 512) (htile : tiles (memTile m) = true) :
    (!(decide (bramKey d m w / 512 / 2048 = d) && tiles (memTile (bramKey d m w / 512 % 2048)))) = false := by
  have hdie : bramKey d m w / 512 / 2048 = d := by unfold bramKey; omega
  have hmem : bramKey d m w / 512 % 2048 = m := by unfold bramKey; omega
  simp [hdie, hmem, htile]

theorem bramWord {m w : Nat} (h : Released s t d tiles) (hm : m < 2048) (hw : w < 512) (htile : tiles (memTile m) = true) :
    t.bramWord d m w = t.bramInit (bramKey d m w) := by
  rw [State.bramWord, h.brams]
  exact tget_filter_dropped (q := fun i => !(decide (i / 512 / 2048 = d) && tiles (memTile (i / 512 % 2048)))) _
    (memory_dropped d hm hw htile)

theorem bramFlip {m w : Nat} (h : Released s t d tiles) (hm : m < 2048) (hw : w < 512) (htile : tiles (memTile m) = true) :
    t.bramFlip d m w = 0 := by
  rw [State.bramFlip, h.bramFlips]
  exact tget_filter_dropped (q := fun i => !(decide (i / 512 / 2048 = d) && tiles (memTile (i / 512 % 2048)))) _
    (memory_dropped d hm hw htile)

end Released

theorem clearLines_tget {rr line : Nat} (s : State) (hrr : rr < 16) (hline : line < 16) :
    tget (fun _ => false) (s.clearLines d).lines (lineKey d rr line) = false := by
  refine tget_filter_dropped (q := fun i => i / 256 != d) _ ?_
  have hdie : lineKey d rr line / 256 = d := by unfold lineKey; omega
  simp [hdie]

end

/-! ### Pins (R194, R196) -/

theorem pinState_unpowered {s : State} {c : Nat} (h : s.fld (lgaReg (dieOfCell c) Reg.LGA_IO_BANK) 3 2 = 0) :
    s.pinState c = .unpowered := if_pos h

theorem pinState_pulldown {s : State} {c : Nat} (h : s.fld (lgaReg (dieOfCell c) Reg.LGA_IO_BANK) 3 2 ≠ 0)
    (hd : s.dieState (dieOfCell c) ≠ 3) : s.pinState c = .pulldown := (if_neg h).trans (if_pos hd)

theorem ioStandard_lvds {x : IoCellCfg} {c : Nat} (h : ioStandard 2 x c = .lvds) : (ioPair c).isSome = true := by
  unfold ioStandard at h
  rw [if_neg (by decide)] at h
  split at h
  · next hpair => exact (Bool.and_eq_true_iff.1 hpair).2
  · cases h

/-- Settles O60: cells and memories as they work, lines by what drives them, a release by the tables it leaves, and pins. -/
theorem userLogicFollowsItsConfiguration : Obligations.UserLogicFollowsItsConfiguration := by
  refine ⟨not_propagates_and_generates, fun xs cin => clusterOut_eq (fun x hx => ?_) cin, fun _ _ _ _ _ => rfl,
    fun t a b d0 d1 => ⟨fun h => ?_, fun h => ?_, fun h => ⟨?_, ?_⟩, fun h => ⟨?_, ?_⟩⟩,
    fun d m c x y s ha _ => ⟨fun he h => ?_, fun he h => ?_, fun he hw hm => ?_, fun he hw hm => ?_, fun he hw haddr => ?_,
      fun he hw hidle haddr => ?_⟩,
    fun d rr line v s => ⟨fun col h => ?_, fun h => ?_⟩, fun d rr col n x v s hrr hcol hn htile c sr => ?_,
    fun d m w x v s hm hw htile => ?_, fun d rr line x v s hrr hline hstatic => ?_,
    fun c s => ⟨pinState_unpowered, pinState_pulldown⟩, fun x c => ⟨rfl, ioStandard_lvds⟩⟩
  · obtain ⟨y, -, rfl⟩ := List.mem_map.1 hx
    exact not_propagates_and_generates y.1 y.2.1 y.2.2
  · exact (tableZ_memoryWrite ..).trans (if_pos (bitsBelow_congr h))
  · exact (tableZ_memoryWrite ..).trans (if_neg (bitsBelow_ne h))
  · exact (tableZL_memoryWrite ..).trans (if_pos (bitsBelow_congr h))
  · exact (memoryZH_memoryWrite ..).trans (if_pos (bitsBelow_congr h))
  · exact (tableZL_memoryWrite ..).trans (if_neg (bitsBelow_ne h))
  · exact (memoryZH_memoryWrite ..).trans (if_neg (bitsBelow_ne h))
  · exact (bramEdge_showsA s d m ha).trans (portShown_before s d m 0 he h)
  · exact (bramEdge_showsB s d m ha).trans (portShown_before s d m 1 he h)
  · exact (bramEdge_showsA s d m ha).trans (portShown_writeFirst s d m 0 he hw hm)
  · exact (bramEdge_showsA s d m ha).trans (portShown_noChange s d m 0 he hw hm)
  · exact (bramEdge_bramRead s d m ha ..).trans (portWritten_bramRead _ d m he hw haddr)
  · rw [bramEdge_bramRead s d m ha, portWritten_idle _ d m hidle]
    exact portWritten_bramRead s d m he hw haddr
  · rw [State.lineValue, h]
  · rw [State.lineValue, h]
  · have h := releaseReset_released s d x v
    exact ⟨h.flop d hrr hcol hn (by decide) htile c sr, h.flop d hrr hcol hn (by decide) htile c sr,
      h.tableOf d hrr hcol hn htile c⟩
  · have h := releaseReset_released s d x v
    exact ⟨h.bramWord d hm hw htile, h.bramFlip d hm hw htile⟩
  · rw [releaseReset_lines s d x hstatic]
    exact clearLines_tget d s hrr hline

end Sys2Proof.Machine
end

section
/-! SUPPORT. Events of the logic array: contention, reads of block memories with upset bits, PLLs, global clocks and delay taps
(R177, R179 to R183, R195). -/

namespace Sys2Proof.Machine

/-! ### Registers of a die's logic array -/

theorem lgaReg_ne {d o o' : Nat} (h : o ≠ o') : lgaReg d o ≠ lgaReg d o' := fun e => h (Nat.add_left_cancel e)

theorem rbit_congr {s t : State} (h : s.regs = t.regs) (k i : Nat) : s.rbit k i = t.rbit k i :=
  congrArg (fun w : Word => bitOf w.toNat i) (rd_congr h k)

/-- An event is counted and flagged. -/
def State.flagged (s : State) (d count flag n : Nat) : State :=
  (s.bump (lgaReg d count) n).setFlag (lgaReg d Reg.LGA_ERR_FLAGS) flag

section
variable (s : State) (d count flag n : Nat)

theorem flagged_onlyRegs : OnlyRegs s (s.flagged d count flag n) [lgaReg d count, lgaReg d Reg.LGA_ERR_FLAGS] :=
  (OnlyRegs.wr s _ _ (by simp)).trans (.wr _ _ _ (by simp))

variable {count flag}

theorem rd_flagged (h : count ≠ Reg.LGA_ERR_FLAGS) :
    (s.flagged d count flag n).rd (lgaReg d count) = s.rd (lgaReg d count) + BitVec.ofNat 32 n := by
  rw [State.flagged, rd_setFlag_ne _ _ (lgaReg_ne h), rd_bump_same]

theorem rbit_flagged (h : flag < 32) : (s.flagged d count flag n).rbit (lgaReg d Reg.LGA_ERR_FLAGS) flag = true :=
  rbit_setFlag_same _ _ _ h

end

/-- An event is counted and flagged, and the first of its kind leaves its place in a register of its own. -/
def State.flaggedAt (s : State) (d count flag info : Nat) (place : Word) : State :=
  if !s.rbit (lgaReg d Reg.LGA_ERR_FLAGS) flag then (s.flagged d count flag 1).wr (lgaReg d info) place
  else s.flagged d count flag 1

section
variable (s : State) (d : Nat) {count flag info : Nat} (place : Word)

theorem flaggedAt_onlyRegs : OnlyRegs s (s.flaggedAt d count flag info place)
    [lgaReg d count, lgaReg d Reg.LGA_ERR_FLAGS, lgaReg d info] := by
  have hflagged : OnlyRegs s (s.flagged d count flag 1) [lgaReg d count, lgaReg d Reg.LGA_ERR_FLAGS, lgaReg d info] :=
    (flagged_onlyRegs ..).mono (by simp)
  exact .ite (hflagged.trans (.wr _ _ _ (by simp))) hflagged

/-- The place's register apart, it reads as where the event is not the first. -/
theorem rd_flaggedAt_ne {k : Nat} (h : k ≠ lgaReg d info) :
    (s.flaggedAt d count flag info place).rd k = (s.flagged d count flag 1).rd k := by
  unfold State.flaggedAt
  split
  exacts [rd_wr_ne _ _ h, rfl]

theorem rd_flaggedAt_count (hc : count ≠ Reg.LGA_ERR_FLAGS) (hi : count ≠ info) :
    (s.flaggedAt d count flag info place).rd (lgaReg d count) = s.rd (lgaReg d count) + 1 :=
  (rd_flaggedAt_ne s d place (lgaReg_ne hi)).trans (rd_flagged s d 1 hc)

theorem rbit_flaggedAt (hf : flag < 32) (hi : Reg.LGA_ERR_FLAGS ≠ info) :
    (s.flaggedAt d count flag info place).rbit (lgaReg d Reg.LGA_ERR_FLAGS) flag = true :=
  (congrArg (fun w : Word => bitOf w.toNat flag) (rd_flaggedAt_ne s d place (lgaReg_ne hi))).trans (rbit_flagged s d 1 hf)

theorem rd_flaggedAt_info (hc : info ≠ count) (hi : info ≠ Reg.LGA_ERR_FLAGS) :
    (s.flaggedAt d count flag info place).rd (lgaReg d info) =
      if s.rbit (lgaReg d Reg.LGA_ERR_FLAGS) flag then s.rd (lgaReg d info) else place := by
  unfold State.flaggedAt
  cases s.rbit (lgaReg d Reg.LGA_ERR_FLAGS) flag
  · exact rd_wr_same ..
  · exact (flagged_onlyRegs s d count flag 1).2 _ (by simp [lgaReg_ne hc, lgaReg_ne hi])

end

/-! ### Contention on long lines (R179, R180) -/

theorem execLlContention_eq {d : Die} {rr line : Fin 16} {s : State} (htaps : 2 ≤ (s.enabledTaps d rr line).length)
    (hnew : lineKey d rr line ∉ s.contending) : execLlContention d rr line s =
      .next (({ s with contending := s.contending ++ [lineKey d rr line] } : State).flaggedAt d Reg.LGA_LL_CONTEND_COUNT 1
        Reg.LGA_LL_CONTEND_INFO (BitVec.ofNat 32 (rr * 16 + line))) :=
  if_neg (by simp [hnew, Nat.not_lt.2 htaps])

/-! ### Reads of block memories (R177) -/

/-- The ones of a word are as many as the places that hold one. -/
theorem ones_eq_card {x : BitVec 72} {places : Finset Nat} (h : ∀ k, k ∈ places ↔ k < 72 ∧ x.getLsbD k = true) :
    ones x = places.card := by
  rw [ones, ← List.toFinset_card_of_nodup (List.nodup_range.filter _)]
  congr 1
  ext k
  simp [h]

theorem ones_twoPow (i : Fin 72) : ones (BitVec.twoPow 72 i) = 1 :=
  (ones_eq_card (places := {i.val}) fun k => by
    simp only [Finset.mem_singleton, BitVec.getLsbD_twoPow]
    grind).trans (Finset.card_singleton _)

theorem ones_twoPow_xor {i j : Fin 72} (h : i ≠ j) : ones (BitVec.twoPow 72 i ^^^ BitVec.twoPow 72 j) = 2 := by
  have hne : i.val ≠ j.val := Fin.val_ne_of_ne h
  refine (ones_eq_card (places := {i.val, j.val}) fun k => ?_).trans (Finset.card_pair hne)
  simp only [Finset.mem_insert, Finset.mem_singleton, BitVec.getLsbD_xor, BitVec.getLsbD_twoPow]
  grind

section
variable {s : State} {d m w : Nat}

theorem bramEccRead_clean (h : s.bramFlip d m w = 0) :
    s.bramEccRead d m w = (⟨s.bramWord d m w, false, false⟩, s) := if_pos h

theorem bramEccRead_corrected (h : ones (s.bramFlip d m w) = 1) : s.bramEccRead d m w =
    (⟨s.bramWord d m w, true, false⟩, s.flagged d Reg.LGA_BRAM_CE_COUNT 2 1) :=
  (if_neg fun e => absurd (e ▸ h) (by decide)).trans (if_pos h)

theorem bramEccRead_uncorrectable (h : ones (s.bramFlip d m w) = 2) : s.bramEccRead d m w =
    (⟨s.bramWord d m w ^^^ s.bramFlip d m w, true, true⟩,
      s.flaggedAt d Reg.LGA_BRAM_UE_COUNT 3 Reg.LGA_BRAM_FAULT (BitVec.ofNat 32 (m * 2 ^ 16 + w))) :=
  (if_neg fun e => absurd (e ▸ h) (by decide)).trans
    ((if_neg fun e => absurd (h.symm.trans e) (by decide)).trans (if_pos h))

end

/-- The upset bits of a word once those listed have been upset too. -/
def flipped (flips : List (Fin 72)) (f : BitVec 72) : BitVec 72 :=
  flips.foldl (fun (x : BitVec 72) i => x ^^^ BitVec.twoPow 72 i) f

/-- The bits of a word that have been upset are those of f. -/
def State.upset (s : State) (d m w : Nat) (f : BitVec 72) : State :=
  { s with bramFlips := tset (fun _ => 0) s.bramFlips (bramKey d m w) f }

@[simp] theorem bramFlip_upset (s : State) (d m w : Nat) (f : BitVec 72) : (s.upset d m w f).bramFlip d m w = f :=
  tget_tset_same ..

theorem rd_upset (s : State) (d m w : Nat) (f : BitVec 72) (k : Nat) : (s.upset d m w f).rd k = s.rd k := rd_congr rfl k

theorem rbit_upset (s : State) (d m w : Nat) (f : BitVec 72) (k i : Nat) : (s.upset d m w f).rbit k i = s.rbit k i :=
  rbit_congr rfl k i

theorem rd_setBramOut (s : State) (d m q : Nat) (o : BramOut) (k : Nat) : (s.setBramOut d m q o).rd k = s.rd k :=
  rd_congr rfl k

theorem rbit_setBramOut (s : State) (d m q : Nat) (o : BramOut) (k i : Nat) :
    (s.setBramOut d m q o).rbit k i = s.rbit k i := rbit_congr rfl k i

/-- A read of a word shows it on port A; what the read counts is the only change beside that. -/
theorem execBramEccRead_eq {d : Die} {memory : Fin 2048} {c : BramCfg} {s : State} (word : Fin 512) (flips : List (Fin 72))
    (hc : (s.cfgAt d).memAt memory = some c) (hshape : c.a.shape = 6) (hecc : c.ecc = true)
    (hruns : s.tileRuns d (memTile memory) = true) {f : BitVec 72} (hf : flipped flips (s.bramFlip d memory word) = f)
    {o : BramOut} {u : State}
    (hread : (s.upset d memory word f).bramEccRead d memory word = (o, u)) :
    execBramEccRead d memory word flips s = .next (u.setBramOut d memory 0 o) := by
  have hguard : ¬(decide (c.a.shape ≠ 6) || !c.ecc || !s.tileRuns d (memTile memory)) = true := by
    simp [hshape, hecc, hruns]
  rw [execBramEccRead, hc]
  subst hf
  exact (if_neg hguard).trans
    (congrArg (fun r : BramOut × State => Host.Outcome.next (r.2.setBramOut d memory 0 r.1)) hread)

/-- Only registers, upset bits and outputs of block memories have changed, and of the registers what the read counts. -/
theorem setBramOut_frame {s u : State} {d m w : Nat} {f : BitVec 72} {ks : List Nat} (h : OnlyRegs (s.upset d m w f) u ks)
    (o : BramOut) : let t := u.setBramOut d m 0 o
    t = { s with regs := t.regs, bramFlips := t.bramFlips, bramOuts := t.bramOuts } ∧ RegsKept s t ks :=
  ⟨congrArg (fun x : State => { x with
    regs := u.regs, bramFlips := u.bramFlips, bramOuts := (u.setBramOut d m 0 o).bramOuts }) h.1,
    fun k hk => (rd_setBramOut ..).trans ((h.2 k hk).trans (rd_upset ..))⟩

/-! ### PLLs (R181, R183) -/

theorem settleLogic_regs (s : State) (d : Nat) : (s.settleLogic d).regs = s.regs :=
  settleLogic_keeps State.regs (fun _ _ _ => rfl) (fun _ _ _ => rfl) (fun _ _ => rfl) s d

theorem settleLogic_ports (s : State) (d : Nat) : (s.settleLogic d).ports = s.ports :=
  settleLogic_keeps State.ports (fun _ _ _ => rfl) (fun _ _ _ => rfl) (fun _ _ => rfl) s d

/-- What follows at once from a change of registers. -/
theorem settleLogic_frame {s u : State} {ks : List Nat} (h : OnlyRegs s u ks) (d : Nat) : let t := u.settleLogic d
    t = { s with regs := t.regs, lines := t.lines, contending := t.contending, flops := t.flops, clkSeen := t.clkSeen,
                 clkEdges := t.clkEdges } :=
  let t := u.settleLogic d
  have hsettled := settleLogic_keeps
    (fun x : State => { x with lines := [], contending := [], flops := [], clkSeen := [], clkEdges := [] })
    (fun _ _ _ => rfl) (fun _ _ _ => rfl) (fun _ _ => rfl) u d
  congrArg (fun x : State => { x with regs := t.regs, lines := t.lines, contending := t.contending, flops := t.flops,
                                      clkSeen := t.clkSeen, clkEdges := t.clkEdges })
    (hsettled.trans (congrArg
      (fun x : State => { x with regs := u.regs, lines := [], contending := [], flops := [], clkSeen := [], clkEdges := [] })
      h.1))

theorem lgaStatus_ne_pllLoss (d n : Nat) : lgaReg d Reg.LGA_STATUS ≠ lgaReg d (Reg.LGA_PLL_LOSS + 4 * n) :=
  lgaReg_ne (by unfold Reg.LGA_STATUS Reg.LGA_PLL_LOSS; omega)

theorem pllLoss_ne_errFlags (n : Nat) : Reg.LGA_PLL_LOSS + 4 * n ≠ Reg.LGA_ERR_FLAGS := by
  unfold Reg.LGA_ERR_FLAGS Reg.LGA_PLL_LOSS
  omega

/-- The registers once a PLL has lost lock. -/
def State.lockLost (s : State) (d n : Nat) : State :=
  (s.clrBits (lgaReg d Reg.LGA_STATUS) (2 ^ n)).flagged d (Reg.LGA_PLL_LOSS + 4 * n) 0 1

theorem execPllLockLoss_eq {d : Die} {n : Fin 8} {s : State} (h : s.pllLocked d n = true) :
    execPllLockLoss d n s = .next ((s.lockLost d n).settleLogic d) := if_neg (by simp [h])

theorem lockLost_onlyRegs (s : State) (d n : Nat) : OnlyRegs s (s.lockLost d n)
    [lgaReg d Reg.LGA_STATUS, lgaReg d (Reg.LGA_PLL_LOSS + 4 * n), lgaReg d Reg.LGA_ERR_FLAGS] :=
  (OnlyRegs.wr s _ _ (by simp)).trans ((flagged_onlyRegs ..).mono (by simp))

theorem lockLost_pllLocked (s : State) (d n : Nat) : (s.lockLost d n).pllLocked d n = false := by
  have hflags : lgaReg d Reg.LGA_STATUS ≠ lgaReg d Reg.LGA_ERR_FLAGS := lgaReg_ne (by decide)
  have hkept := (flagged_onlyRegs (s.clrBits (lgaReg d Reg.LGA_STATUS) (2 ^ n)) d (Reg.LGA_PLL_LOSS + 4 * n) 0 1).2
    (lgaReg d Reg.LGA_STATUS) (by simp [lgaStatus_ne_pllLoss, hflags])
  exact (congrArg (fun w : Word => bitOf w.toNat n) hkept).trans (rbit_clrBits_same ..)

theorem lockLost_count (s : State) (d n : Nat) : (s.lockLost d n).rd (lgaReg d (Reg.LGA_PLL_LOSS + 4 * n)) =
    s.rd (lgaReg d (Reg.LGA_PLL_LOSS + 4 * n)) + 1 :=
  (rd_flagged _ _ _ (pllLoss_ne_errFlags n)).trans (congrArg (· + 1) (rd_wr_ne _ _ (lgaStatus_ne_pllLoss d n).symm))

theorem recordDone_regs (s : State) (b p : Nat) (r : PortRecord) : (s.recordDone b p r).regs = s.regs := by
  unfold State.recordDone
  dsimp only
  split_ifs <;> rfl

/-- Records that leave a port change no register. -/
theorem portFlush_regs (s : State) (b p n : Nat) : (s.portFlush b p n).regs = s.regs := by
  induction n generalizing s with
  | zero => rfl
  | succ n ih =>
    unfold State.portFlush
    split
    · rfl
    · split
      · rfl
      · next u hu =>
        refine (ih _).trans (Eq.trans ?_ (deliver_keeps hu).2)
        dsimp only
        split
        exacts [recordDone_regs .., rfl]

theorem portFlush_of_empty {s : State} {b p : Nat} (h : (s.portAt b p).outQ = []) (n : Nat) : s.portFlush b p n = s := by
  cases n with
  | zero => rfl
  | succ n => rw [State.portFlush, h, ite_self]

theorem each_eq_self {α : Type} {f : State → α → State} {s : State} (xs : List α) (h : ∀ x, f s x = s) :
    s.each xs f = s :=
  each_induction (· = s) (fun _ x e => (congrArg (f · x) e).trans (h x)) xs rfl

theorem portAt_congr {s t : State} (h : t.ports = s.ports) (b p : Nat) : t.portAt b p = s.portAt b p :=
  congrArg (fun x => tget (fun _ => TilePort.init) x (4 * b + p)) h

/-- Every port of a die delivers what it held. -/
def State.portsFlushed (s : State) (d : Nat) : State :=
  s.each (List.range 64) fun s b => s.each (List.range 4) fun s p => s.portFlush (64 * d + b) p 132

theorem portsFlushed_regs (s : State) (d : Nat) : (s.portsFlushed d).regs = s.regs :=
  each_keeps s State.regs _ (fun s b => each_keeps s State.regs _ (fun s p => portFlush_regs s (64 * d + b) p 132) _) _

theorem portsFlushed_of_empty {s : State} (h : ∀ b p, (s.portAt b p).outQ = []) (d : Nat) : s.portsFlushed d = s :=
  each_eq_self _ fun _ => each_eq_self _ fun _ => portFlush_of_empty (h ..) _

theorem execPllRelock_eq {d : Die} {n : Fin 8} {c : PllCfg} {s : State} (hc : s.pllOf d n = some c) (hd : s.dieState d = 3)
    (hn : s.pllLocked d n = false) (href : s.refRuns d c.ref = true) : execPllRelock d n s =
      .next (((s.setFlag (lgaReg d Reg.LGA_STATUS) n).settleLogic d).portsFlushed d) := by
  rw [execPllRelock, hc]
  exact if_neg (by simp [hd, hn, href])

/-! ### Global clocks (R182) -/

theorem dropClock_eq (s : State) (k : Nat) : ∃ clkSeen clkEdges, s.dropClock k = { s with clkSeen, clkEdges } := by
  unfold State.dropClock
  split
  exacts [⟨_, _, rfl⟩, ⟨_, _, rfl⟩]

/-- An input from outside the die's PLLs, which may stop with no sign of it. -/
def isExternal : ClockInput → Bool
  | .pll _ _ => false
  | _ => true

theorem and_not_of_imp {c e : Bool} (h : c = true → e = true) : (c && !e) = false := by
  cases c with
  | false => rfl
  | true => rw [h rfl]; rfl

theorem isExternal_eq_true {i : ClockInput} (h : ∀ n o, i ≠ .pll n o) : isExternal i = true := by
  cases i with
  | pll n o => exact absurd rfl (h n o)
  | _ => rfl

/-- What the globals follow, global k the other of its inputs. -/
def State.selTurned (s : State) (k : Nat) : Table Nat :=
  tset (fun _ => 0) s.clkSel k (1 - tget (fun _ => 0) s.clkSel k)

/-- The globals that hold low, global k one of them. -/
def heldWith (ks : List Nat) (k : Nat) : List Nat := if ks.contains k then ks else ks ++ [k]

theorem heldWith_contains (ks : List Nat) (k : Nat) : (heldWith ks k).contains k = true := by
  unfold heldWith
  split
  · assumption
  · simp

theorem globalRuns_of {s : State} {d g : Nat} {x : ClockInput × ClockInput} (hd : s.dieState d = 3)
    (hfree : s.clkHeld.contains (16 * d + g) = false) (hx : s.globalInputs d g = some x) (hruns : s.inputRuns d x.1 = true) :
    s.globalRuns d g = true := by
  rw [State.globalRuns, hd, hfree, hx]
  exact hruns

section
variable {d : Die} {g : Fin 16} {x : ClockInput × ClockInput} {p q : Bool} {s : State}

/-- Where an input has stopped the global holds low. -/
theorem execGlobalClockSwitch_holds (hx : s.globalInputs d g = some x) (hd : s.dieState d = 3)
    (hp : p = true → isExternal x.1 = true) (hq : q = true → isExternal x.2 = true)
    (hstop : p = true ∨ q = true ∨ s.inputRuns d x.1 = false ∨ s.inputRuns d x.2 = false) :
    ∃ clkSeen clkEdges, execGlobalClockSwitch d g p q s =
      .next { s with clkHeld := heldWith s.clkHeld (16 * d.val + g.val), clkSeen, clkEdges } := by
  have hguard : ¬(s.dieState d != 3 || (p && !isExternal x.1) || (q && !isExternal x.2)) = true := by
    rw [hd, and_not_of_imp hp, and_not_of_imp hq]
    decide
  have hstopped : (p || q || !s.inputRuns d x.1 || !s.inputRuns d x.2) = true := by
    simpa only [Bool.or_eq_true, Bool.not_eq_true', or_assoc] using hstop
  obtain ⟨clkSeen, clkEdges, e⟩ := dropClock_eq { s with clkHeld := heldWith s.clkHeld (16 * d.val + g.val) }
    (16 * d.val + g.val)
  refine ⟨clkSeen, clkEdges, ?_⟩
  rw [execGlobalClockSwitch, hx]
  exact (if_neg hguard).trans ((if_pos hstopped).trans (congrArg _ e))

/-- Where both run it follows the other input from that input's next falling edge. -/
theorem execGlobalClockSwitch_changes (hx : s.globalInputs d g = some x) (hd : s.dieState d = 3)
    (h1 : s.inputRuns d x.1 = true) (h2 : s.inputRuns d x.2 = true) :
    ∃ clkSeen clkEdges, execGlobalClockSwitch d g false false s = .next { s with
      clkHeld := s.clkHeld.filter (· != 16 * d.val + g.val)
      clkSel := s.selTurned (16 * d.val + g.val)
      clkSeen, clkEdges } := by
  have hguard : ¬(s.dieState d != 3 || (false && !isExternal x.1) || (false && !isExternal x.2)) = true := by simp [hd]
  have hruns : ¬(false || false || !s.inputRuns d x.1 || !s.inputRuns d x.2) = true := by simp [h1, h2]
  obtain ⟨clkSeen, clkEdges, e⟩ := dropClock_eq { s with
    clkHeld := s.clkHeld.filter (· != 16 * d.val + g.val)
    clkSel := s.selTurned (16 * d.val + g.val) }
    (16 * d.val + g.val)
  obtain ⟨i, j⟩ := x
  rw [execGlobalClockSwitch, hx]
  cases j with
  | routed y =>
    exact ⟨_, clkEdges, (if_neg hguard).trans ((if_neg hruns).trans (congrArg (fun u : State => Host.Outcome.next { u with
      clkSeen := tset (fun _ => 0) u.clkSeen (16 * d.val + g.val) (if u.siteNow d y then 3 else 2) }) e))⟩
  | pll | pair => exact ⟨_, _, (if_neg hguard).trans ((if_neg hruns).trans (congrArg _ e))⟩

/-- A global that holds low follows what it followed, and does not run. -/
theorem held_globalInputs (hx : s.globalInputs d g = some x) (clkSeen clkEdges) :
    let t := { s with clkHeld := heldWith s.clkHeld (16 * d.val + g.val), clkSeen, clkEdges }
    t.globalInputs d g = some x ∧ t.globalRuns d g = false ∧
      t = { s with clkHeld := t.clkHeld, clkSeen := t.clkSeen, clkEdges := t.clkEdges } := by
  refine ⟨hx, ?_, rfl⟩
  rw [State.globalRuns, heldWith_contains, Bool.not_true, Bool.and_false, Bool.false_and]

/-- The inputs of a global change places with its selection. -/
theorem globalInputs_swapped (hx : s.globalInputs d g = some x) (clkHeld clkSeen clkEdges) : ({ s with
    clkHeld, clkSeen, clkEdges
    clkSel := s.selTurned (16 * d.val + g.val) } : State).globalInputs d g = some (x.2, x.1) := by
  unfold State.globalInputs at *
  obtain ⟨e, he, rfl⟩ := Option.map_eq_some_iff.1 hx
  refine Option.map_eq_some_iff.2 ⟨e, he, ?_⟩
  have hsel : tget (fun _ => 0) (s.selTurned (16 * d.val + g.val)) (16 * d.val + g.val) =
      1 - tget (fun _ => 0) s.clkSel (16 * d.val + g.val) := tget_tset_same ..
  by_cases h : tget (fun _ => 0) s.clkSel (16 * d.val + g.val) = 0
  · have hone : tget (fun _ => 0) (s.selTurned (16 * d.val + g.val)) (16 * d.val + g.val) ≠ 0 := by omega
    exact (if_neg hone).trans (by rw [if_pos h])
  · have hzero : tget (fun _ => 0) (s.selTurned (16 * d.val + g.val)) (16 * d.val + g.val) = 0 := by omega
    exact (if_pos hzero).trans (by rw [if_neg h])

end

/-! ### Delay taps (R195) -/

theorem execDelayTapLoad_eq {c : Fin 96} {s : State} (tap : Fin 512) (hd : s.dieState (dieOfCell c) = 3) :
    execDelayTapLoad c tap s = .next { s with taps := tset (fun _ => 0) s.taps c tap } := if_neg (by simp [hd])

/-- A step moves to the next tap where one lies there. -/
theorem execDelayTapStep_up {c : Fin 96} {s : State} (hd : s.dieState (dieOfCell c) = 3)
    (h : tget (fun _ => 0) s.taps c < 511) : execDelayTapStep c true s =
      .next { s with taps := tset (fun _ => 0) s.taps c (tget (fun _ => 0) s.taps c + 1) } :=
  (if_neg (by simp [hd])).trans (if_neg (by simp [h]))

theorem execDelayTapStep_down {c : Fin 96} {s : State} (hd : s.dieState (dieOfCell c) = 3)
    (h : tget (fun _ => 0) s.taps c ≠ 0) : execDelayTapStep c false s =
      .next { s with taps := tset (fun _ => 0) s.taps c (tget (fun _ => 0) s.taps c - 1) } :=
  (if_neg (by simp [hd])).trans (if_neg (by simp [h]))

/-- Settles O26: each event by the state it comes to, then what that state reads. -/
theorem logicArrayEventsComplete : Obligations.LogicArrayEventsComplete := by
  refine ⟨fun d rr line s htaps hnew => ?_, fun d memory word c i j s hc hshape hecc hruns hflip hij => ⟨?_, ?_, ?_⟩,
    fun d n s h => ?_, fun d n c s hc hd hn href => ?_, fun d g x s hx hd => ⟨fun h1 h2 => ?_, fun hstop => ?_,
      fun p q hpq hp hq => ?_⟩, fun c tap s hd => ?_, fun c s hd => ⟨fun h => ?_, fun h => ?_⟩⟩
  · have honly := flaggedAt_onlyRegs { s with contending := s.contending ++ [lineKey d rr line] } d
      (count := Reg.LGA_LL_CONTEND_COUNT) (flag := 1) (info := Reg.LGA_LL_CONTEND_INFO) (BitVec.ofNat 32 (rr * 16 + line))
    exact ⟨_, execLlContention_eq htaps hnew, rd_flaggedAt_count _ _ _ (by decide) (by decide),
      rbit_flaggedAt _ _ _ (by decide) (by decide), rd_flaggedAt_info _ _ _ (by decide) (by decide), honly.1, honly.2⟩
  · have hf : flipped [] (s.bramFlip d memory word) = 0 := hflip
    exact ⟨_, execBramEccRead_eq word [] hc hshape hecc hruns hf (bramEccRead_clean (bramFlip_upset ..)),
      bramOut_setBramOut_same .., rfl, rfl⟩
  · have hf : flipped [i] (s.bramFlip d memory word) = BitVec.twoPow 72 i := by
      rw [hflip]
      exact BitVec.zero_xor
    have hone : ones ((s.upset d memory word (BitVec.twoPow 72 i)).bramFlip d memory word) = 1 := by simp [ones_twoPow]
    generalize BitVec.twoPow 72 i = f at hf hone
    have honly := flagged_onlyRegs (s.upset d memory word f) d Reg.LGA_BRAM_CE_COUNT 2 1
    refine ⟨_, execBramEccRead_eq word [i] hc hshape hecc hruns hf (bramEccRead_corrected hone),
      bramOut_setBramOut_same .., ?_, ?_, setBramOut_frame honly _⟩
    · rw [rd_setBramOut, rd_flagged _ _ _ (by decide), rd_upset]
      rfl
    · rw [rbit_setBramOut, rbit_flagged _ _ _ (by decide)]
  · have hf : flipped [i, j] (s.bramFlip d memory word) = BitVec.twoPow 72 i ^^^ BitVec.twoPow 72 j := by
      rw [hflip]
      exact congrArg (· ^^^ BitVec.twoPow 72 j.val) BitVec.zero_xor
    have htwo : ones ((s.upset d memory word (BitVec.twoPow 72 i ^^^ BitVec.twoPow 72 j)).bramFlip d memory word) = 2 := by
      simp [ones_twoPow_xor hij]
    have honly := flaggedAt_onlyRegs (s.upset d memory word (BitVec.twoPow 72 i ^^^ BitVec.twoPow 72 j)) d
      (count := Reg.LGA_BRAM_UE_COUNT) (flag := 3) (info := Reg.LGA_BRAM_FAULT) (BitVec.ofNat 32 (memory * 2 ^ 16 + word))
    refine ⟨_, execBramEccRead_eq word [i, j] hc hshape hecc hruns hf (bramEccRead_uncorrectable htwo), ?_, ?_, ?_, ?_,
      setBramOut_frame honly _⟩
    · rw [bramOut_setBramOut_same, bramFlip_upset, BitVec.xor_assoc]
      rfl
    · rw [rd_setBramOut, rd_flaggedAt_count _ _ _ (by decide) (by decide), rd_upset]
    · rw [rbit_setBramOut, rbit_flaggedAt _ _ _ (by decide) (by decide)]
    · rw [rd_setBramOut, rd_flaggedAt_info _ _ _ (by decide) (by decide), rd_upset, rbit_upset]
  · have hregs := settleLogic_regs (s.lockLost d n) d
    have honly := lockLost_onlyRegs s d n
    exact ⟨_, execPllLockLoss_eq h, (rbit_congr hregs ..).trans (lockLost_pllLocked ..),
      (rd_congr hregs _).trans (lockLost_count ..), (rbit_congr hregs ..).trans (rbit_flagged _ _ _ (by decide)),
      settleLogic_frame honly d, fun k hk => (rd_congr hregs k).trans (honly.2 k hk)⟩
  · have hregs := settleLogic_regs (s.setFlag (lgaReg d Reg.LGA_STATUS) n) d
    have honly : OnlyRegs s (s.setFlag (lgaReg d Reg.LGA_STATUS) n) [lgaReg d Reg.LGA_STATUS] := .wr _ _ _ (by simp)
    refine ⟨_, execPllRelock_eq hc hd hn href, ?_, fun hempty => ?_⟩
    · exact (rbit_congr ((portsFlushed_regs ..).trans hregs) ..).trans (rbit_setFlag_same _ _ _ (by omega))
    · have hports := (settleLogic_ports (s.setFlag (lgaReg d Reg.LGA_STATUS) n) d).trans (wr_ports ..)
      have hnone (b p : Nat) := (congrArg TilePort.outQ (portAt_congr hports b p)).trans (hempty b p)
      rw [portsFlushed_of_empty hnone]
      exact ⟨fun k hk => (rd_congr hregs k).trans (honly.2 k hk), settleLogic_frame honly d⟩
  · obtain ⟨clkSeen, clkEdges, e⟩ := execGlobalClockSwitch_changes hx hd h1 h2
    have hswap := globalInputs_swapped hx (s.clkHeld.filter (· != 16 * d.val + g.val)) clkSeen clkEdges
    have hfree : (s.clkHeld.filter (· != 16 * d.val + g.val)).contains (16 * d.val + g.val) = false := by simp
    exact ⟨_, e, hswap, globalRuns_of hd hfree hswap h2, rfl⟩
  · obtain ⟨clkSeen, clkEdges, e⟩ := execGlobalClockSwitch_holds (p := false) (q := false) hx hd nofun nofun
      (.inr (.inr hstop))
    exact ⟨_, e, held_globalInputs hx clkSeen clkEdges⟩
  · obtain ⟨clkSeen, clkEdges, e⟩ := execGlobalClockSwitch_holds hx hd (fun h => isExternal_eq_true (hp h))
      (fun h => isExternal_eq_true (hq h)) ((Bool.or_eq_true_iff.1 hpq).imp_right .inl)
    exact ⟨_, e, held_globalInputs hx clkSeen clkEdges⟩
  · exact ⟨_, execDelayTapLoad_eq tap hd, rfl, tget_tset_same .., fun c2 hc2 => tget_tset_ne _ _ _ hc2⟩
  · exact ⟨_, execDelayTapStep_up hd h, rfl, tget_tset_same (fun _ => 0) s.taps c (_ + 1)⟩
  · exact ⟨_, execDelayTapStep_down hd h, rfl, tget_tset_same ..⟩

end Sys2Proof.Machine
end

section
/-! SUPPORT. Tile ports: what user logic pushes, grants and pops (R185 to R192). -/

namespace Sys2Proof.Machine

section
variable {s t : State} {b p : Nat}

/-! ### Open and closed ports (R186, R189) -/

theorem OnlyRegs.portOpen_eq {ks : List Nat} (h : OnlyRegs s t ks) (b p : Nat) : t.portOpen b p = s.portOpen b p :=
  (congrArg (fun u : State => u.portOpen b p) h.1).trans rfl

theorem OnlyRegs.ports_eq {ks : List Nat} (h : OnlyRegs s t ks) : t.ports = s.ports :=
  (congrArg State.ports h.1).trans rfl

theorem setPort_setPort (s : State) (b p : Nat) (v w : TilePort) : (s.setPort b p v).setPort b p w = s.setPort b p w :=
  congrArg (fun ports => { s with ports }) (tput_tput_same ..)

theorem portOpen_setPort (s : State) (b p : Nat) {v : TilePort} (h : v.isOpen = (s.portAt b p).isOpen) :
    (s.setPort b p v).portOpen b p = s.portOpen b p := by
  unfold State.portOpen
  rw [portAt_setPort_same, h]
  rfl

theorem portFlush_closed (h : s.portOpen b p = false) (n : Nat) : s.portFlush b p n = s := by
  cases n with
  | zero => rfl
  | succ n => rw [State.portFlush, h, Bool.false_and, if_neg Bool.false_ne_true]

/-- A queue whose first record may not leave stays as it is. -/
theorem portFlush_held {r : PortRecord} {rest : List PortRecord} (hq : (s.portAt b p).outQ = r :: rest)
    (hheld : s.deliver b (.port b p) r.dst r.channel r.addr (r.bytes.map some) r.done = none) (n : Nat) :
    s.portFlush b p n = s := by
  cases n with
  | zero => rfl
  | succ n =>
    unfold State.portFlush
    split
    · rfl
    · next hfirst =>
      rw [hq] at hfirst
      split at hfirst
      · cases hfirst
        rw [hheld]
      · cases hfirst

/-! ### Pushes (R185, R186, R189) -/

theorem pushBeat_closed_cons (r : PortPush) (rs : List PortPush) (h : s.portOpen b p = false) : s.pushBeat b p (r :: rs) =
    (s.flagged (dieOfBay b) Reg.LGA_PORT_DROP_COUNT 6 1).pushBeat b p rs := if_pos (by rw [h]; rfl)

theorem portOpen_flagged (s : State) (d count flag n b p : Nat) : (s.flagged d count flag n).portOpen b p = s.portOpen b p :=
  (flagged_onlyRegs ..).portOpen_eq b p

theorem pushBeat_closed_onlyRegs (rs : List PortPush) (h : s.portOpen b p = false) : OnlyRegs s (s.pushBeat b p rs)
    [lgaReg (dieOfBay b) Reg.LGA_PORT_DROP_COUNT, lgaReg (dieOfBay b) Reg.LGA_ERR_FLAGS] := by
  induction rs generalizing s with
  | nil => exact .refl s _
  | cons r rs ih =>
    rw [pushBeat_closed_cons r rs h]
    exact (flagged_onlyRegs ..).trans (ih ((portOpen_flagged ..).trans h))

theorem pushBeat_closed_count (rs : List PortPush) (h : s.portOpen b p = false) :
    (s.pushBeat b p rs).rd (lgaReg (dieOfBay b) Reg.LGA_PORT_DROP_COUNT) =
      s.rd (lgaReg (dieOfBay b) Reg.LGA_PORT_DROP_COUNT) + BitVec.ofNat 32 rs.length := by
  induction rs generalizing s with
  | nil => exact (BitVec.add_zero _).symm
  | cons r rs ih =>
    rw [pushBeat_closed_cons r rs h, ih ((portOpen_flagged ..).trans h), rd_flagged _ _ _ (by decide), List.length_cons,
      BitVec.add_assoc, ← BitVec.ofNat_add, Nat.add_comm 1]

theorem pushBeat_closed_flag (rs : List PortPush) (h : s.portOpen b p = false) :
    (s.pushBeat b p rs).rbit (lgaReg (dieOfBay b) Reg.LGA_ERR_FLAGS) 6 =
      (s.rbit (lgaReg (dieOfBay b) Reg.LGA_ERR_FLAGS) 6 || !rs.isEmpty) := by
  induction rs generalizing s with
  | nil => exact (Bool.or_false _).symm
  | cons r rs ih =>
    rw [pushBeat_closed_cons r rs h, ih ((portOpen_flagged ..).trans h), rbit_flagged _ _ _ (by decide)]
    simp

/-- The record that stands in the outbound queue for a push. -/
def pushRecord (r : PortPush) : PortRecord := ⟨r.dst, r.addr, r.channel, r.done, r.bytes⟩

/-- The records of a beat stand at the end of a port's outbound queue. -/
def State.enqueued (s : State) (b p : Nat) (rs : List PortPush) : State :=
  s.setPort b p { s.portAt b p with outQ := (s.portAt b p).outQ ++ rs.map pushRecord }

theorem enqueued_enqueued (s : State) (b p : Nat) (rs rs' : List PortPush) :
    (s.enqueued b p rs).enqueued b p rs' = s.enqueued b p (rs ++ rs') := by
  rw [State.enqueued, State.enqueued, setPort_setPort, portAt_setPort_same]
  simp only [State.enqueued, List.map_append, List.append_assoc]

theorem portOpen_enqueued (s : State) (b p : Nat) (rs : List PortPush) :
    (s.enqueued b p rs).portOpen b p = s.portOpen b p := portOpen_setPort s b p rfl

theorem pushBeat_open_cons {r : PortPush} (rs : List PortPush) (hopen : s.portOpen b p = true) (hr : pushFault r = none) :
    s.pushBeat b p (r :: rs) = (s.enqueued b p [r]).pushBeat b p rs := by
  rw [State.pushBeat, hopen, hr]
  rfl

/-- An open port takes a beat that keeps the protocol. -/
theorem pushBeat_open {r : PortPush} {rs : List PortPush} (hopen : s.portOpen b p = true)
    (hkeeps : ∀ x ∈ r :: rs, pushFault x = none) : s.pushBeat b p (r :: rs) = s.enqueued b p (r :: rs) := by
  induction rs generalizing s r with
  | nil => exact pushBeat_open_cons [] hopen (hkeeps r List.mem_cons_self)
  | cons r' rs ih =>
    rw [pushBeat_open_cons _ hopen (hkeeps r List.mem_cons_self),
      ih ((portOpen_enqueued ..).trans hopen) fun x hx => hkeeps x (List.mem_cons_of_mem r hx), enqueued_enqueued]
    rfl

/-! ### Pops (R185, R187) -/

/-- None of the records marks the block's end. -/
def unreturned (rs : List InRecord) (g : PortBlock) : Bool := !rs.any fun r => r.blockEnd && r.block == g.num

theorem filter_unreturned (r : InRecord) (rs : List InRecord) (bs : List PortBlock) :
    (bs.filter (unreturned [r])).filter (unreturned rs) = bs.filter (unreturned (r :: rs)) := by
  rw [List.filter_filter]
  refine List.filter_congr fun g _ => ?_
  simp only [unreturned, List.any_cons, List.any_nil, Bool.or_false, Bool.not_or, Bool.and_comm]

/-- The records rs have been popped from the head of a port's queue, which leaves the records rest. -/
def State.popped (s : State) (b p : Nat) (rs rest : List InRecord) : State :=
  { s with
    ports := tput s.ports (4 * b + p)
      { s.portAt b p with inQ := rest, blocks := (s.portAt b p).blocks.filter (unreturned rs) }
    out := s.out ++ rs.map (fun r => .toLogic b p r.src r.tag r.blockEnd r.bytes) }

theorem popped_portAt (s : State) (b p : Nat) (rs rest : List InRecord) : (s.popped b p rs rest).portAt b p =
    { s.portAt b p with inQ := rest, blocks := (s.portAt b p).blocks.filter (unreturned rs) } :=
  tget_tput_same ..

theorem popped_popped (s : State) (b p : Nat) (r : InRecord) (rs rest rest' : List InRecord) :
    (s.popped b p [r] rest').popped b p rs rest = s.popped b p (r :: rs) rest := by
  have hports := tput_tput_same s.ports (4 * b + p)
    { s.portAt b p with inQ := rest', blocks := (s.portAt b p).blocks.filter (unreturned [r]) }
    { s.portAt b p with inQ := rest, blocks := ((s.portAt b p).blocks.filter (unreturned [r])).filter (unreturned rs) }
  rw [filter_unreturned] at hports
  rw [State.popped, popped_portAt, filter_unreturned]
  exact congrArg₂ (fun ports out => { s with ports, out }) hports (List.append_assoc ..)

theorem popRecord_nil (h : (s.portAt b p).inQ = []) : s.popRecord b p = s := by
  rw [State.popRecord, h]

theorem popRecord_cons {r : InRecord} {rest : List InRecord} (h : (s.portAt b p).inQ = r :: rest) :
    s.popRecord b p = s.popped b p [r] rest := by
  have hblocks : (if r.blockEnd then (s.portAt b p).blocks.filter (fun g => g.num != r.block) else (s.portAt b p).blocks) =
      (s.portAt b p).blocks.filter (unreturned [r]) := by
    unfold unreturned
    cases hend : r.blockEnd
    · simp [hend]
    · simp [hend, bne, Bool.beq_comm]
  rw [State.popRecord, h]
  dsimp only
  rw [hblocks]
  rfl

/-- As many pops as there are records, or more where none is left. -/
theorem each_popRecord {r : InRecord} {rs rest : List InRecord} (hq : (s.portAt b p).inQ = r :: rs ++ rest) {xs : List Nat}
    (hlen : (r :: rs).length = xs.length ∨ (r :: rs).length < xs.length ∧ rest = []) :
    s.each xs (fun s _ => s.popRecord b p) = s.popped b p (r :: rs) rest := by
  induction rs generalizing s r xs with
  | nil =>
    cases xs with
    | nil => simp at hlen
    | cons x xs =>
      rw [each_cons, popRecord_cons hq]
      obtain hxs | ⟨-, hrest⟩ := hlen
      · rw [List.length_eq_zero_iff.1 (Nat.succ.inj hxs).symm, each_nil]
        rfl
      · exact each_eq_self xs fun _ => popRecord_nil ((congrArg TilePort.inQ (popped_portAt ..)).trans hrest)
  | cons r' rs ih =>
    cases xs with
    | nil => simp at hlen
    | cons x xs =>
      rw [each_cons, popRecord_cons hq]
      exact (ih (congrArg TilePort.inQ (popped_portAt ..)) (by simpa using hlen)).trans (popped_popped ..)

end

/-! ### The commands -/

section
variable {b : Bay} {p : Fin 4} {s : State}

theorem execTilePortPush_eq {rs : List PortPush} (hruns : s.logicRuns b p = true) (hq : (s.portAt b p).outQ = [])
    (hlen : rs.length = s.beat b p) (hne : rs ≠ []) (hroom : rs.length ≤ 128)
    (hform : ∀ r ∈ rs, r.bytes.length % 4 = 0 ∧ r.bytes.length ≤ 128 ∧ r.addr < 2 ^ 19 ∧ r.dst ≤ 15 ∧ r.channel ≤ 15) :
    execTilePortPush b p rs s = .next ((s.pushBeat b p rs).portFlush b p 132) := by
  have hany : (rs.any fun r => r.bytes.length % 4 != 0 || decide (128 < r.bytes.length) || decide (2 ^ 19 ≤ r.addr) ||
      decide (15 < r.dst) || decide (15 < r.channel)) = false := by
    refine List.any_eq_false.2 fun r hr => ?_
    obtain ⟨hwords, hbytes, haddr, hdst, hchannel⟩ := hform r hr
    simpa [hwords, Nat.not_lt.2 hbytes, Nat.not_lt.2 hdst, Nat.not_lt.2 hchannel] using haddr
  refine if_neg ?_
  rw [hany, hruns, hq, ← hlen]
  simp [hne, hroom]

theorem execTilePortGrant_counted (hruns : s.logicRuns b p = true) (hopen : s.portOpen b p = true)
    (hfull : 4 ≤ (s.portAt b p).credits + (s.portAt b p).blocks.length) :
    execTilePortGrant b p s = .next (s.flagged (dieOfBay b) Reg.LGA_PORT_DROP_COUNT 4 1) :=
  (if_neg (by simp [hruns])).trans ((if_neg (by simp [hopen])).trans (if_pos hfull))

theorem execTilePortGrant_adds (hruns : s.logicRuns b p = true) (hopen : s.portOpen b p = true)
    (hroom : ¬4 ≤ (s.portAt b p).credits + (s.portAt b p).blocks.length) : execTilePortGrant b p s =
      .next (s.setPort b p { s.portAt b p with credits := (s.portAt b p).credits + 1 }) :=
  (if_neg (by simp [hruns])).trans ((if_neg (by simp [hopen])).trans (if_neg hroom))

theorem execTilePortGrant_closed (hruns : s.logicRuns b p = true) (hclosed : s.portOpen b p = false) :
    execTilePortGrant b p s = .next s :=
  (if_neg (by simp [hruns])).trans (if_pos (by simp [hclosed]))

theorem execTilePortPop_eq {r : InRecord} {rs rest : List InRecord} (hruns : s.logicRuns b p = true)
    (hopen : s.portOpen b p = true) (hq : (s.portAt b p).inQ = r :: rs ++ rest)
    (hlen : (r :: rs).length = s.beat b p ∨ (r :: rs).length < s.beat b p ∧ rest = []) :
    execTilePortPop b p s = .next (s.popped b p (r :: rs) rest) :=
  (if_neg (by simp [hruns, hopen, hq])).trans (congrArg _ (each_popRecord hq (by rwa [List.length_range])))

end

/-- Settles O27: a push at a closed and at an open port, a grant, and a pop, each by the state it comes to. -/
theorem tilePortsComplete : Obligations.TilePortsComplete := by
  refine ⟨fun b p rs s hruns hclosed hq hlen hne hform hroom => ?_,
    fun b p r rs s s' hruns hopen hq hlen hform hroom hs' hheld => ?_, fun b p s hruns hopen => ?_,
    fun b p s => execTilePortGrant_closed, fun b p rs rest s hruns hopen hq hne hlen => ?_⟩
  · have honly := pushBeat_closed_onlyRegs rs hclosed
    have hexec := execTilePortPush_eq hruns hq hlen hne hroom hform
    rw [portFlush_closed ((honly.portOpen_eq b p).trans hclosed)] at hexec
    refine ⟨_, hexec, pushBeat_closed_count rs hclosed, ?_, honly.ports_eq, honly⟩
    rw [pushBeat_closed_flag rs hclosed]
    simp [hne]
  · have hexec := execTilePortPush_eq hruns hq hlen (List.cons_ne_nil r rs) hroom fun x hx => by
      obtain ⟨hwords, hbytes, haddr, hdst, hchannel, -⟩ := hform x hx
      exact ⟨hwords, hbytes, haddr, hdst, hchannel⟩
    have hpushed : s.pushBeat b p (r :: rs) = s' := by
      rw [pushBeat_open hopen fun x hx => (hform x hx).2.2.2.2.2, State.enqueued, hq, hs']
      rfl
    have hfirst : (s'.portAt b p).outQ = pushRecord r :: rs.map pushRecord := by
      rw [hs', portAt_setPort_same]
      rfl
    rwa [hpushed, portFlush_held hfirst hheld] at hexec
  · by_cases hfull : 4 ≤ (s.portAt b p).credits + (s.portAt b p).blocks.length
    · refine ⟨_, execTilePortGrant_counted hruns hopen hfull, ?_⟩
      dsimp only
      rw [if_pos hfull]
      exact ⟨rd_flagged _ _ _ (by decide), rbit_flagged _ _ _ (by decide), flagged_onlyRegs ..⟩
    · refine ⟨_, execTilePortGrant_adds hruns hopen hfull, ?_⟩
      dsimp only
      rw [if_neg hfull]
  · obtain ⟨r, rs, rfl⟩ := List.exists_cons_of_ne_nil hne
    have hport := popped_portAt s b p (r :: rs) rest
    exact ⟨_, execTilePortPop_eq hruns hopen hq hlen, rfl, congrArg TilePort.inQ hport, congrArg TilePort.blocks hport,
      rfl⟩

end Sys2Proof.Machine
end

section
/-! SUPPORT. An access to device memory leaves all but registers, memory and its controllers, and the tile network (R231, R245,
R252, R253, R258). -/

namespace Sys2Proof.Machine

/-- The state with all taken out of it that an access to device memory may change: registers, memory and what its controllers
hold, the packets of the tile network, and free values. -/
def State.besideMemory (s : State) : State :=
  { s with regs := [], mem := [], poison := [], openRows := [], hitRuns := [], bankQ := [], checks := [], noc := [],
           nextNoc := 0, free := 0 }

/-- Nothing else has changed. -/
def MemoryOnly (s t : State) : Prop := t.besideMemory = s.besideMemory

namespace MemoryOnly

variable {s₀ s t u : State}

theorem frame {regs mem poison openRows hitRuns bankQ checks noc nextNoc free} (h : MemoryOnly s₀ s) :
    MemoryOnly s₀ { s with regs, mem, poison, openRows, hitRuns, bankQ, checks, noc, nextNoc, free } := h

theorem of_networkOnly (h : MemoryOnly s₀ s) (k : NetworkOnly s t) : MemoryOnly s₀ t :=
  ((congrArg State.besideMemory k).trans rfl).trans h

theorem ite {p : Prop} [Decidable p] (ht : MemoryOnly s₀ t) (hu : MemoryOnly s₀ u) :
    MemoryOnly s₀ (if p then t else u) := by
  split <;> assumption

theorem ite_snd {α : Type} {p : Prop} [Decidable p] {x y : α × State} (hx : MemoryOnly s₀ x.2) (hy : MemoryOnly s₀ y.2) :
    MemoryOnly s₀ (if p then x else y).2 := by
  split <;> assumption

theorem each {α : Type} {f : State → α → State} {xs : List α} (h : MemoryOnly s₀ s)
    (hf : ∀ {s x}, MemoryOnly s₀ s → MemoryOnly s₀ (f s x)) : MemoryOnly s₀ (s.each xs f) :=
  each_induction (MemoryOnly s₀) (fun _ _ => hf) xs h

theorem wr {k v} (h : MemoryOnly s₀ s) : MemoryOnly s₀ (s.wr k v) := h.frame
theorem wrFld {k hi lo v} (h : MemoryOnly s₀ s) : MemoryOnly s₀ (s.wrFld k hi lo v) := h.wr
theorem bump {k n} (h : MemoryOnly s₀ s) : MemoryOnly s₀ (s.bump k n) := h.wr
theorem setFlag {k i} (h : MemoryOnly s₀ s) : MemoryOnly s₀ (s.setFlag k i) := h.wr
theorem wr64 {k v} (h : MemoryOnly s₀ s) : MemoryOnly s₀ (s.wr64 k v) := h.wr.wr
theorem bump64 {k n} (h : MemoryOnly s₀ s) : MemoryOnly s₀ (s.bump64 k n) := h.wr64
theorem wrMax {k v} (h : MemoryOnly s₀ s) : MemoryOnly s₀ (s.wrMax k v) := .ite h.wr h

theorem meetUE {A} (h : MemoryOnly s₀ s) : MemoryOnly s₀ (s.meetUE A) := by
  have hmark : MemoryOnly s₀ (s.mark A) := h.frame
  unfold State.meetUE State.memUE
  split
  exacts [.ite hmark.bump.setFlag.wr64.wr hmark.bump.setFlag,
    .ite hmark.bump.setFlag.setFlag.wr64 hmark.bump.setFlag.setFlag, hmark]

theorem memCE {A} (h : MemoryOnly s₀ s) : MemoryOnly s₀ (s.memCE A) := by
  unfold State.memCE
  split
  exacts [h.bump.setFlag, h.bump.setFlag.setFlag, h]

theorem memFlag {A i} (h : MemoryOnly s₀ s) : MemoryOnly s₀ (s.memFlag A i) := by
  unfold State.memFlag
  split
  exacts [h.setFlag, h.setFlag.setFlag, h]

theorem meetErrors {us es} (h : MemoryOnly s₀ s) : MemoryOnly s₀ (s.meetErrors us es) := .each (h.each .meetUE) .memCE

theorem touchRow {c a} (h : MemoryOnly s₀ s) : MemoryOnly s₀ (s.touchRow c a) := by
  have hdrawn : MemoryOnly s₀ { s with free := s.free + 1 } := h.frame
  have hwake : MemoryOnly s₀ (s.wakeRank c (a / 2 ^ 33 % 2) 0) := .wrFld (.ite hdrawn.bump64 h)
  exact .bump64 hwake.frame

theorem useCheck {c d write m} (h : MemoryOnly s₀ s) : MemoryOnly s₀ (s.useCheck c d write m) := by
  have hmiss {k} : MemoryOnly s₀ ((s.bump (drcCh c Reg.DRC_CHK_MISS) 1).touchRow c k) := h.bump.touchRow
  unfold State.useCheck
  dsimp only
  split
  · exact h.frame
  · exact .ite hmiss.frame (.frame (.ite hmiss.touchRow hmiss))

theorem touch {A write m} (h : MemoryOnly s₀ s) : MemoryOnly s₀ (s.touch A write m) := by
  unfold State.touch
  split
  exacts [h.touchRow.useCheck.bump.wrMax, h]

theorem moved {A n write} (h : MemoryOnly s₀ s) : MemoryOnly s₀ (s.moved A n write) := by
  unfold State.moved
  split
  exacts [h.bump64, h.bump64, h]

theorem writeBytes {a bs} (h : MemoryOnly s₀ s) : MemoryOnly s₀ (s.writeBytes a bs) := h.frame

theorem storeWhole {A bs} (h : MemoryOnly s₀ s) : MemoryOnly s₀ (s.storeWhole A bs) := .writeBytes (.moved h.frame)

theorem noMemory {home A} (h : MemoryOnly s₀ s) : ∀ r ∈ s.noMemory home A, MemoryOnly s₀ r.2 := fun r hr =>
  h.of_networkOnly (.noMemory s home A r hr)

theorem memRead {home A n m} (h : MemoryOnly s₀ s) : MemoryOnly s₀ (s.memRead home A n m).2 := by
  unfold State.memRead
  split
  · next hu => exact h.noMemory _ hu
  · dsimp only
    split
    exacts [h.touch.meetErrors, h.touch.meetErrors.moved]

theorem memWrite {home A bs m} (h : MemoryOnly s₀ s) : MemoryOnly s₀ (s.memWrite home A bs m).2 := by
  unfold State.memWrite
  split
  · next hu => exact h.noMemory _ hu
  · dsimp only
    split
    exacts [h.touch.meetErrors.memFlag, h.touch.meetErrors.storeWhole]

theorem memUpdate {home A n f m} (h : MemoryOnly s₀ s) : MemoryOnly s₀ (s.memUpdate home A n f m).2 := by
  unfold State.memUpdate
  split
  · next hu => exact h.noMemory _ hu
  · dsimp only
    split
    exacts [h.touch.meetErrors.memFlag, h.touch.meetErrors.moved.writeBytes]

theorem serveQueued {x m} (h : MemoryOnly s₀ s) : MemoryOnly s₀ (s.serveQueued x m) := by
  unfold State.serveQueued
  refine .ite h.storeWhole.touch ?_
  split
  · exact h
  · refine .frame (s := Prod.snd _) ?_
    split
    exacts [h.memRead, h.memWrite, h.memUpdate]

theorem queueFirst {A} (h : MemoryOnly s₀ s) : MemoryOnly s₀ (s.queueFirst A) := by
  unfold State.queueFirst
  split
  exacts [h, h.each fun h => h.frame.serveQueued]

theorem decoderAnswer {home A} (h : MemoryOnly s₀ s) : ∀ r ∈ s.decoderAnswer home A, MemoryOnly s₀ r.2 := by
  intro r hr
  unfold State.decoderAnswer at hr
  split at hr
  · cases hr
  · exact h.noMemory r hr

theorem countResponse {q cls status bytes lat} (h : MemoryOnly s₀ s) :
    MemoryOnly s₀ (s.countResponse q cls status bytes lat) := by
  unfold State.countResponse
  split
  · exact h
  · have hcount {k : Nat} : MemoryOnly s₀
        ((if status = 0 then (s.bump64 (k + 0x10) bytes).bump (k + 0x20 + 4 * latBin lat) 1 else
          ((s.bump64 (k + 0x10) bytes).bump (k + 0x20 + 4 * latBin lat) 1).bump (k + 0x18) 1).wrMax (k + 0x1C)
          (min lat (2 ^ 32 - 1))) := .wrMax (.ite h.bump64.bump h.bump64.bump.bump)
    dsimp only
    split
    exacts [.ite hcount.bump hcount, hcount]

theorem roundTrip {g A n write m} (h : MemoryOnly s₀ s) : MemoryOnly s₀ (s.roundTrip g A n write m).2 := by
  have hi {set q} : MemoryOnly s₀ (s.nocIssue set q .bare none).2 := h.of_networkOnly (.nocIssue ..)
  unfold State.roundTrip
  split
  · next hu => exact h.decoderAnswer _ hu
  · dsimp only
    refine .countResponse (.frame ?_)
    split
    · exact hi
    · refine .ite_snd ?_ ?_ <;> dsimp only <;> split
      exacts [hi.bump, hi, hi.queueFirst.memWrite, hi.queueFirst.memRead]

theorem readLines {g k A n m} (h : MemoryOnly s₀ s) : MemoryOnly s₀ (s.readLines g k A n m).2 := by
  induction k generalizing s A n m with
  | zero => exact h
  | succ k ih => exact .ite_snd h (.ite_snd h.roundTrip (ih h.roundTrip))

theorem readLong {g A n m} (h : MemoryOnly s₀ s) : MemoryOnly s₀ (s.readLong g A n m).2 := h.readLines

/-- What does not depend on any of these is as it was. -/
theorem keeps {β : Type} (h : MemoryOnly s t) (f : State → β) (hf : ∀ u : State, f u.besideMemory = f u) : f t = f s :=
  (hf t).symm.trans ((congrArg f h).trans (hf s))

end MemoryOnly

theorem cfgAt_congr {s t : State} (h : t.cfgs = s.cfgs) (d : Nat) : t.cfgAt d = s.cfgAt d :=
  congrArg (fun x => tget (fun _ => DieCfg.init) x d) h

/-- A read of a stream leaves the controllers of all dies as they are. -/
theorem readLong_cfgs {s u : State} {g : Agent} {A n : Nat} {m : MemFind} {r : MemAns} (h : s.readLong g A n m = (r, u)) :
    u.cfgs = s.cfgs := by
  have hread : MemoryOnly s (s.readLong g A n m).2 := .readLong rfl
  rw [h] at hread
  exact hread.keeps State.cfgs fun _ => rfl

end Sys2Proof.Machine
end

section
/-! SUPPORT. A header: its refusals and its acceptance, and what a die that takes a load leaves of the others (R202, R205, R206,
R208, R216, R220). -/

namespace Sys2Proof.Machine

/-! ### Tables of loads and frames -/

theorem find?_tput_same {α : Type} (t : Table α) (k : Nat) (v : α) :
    (tput t k v).find? (fun e => e.1 == k) = some (k, v) := by
  fun_induction tput t k v <;> grind

theorem find?_tput_ne {α : Type} (t : Table α) {k k' : Nat} (v : α) (h : k' ≠ k) :
    (tput t k v).find? (fun e => e.1 == k') = t.find? (fun e => e.1 == k') := by
  fun_induction tput t k v <;> grind

theorem setLoad_regs (s : State) (l : Nat) (v : CfgLoad) : (s.setLoad l v).regs = s.regs := rfl
theorem setLoad_cfgs (s : State) (l : Nat) (v : CfgLoad) : (s.setLoad l v).cfgs = s.cfgs := rfl
theorem setLoad_mem (s : State) (l : Nat) (v : CfgLoad) : (s.setLoad l v).mem = s.mem := rfl

theorem loadAt_setLoad_same (s : State) (l : Nat) (v : CfgLoad) : (s.setLoad l v).loadAt l = some v :=
  congrArg (Option.map Prod.snd) (find?_tput_same s.loads l v)

/-! ### Places of registers -/

theorem cfgReg_ne {d e o o' : Nat} (h : o ≠ o') (ho : o < 0x100000) (ho' : o' < 0x100000) : cfgReg d o ≠ cfgReg e o' := by
  simp only [cfgReg, regKey, blockBase, Fin.val_ofNat]
  omega

theorem lgaReg_ne_cfgReg {d e o o' : Nat} (ho : o < 0x10000) (ho' : o' < 0x10000) : lgaReg d o ≠ cfgReg e o' := by
  simp only [lgaReg, cfgReg, regKey, blockBase, Fin.val_ofNat]
  omega

theorem regionState_beside_frames {w : Nat} (hw : w < 8) :
    Reg.CFG_FRAMES ≠ Reg.CFG_REGION_STATE + 4 * w ∧ Reg.CFG_REGION_STATE + 4 * w < 0x100000 := by
  unfold Reg.CFG_FRAMES Reg.CFG_REGION_STATE
  omega

theorem regionOwner_beside_frames {w : Nat} (hw : w < 16) :
    Reg.CFG_FRAMES ≠ Reg.CFG_REGION_OWNER + 4 * w ∧ Reg.CFG_REGION_OWNER + 4 * w < 0x100000 := by
  unfold Reg.CFG_FRAMES Reg.CFG_REGION_OWNER
  omega

/-! ### What taking a load leaves -/

/-- The frames counted on die e, what the controllers of all dies hold, and memory have not changed. -/
structure FramesKept (e : Nat) (s t : State) : Prop where
  counted : t.rd (cfgReg e Reg.CFG_FRAMES) = s.rd (cfgReg e Reg.CFG_FRAMES)
  cfgs : t.cfgs = s.cfgs
  mem : t.mem = s.mem

namespace FramesKept

variable {e : Nat} {s₀ s t u : State}

theorem refl (s : State) : FramesKept e s s := ⟨rfl, rfl, rfl⟩

theorem trans (h : FramesKept e s t) (k : FramesKept e t u) : FramesKept e s u :=
  ⟨k.counted.trans h.counted, k.cfgs.trans h.cfgs, k.mem.trans h.mem⟩

/-- A change elsewhere. -/
theorem frame (h : FramesKept e s₀ s) (hr : t.regs = s.regs := by rfl) (hc : t.cfgs = s.cfgs := by rfl)
    (hm : t.mem = s.mem := by rfl) : FramesKept e s₀ t :=
  h.trans ⟨rd_congr hr _, hc, hm⟩

theorem wr {k v} (h : FramesKept e s₀ s) (hk : cfgReg e Reg.CFG_FRAMES ≠ k) : FramesKept e s₀ (s.wr k v) :=
  h.trans ⟨rd_wr_ne s v hk, rfl, rfl⟩

theorem ite {p : Prop} [Decidable p] (ht : FramesKept e s₀ t) (hu : FramesKept e s₀ u) :
    FramesKept e s₀ (if p then t else u) := by
  split <;> assumption

theorem each {α : Type} {f : State → α → State} {xs : List α} (h : FramesKept e s₀ s)
    (hf : ∀ x ∈ xs, ∀ {s}, FramesKept e s₀ s → FramesKept e s₀ (f s x)) : FramesKept e s₀ (s.each xs f) := by
  induction xs generalizing s with
  | nil => exact h
  | cons x xs ih =>
    exact ih (hf x List.mem_cons_self h) fun y hy => hf y (List.mem_cons_of_mem x hy)

theorem wrCfg {d o v} (h : FramesKept e s₀ s) (ho : Reg.CFG_FRAMES ≠ o ∧ o < 0x100000) :
    FramesKept e s₀ (s.wr (cfgReg d o) v) := h.wr (cfgReg_ne ho.1 (by decide) ho.2)

theorem wrLga {d o v} (h : FramesKept e s₀ s) (ho : o < 0x10000) : FramesKept e s₀ (s.wr (lgaReg d o) v) :=
  h.wr (lgaReg_ne_cfgReg ho (by decide)).symm

theorem settleLogic {d} (h : FramesKept e s₀ s) : FramesKept e s₀ (s.settleLogic d) :=
  h.frame (settleLogic_regs s d)
    (settleLogic_keeps State.cfgs (fun _ _ _ => rfl) (fun _ _ _ => rfl) (fun _ _ => rfl) s d)
    (settleLogic_keeps State.mem (fun _ _ _ => rfl) (fun _ _ _ => rfl) (fun _ _ => rfl) s d)

theorem around {d} {f : State → State} (h : FramesKept e s₀ s) (hf : ∀ {s}, FramesKept e s₀ s → FramesKept e s₀ (f s)) :
    FramesKept e s₀ (s.around d f) := (hf h.settleLogic).settleLogic

theorem setRegionState {d r v} (h : FramesKept e s₀ s) (hr : r < 64) : FramesKept e s₀ (s.setRegionState d r v) :=
  h.wrCfg (regionState_beside_frames (by omega))

theorem wrFldCfg {d o hi lo v} (h : FramesKept e s₀ s) (ho : Reg.CFG_FRAMES ≠ o ∧ o < 0x100000) :
    FramesKept e s₀ (s.wrFld (cfgReg d o) hi lo v) := h.wrCfg ho

theorem wrFldLga {d o hi lo v} (h : FramesKept e s₀ s) (ho : o < 0x10000) :
    FramesKept e s₀ (s.wrFld (lgaReg d o) hi lo v) := h.wrLga ho

theorem setFlagLga {d o i} (h : FramesKept e s₀ s) (ho : o < 0x10000) :
    FramesKept e s₀ (s.setFlag (lgaReg d o) i) := h.wrLga ho

theorem setBank {d level} (h : FramesKept e s₀ s) : FramesKept e s₀ (s.setBank d level) := by
  refine h.each fun e _ s h => ?_
  have hlevel {n : Nat} : FramesKept _ s₀ ((s.wrFld (lgaReg e Reg.LGA_IO_BANK) 3 2 level).wrFld
    (lgaReg e Reg.LGA_IO_BANK) 0 0 n) := (h.wrFldLga (by decide)).wrFldLga (by decide)
  exact .ite (hlevel.setFlagLga (by decide)) hlevel

theorem holdFlops {d tiles} (h : FramesKept e s₀ s) : FramesKept e s₀ (s.holdFlops d tiles) := h.frame

theorem clearClocks {d} (h : FramesKept e s₀ s) : FramesKept e s₀ (s.clearClocks d) := h.frame

theorem stopLogic {d} (h : FramesKept e s₀ s) : FramesKept e s₀ (s.stopLogic d) := by
  have hbank {c : Prop} [Decidable c] {s n hi lo} (h : FramesKept e s₀ s) :
      FramesKept e s₀ (if c then s.wrFld (lgaReg d Reg.LGA_IO_BANK) hi lo n else s) := .ite (h.wrFldLga (by decide)) h
  have hstopped : FramesKept e s₀ (((s.wrFld (lgaReg d Reg.LGA_STATUS) 8 0 0).holdFlops d fun _ => true).clearClocks d) :=
    (h.wrFldLga (by decide)).holdFlops.clearClocks
  unfold State.stopLogic
  exact .ite (hbank (hbank hstopped.frame)).setBank (hbank (hbank hstopped.frame))

theorem unconfigure {d} (h : FramesKept e s₀ s) : FramesKept e s₀ (s.unconfigure d) := by
  unfold State.unconfigure
  refine .stopLogic ((h.settleLogic.wrFldCfg (by decide)).each fun w hw _ h => h.wrCfg ?_)
  exact regionState_beside_frames (List.mem_range.1 hw)

end FramesKept

/-! ### Dies that take a load (R208, R216) -/

/-- Load l on a die that has just taken it, under K(0) and the hash of the header. -/
def DieLoad.begun (l : Nat) (key hdr : List Byte) : DieLoad :=
  { load := l, stage := .clear, seg := 0, pos := 260, segCmd := [], segLen := 0, key := key, chain := sha512 hdr, tag := []
    text := [], faddr := none, queue := [], written := [], regw := [] }

/-- The logic that load v is for has stopped, and CFG_STATUS shows the load. -/
def State.halted (s : State) (v : CfgLoad) (d : Nat) : State :=
  (if v.isPartial then
    s.around d (fun s => (s.setRegionState d v.region 2).holdFlops d ((s.cfgAt d).loadTiles true v.region))
  else ((s.unconfigure d).wrFld (cfgReg d Reg.CFG_STATUS) 27 24 1).each (List.range 16) fun s w =>
    s.wr (cfgReg d (Reg.CFG_REGION_OWNER + 4 * w)) 0x80808080).wrFld (cfgReg d Reg.CFG_STATUS) 23 15
    (2 ^ 8 + (if 1 < v.dies.length then 2 ^ 7 else 0) + (if v.isPartial then 2 ^ 6 + v.region else 0))

/-- Die d holds the load, of which it has written no frame. -/
def State.HasBegun (s : State) (x : DieLoad) (d : Nat) : Prop :=
  (s.cfgAt d).load = some x ∧ s.rd (cfgReg d Reg.CFG_FRAMES) = 0

theorem State.HasBegun.congr {s t : State} {x : DieLoad} {d : Nat} (h : s.HasBegun x d) (hc : t.cfgs = s.cfgs)
    (hr : t.regs = s.regs) : t.HasBegun x d := by
  obtain ⟨hload, hframes⟩ := h
  refine ⟨?_, ?_⟩
  · rw [cfgAt_congr hc, hload]
  · rw [rd_congr hr, hframes]

section
variable {v : CfgLoad} (s : State) (l : Nat) (key hdr : List Byte) (d : Nat)

theorem takeLoad_eq : s.takeLoad l v key hdr d = ((s.halted v d).wr (cfgReg d Reg.CFG_FRAMES) 0).setCfg d
    { ((s.halted v d).wr (cfgReg d Reg.CFG_FRAMES) 0).cfgAt d with load := some (.begun l key hdr) } := rfl

theorem halted_kept (hregion : v.region < 64) (e : Nat) : FramesKept e s (s.halted v d) := by
  unfold State.halted
  refine .wrFldCfg (.ite ((FramesKept.refl s).around fun h => (h.setRegionState hregion).holdFlops) ?_) (by decide)
  refine ((FramesKept.refl s).unconfigure.wrFldCfg (by decide)).each fun w hw _ h => h.wrCfg ?_
  exact regionOwner_beside_frames (List.mem_range.1 hw)

theorem takeLoad_hasBegun : (s.takeLoad l v key hdr d).HasBegun (.begun l key hdr) d := by
  rw [takeLoad_eq]
  refine ⟨?_, ?_⟩
  · rw [cfgAt_setCfg_same]
  · rw [rd_congr (setCfg_regs ..), rd_wr_same]

/-- A die that has taken the load still has it when another takes it. -/
theorem takeLoad_keeps_hasBegun (hregion : v.region < 64) {e : Nat} (h : s.HasBegun (.begun l key hdr) e) :
    (s.takeLoad l v key hdr d).HasBegun (.begun l key hdr) e := by
  by_cases hed : e = d
  · subst hed
    exact takeLoad_hasBegun s l key hdr e
  · have hkept := halted_kept s d hregion e
    obtain ⟨hload, hframes⟩ := h
    rw [takeLoad_eq]
    refine ⟨?_, ?_⟩
    · rw [cfgAt_setCfg_ne _ _ hed, cfgAt_congr (wr_cfgs ..), cfgAt_congr hkept.cfgs, hload]
    · rw [rd_congr (setCfg_regs ..), rd_wr, hkept.counted, hframes, ite_self]

theorem takeLoad_mem (hregion : v.region < 64) : (s.takeLoad l v key hdr d).mem = s.mem := by
  rw [takeLoad_eq, setCfg_mem, wr_mem, (halted_kept s d hregion d).mem]

/-- Every die of a list takes the load, and memory stays. -/
theorem each_takeLoad (hregion : v.region < 64) (ds : List Nat) : let t := s.each ds fun s d => s.takeLoad l v key hdr d
    (∀ d ∈ ds, t.HasBegun (.begun l key hdr) d) ∧ t.mem = s.mem :=
  ⟨fun e he => each_establishes (P := fun t => t.HasBegun (.begun l key hdr) e) (f := fun s d => s.takeLoad l v key hdr d)
      (fun s => takeLoad_hasBegun s l key hdr e) (fun s d h => takeLoad_keeps_hasBegun s l key hdr d hregion h) s he,
    each_keeps s State.mem (fun s d => s.takeLoad l v key hdr d) (fun s d => takeLoad_mem s l key hdr d hregion) ds⟩

end

/-! ### The header (R205, R206) -/

/-- The header of a new request has been read: r is what was read, u the state then. -/
structure HeaderRead (s : State) (l : Nat) (v : CfgLoad) (m : MemFind) (r : MemAns) (u : State) : Prop where
  load : s.loadAt l = some v
  fresh : v.accepted = false
  long : 260 ≤ v.bytes
  read : s.readLong ryhalAgent v.addr 260 m = (r, u)
  good : r.status = 0

/-- The load as its header h describes it. -/
def CfgLoad.described (v : CfgLoad) (h : List Byte) : CfgLoad :=
  { v with
    accepted := true, dies := hdrDies h, isPartial := bitsOf (hdrW h 4) 22 21 == 1, region := bitsOf (hdrW h 4) 20 15
    segments := bitsOf (hdrW h 0xC) 12 0, imageId := (h.drop 0x10).take 8, slot := bitsOf (hdrW h 0x1C) 31 24
    rbIndex := bitsOf (hdrW h 0x1C) 23 16, rbVersion := hdrW h 0x20 }

section
variable {s u w : State} {l : Nat} {v : CfgLoad} {m : MemFind} {r : MemAns} {h key : List Byte}

/-- No die that the header names is under load. -/
def State.diesFree (s : State) (h : List Byte) : Prop := ∀ d ∈ hdrDies h, (s.cfgAt d).load = none

theorem any_busy_eq_false (hfree : u.diesFree h) : ((hdrDies h).any fun d => (u.cfgAt d).load.isSome) = false :=
  List.any_eq_false.2 fun d hd => by simp [hfree d hd]

theorem any_busy_eq_true (hbusy : ¬ u.diesFree h) : ((hdrDies h).any fun d => (u.cfgAt d).load.isSome) = true := by
  obtain ⟨d, hd, hload⟩ := not_forall₂.1 hbusy
  exact List.any_eq_true.2 ⟨d, hd, Option.isSome_iff_ne_none.2 hload⟩

theorem execHeader_malformed (hread : HeaderRead s l v m r u)
    (hform : u.headerForm v (imgN r.data 0 4) (r.data.drop 4) = false) :
    execHeader l m s = .next (u.refuseLoad l v 0x50 (hdrDies (r.data.drop 4))) := by
  obtain ⟨hl, hnew, hlong, hr, hgood⟩ := hread
  simp [execHeader, hl, hnew, Nat.not_lt.2 hlong, hr, hgood, hform]

theorem execHeader_unfit (hread : HeaderRead s l v m r u)
    (hform : u.headerForm v (imgN r.data 0 4) (r.data.drop 4) = true) (hfits : u.headerFits v (r.data.drop 4) = false)
    (hfirst : u.diesFree (r.data.drop 4) ∨ bitsOf (hdrW (r.data.drop 4) 4) 22 21 = 0) :
    execHeader l m s = .next (u.refuseLoad l v 0x50 (hdrDies (r.data.drop 4))) := by
  obtain ⟨hl, hnew, hlong, hr, hgood⟩ := hread
  rcases hfirst with hfree | hstatic
  · simp [execHeader, hl, hnew, Nat.not_lt.2 hlong, hr, hgood, hform, hfits, any_busy_eq_false hfree]
  · simp [execHeader, hl, hnew, Nat.not_lt.2 hlong, hr, hgood, hform, hfits, hstatic]

theorem execHeader_busy (hread : HeaderRead s l v m r u)
    (hform : u.headerForm v (imgN r.data 0 4) (r.data.drop 4) = true) (hbusy : ¬ u.diesFree (r.data.drop 4))
    (hfirst : u.headerFits v (r.data.drop 4) = true ∨ bitsOf (hdrW (r.data.drop 4) 4) 22 21 = 1) :
    execHeader l m s = .next (u.refuseLoad l v 0x88 (hdrDies (r.data.drop 4))) := by
  obtain ⟨hl, hnew, hlong, hr, hgood⟩ := hread
  rcases hfirst with hfits | hpartial
  · simp [execHeader, hl, hnew, Nat.not_lt.2 hlong, hr, hgood, hform, hfits, any_busy_eq_true hbusy]
  · simp [execHeader, hl, hnew, Nat.not_lt.2 hlong, hr, hgood, hform, hpartial, any_busy_eq_true hbusy]

/-- Rules that allow a stream change nothing. -/
theorem streamRules_admits {slot idx ver : Nat} {wrapped : List Byte}
    (hrules : u.streamRules slot idx ver wrapped = (0, key, w)) : w = u := by
  unfold State.streamRules at hrules
  grind

theorem execHeader_accepted (hread : HeaderRead s l v m r u) (hh : r.data.drop 4 = h)
    (hform : u.headerForm v (imgN r.data 0 4) h = true) (hfits : u.headerFits v h = true) (hfree : u.diesFree h)
    (hrules : u.streamRules (bitsOf (hdrW h 0x1C) 31 24) (bitsOf (hdrW h 0x1C) 23 16) (hdrW h 0x20)
      ((h.drop 0x28).take 40) = (0, key, w)) :
    execHeader l m s =
      .next ((u.each (hdrDies h) fun s d => s.takeLoad l (v.described h) key h d).setLoad l (v.described h)) := by
  obtain ⟨hl, hnew, hlong, hr, hgood⟩ := hread
  simp [execHeader, hl, hnew, Nat.not_lt.2 hlong, hr, hgood, hh, hform, hfits, any_busy_eq_false hfree, hrules,
    CfgLoad.described]

/-- What an accepted load comes to: the request is described, its dies have all begun, and memory is as it was. -/
theorem header_accepted (hread : HeaderRead s l v m r u) (hh : r.data.drop 4 = h)
    (hform : u.headerForm v (imgN r.data 0 4) h = true) (hfits : u.headerFits v h = true) (hfree : u.diesFree h)
    (hrules : u.streamRules (bitsOf (hdrW h 0x1C) 31 24) (bitsOf (hdrW h 0x1C) 23 16) (hdrW h 0x20)
      ((h.drop 0x28).take 40) = (0, key, w)) : Completes (execHeader l m s) fun t =>
    t.loadAt l = some (v.described h) ∧ (∀ d ∈ hdrDies h, t.HasBegun (.begun l key h) d) ∧ t.mem = w.mem := by
  have hregion : (v.described h).region < 64 := bitsOf_lt (hdrW h 4) 20 15
  obtain ⟨hbegun, hmem⟩ := each_takeLoad u l key h hregion (hdrDies h)
  refine ⟨_, execHeader_accepted hread hh hform hfits hfree hrules, loadAt_setLoad_same .., fun d hd => ?_, ?_⟩
  · exact (hbegun d hd).congr (setLoad_cfgs ..) (setLoad_regs ..)
  · rw [setLoad_mem, hmem, streamRules_admits hrules]

end

end Sys2Proof.Machine
end

section
/-! SUPPORT. The commands of a stream one by one, from the opening of a segment to its end, and the commit of a frame
(R203, R204, R207 to R211, R219, R221). -/

namespace Sys2Proof.Machine

variable {s u : State} {d : Die} {x : DieLoad} {v : CfgLoad} {m : MemFind} {r : MemAns}

theorem dieLoad_eq_some {st : LoadStage} (h : s.dieLoad d st = some (x, v)) :
    (s.cfgAt d).load = some x ∧ s.loadAt x.load = some v := by
  unfold State.dieLoad at h
  split at h
  · cases h
  · next y hy =>
    split at h
    · obtain ⟨w, hw, hpair⟩ := Option.map_eq_some_iff.1 h
      cases hpair
      exact ⟨hy, hw⟩
    · cases h

/-- A failure found in the stream ends the load at once where no frame waits to be committed. -/
theorem failAfter_eq (hload : (s.cfgAt d).load = some x) (hqueue : x.queue = []) (flag status faddr : Nat) :
    s.failAfter d flag status faddr = s.failLoad d flag status faddr := by
  simp [State.failAfter, hload, hqueue]

/-! ### Segments (R204, R207) -/

theorem execSeg_seals (hx : s.dieLoad d .clear = some (x, v)) (hseg : x.seg < v.segments) (hroom : x.pos + 8 ≤ v.bytes)
    (hread : s.readLong (s.cfgAgent d) (v.addr + x.pos) 8 m = (r, u)) (hgood : r.status = 0)
    (hop : imgN r.data 0 4 = 0x50000000 + x.seg) (halign : imgN r.data 4 4 % 4 = 0) (hmin : 8 ≤ imgN r.data 4 4)
    (hmax : imgN r.data 4 4 ≤ 1048576) : execSeg d m s =
      .next (u.setDieLoad d { x with stage := .sealed, segCmd := r.data, segLen := imgN r.data 4 4 }) := by
  simp [execSeg, hx, Nat.not_le.2 hseg, Nat.not_lt.2 hroom, hread, hgood, hop, halign, Nat.not_lt.2 hmin, Nat.not_lt.2 hmax]

theorem exec_segmentAuthenticated (d : Die) (m : MemFind) (s : State) :
    exec (.segmentAuthenticated d m) s = execSegmentAuthenticated d m s := rfl

theorem execSegmentAuthenticated_unauthentic (hx : s.dieLoad d .sealed = some (x, v))
    (hroom : x.pos + 24 + x.segLen ≤ v.bytes)
    (hread : s.readLong (s.cfgAgent d) (v.addr + x.pos + 8) (x.segLen + 16) m = (r, u)) (hgood : r.status = 0)
    (hopen : gcmOpen x.key (v.imageId ++ natBytes 4 x.seg) (x.chain ++ x.segCmd) (r.data.take x.segLen)
      (r.data.drop x.segLen) = none) (hqueue : x.queue = []) :
    execSegmentAuthenticated d m s = .next (u.failLoad d 4 0x71 0) := by
  have hload : (u.cfgAt d).load = some x := by rw [cfgAt_congr (readLong_cfgs hread), (dieLoad_eq_some hx).1]
  rw [← failAfter_eq hload hqueue]
  simp [execSegmentAuthenticated, hx, Nat.not_lt.2 hroom, hread, hgood, hopen]

theorem execSegmentAuthenticated_opens {text : List Byte} (hx : s.dieLoad d .sealed = some (x, v))
    (hroom : x.pos + 24 + x.segLen ≤ v.bytes)
    (hread : s.readLong (s.cfgAgent d) (v.addr + x.pos + 8) (x.segLen + 16) m = (r, u)) (hgood : r.status = 0)
    (hopen : gcmOpen x.key (v.imageId ++ natBytes 4 x.seg) (x.chain ++ x.segCmd) (r.data.take x.segLen)
      (r.data.drop x.segLen) = some text)
    (hlast : imgN text (text.length - 4) 4 = if x.seg + 1 = v.segments then 0x70000000 else 0x60000000) :
    execSegmentAuthenticated d m s = .next (u.setDieLoad d { x with
      stage := .text, text := text, tag := r.data.drop x.segLen, pos := x.pos + 24 + x.segLen }) := by
  simp [execSegmentAuthenticated, hx, Nat.not_lt.2 hroom, hread, hgood, hopen, hlast]

/-! ### Commands in the plaintext (R204, R210, R211) -/

/-- The next command of the plaintext is the one named and lies whole in it. -/
theorem runText_eq {op w : Nat} {words : Nat → Nat} (act : DieLoad → CfgLoad → Nat → State → State)
    (hx : s.dieLoad d .text = some (x, v)) (hw : imgN x.text 0 4 = w) (hop : w / 2 ^ 24 = op)
    (hknown : op ∈ [0x00, 0x20, 0x30, 0x40, 0x60, 0x70]) (hroom : 4 * words w ≤ x.text.length) :
    runText op d words act s = .next (act { x with text := x.text.drop (4 * words w) } v w s) := by
  simp only [runText, hx, hw, hop, List.contains_eq_mem, hknown, decide_true, Bool.not_true, Bool.false_eq_true, if_false,
    ne_eq, not_true_eq_false, Nat.not_lt.2 hroom]

theorem execCfgNop_eq (hx : s.dieLoad d .text = some (x, v)) (hw : imgN x.text 0 4 = 0) (hroom : 4 ≤ x.text.length) :
    execCfgNop d s = .next (s.setDieLoad d { x with text := x.text.drop 4 }) :=
  runText_eq _ hx hw (by decide) (by decide) hroom

theorem execRegw_eq {n : Nat} {ps : List (Nat × Nat)} (hx : s.dieLoad d .text = some (x, v)) (hpos : 0 < n) (hn : n < 256)
    (hw : imgN x.text 0 4 = 0x20000000 + n) (hroom : 4 + 8 * n ≤ x.text.length)
    (hps : ps = (List.range n).map fun i => (argWord x (1 + 2 * i), argWord x (2 + 2 * i)))
    (hok : ∀ p ∈ ps, regwOk v p = true) :
    execRegw d s = .next (s.setDieLoad d { x with text := x.text.drop (4 * (1 + 2 * n)), regw := x.regw ++ ps }) := by
  have hcount : (0x20000000 + n) % 256 = n := by omega
  have hfree : (0x20000000 + n) % 2 ^ 24 / 256 = 0 := by omega
  simp only [execRegw, hx]
  rw [runText_eq _ hx hw (by omega) (by decide) (by omega)]
  simp only [hcount, hfree, ← hps, List.all_eq_true.2 hok]
  simp [Nat.ne_of_gt hpos]

theorem execFaddr_allowed (hx : s.dieLoad d .text = some (x, v)) (hw : imgN x.text 0 4 = 0x30000000)
    (hroom : 8 ≤ x.text.length) (hallowed : s.frameAllowed d v (argWord x 1) = true) :
    execFaddr d s = .next (s.setDieLoad d { x with text := x.text.drop 8, faddr := some (argWord x 1) }) := by
  simp only [execFaddr, hx]
  rw [runText_eq _ hx hw (by decide) (by decide) hroom]
  simp [hallowed]

theorem execFaddr_refused (hx : s.dieLoad d .text = some (x, v)) (hw : imgN x.text 0 4 = 0x30000000)
    (hroom : 8 ≤ x.text.length) (hallowed : s.frameAllowed d v (argWord x 1) = false) (hqueue : x.queue = []) :
    execFaddr d s = .next (s.failLoad d 2 0x53 (argWord x 1)) := by
  simp only [execFaddr, hx]
  rw [runText_eq _ hx hw (by decide) (by decide) hroom]
  simp [hallowed, failAfter_eq (dieLoad_eq_some hx).1 hqueue]

theorem execFdata_eq {n a : Nat} (hx : s.dieLoad d .text = some (x, v)) (hpos : 0 < n) (hn : n ≤ 104)
    (hw : imgN x.text 0 4 = 0x40000000 + n) (hroom : 4 + 400 * n ≤ x.text.length) (ha : x.faddr = some a)
    (hminor : faMinor a + n ≤ minorCount (faCol a)) : execFdata d s = .next (s.setDieLoad d { x with
      text := x.text.drop (4 * (1 + 100 * n)), queue := x.queue ++ (List.range n).map (fun i =>
        (a + 128 * i, (x.text.drop (4 + 400 * i)).take 400)) }) := by
  have hcount : (0x40000000 + n) % 128 = n := by omega
  have hfree : (0x40000000 + n) % 2 ^ 24 / 128 = 0 := by omega
  simp only [execFdata, hx]
  rw [runText_eq _ hx hw (by omega) (by decide) (by omega)]
  simp only [ha, hcount, hfree]
  simp [Nat.ne_of_gt hpos, Nat.not_lt.2 hn, Nat.not_lt.2 hminor]

theorem execKeyroll_eq (hx : s.dieLoad d .text = some (x, v)) (hw : imgN x.text 0 4 = 0x60000000)
    (hlast : x.text.length = 4) (hseg : x.seg + 1 < v.segments) : execKeyroll d s = .next (s.setDieLoad d
      { x with text := [], stage := .clear, seg := x.seg + 1, chain := sha512 (x.chain ++ x.tag),
               key := kmac256 x.key (natBytes 8 (x.seg + 1)) "GARNOS CFG ROLL" }) := by
  have hdone : x.text.drop 4 = [] := List.drop_eq_nil_of_le hlast.le
  rw [execKeyroll, runText_eq _ hx hw (by decide) (by decide) hlast.ge]
  simp [hdone, Nat.not_le.2 hseg]

theorem execCfgEnd_waits (hx : s.dieLoad d .text = some (x, v)) (hw : imgN x.text 0 4 = 0x70000000)
    (hqueue : x.queue ≠ []) : execCfgEnd d s = .next s := by
  simp [execCfgEnd, hx, hw, hqueue]

/-- The load of a die whose stream has ended: its key is gone, its chain complete. -/
def DieLoad.ended (x : DieLoad) : DieLoad :=
  { x with text := [], stage := .ended, key := [], chain := sha512 (x.chain ++ x.tag) }

theorem execCfgEnd_verifies (hx : s.dieLoad d .text = some (x, v)) (hw : imgN x.text 0 4 = 0x70000000)
    (hlast : x.text.length = 4) (hqueue : x.queue = []) (hseg : x.seg + 1 = v.segments)
    (hframes : s.framesDone d x v = true) : execCfgEnd d s = .next (if v.isPartial then
      (s.setDieLoad d x.ended).setRegionState d v.region 3 else
      (s.setDieLoad d x.ended).wrFld (cfgReg d Reg.CFG_STATUS) 27 24 2) := by
  have hdone : x.text.drop 4 = [] := List.drop_eq_nil_of_le hlast.le
  have hall : s.framesDone d { x with text := [] } v = true := hframes
  have hempty : (imgN x.text 0 4 / 2 ^ 24 == 0x70 && !x.queue.isEmpty) = false := by simp [hqueue]
  simp only [execCfgEnd, hx, hempty]
  rw [if_neg Bool.false_ne_true, runText_eq _ hx hw (by decide) (by decide) hlast.ge]
  simp [hdone, hseg, hall, DieLoad.ended]

theorem regionState_setRegionState_same (s : State) (d r n : Nat) :
    (s.setRegionState d r n).regionState d r = n % 16 := by
  have hfield := fld_wrFld_same s (cfgReg d (Reg.CFG_REGION_STATE + 4 * (r / 8))) (4 * (r % 8) + 3) (4 * (r % 8)) n
    (by omega) (by omega)
  rwa [Nat.add_sub_cancel_left] at hfield

theorem setRegionState_cfgs (s : State) (d r n : Nat) : (s.setRegionState d r n).cfgs = s.cfgs := by
  rw [State.setRegionState, wrFld_eq, wr_cfgs]

theorem setDieLoad_load (s : State) (d : Nat) (x : DieLoad) : ((s.setDieLoad d x).cfgAt d).load = some x := by
  rw [State.setDieLoad, cfgAt_setCfg_same]

theorem cfgEnd_verifies (hx : s.dieLoad d .text = some (x, v)) (hw : imgN x.text 0 4 = 0x70000000)
    (hlast : x.text.length = 4) (hqueue : x.queue = []) (hseg : x.seg + 1 = v.segments)
    (hframes : s.framesDone d x v = true) : Completes (execCfgEnd d s) fun t => (t.cfgAt d).load = some x.ended ∧
      if v.isPartial then t.regionState d v.region = 3 else t.dieState d = 2 := by
  refine ⟨_, execCfgEnd_verifies hx hw hlast hqueue hseg hframes, ?_⟩
  by_cases hpartial : v.isPartial = true
  · simp only [if_pos hpartial]
    exact ⟨by rw [cfgAt_congr (setRegionState_cfgs ..), setDieLoad_load], regionState_setRegionState_same ..⟩
  · simp only [if_neg hpartial]
    exact ⟨by rw [wrFld_eq, cfgAt_congr (wr_cfgs ..), setDieLoad_load], fld_wrFld_same _ _ _ _ _ (by decide) (by decide)⟩

/-! ### Signatures (R204, R209) -/

theorem execSig_awaits (hx : s.dieLoad d .ended = some (x, v)) (hend : x.pos + 3380 = v.bytes)
    (hread : s.readLong (s.cfgAgent d) (v.addr + x.pos) 3380 m = (r, u)) (hgood : r.status = 0)
    (hop : imgN r.data 0 4 = 0x80000000) (hpad : ∀ y ∈ r.data.drop 3377, y = 0) :
    execSig d m s = .next (u.setDieLoad d { x with stage := .signed, text := r.data }) := by
  simp only [execSig, hx, hend, hread, hgood, hop]
  rw [if_neg (by omega), if_neg (by decide), if_neg (by simpa using hpad), if_neg (by omega)]

/-! ### Commit (R198, R200, R221) -/

section
variable (c : DieCfg) (a image : Nat) (data : List Byte)

theorem putFrame_frameAt_same : (c.putFrame a image data).frameAt (a / 128) = data := by
  simp [DieCfg.frameAt, DieCfg.putFrame, find?_tput_same]

theorem putFrame_frameAt_ne {k : Nat} (h : k ≠ a / 128) : (c.putFrame a image data).frameAt k = c.frameAt k := by
  simp [DieCfg.frameAt, DieCfg.putFrame, find?_tput_ne _ _ h]

/-- The frame stands with the check bits of what its column now says, and where that is a column of a tile it configures it. -/
theorem putFrame_column : ∃ col,
    (a / 128, Frame.mk image data (frameCheck (some col) a data)) ∈ (c.putFrame a image data).frames ∧
    (faCol a < 832 → (c.putFrame a image data).colAt (faRow a) (faCol a) = some col) := by
  refine ⟨_, List.mem_of_find?_eq_some (find?_tput_same ..), fun hcol => ?_⟩
  simp only [DieCfg.colAt, DieCfg.putFrame, hcol, if_true, find?_tput_same]
  rfl

end

/-- Frame a of load x stands in configuration memory; a correction that waited for it is void. -/
def DieCfg.withFrame (c : DieCfg) (v : CfgLoad) (a : Nat) (data : List Byte) : DieCfg :=
  { c.putFrame a (if v.isPartial then v.region else 64) data with
    fix := match c.fix with | some f => if f.1 = a / 128 then none else c.fix | none => none }

/-- It has been committed and counted, and `rest` waits. -/
def State.frameCommitted (s : State) (d : Nat) (x : DieLoad) (v : CfgLoad) (a : Nat) (data : List Byte)
    (rest : List (Nat × List Byte)) : State :=
  ((s.setCfg d ((s.cfgAt d).withFrame v a data)).setDieLoad d
    { x with queue := rest, written := x.written ++ [a] }).bump (cfgReg d Reg.CFG_FRAMES) 1

theorem frameCommitted_cfgAt (s : State) (d : Nat) (x : DieLoad) (v : CfgLoad) (a : Nat) (data : List Byte)
    (rest : List (Nat × List Byte)) : (s.frameCommitted d x v a data rest).cfgAt d =
      { (s.cfgAt d).withFrame v a data with load := some { x with queue := rest, written := x.written ++ [a] } } := by
  rw [State.frameCommitted, State.setDieLoad, bump_eq, cfgAt_congr (wr_cfgs ..), cfgAt_setCfg_same, cfgAt_setCfg_same]

theorem execFrameCommit_eq {a : Nat} {data : List Byte} {rest : List (Nat × List Byte)} (hx : (s.cfgAt d).load = some x)
    (hqueue : x.queue = (a, data) :: rest) (hv : s.loadAt x.load = some v) (hallowed : s.frameAllowed d v a = true)
    (hnew : a ∉ x.written) (htaps : ¬ (faCol a < 800 ∧ (faMinor a = 3 ∨ faMinor a = 4))) :
    execFrameCommit d s = .next (s.frameCommitted d x v a data rest) := by
  simp only [execFrameCommit, hx, hqueue, hv]
  rw [if_neg (by simp [hallowed, hnew]), if_neg htaps, if_pos rfl]
  rfl

theorem execAbortLoad_none (hx : (s.cfgAt d).load = none) : execAbortLoad d s = .next s := by
  simp only [execAbortLoad, hx]

theorem execAbortLoad_fails (hx : (s.cfgAt d).load = some x) (hstage : x.stage ≠ .releasing) :
    execAbortLoad d s = .next (s.failLoad d 0x400 0x56 0) := by
  simp only [execAbortLoad, hx, if_neg hstage]

/-- Settles O49: the header, then each command of a stream by what it comes to. -/
theorem configurationStreamsComplete : Obligations.ConfigurationStreamsComplete := by
  refine ⟨fun l m v r s u hload hnew hlong hread hgood => ?_, fun d x v s => ⟨?_, ?_, ?_, ?_, ?_, ?_, ?_⟩⟩
  · have hheader : HeaderRead s l v m r u := ⟨hload, hnew, hlong, hread, hgood⟩
    refine ⟨fun hform hfits hfree key w hrules => ?_, fun hrefused => ?_, fun hform hbusy hfirst => ?_⟩
    · obtain ⟨t, ht, hdescribed, hbegun, hmem⟩ := header_accepted hheader rfl hform hfits hfree hrules
      refine ⟨t, ht, ⟨_, hdescribed, rfl, rfl, rfl⟩, fun d hd => ?_, hmem⟩
      obtain ⟨hdie, hframes⟩ := hbegun d hd
      exact ⟨_, hdie, rfl, rfl, rfl, rfl, rfl, rfl, hframes⟩
    · rcases Bool.eq_false_or_eq_true (u.headerForm v (imgN r.data 0 4) (r.data.drop 4)) with hform | hform
      · obtain ⟨hfits, hfirst⟩ := hrefused.resolve_left (by simp [hform])
        exact execHeader_unfit hheader hform hfits hfirst
      · exact execHeader_malformed hheader hform
    · exact execHeader_busy hheader hform hbusy hfirst
  · intro m r u hx hseg hroom hread hgood hop halign hmin hmax
    exact execSeg_seals hx hseg hroom hread hgood hop halign hmin hmax
  · intro m r u hx hroom hread hgood
    refine ⟨fun hnone hqueue => ?_, fun text hsome hlast => ?_⟩
    · exact (exec_segmentAuthenticated ..).trans
        (execSegmentAuthenticated_unauthentic hx hroom hread hgood hnone hqueue)
    · exact (exec_segmentAuthenticated ..).trans (execSegmentAuthenticated_opens hx hroom hread hgood hsome hlast)
  · intro hx
    refine ⟨fun hw hroom => ?_, fun n hpos hn hw hroom hok => ?_,
      fun hw hroom => ⟨fun hallowed => ?_, fun hallowed hqueue => ?_⟩,
      fun n a hpos hn hw hroom ha hminor => ?_, fun hw hlast hseg => ?_, fun hw hqueue => ?_,
      fun hw hlast hqueue hseg hframes => ?_⟩
    · exact execCfgNop_eq hx hw hroom
    · exact execRegw_eq hx hpos hn hw hroom rfl hok
    · exact execFaddr_allowed hx hw hroom hallowed
    · exact execFaddr_refused hx hw hroom hallowed hqueue
    · exact execFdata_eq hx hpos hn hw hroom ha hminor
    · exact execKeyroll_eq hx hw hlast hseg
    · exact execCfgEnd_waits hx hw hqueue
    · obtain ⟨t, ht, hload, hstate⟩ := cfgEnd_verifies hx hw hlast hqueue hseg hframes
      exact ⟨t, ht, ⟨x.ended, hload, rfl, rfl, rfl⟩, hstate⟩
  · intro m r u hx hend hread hgood hop hpad
    exact execSig_awaits hx hend hread hgood hop hpad
  · intro a data rest hx hqueue hv hallowed hnew htaps
    have hcfg := frameCommitted_cfgAt s d x v a data rest
    obtain ⟨col, hmem, hcol⟩ := putFrame_column (s.cfgAt d) a (if v.isPartial then v.region else 64) data
    refine ⟨_, execFrameCommit_eq hx hqueue hv hallowed hnew htaps, ?_⟩
    dsimp only
    rw [hcfg]
    exact ⟨rfl, putFrame_frameAt_same .., fun k => putFrame_frameAt_ne _ _ _ _, ⟨col, hmem, hcol⟩, rd_bump_same .., rfl⟩
  · intro hx
    exact execAbortLoad_none hx
  · intro hx hstage
    exact execAbortLoad_fails hx hstage

end Sys2Proof.Machine
end

section
/-! SUPPORT. An uncorrectable upset fails the load under way on its die, and with it writes the state of the load's region
(R219, R224): where that region is none of the 64 of a die, its state stands in another register. -/

namespace Sys2Proof.Machine

/-- A load of region 336, where a die has 64 (R212): the state of such a region would stand in the low four bits of
CFG_UPSET_UE_COUNT. -/
def strayLoad : CfgLoad :=
  { ent := ⟨0, 0, 0, 0, false, 0, 0, false, none, 0⟩, addr := 0, bytes := 4096, ess := 0, accepted := true, dies := [0, 1]
    isPartial := true, region := 336, segments := 1, imageId := [], slot := 0, rbIndex := 0, rbVersion := 0
    released := [], failed := [], frames := 0 }

/-- Its part on die 0, with the first segment to come. -/
def strayDieLoad : DieLoad :=
  { load := 0, stage := .clear, seg := 0, pos := 260, segCmd := [], segLen := 0, key := [], chain := [], tag := []
    text := [], faddr := none, queue := [], written := [], regw := [] }

/-- Die 0 is released, that load is under way on it, and the scrubber is at frame 0. -/
def strayLoading : State :=
  { State.reset.wr (cfgReg 0 Reg.CFG_STATUS) 0x03000000 with
    loads := [(0, strayLoad)], cfgs := [(0, { DieCfg.init with load := some strayDieLoad })] }

/-- Bits 0 and 8 of frame 0, of static logic, are upset: the upset is counted, the load fails, and the state of its region,
incomplete, is written over the count. -/
theorem scrubRead_strayLoading : Completes (exec (.scrubRead 0 [0, 8] [] ⟨[], 0, none, 0⟩) strayLoading) fun t =>
    strayLoading.rd (cfgReg (0 : Die) Reg.CFG_UPSET_UE_COUNT) = 0 ∧ t.rd (cfgReg (0 : Die) Reg.CFG_UPSET_UE_COUNT) = 4 :=
  ⟨_, rfl, by decide +kernel, by decide +kernel⟩

/-- Refutes O50: the third clause has every wide upset counted by one in CFG_UPSET_UE_COUNT, in any state of a released die.
In a state whose load names region 336, which no header can name but the statement does not exclude, the count reads 4
after the first. -/
theorem not_releaseAndScrubbingComplete : ¬ Obligations.ReleaseAndScrubbingComplete := by
  intro ⟨_, _, hscrub, _⟩
  obtain ⟨hread, _⟩ := hscrub 0 ⟨[], 0, none, 0⟩ strayLoading (by decide +kernel) rfl
  obtain ⟨_, hupset⟩ := hread 1 (by decide +kernel)
  obtain ⟨t, ht, _, _, _, hwide⟩ := hupset [0, 8] [] (by decide) fun _ _ => rfl
  obtain ⟨_, hcount⟩ := hwide ⟨0, by decide, 8, by decide, by decide⟩
  obtain ⟨u, hu, hzero, hfour⟩ := scrubRead_strayLoading
  have htu : u = t := Host.Outcome.next.inj (hu.symm.trans ht)
  rw [← htu, hfour, hzero] at hcount
  exact absurd hcount (by decide)

end Sys2Proof.Machine
end

section
/-! SUPPORT. The time-out of a request wakes the oldest waiting request of the same initiator, which is issued under its own
number (R236, R241): where that is the number timed out, what is issued takes the place of the request marked as gone. -/

namespace Sys2Proof.Machine

/-- A read of a crema slice by the sequencer beside it, issued and not answered. -/
def issuedRead : NocReq :=
  { pkt := { src := .router 0, srcEp := 1, tag := 0, dst := .router 1, dstEp := 0, cls := 1, type := 0, addr := 0, bytes := 4
             atomicOp := 0, payload := [] }
    owner := .bare, gaddr := none, waiting := false, cls := 1, set := 0, yx := false, delivered := false, answer := none
    failAddr := 0, targets := [], gone := false }

/-- Number 0 is listed twice: for that read, and for one that waits at the same injection port. -/
def listedTwice : State := { State.reset with noc := [(0, issuedRead), (0, { issuedRead with waiting := true })] }

/-- The time-out of request 0 issues the waiting request, under number 0, so that request 0 is not gone. -/
theorem respTimeout_listedTwice : Completes (exec (.respTimeout 0) listedTwice) fun t =>
    (t.nocAt 0).map (·.gone) = some false :=
  ⟨_, rfl, by decide +kernel⟩

/-- Refutes O51: the clause on time-outs has request n stand under its number, as gone, after its time-out, in any state
that lists it. In a state that lists number 0 twice, which injection never makes but the statement does not exclude, the
request that the time-out wakes stands there instead. -/
theorem not_networkCommandsComplete : ¬ Obligations.NetworkCommandsComplete := by
  intro ⟨_, _, _, _, _, htimeout, _⟩
  obtain ⟨t, ht, hgone, _⟩ := htimeout 0 issuedRead listedTwice rfl rfl rfl rfl (by simp [listedTwice, State.reset])
  obtain ⟨u, hu, hnot⟩ := respTimeout_listedTwice
  have htu : t = u := Host.Outcome.next.inj (ht.symm.trans hu)
  subst htu
  rw [hgone] at hnot
  exact absurd hnot (by decide)

end Sys2Proof.Machine
end

section
/- The proofs of this and the following sections are elaborated one after another: elaborated side by side, as many threads with
their stacks wait for one another as the check's memory limit does not hold. -/
set_option Elab.async false
/-! SUPPORT. What every step keeps, read off `Evolves`: the queue's rest, outputs, and fuses (R299, R329, R365, R369, R382). -/

namespace Sys2Proof.Machine

/-- Settles O1: a step on a queue that is not empty is that, by definition. -/
theorem stepRunsTheFrontCommand : Obligations.StepRunsTheFrontCommand := fun _ _ _ => rfl

/-- Settles O6: every command goes on from the state that has the rest of the queue. -/
theorem noCommandTouchesTheQueue : Obligations.NoCommandTouchesTheQueue :=
  fun _ _ _ _ hq e => (Evolves.of_step_cons hq e).queue

/-- Settles O7: an edge of a user clock and a command alike only add to the outputs. -/
theorem whatIsSentStaysSent : Obligations.WhatIsSentStaysSent := by
  intro s t e
  cases hq : s.pending with
  | nil => exact (Evolves.of_step_nil hq e).out
  | cons c rest => exact (Evolves.of_step_cons hq e).out

/-- Settles O8: an edge of a user clock and a command alike keep the fuses that are blown. -/
theorem fusesAreNeverUnblown : Obligations.FusesAreNeverUnblown := by
  intro s t e
  cases hq : s.pending with
  | nil =>
    have h := Evolves.of_step_nil hq e
    exact ⟨h.factory, h.field, h.killed⟩
  | cons c rest =>
    have h := Evolves.of_step_cons hq e
    exact ⟨h.factory, h.field, h.killed⟩

end Sys2Proof.Machine
end

section
set_option Elab.async false
/-! SUPPORT. What a register reads after writes of others: laws of bits, fields and numbers beside those of `rd`. -/

namespace Sys2Proof.Machine

variable (s : State)

theorem regKey_ne {b : Block} {o o' : Nat} (h : o ≠ o') : regKey b o ≠ regKey b o' := fun h' => h (Nat.add_left_cancel h')

theorem rbit_wr_ne {k k' : Nat} (v : Word) (i : Nat) (h : k' ≠ k) : (s.wr k v).rbit k' i = s.rbit k' i := by
  rw [State.rbit, State.rdN, rd_wr_ne _ _ h, State.rbit, State.rdN]

theorem rbit_wr_same (k i : Nat) (v : Word) : (s.wr k v).rbit k i = v.toNat.testBit i := by
  rw [rbit_eq, State.rdN, rd_wr_same]

theorem rdN_wr_same (k : Nat) (v : Word) : (s.wr k v).rdN k = v.toNat := by
  rw [State.rdN, rd_wr_same]

theorem rdN_wr_ne {k k' : Nat} (v : Word) (h : k' ≠ k) : (s.wr k v).rdN k' = s.rdN k' := by
  rw [State.rdN, rd_wr_ne _ _ h, State.rdN]

theorem rdN_bump_ne {k k' : Nat} (n : Nat) (h : k' ≠ k) : (s.bump k n).rdN k' = s.rdN k' := rdN_wr_ne s _ h

theorem rdN_setFlag_ne {k k' : Nat} (i : Nat) (h : k' ≠ k) : (s.setFlag k i).rdN k' = s.rdN k' := rdN_wr_ne s _ h

theorem fld_wr_ne {k k' : Nat} (v : Word) (hi lo : Nat) (h : k' ≠ k) : (s.wr k v).fld k' hi lo = s.fld k' hi lo := by
  rw [State.fld, rdN_wr_ne _ _ h, State.fld]

theorem fld_bump_ne {k k' : Nat} (n hi lo : Nat) (h : k' ≠ k) : (s.bump k n).fld k' hi lo = s.fld k' hi lo :=
  fld_wr_ne s _ _ _ h

theorem fld_setFlag_ne {k k' : Nat} (i hi lo : Nat) (h : k' ≠ k) : (s.setFlag k i).fld k' hi lo = s.fld k' hi lo :=
  fld_wr_ne s _ _ _ h

theorem rdN_congr {t : State} (h : s.regs = t.regs) (k : Nat) : s.rdN k = t.rdN k := congrArg BitVec.toNat (rd_congr h k)

theorem fld_congr {t : State} (h : s.regs = t.regs) (k hi lo : Nat) : s.fld k hi lo = t.fld k hi lo := by
  rw [State.fld, rdN_congr s h, State.fld]

end Sys2Proof.Machine
end

section
set_option Elab.async false
/-! SUPPORT. Mailboxes: what a word committed to an inbox leaves (R350, R351). -/

namespace Sys2Proof.Machine

variable (s : State)

theorem mbxReg_ne {e o o' : Nat} (h : o ≠ o') : mbxReg e o ≠ mbxReg e o' :=
  regKey_ne fun h' => h (Nat.add_left_cancel h')

/-- A word committed to an inbox that holds one is dropped and counted. -/
theorem post_full {e : Nat} (lo hi : Word) (src : Nat) (h : s.rbit (mbxReg e Reg.MBX_STATUS) 0 = true) :
    s.post e lo hi src = (s.setFlag (mbxReg e Reg.MBX_STATUS) 1).bump (mbxReg e Reg.MBX_OVERRUN_COUNT) 1 := if_pos h

/-- A word committed to an empty inbox is stored with its sender, and counted. -/
theorem post_empty {e : Nat} (lo hi : Word) (src : Nat) (h : s.rbit (mbxReg e Reg.MBX_STATUS) 0 = false) :
    s.post e lo hi src = ((((s.wr (mbxReg e Reg.MBX_IN_LO) lo).wr (mbxReg e Reg.MBX_IN_HI) hi).wr (mbxReg e Reg.MBX_IN_SRC)
      (BitVec.ofNat 32 src)).setFlag (mbxReg e Reg.MBX_STATUS) 0).bump (mbxReg e Reg.MBX_MSG_COUNT) 1 :=
  if_neg (by simp [h])

theorem execMbxOutHi_post {core : Fin 65} {e : Fin 64} (w : Word) (hc : coreWrites core e = true)
    (hl : s.endpointLive e = true) :
    exec (.mbxOutHi core e w) s = .next (s.post e (s.rd (mbxReg e Reg.MBX_OUT_LO)) w core) := by
  show execMbxOutHi core e w s = _
  simp [execMbxOutHi, hc, hl]

/-- Settles O22: an inbox that holds a word drops the next one, an empty one stores it. -/
theorem mailboxWordStoredOrDropped : Obligations.MailboxWordStoredOrDropped := by
  intro core e w s hc hl
  rw [execMbxOutHi_post s w hc hl]
  constructor <;> intro h
  · rw [post_empty s _ _ _ h]
    refine ⟨_, rfl, ?_, ?_, ?_, ?_, ?_, ?_, ((((OnlyRegs.wr s _ _ (by simp)).trans (.wr _ _ _ (by simp))).trans
      (.wr _ _ _ (by simp))).trans (.wr _ _ _ (by simp))).trans (.wr _ _ _ (by simp))⟩
    · simp (disch := (apply mbxReg_ne; decide)) only [rd_bump_ne, rd_setFlag_ne, rd_wr_ne, rd_wr_same]
    · simp (disch := (apply mbxReg_ne; decide)) only [rd_bump_ne, rd_setFlag_ne, rd_wr_ne, rd_wr_same]
    · simp (disch := (apply mbxReg_ne; decide)) only [rdN_bump_ne, rdN_setFlag_ne, rdN_wr_same, BitVec.toNat_ofNat]
      omega
    · rw [rbit_bump_ne _ _ _ (mbxReg_ne (by decide)), rbit_setFlag_same _ _ _ (by decide)]
    · rw [rbit_bump_ne _ _ _ (mbxReg_ne (by decide)), rbit_setFlag_other _ _ _ _ (by decide)]
      simp (disch := (apply mbxReg_ne; decide)) only [rbit_wr_ne]
    · simp (disch := (apply mbxReg_ne; decide)) only [rd_bump_same, rd_setFlag_ne, rd_wr_ne]
      rfl
  · rw [post_full s _ _ _ h]
    refine ⟨_, rfl, ?_, ?_, ?_, (OnlyRegs.wr s _ _ (by simp)).trans (.wr _ _ _ (by simp))⟩
    · rw [rbit_bump_ne _ _ _ (mbxReg_ne (by decide)), rbit_setFlag_same _ _ _ (by decide)]
    · rw [rbit_bump_ne _ _ _ (mbxReg_ne (by decide)), rbit_setFlag_other _ _ _ _ (by decide), h]
    · rw [rd_bump_same, rd_setFlag_ne _ _ (mbxReg_ne (by decide))]
      rfl

end Sys2Proof.Machine
end

section
set_option Elab.async false
/-! SUPPORT. The endpoint of a function whose partition is enabled in one set alone is withdrawn and given again at once while
a swap is under way (R343, R350). -/

namespace Sys2Proof.Machine

/-- A swap that the north edge die has reported: partition 0, bound to function 1, is enabled in the old set alone, and
endpoint 1 is function 1's. -/
def midSwap : State :=
  { (State.reset.wr (mbxReg 1 Reg.MBX_OWNER) 65).wr (setKey 0 0x208) 0x80000001 with swap := some [16] }

/-- Endpoint 1 is given to function 1 again as it is withdrawn: the old set, which is still the active one, binds it. -/
theorem endpointWithdraw_midSwap : Completes (exec (.endpointWithdraw 1) midSwap) fun t =>
    t.rbit (mbxReg 1 Reg.MBX_OWNER) 6 = true :=
  ⟨_, rfl, by decide +kernel⟩

/-- Every function bound to an enabled partition of the active set owns an endpoint. -/
theorem midSwap_endpoints : ∀ p < 16, (midSwap.part p).enabled = true →
    (midSwap.endpointOf (midSwap.part p).func).isSome = true := by decide +kernel

/-- Refutes O23: the withdrawal clause has the endpoint stay free where every function bound to an enabled partition of the
active set owns one. That the function has no partition is read in the set of the north edge die, though; in a swap that
this die has reported, the active set can still bind the function, which is given the endpoint again. -/
theorem not_mailboxCommandsComplete : ¬ Obligations.MailboxCommandsComplete := by
  intro ⟨_, _, _, hwithdraw, _⟩
  obtain ⟨t, ht, _, _, _, _, _, hfree⟩ := hwithdraw 1 midSwap (by decide) (by decide +kernel) (by decide +kernel)
  obtain ⟨u, hu, hgiven⟩ := endpointWithdraw_midSwap
  have htu : t = u := Host.Outcome.next.inj (ht.symm.trans hu)
  subst htu
  have hclear := (hfree midSwap_endpoints).1
  have hsame : t.rbit (mbxReg (1 : Fin 32) Reg.MBX_OWNER) 6 = t.rbit (mbxReg 1 Reg.MBX_OWNER) 6 := rfl
  rw [hsame, hgiven] at hclear
  cases hclear

end Sys2Proof.Machine
end

section
set_option Elab.async false
/-! SUPPORT. What the operations of bring-up and of commanded tests leave: the test under way, whether bring-up has stopped,
the registers that phases are shown in, and readiness (R319, R360, R373). -/

namespace Sys2Proof.Machine

variable {s₀ s t u : State}

/-- The register neither shows a phase or its time nor holds readiness. -/
abbrev BootFree (k : Nat) : Prop := k ≠ hifReg Reg.HIF_STATUS ∧ (k < tstReg 0x14 ∨ tstReg 0x34 < k)

/-- What bring-up shows of itself, and the test under way, are as before. -/
structure BootFrame (s t : State) : Prop where
  test : t.test = s.test
  stopped : t.plan.stopped = s.plan.stopped
  shown : ∀ k, tstReg 0x14 ≤ k → k ≤ tstReg 0x34 → t.rd k = s.rd k
  ready : t.isReady = s.isReady

theorem bootFree_mesh {b : Block} {o : Nat} (h : 0x1000000 ≤ blockBase b) : BootFree (regKey b o) := by
  unfold BootFree regKey
  generalize blockBase b = n at h
  simp only [hifReg, tstReg, regKey, blockBase, Reg.HIF_STATUS]
  omega

theorem bootFree_drcCh (c o : Nat) : BootFree (drcCh c o) := bootFree_mesh (by simp only [blockBase]; omega)

theorem bootFree_drcReg (e o : Nat) : BootFree (drcReg e o) := bootFree_mesh (by simp only [blockBase]; omega)

theorem bootFree_lnkReg (e o : Nat) : BootFree (lnkReg e o) := bootFree_mesh (by simp only [blockBase]; omega)

theorem bootFree_pageReg (f o : Nat) : BootFree (pageReg f o) := bootFree_mesh (by simp only [blockBase]; omega)

theorem bootFree_seq (d : Fin 16) (o : Nat) : BootFree (regKey (.seq d) o) := bootFree_mesh (by simp only [blockBase]; omega)

theorem bootFree_setKey (tag o : Nat) : BootFree (setKey tag o) := by
  simp only [BootFree, setKey, hifReg, tstReg, regKey, blockBase, Reg.HIF_STATUS]
  omega

theorem bootFree_pwrDie {d : Nat} (o : Nat) (hd : d < 16) (ho : o < 0x10000 := by decide) : BootFree (pwrDie d o) := by
  simp only [BootFree, pwrDie, pwrReg, hifReg, tstReg, regKey, blockBase, Reg.HIF_STATUS]
  omega

theorem bootFree_secReg {o : Nat} (ho : o < 0x100000) : BootFree (secReg o) := by
  simp only [BootFree, secReg, hifReg, tstReg, regKey, blockBase, Reg.HIF_STATUS]
  omega

namespace BootFrame

theorem refl (s : State) : BootFrame s s := ⟨rfl, rfl, fun _ _ _ => rfl, rfl⟩

theorem trans (h : BootFrame s t) (k : BootFrame t u) : BootFrame s u :=
  ⟨k.test.trans h.test, k.stopped.trans h.stopped, fun i h1 h2 => (k.shown i h1 h2).trans (h.shown i h1 h2),
    k.ready.trans h.ready⟩

/-- A change elsewhere. -/
theorem frame (h : BootFrame s₀ s) (hr : t.regs = s.regs := by rfl) (ht : t.test = s.test := by rfl)
    (hp : t.plan.stopped = s.plan.stopped := by rfl) : BootFrame s₀ t :=
  h.trans ⟨ht, hp, fun k _ _ => rd_congr hr k, rbit_congr hr _ _⟩

theorem wr {k v} (h : BootFrame s₀ s) (hk : BootFree k := by decide) : BootFrame s₀ (s.wr k v) :=
  h.trans ⟨rfl, rfl, fun i h1 h2 => rd_wr_ne s v (by have := hk.2; omega), rbit_wr_ne s v _ hk.1.symm⟩

theorem wrFld {k hi lo v} (h : BootFrame s₀ s) (hk : BootFree k := by decide) : BootFrame s₀ (s.wrFld k hi lo v) := h.wr hk

theorem setFlag {k i} (h : BootFrame s₀ s) (hk : BootFree k := by decide) : BootFrame s₀ (s.setFlag k i) := h.wr hk

theorem bump {k n} (h : BootFrame s₀ s) (hk : BootFree k := by decide) : BootFrame s₀ (s.bump k n) := h.wr hk

theorem wrMax {k v} (h : BootFrame s₀ s) (hk : BootFree k := by decide) : BootFrame s₀ (s.wrMax k v) := by
  unfold State.wrMax
  split
  exacts [h.wr hk, h]

theorem wr64 {k v} (h : BootFrame s₀ s) (hk : BootFree k) (hk4 : BootFree (k + 4)) : BootFrame s₀ (s.wr64 k v) :=
  (h.wr hk).wr hk4

/-- Another bit of the module's status. -/
theorem wrStatus {i v : Nat} (h : BootFrame s₀ s) (hi : i < 31 := by decide) :
    BootFrame s₀ (s.wrFld (hifReg Reg.HIF_STATUS) i i v) :=
  h.trans ⟨rfl, rfl, fun k h1 h2 => rd_wrFld_ne s i i v (by
      simp only [hifReg, tstReg, regKey, blockBase, Reg.HIF_STATUS] at *
      omega), by
    rw [State.isReady, rbit_wrFld _ _ _ _ _ _ le_rfl (by omega), if_neg (by omega), State.isReady]⟩

theorem ite {c : Prop} [Decidable c] (ht : BootFrame s₀ t) (hu : BootFrame s₀ u) : BootFrame s₀ (if c then t else u) := by
  split <;> assumption

theorem ite_snd {α : Type} {c : Prop} [Decidable c] {x y : α × State} (ht : BootFrame s₀ x.2) (hu : BootFrame s₀ y.2) :
    BootFrame s₀ (if c then x else y).2 := by
  split <;> assumption

theorem each {α : Type} {f : State → α → State} {xs : List α} (h : BootFrame s₀ s)
    (hf : ∀ {s x}, BootFrame s₀ s → BootFrame s₀ (f s x)) : BootFrame s₀ (s.each xs f) :=
  each_induction (BootFrame s₀) (fun _ _ => hf) xs h

theorem eachMem {α : Type} {f : State → α → State} {xs : List α} (h : BootFrame s₀ s)
    (hf : ∀ {s}, ∀ x ∈ xs, BootFrame s₀ s → BootFrame s₀ (f s x)) : BootFrame s₀ (s.each xs f) := by
  induction xs generalizing s with
  | nil => exact h
  | cons x xs ih => exact ih (hf x List.mem_cons_self h) fun y hy => hf y (List.mem_cons_of_mem x hy)

theorem emit {o} (h : BootFrame s₀ s) : BootFrame s₀ (s.emit o) := h.frame

/-! ### The floor plan -/

theorem note {c} (h : BootFrame s₀ s) : BootFrame s₀ (s.note c) := by
  unfold State.note
  split
  exacts [h.frame, h.frame]

theorem countFail {c} (h : BootFrame s₀ s) : BootFrame s₀ (s.countFail c) := .ite h h.frame

theorem countPass {c} (h : BootFrame s₀ s) : BootFrame s₀ (s.countPass c) := .ite h h.frame

theorem unitFail {c} (h : BootFrame s₀ s) : BootFrame s₀ (s.unitFail c) := by
  have hn {d} : BootFrame s₀ (if (s.note c).isBad (c / 2 ^ 28) (c / 2 ^ 7 % 2 ^ 21) then s.note c
      else { s.note c with plan := { (s.note c).plan with defects := (s.note c).plan.defects ++ d } }) :=
    .ite h.note h.note.frame
  exact .ite h.note (.ite hn (.ite (.countFail hn.frame) hn.frame))

theorem bootFail {c} (h : BootFrame s₀ s) : BootFrame s₀ (s.bootFail c) := .ite h h.unitFail

theorem writeCounts (h : BootFrame s₀ s) : BootFrame s₀ s.writeCounts :=
  .each (h.each fun h => .ite h h.countPass) .countFail

theorem showPlan (h : BootFrame s₀ s) : BootFrame s₀ s.showPlan := h.frame

theorem evalDegraded (h : BootFrame s₀ s) : BootFrame s₀ s.evalDegraded := h.wr.wrFld

theorem checkOverflow (h : BootFrame s₀ s) : BootFrame s₀ s.checkOverflow := .ite h.setFlag h

theorem planChanged (h : BootFrame s₀ s) : BootFrame s₀ s.planChanged := .ite h.checkOverflow.wrFld h

theorem showChans (h : BootFrame s₀ s) : BootFrame s₀ s.showChans := h.frame

theorem event {f code arg status} (h : BootFrame s₀ s) : BootFrame s₀ (s.event f code arg status) := by
  rcases event_cases s f code arg status with e | ⟨_, _, e⟩ <;> rw [e]
  exacts [(h.bump (bootFree_pageReg _ _)).setFlag (bootFree_pageReg _ _), h.frame]

theorem tierCheck (h : BootFrame s₀ s) : BootFrame s₀ s.tierCheck := by
  unfold State.tierCheck
  extract_lets +onlyGivenNames C L old r₁ r₂ r₃ r₄
  refine .ite h ?_
  have h₄ : BootFrame s₀ r₄ := (BootFrame.each (s := r₂) h.frame fun h => h.wr (bootFree_drcReg _ _)).wrStatus
  exact .event (.ite h₄.showChans.planChanged.evalDegraded h₄)

theorem setChanState {c v} (h : BootFrame s₀ s) : BootFrame s₀ (s.setChanState c v) := h.wrFld (bootFree_drcCh _ _)

theorem loadDelays {c} (h : BootFrame s₀ s) : BootFrame s₀ (s.loadDelays c) := by
  unfold State.loadDelays
  split
  exacts [.ite (h.each fun h => h.wr (bootFree_drcCh _ _)) h, h]

theorem putSigs {sigs} (h : BootFrame s₀ s) : BootFrame s₀ (s.putSigs sigs) := by
  have hk (x : Nat) : BootFree (tstReg (Reg.TST_MISR + x)) := by
    simp only [BootFree, hifReg, tstReg, regKey, blockBase, Reg.HIF_STATUS, Reg.TST_MISR]
    omega
  exact h.each fun h => h.wr64 (hk _) (hk (_ + 4))

end BootFrame
end Sys2Proof.Machine
end

section
set_option Elab.async false
/-! SUPPORT. Field fuses and commanded tests (R368, R369, R373, R374, R377). -/

namespace Sys2Proof.Machine

/-! ### Field fuses -/

/-- Settles O19: the bank is full, or the write is good, or it spoils the position. -/
theorem fieldFuseWriteKeepsEntries : Obligations.FieldFuseWriteKeepsEntries := by
  intro u ok s hu
  have he : exec (.fieldFuseWrite u ok) s = if 512 ≤ s.nv.field.length then .next (s.setFlag (fplReg Reg.FPL_ERR_FLAGS) 1)
      else if ok then .next { s with nv := { s.nv with field := s.nv.field ++ [u], counts := terase s.nv.counts u } }
      else .next (s.spoilField.setFlag (fplReg Reg.FPL_ERR_FLAGS) 2) :=
    if_neg (by simp [hu])
  rw [he]
  by_cases hfull : 512 ≤ s.nv.field.length
  · rw [if_pos hfull]
    exact ⟨_, rfl, fun _ => rfl, fun h => absurd h (by omega), fun h => absurd h (by omega)⟩
  · rw [if_neg hfull]
    cases ok with
    | true => exact ⟨_, rfl, fun h => absurd h hfull, fun _ _ => rfl, fun _ h => by cases h⟩
    | false =>
      refine ⟨_, rfl, fun h => absurd h hfull, fun _ h => (by cases h), fun _ _ => ⟨rfl, ?_, rfl, ?_⟩⟩
      · exact rbit_setFlag_same _ _ _ (by decide)
      · exact fun k hk => rd_setFlag_ne s.spoilField _ (List.ne_of_not_mem_cons hk)

/-! ### Commanded tests -/

/-- Absorbing what waits at a bay leaves what counting and the network's requests leave. -/
theorem absorbAll_keeps {β : Type} (f : State → β) (hbump : ∀ s k, f (State.bump s k 1) = f s)
    (hnoc : ∀ (s : State) noc, f { s with noc } = f s) (s : State) (b ep : Nat) : f (s.absorbAll b ep) = f s := by
  refine each_keeps _ f _ (fun s e => ?_) _
  unfold State.absorb
  split
  · split
    exacts [hnoc _ _, (hnoc _ _).trans (hbump _ _)]
  · exact hnoc _ _

/-- A test with no cause against it is under way. -/
theorem testCmd_starts {s : State} {op target : Nat} {die : Bool} (h : s.testCause op die target = 0) :
    (s.testCmd op die target).test = some ⟨op, die, target⟩ ∧ (s.testCmd op die target).mem = s.mem := by
  rw [State.testCmd, if_pos h]
  constructor
  · exact each_keeps _ State.test _ (fun s b => each_keeps _ State.test _ (fun s i =>
      absorbAll_keeps State.test (fun _ _ => rfl) (fun _ _ => rfl) s b i) _) _
  · exact (each_keeps _ State.mem _ (fun s b => each_keeps _ State.mem _ (fun s i =>
      absorbAll_keeps State.mem (fun _ _ => rfl) (fun _ _ => rfl) s b i) _) _).trans (by rw [wrFld_eq, wr_mem, wrFld_eq, wr_mem])

theorem testCmd_refused {s : State} {op target : Nat} {die : Bool} (h : s.testCause op die target ≠ 0) :
    s.testCmd op die target = ((s.wrFld (tstReg Reg.TST_STATUS) 5 0 target).wrFld (tstReg Reg.TST_STATUS) 29 25
      (16 + s.testCause op die target)).setFlag (tstReg Reg.TST_ERR_FLAGS) 0 := if_neg h

theorem testCause_lt (s : State) (op target : Nat) (die : Bool) : s.testCause op die target < 6 := by
  unfold State.testCause
  dsimp only
  split_ifs <;> decide

/-- A part of a field reads the part of the number that was written. -/
theorem fld_wrFld_low (s : State) (k : Nat) {hi lo hi' : Nat} (v : Nat) (h : lo ≤ hi') (h' : hi' ≤ hi) (h2 : hi < 32) :
    (s.wrFld k hi lo v).fld k hi' lo = v % 2 ^ (hi' - lo + 1) := by
  rw [State.fld, rdN_wrFld_same _ _ _ _ _ (h.trans h') h2]
  apply Nat.eq_of_testBit_eq
  intro i
  rw [bitsOf_testBit, testBit_putBits _ _ _ _ _ (h.trans h'), Nat.testBit_mod_two_pow]
  by_cases hi : i < hi' - lo + 1
  · rw [if_pos (by omega), Nat.add_sub_cancel]
  · simp [hi]

/-- What the end of a test shows: its end, its count, its failed blocks and its time, and the floor plan. -/
def State.testShown (s : State) (f : BistFind) (same : Bool) : State :=
  let s := (((s.wrFld (tstReg Reg.TST_STATUS) 31 30 1).bump (tstReg Reg.TST_RUNS) 1).wr (tstReg Reg.TST_FAIL_COUNT)
    (BitVec.ofNat 32 f.bad.length)).wr (tstReg Reg.TST_LAST_US) (BitVec.ofNat 32 f.us)
  let s := if f.bad.isEmpty then s else s.setFlag (tstReg Reg.TST_ERR_FLAGS) 1
  if same then s.showPlan.evalDegraded else s.showPlan.planChanged.evalDegraded

/-- A test that ends within its limit is no longer under way, and is shown. -/
theorem execBistDone_shows {f : BistFind} {r : TestRun} {s : State} (h : s.test = some r) (hus : f.us ≤ testLimit r) :
    ∃ (u : State) (same : Bool), u.test = none ∧ exec (.bistDone f) s = .next (u.testShown f same) := by
  have hlate : ¬ testLimit r < f.us := by omega
  show ∃ (u : State) (same : Bool), u.test = none ∧ execBistDone f s = .next (u.testShown f same)
  simp only [execBistDone, h, if_neg hlate]
  refine ⟨_, _, ?_, rfl⟩
  have judged (s₁ : State) (xs : List (Nat × List (Nat × Bool))) : BootFrame s₁ (s₁.each xs fun s u =>
      if u.2.any fun b => f.bad.contains b then s.unitFail u.1 else s.unitGood u.1) :=
    (BootFrame.refl s₁).each fun h => .ite h.unitFail h.frame
  split
  · exact ((BootFrame.putSigs (.each ((judged _ _).frame) .unitFail)).test).trans rfl
  · exact (judged _ _).putSigs.test.trans rfl

/-- Showing the floor plan after a test leaves every register outside the FPL block. -/
theorem showPlan_degraded_rd (s : State) (same : Bool) {k : Nat} (hk : k < 0x900000) :
    (if same then s.showPlan.evalDegraded else s.showPlan.planChanged.evalDegraded).rd k = s.rd k := by
  have hfpl {o : Nat} : k ≠ regKey .fpl o := by
    simp only [regKey, blockBase]
    omega
  have heval (t : State) : t.evalDegraded.rd k = t.rd k := by
    unfold State.evalDegraded
    rw [rd_wrFld_ne _ _ _ _ hfpl, rd_wr_ne _ _ hfpl]
  have hplan (t : State) : t.planChanged.rd k = t.rd k := by
    unfold State.planChanged State.checkOverflow
    split
    · rw [rd_wrFld_ne _ _ _ _ hfpl]
      split
      exacts [rd_setFlag_ne _ _ hfpl, rfl]
    · rfl
  split
  · exact heval _
  · exact (heval _).trans (hplan _)

/-- What the end of a test shows in a register of the TST block, but for the flag of failed blocks. -/
theorem rd_testShown {s : State} {f : BistFind} (same : Bool) {o : Nat} (ho : o < 0x100000)
    (hne : tstReg o ≠ tstReg Reg.TST_ERR_FLAGS) : (s.testShown f same).rd (tstReg o) =
      ((((s.wrFld (tstReg Reg.TST_STATUS) 31 30 1).bump (tstReg Reg.TST_RUNS) 1).wr (tstReg Reg.TST_FAIL_COUNT)
        (BitVec.ofNat 32 f.bad.length)).wr (tstReg Reg.TST_LAST_US) (BitVec.ofNat 32 f.us)).rd (tstReg o) := by
  refine (showPlan_degraded_rd _ same ?_).trans ?_
  · simp only [tstReg, regKey, blockBase]
    omega
  · split
    exacts [rfl, rd_setFlag_ne _ _ hne]

theorem testShown_test (s : State) (f : BistFind) (same : Bool) : (s.testShown f same).test = s.test := by
  have hplan {u : State} : (if same then u.showPlan.evalDegraded else u.showPlan.planChanged.evalDegraded).test = u.test :=
    (BootFrame.ite (BootFrame.refl u).showPlan.evalDegraded (BootFrame.refl u).showPlan.planChanged.evalDegraded).test
  refine hplan.trans ?_
  split
  · rw [wr_test, wr_test, bump_eq, wr_test, wrFld_eq, wr_test]
  · rw [setFlag_eq, wr_test, wr_test, wr_test, bump_eq, wr_test, wrFld_eq, wr_test]

/-- Settles O20: a command with no cause against it starts the test, one with a cause shows it, and the end shows the
results. -/
theorem commandedTestsComplete : Obligations.CommandedTestsComplete := by
  have start (op : Nat) (die : Bool) (target : Fin 64) (s : State) (h : s.testCause op die target = 0) :
      Completes (s.testStart false op die target) fun t => t.test = some ⟨op, die, target⟩ ∧ t.mem = s.mem :=
    ⟨_, rfl, testCmd_starts h⟩
  refine ⟨start 1, start 2, start 3, fun die target s h => ?_, fun f r s h hus => ?_⟩
  · show Completes (.next (s.testCmd 1 die target)) _
    rw [testCmd_refused h]
    refine ⟨_, rfl, ((OnlyRegs.wr s _ _ (by simp)).trans (.wr _ _ _ (by simp))).trans (.wr _ _ _ (by simp)), ?_,
      rbit_setFlag_same _ _ _ (by decide)⟩
    rw [fld_setFlag_ne _ _ _ _ (by decide), fld_wrFld_low _ _ _ (by decide) (by decide) (by decide)]
    have := testCause_lt s 1 target die
    omega
  · obtain ⟨u, same, hu, he⟩ := execBistDone_shows h hus
    rw [he]
    refine ⟨_, rfl, (testShown_test u f same).trans hu, ?_, ?_, ?_⟩
    · rw [State.fld, State.rdN, rd_testShown same (by decide) (by decide), rd_wr_ne _ _ (by decide), rd_wr_ne _ _ (by decide),
        rd_bump_ne _ _ (by decide)]
      exact fld_wrFld_same u (tstReg Reg.TST_STATUS) 31 30 1 (by decide) (by decide)
    · rw [rd_testShown same (by decide) (by decide), rd_wr_same]
    · rw [rd_testShown same (by decide) (by decide), rd_wr_ne _ _ (by decide), rd_wr_same]

end Sys2Proof.Machine
end

section
set_option Elab.async false
/-! SUPPORT. Bring-up: what its phases, deadlines and points leave and show (R315, R319, R360 to R362). -/

namespace Sys2Proof.Machine

variable {s₀ s t u : State}

/-! ### Measurements and the security module (R381, R384, R386) -/

theorem length_natBytes (n x : Nat) : (natBytes n x).length = n := by
  induction n generalizing x with
  | zero => rfl
  | succ n ih => simp [natBytes, ih]

theorem length_shaBlocks (n : Nat) (h : List (BitVec 64)) (m : List Byte) (hh : h.length = 8) :
    (shaBlocks n h m).length = 8 := by
  induction n generalizing h m with
  | zero => exact hh
  | succ n ih => exact ih _ _ (by simp [shaBlock, ShaState.list, hh])

theorem length_sha512 (m : List Byte) : (sha512 m).length = 64 := by
  have h8 := length_shaBlocks ((shaPad m).length / 128) (shaH.map (BitVec.ofNat 64)) (shaPad m) rfl
  simp [sha512, List.length_flatMap, length_natBytes, h8]

namespace BootFrame

theorem secFlag {i} (h : BootFrame s₀ s) : BootFrame s₀ (s.secFlag i) := h.setFlag.bump

theorem setSecState {v} (h : BootFrame s₀ s) : BootFrame s₀ (s.setSecState v) := h.wrFld

theorem setStore {v} (h : BootFrame s₀ s) : BootFrame s₀ (s.setStore v) := h.frame

theorem now (h : BootFrame s₀ s) : BootFrame s₀ s.now.2 := by
  unfold State.now
  exact .ite_snd h.frame h

/-- Bytes written from an offset of the security block that stay within it. -/
theorem wrSecBytes {o : Nat} {bs : List Byte} (h : BootFrame s₀ s) (ho : o + bs.length ≤ 0x100000) :
    BootFrame s₀ (s.wrBytes (secReg o) bs) := by
  refine h.eachMem fun w hw h => h.wr ?_
  have hw := List.mem_range.1 hw
  rw [show secReg o + 4 * w = secReg (o + 4 * w) from Nat.add_assoc ..]
  exact bootFree_secReg (by omega)

theorem extend {r kind d info} (h : BootFrame s₀ s) (hr : r < 16 := by decide) : BootFrame s₀ (s.extend r kind d info) := by
  unfold State.extend
  extract_lets +onlyGivenNames r₁ n
  have h₁ : BootFrame s₀ r₁ := h.wrSecBytes (by
    rw [length_sha512]
    simp only [Reg.SEC_MREG]
    omega)
  split
  · exact h₁.secFlag
  · next hn =>
    have h₂ {bs : List Byte} (hbs : bs.length = 128) {v : Word} :
        BootFrame s₀ ((r₁.now.2.wrBytes (secReg (Reg.SEC_LOG + 0x80 * n)) bs).wr (secReg Reg.SEC_LOG_ENTRIES) v) :=
      (h₁.now.wrSecBytes (by
        rw [hbs]
        simp only [Reg.SEC_LOG]
        omega)).wr
    refine .ite (h₂ ?_).frame (h₂ ?_) <;>
    · simp only [List.length_append, length_natBytes, List.length_take, List.length_replicate]
      split <;> simp <;> omega

theorem verifyTimed (h : BootFrame s₀ s) : BootFrame s₀ s.verifyTimed :=
  .wrMax (s := { s with free := s.free + 1 }) h.frame

theorem verifyImage {type img} (h : BootFrame s₀ s) : BootFrame s₀ (s.verifyImage type img).2 :=
  .ite_snd h (.ite_snd (.ite h.secFlag h) (.ite_snd h.verifyTimed (.ite_snd h.verifyTimed (.ite_snd
    h.verifyTimed.secFlag (.ite_snd h.verifyTimed.now.secFlag (.ite_snd h.verifyTimed.now h.verifyTimed.now))))))

theorem bankGood {b} (h : BootFrame s₀ s) : BootFrame s₀ (s.bankGood b).2 :=
  h.verifyImage.verifyImage.verifyImage

theorem bankFound {b c : Nat} (h : BootFrame s₀ s) :
    BootFrame s₀ (if (s.bankGood b).1 then s.bankGood b else ((s.bankGood b).2.secFlag 8).bankGood c).2 :=
  .ite_snd h.bankGood h.bankGood.secFlag.bankGood

theorem finishTransfer {req} (h : BootFrame s₀ s) : BootFrame s₀ (s.finishTransfer req) := h.setStore.extend

theorem secError {flag} (h : BootFrame s₀ s) : BootFrame s₀ (s.secError flag) := h.secFlag.setSecState

theorem unsealed {e} (h : BootFrame s₀ s) : BootFrame s₀ (s.unsealed e) := by
  have h : BootFrame s₀ (s.setStore (s.secStore.found e.1 (openSealed e.2))) := h.setStore
  unfold State.unsealed
  refine .ite h ?_
  split
  exacts [h.secFlag, h.secFlag, h.secFlag, h.secFlag, h]

/-! ### What the phases do -/

theorem startClock (h : BootFrame s₀ s) : BootFrame s₀ s.startClock := .ite h.wrFld.wrFld h.wrFld.wrFld.setFlag

theorem readFuses (h : BootFrame s₀ s) : BootFrame s₀ s.readFuses := by
  unfold State.readFuses
  refine .each (.ite (.setFlag h.frame) h.frame) fun h => ?_
  dsimp only
  split
  exacts [h.frame, h.frame, h.setChanState, h]

theorem reportShutdown (h : BootFrame s₀ s) : BootFrame s₀ s.reportShutdown := .ite h h.wr.setFlag.bump

theorem phaseUnits {n f} (h : BootFrame s₀ s) : BootFrame s₀ (s.phaseUnits n f) := h.putSigs.each .bootFail

theorem setLink {p v} (h : BootFrame s₀ s) : BootFrame s₀ (s.setLink p v) := h.frame

theorem portStart {p} (h : BootFrame s₀ s) : BootFrame s₀ (s.portStart p) :=
  .wrFld (.wrFld (.setLink (h.each fun h => (h.wrFld (bootFree_lnkReg _ _)).wrFld (bootFree_lnkReg _ _)))
    (bootFree_lnkReg _ _)) (bootFree_lnkReg _ _)

theorem initialSet (h : BootFrame s₀ s) : BootFrame s₀ s.initialSet :=
  .each ((h.wr (bootFree_setKey _ _)).each fun h => h.wr (bootFree_setKey _ _)) fun h =>
    h.wr64 (bootFree_setKey _ _) (bootFree_setKey _ (_ + 4))

end BootFrame

/-- A phase that ends is shown, with its time. -/
theorem phaseEnds_shown (s : State) {n : Nat} (us : Nat) (h0 : 0 < n) (h5 : n ≤ 5) : let t := s.phaseEnds n us
    t.bootPhase = n ∧ t.rd (tstReg (0x20 + 4 * n)) = BitVec.ofNat 32 us ∧ t.plan = s.plan ∧ t.isReady = s.isReady := by
  have hne : tstReg Reg.TST_BOOT_PHASE ≠ tstReg (0x20 + 4 * n) := regKey_ne (by simp only [Reg.TST_BOOT_PHASE]; omega)
  have hst {o : Nat} : hifReg Reg.HIF_STATUS ≠ tstReg o := by
    simp only [hifReg, tstReg, regKey, blockBase, Reg.HIF_STATUS]
    omega
  refine ⟨?_, rd_wr_same .., ?_, ?_⟩
  · exact (fld_wr_ne _ _ _ _ hne).trans ((fld_wrFld_same _ _ _ _ _ (by decide) (by decide)).trans (by omega))
  · rw [State.phaseEnds, wr_plan, wrFld_eq, wr_plan]
  · exact (rbit_wr_ne _ _ _ hst).trans (rbit_wrFld_ne _ _ _ _ _ hst)

/-- A phase has ended as the n-th, and neither stops bring-up nor makes the module ready. -/
structure PhaseEnded (s t : State) (n us : Nat) : Prop where
  number : t.bootPhase = n
  time : t.rd (tstReg (0x20 + 4 * n)) = BitVec.ofNat 32 us
  stopped : t.plan.stopped = s.plan.stopped
  ready : t.isReady = s.isReady

theorem PhaseEnded.of_kept {n us : Nat} (hs : t.plan.stopped = s.plan.stopped) (hr : t.isReady = s.isReady)
    (h0 : 0 < n := by decide) (h5 : n ≤ 5 := by decide) : PhaseEnded s (t.phaseEnds n us) n us := by
  obtain ⟨hn, ht, hp, hr'⟩ := phaseEnds_shown t us h0 h5
  exact ⟨hn, ht, (congrArg Plan.stopped hp).trans hs, hr'.trans hr⟩

theorem PhaseEnded.of_frame {n us : Nat} (h : BootFrame s t) (h0 : 0 < n := by decide) (h5 : n ≤ 5 := by decide) :
    PhaseEnded s (t.phaseEnds n us) n us := .of_kept h.stopped h.ready h0 h5

/-- Phase 1 has ended, or bring-up has stopped. -/
def Phase1Over (s : State) (us : Nat) (t : State) : Prop :=
  t.isReady = s.isReady ∧ (t.plan.stopped = false → PhaseEnded s t 1 us)

theorem Phase1Over.ite {us : Nat} {c : Prop} [Decidable c] (ht : Phase1Over s us t) (hu : Phase1Over s us u) :
    Phase1Over s us (if c then t else u) := by
  split <;> assumption

theorem Phase1Over.halt {us : Nat} (h : BootFrame s u) :
    Phase1Over s us { u with plan := { u.plan with stopped := true } } := ⟨h.ready, nofun⟩

theorem Phase1Over.ends {us : Nat} (h : BootFrame s u) : Phase1Over s us (u.phaseEnds 1 us) :=
  have hend : PhaseEnded s (u.phaseEnds 1 us) 1 us := .of_frame h
  ⟨hend.ready, fun _ => hend⟩

theorem phase1_over (s : State) (f : PhaseFind) : Phase1Over s f.us (s.phase1 f) := by
  have h := (BootFrame.refl s).startClock.readFuses.reportShutdown
  have hu : BootFrame s (s.startClock.readFuses.reportShutdown.each f.seals State.unsealed) := h.each .unsealed
  unfold State.phase1
  refine .ite (.halt (.setSecState (.ite h.secError h))) (.ite (.halt h.secError)
    (.ite (.halt hu.bankFound.secError) (.ends (.setSecState ?_))))
  split
  exacts [hu.bankFound.wrFld.extend.finishTransfer, hu.bankFound.wrFld.extend]

theorem phase2_ends (s : State) (f : PhaseFind) : PhaseEnded s (s.phase2 f) 2 f.us := by
  have h := BootFrame.refl s
  unfold State.phase2
  extract_lets +onlyGivenNames _ r₁ r₂ r₃ r₄ r₅ r₆
  have h₂ : BootFrame s r₂ := .each (s := r₁) h.frame fun h => .ite h.setChanState h
  have h₄ : BootFrame s r₄ := (h₂.each fun h => h.bootFail.frame).each fun h => h.bootFail.frame
  have h₆ : BootFrame s r₆ := (h₄.each fun h => h.wrFld (bootFree_lnkReg _ _)).eachMem fun d hd h =>
    h.wrFld (bootFree_pwrDie _ (List.mem_range.1 hd))
  clear_value r₆
  exact .of_frame (.putSigs (.each (.ite h₆ (.note h₆.frame)) .loadDelays))

/-- The slices whose test is cut are noted, or none is cut (R361). -/
def State.sliceCut (s : State) (f : PhaseFind) (cut : Bool) : State :=
  if cut then { s with plan := { s.plan with slices := f.slices.map (·.val) } } else s

/-- A cut test is flagged late. -/
def State.cutLate (s : State) (f : PhaseFind) (cut : Bool) : State :=
  if cut ∧ (f.chansLate ∨ f.slices ≠ []) then s.wrFld (tstReg Reg.TST_BOOT_PHASE) 18 18 1 else s

theorem phase3_eq (s : State) (f : PhaseFind) (cut : Bool) :
    s.phase3 f cut = (((s.phaseUnits 3 f).sliceCut f cut).cutLate f cut).phaseEnds 3 f.us := rfl

theorem wrFld_tst_ready (o hi lo v : Nat) : (s.wrFld (tstReg o) hi lo v).isReady = s.isReady :=
  rbit_wrFld_ne _ _ _ _ _ (by simp only [hifReg, tstReg, regKey, blockBase, Reg.HIF_STATUS]; omega)

theorem cutLate_plan (s : State) (f : PhaseFind) (cut : Bool) : (s.cutLate f cut).plan = s.plan := by
  unfold State.cutLate
  split
  · rw [wrFld_eq, wr_plan]
  · rfl

theorem cutLate_ready (s : State) (f : PhaseFind) (cut : Bool) : (s.cutLate f cut).isReady = s.isReady := by
  unfold State.cutLate
  split
  exacts [wrFld_tst_ready .., rfl]

theorem phase3_ends (s : State) (f : PhaseFind) (cut : Bool) : PhaseEnded s (s.phase3 f cut) 3 f.us := by
  have h := (BootFrame.refl s).phaseUnits (n := 3) (f := f)
  have hv : BootFrame s ((s.phaseUnits 3 f).sliceCut f cut) := .ite h.frame h
  rw [phase3_eq]
  exact .of_kept ((congrArg Plan.stopped (cutLate_plan ..)).trans hv.stopped) ((cutLate_ready ..).trans hv.ready)

theorem phase4_ends (s : State) (f : PhaseFind) : PhaseEnded s (s.phase4 f) 4 f.us :=
  .of_frame ((BootFrame.refl s).phaseUnits.each fun h => (h.wrFld (bootFree_lnkReg _ _)).portStart)

/-- The ready point leaves what the phases show, and makes the module ready. -/
theorem ready_over (s : State) (f : PhaseFind) : (s.ready f).isReady = true ∧
    (s.ready f).plan.stopped = s.plan.stopped ∧ ∀ k, tstReg 0x14 ≤ k → k ≤ tstReg 0x34 → (s.ready f).rd k = s.rd k := by
  unfold State.ready
  extract_lets +onlyGivenNames x bank hdrs r₁ r₂ r₃ r₄
  have h₃ : BootFrame s r₃ := (BootFrame.refl s).extend.initialSet.wr
  clear_value r₃
  have h₄ : r₄.isReady = true ∧ r₄.plan.stopped = s.plan.stopped ∧
      ∀ k, tstReg 0x14 ≤ k → k ≤ tstReg 0x34 → r₄.rd k = s.rd k := by
    refine ⟨(rbit_wrFld _ _ _ _ _ _ le_rfl (by decide)).trans rfl, ?_, fun k h1 h2 => ?_⟩
    · exact (congrArg Plan.stopped (wr_plan ..)).trans h₃.stopped
    · refine (rd_wrFld_ne _ _ _ _ ?_).trans (h₃.shown k h1 h2)
      simp only [hifReg, tstReg, regKey, blockBase, Reg.HIF_STATUS] at *
      omega
  clear_value r₄
  extract_lets +onlyGivenNames r₅ r₆ r₇ r₈ r₉ r₁₀
  have h₉ : BootFrame r₄ r₉ :=
    (BootFrame.refl r₄).wrStatus.wr.writeCounts.showPlan.evalDegraded.checkOverflow.wrFld.each .note
  have h₁₀ : BootFrame r₄ r₁₀ := h₉.each fun h => .ite h.emit h
  clear_value r₁₀
  obtain ⟨hready, hstopped, hshown⟩ := h₄
  extract_lets +onlyGivenNames r₁₁ v r₁₂ r₁₃
  have h₁₁ : BootFrame r₄ r₁₁ := h₁₀.setStore
  have h₁₂ : BootFrame r₄ r₁₂ := h₁₁.frame
  have h : BootFrame r₄ r₁₃.showScale.tierCheck := .tierCheck (.wrFld (.wrFld
    (h₁₂.eachMem fun d hd h => h.wr (bootFree_pwrDie _ (List.mem_range.1 hd)))))
  exact ⟨h.ready.trans hready, h.stopped.trans hstopped, fun k h1 h2 => (h.shown k h1 h2).trans (hshown k h1 h2)⟩

theorem phase5_ends (s : State) (f : PhaseFind) : (s.phase5 f).isReady = true ∧
    (s.phase5 f).plan.stopped = s.plan.stopped ∧ (s.phase5 f).bootPhase = 5 ∧
    (s.phase5 f).rd (tstReg 0x34) = BitVec.ofNat 32 f.us := by
  unfold State.phase5
  extract_lets +onlyGivenNames bank r₁ r₂ r₃ r₄ r₅
  have h₅ : BootFrame s r₅ := .frame (s := r₄)
    (((BootFrame.refl s).extend.extend.each fun h => h.bump (bootFree_seq _ _)).each .bootFail)
  clear_value r₅
  have hend : PhaseEnded s ((r₅.phaseUnits 5 f).phaseEnds 5 f.us) 5 f.us := .of_frame h₅.phaseUnits
  obtain ⟨hready, hstopped, hshown⟩ := ready_over ((r₅.phaseUnits 5 f).phaseEnds 5 f.us) f
  refine ⟨hready, hstopped.trans hend.stopped, ?_, (hshown _ (by decide) (by decide)).trans hend.time⟩
  rw [State.bootPhase, State.fld, State.rdN, hshown (regKey .tst Reg.TST_BOOT_PHASE) (by decide) (by decide)]
  exact hend.number

/-! ### Training -/

theorem drcCh_ne {c c' : Nat} (hc : c < 64) (hc' : c' < 64) (h : c' ≠ c) (o : Nat) : drcCh c' o ≠ drcCh c o := by
  simp only [drcCh, regKey, blockBase, Fin.val_ofNat]
  omega

theorem chanState_setChanState {c c' v : Nat} (hc : c < 64) (hc' : c' < 64) (hv : v < 16) :
    (s.setChanState c v).chanState c' = if c' = c then v else s.chanState c' := by
  split
  · next h =>
    subst h
    exact (fld_wrFld_same _ _ _ _ _ (by decide) (by decide)).trans (Nat.mod_eq_of_lt hv)
  · next h => exact fld_wrFld_ne _ _ _ _ _ _ (drcCh_ne hc hc' h _)

/-- Every channel of a list moves to a state. -/
theorem chanState_each {v : Nat} (hv : v < 16) (cs : List Nat) (hcs : ∀ c ∈ cs, c < 64) (s : State) {c : Nat} (hc : c < 64) :
    (s.each cs fun s c => s.setChanState c v).chanState c = if c ∈ cs then v else s.chanState c := by
  induction cs generalizing s with
  | nil => rfl
  | cons c' cs ih =>
    rw [each_cons, ih (fun x hx => hcs x (List.mem_cons_of_mem _ hx)), chanState_setChanState (hcs c' List.mem_cons_self) hc hv]
    by_cases h1 : c ∈ cs <;> by_cases h2 : c = c' <;> simp [h1, h2]

/-- Where training has not started yet, every pending channel starts it. -/
theorem startTraining_starts (s : State) (h : s.plan.trained = false) : s.startTraining.plan.trained = true ∧
    (∀ c < 64, s.startTraining.chanState c = if s.chanState c = 2 then 3 else s.chanState c) ∧
    OnlyRegs { s with plan := { s.plan with trained := true } } s.startTraining
      ((List.range 64).map fun c => drcCh c Reg.DRC_CH_STATE) := by
  have he : s.startTraining = ({ s with plan := { s.plan with trained := true } } : State).each
      ((List.range 64).filter fun c => s.chanState c == 2) fun s c => s.setChanState c 3 := if_neg (by simp [h])
  have honly : OnlyRegs { s with plan := { s.plan with trained := true } } s.startTraining
      ((List.range 64).map fun c => drcCh c Reg.DRC_CH_STATE) := by
    rw [he]
    exact .each _ fun c hc t => .wr _ _ _ (List.mem_map_of_mem (f := fun c => drcCh c Reg.DRC_CH_STATE)
      (List.mem_filter.1 hc).1)
  refine ⟨(congrArg (fun t : State => t.plan.trained) honly.1).trans rfl, fun c hc => ?_, honly⟩
  rw [he, chanState_each (by decide) _ (fun x hx => List.mem_range.1 (List.mem_filter.1 hx).1) _ hc]
  simp only [List.mem_filter, List.mem_range, hc, true_and, beq_iff_eq]
  rfl

theorem startTraining_again (s : State) (h : s.plan.trained = true) : s.startTraining = s := if_pos h

/-- Training that starts is that of the plan and of channels' registers. -/
theorem startTraining_frame (s : State) : s.startTraining.plan.trained = true ∧
    s.startTraining = { s with plan := { s.plan with trained := true }, regs := s.startTraining.regs } ∧
    RegsKept s s.startTraining ((List.range 64).map fun c => drcCh c Reg.DRC_CH_STATE) := by
  cases h : s.plan.trained with
  | false =>
    obtain ⟨ht, -, hframe, hregs⟩ := startTraining_starts s h
    exact ⟨ht, hframe, hregs⟩
  | true =>
    rw [startTraining_again s h]
    exact ⟨h, by rw [← h], fun _ _ => rfl⟩

/-! ### The statements -/

theorem bringing_of (hheld : s.board.held = false) (hstop : s.plan.stopped = false) (hrec : s.inRecovery = false)
    (h5 : s.bootPhase < 5) : s.bringing = true := by
  simp [State.bringing, hheld, hstop, hrec, h5]

theorem bringing_iff : s.bringing = true ↔
    s.board.held = false ∧ s.plan.stopped = false ∧ s.inRecovery = false ∧ s.bootPhase < 5 := by
  simp [State.bringing, and_assoc]

theorem execBringupPhaseEnd_next {f : PhaseFind} (h : s.bringing = true) : exec (.bringupPhaseEnd f) s =
    .next (match s.bootPhase with
      | 0 => s.phase1 f
      | 1 => s.phase2 f
      | 2 => s.phase3 f false
      | 3 => s.phase4 f
      | _ => s.phase5 f) := if_neg (by simp [h])

/-- The phase under way ends. -/
theorem bringupPhaseEnd_ends (f : PhaseFind) (s : State) (h : s.bringing = true) :
    ∃ t, exec (.bringupPhaseEnd f) s = .next t ∧
      (t.plan.stopped = false → t.bootPhase = s.bootPhase + 1 ∧
        t.rd (tstReg (0x20 + 4 * (s.bootPhase + 1))) = BitVec.ofNat 32 f.us) ∧
      (s.bootPhase ≠ 0 → t.plan.stopped = false) ∧ (s.bootPhase = 4 → t.isReady = true) ∧
      (s.bootPhase ≠ 4 → t.isReady = s.isReady) := by
  obtain ⟨-, hstop, -, h5⟩ := bringing_iff.1 h
  refine ⟨_, execBringupPhaseEnd_next h, ?_⟩
  have phase {n : Nat} {t : State} (ht : PhaseEnded s t (n + 1) f.us) (hn : n < 4) :
      (t.plan.stopped = false → t.bootPhase = n + 1 ∧ t.rd (tstReg (0x20 + 4 * (n + 1))) = BitVec.ofNat 32 f.us) ∧
      (n ≠ 0 → t.plan.stopped = false) ∧ (n = 4 → t.isReady = true) ∧ (n ≠ 4 → t.isReady = s.isReady) :=
    ⟨fun _ => ⟨ht.number, ht.time⟩, fun _ => ht.stopped.trans hstop, fun h => absurd h (by omega), fun _ => ht.ready⟩
  split
  case h_1 h0 =>
    obtain ⟨hready, hend⟩ := phase1_over s f
    rw [h0]
    exact ⟨fun hs => ⟨(hend hs).number, (hend hs).time⟩, fun h => absurd rfl h, fun h => absurd h (by decide), fun _ => hready⟩
  case h_2 h1 => exact h1 ▸ phase (phase2_ends s f) (by decide)
  case h_3 h2 => exact h2 ▸ phase (phase3_ends s f false) (by decide)
  case h_4 h3 => exact h3 ▸ phase (phase4_ends s f) (by decide)
  case h_5 h0 h1 h2 h3 =>
    obtain ⟨hready, hs, hn, ht⟩ := phase5_ends s f
    have h4 : s.bootPhase = 4 := by
      simp only [imp_false] at h0 h1 h2 h3
      omega
    rw [h4]
    exact ⟨fun _ => ⟨hn, ht⟩, fun _ => hs.trans hstop, fun _ => hready, fun h => absurd rfl h⟩

/-- A deadline that a phase misses is flagged. -/
theorem phaseDeadline_late (n : Fin 5) (f : PhaseFind) (s : State) (hheld : s.board.held = false)
    (hrec : s.inRecovery = false) (hle : s.bootPhase ≤ n.val)
    (h : n.val ≠ 2 ∨ s.plan.stopped = true ∨ s.bootPhase ≠ 2) :
    Completes (exec (.phaseDeadline n f) s) fun t => t.rbit (tstReg Reg.TST_BOOT_PHASE) (16 + n) = true ∧
      OnlyRegs s t [tstReg Reg.TST_BOOT_PHASE] ∧ t.bootPhase = s.bootPhase := by
  have he : exec (.phaseDeadline n f) s = .next (s.wrFld (tstReg Reg.TST_BOOT_PHASE) (16 + n) (16 + n) 1) := by
    refine (if_neg (by simp [hheld, hrec]; omega)).trans (if_neg ?_)
    rintro ⟨hn, hb, h2⟩
    obtain ⟨-, hstop, -⟩ := bringing_iff.1 hb
    rcases h with h | h | h
    exacts [h hn, Bool.false_ne_true (hstop.symm.trans h), h h2]
  refine ⟨_, he, ?_, .wr s _ _ List.mem_cons_self, ?_⟩
  · rw [rbit_wrFld _ _ _ _ _ _ le_rfl (by omega), if_pos ⟨le_rfl, le_rfl⟩, Nat.sub_self]
    rfl
  · exact fld_wrFld_other _ _ _ _ _ _ _ le_rfl (by omega) (by decide) (by omega)

/-- At 17 ms phase 3 ends with its test cut to the slices done. -/
theorem phaseDeadline_cut (f : PhaseFind) (s : State) (h : s.bringing = true) (h2 : s.bootPhase = 2) :
    exec (.phaseDeadline 2 f) s = .next (s.phase3 f true) := by
  obtain ⟨hheld, -, hrec, -⟩ := bringing_iff.1 h
  exact (if_neg (by simp [hheld, hrec, h2])).trans (if_pos ⟨rfl, h, h2⟩)

theorem phase3_cut_slices (s : State) (f : PhaseFind) : (s.phase3 f true).plan.slices = f.slices.map (·.val) := by
  rw [phase3_eq]
  obtain ⟨-, -, hp, -⟩ := phaseEnds_shown (((s.phaseUnits 3 f).sliceCut f true).cutLate f true) (n := 3) f.us (by decide)
    (by decide)
  rw [hp, cutLate_plan]
  rfl

theorem phase3_cut_late (s : State) (f : PhaseFind) (h : f.chansLate = true) :
    (s.phase3 f true).rbit (tstReg Reg.TST_BOOT_PHASE) 18 = true := by
  rw [phase3_eq, State.phaseEnds, rbit_wr_ne _ _ _ (by decide), rbit_wrFld _ _ _ _ _ _ (by decide) (by decide),
    if_neg (by decide), State.cutLate, if_pos ⟨rfl, .inl h⟩, rbit_wrFld _ _ _ _ _ _ le_rfl (by decide)]
  rfl

/-- At 900 ms without ready the module is in recovery. -/
theorem recoveryPoint_over (s : State) (hheld : s.board.held = false) (h : s.isReady = false) :
    Completes (exec .recoveryPoint s) fun t => t.inRecovery = true ∧ t.isReady = false ∧
      t.rbit (tstReg Reg.TST_BOOT_PHASE) 31 = true ∧
      OnlyRegs s t [hifReg Reg.HIF_STATUS, tstReg Reg.TST_BOOT_PHASE] := by
  refine ⟨_, if_neg (by simp [hheld, h]), ?_, ?_, ?_, (OnlyRegs.wr s _ _ (by simp)).trans (.wr _ _ _ (by simp))⟩
  · exact (rbit_wrFld_ne _ _ _ _ _ (by decide)).trans ((rbit_wrFld _ _ _ _ _ _ le_rfl (by decide)).trans rfl)
  · exact (wrFld_tst_ready ..).trans ((rbit_wrFld _ _ _ _ _ _ le_rfl (by decide)).trans h)
  · exact (rbit_wrFld _ _ _ _ _ _ le_rfl (by decide)).trans rfl

/-- A link that reaches L0 is up with its speed and width, and training starts. -/
theorem pcieLinkUp_up (l : Fin 2) (speed : Fin 8) (width : Fin 5) (s : State) (hdown : s.linkUp l = false) (hs : speed ≠ 0)
    (hb : l = 1 → s.rbit (hifReg Reg.HIF_STATUS) 28 = true) (hw : s.rbit (hifReg Reg.HIF_STATUS) 28 = true → width.val ≤ 3)
    (hheld : s.board.held = false) (he : s.edgeReach 0 = true) (hp : 3 ≤ s.bootPhase ∨ s.inRecovery = true) :
    exec (.pcieLinkUp l speed width) s = .next (s.wrFld (hifReg Reg.HIF_LINK_STATUS) (8 * l + 7) (8 * l)
      (128 + speed * 16 + width)).startTraining := by
  refine if_neg ?_
  have hs' : (speed.val == 0) = false := by simpa using fun h => hs (Fin.ext h)
  have hb' : (l.val == 1 && !s.rbit (hifReg Reg.HIF_STATUS) 28) = false := by
    by_cases h : l = 1
    · simp [hb h]
    · have : l.val ≠ 1 := fun h' => h (Fin.ext h')
      simp [this]
  have hw' : (s.rbit (hifReg Reg.HIF_STATUS) 28 && decide (3 < width.val)) = false := by
    cases h : s.rbit (hifReg Reg.HIF_STATUS) 28 with
    | false => rfl
    | true => simpa using hw h
  have hp' : (decide (3 ≤ s.bootPhase) || s.inRecovery) = true := by simpa using hp
  rw [hdown, hs', hb', hw', hheld, he, hp']
  decide

/-- A field within the one that was written reads that part of what was written. -/
theorem fld_wrFld_within (s : State) (k : Nat) {hi lo hi' lo' : Nat} (v : Nat) (h : lo ≤ lo') (h' : lo' ≤ hi')
    (h'' : hi' ≤ hi) (h2 : hi < 32) : (s.wrFld k hi lo v).fld k hi' lo' = bitsOf v (hi' - lo) (lo' - lo) := by
  rw [State.fld, rdN_wrFld_same _ _ _ _ _ (by omega) h2]
  apply Nat.eq_of_testBit_eq
  intro i
  rw [bitsOf_testBit, bitsOf_testBit, testBit_putBits _ _ _ _ _ (by omega)]
  by_cases hi : i < hi' - lo' + 1
  · rw [if_pos (by omega), Nat.add_sub_assoc h, show hi' - lo - (lo' - lo) = hi' - lo' by omega]
  · simp [show ¬ i < hi' - lo - (lo' - lo) + 1 by omega, hi]

/-- What the status of the links shows of a link that has reached L0. -/
theorem linkStatus_up (s : State) (l : Fin 2) (speed : Fin 8) (width : Fin 5) :
    let t := s.wrFld (hifReg Reg.HIF_LINK_STATUS) (8 * l + 7) (8 * l) (128 + speed * 16 + width)
    t.linkUp l = true ∧ t.linkUp (1 - l) = s.linkUp (1 - l) ∧
    t.fld (hifReg Reg.HIF_LINK_STATUS) (8 * l + 6) (8 * l + 4) = speed ∧
    t.fld (hifReg Reg.HIF_LINK_STATUS) (8 * l + 3) (8 * l) = width := by
  have hbits : (128 + speed.val * 16 + width.val).testBit 7 = true ∧ bitsOf (128 + speed.val * 16 + width.val) 6 4 = speed ∧
      bitsOf (128 + speed.val * 16 + width.val) 3 0 = width := by decide +revert
  obtain ⟨hup, hspeed, hwidth⟩ := hbits
  have hl : l.val < 2 := l.isLt
  refine ⟨?_, ?_, ?_, ?_⟩
  · rw [State.linkUp, rbit_wrFld _ _ _ _ _ _ (by omega) (by omega), if_pos (by omega), Nat.add_sub_cancel_left, hup]
  · rw [State.linkUp, rbit_wrFld _ _ _ _ _ _ (by omega) (by omega), if_neg (by omega), State.linkUp]
  · rw [fld_wrFld_within _ _ _ (by omega) (by omega) (by omega) (by omega), Nat.add_sub_cancel_left, Nat.add_sub_cancel_left,
      hspeed]
  · rw [fld_wrFld_within _ _ _ (by omega) (by omega) (by omega) (by omega), Nat.add_sub_cancel_left, Nat.sub_self, hwidth]

/-- Training that starts leaves the status of the links. -/
theorem startTraining_rd (s : State) {o : Nat} (ho : o < 0x1000) : s.startTraining.rd (hifReg o) = s.rd (hifReg o) := by
  refine (startTraining_frame s).2.2 _ fun h => ?_
  obtain ⟨c, -, hc⟩ := List.mem_map.1 h
  simp only [drcCh, hifReg, regKey, blockBase] at hc
  omega

/-- Settles O59: each event by the state it comes to, and what that state shows. -/
theorem bringUpEventsComplete : Obligations.BringUpEventsComplete := by
  refine ⟨fun f s hheld hstop hrec h5 => bringupPhaseEnd_ends f s (bringing_of hheld hstop hrec h5),
    fun n f s hheld hrec hle => ?_, fun s hheld h => recoveryPoint_over s hheld h, fun s hheld => ?_,
    fun l speed width s hdown hs hb hw hheld he hp => ?_⟩
  · by_cases h : n.val ≠ 2 ∨ s.plan.stopped = true ∨ s.bootPhase ≠ 2
    · obtain ⟨t, ht, hlate⟩ := phaseDeadline_late n f s hheld hrec hle h
      refine ⟨t, ht, fun hn hstop h2 => ?_, fun _ => hlate⟩
      rcases h with h | h | h
      exacts [absurd hn h, absurd (hstop.symm.trans h) Bool.false_ne_true, absurd h2 h]
    · have hn : n = 2 := Fin.ext (by simpa using not_or.1 h |>.1)
      simp only [not_or, not_not, Bool.not_eq_true] at h
      obtain ⟨-, hstop, h2⟩ := h
      subst hn
      refine ⟨_, phaseDeadline_cut f s (bringing_of hheld hstop hrec (by omega)) h2, fun _ _ _ =>
        ⟨(phase3_ends s f true).number, phase3_cut_slices s f⟩, fun h => ?_⟩
      rcases h with h | h | h
      exacts [absurd rfl h, absurd (hstop.symm.trans h) Bool.false_ne_true, absurd h2 h]
  · obtain ⟨ht, hframe, -⟩ := startTraining_frame s
    exact ⟨_, if_neg (by simp [hheld]), ht, startTraining_again s, fun h => (startTraining_starts s h).2.1, hframe⟩
  · rw [pcieLinkUp_up l speed width s hdown hs hb hw hheld he hp]
    obtain ⟨hup, hother, hspeed, hwidth⟩ := linkStatus_up s l speed width
    have hu : OnlyRegs s (s.wrFld (hifReg Reg.HIF_LINK_STATUS) (8 * l + 7) (8 * l) (128 + speed * 16 + width))
      [hifReg Reg.HIF_LINK_STATUS] := .wr s _ _ List.mem_cons_self
    generalize s.wrFld (hifReg Reg.HIF_LINK_STATUS) (8 * l + 7) (8 * l) (128 + speed * 16 + width) = u at *
    obtain ⟨r, rfl⟩ : ∃ r, u = { s with regs := r } := ⟨_, hu.1⟩
    generalize hr : ({ s with regs := r } : State) = u at *
    obtain ⟨htrained, hframe, -⟩ := startTraining_frame u
    have hrd := startTraining_rd u (o := Reg.HIF_LINK_STATUS) (by decide)
    have hchan (c : Nat) : u.chanState c = s.chanState c := by
      rw [State.chanState, State.fld, State.rdN, hu.2 (drcCh c Reg.DRC_CH_STATE) (by
        simp only [List.mem_singleton, drcCh, hifReg, regKey, blockBase, Reg.HIF_LINK_STATUS]
        omega)]
      rfl
    have hlink (i : Nat) : u.startTraining.linkUp i = u.linkUp i := by
      rw [State.linkUp, State.rbit, State.rdN, hrd]
      rfl
    have hfld (hi lo : Nat) : u.startTraining.fld (hifReg Reg.HIF_LINK_STATUS) hi lo =
        u.fld (hifReg Reg.HIF_LINK_STATUS) hi lo := by
      rw [State.fld, State.rdN, hrd]
      rfl
    refine ⟨_, rfl, (hlink l).trans hup, (hlink _).trans hother, (hfld _ _).trans hspeed, (hfld _ _).trans hwidth, htrained,
      fun h c hc => ?_, ?_⟩
    · rw [(startTraining_starts u (hr ▸ h)).2.1 c hc, hchan]
    · have hplan := congrArg State.plan hframe
      rw [hplan]
      exact hframe.trans (by rw [← hr])

/-- Settles O18: what the same events show of their phases, deadlines and channels. -/
theorem bringUpCompletes : Obligations.BringUpCompletes := by
  refine ⟨fun f s h => ?_, fun n f s hheld hrec hle hn => ?_, fun f s h h2 => ?_, fun s hheld h => ?_, fun s hheld h => ?_,
    fun speed width s hdown hs hw hheld he hp => ?_⟩
  · obtain ⟨t, ht, hend, hstop, hready, -⟩ := bringupPhaseEnd_ends f s h
    have next {n : Nat} (hn : s.bootPhase = n) (h0 : n ≠ 0) : t.bootPhase = n + 1 :=
      hn ▸ (hend (hstop (hn ▸ h0))).1
    exact ⟨t, ht, fun h1 => next h1 (by decide), fun h2 => next h2 (by decide), fun h3 => next h3 (by decide), hready,
      fun h0 hs => (hend hs).1.trans (by rw [h0])⟩
  · obtain ⟨t, ht, hbit, hregs, hphase⟩ := phaseDeadline_late n f s hheld hrec hle (.inl hn)
    exact ⟨t, ht, hregs, hbit, hphase⟩
  · exact ⟨_, phaseDeadline_cut f s h h2, (phase3_ends s f true).number, phase3_cut_late s f⟩
  · obtain ⟨t, ht, hrec, -, -, hregs⟩ := recoveryPoint_over s hheld h
    exact ⟨t, ht, hregs, hrec⟩
  · obtain ⟨ht, hchans, -⟩ := startTraining_starts s h
    exact ⟨_, if_neg (by simp [hheld]), ht, hchans⟩
  · obtain ⟨-, -, -, -, hlink⟩ := bringUpEventsComplete
    obtain ⟨t, ht, hup, hother, -, -, htrained, -⟩ := hlink 0 speed width s hdown hs (fun h => absurd h (by decide)) hw hheld he hp
    exact ⟨t, ht, hup, htrained, hother⟩

end Sys2Proof.Machine
end

section
set_option Elab.async false
/-! SUPPORT. Control sets: the check of the shadow, the copy of the active set, and the swap of the two (R341 to R349). -/

namespace Sys2Proof.Machine

variable {s t : State}

/-! ### The outcome of a check fits its register (R342) -/

theorem lowest_lt {n i : Nat} {bad : Nat → Bool} (h : lowest n bad = some i) : i < n :=
  List.mem_range.1 (List.mem_of_find?_eq_some h)

theorem reservations_idx_lt {set : Nat} {r : Reservation} (h : r ∈ s.reservations set) : r.idx < 4096 := by
  obtain ⟨i, hi, rfl⟩ := List.mem_map.1 h
  exact List.mem_range.1 (List.mem_filter.1 hi).1

theorem overLinks_mem {rs : List Reservation} {i : Nat} (h : overLinks rs = some i) : ∃ r ∈ rs, r.idx = i := by
  obtain ⟨x, hx, rfl⟩ := Option.map_eq_some_iff.1 h
  obtain ⟨r, hr, rfl⟩ := List.mem_map.1 (List.mem_of_find?_eq_some hx)
  exact ⟨r, hr, rfl⟩

/-- The entry a word belongs to stands no further than the word. -/
theorem reservedBits_entry_le (off : Nat) : (reservedBits off).2 ≤ off := by
  unfold reservedBits
  split_ifs <;> dsimp only <;> omega

/-- The least of a list, found by a fold, is one of the list. -/
theorem mem_of_foldl_min {xs : List Nat} {a : Option Nat} {m : Nat}
    (h : xs.foldl (fun a n => match a with | none => some n | some m => some (min m n)) a = some m) :
    m ∈ xs ∨ a = some m := by
  induction xs generalizing a with
  | nil => exact .inr h
  | cons x xs ih =>
    rcases ih h with hm | ha
    · exact .inl (List.mem_cons_of_mem x hm)
    · cases a with
      | none => exact .inl (Option.some.inj ha ▸ List.mem_cons_self)
      | some a =>
        have ha : min a x = m := Option.some.inj ha
        rcases Nat.le_total a x with hle | hle
        · exact .inr (by rw [← ha, Nat.min_eq_left hle])
        · exact .inl (by rw [← ha, Nat.min_eq_right hle]; exact List.mem_cons_self)

theorem reservedFault_lt {set i : Nat} (h : s.reservedFault set = some i) : i < 2 ^ 20 := by
  rcases mem_of_foldl_min h with hm | hm
  · obtain ⟨e, -, he⟩ := List.mem_filterMap.1 hm
    dsimp only at he
    split at he
    · next hr =>
      split at he
      · cases he
      · have hle := reservedBits_entry_le (e.1 - setKey set 0)
        have he := Option.some.inj he
        split at he <;> omega
    · cases he
  · cases hm

/-- A cause has three bits, and an entry stays below it. -/
theorem checkSet_lt {set c i : Nat} (h : s.checkSet set = some (c, i)) : c < 8 ∧ i < 2 ^ 20 := by
  have small {n c' : Nat} {bad : Nat → Bool} {j : Nat} (hn : n ≤ 2 ^ 20) (hc : c' < 8) (hj : lowest n bad = some j)
      (h : some (c', j) = some (c, i)) : c < 8 ∧ i < 2 ^ 20 := by
    have hlt := lowest_lt hj
    simp only [Option.some.injEq, Prod.mk.injEq] at h
    omega
  unfold State.checkSet at h
  extract_lets p clash rs at h
  split at h
  case h_1 j hj => exact small (by decide) (by decide) hj h
  split at h
  case h_1 j hj => exact small (by decide) (by decide) hj h
  split at h
  case h_1 j hj => exact small (by decide) (by decide) hj h
  split at h
  case h_1 r hr =>
    have hlt := reservations_idx_lt (List.mem_of_find?_eq_some hr)
    simp only [Option.some.injEq, Prod.mk.injEq] at h
    omega
  split at h
  case h_1 j hj =>
    obtain ⟨r, hr, rfl⟩ := overLinks_mem hj
    have hlt := reservations_idx_lt hr
    simp only [Option.some.injEq, Prod.mk.injEq] at h
    omega
  split at h
  case h_1 j hj =>
    have hlt := reservedFault_lt hj
    simp only [Option.some.injEq, Prod.mk.injEq] at h
    omega
  split at h
  · simp only [Option.some.injEq, Prod.mk.injEq] at h
    omega
  · cases h

/-- After a check the shadow is checked where nothing stands against it. -/
theorem checkShadow_isChecked (s : State) : s.checkShadow.isChecked = true ↔ s.checkSet (1 - s.activeSet) = none := by
  rw [State.isChecked, State.checkShadow, rbit_wr_same]
  cases h : s.checkSet (1 - s.activeSet) with
  | none => exact iff_of_true (by decide) rfl
  | some x =>
    obtain ⟨c, i⟩ := x
    obtain ⟨hc, hi⟩ := checkSet_lt h
    have hlt : c * 2 ^ 27 + i < 2 ^ 31 := by omega
    simp only [reduceCtorEq, iff_false, Bool.not_eq_true]
    rw [BitVec.toNat_ofNat, Nat.mod_eq_of_lt (by omega)]
    exact Nat.testBit_lt_two_pow hlt

/-! ### Commands of function 0 -/

theorem ctlCmd_open {go : State → State} (h : s.shadowClosed = false) : s.ctlCmd go = go s := if_neg (by simp [h])

theorem ctlCmd_closed {go : State → State} (h : s.shadowClosed = true) : s.ctlCmd go = s.ctlFlag 2 := if_pos h

/-- An event of the control block is flagged and counted. -/
theorem ctlFlag_flags (s : State) {i : Nat} (hi : i < 32) :
    OnlyRegs s (s.ctlFlag i) [ctlReg Reg.CTL_ERR_FLAGS, ctlReg Reg.CTL_FAULT_COUNT] ∧
    (s.ctlFlag i).rbit (ctlReg Reg.CTL_ERR_FLAGS) i = true ∧
    (s.ctlFlag i).rd (ctlReg Reg.CTL_FAULT_COUNT) = s.rd (ctlReg Reg.CTL_FAULT_COUNT) + 1 := by
  refine ⟨(OnlyRegs.wr s _ _ (by simp)).trans (.wr _ _ _ (by simp)), ?_, ?_⟩
  · rw [State.ctlFlag, rbit_bump_ne _ _ _ (by decide), rbit_setFlag_same _ _ _ hi]
  · rw [State.ctlFlag, rd_bump_same, rd_setFlag_ne _ _ (by decide)]
    rfl

theorem setKey_ne_ctl (tag off o : Nat) (ho : o < 0x100000) : setKey tag off ≠ ctlReg o := by
  simp only [setKey, ctlReg, regKey, blockBase]
  omega

/-- A word written to the shadow stands there, unchecked. -/
theorem writeShadow_stored (h : s.shadowClosed = false) (i : Fin 32768) (w : Word) : let t := s.writeShadow (4 * i) w
    t.rd (setKey (1 - s.activeSet) (4 * i)) = w ∧ t.isChecked = false ∧
      OnlyRegs s t [setKey (1 - s.activeSet) (4 * i), ctlReg Reg.CTL_CHECK] := by
  rw [State.writeShadow, ctlCmd_open h]
  refine ⟨?_, ?_, (OnlyRegs.wr s _ _ (by simp)).trans (.wr _ _ _ (by simp))⟩
  · rw [rd_wrFld_ne _ _ _ _ (setKey_ne_ctl _ _ _ (by decide)), rd_wr_same]
  · exact (rbit_wrFld _ _ _ _ _ _ le_rfl (by decide)).trans rfl

/-! ### A copy of the active set (R348) -/

theorem regReset_setKey (tag off : Nat) : regReset (setKey tag off) = 0 := by
  have h : keyBlock (setKey tag off) = none := by
    unfold keyBlock
    rw [if_neg, if_neg, if_neg, if_neg, if_neg, if_neg] <;> (simp only [setKey]; omega)
  rw [regReset, h]

theorem tget_congr_default {α : Type} {d d' : Nat → α} (t : Table α) {k : Nat} (h : d k = d' k) : tget d t k = tget d' t k := by
  induction t with grind [tget]

/-- A table of which entries have been kept by their keys. -/
theorem tget_filter_key {α : Type} (d : Nat → α) (t : Table α) (p : Nat → Bool) (k : Nat) :
    tget d (t.filter fun e => p e.1) k = if p k then tget d t k else d k := by
  induction t with
  | nil => simp [tget]
  | cons e t ih =>
    by_cases hp : p e.1 <;> by_cases hk : k = e.1
    all_goals simp_all [tget]

theorem tget_of_lt {α : Type} {d : Nat → α} {t : Table α} {k : Nat} (h : ∀ x ∈ t, k < x.1) : tget d t k = d k := by
  induction t with
  | nil => rfl
  | cons x t ih =>
    rw [tget, if_neg (h x List.mem_cons_self).ne, ih fun y hy => h y (List.mem_cons_of_mem x hy)]

/-- Words written one after another to keys moved by the same distance. -/
theorem rd_each_moved {a b off : Nat} {xs : Table Word} (hx : xs.Pairwise fun x y => x.1 < y.1) (ha : ∀ x ∈ xs, a ≤ x.1)
    (s : State) : (s.each xs fun s e => s.wr (b + (e.1 - a)) e.2).rd (b + off) = tget (fun _ => s.rd (b + off)) xs (a + off) := by
  induction xs generalizing s with
  | nil => rfl
  | cons x xs ih =>
    obtain ⟨hlt, hx⟩ := List.pairwise_cons.1 hx
    have hax := ha x List.mem_cons_self
    rw [each_cons, ih hx fun y hy => ha y (List.mem_cons_of_mem x hy)]
    by_cases h : a + off = x.1
    · rw [h, tget_of_lt hlt, tget, if_pos rfl, show x.1 - a = off by omega, rd_wr_same]
    · rw [rd_wr_ne _ _ (by omega), tget, if_neg h]

/-- The keys of a set's image. -/
def inSet (tag k : Nat) : Bool := decide (setKey tag 0 ≤ k) && decide (k < setKey tag 0 + 0x20000)

theorem setKey_zero_add (tag off : Nat) : setKey tag 0 + off = setKey tag off := rfl

theorem inSet_setKey {tag off : Nat} (h : off < 0x20000) : inSet tag (setKey tag off) = true := by
  simp [inSet, setKey, h]

/-- The words of the active set. -/
def State.activeWords (s : State) : Table Word := s.regs.filter fun e => inSet s.activeSet e.1

/-- The state with nothing in its shadow. -/
def State.shadowDropped (s : State) : State := { s with regs := s.regs.filter fun e => !inSet (1 - s.activeSet) e.1 }

theorem rd_shadowDropped (s : State) {off : Nat} (h : off < 0x20000) :
    s.shadowDropped.rd (setKey (1 - s.activeSet) off) = 0 := by
  refine (tget_filter_key _ _ (fun k => !inSet (1 - s.activeSet) k) _).trans ?_
  rw [inSet_setKey h, if_neg (by decide), regReset_setKey]

theorem copyActive_eq (s : State) : s.copyActive =
    (s.shadowDropped.each s.activeWords fun t e =>
      t.wr (setKey (1 - s.activeSet) 0 + (e.1 - setKey s.activeSet 0)) e.2).wrFld (ctlReg Reg.CTL_CHECK) 31 31 0 := rfl

theorem rd_copyActive (h : Registers.wf s.regs) {off : Nat} (hoff : off < 0x20000) :
    s.copyActive.rd (setKey (1 - s.activeSet) off) = s.rd (setKey s.activeSet off) := by
  have hsorted := (sorted_iff_pairwise s.regs).1 ((wf_iff regReset s.regs).1 h).1
  have hge : ∀ x ∈ s.activeWords, setKey s.activeSet 0 ≤ x.1 := fun x hx => by
    have hx := (List.mem_filter.1 hx).2
    rw [inSet, Bool.and_eq_true] at hx
    exact of_decide_eq_true hx.1
  rw [copyActive_eq, rd_wrFld_ne _ _ _ _ (setKey_ne_ctl _ _ _ (by decide))]
  calc _ = tget (fun _ => s.shadowDropped.rd (setKey (1 - s.activeSet) off)) s.activeWords (setKey s.activeSet off) :=
        rd_each_moved (hsorted.filter _) hge s.shadowDropped
    _ = tget regReset s.activeWords (setKey s.activeSet off) :=
        tget_congr_default _ ((rd_shadowDropped s hoff).trans (regReset_setKey _ _).symm)
    _ = s.rd (setKey s.activeSet off) :=
        (tget_filter_key _ _ (inSet s.activeSet) _).trans (if_pos (inSet_setKey hoff))

theorem copyActive_frame (s : State) : s.copyActive = { s with regs := s.copyActive.regs } := by
  have heach := (OnlyRegs.each (ks := s.activeWords.map fun e => setKey (1 - s.activeSet) 0 + (e.1 - setKey s.activeSet 0))
    (f := fun t (e : Nat × Word) => t.wr (setKey (1 - s.activeSet) 0 + (e.1 - setKey s.activeSet 0)) e.2) s.shadowDropped
    fun x hx t => .wr t _ _ (List.mem_map_of_mem hx)).1
  rw [copyActive_eq, heach]
  rfl

/-! ### A swap begins (R343, R270) -/

theorem rd_each_const {α : Type} {f : α → Nat} {v : Word} {xs : List α} {x : α} (hx : x ∈ xs) (s : State) :
    (s.each xs fun s a => s.wr (f a) v).rd (f x) = v := by
  induction xs generalizing s with
  | nil => cases hx
  | cons y ys ih =>
    by_cases hmem : x ∈ ys
    · exact ih hmem _
    · obtain rfl : x = y := (List.mem_cons.1 hx).resolve_right hmem
      have hkeep : ∀ (zs : List α) (u : State), u.rd (f x) = v → (u.each zs fun s a => s.wr (f a) v).rd (f x) = v := by
        intro zs u hu
        refine each_induction (fun u => u.rd (f x) = v) (fun u z hu => ?_) zs hu
        by_cases hz : f x = f z
        · rw [hz, rd_wr_same]
        · rw [rd_wr_ne _ _ hz, hu]
      exact hkeep ys _ (rd_wr_same _ _ _)

/-- The limits that a swap sets where it is the first to open the fabric. -/
def respLimits : List Nat := (List.range 1024).map fun r => nocReg r Reg.NOC_RESP_LIMIT

theorem nocReg_ne_ctl (r o o' : Nat) (h : o < 0x100000) (h' : o' < 0x100000) : nocReg r o ≠ ctlReg o' := by
  simp only [nocReg, ctlReg, regKey, blockBase]
  split_ifs <;> omega

theorem ctl_notMem_respLimits {o : Nat} (h : o < 0x100000) : ctlReg o ∉ respLimits := fun hm => by
  obtain ⟨r, -, hr⟩ := List.mem_map.1 hm
  exact nocReg_ne_ctl r _ _ (by decide) h hr

theorem beforeFabric_same (h : s.plan.fabric = true ∨ s.fabricOpen (1 - s.activeSet) = false) : s.beforeFabric = s :=
  if_pos (by simpa using h)

theorem beforeFabric_limits (h : s.plan.fabric = false) (ho : s.fabricOpen (1 - s.activeSet) = true) :
    s.beforeFabric = { s with regs := s.beforeFabric.regs, plan := s.beforeFabric.plan } ∧
    RegsKept s s.beforeFabric respLimits ∧ ∀ r < 1024, s.beforeFabric.rd (nocReg r Reg.NOC_RESP_LIMIT) = 4000 := by
  have heq : s.beforeFabric = ({ s with plan := { s.plan with fabric := true } } : State).each (List.range 1024)
      fun s r => s.wr (nocReg r Reg.NOC_RESP_LIMIT) 4000 := if_neg (by simp [h, ho])
  obtain ⟨hframe, hkept⟩ := OnlyRegs.each (ks := respLimits) (f := fun t r => t.wr (nocReg r Reg.NOC_RESP_LIMIT) 4000)
    ({ s with plan := { s.plan with fabric := true } } : State) fun r hr t => .wr t _ _ (List.mem_map_of_mem hr)
  rw [heq]
  refine ⟨?_, fun k hk => (hkept k hk).trans rfl, fun r hr => rd_each_const (f := fun r => nocReg r Reg.NOC_RESP_LIMIT)
    (List.mem_range.2 hr) _⟩
  rw [hframe]

/-- A swap takes only its list of domains, what stands before the fabric's first opening, and its status. -/
theorem startSwap_checked (h : s.isChecked = true) :
    s.startSwap = ({ s.beforeFabric with swap := some s.switchedAtOnce } : State).wrFld (ctlReg Reg.CTL_STATUS) 2 1 1 := by
  unfold State.startSwap
  extract_lets u
  have hu : u = s := if_pos h
  clear_value u
  subst hu
  exact if_neg (by simp [h])

theorem startSwap_refused (h : s.isChecked = false) (hc : s.checkSet (1 - s.activeSet) ≠ none) :
    s.startSwap = s.checkShadow.ctlFlag 0 := by
  unfold State.startSwap
  extract_lets u
  have hu : u = s.checkShadow := if_neg (by simp [h])
  have hcu : u.isChecked = false := by
    rw [hu]
    exact Bool.eq_false_iff.2 fun hx => hc ((checkShadow_isChecked s).1 hx)
  rw [if_pos (by simp [hcu]), hu]

/-! ### Reports of domains (R343, R344, R347) -/

/-- What the end of a swap sets and what decides it. -/
def State.swapView (s : State) : Option (List Nat) × Table Job × Word := (s.swap, s.jobs, s.rd (ctlReg Reg.CTL_STATUS))

theorem swapView_wr {k : Nat} (v : Word) (h : k ≠ ctlReg Reg.CTL_STATUS) (s : State) : (s.wr k v).swapView = s.swapView := by
  rw [State.swapView, State.swapView, wr_swap, wr_jobs, rd_wr_ne _ _ h.symm]

/-- A register of a block that stands beyond the control sets'. -/
theorem ne_ctl_of_gt {k o : Nat} (h : 0x300000 ≤ k) (ho : o < 0x100000) : k ≠ ctlReg o := by
  simp only [ctlReg, regKey, blockBase]
  omega

theorem swapView_ungate (s : State) (q : Nat) : (s.ungate q).swapView = s.swapView := by
  have hne (o : Nat) : regKey .pwr o + 4 * (q / 32) ≠ ctlReg Reg.CTL_STATUS :=
    ne_ctl_of_gt (by simp only [regKey, blockBase]; omega) (by decide)
  rw [State.ungate, wrFld_eq, wrFld_eq, swapView_wr _ (hne _), swapView_wr _ (hne _)]

theorem swapView_resize (s : State) (old : Nat) (h : s.jobs = []) : (s.resize old).swapView = s.swapView := by
  unfold State.resize
  extract_lets moved idle u v
  have hu : u.swapView = s.swapView := each_keeps s State.swapView _ swapView_ungate _
  have hv : v.swapView = u.swapView := each_keeps u State.swapView _ (fun s q => by
    rw [setBits_eq, swapView_wr _ (ne_ctl_of_gt (by simp only [regKey, blockBase]; omega) (by decide))]) _
  have hjobs : v.jobs = [] := (congrArg (·.2.1) (hv.trans hu)).trans h
  rw [hjobs]
  exact hv.trans hu

theorem swapView_assignEndpoints (s : State) : s.assignEndpoints.swapView = s.swapView := by
  refine each_keeps s State.swapView _ (fun s p => ?_) _
  extract_lets x
  split_ifs
  · rfl
  · split
    · next e he =>
      have hlt := List.mem_range.1 (List.mem_of_find?_eq_some he)
      refine swapView_wr _ ?_ s
      simp only [mbxReg, ctlReg, regKey, blockBase, Reg.MBX_OWNER]
      omega
    · rfl

theorem swapView_wrMax (s : State) {k : Nat} (x : Nat) (h : k ≠ ctlReg Reg.CTL_STATUS) : (s.wrMax k x).swapView = s.swapView := by
  unfold State.wrMax
  split
  · exact swapView_wr _ h _
  · rfl

theorem activeSet_lt (s : State) : s.activeSet < 2 := bitsOf_lt _ 0 0

theorem activeSet_of_status {v : Word} (h : s.rd (ctlReg Reg.CTL_STATUS) = v) : s.activeSet = bitsOf v.toNat 0 0 := by
  rw [← h]
  rfl

/-- Where the last domain has reported and no job has been taken, what follows keeps what the swap's end set. -/
theorem swapView_settled {v : Word} (h : s.swapView = (none, [], v)) (old : Nat) :
    ((s.resize old).assignEndpoints).swapView = (none, [], v) :=
  (swapView_assignEndpoints _).trans ((swapView_resize s old (congrArg (·.2.1) h)).trans h)

/-- The end of a swap, with the old set named. -/
theorem swapDone_eq (s : State) (us : Nat) : s.swapDone us =
    ((((((({ s with swap := none } : State).wr (ctlReg Reg.CTL_STATUS) (BitVec.ofNat 32 (4 + (1 - s.activeSet)))).bump
      (ctlReg Reg.CTL_TAMP_COUNT) 1).wrMax (ctlReg Reg.CTL_TAMP_MAX_US) us).wrFld (ctlReg Reg.CTL_CHECK) 31 31 0).resize
      s.activeSet).assignEndpoints) := rfl

theorem swapView_swapDone (us : Nat) (h : s.jobs = []) :
    (s.swapDone us).swapView = (none, [], BitVec.ofNat 32 (4 + (1 - s.activeSet))) := by
  rw [swapDone_eq]
  refine swapView_settled ?_ _
  rw [wrFld_eq, swapView_wr _ (by decide), swapView_wrMax _ _ (by decide), bump_eq, swapView_wr _ (by decide),
    State.swapView, rd_wr_same, wr_swap, wr_jobs, h]

theorem swap_of_view {v : Word} (h : s.swapView = (none, [], v)) : s.swap = none := congrArg (·.1) h

theorem status_of_view {v : Word} (h : s.swapView = (none, [], v)) : s.rd (ctlReg Reg.CTL_STATUS) = v := congrArg (·.2.2) h

/-- The status that the end of a swap writes names the other set. -/
theorem bitsOf_status {old : Nat} (h : old < 2) : bitsOf (BitVec.ofNat 32 (4 + (1 - old))).toNat 0 0 = 1 - old := by
  interval_cases old <;> rfl

/-- The last report ends the swap, and the other set is the active one. -/
theorem swapDone_ends (us : Nat) (h : s.jobs = []) :
    (s.swapDone us).swap = none ∧ (s.swapDone us).activeSet = 1 - s.activeSet :=
  have hend := swapView_swapDone us h
  ⟨swap_of_view hend, (activeSet_of_status (status_of_view hend)).trans (bitsOf_status (activeSet_lt s))⟩

theorem switched_append (h : s.swap = some ds) (d : Nat) :
    ({ s with swap := some (ds ++ [d]) } : State).switched = ds ++ [d] ++ s.switchedAtOnce := rfl

theorem mem_switched_append (h : s.swap = some ds) (d i : Nat) :
    i ∈ ({ s with swap := some (ds ++ [d]) } : State).switched ↔ i = d ∨ i ∈ s.switched := by
  rw [switched_append h, State.switched, h]
  simp only [List.mem_append, List.mem_singleton, Option.getD_some]
  tauto

theorem switchReport_next (us : Nat) {d : Fin 21} (h : s.swap = some ds) (hd : d.val ∉ ds) :
    exec (.switchReport d us) s = .next (if (List.range 21).all (fun i => decide (i = d.val ∨ i ∈ s.switched)) then
      ({ s with swap := some (ds ++ [d.val]) } : State).swapDone (us % 2 ^ 32) else { s with swap := some (ds ++ [d.val]) }) := by
  show execSwitchReport d us s = _
  have hall : (List.range 21).all (fun i => ({ s with swap := some (ds ++ [d.val]) } : State).switched.contains i) =
      (List.range 21).all (fun i => decide (i = d.val ∨ i ∈ s.switched)) :=
    congrArg _ (funext fun i => by rw [← List.elem_eq_contains, List.elem_eq_mem, decide_eq_decide, mem_switched_append h])
  unfold execSwitchReport
  split
  · next h' => cases h.symm.trans h'
  · next h' =>
    cases h.symm.trans h'
    rw [if_neg (by simpa using hd), ← hall]

/-- The first domain that has not switched is the laggard. -/
theorem lowest_laggard {i : Nat} (hi : i < 21) (h : i ∉ s.switched) (hlt : ∀ j < i, j ∈ s.switched) :
    lowest 21 (fun i => !s.switched.contains i) = some i := by
  rw [lowest, List.find?_range_eq_some]
  simpa [hi, h] using hlt

theorem check_next (hr : s.fnReach 0 = true) (hd : (s.fnAt 0).d3hot = false) :
    exec .check s = .next (s.ctlCmd State.checkShadow) := by
  show execCheck s = _
  rw [execCheck, bar0Do_next hr hd]

theorem shadowWrite_next (hr : s.fnReach 0 = true) (hd : (s.fnAt 0).d3hot = false) (i : Fin 32768) (w : Word) :
    exec (.shadowWrite i w) s = .next (s.writeShadow (4 * i) w) := by
  show execShadowWrite i w s = _
  rw [execShadowWrite, bar0Do_next hr hd]

theorem copyActive_next (hr : s.fnReach 0 = true) (hd : (s.fnAt 0).d3hot = false) :
    exec .copyActive s = .next (s.ctlCmd State.copyActive) := by
  show execCopyActive s = _
  rw [execCopyActive, bar0Do_next hr hd]

theorem tamp_next (hr : s.fnReach 0 = true) (hd : (s.fnAt 0).d3hot = false) :
    exec .tamp s = .next (s.ctlCmd State.startSwap) := by
  show execTamp s = _
  rw [execTamp, bar0Do_next hr hd]

/-- While the shadow is closed each command of function 0 is refused alike. -/
theorem ctlCommand_refused (hr : s.fnReach 0 = true) (hd : (s.fnAt 0).d3hot = false) (h : s.shadowClosed = true) {c : Instr}
    (hc : c ∈ [Instr.check, .tamp, .copyActive] ∨ ∃ i w, c = .shadowWrite i w) : exec c s = .next (s.ctlFlag 2) := by
  simp only [List.mem_cons, List.not_mem_nil, or_false] at hc
  obtain (rfl | rfl | rfl) | ⟨i, w, rfl⟩ := hc
  · rw [check_next hr hd, ctlCmd_closed h]
  · rw [tamp_next hr hd, ctlCmd_closed h]
  · rw [copyActive_next hr hd, ctlCmd_closed h]
  · rw [shadowWrite_next hr hd, State.writeShadow, ctlCmd_closed h]

/-- A swap under way changes the active set only when its last domain reports. -/
theorem startSwap_begins (h : s.isChecked = true) : let t := s.startSwap
    t.swap = some s.switchedAtOnce ∧ t = { s with regs := t.regs, swap := t.swap, plan := t.plan } ∧
      t.activeSet = s.activeSet ∧ RegsKept s t (ctlReg Reg.CTL_STATUS :: respLimits) ∧
      (s.plan.fabric = true ∨ s.fabricOpen (1 - s.activeSet) = false →
        t = { s with regs := t.regs, swap := t.swap } ∧ RegsKept s t [ctlReg Reg.CTL_STATUS]) ∧
      (s.plan.fabric = false → s.fabricOpen (1 - s.activeSet) = true →
        ∀ r < 1024, t.rdN (nocReg r Reg.NOC_RESP_LIMIT) = 4000) := by
  have hst (u : State) : RegsKept u (({ u with swap := some s.switchedAtOnce } : State).wrFld (ctlReg Reg.CTL_STATUS) 2 1 1)
      [ctlReg Reg.CTL_STATUS] := fun k hk => rd_wrFld_ne _ _ _ _ (by simpa using hk)
  have hset (u : State) : (({ u with swap := some s.switchedAtOnce } : State).wrFld (ctlReg Reg.CTL_STATUS) 2 1 1).activeSet =
      u.activeSet := (fld_wrFld_other _ _ _ _ _ _ _ (by decide) (by decide) (by decide) (by decide)).trans rfl
  rw [startSwap_checked h]
  by_cases hsame : s.plan.fabric = true ∨ s.fabricOpen (1 - s.activeSet) = false
  · have hkept := hst s
    rw [beforeFabric_same hsame]
    refine ⟨by rw [wrFld_eq, wr_swap], rfl, hset s, fun k hk => hkept k fun hm => hk ?_, fun _ => ⟨rfl, hkept⟩, fun hf ho => ?_⟩
    · exact List.mem_cons.2 (.inl (List.mem_singleton.1 hm))
    · simp [hf, ho] at hsame
  · simp only [not_or, Bool.not_eq_true, Bool.not_eq_false] at hsame
    obtain ⟨hframe, hkept, hlimit⟩ := beforeFabric_limits hsame.1 hsame.2
    have hkept' := hst s.beforeFabric
    have hset' := hset s.beforeFabric
    generalize s.beforeFabric = u at *
    have hold : u.activeSet = s.activeSet := by
      rw [activeSet_of_status (hkept _ (ctl_notMem_respLimits (by decide)))]
      rfl
    refine ⟨by rw [wrFld_eq, wr_swap], ?_, hset'.trans hold, fun k hk => ?_, fun hs => ?_, fun _ _ r hr => ?_⟩
    · rw [hframe]
      rfl
    · rw [List.mem_cons, not_or] at hk
      exact (hkept' k (by simpa using hk.1)).trans (hkept k hk.2)
    · simp [hsame] at hs
    · rw [State.rdN, hkept' _ (by simpa using nocReg_ne_ctl r _ _ (by decide) (by decide))]
      exact congrArg BitVec.toNat (hlimit r hr)

/-- Settles O21: each command of function 0 by what it does to an open and to a closed shadow, and a report by whether
it is the last one. -/
theorem controlSetsComplete : Obligations.ControlSetsComplete := by
  refine ⟨fun s hr hd hopen => ⟨fun i w => ⟨_, shadowWrite_next hr hd i w, writeShadow_stored hopen i w⟩,
      ⟨_, check_next hr hd, ?_⟩, fun hc => ⟨_, tamp_next hr hd, ?_⟩, fun hc hbad => ⟨_, tamp_next hr hd, ?_⟩,
      fun hwf => ⟨_, copyActive_next hr hd, ?_⟩⟩,
    fun s hr hd hclosed c hc => ⟨_, ctlCommand_refused hr hd hclosed hc, ctlFlag_flags s (by decide)⟩,
    fun d us ds s hs hd => ⟨_, switchReport_next us hs hd, fun hmore => ?_, fun hall hjobs => ?_⟩, fun ds s hs => ?_⟩
  · rw [ctlCmd_open hopen]
    exact ⟨.wr s _ _ (by simp), checkShadow_isChecked s⟩
  · rw [ctlCmd_open hopen]
    exact startSwap_begins hc
  · rw [ctlCmd_open hopen, startSwap_refused hc hbad]
    obtain ⟨honly, hflag, -⟩ := ctlFlag_flags s.checkShadow (i := 0) (by decide)
    have honly : OnlyRegs s (s.checkShadow.ctlFlag 0) [ctlReg Reg.CTL_CHECK, ctlReg Reg.CTL_ERR_FLAGS, ctlReg Reg.CTL_FAULT_COUNT] :=
      (OnlyRegs.wr s _ _ (by simp)).trans (honly.mono (by simp))
    rw [State.shadowClosed, Bool.or_eq_false_iff] at hopen
    exact ⟨(congrArg State.swap honly.1).trans (Option.not_isSome_iff_eq_none.1 (by simp [hopen.1])), honly, hflag⟩
  · rw [ctlCmd_open hopen]
    exact ⟨fun off => rd_copyActive hwf, (rbit_wrFld _ _ _ _ _ _ le_rfl (by decide)).trans rfl, copyActive_frame s⟩
  · obtain ⟨i, hi, hid, hin⟩ := hmore
    refine if_neg fun hall => ?_
    have hi := List.all_eq_true.1 hall i (List.mem_range.2 hi)
    exact (of_decide_eq_true hi).elim hid hin
  · rw [if_pos (List.all_eq_true.2 fun i hi => decide_eq_true (hall i (List.mem_range.1 hi)))]
    exact swapDone_ends _ hjobs
  · refine ⟨((s.ctlFlag 3).wr (ctlReg Reg.CTL_LAGGARD)
      (BitVec.ofNat 32 ((lowest 21 fun i => !s.switched.contains i).getD 0))), ?_, ?_⟩
    · show execTampLimitExpiry s = _
      rw [execTampLimitExpiry, hs]
    · obtain ⟨honly, hflag, -⟩ := ctlFlag_flags s (i := 3) (by decide)
      refine ⟨(honly.mono (by simp)).trans (.wr _ _ _ (by simp)), ?_, fun i hi hin hlt => ?_⟩
      · exact (rbit_wr_ne _ _ _ (by decide)).trans hflag
      · rw [rdN_wr_same, lowest_laggard hi hin hlt]
        rw [BitVec.toNat_ofNat, Option.getD_some, Nat.mod_eq_of_lt (by omega)]

end Sys2Proof.Machine
end

section
set_option Elab.async false
/-! SUPPORT. Accesses to device memory: what a row and a check chunk change, and that memory reads back what was written
(R249, R252, R253, R258 to R260). -/

namespace Sys2Proof.Machine

variable {s₀ s t u : State} {ks : List Nat}

/-- Of what an access brings about in its channel beside the data: registers listed, open rows, check chunks, free values. -/
structure RowsOnly (ks : List Nat) (s t : State) : Prop where
  frame : t = { s with regs := t.regs, free := t.free, openRows := t.openRows, checks := t.checks }
  kept : RegsKept s t ks

namespace RowsOnly

theorem refl (s : State) : RowsOnly ks s s := ⟨rfl, fun _ _ => rfl⟩

theorem trans (h : RowsOnly ks s t) (h' : RowsOnly ks t u) : RowsOnly ks s u :=
  ⟨by rw [h'.frame, h.frame], fun k hk => (h'.kept k hk).trans (h.kept k hk)⟩

theorem elsewhere {free openRows checks} (h : RowsOnly ks s₀ s) : RowsOnly ks s₀ { s with free, openRows, checks } :=
  h.trans ⟨rfl, fun _ _ => rfl⟩

theorem of_onlyRegs (h : RowsOnly ks s₀ s) (k : OnlyRegs s t ks) : RowsOnly ks s₀ t :=
  h.trans ⟨by rw [k.1], k.2⟩

theorem wr {k v} (h : RowsOnly ks s₀ s) (hk : k ∈ ks) : RowsOnly ks s₀ (s.wr k v) := h.of_onlyRegs (.wr s k v hk)

theorem wrFld {k hi lo v} (h : RowsOnly ks s₀ s) (hk : k ∈ ks) : RowsOnly ks s₀ (s.wrFld k hi lo v) := h.wr hk

theorem bump {k n} (h : RowsOnly ks s₀ s) (hk : k ∈ ks) : RowsOnly ks s₀ (s.bump k n) := h.wr hk

theorem bump64 {k n} (h : RowsOnly ks s₀ s) (hk : k ∈ ks) (hk' : k + 4 ∈ ks) : RowsOnly ks s₀ (s.bump64 k n) :=
  (h.wr hk).wr hk'

theorem ite {p : Prop} [Decidable p] (ht : RowsOnly ks s₀ t) (hu : RowsOnly ks s₀ u) :
    RowsOnly ks s₀ (if p then t else u) := by
  split <;> assumption

end RowsOnly

/-- The registers of a channel that a rank's waking and a row's opening count in. -/
def rowRegs (c : Nat) : List Nat :=
  drcCh c Reg.DRC_CH_STATE :: [Reg.DRC_PD_CYCLES, Reg.DRC_ROW_HITS, Reg.DRC_ACTS].flatMap fun o => [drcCh c o, drcCh c (o + 4)]

theorem drcCh_add (c o n : Nat) : drcCh c o + n = drcCh c (o + n) := by
  simp only [drcCh, regKey]
  omega

/-- A rank that wakes shows its state, and the cycles it was powered down. -/
theorem wakeRank_rows (s : State) {c : Nat} (rank next : Nat) (h : drcCh c Reg.DRC_CH_STATE ∈ ks)
    (hp : drcCh c Reg.DRC_PD_CYCLES ∈ ks) (hp' : drcCh c (Reg.DRC_PD_CYCLES + 4) ∈ ks) :
    RowsOnly ks s (s.wakeRank c rank next) :=
  .wrFld (.ite (.bump64 (RowsOnly.refl s).elsewhere hp (by rwa [drcCh_add])) (.refl s)) h

theorem bump64_onlyRegs (s : State) (k n : Nat) : OnlyRegs s (s.bump64 k n) [k, k + 4] :=
  (OnlyRegs.wr s _ _ (by simp)).trans (.wr _ _ _ (by simp))

/-- A rank that wakes opens and closes no row, and looks up no check chunk. -/
theorem wakeRank_frame (s : State) (c rank next : Nat) :
    ∃ regs free, s.wakeRank c rank next = { s with regs, free } := by
  unfold State.wakeRank
  extract_lets u
  obtain ⟨regs, free, hu⟩ : ∃ regs free, u = { s with regs, free } := by
    dsimp only [u]
    split
    · exact ⟨_, _, (bump64_onlyRegs ..).1⟩
    · exact ⟨_, _, rfl⟩
  rw [hu]
  exact ⟨_, _, rfl⟩

theorem touchRow_rows (s : State) {c : Nat} (p : Nat) (h : rowRegs c ⊆ ks) : RowsOnly ks s (s.touchRow c p) := by
  have hin {k : Nat} (hk : k ∈ rowRegs c) : k ∈ ks := h hk
  refine .bump64 (.elsewhere (wakeRank_rows s _ _ (hin ?_) (hin ?_) (hin ?_))) (hin ?_) (hin ?_)
  any_goals simp only [rowRegs, List.flatMap_cons, List.mem_cons, List.mem_append]
  · simp
  · simp
  · simp
  · split <;> simp
  · split <;> simp [drcCh_add]

theorem touchRow_checks (s : State) (c p : Nat) : (s.touchRow c p).checks = s.checks := by
  unfold State.touchRow
  extract_lets b u hit
  obtain ⟨regs, free, hu⟩ : ∃ regs free, u = { s with regs, free } := wakeRank_frame ..
  rw [(bump64_onlyRegs ..).1, hu]

theorem useCheck_rows (s : State) {c : Nat} (d : Nat) (write : Bool) (m : MemFind) (h : rowRegs c ⊆ ks)
    (hm : drcCh c Reg.DRC_CHK_MISS ∈ ks) : RowsOnly ks s (s.useCheck c d write m) := by
  unfold State.useCheck
  extract_lets k held missed out evicted
  split
  · exact (RowsOnly.refl s).elsewhere
  · have hmissed : RowsOnly ks s missed := ((RowsOnly.refl s).bump hm).trans (touchRow_rows _ _ h)
    have hevicted : RowsOnly ks s evicted := .ite (hmissed.trans (touchRow_rows _ _ h)) hmissed
    exact .ite hmissed.elsewhere hevicted.elsewhere

/-! ### Memory reads back what was written -/

theorem RowsOnly.poison_eq (h : RowsOnly ks s t) : t.poison = s.poison :=
  (congrArg State.poison h.frame).trans rfl

theorem wrMax_poison (s : State) (k v : Nat) : (s.wrMax k v).poison = s.poison := by
  unfold State.wrMax
  split
  exacts [wr_poison .., rfl]

theorem touch_poison (s : State) (A : Nat) (write : Bool) (m : MemFind) : (s.touch A write m).poison = s.poison := by
  unfold State.touch
  split
  · next c d _ =>
    have hrows : RowsOnly (drcCh c Reg.DRC_CHK_MISS :: rowRegs c) s ((s.touchRow c (dataPhys d)).useCheck c d write m) :=
      (touchRow_rows s (dataPhys d) (by simp)).trans (useCheck_rows _ d write m (by simp) (by simp))
    exact (wrMax_poison ..).trans ((wr_poison ..).trans hrows.poison_eq)
  · rfl

/-- A check of units that hold no error finds none. -/
theorem badUnits_clean {us : List Nat} (h : ∀ u ∈ us, s.poisoned u = false) : s.badUnits us [] = [] :=
  List.filterMap_eq_nil_iff.2 fun u hu => by simp [h u hu]

theorem meetErrors_clean {us : List Nat} (h : ∀ u ∈ us, s.poisoned u = false) : s.meetErrors us [] = s := by
  have hfix : s.fixedUnits us [] = [] := List.filter_eq_nil_iff.2 fun u _ => by simp
  rw [State.meetErrors, badUnits_clean h, hfix]
  rfl

theorem memKept_of_mem (h : t.mem = s.mem) : MemKept s t := fun a => by rw [State.readByte, h, State.readByte]

/-- A write of whole units that names memory is answered with status 0, and only its bytes change. -/
theorem memWrite_whole {home A : Nat} {bs : List Byte} (m : MemFind) (h : s.noMemory home A = none)
    (hpart : partUnits A bs.length = []) :
    (s.memWrite home A bs m).1.status = 0 ∧ MemKeptOutside s (s.memWrite home A bs m).2 A bs.length := by
  have he : s.memWrite home A bs m = (⟨0, A, []⟩, (s.touch A true m).storeWhole A bs) := by
    rw [State.memWrite, h]
    dsimp only
    rw [hpart]
    rfl
  rw [he]
  refine ⟨rfl, fun b hb => ?_⟩
  have htouch := (Beside.refl (p := True) s).touch (A := A) (write := true) (m := m)
  exact (readByte_writeBytes_out _ _ _ _ hb).trans (memKept_of_mem ((Beside.frame htouch).moved.mem trivial) b)

theorem memRead_clean {home A n : Nat} {m : MemFind} (h : s.noMemory home A = none)
    (hclean : ∀ u ∈ unitsOf A n, s.poisoned u = false) (hecc : m.ecc = []) :
    (s.memRead home A n m).1 = ⟨0, A, s.readBytes A n⟩ := by
  have hclean : ∀ u ∈ unitsOf A n, (s.touch A false m).poisoned u = false := fun u hu => by
    rw [State.poisoned, touch_poison]
    exact hclean u hu
  have hmem := ((Beside.refl (p := True) s).touch (A := A) (write := false) (m := m)).mem trivial
  rw [State.memRead, h]
  dsimp only
  rw [hecc, badUnits_clean hclean, State.readBytes, hmem, State.readBytes]

/-- What reaches no memory is answered with a status other than 0. -/
theorem memAccess_refused {home A : Nat} (h : s.noMemory home A ≠ none) (bs : List Byte) (n : Nat) (m : MemFind) :
    (s.memWrite home A bs m).1.status ≠ 0 ∧ MemKept s (s.memWrite home A bs m).2 ∧ (s.memRead home A n m).1.status ≠ 0 := by
  obtain ⟨r, hr⟩ := Option.ne_none_iff_exists'.1 h
  rw [State.memWrite, State.memRead, hr]
  exact ⟨noMemory_status r hr, memKept_of_mem (((Beside.refl (p := True) s).noMemory r hr).mem trivial),
    noMemory_status r hr⟩

/-- Settles O24: an access by whether its address names memory. -/
theorem readAfterWriteOfMemory : Obligations.ReadAfterWriteOfMemory := by
  intro home A bs n m s
  have hread : MemKept s (s.memRead home A n m).2 := memKept_of_mem ((Beside.refl (p := True) s).memRead.mem trivial)
  refine ⟨fun h hpart => ?_, fun h hclean hecc => ⟨memRead_clean h hclean hecc, hread⟩, fun h => ?_⟩
  · obtain ⟨hstatus, hkept⟩ := memWrite_whole m h hpart
    exact ⟨hstatus, memWrite_stores hstatus, hkept⟩
  · obtain ⟨hw, hk, hr⟩ := memAccess_refused h bs n m
    exact ⟨hw, hk, hr, hread⟩

end Sys2Proof.Machine
end

section
set_option Elab.async false
/-! SUPPORT. Commands of crema and LPDDR5X: patrol reads, channel states, the pattern helper, power-down and refresh
(R255, R260 to R264). -/

namespace Sys2Proof.Machine

variable {s₀ s t u : State} {c : Nat}

/-! ### Registers of a channel -/

theorem drcCh_inj {o o' : Nat} : drcCh c o = drcCh c o' ↔ o = o' := by
  simp only [drcCh, regKey]
  omega

theorem drcCh_off_ne {o o' : Nat} (h : o ≠ o') : drcCh c o ≠ drcCh c o' := mt drcCh_inj.1 h

theorem rd_bump64_drcCh (s : State) (n : Nat) {o o' : Nat} (h : o' ≠ o) (h4 : o' ≠ o + 4) :
    (s.bump64 (drcCh c o) n).rd (drcCh c o') = s.rd (drcCh c o') :=
  (bump64_onlyRegs s _ n).2 _ (by simp [drcCh_add, drcCh_inj, h, h4])

/-! ### The scrubber of crema -/

/-- A patrol read of a unit without an error counts and flags nothing. -/
theorem patrol_clean {A i : Nat} (h : s.poisoned A = false) :
    (if (s.badUnits [A] []).isEmpty then s.meetErrors [A] [] else (s.meetErrors [A] []).memFlag A i) = s := by
  have hunits : ∀ u ∈ [A], s.poisoned u = false := fun u hu => by rwa [List.mem_singleton.1 hu]
  rw [badUnits_clean hunits, meetErrors_clean hunits]
  rfl

theorem cremaPatrolRead_clean (b : Bay) (o : Nat) (s : State) (ho : o < 0x3000000) (h32 : o % 32 = 0)
    (hrow : s.rowRemoved b (o / 0x8000) = false) (hperiod : s.rdN (crmReg (b / 64) Reg.CRM_SCRUB_PERIOD) ≠ 0)
    (hclean : s.poisoned (cremaAddr b o) = false) : exec (.cremaPatrolRead b o []) s =
      .next { s with sweeps := tset (fun _ => 0) s.sweeps b.val (tget (fun _ => 0) s.sweeps b.val - 1) } := by
  have he : exec (.cremaPatrolRead b o []) s = .next
      (let A := cremaAddr b o
       let s : State := { s with sweeps := tset (fun _ => 0) s.sweeps b.val (tget (fun _ => 0) s.sweeps b.val - 1) }
       let t := s.meetErrors [A] []
       if (s.badUnits [A] []).isEmpty then t else t.memFlag A 4) :=
    if_neg (by simp [ho, h32, hrow, hperiod])
  rw [he]
  exact congrArg Host.Outcome.next (patrol_clean hclean)

/-- Values written to a table one after another. -/
theorem tget_foldl_tset (k v : Nat → Nat) (hk : k.Injective) (w : Table Nat) (xs : List Nat) (i : Nat) :
    tget (fun _ => 0) (xs.foldl (fun w i => tset (fun _ => 0) w (k i) (v i)) w) (k i) =
      if i ∈ xs then v i else tget (fun _ => 0) w (k i) := by
  induction xs generalizing w with
  | nil => rfl
  | cons x xs ih =>
    rw [List.foldl_cons, ih]
    by_cases hx : i = x
    · subst hx
      simp
    · rw [tget_tset_ne _ _ _ (hk.ne hx)]
      simp [hx]

/-- The slices of a die take their sweeps. -/
theorem each_sweeps (d : Nat) (s : State) (xs : List Nat) :
    (s.each xs fun s i =>
      { s with sweeps := tset (fun _ => 0) s.sweeps (d * 64 + i) (s.sliceRows (d * 64 + i) * 1024) }) =
    { s with sweeps := xs.foldl (fun w i => tset (fun _ => 0) w (d * 64 + i) (s.sliceRows (d * 64 + i) * 1024)) s.sweeps } := by
  induction xs generalizing s with
  | nil => rfl
  | cons x xs ih => exact ih _

/-- A sweep of every slice of a die. -/
theorem scrubNow_sweeps (d : Die) (s : State) : Completes (exec (.scrubNow d) s) fun t => t = { s with sweeps := t.sweeps } ∧
    ∀ i < 64, tget (fun _ => 0) t.sweeps (d * 64 + i) = s.sliceRows (d * 64 + i) * 1024 := by
  refine ⟨_, congrArg Host.Outcome.next (each_sweeps d s (List.range 64)), rfl, fun i hi => ?_⟩
  exact (tget_foldl_tset (fun i => d * 64 + i) (fun i => s.sliceRows (d * 64 + i) * 1024) (fun a b h => by simpa using h)
    s.sweeps (List.range 64) i).trans (if_pos (List.mem_range.2 hi))

/-! ### States of channels -/

theorem trainStart_moves (c : Dram) (s : State) : Completes (exec (.trainStart c) s) fun t =>
    t.chanState c = (if s.chanState c = 2 then 3 else s.chanState c) ∧ OnlyRegs s t [drcCh c Reg.DRC_CH_STATE] := by
  refine ⟨_, rfl, ?_⟩
  by_cases h : s.chanState c = 2
  · rw [if_pos h, if_pos h]
    exact ⟨(chanState_setChanState c.isLt c.isLt (by decide)).trans (if_pos rfl), .wr _ _ _ (by simp)⟩
  · rw [if_neg h, if_neg h]
    exact ⟨rfl, .refl _ _⟩

/-- A unit that passes is kept in the plan or in storage. -/
theorem unitPass_keeps (s : State) (u : Nat) : (s.unitPass u).regs = s.regs ∧ (s.unitPass u).mem = s.mem := by
  unfold State.unitPass State.countPass
  split_ifs <;> exact ⟨rfl, rfl⟩

theorem initStart_moves (c : Dram) (s : State) : Completes (exec (.initStart c) s) fun t =>
    t.chanState c = (if s.chanState c = 2 ∨ s.chanState c = 3 then 4 else s.chanState c) ∧
    t.mem = s.mem ∧ RegsKept s t [drcCh c Reg.DRC_CH_STATE] := by
  by_cases h : s.chanState c = 2 ∨ s.chanState c = 3
  · have he : ∃ u : State, u.regs = s.regs ∧ u.mem = s.mem ∧
        exec (.initStart c) s = .next ((u.setChanState c 4).unitPass (unitEntry 8 c)) := by
      refine ⟨_, ?_, ?_, if_pos h⟩
      · split <;> rfl
      · split <;> rfl
    obtain ⟨u, hr, hm, he⟩ := he
    obtain ⟨hpr, hpm⟩ := unitPass_keeps (u.setChanState c 4) (unitEntry 8 c)
    refine ⟨_, he, ?_, ?_, fun k hk => ?_⟩
    · rw [if_pos h, State.chanState, fld_congr _ hpr]
      exact (chanState_setChanState c.isLt c.isLt (by decide)).trans (if_pos rfl)
    · rw [hpm, State.setChanState, wrFld_eq, wr_mem, hm]
    · rw [rd_congr hpr, State.setChanState, rd_wrFld_ne _ _ _ _ (by simpa using hk), rd_congr hr]
  · refine ⟨s, if_neg h, ?_, rfl, fun _ _ => rfl⟩
    rw [if_neg h]

/-- The states of channels are as before, and so are the units listed as bad. -/
structure ChansKept (s t : State) : Prop where
  states : ∀ c < 64, t.rd (drcCh c Reg.DRC_CH_STATE) = s.rd (drcCh c Reg.DRC_CH_STATE)
  defects : t.plan.defects = s.plan.defects

/-- The register is no channel's state. -/
abbrev NoChanState (k : Nat) : Prop := ∀ c < 64, drcCh c Reg.DRC_CH_STATE ≠ k

theorem noChanState_of_lt {k : Nat} (h : k < 0x2000000) : NoChanState k := fun c _ => by
  simp only [drcCh, regKey, blockBase]
  omega

theorem noChanState_pageReg (f o : Nat) : NoChanState (pageReg f o) := fun c hc => by
  simp only [pageReg, drcCh, regKey, blockBase, Reg.DRC_CH_STATE, Fin.val_ofNat]
  omega

theorem noChanState_drcReg (e : Nat) {o : Nat} (h : o < 0x1000) : NoChanState (drcReg e o) := fun c hc => by
  simp only [drcReg, drcCh, regKey, blockBase, Reg.DRC_CH_STATE, Fin.val_ofNat]
  omega

theorem noChanState_drcCh (c : Nat) {o : Nat} (h : 0x1000 < o) (ho : o < 0x1400) : NoChanState (drcCh c o) := fun c' hc => by
  simp only [drcCh, regKey, blockBase, Reg.DRC_CH_STATE, Fin.val_ofNat]
  omega

namespace ChansKept

theorem refl (s : State) : ChansKept s s := ⟨fun _ _ => rfl, rfl⟩

theorem trans (h : ChansKept s t) (k : ChansKept t u) : ChansKept s u :=
  ⟨fun c hc => (k.states c hc).trans (h.states c hc), k.defects.trans h.defects⟩

theorem frame (h : ChansKept s₀ s) (hr : t.regs = s.regs := by rfl) (hd : t.plan.defects = s.plan.defects := by rfl) :
    ChansKept s₀ t := h.trans ⟨fun _ _ => rd_congr hr _, hd⟩

theorem wr {k v} (h : ChansKept s₀ s) (hk : NoChanState k) : ChansKept s₀ (s.wr k v) :=
  h.trans ⟨fun c hc => rd_wr_ne s v (hk c hc), rfl⟩

theorem wrFld {k hi lo v} (h : ChansKept s₀ s) (hk : NoChanState k) : ChansKept s₀ (s.wrFld k hi lo v) := h.wr hk

theorem setFlag {k i} (h : ChansKept s₀ s) (hk : NoChanState k) : ChansKept s₀ (s.setFlag k i) := h.wr hk

theorem ite {p : Prop} [Decidable p] (ht : ChansKept s₀ t) (hu : ChansKept s₀ u) : ChansKept s₀ (if p then t else u) := by
  split <;> assumption

theorem each {α : Type} {f : State → α → State} {xs : List α} (h : ChansKept s₀ s)
    (hf : ∀ {s x}, ChansKept s₀ s → ChansKept s₀ (f s x)) : ChansKept s₀ (s.each xs f) :=
  each_induction (ChansKept s₀) (fun _ _ => hf) xs h

theorem event {f code arg status} (h : ChansKept s₀ s) : ChansKept s₀ (s.event f code arg status) := by
  rcases event_cases s f code arg status with e | ⟨_, _, e⟩ <;> rw [e]
  exacts [(h.wr (noChanState_pageReg _ _)).setFlag (noChanState_pageReg _ _), h.frame]

theorem planChanged (h : ChansKept s₀ s) : ChansKept s₀ s.planChanged :=
  .ite (.wrFld (.ite (h.setFlag (noChanState_of_lt (by decide))) h) (noChanState_of_lt (by decide))) h

theorem evalDegraded (h : ChansKept s₀ s) : ChansKept s₀ s.evalDegraded :=
  (h.wr (noChanState_of_lt (by decide))).wrFld (noChanState_of_lt (by decide))

theorem showChans (h : ChansKept s₀ s) : ChansKept s₀ s.showChans := h.frame

theorem tierCheck (h : ChansKept s₀ s) : ChansKept s₀ s.tierCheck := by
  unfold State.tierCheck
  extract_lets +onlyGivenNames C L old r₁ r₂ r₃ r₄
  refine .ite h ?_
  have h₄ : ChansKept s₀ r₄ := (ChansKept.each (s := r₂) h.frame fun h =>
    h.wr (noChanState_drcReg _ (by decide))).wrFld (noChanState_of_lt (by decide))
  exact .event (.ite h₄.showChans.planChanged.evalDegraded h₄)

theorem chanState_eq (h : ChansKept s t) (hc : c < 64) : t.chanState c = s.chanState c := by
  rw [State.chanState, State.fld, State.rdN, h.states c hc]
  rfl

theorem isBad_eq (h : ChansKept s t) (kind i : Nat) : t.isBad kind i = s.isBad kind i := by
  rw [State.isBad, h.defects, State.isBad]

end ChansKept

/-- A unit that fails is bad; its registers stay. -/
theorem unitFail_bad (s : State) (hc : c < 64) : (s.unitFail (unitEntry 8 c)).isBad 8 c = true ∧
    (s.unitFail (unitEntry 8 c)).regs = s.regs := by
  have hkind : unitEntry 8 c / 2 ^ 28 = 8 := by unfold unitEntry; omega
  have hindex : unitEntry 8 c / 2 ^ 7 % 2 ^ 21 = c := by unfold unitEntry; omega
  unfold State.unitFail
  rw [hkind, hindex]
  extract_lets n old v old₂ w
  have hn : n.regs = s.regs := by
    dsimp only [n, State.note]
    split <;> rfl
  have hv : v.isBad 8 c = true ∧ v.regs = n.regs := by
    by_cases h : n.isBad 8 c = true
    · rw [show v = n from if_pos h]
      exact ⟨h, rfl⟩
    · rw [show v = _ from if_neg h]
      exact ⟨by simp [State.isBad], rfl⟩
  clear_value n v
  have hw : w.isBad 8 c = true ∧ w.regs = n.regs := hv
  clear_value w
  split
  · next hfuse =>
    obtain ⟨x, hx, hu⟩ := List.any_eq_true.1 hfuse
    exact ⟨List.any_eq_true.2 ⟨x, hx, (Bool.and_eq_true_iff.1 hu).1⟩, hn⟩
  split
  · exact ⟨hv.1, hv.2.trans hn⟩
  split
  · unfold State.countFail
    split
    exacts [⟨hw.1, hw.2.trans hn⟩, ⟨hw.1, hw.2.trans hn⟩]
  · exact ⟨hw.1, hw.2.trans hn⟩

theorem markBad_marks (c : Dram) (s : State) : Completes (exec (.markBad c) s) fun t =>
    (s.chanState c < 2 ∨ 4 < s.chanState c → t = s) ∧
    (2 ≤ s.chanState c → s.chanState c ≤ 4 → t.chanState c = 1 ∧ t.isBad 8 c = true) := by
  by_cases h : 2 ≤ s.chanState c ∧ s.chanState c ≤ 4
  · have he : ∃ u : State, exec (.markBad c) s = .next (((u.setChanState c 1).unitFail (unitEntry 8 c)).planChanged.tierCheck) :=
      ⟨_, if_pos h⟩
    obtain ⟨u, he⟩ := he
    obtain ⟨hbad, hregs⟩ := unitFail_bad (u.setChanState c 1) c.isLt
    have hkept := (ChansKept.refl ((u.setChanState c 1).unitFail (unitEntry 8 c))).planChanged.tierCheck
    refine ⟨_, he, fun hn => by omega, fun _ _ => ⟨?_, (hkept.isBad_eq _ _).trans hbad⟩⟩
    rw [hkept.chanState_eq c.isLt, State.chanState, fld_congr _ hregs]
    exact (chanState_setChanState c.isLt c.isLt (by decide)).trans (if_pos rfl)
  · exact ⟨s, if_neg h, fun _ => rfl, fun h2 h4 => absurd ⟨h2, h4⟩ h⟩

theorem channelInitDone_ready (c : Dram) (s : State) (h : s.chanState c = 4) :
    Completes (exec (.channelInitDone c) s) fun t =>
      t.chanState c = 5 ∧ ∀ c2 < 64, c2 ≠ c.val → t.chanState c2 = s.chanState c2 := by
  have hkept := (ChansKept.refl (s.setChanState c 5)).tierCheck
  refine ⟨_, if_pos h, ?_, fun c2 hc2 hne => ?_⟩
  · rw [hkept.chanState_eq c.isLt, chanState_setChanState c.isLt c.isLt (by decide), if_pos rfl]
  · rw [hkept.chanState_eq hc2, chanState_setChanState c.isLt hc2 (by decide), if_neg hne]

/-! ### Rows, ranks and the pattern helper -/

/-- A rank that wakes shows its next state. -/
theorem wakeRank_state (s : State) (c : Nat) {rank next : Nat} (hr : rank < 2) (hn : next < 4) :
    (s.wakeRank c rank next).chanState c = s.chanState c ∧
    (s.wakeRank c rank next).fld (drcCh c Reg.DRC_CH_STATE) (25 + 2 * rank) (24 + 2 * rank) = next := by
  unfold State.wakeRank
  extract_lets u
  have hu : u.rd (drcCh c Reg.DRC_CH_STATE) = s.rd (drcCh c Reg.DRC_CH_STATE) := by
    dsimp only [u]
    split
    · exact (rd_bump64_drcCh _ _ (by decide) (by decide)).trans rfl
    · rfl
  clear_value u
  constructor
  · rw [State.chanState, fld_wrFld_other _ _ _ _ _ _ _ (by omega) (by omega) (by decide) (by omega), State.fld, State.rdN, hu]
    rfl
  · rw [fld_wrFld_same _ _ _ _ _ (by omega) (by omega), Nat.mod_eq_of_lt]
    rwa [show 25 + 2 * rank - (24 + 2 * rank) + 1 = 2 by omega]

theorem chanState_congr (h : t.regs = s.regs) (c : Nat) : t.chanState c = s.chanState c := fld_congr t h _ _ _

/-- A row that opens or is hit is counted, its rank awake. -/
theorem touchRow_counts (s : State) (c p : Nat) : ∃ rows, ∃ o ∈ [Reg.DRC_ROW_HITS, Reg.DRC_ACTS],
    s.touchRow c p = ({ s.wakeRank c (p / 2 ^ 33 % 2) 0 with openRows := rows } : State).bump64 (drcCh c o) 1 :=
  ⟨_, _, by split <;> simp, rfl⟩

theorem chanState_counted (s : State) (c : Nat) (rows : Table Nat) {o : Nat} (ho : o ∈ [Reg.DRC_ROW_HITS, Reg.DRC_ACTS]) :
    (({ s with openRows := rows } : State).bump64 (drcCh c o) 1).chanState c = s.chanState c := by
  have hrd : (({ s with openRows := rows } : State).bump64 (drcCh c o) 1).rd (drcCh c Reg.DRC_CH_STATE) =
      s.rd (drcCh c Reg.DRC_CH_STATE) := by
    simp only [List.mem_cons, List.not_mem_nil, or_false] at ho
    obtain rfl | rfl := ho
    · exact rd_bump64_drcCh _ _ (by decide) (by decide)
    · exact rd_bump64_drcCh _ _ (by decide) (by decide)
  rw [State.chanState, State.fld, State.rdN, hrd]
  rfl

theorem chanState_touchRow (s : State) (c p : Nat) : (s.touchRow c p).chanState c = s.chanState c := by
  obtain ⟨rows, o, ho, he⟩ := touchRow_counts s c p
  rw [he]
  exact (chanState_counted _ c rows ho).trans (wakeRank_state s c (Nat.mod_lt _ (by decide)) (by decide)).1

/-- A check chunk that is not held is read, and another may be written back. -/
theorem useCheck_cases (s : State) (c d : Nat) (write : Bool) (m : MemFind) : ∃ (u : State) (checks : _) (p q : Nat),
    s.useCheck c d write m = { u with checks } ∧ (u = s ∨ u = (s.bump (drcCh c Reg.DRC_CHK_MISS) 1).touchRow c p ∨
      u = ((s.bump (drcCh c Reg.DRC_CHK_MISS) 1).touchRow c p).touchRow c q) := by
  unfold State.useCheck
  extract_lets k held missed out evicted
  split
  · exact ⟨_, _, 0, 0, rfl, .inl rfl⟩
  split
  · exact ⟨_, _, _, 0, rfl, .inr (.inl rfl)⟩
  · dsimp only [evicted]
    split
    exacts [⟨_, _, _, _, rfl, .inr (.inr rfl)⟩, ⟨_, _, _, 0, rfl, .inr (.inl rfl)⟩]

theorem chanState_useCheck (s : State) (c d : Nat) (write : Bool) (m : MemFind) :
    (s.useCheck c d write m).chanState c = s.chanState c := by
  have hmiss : (s.bump (drcCh c Reg.DRC_CHK_MISS) 1).chanState c = s.chanState c :=
    fld_bump_ne _ _ _ _ (drcCh_off_ne (by decide))
  obtain ⟨u, checks, p, q, he, hu⟩ := useCheck_cases s c d write m
  rw [he]
  refine (chanState_congr (s := u) rfl c).trans ?_
  obtain rfl | rfl | rfl := hu
  · rfl
  · exact (chanState_touchRow _ c p).trans hmiss
  · exact (chanState_touchRow _ c q).trans ((chanState_touchRow _ c p).trans hmiss)

theorem chanState_wr (s : State) {o : Nat} (v : Word) (h : Reg.DRC_CH_STATE ≠ o) :
    (s.wr (drcCh c o) v).chanState c = s.chanState c := fld_wr_ne _ _ _ _ (drcCh_off_ne h)

/-- The fields that a write of the pattern register takes keep the operation. -/
theorem bitsOf_pattern_op (w : Word) : bitsOf (w &&& 0xF800FFFF).toNat 29 28 = bitsOf w.toNat 29 28 := by
  refine Nat.eq_of_testBit_eq fun i => ?_
  rw [bitsOf_testBit, bitsOf_testBit, BitVec.toNat_and, Nat.testBit_and]
  by_cases hi : i < 29 - 28 + 1
  · interval_cases i <;> simpa using fun _ => by decide
  · simp [hi]

/-- The registers that the start of the pattern helper changes. -/
def helperRegs (c : Nat) : List Nat :=
  [drcCh c Reg.DRC_TRAIN_PAT, drcCh c Reg.DRC_TRAIN_RESULT, drcCh c Reg.DRC_TRAIN_ERRS] ++ rowRegs c

/-- A write that starts the pattern helper. -/
theorem trainPatternStart_runs (c : Dram) (w : Word) (s : State) (hop : bitsOf w.toNat 29 28 ≠ 0)
    (hst : s.chanState c = 2 ∨ s.chanState c = 3) : Completes (exec (.trainPatternStart c w) s) fun t =>
      t.rd (drcCh c Reg.DRC_TRAIN_PAT) = w &&& 0xF800FFFF ∧ t.rd (drcCh c Reg.DRC_TRAIN_RESULT) = 0 ∧
      t.rd (drcCh c Reg.DRC_TRAIN_ERRS) = 0 ∧ t.patternRuns c = true ∧ t.chanState c = s.chanState c ∧
      t = { s with regs := t.regs, free := t.free, openRows := t.openRows } ∧
      RegsKept s t ([drcCh c Reg.DRC_TRAIN_PAT, drcCh c Reg.DRC_TRAIN_RESULT, drcCh c Reg.DRC_TRAIN_ERRS,
        drcCh c Reg.DRC_CH_STATE] ++ [Reg.DRC_PD_CYCLES, Reg.DRC_ROW_HITS, Reg.DRC_ACTS].flatMap (fun o =>
          [drcCh c o, drcCh c (o + 4)])) := by
  have he : ∃ p, exec (.trainPatternStart c w) s = .next ((((s.wr (drcCh c Reg.DRC_TRAIN_PAT) (w &&& 0xF800FFFF)).touchRow c p).wr
      (drcCh c Reg.DRC_TRAIN_RESULT) 0).wr (drcCh c Reg.DRC_TRAIN_ERRS) 0) :=
    ⟨_, if_pos ⟨hop, by rwa [chanState_wr _ _ (by decide)]⟩⟩
  obtain ⟨p, he⟩ := he
  have hwr : RowsOnly (helperRegs c) s (s.wr (drcCh c Reg.DRC_TRAIN_PAT) (w &&& 0xF800FFFF)) := (RowsOnly.refl s).wr (by simp [helperRegs])
  have hrows := hwr.trans (touchRow_rows (c := c) _ p fun k hk => List.mem_append_right _ hk)
  have hend := (hrows.wr (k := drcCh c Reg.DRC_TRAIN_RESULT) (v := 0) (by simp [helperRegs])).wr
    (k := drcCh c Reg.DRC_TRAIN_ERRS) (v := 0) (by simp [helperRegs])
  have hrow := (touchRow_rows (ks := rowRegs c) (s.wr (drcCh c Reg.DRC_TRAIN_PAT) (w &&& 0xF800FFFF)) p (List.Subset.refl _)).kept
    (drcCh c Reg.DRC_TRAIN_PAT) (by simp [rowRegs, drcCh_inj, Reg.DRC_TRAIN_PAT, Reg.DRC_CH_STATE, Reg.DRC_PD_CYCLES,
      Reg.DRC_ROW_HITS, Reg.DRC_ACTS])
  have hchecks := (touchRow_checks (s.wr (drcCh c Reg.DRC_TRAIN_PAT) (w &&& 0xF800FFFF)) c p).trans (wr_checks ..)
  have hchan := (chanState_touchRow (s.wr (drcCh c Reg.DRC_TRAIN_PAT) (w &&& 0xF800FFFF)) c p).trans (chanState_wr s _ (by decide))
  generalize State.touchRow _ _ p = u at he hend hrow hchecks hchan
  have hpat : ((u.wr (drcCh c Reg.DRC_TRAIN_RESULT) 0).wr (drcCh c Reg.DRC_TRAIN_ERRS) 0).rd (drcCh c Reg.DRC_TRAIN_PAT) =
      w &&& 0xF800FFFF := by
    rw [rd_wr_ne _ _ (drcCh_off_ne (by decide)), rd_wr_ne _ _ (drcCh_off_ne (by decide)), hrow, rd_wr_same]
  have hres : ((u.wr (drcCh c Reg.DRC_TRAIN_RESULT) 0).wr (drcCh c Reg.DRC_TRAIN_ERRS) 0).rd (drcCh c Reg.DRC_TRAIN_RESULT) = 0 := by
    rw [rd_wr_ne _ _ (drcCh_off_ne (by decide)), rd_wr_same]
  refine ⟨_, he, hpat, hres, rd_wr_same _ _ _, ?_, ?_, hend.frame.trans ?_, hend.kept⟩
  · rw [State.patternRuns, State.fld, State.rdN, hpat, bitsOf_pattern_op, State.rbit, State.rdN, hres]
    simp [hop, bitOf]
  · rw [chanState_wr _ _ (by decide), chanState_wr _ _ (by decide), hchan]
  · rw [wr_checks, wr_checks, hchecks]

theorem bitOf_fld_pair (s : State) (k lo : Nat) {i : Nat} (h : i < 2) : bitOf (s.fld k (lo + 1) lo) i = s.rbit k (lo + i) := by
  rw [bitOf_eq, State.fld, bitsOf_testBit, rbit_eq, Nat.add_comm i lo, decide_eq_true (by omega), Bool.true_and]

theorem rd_chanFlag (s : State) (c i : Nat) {o : Nat} (h : o ≠ Reg.DRC_CH_ERR_FLAGS) (ho : 0x1000 ≤ o) (ho' : o < 0x1400) :
    (s.chanFlag c i).rd (drcCh c o) = s.rd (drcCh c o) := by
  have hne : drcCh c o ≠ drcReg (c / 16) Reg.DRC_ERR_FLAGS := by
    simp only [drcCh, drcReg, regKey, blockBase, Reg.DRC_ERR_FLAGS]
    omega
  rw [State.chanFlag, rd_setFlag_ne _ _ hne, rd_setFlag_ne _ _ (drcCh_off_ne h)]

/-- The end of a pattern run in its registers; x is what a compare found, where there was one. -/
def State.helperShown (s : State) (c : Nat) (compared : Bool) (x : BitVec 16 × Nat) : State :=
  let s := s.wr (drcCh c Reg.DRC_TRAIN_RESULT) (BitVec.ofNat 32 (2 ^ 31 + x.1.toNat))
  let s := if compared then
    ({ s with free := s.free + 128 * 2 ^ 26 } : State).wr (drcCh c Reg.DRC_TRAIN_ERRS) (BitVec.ofNat 32 x.2) else s
  s.wrFld (drcCh c Reg.DRC_TRAIN_PAT) 29 28 0

theorem helperShown_eq (s : State) (c : Nat) (compared : Bool) (x : BitVec 16 × Nat) :
    ∃ free, s.helperShown c compared x = ((if compared then
      ({ s.wr (drcCh c Reg.DRC_TRAIN_RESULT) (BitVec.ofNat 32 (2 ^ 31 + x.1.toNat)) with free } : State).wr
        (drcCh c Reg.DRC_TRAIN_ERRS) (BitVec.ofNat 32 x.2)
      else s.wr (drcCh c Reg.DRC_TRAIN_RESULT) (BitVec.ofNat 32 (2 ^ 31 + x.1.toNat)))).wrFld (drcCh c Reg.DRC_TRAIN_PAT) 29 28 0 :=
  ⟨_, rfl⟩

/-- The result of a pattern run and the count of its beats are shown, with memory and patterns as they were. -/
structure HelperShows (c : Nat) (compared : Bool) (result errs : Word) (s t : State) : Prop where
  result : t.rd (drcCh c Reg.DRC_TRAIN_RESULT) = result
  errs : compared = true → t.rd (drcCh c Reg.DRC_TRAIN_ERRS) = errs
  mem : t.mem = s.mem
  patterns : t.patterns = s.patterns

theorem HelperShows.of_errs {compared : Bool} {result errs : Word} {free : Nat}
    (hres : t.rd (drcCh c Reg.DRC_TRAIN_RESULT) = result) (hmem : t.mem = s.mem) (hpat : t.patterns = s.patterns) :
    HelperShows c compared result errs s
      (if compared then ({ t with free } : State).wr (drcCh c Reg.DRC_TRAIN_ERRS) errs else t) := by
  cases compared with
  | false => exact ⟨hres, nofun, hmem, hpat⟩
  | true =>
    rw [if_pos rfl]
    exact ⟨(rd_wr_ne _ _ (drcCh_off_ne (by decide))).trans hres, fun _ => rd_wr_same .., (wr_mem ..).trans hmem,
      (wr_patterns ..).trans hpat⟩

theorem HelperShows.over {compared : Bool} {result errs : Word} (h : HelperShows c compared result errs s t) :
    HelperShows c compared result errs s (t.wrFld (drcCh c Reg.DRC_TRAIN_PAT) 29 28 0) :=
  ⟨(rd_wrFld_ne _ _ _ _ (drcCh_off_ne (by decide))).trans h.result,
    fun hc => (rd_wrFld_ne _ _ _ _ (drcCh_off_ne (by decide))).trans (h.errs hc), (wr_mem ..).trans h.mem,
    (wr_patterns ..).trans h.patterns⟩

theorem helperShown_shows (s : State) (c : Nat) (compared : Bool) (x : BitVec 16 × Nat) :
    HelperShows c compared (BitVec.ofNat 32 (2 ^ 31 + x.1.toNat)) (BitVec.ofNat 32 x.2) s (s.helperShown c compared x) := by
  obtain ⟨free, he⟩ := helperShown_eq s c compared x
  rw [he]
  exact .over (.of_errs (rd_wr_same ..) (wr_mem ..) (wr_patterns ..))

/-- The end of the pattern helper: a write has left its pattern, and its end is shown; a mismatch may be flagged. -/
theorem trainPatternDone_shown (c : Dram) (flips : BitVec 16) (beats : Word) (s : State) (h : s.patternRuns c = true) :
    ∃ (u : State) (x : BitVec 16 × Nat) (flagged : Bool),
      exec (.trainPatternDone c flips beats) s =
        .next (if flagged then (u.helperShown c (s.rbit (drcCh c Reg.DRC_TRAIN_PAT) 29) x).chanFlag c 4
          else u.helperShown c (s.rbit (drcCh c Reg.DRC_TRAIN_PAT) 29) x) ∧
      u = (if s.rbit (drcCh c Reg.DRC_TRAIN_PAT) 28 then
        { s with patterns := tput s.patterns c (s.patternRun c :: tget (fun _ => []) s.patterns c) } else s) ∧
      x = if s.rbit (drcCh c Reg.DRC_TRAIN_PAT) 29 then u.patternCompare c (s.patternRun c) flips beats.toNat else (0, 0) := by
  have he : exec (.trainPatternDone c flips beats) s = execTrainPatternDone c flips beats s := rfl
  rw [he, execTrainPatternDone, if_pos h]
  extract_lets op p u x v w z
  have hwrite : bitOf op 0 = s.rbit (drcCh c Reg.DRC_TRAIN_PAT) 28 := bitOf_fld_pair s _ 28 (by decide)
  have hcompare : bitOf op 1 = s.rbit (drcCh c Reg.DRC_TRAIN_PAT) 29 := bitOf_fld_pair s _ 28 (by decide)
  rw [← hwrite, ← hcompare]
  refine ⟨u, x, decide (bitOf op 1 = true ∧ x.1 ≠ 0 ∧ z.chanState c = 2), ?_, rfl, rfl⟩
  simp only [decide_eq_true_eq]
  rfl

/-- What the end of a pattern run shows, flagged or not. -/
theorem trainPatternDone_ends (c : Dram) (flips : BitVec 16) (beats : Word) (s : State) (h : s.patternRuns c = true) :
    Completes (exec (.trainPatternDone c flips beats) s) fun t =>
      t.rbit (drcCh c Reg.DRC_TRAIN_RESULT) 31 = true ∧ t.patternRuns c = false ∧ t.mem = s.mem ∧
      (s.rbit (drcCh c Reg.DRC_TRAIN_PAT) 28 = true →
        tget (fun _ => []) t.patterns c = s.patternRun c :: tget (fun _ => []) s.patterns c) ∧
      (s.rbit (drcCh c Reg.DRC_TRAIN_PAT) 28 = false → t.patterns = s.patterns) ∧
      (s.rbit (drcCh c Reg.DRC_TRAIN_PAT) 29 = true → s.rbit (drcCh c Reg.DRC_TRAIN_PAT) 28 = false →
        t.fld (drcCh c Reg.DRC_TRAIN_RESULT) 15 0 = (s.patternCompare c (s.patternRun c) flips beats.toNat).1.toNat ∧
        t.rd (drcCh c Reg.DRC_TRAIN_ERRS) =
          BitVec.ofNat 32 (s.patternCompare c (s.patternRun c) flips beats.toNat).2) := by
  obtain ⟨u, x, flagged, he, hu, hx⟩ := trainPatternDone_shown c flips beats s h
  obtain ⟨hres, herrs, hmem, hpats⟩ := helperShown_shows u c (s.rbit (drcCh c Reg.DRC_TRAIN_PAT) 29) x
  have hflag : ∃ t, exec (.trainPatternDone c flips beats) s = .next t ∧ t.mem = u.mem ∧ t.patterns = u.patterns ∧
      ∀ o ∈ [Reg.DRC_TRAIN_RESULT, Reg.DRC_TRAIN_PAT, Reg.DRC_TRAIN_ERRS],
        t.rd (drcCh c o) = (u.helperShown c (s.rbit (drcCh c Reg.DRC_TRAIN_PAT) 29) x).rd (drcCh c o) := by
    refine ⟨_, he, ?_⟩
    generalize u.helperShown c _ x = v at *
    cases flagged
    · exact ⟨hmem, hpats, fun _ _ => rfl⟩
    · refine ⟨?_, ?_, fun o ho => ?_⟩
      · exact (by rw [State.chanFlag, setFlag_eq, wr_mem, setFlag_eq, wr_mem] : (v.chanFlag c 4).mem = v.mem).trans hmem
      · exact (by rw [State.chanFlag, setFlag_eq, wr_patterns, setFlag_eq, wr_patterns] :
          (v.chanFlag c 4).patterns = v.patterns).trans hpats
      · simp only [List.mem_cons, List.not_mem_nil, or_false] at ho
        obtain rfl | rfl | rfl := ho
        · exact rd_chanFlag v c 4 (by decide) (by decide) (by decide)
        · exact rd_chanFlag v c 4 (by decide) (by decide) (by decide)
        · exact rd_chanFlag v c 4 (by decide) (by decide) (by decide)
  obtain ⟨t, ht, htm, htp, htr⟩ := hflag
  have hx1 : x.1.toNat < 2 ^ 16 := x.1.isLt
  have hresN : t.rdN (drcCh c Reg.DRC_TRAIN_RESULT) = 2 ^ 31 + x.1.toNat := by
    rw [State.rdN, htr _ (by simp), hres, BitVec.toNat_ofNat, Nat.mod_eq_of_lt (by omega)]
  have hdone : t.rbit (drcCh c Reg.DRC_TRAIN_RESULT) 31 = true := by
    rw [State.rbit, hresN, bitOf]
    simp only [beq_iff_eq]
    omega
  have hu28 (h28 : s.rbit (drcCh c Reg.DRC_TRAIN_PAT) 28 = false) : u = s := hu.trans (if_neg (by simp [h28]))
  refine ⟨t, ht, hdone, by rw [State.patternRuns, hdone]; simp, ?_, fun h28 => ?_, fun h28 => ?_, fun h29 h28 => ?_⟩
  · rw [htm, hu]
    split <;> rfl
  · rw [htp, hu, if_pos h28]
    exact tget_tput_same _ _ _ _
  · rw [htp, hu28 h28]
  · obtain rfl := hu28 h28
    rw [if_pos h29] at hx
    rw [htr _ (by simp), herrs h29, ← hx, State.fld, hresN]
    refine ⟨?_, rfl⟩
    rw [bitsOf]
    omega

/-! ### Power-down, refresh and the scrubber of LPDDR5X -/

theorem powerDownExpiry_sleeps (c : Dram) (rank : Bool) (s : State) (hst : 2 ≤ s.chanState c)
    (htimer : s.rdN (drcCh c Reg.DRC_PD_TIMER) ≠ 0)
    (hawake : s.fld (drcCh c Reg.DRC_CH_STATE) (if rank then 27 else 25) (if rank then 26 else 24) = 0)
    (hidle : ∀ x ∈ s.bankQ, ∀ k row chunk, s.bankOf x.addr = some (k, row, chunk) → k / 16 ≠ c.val * 2 + (if rank then 1 else 0)) :
    Completes (exec (.powerDownExpiry c rank) s) fun t => OnlyRegs s t [drcCh c Reg.DRC_CH_STATE] ∧
      t.chanState c = s.chanState c ∧
      t.fld (drcCh c Reg.DRC_CH_STATE) (if rank then 27 else 25) (if rank then 26 else 24) = 1 := by
  have hlo : (if rank then 27 else 25) = (if rank then 26 else 24) + 1 := by cases rank <;> rfl
  have hhi : 24 ≤ (if rank then 26 else 24) ∧ (if rank then 26 else 24) ≤ 26 := by cases rank <;> decide
  rw [hlo] at hawake ⊢
  generalize hl : (if rank then 26 else 24) = lo at hhi hawake ⊢
  have he : exec (.powerDownExpiry c rank) s = .next (s.wrFld (drcCh c Reg.DRC_CH_STATE) (lo + 1) lo 1) := by
    subst hl
    refine if_neg (not_or.2 ⟨by omega, not_or.2 ⟨fun hheld => ?_, not_or.2 ⟨htimer, by omega⟩⟩⟩)
    obtain ⟨x, hx, hb⟩ := List.any_eq_true.1 hheld
    split at hb
    · next hat => exact hidle x hx _ _ _ hat (by simpa using hb)
    · cases hb
  refine ⟨_, he, .wr _ _ _ (by simp), ?_, ?_⟩
  · exact fld_wrFld_other _ _ _ _ _ _ _ (by omega) (by omega) (by decide) (by omega)
  · rw [fld_wrFld_same _ _ _ _ _ (by omega) (by omega), Nat.add_sub_cancel_left]
    rfl

/-- The registers of a channel that a rank's waking changes. -/
def wakeRegs (c : Nat) : List Nat :=
  [drcCh c Reg.DRC_CH_STATE, drcCh c Reg.DRC_PD_CYCLES, drcCh c (Reg.DRC_PD_CYCLES + 4)]

theorem refreshDue_closes (c : Dram) (rank : Bool) (bank : Fin 16) (s : State) (hst : 2 ≤ s.chanState c) :
    Completes (exec (.refreshDue c ⟨rank, bank⟩) s) fun t =>
      t = { s with regs := t.regs, openRows := t.openRows, hitRuns := t.hitRuns, free := t.free } ∧
      RegsKept s t (wakeRegs c) ∧ t.chanState c = s.chanState c ∧
      t.fld (drcCh c Reg.DRC_CH_STATE) (if rank then 27 else 25) (if rank then 26 else 24) = 2 ∧
      ∀ k, tget (fun _ => 0) t.openRows k = if k = c.val * 32 + (if rank then 16 else 0) + bank.val then 0
        else tget (fun _ => 0) s.openRows k := by
  obtain ⟨u, n, he, hu, hn, hfld⟩ : ∃ (u : State) (n : Nat), exec (.refreshDue c ⟨rank, bank⟩) s = .next (u.wakeRank c n 2) ∧
      (∃ hits, u = { s with openRows := terase s.openRows (c.val * 32 + (if rank then 16 else 0) + bank.val), hitRuns := hits }) ∧
      n < 2 ∧ ∀ t : State, t.fld (drcCh c Reg.DRC_CH_STATE) (if rank then 27 else 25) (if rank then 26 else 24) =
        t.fld (drcCh c Reg.DRC_CH_STATE) (25 + 2 * n) (24 + 2 * n) := by
    refine ⟨_, _, if_neg (by show ¬ s.chanState c ≤ 1; omega), ⟨_, rfl⟩, ?_, ?_⟩
    · cases rank
      exacts [Nat.zero_lt_two, Nat.one_lt_two]
    · intro t
      cases rank <;> rfl
  obtain ⟨hchan, hnext⟩ := wakeRank_state u c hn (next := 2) (by decide)
  have hkept := (wakeRank_rows (ks := wakeRegs c) (c := c) u n 2 (by simp [wakeRegs]) (by simp [wakeRegs]) (by simp [wakeRegs])).kept
  obtain ⟨regs, free, hw⟩ := wakeRank_frame u c n 2
  rw [← hfld] at hnext
  refine ⟨_, he, ?_⟩
  generalize u.wakeRank c n 2 = t at *
  obtain ⟨hits, hu⟩ := hu
  have hregs : u.regs = s.regs := by rw [hu]
  refine ⟨hw.trans (by rw [hw, hu]), fun k hk => (hkept k hk).trans (rd_congr hregs k), hchan.trans (chanState_congr hregs c), hnext, fun k => ?_⟩
  rw [hw, hu]
  exact tget_terase _ _ _ _

theorem lpddrPatrolRead_clean (c : Dram) (k : Nat) (s : State) (hst : s.chanState c = 5) (hk : k < chanBytes / 256)
    (hperiod : s.rdN (drcReg (c / 16) Reg.DRC_SCRUB_PERIOD) ≠ 0) (hclean : s.poison = []) :
    exec (.lpddrPatrolRead c k []) s =
      .next ((s.touchRow c (dataPhys (256 * k))).useCheck c (256 * k) false ⟨[], 0, none, 0⟩) := by
  have he : exec (.lpddrPatrolRead c k []) s = execLpddrPatrolRead c k [] s := rfl
  have hrows : RowsOnly (drcCh c Reg.DRC_CHK_MISS :: rowRegs c) s
      ((s.touchRow c (dataPhys (256 * k))).useCheck c (256 * k) false ⟨[], 0, none, 0⟩) :=
    (touchRow_rows s _ (by simp)).trans (useCheck_rows _ _ _ _ (by simp) (by simp))
  rw [he, execLpddrPatrolRead]
  extract_lets u A t v
  have hu : u.poison = [] := hrows.poison_eq.trans hclean
  have hpoisoned (a : Nat) : u.poisoned a = false := by rw [State.poisoned, hu]; rfl
  have hclosed : u.closedBad c k = false := by rw [State.closedBad, hu]; rfl
  rw [if_neg (by simp [hst, hperiod]; omega)]
  by_cases hopen : u.tierOpen = true
  · rw [if_pos hopen]
    exact congrArg Host.Outcome.next (patrol_clean (hpoisoned A))
  · rw [if_neg hopen, if_neg (by simp [hclosed])]
    rfl

/-- Settles O25: each command of a memory controller by what it does in its channel. -/
theorem memoryControllersComplete : Obligations.MemoryControllersComplete := by
  refine ⟨fun b o s ho h32 hrow hperiod hclean => ⟨_, cremaPatrolRead_clean b o s ho h32 hrow hperiod hclean, rfl⟩,
    scrubNow_sweeps, trainStart_moves, initStart_moves, markBad_marks, channelInitDone_ready, trainPatternStart_runs,
    trainPatternDone_ends, powerDownExpiry_sleeps, refreshDue_closes, fun c k s hst hk hperiod hclean => ?_⟩
  refine ⟨_, lpddrPatrolRead_clean c k s hst hk hperiod hclean, ?_, ?_⟩
  · rw [chanState_useCheck, chanState_touchRow, hst]
  · have hsub (c : Nat) : rowRegs c ⊆ [drcCh c Reg.DRC_CH_STATE, drcCh c Reg.DRC_CHK_MISS] ++
        [Reg.DRC_PD_CYCLES, Reg.DRC_ROW_HITS, Reg.DRC_ACTS].flatMap fun o => [drcCh c o, drcCh c (o + 4)] := fun k hk => by
      simp only [rowRegs, List.mem_cons, List.mem_append] at hk ⊢
      tauto
    have hrows : RowsOnly ([drcCh c Reg.DRC_CH_STATE, drcCh c Reg.DRC_CHK_MISS] ++
        [Reg.DRC_PD_CYCLES, Reg.DRC_ROW_HITS, Reg.DRC_ACTS].flatMap fun o => [drcCh c o, drcCh c (o + 4)]) s
        ((s.touchRow c (dataPhys (256 * k))).useCheck c (256 * k) false ⟨[], 0, none, 0⟩) :=
      (touchRow_rows s _ (hsub c)).trans (useCheck_rows _ _ _ _ (hsub c) (by simp))
    exact ⟨hrows.frame, hrows.kept⟩

end Sys2Proof.Machine
end

section
set_option Elab.async false
/-! SUPPORT. Power and heat: caps, levels, stretching, sensors, trip points and telemetry (R410 to R421). -/

namespace Sys2Proof.Machine

variable {s₀ s t u : State}

/-! ### A sensor at the shutdown point (R416 to R418) -/

theorem le_foldl_max {n a : Nat} {xs : List Nat} (h : n ≤ a ∨ n ∈ xs) : n ≤ xs.foldl max a := by
  induction xs generalizing a with
  | nil => simpa using h
  | cons x xs ih =>
    refine ih ?_
    rw [List.mem_cons] at h
    rcases h with h | rfl | h
    · exact .inl (h.trans (Nat.le_max_left _ _))
    · exact .inl (Nat.le_max_right _ _)
    · exact .inr h

theorem foldl_max_lt {n a : Nat} {xs : List Nat} (ha : a < n) (h : ∀ x ∈ xs, x < n) : xs.foldl max a < n := by
  induction xs generalizing a with
  | nil => exact ha
  | cons x xs ih =>
    exact ih (Nat.max_lt.2 ⟨ha, h x List.mem_cons_self⟩) fun y hy => h y (List.mem_cons_of_mem x hy)

/-- A thermal shutdown latches the module off, with its cause in the fault log. -/
theorem shutdown_latches {c : Nat} (src : Nat) (hc : 3 ≤ c) (h : s.board.held = false) : let t := s.shutdown c src
    t.board = { s.board with rails := false, pwrgd := false, fault := true, held := true, latched := true } ∧
    t.nv.log = s.nv.log ++ [c + 16 * src] ∧ WorkLost t := by
  refine ⟨?_, ?_, (stop_workLost h).setPinsAndStorage _ _⟩
  · have hlatch : decide (3 ≤ c) = true := by simp [hc]
    simp [State.shutdown, State.logShutdown, State.setBoard, stop_board, hlatch]
  · simp [State.shutdown, State.logShutdown, State.setBoard, stop_nv]

/-- The sensors of a source are read: their values and what fails are kept, and a die's hottest is shown. -/
def State.sensorsKept (s : State) (src : Nat) (ts : List (Option Nat)) : State :=
  let failed := (ts.zipIdx.filter (fun t => t.1.isNone)).map (·.2)
  let h := s.heatAt src
  let s := s.setHeat src { h with temps := ts.map sensorValue, failed := failed }
  let s := if failed.any (fun i => !h.failed.contains i) then s.pwrFlag 7 else s
  if src < 16 then s.wrFld (pwrDie src Reg.PWR_D_STATUS) 14 8 ((ts.map sensorValue).foldl max 0) else s

theorem sensorRead_next {src : Fin 22} {ts : List (Option Nat)} (hr : s.running = true) (hlen : ts.length = sensorsOf src) :
    exec (.sensorRead src ts) s = .next
      (if (if src.val = 21 then 125 else 115) ≤ (ts.map sensorValue).foldl max 0 then
        (s.sensorsKept src ts).shutdown (if src.val = 21 then 4 else 3) src
      else if src.val = 21 then s.sensorsKept src ts
      else (s.sensorsKept src ts).judgeHeat src ((ts.map sensorValue).foldl max 0)) :=
  if_neg (by simp [hr, hlen])

theorem pwrFlag_onlyRegs (s : State) (i : Nat) :
    OnlyRegs s (s.pwrFlag i) [pwrReg Reg.PWR_ERR_FLAGS, pwrReg Reg.PWR_FAULT_COUNT] :=
  (OnlyRegs.wr s _ _ (by simp)).trans (.wr _ _ _ (by simp))

theorem sensorsKept_onlyRegs (s : State) (src : Nat) (ts : List (Option Nat)) :
    OnlyRegs (s.setHeat src { s.heatAt src with
        temps := ts.map sensorValue, failed := (ts.zipIdx.filter (fun t => t.1.isNone)).map (·.2) })
      (s.sensorsKept src ts) [pwrReg Reg.PWR_ERR_FLAGS, pwrReg Reg.PWR_FAULT_COUNT, pwrDie src Reg.PWR_D_STATUS] := by
  have hflag (u : State) : OnlyRegs u (u.pwrFlag 7) [pwrReg Reg.PWR_ERR_FLAGS, pwrReg Reg.PWR_FAULT_COUNT, pwrDie src Reg.PWR_D_STATUS] :=
    (pwrFlag_onlyRegs u 7).mono (by simp)
  unfold State.sensorsKept
  extract_lets failed h u v
  have hv : OnlyRegs u v [pwrReg Reg.PWR_ERR_FLAGS, pwrReg Reg.PWR_FAULT_COUNT, pwrDie src Reg.PWR_D_STATUS] :=
    .ite (hflag u) (.refl _ _)
  exact .ite (hv.trans (.wr _ _ _ (by simp))) hv

theorem sensorsKept_board (s : State) (src : Nat) (ts : List (Option Nat)) : (s.sensorsKept src ts).board = s.board :=
  (congrArg State.board (sensorsKept_onlyRegs s src ts).1).trans rfl

theorem sensorsKept_nv (s : State) (src : Nat) (ts : List (Option Nat)) : (s.sensorsKept src ts).nv = s.nv :=
  (congrArg State.nv (sensorsKept_onlyRegs s src ts).1).trans rfl

theorem running_held (h : s.running = true) : s.board.held = false := by
  rw [State.running, Bool.and_eq_true, Bool.not_eq_true'] at h
  exact h.1

/-- Settles O29: the hottest sensor stands at the shutdown point, so the module stops and latches. -/
theorem shutdownPointTurnsTheModuleOff : Obligations.ShutdownPointTurnsTheModuleOff := by
  intro src ts s hr hlen ⟨x, hx, hhot⟩
  have hfold : (if src.val = 21 then 125 else 115) ≤ (ts.map sensorValue).foldl max 0 :=
    hhot.trans (le_foldl_max (.inr (List.mem_map_of_mem hx)))
  refine ⟨_, (sensorRead_next hr hlen).trans (congrArg Host.Outcome.next (if_pos hfold)), ?_⟩
  have hcause : 3 ≤ if src.val = 21 then 4 else 3 := by split <;> decide
  have hheld : (s.sensorsKept src ts).board.held = false := by rw [sensorsKept_board, running_held hr]
  obtain ⟨hboard, hlog, hlost⟩ := shutdown_latches src hcause hheld
  rw [sensorsKept_board] at hboard
  rw [sensorsKept_nv] at hlog
  exact ⟨hboard, hlog, hlost⟩

/-! ### Levels of a die (R411) -/

theorem pwrDie_ne_reg {d o o' : Nat} (h : 0x100 ≤ o) (h' : o' < 0x100) : pwrDie d o ≠ pwrReg o' := by
  simp only [pwrDie, pwrReg, regKey]
  omega

theorem pwrDie_off_ne {d o o' : Nat} (h : o ≠ o') : pwrDie d o ≠ pwrDie d o' := by
  simp only [pwrDie, pwrReg, regKey]
  omega

/-- The throttle level follows its three inputs, which stay. -/
theorem levels_onlyRegs (s : State) (d : Nat) :
    OnlyRegs s (s.levels d) [pwrDie d Reg.PWR_D_STATUS, pwrReg Reg.PWR_STATUS] :=
  (OnlyRegs.wr s _ _ (by simp)).trans (.wr _ _ _ (by simp))

theorem levels_inputs (s : State) (d : Nat) {hi lo : Nat} (h : lo ≤ hi) (h' : hi < 27) :
    (s.levels d).fld (pwrDie d Reg.PWR_D_STATUS) hi lo = s.fld (pwrDie d Reg.PWR_D_STATUS) hi lo := by
  have hne : pwrDie d Reg.PWR_D_STATUS ≠ pwrReg Reg.PWR_STATUS := pwrDie_ne_reg (by decide) (by decide)
  rw [State.levels, fld_wrFld_ne _ _ _ _ _ _ hne, fld_wrFld_other _ _ _ _ _ _ _ (by decide) (by decide) h (.inl h')]

theorem setPowerLevel_level (s : State) (d : Nat) {l : Nat} (h : l < 16) : (s.setPowerLevel d l).powerLevel d = l :=
  (levels_inputs _ d (by decide) (by decide)).trans
    ((fld_wrFld_same _ _ _ _ _ (by decide) (by decide)).trans (Nat.mod_eq_of_lt h))

theorem setThermalLevel_level (s : State) (d : Nat) {l : Nat} (h : l < 32) : (s.setThermalLevel d l).thermalLevel d = l :=
  (levels_inputs _ d (by decide) (by decide)).trans
    ((fld_wrFld_same _ _ _ _ _ (by decide) (by decide)).trans (Nat.mod_eq_of_lt h))

theorem setPowerLevel_onlyRegs (s : State) (d l : Nat) :
    OnlyRegs s (s.setPowerLevel d l) [pwrDie d Reg.PWR_D_STATUS, pwrReg Reg.PWR_STATUS] :=
  (OnlyRegs.wr s _ _ (by simp)).trans (levels_onlyRegs _ d)

theorem setThermalLevel_onlyRegs (s : State) (d l : Nat) :
    OnlyRegs s (s.setThermalLevel d l) [pwrDie d Reg.PWR_D_STATUS, pwrReg Reg.PWR_STATUS] :=
  (OnlyRegs.wr s _ _ (by simp)).trans (levels_onlyRegs _ d)

/-- An event of function 0 is no register of the PWR block. -/
theorem event_pwr (s : State) (f code arg status : Nat) {o : Nat} (ho : o < 0x100000) :
    (s.event f code arg status).rd (pwrReg o) = s.rd (pwrReg o) := by
  have hne (o' : Nat) : pwrReg o ≠ pageReg f o' := by
    simp only [pwrReg, pageReg, regKey, blockBase]
    omega
  rcases event_cases s f code arg status with h | ⟨_, _, h⟩ <;> rw [h]
  · rw [rd_setFlag_ne _ _ (hne _), rd_bump_ne _ _ (hne _)]
  · rfl

/-- A power event may flag its cause, and leaves a die's registers. -/
theorem pwrEvent_die (s : State) (i kind src value d : Nat) {o : Nat} (hd : d < 16) (ho : 0x100 ≤ o) (ho' : o < 0x10000) :
    ((s.pwrFlag i).pwrEvent kind src value).rd (pwrDie d o) = s.rd (pwrDie d o) ∧
    ((s.pwrFlag i).pwrEvent kind src value).mem = s.mem := by
  refine ⟨(event_pwr _ _ _ _ _ (by omega)).trans ((pwrFlag_onlyRegs s i).2 _ ?_), (event_mem ..).trans (pwrFlag_onlyRegs s i).mem_eq⟩
  simp only [List.mem_cons, List.not_mem_nil, or_false, not_or]
  exact ⟨pwrDie_ne_reg ho (by decide), pwrDie_ne_reg ho (by decide)⟩

/-! ### Caps (R413, R414) -/

theorem moduleCapStep_scales (p : Nat) (s : State) (hr : s.running = true) (hready : s.isReady = true) :
    Completes (exec (.moduleCapStep p) s) fun t =>
      t.scale = nextScale s.scale (s.moduleCap (s.domainSet 20)) p ∧ t = { s with regs := t.regs, scale := t.scale } ∧
      RegsKept s t (pwrReg Reg.PWR_STATUS :: (List.range 16).map (fun d => pwrDie d Reg.PWR_D_CAP)) := by
  have he : exec (.moduleCapStep p) s = .next ((({ s with scale := nextScale s.scale (s.moduleCap (s.domainSet 20)) p } : State).each
      (List.range 16) fun s d => s.showCap d).showScale) := if_neg (by simp [hr, hready])
  generalize nextScale s.scale (s.moduleCap (s.domainSet 20)) p = x at he ⊢
  have honly : OnlyRegs ({ s with scale := x } : State) ((({ s with scale := x } : State).each (List.range 16) fun s d =>
      s.showCap d).showScale) (pwrReg Reg.PWR_STATUS :: (List.range 16).map (fun d => pwrDie d Reg.PWR_D_CAP)) :=
    ((OnlyRegs.each _ fun d hd t => .wr t _ _ (List.mem_cons_of_mem _ (List.mem_map_of_mem hd))).trans
      (.wr _ _ _ (by simp))).trans (.wr _ _ _ (by simp))
  exact ⟨_, he, (congrArg State.scale honly.1).trans rfl, honly.1.trans (by rw [honly.1]), fun k hk => (honly.2 k hk).trans rfl⟩

theorem showCap_dieLimit (s : State) (d : Die) : (s.showCap d).dieLimit d = s.dieLimit d := by
  have hne : regKey .ctl Reg.CTL_STATUS ≠ pwrDie d Reg.PWR_D_CAP := by
    simp only [pwrDie, pwrReg, regKey, blockBase, Reg.CTL_STATUS]
    omega
  have hset (v : Word) : (s.wr (pwrDie d Reg.PWR_D_CAP) v).domainSet d = s.domainSet d := by
    have hactive : (s.wr (pwrDie d Reg.PWR_D_CAP) v).activeSet = s.activeSet := fld_wr_ne _ _ _ _ hne
    rw [State.domainSet, hactive, wr_swap, State.domainSet]
  have hkey (set : Nat) : setKey set (0x104 + 4 * d) ≠ pwrDie d Reg.PWR_D_CAP := by
    simp only [setKey, pwrDie, pwrReg, regKey, blockBase, Reg.PWR_D_CAP]
    omega
  rw [State.showCap, State.dieLimit, hset, State.dieCap, wr_scale, fld_wr_ne _ _ _ _ (hkey _)]
  rfl

theorem showCap_onlyRegs (s : State) (d : Nat) : OnlyRegs s (s.showCap d) [pwrDie d Reg.PWR_D_CAP] := .wr s _ _ (by simp)

/-- The power level that a measurement calls for. -/
def State.levelFor (s : State) (d p : Nat) : Nat :=
  if (s.dieLimit d).1 < p * (s.dieLimit d).2 then min 15 (s.powerLevel d + 1)
  else if p * (s.dieLimit d).2 * 100 < 95 * (s.dieLimit d).1 then s.powerLevel d - 1 else s.powerLevel d

theorem powerLevel_lt (s : State) (d : Nat) : s.powerLevel d < 16 := bitsOf_lt _ 26 23

/-- The die's new level, before what it leaves unmet is told. -/
def State.levelled (s : State) (d p : Nat) : State :=
  if (s.dieLimit d).1 < p * (s.dieLimit d).2 then s.setPowerLevel d (min 15 (s.powerLevel d + 1))
  else if p * (s.dieLimit d).2 * 100 < 95 * (s.dieLimit d).1 then s.setPowerLevel d (s.powerLevel d - 1) else s

theorem levelled_level (s : State) (d p : Nat) : (s.levelled d p).powerLevel d = s.levelFor d p ∧ (s.levelled d p).mem = s.mem := by
  have hlt := powerLevel_lt s d
  unfold State.levelled State.levelFor
  split
  · exact ⟨setPowerLevel_level _ _ (by omega), (setPowerLevel_onlyRegs ..).mem_eq⟩
  split
  · exact ⟨setPowerLevel_level _ _ (by omega), (setPowerLevel_onlyRegs ..).mem_eq⟩
  · exact ⟨rfl, rfl⟩

theorem powerLevel_congr {d : Nat} (h : t.rd (pwrDie d Reg.PWR_D_STATUS) = s.rd (pwrDie d Reg.PWR_D_STATUS)) :
    t.powerLevel d = s.powerLevel d := congrArg (fun w : Word => bitsOf w.toNat 26 23) h

theorem thermalLevel_congr {d : Nat} (h : t.rd (pwrDie d Reg.PWR_D_STATUS) = s.rd (pwrDie d Reg.PWR_D_STATUS)) :
    t.thermalLevel d = s.thermalLevel d := congrArg (fun w : Word => bitsOf w.toNat 22 18) h

theorem dieCapEval_levels (d : Die) (p : Nat) (s : State) (hr : s.running = true) (hready : s.isReady = true)
    (hreach : s.dieReach d = true) : Completes (exec (.dieCapEval d p) s) fun t =>
      t.mem = s.mem ∧ t.powerLevel d = s.levelFor d p := by
  obtain ⟨h, told, he⟩ : ∃ (h : Heat) (told : Bool), exec (.dieCapEval d p) s = .next (if told then
      ((((s.showCap d).levelled d p).setHeat d h).pwrFlag 3).pwrEvent 4 d p else ((s.showCap d).levelled d p).setHeat d h) := by
    show ∃ (h : Heat) (told : Bool), execDieCapEval d p s = _
    rw [execDieCapEval, if_neg (by simp [hr, hready, hreach])]
    extract_lets u c above l unmet v h w
    have hv : v = u.levelled d p := by
      dsimp only [v, above]
      simp only [decide_eq_true_eq]
      rfl
    refine ⟨{ h with unmet := unmet }, unmet && !h.unmet, ?_⟩
    rw [← hv]
  obtain ⟨hlevel, hmem⟩ := levelled_level (s.showCap d) d p
  have hshow : (s.showCap d).powerLevel d = s.powerLevel d :=
    powerLevel_congr ((showCap_onlyRegs s d).2 _ (by simpa using pwrDie_off_ne (by decide)))
  have hfor : (s.showCap d).levelFor d p = s.levelFor d p := by
    rw [State.levelFor, showCap_dieLimit, hshow, State.levelFor]
  rw [hfor] at hlevel
  replace hmem := hmem.trans (showCap_onlyRegs s d).mem_eq
  generalize (s.showCap d).levelled d p = u at he hlevel hmem
  refine ⟨_, he, ?_⟩
  cases told
  · exact ⟨hmem, hlevel⟩
  · obtain ⟨hrd, hm⟩ := pwrEvent_die (u.setHeat d h) 3 4 d p d d.isLt (o := Reg.PWR_D_STATUS) (by decide) (by decide)
    exact ⟨hm.trans hmem, (powerLevel_congr hrd).trans hlevel⟩

/-! ### Stretching (R410) -/

theorem heatAt_setHeat (s : State) (i : Nat) (h : Heat) : (s.setHeat i h).heatAt i = h := tget_tput_same _ _ _ _

theorem droopDetect_stretches (d : Die) (s : State) (hr : s.running = true) (hst : (s.heatAt d).stretched = false) :
    Completes (exec (.droopDetect d) s) fun t => (t.heatAt d).stretched = true ∧
      t.rd (pwrDie d Reg.PWR_D_STRETCHES) = s.rd (pwrDie d Reg.PWR_D_STRETCHES) + 1 ∧
      t.rbit (pwrReg Reg.PWR_ERR_FLAGS) 5 = true ∧
      t.rd (pwrReg Reg.PWR_FAULT_COUNT) = s.rd (pwrReg Reg.PWR_FAULT_COUNT) + 1 ∧
      RegsKept s t [pwrDie d Reg.PWR_D_STRETCHES, pwrReg Reg.PWR_ERR_FLAGS, pwrReg Reg.PWR_FAULT_COUNT] := by
  have he : exec (.droopDetect d) s =
      .next (((s.setHeat d { s.heatAt d with stretched := true }).bump (pwrDie d Reg.PWR_D_STRETCHES) 1).pwrFlag 5) :=
    if_neg (by simp [hr, hst])
  have hheat := heatAt_setHeat s d { s.heatAt d with stretched := true }
  have hregs : (s.setHeat d { s.heatAt d with stretched := true }).regs = s.regs := rfl
  generalize s.setHeat d { s.heatAt d with stretched := true } = u at he hheat hregs
  have honly : OnlyRegs u ((u.bump (pwrDie d Reg.PWR_D_STRETCHES) 1).pwrFlag 5)
      [pwrDie d Reg.PWR_D_STRETCHES, pwrReg Reg.PWR_ERR_FLAGS, pwrReg Reg.PWR_FAULT_COUNT] :=
    (OnlyRegs.wr u _ _ (by simp)).trans ((pwrFlag_onlyRegs _ 5).mono (by simp))
  have hne (o : Nat) (ho : o < 0x100) : pwrDie d Reg.PWR_D_STRETCHES ≠ pwrReg o := pwrDie_ne_reg (by decide) ho
  refine ⟨_, he, ?_, ?_, ?_, ?_, fun k hk => (honly.2 k hk).trans (rd_congr hregs k)⟩
  · have hsame : ((u.bump (pwrDie d Reg.PWR_D_STRETCHES) 1).pwrFlag 5).heatAt d = u.heatAt d :=
      congrArg (fun x => tget (fun _ => Heat.init) x d.val) ((congrArg State.heat honly.1).trans rfl)
    rw [hsame, hheat]
  · rw [State.pwrFlag, rd_bump_ne _ _ (hne _ (by decide)), rd_setFlag_ne _ _ (hne _ (by decide)), rd_bump_same, rd_congr hregs]
    rfl
  · rw [State.pwrFlag, rbit_bump_ne _ _ _ (by decide), rbit_setFlag_same _ _ _ (by decide)]
  · rw [State.pwrFlag, rd_bump_same, rd_setFlag_ne _ _ (by decide), rd_bump_ne _ _ (hne _ (by decide)).symm, rd_congr hregs]
    rfl

/-! ### Sensors below their points (R416, R417) -/

/-- Where every sensor answers, none is newly out. -/
theorem sensorsKept_answering (s : State) {src : Nat} {ts : List (Option Nat)} (h : ∀ x ∈ ts, ∃ n, x = some n) :
    s.sensorsKept src ts =
      if src < 16 then
        (s.setHeat src { s.heatAt src with temps := ts.map sensorValue, failed := [] }).wrFld (pwrDie src Reg.PWR_D_STATUS) 14 8
          ((ts.map sensorValue).foldl max 0)
      else s.setHeat src { s.heatAt src with temps := ts.map sensorValue, failed := [] } := by
  have hnone : (ts.zipIdx.filter fun t => t.1.isNone) = [] := by
    refine List.filter_eq_nil_iff.2 fun t ht => ?_
    obtain ⟨n, hn⟩ := h t.1 (List.fst_mem_of_mem_zipIdx ht)
    simp [hn]
  unfold State.sensorsKept
  rw [hnone]
  rfl

theorem hottest_lt {ts : List (Option Nat)} {n : Nat} (hn : 0 < n) (h : ∀ x ∈ ts, sensorValue x < n) :
    (ts.map sensorValue).foldl max 0 < n :=
  foldl_max_lt hn fun x hx => by
    obtain ⟨y, hy, rfl⟩ := List.mem_map.1 hx
    exact h y hy

theorem sensorsOf_pos (src : Nat) : 0 < sensorsOf src := by
  unfold sensorsOf
  split_ifs <;> decide

/-- A source below its points, not critical before, is neither warned of nor critical. -/
theorem judgeHeat_cool {src hot : Nat} (hw : hot < s.warnPoint) (hcrit : hot < s.criticalPoint)
    (h : (s.heatAt src).critical = false) : ∃ v, s.judgeHeat src hot =
      (s.setHeat src { s.heatAt src with warn := false, critical := false }).wrFld (pwrReg Reg.PWR_STATUS) 29 29 v := by
  unfold State.judgeHeat
  extract_lets x warn enter leave u₁ u₂ u₃ u₄
  have hwarn : warn = false := decide_eq_false (by omega)
  have henter : enter = false := by
    dsimp only [enter]
    rw [decide_eq_false (by omega : ¬ s.criticalPoint ≤ hot), Bool.and_false]
  have hleave : leave = false := by
    dsimp only [leave, x]
    rw [h, Bool.false_and]
  have h₁ : u₁ = s.setHeat src { x with warn := false, critical := false } := by
    dsimp only [u₁]
    rw [hwarn, henter, hleave, show x.critical = false from h]
    rfl
  have h₂ : u₂ = u₁ := if_neg (by simp [hwarn])
  have h₃ : u₃ = u₂ := if_neg (by simp [henter])
  have h₄ : u₄ = u₃ := by
    dsimp only [u₄]
    simp only [henter, hleave, Bool.false_eq_true, if_false, ite_self]
  rw [h₄, h₃, h₂, h₁]
  exact ⟨_, rfl⟩

theorem points_of_pwrDie {d : Nat} (s : State) (v : Nat) :
    (s.wrFld (pwrDie d Reg.PWR_D_STATUS) 14 8 v).warnPoint = s.warnPoint ∧
    (s.wrFld (pwrDie d Reg.PWR_D_STATUS) 14 8 v).criticalPoint = s.criticalPoint := by
  have hne : pwrReg Reg.PWR_TRIP ≠ pwrDie d Reg.PWR_D_STATUS := (pwrDie_ne_reg (by decide) (by decide)).symm
  exact ⟨fld_wrFld_ne _ _ _ _ _ _ hne, fld_wrFld_ne _ _ _ _ _ _ hne⟩

theorem sensorRead_cool (src : Fin 22) (ts : List (Option Nat)) (s : State) (hr : s.running = true)
    (hlen : ts.length = sensorsOf src) (hsrc : src.val ≠ 21)
    (hcool : ∀ x ∈ ts, ∃ n, x = some n ∧ n < s.warnPoint ∧ n < s.criticalPoint ∧ n < 115)
    (hcrit : (s.heatAt src).critical = false) : Completes (exec (.sensorRead src ts) s) fun t =>
      (t.heatAt src).temps = ts.map sensorValue ∧ (t.heatAt src).warn = false ∧ (t.heatAt src).critical = false ∧
      t.board = s.board := by
  have hvalue (n : Nat) : sensorValue (some n) ≤ n := Nat.min_le_right ..
  obtain ⟨x, hx⟩ := List.exists_mem_of_length_pos (hlen ▸ sensorsOf_pos src : 0 < ts.length)
  obtain ⟨n, -, hn, hn', -⟩ := hcool x hx
  have hlt {m : Nat} (hm : 0 < m) (h : ∀ x ∈ ts, ∀ n, x = some n → n < m) : (ts.map sensorValue).foldl max 0 < m :=
    hottest_lt hm fun x hx => by
      obtain ⟨n, rfl, -⟩ := hcool x hx
      exact (hvalue n).trans_lt (h _ hx n rfl)
  have hwarn : (ts.map sensorValue).foldl max 0 < s.warnPoint := hlt (by omega) fun x hx n hn => by
    obtain ⟨m, hm, h, -⟩ := hcool x hx
    exact Option.some.inj (hm.symm.trans hn) ▸ h
  have hcritical : (ts.map sensorValue).foldl max 0 < s.criticalPoint := hlt (by omega) fun x hx n hn => by
    obtain ⟨m, hm, -, h, -⟩ := hcool x hx
    exact Option.some.inj (hm.symm.trans hn) ▸ h
  have hshut : (ts.map sensorValue).foldl max 0 < 115 := hlt (by omega) fun x hx n hn => by
    obtain ⟨m, hm, -, -, h⟩ := hcool x hx
    exact Option.some.inj (hm.symm.trans hn) ▸ h
  have hkept := sensorsKept_answering s (src := src) (ts := ts) fun x hx => (hcool x hx).imp fun _ h => h.1
  have hboard := sensorsKept_board s src ts
  have hnext := sensorRead_next (src := src) (ts := ts) hr hlen
  rw [if_neg (by rw [if_neg hsrc]; omega), if_neg hsrc] at hnext
  generalize (ts.map sensorValue).foldl max 0 = hot at *
  have hheat : (s.sensorsKept src ts).heatAt src = { s.heatAt src with temps := ts.map sensorValue, failed := [] } := by
    rw [hkept]
    split
    · exact heatAt_setHeat ..
    · exact heatAt_setHeat ..
  have hpoints : (s.sensorsKept src ts).warnPoint = s.warnPoint ∧ (s.sensorsKept src ts).criticalPoint = s.criticalPoint := by
    rw [hkept]
    split
    · exact points_of_pwrDie _ _
    · exact ⟨rfl, rfl⟩
  generalize s.sensorsKept src ts = u at *
  obtain ⟨v, hj⟩ := judgeHeat_cool (s := u) (src := src) (hot := hot) (by omega) (by omega) (by rw [hheat]; exact hcrit)
  rw [hj] at hnext
  have hend := heatAt_setHeat u src { u.heatAt src with warn := false, critical := false }
  refine ⟨_, hnext, ?_⟩
  generalize hw : u.setHeat src { u.heatAt src with warn := false, critical := false } = w at *
  have hsame : (w.wrFld (pwrReg Reg.PWR_STATUS) 29 29 v).heatAt src = w.heatAt src := by
    rw [State.heatAt, wrFld_eq, wr_heat, State.heatAt]
  rw [hsame, hend, hheat, wrFld_eq, wr_board, ← hw]
  exact ⟨rfl, rfl, rfl, hboard⟩

theorem sensorRead_stages (src : Fin 22) (ts : List (Option Nat)) (s : State) (hr : s.running = true)
    (hlen : ts.length = sensorsOf src) (hcool : ∀ x ∈ ts, ∃ n, x = some n ∧ n < 125) (hsrc : src.val = 21) :
    exec (.sensorRead src ts) s = .next (s.setHeat src { s.heatAt src with temps := ts.map sensorValue, failed := [] }) := by
  have hlt : (ts.map sensorValue).foldl max 0 < 125 := hottest_lt (by decide) fun x hx => by
    obtain ⟨n, rfl, hn⟩ := hcool x hx
    exact (Nat.min_le_right ..).trans_lt hn
  rw [sensorRead_next hr hlen, if_pos hsrc, if_neg (by omega), if_pos hsrc,
    sensorsKept_answering s fun x hx => (hcool x hx).imp fun _ h => h.1, if_neg (by omega)]

/-! ### Throttling and trip points (R417) -/

theorem thermalStep_rises (d : Die) (s : State) (hr : s.running = true) (hcrit : (s.heatAt d).critical = false)
    (hhot : s.throttlePoint ≤ (s.heatAt d).hottest) (hl : s.thermalLevel d < 15) :
    Completes (exec (.thermalStep d) s) fun t => t.thermalLevel d = s.thermalLevel d + 1 ∧ t.mem = s.mem := by
  have he : exec (.thermalStep d) s = .next (if s.thermalLevel d = 0 then
      ((s.setThermalLevel d (s.thermalLevel d + 1)).pwrFlag 1).pwrEvent 2 d (s.heatAt d).hottest
      else s.setThermalLevel d (s.thermalLevel d + 1)) := by
    show execThermalStep d s = _
    rw [execThermalStep]
    simp only [hr, hcrit, hhot, hl, Bool.not_true, Bool.false_eq_true, if_false, if_true]
  have hlevel := setThermalLevel_level s d (l := s.thermalLevel d + 1) (by omega)
  have hmem := (setThermalLevel_onlyRegs s d (s.thermalLevel d + 1)).mem_eq
  refine ⟨_, he, ?_⟩
  split
  · obtain ⟨hrd, hm⟩ := pwrEvent_die (s.setThermalLevel d (s.thermalLevel d + 1)) 1 2 d (s.heatAt d).hottest d d.isLt
      (o := Reg.PWR_D_STATUS) (by decide) (by decide)
    exact ⟨(thermalLevel_congr hrd).trans hlevel, hm.trans hmem⟩
  · exact ⟨hlevel, hmem⟩

theorem bitsOf_mod (x : Nat) {n hi lo : Nat} (h : hi < n) (hlo : lo ≤ hi) : bitsOf (x % 2 ^ n) hi lo = bitsOf x hi lo := by
  refine Nat.eq_of_testBit_eq fun i => ?_
  rw [bitsOf_testBit, bitsOf_testBit, Nat.testBit_mod_two_pow]
  by_cases hi : i < hi - lo + 1
  · rw [decide_eq_true (show i + lo < n by omega), Bool.true_and]
  · simp [hi]

theorem writeTrip_takes (w : Word) (s : State) :
    if bitsOf w.toNat 7 0 ≤ 95 ∧ bitsOf w.toNat 15 8 ≤ 100 ∧ bitsOf w.toNat 23 16 ≤ 108 ∧
        bitsOf w.toNat 7 0 ≤ bitsOf w.toNat 15 8 ∧ bitsOf w.toNat 15 8 ≤ bitsOf w.toNat 23 16 then
      (s.writeTrip w.toNat).warnPoint = bitsOf w.toNat 7 0 ∧ (s.writeTrip w.toNat).throttlePoint = bitsOf w.toNat 15 8 ∧
      (s.writeTrip w.toNat).criticalPoint = bitsOf w.toNat 23 16 ∧
      (s.writeTrip w.toNat).fld (pwrReg Reg.PWR_TRIP) 31 24 = s.fld (pwrReg Reg.PWR_TRIP) 31 24 ∧
      OnlyRegs s (s.writeTrip w.toNat) [pwrReg Reg.PWR_TRIP]
    else (s.writeTrip w.toNat).rbit (pwrReg Reg.PWR_ERR_FLAGS) 8 = true ∧
      (s.writeTrip w.toNat).rd (pwrReg Reg.PWR_FAULT_COUNT) = s.rd (pwrReg Reg.PWR_FAULT_COUNT) + 1 ∧
      OnlyRegs s (s.writeTrip w.toNat) [pwrReg Reg.PWR_ERR_FLAGS, pwrReg Reg.PWR_FAULT_COUNT] := by
  split
  · next h =>
    have he : s.writeTrip w.toNat = s.wrFld (pwrReg Reg.PWR_TRIP) 23 0 (w.toNat % 2 ^ 24) := if_neg (by omega)
    have hfld {hi lo : Nat} (hlo : lo ≤ hi) (hhi : hi ≤ 23) :
        (s.wrFld (pwrReg Reg.PWR_TRIP) 23 0 (w.toNat % 2 ^ 24)).fld (pwrReg Reg.PWR_TRIP) hi lo = bitsOf w.toNat hi lo :=
      (fld_wrFld_within _ _ _ (Nat.zero_le _) hlo hhi (by decide)).trans (bitsOf_mod _ (by omega) hlo)
    rw [he]
    exact ⟨hfld (by decide) (by decide), hfld (by decide) (by decide), hfld (by decide) (by decide),
      fld_wrFld_other _ _ _ _ _ _ _ (by decide) (by decide) (by decide) (by decide), .wr _ _ _ (by simp)⟩
  · next h =>
    have he : s.writeTrip w.toNat = s.pwrFlag 8 := if_pos (by omega)
    rw [he]
    refine ⟨?_, ?_, pwrFlag_onlyRegs s 8⟩
    · rw [State.pwrFlag, rbit_bump_ne _ _ _ (by decide), rbit_setFlag_same _ _ _ (by decide)]
    · rw [State.pwrFlag, rd_bump_same, rd_setFlag_ne _ _ (by decide)]
      rfl

/-! ### Telemetry (R420) -/

theorem rd_wrBytes_ne (s : State) (key : Nat) (bs : List Byte) {k : Nat} (h : k < key) : (s.wrBytes key bs).rd k = s.rd k := by
  rw [State.wrBytes]
  exact each_keeps s (fun t => t.rd k) _ (fun t w => rd_wr_ne _ _ (by omega)) _

/-- What a telemetry record shows of each die. -/
def State.diesMeasured (s : State) (m : Measured) : State :=
  s.each (List.range 16) fun s d =>
    (s.wr (pwrDie d Reg.PWR_D_POWER) (BitVec.ofNat 32 (((m.diePeak.map BitVec.toNat).getD d 0) * 65536 +
      (m.dieAverage.map BitVec.toNat).getD d 0))).bump64 (pwrDie d Reg.PWR_D_UNDELIVERED) (nthN m.undelivered d)

theorem diesMeasured_rd (s : State) (m : Measured) {o : Nat} (h : o < 0x100) :
    (s.diesMeasured m).rd (pwrReg o) = s.rd (pwrReg o) := by
  refine each_keeps s (fun t => t.rd (pwrReg o)) _ (fun t d => ?_) _
  have hne (o' : Nat) (ho : 0x100 ≤ o') : pwrReg o ≠ pwrDie d o' := (pwrDie_ne_reg ho h).symm
  rw [(bump64_onlyRegs _ _ _).2 _ (by
    rw [List.mem_pair, not_or]
    refine ⟨hne _ (by decide), ?_⟩
    simp only [pwrDie, pwrReg, regKey, Reg.PWR_D_UNDELIVERED]
    omega), rd_wr_ne _ _ (hne _ (by decide))]

/-- The module's measurements and a record with its number are shown. -/
def State.telemetryShown (s : State) (m : Measured) (record : List Byte) : State :=
  let seq := (s.rdN (pwrReg Reg.PWR_TLM_SEQ) + 1) % 2 ^ 32
  ((((s.diesMeasured m).wr (pwrReg Reg.PWR_INPUT) (m.iin ++ m.vin)).wr (pwrReg Reg.PWR_MODULE_W) (m.peak ++ m.average)).wrBytes
    (pwrReg (Reg.PWR_TLM + 0x100 * (seq % 64))) record).wr (pwrReg Reg.PWR_TLM_SEQ) (BitVec.ofNat 32 seq)

theorem telemetryShown_shows (s : State) (m : Measured) (record : List Byte) : (s.telemetryShown m record).mem = s.mem ∧
    (s.telemetryShown m record).rd (pwrReg Reg.PWR_TLM_SEQ) = s.rd (pwrReg Reg.PWR_TLM_SEQ) + 1 ∧
    (s.telemetryShown m record).rd (pwrReg Reg.PWR_INPUT) = m.iin ++ m.vin := by
  unfold State.telemetryShown
  extract_lets seq
  have hseq : BitVec.ofNat 32 seq = s.rd (pwrReg Reg.PWR_TLM_SEQ) + 1 := by
    apply BitVec.eq_of_toNat_eq
    simp [seq, State.rdN]
  have htlm : pwrReg Reg.PWR_INPUT < pwrReg (Reg.PWR_TLM + 0x100 * (seq % 64)) := by
    simp only [pwrReg, regKey, Reg.PWR_INPUT, Reg.PWR_TLM]
    omega
  clear_value seq
  refine ⟨?_, ?_, ?_⟩
  · have hdies : Beside True s (s.diesMeasured m) := (Beside.refl s).each fun h => h.wr.bump64
    exact (Beside.wr (Beside.each (Beside.wr (Beside.wr hdies)) fun h => h.wr)).mem trivial
  · rw [rd_wr_same, hseq]
  · rw [rd_wr_ne _ _ (by decide), rd_wrBytes_ne _ _ _ htlm, rd_wr_ne _ _ (by decide), rd_wr_same]

theorem telemetryRecord_next (m : Measured) (s : State) (hr : s.running = true) (hb : s.bootPhase ≠ 0) :
    ∃ (record : List Byte) (told : Bool) (o : _), exec (.telemetryRecord m) s =
      .next (if told then (s.now.2.telemetryShown m record).emit o else s.now.2.telemetryShown m record) :=
  ⟨_, _, _, if_neg (by simp [hr, hb])⟩

/-- Settles O28: each measurement by what it makes of scale, levels, heat and telemetry. -/
theorem capsAndThrottlingComplete : Obligations.CapsAndThrottlingComplete := by
  refine ⟨moduleCapStep_scales, dieCapEval_levels, droopDetect_stretches, fun d s h => if_pos h,
    fun src ts s hr hlen hcool hsrc => ⟨_, sensorRead_stages src ts s hr hlen hcool hsrc, rfl⟩, sensorRead_cool,
    thermalStep_rises, fun w s => ⟨_, rfl, writeTrip_takes w s⟩, fun m s hr hb => ?_⟩
  obtain ⟨record, told, o, he⟩ := telemetryRecord_next m s hr hb
  obtain ⟨hmem, hseq, hinput⟩ := telemetryShown_shows s.now.2 m record
  have hnow : s.now.2.mem = s.mem := (congrArg State.mem (now_readsOnly s)).trans rfl
  rw [rd_congr (now_regs s)] at hseq
  rw [hnow] at hmem
  refine ⟨_, he, ?_⟩
  cases told
  · exact ⟨hmem, hseq, hinput⟩
  · exact ⟨hmem, hseq, hinput⟩

end Sys2Proof.Machine
end

section
set_option Elab.async false
/-! SUPPORT. Gating of quarters: the tile rail goes off, and what the tiles hold is lost (R419). -/

namespace Sys2Proof.Machine

variable {s t : State}

/-- A table whose values are changed by their keys, where an absent entry stays what it reads as. -/
theorem tget_map_values {α : Type} {d : Nat → α} {g : Nat → α → α} (hd : ∀ k, g k (d k) = d k) (t : Table α) (k : Nat) :
    tget d (t.map fun e => (e.1, g e.1 e.2)) k = g k (tget d t k) := by
  induction t with
  | nil => exact (hd k).symm
  | cons e t ih => simp only [List.map_cons, tget, ih]; split <;> simp_all

/-- A matrix tile whose rail went off. -/
def Mtx.lost (m : Mtx) : Mtx := { Mtx.init with blocks := m.blocks, halted := m.halted }

/-- A vector tile whose rail went off. -/
def Vec.lost (v : Vec) : Vec := { Vec.init with blocks := v.blocks, state := v.state }

/-- The tiles of bays lose their contents. -/
def State.tilesLost (s : State) (bs : List Nat) : State :=
  { s with
    mtx := s.mtx.map (fun e => if bs.contains (e.1 / 8) then (e.1, e.2.lost) else e)
    vec := s.vec.map (fun e => if bs.contains e.1 then (e.1, e.2.lost) else e) }

theorem mtxAt_tilesLost (s : State) (bs : List Nat) (x : Nat) :
    (s.tilesLost bs).mtxAt x = if x / 8 ∈ bs then (s.mtxAt x).lost else s.mtxAt x := by
  have hmap : (s.tilesLost bs).mtx = s.mtx.map fun e => (e.1, if bs.contains (e.1 / 8) then e.2.lost else e.2) :=
    List.map_congr_left fun e _ => by split <;> rfl
  rw [State.mtxAt, hmap, tget_map_values (g := fun k (m : Mtx) => if bs.contains (k / 8) then m.lost else m)
    fun k => by split <;> rfl]
  simp only [List.contains_iff_mem]
  rfl

theorem vecAt_tilesLost (s : State) (bs : List Nat) (b : Nat) :
    (s.tilesLost bs).vecAt b = if b ∈ bs then (s.vecAt b).lost else s.vecAt b := by
  have hmap : (s.tilesLost bs).vec = s.vec.map fun e => (e.1, if bs.contains e.1 then e.2.lost else e.2) :=
    List.map_congr_left fun e _ => by split <;> rfl
  rw [State.vecAt, hmap, tget_map_values (g := fun k (v : Vec) => if bs.contains k then v.lost else v)
    fun k => by split <;> rfl]
  simp only [List.contains_iff_mem]
  rfl

/-- The requests that wait at the tiles of bays are absorbed. -/
def State.baysIsolated (s : State) (bs : List Nat) : State :=
  s.each bs fun s b => s.each (List.range 11) fun s i => s.absorbAll b (i + 1)

theorem baysIsolated_keeps {β : Type} (f : State → β) (hbump : ∀ s k, f (State.bump s k 1) = f s)
    (hnoc : ∀ (s : State) noc, f { s with noc } = f s) (s : State) (bs : List Nat) : f (s.baysIsolated bs) = f s :=
  each_keeps s f _ (fun s b => each_keeps s f _ (fun s i => absorbAll_keeps f hbump hnoc s b (i + 1)) _) _

/-- Absorbing counts in the registers of routers alone. -/
theorem baysIsolated_rd (s : State) (bs : List Nat) {k : Nat} (h : k < 0x1000000) : (s.baysIsolated bs).rd k = s.rd k := by
  have hne (r : Nat) : k ≠ nocReg r Reg.NOC_ABSORBED := by
    simp only [nocReg, regKey, blockBase]
    split_ifs <;> omega
  refine each_keeps s (fun t => t.rd k) _ (fun s b => each_keeps s (fun t => t.rd k) _ (fun s i =>
    each_keeps s (fun t => t.rd k) _ (fun s e => ?_) _) _) _
  unfold State.absorb
  split
  · split
    · rfl
    · exact rd_bump_ne _ _ (hne _)
  · rfl

/-- The quarter's bit of the gated ones. -/
def gatedKey (q : Nat) : Nat := pwrReg Reg.PWR_QTR_GATED + 4 * (q / 32)

theorem gated_eq (s : State) (q : Nat) : s.gated q = s.rbit (gatedKey q) (q % 32) := rfl

theorem gatedKey_lt {q : Nat} (h : q < 64) : gatedKey q < 0x1000000 := by
  simp only [gatedKey, pwrReg, regKey, blockBase, Reg.PWR_QTR_GATED]
  omega

theorem rbit_setBits_same (s : State) (k : Nat) {i : Nat} (h : i < 32) : (s.setBits k (2 ^ i)).rbit k i = true := by
  rw [setBits_eq, rbit_wr_same, BitVec.toNat_or, Nat.testBit_or, BitVec.toNat_ofNat, Nat.testBit_mod_two_pow]
  simp [h]

/-- The gating of a free quarter that is not gated, from the state in which its jobs have ended. -/
theorem gate_next {q : Nat} (hb : s.quarterBound q = false) (hg : s.gated q = false) :
    ∃ u, s.gate q = ((((u.setBits (pwrReg Reg.PWR_QTR_GATE + 4 * (q / 32)) (2 ^ (q % 32))).setBits (gatedKey q) (2 ^ (q % 32))).tilesLost
      (baysOfQuarter q)).baysIsolated (baysOfQuarter q)) ∧ ((∀ e ∈ s.jobs, q ∉ e.2.placed) → u = s) := by
  refine ⟨s.each (s.jobs.filter fun e => e.2.placed.contains q) fun s e => s.failJob e.1 0x23 none 0, ?_, fun h => ?_⟩
  · rw [State.gate, if_neg (by simp [hb]), if_neg (by simp [hg])]
    rfl
  · rw [List.filter_eq_nil_iff.2 fun e he => by simpa using h e he]
    rfl

/-- Settles O30: a bound quarter is refused, a free one loses its tiles, and ungating clears two bits. -/
theorem quarterGatingCompletes : Obligations.QuarterGatingCompletes := by
  refine ⟨fun q s hb => ⟨_, congrArg Host.Outcome.next (if_pos hb), ?_, pwrFlag_onlyRegs s 4⟩, fun q s hb hg => ?_,
    fun q s => ⟨_, rfl, ?_, (OnlyRegs.wr s _ _ ?_).trans (.wr _ _ _ ?_)⟩⟩
  · rw [State.pwrFlag, rbit_bump_ne _ _ _ (by decide), rbit_setFlag_same _ _ _ (by decide)]
  · obtain ⟨u, he, hu⟩ := gate_next hb hg
    refine ⟨_, congrArg Host.Outcome.next he, ?_⟩
    generalize hv : (u.setBits (pwrReg Reg.PWR_QTR_GATE + 4 * (q / 32)) (2 ^ (q.val % 32))).setBits (gatedKey q)
      (2 ^ (q.val % 32)) = v
    have hgated : v.gated q = true := by
      rw [← hv]
      exact rbit_setBits_same _ _ (Nat.mod_lt _ (by decide))
    have hvec (b : Nat) : ((v.tilesLost (baysOfQuarter q)).baysIsolated (baysOfQuarter q)).vecAt b =
        if b ∈ baysOfQuarter q then (v.vecAt b).lost else v.vecAt b := by
      rw [← vecAt_tilesLost]
      exact congrArg (fun x => tget (fun _ => Vec.init) x b) (baysIsolated_keeps State.vec (fun _ _ => rfl) (fun _ _ => rfl) _ _)
    have hmtx (x : Nat) : ((v.tilesLost (baysOfQuarter q)).baysIsolated (baysOfQuarter q)).mtxAt x =
        if x / 8 ∈ baysOfQuarter q then (v.mtxAt x).lost else v.mtxAt x := by
      rw [← mtxAt_tilesLost]
      exact congrArg (fun t => tget (fun _ => Mtx.init) t x) (baysIsolated_keeps State.mtx (fun _ _ => rfl) (fun _ _ => rfl) _ _)
    refine ⟨?_, fun b hb => ?_, fun x hx => ?_, fun hjobs => ?_⟩
    · rw [gated_eq, State.rbit, State.rdN, baysIsolated_rd _ _ (gatedKey_lt q.isLt)]
      exact hgated
    · rw [hvec, if_pos hb]
      rfl
    · rw [hmtx, if_pos hx]
      rfl
    · obtain rfl := hu hjobs
      have hvecs : v.vec = u.vec := by rw [← hv, setBits_eq, wr_vec, setBits_eq, wr_vec]
      have hmtxs : v.mtx = u.mtx := by rw [← hv, setBits_eq, wr_mtx, setBits_eq, wr_mtx]
      have hmem : v.mem = u.mem := by rw [← hv, setBits_eq, wr_mem, setBits_eq, wr_mem]
      have hvecAt (b : Nat) : v.vecAt b = u.vecAt b := by rw [State.vecAt, hvecs, State.vecAt]
      have hmtxAt (x : Nat) : v.mtxAt x = u.mtxAt x := by rw [State.mtxAt, hmtxs, State.mtxAt]
      refine ⟨?_, fun b hb => ?_, fun b hb => ?_, fun x hx => ?_, fun x hx => ?_⟩
      · exact (baysIsolated_keeps State.mem (fun _ _ => rfl) (fun _ _ => rfl) _ _).trans hmem
      · rw [hvec, if_pos hb, hvecAt]
        exact ⟨rfl, rfl⟩
      · rw [hvec, if_neg hb, hvecAt]
      · rw [hmtx, if_pos hx, hmtxAt]
        exact ⟨rfl, rfl⟩
      · rw [hmtx, if_neg hx, hmtxAt]
  · have hlt : q.val % 32 < 32 := Nat.mod_lt _ (by decide)
    rw [gated_eq]
    refine (rbit_wrFld _ _ _ _ _ _ le_rfl hlt).trans ?_
    rw [if_pos ⟨le_rfl, le_rfl⟩, Nat.zero_testBit]
  · exact List.mem_cons_self
  · exact List.mem_cons_of_mem _ List.mem_cons_self

end Sys2Proof.Machine
end

section
set_option Elab.async false
/-! SUPPORT. The Eovaol fabric: home edges, the way of a packet, windows and limits (R270 to R287, R293). -/

namespace Sys2Proof.Machine

variable {s t u : State}

/-! ### Home edges (R271, R284) -/

/-- Where no transfer to the partner waits, what waits at the home edges is gone through once. -/
theorem settleFences_quiet (h : s.twinWaiting = 0) :
    s.settleFences = s.settleHome (s.home.length + 1) [] (s.home.map (·.1)) := by
  rw [State.settleFences, h, State.settleAll, h, State.mirrorFill]
  exact ite_self _

theorem settleFences_empty (h : s.twinWaiting = 0) (hhome : s.home = []) : s.settleFences = s := by
  rw [settleFences_quiet h, hhome]
  rfl

/-- The first item at the home edges. -/
def State.firstHome (s : State) (it : HomeItem) : State := { s with home := [(s.nextHome, it)], nextHome := s.nextHome + 1 }

theorem firstHome_homeAt (s : State) (it : HomeItem) : (s.firstHome it).homeAt s.nextHome = some it := by
  simp [State.homeAt, State.firstHome]

theorem addHome_first (it : HomeItem) (h : s.home = []) (hw : s.twinWaiting = 0) :
    s.addHome it = (s.firstHome it).settleHome 2 [] [s.nextHome] := by
  have he : s.addHome it = (s.firstHome it).settleFences := by
    rw [State.addHome, h]
    rfl
  rw [he, settleFences_quiet (s := s.firstHome it) hw]
  rfl

theorem settleHome_nil (k : Nat) (before : List HomeItem) : s.settleHome k before [] = s := by cases k <;> rfl

theorem heldBy_none (it : HomeItem) : heldBy [] it = false := by cases it <;> rfl

/-- A fence that nothing holds is answered. -/
theorem fence_answered (src : NocPlace) (ep : Fin 32) (tag : Fin 1024) (cls : Fin 4) (id : BitVec 20) (scope : Fin 2) (s : State)
    (h : s.home = []) (hw : s.twinWaiting = 0) (hitem : s.twinItem s.nextHome = none) :
    Completes (exec (.fence src ep tag cls id scope) s) fun t => t.home = [] ∧
      t.out = s.out ++ [.nocAnswer src ep tag (s.domainSet (placeDomain src ep)) 0 []] ∧
      t = { s with nextHome := t.nextHome, out := t.out } := by
  have he : exec (.fence src ep tag cls id scope) s = .next (s.addHome (.fence src ep tag id.toNat cls scope
      (s.domainSet (placeDomain src ep)) none)) := rfl
  have hempty : terase [(s.nextHome, HomeItem.fence src ep tag id.toNat cls scope (s.domainSet (placeDomain src ep)) none)]
      s.nextHome = [] := by simp [terase]
  rw [he, addHome_first _ h hw, State.settleHome, firstHome_homeAt]
  dsimp only
  rw [heldBy_none, if_neg (by decide), show (s.firstHome _).twinItem s.nextHome = none from hitem, settleHome_nil]
  refine ⟨_, rfl, hempty, rfl, ?_⟩
  simp only [State.fenceAnswer, State.emit, State.firstHome, hempty, h]

/-! ### The way of a packet (R277, R278) -/

theorem linkAt_setLink (s : State) (p : Nat) (v : LinkPort) (q : Nat) :
    (s.setLink p v).linkAt q = if q = p then v else s.linkAt q := tget_tput _ _ _ _ _

/-- The ports are beside what the way of a packet turns on. -/
theorem edgeWay_links (s : State) (links : Table LinkPort) (e f a : Nat) : ({ s with links } : State).edgeWay e f a = s.edgeWay e f a := rfl

/-- The packet as its exit port takes it. -/
def State.exitPacket (s : State) (set : Nat) (p : FabricPacket) : FabricPacket :=
  { p with hops := p.hops + 1, dateline := p.dateline || bitOf (s.routeEntry set p.dest) 14 }

/-- A packet that nothing stands against is queued at its exit port. -/
theorem sendPacket_queues {e set : Nat} {p : FabricPacket} (hhops : p.hops < 255) (hvalid : bitOf (s.routeEntry set p.dest) 15 = true)
    (hport : bitsOf (s.routeEntry set p.dest) 11 8 < 12) (hup : s.portUp (bitsOf (s.routeEntry set p.dest) 11 8) = true)
    (hdate : bitOf (s.routeEntry set p.dest) 14 = true → p.dateline = false)
    (hway : s.edgeWay e (bitsOf (s.routeEntry set p.dest) 11 8 / 3) p.gaddr = 0) :
    s.sendPacket e set p = (0, s.setLink (bitsOf (s.routeEntry set p.dest) 11 8)
      { s.linkAt (bitsOf (s.routeEntry set p.dest) 11 8) with
        queue := (s.linkAt (bitsOf (s.routeEntry set p.dest) 11 8)).queue ++ [s.exitPacket set p] }) := by
  have hdate : ¬ (bitOf (s.routeEntry set p.dest) 14 && p.dateline) = true := by
    cases h : bitOf (s.routeEntry set p.dest) 14
    · simp
    · simp [hdate h]
  rw [State.sendPacket]
  dsimp only
  rw [if_neg (by omega), if_neg (by simp [hvalid, hport]), if_neg hdate, if_neg (by simp [hway]), if_neg (by simp [hup])]
  rfl

/-- The state with a first request kept, sent to a port. -/
def State.homeSent (s : State) (r : GlobalRequest) (set port : Nat) (p : FabricPacket) : State :=
  { s with home := [(s.nextHome, .req r set true none)], nextHome := s.nextHome + 1
           links := tput s.links port { s.linkAt port with queue := (s.linkAt port).queue ++ [p] } }

theorem sendHome_sends {r : GlobalRequest} {set : Nat} (hdest : (s.packetOf set r).dest ≠ s.moduleId set)
    (hvalid : bitOf (s.routeEntry set (s.packetOf set r).dest) 15 = true)
    (hport : bitsOf (s.routeEntry set (s.packetOf set r).dest) 11 8 < 12)
    (hup : s.portUp (bitsOf (s.routeEntry set (s.packetOf set r).dest) 11 8) = true)
    (hway : s.edgeWay (homeEdge r.src) (bitsOf (s.routeEntry set (s.packetOf set r).dest) 11 8 / 3) (s.packetOf set r).gaddr = 0) :
    (s.firstHome (.req r set false none)).sendHome s.nextHome r set none =
      s.homeSent r set (bitsOf (s.routeEntry set (s.packetOf set r).dest) 11 8)
        { s.packetOf set r with hops := 1, dateline := bitOf (s.routeEntry set (s.packetOf set r).dest) 14 } := by
  have hsend := sendPacket_queues (s := s.firstHome (.req r set false none)) (e := homeEdge r.src) (set := set)
    (p := (s.firstHome (.req r set false none)).packetOf set r) (Nat.zero_lt_succ _) hvalid hport hup (fun _ => rfl) hway
  have hput (it it' : HomeItem) : tput (s.firstHome it).home s.nextHome it' = [(s.nextHome, it')] := by
    simp [State.firstHome, tput]
  rw [State.sendHome]
  dsimp only
  rw [if_neg (show ¬ ((s.firstHome _).packetOf set r).dest = (s.firstHome _).moduleId set from hdest), hsend]
  dsimp only
  rw [if_pos rfl, show (State.setLink _ _ _).home = (s.firstHome (.req r set false none)).home from rfl, hput]
  rfl

/-- The request is kept and sent. -/
theorem homeEdgeRequest_sends (r : GlobalRequest) (s : State) {set : Nat} (hset : s.domainSet (placeDomain r.src r.srcEp) = set)
    (hm : malformed r = false) (hopen : s.fabricOpen set = true) (h : s.home = []) (hw : s.twinWaiting = 0)
    {port : Nat} {p : FabricPacket}
    (hsend : (s.firstHome (.req r set false none)).sendHome s.nextHome r set none = s.homeSent r set port p) :
    exec (.homeEdgeRequest r) s = .next (s.homeSent r set port p) := by
  have he : exec (.homeEdgeRequest r) s = .next (s.addHome (.req r set false none)) := by
    show Host.Outcome.next ((s.homeTake r (s.domainSet (placeDomain r.src r.srcEp)) none).getD s) = _
    rw [hset, State.homeTake, hm, hopen, if_neg (by decide), if_neg (by decide), if_neg]
    · rfl
    · rw [State.homeCount, h, List.filter_nil]
      decide
  have hat : (s.homeSent r set port p).homeAt s.nextHome = some (.req r set true none) := by
    simp [State.homeAt, State.homeSent]
  rw [he, addHome_first _ h hw, State.settleHome, firstHome_homeAt]
  dsimp only
  rw [heldBy_none, if_neg (by decide), if_neg (by decide), hsend, hat]
  dsimp only
  rw [settleHome_nil]

/-- A home edge answers a malformed request, and every one while the fabric is closed. -/
theorem homeEdgeRequest_answers (r : GlobalRequest) (s : State) {set : Nat} (hset : s.domainSet (placeDomain r.src r.srcEp) = set) :
    (malformed r = true → exec (.homeEdgeRequest r) s = .next (s.emit (.nocAnswer r.src r.srcEp r.tag set 0x67 []))) ∧
    (malformed r = false → s.fabricOpen set = false →
      exec (.homeEdgeRequest r) s = .next (s.emit (.nocAnswer r.src r.srcEp r.tag set 0x60 []))) ∧
    (malformed r = false → s.fabricOpen set = true → 4096 ≤ s.homeCount (homeEdge r.src) →
      exec (.homeEdgeRequest r) s = .next s) := by
  have he : exec (.homeEdgeRequest r) s = .next ((s.homeTake r set none).getD s) := by
    rw [← hset]
    rfl
  rw [he]
  refine ⟨fun hm => ?_, fun hm hopen => ?_, fun hm hopen hfull => ?_⟩
  · rw [State.homeTake, if_pos hm]
    rfl
  · rw [State.homeTake, if_neg (by simp [hm]), if_pos (by simp [hopen])]
    rfl
  · rw [State.homeTake, if_neg (by simp [hm]), if_neg (by simp [hopen]), if_pos hfull]
    rfl

/-! ### Packets that have arrived (R277 to R280, R285, R286) -/

/-- What taking the oldest packet leaves at its port. -/
def TakenFrom (p : Nat) (rest : List FabricPacket) (s t : State) : Prop :=
  if (s.linkAt p).kept = [] then (t.linkAt p).arrived = rest
  else (t.linkAt p).kept = rest ∧ (t.linkAt p).arrived = (s.linkAt p).arrived

/-- The oldest packet that has arrived is taken, and its port's queue stays. -/
theorem takeArrived_takes {p : Nat} {x : FabricPacket} {rest : List FabricPacket}
    (h : (s.linkAt p).kept = [] ∧ (s.linkAt p).arrived = x :: rest ∨ (s.linkAt p).kept = x :: rest) :
    ∃ l : LinkPort, s.takeArrived p x.resp = some (x, s.setLink p l) ∧ l.queue = (s.linkAt p).queue ∧
      ∀ t : State, (t.linkAt p).kept = l.kept → (t.linkAt p).arrived = l.arrived → TakenFrom p rest s t := by
  obtain ⟨hk, ha⟩ | hk := h
  · refine ⟨{ s.linkAt p with arrived := rest, owed := setNth (s.linkAt p).owed x.chan (nthN (s.linkAt p).owed x.chan + x.slots) },
      ?_, rfl, fun t _ h => ?_⟩
    · simp only [State.takeArrived, hk, ha, bne_self_eq_false, Bool.false_eq_true, if_false]
    · rw [TakenFrom, if_pos hk]
      exact h
  · refine ⟨{ s.linkAt p with kept := rest }, ?_, rfl, fun t h h' => ?_⟩
    · simp only [State.takeArrived, hk, bne_self_eq_false, Bool.false_eq_true, if_false]
    · rw [TakenFrom, if_neg (by simp [hk])]
      exact ⟨h, h'⟩

/-- A request for another module goes on with one more hop. -/
theorem packetReceive_forwards {p : Port} {x : FabricPacket} {rest : List FabricPacket} {set : Nat}
    (h : (s.linkAt p).kept = [] ∧ (s.linkAt p).arrived = x :: rest ∨ (s.linkAt p).kept = x :: rest)
    (hset : s.domainSet (16 + p.val / 3) = set) (hopen : s.fabricOpen set = true) (hreq : x.resp = false)
    (hdest : x.dest ≠ s.moduleId set) (hhops : x.hops < 255) (hcls : x.cls ≠ 0)
    (hvalid : bitOf (s.routeEntry set x.dest) 15 = true) (hport : bitsOf (s.routeEntry set x.dest) 11 8 < 12)
    (hup : s.portUp (bitsOf (s.routeEntry set x.dest) 11 8) = true)
    (hdate : bitOf (s.routeEntry set x.dest) 14 = true → x.dateline = false)
    (hway : s.edgeWay (p.val / 3) (bitsOf (s.routeEntry set x.dest) 11 8 / 3) x.gaddr = 0) :
    Completes (exec (.fabricPacketReceive p) s) fun t =>
      (t.linkAt (bitsOf (s.routeEntry set x.dest) 11 8)).queue = (s.linkAt (bitsOf (s.routeEntry set x.dest) 11 8)).queue ++
        [{ x with hops := x.hops + 1, dateline := x.dateline || bitOf (s.routeEntry set x.dest) 14 }] ∧
      TakenFrom p rest s t ∧ t = { s with links := t.links } := by
  obtain ⟨l, htake, hqueue, hleft⟩ := takeArrived_takes h
  rw [hreq] at htake
  have hsend := sendPacket_queues (s := s.setLink p l) (e := p.val / 3) (set := set) (p := x) hhops hvalid hport hup hdate hway
  have he : exec (.fabricPacketReceive p) s = .next ((s.setLink p l).sendPacket (p.val / 3) set x).2 := by
    show execFabricPacketReceive p s = _
    rw [execFabricPacketReceive, htake]
    dsimp only
    rw [show (s.setLink p l).domainSet (16 + p.val / 3) = set from hset,
      if_neg (by rw [show (s.setLink p l).fabricOpen set = true from hopen]; decide),
      if_pos (show x.dest ≠ (s.setLink p l).moduleId set from hdest), hsend, if_pos rfl, State.crossTime, if_pos hcls]
  rw [he, hsend]
  have hlink (q : Nat) : (s.setLink p l).linkAt q = if q = p then l else s.linkAt q := linkAt_setLink ..
  refine ⟨_, rfl, ?_, hleft _ ?_ ?_, rfl⟩
  · have hq (q : Nat) : ((s.setLink p l).linkAt q).queue = (s.linkAt q).queue := by
      rw [hlink]
      split
      · next hp => rw [hqueue, hp]
      · rfl
    exact (congrArg LinkPort.queue ((linkAt_setLink ..).trans (if_pos rfl))).trans (congrArg (· ++ _) (hq _))
  · dsimp only
    rw [linkAt_setLink]
    split
    · next hp =>
      have hl := (hlink _).trans (if_pos hp.symm)
      refine Eq.trans (b := ((s.setLink p l).linkAt _).kept) rfl ?_
      rw [hl]
    · rw [hlink, if_pos rfl]
  · dsimp only
    rw [linkAt_setLink]
    split
    · next hp =>
      have hl := (hlink _).trans (if_pos hp.symm)
      refine Eq.trans (b := ((s.setLink p l).linkAt _).arrived) rfl ?_
      rw [hl]
    · rw [hlink, if_pos rfl]

theorem add_ofNat_one (x : Word) : x + BitVec.ofNat 32 1 = x + 1 := rfl

theorem rd_bump_one (s : State) (k : Nat) : (s.bump k 1).rd k = s.rd k + 1 :=
  (rd_bump_same s k 1).trans (add_ofNat_one _)

theorem respond_eq :
    @State.respond = fun s e set p status data => (s.sendPacket e set (s.responseOf set p status data)).2 := rfl

theorem rd_setLink (s : State) (p : Nat) (l : LinkPort) (k : Nat) : (s.setLink p l).rd k = s.rd k := rfl

theorem eovReg_ne {e o o' : Nat} (h : o ≠ o') : eovReg e o ≠ eovReg e o' := regKey_ne h

/-- An event of the fabric is flagged and counted, and no other register changes. -/
theorem rd_eovFlag (s : State) (e i : Nat) {k : Nat} (h : k ≠ eovReg e Reg.EOV_ERR_FLAGS) (h' : k ≠ eovReg e Reg.EOV_FAULT_COUNT) :
    (s.eovFlag e i).rd k = s.rd k := by
  rw [State.eovFlag, rd_bump_ne _ _ h', rd_setFlag_ne _ _ h]

theorem eovFlag_onlyRegs (s : State) (e i : Nat) :
    OnlyRegs s (s.eovFlag e i) [eovReg e Reg.EOV_ERR_FLAGS, eovReg e Reg.EOV_FAULT_COUNT] :=
  (OnlyRegs.wr s _ _ (by simp)).trans (.wr _ _ _ (by simp))

theorem bumpEovFlag_onlyRegs (s : State) (k n e i : Nat) :
    OnlyRegs s ((s.bump k n).eovFlag e i) [k, eovReg e Reg.EOV_ERR_FLAGS, eovReg e Reg.EOV_FAULT_COUNT] :=
  (OnlyRegs.wr s _ _ List.mem_cons_self).trans ((eovFlag_onlyRegs _ e i).mono (List.subset_cons_self ..))

theorem eovReg_off_ne {e e' o o' : Nat} (h : o ≠ o') (ho : o < 0x10000) (ho' : o' < 0x10000) : eovReg e o ≠ eovReg e' o' := by
  simp only [eovReg, regKey, blockBase, Fin.val_ofNat]
  omega

/-- Sending a packet counts no lookup. -/
theorem sendPacket_noWindow (s : State) (e set : Nat) (p : FabricPacket) (e' : Nat) :
    (s.sendPacket e set p).2.rd (eovReg e' Reg.EOV_NO_WINDOW) = s.rd (eovReg e' Reg.EOV_NO_WINDOW) := by
  have hflag (u : State) (f i : Nat) : (u.eovFlag f i).rd (eovReg e' Reg.EOV_NO_WINDOW) = u.rd (eovReg e' Reg.EOV_NO_WINDOW) :=
    rd_eovFlag u f i (eovReg_off_ne (by decide) (by decide) (by decide)) (eovReg_off_ne (by decide) (by decide) (by decide))
  unfold State.sendPacket
  dsimp only
  split
  · exact (hflag _ _ _).trans (rd_bump_ne _ _ (eovReg_off_ne (by decide) (by decide) (by decide)))
  split
  · exact hflag _ _ _
  split
  · exact hflag _ _ _
  split
  · rfl
  split
  · refine (hflag _ _ _).trans (rd_bump_ne _ _ ?_)
    refine eovReg_off_ne ?_ (by decide) ?_
    · simp only [Reg.EOV_NO_WINDOW, Reg.EOV_P_DOWN_DROPS]
      omega
    · simp only [Reg.EOV_P_DOWN_DROPS]
      omega
  · rfl

/-- A request that no window of this module takes is refused and counted. -/
theorem lookup_misses {o set group op : Nat} (h : ∀ z < 3, s.winMatch o set z = none) :
    s.lookup o set group op = (.refused 0x61, (s.bump (eovReg (ownerEdge o) Reg.EOV_NO_WINDOW) 1).eovFlag (ownerEdge o) 1) := by
  have hnone : ((List.range 3).filterMap fun z => s.winMatch o set z) = [] :=
    List.filterMap_eq_nil_iff.2 fun z hz => h z (List.mem_range.1 hz)
  rw [State.lookup, hnone]
  rfl

theorem packetReceive_misses {p : Port} {x : FabricPacket} {rest : List FabricPacket} {set : Nat}
    (h : (s.linkAt p).kept = [] ∧ (s.linkAt p).arrived = x :: rest ∨ (s.linkAt p).kept = x :: rest)
    (hset : s.domainSet (16 + p.val / 3) = set) (hopen : s.fabricOpen set = true) (hreq : x.resp = false)
    (hdest : x.dest = s.moduleId set) (hop : x.op ≤ 2) (hatomic : x.atomicOp ≤ 8)
    (hway : s.edgeWay (p.val / 3) (ownerEdge (x.gaddr % 2 ^ 44)) x.gaddr = 0)
    (hmiss : ∀ z < 3, s.winMatch (x.gaddr % 2 ^ 44) set z = none) :
    Completes (exec (.fabricPacketReceive p) s) fun t => t.mem = s.mem ∧
      t.rd (eovReg (ownerEdge (x.gaddr % 2 ^ 44)) Reg.EOV_NO_WINDOW) =
        s.rd (eovReg (ownerEdge (x.gaddr % 2 ^ 44)) Reg.EOV_NO_WINDOW) + 1 := by
  obtain ⟨l, htake, -, -⟩ := takeArrived_takes h
  rw [hreq] at htake
  have he : exec (.fabricPacketReceive p) s = .next ((((s.setLink p l).bump (eovReg (ownerEdge (x.gaddr % 2 ^ 44)) Reg.EOV_NO_WINDOW) 1).eovFlag
      (ownerEdge (x.gaddr % 2 ^ 44)) 1).respond (ownerEdge (x.gaddr % 2 ^ 44)) set x 0x61 []) := by
    show execFabricPacketReceive p s = _
    rw [execFabricPacketReceive, htake]
    dsimp only
    rw [show (s.setLink p l).domainSet (16 + p.val / 3) = set from hset,
      if_neg (by rw [show (s.setLink p l).fabricOpen set = true from hopen]; decide),
      if_neg (show ¬ x.dest ≠ (s.setLink p l).moduleId set from not_not.2 hdest), if_neg (by omega),
      if_neg (show ¬ (s.setLink p l).edgeWay (p.val / 3) (ownerEdge (x.gaddr % 2 ^ 44)) x.gaddr ≠ 0 from not_not.2 hway),
      lookup_misses (s := s.setLink p l) hmiss]
  have hmem : Beside True s (s.setLink p l) := (Beside.refl s).frame
  refine ⟨_, he, (Beside.respond (Beside.eovFlag (Beside.bump hmem))).mem trivial, ?_⟩
  rw [respond_eq, sendPacket_noWindow, rd_eovFlag _ _ _ (eovReg_ne (by decide)) (eovReg_ne (by decide)), rd_bump_one, rd_setLink]

/-- A response to no request that is kept is late. -/
theorem responseReceive_late {p : Port} {x : FabricPacket} {rest : List FabricPacket} {set : Nat}
    (h : (s.linkAt p).kept = [] ∧ (s.linkAt p).arrived = x :: rest ∨ (s.linkAt p).kept = x :: rest)
    (hset : s.domainSet (16 + p.val / 3) = set) (hopen : s.fabricOpen set = true) (hresp : x.resp = true)
    (hdest : x.dest = s.moduleId set) (hhome : s.homeOf x = none) :
    Completes (exec (.fabricResponseReceive p) s) fun t => TakenFrom p rest s t ∧
      t = { s with links := t.links, tallies := t.tallies } := by
  obtain ⟨l, htake, -, hleft⟩ := takeArrived_takes h
  rw [hresp] at htake
  have he : exec (.fabricResponseReceive p) s = .next ((s.setLink p l).tally (eovReg x.home Reg.EOV_RESP_TIMEOUT)) := by
    show execFabricResponseReceive p s = _
    rw [execFabricResponseReceive, htake]
    dsimp only
    rw [show (s.setLink p l).domainSet (16 + p.val / 3) = set from hset,
      if_neg (by rw [show (s.setLink p l).fabricOpen set = true from hopen]; decide),
      if_neg (show ¬ x.dest ≠ (s.setLink p l).moduleId set from not_not.2 hdest),
      show (s.setLink p l).homeOf x = none from hhome]
  have hlink : (s.setLink p l).linkAt p = l := (linkAt_setLink ..).trans (if_pos rfl)
  exact ⟨_, he, hleft _ (congrArg LinkPort.kept hlink) (congrArg LinkPort.arrived hlink), rfl⟩

/-- The only request that is kept is answered, and not the twin engine's. -/
theorem homeAnswer_only {n k status : Nat} {r : GlobalRequest} {sent : Bool} {noc : Option Nat} {data : List Byte}
    (h : s.home = [(n, .req r k sent noc)]) (hitem : s.twinItem n = none) :
    s.homeAnswer n r status data = ({ s with home := [] } : State).edgeAnswer r k noc status data := by
  have hat : s.homeAt n = some (.req r k sent noc) := by simp [State.homeAt, h]
  have hempty : terase s.home n = [] := by simp [h, terase]
  rw [State.homeAnswer, hitem, hat, hempty]

theorem edgeAnswer_home (s : State) (r : GlobalRequest) (set : Nat) (noc : Option Nat) (status : Nat) (data : List Byte) :
    (s.edgeAnswer r set noc status data).home = s.home ∧ (s.edgeAnswer r set noc status data).twinWaiting = s.twinWaiting := by
  unfold State.edgeAnswer
  dsimp only
  split
  · split <;> exact ⟨rfl, rfl⟩
  · exact ⟨rfl, rfl⟩

/-- After the only request is answered, nothing waits at the home edges. -/
theorem homeAnswer_settled {n k status : Nat} {r : GlobalRequest} {sent : Bool} {noc : Option Nat} {data : List Byte}
    (h : s.home = [(n, .req r k sent noc)]) (hitem : s.twinItem n = none) (hw : s.twinWaiting = 0) :
    (s.homeAnswer n r status data).settleFences = ({ s with home := [] } : State).edgeAnswer r k noc status data := by
  obtain ⟨hhome, hwait⟩ := edgeAnswer_home { s with home := [] } r k noc status data
  rw [homeAnswer_only h hitem]
  exact settleFences_empty (hwait.trans hw) hhome

theorem nocAt_setNoc (s : State) (q : Nat) (v : NocReq) : (s.setNoc q v).nocAt q = some v := by
  have hfind (t : Table NocReq) : (tput t q v).find? (fun e => e.1 == q) = some (q, v) := by
    fun_induction tput t q v <;> grind
  rw [State.nocAt, show (s.setNoc q v).noc = tput s.noc q v from rfl, hfind]
  rfl

/-- What the answer of a home edge shows its requester. -/
theorem edgeAnswer_shows (s : State) (r : GlobalRequest) (k status : Nat) (noc : Option Nat) (data : List Byte)
    (hdata : status = 0 ∨ data = []) :
    (noc = none → (s.edgeAnswer r k noc status data).out = s.out ++ [.nocAnswer r.src r.srcEp r.tag k status data]) ∧
    ∀ q v, noc = some q → s.nocAt q = some v →
      (s.edgeAnswer r k noc status data).nocAt q = some { v with delivered := true, answer := some (status, data) } := by
  have hd : (if status = 0 then data else []) = data := by
    rcases hdata with h | h
    · rw [if_pos h]
    · rw [h, ite_self]
  refine ⟨?_, ?_⟩
  · rintro rfl
    rw [State.edgeAnswer, hd]
    rfl
  · rintro q v rfl hv
    rw [State.edgeAnswer, hd]
    simp only [hv]
    exact nocAt_setNoc _ _ _

/-- A response with status 0 is handed to the requester of the only request that is kept. -/
theorem responseReceive_answers {p : Port} {x : FabricPacket} {rest : List FabricPacket} {set n k : Nat} {r : GlobalRequest}
    {noc : Option Nat}
    (h : (s.linkAt p).kept = [] ∧ (s.linkAt p).arrived = x :: rest ∨ (s.linkAt p).kept = x :: rest)
    (hset : s.domainSet (16 + p.val / 3) = set) (hopen : s.fabricOpen set = true) (hresp : x.resp = true)
    (hdest : x.dest = s.moduleId set) (hkept : s.home = [(n, .req r k true noc)]) (hhome : s.homeOf x = some (n, r))
    (hway : s.edgeWay (p.val / 3) (homeEdge r.src) x.gaddr = 0) (hitem : s.twinItem n = none) (hw : s.twinWaiting = 0)
    (hstatus : x.status = 0) : Completes (exec (.fabricResponseReceive p) s) fun t => ∃ u : State,
      t = u.edgeAnswer r k noc 0 x.payload ∧ u = { s with links := u.links, home := [] } ∧ TakenFrom p rest s u ∧
      (noc = none → t.out = s.out ++ [.nocAnswer r.src r.srcEp r.tag k 0 x.payload]) ∧
      (∀ q v, noc = some q → s.nocAt q = some v →
        t.nocAt q = some { v with delivered := true, answer := some (0, x.payload) }) := by
  obtain ⟨l, htake, -, hleft⟩ := takeArrived_takes h
  rw [hresp] at htake
  have he : exec (.fabricResponseReceive p) s =
      .next (((s.setLink p l).homeResponse n r x.srcModule x.status x.payload).settleFences) := by
    show execFabricResponseReceive p s = _
    rw [execFabricResponseReceive, htake]
    dsimp only
    rw [show (s.setLink p l).domainSet (16 + p.val / 3) = set from hset,
      if_neg (by rw [show (s.setLink p l).fabricOpen set = true from hopen]; decide),
      if_neg (show ¬ x.dest ≠ (s.setLink p l).moduleId set from not_not.2 hdest),
      show (s.setLink p l).homeOf x = some (n, r) from hhome]
    dsimp only
    rw [if_neg (show ¬ (s.setLink p l).edgeWay (p.val / 3) (homeEdge r.src) x.gaddr ≠ 0 from not_not.2 hway)]
  rw [he, State.homeResponse]
  dsimp only
  rw [if_pos (.inl hstatus), homeAnswer_settled (s := s.setLink p l) hkept hitem hw, hstatus]
  have hlink : (s.setLink p l).linkAt p = l := (linkAt_setLink ..).trans (if_pos rfl)
  obtain ⟨hout, hnoc⟩ := edgeAnswer_shows { s.setLink p l with home := [] } r k 0 noc x.payload (.inl rfl)
  exact ⟨_, rfl, _, rfl, rfl, hleft _ (congrArg LinkPort.kept hlink) (congrArg LinkPort.arrived hlink), hout, hnoc⟩

/-- A request whose response limit expires is answered with 0x68 and counted. -/
theorem respTimeout_answers {n k : Nat} {r : GlobalRequest} {sent : Bool} {noc : Option Nat} (h : s.home = [(n, .req r k sent noc)])
    (hitem : s.twinItem n = none) (hw : s.twinWaiting = 0) :
    Completes (exec (.fabricRespTimeout n) s) fun t => ∃ u : State, t = u.edgeAnswer r k noc 0x68 [] ∧
      u = { s with regs := u.regs, home := [] } ∧
      u.rd (eovReg (homeEdge r.src) Reg.EOV_RESP_TIMEOUT) = s.rd (eovReg (homeEdge r.src) Reg.EOV_RESP_TIMEOUT) + 1 ∧
      (noc = none → t.out = s.out ++ [.nocAnswer r.src r.srcEp r.tag k 0x68 []]) := by
  have hat : s.homeAt n = some (.req r k sent noc) := by simp [State.homeAt, h]
  obtain ⟨u, he, hrd, hu⟩ : ∃ u : State, exec (.fabricRespTimeout n) s = .next ((u.homeAnswer n r 0x68 []).settleFences) ∧
      u.rd (eovReg (homeEdge r.src) Reg.EOV_RESP_TIMEOUT) = s.rd (eovReg (homeEdge r.src) Reg.EOV_RESP_TIMEOUT) + 1 ∧
      u = { s with regs := u.regs } := by
    refine ⟨(s.bump (eovReg (homeEdge r.src) Reg.EOV_RESP_TIMEOUT) 1).eovFlag (homeEdge r.src) 7, ?_, ?_,
      (bumpEovFlag_onlyRegs ..).1⟩
    · show execFabricRespTimeout n s = _
      rw [execFabricRespTimeout, hat]
    · rw [rd_eovFlag _ _ _ (eovReg_ne (by decide)) (eovReg_ne (by decide)), rd_bump_one]
  rw [hu] at he hrd
  rw [he, homeAnswer_settled (s := { s with regs := u.regs }) h hitem hw]
  exact ⟨_, rfl, _, rfl, rfl, hrd, (edgeAnswer_shows { s with regs := u.regs, home := [] } r k 0x68 noc [] (.inr rfl)).1⟩

/-! ### Window entries (R274 to R276) -/

theorem edgeDo_next {e off : Nat} {go : State → State} (hr : s.fnReach 0 = true) (hd : (s.fnAt 0).d3hot = false)
    (hl : s.edgeLive e = true) : s.edgeDo e off go = .next (go s) := by
  rw [State.edgeDo, bar0Do_next hr hd, if_pos hl]

/-- A commit by firmware, or one by the host that reaches the entry, is a commit. -/
theorem exec_windowEntryCommit {e : Edge} {i : Fin 524288} {host : Bool} (w : Word)
    (h : host = true → s.fnReach 0 = true ∧ (s.fnAt 0).d3hot = false ∧ s.edgeLive e = true ∧
      s.fld (eovReg 0 Reg.EOV_WTP_SEL) 0 0 = i.val / 8 / 32768) :
    exec (.windowEntryCommit e i host w) s = .next (s.commit e i w) := by
  show execWindowEntryCommit e i host w s = _
  cases host with
  | false => rfl
  | true =>
    obtain ⟨hr, hd, hl, hsel⟩ := h rfl
    rw [execWindowEntryCommit, if_neg (by decide), if_neg (not_not.2 hsel), edgeDo_next hr hd hl]

theorem setWin_windows (s : State) (e i x : Nat) :
    (s.setWin e i x).windows = tset (fun _ => 0) s.windows (e * 2 ^ 19 + i) x := rfl

theorem setWin_mem (s : State) (e i x : Nat) : (s.setWin e i x).mem = s.mem := rfl

theorem rd_setWin (s : State) (e i x k : Nat) : (s.setWin e i x).rd k = s.rd k := rfl

theorem winAt_setWin (s : State) (e i x j : Nat) : (s.setWin e i x).winAt e j = if j = i then x else s.winAt e j := by
  rw [State.winAt, State.setWin, tget_tset]
  simp only [Nat.add_left_cancel_iff]
  rfl

section
/- `delta` on the constant alone, then a rewrite: the kernel would evaluate the body's tests at once if it had to compare an
unfolded commit with one that is not. -/
variable {e i new : Nat} {w : Word}
  (hnew : tget (fun _ => s.winAt e i % 2 ^ 96) s.staged (e * 2 ^ 19 + i) + w.toNat * 2 ^ 96 = new)
include hnew

/-- A commit that nothing refuses makes the word the entry. -/
theorem commit_allowed (h : ({ s with staged := terase s.staged (e * 2 ^ 19 + i) } : State).commitCause e i new = none)
    (hdrain : ¬ ((winOf (s.winAt e i)).state = 1 ∧ (winOf new).state = 2)) :
    (s.commit e i w).windows = (s.setWin e i new).windows ∧ (s.commit e i w).mem = s.mem := by
  generalize hf : @State.commit = f
  delta State.commit at hf
  rw [← hf]
  simp only [hnew, h, if_neg hdrain]
  have hset (u : State) (hu : u.windows = s.windows ∧ u.mem = s.mem) :
      (u.setWin e i new).windows = (s.setWin e i new).windows ∧ (u.setWin e i new).mem = s.mem := by
    rw [setWin_windows, setWin_windows, setWin_mem, hu.1]
    exact ⟨rfl, hu.2⟩
  split
  · split <;> exact hset _ ⟨rfl, rfl⟩
  · exact hset _ ⟨rfl, rfl⟩

/-- A commit that is refused is flagged and counted, and leaves every entry. -/
theorem commit_refused {c : Nat} (h : ({ s with staged := terase s.staged (e * 2 ^ 19 + i) } : State).commitCause e i new = some c) :
    (s.commit e i w).windows = s.windows ∧ (s.commit e i w).rbit (eovReg e Reg.EOV_ERR_FLAGS) 0 = true ∧
      (s.commit e i w).rd (eovReg e Reg.EOV_WT_REFUSED) = s.rd (eovReg e Reg.EOV_WT_REFUSED) + 1 := by
  have hu : ({ s with staged := terase s.staged (e * 2 ^ 19 + i) } : State).windows = s.windows ∧
      ∀ k, ({ s with staged := terase s.staged (e * 2 ^ 19 + i) } : State).rd k = s.rd k := ⟨rfl, fun k => rd_congr rfl k⟩
  generalize hf : @State.commit = f
  delta State.commit at hf
  rw [← hf]
  simp only [hnew, h]
  generalize ({ s with staged := terase s.staged (e * 2 ^ 19 + i) } : State) = u at hu ⊢
  obtain ⟨hwin, hrd⟩ := hu
  have hv : ((u.setFlag (eovReg e Reg.EOV_ERR_FLAGS) 0).bump (eovReg e Reg.EOV_WT_REFUSED) 1).windows = s.windows ∧
      ((u.setFlag (eovReg e Reg.EOV_ERR_FLAGS) 0).bump (eovReg e Reg.EOV_WT_REFUSED) 1).rbit (eovReg e Reg.EOV_ERR_FLAGS) 0 = true ∧
      ((u.setFlag (eovReg e Reg.EOV_ERR_FLAGS) 0).bump (eovReg e Reg.EOV_WT_REFUSED) 1).rd (eovReg e Reg.EOV_WT_REFUSED) =
        s.rd (eovReg e Reg.EOV_WT_REFUSED) + 1 := by
    refine ⟨?_, (rbit_bump_ne _ _ _ (eovReg_ne (by decide))).trans (rbit_setFlag_same _ _ _ (by decide)), ?_⟩
    · rw [bump_eq, wr_windows, setFlag_eq, wr_windows, hwin]
    · rw [rd_bump_one, rd_setFlag_ne _ _ (eovReg_ne (by decide)), hrd]
  generalize (u.setFlag (eovReg e Reg.EOV_ERR_FLAGS) 0).bump (eovReg e Reg.EOV_WT_REFUSED) 1 = v at hv ⊢
  split
  · rw [wr_windows, rbit_wr_ne _ _ _ (eovReg_ne (by decide)), rd_wr_ne _ _ (eovReg_ne (by decide))]
    exact hv
  · exact hv

end

/-- An event of a function is no register of an edge die. -/
theorem event_eov (s : State) (f code arg status e o : Nat) (ho : o < 0x10000) :
    (s.event f code arg status).rd (eovReg e o) = s.rd (eovReg e o) ∧ (s.event f code arg status).windows = s.windows := by
  have hne (o' : Nat) : eovReg e o ≠ pageReg f o' := by
    simp only [eovReg, pageReg, regKey, blockBase, Fin.val_ofNat]
    omega
  rcases event_cases s f code arg status with h | ⟨_, _, h⟩ <;> rw [h]
  · exact ⟨by rw [rd_setFlag_ne _ _ (hne _), rd_bump_ne _ _ (hne _)], by rw [setFlag_eq, wr_windows, bump_eq, wr_windows]⟩
  · exact ⟨rfl, rfl⟩

theorem winOf_state (x : Nat) : (winOf x).state = bitsOf x 61 60 := rfl

theorem winState_congr {s t : State} {e i : Nat} (h : t.windows = s.windows) :
    (winOf (t.winAt e i)).state = (winOf (s.winAt e i)).state := by
  rw [State.winAt, h, ← State.winAt]

/-- A tracker that counts for a window ends with the window drained. -/
theorem trackerEnd_drains {e i t : Nat} (ht : t < 64) (h : tget (fun _ => 0) s.trackers (64 * e + t) = i + 1) :
    (winOf ((s.trackerEnd e i).winAt e i)).state = 3 ∧ (s.trackerEnd e i).mem = s.mem ∧
      ∀ o < 0x10000, (s.trackerEnd e i).rd (eovReg e o) = s.rd (eovReg e o) := by
  obtain ⟨t', hof⟩ : ∃ t', s.trackerOf e i = some t' :=
    Option.isSome_iff_exists.1 (List.find?_isSome.2 ⟨t, List.mem_range.2 ht, by simp [h]⟩)
  obtain ⟨x, u, hend, hu⟩ : ∃ (x : Nat) (u : State), s.trackerEnd e i =
      (u.setWin e i (putBits x 61 60 3)).event (winOf x).owner 2 (e * 2 ^ 19 + i) 0 ∧ u.mem = s.mem ∧ u.regs = s.regs := by
    generalize hf : @State.trackerEnd = f
    delta State.trackerEnd at hf
    rw [← hf]
    simp only [hof]
    exact ⟨_, _, rfl, rfl, rfl⟩
  obtain ⟨hmem, hregs⟩ := hu
  have hev := event_eov (u.setWin e i (putBits x 61 60 3)) (winOf x).owner 2 (e * 2 ^ 19 + i) 0 e
  rw [hend]
  refine ⟨?_, (event_mem ..).trans ((setWin_mem ..).trans hmem), fun o ho => (hev o ho).1.trans ((rd_setWin ..).trans (rd_congr hregs _))⟩
  rw [winState_congr (hev 0 (by decide)).2, winAt_setWin, if_pos rfl, winOf_state, bitsOf_putBits_same _ _ _ _ (by decide)]
  decide

theorem drainLimitExpiry_drains {e : Edge} {t : Fin 64} {i : Nat} (h : tget (fun _ => 0) s.trackers (64 * e + t) = i + 1)
    (hf : s.flights = []) :
    Completes (exec (.drainLimitExpiry e t) s) fun u => (winOf (u.winAt e i)).state = 3 ∧
      u.rbit (eovReg e Reg.EOV_ERR_FLAGS) 6 = true ∧ u.mem = s.mem := by
  obtain ⟨v, he, hflag, hv⟩ : ∃ v : State, exec (.drainLimitExpiry e t) s = .next (v.trackerEnd e i) ∧
      v.rbit (eovReg e Reg.EOV_ERR_FLAGS) 6 = true ∧ v.trackers = s.trackers ∧ v.mem = s.mem := by
    refine ⟨(s.bump (eovReg e Reg.EOV_DRAIN_TIMEOUT) 0).eovFlag e 6, ?_,
      (rbit_bump_ne _ _ _ (eovReg_ne (by decide))).trans (rbit_setFlag_same _ _ _ (by decide)),
      (congrArg State.trackers (bumpEovFlag_onlyRegs ..).1).trans rfl, (bumpEovFlag_onlyRegs ..).mem_eq⟩
    show execDrainLimitExpiry e t s = _
    rw [execDrainLimitExpiry, h]
    simp only [hf, List.filter_nil, List.map_nil, List.length_nil, State.each, List.foldl_nil]
    rw [show ({ s with flights := [] } : State) = s by rw [← hf]]
  obtain ⟨htrackers, hmem⟩ := hv
  obtain ⟨hstate, hmem', hrd⟩ := trackerEnd_drains (s := v) (e := e) (i := i) t.isLt (by rw [htrackers, h])
  refine ⟨_, he, hstate, ?_, hmem'.trans hmem⟩
  rw [State.rbit, State.rdN, hrd _ (by decide), ← State.rdN, ← State.rbit]
  exact hflag

/-! ### Limits (R285) -/

theorem limitRefused_flags (s : State) (e : Nat) : (s.limitRefused e).rbit (eovReg e Reg.EOV_ERR_FLAGS) 10 = true ∧
    OnlyRegs s (s.limitRefused e) [eovReg e Reg.EOV_ERR_FLAGS, eovReg e Reg.EOV_FAULT_COUNT] :=
  ⟨(rbit_bump_ne _ _ _ (eovReg_ne (by decide))).trans (rbit_setFlag_same _ _ _ (by decide)), eovFlag_onlyRegs s e 10⟩

theorem drainLimitWrite_apart {e : Edge} (w : Word) (hr : s.fnReach 0 = true) (hd : (s.fnAt 0).d3hot = false)
    (hl : s.edgeLive e = true) : Completes (exec (.drainLimitWrite e w) s) fun t =>
      let v := Min.min (w.toNat % 512) 300
      (v + 50 ≤ s.fld (eovReg e Reg.EOV_RESP_LIMIT) 8 0 → t = s.wr (eovReg e Reg.EOV_DRAIN_LIMIT) (BitVec.ofNat 32 v)) ∧
      (s.fld (eovReg e Reg.EOV_RESP_LIMIT) 8 0 < v + 50 → t.rbit (eovReg e Reg.EOV_ERR_FLAGS) 10 = true ∧
        OnlyRegs s t [eovReg e Reg.EOV_ERR_FLAGS, eovReg e Reg.EOV_FAULT_COUNT]) :=
  ⟨_, edgeDo_next (go := fun s => s.writeDrainLimit e w) hr hd hl, fun h => if_neg (Nat.not_lt.2 h), fun h => by
    rw [show s.writeDrainLimit e w = s.limitRefused e from if_pos h]
    exact limitRefused_flags s e⟩

theorem respLimitWrite_apart {e : Edge} (w : Word) (hr : s.fnReach 0 = true) (hd : (s.fnAt 0).d3hot = false)
    (hl : s.edgeLive e = true) : Completes (exec (.respLimitWrite e w) s) fun t =>
      let v := w.toNat % 512
      (s.fld (eovReg e Reg.EOV_DRAIN_LIMIT) 8 0 + 50 ≤ v → t = s.wr (eovReg e Reg.EOV_RESP_LIMIT) (BitVec.ofNat 32 v)) ∧
      (v < s.fld (eovReg e Reg.EOV_DRAIN_LIMIT) 8 0 + 50 → t.rbit (eovReg e Reg.EOV_ERR_FLAGS) 10 = true ∧
        OnlyRegs s t [eovReg e Reg.EOV_ERR_FLAGS, eovReg e Reg.EOV_FAULT_COUNT]) :=
  ⟨_, edgeDo_next (go := fun s => s.writeRespLimit e w) hr hd hl, fun h => if_neg (Nat.not_lt.2 h), fun h => by
    rw [show s.writeRespLimit e w = s.limitRefused e from if_pos h]
    exact limitRefused_flags s e⟩

/-- A commit that is allowed makes the entry, and leaves the others. -/
theorem windowEntryCommit_allowed {e : Edge} {i : Fin 524288} {host : Bool} {w : Word} {new : Nat}
    (hreach : host = true → s.fnReach 0 = true ∧ (s.fnAt 0).d3hot = false ∧ s.edgeLive e = true ∧
      s.fld (eovReg 0 Reg.EOV_WTP_SEL) 0 0 = i.val / 8 / 32768)
    (hnew : tget (fun _ => s.winAt e i % 2 ^ 96) s.staged (e * 2 ^ 19 + i) + w.toNat * 2 ^ 96 = new)
    (h : ({ s with staged := terase s.staged (e * 2 ^ 19 + i) } : State).commitCause e i new = none)
    (hdrain : ¬ ((winOf (s.winAt e i)).state = 1 ∧ (winOf new).state = 2)) :
    Completes (exec (.windowEntryCommit e i host w) s) fun t => t.winAt e i = new ∧ t.mem = s.mem ∧
      ∀ j < 524288, j ≠ i.val → t.winAt e j = s.winAt e j := by
  obtain ⟨hwin, hmem⟩ := commit_allowed hnew h hdrain
  have hat (j : Nat) : (s.commit e i w).winAt e j = if j = i then new else s.winAt e j := by
    rw [← winAt_setWin, State.winAt, hwin, ← State.winAt]
  exact ⟨_, exec_windowEntryCommit w hreach, (hat i).trans (if_pos rfl), hmem, fun j _ hj => (hat j).trans (if_neg hj)⟩

/-- Settles O52, a part of the fabric at a time: home edges, fences, packets and responses, response limits, window entries,
drain limits, and the writes of the limits. -/
theorem fabricCommandsComplete : Obligations.FabricCommandsComplete := by
  unfold Obligations.FabricCommandsComplete
  refine ⟨fun r s => ?_, fun _ _ _ _ _ _ _ h hw hitem => fence_answered (h := h) (hw := hw) (hitem := hitem) .., fun p x rest s h => ?_, fun _ _ _ _ _ _ h hitem hw =>
    respTimeout_answers h hitem hw, fun e i host w s hreach => ?_, fun _ _ _ _ h hf => drainLimitExpiry_drains h hf,
    fun _ w _ hr hd hl => ⟨drainLimitWrite_apart w hr hd hl, respLimitWrite_apart w hr hd hl⟩⟩
  · intro set
    obtain ⟨hbad, hclosed, hfull⟩ := homeEdgeRequest_answers r s (set := set) rfl
    refine ⟨hbad, hclosed, hfull, fun hm hopen h hw hdest hvalid hport hup hway => ?_⟩
    refine ⟨_, homeEdgeRequest_sends r s rfl hm hopen h hw (sendHome_sends hdest hvalid hport hup hway), ?_, ?_, rfl⟩
    · simp [State.homeAt, State.homeSent, set]
    · exact congrArg LinkPort.queue ((linkAt_setLink s _ _ _).trans (if_pos rfl))
  · intro e set port left taken hopen
    refine ⟨fun hreq hdest hhops hcls hvalid hport hup hdate hway =>
        packetReceive_forwards h rfl hopen hreq hdest hhops hcls hvalid hport hup hdate hway,
      fun hreq hdest hop hatomic hway hmiss => packetReceive_misses h rfl hopen hreq hdest hop hatomic hway hmiss,
      fun hresp hdest hhome => responseReceive_late h rfl hopen hresp hdest hhome,
      fun n r k noc hresp hdest hkept hhome hway hitem hw hstatus =>
        responseReceive_answers h rfl hopen hresp hdest hkept hhome hway hitem hw hstatus⟩
  · intro new u
    exact ⟨fun h hdrain => windowEntryCommit_allowed hreach rfl h hdrain,
      fun c h => ⟨_, exec_windowEntryCommit w hreach, commit_refused rfl h⟩⟩

end Sys2Proof.Machine
end

section
set_option Elab.async false
/-! SUPPORT. The twin pair: its state, transfers to the partner, heartbeats and takeover (R397 to R407). -/

namespace Sys2Proof.Machine

variable {s t u : State}

/-! ### The pair's registers and state (R403) -/

theorem twnReg_ne {o o' : Nat} (h : o ≠ o') : twnReg o ≠ twnReg o' := regKey_ne h

theorem twnReg_add (o n : Nat) : twnReg o + n = twnReg (o + n) := Nat.add_assoc ..

/-- An event of a function is no register of the pair, and leaves memory and the twin engine. -/
theorem event_twn (s : State) (f code arg status : Nat) {o : Nat} (ho : o < 0x10000) :
    (s.event f code arg status).rd (twnReg o) = s.rd (twnReg o) ∧ (s.event f code arg status).twin = s.twin := by
  have hne (o' : Nat) : twnReg o ≠ pageReg f o' := by
    simp only [twnReg, pageReg, regKey, blockBase]
    omega
  rcases event_cases s f code arg status with h | ⟨_, _, h⟩ <;> rw [h]
  · exact ⟨by rw [rd_setFlag_ne _ _ (hne _), rd_bump_ne _ _ (hne _)], by rw [setFlag_eq, wr_twin, bump_eq, wr_twin]⟩
  · exact ⟨rfl, rfl⟩

/-- The registers of the pair and what the twin engine holds are as in `s`. -/
structure TwinKept (s t : State) : Prop where
  rd : ∀ o < 0x10000, t.rd (twnReg o) = s.rd (twnReg o)
  twin : t.twin = s.twin
  mem : t.mem = s.mem

theorem event_twinKept (s : State) (f code arg status : Nat) : TwinKept s (s.event f code arg status) :=
  ⟨fun _ ho => (event_twn s f code arg status ho).1, (event_twn s f code arg status (by decide : 0 < 0x10000)).2, event_mem ..⟩

theorem TwinKept.fld (h : TwinKept s t) {o : Nat} (ho : o < 0x10000) (hi lo : Nat) : t.fld (twnReg o) hi lo = s.fld (twnReg o) hi lo := by
  rw [State.fld, State.rdN, h.rd o ho, State.fld, State.rdN]

theorem TwinKept.rbit (h : TwinKept s t) {o : Nat} (ho : o < 0x10000) (i : Nat) : t.rbit (twnReg o) i = s.rbit (twnReg o) i := by
  rw [State.rbit, State.rdN, h.rd o ho, State.rbit, State.rdN]

/-- Entering a state shows it, and beyond that at most an event is formed. -/
theorem setTwin_twinKept (s : State) (st entries : Nat) : TwinKept (s.wrFld (twnReg Reg.TWN_STATUS) 31 28 st) (s.setTwin st entries) := by
  unfold State.setTwin
  dsimp only
  split
  · exact ⟨fun _ _ => rfl, rfl, rfl⟩
  · exact event_twinKept ..

theorem setTwin_twinState (s : State) {st : Nat} (h : st < 16) (entries : Nat) : (s.setTwin st entries).twinState = st := by
  rw [State.twinState, (setTwin_twinKept s st entries).fld (by decide), fld_wrFld_same _ _ _ _ _ (by decide) (by decide)]
  exact Nat.mod_eq_of_lt h

/-- A state that sends no event is its register alone. -/
theorem setTwin_quiet (s : State) {st : Nat} (h : st = 1 ∨ st = 5) (entries : Nat) :
    s.setTwin st entries = s.wrFld (twnReg Reg.TWN_STATUS) 31 28 st := if_pos h

theorem twinFlag_onlyRegs (s : State) (i : Nat) : OnlyRegs s (s.twinFlag i) [twnReg Reg.TWN_ERR_FLAGS, twnReg Reg.TWN_FAULT_COUNT] :=
  (OnlyRegs.wr s _ _ (by simp)).trans (.wr _ _ _ (by simp))

theorem twinFlag_flags (s : State) (i : Nat) (h : i < 32) : (s.twinFlag i).rbit (twnReg Reg.TWN_ERR_FLAGS) i = true :=
  (rbit_bump_ne _ _ _ (twnReg_ne (by decide))).trans (rbit_setFlag_same _ _ _ h)

/-- A command that function 0 reaches is carried out. -/
theorem twinCmd_next {go : State → State} (hr : s.fnReach 0 = true) (hd : (s.fnAt 0).d3hot = false) : s.twinCmd go = .next (go s) :=
  bar0Do_next hr hd

/-! ### Attach (R404) -/

/-- The records and regions that a sync copies do not turn on the pair's status. -/
theorem syncParts_congr (hrd : ∀ k, k ≠ twnReg Reg.TWN_STATUS → t.rd k = s.rd k) (hmem : t.mem = s.mem) (hsqs : t.sqs = s.sqs) :
    t.syncParts = s.syncParts := by
  have hN {k : Nat} (h : k ≠ twnReg Reg.TWN_STATUS) : t.rdN k = s.rdN k := congrArg BitVec.toNat (hrd k h)
  have h64 {o : Nat} (h : 0 < o) : t.rd64 (twnReg o) = s.rd64 (twnReg o) := by
    rw [State.rd64, State.rd64, twnReg_add, hN (twnReg_ne (by simp only [Reg.TWN_STATUS]; omega)),
      hN (twnReg_ne (by simp only [Reg.TWN_STATUS]; omega))]
  have hcounts (f r : Nat) : t.mirrorCounts f r = s.mirrorCounts f r := by
    have hring : ringKey f false r 0x14 ≠ twnReg Reg.TWN_STATUS := by
      simp only [ringKey, twnReg, regKey, blockBase, Reg.TWN_STATUS]
      omega
    rw [State.mirrorCounts, State.mirrorCounts, hN hring, State.sqAt, hsqs, State.sqAt]
  have hrecord : t.ringRecord = s.ringRecord := by
    funext i
    have hk : twnReg (Reg.TWN_RING + 8 * i) + 4 ≠ twnReg Reg.TWN_STATUS := by
      rw [twnReg_add]
      exact twnReg_ne (by simp only [Reg.TWN_RING, Reg.TWN_STATUS]; omega)
    have hbit : t.rbit (twnReg (Reg.TWN_RING + 8 * i) + 4) 31 = s.rbit (twnReg (Reg.TWN_RING + 8 * i) + 4) 31 :=
      congrArg (bitOf · 31) (hN hk)
    have hfld (hi lo : Nat) : t.fld (twnReg (Reg.TWN_RING + 8 * i) + 4) hi lo = s.fld (twnReg (Reg.TWN_RING + 8 * i) + 4) hi lo :=
      congrArg (bitsOf · hi lo) (hN hk)
    simp only [State.ringRecord, hbit, hfld, State.mirrorAddr, hcounts,
      h64 (show 0 < Reg.TWN_PARTNER_MIRROR by decide), h64 (show 0 < Reg.TWN_RING + 8 * i by simp only [Reg.TWN_RING]; omega)]
  have hregion (i : Nat) : 0 < Reg.TWN_REGION_BASE + 0x20 * i := by
    simp only [Reg.TWN_REGION_BASE]
    omega
  simp only [State.syncParts, hrecord, twnReg_add, h64 (hregion _), h64 (Nat.add_pos_left (hregion _) _), State.readBytes, hmem]

theorem attach_syncs (h : s.attachCause = 0) : ∃ u : State, s.attach = u.mirrorSend s.syncParts .sync ∧
      u.twinState = 1 ∧ u.twin = { TwinState.init with made := s.twin.made, mine := s.twin.mine } ∧
      u = { s with regs := u.regs, twin := u.twin } ∧ OnlyRegs { s with twin := u.twin } u [twnReg Reg.TWN_STATUS] := by
  obtain ⟨v, hv⟩ : ∃ v : State, v = { s with twin := { TwinState.init with made := s.twin.made, mine := s.twin.mine } } := ⟨_, rfl⟩
  have honly : OnlyRegs v ((v.wr (twnReg Reg.TWN_STATUS) 0).wrFld (twnReg Reg.TWN_STATUS) 31 28 1) [twnReg Reg.TWN_STATUS] :=
    (OnlyRegs.wr v _ _ (by simp)).trans (.wr _ _ _ (by simp))
  have hstate : ((v.wr (twnReg Reg.TWN_STATUS) 0).wrFld (twnReg Reg.TWN_STATUS) 31 28 1).twinState = 1 :=
    fld_wrFld_same _ _ _ _ _ (by decide) (by decide)
  have hattach : s.attach = ((v.wr (twnReg Reg.TWN_STATUS) 0).wrFld (twnReg Reg.TWN_STATUS) 31 28 1).mirrorSend
      ((v.wr (twnReg Reg.TWN_STATUS) 0).wrFld (twnReg Reg.TWN_STATUS) 31 28 1).syncParts .sync := by
    rw [State.attach, h]
    dsimp only
    rw [if_neg (by simp), ← hv, setTwin_quiet _ (.inl rfl)]
  obtain ⟨u, hu⟩ : ∃ u : State, u = (v.wr (twnReg Reg.TWN_STATUS) 0).wrFld (twnReg Reg.TWN_STATUS) 31 28 1 := ⟨_, rfl⟩
  rw [← hu] at honly hstate hattach
  obtain ⟨hframe, hrd⟩ := honly
  rw [hv] at hframe
  have htwin : u.twin = { TwinState.init with made := s.twin.made, mine := s.twin.mine } := (congrArg State.twin hframe).trans rfl
  refine ⟨u, ?_, hstate, htwin, hframe.trans ?_, ?_, fun k hk => (hrd k hk).trans (rd_congr (congrArg State.regs hv) k)⟩
  · rw [hattach, syncParts_congr (s := s) (fun k hk => (hrd k (by simpa using hk)).trans (rd_congr (congrArg State.regs hv) k))
      ((congrArg State.mem hframe).trans rfl) ((congrArg State.sqs hframe).trans rfl)]
  · rw [htwin]
  · rw [htwin]
    exact hframe

theorem attach_refused (h : s.attachCause ≠ 0) : s.attach.twin = s.twin ∧
    s.attach.rdN (twnReg Reg.TWN_ATTACH_CAUSE) = s.attachCause ∧ s.attach.rbit (twnReg Reg.TWN_ERR_FLAGS) 4 = true ∧
    OnlyRegs s s.attach [twnReg Reg.TWN_ATTACH_CAUSE, twnReg Reg.TWN_ERR_FLAGS, twnReg Reg.TWN_FAULT_COUNT] := by
  have hlt : s.attachCause < 2 ^ 32 := by
    unfold State.attachCause
    dsimp only
    grind
  have he : s.attach = (s.wr (twnReg Reg.TWN_ATTACH_CAUSE) (BitVec.ofNat 32 s.attachCause)).twinFlag 4 := if_pos h
  rw [he]
  have honly := (OnlyRegs.wr s (twnReg Reg.TWN_ATTACH_CAUSE) (BitVec.ofNat 32 s.attachCause) List.mem_cons_self).trans
    ((twinFlag_onlyRegs _ 4).mono (List.subset_cons_self ..))
  refine ⟨(congrArg State.twin honly.1).trans rfl, ?_, twinFlag_flags _ _ (by decide), honly⟩
  rw [State.rdN, (twinFlag_onlyRegs _ 4).2 _ (by simp [twnReg_ne, Reg.TWN_ATTACH_CAUSE, Reg.TWN_ERR_FLAGS, Reg.TWN_FAULT_COUNT]),
    rd_wr_same, BitVec.toNat_ofNat, Nat.mod_eq_of_lt hlt]

/-! ### Transfers to the partner (R399) -/

/-- The pieces of a transfer hold its bytes, none beyond its granule. -/
theorem granules_flat (fuel off : Nat) (bs : List Byte) (h : bs.length + off % 256 ≤ 256 * fuel) :
    (granules fuel off bs).flatMap (·.2) = bs := by
  induction fuel generalizing off bs with
  | zero =>
    rw [granules, List.flatMap_nil]
    exact (List.eq_nil_of_length_eq_zero (by omega)).symm
  | succ n ih =>
    rw [granules]
    split
    · next he => simpa using he.symm
    · rw [List.flatMap_cons, ih _ _ (by rw [List.length_drop]; omega), List.take_append_drop]

theorem granules_within {fuel off : Nat} {bs : List Byte} {p : Nat × List Byte} (h : p ∈ granules fuel off bs) :
    p.1 % 256 + p.2.length ≤ 256 ∧ p.2 ≠ [] := by
  induction fuel generalizing off bs with
  | zero => simp [granules] at h
  | succ n ih =>
    rw [granules] at h
    split at h
    · simp at h
    · next he =>
      rcases List.mem_cons.1 h with rfl | h
      · have hlen : bs ≠ [] := by simpa using he
        refine ⟨by simp only [List.length_take]; omega, ?_⟩
        simp only [ne_eq, List.take_eq_nil_iff, hlen, or_false]
        omega
      · exact ih h

theorem each_emit (s : State) (ws : List (Nat × List Byte)) :
    s.each ws (fun s x => s.emit (.mirror x.1 x.2)) = { s with out := s.out ++ ws.map (fun x => Output.mirror x.1 x.2) } := by
  induction ws generalizing s with
  | nil => simp
  | cons x xs ih =>
    rw [each_cons, ih]
    simp only [State.emit, List.map_cons, List.append_assoc, List.singleton_append]

theorem mirrorSend_sends (ws : List (Nat × List Byte)) (w : MirrorWrite) (s : State) :
    ∃ (u : State) (todo : List (Nat × List Byte)), s.mirrorSend ws w = u.settleFences ∧ todo.flatMap (·.2) = ws.flatMap (·.2) ∧
      (∀ p ∈ todo, p.1 % 256 + p.2.length ≤ 256 ∧ p.2 ≠ []) ∧
      u = { s with
        out := s.out ++ ws.map (fun x => Output.mirror x.1 x.2)
        twin := { s.twin with made := s.twin.made + 1
                              writes := s.twin.writes ++ [⟨s.twin.made, w, mirrorCls w, todo, 0, 0⟩] } } := by
  refine ⟨_, ws.flatMap fun x => granules (x.2.length / 256 + 2) x.1 x.2, ?_, ?_, ?_, rfl⟩
  · rw [State.mirrorSend, each_emit]
  · rw [List.flatMap_assoc]
    congr 1
    funext x
    exact granules_flat _ _ _ (by omega)
  · intro p hp
    obtain ⟨x, -, hp⟩ := List.mem_flatMap.1 hp
    exact granules_within hp

/-! ### Takeover and detach (R406, R407) -/

/-- Registers, jobs and the transfers to the partner are as before. -/
structure WorkKept (s t : State) : Prop where
  regs : t.regs = s.regs
  jobs : t.jobs = s.jobs
  writes : t.twin.writes = s.twin.writes

theorem WorkKept.refl (s : State) : WorkKept s s := ⟨rfl, rfl, rfl⟩

theorem WorkKept.trans (h : WorkKept s t) (h' : WorkKept t u) : WorkKept s u :=
  ⟨h'.regs.trans h.regs, h'.jobs.trans h.jobs, h'.writes.trans h.writes⟩

theorem queueCpl_workKept (s : State) (e : Entry) (r : Report) : WorkKept s (s.queueCpl e r) := by
  unfold State.queueCpl
  split
  · exact .refl s
  · exact ⟨rfl, rfl, rfl⟩

theorem completeAway_workKept (s : State) (e : Entry) (r : Report) : WorkKept s (s.completeAway e r) := by
  unfold State.completeAway
  extract_lets v bs w u
  have hu : WorkKept s u := (queueCpl_workKept s e r).trans ⟨rfl, rfl, rfl⟩
  exact List.foldlRecOn (motive := WorkKept s) _ _ hu fun _ h _ _ => h.trans (queueCpl_workKept ..)

theorem complete_workKept (s : State) (e : Entry) (r : Report) : WorkKept s (s.complete e r) := by
  have hset (u : State) (x : SubRing) : WorkKept u (u.setSq e.func e.ring x) := ⟨rfl, rfl, rfl⟩
  have hq := queueCpl_workKept s e r
  unfold State.complete
  extract_lets u x left
  split
  · exact .refl s
  split
  · exact completeAway_workKept ..
  split
  · split
    · exact (hq.trans (hset ..)).trans (queueCpl_workKept ..)
    · exact hq.trans (hset ..)
  · exact hq.trans (hset ..)

theorem barrierEntry_workKept (s : State) (e : Entry) : WorkKept s (s.barrierEntry e) := by
  unfold State.barrierEntry
  dsimp only
  split
  · exact complete_workKept ..
  · exact ⟨rfl, rfl, rfl⟩

theorem jobAt_setJob (s : State) (j k : Nat) (v : Job) : (s.setJob j v).jobAt k = if k = j then some v else s.jobAt k := by
  split
  · next h => rw [h, jobAt_setJob_same]
  · next h =>
    have hput : (tput s.jobs j v).find? (fun e => e.1 == k) = s.jobs.find? (fun e => e.1 == k) := by
      fun_induction tput s.jobs j v <;> grind
    exact congrArg (Option.map Prod.snd) hput

/-- No job is held for the pair, the pair's state is `st`, and no entry's write is left. -/
structure TwinReleased (st : Nat) (s : State) : Prop where
  state : s.twinState = st
  writes : ∀ e, MirrorWrite.entry e ∉ s.twin.writes.map (·.act)
  jobs : ∀ j v, s.jobAt j = some v → v.heldTwin = false

theorem TwinReleased.congr {st : Nat} (h : TwinReleased st s) (k : WorkKept s t) : TwinReleased st t := by
  obtain ⟨hregs, hjobs, hwrites⟩ := k
  refine ⟨(fld_congr _ hregs _ _ _).trans h.state, ?_, fun j v hv => h.jobs j v ?_⟩
  · rw [hwrites]
    exact h.writes
  · rw [← hv, State.jobAt, State.jobAt, hjobs]

/-- What waits for an entry's write goes on with no job held. -/
theorem TwinReleased.afterMirror {st : Nat} (h : TwinReleased st s) (e : MirrorThen) : TwinReleased st (s.afterMirror e) := by
  cases e with
  | nop e => exact h.congr (complete_workKept ..)
  | barrier e => exact h.congr (barrierEntry_workKept ..)
  | job j =>
    unfold State.afterMirror
    dsimp only
    split
    · next v hv =>
      split
      · refine ⟨h.state, h.writes, fun k w hw => ?_⟩
        replace hw : (s.setJob j { v with phase := .queued }).jobAt k = some w := hw
        rw [jobAt_setJob] at hw
        split at hw
        · rw [← Option.some.inj hw]
          exact h.jobs j v hv
        · exact h.jobs k w hw
      · exact h
    · exact h

/-- Releasing job after job leaves none of them held. -/
theorem each_release_jobAt (js : List (Nat × Job)) (s : State) (j : Nat) (v : Job)
    (h : (s.each js fun s e => s.mapJob e.1 fun v => { v with heldTwin := false }).jobAt j = some v) :
    v.heldTwin = false ∨ s.jobAt j = some v ∧ ∀ e ∈ js, e.1 ≠ j := by
  induction js generalizing s with
  | nil => exact .inr ⟨h, by simp⟩
  | cons e js ih =>
    rw [each_cons] at h
    obtain hv | ⟨hv, hne⟩ := ih _ h
    · exact .inl hv
    · unfold State.mapJob at hv
      split at hv
      · next he =>
        by_cases hj : j = e.1
        · rw [hj, he] at hv
          cases hv
        · exact .inr ⟨hv, by simpa [Ne.symm hj] using hne⟩
      · rw [jobAt_setJob] at hv
        split at hv
        · rw [← Option.some.inj hv]
          exact .inl rfl
        · next hj => exact .inr ⟨hv, by simpa [Ne.symm hj] using hne⟩

theorem releaseHeld_released (s : State) : TwinReleased s.twinState s.releaseHeld := by
  unfold State.releaseHeld
  extract_lets ws w u v
  have hkept : v.regs = s.regs ∧ v.twin.writes = u.twin.writes := by
    have h := each_keeps u (fun x => (x.regs, x.twin.writes)) (fun s e => s.mapJob e.1 fun v => { v with heldTwin := false })
      (fun s e => by unfold State.mapJob; split <;> rfl) (u.jobs.filter fun e => e.2.heldTwin)
    exact ⟨congrArg Prod.fst h, congrArg Prod.snd h⟩
  have hv : TwinReleased s.twinState v := by
    refine ⟨fld_congr _ hkept.1 _ _ _, fun e he => ?_, fun j w hw => ?_⟩
    · rw [hkept.2] at he
      obtain ⟨x, hx, hact⟩ := List.mem_map.1 he
      have := (List.mem_filter.1 hx).2
      simp [hact] at this
    · obtain hw | ⟨hw, hne⟩ := each_release_jobAt _ _ _ _ hw
      · exact hw
      · by_contra hheld
        obtain ⟨⟨k, w'⟩, hfind, rfl⟩ := Option.map_eq_some_iff.1 hw
        have hk : k = j := by simpa using List.find?_some hfind
        exact hne (k, w') (List.mem_filter.2 ⟨List.mem_of_find?_eq_some hfind, by simpa using hheld⟩) hk
  refine each_induction (TwinReleased s.twinState) (fun t w ht => ?_) ws hv
  split
  · exact ht.afterMirror _
  · exact ht

/-- A takeover ends with what is held released, in state serving. -/
theorem takeover_serves (m : MemFind) (hr : s.fnReach 0 = true) (hd : (s.fnAt 0).d3hot = false) (h : s.twinState = 3) :
    Completes (exec (.takeover m) s) fun t => t.twinState = 4 ∧ (∀ e, MirrorWrite.entry e ∉ t.twin.writes.map (·.act)) ∧
      ∀ j v, t.jobAt j = some v → v.heldTwin = false := by
  have he : exec (.takeover m) s = execTakeover m s := rfl
  rw [execTakeover, twinCmd_next hr hd, if_neg (not_not.2 h)] at he
  obtain ⟨v, n, he⟩ : ∃ (v : State) (n : Nat), exec (.takeover m) s = .next (v.setTwin 4 n).releaseHeld := ⟨_, _, he⟩
  obtain ⟨hstate, hwrites, hjobs⟩ := releaseHeld_released (v.setTwin 4 n)
  exact ⟨_, he, hstate.trans (setTwin_twinState _ (by decide) _), hwrites, hjobs⟩

theorem unpair_unpaired (s : State) : s.unpair.twinState = 0 ∧
    s.unpair.twin = { TwinState.init with barriers := s.unpair.twin.barriers, made := s.unpair.twin.made, mine := s.unpair.twin.mine } := by
  obtain ⟨v, hv, x, hx⟩ : ∃ v : State, s.unpair = (v.wrFld (twnReg Reg.TWN_STATUS) 19 18 0).setTwin 0 0 ∧ ∃ x : TwinState, v.twin =
      { TwinState.init with barriers := x.barriers, made := x.made, mine := x.mine } := ⟨_, rfl, s.releaseHeld.twin, rfl⟩
  have htwin : s.unpair.twin = v.twin := by
    rw [hv, (setTwin_twinKept _ 0 0).twin, wrFld_eq, wr_twin, wrFld_eq, wr_twin]
  refine ⟨hv ▸ setTwin_twinState _ (by decide) _, ?_⟩
  rw [htwin, hx]

theorem detach_detaches (hr : s.fnReach 0 = true) (hd : (s.fnAt 0).d3hot = false) :
    (s.twinState = 3 ∨ s.twinState = 4 → Completes (exec .detach s) fun t => t.twinState = 0 ∧
      t.twin = { TwinState.init with barriers := t.twin.barriers, made := t.twin.made, mine := t.twin.mine }) ∧
    (s.twinState = 5 → (∃ x ∈ s.twin.writes, x.act ≠ .heartbeat) → exec .detach s = .next (s.twinFlag 0)) ∧
    (s.twinState = 2 → s.mirroredJobs = [] → Completes (exec .detach s) fun t => t.twinState = 5 ∧ t.twin = s.twin ∧
      OnlyRegs s t [twnReg Reg.TWN_STATUS]) ∧
    (s.twinState < 2 ∨ 5 < s.twinState → exec .detach s = .next (s.twinFlag 0)) := by
  have he : exec .detach s = .next s.detach := twinCmd_next hr hd
  rw [he]
  refine ⟨fun h => ⟨_, rfl, ?_⟩, fun h hw => ?_, fun h hjobs => ⟨_, rfl, ?_⟩, fun h => ?_⟩
  · have hun : s.detach = s.unpair := by
      obtain h | h := h <;> simp only [State.detach, h]
    rw [hun]
    exact unpair_unpaired s
  · obtain ⟨x, hx, hact⟩ := hw
    simp only [State.detach, h]
    rw [if_neg]
    simpa using ⟨x, hx, hact⟩
  · have hdet : s.detach = s.wrFld (twnReg Reg.TWN_STATUS) 31 28 5 := by
      simp only [State.detach, h]
      have hnone : (s.wrFld (twnReg Reg.TWN_STATUS) 31 28 5).mirroredJobs = [] := by
        rw [State.mirroredJobs, wrFld_eq, wr_jobs]
        exact hjobs
      rw [setTwin_quiet _ (.inr rfl), State.holdMirrored, hnone, each_nil]
    rw [hdet]
    refine ⟨fld_wrFld_same _ _ _ _ _ (by decide) (by decide), ?_, ?_⟩
    · rw [wrFld_eq, wr_twin]
    · rw [wrFld_eq]
      exact .wr _ _ _ (by simp)
  · unfold State.detach
    split
    · omega
    · omega
    · omega
    · omega
    · rfl

/-! ### Sync and heartbeats (R399, R400, R403, R404) -/

/-- Protecting the pair changes its state at most. -/
theorem protect_kept (s : State) : s.protect.twin = s.twin ∧ s.protect.mem = s.mem ∧
    (∀ o < 0x10000, o ≠ Reg.TWN_STATUS → s.protect.rd (twnReg o) = s.rd (twnReg o)) ∧
    s.protect.fld (twnReg Reg.TWN_STATUS) 23 20 = s.fld (twnReg Reg.TWN_STATUS) 23 20 ∧
    s.protect.rbit (twnReg Reg.TWN_STATUS) 19 = s.rbit (twnReg Reg.TWN_STATUS) 19 := by
  unfold State.protect
  split
  · have hk := setTwin_twinKept s 2 0
    refine ⟨hk.twin.trans ?_, hk.mem.trans ?_, fun o ho hne => (hk.rd o ho).trans (rd_wrFld_ne _ _ _ _ (twnReg_ne hne)),
      (hk.fld (by decide) _ _).trans (fld_wrFld_other _ _ _ _ _ _ _ (by decide) (by decide) (by decide) (by decide)),
      (hk.rbit (by decide) _).trans ((rbit_wrFld _ _ _ _ _ _ (by decide) (by decide)).trans (if_neg (by decide)))⟩
    · rw [wrFld_eq, wr_twin]
    · rw [wrFld_eq, wr_mem]
  · exact ⟨rfl, rfl, fun _ _ _ => rfl, rfl, rfl⟩

theorem syncDone_shows (us : Nat) (h : s.twinState = 1) (h19 : s.rbit (twnReg Reg.TWN_STATUS) 19 = false)
    (hsync : MirrorWrite.sync ∉ s.twin.writes.map (·.act)) : Completes (exec (.syncDone us) s) fun t =>
      t.rbit (twnReg Reg.TWN_STATUS) 19 = true ∧ t.rd (twnReg Reg.TWN_SYNC_US) = BitVec.ofNat 32 us ∧
      t.twinState = (if s.rbit (twnReg Reg.TWN_STATUS) 18 then 2 else 1) := by
  have he : exec (.syncDone us) s = execSyncDone us s := rfl
  have hany : (s.twin.writes.any fun x => x.act == .sync) = false := by
    rw [List.any_eq_false]
    intro x hx hact
    exact hsync (List.mem_map.2 ⟨x, hx, by simpa using hact⟩)
  rw [execSyncDone, if_neg (by simp [h, h19, hany])] at he
  obtain ⟨v, hv⟩ : ∃ v, v = (s.wrFld (twnReg Reg.TWN_STATUS) 19 19 1).wr (twnReg Reg.TWN_SYNC_US) (BitVec.ofNat 32 us) := ⟨_, rfl⟩
  have hbit (i : Nat) : v.rbit (twnReg Reg.TWN_STATUS) i = if 19 ≤ i ∧ i ≤ 19 then (1 : Nat).testBit (i - 19)
      else s.rbit (twnReg Reg.TWN_STATUS) i := by
    rw [hv, rbit_wr_ne _ _ _ (twnReg_ne (by decide)), rbit_wrFld _ _ _ _ _ _ (by decide) (by decide)]
  have hus : v.rd (twnReg Reg.TWN_SYNC_US) = BitVec.ofNat 32 us := hv ▸ rd_wr_same ..
  have hstate : v.twinState = 1 := by
    rw [State.twinState, hv, fld_wr_ne _ _ _ _ (twnReg_ne (by decide)),
      fld_wrFld_other _ _ _ _ _ _ _ (by decide) (by decide) (by decide) (by decide)]
    exact h
  rw [← hv] at he
  obtain ⟨-, -, hrd, -, hkept⟩ := protect_kept v
  refine ⟨_, he, hkept.trans (hbit 19), (hrd _ (by decide) (by decide)).trans hus, ?_⟩
  have h18 : v.rbit (twnReg Reg.TWN_STATUS) 18 = s.rbit (twnReg Reg.TWN_STATUS) 18 := hbit 18
  have h19' : v.rbit (twnReg Reg.TWN_STATUS) 19 = true := hbit 19
  rw [State.protect, h18, h19', hstate]
  split
  · next h => rw [setTwin_twinState _ (by decide), if_pos h.2.2]
  · next h => rw [hstate, if_neg (fun hb => h ⟨rfl, rfl, hb⟩)]

theorem take_natBytes {k n : Nat} (h : k ≤ n) (x : Nat) : (natBytes n x).take k = natBytes k x := by
  induction k generalizing n x with
  | zero => rfl
  | succ k ih =>
    obtain ⟨n, rfl⟩ := Nat.exists_eq_succ_of_ne_zero (n := n) (by omega)
    rw [natBytes, natBytes, List.take_succ_cons, ih (by omega)]

/-- The pair's state among the bits of a heartbeat. -/
theorem heartbeat_state {n st id synced : Nat} (hst : st < 16) (hid : id < 2 ^ 20) (hs : synced = 0 ∨ synced = 2 ^ 56) :
    bitsOf ((n % 2 ^ 32 + st * 2 ^ 32 + id * 2 ^ 36 + synced) % 256 ^ 32) 35 32 = st := by
  rw [bitsOf]
  rcases hs with rfl | rfl <;> omega

/-- Its count among them. -/
theorem heartbeat_count {n st id synced : Nat} (hs : synced = 0 ∨ synced = 2 ^ 56) :
    (n % 2 ^ 32 + st * 2 ^ 32 + id * 2 ^ 36 + synced) % 256 ^ 4 = n % 2 ^ 32 := by
  rcases hs with rfl | rfl <;> omega

theorem heartbeatSend_sends (h : s.twinState ≠ 0) : Completes (exec .heartbeatSend s) fun t => ∃ bs : List Byte, bs.length = 32 ∧
    bytesNat (bs.take 4) = (s.twin.sent + 1) % 2 ^ 32 ∧ bitsOf (bytesNat bs) 35 32 = s.twinState ∧
    t = (({ s with twin := { s.twin with sent := s.twin.sent + 1 } } : State).mirrorSend
      [(s.rd64 (twnReg Reg.TWN_PARTNER_MIRROR), bs)] .heartbeat).bump64 (twnReg Reg.TWN_HB_SENT) 1 := by
  have he : exec .heartbeatSend s = execHeartbeatSend s := rfl
  rw [execHeartbeatSend, if_neg h] at he
  refine ⟨_, he, _, length_natBytes 32 _, ?_, ?_, rfl⟩
  · rw [take_natBytes (by decide), bytesNat_natBytes]
    exact heartbeat_count (by split <;> decide)
  · rw [bytesNat_natBytes]
    exact heartbeat_state (bitsOf_lt _ 31 28) (bitsOf_lt _ 19 0) (by split <;> decide)

/-- A read of the slot that meets nothing shows the partner's state, and then either a new count or a miss. -/
theorem heartbeatCheck_shows {m : MemFind} {r : MemAns} (h : s.twinState ≠ 0)
    (hread : s.roundTrip (twinAgent s.twinPort) (s.rd64 (twnReg Reg.TWN_MIRROR_BASE)) 32 none m = (r, u)) (hr : r.status = 0)
    {w : Nat} (hw : bytesNat (r.data.take 8) = w) (hst : ¬ (3 ≤ bitsOf w 35 32 ∧ bitsOf w 35 32 ≤ 5)) :
    (bitsOf w 31 0 ≠ u.twin.seen →
      Completes (exec (.heartbeatCheck m) s) fun t => t.twin = { u.twin with misses := 0, seen := bitsOf w 31 0 } ∧
        t.fld (twnReg Reg.TWN_STATUS) 23 20 = bitsOf w 35 32 ∧ t.mem = u.mem) ∧
    (bitsOf w 31 0 = u.twin.seen → u.twin.misses + 1 < u.fld (twnReg Reg.TWN_HB_MISS) 7 0 →
      Completes (exec (.heartbeatCheck m) s) fun t =>
        t.twin = { u.twin with misses := u.twin.misses + 1 } ∧ t.mem = u.mem ∧
        t.rd (twnReg Reg.TWN_HB_MISSED) = u.rd (twnReg Reg.TWN_HB_MISSED) + 1) := by
  have he : exec (.heartbeatCheck m) s = execHeartbeatCheck m s := rfl
  rw [execHeartbeatCheck, if_neg h] at he
  simp only [hread, hr, hw, ne_eq, not_true_eq_false, if_false, false_or, hst, and_false] at he
  obtain ⟨v, hv⟩ : ∃ v, v = (u.wrFld (twnReg Reg.TWN_STATUS) 23 20 (bitsOf w 35 32)).wrFld (twnReg Reg.TWN_STATUS) 18 18 (bitsOf w 56 56) :=
    ⟨_, rfl⟩
  have hkept : v.twin = u.twin ∧ v.mem = u.mem := by
    rw [hv, wrFld_eq, wrFld_eq, wr_twin, wr_twin, wr_mem, wr_mem]
    exact ⟨rfl, rfl⟩
  rw [← hv] at he
  have hfld : v.fld (twnReg Reg.TWN_STATUS) 23 20 = bitsOf w 35 32 := by
    rw [hv, fld_wrFld_other _ _ _ _ _ _ _ (by decide) (by decide) (by decide) (by decide),
      fld_wrFld_same _ _ _ _ _ (by decide) (by decide)]
    exact Nat.mod_eq_of_lt (bitsOf_lt ..)
  have hrd (o : Nat) (ho : o ≠ Reg.TWN_STATUS) : v.rd (twnReg o) = u.rd (twnReg o) := by
    rw [hv, rd_wrFld_ne _ _ _ _ (twnReg_ne ho), rd_wrFld_ne _ _ _ _ (twnReg_ne ho)]
  obtain ⟨htwin, hmem⟩ := hkept
  refine ⟨fun hnew => ?_, fun hold hmiss => ?_⟩
  · rw [htwin, if_neg hnew] at he
    obtain ⟨x, hx⟩ : ∃ x : State, x = { v with twin := { u.twin with misses := 0, seen := bitsOf w 31 0 } } := ⟨_, rfl⟩
    rw [← hx] at he
    obtain ⟨hptwin, hpmem, -, hpfld, -⟩ := protect_kept x
    refine ⟨_, he, hptwin.trans (congrArg State.twin hx), ?_, hpmem.trans ((congrArg State.mem hx).trans hmem)⟩
    exact hpfld.trans ((fld_congr _ (congrArg State.regs hx) _ _ _).trans hfld)
  · rw [htwin, if_pos hold] at he
    obtain ⟨x, hx, hxtwin, hxmem, hxrd⟩ : ∃ x : State,
        x = ({ v with twin := { u.twin with misses := u.twin.misses + 1 } } : State).bump (twnReg Reg.TWN_HB_MISSED) 1 ∧
        x.twin = { u.twin with misses := u.twin.misses + 1 } ∧ x.mem = v.mem ∧
        ∀ k, x.rd k = if k = twnReg Reg.TWN_HB_MISSED then v.rd k + 1 else v.rd k := by
      refine ⟨_, rfl, ?_, ?_, fun k => ?_⟩
      · rw [bump_eq, wr_twin]
      · rw [bump_eq, wr_mem]
      · split
        · next h => rw [h, rd_bump_one]; rfl
        · next h => rw [rd_bump_ne _ _ h]; rfl
    rw [← hx, if_neg] at he
    · obtain ⟨hptwin, hpmem, hprd, -, -⟩ := protect_kept x
      refine ⟨_, he, hptwin.trans hxtwin, hpmem.trans (hxmem.trans hmem), ?_⟩
      rw [hprd _ (by decide) (by decide), hxrd, if_pos rfl, hrd _ (by decide)]
    · rw [State.fld, State.rdN, hxrd, if_neg (twnReg_ne (by decide)), hrd _ (by decide), ← State.rdN, ← State.fld]
      exact Nat.not_le.2 hmiss

/-! ### Answers of the partner (R400 to R402) -/

section
variable {i st : Nat} {x : MirrorXfer} (hx : s.twin.writes[i]? = some x)
include hx

/-- What has its answer whole leaves those that wait; what is done then turns on the write. -/
theorem mirrorWriteResponse_answered (htodo : x.todo = []) (hleft : x.left = 0) (hstatus : x.status = 0)
    {u v : State} (hu : u = { s with twin := { s.twin with writes := s.twin.writes.eraseIdx i } })
    (hv : v = u.bump64 (twnReg Reg.TWN_MIRROR_WRITES) 1) :
      (x.act = .heartbeat → exec (.mirrorWriteResponse i 0) s = .next u) ∧
      (x.act = .empty ∨ x.act = .sync → exec (.mirrorWriteResponse i 0) s = .next v) ∧
      (∀ t, x.act = .entry t → exec (.mirrorWriteResponse i 0) s = .next (v.afterMirror t)) ∧
      (∀ off bs, x.act = .ckpt off bs 0 → exec (.mirrorWriteResponse i 0) s = .next (v.mirrorFence (.ckpt off bs 1))) ∧
      (∀ off bs, x.act = .ckpt off bs 1 →
        exec (.mirrorWriteResponse i 0) s = .next (v.mirrorSend [(off, bs)] (.ckpt off bs 2))) ∧
      (∀ off bs, x.act = .ckpt off bs 2 → exec (.mirrorWriteResponse i 0) s = .next v) := by
  have he : exec (.mirrorWriteResponse i 0) s = execMirrorWriteResponse i 0 s := rfl
  have hend : ¬ (!x.ended || x.status % 256 != 0 % 256) = true := by simp [MirrorXfer.ended, htodo, hleft, hstatus]
  rw [execMirrorWriteResponse, hx] at he
  dsimp only at he
  rw [if_neg hend, ← hu] at he
  rw [if_neg (by decide), ← hv] at he
  rw [he]
  refine ⟨fun h => ?_, fun h => ?_, fun t h => ?_, fun off bs h => ?_, fun off bs h => ?_, fun off bs h => ?_⟩
  · rw [if_pos h, h]
  · obtain h | h := h
    · rw [if_neg (by simp [h]), h]
    · rw [if_neg (by simp [h]), h]
  · rw [if_neg (by simp [h]), h]
  · rw [if_neg (by simp [h]), h]
    rfl
  · rw [if_neg (by simp [h]), h]
    rfl
  · rw [if_neg (by simp [h]), h]
    rfl

/-- A transfer that failed loses the partner. -/
theorem mirrorWriteResponse_failed (hstatus : x.status % 256 ≠ 0)
    {u v : State} (hu : u = { s with twin := { s.twin with writes := s.twin.writes.eraseIdx i } })
    (hv : v = u.bump64 (twnReg Reg.TWN_MIRROR_WRITES) 1) :
      (x.act = .heartbeat → exec (.mirrorWriteResponse i x.status) s = .next (u.partnerLost 3)) ∧
      (x.act ∈ [.empty, .sync] ∨ (∃ off bs n, x.act = .ckpt off bs n) →
        exec (.mirrorWriteResponse i x.status) s = .next (v.partnerLost 3)) := by
  have he : exec (.mirrorWriteResponse i x.status) s = execMirrorWriteResponse i x.status s := rfl
  have hend : ¬ (!x.ended || x.status % 256 != x.status % 256) = true := by
    have : x.status ≠ 0 := by
      rintro h
      simp [h] at hstatus
    simp [MirrorXfer.ended, this]
  rw [execMirrorWriteResponse, hx] at he
  dsimp only at he
  rw [if_neg hend, ← hu] at he
  rw [if_pos hstatus, ← hv] at he
  rw [he]
  refine ⟨fun h => ?_, fun h => ?_⟩
  · rw [if_pos h, h]
  · obtain h | ⟨off, bs, n, h⟩ := h
    · rcases List.mem_pair.1 h with h | h
      · rw [if_neg (by simp [h]), h]
      · rw [if_neg (by simp [h]), h]
    · rw [if_neg (by simp [h]), h]
      exact congrArg Host.Outcome.next (if_pos hstatus)

end

/-- A job that waited for its entry's write is queued. -/
theorem afterMirror_queues {j : Nat} {y : Job} (hy : s.jobAt j = some y) (hphase : y.phase = .mirroring) :
    (s.afterMirror (.job j)).jobAt j = some { y with phase := .queued } ∧
      j ∈ (s.afterMirror (.job j)).queueOf y.part y.cls ∧
      s.afterMirror (.job j) = { s with jobs := (s.afterMirror (.job j)).jobs, queues := (s.afterMirror (.job j)).queues } := by
  have he : s.afterMirror (.job j) =
      (s.setJob j { y with phase := .queued }).setQueue y.part y.cls (s.queueOf y.part y.cls ++ [j]) := by
    rw [State.afterMirror, hy]
    dsimp only
    rw [if_pos hphase]
  rw [he]
  refine ⟨jobAt_setJob_same .., ?_, rfl⟩
  rw [State.queueOf, State.setQueue, tget_tset_same]
  simp

/-- Where the engine's port is set, its edge die is. -/
theorem bump64_twinEdge (s : State) : (s.bump64 (twnReg Reg.TWN_MIRROR_WRITES) 1).twinEdge = s.twinEdge ∧
    (s.bump64 (twnReg Reg.TWN_MIRROR_WRITES) 1).fld (twnReg Reg.TWN_PARTNER) 19 0 = s.fld (twnReg Reg.TWN_PARTNER) 19 0 := by
  have hrd {o : Nat} (h : o ≠ Reg.TWN_MIRROR_WRITES) (h4 : o ≠ Reg.TWN_MIRROR_WRITES + 4) :
      (s.bump64 (twnReg Reg.TWN_MIRROR_WRITES) 1).rd (twnReg o) = s.rd (twnReg o) :=
    (bump64_onlyRegs ..).2 _ (by
      rw [twnReg_add]
      simpa using ⟨twnReg_ne h, twnReg_ne h4⟩)
  refine ⟨?_, ?_⟩
  · rw [State.twinEdge, State.twinEdge, State.twinPort, State.twinPort, State.fld, State.rdN, hrd (by decide) (by decide),
      ← State.rdN, ← State.fld]
  · rw [State.fld, State.rdN, hrd (by decide) (by decide), ← State.rdN, ← State.fld]

theorem mirrorFence_sends (s : State) (w : MirrorWrite) : ∃ tag set,
    s.mirrorFence w = ({ s with
      out := s.out ++ [.mirrorFence]
      twin := { s.twin with made := s.twin.made + 1, mine := tput s.twin.mine s.nextHome s.twin.made
                            writes := s.twin.writes ++ [⟨s.twin.made, w, 2, [], 1, 0⟩] } } : State).addHome
      (.fence (.edge s.twinEdge) 3 tag (s.fld (twnReg Reg.TWN_PARTNER) 19 0) 2 0 set none) := ⟨_, _, rfl⟩

/-- Settles O58: attach, takeover and detach; sync; heartbeats out and in; a transfer on its way, and its answer. -/
theorem twinCommandsComplete : Obligations.TwinCommandsComplete := by
  unfold Obligations.TwinCommandsComplete
  refine ⟨fun s hr hd => ?_, fun us s h h19 hsync => syncDone_shows us h h19 hsync, fun s h => heartbeatSend_sends h,
    mirrorSend_sends, fun m r u s h hread hr => ?_, fun i x s hx => ?_⟩
  · obtain ⟨hdone, hwrites, hproc, hother⟩ := detach_detaches hr hd
    refine ⟨fun h => ⟨_, twinCmd_next hr hd, attach_syncs h⟩, fun h => ⟨_, twinCmd_next hr hd, attach_refused h⟩, fun m h => ?_,
      fun m h => takeover_serves m hr hd h, hdone, hwrites, hproc, hother⟩
    have he : exec (.takeover m) s = execTakeover m s := rfl
    rw [he, execTakeover, twinCmd_next hr hd, if_pos h]
  · intro w
    exact ⟨fun hnew hst => (heartbeatCheck_shows h hread hr rfl hst).1 hnew,
      fun hold hmiss hst => (heartbeatCheck_shows h hread hr rfl hst).2 hold hmiss⟩
  · intro u v
    refine ⟨fun htodo hleft hstatus => ?_, fun hstatus => mirrorWriteResponse_failed hx hstatus rfl rfl⟩
    obtain ⟨hbeat, hplain, hentry, hrecord, hfence, hvalid⟩ := mirrorWriteResponse_answered hx htodo hleft hstatus (u := u) (v := v) rfl rfl
    refine ⟨hbeat, hplain, fun j y hact hy hphase => ⟨_, hentry _ hact, afterMirror_queues (s := v) hy hphase⟩,
      fun off bs hact => ?_, hfence, hvalid⟩
    obtain ⟨tag, set, hsend⟩ := mirrorFence_sends v (.ckpt off bs 1)
    obtain ⟨hedge, hpartner⟩ := bump64_twinEdge u
    rw [show v.twinEdge = s.twinEdge from hedge,
      show v.fld (twnReg Reg.TWN_PARTNER) 19 0 = s.fld (twnReg Reg.TWN_PARTNER) 19 0 from hpartner] at hsend
    exact ⟨_, hrecord off bs hact, tag, set, hsend⟩

end Sys2Proof.Machine
end

section
set_option Elab.async false
/-! SUPPORT. Services of the security module: how each is taken, what a measurement leaves, and what each does when it is
done (R379 to R395). -/

namespace Sys2Proof.Machine

variable {s t u : State}

/-! ### Bytes in registers -/

theorem natBytes_bytesNat (bs : List Byte) : natBytes bs.length (bytesNat bs) = bs := by
  induction bs with
  | nil => rfl
  | cons b bs ih =>
    have hb : b.toNat < 256 := b.isLt
    rw [List.length_cons, natBytes, bytesNat, show (b.toNat + 256 * bytesNat bs) / 256 = bytesNat bs by omega, ih]
    congr 1
    apply BitVec.eq_of_toNat_eq
    rw [BitVec.toNat_ofNat]
    omega

theorem bytesNat_lt (bs : List Byte) : bytesNat bs < 256 ^ bs.length := by
  have h := bytesNat_natBytes bs.length (bytesNat bs)
  rw [natBytes_bytesNat] at h
  exact h ▸ Nat.mod_lt _ (Nat.pow_pos (by decide))

theorem flatMap_chunks (bs : List Byte) (n : Nat) :
    (List.range n).flatMap (fun w => (bs.drop (4 * w)).take 4) = bs.take (4 * n) := by
  induction n with
  | zero => rfl
  | succ n ih =>
    rw [List.range_succ, List.flatMap_append, ih, List.flatMap_singleton, Nat.mul_succ, List.take_add]

/-- A word written among others at places of their own stands there. -/
theorem rd_each_range (f : Nat → Word) (key n w : Nat) (hw : w < n) (s : State) :
    (s.each (List.range n) fun s w => s.wr (key + 4 * w) (f w)).rd (key + 4 * w) = f w := by
  induction n with
  | zero => omega
  | succ n ih =>
    rw [State.each, List.range_succ, List.foldl_append]
    obtain rfl | h := Nat.lt_succ_iff_lt_or_eq.1 hw |>.symm
    · exact rd_wr_same ..
    · exact (rd_wr_ne _ _ (by omega)).trans (ih h)

theorem rdBytes_wrBytes (s : State) (key n : Nat) {bs : List Byte} (h : bs.length = 4 * n) :
    (s.wrBytes key bs).rdBytes key n = bs := by
  have hword : ∀ w ∈ List.range n, natBytes 4 ((s.wrBytes key bs).rdN (key + 4 * w)) = (bs.drop (4 * w)).take 4 := by
    intro w hw
    have hw := List.mem_range.1 hw
    have hlen : ((bs.drop (4 * w)).take 4).length = 4 := by
      rw [List.length_take, List.length_drop]
      omega
    have hlt := bytesNat_lt ((bs.drop (4 * w)).take 4)
    rw [hlen, show 256 ^ 4 = 2 ^ 32 from rfl] at hlt
    rw [State.rdN, State.wrBytes, rd_each_range _ _ _ _ (by omega), BitVec.toNat_ofNat, Nat.mod_eq_of_lt hlt]
    generalize (bs.drop (4 * w)).take 4 = c at hlen
    exact hlen ▸ natBytes_bytesNat c
  rw [State.rdBytes, List.flatMap_congr hword, flatMap_chunks, ← h, List.take_length]

theorem wrBytes_sec (s : State) (key : Nat) (bs : List Byte) : (s.wrBytes key bs).sec = s.sec := by
  rw [State.wrBytes]
  exact each_keeps s State.sec _ (fun _ _ => wr_sec ..) _

theorem wrBytes_nv (s : State) (key : Nat) (bs : List Byte) : (s.wrBytes key bs).nv = s.nv := by
  rw [State.wrBytes]
  exact each_keeps s State.nv _ (fun _ _ => wr_nv ..) _

/-! ### Measurements (R386, R387) -/

theorem secReg_add (o w : Nat) : secReg o + w = secReg (o + w) := Nat.add_assoc ..

theorem secReg_ne {o o' : Nat} (h : o ≠ o') : secReg o ≠ secReg o' := fun hk => h (Nat.add_left_cancel hk)

theorem secReg_lt {o o' : Nat} (h : o < o') : secReg o < secReg o' := Nat.add_lt_add_left h _

theorem now_nv (s : State) : s.now.2.nv = s.nv := by
  unfold State.now
  dsimp only
  split <;> rfl

theorem now_sec (s : State) : s.now.2.sec = s.sec := by
  unfold State.now
  dsimp only
  split <;> rfl

theorem now_rd (s : State) (k : Nat) : s.now.2.rd k = s.rd k := rd_congr (now_regs s) k

/-- What an extension leaves of the store, the module's volatile state, and its registers below the log. -/
theorem extend_kept (s : State) (r kind : Nat) (d : List Byte) (info : Bool) :
    (s.extend r kind d info).nv = s.nv ∧ (s.extend r kind d info).sec = s.sec ∧
    ∀ o < Reg.SEC_LOG, o ∉ [Reg.SEC_ERR_FLAGS, Reg.SEC_FAULT_COUNT, Reg.SEC_LOG_ENTRIES] →
      (s.extend r kind d info).rd (secReg o) =
        (s.wrBytes (secReg (Reg.SEC_MREG + 0x40 * r)) (sha512 (s.mreg r ++ d))).rd (secReg o) := by
  rw [State.extend]
  obtain ⟨u, hu⟩ : ∃ u, s.wrBytes (secReg (Reg.SEC_MREG + 0x40 * r)) (sha512 (s.mreg r ++ d)) = u := ⟨_, rfl⟩
  have hsec : u.sec = s.sec := hu ▸ wrBytes_sec ..
  have hnv : u.nv = s.nv := hu ▸ wrBytes_nv ..
  rw [hu]
  extract_lets n now u' more e v
  have hv : v.nv = s.nv ∧ v.sec = s.sec ∧ ∀ o < Reg.SEC_LOG,
      o ∉ [Reg.SEC_ERR_FLAGS, Reg.SEC_FAULT_COUNT, Reg.SEC_LOG_ENTRIES] → v.rd (secReg o) = u.rd (secReg o) := by
    refine ⟨(wrBytes_nv ..).trans ((now_nv u).trans hnv), (wrBytes_sec ..).trans ((now_sec u).trans hsec), fun o ho hne => ?_⟩
    simp only [List.mem_cons, List.not_mem_nil, or_false, not_or] at hne
    rw [rd_wr_ne _ _ (secReg_ne hne.2.2), rd_wrBytes_ne _ _ _ (secReg_lt (by omega))]
    exact now_rd u _
  split
  · refine ⟨hnv, hsec, fun o _ hne => ?_⟩
    simp only [List.mem_cons, List.not_mem_nil, or_false, not_or] at hne
    rw [State.secFlag, rd_bump_ne _ _ (secReg_ne hne.2.1), rd_setFlag_ne _ _ (secReg_ne hne.1)]
  · split <;> exact hv

theorem extend_status (s : State) (r kind : Nat) (d : List Byte) (info : Bool) :
    (s.extend r kind d info).rd (secReg Reg.SEC_STATUS) = s.rd (secReg Reg.SEC_STATUS) := by
  rw [(extend_kept s r kind d info).2.2 _ (by decide) (by decide), rd_wrBytes_ne _ _ _ (secReg_lt (by
    simp only [Reg.SEC_STATUS, Reg.SEC_MREG]
    omega))]

theorem mreg_extend (s : State) {r : Nat} (h : r < 16) (kind : Nat) (d : List Byte) (info : Bool) :
    (s.extend r kind d info).mreg r = sha512 (s.mreg r ++ d) := by
  have hrd : ∀ w ∈ List.range 16, natBytes 4 ((s.extend r kind d info).rdN (secReg (Reg.SEC_MREG + 0x40 * r) + 4 * w)) =
      natBytes 4 ((s.wrBytes (secReg (Reg.SEC_MREG + 0x40 * r)) (sha512 (s.mreg r ++ d))).rdN
        (secReg (Reg.SEC_MREG + 0x40 * r) + 4 * w)) := by
    intro w hw
    have hw := List.mem_range.1 hw
    rw [State.rdN, secReg_add, (extend_kept s r kind d info).2.2 _ ?_ ?_, State.rdN] <;>
    · simp only [Reg.SEC_MREG, Reg.SEC_LOG, Reg.SEC_ERR_FLAGS, Reg.SEC_FAULT_COUNT, Reg.SEC_LOG_ENTRIES, List.mem_cons,
        List.not_mem_nil, or_false]
      omega
  rw [State.mreg, State.rdBytes, List.flatMap_congr hrd]
  exact rdBytes_wrBytes _ _ 16 (length_sha512 _)

end Sys2Proof.Machine
end

section
set_option Elab.async false
/-! PROOF. The security module's services, as they are taken and as they are done (O57). -/

namespace Sys2Proof.Machine

variable {s t u : State}

/-- Only the security module's volatile state, registers and free choices change. -/
def SecOnly (s t : State) : Prop := t = { s with sec := t.sec, regs := t.regs, free := t.free }

namespace SecOnly

theorem refl (s : State) : SecOnly s s := rfl

theorem wr (h : SecOnly s t) (k : Nat) (v : Word) : SecOnly s (t.wr k v) := by
  have hw := congrArg (State.wr · k v) h
  exact hw

theorem setSec (h : SecOnly s t) (v : SecState) : SecOnly s (t.setSec v) := by
  have hw := congrArg (State.setSec · v) h
  exact hw

theorem draw (h : SecOnly s t) : SecOnly s { t with free := t.free + 1 } := by
  have hw := congrArg (fun u : State => ({ u with free := u.free + 1 } : State)) h
  exact hw

theorem secFlag (h : SecOnly s t) (i : Nat) : SecOnly s (t.secFlag i) := (h.wr _ _).wr _ _

theorem verifyTimed (h : SecOnly s t) : SecOnly s t.verifyTimed := by
  unfold State.verifyTimed State.wrMax
  split
  exacts [h.draw.wr _ _, h.draw]

end SecOnly

theorem setSec_rd (s : State) (v : SecState) (k : Nat) : (s.setSec v).rd k = s.rd k := rfl

/-! ### Taking a service (R379, R380) -/

/-- The module when a request that needs a role has used up its challenge, and an officer's signatures are verified. -/
def State.challenged (s : State) (c : Credential) : State :=
  let t := s.setSec { s.sec with challenge := none }
  if isOfficer c then t.verifyTimed else t

theorem verifyTimed_sec (s : State) : s.verifyTimed.sec = s.sec := by
  unfold State.verifyTimed State.wrMax
  split <;> rfl

theorem verifyTimed_rd (s : State) {k : Nat} (h : k ≠ secReg Reg.SEC_VERIFY_MAX_US) : s.verifyTimed.rd k = s.rd k := by
  unfold State.verifyTimed State.wrMax
  split
  exacts [rd_wr_ne _ _ h, rfl]

theorem challenged_sec (s : State) (c : Credential) : (s.challenged c).sec = { s.sec with challenge := none } := by
  unfold State.challenged
  dsimp only
  split
  exacts [verifyTimed_sec _, rfl]

theorem challenged_rd (s : State) (c : Credential) {k : Nat} (h : k ≠ secReg Reg.SEC_VERIFY_MAX_US) :
    (s.challenged c).rd k = s.rd k := by
  unfold State.challenged
  dsimp only
  split
  exacts [verifyTimed_rd _ h, rfl]

theorem challenged_secOnly (s : State) (c : Credential) : SecOnly s (s.challenged c) := by
  unfold State.challenged
  dsimp only
  split
  exacts [((SecOnly.refl s).setSec _).verifyTimed, (SecOnly.refl s).setSec _]

theorem authFail_sec (s : State) : s.authFail.sec =
    { s.sec with strikes := s.sec.strikes + 1, lockout := s.sec.lockout || decide (8 ≤ s.sec.strikes + 1) } := rfl

theorem authFail_fails (s : State) : s.authFail.rd (secReg Reg.SEC_AUTH_FAILS) = s.rd (secReg Reg.SEC_AUTH_FAILS) + 1 := by
  rw [show s.authFail.rd (secReg Reg.SEC_AUTH_FAILS) = ((s.secFlag 5).bump (secReg Reg.SEC_AUTH_FAILS) 1).rd _ from rfl,
    rd_bump_one, State.secFlag, rd_bump_ne _ _ (secReg_ne (by decide)), rd_setFlag_ne _ _ (secReg_ne (by decide))]

theorem authFail_secOnly (h : SecOnly s t) : SecOnly s t.authFail := ((h.secFlag 5).wr _ _).setSec _

/-- How a service that needs a role is judged while the module serves requests. -/
theorem judge_of_role {op : Nat} {c : Credential} (hop : isService op = true) (ho : openService op = false)
    (hst : s.secState = 1 ∨ s.secState = 3 ∧ isUser c = false) (hl : s.sec.lockout = false) (req : List Byte) :
    s.judge op req c =
      if !(s.verifies op req c).1 then (0x75, [], (s.challenged c).authFail)
      else
        let t := (s.challenged c).setSec { (s.challenged c).sec with strikes := 0 }
        if (isUser c && !userMay op) || (isOfficer c && !officerMay op) then (0x76, [], t.secFlag 0)
        else (0, (s.verifies op req c).2, t) := by
  have hshut : (s.secState == 2 || s.secState == 4 || s.secState == 0) = false := by
    obtain h | h := hst <;> simp [h]
  have huser : (s.secState == 3 && isUser c) = false := by
    obtain h | h := hst <;> simp [h]
  rw [State.judge]
  simp only [hop, ho, hshut, hl, huser, State.challenged, Bool.not_true, Bool.not_false, Bool.false_and, Bool.or_false,
    Bool.and_true, Bool.false_eq_true, if_false]

/-- A service judged is under way. -/
def State.underWay (s : State) (v : SecService) : State :=
  (s.setSec { s.sec with service := some v }).wrFld (secReg Reg.SEC_STATUS) 15 14 2

theorem underWay_sec (s : State) (v : SecService) : (s.underWay v).sec = { s.sec with service := some v } := rfl

theorem underWay_status (s : State) (v : SecService) : (s.underWay v).fld (secReg Reg.SEC_STATUS) 15 14 = 2 :=
  fld_wrFld_same _ _ _ _ _ (by decide) (by decide)

theorem underWay_secState (s : State) (v : SecService) : (s.underWay v).secState = s.secState :=
  fld_wrFld_other _ _ _ _ _ _ _ (by decide) (by decide) (by decide) (by decide)

theorem underWay_rd (s : State) (v : SecService) {k : Nat} (h : k ≠ secReg Reg.SEC_STATUS) : (s.underWay v).rd k = s.rd k :=
  rd_wrFld_ne _ _ _ _ h

theorem underWay_secOnly (h : SecOnly s t) (v : SecService) : SecOnly s (t.underWay v) := (h.setSec _).wr _ _

theorem takeService_idle {op : Nat} (hv : s.sec.service = none) (h1 : op ≠ 1) (c : Credential) :
    s.takeService op c = (s.judge op (s.request op) c).2.2.underWay
      (.mk op (s.request op) (s.judge op (s.request op) c).1 (isOfficer c) (s.judge op (s.request op) c).2.1) := by
  rw [State.takeService, hv]
  simp only [h1, false_and, Option.isSome_none, Bool.false_eq_true, if_false]
  rfl

theorem takeService_busy {op : Nat} (hv : s.sec.service ≠ none) (c : Credential) : s.takeService op c = s.turnedAway op :=
  if_pos (Option.isSome_iff_ne_none.2 hv)

/-- What the judgement of a service that needs a role leaves. -/
theorem taken_of_role {op : Nat} {c : Credential} (hop : isService op = true) (ho : openService op = false) (h1 : op ≠ 1)
    (hv : s.sec.service = none) (hst : s.secState = 1 ∨ s.secState = 3 ∧ isUser c = false) (hl : s.sec.lockout = false) :
    (s.takeService op c).sec.challenge = none ∧ (s.takeService op c).fld (secReg Reg.SEC_STATUS) 15 14 = 2 ∧
    SecOnly s (s.takeService op c) ∧
    (∀ vs, s.verifies op (s.request op) c = (true, vs) → (isUser c = true → userMay op = true) →
      (isOfficer c = true → officerMay op = true) → (s.takeService op c).sec.strikes = 0 ∧
      RegsKept s (s.takeService op c) [secReg Reg.SEC_STATUS, secReg Reg.SEC_VERIFY_MAX_US] ∧
      (s.takeService op c).sec.service = some (.mk op (s.request op) 0 (isOfficer c) vs)) ∧
    ((s.verifies op (s.request op) c).1 = false → (s.takeService op c).sec.strikes = s.sec.strikes + 1 ∧
      (s.takeService op c).rd (secReg Reg.SEC_AUTH_FAILS) = s.rd (secReg Reg.SEC_AUTH_FAILS) + 1 ∧
      ∃ w, (s.takeService op c).sec.service = some w ∧ w.status = 0x75) := by
  have hj := judge_of_role hop ho hst hl (s.request op)
  have hsec := challenged_sec s c
  have honly := challenged_secOnly s c
  rw [takeService_idle hv h1]
  refine ⟨?_, underWay_status _ _, ?_, fun vs hvs hu hof => ?_, fun hvs => ?_⟩
  · rw [underWay_sec, hj]
    dsimp only
    split
    · rw [authFail_sec, hsec]
    · split <;>
      · show (s.challenged c).sec.challenge = none
        rw [hsec]
  · rw [hj]
    dsimp only
    refine underWay_secOnly ?_ _
    split
    · exact authFail_secOnly honly
    · split
      exacts [(honly.setSec _).secFlag 0, honly.setSec _]
  · have hrole : ((isUser c && !userMay op) || (isOfficer c && !officerMay op)) = false := by
      cases hx : isUser c <;> cases hy : isOfficer c <;> simp_all
    rw [hvs] at hj
    simp only [hrole, Bool.not_true, Bool.false_eq_true, if_false] at hj
    rw [hj]
    refine ⟨rfl, fun k hk => ?_, rfl⟩
    rw [List.mem_pair, not_or] at hk
    rw [underWay_rd _ _ hk.1]
    exact challenged_rd s c hk.2
  · rw [hvs] at hj
    rw [hj]
    refine ⟨?_, ?_, _, rfl, rfl⟩
    · rw [underWay_sec]
      show (s.challenged c).authFail.sec.strikes = _
      rw [authFail_sec, hsec]
    · rw [underWay_rd _ _ (secReg_ne (by decide))]
      exact (authFail_fails _).trans (congrArg (· + 1) (challenged_rd s c (secReg_ne (by decide))))

/-- What taking a service without a role leaves: it is under way. -/
theorem judge_of_open {op : Nat} (hop : isService op = true) (ho : openService op = true)
    (hst : s.secState = 1 ∨ s.secState = 3) (req : List Byte) (c : Credential) : s.judge op req c = (0, [], s) := by
  have hshut : (s.secState == 2 || s.secState == 4 || s.secState == 0) = false := by
    obtain h | h := hst <;> simp [h]
  rw [State.judge]
  simp only [hop, ho, hshut, Bool.not_true, Bool.false_or, Bool.and_false, Bool.false_eq_true, if_false, if_true]

/-- The services that need a role, each with the instruction that writes its code. -/
theorem service_of_role {x : Nat × (Credential → Instr)} (hx : x ∈ [(0x10, Instr.attest), (0x11, Instr.extend),
    (0x12, Instr.setTime), (0x20, Instr.installOck), (0x21, Instr.installUak), (0x22, Instr.installSignerKeys),
    (0x23, Instr.transferOwnership), (0x24, Instr.revokeVendorSlot), (0x25, Instr.installFirmware),
    (0x26, Instr.advanceCounter), (0x30, Instr.zeroise), (0x31, Instr.scrap)]) :
    isService x.1 = true ∧ openService x.1 = false ∧ x.1 ≠ 1 ∧ ∀ c s, exec (x.2 c) s = s.service x.1 c := by
  fin_cases hx <;> exact ⟨rfl, rfl, by decide, fun _ _ => rfl⟩

theorem service_next {op : Nat} {c : Credential} (hr : s.fnReach 0 = true) (hd : (s.fnAt 0).d3hot = false) :
    s.service op c = .next (s.takeService op c) := bar0Do_next hr hd

theorem turnedAway_of_role {op : Nat} (hop : isService op = true) (ho : openService op = false) : s.turnedAway op =
    ((s.setSec { s.sec with challenge := none }).secFlag 0).wr (secReg Reg.SEC_RESULT) 0x76000000 := by
  rw [State.turnedAway, hop, ho]
  rfl

theorem turnedAway_of_open {op : Nat} (ho : openService op = true) :
    s.turnedAway op = (s.secFlag 0).wr (secReg Reg.SEC_RESULT) 0x76000000 := by
  rw [State.turnedAway, ho, Bool.not_true, Bool.and_false]
  rfl

/-- A challenge is taken as it is asked for. -/
theorem takeService_challenge (hv : s.sec.service = none) (hst : s.secState = 1 ∨ s.secState = 3) :
    (s.takeService 2 .none).sec.service = some (.mk 2 [] 0 false []) ∧
    RegsKept s (s.takeService 2 .none) [secReg Reg.SEC_STATUS] := by
  rw [takeService_idle hv (by decide), judge_of_open rfl rfl hst, show s.request 2 = [] from rfl]
  exact ⟨rfl, fun k hk => underWay_rd _ _ (List.mem_singleton.not.1 hk)⟩

/-- A self-test is taken at once: the module leaves its state for that of self-test. -/
theorem takeService_selfTest (hv : s.sec.service = none) (hst : s.secState = 1 ∨ s.secState = 3) :
    (s.takeService 1 .none).sec.service = some (.mk 1 [] 0 false []) ∧ (s.takeService 1 .none).secState = 0 ∧
    (s.takeService 1 .none).sec.back = s.secState ∧ RegsKept s (s.takeService 1 .none) [secReg Reg.SEC_STATUS] := by
  have he : s.takeService 1 .none = ((s.underWay (.mk 1 [] 0 false [])).setSec
      { (s.underWay (.mk 1 [] 0 false [])).sec with back := (s.underWay (.mk 1 [] 0 false [])).secState }).setSecState 0 := by
    rw [State.takeService, hv]
    simp only [judge_of_open (op := 1) rfl rfl hst, show s.request 1 = [] from rfl, Option.isSome_none, Bool.false_eq_true,
      if_false, and_self, if_true]
    rfl
  rw [he]
  refine ⟨rfl, fld_wrFld_same _ _ _ _ _ (by decide) (by decide), underWay_secState _ _, fun k hk => ?_⟩
  have hk := List.mem_singleton.not.1 hk
  rw [State.setSecState, rd_wrFld_ne _ _ _ _ hk, setSec_rd]
  exact underWay_rd s (.mk 1 [] 0 false []) hk

end Sys2Proof.Machine
end

section
set_option Elab.async false
/-! PROOF. The security module's services, as they are done (O57). -/

namespace Sys2Proof.Machine

variable {s t u : State}

/-! ### No effect takes another service -/

/-- No service is under way. -/
structure Unserved (s : State) : Prop where
  service : s.sec.service = none

namespace Unserved

theorem of_sec (h : Unserved s) (ht : t.sec = s.sec) : Unserved t := ⟨(congrArg SecState.service ht).trans h.service⟩

theorem frame {regs cqs sqs twin cfgs loads clkSel clkHeld clkSeen clkEdges clocks userIo flops lines contending ioRegs formed nv free}
    (h : Unserved s) : Unserved { s with
      regs, cqs, sqs, twin, cfgs, loads, clkSel, clkHeld, clkSeen, clkEdges, clocks, userIo, flops, lines, contending, ioRegs
      formed, nv, free } := ⟨h.service⟩

theorem wr {k v} (h : Unserved s) : Unserved (s.wr k v) := h.frame

theorem wrFld {k hi lo v} (h : Unserved s) : Unserved (s.wrFld k hi lo v) := h.wr

theorem setFlag {k i} (h : Unserved s) : Unserved (s.setFlag k i) := h.wr

theorem setBits {k m} (h : Unserved s) : Unserved (s.setBits k m) := h.wr

theorem bump {k n} (h : Unserved s) : Unserved (s.bump k n) := h.wr

theorem wr64 {k v} (h : Unserved s) : Unserved (s.wr64 k v) := h.wr.wr

theorem setCfg {d v} (h : Unserved s) : Unserved (s.setCfg d v) := h.frame

theorem setSec {v : SecState} (hv : v.service = none) : Unserved (s.setSec v) := ⟨hv⟩

theorem ite {c : Prop} [Decidable c] (ht : Unserved t) (hu : Unserved u) : Unserved (if c then t else u) := by
  split <;> assumption

theorem ite_snd {α : Type} {c : Prop} [Decidable c] {x y : α × State} (ht : Unserved x.2) (hu : Unserved y.2) :
    Unserved (if c then x else y).2 := by
  split <;> assumption

theorem ite_snd_snd {α β : Type} {c : Prop} [Decidable c] {x y : α × β × State} (ht : Unserved x.2.2) (hu : Unserved y.2.2) :
    Unserved (if c then x else y).2.2 := by
  split <;> assumption

theorem each {α : Type} {f : State → α → State} {xs : List α} (h : Unserved s) (hf : ∀ {s x}, Unserved s → Unserved (f s x)) :
    Unserved (s.each xs f) := each_induction Unserved (fun _ _ => hf) xs h

theorem setStore {v} (h : Unserved s) : Unserved (s.setStore v) := h.frame

theorem secFlag {i} (h : Unserved s) : Unserved (s.secFlag i) := h.setFlag.bump

theorem setSecState {v} (h : Unserved s) : Unserved (s.setSecState v) := h.wrFld

theorem wrBytes {key bs} (h : Unserved s) : Unserved (s.wrBytes key bs) := h.each .wr

theorem now (h : Unserved s) : Unserved s.now.2 := h.of_sec (now_sec s)

theorem extend {r kind d info} (h : Unserved s) : Unserved (s.extend r kind d info) := h.of_sec (extend_kept ..).2.1

theorem extendM7 {req} (h : Unserved s) : Unserved (s.extendM7 req) := h.extend

theorem entropy (h : Unserved s) : Unserved s.entropy.2 := h.frame

theorem draw (h : Unserved s) : Unserved s.draw.2 := by
  have hr : ∀ {r : Drbg × State}, Unserved r.2 → Unserved (r.2.setSec { r.2.sec with drbg := some r.1.draw.2 }) :=
    fun h => setSec h.service
  unfold State.draw
  refine hr ?_
  split
  exacts [h.entropy, .ite_snd h.entropy h]

theorem refuseService (h : Unserved s) : Unserved s.refuseService.2.2 := h.secFlag

/-! #### A load in progress that zeroising fails -/

theorem setCq {f r v} (h : Unserved s) : Unserved (s.setCq f r v) := h.frame

theorem queueCpl {e r} (h : Unserved s) : Unserved (s.queueCpl e r) := .ite h h.frame.setCq

theorem completeAway {e r} (h : Unserved s) : Unserved (s.completeAway e r) := h.queueCpl.frame.each .queueCpl

theorem setSq {f r v} (h : Unserved s) : Unserved (s.setSq f r v) := h.frame

theorem complete {e r} (h : Unserved s) : Unserved (s.complete e r) := by
  unfold State.complete
  refine .ite h (.ite h.completeAway ?_)
  dsimp only
  split
  exacts [.ite h.queueCpl.setSq.queueCpl h.queueCpl.setSq, h.queueCpl.setSq]

theorem settleLogic {d} (h : Unserved s) : Unserved (s.settleLogic d) :=
  h.of_sec (settleLogic_keeps State.sec (fun _ _ _ => rfl) (fun _ _ _ => rfl) (fun _ _ => rfl) s d)

theorem around {d f} (h : Unserved s) (hf : ∀ {s}, Unserved s → Unserved (f s)) : Unserved (s.around d f) :=
  (hf h.settleLogic).settleLogic

theorem setBank {d level} (h : Unserved s) : Unserved (s.setBank d level) :=
  h.each fun h => .ite h.wrFld.wrFld.setFlag h.wrFld.wrFld

theorem holdFlops {d tiles} (h : Unserved s) : Unserved (s.holdFlops d tiles) := h.frame

theorem clearClocks {d} (h : Unserved s) : Unserved (s.clearClocks d) := h.frame

theorem stopLogic {d} (h : Unserved s) : Unserved (s.stopLogic d) := by
  have hs := (h.wrFld (k := lgaReg d Reg.LGA_STATUS) (hi := 8) (lo := 0) (v := 0)).holdFlops (d := d) (tiles := fun _ => true)
    |>.clearClocks (d := d)
  unfold State.stopLogic
  refine .ite (.setBank ?_) ?_ <;> exact .ite (.wrFld (.ite hs.frame.wrFld hs.frame)) (.ite hs.frame.wrFld hs.frame)

theorem undefineRegions {d} (h : Unserved s) : Unserved (s.undefineRegions d) := h.each .wr

theorem unconfigure {d} (h : Unserved s) : Unserved (s.unconfigure d) := h.settleLogic.wrFld.undefineRegions.stopLogic

theorem recordFault {d flag status seg faddr} (h : Unserved s) : Unserved (s.recordFault d flag status seg faddr) :=
  .ite h.setBits.wr.wr h.setBits

theorem setRegionState {d r v} (h : Unserved s) : Unserved (s.setRegionState d r v) := h.wrFld

theorem setLoad {l v} (h : Unserved s) : Unserved (s.setLoad l v) := h.frame

theorem checkLoad {l} (h : Unserved s) : Unserved (s.checkLoad l) := by
  unfold State.checkLoad
  split
  exacts [h, .ite h.frame.complete h]

theorem loadOff {d} (h : Unserved s) : Unserved (s.loadOff d) := h.wrFld.setCfg

theorem failLoad {d flag status faddr} (h : Unserved s) : Unserved (s.failLoad d flag status faddr) := by
  unfold State.failLoad
  split
  · exact h
  · dsimp only
    split
    exacts [h.recordFault.bump.loadOff, .checkLoad (.setLoad (.ite (h.recordFault.bump.loadOff.around .setRegionState)
      h.recordFault.bump.loadOff.unconfigure))]

/-! #### The effects -/

theorem zeroiseKeys (h : Unserved s) : Unserved s.zeroiseKeys := each (.setSec h.service) .failLoad

theorem burnOwner {hash good} (h : Unserved s) : Unserved (s.burnOwner hash good) := .setStore (.ite h h.frame)

theorem readLong {g A n m} (h : Unserved s) : Unserved (s.readLong g A n m).2 := by
  have hm : MemoryOnly s (s.readLong g A n m).2 := MemoryOnly.readLong rfl
  exact h.of_sec ((congrArg State.sec hm).trans rfl)

theorem verifyTimed (h : Unserved s) : Unserved s.verifyTimed := h.of_sec (verifyTimed_sec s)

theorem verifyImage {type img} (h : Unserved s) : Unserved (s.verifyImage type img).2 :=
  .ite_snd h (.ite_snd (.ite h.secFlag h) (.ite_snd h.verifyTimed (.ite_snd h.verifyTimed (.ite_snd h.verifyTimed.secFlag
    (.ite_snd h.verifyTimed.now.secFlag (.ite_snd h.verifyTimed.now h.verifyTimed.now))))))

theorem readSet {m ts A got} (h : Unserved s) : Unserved (s.readSet m ts A got).2.2 := by
  induction ts generalizing s A got with
  | nil => exact h
  | cons t ts ih =>
    exact .ite_snd_snd h.readLong.secFlag (.ite_snd_snd h.readLong.secFlag (.ite_snd_snd h.readLong.readLong.secFlag
      (.ite_snd_snd h.readLong.readLong.verifyImage (ih h.readLong.readLong.verifyImage))))

theorem freshChallenge (h : Unserved s) : Unserved s.freshChallenge.2.2 := wrBytes (.setSec h.draw.service)

theorem unerased {v} (h : Unserved s) : Unserved (s.setSec { s.sec with erased := v }) := .setSec h.service

theorem installKey {req ock} (h : Unserved s) : Unserved (s.installKey req ock).2.2 := by
  unfold State.installKey
  split
  exacts [h, .extendM7 (.ite (.setSecState (.unerased (.ite h.setStore h.setStore))) (.ite h.setStore h.setStore))]

theorem attest {req} (h : Unserved s) : Unserved (s.attest req).2.2 := .ite_snd_snd h.refuseService h.now.draw

theorem setTime {new officer} (h : Unserved s) : Unserved (s.setTime new officer).2.2 :=
  .ite_snd_snd h.now.setFlag.refuseService h.now.wr64.wrFld.bump.wr64

theorem installSigners {req} (h : Unserved s) : Unserved (s.installSigners req).2.2 := .ite_snd_snd h.setStore.extendM7 h

theorem transferOwner {req good} (h : Unserved s) : Unserved (s.transferOwner req good).2.2 :=
  .ite_snd_snd h.now.refuseService (.ite_snd_snd (.extend (.setStore h.now.burnOwner.zeroiseKeys.setSecState))
    h.now.burnOwner.refuseService)

theorem installSet {req m} (h : Unserved s) : Unserved (s.installSet req m).2.2 :=
  .ite_snd_snd h.readSet h.readSet.setStore.extendM7

theorem serve {v pass m} (h : Unserved s) : Unserved (s.serve v pass m).2.2 := by
  unfold State.serve
  dsimp only
  split
  exacts [.ite_snd_snd h.setSecState h.secFlag.setSecState, h.freshChallenge, h.attest, .ite_snd_snd h.extend
    h.refuseService, h.setTime, h.installKey, h.installKey, h.installSigners, h.transferOwner, .ite_snd_snd
    h.refuseService h.setStore.extendM7, h.installSet, h.setStore, h.zeroiseKeys.setSecState.extendM7,
    h.setStore.zeroiseKeys.setSecState.extendM7]

end Unserved

/-! ### What a service that is done shows (R380) -/

/-- The state that a service which ends so leaves: its result and its response are shown. -/
def State.serviceEnd (r : Served) : State :=
  ((r.2.2.wrFld (secReg Reg.SEC_STATUS) 15 14 1).wr (secReg Reg.SEC_RESULT)
    (BitVec.ofNat 32 (r.1 * 2 ^ 24 + r.2.1.length % 2 ^ 13))).wrBytes (secReg Reg.SEC_RESP) r.2.1

theorem secServiceDone_eq {v : SecService} (h : s.sec.service = some v) (pass : Bool) (m : MemFind) :
    exec (.secServiceDone pass m) s = .next (State.serviceEnd
      (if v.status ≠ 0 then (v.status, [], s.setSec { s.sec with service := none })
       else (s.setSec { s.sec with service := none }).serve v pass m)) := by
  show execSecServiceDone pass m s = _
  rw [execSecServiceDone, h]
  rfl

section
variable (r : Served)

theorem serviceEnd_sec : (State.serviceEnd r).sec = r.2.2.sec := by
  rw [State.serviceEnd, wrBytes_sec, wr_sec, wrFld_eq, wr_sec]

theorem serviceEnd_nv : (State.serviceEnd r).nv = r.2.2.nv := by
  rw [State.serviceEnd, wrBytes_nv, wr_nv, wrFld_eq, wr_nv]

/-- Registers beside the response, but for status and result, are as the effect left them. -/
theorem serviceEnd_rd {k : Nat} (h : k < secReg Reg.SEC_RESP ∨ r.2.1 = []) (h₁ : k ≠ secReg Reg.SEC_STATUS)
    (h₂ : k ≠ secReg Reg.SEC_RESULT) : (State.serviceEnd r).rd k = r.2.2.rd k := by
  have hresp (u : State) : (u.wrBytes (secReg Reg.SEC_RESP) r.2.1).rd k = u.rd k := by
    obtain h | h := h
    · exact rd_wrBytes_ne _ _ _ h
    · rw [h]
      rfl
  rw [State.serviceEnd, hresp, rd_wr_ne _ _ h₂, rd_wrFld_ne _ _ _ _ h₁]

theorem serviceEnd_status_rd :
    (State.serviceEnd r).rd (secReg Reg.SEC_STATUS) = (r.2.2.wrFld (secReg Reg.SEC_STATUS) 15 14 1).rd (secReg Reg.SEC_STATUS) := by
  rw [State.serviceEnd, rd_wrBytes_ne _ _ _ (secReg_lt (by decide)), rd_wr_ne _ _ (secReg_ne (by decide))]

theorem fld_of_rd {k : Nat} (h : t.rd k = s.rd k) (hi lo : Nat) : t.fld k hi lo = s.fld k hi lo := by
  rw [State.fld, State.rdN, h, State.fld, State.rdN]

theorem serviceEnd_status : (State.serviceEnd r).fld (secReg Reg.SEC_STATUS) 15 14 = 1 :=
  (fld_of_rd (serviceEnd_status_rd r) _ _).trans (fld_wrFld_same _ _ _ _ _ (by decide) (by decide))

theorem serviceEnd_secState : (State.serviceEnd r).secState = r.2.2.secState :=
  (fld_of_rd (serviceEnd_status_rd r) _ _).trans
    (fld_wrFld_other _ _ _ _ _ _ _ (by decide) (by decide) (by decide) (by decide))

theorem serviceEnd_result (h : r.2.1 = []) : (State.serviceEnd r).fld (secReg Reg.SEC_RESULT) 31 24 = r.1 % 256 := by
  rw [State.serviceEnd, h, show ∀ (u : State) k, u.wrBytes k [] = u from fun _ _ => rfl, State.fld, State.rdN, rd_wr_same,
    BitVec.toNat_ofNat]
  simp only [bitsOf, List.length_nil]
  omega

theorem serviceEnd_mreg {i : Nat} (h : i < 16) : (State.serviceEnd r).mreg i = r.2.2.mreg i := by
  rw [State.mreg, State.rdBytes, State.mreg, State.rdBytes]
  refine List.flatMap_congr fun w hw => ?_
  have hw := List.mem_range.1 hw
  rw [State.rdN, secReg_add, serviceEnd_rd r (.inl (secReg_lt ?_)) (secReg_ne ?_) (secReg_ne ?_), State.rdN] <;>
  · simp only [Reg.SEC_MREG, Reg.SEC_RESP, Reg.SEC_STATUS, Reg.SEC_RESULT]
    omega

end

/-! ### Effects -/

theorem extendM7_nv (s : State) (req : List Byte) : (s.extendM7 req).nv = s.nv := (extend_kept ..).1

theorem extendM7_secState (s : State) (req : List Byte) : (s.extendM7 req).secState = s.secState :=
  fld_of_rd (extend_status ..) _ _

theorem draw_length (s : State) : s.draw.1.length = 32 := by
  simp [State.draw, Drbg.draw, beBytes, length_natBytes]

theorem setSecState_secState (s : State) {v : Nat} (h : v < 16) : (s.setSecState v).secState = v :=
  (fld_wrFld_same _ _ _ _ _ (by decide) (by decide)).trans (Nat.mod_eq_of_lt h)

/-- With no load in progress zeroising erases keys alone. -/
theorem zeroiseKeys_eq (h : ∀ d < 16, (s.cfgAt d).load = none) : s.zeroiseKeys =
    (s.setStore { s.secStore with ock := none, uak := none }).setSec
      { s.sec with erased := true, drbg := none, challenge := none } := by
  refine List.foldlRecOn (motive := (· = (s.setStore { s.secStore with ock := none, uak := none }).setSec
      { s.sec with erased := true, drbg := none, challenge := none })) _ _ rfl fun t ht d hd => ?_
  have hcfg : (t.cfgAt d).load = none := (ht ▸ rfl : t.cfgAt d = s.cfgAt d) ▸ h d (List.mem_range.1 hd)
  rw [State.failLoad, hcfg, ht]

theorem installKey_nv (s : State) (req : List Byte) (ock : Bool) : (s.installKey req ock).2.2.nv =
    match kwUnwrap kekEntry req with
    | some k => { s.nv with sec := if ock then { s.nv.sec with ock := some k } else { s.nv.sec with uak := some k } }
    | none => s.nv := by
  unfold State.installKey
  split
  · next h => simp only [h]
  · next k h =>
    simp only [h]
    refine (extendM7_nv ..).trans ?_
    cases ock
    · rfl
    · simp only [if_true, Bool.true_and]
      split <;> rfl

theorem slotKeys_tput (x : SecStore) (slot : Nat) (k : List Byte) :
    ({ x with signers := tput x.signers slot k } : SecStore).slotKeys slot = some k := by
  rw [SecStore.slotKeys, find?_tput_same]

theorem counter_raise (x : SecStore) {i v : Nat} (hi : i < 256) (hv : v < 2 ^ 32) :
    (x.raise i v).counter i = max (x.counter i) v := by
  rw [SecStore.raise, Nat.mod_eq_of_lt hi, Nat.mod_eq_of_lt hv, SecStore.counter, tget_tset_same]

theorem reqNat_lt (req : List Byte) (o n : Nat) : reqNat req o n < 256 ^ n := by
  refine (bytesNat_lt _).trans_le (Nat.pow_le_pow_right (by decide) ?_)
  rw [List.length_take]
  omega

theorem setTime_officer (s : State) {new : Nat} (h : new < 2 ^ 64) :
    (s.setTime new true).2.2.rd64 (rtcReg Reg.RTC_TIME) = new ∧ (s.setTime new true).2.2.timeValid = true := by
  have hne {o o' : Nat} (h : o ≠ o') : rtcReg o ≠ rtcReg o' := fun hk => h (Nat.add_left_cancel hk)
  have he : (s.setTime new true).2.2 = ((((s.now.2.wr64 (rtcReg Reg.RTC_TIME) new).wrFld (rtcReg Reg.RTC_STATUS) 31 31 1).bump
      (rtcReg Reg.RTC_SET_COUNT) 1).wr64 (rtcReg Reg.RTC_LAST_SET) new) := rfl
  have hback {k : Nat} (h₁ : k ≠ rtcReg Reg.RTC_LAST_SET) (h₂ : k ≠ rtcReg Reg.RTC_LAST_SET + 4)
      (h₃ : k ≠ rtcReg Reg.RTC_SET_COUNT) : (s.setTime new true).2.2.rd k =
        ((s.now.2.wr64 (rtcReg Reg.RTC_TIME) new).wrFld (rtcReg Reg.RTC_STATUS) 31 31 1).rd k := by
    rw [he, wr64_eq, rd_wr_ne _ _ h₂, rd_wr_ne _ _ h₁, rd_bump_ne _ _ h₃]
  have htime {k : Nat} (h : k ≠ rtcReg Reg.RTC_STATUS) : ((s.now.2.wr64 (rtcReg Reg.RTC_TIME) new).wrFld
      (rtcReg Reg.RTC_STATUS) 31 31 1).rd k = (s.now.2.wr64 (rtcReg Reg.RTC_TIME) new).rd k := rd_wrFld_ne _ _ _ _ h
  constructor
  · refine Eq.trans ?_ (rd64_wr64 s.now.2 (rtcReg Reg.RTC_TIME) h)
    rw [State.rd64, State.rdN, State.rdN, hback, hback, htime, htime, State.rd64,
      State.rdN, State.rdN] <;> decide
  · rw [State.timeValid, State.rbit, State.rdN, hback (by decide) (by decide) (by decide)]
    exact rbit_wrFld _ _ _ _ _ _ (by decide) (by decide)

/-- What each service does, by its code. -/
theorem secServiceDone_served {v : SecService} (hv : s.sec.service = some v) (hs : v.status = 0) (pass : Bool) (m : MemFind) :
    exec (.secServiceDone pass m) s =
      .next (State.serviceEnd ((s.setSec { s.sec with service := none }).serve v pass m)) := by
  rw [secServiceDone_eq hv, if_neg (not_not.2 hs)]

/-- Nothing but the security store, its volatile state and registers of the module that services show. -/
theorem setSec_mreg (s : State) (x : SecState) (i : Nat) : (s.setSec x).mreg i = s.mreg i := rfl

theorem slotLive_revoked (x : SecStore) {n : Nat} (h : n < 4) :
    ({ x with vendorRevoked := if x.vendorRevoked.contains n then x.vendorRevoked else x.vendorRevoked ++ [n] } :
      SecStore).slotLive n = false := by
  rw [SecStore.slotLive, if_pos h]
  split
  · next hn =>
    rw [hn]
    rfl
  · simp

section
variable {v : SecService} (pass : Bool) (m : MemFind)

theorem serve_selfTest (h : v.op = 0x01) : s.serve v pass m =
    if pass then (0, [], s.setSecState s.sec.back) else (0x76, [], (s.secFlag 7).setSecState 2) := by
  simp only [State.serve, h]

theorem serve_challenge (h : v.op = 0x02) : s.serve v pass m = s.freshChallenge := by
  simp only [State.serve, h]

theorem serve_extend (h : v.op = 0x11) (h₁ : 8 ≤ reqNat v.req 0 1) (h₂ : reqNat v.req 0 1 < 16) :
    s.serve v pass m = (0, [], s.extend (reqNat v.req 0 1) 8 (v.req.drop 1) false) := by
  rw [State.serve, h]
  exact if_pos ⟨h₁, h₂⟩

theorem serve_setTime (h : v.op = 0x12) : s.serve v pass m = s.setTime (reqNat v.req 0 8) v.officer := by
  simp only [State.serve, h]

theorem serve_installOck (h : v.op = 0x20) : s.serve v pass m = s.installKey v.req true := by
  simp only [State.serve, h]

theorem serve_installUak (h : v.op = 0x21) : s.serve v pass m = s.installKey v.req false := by
  simp only [State.serve, h]

theorem serve_installSigners (h : v.op = 0x22) : s.serve v pass m = s.installSigners v.req := by
  simp only [State.serve, h]

theorem serve_revoke (h : v.op = 0x24) (hn : reqNat v.req 0 1 < 4) : s.serve v pass m =
    (0, [], (s.setStore { s.secStore with vendorRevoked := if s.secStore.vendorRevoked.contains (reqNat v.req 0 1)
      then s.secStore.vendorRevoked else s.secStore.vendorRevoked ++ [reqNat v.req 0 1] }).extendM7 v.req) := by
  rw [State.serve, h]
  exact if_neg (by omega)

theorem serve_counter (h : v.op = 0x26) :
    s.serve v pass m = (0, [], s.setStore (s.secStore.raise (reqNat v.req 0 1) (reqNat v.req 1 4))) := by
  simp only [State.serve, h]

theorem serve_zeroise (h : v.op = 0x30) : s.serve v pass m = (0, [], (s.zeroiseKeys.setSecState 3).extendM7 v.req) := by
  simp only [State.serve, h]

theorem serve_scrap (h : v.op = 0x31) : s.serve v pass m =
    (0, [], ((s.setStore { s.secStore with killed := true }).zeroiseKeys.setSecState 4).extendM7 v.req) := by
  simp only [State.serve, h]

end

/-- Keys come off with no load in progress: what is left of the store. -/
theorem zeroised_nv (h : ∀ d < 16, (s.cfgAt d).load = none) (st : Nat) (req : List Byte) :
    ((s.zeroiseKeys.setSecState st).extendM7 req).nv.sec = { s.nv.sec with ock := none, uak := none } := by
  rw [extendM7_nv, zeroiseKeys_eq h]
  rfl

theorem zeroised_secState (s : State) {st : Nat} (h : st < 16) (req : List Byte) :
    ((s.zeroiseKeys.setSecState st).extendM7 req).secState = st :=
  (extendM7_secState ..).trans (setSecState_secState _ h)

/-- A service that ends: it is no longer under way, and its result is shown; its effects stand. -/
theorem secServiceDone_completes (v : SecService) (pass : Bool) (m : MemFind) (s : State) (hv : s.sec.service = some v) :
    Completes (exec (.secServiceDone pass m) s) fun t =>
      t.sec.service = none ∧ t.fld (secReg Reg.SEC_STATUS) 15 14 = 1 ∧
      (v.status ≠ 0 → t.fld (secReg Reg.SEC_RESULT) 31 24 = v.status % 256 ∧ t.nv = s.nv) ∧
      (v.status = 0 → t = State.serviceEnd ((s.setSec { s.sec with service := none }).serve v pass m)) := by
  have h₀ : Unserved (s.setSec { s.sec with service := none }) := ⟨rfl⟩
  refine ⟨_, secServiceDone_eq hv pass m, ?_, serviceEnd_status _, fun hs => ?_, fun hs => ?_⟩
  · rw [serviceEnd_sec]
    split
    exacts [rfl, h₀.serve.service]
  · rw [if_pos hs]
    exact ⟨serviceEnd_result _ rfl, serviceEnd_nv _⟩
  · rw [if_neg (not_not.2 hs)]

end Sys2Proof.Machine
end

section
set_option Elab.async false
/-! PROOF. The services of the security module (O57). -/

namespace Sys2Proof.Machine

variable {s t u : State}

/-- What the services that were let through leave when they are done, each by its code (R380). -/
theorem served_effects {v : SecService} (pass : Bool) (m : MemFind) (s : State) {r : Served}
    (hr : (s.setSec { s.sec with service := none }).serve v pass m = r) :
    (v.op = 0x01 → (pass = true → s.sec.back < 16 → (State.serviceEnd r).secState = s.sec.back) ∧
      (pass = false → (State.serviceEnd r).secState = 2)) ∧
    (v.op = 0x02 → ∃ c, (State.serviceEnd r).sec.challenge = some c ∧ c.length = 32) ∧
    (v.op = 0x11 → 8 ≤ reqNat v.req 0 1 → reqNat v.req 0 1 < 16 →
      (State.serviceEnd r).mreg (reqNat v.req 0 1) = sha512 (s.mreg (reqNat v.req 0 1) ++ v.req.drop 1)) ∧
    (v.op = 0x12 → v.officer = true → (State.serviceEnd r).rd64 (rtcReg Reg.RTC_TIME) = reqNat v.req 0 8 ∧
      (State.serviceEnd r).timeValid = true) := by
  obtain ⟨u, hu⟩ : ∃ u, s.setSec { s.sec with service := none } = u := ⟨_, rfl⟩
  have hback : u.sec.back = s.sec.back := hu ▸ rfl
  have hmreg (i : Nat) : u.mreg i = s.mreg i := hu ▸ rfl
  rw [hu] at hr
  refine ⟨fun h => ?_, fun h => ?_, fun h h₁ h₂ => ?_, fun h ho => ?_⟩
  · rw [serve_selfTest pass m h, hback] at hr
    rw [serviceEnd_secState]
    refine ⟨fun hp hb => ?_, fun hp => ?_⟩
    · rw [← hr, hp]
      exact setSecState_secState _ hb
    · rw [← hr, hp]
      exact setSecState_secState _ (by decide)
  · rw [serve_challenge pass m h] at hr
    rw [serviceEnd_sec, ← hr]
    exact ⟨u.draw.1, congrArg SecState.challenge (wrBytes_sec ..), draw_length u⟩
  · rw [serve_extend pass m h h₁ h₂] at hr
    rw [serviceEnd_mreg r h₂, ← hr]
    exact (mreg_extend u h₂ ..).trans (congrArg (fun b => sha512 (b ++ _)) (hmreg _))
  · rw [serve_setTime pass m h, ho] at hr
    have ht := setTime_officer u (reqNat_lt v.req 0 8)
    rw [hr] at ht
    have hrd {k : Nat} (h₁ : k ≠ secReg Reg.SEC_STATUS) (h₂ : k ≠ secReg Reg.SEC_RESULT) :=
      serviceEnd_rd r (.inr (hr ▸ rfl)) h₁ h₂
    constructor
    · rw [← ht.1, State.rd64, State.rdN, State.rdN, hrd, hrd, State.rd64, State.rdN, State.rdN] <;> decide
    · rw [← ht.2, State.timeValid, State.rbit, State.rdN, hrd (by decide) (by decide), State.timeValid, State.rbit,
        State.rdN]

/-- What they leave of the security store. -/
theorem served_store {v : SecService} (pass : Bool) (m : MemFind) (s : State) {r : Served}
    (hr : (s.setSec { s.sec with service := none }).serve v pass m = r) :
    (v.op = 0x20 → (State.serviceEnd r).nv.sec = match kwUnwrap kekEntry v.req with
      | some k => { s.nv.sec with ock := some k } | none => s.nv.sec) ∧
    (v.op = 0x21 → (State.serviceEnd r).nv.sec = match kwUnwrap kekEntry v.req with
      | some k => { s.nv.sec with uak := some k } | none => s.nv.sec) ∧
    (v.op = 0x22 → (s.nv.sec.slotHash (reqNat v.req 0 1) = some (sha512 (v.req.drop 1)) →
        (State.serviceEnd r).nv.sec.slotKeys (reqNat v.req 0 1) = some (v.req.drop 1)) ∧
      (s.nv.sec.slotHash (reqNat v.req 0 1) ≠ some (sha512 (v.req.drop 1)) → (State.serviceEnd r).nv = s.nv ∧
        (State.serviceEnd r).fld (secReg Reg.SEC_RESULT) 31 24 = 0x73)) ∧
    (v.op = 0x24 → reqNat v.req 0 1 < 4 → (State.serviceEnd r).nv.sec.slotLive (reqNat v.req 0 1) = false) ∧
    (v.op = 0x26 → (State.serviceEnd r).nv.sec.counter (reqNat v.req 0 1) =
      Max.max (s.nv.sec.counter (reqNat v.req 0 1)) (reqNat v.req 1 4)) := by
  obtain ⟨u, hu⟩ : ∃ u, s.setSec { s.sec with service := none } = u := ⟨_, rfl⟩
  have hnv : u.nv = s.nv := hu ▸ rfl
  rw [hu] at hr
  rw [serviceEnd_nv, ← hnv]
  refine ⟨fun h => ?_, fun h => ?_, fun h => ?_, fun h hn => ?_, fun h => ?_⟩
  · rw [← hr, serve_installOck pass m h, installKey_nv]
    cases kwUnwrap kekEntry v.req <;> rfl
  · rw [← hr, serve_installUak pass m h, installKey_nv]
    cases kwUnwrap kekEntry v.req <;> rfl
  · rw [serve_installSigners pass m h] at hr
    constructor
    · intro hh
      rw [← hr, State.installSigners]
      simp only [State.secStore, hh, if_true, extendM7_nv]
      exact slotKeys_tput ..
    · intro hh
      have he : r = (0x73, [], u) := hr ▸ if_neg hh
      rw [he]
      exact ⟨rfl, serviceEnd_result _ rfl⟩
  · rw [← hr, serve_revoke pass m h hn, extendM7_nv]
    exact slotLive_revoked _ hn
  · rw [← hr, serve_counter pass m h]
    exact counter_raise _ (reqNat_lt _ 0 1) (reqNat_lt _ 1 4)

/-- Zeroise and scrap, with no load in progress (R382). -/
theorem served_erasure {v : SecService} (pass : Bool) (m : MemFind) (s : State) {r : Served}
    (hr : (s.setSec { s.sec with service := none }).serve v pass m = r) (hl : ∀ d < 16, (s.cfgAt d).load = none) :
    (v.op = 0x30 → (State.serviceEnd r).nv.sec = { s.nv.sec with ock := none, uak := none } ∧ (State.serviceEnd r).secState = 3) ∧
    (v.op = 0x31 → (State.serviceEnd r).nv.sec = { s.nv.sec with killed := true, ock := none, uak := none } ∧
      (State.serviceEnd r).secState = 4) := by
  rw [serviceEnd_nv, serviceEnd_secState, ← hr]
  refine ⟨fun h => ?_, fun h => ?_⟩
  · rw [serve_zeroise pass m h]
    exact ⟨zeroised_nv (s := s.setSec { s.sec with service := none }) hl 3 v.req, zeroised_secState _ (by decide) _⟩
  · rw [serve_scrap pass m h]
    refine ⟨(zeroised_nv (s := (s.setSec { s.sec with service := none }).setStore _) hl 4 v.req).trans rfl,
      zeroised_secState _ (by decide) _⟩

/-- A failing entropy source leaves the module in its error state (R381, R394). -/
theorem entropyTestFail_completes (s : State) (hb : s.board.held = false) (h4 : s.secState ≠ 4) :
    Completes (exec .entropyTestFail s) fun t => t.secState = 2 ∧ t.rbit (secReg Reg.SEC_ERR_FLAGS) 6 = true ∧
      t = { s with regs := t.regs, sec := t.sec,
                   plan := if s.bootPhase = 0 then { s.plan with stopped := true } else s.plan } := by
  obtain ⟨u, hu⟩ : ∃ u, (s.secFlag 6).setSecState 2 = u := ⟨_, rfl⟩
  have hstate : u.secState = 2 := hu ▸ setSecState_secState _ (by decide)
  have hflag : u.rbit (secReg Reg.SEC_ERR_FLAGS) 6 = true := by
    rw [← hu, State.setSecState, rbit_wrFld_ne _ _ _ _ _ (secReg_ne (by decide)), State.secFlag,
      rbit_bump_ne _ _ _ (secReg_ne (by decide)), rbit_setFlag_same _ _ _ (by decide)]
  have honly : OnlyRegs s u [secReg Reg.SEC_ERR_FLAGS, secReg Reg.SEC_FAULT_COUNT, secReg Reg.SEC_STATUS] :=
    hu ▸ ((OnlyRegs.wr s _ _ (by simp)).trans (.wr _ _ _ (by simp))).trans (.wr _ _ _ (by simp))
  have hphase : u.bootPhase = s.bootPhase := by
    have hne : ∀ o ∈ [Reg.SEC_STATUS, Reg.SEC_FAULT_COUNT, Reg.SEC_ERR_FLAGS], regKey .tst Reg.TST_BOOT_PHASE ≠ secReg o := by
      decide
    refine fld_of_rd ?_ 2 0
    rw [← hu, State.setSecState, rd_wrFld_ne _ _ _ _ (hne _ (by simp)), State.secFlag, rd_bump_ne _ _ (hne _ (by simp)),
      rd_setFlag_ne _ _ (hne _ (by simp))]
  have he : exec .entropyTestFail s = execEntropyTestFail s := rfl
  rw [execEntropyTestFail, hu, if_neg (by simp [hb, h4])] at he
  dsimp only at he
  rw [hphase] at he
  refine ⟨_, he, ?_, ?_, ?_⟩
  · split <;> exact hstate
  · split <;> exact hflag
  · rw [honly.1]
    split <;> rfl

/-- Settles O57: a service is judged once, over the twelve that need a role, and each effect is followed to what is shown. -/
theorem securityServicesComplete : Obligations.SecurityServicesComplete := by
  unfold Obligations.SecurityServicesComplete
  refine ⟨fun s hr hd hv => ⟨fun x hx c hst hl => ?_, fun hst => ⟨?_, ?_⟩⟩, fun s hr hd hv => ⟨fun c hc => ?_, fun k c hc => ?_⟩,
    fun v pass m s hv => ?_, fun s hl => if_pos hl, entropyTestFail_completes⟩
  · obtain ⟨hop, ho, h1, he⟩ := service_of_role hx
    exact ⟨_, (he c s).trans (service_next hr hd), taken_of_role hop ho h1 hv hst hl⟩
  · exact ⟨_, service_next hr hd, takeService_challenge hv hst⟩
  · exact ⟨_, service_next hr hd, takeService_selfTest hv hst⟩
  · have h (op : Nat) (ho : openService op = true) : s.service op .none =
        .next ((s.secFlag 0).wr (secReg Reg.SEC_RESULT) 0x76000000) := by
      rw [service_next hr hd, takeService_busy hv, turnedAway_of_open ho]
    fin_cases hc
    exacts [h 1 rfl, h 2 rfl]
  · have h (op : Nat) (hop : isService op = true) (ho : openService op = false) : s.service op k =
        .next (((s.setSec { s.sec with challenge := none }).secFlag 0).wr (secReg Reg.SEC_RESULT) 0x76000000) := by
      rw [service_next hr hd, takeService_busy hv, turnedAway_of_role hop ho]
    fin_cases hc
    exacts [h 0x10 rfl rfl, h 0x11 rfl rfl, h 0x12 rfl rfl, h 0x20 rfl rfl, h 0x21 rfl rfl, h 0x22 rfl rfl, h 0x23 rfl rfl,
      h 0x24 rfl rfl, h 0x25 rfl rfl, h 0x26 rfl rfl, h 0x30 rfl rfl, h 0x31 rfl rfl]
  · obtain ⟨t, he, hserv, hshown, hrefused, hserved⟩ := secServiceDone_completes v pass m s hv
    refine ⟨t, he, hserv, hshown, hrefused, fun hs => ?_⟩
    rw [hserved hs]
    obtain ⟨r, hr⟩ : ∃ r, (s.setSec { s.sec with service := none }).serve v pass m = r := ⟨_, rfl⟩
    rw [hr]
    obtain ⟨h01, h02, h11, h12⟩ := served_effects pass m s hr
    obtain ⟨h20, h21, h22, h24, h26⟩ := served_store pass m s hr
    exact ⟨h01, h02, h11, h12, h20, h21, h22, h24, h26, fun h hl => (served_erasure pass m s hr hl).1 h,
      fun h hl => (served_erasure pass m s hr hl).2 h⟩

end Sys2Proof.Machine
end

section
set_option Elab.async false
/-! SUPPORT. The host interface: keys of its registers, what an event and a ring's state change leave, fetches of doorbell
records, and entries taken from rings (R322 to R334). -/

namespace Sys2Proof.Machine

variable {s t u : State}

/-! ### Keys -/

theorem pageReg_ne (f : Nat) {o o' : Nat} (h : o ≠ o') : pageReg f o ≠ pageReg f o' := fun hk => h (Nat.add_left_cancel hk)

theorem ringKey_ne_pageReg (f : Nat) (cq : Bool) (r o f' : Nat) {o' : Nat} (h : o' < 0x1000) :
    ringKey f cq r o ≠ pageReg f' o' := by
  simp only [ringKey, pageReg, regKey, blockBase]
  omega

theorem ringKey_ne_hifReg (f : Nat) (cq : Bool) (r o : Nat) {o' : Nat} (h : o' < 0x1000) : ringKey f cq r o ≠ hifReg o' := by
  simp only [ringKey, hifReg, regKey, blockBase]
  omega

theorem pageReg_ne_hifReg (f o : Nat) {o' : Nat} (h : o' < 0x1000) : pageReg f o ≠ hifReg o' := by
  simp only [pageReg, hifReg, regKey, blockBase]
  omega

theorem hifReg_ne {o o' : Nat} (h : o ≠ o') : hifReg o ≠ hifReg o' := fun hk => h (Nat.add_left_cancel hk)

theorem ringKey_off_ne (f : Nat) (cq : Bool) (r : Nat) {o o' : Nat} (h : o ≠ o') : ringKey f cq r o ≠ ringKey f cq r o' :=
  fun hk => h (Nat.add_left_cancel hk)

/-- Rings of one kind have registers of their own. -/
theorem ringKey_ring_ne (f : Nat) (cq : Bool) {r r' o o' : Nat} (hr : r < 1024) (hr' : r' < 1024) (h : r ≠ r') (ho : o < 0x20)
    (ho' : o' < 0x20) : ringKey f cq r o ≠ ringKey f cq r' o' := by
  simp only [ringKey]
  omega

theorem ringKey_ne_twnReg (f : Nat) (cq : Bool) (r o : Nat) {o' : Nat} (h : o' < 0x10000) : ringKey f cq r o ≠ twnReg o' := by
  simp only [ringKey, twnReg, regKey, blockBase]
  omega

/-! ### Functions, rings and their tables -/

theorem sqAt_setSq (s : State) {f r f' r' : Nat} (v : SubRing) :
    (s.setSq f r v).sqAt f' r' = if 1024 * f' + r' = 1024 * f + r then v else s.sqAt f' r' := tget_tput ..

theorem cqAt_setCq (s : State) {f r f' r' : Nat} (v : CplRing) :
    (s.setCq f r v).cqAt f' r' = if 1024 * f' + r' = 1024 * f + r then v else s.cqAt f' r' := tget_tput ..

theorem setFn_setFn (s : State) (f : Nat) (v w : FnState) : (s.setFn f v).setFn f w = s.setFn f w :=
  congrArg (fun x => { s with fns := x }) (tput_tput_same ..)

theorem linkOf_congr (h : t.rd (hifReg Reg.HIF_STATUS) = s.rd (hifReg Reg.HIF_STATUS)) (f : Nat) : t.linkOf f = s.linkOf f := by
  rw [State.linkOf, State.rbit, State.rdN, h, State.linkOf, State.rbit, State.rdN]

theorem mem_sqsOf_lt {f r : Nat} (h : r ∈ s.sqsOf f) : r < 1024 := by
  obtain ⟨e, -, rfl⟩ := List.mem_map.1 h
  exact Nat.mod_lt _ (by decide)

theorem mem_cqsOf_lt {f r : Nat} (h : r ∈ s.cqsOf f) : r < 1024 := by
  obtain ⟨e, -, rfl⟩ := List.mem_map.1 h
  exact Nat.mod_lt _ (by decide)

theorem rbit_of_rd {k : Nat} (h : t.rd k = s.rd k) (i : Nat) : t.rbit k i = s.rbit k i := by
  rw [State.rbit, State.rdN, h, State.rbit, State.rdN]

theorem rd64_of_rd {k : Nat} (h : t.rd k = s.rd k) (h' : t.rd (k + 4) = s.rd (k + 4)) : t.rd64 k = s.rd64 k := by
  rw [State.rd64, State.rdN, State.rdN, h, h', State.rd64, State.rdN, State.rdN]

theorem ringEnabled_of_rd {f r : Nat} {cq : Bool} (h : t.rd (ringKey f cq r 0x10) = s.rd (ringKey f cq r 0x10)) :
    t.ringEnabled f cq r = s.ringEnabled f cq r := congrArg (· == 1) (fld_of_rd h 31 30)

/-! ### Events (R334) -/

/-- An event changes two registers of the function's page, or the completions that wait for it. -/
theorem event_keeps {β : Type} (P : State → β) (hregs : ∀ (s : State) regs, P { s with regs } = P s)
    (hcqs : ∀ (s : State) formed cqs, P { s with formed, cqs } = P s) (s : State) (f code arg status : Nat) :
    P (s.event f code arg status) = P s := by
  rcases event_cases s f code arg status with h | ⟨formed, cqs, h⟩ <;> rw [h]
  exacts [(hregs _ _).trans (hregs _ _), hcqs ..]

theorem event_rd (s : State) (f code arg status : Nat) {k : Nat} (h₁ : k ≠ pageReg f Reg.HIF_FN_EVENTS_LOST)
    (h₂ : k ≠ pageReg f Reg.HIF_FN_ERR_FLAGS) : (s.event f code arg status).rd k = s.rd k := by
  rcases event_cases s f code arg status with h | ⟨formed, cqs, h⟩ <;> rw [h]
  · rw [rd_setFlag_ne _ _ h₂, rd_bump_ne _ _ h₁]
  · rfl

/-- An event sets a flag of the function and clears none. -/
theorem event_flags (s : State) (f code arg status : Nat) {i : Nat}
    (h : s.rbit (pageReg f Reg.HIF_FN_ERR_FLAGS) i = true) :
    (s.event f code arg status).rbit (pageReg f Reg.HIF_FN_ERR_FLAGS) i = true := by
  rcases event_cases s f code arg status with he | ⟨formed, cqs, he⟩ <;> rw [he]
  · by_cases hi : 3 = i
    · subst hi
      exact rbit_setFlag_same _ _ _ (by decide)
    · rw [rbit_setFlag_other _ _ _ _ hi, rbit_bump_ne _ _ _ (pageReg_ne f (by decide)), h]
  · exact h

/-- An event only adds to the completions that wait. -/
theorem event_waiting (s : State) (f code arg status f' q : Nat) :
    (s.cqAt f' q).waiting <+: ((s.event f code arg status).cqAt f' q).waiting := by
  rw [State.event]
  dsimp only
  split
  · exact List.prefix_rfl
  · rw [cqAt_setCq]
    split
    · next h =>
      have hc : s.cqAt f' q = s.cqAt f (s.fld (pageReg f Reg.HIF_EVENT_CQ) 9 0) := congrArg (tget _ _) h
      rw [hc]
      exact List.prefix_append ..
    · exact List.prefix_rfl

/-! ### The state of a ring (R339) -/

theorem ringsCount_onlyRegs (s : State) (cq up : Bool) : OnlyRegs s (s.ringsCount cq up) [hifReg Reg.HIF_RINGS] :=
  .wr _ _ _ (by simp [hifReg])

theorem setRing_onlyRegs (s : State) (f : Nat) (cq : Bool) (r st cause : Nat) :
    OnlyRegs s (s.setRing f cq r st cause) [ringKey f cq r 0x10, hifReg Reg.HIF_RINGS] := by
  have hw : OnlyRegs s (s.wr (ringKey f cq r 0x10) (BitVec.ofNat 32 (st * 2 ^ 30 + cause * 2 ^ 26)))
      [ringKey f cq r 0x10, hifReg Reg.HIF_RINGS] := .wr _ _ _ (by simp)
  have hc (up : Bool) := hw.trans ((ringsCount_onlyRegs _ cq up).mono (by simp))
  unfold State.setRing
  exact .ite (hc _) (.ite (hc _) hw)

theorem setRing_rd_same (s : State) (f : Nat) (cq : Bool) (r st cause : Nat) :
    (s.setRing f cq r st cause).rd (ringKey f cq r 0x10) = BitVec.ofNat 32 (st * 2 ^ 30 + cause * 2 ^ 26) := by
  have hc (u : State) (up : Bool) : (u.ringsCount cq up).rd (ringKey f cq r 0x10) = u.rd (ringKey f cq r 0x10) :=
    rd_wrFld_ne _ _ _ _ (ringKey_ne_hifReg f cq r _ (by decide))
  unfold State.setRing
  dsimp only
  split
  · rw [hc, rd_wr_same]
  · split
    · rw [hc, rd_wr_same]
    · exact rd_wr_same ..

theorem setRing_rd_ne (s : State) (f : Nat) (cq : Bool) (r st cause : Nat) {k : Nat} (h : k ≠ ringKey f cq r 0x10)
    (h' : k ≠ hifReg Reg.HIF_RINGS) : (s.setRing f cq r st cause).rd k = s.rd k :=
  (setRing_onlyRegs ..).2 k (by simp [h, h'])

/-- What a ring's state register shows. -/
theorem ringState_shows {k st cause : Nat} (h : s.rd k = BitVec.ofNat 32 (st * 2 ^ 30 + cause * 2 ^ 26)) (hst : st < 4)
    (hc : cause < 16) : s.fld k 31 30 = st ∧ s.fld k 29 26 = cause := by
  simp only [State.fld, State.rdN, h, BitVec.toNat_ofNat, bitsOf]
  omega

/-- A ring in error: its state and its cause are shown, and the function's flag is set. -/
theorem ringError_shows (s : State) (f r : Nat) {cause : Nat} (h : cause < 16) :
    (s.ringError f r cause).rd (ringKey f false r 0x10) = BitVec.ofNat 32 (2 * 2 ^ 30 + cause * 2 ^ 26) := by
  rw [State.ringError, event_rd _ _ _ _ _ (ringKey_ne_pageReg _ _ _ _ _ (by decide)) (ringKey_ne_pageReg _ _ _ _ _ (by decide)),
    rd_setFlag_ne _ _ (ringKey_ne_pageReg _ _ _ _ _ (by decide)), setRing_rd_same]

/-- What an error of a ring leaves. -/
theorem ringError_keeps {β : Type} (P : State → β) (hregs : ∀ (s : State) regs, P { s with regs } = P s)
    (hcqs : ∀ (s : State) formed cqs, P { s with formed, cqs } = P s) (s : State) (f r cause : Nat) :
    P (s.ringError f r cause) = P s := by
  rw [State.ringError, event_keeps P hregs hcqs, setFlag_eq]
  refine (hregs _ _).trans ?_
  rw [(setRing_onlyRegs s f false r 2 cause).1]
  exact hregs ..

theorem ringError_rd (s : State) (f r cause : Nat) {k : Nat} (h : k ≠ ringKey f false r 0x10) (h' : k ≠ hifReg Reg.HIF_RINGS)
    (h₁ : k ≠ pageReg f Reg.HIF_FN_EVENTS_LOST) (h₂ : k ≠ pageReg f Reg.HIF_FN_ERR_FLAGS) :
    (s.ringError f r cause).rd k = s.rd k := by
  rw [State.ringError, event_rd _ _ _ _ _ h₁ h₂, rd_setFlag_ne _ _ h₂, setRing_rd_ne _ _ _ _ _ _ h h']

/-! ### Pages -/

theorem pageDo_next {f : Nat} {via0 : Bool} {off : Nat} {go ur : State → State} (hr : s.fnReach (if via0 then 0 else f) = true)
    (hd : (s.fnAt (if via0 then 0 else f)).d3hot = false) : s.pageDo f via0 off go ur = .next (go s) := by
  rw [State.pageDo]
  simp only [hr, hd, Bool.not_true, Bool.false_eq_true, if_false]

/-! ### Kicks (R323) -/

/-- The state after the groups below n of a kick `w` have been looked at. -/
structure KickedTo (s : State) (f : Nat) (w : Word) (n : Nat) (t : State) : Prop where
  frame : t = { s with regs := t.regs, fns := t.fns, out := t.out }
  rd : ∀ k, k ≠ pageReg f Reg.HIF_KICK → t.rd k = s.rd k
  kick : ∀ i < 32, t.rbit (pageReg f Reg.HIF_KICK) i = (decide (n ≤ i) && bitOf w.toNat i)
  fetching : (t.fnAt f).fetching = (List.range n).filter (fun b => bitOf w.toNat b)
  out : t.out = s.out ++ ((List.range n).filter (fun b => bitOf w.toNat b)).map (fun b =>
    Output.hostRead f (s.rd64 (pageReg f Reg.HIF_DBREC_BASE) + 256 * b) 256)
  table : ∀ v, tput t.fns f v = tput s.fns f v
  reads : t.readsOut (s.linkOf f) ≤ s.readsOut (s.linkOf f) + n

theorem foldl_add_tput {g : FnState → Nat} {p : Nat → Bool} (x : Table FnState) (f : Nat) (v : FnState) (a : Nat) :
    ((tput x f v).filter (fun e => p e.1)).foldl (fun n e => n + g e.2) a ≤
      (x.filter (fun e => p e.1)).foldl (fun n e => n + g e.2) a + g v := by
  have hadd (y : Table FnState) (a b : Nat) : y.foldl (fun n e => n + g e.2) (a + b) = y.foldl (fun n e => n + g e.2) a + b := by
    induction y generalizing a with
    | nil => rfl
    | cons e y ih => rw [List.foldl_cons, List.foldl_cons, Nat.add_right_comm, ih]
  induction x generalizing a with
  | nil => by_cases h : p f <;> simp [tput, h]
  | cons e x ih =>
    obtain ⟨k, y⟩ := e
    rw [tput]
    split
    · by_cases h : p f <;> by_cases h' : p k <;> simp [h, h', hadd]
    · split
      · next hk =>
        subst hk
        by_cases h : p f <;> simp [h, hadd]
      · by_cases h' : p k <;> simp [h', ih]

theorem readsOut_setFn_le (s : State) (f : Nat) (v : FnState) (l : Nat) :
    (s.setFn f v).readsOut l ≤ s.readsOut l + v.fetching.length :=
  foldl_add_tput (g := fun x => x.fetching.length) (p := fun k => s.linkOf k == l) s.fns f v 0

theorem readsOut_congr (hfns : t.fns = s.fns) (hl : ∀ k, t.linkOf k = s.linkOf k) (l : Nat) : t.readsOut l = s.readsOut l := by
  rw [State.readsOut, hfns, State.readsOut]
  simp only [hl]

/-- What looking at one group does. -/
def State.fetchGroup (f : Nat) (s : State) (b : Nat) : State :=
  let x := s.fnAt f
  if s.rbit (pageReg f Reg.HIF_KICK) b && !x.fetching.contains b && decide (s.readsOut (s.linkOf f) < 256) then
    ((s.clrBits (pageReg f Reg.HIF_KICK) (2 ^ b)).setFn f { x with fetching := x.fetching ++ [b] }).emit
      (.hostRead f (s.recordAddr f false (32 * b)) 256)
  else s

theorem fetchGroups_eq {f : Nat} (h : (s.fnAt f).d3hot = false) :
    s.fetchGroups f = (List.range 32).foldl (State.fetchGroup f) s := by
  rw [State.fetchGroups, h]
  rfl

/-- A function with no kick bit set starts no fetch. -/
theorem fetchGroups_of_no_kick {f : Nat} (h : s.rd (pageReg f Reg.HIF_KICK) = 0) : s.fetchGroups f = s := by
  have hb (b : Nat) : s.rbit (pageReg f Reg.HIF_KICK) b = false := by
    rw [State.rbit, State.rdN, h, bitOf_eq]
    exact Nat.zero_testBit b
  unfold State.fetchGroups
  split
  · rfl
  · refine List.foldlRecOn (motive := (· = s)) _ _ rfl fun t ht b _ => ?_
    subst ht
    simp only [hb, Bool.false_and, Bool.false_eq_true, if_false]

theorem rbit_clrBits_other (s : State) (k : Nat) {i j : Nat} (h : i ≠ j) : (s.clrBits k (2 ^ i)).rbit k j = s.rbit k j := by
  rw [rbit_eq, rbit_eq, State.rdN, clrBits_eq, rd_wr_same, BitVec.testBit_toNat, BitVec.getLsbD_and, BitVec.getLsbD_not,
    BitVec.getLsbD_ofNat, Nat.testBit_two_pow_of_ne h, State.rdN, BitVec.testBit_toNat]
  by_cases hj : j < 32
  · simp [hj]
  · simp [BitVec.getLsbD_of_ge _ _ (not_lt.1 hj)]

theorem KickedTo.step {f n : Nat} {w : Word} (h : KickedTo s f w n t) (hn : n < 32)
    (hreads : s.readsOut (s.linkOf f) + 32 ≤ 256) : KickedTo s f w (n + 1) (State.fetchGroup f t n) := by
  have hlink : t.linkOf f = s.linkOf f := linkOf_congr (h.rd _ (pageReg_ne_hifReg _ _ (by decide)).symm) f
  have hk : t.rbit (pageReg f Reg.HIF_KICK) n = bitOf w.toNat n := by simp [h.kick n hn]
  have hnot : (t.fnAt f).fetching.contains n = false := by simp [h.fetching]
  have hfree : decide (t.readsOut (t.linkOf f) < 256) = true := by
    have := h.reads
    rw [hlink]
    exact decide_eq_true (by omega)
  unfold State.fetchGroup
  dsimp only
  rw [hk, hnot, hfree, Bool.not_false, Bool.and_true, Bool.and_true]
  by_cases hb : bitOf w.toNat n = true
  · rw [if_pos hb]
    have hbase : t.recordAddr f false (32 * n) = s.rd64 (pageReg f Reg.HIF_DBREC_BASE) + 256 * n := by
      rw [State.recordAddr, rd64_of_rd (h.rd (pageReg f Reg.HIF_DBREC_BASE) (pageReg_ne f (by decide)))
        (h.rd (pageReg f (Reg.HIF_DBREC_BASE + 4)) (pageReg_ne f (by decide)))]
      simp
      omega
    obtain ⟨v, hv⟩ : ∃ v, ({ t.fnAt f with fetching := (t.fnAt f).fetching ++ [n] } : FnState) = v := ⟨_, rfl⟩
    have hlen : v.fetching.length ≤ n + 1 := by
      rw [← hv, h.fetching, List.length_append]
      have := (List.range n).length_filter_le (fun b => bitOf w.toNat b)
      rw [List.length_range] at this
      simpa using this
    rw [hv, hbase]
    have hfns : (((t.clrBits (pageReg f Reg.HIF_KICK) (2 ^ n)).setFn f v).emit
        (.hostRead f (s.rd64 (pageReg f Reg.HIF_DBREC_BASE) + 256 * n) 256)).fns = tput s.fns f v := h.table v
    have hrd {k : Nat} (hk : k ≠ pageReg f Reg.HIF_KICK) : (((t.clrBits (pageReg f Reg.HIF_KICK) (2 ^ n)).setFn f v).emit
        (.hostRead f (s.rd64 (pageReg f Reg.HIF_DBREC_BASE) + 256 * n) 256)).rd k = s.rd k :=
      (rd_wr_ne t _ hk).trans (h.rd k hk)
    refine ⟨?_, fun k => hrd, fun i hi => ?_, ?_, ?_, fun v' => ?_, ?_⟩
    · exact (congrArg (fun x : State => ((x.clrBits (pageReg f Reg.HIF_KICK) (2 ^ n)).setFn f v).emit
        (.hostRead f (s.rd64 (pageReg f Reg.HIF_DBREC_BASE) + 256 * n) 256)) h.frame).trans rfl
    · show (t.clrBits (pageReg f Reg.HIF_KICK) (2 ^ n)).rbit _ i = _
      by_cases hin : n = i
      · subst hin
        rw [rbit_clrBits_same]
        simp
      · rw [rbit_clrBits_other _ _ hin, h.kick i hi]
        congr 1
        exact decide_eq_decide.2 (by omega)
    · rw [List.range_succ, List.filter_append, ← h.fetching, List.filter_cons_of_pos hb, List.filter_nil]
      exact congrArg FnState.fetching ((fnAt_setFn_same ..).trans hv.symm)
    · rw [List.range_succ, List.filter_append, List.filter_cons_of_pos hb, List.filter_nil, List.map_append, ← List.append_assoc,
        ← h.out]
      rfl
    · rw [hfns, tput_tput_same]
    · rw [readsOut_congr (s := s.setFn f v) hfns fun k => linkOf_congr (hrd (pageReg_ne_hifReg _ _ (by decide)).symm) k]
      exact (readsOut_setFn_le ..).trans (by omega)
  · rw [if_neg hb]
    have hfilter : (List.range (n + 1)).filter (fun b => bitOf w.toNat b) = (List.range n).filter (fun b => bitOf w.toNat b) := by
      rw [List.range_succ, List.filter_append, List.filter_cons_of_neg hb, List.filter_nil, List.append_nil]
    refine ⟨h.frame, h.rd, fun i hi => ?_, hfilter ▸ h.fetching, hfilter ▸ h.out, h.table, h.reads.trans (by omega)⟩
    rw [h.kick i hi]
    by_cases hin : n = i
    · subst hin
      simp [hb]
    · congr 1
      exact decide_eq_decide.2 (by omega)

/-- A kick of a function with no fetch outstanding and room for its reads starts a fetch of each group kicked. -/
theorem kick_kickedTo {f : Nat} {w : Word} (hd : (s.fnAt f).d3hot = false) (hf : (s.fnAt f).fetching = [])
    (hk : s.rd (pageReg f Reg.HIF_KICK) = 0) (hreads : s.readsOut (s.linkOf f) + 32 ≤ 256) : KickedTo s f w 32 (s.kick f w) := by
  have hstart : KickedTo s f w 0 (s.setBits (pageReg f Reg.HIF_KICK) w.toNat) := by
    have hrd {k : Nat} (h : k ≠ pageReg f Reg.HIF_KICK) : (s.setBits (pageReg f Reg.HIF_KICK) w.toNat).rd k = s.rd k :=
      rd_wr_ne s _ h
    refine ⟨rfl, fun k => hrd, fun i hi => ?_, hf, by simp [setBits_eq], fun v => rfl, ?_⟩
    · rw [rbit_eq, State.rdN, setBits_eq, rd_wr_same, hk, bitOf_eq]
      simp
    · exact (readsOut_congr (s := s) (t := s.setBits (pageReg f Reg.HIF_KICK) w.toNat) rfl
        (fun k => linkOf_congr (hrd (pageReg_ne_hifReg _ _ (by decide)).symm) k) _).le
  have hall (n : Nat) (hn : n ≤ 32) : KickedTo s f w n ((List.range n).foldl (State.fetchGroup f)
      (s.setBits (pageReg f Reg.HIF_KICK) w.toNat)) := by
    induction n with
    | zero => exact hstart
    | succ n ih =>
      rw [List.range_succ, List.foldl_append]
      exact (ih (by omega)).step hn hreads
  rw [State.kick, fetchGroups_eq (s := s.setBits (pageReg f Reg.HIF_KICK) w.toNat) hd]
  exact hall 32 (le_refl _)

theorem KickedTo.kick_zero {f : Nat} {w : Word} (h : KickedTo s f w 32 t) : t.rd (pageReg f Reg.HIF_KICK) = 0 := by
  apply BitVec.eq_of_getLsbD_eq
  intro i hi
  have hk := h.kick i hi
  rw [rbit_eq, State.rdN, BitVec.testBit_toNat, decide_eq_false (by omega), Bool.false_and] at hk
  exact hk.trans BitVec.getLsbD_zero.symm

end Sys2Proof.Machine
end

section
set_option Elab.async false
/-! PROOF. Kicks, rings and doorbell records (O56). -/

namespace Sys2Proof.Machine

variable {s t u : State}

/-! ### Versions (R331) -/

theorem offer_fresh {f : Nat} (h : s.anyRing f = false) (w : Word) :
    (s.offer f w).rdN (pageReg f Reg.HIF_VERSION_SEL) = (if bitOf w.toNat 3 then 3 else if bitOf w.toNat 2 then 2 else 0) ∧
    (s.offer f w).rd (pageReg f Reg.HIF_VERSION_OFFER) = w ∧
    OnlyRegs s (s.offer f w) [pageReg f Reg.HIF_VERSION_OFFER, pageReg f Reg.HIF_VERSION_SEL] := by
  have he : s.offer f w = (s.wr (pageReg f Reg.HIF_VERSION_OFFER) w).wr (pageReg f Reg.HIF_VERSION_SEL)
      (if bitOf w.toNat 3 then 3 else if bitOf w.toNat 2 then 2 else 0) := if_neg (by rw [h]; exact Bool.false_ne_true)
  rw [he]
  refine ⟨?_, ?_, (OnlyRegs.wr s _ _ (by simp)).trans (.wr _ _ _ (by simp))⟩
  · rw [rdN_wr_same]
    split
    · rfl
    · split <;> rfl
  · rw [rd_wr_ne _ _ (pageReg_ne f (by decide)), rd_wr_same]

theorem offer_refused {f : Nat} (h : s.anyRing f = true) (w : Word) :
    (s.offer f w).rbit (pageReg f Reg.HIF_FN_ERR_FLAGS) 1 = true ∧
    OnlyRegs s (s.offer f w) [pageReg f Reg.HIF_FN_ERR_FLAGS] := by
  have he : s.offer f w = s.setFlag (pageReg f Reg.HIF_FN_ERR_FLAGS) 1 := if_pos h
  rw [he]
  exact ⟨rbit_setFlag_same _ _ _ (by decide), .wr _ _ _ (by simp)⟩

/-! ### Enabling and disabling a ring (R324) -/

/-- A ring that is enabled with the count n of its doorbell record. -/
def State.ringUp (s : State) (f : Nat) (cq : Bool) (r n : Nat) : State :=
  let s := s.emit (.hostRead f (s.recordAddr f cq r) 8)
  let s := (s.setRing f cq r 1 0).wr (ringKey f cq r 0x14) (BitVec.ofNat 32 n)
  if cq then s.setCq f r { s.cqAt f r with head := n, since := 0 } else s.setSq f r { s.sqAt f r with tail := n, written := 0 }

theorem enableRing_up {f : Nat} (h₁ : s.fld (ringKey f (s.selCq f) (s.selRing f) 0x10) 31 30 ≠ 1)
    (h₂ : s.fld (ringKey f (s.selCq f) (s.selRing f) 0x10) 31 30 ≠ 2) (hl : s.fnLive f = true) (hd : (s.fnAt f).d3hot = false)
    (hc : s.enableCause f (s.selCq f) (s.selRing f) = 0) (rec_ : Option (List Byte)) : s.enableRing f rec_ =
      if !s.selCq f && rec_.isNone then
        (s.ringUp f (s.selCq f) (s.selRing f) (recordCount (rec_.getD []) 0)).ringError f (s.selRing f) 12
      else s.ringUp f (s.selCq f) (s.selRing f) (recordCount (rec_.getD []) 0) := by
  rw [State.enableRing]
  simp only [h₁, h₂, hl, hd, hc, Bool.not_true, Bool.false_eq_true, or_self, if_false, ne_eq, not_true]
  rfl

theorem enableRing_refused {f : Nat} (h₁ : s.fld (ringKey f (s.selCq f) (s.selRing f) 0x10) 31 30 ≠ 1)
    (h₂ : s.fld (ringKey f (s.selCq f) (s.selRing f) 0x10) 31 30 ≠ 2) (hl : s.fnLive f = true) (hd : (s.fnAt f).d3hot = false)
    (hc : s.enableCause f (s.selCq f) (s.selRing f) ≠ 0) (rec_ : Option (List Byte)) : s.enableRing f rec_ =
      (s.setRing f (s.selCq f) (s.selRing f) 3 (s.enableCause f (s.selCq f) (s.selRing f))).setFlag
        (pageReg f Reg.HIF_FN_ERR_FLAGS) 1 := by
  rw [State.enableRing]
  simp only [h₁, h₂, hl, hd, hc, Bool.not_true, Bool.false_eq_true, or_self, if_false, ne_eq, not_false_eq_true, if_true]

theorem enableRing_not_live {f : Nat} (h : s.fnLive f = false ∨ (s.fnAt f).d3hot = true) (rec_ : Option (List Byte)) :
    s.enableRing f rec_ = s := by
  rw [State.enableRing]
  exact if_pos (by obtain h | h := h <;> simp [h])

theorem enableCause_lt (s : State) (f : Nat) (cq : Bool) (r : Nat) : s.enableCause f cq r < 16 := by
  unfold State.enableCause
  dsimp only
  repeat' split
  all_goals decide

theorem setRing_tables (s : State) (f : Nat) (cq : Bool) (r st cause : Nat) :
    (s.setRing f cq r st cause).sqs = s.sqs ∧ (s.setRing f cq r st cause).cqs = s.cqs ∧
    (s.setRing f cq r st cause).out = s.out := by
  have h := (setRing_onlyRegs s f cq r st cause).1
  exact ⟨(congrArg State.sqs h).trans rfl, (congrArg State.cqs h).trans rfl, (congrArg State.out h).trans rfl⟩

/-- What a ring that is enabled shows, and what its queue holds. -/
theorem ringUp_shows (s : State) (f : Nat) (cq : Bool) (r n : Nat) :
    (s.ringUp f cq r n).ringEnabled f cq r = true ∧
    (s.ringUp f cq r n).out = s.out ++ [.hostRead f (s.recordAddr f cq r) 8] ∧
    ((s.ringUp f cq r n).sqAt f r).taken = (s.sqAt f r).taken ∧ ((s.ringUp f cq r n).sqAt f r).barrier = (s.sqAt f r).barrier ∧
    (s.ringUp f cq r n).rd (ringKey f cq r 0x14) = BitVec.ofNat 32 n ∧
    (if cq then ((s.ringUp f cq r n).cqAt f r).head = n else ((s.ringUp f cq r n).sqAt f r).tail = n) := by
  rw [State.ringUp]
  dsimp only
  obtain ⟨v, hv⟩ : ∃ v, (s.emit (.hostRead f (s.recordAddr f cq r) 8)).setRing f cq r 1 0 = v := ⟨_, rfl⟩
  obtain ⟨hsqs, hcqs, hout⟩ := setRing_tables (s.emit (.hostRead f (s.recordAddr f cq r) 8)) f cq r 1 0
  have hstate := setRing_rd_same (s.emit (.hostRead f (s.recordAddr f cq r) 8)) f cq r 1 0
  rw [hv] at hsqs hcqs hout hstate ⊢
  have hon : (v.wr (ringKey f cq r 0x14) (BitVec.ofNat 32 n)).ringEnabled f cq r = true := by
    refine (ringEnabled_of_rd (s := v) (rd_wr_ne _ _ (ringKey_off_ne f cq r (by decide)))).trans ?_
    exact beq_iff_eq.2 (ringState_shows hstate (by decide) (by decide)).1
  have hsq : (v.wr (ringKey f cq r 0x14) (BitVec.ofNat 32 n)).sqAt f r = s.sqAt f r := by
    rw [State.sqAt, wr_sqs, hsqs]
    rfl
  cases cq with
  | true => exact ⟨hon, hout, congrArg SubRing.taken hsq, congrArg SubRing.barrier hsq, rd_wr_same .., by simp⟩
  | false => exact ⟨hon, hout, by simp [hsq], by simp [hsq], rd_wr_same .., by simp⟩

/-- A ring that is not held is disabled, and with its state only registers change. -/
theorem disableRing_free {f : Nat} (h : s.selCq f = false ∨ s.cqHeld f (s.selRing f) = false) :
    (s.disableRing f).rd (ringKey f (s.selCq f) (s.selRing f) 0x10) = 0 ∧
    s.disableRing f = { s with regs := (s.disableRing f).regs } := by
  have he : s.disableRing f = s.setRing f (s.selCq f) (s.selRing f) 0 0 :=
    if_neg (by obtain h | h := h <;> simp [h])
  rw [he]
  exact ⟨setRing_rd_same .., (setRing_onlyRegs ..).1⟩

theorem disableRing_held {f : Nat} (h : s.selCq f = true) (hh : s.cqHeld f (s.selRing f) = true) :
    (s.disableRing f).fld (ringKey f true (s.selRing f) 0x10) 29 26 = 8 ∧
    (s.disableRing f).ringEnabled f true (s.selRing f) = s.ringEnabled f true (s.selRing f) := by
  have he : s.disableRing f = (s.wrFld (ringKey f true (s.selRing f) 0x10) 29 26 8).setFlag (pageReg f Reg.HIF_FN_ERR_FLAGS) 1 :=
    if_pos (by simp [h, hh])
  have hne := ringKey_ne_pageReg f true (s.selRing f) 0x10 f (o' := Reg.HIF_FN_ERR_FLAGS) (by decide)
  rw [he]
  constructor
  · exact (fld_setFlag_ne _ _ _ _ hne).trans ((fld_wrFld_same _ _ _ _ _ (by decide) (by decide)).trans rfl)
  · refine congrArg (· == 1) ?_
    rw [fld_setFlag_ne _ _ _ _ hne, fld_wrFld_other _ _ _ _ _ _ _ (by decide) (by decide) (by decide) (by decide)]

/-! ### Doorbell records (R323, R328) -/

theorem replayed_onlyRegs (s : State) (n : Nat) :
    OnlyRegs s (s.replayed n) (if n = 0 then [] else [hifReg Reg.HIF_REPLAY_COUNT, hifReg Reg.HIF_ERR_FLAGS]) := by
  unfold State.replayed
  split
  · exact .refl s _
  · exact (OnlyRegs.wr s _ _ (by simp [hifReg])).trans (.wr _ _ _ (by simp [hifReg]))

theorem replayed_count (s : State) (n : Nat) :
    (s.replayed n).rd (hifReg Reg.HIF_REPLAY_COUNT) = s.rd (hifReg Reg.HIF_REPLAY_COUNT) + BitVec.ofNat 32 n := by
  unfold State.replayed
  split
  · next h => simp [h]
  · rw [rd_setFlag_ne _ _ (hifReg_ne (by decide))]
    exact rd_bump_same ..

theorem replayed_rd (s : State) (n : Nat) {k : Nat} (h₁ : k ≠ hifReg Reg.HIF_REPLAY_COUNT) (h₂ : k ≠ hifReg Reg.HIF_ERR_FLAGS) :
    (s.replayed n).rd k = s.rd k := by
  refine (replayed_onlyRegs s n).2 k ?_
  split
  · simp
  · simp [h₁, h₂]

/-- A fetch that ends, with no kick left on its link, leaves the other fetches of its function. -/
theorem fetchEnd_quiet {f g : Nat} (hf : f < 64)
    (hk : ∀ k < 64, s.linkOf k = s.linkOf f → s.rd (pageReg k Reg.HIF_KICK) = 0) :
    s.fetchEnd f g = s.setFn f { s.fnAt f with fetching := (s.fnAt f).fetching.filter (· != g) } := by
  rw [State.fetchEnd]
  obtain ⟨u, hu⟩ : ∃ u, s.setFn f { s.fnAt f with fetching := (s.fnAt f).fetching.filter (· != g) } = u := ⟨_, rfl⟩
  have hrd (k : Nat) : u.rd k = s.rd k := hu ▸ rfl
  have hlink (k : Nat) : u.linkOf k = s.linkOf k := linkOf_congr (hrd _) k
  dsimp only
  rw [hu, fetchGroups_of_no_kick ((hrd _).trans (hk f hf rfl))]
  have hnone : ((List.range 64).filter fun k => u.linkOf k == u.linkOf f && u.rd (pageReg k Reg.HIF_KICK) != 0) = [] := by
    refine List.filter_eq_nil_iff.2 fun k hk' => ?_
    have hz := hk k (List.mem_range.1 hk')
    rw [hlink, hlink, hrd]
    simpa using hz
  rw [hnone]
  rfl

/-- What the records of a group may hold for a ring to take its tail from them. -/
def State.recordFits (s : State) (f r x : Nat) : Prop :=
  (x + 2 ^ 32 - (s.sqAt f r).tail) % 2 ^ 32 < 2 ^ 31 ∧
  (x + 2 ^ 32 - s.rdN (ringKey f false r 0x14)) % 2 ^ 32 ≤ 2 ^ s.ringLog2 f false r

theorem tailRead_fits {f r x : Nat} (he : s.ringEnabled f false r = true) (h : s.recordFits f r x) :
    s.tailRead f r x = s.setSq f r { s.sqAt f r with tail := x } := by
  obtain ⟨h₁, h₂⟩ := h
  rw [State.tailRead]
  dsimp only
  rw [he, if_neg (by simp), if_neg (by omega), if_neg (by omega)]

theorem tailRead_disabled {f r x : Nat} (he : s.ringEnabled f false r = false) : s.tailRead f r x = s := by
  rw [State.tailRead]
  simp [he]

theorem sqs_trans (h : u = { s with sqs := u.sqs }) (h' : t = { u with sqs := t.sqs }) : t = { s with sqs := t.sqs } := by
  have hv := congrArg (fun v : State => ({ v with sqs := t.sqs } : State)) h
  exact h'.trans hv

/-- Reading the records of some rings moves the tails of those enabled, and changes nothing else. -/
theorem tailsRead (f : Nat) (x : Nat → Nat) (rs : List Nat) (s : State) (hlt : ∀ r ∈ rs, r < 1024)
    (h : ∀ r ∈ rs, s.ringEnabled f false r = true → s.recordFits f r (x r)) :
    let t := s.each rs fun s r => s.tailRead f r (x r)
    t = { s with sqs := t.sqs } ∧ (∀ r ∈ rs, s.ringEnabled f false r = true → (t.sqAt f r).tail = x r) ∧
      ∀ r < 1024, r ∉ rs → t.sqAt f r = s.sqAt f r := by
  induction rs generalizing s with
  | nil => exact ⟨rfl, by simp, fun _ _ _ => rfl⟩
  | cons r rs ih =>
    rw [each_cons]
    obtain ⟨u, hu⟩ : ∃ u, s.tailRead f r (x r) = u := ⟨_, rfl⟩
    have hframe : u = { s with sqs := u.sqs } := by
      rw [← hu]
      cases he : s.ringEnabled f false r with
      | true => rw [tailRead_fits he (h r (List.mem_cons_self ..) he)]; rfl
      | false => rw [tailRead_disabled he]
    have hregs : u.regs = s.regs := (congrArg State.regs hframe).trans rfl
    have hon (r' : Nat) : u.ringEnabled f false r' = s.ringEnabled f false r' := ringEnabled_of_rd (rd_congr hregs _)
    have hat (r' : Nat) (hr' : r' < 1024) : u.sqAt f r' =
        if r' = r ∧ s.ringEnabled f false r = true then { s.sqAt f r with tail := x r } else s.sqAt f r' := by
      rw [← hu]
      cases he : s.ringEnabled f false r with
      | true =>
        have := hlt r (List.mem_cons_self ..)
        rw [tailRead_fits he (h r (List.mem_cons_self ..) he), sqAt_setSq]
        by_cases hk : r' = r
        · simp [hk]
        · rw [if_neg (by omega), if_neg (by simp [hk])]
      | false => rw [tailRead_disabled he, if_neg (by simp)]
    have hfits : ∀ r' ∈ rs, u.ringEnabled f false r' = true → u.recordFits f r' (x r') := by
      intro r' hr' he
      rw [hon] at he
      obtain ⟨h₁, h₂⟩ := h r' (List.mem_cons_of_mem _ hr') he
      refine ⟨?_, ?_⟩
      · rw [hat r' (hlt r' (List.mem_cons_of_mem _ hr'))]
        split
        · next hk =>
          rw [hk.1]
          simp
        · exact h₁
      · rwa [rdN_congr u hregs, State.ringLog2, fld_congr u hregs, ← State.ringLog2]
    rw [hu]
    obtain ⟨hframe', htail, hrest⟩ := ih u (fun r' h' => hlt r' (List.mem_cons_of_mem _ h')) hfits
    refine ⟨?_, fun r' hr' he => ?_, fun r' hr' hnot => ?_⟩
    · exact sqs_trans hframe hframe'
    · by_cases hin : r' ∈ rs
      · exact htail r' hin ((hon r').trans he)
      · have hr : r' = r := (List.mem_cons.1 hr').resolve_right hin
        rw [hrest r' (hlt r' hr') hin, hat r' (hlt r' hr'), if_pos ⟨hr, hr ▸ he⟩, hr]
    · rw [List.mem_cons, not_or] at hnot
      rw [hrest r' hr' hnot.2, hat r' hr', if_neg fun hk => hnot.1 hk.1]

/-- Rings put into error one after another all show it. -/
theorem each_ringError_shows (f : Nat) {rs : List Nat} {r : Nat} (hlt : ∀ r ∈ rs, r < 1024) (hr : r ∈ rs) (s : State) :
    (s.each rs fun s r => s.ringError f r 12).rd (ringKey f false r 0x10) = BitVec.ofNat 32 (2 * 2 ^ 30 + 12 * 2 ^ 26) := by
  have hkeep (t : State) (r' : Nat) (h' : r' ∈ rs) (ht : t.rd (ringKey f false r 0x10) = BitVec.ofNat 32 (2 * 2 ^ 30 + 12 * 2 ^ 26)) :
      (t.ringError f r' 12).rd (ringKey f false r 0x10) = BitVec.ofNat 32 (2 * 2 ^ 30 + 12 * 2 ^ 26) := by
    by_cases h : r' = r
    · rw [h]
      exact ringError_shows t f r (by decide)
    · rw [ringError_rd _ _ _ _ (ringKey_ring_ne f false (hlt r hr) (hlt r' h') (Ne.symm h) (by decide) (by decide))
        (ringKey_ne_hifReg _ _ _ _ (by decide)) (ringKey_ne_pageReg _ _ _ _ _ (by decide))
        (ringKey_ne_pageReg _ _ _ _ _ (by decide)), ht]
  induction rs generalizing s with
  | nil => cases hr
  | cons r' rs ih =>
    rw [each_cons]
    have hlt' : ∀ x ∈ rs, x < 1024 := fun x hx => hlt x (List.mem_cons_of_mem _ hx)
    have hkeep' := fun t x (hx : x ∈ rs) => hkeep t x (List.mem_cons_of_mem _ hx)
    by_cases hin : r ∈ rs
    · exact ih hlt' hin _ hkeep'
    · obtain rfl : r = r' := (List.mem_cons.1 hr).resolve_right hin
      exact List.foldlRecOn
        (motive := fun t => State.rd t (ringKey f false r 0x10) = BitVec.ofNat 32 (2 * 2 ^ 30 + 12 * 2 ^ 26)) rs _
        (ringError_shows s f r (by decide)) fun t ht x hx => hkeep' t x hx ht

/-- A group whose records cannot be read leaves each of its enabled rings in error with cause 12. -/
theorem groupError_shows (s : State) (f g : Nat) {r : Nat} (hr : r ∈ s.sqsOf f) (hg : r / 32 = g)
    (he : s.ringEnabled f false r = true) :
    (s.groupError f g).rd (ringKey f false r 0x10) = BitVec.ofNat 32 (2 * 2 ^ 30 + 12 * 2 ^ 26) :=
  each_ringError_shows f (fun _ h => mem_sqsOf_lt (List.mem_filter.1 h).1) (List.mem_filter.2 ⟨hr, by simp [hg, he]⟩) s

theorem groupError_keeps {β : Type} (P : State → β) (hregs : ∀ (s : State) regs, P { s with regs } = P s)
    (hcqs : ∀ (s : State) formed cqs, P { s with formed, cqs } = P s) (s : State) (f g : Nat) : P (s.groupError f g) = P s :=
  each_keeps s P _ (fun s r => ringError_keeps P hregs hcqs s f r 12) _

theorem groupError_rd (s : State) (f g : Nat) {k : Nat} (h : ∀ r o, k ≠ ringKey f false r o) (h' : k ≠ hifReg Reg.HIF_RINGS)
    (h₁ : k ≠ pageReg f Reg.HIF_FN_EVENTS_LOST) (h₂ : k ≠ pageReg f Reg.HIF_FN_ERR_FLAGS) :
    (s.groupError f g).rd k = s.rd k :=
  each_keeps s (fun t => t.rd k) _ (fun s r => ringError_rd s f r 12 (h r _) h' h₁ h₂) _

/-- Kick bits and links are as before once registers of another kind have changed. -/
theorem kicks_kept (hk : ∀ k, t.rd (pageReg k Reg.HIF_KICK) = s.rd (pageReg k Reg.HIF_KICK))
    (hl : t.rd (hifReg Reg.HIF_STATUS) = s.rd (hifReg Reg.HIF_STATUS)) {f : Nat}
    (h : ∀ k < 64, s.linkOf k = s.linkOf f → s.rd (pageReg k Reg.HIF_KICK) = 0) :
    ∀ k < 64, t.linkOf k = t.linkOf f → t.rd (pageReg k Reg.HIF_KICK) = 0 := by
  intro k hk64 hlink
  rw [linkOf_congr hl, linkOf_congr hl] at hlink
  rw [hk, h k hk64 hlink]

theorem pageReg_ne_page (f f' : Nat) {o o' : Nat} (h : o ≠ o') (ho : o < 0x1000) (ho' : o' < 0x1000) :
    pageReg f o ≠ pageReg f' o' := by
  simp only [pageReg, regKey, blockBase]
  omega

/-- A fetch that fails: its rings are in error, and it has ended. -/
theorem fetchFailed_shows {f g : Nat} (hf : f < 64)
    (hk : ∀ k < 64, s.linkOf k = s.linkOf f → s.rd (pageReg k Reg.HIF_KICK) = 0) :
    (∀ r ∈ s.sqsOf f, r / 32 = g → s.ringEnabled f false r = true →
      ((s.groupError f g).fetchEnd f g).fld (ringKey f false r 0x10) 31 30 = 2 ∧
      ((s.groupError f g).fetchEnd f g).fld (ringKey f false r 0x10) 29 26 = 12) ∧
    (((s.groupError f g).fetchEnd f g).fnAt f).fetching = (s.fnAt f).fetching.filter (· != g) := by
  have hkick := kicks_kept (t := s.groupError f g)
    (fun k => groupError_rd s f g (fun r o => (ringKey_ne_pageReg _ _ _ _ _ (by decide)).symm)
      (pageReg_ne_hifReg _ _ (by decide)) (pageReg_ne_page _ _ (by decide) (by decide) (by decide))
      (pageReg_ne_page _ _ (by decide) (by decide) (by decide)))
    (groupError_rd s f g (fun r o => (ringKey_ne_hifReg _ _ _ _ (by decide)).symm) (hifReg_ne (by decide))
      (pageReg_ne_hifReg _ _ (by decide)).symm (pageReg_ne_hifReg _ _ (by decide)).symm) hk
  have hfns : (s.groupError f g).fns = s.fns := groupError_keeps State.fns (fun _ _ => rfl) (fun _ _ _ => rfl) s f g
  rw [fetchEnd_quiet hf hkick]
  refine ⟨fun r hr hg he => ringState_shows (s := State.setFn _ _ _) (groupError_shows s f g hr hg he) (by decide) (by decide), ?_⟩
  rw [fnAt_setFn_same, State.fnAt, hfns, State.fnAt]

/-- A fetch that returns its records: it has ended, and the tails of its enabled rings have moved. -/
theorem fetchReturned_shows {f g : Nat} (hf : f < 64)
    (hk : ∀ k < 64, s.linkOf k = s.linkOf f → s.rd (pageReg k Reg.HIF_KICK) = 0) (bs : List Byte) (n : Nat)
    (h : ∀ r ∈ s.sqsOf f, r / 32 = g → s.ringEnabled f false r = true → s.recordFits f r (recordCount bs (r % 32))) :
    let t := (((s.replayed n).each ((s.sqsOf f).filter (fun r => r / 32 == g))
      (fun s r => s.tailRead f r (recordCount bs (r % 32)))).fetchEnd f g)
    (t.fnAt f).fetching = (s.fnAt f).fetching.filter (· != g) ∧ t = { s with fns := t.fns, sqs := t.sqs, regs := t.regs } ∧
    t.rd (hifReg Reg.HIF_REPLAY_COUNT) = s.rd (hifReg Reg.HIF_REPLAY_COUNT) + BitVec.ofNat 32 n ∧
    OnlyRegs { s with fns := t.fns, sqs := t.sqs } t (if n = 0 then [] else [hifReg Reg.HIF_REPLAY_COUNT, hifReg Reg.HIF_ERR_FLAGS]) ∧
    ∀ r ∈ s.sqsOf f, r / 32 = g → s.ringEnabled f false r = true → (t.sqAt f r).tail = recordCount bs (r % 32) := by
  obtain ⟨u, hu⟩ : ∃ u, s.replayed n = u := ⟨_, rfl⟩
  have honly : OnlyRegs s u (if n = 0 then [] else [hifReg Reg.HIF_REPLAY_COUNT, hifReg Reg.HIF_ERR_FLAGS]) :=
    hu ▸ replayed_onlyRegs s n
  have hcount := replayed_count s n
  have hrd {k : Nat} (h₁ : k ≠ hifReg Reg.HIF_REPLAY_COUNT) (h₂ : k ≠ hifReg Reg.HIF_ERR_FLAGS) : u.rd k = s.rd k :=
    hu ▸ replayed_rd s n h₁ h₂
  rw [hu] at hcount ⊢
  have hring (r o : Nat) : u.rd (ringKey f false r o) = s.rd (ringKey f false r o) :=
    hrd (ringKey_ne_hifReg _ _ _ _ (by decide)) (ringKey_ne_hifReg _ _ _ _ (by decide))
  have hsqs : u.sqs = s.sqs := (congrArg State.sqs honly.1).trans rfl
  have hfns : u.fns = s.fns := (congrArg State.fns honly.1).trans rfl
  have hmem {r : Nat} (hr : r ∈ (s.sqsOf f).filter (fun r => r / 32 == g)) : r ∈ s.sqsOf f ∧ r / 32 = g := by
    simpa using List.mem_filter.1 hr
  obtain ⟨hframe, htail, -⟩ := tailsRead f (fun r => recordCount bs (r % 32)) ((s.sqsOf f).filter (fun r => r / 32 == g)) u
    (fun r hr => mem_sqsOf_lt (hmem hr).1) (fun r hr he => by
      obtain ⟨h₁, h₂⟩ := h r (hmem hr).1 (hmem hr).2 ((ringEnabled_of_rd (hring r _)).symm.trans he)
      refine ⟨?_, ?_⟩
      · rwa [State.sqAt, hsqs, ← State.sqAt]
      · rwa [State.rdN, hring, ← State.rdN, State.ringLog2, fld_of_rd (hring r _), ← State.ringLog2])
  obtain ⟨v, hv⟩ : ∃ v, u.each ((s.sqsOf f).filter (fun r => r / 32 == g))
    (fun s r => s.tailRead f r (recordCount bs (r % 32))) = v := ⟨_, rfl⟩
  rw [hv] at hframe htail ⊢
  have hregs : v.regs = u.regs := (congrArg State.regs hframe).trans rfl
  have hfns' : v.fns = s.fns := (congrArg State.fns hframe).trans hfns
  have hkick := kicks_kept (t := v)
    (fun k => (rd_congr hregs _).trans (hrd (pageReg_ne_hifReg _ _ (by decide)) (pageReg_ne_hifReg _ _ (by decide))))
    ((rd_congr hregs _).trans (hrd (hifReg_ne (by decide)) (hifReg_ne (by decide)))) hk
  rw [fetchEnd_quiet hf hkick]
  obtain ⟨x, hx⟩ : ∃ x, ({ v.fnAt f with fetching := (v.fnAt f).fetching.filter (· != g) } : FnState) = x := ⟨_, rfl⟩
  rw [hx]
  have hfetch : x.fetching = (s.fnAt f).fetching.filter (· != g) := by
    rw [← hx, State.fnAt, hfns', ← State.fnAt]
  have hall : v = { s with sqs := v.sqs, regs := v.regs, fns := v.fns } := by
    rw [hregs, hfns']
    have := congrArg (fun w : State => ({ w with sqs := v.sqs } : State)) honly.1
    exact hframe.trans this
  refine ⟨(congrArg FnState.fetching (fnAt_setFn_same ..)).trans hfetch, ?_, (rd_congr hregs _).trans hcount, ⟨?_, fun k hk' => ?_⟩,
    fun r hr hg he => htail r (List.mem_filter.2 ⟨hr, by simp [hg]⟩) ((ringEnabled_of_rd (hring r _)).trans he)⟩
  · exact (congrArg (fun w : State => w.setFn f x) hall).trans rfl
  · exact (congrArg (fun w : State => w.setFn f x) hall).trans rfl
  · exact (rd_congr hregs k).trans (honly.2 k hk')

end Sys2Proof.Machine
end

section
set_option Elab.async false
/-! PROOF. Entries taken from rings, and the ring commands together (O56). -/

namespace Sys2Proof.Machine

variable {s t u : State}

/-! ### Taking an entry (R325 to R327) -/

theorem entryTaken_rd (s : State) (f r : Nat) (bs : List Byte) {k : Nat} (h : k ≠ ringKey f false r 0x14) :
    (s.entryTaken f r).rd k = s.rd k := rd_wr_ne _ _ h

theorem entryTaken_sqAt (s : State) (f r : Nat) : (s.entryTaken f r).sqAt f r =
    { s.sqAt f r with taken := (s.sqAt f r).taken ++ [s.rdN (ringKey f false r 0x14)] } := sqAt_setSq_same ..

theorem entryTaken_mirrorIdx (s : State) (f r f' r' : Nat) : (s.entryTaken f r).mirrorIdx f' r' = s.mirrorIdx f' r' := by
  rw [State.mirrorIdx, State.mirrorIdx]
  refine List.find?_congr fun i hi => ?_
  have hi := List.mem_range.1 hi
  have hrd : (s.entryTaken f r).rd (twnReg (Reg.TWN_RING + 8 * i) + 4) = s.rd (twnReg (Reg.TWN_RING + 8 * i) + 4) := by
    refine rd_wr_ne _ _ (Ne.symm ?_)
    rw [show twnReg (Reg.TWN_RING + 8 * i) + 4 = twnReg (Reg.TWN_RING + 8 * i + 4) from rfl]
    exact ringKey_ne_twnReg _ _ _ _ (by simp only [Reg.TWN_RING]; omega)
  dsimp only
  rw [rbit_of_rd hrd, fld_of_rd hrd, fld_of_rd hrd]

theorem mirrors_of_idx {f r : Nat} (h : s.mirrorIdx f r = none) : s.mirrors f r = none := by
  rw [State.mirrors, h, ite_self]

theorem entryTaken_mirrors {f r : Nat} (h : s.mirrorIdx f r = none) : (s.entryTaken f r).mirrors f r = none :=
  mirrors_of_idx ((entryTaken_mirrorIdx ..).trans h)

theorem entryReady_mirrorIdx {f r : Nat} {bs : List Byte} (h : s.entryReady f r bs) : s.mirrorIdx f r = none := by
  obtain ⟨-, -, -, hidx, -⟩ := h
  exact hidx

/-- An entry that is ready is taken, and what its command does with an accepted entry is done. -/
theorem takeEntry_ready {f r : Nat} {bs : List Byte} {mine : RingEntry → Bool} {go : RingEntry → Entry → State → State}
    (h : s.entryReady f r bs) (hm : mine (s.ringEntry f bs) = true) : s.takeEntry f r bs mine go =
      .next (go (s.ringEntry f bs) (s.entryOf f r (s.ringEntry f bs)) (s.entryTaken f r)) := by
  obtain ⟨hdue, hlen, hbad, hidx, hroom, hwrites⟩ := h
  have hclass : (s.ringClass f r == 0 && decide (32 ≤ s.ristrettoHeld f)) = false := by
    obtain h | h := hroom
    · simp [h]
    · simp [h]
  have hno : ((s.ringEntry f bs).bad || ((s.entryTaken f r).mirrors f r).isSome &&
      (!((s.ringEntry f bs).op == 1 || (s.ringEntry f bs).op == 3 || (s.ringEntry f bs).op == 4) ||
        (s.ringEntry f bs).pinned)) = false := by
    rw [hbad, entryTaken_mirrors hidx]
    rfl
  rw [State.takeEntry]
  dsimp only
  rw [hclass, hidx, mirrors_of_idx hidx, if_neg (by simp [hdue, hlen, hm]), if_neg]
  · exact congrArg Host.Outcome.next (if_neg (Bool.eq_false_iff.1 hno))
  · simp only [Option.isSome_none, Bool.false_or, Bool.false_and, Bool.or_false, Bool.not_eq_true]
    refine List.any_eq_false.2 fun w hw hx => ?_
    split at hx
    · next e he => exact hwrites e (he ▸ List.mem_map_of_mem hw) (by simpa using hx)
    · cases hx

/-! ### What a completion leaves (R326, R329) -/

/-- A completion changes the queues of rings, and what the twin's barriers wait for. -/
theorem queueCpl_keeps {β : Type} (P : State → β) (hq : ∀ (s : State) formed cqs, P { s with formed, cqs } = P s) (s : State)
    (e : Entry) (r : Report) : P (s.queueCpl e r) = P s := by
  unfold State.queueCpl
  split
  · rfl
  · dsimp only [State.setCq]
    exact hq ..

theorem complete_keeps {β : Type} (P : State → β) (hq : ∀ (s : State) formed cqs, P { s with formed, cqs } = P s)
    (hsqs : ∀ (s : State) sqs, P { s with sqs } = P s) (htwin : ∀ (s : State) twin, P { s with twin } = P s) (s : State)
    (e : Entry) (r : Report) : P (s.complete e r) = P s := by
  have haway : P (s.completeAway e r) = P s := by
    rw [State.completeAway]
    refine (each_keeps _ P (fun t (b : Entry × List Nat) => t.queueCpl b.1 (.of 0)) (fun t b => queueCpl_keeps P hq t b.1 _) _).trans ?_
    exact (htwin (s.queueCpl e r) _).trans (queueCpl_keeps P hq s e r)
  have hset (v : SubRing) : P ((s.queueCpl e r).setSq e.func e.ring v) = P s :=
    (hsqs ..).trans (queueCpl_keeps P hq s e r)
  unfold State.complete
  dsimp only
  split
  · rfl
  split
  · exact haway
  split
  · split
    · exact (queueCpl_keeps P hq _ _ _).trans (hset _)
    · exact hset _
  · exact hset _

theorem complete_mem (s : State) (e : Entry) (r : Report) : (s.complete e r).mem = s.mem :=
  complete_keeps State.mem (fun _ _ _ => rfl) (fun _ _ => rfl) (fun _ _ => rfl) s e r

theorem complete_pins (s : State) (e : Entry) (r : Report) : (s.complete e r).pins = s.pins :=
  complete_keeps State.pins (fun _ _ _ => rfl) (fun _ _ => rfl) (fun _ _ => rfl) s e r

theorem wrBytes_keeps {β : Type} (P : State → β) (hregs : ∀ (s : State) regs, P { s with regs } = P s) (s : State) (key : Nat)
    (bs : List Byte) : P (s.wrBytes key bs) = P s := by
  rw [State.wrBytes]
  exact each_keeps s P _ (fun s w => hregs _ _) _

theorem extend_keeps {β : Type} (P : State → β) (hregs : ∀ (s : State) regs, P { s with regs } = P s)
    (hfree : ∀ (s : State) free, P { s with free } = P s) (s : State) (r kind : Nat) (d : List Byte) (info : Bool) :
    P (s.extend r kind d info) = P s := by
  have hnow (u : State) : P u.now.2 = P u := by
    unfold State.now
    dsimp only
    split
    exacts [hfree .., rfl]
  rw [State.extend]
  obtain ⟨u, hu⟩ : ∃ u, s.wrBytes (secReg (Reg.SEC_MREG + 0x40 * r)) (sha512 (s.mreg r ++ d)) = u := ⟨_, rfl⟩
  have hPu : P u = P s := hu ▸ wrBytes_keeps P hregs ..
  rw [hu]
  extract_lets n now u' more e v
  have hv : P v = P s := (hregs _ _).trans ((wrBytes_keeps P hregs _ _ _).trans ((hnow u).trans hPu))
  split
  · exact (hregs _ _).trans ((hregs _ _).trans hPu)
  · split
    · exact (hfree _ _).trans hv
    · exact hv

/-! ### Jobs and loads -/

theorem loadAt_setLoad (s : State) (l : Nat) (v : CfgLoad) : (s.setLoad l v).loadAt l = some v :=
  congrArg (Option.map Prod.snd) (find?_tput_same s.loads l v)

/-- A job of a ring that is not mirrored joins its partition's queue. -/
theorem newJob_queued {e : Entry} (h : s.mirrors e.func e.ring = none) (x : RingEntry) (p : Nat) (bs : List Byte) :
    (s.newJob e x p bs).nextJob = s.nextJob + 1 ∧ s.nextJob ∈ (s.newJob e x p bs).queueOf p (s.ringClass e.func e.ring) ∧
    (∃ v, (s.newJob e x p bs).jobAt s.nextJob = some v ∧ v.phase = .queued ∧ v.ent = e ∧ v.part = p ∧
      v.image = imgN x.params 0 8 ∧ v.handle = if x.pinned then some x.handle else none) ∧
    s.newJob e x p bs = { s with jobs := (s.newJob e x p bs).jobs, queues := (s.newJob e x p bs).queues
                                 nextJob := (s.newJob e x p bs).nextJob } := by
  rw [State.newJob, h]
  dsimp only [Option.bind_none, Option.isSome_none]
  refine ⟨rfl, ?_, ⟨_, jobAt_setJob_same .., rfl, rfl, rfl, rfl, rfl⟩, rfl⟩
  rw [State.queueOf, State.setQueue, tget_tset_same]
  exact List.mem_append_right _ (List.mem_singleton_self _)

/-! ### Pinned images (R326) -/

theorem tget_map_some {α : Type} (t : Table α) (k : Nat) (v : α) :
    tget (fun _ => none) ((tput t k v).map fun y => (y.1, some y.2)) k = some v := by
  induction t with
  | nil => simp [tput, tget]
  | cons e t ih =>
    rw [tput]
    split
    · simp [tget]
    · split
      · simp [tget]
      · next h => rw [List.map_cons, tget, if_neg h, ih]

/-! ### The entry commands -/

section
variable {f : Func} {r : Fin 1024} {bs : List Byte} (h : s.entryReady f r bs)
include h

theorem jobEntry_queued (hop : (s.ringEntry f bs).op = 1) {p : Nat} (hp : (s.entryTaken f r).partOfFn f = some p)
    (hpin : (s.ringEntry f bs).pinned = false ∨
      (s.ringEntry f bs).handle < 16 ∧ (s.entryTaken f r).handleLive f (s.ringEntry f bs).handle = true) :
    exec (.jobEntry f r bs) s =
      .next ((s.entryTaken f r).newJob (s.entryOf f r (s.ringEntry f bs)) (s.ringEntry f bs) p bs) := by
  show execJobEntry f r bs s = _
  rw [execJobEntry, takeEntry_ready h (by simp [hop])]
  have hno : ¬((s.ringEntry f bs).pinned = true ∧ (16 ≤ (s.ringEntry f bs).handle ∨
      (!(s.entryTaken f r).handleLive f (s.ringEntry f bs).handle) = true)) := by
    obtain h | ⟨h, h'⟩ := hpin
    · simp [h]
    · simp [h', h]
  rw [if_neg (not_not.2 hop)]
  simp only [hp]
  rw [if_neg hno]

theorem configurationEntry_requested (hop : (s.ringEntry f bs).op = 2) (h₁ : imgN (s.ringEntry f bs).params 0 8 % 256 = 0)
    (h₂ : imgN (s.ringEntry f bs).params 8 4 % 4 = 0) (h₃ : imgN (s.ringEntry f bs).params 12 4 = 0)
    (h₄ : imgN (s.ringEntry f bs).params 0x10 8 % 4096 = 0) (h₅ : imgN (s.ringEntry f bs).params 0x18 8 = 0) :
    Completes (exec (.configurationEntry f r bs) s) fun t =>
      t = { s.entryTaken f r with loads := t.loads, nextLoad := s.nextLoad + 1 } ∧ ∃ v, t.loadAt s.nextLoad = some v ∧
        v.ent = s.entryOf f r (s.ringEntry f bs) ∧ v.addr = imgN (s.ringEntry f bs).params 0 8 ∧
        v.bytes = imgN (s.ringEntry f bs).params 8 4 ∧ v.ess = imgN (s.ringEntry f bs).params 0x10 8 ∧ v.accepted = false := by
  have he : exec (.configurationEntry f r bs) s = execConfigurationEntry f r bs s := rfl
  rw [execConfigurationEntry, takeEntry_ready h (by simp [hop])] at he
  simp only [h₁, h₂, h₃, h₄, h₅, ne_eq, not_true, or_self, if_false] at he
  exact ⟨_, he, rfl, _, loadAt_setLoad .., rfl, rfl, rfl, rfl, rfl⟩

theorem mirrorOther_none (e : Entry) (hf : e.func = f.val) (hr : e.ring = r.val) (t : MirrorThen) :
    (s.entryTaken f r).mirrorOther e bs t = none := by
  have hidx := entryReady_mirrorIdx h
  rw [State.mirrorOther, hf, hr, entryTaken_mirrors hidx]
  rfl

theorem ringBarrier_taken (hop : (s.ringEntry f bs).op = 3) :
    exec (.ringBarrier f r bs) s = .next ((s.entryTaken f r).barrierEntry (s.entryOf f r (s.ringEntry f bs))) := by
  show execRingBarrier f r bs s = _
  rw [execRingBarrier, takeEntry_ready h (by simp [hop])]
  rw [mirrorOther_none h _ rfl rfl]

theorem ringNop_taken (hop : (s.ringEntry f bs).op = 4) :
    exec (.ringNop f r bs) s = .next ((s.entryTaken f r).complete (s.entryOf f r (s.ringEntry f bs)) (.of 0)) := by
  show execRingNop f r bs s = _
  rw [execRingNop, takeEntry_ready h (by simp [hop])]
  rw [mirrorOther_none h _ rfl rfl]

omit h in
/-- A barrier behind nothing that runs completes; behind an earlier entry it waits. -/
theorem barrierEntry_of_taken (e : Entry) (hf : e.func = f.val) (hr : e.ring = r.val) (hq : e.seq = s.rdN (ringKey f false r 0x14)) :
    ((s.sqAt f r).taken = [] → (s.entryTaken f r).barrierEntry e = (s.entryTaken f r).complete e (.of 0)) ∧
    ((∃ n ∈ (s.sqAt f r).taken, n ≠ e.seq) → (s.entryTaken f r).barrierEntry e =
      (s.entryTaken f r).setSq f r { (s.entryTaken f r).sqAt f r with barrier := some e }) := by
  have ht : ((s.entryTaken f r).sqAt f r).taken = (s.sqAt f r).taken ++ [e.seq] :=
    hq ▸ congrArg SubRing.taken (entryTaken_sqAt s f r)
  rw [State.barrierEntry, hf, hr]
  dsimp only
  rw [ht]
  refine ⟨fun hn => if_pos (by simp [hn]), fun ⟨n, hn, hne⟩ => if_neg fun hall => hne ?_⟩
  exact beq_iff_eq.1 (List.all_eq_true.1 hall n (List.mem_append_left _ hn))

/-- What a pin comes to when its image has been looked at. -/
theorem pin_checked (hop : (s.ringEntry f bs).op = 5) {m : MemFind} {p c st : Nat} {img : List Byte} {w : State}
    (hp : (s.entryTaken f r).partOfFn f = some p) (hh : (s.ringEntry f bs).handle < 16)
    (hfree : ∀ y ∈ (s.entryTaken f r).pins, y.1 ≠ 16 * f.val + (s.ringEntry f bs).handle)
    (hc : (s.entryTaken f r).checkImage ((s.entryTaken f r).ctrlAgent
      ((maskQuarters ((s.entryTaken f r).ringPart p).quarters).headD 0)) (imgN (s.ringEntry f bs).params 0 8) m = (c, st, img, w)) :
    exec (.pin f r bs m) s = .next (
      if c ≠ 0 then
        let k := regKey (.seq (Fin.ofNat 16 ((maskQuarters ((s.entryTaken f r).ringPart p).quarters).headD 0 / 4)))
        ((w.setFlag (k Reg.SEQ_ERR_FLAGS) 2).bump (k Reg.SEQ_FAULT_COUNT) 1).complete (s.entryOf f r (s.ringEntry f bs))
          { Report.of c with detail := (s.ringEntry f bs).handle }
      else if 262144 < (jobHeader img).bytes then w.refuseEntry (s.entryOf f r (s.ringEntry f bs)) (s.ringEntry f bs)
      else w.pinImage (s.entryOf f r (s.ringEntry f bs)) (s.ringEntry f bs).handle img) := by
  have hused : ((s.entryTaken f r).pins.any fun y => y.1 == 16 * f.val + (s.ringEntry f bs).handle) = false :=
    List.any_eq_false.2 fun y hy => by simpa using hfree y hy
  show execPin f r bs m s = _
  rw [execPin, takeEntry_ready h (by simp [hop])]
  simp only [hp, hused, hc, Nat.not_le.2 hh, Bool.false_eq_true, or_self, if_false]

theorem pin_refused (hop : (s.ringEntry f bs).op = 5) (m : MemFind) (hp : ((s.entryTaken f r).partOfFn f).isSome = true)
    (hbad : 16 ≤ (s.ringEntry f bs).handle ∨
      ∃ y ∈ (s.entryTaken f r).pins, y.1 = 16 * f.val + (s.ringEntry f bs).handle) :
    exec (.pin f r bs m) s = .next ((s.entryTaken f r).complete (s.entryOf f r (s.ringEntry f bs))
      { Report.of 0x87 with detail := (s.ringEntry f bs).handle }) := by
  obtain ⟨p, hp⟩ := Option.isSome_iff_exists.1 hp
  have hused : 16 ≤ (s.ringEntry f bs).handle ∨
      ((s.entryTaken f r).pins.any fun y => y.1 == 16 * f.val + (s.ringEntry f bs).handle) = true :=
    hbad.imp_right fun ⟨y, hy, he⟩ => List.any_eq_true.2 ⟨y, hy, beq_iff_eq.2 he⟩
  show execPin f r bs m s = _
  rw [execPin, takeEntry_ready h (by simp [hop])]
  simp only [hp, hused, if_true]
  rw [State.refuseEntry]
  simp only [hop, Nat.reduceEqDiff, if_false, if_true]

/-- An unpin of a handle that a job still uses: the handle takes no more jobs, and stays until that job has ended. -/
theorem unpin_busy (hop : (s.ringEntry f bs).op = 6) (hh : (s.ringEntry f bs).handle < 16)
    (hp : ((s.entryTaken f r).partOfFn f).isSome = true) (hlive : (s.entryTaken f r).handleLive f (s.ringEntry f bs).handle = true)
    (hbusy : (s.entryTaken f r).handleBusy f (s.ringEntry f bs).handle = true) : Completes (exec (.unpin f r bs) s) fun t =>
      t.jobs = s.jobs ∧ t.handleLive f (s.ringEntry f bs).handle = false ∧ t.handleBusy f (s.ringEntry f bs).handle = true := by
  obtain ⟨u, hu⟩ : ∃ u, s.entryTaken f r = u := ⟨_, rfl⟩
  have hjobs : u.jobs = s.jobs := hu ▸ rfl
  rw [hu] at hp hlive hbusy
  have he : exec (.unpin f r bs) s = execUnpin f r bs s := rfl
  rw [execUnpin, takeEntry_ready h (by simp [hop]), hu] at he
  have hnone : (u.partOfFn f).isNone = false := by
    rw [← Option.not_isSome, hp]
    rfl
  obtain ⟨p, hpin⟩ : ∃ p, u.pins.find? (fun y => y.1 == 16 * f.val + (s.ringEntry f bs).handle) = some p := by
    unfold State.handleLive at hlive
    split at hlive
    · next p h => exact ⟨p, h⟩
    · cases hlive
  simp only [hnone, hlive, hpin, Nat.not_le.2 hh, Bool.not_true, Bool.false_eq_true, or_self, if_false] at he
  refine ⟨_, he, ?_⟩
  obtain ⟨x, hx⟩ : ∃ x, ({ p.2 with leaving := some (s.entryOf f r (s.ringEntry f bs)) } : Pinned) = x := ⟨_, rfl⟩
  obtain ⟨v, hv⟩ : ∃ v, ({ u with pins := tput u.pins (16 * f.val + (s.ringEntry f bs).handle) x } : State) = v := ⟨_, rfl⟩
  have hfind : v.pins.find? (fun y => y.1 == 16 * f.val + (s.ringEntry f bs).handle) =
      some (16 * f.val + (s.ringEntry f bs).handle, x) := by
    rw [← hv]
    exact find?_tput_same ..
  have hbusy' : v.handleBusy f (s.ringEntry f bs).handle = true := hv ▸ hbusy
  have hcheck : v.checkHandle f (s.ringEntry f bs).handle = v := by
    rw [State.checkHandle, hfind]
    simp only [hbusy', Bool.not_true, Bool.and_false, Bool.false_eq_true, if_false]
  rw [hx, hv, hcheck]
  refine ⟨(hv ▸ rfl : v.jobs = u.jobs).trans hjobs, ?_, hbusy'⟩
  rw [State.handleLive, hfind, ← hx]
  rfl

end

/-! ### The ring commands together -/

theorem ringEnable_completes {f : Func} {via0 : Bool} (hr : s.fnReach (if via0 then 0 else f) = true)
    (hd : (s.fnAt (if via0 then 0 else f)).d3hot = false) (rec_ : Option (List Byte)) :
    exec (.ringEnable f via0 rec_) s = .next (s.enableRing f rec_) :=
  pageDo_next (off := Reg.HIF_RING_CTRL) (go := fun s => s.enableRing f rec_) (ur := id) hr hd

theorem ringDisable_completes {f : Func} {via0 : Bool} (hr : s.fnReach (if via0 then 0 else f) = true)
    (hd : (s.fnAt (if via0 then 0 else f)).d3hot = false) : exec (.ringDisable f via0) s = .next (s.disableRing f) :=
  pageDo_next (off := Reg.HIF_RING_CTRL) (go := fun s => s.disableRing f) (ur := id) hr hd

theorem hifKick_completes {f : Func} {via0 : Bool} (hr : s.fnReach (if via0 then 0 else f) = true)
    (hd : (s.fnAt (if via0 then 0 else f)).d3hot = false) (w : Word) : exec (.hifKick f via0 w) s = .next (s.kick f w) :=
  pageDo_next (off := Reg.HIF_KICK) (go := fun s => s.kick f w) (ur := id) hr hd

theorem versionOffer_completes {f : Func} {via0 : Bool} (hr : s.fnReach (if via0 then 0 else f) = true)
    (hd : (s.fnAt (if via0 then 0 else f)).d3hot = false) (w : Word) : exec (.versionOffer f via0 w) s = .next (s.offer f w) :=
  pageDo_next (off := Reg.HIF_VERSION_OFFER) (go := fun s => s.offer f w) (ur := id) hr hd

theorem dbrecFetchDone_returned {f : Func} {g : Fin 32} (h : g.val ∈ (s.fnAt f).fetching) (bs : List Byte) (n : Nat) :
    exec (.dbrecFetchDone f g ⟨some bs, n⟩) s = .next (((s.replayed n).each ((s.sqsOf f).filter (fun r => r / 32 == g.val))
      (fun s r => s.tailRead f r (recordCount bs (r % 32)))).fetchEnd f g) := by
  have hsqs : (s.replayed n).sqs = s.sqs := (congrArg State.sqs (replayed_onlyRegs s n).1).trans rfl
  show execDbrecFetchDone f g ⟨some bs, n⟩ s = _
  rw [execDbrecFetchDone, if_neg (by simp [h])]
  dsimp only
  rw [State.sqsOf, hsqs, ← State.sqsOf]

theorem dbrecFetchDone_failed {f : Func} {g : Fin 32} (h : g.val ∈ (s.fnAt f).fetching) (n : Nat) :
    exec (.dbrecFetchDone f g ⟨none, n⟩) s = .next (((s.replayed n).groupError f g).fetchEnd f g) := by
  show execDbrecFetchDone f g ⟨none, n⟩ s = _
  rw [execDbrecFetchDone, if_neg (by simp [h])]

theorem hostReadTimeout_records {f : Func} {g : Fin 1024} (h : g.val ∈ (s.fnAt f).fetching) :
    exec (.hostReadTimeout f false g) s = .next ((s.groupError f g).fetchEnd f g) := by
  show execHostReadTimeout f false g s = _
  rw [execHostReadTimeout, if_neg Bool.false_ne_true, if_pos (by simp [h])]

/-- Pinning keeps the memory of the state in which the image was looked at. -/
theorem pinChecked_mem (w : State) {e : Entry} {x : RingEntry} (hop : x.op = 5) (c : Nat) (img : List Byte) (d : Fin 16) :
    (if c ≠ 0 then
        let k := regKey (.seq d)
        ((w.setFlag (k Reg.SEQ_ERR_FLAGS) 2).bump (k Reg.SEQ_FAULT_COUNT) 1).complete e { Report.of c with detail := x.handle }
      else if 262144 < (jobHeader img).bytes then w.refuseEntry e x else w.pinImage e x.handle img).mem = w.mem := by
  split
  · rw [complete_mem, bump_eq, wr_mem, setFlag_eq, wr_mem]
  · split
    · rw [State.refuseEntry, if_neg (by omega), if_neg (by omega), complete_mem]
    · rw [State.pinImage, complete_mem, extend_keeps State.mem (fun _ _ => rfl) (fun _ _ => rfl)]

theorem pinImage_pinned (w : State) {e : Entry} {f : Nat} (hf : e.func = f) (h : Nat) (img : List Byte) :
    tget (fun _ => none) ((w.pinImage e h img).pins.map (fun y => (y.1, some y.2))) (16 * f + h) =
      some (.mk img (jobHeader img) none) := by
  rw [State.pinImage, complete_pins, extend_keeps State.pins (fun _ _ => rfl) (fun _ _ => rfl), hf]
  exact tget_map_some ..

/-- Settles O56: kicks by an invariant over the groups looked at, records by one over the rings read, and an entry that is
ready by the state in which it has been taken. -/
theorem ringCommandsComplete : Obligations.RingCommandsComplete := by
  unfold Obligations.RingCommandsComplete
  refine ⟨fun f via0 s hr hd => ⟨fun w hdf hf hk hreads => ?_, fun w => ?_, ⟨fun h bs => ?_, fun h₁ h₂ hl hdf => ⟨fun bs hc => ?_,
    fun hc hcq => ?_, fun bs hc => ?_⟩⟩, fun h => ?_, fun hcq hh => ?_⟩, fun f g s hg hk => ⟨fun bs n h => ?_, fun n c hc => ?_⟩,
    fun f r s h => ⟨?_, ?_⟩, fun f q record s he hfull hd hu => ?_, fun f r bs s h => ⟨fun hop p hp hpin => ?_,
    fun hop h₁ h₂ h₃ h₄ h₅ => configurationEntry_requested h hop h₁ h₂ h₃ h₄ h₅, fun hop => ?_, fun hop => ringNop_taken h hop,
    fun hop m p c st img w hp hh hfree hcheck => ?_, fun hop m hp hbad => pin_refused h hop m hp hbad,
    fun hop hh hp hlive hbusy => unpin_busy h hop hh hp hlive hbusy⟩⟩
  · have h := kick_kickedTo (f := f) (w := w) hdf hf hk hreads
    exact ⟨_, hifKick_completes hr hd w, h.kick_zero, h.fetching, h.out, h.frame⟩
  · exact ⟨_, versionOffer_completes hr hd w, fun h => offer_fresh h w, fun h => offer_refused h w⟩
  · rw [ringEnable_completes hr hd, enableRing_not_live h]
  · refine ⟨_, ringEnable_completes hr hd _, ?_⟩
    have he := (enableRing_up h₁ h₂ hl hdf hc (some bs)).trans (if_neg (by simp))
    rw [he]
    exact ringUp_shows ..
  · refine ⟨_, ringEnable_completes hr hd _, ?_⟩
    have he := (enableRing_up h₁ h₂ hl hdf hc none).trans (if_pos (by simp [hcq]))
    rw [he]
    have hshow := ringError_shows (s.ringUp f (s.selCq f) (s.selRing f) (recordCount (Option.getD none []) 0)) f (s.selRing f)
      (cause := 12) (by decide)
    rw [hcq]
    rw [hcq] at hshow
    exact ringState_shows hshow (by decide) (by decide)
  · refine ⟨_, ringEnable_completes hr hd _, ?_⟩
    rw [enableRing_refused h₁ h₂ hl hdf hc]
    have hne := ringKey_ne_pageReg f (s.selCq f) (s.selRing f) 0x10 f (o' := Reg.HIF_FN_ERR_FLAGS) (by decide)
    obtain ⟨hst, hcause⟩ := ringState_shows (setRing_rd_same s f (s.selCq f) (s.selRing f) 3
      (s.enableCause f (s.selCq f) (s.selRing f))) (by decide) (enableCause_lt ..)
    exact ⟨(fld_setFlag_ne _ _ _ _ hne).trans hst, (fld_setFlag_ne _ _ _ _ hne).trans hcause, rbit_setFlag_same _ _ _ (by decide)⟩
  · exact ⟨_, ringDisable_completes hr hd, disableRing_free h⟩
  · exact ⟨_, ringDisable_completes hr hd, disableRing_held hcq hh⟩
  · exact ⟨_, dbrecFetchDone_returned hg bs n, fetchReturned_shows f.isLt hk bs n h⟩
  · obtain rfl | rfl : c = .dbrecFetchDone f g ⟨none, n⟩ ∨ c = .hostReadTimeout f false ⟨g.val, by omega⟩ := by simpa using hc
    · have hrd {k : Nat} := replayed_rd s n (k := k)
      have hframe := (replayed_onlyRegs s n).1
      have hsqs : (s.replayed n).sqsOf f = s.sqsOf f :=
        congrArg (fun x => ((x.filter (fun e => e.1 / 1024 == f.val)).map (fun e => e.1 % 1024) : List Nat))
          ((congrArg State.sqs hframe).trans rfl)
      have hfn : (s.replayed n).fnAt f = s.fnAt f := congrArg (tget _ · f.val) ((congrArg State.fns hframe).trans rfl)
      have hring (r o : Nat) : (s.replayed n).rd (ringKey f false r o) = s.rd (ringKey f false r o) :=
        hrd (ringKey_ne_hifReg _ _ _ _ (by decide)) (ringKey_ne_hifReg _ _ _ _ (by decide))
      obtain ⟨hrings, hfetch⟩ := fetchFailed_shows (s := s.replayed n) (g := g) f.isLt (kicks_kept
        (fun k => hrd (pageReg_ne_hifReg _ _ (by decide)) (pageReg_ne_hifReg _ _ (by decide)))
        (hrd (hifReg_ne (by decide)) (hifReg_ne (by decide))) hk)
      exact ⟨_, dbrecFetchDone_failed hg n, fun r hr hrg he => hrings r (hsqs ▸ hr) hrg ((ringEnabled_of_rd (hring r _)).trans he),
        hfetch.trans (by rw [hfn])⟩
    · exact ⟨_, hostReadTimeout_records (g := ⟨g.val, by omega⟩) hg, fetchFailed_shows f.isLt hk⟩
  · show execHostReadTimeout f true r s = _
    rw [execHostReadTimeout, if_pos rfl, if_pos h]
  · exact if_pos h
  · exact if_neg (by simp [he, hfull, hd, hu])
  · have hidx := entryReady_mirrorIdx h
    obtain ⟨hnext, hqueue, hjob, hframe⟩ := newJob_queued (s := s.entryTaken f r) (e := s.entryOf f r (s.ringEntry f bs))
      (entryTaken_mirrors hidx) (s.ringEntry f bs) p bs
    exact ⟨_, jobEntry_queued h hop hp hpin, hnext, hqueue, hjob, hframe⟩
  · exact ⟨_, ringBarrier_taken h hop, barrierEntry_of_taken _ rfl rfl rfl⟩
  · refine ⟨_, pin_checked h hop hp hh hfree hcheck, pinChecked_mem w hop c img _, fun hc hlen => ?_⟩
    rw [if_neg (not_not.2 hc), if_neg (not_lt.2 hlen)]
    exact pinImage_pinned w rfl _ _

end Sys2Proof.Machine
end

section
set_option Elab.async false
/-! PROOF. Links, configuration requests, messages, function resets and power states (O55). -/

namespace Sys2Proof.Machine

variable {s t u : State}

/-! ### Messages (R333) -/

/-- Only what is held of functions, and what has been sent out, changes. -/
def FnsOut (s t : State) : Prop := t = { s with fns := t.fns, out := t.out }

namespace FnsOut

theorem refl (s : State) : FnsOut s s := rfl

theorem trans (h : FnsOut s t) (h' : FnsOut t u) : FnsOut s u := by
  have hw := congrArg (fun v : State => ({ v with fns := u.fns, out := u.out } : State)) h
  exact Eq.trans h' hw

theorem setFn (h : FnsOut s t) (f : Nat) (v : FnState) : FnsOut s (t.setFn f v) := h.trans rfl

theorem emit (h : FnsOut s t) (o : Output) : FnsOut s (t.emit o) := h.trans rfl

theorem regs (h : FnsOut s t) : t.regs = s.regs := (congrArg State.regs h).trans rfl

theorem mem (h : FnsOut s t) : t.mem = s.mem := (congrArg State.mem h).trans rfl

theorem twin (h : FnsOut s t) : t.twin = s.twin := (congrArg State.twin h).trans rfl

theorem cqs (h : FnsOut s t) : t.cqs = s.cqs := (congrArg State.cqs h).trans rfl

end FnsOut

/-- The messages of those that a function holds whose vectors are not masked. -/
def FnState.sent (x : FnState) (f : Nat) (ms : List Nat) : List Output :=
  (ms.filter (fun v => !(x.vector v).masked)).map (fun v => .msix f v (x.vector v).addr (x.vector v).data)

theorem message_shows (s : State) (f v : Nat) : FnsOut s (s.message f v) ∧
    (∃ held, (s.message f v).fnAt f = { s.fnAt f with msix := held }) ∧
    ((s.fnAt f).msixOn = true → (s.message f v).out = s.out ++
      if (s.fnAt f).d3hot || (s.fnAt f).msixMask then [] else (s.fnAt f).sent f [v]) := by
  unfold State.message
  dsimp only
  split
  · next h => exact ⟨rfl, ⟨_, rfl⟩, fun hon => by simp [hon] at h⟩
  · split
    · next h =>
      refine ⟨rfl, ⟨_, fnAt_setFn_same ..⟩, fun _ => ?_⟩
      have hnone : (if ((s.fnAt f).d3hot || (s.fnAt f).msixMask) = true then [] else (s.fnAt f).sent f [v]) = [] := by
        split
        · rfl
        · next hno => simp_all [FnState.sent]
      rw [hnone, List.append_nil]
      rfl
    · next h =>
      refine ⟨rfl, ⟨_, rfl⟩, fun _ => ?_⟩
      have hno : (s.fnAt f).d3hot = false ∧ (s.fnAt f).msixMask = false ∧ ((s.fnAt f).vector v).masked = false := by
        simpa [and_assoc] using h
      obtain ⟨h₁, h₂, h₃⟩ := hno
      simp [FnState.sent, h₁, h₂, h₃]

theorem sent_held (x : FnState) (f : Nat) (held : List Nat) (ms : List Nat) :
    ({ x with msix := held } : FnState).sent f ms = x.sent f ms := rfl

theorem sent_cons (x : FnState) (f v : Nat) (vs : List Nat) : x.sent f (v :: vs) = x.sent f [v] ++ x.sent f vs := by
  rw [FnState.sent, FnState.sent, FnState.sent, ← List.map_append, ← List.filter_append]
  rfl

/-- Messages one after another are sent in order, as far as nothing holds them. -/
theorem each_message_shows (f : Nat) (vs : List Nat) (s : State) (hon : (s.fnAt f).msixOn = true) :
    FnsOut s (s.each vs fun s v => s.message f v) ∧
    (∃ held, (s.each vs fun s v => s.message f v).fnAt f = { s.fnAt f with msix := held }) ∧
    (s.each vs fun s v => s.message f v).out = s.out ++
      if (s.fnAt f).d3hot || (s.fnAt f).msixMask then [] else (s.fnAt f).sent f vs := by
  induction vs generalizing s with
  | nil => exact ⟨rfl, ⟨_, rfl⟩, by simp [FnState.sent]⟩
  | cons v vs ih =>
    rw [each_cons]
    obtain ⟨hframe, ⟨held, hx⟩, hout⟩ := message_shows s f v
    obtain ⟨hframe', ⟨held', hx'⟩, hout'⟩ := ih (s.message f v) (by rw [hx]; exact hon)
    refine ⟨hframe.trans hframe', ⟨held', by rw [hx', hx]⟩, ?_⟩
    rw [hout', hout hon, hx, sent_held, List.append_assoc]
    congr 1
    split
    · rfl
    · exact (sent_cons ..).symm

/-- Messages that nothing holds any more are sent, once each. -/
theorem sendPending_shows (s : State) (f : Nat) : FnsOut s (s.sendPending f) ∧
    (∃ held, (s.sendPending f).fnAt f = { s.fnAt f with msix := held }) ∧
    (s.sendPending f).out = s.out ++
      if (s.fnAt f).msixOn && !(s.fnAt f).msixMask && !(s.fnAt f).d3hot then (s.fnAt f).sent f (s.fnAt f).msix else [] := by
  rw [State.sendPending]
  dsimp only
  by_cases hon : (s.fnAt f).msixOn = true
  case neg =>
    rw [if_pos (by simp [hon])]
    exact ⟨rfl, ⟨_, rfl⟩, by simp [hon]⟩
  case pos =>
    have hat : (s.setFn f { s.fnAt f with msix := [] }).fnAt f = { s.fnAt f with msix := [] } := fnAt_setFn_same ..
    obtain ⟨hframe, ⟨held, hx⟩, hout⟩ := each_message_shows f (s.fnAt f).msix (s.setFn f { s.fnAt f with msix := [] })
      (by rw [hat]; exact hon)
    rw [hat] at hx hout
    rw [if_neg (by simp [hon])]
    refine ⟨((FnsOut.refl s).setFn _ _).trans hframe, ⟨held, hx⟩, hout.trans ?_⟩
    rw [hon]
    cases (s.fnAt f).msixMask <;> cases (s.fnAt f).d3hot <;> rfl

/-! ### Configuration requests (R316, R319, R337) -/

section
variable {f : Func}

theorem configRequest_ready (hu : s.fnUp f = true) (hr : s.isReady = true) (hl : s.fnLive f = true) (q : ConfigRequest) :
    exec (.pcieConfigRequest f q) s = .next ((s.configure f q).emit (.config f .success)) := by
  show execPcieConfigRequest f q s = _
  rw [execPcieConfigRequest, if_neg (by simp [hu]), if_pos hr, if_pos hl]

theorem configRequest_absent (hu : s.fnUp f = true) (hr : s.isReady = true) (hl : s.fnLive f = false) (q : ConfigRequest) :
    exec (.pcieConfigRequest f q) s = .next (s.emit (.config f .unsupported)) := by
  show execPcieConfigRequest f q s = _
  rw [execPcieConfigRequest, if_neg (by simp [hu]), if_pos hr, if_neg (by simp [hl])]

theorem configRequest_early (hu : s.fnUp f = true) (hr : s.isReady = false) (q : ConfigRequest) :
    (s.inRecovery = false → exec (.pcieConfigRequest f q) s =
      .next ((s.bump (hifReg Reg.HIF_RRS_COUNT) 1).emit (.config f .retry))) ∧
    (s.inRecovery = true → exec (.pcieConfigRequest f q) s =
      .next (s.emit (.config f (if f.val = 0 then .success else .unsupported)))) := by
  have he : exec (.pcieConfigRequest f q) s = execPcieConfigRequest f q s := rfl
  rw [execPcieConfigRequest, if_neg (by simp [hu]), if_neg (by simp [hr])] at he
  refine ⟨fun hrec => he.trans (if_neg (by simp [hrec])), fun hrec => (he.trans (if_pos hrec)).trans ?_⟩
  have hz : (f.val = 0) = (f = 0) := propext ⟨fun h => Fin.ext h, fun h => h ▸ rfl⟩
  simp only [hz]

/-- MSI-X settings take effect, and messages that nothing holds any more go out. -/
theorem configure_msix (on mask : Bool) : ((s.configure f (.msix on mask)).fnAt f).msixOn = on ∧
    ((s.configure f (.msix on mask)).fnAt f).msixMask = mask ∧
    (s.configure f (.msix on mask)).out = s.out ++
      (if on && !mask && !(s.fnAt f).d3hot then (s.fnAt f).sent f (s.fnAt f).msix else []) ∧
    FnsOut s (s.configure f (.msix on mask)) := by
  obtain ⟨hframe, ⟨held, hx⟩, hout⟩ := sendPending_shows (s.setFn f { s.fnAt f with msixOn := on, msixMask := mask }) f
  rw [fnAt_setFn_same] at hx hout
  exact ⟨congrArg FnState.msixOn hx, congrArg FnState.msixMask hx, hout, ((FnsOut.refl s).setFn _ _).trans hframe⟩

theorem configure_vector (v : Fin 1040) (addr : BitVec 64) (data : Word) (masked : Bool) :
    ((s.configure f (.vector v addr data masked)).fnAt f).vector v = .mk addr.toNat data.toNat masked ∧
    FnsOut s (s.configure f (.vector v addr data masked)) := by
  obtain ⟨hframe, ⟨held, hx⟩, -⟩ := sendPending_shows
    (s.setFn f { s.fnAt f with vectors := tput (s.fnAt f).vectors v ⟨addr.toNat, data.toNat, masked⟩ }) f
  rw [fnAt_setFn_same] at hx
  refine ⟨?_, ((FnsOut.refl s).setFn _ _).trans hframe⟩
  exact (congrArg (fun x : FnState => x.vector v) hx).trans (tget_tput_same ..)

theorem configure_bar4 (virt : Bool) (n : Fin 15) : (s.configure f (.bar4Size virt n)).out = s.out ∧
    (f.val = 0 → virt = false → (s.configure f (.bar4Size virt n)).bar4Bytes 0 = 2 ^ (30 + n.val)) ∧
    FnsOut s (s.configure f (.bar4Size virt n)) := by
  rw [State.configure]
  split
  · next h =>
    refine ⟨rfl, fun hf => absurd h ?_, rfl⟩
    rw [hf]
    simp [State.physical]
  · refine ⟨rfl, fun hf hv => ?_, rfl⟩
    subst hv
    rw [hf, State.bar4Bytes, show ∀ u : State, u.physical 0 = true from fun u => by simp [State.physical], fnAt_setFn_same]
    rfl

end

end Sys2Proof.Machine
end

section
set_option Elab.async false
/-! PROOF. Function resets, virtual functions that go, and power states (O55). -/

namespace Sys2Proof.Machine

variable {s t u : State}

/-! ### The rings of a function go (R316, R320) -/

/-- Setting a ring to disabled enables none. -/
theorem setRing_disabled (s : State) (f : Nat) (cq : Bool) (r : Nat) :
    (s.setRing f cq r 0 0).ringEnabled f cq r = false ∧
    ∀ f' cq' r', s.ringEnabled f' cq' r' = false → (s.setRing f cq r 0 0).ringEnabled f' cq' r' = false := by
  have hsame : (s.setRing f cq r 0 0).ringEnabled f cq r = false := by
    obtain ⟨h, -⟩ := ringState_shows (setRing_rd_same s f cq r 0 0) (by decide) (by decide)
    rw [State.ringEnabled, h]
    rfl
  refine ⟨hsame, fun f' cq' r' h => ?_⟩
  by_cases hk : ringKey f' cq' r' 0x10 = ringKey f cq r 0x10
  · rw [State.ringEnabled, hk]
    exact hsame
  · rw [ringEnabled_of_rd (setRing_rd_ne s f cq r 0 0 hk (ringKey_ne_hifReg _ _ _ _ (by decide))), h]

theorem mem_tput_keys {α : Type} {x : Table α} {k : Nat} {v : α} {e : Nat × α} (h : e ∈ x) : ∃ w, (e.1, w) ∈ tput x k v := by
  induction x with
  | nil => cases h
  | cons a x ih =>
    rw [tput]
    split
    · exact ⟨e.2, List.mem_cons_of_mem _ h⟩
    · split
      · next hk =>
        obtain h | h := List.mem_cons.1 h
        · exact ⟨v, by rw [h, ← hk]; exact List.mem_cons_self ..⟩
        · exact ⟨e.2, List.mem_cons_of_mem _ h⟩
      · obtain h | h := List.mem_cons.1 h
        · exact ⟨a.2, by rw [h]; exact List.mem_cons_self ..⟩
        · exact (ih h).imp fun w hw => List.mem_cons_of_mem _ hw

theorem mem_keys_tput {α : Type} {x : Table α} {k : Nat} {v : α} {f r : Nat}
    (h : r ∈ (x.filter (fun e => e.1 / 1024 == f)).map (fun e => e.1 % 1024)) :
    r ∈ ((tput x k v).filter (fun e => e.1 / 1024 == f)).map (fun e => e.1 % 1024) := by
  obtain ⟨e, he, rfl⟩ := List.mem_map.1 h
  obtain ⟨he, hf⟩ := List.mem_filter.1 he
  obtain ⟨w, hw⟩ := mem_tput_keys (k := k) (v := v) he
  exact List.mem_map.2 ⟨(e.1, w), List.mem_filter.2 ⟨hw, hf⟩, rfl⟩

/-- What holds while rings go: none that is disabled becomes enabled, and the tables keep their rings. -/
structure RingsGo (s t : State) : Prop where
  disabled : ∀ f cq r, s.ringEnabled f cq r = false → t.ringEnabled f cq r = false
  sqs : ∀ f, ∀ r ∈ s.sqsOf f, r ∈ t.sqsOf f
  cqs : ∀ f, ∀ r ∈ s.cqsOf f, r ∈ t.cqsOf f

namespace RingsGo

theorem refl (s : State) : RingsGo s s := ⟨fun _ _ _ h => h, fun _ _ h => h, fun _ _ h => h⟩

theorem trans (h : RingsGo s t) (h' : RingsGo t u) : RingsGo s u :=
  ⟨fun f cq r hr => h'.disabled f cq r (h.disabled f cq r hr), fun f r hr => h'.sqs f r (h.sqs f r hr),
    fun f r hr => h'.cqs f r (h.cqs f r hr)⟩

theorem setRing (s : State) (f : Nat) (cq : Bool) (r : Nat) : RingsGo s (s.setRing f cq r 0 0) := by
  obtain ⟨hsqs, hcqs, -⟩ := setRing_tables s f cq r 0 0
  refine ⟨(setRing_disabled s f cq r).2, fun f' r' h => ?_, fun f' r' h => ?_⟩
  · rwa [State.sqsOf, hsqs]
  · rwa [State.cqsOf, hcqs]

theorem setSq (s : State) (f r : Nat) (v : SubRing) : RingsGo s (s.setSq f r v) :=
  ⟨fun _ _ _ h => h, fun _ _ h => mem_keys_tput h, fun _ _ h => h⟩

theorem setCq (s : State) (f r : Nat) (v : CplRing) : RingsGo s (s.setCq f r v) :=
  ⟨fun _ _ _ h => h, fun _ _ h => h, fun _ _ h => mem_keys_tput h⟩

theorem setFn (s : State) (f : Nat) (v : FnState) : RingsGo s (s.setFn f v) :=
  ⟨fun _ _ _ h => h, fun _ _ h => h, fun _ _ h => h⟩

theorem wrPage (s : State) (f : Nat) {o : Nat} (h : o < 0x1000) (v : Word) : RingsGo s (s.wr (pageReg f o) v) :=
  ⟨fun _ _ _ hr => (ringEnabled_of_rd (rd_wr_ne s v (ringKey_ne_pageReg _ _ _ _ _ h))).trans hr, fun _ _ h => h, fun _ _ h => h⟩

theorem each {α : Type} {F : State → α → State} (s : State) (xs : List α) (h : ∀ s, ∀ x ∈ xs, RingsGo s (F s x)) :
    RingsGo s (s.each xs F) :=
  List.foldlRecOn (motive := RingsGo s) xs F (refl s) fun t ht x hx => ht.trans (h t x hx)

end RingsGo

/-- A step that is done for each of some rings leaves each of them disabled. -/
theorem each_disables {f : Nat} {cq : Bool} {F : State → Nat → State} (hgo : ∀ s r, RingsGo s (F s r))
    (hoff : ∀ s r, (F s r).ringEnabled f cq r = false) {rs : List Nat} {r : Nat} (hr : r ∈ rs) (s : State) :
    (s.each rs F).ringEnabled f cq r = false := by
  induction rs generalizing s with
  | nil => cases hr
  | cons r' rs ih =>
    rw [each_cons]
    obtain rfl | hr := List.mem_cons.1 hr
    · exact (RingsGo.each _ rs fun s x _ => hgo s x).disabled f cq r (hoff s r)
    · exact ih hr _

/-- The state in which a function's submission rings are gone, and that in which its completion rings are gone too. -/
def State.sqsGone (s : State) (f : Nat) : State :=
  s.each (s.sqsOf f) (fun s r => (s.setRing f false r 0 0).setSq f r SubRing.init)
def State.ringsGone (s : State) (f : Nat) : State :=
  (s.sqsGone f).each ((s.sqsGone f).cqsOf f) (fun s r => (s.setRing f true r 0 0).setCq f r CplRing.init)

/-- The registers of its page that a function loses. -/
def pageLost : List Nat := [Reg.HIF_KICK, Reg.HIF_DBREC_BASE, Reg.HIF_DBREC_BASE + 4, Reg.HIF_EVENT_CQ, Reg.HIF_VERSION_SEL]

theorem dropRings_eq (s : State) (f : Nat) : s.dropRings f = ((s.ringsGone f).setFn f
    { s.fnAt f with d3hot := false, fetching := [], msix := [], msixOn := false, msixMask := false, vectors := []
                    epoch := (s.fnAt f).epoch + 1 }).each pageLost (fun s o => s.wr (pageReg f o) 0) := rfl

theorem sqsGone_ringsGo (s : State) (f : Nat) : RingsGo s (s.sqsGone f) :=
  RingsGo.each s _ fun s r _ => (RingsGo.setRing s f false r).trans (.setSq _ f r _)

theorem ringsGone_ringsGo (s : State) (f : Nat) : RingsGo s (s.ringsGone f) :=
  (sqsGone_ringsGo s f).trans (RingsGo.each _ _ fun s r _ => (RingsGo.setRing s f true r).trans (.setCq _ f r _))

theorem dropRings_ringsGo (s : State) (f : Nat) : RingsGo s (s.dropRings f) := by
  rw [dropRings_eq]
  refine ((ringsGone_ringsGo s f).trans (.setFn _ f _)).trans (RingsGo.each _ _ fun s o ho => .wrPage s f ?_ 0)
  exact (by decide : ∀ o ∈ pageLost, o < 0x1000) o ho

/-- What is left of a function's rings: none of them is enabled. -/
theorem dropRings_disabled (s : State) (f : Nat) : (∀ r ∈ s.sqsOf f, (s.dropRings f).ringEnabled f false r = false) ∧
    ∀ r ∈ s.cqsOf f, (s.dropRings f).ringEnabled f true r = false := by
  have hrest : RingsGo (s.ringsGone f) (s.dropRings f) := by
    rw [dropRings_eq]
    refine (RingsGo.setFn _ f _).trans (RingsGo.each _ _ fun s o ho => .wrPage s f ?_ 0)
    exact (by decide : ∀ o ∈ pageLost, o < 0x1000) o ho
  refine ⟨fun r hr => hrest.disabled _ _ _ ?_, fun r hr => hrest.disabled _ _ _ ?_⟩
  · have hcq : RingsGo (s.sqsGone f) (s.ringsGone f) :=
      RingsGo.each _ _ fun s r _ => (RingsGo.setRing s f true r).trans (.setCq _ f r _)
    exact hcq.disabled _ _ _ (each_disables (fun s r => (RingsGo.setRing s f false r).trans (.setSq _ f r _))
      (fun s r => (setRing_disabled s f false r).1) hr s)
  · exact each_disables (fun s r => (RingsGo.setRing s f true r).trans (.setCq _ f r _))
      (fun s r => (setRing_disabled s f true r).1) ((sqsGone_ringsGo s f).cqs f r hr) _

/-- What rings that go leave of the state. -/
theorem ringsGone_keeps {β : Type} (P : State → β) (hregs : ∀ (s : State) regs, P { s with regs } = P s)
    (hsqs : ∀ (s : State) sqs, P { s with sqs } = P s) (hcqs : ∀ (s : State) cqs, P { s with cqs } = P s) (s : State) (f : Nat) :
    P (s.ringsGone f) = P s := by
  have hring (s : State) (cq : Bool) (r : Nat) : P (s.setRing f cq r 0 0) = P s := by
    rw [(setRing_onlyRegs s f cq r 0 0).1]
    exact hregs ..
  refine (each_keeps (s.sqsGone f) P _ (fun s r => (hcqs _ _).trans (hring s true r)) _).trans ?_
  exact each_keeps s P _ (fun s r => (hsqs _ _).trans (hring s false r)) _

theorem dropRings_keeps {β : Type} (P : State → β) (hregs : ∀ (s : State) regs, P { s with regs } = P s)
    (hsqs : ∀ (s : State) sqs, P { s with sqs } = P s) (hcqs : ∀ (s : State) cqs, P { s with cqs } = P s)
    (hfns : ∀ (s : State) fns, P { s with fns } = P s) (s : State) (f : Nat) : P (s.dropRings f) = P s := by
  rw [dropRings_eq]
  exact (each_keeps _ P _ (fun s o => hregs _ _) _).trans ((hfns _ _).trans (ringsGone_keeps P hregs hsqs hcqs s f))

theorem dropRings_fnAt (s : State) (f : Nat) : (s.dropRings f).fnAt f =
    { s.fnAt f with d3hot := false, fetching := [], msix := [], msixOn := false, msixMask := false, vectors := []
                    epoch := (s.fnAt f).epoch + 1 } := by
  rw [dropRings_eq]
  refine (each_keeps (β := FnState) _ (fun t => t.fnAt f) (fun s o => s.wr (pageReg f o) 0) (fun s o => rfl) _).trans ?_
  exact fnAt_setFn_same ..

/-- Registers that are neither of rings, nor of the page, nor their count are as before. -/
theorem dropRings_rd (s : State) (f : Nat) {k : Nat} (h : ∀ cq r, k ≠ ringKey f cq r 0x10) (h' : k ≠ hifReg Reg.HIF_RINGS)
    (hp : ∀ o, o < 0x1000 → k ≠ pageReg f o) : (s.dropRings f).rd k = s.rd k := by
  have hring (s : State) (cq : Bool) (r : Nat) : (s.setRing f cq r 0 0).rd k = s.rd k := setRing_rd_ne _ _ _ _ _ _ (h cq r) h'
  have hlost : ∀ o ∈ pageLost, o < 0x1000 := by decide
  have hpages (u : State) : (u.each pageLost fun s o => s.wr (pageReg f o) 0).rd k = u.rd k :=
    List.foldlRecOn (motive := fun t : State => t.rd k = u.rd k) _ _ rfl fun t ht o ho =>
      (rd_wr_ne t 0 (hp o (hlost o ho))).trans ht
  rw [dropRings_eq, hpages]
  refine (each_keeps (s.sqsGone f) (fun t => t.rd k) (fun s r => (s.setRing f true r 0 0).setCq f r CplRing.init)
    (fun s r => hring s true r) _).trans ?_
  exact each_keeps s (fun t => t.rd k) (fun s r => (s.setRing f false r 0 0).setSq f r SubRing.init)
    (fun s r => hring s false r) _

/-- The partition of a function follows from the control sets. -/
theorem partOfFn_congr (hset : ∀ k, 0x60000000 ≤ k → t.rd k = s.rd k)
    (hctl : t.rd (regKey .ctl Reg.CTL_STATUS) = s.rd (regKey .ctl Reg.CTL_STATUS)) (hswap : t.swap = s.swap) (f : Nat) :
    t.partOfFn f = s.partOfFn f := by
  have hact : t.activeSet = s.activeSet := fld_of_rd hctl 0 0
  have hdom : t.domainSet 16 = s.domainSet 16 := by
    rw [State.domainSet, hswap, hact, State.domainSet]
  have hpart (p : Nat) : t.ringPart p = s.ringPart p := by
    rw [State.ringPart, State.partFor, hdom, State.ringPart, State.partFor]
    obtain ⟨k, hk⟩ : ∃ k, setKey (s.domainSet 16) (0x200 + 32 * p) = k := ⟨_, rfl⟩
    have hge : 0x60000000 ≤ k := by
      rw [← hk]
      simp only [setKey]
      omega
    rw [State.partIn, State.partIn]
    rw [hk, rd64_of_rd (hset k hge) (hset (k + 4) (by omega)), rbit_of_rd (hset (k + 8) (by omega)),
      fld_of_rd (hset (k + 8) (by omega)), rd64_of_rd (hset (k + 0x10) (by omega)) (hset (k + 0x10 + 4) (by omega)),
      rd64_of_rd (hset (k + 0x18) (by omega)) (hset (k + 0x18 + 4) (by omega))]
  rw [State.partOfFn, State.partOfFn]
  exact List.find?_congr fun p _ => by rw [hpart]

theorem ctl_ne_ringKey {o : Nat} (h : o < 0x1000) (f : Nat) (cq : Bool) (r o' : Nat) : regKey .ctl o ≠ ringKey f cq r o' := by
  simp only [regKey, blockBase, ringKey]
  omega

theorem dropRings_ctl (s : State) (f : Nat) {o : Nat} (h : o < 0x1000) :
    (s.dropRings f).rd (regKey .ctl o) = s.rd (regKey .ctl o) :=
  dropRings_rd s f (fun cq r => ctl_ne_ringKey h _ _ _ _) (by simp only [hifReg, regKey, blockBase, Reg.HIF_RINGS]; omega)
    fun o' _ => ctl_ne_pageReg h _ _

theorem dropRings_partOfFn (s : State) (f f' : Nat) : (s.dropRings f).partOfFn f' = s.partOfFn f' := by
  refine partOfFn_congr (fun k hk => dropRings_rd s f (fun cq r => ?_) ?_ fun o ho => ?_) (dropRings_ctl s f (by decide))
    (dropRings_keeps State.swap (fun _ _ => rfl) (fun _ _ => rfl) (fun _ _ => rfl) (fun _ _ => rfl) s f) f'
  · have hcq : (if cq then 1 else 0) ≤ 1 := by cases cq <;> decide
    simp only [ringKey]
    omega
  · simp only [hifReg, regKey, blockBase, Reg.HIF_RINGS]
    omega
  · simp only [pageReg, regKey, blockBase]
    omega

/-! ### SR-IOV (R316) -/

theorem enableVfs_shows (s : State) (f n : Nat) : (s.enableVfs f n).out = s.out ∧ (s.enableVfs f n).mem = s.mem ∧
    ((s.enableVfs f n).fnAt f).vfs = min n (if s.rbit (hifReg Reg.HIF_STATUS) 28 then 31 else 63) ∧
    ∀ i, min n (if s.rbit (hifReg Reg.HIF_STATUS) 28 then 31 else 63) ≤ i → i < (s.fnAt f).vfs → ∀ r ∈ s.sqsOf (f + i + 1),
      (s.enableVfs f n).ringEnabled (f + i + 1) false r = false := by
  rw [State.enableVfs]
  dsimp only
  generalize min n (if s.rbit (hifReg Reg.HIF_STATUS) 28 then 31 else 63) = k
  obtain ⟨js, hjs⟩ : ∃ js, (List.range (s.fnAt f).vfs).filter (fun i => decide (k ≤ i)) = js := ⟨_, rfl⟩
  rw [hjs]
  refine ⟨?_, ?_, congrArg FnState.vfs (fnAt_setFn_same ..), fun i hk hi r hr => ?_⟩
  · exact each_keeps s State.out _ (fun s i => dropRings_keeps State.out (fun _ _ => rfl) (fun _ _ => rfl) (fun _ _ => rfl)
      (fun _ _ => rfl) s (f + i + 1)) _
  · exact each_keeps s State.mem _ (fun s i => dropRings_keeps State.mem (fun _ _ => rfl) (fun _ _ => rfl) (fun _ _ => rfl)
      (fun _ _ => rfl) s (f + i + 1)) _
  · have hin : i ∈ js := hjs ▸ List.mem_filter.2 ⟨List.mem_range.2 hi, by simpa using hk⟩
    show (s.each js fun s i => s.dropRings (f + i + 1)).ringEnabled (f + i + 1) false r = false
    clear hjs hk hi
    induction js generalizing s with
    | nil => cases hin
    | cons j js ih =>
      rw [each_cons]
      obtain rfl | hin := List.mem_cons.1 hin
      · exact (RingsGo.each _ js fun s j _ => dropRings_ringsGo s (f + j + 1)).disabled _ _ _
          ((dropRings_disabled s (f + i + 1)).1 r hr)
      · exact ih _ ((dropRings_ringsGo s (f + j + 1)).sqs _ _ hr) hin

theorem configure_virtualFunctions (s : State) {f : Func} (n : Nat) : (s.configure f (.virtualFunctions n)).out = s.out ∧
    (s.configure f (.virtualFunctions n)).mem = s.mem ∧ (s.physical f = true →
      ((s.configure f (.virtualFunctions n)).fnAt f).vfs = min n (if s.rbit (hifReg Reg.HIF_STATUS) 28 then 31 else 63) ∧
      ∀ i, min n (if s.rbit (hifReg Reg.HIF_STATUS) 28 then 31 else 63) ≤ i → i < (s.fnAt f).vfs → ∀ r ∈ s.sqsOf (f + i + 1),
        (s.configure f (.virtualFunctions n)).ringEnabled (f + i + 1) false r = false) := by
  rw [State.configure]
  split
  · obtain ⟨hout, hmem, hvfs⟩ := enableVfs_shows s f n
    exact ⟨hout, hmem, fun _ => hvfs⟩
  · next h => exact ⟨rfl, rfl, fun hp => absurd hp h⟩

/-! ### Function Level Reset and power states (R320, R321) -/

theorem functionLevelReset_shows {f : Func} (s : State) (hu : s.fnUp f = true) (hr : s.isReady = true)
    (hl : s.fnLive f = true) : (s.partOfFn f = none → exec (.functionLevelReset f) s = .next (s.dropRings f)) ∧
    ∀ p, s.partOfFn f = some p → exec (.functionLevelReset f) s =
      .next (if s.rbit (regKey .ctl Reg.CTL_PART_RESETTING) p then s.dropRings f else (s.dropRings f).resetPartition p) := by
  have he : exec (.functionLevelReset f) s = execFunctionLevelReset f s := rfl
  rw [execFunctionLevelReset, if_neg (by simp [hu, hr, hl])] at he
  dsimp only at he
  rw [dropRings_partOfFn] at he
  refine ⟨fun hp => ?_, fun p hp => ?_⟩
  · rw [he, hp]
  · rw [he, hp, ← rbit_of_rd (dropRings_ctl s f (o := Reg.CTL_PART_RESETTING) (by decide))]

/-- With nothing held, a return from D3hot sends what messages it held and starts no fetch. -/
theorem d0Return_shows {f : Func} (s : State) (hu : s.fnUp f = true) (hr : s.isReady = true) (hd : (s.fnAt f).d3hot = true)
    (hk : s.rd (pageReg f Reg.HIF_KICK) = 0) (hw : ∀ q ∈ s.cqsOf f, (s.cqAt f q).waiting = []) :
    exec (.d0Return f) s = .next ((s.setFn f { s.fnAt f with d3hot := false }).sendPending f) := by
  obtain ⟨u, hu'⟩ : ∃ u, s.setFn f { s.fnAt f with d3hot := false } = u := ⟨_, rfl⟩
  have hcqs : u.cqs = s.cqs := hu' ▸ rfl
  have hzero : (u.cqsOf f).foldl (fun n q => n + (u.cqAt f q).waiting.length) 0 = 0 := by
    refine List.foldlRecOn (motive := (· = 0)) _ _ rfl fun n hn q hq => ?_
    rw [State.cqsOf, hcqs, ← State.cqsOf] at hq
    rw [hn, State.cqAt, hcqs, ← State.cqAt, hw q hq]
    rfl
  have hkick : (u.sendPending f).rd (pageReg f Reg.HIF_KICK) = 0 := by
    rw [rd_congr (sendPending_shows u f).1.regs, ← hu']
    exact hk
  show execD0Return f s = _
  rw [execD0Return, if_neg (by simp [hu, hr, hd])]
  dsimp only
  rw [hu', hzero, State.writeHeld, fetchGroups_of_no_kick hkick]

end Sys2Proof.Machine
end

section
set_option Elab.async false
/-! PROOF. Links, BAR4, completions and interrupts of functions (O55). -/

namespace Sys2Proof.Machine

variable {s t u : State}

/-! ### Links (R315) -/

theorem linkDown_shows (s : State) (l : Fin 2) : (s.linkDown l).linkUp l = false ∧
    (s.linkDown l).linkUp (1 - l) = s.linkUp (1 - l) ∧ OnlyRegs s (s.linkDown l) [hifReg Reg.HIF_LINK_STATUS] := by
  refine ⟨?_, ?_, .wr _ _ _ (by simp [hifReg])⟩
  · rw [State.linkUp, State.linkDown, rbit_wrFld _ _ _ _ _ _ (by omega) (by omega), if_pos (by omega), Nat.zero_testBit]
  · rw [State.linkUp, State.linkDown, rbit_wrFld _ _ _ _ _ _ (by omega) (by omega), if_neg (by omega), ← State.linkUp]

/-! ### BAR4 (R318) -/

/-- Every request of a BAR4 access stays within its 256-byte granule. -/
theorem bar4Plan_granules (f net : Nat) (write : Bool) (m : MemFind) (fuel off n : Nat) (s : State) :
    ∀ q ∈ (s.bar4Plan f net write m fuel off n).1.2, q.1 % 256 + q.2 ≤ 256 := by
  induction fuel generalizing off n s with
  | zero => simp [State.bar4Plan]
  | succ fuel ih =>
    rw [State.bar4Plan]
    dsimp only
    split
    · simp
    · split
      · simp
      · next A _ =>
        split
        · simp
        · intro q hq
          obtain rfl | hq := List.mem_cons.1 hq
          · have := Nat.min_le_right n (256 - A % 256)
            show A % 256 + min n (256 - A % 256) ≤ 256
            omega
          · exact ih _ _ _ q hq

/-- A BAR4 access that fails is counted, with no byte of memory and nothing sent changed. -/
theorem bar4Fail_shows (s : State) (f off status : Nat) (write : Bool) : (s.bar4Fail f off status write).mem = s.mem ∧
    (s.bar4Fail f off status write).out = s.out ∧
    (s.bar4Fail f off status write).rd (hifReg Reg.HIF_BAR4_ERR_COUNT) = s.rd (hifReg Reg.HIF_BAR4_ERR_COUNT) + 1 := by
  unfold State.bar4Fail
  extract_lets first u v w
  have hu : OnlyRegs s u [hifReg Reg.HIF_BAR4_ERR_COUNT, hifReg Reg.HIF_ERR_FLAGS] :=
    (OnlyRegs.wr s _ _ (by simp)).trans (.wr _ _ _ (by simp))
  have hcount : u.rd (hifReg Reg.HIF_BAR4_ERR_COUNT) = s.rd (hifReg Reg.HIF_BAR4_ERR_COUNT) + 1 :=
    (rd_setFlag_ne _ _ (hifReg_ne (by decide))).trans (rd_bump_one ..)
  have hv : OnlyRegs u v [pageReg f Reg.HIF_FN_ERR_FLAGS] := .wr _ _ _ (by simp)
  have hw : OnlyRegs v w [hifReg Reg.HIF_BAR4_ERR_ADDR, hifReg Reg.HIF_BAR4_ERR_ADDR + 4, hifReg Reg.HIF_BAR4_ERR_INFO] :=
    .ite (((OnlyRegs.wr v _ _ (by simp)).trans (.wr _ _ _ (by simp))).trans (.wr _ _ _ (by simp))) (.refl _ _)
  refine ⟨?_, ?_, ?_⟩
  · exact (event_mem ..).trans (hw.mem_eq.trans (hv.mem_eq.trans hu.mem_eq))
  · refine (event_keeps State.out (fun _ _ => rfl) (fun _ _ _ => rfl) ..).trans ?_
    exact ((congrArg State.out hw.1).trans rfl).trans (((congrArg State.out hv.1).trans rfl).trans
      ((congrArg State.out hu.1).trans rfl))
  · rw [event_rd _ _ _ _ _ (pageReg_ne_hifReg _ _ (by decide)).symm (pageReg_ne_hifReg _ _ (by decide)).symm,
      hw.2 _ (by decide), hv.2 _ (by simpa using (pageReg_ne_hifReg f _ (by decide)).symm), hcount]

section
variable {f : Func} {off net : Nat} {m : MemFind}

theorem logAccess_keeps (s : State) (kind : Nat) (bar2 : Bool) (off : Nat) :
    (s.logAccess kind bar2 off).mem = s.mem ∧ (s.logAccess kind bar2 off).out = s.out := by
  have honly : ∃ regs, s.logAccess kind bar2 off = { s with regs } := by
    unfold State.logAccess
    dsimp only
    split
    · exact ⟨_, rfl⟩
    · exact ⟨_, rfl⟩
  obtain ⟨regs, h⟩ := honly
  rw [h]
  exact ⟨rfl, rfl⟩

theorem bar4Read_in_d3hot (hr : s.fnReach f = true) (hd : (s.fnAt f).d3hot = true) {n : Nat} (h : off + n ≤ s.bar4Bytes f) :
    exec (.bar4Read f off n net m) s = .next ((s.logAccess 0 false off).emit (.unsupported f)) := by
  show execBar4Read f off n net m s = _
  rw [execBar4Read, if_neg (by simp [hr, h]), if_pos hd]

theorem bar4Write_in_d3hot (hr : s.fnReach f = true) (hd : (s.fnAt f).d3hot = true) {bs : List Byte}
    (h : off + bs.length ≤ s.bar4Bytes f) : exec (.bar4Write f off ⟨bs, false⟩ net m) s = .next (s.logAccess 0 false off) := by
  show execBar4Write f off ⟨bs, false⟩ net m s = _
  rw [execBar4Write, if_neg (by simp [hr, h]), if_neg (by simp), if_pos hd]

theorem bar4Write_atomic (hr : s.fnReach f = true) (hd : (s.fnAt f).d3hot = false) {bs : List Byte}
    (h : off + bs.length ≤ s.bar4Bytes f) : exec (.bar4Write f off ⟨bs, true⟩ net m) s = .next (s.emit (.unsupported f)) := by
  show execBar4Write f off ⟨bs, true⟩ net m s = _
  rw [execBar4Write, if_neg (by simp [hr, h]), if_pos rfl, if_neg (by simp [hd])]

/-- A read returns what its parts hold; where one of them leads nowhere or fails, ones. -/
theorem bar4Read_planned (hr : s.fnReach f = true) (hd : (s.fnAt f).d3hot = false) {n : Nat} (h : off + n ≤ s.bar4Bytes f)
    {o : Option Nat} {ps : List (Nat × Nat)} {u : State} (hp : s.bar4Plan f net false m (n / 256 + 2) off n = ((o, ps), u)) :
    (∀ st, o = some st → exec (.bar4Read f off n net m) s =
      .next ((u.bar4Fail f off st false).emit (.bar4Data f (List.replicate n 0xFF)))) ∧
    (o = none → ∀ r w, u.bar4Get ps m = (r, w) → exec (.bar4Read f off n net m) s =
      .next (if r.status = 0 then w.emit (.bar4Data f r.data)
        else (w.bar4Fail f off r.status false).emit (.bar4Data f (List.replicate n 0xFF)))) := by
  have he : exec (.bar4Read f off n net m) s = execBar4Read f off n net m s := rfl
  rw [execBar4Read, if_neg (by simp [hr, h]), if_neg (by simp [hd])] at he
  dsimp only at he
  rw [hp] at he
  refine ⟨fun st ho => ?_, fun ho r w hg => ?_⟩
  · rw [he, ho]
  · rw [he, ho]
    dsimp only
    rw [hg]

theorem bar4Write_planned (hr : s.fnReach f = true) (hd : (s.fnAt f).d3hot = false) {bs : List Byte}
    (h : off + bs.length ≤ s.bar4Bytes f) {o : Option Nat} {ps : List (Nat × Nat)} {u : State}
    (hp : s.bar4Plan f net true m (bs.length / 256 + 2) off bs.length = ((o, ps), u)) :
    (∀ st, o = some st → exec (.bar4Write f off ⟨bs, false⟩ net m) s = .next (u.bar4Fail f off st true)) ∧
    (o = none → ∀ r w, u.bar4Put ps bs m = (r, w) → exec (.bar4Write f off ⟨bs, false⟩ net m) s =
      .next (if r.status = 0 then w else w.bar4Fail f off r.status true)) := by
  have he : exec (.bar4Write f off ⟨bs, false⟩ net m) s = execBar4Write f off ⟨bs, false⟩ net m s := rfl
  rw [execBar4Write, if_neg (by simp [hr, h]), if_neg (by simp), if_neg (by simp [hd])] at he
  dsimp only at he
  rw [hp] at he
  refine ⟨fun st ho => ?_, fun ho r w hg => ?_⟩
  · rw [he, ho]
  · rw [he, ho]
    dsimp only
    rw [hg]

end

/-! ### Completions (R329, R333) -/

theorem cqTrigger_shows (s : State) (f q : Nat) (now : Bool) : (s.cqTrigger f q now).regs = s.regs ∧
    (s.cqTrigger f q now).mem = s.mem ∧ (s.cqTrigger f q now).twin = s.twin ∧
    ((s.cqTrigger f q now).cqAt f q).waiting = (s.cqAt f q).waiting ∧ s.out <+: (s.cqTrigger f q now).out := by
  rw [State.cqTrigger]
  split
  · obtain ⟨v, hv⟩ : ∃ v, s.setCq f q { s.cqAt f q with since := 0 } = v := ⟨_, rfl⟩
    have hw : (v.cqAt f q).waiting = (s.cqAt f q).waiting := by
      rw [← hv, cqAt_setCq_same]
    have hout : v.out = s.out := hv ▸ rfl
    have hregs : v.regs = s.regs := hv ▸ rfl
    have hmem : v.mem = s.mem := hv ▸ rfl
    have htwin : v.twin = s.twin := hv ▸ rfl
    have hm := (message_shows v f (s.fld (ringKey f true q 8) 10 0)).1
    rw [hv]
    refine ⟨hm.regs.trans hregs, hm.mem.trans hmem, hm.twin.trans htwin, ?_, ?_⟩
    · rw [State.cqAt, hm.cqs, ← State.cqAt, hw]
    · rw [← hout]
      unfold State.message
      dsimp only
      split
      · exact List.prefix_rfl
      · split
        · exact List.prefix_rfl
        · exact List.prefix_append ..
  · exact ⟨rfl, rfl, rfl, rfl, List.prefix_rfl⟩

/-- An interrupt delay that ends sends the ring's vector, unless something holds it. -/
theorem cqTrigger_sends (s : State) (f q : Nat) : ((s.cqTrigger f q true).cqAt f q).since = 0 ∧
    ((s.fnAt f).msixOn = true → (s.fnAt f).msixMask = false → (s.fnAt f).d3hot = false →
      ((s.fnAt f).vector (s.fld (ringKey f true q 8) 10 0)).masked = false →
      (s.cqTrigger f q true).out = s.out ++ [.msix f (s.fld (ringKey f true q 8) 10 0)
        ((s.fnAt f).vector (s.fld (ringKey f true q 8) 10 0)).addr ((s.fnAt f).vector (s.fld (ringKey f true q 8) 10 0)).data]) := by
  have he : s.cqTrigger f q true =
      (s.setCq f q { s.cqAt f q with since := 0 }).message f (s.fld (ringKey f true q 8) 10 0) := by
    rw [State.cqTrigger, Bool.true_or, if_pos rfl]
  obtain ⟨hframe, -, hout⟩ := message_shows (s.setCq f q { s.cqAt f q with since := 0 }) f (s.fld (ringKey f true q 8) 10 0)
  rw [he]
  refine ⟨?_, fun hon hmask hd hv => ?_⟩
  · rw [State.cqAt, hframe.cqs, ← State.cqAt, cqAt_setCq_same]
  · refine (hout hon).trans ?_
    show s.out ++ (if ((s.fnAt f).d3hot || (s.fnAt f).msixMask) = true then [] else (s.fnAt f).sent f _) = _
    simp [hmask, hd, FnState.sent, hv]

theorem each_hostWrite (s : State) (f : Nat) (ws : List (Nat × List Byte)) :
    s.each ws (fun s w => s.emit (.hostWrite f w.1 w.2)) =
      { s with out := s.out ++ ws.map (fun w => Output.hostWrite f w.1 w.2) } := by
  induction ws generalizing s with
  | nil => simp
  | cons w ws ih =>
    rw [each_cons, ih]
    simp [State.emit]

/-- The first waiting completion of a ring has been written: `out` has been sent, and `rest` waits. -/
structure CplWritten (s : State) (f q : Nat) (rest : List Cpl) (out : List Output) (u : State) : Prop where
  waiting : (u.cqAt f q).waiting = rest
  count : u.rd (ringKey f true q 0x14) = s.rd (ringKey f true q 0x14) + 1
  mem : u.mem = s.mem
  twin : u.twin = s.twin
  out : out <+: u.out

namespace CplWritten

variable {f q : Nat} {rest : List Cpl} {out : List Output}

theorem onlyRegs {ks : List Nat} (h : CplWritten s f q rest out t) (k : OnlyRegs t u ks)
    (hk : ringKey f true q 0x14 ∉ ks) : CplWritten s f q rest out u := by
  have hcqs : u.cqs = t.cqs := (congrArg State.cqs k.1).trans rfl
  refine ⟨?_, (k.2 _ hk).trans h.count, k.mem_eq.trans h.mem, ((congrArg State.twin k.1).trans rfl).trans h.twin, ?_⟩
  · rw [State.cqAt, hcqs, ← State.cqAt, h.waiting]
  · rw [show u.out = t.out from (congrArg State.out k.1).trans rfl]
    exact h.out

theorem cqTrigger (h : CplWritten s f q rest out t) (now : Bool) : CplWritten s f q rest out (t.cqTrigger f q now) := by
  obtain ⟨hregs, hmem, htwin, hwait, hout⟩ := cqTrigger_shows t f q now
  exact ⟨hwait.trans h.waiting, (rd_congr hregs _).trans h.count, hmem.trans h.mem, htwin.trans h.twin, h.out.trans hout⟩

theorem setSq (h : CplWritten s f q rest out t) (r : Nat) (v : SubRing) : CplWritten s f q rest out (t.setSq f r v) :=
  ⟨h.waiting, h.count, h.mem, h.twin, h.out⟩

end CplWritten

theorem wrMax_onlyRegs (s : State) (k v : Nat) : OnlyRegs s (s.wrMax k v) [k] := .ite (.wr _ _ _ (by simp)) (.refl _ _)

/-- What the first waiting completion of a ring leaves when it is written: the writes to the host go out in order, and the
ring's count moves on. -/
theorem writeCpl_shows (s : State) (f q : Nat) (c : Cpl) (rest : List Cpl) (ns : Nat) : ∃ u : State,
    CplWritten s f q rest (s.out ++ (cplWrites c (s.rd64 (ringKey f true q 0) +
      s.rdN (ringKey f true q 0x14) % 2 ^ s.ringLog2 f true q * 32) (s.cplBytes f c (s.rdN (ringKey f true q 0x14))
        (s.ringLog2 f true q))).map (fun w => Output.hostWrite f w.1 w.2)) u ∧
    s.writeCpl f q c rest ns = if c.event || c.away then u else u.mirrorDone f c.sq c.seq := by
  obtain ⟨t, ht⟩ : ∃ t, s.writeCpl f q c rest ns = t := ⟨_, rfl⟩
  have he := ht
  unfold State.writeCpl at he
  extract_lets k n x ws u₁ u₂ v₁ u₃ u₄ y at he
  rw [ht]
  have h₁ : u₁ = { s with out := s.out ++ ws.map (fun w => Output.hostWrite f w.1 w.2) } := each_hostWrite ..
  have hcount : u₂.rd (ringKey f true q 0x14) = s.rd (ringKey f true q 0x14) + 1 := by
    refine (rd_wr_same u₁ _ _).trans (BitVec.eq_of_toNat_eq ?_)
    simp only [n, State.rdN, BitVec.toNat_ofNat, BitVec.toNat_add]
    rfl
  have h₂ : CplWritten s f q rest (s.out ++ ws.map (fun w => Output.hostWrite f w.1 w.2)) u₂ := by
    refine ⟨congrArg CplRing.waiting (cqAt_setCq_same ..), hcount, ?_, ?_, ?_⟩
    · exact (congrArg State.mem h₁).trans rfl
    · exact (congrArg State.twin h₁).trans rfl
    · rw [show u₂.out = u₁.out from rfl, h₁]
  have h₃ : CplWritten s f q rest (s.out ++ ws.map (fun w => Output.hostWrite f w.1 w.2)) u₃ := by
    have hv := h₂.onlyRegs (wrMax_onlyRegs u₂ (hifReg Reg.HIF_RIS_CPL_MAX_NS) ns)
      (by simpa using ringKey_ne_hifReg f true q 0x14 (o' := Reg.HIF_RIS_CPL_MAX_NS) (by decide))
    have hf : CplWritten s f q rest (s.out ++ ws.map (fun w => Output.hostWrite f w.1 w.2))
        (v₁.setFlag (hifReg Reg.HIF_ERR_FLAGS) 4) := hv.onlyRegs (ks := [hifReg Reg.HIF_ERR_FLAGS]) (.wr _ _ _ (by simp))
      (by simpa using ringKey_ne_hifReg f true q 0x14 (o' := Reg.HIF_ERR_FLAGS) (by decide))
    show CplWritten _ _ _ _ _ (if _ then _ else _)
    split
    · split
      exacts [hf, hv]
    · exact h₂
  by_cases hc : (c.event || c.away) = true
  · rw [if_pos hc] at he
    exact ⟨u₄, h₃.cqTrigger _, by rw [if_pos hc, he]⟩
  · rw [if_neg hc] at he
    exact ⟨_, (h₃.cqTrigger _).setSq c.sq _, by rw [if_neg hc, he]⟩

/-- A completion whose write meets a host error goes, and the function is told. -/
theorem completionDiscarded_shows (s : State) (f q : Nat) (v : CplRing) :
    let t := ((s.setCq f q v).setFlag (pageReg f Reg.HIF_FN_ERR_FLAGS) 2).event f 6 (2 ^ 31 + q) 0
    v.waiting <+: (t.cqAt f q).waiting ∧ t.out = s.out ∧ t.rd (ringKey f true q 0x14) = s.rd (ringKey f true q 0x14) ∧
      t.rbit (pageReg f Reg.HIF_FN_ERR_FLAGS) 2 = true := by
  obtain ⟨u, hu⟩ : ∃ u, (s.setCq f q v).setFlag (pageReg f Reg.HIF_FN_ERR_FLAGS) 2 = u := ⟨_, rfl⟩
  have hwait : (u.cqAt f q).waiting = v.waiting := by
    rw [← hu]
    exact congrArg CplRing.waiting (cqAt_setCq_same s f q v)
  have hout : u.out = s.out := hu ▸ rfl
  have hrd : u.rd (ringKey f true q 0x14) = s.rd (ringKey f true q 0x14) :=
    hu ▸ rd_setFlag_ne (s.setCq f q v) _ (ringKey_ne_pageReg _ _ _ _ _ (by decide))
  have hflag : u.rbit (pageReg f Reg.HIF_FN_ERR_FLAGS) 2 = true := hu ▸ rbit_setFlag_same _ _ _ (by decide)
  rw [hu]
  refine ⟨hwait ▸ event_waiting .., ?_, ?_, event_flags _ _ _ _ _ hflag⟩
  · exact (event_keeps State.out (fun _ _ => rfl) (fun _ _ _ => rfl) ..).trans hout
  · exact (event_rd _ _ _ _ _ (ringKey_ne_pageReg _ _ _ _ _ (by decide)) (ringKey_ne_pageReg _ _ _ _ _ (by decide))).trans hrd

/-- A completion that can be written: its ring is enabled with room, and its function is up. -/
theorem completionWrite_ready {f : Func} {q : Fin 1024} (he : s.ringEnabled f true q = true) {c : Cpl} {rest : List Cpl}
    (hw : (s.cqAt f q).waiting = c :: rest) (hfull : s.cqFull f q = false) (hd : (s.fnAt f).d3hot = false)
    (hu : s.fnUp f = true) (err : Bool) (ns : Nat) : exec (.completionWrite f q err ns 0) s =
      if err then .next (((s.setCq f q { s.cqAt f q with waiting := rest }).setFlag (pageReg f Reg.HIF_FN_ERR_FLAGS) 2).event
        f 6 (2 ^ 31 + q) 0)
      else .next (s.writeCpl f q c rest (ns % 2 ^ 32)) := by
  show execCompletionWrite f q err ns 0 s = _
  rw [execCompletionWrite]
  dsimp only
  rw [hw]
  dsimp only
  rw [if_neg (by simp [he, hfull, hd, hu])]
  rfl

end Sys2Proof.Machine
end

section
set_option Elab.async false
/-! PROOF. Links and functions together (O55). -/

namespace Sys2Proof.Machine

variable {s t u : State}

/-- Settles O55: the rings of a function that go by what each step on the way leaves, messages by an induction over those
held, and a BAR4 access by the plan of its parts. -/
theorem linkAndFunctionCommandsComplete : Obligations.LinkAndFunctionCommandsComplete := by
  unfold Obligations.LinkAndFunctionCommandsComplete
  refine ⟨fun l s hup => ⟨_, if_pos hup, linkDown_shows s l⟩, fun f s => ⟨fun hu => ⟨fun hr hrec q =>
    (configRequest_early hu hr q).1 hrec, fun hr hrec q => (configRequest_early hu hr q).2 hrec, fun hr hl q =>
    configRequest_absent hu hr hl q, fun hr hl => ⟨configRequest_ready hu hr hl .other, fun n => ?_, fun virt n => ?_,
    fun on mask => ?_, fun v addr data masked => ?_, fun hd => ?_, fun hd hk hw => ?_, ?_⟩⟩, fun hr off net m =>
    ⟨fun bs h hd => bar4Write_atomic hr hd h, fun hd => ⟨fun n h => ?_, fun bs h => ?_⟩⟩, fun hr hd off n net m => ⟨fun write q hq =>
    bar4Plan_granules _ _ _ _ _ _ _ _ q hq, fun h ps u => ⟨fun hp r w hg => ⟨fun hs => ?_, fun hs => ?_⟩, fun st hp => ?_⟩,
    fun bs h ps u => ⟨fun hp r w hg => ⟨fun hs => ?_, fun hs => ?_⟩, fun st hp => ?_⟩⟩⟩, fun f q s he =>
    ⟨fun c rest ns hw hfull hd hu => ⟨?_, ?_⟩, fun hdelay hsince => ?_⟩⟩
  · obtain ⟨hout, hmem, hvfs⟩ := configure_virtualFunctions s (f := f) n
    refine ⟨_, configRequest_ready hu hr hl _, ?_, hmem, hvfs⟩
    simp [hout]
  · obtain ⟨hout, hbytes, hframe⟩ := configure_bar4 (s := s) (f := f) virt n
    refine ⟨_, configRequest_ready hu hr hl _, ?_, hbytes, hframe.emit _⟩
    simp [hout]
  · obtain ⟨hon, hmask, hout, hframe⟩ := configure_msix (s := s) (f := f) on mask
    refine ⟨_, configRequest_ready hu hr hl _, hon, hmask, ?_, hframe.emit _⟩
    rw [emit_out, hout]
    rfl
  · obtain ⟨hv, hframe⟩ := configure_vector (s := s) (f := f) v addr data masked
    exact ⟨_, configRequest_ready hu hr hl _, hv, hframe.emit _⟩
  · show execD3hotEntry f s = _
    rw [execD3hotEntry, if_neg (by simp [hu, hr, hl, hd])]
  · obtain ⟨hframe, ⟨held, hx⟩, hout⟩ := sendPending_shows (s.setFn f { s.fnAt f with d3hot := false }) f
    rw [fnAt_setFn_same] at hx hout
    refine ⟨_, d0Return_shows s hu hr hd hk hw, congrArg FnState.d3hot hx, hout.trans ?_, ((FnsOut.refl s).setFn _ _).trans hframe⟩
    rw [Bool.not_false, Bool.and_true]
    rfl
  · obtain ⟨hnone, hsome⟩ := functionLevelReset_shows s hu hr hl
    obtain ⟨hsq, hcq⟩ := dropRings_disabled s f
    have hfn := dropRings_fnAt s f
    have hkeep : Completes (exec (.functionLevelReset f) s) fun t => (s.partOfFn f = none → t = s.dropRings f) ∧
        ∀ p, s.partOfFn f = some p → s.rbit (regKey .ctl Reg.CTL_PART_RESETTING) p = false →
          t = (s.dropRings f).resetPartition p := by
      cases hp : s.partOfFn f with
      | none => exact ⟨_, hnone hp, fun _ => rfl, fun p h => nomatch h⟩
      | some p =>
        refine ⟨_, hsome p hp, nofun, fun p' h hreset => ?_⟩
        obtain rfl := Option.some.inj h
        exact if_neg (by simp [hreset])
    obtain ⟨t, he, ht⟩ := hkeep
    exact ⟨t, he, s.dropRings f, hsq, hcq, congrArg FnState.epoch hfn, congrArg FnState.d3hot hfn, congrArg FnState.fetching hfn,
      dropRings_keeps State.mem (fun _ _ => rfl) (fun _ _ => rfl) (fun _ _ => rfl) (fun _ _ => rfl) s f,
      dropRings_keeps State.jobs (fun _ _ => rfl) (fun _ _ => rfl) (fun _ _ => rfl) (fun _ _ => rfl) s f, ht⟩
  · obtain ⟨hmem, hout⟩ := logAccess_keeps s 0 false off
    exact ⟨_, bar4Read_in_d3hot hr hd h, by rw [emit_out, hout], hmem⟩
  · obtain ⟨hmem, hout⟩ := logAccess_keeps s 0 false off
    exact ⟨_, bar4Write_in_d3hot hr hd h, hout, hmem⟩
  · rw [(bar4Read_planned hr hd h hp).2 rfl r w hg, if_pos hs]
  · obtain ⟨hmem, hout, hcount⟩ := bar4Fail_shows w f off r.status false
    refine ⟨_, ((bar4Read_planned hr hd h hp).2 rfl r w hg).trans (congrArg Host.Outcome.next (if_neg hs)), ⟨hmem, hcount⟩, ?_⟩
    rw [emit_out, hout]
  · obtain ⟨hmem, hout, hcount⟩ := bar4Fail_shows u f off st false
    refine ⟨_, (bar4Read_planned hr hd h hp).1 st rfl, ⟨hmem, hcount⟩, ?_⟩
    rw [emit_out, hout]
  · rw [(bar4Write_planned hr hd h hp).2 rfl r w hg, if_pos hs]
  · obtain ⟨hmem, -, hcount⟩ := bar4Fail_shows w f off r.status true
    exact ⟨_, ((bar4Write_planned hr hd h hp).2 rfl r w hg).trans (congrArg Host.Outcome.next (if_neg hs)), hmem, hcount⟩
  · obtain ⟨hmem, -, hcount⟩ := bar4Fail_shows u f off st true
    exact ⟨_, (bar4Write_planned hr hd h hp).1 st rfl, hmem, hcount⟩
  · obtain ⟨u, ⟨hwait, hcount, hmem, htwin, hout⟩, ht⟩ := writeCpl_shows s f q c rest (ns % 2 ^ 32)
    exact ⟨_, (completionWrite_ready he hw hfull hd hu false ns).trans (if_neg Bool.false_ne_true), u, hwait, hcount, hmem, htwin,
      hout, ht⟩
  · exact ⟨_, (completionWrite_ready he hw hfull hd hu true ns).trans (if_pos rfl),
      completionDiscarded_shows s f q { s.cqAt f q with waiting := rest }⟩
  · obtain ⟨hzero, hsend⟩ := cqTrigger_sends s f q
    refine ⟨_, if_neg (by simp [hdelay, hsince, he]), hzero, hsend⟩

end Sys2Proof.Machine
end

section
set_option Elab.async false
/-! SUPPORT. Registers and lanes of a fabric port, and where its bring-up starts (O53, O54). -/

namespace Sys2Proof.Machine

variable {s t u : State} {ks ks' : List Nat}

/-! ### Registers of the lanes' blocks -/

theorem lnkReg_ne {e e' o o' : Nat} (h : o ≠ o') (ho : o < 0x10000) (ho' : o' < 0x10000) : lnkReg e o ≠ lnkReg e' o' := by
  simp only [lnkReg, regKey, blockBase, Fin.val_ofNat]
  omega

theorem lnkPort_ne (p : Nat) {o o' : Nat} (h : o ≠ o') : lnkPort p o ≠ lnkPort p o' := regKey_ne (by omega)

theorem lnkLane_ne (l : Nat) {o o' : Nat} (h : o ≠ o') : lnkLane l o ≠ lnkLane l o' := regKey_ne (by omega)

theorem lnkPort_ne_lnkLane (p l : Nat) {o o' : Nat} (h : o < 0x500) (h' : 0x1000 ≤ o') (h'' : o' < 0x2000) :
    lnkPort p o ≠ lnkLane l o' := lnkReg_ne (by omega) (by omega) (by omega)

theorem lnkReg_ne_lnkPort (e p : Nat) {o o' : Nat} (h : o < 0x400) (h' : 0x400 ≤ o') (h'' : o' < 0x500) :
    lnkReg e o ≠ lnkPort p o' := lnkReg_ne (by omega) (by omega) (by omega)

theorem lnkReg_ne_lnkLane (e l : Nat) {o o' : Nat} (h : o < 0x400) (h' : 0x1000 ≤ o') (h'' : o' < 0x2000) :
    lnkReg e o ≠ lnkLane l o' := lnkReg_ne (by omega) (by omega) (by omega)

/-- Two lanes have no register in common. -/
theorem lnkLane_lane_ne {l l' : Nat} (hl : l < 48) (hl' : l' < 48) (h : l ≠ l') {o o' : Nat} (ho : 0x1000 ≤ o) (ho' : 0x1000 ≤ o')
    (hu : o < 0x1100) (hu' : o' < 0x1100) : lnkLane l o ≠ lnkLane l' o' := by
  simp only [lnkLane, lnkReg, regKey, blockBase, Fin.val_ofNat]
  omega

theorem lnkReg_ne_pageReg (e o f : Nat) {o' : Nat} (h : o < 0x10000) : lnkReg e o ≠ pageReg f o' := by
  simp only [lnkReg, pageReg, regKey, blockBase, Fin.val_ofNat]
  omega

/-- The keys of the four lanes of a port at an offset. -/
def laneKeys (p o : Nat) : List Nat := (List.range 4).map fun i => lnkLane (4 * p + i) o

theorem mem_laneKeys {p o i : Nat} (h : i < 4) : lnkLane (4 * p + i) o ∈ laneKeys p o :=
  List.mem_map.2 ⟨i, List.mem_range.2 h, rfl⟩

theorem lnkPort_notMem_laneKeys (p q : Nat) {o o' : Nat} (h : o < 0x500) (h' : 0x1000 ≤ o') (h'' : o' < 0x2000) :
    lnkPort p o ∉ laneKeys q o' := fun hm => by
  obtain ⟨i, -, hi⟩ := List.mem_map.1 hm
  exact lnkPort_ne_lnkLane p _ h h' h'' hi.symm

theorem lnkReg_notMem_laneKeys (e q : Nat) {o o' : Nat} (h : o < 0x400) (h' : 0x1000 ≤ o') (h'' : o' < 0x2000) :
    lnkReg e o ∉ laneKeys q o' := fun hm => by
  obtain ⟨i, -, hi⟩ := List.mem_map.1 hm
  exact lnkReg_ne_lnkLane e _ h h' h'' hi.symm

theorem OnlyRegs.wrFld (s : State) {k : Nat} (hi lo v : Nat) (h : k ∈ ks) : OnlyRegs s (s.wrFld k hi lo v) ks := .wr _ _ _ h

theorem fld_of_key {k : Nat} (h : t.rd k = s.rd k) (hi lo : Nat) : t.fld k hi lo = s.fld k hi lo := by
  rw [State.fld, State.rdN, h, State.fld, State.rdN]

/-! ### Changes of registers and ports -/

/-- Nothing but ports and registers has changed, and of the registers only those listed. -/
structure LinksOnly (s t : State) (ks : List Nat) : Prop where
  frame : t = { s with regs := t.regs, links := t.links }
  kept : RegsKept s t ks

namespace LinksOnly

theorem refl (s : State) (ks : List Nat) : LinksOnly s s ks := ⟨rfl, fun _ _ => rfl⟩

theorem trans (h : LinksOnly s t ks) (h' : LinksOnly t u ks) : LinksOnly s u ks :=
  ⟨h'.frame.trans (congrArg (fun x : State => { x with regs := u.regs, links := u.links }) h.frame),
    fun k hk => (h'.kept k hk).trans (h.kept k hk)⟩

theorem ofRegs (h : OnlyRegs s t ks) : LinksOnly s t ks := by
  obtain ⟨h₁, h₂⟩ := h
  refine ⟨?_, h₂⟩
  rw [h₁]

theorem setLink (s : State) (p : Nat) (v : LinkPort) (ks : List Nat) : LinksOnly s (s.setLink p v) ks := ⟨rfl, fun _ _ => rfl⟩

theorem mapLane (s : State) (l : Nat) (f : LaneState → LaneState) (ks : List Nat) : LinksOnly s (s.mapLane l f) ks := setLink ..

theorem mono (h : LinksOnly s t ks) (hks : ks ⊆ ks') : LinksOnly s t ks' := ⟨h.frame, fun k hk => h.kept k fun hk' => hk (hks hk')⟩

theorem ite {c : Prop} [Decidable c] (h : LinksOnly s t ks) (h' : LinksOnly s u ks) : LinksOnly s (if c then t else u) ks := by
  split <;> assumption

theorem each {α : Type} {F : State → α → State} {xs : List α} (s : State) (h : ∀ x ∈ xs, ∀ s, LinksOnly s (F s x) ks) :
    LinksOnly s (s.each xs F) ks :=
  List.foldlRecOn (motive := fun t => LinksOnly s t ks) xs F (refl s ks) fun t ht x hx => ht.trans (h x hx t)

theorem mem_eq (h : LinksOnly s t ks) : t.mem = s.mem := (congrArg State.mem h.frame).trans rfl

theorem plan_eq (h : LinksOnly s t ks) : t.plan = s.plan := (congrArg State.plan h.frame).trans rfl

theorem out_eq (h : LinksOnly s t ks) : t.out = s.out := (congrArg State.out h.frame).trans rfl

end LinksOnly

theorem linkAt_of_links (h : t.links = s.links) (p : Nat) : t.linkAt p = s.linkAt p := by rw [State.linkAt, h, State.linkAt]

theorem laneAt_of_links (h : t.links = s.links) (l : Nat) : t.laneAt l = s.laneAt l := by
  rw [State.laneAt, linkAt_of_links h, State.laneAt]

theorem linkAt_setLink_same (s : State) (p : Nat) (v : LinkPort) : (s.setLink p v).linkAt p = v := tget_tput_same ..

theorem OnlyRegs.links_eq (h : OnlyRegs s t ks) : t.links = s.links := (congrArg State.links h.1).trans rfl

theorem portState_of_rd {p : Nat} (h : t.rd (lnkPort p Reg.LNK_P_STATE) = s.rd (lnkPort p Reg.LNK_P_STATE)) :
    t.portState p = s.portState p := fld_of_key h ..

theorem portUp_of_rd {p : Nat} (h : t.rd (lnkPort p Reg.LNK_P_STATE) = s.rd (lnkPort p Reg.LNK_P_STATE)) :
    t.portUp p = s.portUp p := by rw [State.portUp, portState_of_rd h, State.portUp]

theorem portState_setPortState (s : State) (p : Nat) {st : Nat} (h : st < 16) : (s.setPortState p st).portState p = st :=
  (fld_wrFld_same _ _ _ _ _ (by decide) (by decide)).trans (Nat.mod_eq_of_lt h)

theorem setPortState_onlyRegs (s : State) (p st : Nat) : OnlyRegs s (s.setPortState p st) [lnkPort p Reg.LNK_P_STATE] :=
  .wrFld _ _ _ _ (by simp)

/-! ### Lanes -/

theorem getD_setNth {α : Type} (xs : List α) {i : Nat} (v d : α) (h : i < xs.length) : (setNth xs i v).getD i d = v := by
  induction xs generalizing i with
  | nil => simp at h
  | cons x xs ih =>
    cases i with
    | zero => rfl
    | succ i => exact ih (Nat.lt_of_succ_lt_succ h)

theorem length_setNth {α : Type} (xs : List α) (i : Nat) (v : α) : (setNth xs i v).length = xs.length := by
  induction xs generalizing i with
  | nil => rfl
  | cons x xs ih => cases i with
    | zero => rfl
    | succ i => exact congrArg Nat.succ (ih i)

theorem linkAt_mapLane (s : State) (l : Nat) (f : LaneState → LaneState) : (s.mapLane l f).linkAt (l / 4) =
    { s.linkAt (l / 4) with lanes := setNth (s.linkAt (l / 4)).lanes (l % 4) (f (s.laneAt l)) } := linkAt_setLink_same ..

theorem laneAt_mapLane {l : Nat} (f : LaneState → LaneState) (h : (s.linkAt (l / 4)).lanes.length = 4) :
    (s.mapLane l f).laneAt l = f (s.laneAt l) := by
  rw [State.laneAt, linkAt_mapLane]
  exact getD_setNth _ _ _ (h.symm ▸ Nat.mod_lt l (by decide : 0 < 4))

theorem lanes_mapLane (s : State) (l : Nat) (f : LaneState → LaneState) :
    ((s.mapLane l f).linkAt (l / 4)).lanes.length = (s.linkAt (l / 4)).lanes.length := by
  rw [linkAt_mapLane]
  exact length_setNth ..

/-- A change of a lane leaves what a port holds beside its lanes. -/
theorem linkAt_mapLane_beside {β : Type} (P : LinkPort → β) (hP : ∀ (k : LinkPort) lanes, P { k with lanes } = P k) (s : State)
    (l p : Nat) (f : LaneState → LaneState) : P ((s.mapLane l f).linkAt p) = P (s.linkAt p) := by
  rw [State.mapLane, linkAt_setLink]
  split
  · next h => rw [h]; exact hP ..
  · rfl

/-! ### Flags of an edge die's lanes -/

theorem lnkFlag_onlyRegs (s : State) (p i : Nat) :
    OnlyRegs s (s.lnkFlag p i) [lnkReg (p / 3) Reg.LNK_ERR_FLAGS, lnkReg (p / 3) Reg.LNK_FAULT_COUNT] :=
  .ite ((OnlyRegs.wr s _ _ (by simp)).trans (.wr _ _ _ (by simp))) (.wr s _ _ (by simp))

theorem lnkFlag_shows (s : State) (p : Nat) {i : Nat} (h : i < 32) :
    (s.lnkFlag p i).rbit (lnkReg (p / 3) Reg.LNK_ERR_FLAGS) i = true := by
  unfold State.lnkFlag
  extract_lets u
  have hu : u.rbit (lnkReg (p / 3) Reg.LNK_ERR_FLAGS) i = true := rbit_setFlag_same _ _ _ h
  have hne : lnkReg (p / 3) Reg.LNK_ERR_FLAGS ≠ lnkReg (p / 3) Reg.LNK_FAULT_COUNT := lnkReg_ne (by decide) (by decide) (by decide)
  split
  · exact (rbit_bump_ne _ _ _ hne).trans hu
  · exact hu

theorem lnkFlag_rd_port (s : State) (p i q : Nat) {o : Nat} (h : 0x400 ≤ o) (h' : o < 0x500) :
    (s.lnkFlag p i).rd (lnkPort q o) = s.rd (lnkPort q o) :=
  (lnkFlag_onlyRegs s p i).2 _ (by
    simp only [List.mem_cons, List.not_mem_nil, or_false, not_or]
    exact ⟨(lnkReg_ne_lnkPort _ _ (by decide) h h').symm, (lnkReg_ne_lnkPort _ _ (by decide) h h').symm⟩)

theorem lnkFlag_rd_lane (s : State) (p i l : Nat) {o : Nat} (h : 0x1000 ≤ o) (h' : o < 0x2000) :
    (s.lnkFlag p i).rd (lnkLane l o) = s.rd (lnkLane l o) :=
  (lnkFlag_onlyRegs s p i).2 _ (by
    simp only [List.mem_cons, List.not_mem_nil, or_false, not_or]
    exact ⟨(lnkReg_ne_lnkLane _ _ (by decide) h h').symm, (lnkReg_ne_lnkLane _ _ (by decide) h h').symm⟩)

/-! ### Where bring-up starts (R302, R304, R308, R310) -/

/-- The state bring-up of a port starts in. -/
def State.startAt (s : State) (p : Nat) : Nat := if s.portFitted p = false ∨ (s.portTest p = false ∧ s.portEnabled p = false) then 0
  else if s.portCable p = false then 1 else if s.portTest p then 7 else if s.refOk p then 2 else 0

theorem startAt_lt (s : State) (p : Nat) : s.startAt p < 16 := by
  unfold State.startAt
  split_ifs <;> omega

/-- What the state that bring-up starts in turns on. -/
structure StartsAlike (s t : State) (p : Nat) : Prop where
  plan : t.plan = s.plan
  ctrl : t.rd (lnkPort p Reg.LNK_P_CTRL) = s.rd (lnkPort p Reg.LNK_P_CTRL)
  ref : t.rd (lnkReg (p / 3) Reg.LNK_STATUS) = s.rd (lnkReg (p / 3) Reg.LNK_STATUS)
  cable : t.portCable p = s.portCable p

theorem portFitted_of_plan (h : t.plan = s.plan) (p : Nat) : t.portFitted p = s.portFitted p := by
  simp only [State.portFitted, State.laneOk, State.edgeReach, State.isBad, h]

theorem StartsAlike.startAt_eq {p : Nat} (h : StartsAlike s t p) : t.startAt p = s.startAt p := by
  have hfitted := portFitted_of_plan h.plan p
  have htest : t.portTest p = s.portTest p := rbit_of_rd h.ctrl 2
  have henabled : t.portEnabled p = s.portEnabled p := rbit_of_rd h.ctrl 0
  have href : t.refOk p = s.refOk p := rbit_of_rd h.ref 12
  rw [State.startAt, hfitted, htest, henabled, h.cable, href, State.startAt]

/-- What a port holds where bring-up starts. -/
def LinkPort.restarted (l : LinkPort) : LinkPort :=
  { LinkPort.init with lanes := l.lanes.map fun x => { LaneState.init with inject := x.inject }
                       kept := l.kept ++ l.arrived }

/-- A port whose lanes have lost lock, and whose record stands at its start. -/
def State.lanesLost (s : State) (p : Nat) : State :=
  (s.each (List.range 4) fun s i =>
    (s.wrFld (lnkLane (4 * p + i) Reg.LNK_L_STATE) 31 30 0).wrFld (lnkLane (4 * p + i) Reg.LNK_L_STATE) 11 0 0)

theorem lanesLost_onlyRegs (s : State) (p : Nat) : OnlyRegs s (s.lanesLost p) (laneKeys p Reg.LNK_L_STATE) :=
  .each s fun _ hi _ => have hm := mem_laneKeys (List.mem_range.1 hi)
    (OnlyRegs.wrFld _ _ _ _ hm).trans (.wrFld _ _ _ _ hm)

/-- The port's record, and no record exchanged. -/
def State.portCleared (s : State) (p : Nat) : State :=
  ((s.lanesLost p).setLink p (s.linkAt p).restarted).wrFld (lnkPort p Reg.LNK_P_STATE) 27 24 0

theorem portCleared_linksOnly (s : State) (p : Nat) :
    LinksOnly s (s.portCleared p) (lnkPort p Reg.LNK_P_STATE :: laneKeys p Reg.LNK_L_STATE) :=
  ((LinksOnly.ofRegs (lanesLost_onlyRegs s p)).mono (by simp)).trans
    ((LinksOnly.setLink ..).trans (.ofRegs (.wrFld _ _ _ _ (by simp))))

theorem portCleared_rd_port (s : State) (p : Nat) {o : Nat} (h : o < 0x500) (hne : o ≠ Reg.LNK_P_STATE) :
    (s.portCleared p).rd (lnkPort p o) = s.rd (lnkPort p o) :=
  (portCleared_linksOnly s p).kept _ (by
    simp only [List.mem_cons, not_or]
    exact ⟨lnkPort_ne p hne, lnkPort_notMem_laneKeys _ _ h (by decide) (by decide)⟩)

theorem portCleared_rd_edge (s : State) (p e : Nat) {o : Nat} (h : o < 0x400) :
    (s.portCleared p).rd (lnkReg e o) = s.rd (lnkReg e o) :=
  (portCleared_linksOnly s p).kept _ (by
    simp only [List.mem_cons, not_or]
    exact ⟨lnkReg_ne_lnkPort _ _ h (by decide) (by decide), lnkReg_notMem_laneKeys _ _ h (by decide) (by decide)⟩)

theorem lanesLost_portCable (s : State) (p : Nat) : (s.lanesLost p).portCable p = s.portCable p :=
  rbit_of_rd ((lanesLost_onlyRegs s p).2 _ (lnkPort_notMem_laneKeys _ _ (by decide) (by decide) (by decide))) 21

theorem portCleared_portCable (s : State) (p : Nat) : (s.portCleared p).portCable p = s.portCable p := by
  rw [State.portCable, State.portCleared, rbit_wrFld _ _ _ _ _ _ (by decide) (by decide), if_neg (by decide)]
  exact (rbit_of_rd (rd_setLink ..) 21).trans (lanesLost_portCable s p)

theorem portCleared_linkAt (s : State) (p : Nat) : (s.portCleared p).linkAt p = (s.linkAt p).restarted :=
  (linkAt_of_links (OnlyRegs.wrFld _ _ _ _ (List.mem_singleton_self _)).links_eq p).trans (linkAt_setLink_same ..)

theorem portCleared_startsAlike (s : State) (p : Nat) : StartsAlike s (s.portCleared p) p :=
  ⟨(portCleared_linksOnly s p).plan_eq, portCleared_rd_port s p (by decide) (by decide), portCleared_rd_edge s p _ (by decide),
    portCleared_portCable s p⟩

theorem portStart_eq (s : State) (p : Nat) : s.portStart p = (s.portCleared p).setPortState p (s.startAt p) := by
  have hl : (s.lanesLost p).linkAt p = s.linkAt p := linkAt_of_links (lanesLost_onlyRegs s p).links_eq p
  have hstart (v : State) : (if !v.portFitted p || !(v.portTest p || v.portEnabled p) then 0 else if !v.portCable p then 1
      else if v.portTest p then 7 else if v.refOk p then 2 else 0) = v.startAt p := by
    simp only [State.startAt, Bool.or_eq_true, Bool.not_eq_true', Bool.or_eq_false_iff]
  rw [← (portCleared_startsAlike s p).startAt_eq, ← hstart, State.portCleared, ← hl]
  rfl

theorem portStart_portState (s : State) (p : Nat) : (s.portStart p).portState p = s.startAt p := by
  rw [portStart_eq, portState_setPortState _ _ (startAt_lt s p)]

theorem portStart_linkAt (s : State) (p : Nat) : (s.portStart p).linkAt p = (s.linkAt p).restarted := by
  rw [portStart_eq, linkAt_of_links (setPortState_onlyRegs ..).links_eq, portCleared_linkAt]

theorem portStart_linksOnly (s : State) (p : Nat) :
    LinksOnly s (s.portStart p) (lnkPort p Reg.LNK_P_STATE :: laneKeys p Reg.LNK_L_STATE) := by
  rw [portStart_eq]
  exact (portCleared_linksOnly s p).trans (.ofRegs (.wrFld _ _ _ _ (by simp)))

theorem portStart_rd_port (s : State) (p : Nat) {o : Nat} (h : o < 0x500) (hne : o ≠ Reg.LNK_P_STATE) :
    (s.portStart p).rd (lnkPort p o) = s.rd (lnkPort p o) :=
  (portStart_linksOnly s p).kept _ (by
    simp only [List.mem_cons, not_or]
    exact ⟨lnkPort_ne p hne, lnkPort_notMem_laneKeys _ _ h (by decide) (by decide)⟩)

theorem portStart_portCable (s : State) (p : Nat) : (s.portStart p).portCable p = s.portCable p := by
  rw [portStart_eq, State.portCable, State.setPortState, rbit_wrFld _ _ _ _ _ _ (by decide) (by decide), if_neg (by decide)]
  exact portCleared_portCable s p

/-! ### A port goes down (R287, R302) -/

theorem portDown_of_not_training {p : Nat} (h : s.portState p < 2 ∨ 6 < s.portState p) : s.portDown p = s.portStart p :=
  if_neg (by omega)

theorem twinPort_of_rd (h : t.rd (twnReg Reg.TWN_CFG) = s.rd (twnReg Reg.TWN_CFG)) : t.twinPort = s.twinPort := fld_of_key h ..

theorem twnReg_ne_lnkReg (o e o' : Nat) (h : o' < 0x10000) (ho : o < 0x10000) : twnReg o ≠ lnkReg e o' := by
  simp only [twnReg, lnkReg, regKey, blockBase, Fin.val_ofNat]
  omega

theorem twnReg_ne_pageReg (o f o' : Nat) (ho : o < 0x10000) : twnReg o ≠ pageReg f o' := by
  simp only [twnReg, pageReg, regKey, blockBase]
  omega

/-- A port that goes down with nothing unsent, and is not the twin port, tells the physical function and starts again. -/
theorem portDown_of_sent {p : Nat} (h : 2 ≤ s.portState p) (h' : s.portState p ≤ 6) (hx : (s.linkAt p).unsent = [])
    (ht : p ≠ s.twinPort) : s.portDown p = ((s.bump (lnkPort p Reg.LNK_P_DOWNS) 1).portStart p).event 0 3 p 0 := by
  obtain ⟨u, hu⟩ : ∃ u, (s.bump (lnkPort p Reg.LNK_P_DOWNS) 1).portStart p = u := ⟨_, rfl⟩
  have htwin : (u.event 0 3 p 0).twinPort = s.twinPort := by
    have hne (q o : Nat) (ho : o < 0x8000) : twnReg Reg.TWN_CFG ≠ lnkReg q o := twnReg_ne_lnkReg _ _ _ (by omega) (by decide)
    refine twinPort_of_rd ((event_rd _ _ _ _ _ (twnReg_ne_pageReg _ _ _ (by decide)) (twnReg_ne_pageReg _ _ _ (by decide))).trans
      (hu ▸ ((portStart_linksOnly _ p).kept _ fun hm => ?_).trans (rd_bump_ne _ _ ?_)))
    · rcases List.mem_cons.1 hm with hm | hm
      · exact hne _ _ (by simp only [Reg.LNK_P_STATE]; omega) hm
      · obtain ⟨i, -, hi⟩ := List.mem_map.1 hm
        exact hne _ _ (by simp only [Reg.LNK_L_STATE]; omega) hi.symm
    · exact hne _ _ (by simp only [Reg.LNK_P_DOWNS]; omega)
  unfold State.portDown
  extract_lets st xs v w x
  rw [if_pos ⟨h, h'⟩]
  have hw : w = u := by
    show v.each xs _ = u
    rw [show xs = [] from hx]
    exact hu
  have hx : x = u.event 0 3 p 0 := by
    show w.event 0 3 p 0 = _
    rw [hw]
  rw [hx, if_neg (by rw [htwin]; exact ht), hu]

end Sys2Proof.Machine
end

section
set_option Elab.async false
/-! SUPPORT. A port goes down and comes up lane by lane (O53). -/

namespace Sys2Proof.Machine

variable {s t u : State} {ks ks' : List Nat}

/-! ### Down (R287, R302) -/

theorem event_rd_lnk (s : State) (f code arg status e : Nat) {o : Nat} (h : o < 0x10000) :
    (s.event f code arg status).rd (lnkReg e o) = s.rd (lnkReg e o) :=
  event_rd _ _ _ _ _ (lnkReg_ne_pageReg _ _ _ h) (lnkReg_ne_pageReg _ _ _ h)

theorem event_rd_lnkPort (s : State) (f code arg status p : Nat) {o : Nat} (h : o < 0x500) :
    (s.event f code arg status).rd (lnkPort p o) = s.rd (lnkPort p o) := event_rd_lnk _ _ _ _ _ _ (by omega)

theorem portDown_shows {p : Nat} (h : 2 ≤ s.portState p) (h' : s.portState p ≤ 6) (hx : (s.linkAt p).unsent = [])
    (ht : p ≠ s.twinPort) : (s.portDown p).portState p = s.startAt p ∧
    (s.portDown p).rd (lnkPort p Reg.LNK_P_DOWNS) = s.rd (lnkPort p Reg.LNK_P_DOWNS) + 1 ∧
    ((s.portDown p).linkAt p).arrived = [] ∧
    ((s.portDown p).linkAt p).kept = (s.linkAt p).kept ++ (s.linkAt p).arrived ∧ (s.portDown p).mem = s.mem := by
  obtain ⟨u, hu⟩ : ∃ u, s.bump (lnkPort p Reg.LNK_P_DOWNS) 1 = u := ⟨_, rfl⟩
  have hregs : OnlyRegs s u [lnkPort p Reg.LNK_P_DOWNS] := hu ▸ .wr _ _ _ (by simp)
  have hother {o : Nat} (ho : o ≠ Reg.LNK_P_DOWNS) : u.rd (lnkPort p o) = s.rd (lnkPort p o) :=
    hregs.2 _ (by simpa using lnkPort_ne p ho)
  have hlink : u.linkAt p = s.linkAt p := linkAt_of_links hregs.links_eq p
  have hstart : u.startAt p = s.startAt p := StartsAlike.startAt_eq
    ⟨(congrArg State.plan hregs.1).trans rfl, hother (by decide),
      hregs.2 _ (by simpa using lnkReg_ne_lnkPort _ p (by decide) (by decide) (by decide)), rbit_of_rd (hother (by decide)) 21⟩
  have hkeep : ((u.portStart p).event 0 3 p 0).linkAt p = (s.linkAt p).restarted :=
    (event_keeps (fun v => v.linkAt p) (fun _ _ => rfl) (fun _ _ _ => rfl) ..).trans (hlink ▸ portStart_linkAt u p)
  rw [portDown_of_sent h h' hx ht, hu]
  refine ⟨?_, ?_, congrArg LinkPort.arrived hkeep, congrArg LinkPort.kept hkeep, ?_⟩
  · rw [portState_of_rd (event_rd_lnkPort _ _ _ _ _ _ (by decide)), portStart_portState, hstart]
  · rw [event_rd_lnkPort _ _ _ _ _ _ (by decide), portStart_rd_port _ _ (by decide) (by decide), ← hu, rd_bump_one]
  · rw [event_keeps (fun v => v.mem) (fun _ _ => rfl) (fun _ _ _ => rfl), (portStart_linksOnly u p).mem_eq, hregs.mem_eq]

theorem laneLockLoss_next {l : Lane} (h : s.rbit (lnkLane l Reg.LNK_L_STATE) 31 = true) :
    exec (.laneLockLoss l) s = .next (if (s.laneAt l).rxIdle then s else s.portDown (l.val / 4)) := by
  show execLaneLockLoss l s = _
  rw [execLaneLockLoss, if_neg (by simp [h])]

/-! ### Lanes lock (R304, R307) -/

/-- A lane that has locked, with its peaking. -/
def State.laneLocked (s : State) (l code : Nat) : State :=
  (s.wrFld (lnkLane l Reg.LNK_L_STATE) 29 24 code).wrFld (lnkLane l Reg.LNK_L_STATE) 31 31 1

theorem laneLocked_onlyRegs (s : State) (l code : Nat) : OnlyRegs s (s.laneLocked l code) [lnkLane l Reg.LNK_L_STATE] :=
  (OnlyRegs.wrFld _ _ _ _ (by simp)).trans (.wrFld _ _ _ _ (by simp))

theorem laneLocked_shows (s : State) (l : Nat) {code : Nat} (h : code < 64) :
    (s.laneLocked l code).rbit (lnkLane l Reg.LNK_L_STATE) 31 = true ∧
    (s.laneLocked l code).fld (lnkLane l Reg.LNK_L_STATE) 29 24 = code := by
  constructor
  · rw [State.laneLocked, rbit_wrFld _ _ _ _ _ _ (by decide) (by decide)]
    rfl
  · rw [State.laneLocked, fld_wrFld_other _ _ _ _ _ _ _ (by decide) (by decide) (by decide) (by decide),
      fld_wrFld_same _ _ _ _ _ (by decide) (by decide)]
    exact Nat.mod_eq_of_lt h

/-- Each lane of a port is locked, where one of them has just locked. -/
theorem laneLocked_all (s : State) (l : Lane) (code : Nat) (h : code < 64) :
    (List.range 4).all (fun i => (s.laneLocked l code).rbit (lnkLane (4 * (l.val / 4) + i) Reg.LNK_L_STATE) 31) =
    (List.range 4).all fun i => 4 * (l.val / 4) + i == l.val || s.rbit (lnkLane (4 * (l.val / 4) + i) Reg.LNK_L_STATE) 31 := by
  have hl := l.isLt
  rw [Bool.eq_iff_iff, List.all_eq_true, List.all_eq_true]
  refine forall₂_congr fun i hi => ?_
  have hi := List.mem_range.1 hi
  by_cases he : 4 * (l.val / 4) + i = l.val
  · simp only [he, (laneLocked_shows s l h).1, beq_self_eq_true, Bool.true_or]
  · rw [beq_false_of_ne he, Bool.false_or, rbit_of_rd ((laneLocked_onlyRegs s l code).2 _ (by
      simpa using lnkLane_lane_ne (by omega) hl he (by decide) (by decide) (by decide) (by decide)))]

theorem laneAcquireLock_completes {l : Lane} (ctle : Fin 37) (hp : s.portState (l.val / 4) = 2) (hr : s.refOk (l.val / 4) = true)
    (hl : s.rbit (lnkLane l Reg.LNK_L_STATE) 31 = false) : Completes (exec (.laneAcquireLock l ctle) s) fun t =>
      t.rbit (lnkLane l Reg.LNK_L_STATE) 31 = true ∧
      t.fld (lnkLane l Reg.LNK_L_STATE) 29 24 = (if s.rbit (lnkLane l Reg.LNK_L_EQ) 31
        then s.fld (lnkLane l Reg.LNK_L_EQ) 29 24 else ctle.val) ∧
      t.portState (l.val / 4) = (if (List.range 4).all (fun i => 4 * (l.val / 4) + i == l.val ||
        s.rbit (lnkLane (4 * (l.val / 4) + i) Reg.LNK_L_STATE) 31) then 3 else 2) ∧
      OnlyRegs s t [lnkLane l Reg.LNK_L_STATE, lnkPort (l.val / 4) Reg.LNK_P_STATE] := by
  obtain ⟨code, hcode⟩ : ∃ code, (if s.rbit (lnkLane l Reg.LNK_L_EQ) 31 then s.fld (lnkLane l Reg.LNK_L_EQ) 29 24 else ctle.val) = code :=
    ⟨_, rfl⟩
  have hlt : code < 64 := by
    have := bitsOf_lt (s.rdN (lnkLane l Reg.LNK_L_EQ)) 29 24
    have := ctle.isLt
    simp only [State.fld] at hcode
    split at hcode <;> omega
  have hall := laneLocked_all s l code hlt
  have hregs := laneLocked_onlyRegs s l code
  obtain ⟨hlock, hpeak⟩ := laneLocked_shows s l hlt
  have he : exec (.laneAcquireLock l ctle) s = .next (if (List.range 4).all (fun i => (s.laneLocked l code).rbit
      (lnkLane (4 * (l.val / 4) + i) Reg.LNK_L_STATE) 31) then (s.laneLocked l code).setPortState (l.val / 4) 3 else s.laneLocked l code) := by
    show execLaneAcquireLock l ctle s = _
    rw [execLaneAcquireLock, if_neg (by simp [hp, hr, hl]), ← hcode]
    rfl
  rw [hcode, ← hall]
  refine ⟨_, he, ?_⟩
  have hne : lnkPort (l.val / 4) Reg.LNK_P_STATE ≠ lnkLane l Reg.LNK_L_STATE := lnkPort_ne_lnkLane _ _ (by decide) (by decide) (by decide)
  split
  · have hup := setPortState_onlyRegs (s.laneLocked l code) (l.val / 4) 3
    have hlane : ((s.laneLocked l code).setPortState (l.val / 4) 3).rd (lnkLane l Reg.LNK_L_STATE) =
        (s.laneLocked l code).rd (lnkLane l Reg.LNK_L_STATE) := hup.2 _ (by simpa using hne.symm)
    exact ⟨(rbit_of_rd hlane 31).trans hlock, (fld_of_key hlane 29 24).trans hpeak, portState_setPortState _ _ (by decide),
      (hregs.mono (by simp)).trans (hup.mono (by simp))⟩
  · exact ⟨hlock, hpeak, (portState_of_rd (hregs.2 _ (by simpa using hne))).trans hp, hregs.mono (by simp)⟩

/-! ### Capability records (R304, R305) -/

/-- What a good record leaves of its lane. -/
def LaneState.withRecord (x : Nat) (y : LaneState) : LaneState :=
  { y with good := y.good + 1, acks := if bitOf x 86 then y.acks + 1 else 0, recPort := bitsOf x 113 110, recLane := bitsOf x 115 114 }

/-- A record passes its check. -/
def recordGood (r : BitVec 128) : Bool :=
  bitsOf r.toNat 127 124 == 1 && bitOf r.toNat 87 && (crc32 (natBytes 12 (r.toNat / 2 ^ 32))).toNat == r.toNat % 2 ^ 32

/-- A lane has its record, and the port shows the partner. -/
def State.recordKept (s : State) (l x : Nat) : State :=
  ((s.mapLane l (LaneState.withRecord x)).wrFld (lnkPort (l / 4) Reg.LNK_P_STATE) 27 24 1).wr (lnkPort (l / 4) Reg.LNK_P_REMOTE)
    (BitVec.ofNat 32 (bitsOf x 113 110 * 2 ^ 20 + bitsOf x 109 90))

theorem recordKept_regs (s : State) (l x : Nat) : OnlyRegs (s.mapLane l (LaneState.withRecord x)) (s.recordKept l x)
    [lnkPort (l / 4) Reg.LNK_P_STATE, lnkPort (l / 4) Reg.LNK_P_REMOTE] :=
  (OnlyRegs.wrFld _ _ _ _ (by simp)).trans (.wr _ _ _ (by simp))

theorem recordKept_portState (s : State) (l x : Nat) : (s.recordKept l x).portState (l / 4) = s.portState (l / 4) := by
  rw [State.recordKept, portState_of_rd (rd_wr_ne _ _ (lnkPort_ne _ (by decide)))]
  exact fld_wrFld_other _ _ _ _ _ _ _ (by decide) (by decide) (by decide) (by decide)

/-- A good record that is valid is kept; it brings the port on where every lane has eight acks. -/
theorem capabilityRecordReceive_keeps {l : Lane} {r : BitVec 128} (hp : s.portState (l.val / 4) = 2 ∨ s.portState (l.val / 4) = 3)
    (hl : s.rbit (lnkLane l Reg.LNK_L_STATE) 31 = true) (hgood : recordGood r = true) (hv : bitOf r.toNat 116 = true) :
    exec (.capabilityRecordReceive l r) s = .next (
      if !(s.portState (l.val / 4) == 3 && (List.range 4).all fun i => decide (8 ≤ ((s.recordKept l r.toNat).laneAt (4 * (l.val / 4) + i)).acks))
      then s.recordKept l r.toNat
      else if (s.recordKept l r.toNat).recordsAgree (l.val / 4) then (s.recordKept l r.toNat).enterDeskew (l.val / 4)
      else (s.recordKept l r.toNat).trainFail (l.val / 4)) := by
  show execCapabilityRecordReceive l r s = _
  rw [execCapabilityRecordReceive, if_neg (by simp [hp, hl])]
  have hnot : ¬(!recordGood r) = true := by rw [hgood]; decide
  exact (if_neg hnot).trans ((if_neg (by simp [hv])).trans rfl)

theorem capabilityRecordReceive_bad {l : Lane} {r : BitVec 128} (hp : s.portState (l.val / 4) = 2 ∨ s.portState (l.val / 4) = 3)
    (hl : s.rbit (lnkLane l Reg.LNK_L_STATE) 31 = true) (h4 : (s.linkAt (l.val / 4)).lanes.length = 4) (hbad : recordGood r = false) :
    Completes (exec (.capabilityRecordReceive l r) s) fun t => (t.laneAt l).good = 0 ∧ (t.laneAt l).acks = 0 ∧
      t = { s with links := t.links } := by
  have he : exec (.capabilityRecordReceive l r) s = .next (s.mapLane l fun y => { y with good := 0, acks := 0 }) := by
    show execCapabilityRecordReceive l r s = _
    rw [execCapabilityRecordReceive, if_neg (by simp [hp, hl])]
    have hnot : (!recordGood r) = true := by rw [hbad]; rfl
    exact if_pos hnot
  have hlane := laneAt_mapLane (fun y : LaneState => { y with good := 0, acks := 0 }) h4
  exact ⟨_, he, congrArg LaneState.good hlane, congrArg LaneState.acks hlane, rfl⟩

theorem withRecord_acked {x : Nat} (h : bitOf x 86 = true) : LaneState.withRecord x = fun y =>
    { y with good := y.good + 1, acks := y.acks + 1, recPort := bitsOf x 113 110, recLane := bitsOf x 115 114 } := by
  funext y
  rw [LaneState.withRecord, if_pos h]

theorem recordsAgree_of_links (h : t.links = s.links) (p : Nat) : t.recordsAgree p = s.recordsAgree p := by
  simp only [State.recordsAgree, linkAt_of_links h]

theorem capabilityRecordReceive_deskews {l : Lane} {r : BitVec 128} (hp : s.portState (l.val / 4) = 3)
    (hl : s.rbit (lnkLane l Reg.LNK_L_STATE) 31 = true) (hgood : recordGood r = true) (hv : bitOf r.toNat 116 = true)
    (h8 : ∀ i < 4, 8 ≤ ((s.mapLane l (LaneState.withRecord r.toNat)).laneAt (4 * (l.val / 4) + i)).acks)
    (hagree : (s.mapLane l (LaneState.withRecord r.toNat)).recordsAgree (l.val / 4) = true) :
    Completes (exec (.capabilityRecordReceive l r) s) fun t => t.portState (l.val / 4) = 4 := by
  have hlinks := (recordKept_regs s l r.toNat).links_eq
  have hdone : (s.portState (l.val / 4) == 3 && (List.range 4).all fun i =>
      decide (8 ≤ ((s.recordKept l r.toNat).laneAt (4 * (l.val / 4) + i)).acks)) = true := by
    rw [hp, beq_self_eq_true, Bool.true_and, List.all_eq_true]
    intro i hi
    rw [laneAt_of_links hlinks]
    exact decide_eq_true (h8 i (List.mem_range.1 hi))
  have hagree' : (s.recordKept l r.toNat).recordsAgree (l.val / 4) = true := (recordsAgree_of_links hlinks _).trans hagree
  refine ⟨_, capabilityRecordReceive_keeps (.inr hp) hl hgood hv, ?_⟩
  rw [hdone, if_neg (by decide), if_pos hagree']
  exact portState_setPortState _ _ (by decide)

theorem capabilityRecordReceive_shows {l : Lane} {r : BitVec 128} (hp : s.portState (l.val / 4) = 2)
    (hl : s.rbit (lnkLane l Reg.LNK_L_STATE) 31 = true) (h4 : (s.linkAt (l.val / 4)).lanes.length = 4) (hgood : recordGood r = true)
    (hv : bitOf r.toNat 116 = true) : Completes (exec (.capabilityRecordReceive l r) s) fun t =>
      (t.laneAt l).recPort = bitsOf r.toNat 113 110 ∧ (t.laneAt l).recLane = bitsOf r.toNat 115 114 ∧
      t.portState (l.val / 4) = 2 ∧ t = { s with links := t.links, regs := t.regs } ∧
      t.rdN (lnkPort (l.val / 4) Reg.LNK_P_REMOTE) = bitsOf r.toNat 113 110 * 2 ^ 20 + bitsOf r.toNat 109 90 := by
  have hregs := recordKept_regs s l r.toNat
  have hlane : (s.recordKept l r.toNat).laneAt l = (s.laneAt l).withRecord r.toNat :=
    (laneAt_of_links hregs.links_eq l).trans (laneAt_mapLane _ h4)
  have hlt : bitsOf r.toNat 113 110 * 2 ^ 20 + bitsOf r.toNat 109 90 < 2 ^ 32 := by
    have h₁ := bitsOf_lt r.toNat 113 110
    have h₂ := bitsOf_lt r.toNat 109 90
    omega
  have he := capabilityRecordReceive_keeps (.inl hp) hl hgood hv
  rw [if_pos (by simp [hp])] at he
  refine ⟨_, he, congrArg LaneState.recPort hlane, congrArg LaneState.recLane hlane, (recordKept_portState s l _).trans hp,
    ((LinksOnly.mapLane s l _ _).trans (.ofRegs hregs)).frame, ?_⟩
  rw [State.recordKept, rdN_wr_same, BitVec.toNat_ofNat, Nat.mod_eq_of_lt hlt]

end Sys2Proof.Machine
end

section
set_option Elab.async false
/-! SUPPORT. Checkers, injections, and the ends of bring-up (O53). -/

namespace Sys2Proof.Machine

variable {s t u : State} {ks ks' : List Nat}

/-! ### Checkers (R310) -/

theorem prbsLevels_succ (kind n st : Nat) : prbsLevels kind (n + 1) st =
    ((prbsLevels kind 1 st).1.headD 0 :: (prbsLevels kind n (prbsLevels kind 1 st).2).1,
      (prbsLevels kind n (prbsLevels kind 1 st).2).2) := rfl

/-- A locked checker finds no error in a symbol of its own sequence. -/
theorem take_expected (kind : Nat) (c : Checker) (h : c.lock = true) : c.take kind ((prbsLevels kind 1 c.st).1.headD 0) =
    { c with st := (prbsLevels kind 1 c.st).2, bits := c.bits + 2 } := by
  simp only [Checker.take, h, if_true, Nat.xor_self]
  rfl

theorem foldl_take_expected (kind n : Nat) (c : Checker) (h : c.lock = true) :
    (prbsLevels kind n c.st).1.foldl (Checker.take kind) c =
    { c with st := (prbsLevels kind n c.st).2, bits := c.bits + 2 * n } := by
  induction n generalizing c with
  | zero => rfl
  | succ n ih =>
    rw [prbsLevels_succ, List.foldl_cons, take_expected kind c h, ih { c with st := (prbsLevels kind 1 c.st).2, bits := c.bits + 2 } h]
    exact congrArg (fun b => (⟨c.lock, _, c.run, b, c.errors⟩ : Checker)) (show c.bits + 2 + 2 * n = c.bits + 2 * (n + 1) by omega)

/-- What a checker makes of a line. -/
def State.checked (s : State) (l : Nat) (line : List Nat) : Checker :=
  line.foldl (Checker.take (s.fld (lnkLane l Reg.LNK_L_PAT) 29 28))
    ⟨s.rbit (lnkLane l Reg.LNK_L_PAT) 27, (s.laneAt l).chk, (s.laneAt l).chkRun, 0, 0⟩

/-- A lane's checker stands as a line has left it. -/
def State.checkerAt (s : State) (l : Nat) (c : Checker) : State :=
  (s.mapLane l fun y => { y with chk := c.st, chkRun := c.run }).wrFld (lnkLane l Reg.LNK_L_PAT) 27 27 (if c.lock then 1 else 0)

theorem checkerAt_rd64 (s : State) (l : Nat) (c : Checker) {o : Nat} (h : o ≠ Reg.LNK_L_PAT) (h4 : o + 4 ≠ Reg.LNK_L_PAT) :
    (s.checkerAt l c).rd64 (lnkLane l o) = s.rd64 (lnkLane l o) := by
  have h4' : lnkLane l o + 4 ≠ lnkLane l Reg.LNK_L_PAT := by
    simp only [lnkLane, lnkReg, regKey]
    omega
  exact rd64_of_rd (rd_wrFld_ne _ _ _ _ (lnkLane_ne l h)) (rd_wrFld_ne _ _ _ _ h4')

theorem lnkLane_add (l o n : Nat) : lnkLane l o + n = lnkLane l (o + n) := by
  simp only [lnkLane, lnkReg, regKey]
  omega

theorem lnkPort_add (p o n : Nat) : lnkPort p o + n = lnkPort p (o + n) := by
  simp only [lnkPort, lnkReg, regKey]
  omega

theorem rd_bump64_lane (s : State) (l n : Nat) {o o' : Nat} (h : o' ≠ o) (h4 : o' ≠ o + 4) :
    (s.bump64 (lnkLane l o) n).rd (lnkLane l o') = s.rd (lnkLane l o') :=
  (bump64_onlyRegs ..).2 _ (by simpa [lnkLane_add] using And.intro (lnkLane_ne l h) (lnkLane_ne l h4))

theorem checkerLock_completes {l : Lane} (first : Nat) (rest : List Nat) (hp : s.portState (l.val / 4) = 7)
    (hk : s.fld (lnkLane l Reg.LNK_L_PAT) 29 28 ≠ 0) (h4 : (s.linkAt (l.val / 4)).lanes.length = 4) :
    Completes (exec (.checkerLock l first rest) s) fun t => t = { s with links := t.links, regs := t.regs } ∧
      t.rbit (lnkLane l Reg.LNK_L_PAT) 27 = (s.checked l (first :: rest)).lock ∧
      (t.laneAt l).chk = (s.checked l (first :: rest)).st ∧
      t.rd64 (lnkLane l Reg.LNK_L_CHK_BITS) = (s.rd64 (lnkLane l Reg.LNK_L_CHK_BITS) + (s.checked l (first :: rest)).bits) % 2 ^ 64 ∧
      t.rd64 (lnkLane l Reg.LNK_L_CHK_ERRS) = (s.rd64 (lnkLane l Reg.LNK_L_CHK_ERRS) + (s.checked l (first :: rest)).errors) % 2 ^ 64 := by
  obtain ⟨c, hc⟩ : ∃ c, s.checked l (first :: rest) = c := ⟨_, rfl⟩
  have he : exec (.checkerLock l first rest) s = .next (((s.checkerAt l c).bump64 (lnkLane l Reg.LNK_L_CHK_BITS) c.bits).bump64
      (lnkLane l Reg.LNK_L_CHK_ERRS) c.errors) := by
    show execCheckerLock l first rest s = _
    rw [execCheckerLock, if_neg (by simp [hp, hk]), ← hc]
    rfl
  obtain ⟨u, hu⟩ : ∃ u, s.checkerAt l c = u := ⟨_, rfl⟩
  have hlock : u.rbit (lnkLane l Reg.LNK_L_PAT) 27 = c.lock := by
    rw [← hu, State.checkerAt, rbit_wrFld _ _ _ _ _ _ (by decide) (by decide), if_pos (by decide)]
    cases c.lock <;> rfl
  have hchk : (u.laneAt l).chk = c.st := by
    rw [← hu, State.checkerAt, laneAt_of_links (OnlyRegs.wrFld _ _ _ _ (List.mem_singleton_self _)).links_eq, laneAt_mapLane _ h4]
  have hframe : LinksOnly s u [lnkLane l Reg.LNK_L_PAT] :=
    hu ▸ (LinksOnly.mapLane ..).trans (.ofRegs (.wrFld _ _ _ _ (List.mem_singleton_self _)))
  have hbits : u.rd64 (lnkLane l Reg.LNK_L_CHK_BITS) = s.rd64 (lnkLane l Reg.LNK_L_CHK_BITS) :=
    hu ▸ checkerAt_rd64 s l c (by decide) (by decide)
  have herrs : u.rd64 (lnkLane l Reg.LNK_L_CHK_ERRS) = s.rd64 (lnkLane l Reg.LNK_L_CHK_ERRS) :=
    hu ▸ checkerAt_rd64 s l c (by decide) (by decide)
  rw [hu] at he
  obtain ⟨v, hv⟩ : ∃ v, u.bump64 (lnkLane l Reg.LNK_L_CHK_BITS) c.bits = v := ⟨_, rfl⟩
  have hvu : OnlyRegs u v [lnkLane l Reg.LNK_L_CHK_BITS, lnkLane l Reg.LNK_L_CHK_BITS + 4] := hv ▸ bump64_onlyRegs ..
  have hvpat : v.rd (lnkLane l Reg.LNK_L_PAT) = u.rd (lnkLane l Reg.LNK_L_PAT) := hv ▸ rd_bump64_lane _ _ _ (by decide) (by decide)
  have hverr : v.rd64 (lnkLane l Reg.LNK_L_CHK_ERRS) = u.rd64 (lnkLane l Reg.LNK_L_CHK_ERRS) :=
    rd64_of_rd (hv ▸ rd_bump64_lane _ _ _ (by decide) (by decide))
      (by rw [lnkLane_add, ← hv, rd_bump64_lane _ _ _ (by decide) (by decide)])
  rw [hv] at he
  have hw := bump64_onlyRegs v (lnkLane l Reg.LNK_L_CHK_ERRS) c.errors
  have hwpat : (v.bump64 (lnkLane l Reg.LNK_L_CHK_ERRS) c.errors).rd (lnkLane l Reg.LNK_L_PAT) = v.rd (lnkLane l Reg.LNK_L_PAT) :=
    rd_bump64_lane _ _ _ (by decide) (by decide)
  have hwbits : (v.bump64 (lnkLane l Reg.LNK_L_CHK_ERRS) c.errors).rd64 (lnkLane l Reg.LNK_L_CHK_BITS) =
      v.rd64 (lnkLane l Reg.LNK_L_CHK_BITS) :=
    rd64_of_rd (rd_bump64_lane _ _ _ (by decide) (by decide)) (by rw [lnkLane_add, rd_bump64_lane _ _ _ (by decide) (by decide)])
  have hall : LinksOnly s (v.bump64 (lnkLane l Reg.LNK_L_CHK_ERRS) c.errors) ([lnkLane l Reg.LNK_L_PAT] ++
      [lnkLane l Reg.LNK_L_CHK_BITS, lnkLane l Reg.LNK_L_CHK_BITS + 4] ++
      [lnkLane l Reg.LNK_L_CHK_ERRS, lnkLane l Reg.LNK_L_CHK_ERRS + 4]) :=
    (hframe.mono (by simp)).trans ((LinksOnly.mono (.ofRegs hvu) (by simp)).trans (LinksOnly.mono (.ofRegs hw) (by simp)))
  rw [hc]
  refine ⟨_, he, hall.frame, ?_, ?_, ?_, ?_⟩
  · rw [rbit_of_rd (hwpat.trans hvpat), hlock]
  · rw [laneAt_of_links (hw.links_eq.trans hvu.links_eq), hchk]
  · rw [hwbits, ← hv, rd64_bump64, hbits]
  · rw [rd64_bump64, hverr, herrs]

/-- A locked checker whose sequence a line follows compares all its bits and finds no error. -/
theorem checked_follows {l n : Nat} {line : List Nat} (h : s.rbit (lnkLane l Reg.LNK_L_PAT) 27 = true)
    (hline : line = (prbsLevels (s.fld (lnkLane l Reg.LNK_L_PAT) 29 28) n (s.laneAt l).chk).1) :
    (s.checked l line).bits = 2 * n ∧ (s.checked l line).errors = 0 := by
  have hc := foldl_take_expected (s.fld (lnkLane l Reg.LNK_L_PAT) 29 28) n ⟨true, (s.laneAt l).chk, (s.laneAt l).chkRun, 0, 0⟩ rfl
  rw [State.checked, h, hline, hc]
  exact ⟨Nat.zero_add _, rfl⟩

/-! ### Injections (R311) -/

theorem inject_completes {l : Lane} (kind : Fin 4) (len : Fin 64) (hr : s.fnReach 0 = true) (hd : (s.fnAt 0).d3hot = false)
    (hl : s.edgeLive (l / 12) = true) (h4 : (s.linkAt (l.val / 4)).lanes.length = 4) :
    Completes (exec (.inject l kind len) s) fun t => (kind = 3 → s.portUp (l.val / 4) = false → t = s) ∧
      (kind ≠ 3 ∨ s.portUp (l.val / 4) = true → t = { s with links := t.links } ∧
        (t.linkAt (l.val / 4)).queue = (s.linkAt (l.val / 4)).queue ∧
        (t.laneAt l).inject = if kind = 0 then none else some (kind.val, len.val)) := by
  have he : exec (.inject l kind len) s = .next (s.writeInject l kind len) :=
    edgeDo_next (go := fun s => s.writeInject l kind len) hr hd hl
  refine ⟨_, he, ?_⟩
  have h3 : kind.val = 3 ↔ kind = 3 := (Fin.ext_iff (b := 3)).symm
  have h0 : kind.val = 0 ↔ kind = 0 := (Fin.ext_iff (b := 0)).symm
  by_cases hk : kind = 3 ∧ s.portUp (l.val / 4) = false
  · have hw : s.writeInject l kind len = s := if_pos (by simpa [h3] using hk)
    exact ⟨fun _ _ => hw, fun h => absurd hk.1 (h.resolve_right (by simp [hk.2]))⟩
  · have hw : s.writeInject l kind len = s.mapLane l fun x => { x with inject := if kind.val = 0 then none else some (kind.val, len.val) } :=
      if_neg (by simpa [h3] using hk)
    refine ⟨fun h h' => absurd ⟨h, h'⟩ hk, fun _ => ?_⟩
    rw [hw]
    refine ⟨rfl, ?_, ?_⟩
    · rw [linkAt_mapLane]
    · rw [laneAt_mapLane _ h4]
      simp only [h0]

/-! ### Deskew, time-outs and clocks (R303, R304, R312) -/

theorem deskewDone_completes {p : Port} (skews : List Nat) (hp : s.portState p = 4) (hi : s.inStep p = true) :
    Completes (exec (.deskewDone p skews) s) fun t => t.portState p = 5 ∧ (t.linkAt p).replay = [] ∧ (t.linkAt p).queue = [] ∧
      (t.linkAt p).credits = List.replicate 16 128 ∧ (t.linkAt p).nextSeq = 1 ∧ (t.linkAt p).scrRx = (s.linkAt p).scrRx ∧ t.mem = s.mem := by
  obtain ⟨u, hu⟩ : ∃ u, (s.each (List.range 4) fun s i => s.wrFld (lnkLane (4 * p + i) Reg.LNK_L_STATE) 11 0 (nthN skews i)) = u := ⟨_, rfl⟩
  have hregs : OnlyRegs s u (laneKeys p Reg.LNK_L_STATE) :=
    hu ▸ .each s fun i hi _ => .wrFld _ _ _ _ (mem_laneKeys (List.mem_range.1 hi))
  obtain ⟨k, hk⟩ : ∃ k : LinkPort, { LinkPort.init with
    lanes := (u.linkAt p).lanes, kept := (u.linkAt p).kept, scrTx := (u.linkAt p).scrTx, scrRx := (u.linkAt p).scrRx
    blockPos := (u.linkAt p).blockPos, block := (u.linkAt p).block } = k := ⟨_, rfl⟩
  obtain ⟨v, hv⟩ : ∃ v, (u.setLink p k).wr (lnkPort p Reg.LNK_P_UP_US) (BitVec.ofNat 32 (Config.elapsed (u.setLink p k).free)) = v := ⟨_, rfl⟩
  have hvregs : OnlyRegs (u.setLink p k) v [lnkPort p Reg.LNK_P_UP_US] := hv ▸ .wr _ _ _ (by simp)
  have he : exec (.deskewDone p skews) s = .next (({ v with free := v.free + 1 } : State).setPortState p 5) := by
    show execDeskewDone p skews s = _
    rw [execDeskewDone, if_neg (by simp [hp, hi])]
    simp only [hu, hk, hv]
  obtain ⟨w, hw⟩ : ∃ w : State, { v with free := v.free + 1 } = w := ⟨_, rfl⟩
  rw [hw] at he
  have hlink : (w.setPortState p 5).linkAt p = k := by
    rw [linkAt_of_links (setPortState_onlyRegs w p 5).links_eq, ← hw]
    exact (linkAt_of_links hvregs.links_eq p).trans (linkAt_setLink_same ..)
  have hmem : (w.setPortState p 5).mem = s.mem := by
    rw [(setPortState_onlyRegs w p 5).mem_eq, ← hw]
    exact hvregs.mem_eq.trans hregs.mem_eq
  refine ⟨_, he, portState_setPortState _ _ (by decide), ?_⟩
  rw [hlink, hmem, ← hk, linkAt_of_links hregs.links_eq]
  exact ⟨rfl, rfl, rfl, rfl, rfl, rfl⟩

theorem OnlyRegs.plan_eq (h : OnlyRegs s t ks) : t.plan = s.plan := (congrArg State.plan h.1).trans rfl

theorem trainFail_shows (s : State) (p : Nat) : (s.trainFail p).portState p = s.startAt p ∧
    (s.trainFail p).rd (lnkPort p Reg.LNK_P_TRAIN_FAILS) = s.rd (lnkPort p Reg.LNK_P_TRAIN_FAILS) + 1 := by
  obtain ⟨u, hu⟩ : ∃ u, s.bump (lnkPort p Reg.LNK_P_TRAIN_FAILS) 1 = u := ⟨_, rfl⟩
  have hregs : OnlyRegs s u [lnkPort p Reg.LNK_P_TRAIN_FAILS] := hu ▸ .wr _ _ _ (by simp)
  have hflag := lnkFlag_onlyRegs u p 5
  have hkeep {o : Nat} (ho : o ≠ Reg.LNK_P_TRAIN_FAILS) (h : 0x400 ≤ o) (h' : o < 0x500) :
      (u.lnkFlag p 5).rd (lnkPort p o) = s.rd (lnkPort p o) :=
    (lnkFlag_rd_port u p 5 p h h').trans (hregs.2 _ (by simpa using lnkPort_ne p ho))
  have href : (u.lnkFlag p 5).rd (lnkReg (p / 3) Reg.LNK_STATUS) = s.rd (lnkReg (p / 3) Reg.LNK_STATUS) :=
    (hflag.2 _ (by
      simp only [List.mem_cons, List.not_mem_nil, or_false, not_or]
      exact ⟨lnkReg_ne (by decide) (by decide) (by decide), lnkReg_ne (by decide) (by decide) (by decide)⟩)).trans
    (hregs.2 _ (by simpa using lnkReg_ne_lnkPort _ p (by decide) (by decide) (by decide)))
  have hstart : (u.lnkFlag p 5).startAt p = s.startAt p := StartsAlike.startAt_eq
    ⟨hflag.plan_eq.trans hregs.plan_eq, hkeep (by decide) (by decide) (by decide), href, rbit_of_rd (hkeep (by decide) (by decide) (by decide)) 21⟩
  rw [State.trainFail, hu]
  constructor
  · rw [portStart_portState, hstart]
  · rw [portStart_rd_port _ _ (by decide) (by decide), lnkFlag_rd_port _ _ _ _ (by decide) (by decide), ← hu, rd_bump_one]

theorem bringupTimeout_next {p : Port} (h : 2 ≤ s.portState p) (h' : s.portState p ≤ 4) (hr : s.refOk p = true) :
    exec (.bringupTimeout p) s = .next (s.trainFail p) := by
  show execBringupTimeout p s = _
  rw [execBringupTimeout, if_neg (by simp [hr]; omega)]

theorem cablePresent_completes (p : Port) (s : State) : Completes (exec (.cablePresenceChange p true) s) fun t => t.portCable p = true ∧
    (s.portState p = 1 → t.portState p = (s.wrFld (lnkPort p Reg.LNK_P_STATE) 21 21 1).startAt p) ∧
    (s.portState p ≠ 1 → t.portState p = s.portState p ∧ OnlyRegs s t [lnkPort p Reg.LNK_P_STATE]) := by
  obtain ⟨u, hu⟩ : ∃ u, s.wrFld (lnkPort p Reg.LNK_P_STATE) 21 21 1 = u := ⟨_, rfl⟩
  have hcable : u.portCable p = true := by
    rw [← hu, State.portCable, rbit_wrFld _ _ _ _ _ _ (by decide) (by decide)]
    rfl
  have hstate : u.portState p = s.portState p := hu ▸ fld_wrFld_other _ _ _ _ _ _ _ (by decide) (by decide) (by decide) (by decide)
  have he : exec (.cablePresenceChange p true) s = .next (if u.portState p = 1 then u.portStart p else u) := by
    show execCablePresenceChange p true s = _
    simp only [execCablePresenceChange, if_true, hu]
  refine ⟨_, he, ?_⟩
  rw [hstate, hu]
  split
  · next h => exact ⟨(portStart_portCable u p).trans hcable, fun _ => portStart_portState u p, fun h' => absurd h h'⟩
  · next h => exact ⟨hcable, fun h' => absurd h' h, fun _ => ⟨hstate, hu ▸ .wrFld _ _ _ _ (by simp)⟩⟩

theorem toInt_ofInt_of_small {x : Int} (h : x.natAbs ≤ 200) : (BitVec.ofInt 16 x).toInt = x := by
  rw [BitVec.toInt_ofInt]
  exact Int.bmod_eq_of_le (by omega) (by omega)

theorem ppmMeasure_completes {p : Port} (offset : Int) (h : 2 ≤ s.portState p) (h' : s.portState p ≤ 6) :
    Completes (exec (.ppmMeasure p offset) s) fun t =>
      (offset.natAbs ≤ 200 → OnlyRegs s t [lnkPort p Reg.LNK_P_PPM] ∧
        (BitVec.ofNat 16 (t.rdN (lnkPort p Reg.LNK_P_PPM))).toInt = offset) ∧
      (200 < offset.natAbs → ∃ u : State, t = u.portDown p ∧ u.rbit (lnkReg (p / 3) Reg.LNK_ERR_FLAGS) 8 = true ∧
        OnlyRegs s u [lnkPort p Reg.LNK_P_PPM, lnkReg (p / 3) Reg.LNK_ERR_FLAGS, lnkReg (p / 3) Reg.LNK_FAULT_COUNT]) := by
  obtain ⟨x, hx⟩ : ∃ x, BitVec.ofInt 16 offset = x := ⟨_, rfl⟩
  obtain ⟨u, hu⟩ : ∃ u, s.wr (lnkPort p Reg.LNK_P_PPM) (BitVec.ofNat 32 x.toNat) = u := ⟨_, rfl⟩
  have hregs : OnlyRegs s u [lnkPort p Reg.LNK_P_PPM] := hu ▸ .wr _ _ _ (by simp)
  have he : exec (.ppmMeasure p offset) s = .next (if 200 < offset.natAbs then u.portFail p 8 else u) := by
    show execPpmMeasure p offset s = _
    rw [execPpmMeasure, if_neg (by omega), hx, hu]
  refine ⟨_, he, fun hle => ?_, fun hgt => ?_⟩
  · rw [if_neg (by omega)]
    refine ⟨hregs, ?_⟩
    have hlt := x.isLt
    rw [← hu, rdN_wr_same, BitVec.toNat_ofNat, Nat.mod_eq_of_lt (by omega), BitVec.ofNat_toNat, BitVec.setWidth_eq, ← hx,
      toInt_ofInt_of_small hle]
  · rw [if_pos hgt]
    exact ⟨u.lnkFlag p 8, rfl, lnkFlag_shows u p (by decide),
      (hregs.mono (by simp)).trans ((lnkFlag_onlyRegs u p 8).mono (by simp))⟩

end Sys2Proof.Machine
end

section
set_option Elab.async false
/-! PROOF. Control writes of a port, and its bring-up together (O53). -/

namespace Sys2Proof.Machine

variable {s t u : State} {ks ks' : List Nat}

/-! ### Enable and test mode (R302, R304, R310) -/

/-- A write of a bit of a port's control leaves what else the start of bring-up turns on. -/
theorem ctrl_startsBeside {p : Nat} (h : LinksOnly s u (lnkPort p Reg.LNK_P_CTRL :: laneKeys p Reg.LNK_L_PAT)) :
    u.portFitted p = s.portFitted p ∧ u.portCable p = s.portCable p ∧ u.refOk p = s.refOk p ∧ u.portState p = s.portState p := by
  have hstate : u.rd (lnkPort p Reg.LNK_P_STATE) = s.rd (lnkPort p Reg.LNK_P_STATE) := h.kept _ (by
    simp only [List.mem_cons, not_or]
    exact ⟨lnkPort_ne p (by decide), lnkPort_notMem_laneKeys _ _ (by decide) (by decide) (by decide)⟩)
  have href : u.rd (lnkReg (p / 3) Reg.LNK_STATUS) = s.rd (lnkReg (p / 3) Reg.LNK_STATUS) := h.kept _ (by
    simp only [List.mem_cons, not_or]
    exact ⟨lnkReg_ne_lnkPort _ _ (by decide) (by decide) (by decide),
      lnkReg_notMem_laneKeys _ _ (by decide) (by decide) (by decide)⟩)
  exact ⟨portFitted_of_plan h.plan_eq p, rbit_of_rd hstate 21, rbit_of_rd href 12, portState_of_rd hstate⟩

theorem writeEnable_same {p : Nat} {on : Bool} (h : s.portFitted p = false ∨ s.portEnabled p = on) : s.writeEnable p on = s := by
  rw [State.writeEnable, if_pos (by simpa using h)]

theorem writeEnable_off {p : Nat} (hf : s.portFitted p = true) (he : s.portEnabled p = true) :
    s.writeEnable p false = (s.wrFld (lnkPort p Reg.LNK_P_CTRL) 0 0 0).portDown p := by
  simp only [State.writeEnable, hf, he, Bool.not_true, Bool.false_or, Bool.true_beq, Bool.false_eq_true, if_false]

theorem writeEnable_on {p : Nat} (hf : s.portFitted p = true) (he : s.portEnabled p = false) (ht : s.portTest p = false) :
    (s.writeEnable p true).portEnabled p = true ∧
    (s.writeEnable p true).portState p = if s.portCable p then (if s.refOk p then 2 else 0) else 1 := by
  obtain ⟨u, hu⟩ : ∃ u, s.wrFld (lnkPort p Reg.LNK_P_CTRL) 0 0 1 = u := ⟨_, rfl⟩
  have henabled : u.portEnabled p = true := by
    rw [← hu, State.portEnabled, rbit_wrFld _ _ _ _ _ _ (by decide) (by decide)]
    rfl
  have htest : u.portTest p = false := by
    rw [← hu, State.portTest, rbit_wrFld _ _ _ _ _ _ (by decide) (by decide), if_neg (by decide)]
    exact ht
  have hw : s.writeEnable p true = u.portStart p := by
    rw [State.writeEnable, if_neg (by simp [hf, he])]
    simp only [if_true, hu, htest, Bool.false_eq_true, if_false]
  obtain ⟨hfit, hcable, href, -⟩ := ctrl_startsBeside (p := p) (.ofRegs (hu ▸ OnlyRegs.wrFld s 0 0 1 List.mem_cons_self))
  rw [hw]
  refine ⟨(rbit_of_rd (portStart_rd_port u p (by decide) (by decide)) 0).trans henabled, ?_⟩
  rw [portStart_portState, State.startAt, hfit, hcable, href, henabled, htest, hf]
  cases s.portCable p <;> cases s.refOk p <;> rfl

/-- Test mode written, and the checkers of the port's lanes unlocked. -/
def State.testSet (s : State) (p v : Nat) : State :=
  (s.wrFld (lnkPort p Reg.LNK_P_CTRL) 2 2 v).each (List.range 4) fun s i => s.wrFld (lnkLane (4 * p + i) Reg.LNK_L_PAT) 27 27 0

theorem testSet_lanes (s : State) (p v : Nat) :
    OnlyRegs (s.wrFld (lnkPort p Reg.LNK_P_CTRL) 2 2 v) (s.testSet p v) (laneKeys p Reg.LNK_L_PAT) :=
  .each _ fun _ hi _ => .wrFld _ _ _ _ (mem_laneKeys (List.mem_range.1 hi))

theorem testSet_beside (s : State) (p v : Nat) : LinksOnly s (s.testSet p v) (lnkPort p Reg.LNK_P_CTRL :: laneKeys p Reg.LNK_L_PAT) :=
  .ofRegs ((OnlyRegs.wrFld s _ _ _ List.mem_cons_self).trans ((testSet_lanes s p v).mono (by simp)))

theorem testSet_ctrl (s : State) (p v : Nat) : (s.testSet p v).portTest p = v.testBit 0 ∧
    (s.testSet p v).portEnabled p = s.portEnabled p := by
  have hrd : (s.testSet p v).rd (lnkPort p Reg.LNK_P_CTRL) = (s.wrFld (lnkPort p Reg.LNK_P_CTRL) 2 2 v).rd (lnkPort p Reg.LNK_P_CTRL) :=
    (testSet_lanes s p v).2 _ (lnkPort_notMem_laneKeys _ _ (by decide) (by decide) (by decide))
  constructor
  · rw [State.portTest, rbit_of_rd hrd, rbit_wrFld _ _ _ _ _ _ (by decide) (by decide), if_pos (by decide)]
  · rw [State.portEnabled, rbit_of_rd hrd, rbit_wrFld _ _ _ _ _ _ (by decide) (by decide), if_neg (by decide)]
    rfl

theorem writeTest_same {p : Nat} {on : Bool} (h : s.portTest p = on) : s.writeTest p on = s := by
  rw [State.writeTest, if_pos (by simp [h])]

theorem writeTest_sets {p : Nat} (h : s.portTest p = false) : s.writeTest p true = (s.testSet p 1).portDown p := by
  rw [State.writeTest, if_neg (by simp [h]), State.testSet]
  simp only [if_true]

theorem writeTest_clears {p : Nat} (h : s.portTest p = true) : s.writeTest p false = (s.testSet p 0).portStart p := by
  rw [State.writeTest, if_neg (by simp [h]), State.testSet]
  simp only [Bool.false_eq_true, if_false]

theorem writeTest_off {p : Nat} (h : s.portTest p = true) : (s.writeTest p false).portTest p = false ∧
    (s.writeTest p false).portState p = if s.portFitted p = false ∨ s.portEnabled p = false then 0 else if s.portCable p = false then 1
      else if s.refOk p then 2 else 0 := by
  obtain ⟨hfit, hcable, href, -⟩ := ctrl_startsBeside (testSet_beside s p 0)
  obtain ⟨htest, henabled⟩ := testSet_ctrl s p 0
  have htest : (s.testSet p 0).portTest p = false := htest
  rw [writeTest_clears h]
  refine ⟨(rbit_of_rd (portStart_rd_port _ p (by decide) (by decide)) 2).trans htest, ?_⟩
  rw [portStart_portState, State.startAt, hfit, hcable, href, henabled, htest]
  simp

theorem writeTest_on {p : Nat} (h : s.portTest p = false) (hp : s.portState p < 2 ∨ 6 < s.portState p) :
    (s.writeTest p true).portTest p = true ∧
    (s.writeTest p true).portState p = if s.portFitted p then (if s.portCable p then 7 else 1) else 0 := by
  obtain ⟨hfit, hcable, -, hstate⟩ := ctrl_startsBeside (testSet_beside s p 1)
  obtain ⟨htest, -⟩ := testSet_ctrl s p 1
  have htest : (s.testSet p 1).portTest p = true := htest
  rw [writeTest_sets h, portDown_of_not_training (by rw [hstate]; exact hp)]
  refine ⟨(rbit_of_rd (portStart_rd_port _ p (by decide) (by decide)) 2).trans htest, ?_⟩
  rw [portStart_portState, State.startAt, hfit, hcable, htest]
  cases s.portFitted p <;> cases s.portCable p <;> rfl

theorem cableAbsent_next (p : Port) (s : State) :
    exec (.cablePresenceChange p false) s = .next ((s.wrFld (lnkPort p Reg.LNK_P_STATE) 21 21 0).portDown p) := by
  show execCablePresenceChange p false s = _
  simp only [execCablePresenceChange, Bool.false_eq_true, if_false]

/-! ### Together -/

/-- Settles O53: the start of bring-up as what its state turns on, and a case for each thing that brings a port up or down. -/
theorem portBringUpComplete : Obligations.PortBringUpComplete := by
  unfold Obligations.PortBringUpComplete
  refine ⟨fun p s h h' hx ht => portDown_shows h h' hx ht, fun l s => ?_, fun p s => ?_⟩
  · refine ⟨laneLockLoss_next, fun ctle hp hr hl => laneAcquireLock_completes ctle hp hr hl, fun r hp hl h4 => ?_,
      fun first rest hp hk h4 => ?_, fun kind len hr hd hl h4 => inject_completes kind len hr hd hl h4⟩
    · exact ⟨capabilityRecordReceive_bad hp hl h4,
        fun hgood hv hack hp h8 hagree => capabilityRecordReceive_deskews hp hl hgood hv
          (by rw [withRecord_acked hack]; exact h8) (by rw [withRecord_acked hack]; exact hagree),
        fun hgood hv hp => capabilityRecordReceive_shows hp hl h4 hgood hv⟩
    · obtain ⟨t, he, hframe, hlock, hchk, hbits, herrs⟩ := checkerLock_completes first rest hp hk h4
      exact ⟨t, he, hframe, hlock, hchk, hbits, herrs, fun n hlocked hline => checked_follows hlocked hline⟩
  · refine ⟨fun skews hp hi => deskewDone_completes skews hp hi,
      fun h h' hr => ⟨_, bringupTimeout_next h h' hr, trainFail_shows s p⟩, cablePresent_completes p s, cableAbsent_next p s,
      fun offset h h' => ppmMeasure_completes offset h h', fun hr hd hl => ?_⟩
    have henable (on : Bool) : exec (.enable p on) s = .next (s.writeEnable p on) := edgeDo_next (go := fun s => s.writeEnable p on) hr hd hl
    have htest (on : Bool) : exec (.testMode p on) s = .next (s.writeTest p on) := edgeDo_next (go := fun s => s.writeTest p on) hr hd hl
    refine ⟨edgeDo_next (go := fun s => s.portDown p) hr hd hl, fun on h => ?_, fun hf he ht => ⟨_, henable true, writeEnable_on hf he ht⟩,
      fun hf he => ?_, fun on h => ?_, fun h => ⟨_, htest false, writeTest_off h⟩, fun h hp => ⟨_, htest true, writeTest_on h hp⟩⟩
    · rw [henable, writeEnable_same h]
    · rw [henable, writeEnable_off hf he]
    · rw [htest, writeTest_same h]

end Sys2Proof.Machine
end

section
set_option Elab.async false
/-! SUPPORT. What a port sends (O54). -/

namespace Sys2Proof.Machine

variable {s t u : State} {ks ks' : List Nat}

theorem portUp_iff {p : Nat} : s.portUp p = true ↔ s.portState p = 5 ∨ s.portState p = 6 := by
  rw [State.portUp, Bool.or_eq_true, beq_iff_eq, beq_iff_eq]

/-! ### Lines sent with stuffing (R294, R298, R304) -/

/-- n lines have been sent: the port's state, memory, and what the port holds beside its lanes, stay. -/
structure Sends (p n : Nat) (s t : State) : Prop where
  state : t.portState p = s.portState p
  out : t.out.length = s.out.length + n
  mem : t.mem = s.mem
  beside : ∀ {β : Type} (P : LinkPort → β), (∀ (k : LinkPort) lanes, P { k with lanes } = P k) → P (t.linkAt p) = P (s.linkAt p)

namespace Sends

variable {p m n : Nat}

theorem refl (p : Nat) (s : State) : Sends p 0 s s := ⟨rfl, rfl, rfl, fun _ _ => rfl⟩

theorem trans (h : Sends p m s t) (h' : Sends p n t u) : Sends p (m + n) s u :=
  ⟨h'.state.trans h.state, by rw [h'.out, h.out, Nat.add_assoc], h'.mem.trans h.mem, fun P hP => (h'.beside P hP).trans (h.beside P hP)⟩

theorem mapLane (p : Nat) (s : State) (l : Nat) (f : LaneState → LaneState) : Sends p 0 s (s.mapLane l f) :=
  ⟨portState_of_rd (rd_setLink ..), rfl, rfl, fun P hP => linkAt_mapLane_beside P hP s l p f⟩

theorem emit (p : Nat) (s : State) (o : Output) : Sends p 1 s (s.emit o) :=
  ⟨rfl, by simp [State.emit], rfl, fun _ _ => rfl⟩

theorem bumpLane (p : Nat) (s : State) (l n : Nat) {o : Nat} (h : 0x1000 ≤ o) (h' : o < 0x2000) : Sends p 0 s (s.bump (lnkLane l o) n) :=
  ⟨portState_of_rd (rd_bump_ne _ _ (lnkPort_ne_lnkLane _ _ (by decide) h h')), by rw [Nat.add_zero, bump_eq, wr_out],
    by rw [bump_eq, wr_mem], fun P _ => congrArg P (linkAt_of_links (by rw [bump_eq, wr_links]) p)⟩

theorem each {α : Type} {F : State → α → State} (h : ∀ s x, Sends p 1 s (F s x)) (s : State) (xs : List α) :
    Sends p xs.length s (s.each xs F) := by
  induction xs generalizing s with
  | nil => exact refl p s
  | cons x xs ih =>
    have := (h s x).trans (ih (F s x))
    rwa [Nat.add_comm] at this

theorem sendLevels (p : Nat) (s : State) (l : Nat) (levels : List Nat) : Sends p 1 s (s.sendLevels l levels true) :=
  ((mapLane p s l _).trans (bumpLane p _ l _ (by decide) (by decide))).trans (emit p _ _)

theorem sendAside (p : Nat) (s : State) (l : Nat) (levels : List Nat) : Sends p 1 s (s.sendAside l levels) :=
  (sendLevels p s l levels).trans (mapLane p _ l _)

theorem sendTraining (p : Nat) (s : State) (i : Nat) : Sends p 1 s (s.sendTraining p i) :=
  ((mapLane p s (4 * p + i) _).trans (mapLane p _ (4 * p + i) _)).trans (sendAside p _ (4 * p + i) _)

end Sends

/-! ### Pattern symbols (R310, R311) -/

/-- Only ports and what is sent have changed, by n lines. -/
structure SendsOnly (n : Nat) (s t : State) : Prop where
  frame : t = { s with links := t.links, out := t.out }
  out : t.out.length = s.out.length + n

theorem SendsOnly.trans {m n : Nat} (h : SendsOnly m s t) (h' : SendsOnly n t u) : SendsOnly (m + n) s u :=
  ⟨h'.frame.trans (congrArg (fun x : State => { x with links := u.links, out := u.out }) h.frame),
    by rw [h'.out, h.out, Nat.add_assoc]⟩

theorem SendsOnly.regs_eq {n : Nat} (h : SendsOnly n s t) : t.regs = s.regs := (congrArg State.regs h.frame).trans rfl

theorem sendPattern_sends {l : Nat} (h : s.fld (lnkLane l Reg.LNK_L_PAT) 31 30 ≠ 0) : SendsOnly 1 s (s.sendPattern l) := by
  have he := State.sendPattern.eq_def s l
  rw [if_neg h] at he
  rw [he]
  exact ⟨rfl, List.length_append⟩

theorem each_sendPattern (p : Nat) (xs : List Nat) (h : ∀ i ∈ xs, s.fld (lnkLane (4 * p + i) Reg.LNK_L_PAT) 31 30 ≠ 0) :
    SendsOnly xs.length s (s.each xs fun s i => s.sendPattern (4 * p + i)) := by
  induction xs generalizing s with
  | nil => exact ⟨rfl, rfl⟩
  | cons i xs ih =>
    have hi := sendPattern_sends (h i List.mem_cons_self)
    have hrest := hi.trans (ih fun j hj => by
      rw [fld_congr _ hi.regs_eq]
      exact h j (List.mem_cons_of_mem i hj))
    rwa [Nat.add_comm] at hrest

theorem each_sendPattern_off (p : Nat) (xs : List Nat) (h : ∀ i ∈ xs, s.fld (lnkLane (4 * p + i) Reg.LNK_L_PAT) 31 30 = 0) :
    s.each xs (fun s i => s.sendPattern (4 * p + i)) = s := by
  induction xs with
  | nil => rfl
  | cons i xs ih =>
    rw [each_cons, State.sendPattern, if_pos (h i List.mem_cons_self)]
    exact ih fun j hj => h j (List.mem_cons_of_mem i hj)

/-! ### The transmitter (R294, R304) -/

/-- What a port sends with its reference, by its state. -/
theorem codewordTransmit_cases (p : Port) (shaped : Bool) (hr : s.refOk p = true) :
    (s.portUp p = true → (s.linkAt p).idleTx = false → exec (.codewordTransmit p shaped) s = .next (s.nextCodeword p shaped)) ∧
    (s.portState p = 4 → exec (.codewordTransmit p shaped) s = .next (s.nextCodeword p false)) ∧
    (s.portState p = 2 ∨ s.portState p = 3 → exec (.codewordTransmit p shaped) s =
      .next (s.each (List.range 4) fun s i => s.sendTraining p i)) ∧
    (s.portState p = 7 → exec (.codewordTransmit p shaped) s = .next (s.each (List.range 4) fun s i => s.sendPattern (4 * p + i))) := by
  have he : exec (.codewordTransmit p shaped) s = execCodewordTransmit p shaped s := rfl
  rw [execCodewordTransmit, if_neg (by simp [hr])] at he
  refine ⟨fun h hi => ?_, fun h => ?_, fun h => ?_, fun h => ?_⟩
  · rw [he, if_pos (portUp_iff.1 h), if_neg (by simp [hi])]
  · rw [he, if_neg (by omega), if_pos h]
  · rw [he, if_neg (by omega), if_neg (by omega), if_pos h]
  · rw [he, if_neg (by omega), if_neg (by omega), if_neg (by omega), if_pos h]

theorem codewordTransmit_sends {p : Port} {shaped : Bool} (hr : s.refOk p = true) :
    (s.portUp p = true → (s.linkAt p).idleTx = false →
      exec (.codewordTransmit p shaped) s = .next (s.nextCodeword p shaped)) ∧
    (s.portState p = 4 → exec (.codewordTransmit p shaped) s = .next (s.nextCodeword p false)) ∧
    (s.portState p = 2 ∨ s.portState p = 3 → Completes (exec (.codewordTransmit p shaped) s) fun t =>
      t.portState p = s.portState p ∧ t.out.length = s.out.length + 4 ∧ t.mem = s.mem) ∧
    (s.portState p = 7 → (∀ i < 4, s.fld (lnkLane (4 * p + i) Reg.LNK_L_PAT) 31 30 = 0) →
      exec (.codewordTransmit p shaped) s = .next s) ∧
    (s.portState p = 7 → (∀ i < 4, s.fld (lnkLane (4 * p + i) Reg.LNK_L_PAT) 31 30 ≠ 0) →
      Completes (exec (.codewordTransmit p shaped) s) fun t => t.out.length = s.out.length + 4 ∧
        t = { s with links := t.links, out := t.out }) := by
  obtain ⟨hup, hdeskew, htrain, htest⟩ := codewordTransmit_cases p shaped hr
  refine ⟨hup, hdeskew, fun h => ⟨_, htrain h, ?_⟩, fun h h0 => ?_, fun h hne => ⟨_, htest h, ?_⟩⟩
  · have hs := Sends.each (fun s i => Sends.sendTraining p s i) s (List.range 4)
    exact ⟨hs.state, hs.out, hs.mem⟩
  · rw [htest h, each_sendPattern_off p _ fun i hi => h0 i (List.mem_range.1 hi)]
  · have hs := each_sendPattern p (List.range 4) fun i hi => hne i (List.mem_range.1 hi)
    exact ⟨hs.out, hs.frame⟩

/-! ### Electrical idle (R309, R312) -/

theorem setIdle_shows {p : Nat} {tx : Bool} {st : Nat} (hst : st < 16) (s : State) :
    let t := (s.setLink p { s.linkAt p with idleTx := tx }).setPortState p st
    t.linkAt p = { s.linkAt p with idleTx := tx } ∧ t.portState p = st ∧ t.out = s.out := by
  refine ⟨?_, portState_setPortState _ _ hst, ?_⟩
  · rw [linkAt_of_links (setPortState_onlyRegs ..).links_eq, linkAt_setLink_same]
  · exact (LinksOnly.ofRegs (setPortState_onlyRegs ..)).out_eq

theorem idleTimerExpiry_sleeps {p : Port} (hup : s.portUp p = true) (ht : s.fld (lnkPort p Reg.LNK_P_IDLE_TIMER) 15 0 ≠ 0)
    (hq : (s.linkAt p).quiet = true) (hr : (s.linkAt p).replay = []) (hi : (s.linkAt p).idleTx = false) :
    Completes (exec (.idleTimerExpiry p) s) fun t =>
      (t.linkAt p).idleTx = true ∧ t.portState p = 6 ∧ t.out.length = s.out.length + 4 := by
  obtain ⟨u, hu⟩ : ∃ u, (s.each (List.range 4) fun s i => s.sendAside (4 * p + i) (markerLevels 2 i (s.linkAt p).block)) = u := ⟨_, rfl⟩
  have hsends : Sends p 4 s u := hu ▸ Sends.each (fun s i => Sends.sendAside p s (4 * p + i) _) s (List.range 4)
  have he : exec (.idleTimerExpiry p) s = .next ((u.setLink p { u.linkAt p with idleTx := true }).setPortState p 6) := by
    show execIdleTimerExpiry p s = _
    rw [execIdleTimerExpiry, if_neg (by simp [hup, ht, hq, hr, hi])]
    simp only [hu]
  obtain ⟨hlink, hstate, hout⟩ := setIdle_shows (p := p) (tx := true) (by decide : 6 < 16) u
  exact ⟨_, he, congrArg LinkPort.idleTx hlink, hstate, (congrArg List.length hout).trans hsends.out⟩

theorem idleExit_wakes {p : Port} (hup : s.portUp p = true) (hi : (s.linkAt p).idleTx = true) (hq : (s.linkAt p).quiet = false) :
    Completes (exec (.idleExit p) s) fun t => (t.linkAt p).idleTx = false ∧
      t.portState p = (if (s.linkAt p).idleRx then 6 else 5) ∧ (t.linkAt p).queue = (s.linkAt p).queue := by
  obtain ⟨u, hu⟩ : ∃ u, (s.each (List.range 4) fun s i =>
    (s.mapLane (4 * p + i) fun x => { x with fill := (prbsLevels 2 4096 (s.laneAt (4 * p + i)).fill).2 }).sendAside (4 * p + i)
      (prbsLevels 2 4096 (s.laneAt (4 * p + i)).fill).1) = u := ⟨_, rfl⟩
  have hsends : Sends p 4 s u := hu ▸
    Sends.each (fun s i => (Sends.mapLane p s (4 * p + i) _).trans (Sends.sendAside p _ (4 * p + i) _)) s (List.range 4)
  have he : exec (.idleExit p) s =
      .next ((u.setLink p { u.linkAt p with idleTx := false }).setPortState p (if (s.linkAt p).idleRx then 6 else 5)) := by
    show execIdleExit p s = _
    rw [execIdleExit, if_neg (by simp [hup, hi, hq])]
    simp only [hu]
  obtain ⟨hlink, hstate, -⟩ := setIdle_shows (p := p) (tx := false) (st := if (s.linkAt p).idleRx then 6 else 5) (by split <;> decide) u
  exact ⟨_, he, congrArg LinkPort.idleTx hlink, hstate, (congrArg LinkPort.queue hlink).trans (hsends.beside LinkPort.queue fun _ _ => rfl)⟩

end Sys2Proof.Machine
end

section
set_option Elab.async false
/-! SUPPORT. What a port makes of the codewords it receives (O54). -/

namespace Sys2Proof.Machine

variable {s t u : State} {ks ks' : List Nat}

/-! ### Lines read (R298, R309) -/

theorem takeLines_linksOnly {p : Nat} {lines : List (List Nat)} {x : List Nat × List Nat × State}
    (h : s.takeLines p lines = some x) : LinksOnly s x.2.2 [] := by
  rw [State.takeLines] at h
  split at h
  · obtain rfl := Option.some.inj h
    refine .each s fun i _ v => ?_
    split
    · exact .mapLane ..
    · exact .refl ..
  · cases h

theorem receiveLines_linksOnly {p : Nat} {lines : List (List Nat)} {c : CodewordFind}
    (h : s.receiveLines p lines = some (c, u)) : LinksOnly s u [] := by
  unfold State.receiveLines at h
  split at h
  · cases h
  · next cw viol v hl =>
    obtain ⟨-, rfl⟩ := Prod.mk.inj (Option.some.inj h)
    exact takeLines_linksOnly hl

theorem leaveIdle_shows {p : Nat} (h : s.portUp p = true) : (s.leaveIdle p).portUp p = true ∧
    (s.leaveIdle p).linkAt p = { s.linkAt p with idleRx := false } ∧ LinksOnly s (s.leaveIdle p) [lnkPort p Reg.LNK_P_STATE] := by
  rw [State.leaveIdle]
  by_cases hi : (s.linkAt p).idleRx = true
  · obtain ⟨st, hst⟩ : ∃ st, (if (s.linkAt p).idleTx then 6 else 5) = st := ⟨_, rfl⟩
    have h56 : st = 5 ∨ st = 6 := by
      rw [← hst]
      split <;> simp
    rw [if_pos hi, hst]
    refine ⟨portUp_iff.2 ?_, ?_, (LinksOnly.setLink ..).trans (.ofRegs (setPortState_onlyRegs ..))⟩
    · rwa [portState_setPortState _ _ (by omega)]
    · rw [linkAt_of_links (setPortState_onlyRegs ..).links_eq, linkAt_setLink_same]
  · rw [if_neg hi]
    have hi : false = (s.linkAt p).idleRx := (Bool.eq_false_iff.2 hi).symm
    exact ⟨h, by rw [hi], .refl ..⟩

/-! ### What a codeword counts (R298, R313) -/

/-- The registers in which a codeword received is counted. -/
def countedKeys (p : Nat) : List Nat := lnkPort p Reg.LNK_P_CW_CE :: (lnkPort p Reg.LNK_P_CW_CE + 4) ::
  lnkReg (p / 3) Reg.LNK_ERR_FLAGS :: lnkReg (p / 3) Reg.LNK_FAULT_COUNT ::
  (laneKeys p Reg.LNK_L_SYM_ERRS ++ laneKeys p Reg.LNK_L_STUFF_VIOL)

theorem lnkPort_notMem_countedKeys (p : Nat) {o : Nat} (ho : 0x400 ≤ o) (ho' : o < 0x500) (h : o ≠ Reg.LNK_P_CW_CE)
    (h4 : o ≠ Reg.LNK_P_CW_CE + 4) : lnkPort p o ∉ countedKeys p := by
  simp only [countedKeys, List.mem_cons, List.mem_append, not_or, lnkPort_add]
  exact ⟨lnkPort_ne p h, lnkPort_ne p h4, (lnkReg_ne_lnkPort _ _ (by decide) ho ho').symm, (lnkReg_ne_lnkPort _ _ (by decide) ho ho').symm,
    lnkPort_notMem_laneKeys _ _ ho' (by decide) (by decide), lnkPort_notMem_laneKeys _ _ ho' (by decide) (by decide)⟩

theorem countLine_counts (s : State) (p : Nat) (c : CodewordFind) :
    OnlyRegs (s.bump64 (lnkPort p Reg.LNK_P_CW) 1) (s.countLine p c) (countedKeys p) := by
  obtain ⟨u, hu⟩ : ∃ u, s.bump64 (lnkPort p Reg.LNK_P_CW) 1 = u := ⟨_, rfl⟩
  have hsyms (v : State) : OnlyRegs v (v.each (List.range 4) fun s i => s.bump (lnkLane (4 * p + i) Reg.LNK_L_SYM_ERRS) (nthN c.fixed i))
      (countedKeys p) := .each v fun i hi _ => .wr _ _ _ (by
    simp only [countedKeys, List.mem_cons, List.mem_append]
    exact .inr (.inr (.inr (.inr (.inl (mem_laneKeys (List.mem_range.1 hi)))))))
  have hviol (v : State) : OnlyRegs v (v.each (List.range 4) fun s i => if nthN c.viol i = 0 then s
      else (s.bump (lnkLane (4 * p + i) Reg.LNK_L_STUFF_VIOL) (nthN c.viol i)).lnkFlag p 2) (countedKeys p) :=
    .each v fun i hi _ => .ite (.refl ..) ((OnlyRegs.wr _ _ _ (by
      simp only [countedKeys, List.mem_cons, List.mem_append]
      exact .inr (.inr (.inr (.inr (.inr (mem_laneKeys (List.mem_range.1 hi)))))))).trans
        ((lnkFlag_onlyRegs ..).mono (by simp [countedKeys])))
  rw [State.countLine, hu]
  exact ((hsyms u).trans (hviol _)).trans (.ite ((bump64_onlyRegs ..).mono (by simp [countedKeys])) (.refl ..))

theorem countLine_shows (s : State) (p : Nat) (c : CodewordFind) : (s.countLine p c).links = s.links ∧
    (∀ o, 0x400 ≤ o → o < 0x420 → (s.countLine p c).rd (lnkPort p o) = s.rd (lnkPort p o)) ∧
    (s.countLine p c).rd (lnkPort p Reg.LNK_P_CW_UE) = s.rd (lnkPort p Reg.LNK_P_CW_UE) ∧
    (s.countLine p c).rd64 (lnkPort p Reg.LNK_P_CW) = (s.rd64 (lnkPort p Reg.LNK_P_CW) + 1) % 2 ^ 64 := by
  obtain ⟨u, hu⟩ : ∃ u, s.bump64 (lnkPort p Reg.LNK_P_CW) 1 = u := ⟨_, rfl⟩
  have hcw := bump64_onlyRegs s (lnkPort p Reg.LNK_P_CW) 1
  have hcount := countLine_counts s p c
  have h64 := rd64_bump64 s (lnkPort p Reg.LNK_P_CW) 1
  rw [hu] at hcw hcount h64
  have hother {o : Nat} (h₁ : o ≠ Reg.LNK_P_CW) (h₂ : o ≠ Reg.LNK_P_CW + 4) : u.rd (lnkPort p o) = s.rd (lnkPort p o) :=
    hcw.2 _ (by simpa [lnkPort_add] using And.intro (lnkPort_ne p h₁) (lnkPort_ne p h₂))
  refine ⟨hcount.links_eq.trans hcw.links_eq, fun o h₁ h₂ => ?_, ?_, ?_⟩
  · simp only [Reg.LNK_P_CW] at *
    exact (hcount.2 _ (lnkPort_notMem_countedKeys p h₁ (by omega) (by simp only [Reg.LNK_P_CW_CE]; omega)
      (by simp only [Reg.LNK_P_CW_CE]; omega))).trans (hother (by omega) (by omega))
  · exact (hcount.2 _ (lnkPort_notMem_countedKeys p (by decide) (by decide) (by decide) (by decide))).trans (hother (by decide) (by decide))
  · rw [← h64]
    refine rd64_of_rd (hcount.2 _ (lnkPort_notMem_countedKeys p (by decide) (by decide) (by decide) (by decide))) ?_
    rw [lnkPort_add]
    exact hcount.2 _ (lnkPort_notMem_countedKeys p (by decide) (by decide) (by decide) (by decide))

/-! ### Codewords taken (R299 to R301) -/

/-- A port that is up has read a codeword: it is awake and counted, and only the codeword's message is left to take. -/
structure Heard (p : Nat) (s u x : State) : Prop where
  link : ∃ scrRx, x.linkAt p = { u.linkAt p with idleRx := false, scrRx := scrRx }
  ue : x.rd (lnkPort p Reg.LNK_P_CW_UE) = s.rd (lnkPort p Reg.LNK_P_CW_UE)
  cw : x.rd64 (lnkPort p Reg.LNK_P_CW) = (s.rd64 (lnkPort p Reg.LNK_P_CW) + 1) % 2 ^ 64

/-- The message of a codeword that a port with a record reads. -/
def LinkPort.heard (l : LinkPort) (c : CodewordFind) : Message := messageOf (descramble l.scrRx (c.symbols.flatMap (bitsLow 10))).1

theorem codewordReceive_hears {p : Port} {lines : List (List Nat)} {c : CodewordFind} (hup : s.portUp p = true)
    (h : s.receiveLines p lines = some (c, u)) : ∃ x, Heard p s u x ∧ exec (.codewordReceive p lines) s =
      .next (if c.good && ((u.linkAt p).heard c).good then x.goodCodeword p ((u.linkAt p).heard c) else x.badCodeword p !c.good) := by
  have hread := receiveLines_linksOnly h
  obtain ⟨v, hv⟩ : ∃ v, u.leaveIdle p = v := ⟨_, rfl⟩
  obtain ⟨hvup, hvlink, hvonly⟩ := leaveIdle_shows (s := u) (p := p) (by rwa [portUp_of_rd (hread.kept _ List.not_mem_nil)])
  obtain ⟨w, hw⟩ : ∃ w, v.countLine p c = w := ⟨_, rfl⟩
  obtain ⟨hwlinks, hwrd, hwue, hwcw⟩ := countLine_shows v p c
  rw [hv] at hvup hvlink hvonly
  rw [hw] at hwlinks hwrd hwue hwcw
  have hwlink : w.linkAt p = { u.linkAt p with idleRx := false } := (linkAt_of_links hwlinks p).trans hvlink
  have hwup : w.portUp p = true := (portUp_of_rd (hwrd _ (by decide) (by decide))).trans hvup
  have hvrd (o : Nat) (ho : o ≠ Reg.LNK_P_STATE) : v.rd (lnkPort p o) = s.rd (lnkPort p o) :=
    (hvonly.kept _ (by simpa using lnkPort_ne p ho)).trans (hread.kept _ List.not_mem_nil)
  obtain ⟨r, hr⟩ : ∃ r, descramble (w.linkAt p).scrRx (c.symbols.flatMap (bitsLow 10)) = r := ⟨_, rfl⟩
  have hm : (u.linkAt p).heard c = messageOf r.1 := by rw [← hr, hwlink, LinkPort.heard]
  obtain ⟨x, hx⟩ : ∃ x, w.setLink p { w.linkAt p with scrRx := r.2 } = x := ⟨_, rfl⟩
  have hxrd (k : Nat) : x.rd k = w.rd k := hx ▸ rd_setLink ..
  refine ⟨x, ⟨⟨r.2, ?_⟩, ?_, ?_⟩, ?_⟩
  · rw [← hx, linkAt_setLink_same, hwlink]
  · rw [hxrd, hwue, hvrd _ (by decide)]
  · rw [rd64_of_rd (hxrd _) (hxrd _), hwcw, rd64_of_rd (hvrd _ (by decide)) (by rw [lnkPort_add, hvrd _ (by decide)])]
  · have hxup : x.portUp p = true := (portUp_of_rd (hxrd _)).trans hwup
    have hnot : ¬(!s.receives p) = true := by simp [State.receives, hup]
    show execCodewordReceive p lines s = _
    simp only [execCodewordReceive, if_neg hnot, h, hv, hw, hr, hx, hxup, hm, Bool.not_true, Bool.false_eq_true, if_false]

theorem badCodeword_shows (s : State) (p : Nat) (ue : Bool) : (s.badCodeword p ue).linkAt p = { s.linkAt p with nak := true } ∧
    (s.badCodeword p ue).rd (lnkPort p Reg.LNK_P_CW_UE) = s.rd (lnkPort p Reg.LNK_P_CW_UE) + 1 ∧
    (s.badCodeword p ue).rd64 (lnkPort p Reg.LNK_P_CW) = s.rd64 (lnkPort p Reg.LNK_P_CW) := by
  obtain ⟨u, hu⟩ : ∃ u, s.bump (lnkPort p Reg.LNK_P_CW_UE) 1 = u := ⟨_, rfl⟩
  obtain ⟨v, hv⟩ : ∃ v, (if ue then u.lnkFlag p 1 else u) = v := ⟨_, rfl⟩
  have hregs : OnlyRegs s u [lnkPort p Reg.LNK_P_CW_UE] := hu ▸ .wr _ _ _ (by simp)
  have hflag : OnlyRegs u v [lnkReg (p / 3) Reg.LNK_ERR_FLAGS, lnkReg (p / 3) Reg.LNK_FAULT_COUNT] :=
    hv ▸ .ite (lnkFlag_onlyRegs ..) (.refl ..)
  have hrd {o : Nat} (h : 0x400 ≤ o) (h' : o < 0x500) : v.rd (lnkPort p o) = u.rd (lnkPort p o) := hflag.2 _ (by
    simp only [List.mem_cons, List.not_mem_nil, or_false, not_or]
    exact ⟨(lnkReg_ne_lnkPort _ _ (by decide) h h').symm, (lnkReg_ne_lnkPort _ _ (by decide) h h').symm⟩)
  have he : s.badCodeword p ue = v.setLink p { v.linkAt p with nak := true } := by rw [State.badCodeword, hu, hv]
  rw [he]
  refine ⟨?_, ?_, ?_⟩
  · rw [linkAt_setLink_same, linkAt_of_links (hflag.links_eq.trans hregs.links_eq)]
  · rw [rd_setLink, hrd (by decide) (by decide), ← hu, rd_bump_one]
  · refine rd64_of_rd ?_ ?_
    · rw [rd_setLink, hrd (by decide) (by decide), hregs.2 _ (by simpa using lnkPort_ne p (by decide))]
    · rw [rd_setLink, lnkPort_add, hrd (by decide) (by decide), hregs.2 _ (by simpa using lnkPort_ne p (by decide))]

/-- A link slot without a nak: acks and credits are taken, and nothing else but what is left to send again. -/
theorem takeLink_shows {p : Nat} {m : Message} (h : bitOf (bytesNat ((m.link.drop 16).take 2)) 15 = false) :
    ∃ resend tries, (s.takeLink p m).linkAt p = { s.linkAt p with
      replay := ackTo (s.linkAt p).replay m.ack, resend := resend, tries := tries, idleCredits := List.replicate 16 0
      credits := (List.range 16).map fun c => nthN (s.linkAt p).credits c + (m.link.getD c 0).toNat } := by
  unfold State.takeLink
  extract_lets l rs w nak n rs' credits moved v again
  have hnak : nak = false := h
  rw [hnak, Bool.false_and, Bool.false_and, if_neg Bool.false_ne_true]
  have hrs : rs' = rs := if_neg (by rw [hnak]; exact Bool.false_ne_true)
  refine ⟨l.resend.filter fun x => rs'.any fun y => y.seq == x, if rs'.length < l.replay.length then 0 else l.tries, ?_⟩
  refine (linkAt_setLink_same ..).trans ?_
  rw [if_neg (fun h => Bool.false_ne_true (hnak.symm.trans h.1))]
  exact congrArg (fun x => ({ l with
    replay := x, resend := l.resend.filter fun x => rs'.any fun y => y.seq == x
    tries := if rs'.length < l.replay.length then 0 else l.tries, credits := credits, idleCredits := List.replicate 16 0 } : LinkPort)) hrs

theorem goodCodeword_idle {p : Nat} {m : Message} (h : (m.link.getD 21 0).getLsbD 0 = true) : s.goodCodeword p m = s.takeLink p m :=
  if_pos h

theorem goodCodeword_unexpected {p : Nat} {m : Message} (h : (m.link.getD 21 0).getLsbD 0 = false) (hm : m.seq ≠ (s.linkAt p).expect) :
    (s.goodCodeword p m).linkAt p = { s.linkAt p with nak := true } := by
  rw [State.goodCodeword, if_neg (Bool.eq_false_iff.1 h), if_pos hm, linkAt_setLink_same]

/-- The data codeword expected advances the count, and its packets arrive. -/
theorem goodCodeword_expected {p : Nat} {m : Message} (h : (m.link.getD 21 0).getLsbD 0 = false) (hm : m.seq = (s.linkAt p).expect) :
    ∃ (x : State) (part : List Byte) (packets : List FabricPacket), s.goodCodeword p m = x.takeLink p m ∧
      x.linkAt p = { s.linkAt p with expect := (m.seq + 1) % 1024, lastGood := m.seq, nak := false, ackDue := true, part := part
                                     arrived := (s.linkAt p).arrived ++ packets } := by
  have he : s.goodCodeword p m = s.goodCodeword p m := rfl
  conv at he => rhs; unfold State.goodCodeword
  extract_lets l idle w r v x at he
  rw [if_neg (show ¬idle = true from Bool.eq_false_iff.1 h), if_neg (not_not.2 hm)] at he
  refine ⟨x, r.1, r.2, he, ?_⟩
  have hx : x.links = v.links := each_keeps v State.links _ (fun _ _ => (bump64_onlyRegs ..).links_eq) _
  rw [linkAt_of_links hx]
  exact linkAt_setLink_same ..

theorem codewordReceive_refused {p : Port} {lines : List (List Nat)} {c : CodewordFind} (hup : s.portUp p = true)
    (h : s.receiveLines p lines = some (c, u)) (hbad : c.good = false ∨ ((u.linkAt p).heard c).good = false) :
    Completes (exec (.codewordReceive p lines) s) fun t =>
      t.rd (lnkPort p Reg.LNK_P_CW_UE) = s.rd (lnkPort p Reg.LNK_P_CW_UE) + 1 ∧
      t.rd64 (lnkPort p Reg.LNK_P_CW) = (s.rd64 (lnkPort p Reg.LNK_P_CW) + 1) % 2 ^ 64 ∧ (t.linkAt p).idleRx = false ∧
      (t.linkAt p).nak = true ∧ (t.linkAt p).expect = (u.linkAt p).expect ∧ (t.linkAt p).arrived = (u.linkAt p).arrived := by
  obtain ⟨x, ⟨⟨r, hlink⟩, hue, hcw⟩, he⟩ := codewordReceive_hears hup h
  obtain ⟨hblink, hbue, hbcw⟩ := badCodeword_shows x p !c.good
  rw [if_neg (by rcases hbad with h | h <;> simp [h])] at he
  refine ⟨_, he, hbue.trans (by rw [hue]), hbcw.trans hcw, ?_⟩
  rw [hblink, hlink]
  exact ⟨rfl, rfl, rfl, rfl⟩

theorem codewordReceive_unexpected {p : Port} {lines : List (List Nat)} {c : CodewordFind} (hup : s.portUp p = true)
    (h : s.receiveLines p lines = some (c, u)) (hc : c.good = true) (hm : ((u.linkAt p).heard c).good = true)
    (hi : (((u.linkAt p).heard c).link.getD 21 0).getLsbD 0 = false) (hseq : ((u.linkAt p).heard c).seq ≠ (u.linkAt p).expect) :
    Completes (exec (.codewordReceive p lines) s) fun t => (t.linkAt p).nak = true ∧ (t.linkAt p).expect = (u.linkAt p).expect ∧
      (t.linkAt p).arrived = (u.linkAt p).arrived := by
  obtain ⟨x, ⟨⟨r, hlink⟩, -, -⟩, he⟩ := codewordReceive_hears hup h
  rw [if_pos (by simp [hc, hm])] at he
  refine ⟨_, he, ?_⟩
  beta_reduce
  rw [goodCodeword_unexpected hi (by rw [hlink]; exact hseq), hlink]
  exact ⟨rfl, rfl, rfl⟩

theorem codewordReceive_expected {p : Port} {lines : List (List Nat)} {c : CodewordFind} (hup : s.portUp p = true)
    (h : s.receiveLines p lines = some (c, u)) (hc : c.good = true) (hm : ((u.linkAt p).heard c).good = true)
    (hi : (((u.linkAt p).heard c).link.getD 21 0).getLsbD 0 = false) (hseq : ((u.linkAt p).heard c).seq = (u.linkAt p).expect)
    (hnak : bitOf (bytesNat ((((u.linkAt p).heard c).link.drop 16).take 2)) 15 = false) :
    Completes (exec (.codewordReceive p lines) s) fun t => (t.linkAt p).nak = false ∧
      (t.linkAt p).expect = ((u.linkAt p).expect + 1) % 1024 ∧ (t.linkAt p).lastGood = (u.linkAt p).expect ∧
      (t.linkAt p).ackDue = true ∧ (u.linkAt p).arrived <+: (t.linkAt p).arrived ∧
      (t.linkAt p).replay = ackTo (u.linkAt p).replay ((u.linkAt p).heard c).ack := by
  obtain ⟨x, ⟨⟨r, hlink⟩, -, -⟩, he⟩ := codewordReceive_hears hup h
  obtain ⟨y, part, packets, hy, hylink⟩ := goodCodeword_expected (s := x) hi (by rw [hlink]; exact hseq)
  obtain ⟨resend, tries, htlink⟩ := takeLink_shows (s := y) (p := p) hnak
  rw [if_pos (by simp [hc, hm]), hy] at he
  refine ⟨_, he, ?_⟩
  beta_reduce
  rw [htlink, hylink, hlink, hseq]
  exact ⟨rfl, rfl, rfl, rfl, List.prefix_append _ _, rfl⟩

theorem codewordReceive_idle {p : Port} {lines : List (List Nat)} {c : CodewordFind} (hup : s.portUp p = true)
    (h : s.receiveLines p lines = some (c, u)) (hc : c.good = true) (hm : ((u.linkAt p).heard c).good = true)
    (hi : (((u.linkAt p).heard c).link.getD 21 0).getLsbD 0 = true)
    (hnak : bitOf (bytesNat ((((u.linkAt p).heard c).link.drop 16).take 2)) 15 = false) :
    Completes (exec (.codewordReceive p lines) s) fun t => (t.linkAt p).arrived = (u.linkAt p).arrived ∧
      (t.linkAt p).replay = ackTo (u.linkAt p).replay ((u.linkAt p).heard c).ack ∧
      ∀ v < 16, nthN (t.linkAt p).credits v = nthN (u.linkAt p).credits v + (((u.linkAt p).heard c).link.getD v 0).toNat := by
  obtain ⟨x, ⟨⟨r, hlink⟩, -, -⟩, he⟩ := codewordReceive_hears hup h
  obtain ⟨resend, tries, htlink⟩ := takeLink_shows (s := x) (p := p) hnak
  rw [if_pos (by simp [hc, hm]), goodCodeword_idle hi] at he
  refine ⟨_, he, ?_⟩
  beta_reduce
  rw [htlink, hlink]
  refine ⟨rfl, rfl, fun v hv => ?_⟩
  rw [nthN, List.getD_eq_getElem _ _ (by simpa using hv), List.getElem_map, List.getElem_range]

end Sys2Proof.Machine
end

section
set_option Elab.async false
/-! PROOF. Markers and retries, and codewords together (O54). -/

namespace Sys2Proof.Machine

variable {s t u : State} {ks ks' : List Nat}

/-! ### Markers (R296 to R298, R309) -/

theorem port_edge (l : Nat) : l / 4 / 3 = l / 12 := Nat.div_div_eq_div_mul l 4 3

/-- The registers in which what a lane reads before its marker is counted. -/
def readKeys (l : Nat) : List Nat := [lnkLane l Reg.LNK_L_STUFF_VIOL, lnkReg (l / 12) Reg.LNK_ERR_FLAGS, lnkReg (l / 12) Reg.LNK_FAULT_COUNT]

theorem lnkPort_notMem_readKeys (p l : Nat) {o : Nat} (h : 0x400 ≤ o) (h' : o < 0x500) : lnkPort p o ∉ readKeys l := by
  simp only [readKeys, List.mem_cons, List.not_mem_nil, or_false, not_or]
  exact ⟨lnkPort_ne_lnkLane _ _ h' (by decide) (by decide), (lnkReg_ne_lnkPort _ _ (by decide) h h').symm,
    (lnkReg_ne_lnkPort _ _ (by decide) h h').symm⟩

theorem laneState_notMem_readKeys (l : Nat) : lnkLane l Reg.LNK_L_STATE ∉ readKeys l := by
  simp only [readKeys, List.mem_cons, List.not_mem_nil, or_false, not_or]
  exact ⟨lnkLane_ne l (by decide), (lnkReg_ne_lnkLane _ _ (by decide) (by decide) (by decide)).symm,
    (lnkReg_ne_lnkLane _ _ (by decide) (by decide) (by decide)).symm⟩

/-- A lane that has read a line: its run is the line's, and the rest of it stays. -/
structure HasRead (l : Nat) (s t : State) : Prop where
  only : LinksOnly s t (readKeys l)
  lanes : (t.linkAt (l / 4)).lanes.length = 4
  lane : ∃ level run, t.laneAt l = { s.laneAt l with rxLevel := level, rxRun := run }

theorem lineRead_reads {l : Nat} (level run viol : Nat) (h4 : (s.linkAt (l / 4)).lanes.length = 4) :
    HasRead l s (s.lineRead l level run viol) := by
  obtain ⟨u, hu⟩ : ∃ u, (s.mapLane l fun y => { y with rxLevel := level, rxRun := run }) = u := ⟨_, rfl⟩
  have hflag : LinksOnly s u (readKeys l) := hu ▸ .mapLane ..
  have hlane : u.laneAt l = { s.laneAt l with rxLevel := level, rxRun := run } := hu ▸ laneAt_mapLane _ h4
  have hlanes : (u.linkAt (l / 4)).lanes.length = 4 := hu ▸ (lanes_mapLane ..).trans h4
  have hread : OnlyRegs u (s.lineRead l level run viol) (readKeys l) := by
    have hflagged := lnkFlag_onlyRegs (u.bump (lnkLane l Reg.LNK_L_STUFF_VIOL) viol) (l / 4) 2
    rw [port_edge] at hflagged
    rw [State.lineRead, hu]
    exact .ite (.refl ..) ((OnlyRegs.wr _ _ _ (by simp [readKeys])).trans (hflagged.mono (by simp [readKeys])))
  exact ⟨hflag.trans (.ofRegs hread), by rwa [linkAt_of_links hread.links_eq], level, run, by rw [laneAt_of_links hread.links_eq, hlane]⟩

/-- A lane whose record has changed, with its marker lock written. -/
def State.laneMarked (s : State) (l : Nat) (f : LaneState → LaneState) (lock : Nat) : State :=
  (s.mapLane l f).wrFld (lnkLane l Reg.LNK_L_STATE) 30 30 lock

theorem laneMarked_shows {l : Nat} (f : LaneState → LaneState) (lock : Nat) (h4 : (s.linkAt (l / 4)).lanes.length = 4) :
    LinksOnly s (s.laneMarked l f lock) [lnkLane l Reg.LNK_L_STATE] ∧ (s.laneMarked l f lock).laneAt l = f (s.laneAt l) ∧
    (s.laneMarked l f lock).aligned l = lock.testBit 0 := by
  have hregs : OnlyRegs (s.mapLane l f) (s.laneMarked l f lock) [lnkLane l Reg.LNK_L_STATE] := .wrFld _ _ _ _ (by simp)
  refine ⟨(LinksOnly.mapLane ..).trans (.ofRegs hregs), by rw [laneAt_of_links hregs.links_eq, laneAt_mapLane f h4], ?_⟩
  rw [State.aligned, State.laneMarked, rbit_wrFld _ _ _ _ _ _ (by decide) (by decide), if_pos (by decide)]

theorem markerFound_good (s : State) (l block stuffs : Nat) : s.markerFound l .good block stuffs =
    s.laneMarked l (fun x => { x with badMarkers := 0, rxAt := 0, rxBlock := block, rxStuffed := stuffs }) 1 := rfl

theorem markerFound_bad (s : State) (l block stuffs : Nat) : s.markerFound l .bad block stuffs =
    if 3 ≤ (s.laneAt l).badMarkers + 1 then (s.laneMarked l (fun x => { x with
      badMarkers := (s.laneAt l).badMarkers + 1, rxAt := 0, rxBlock := (x.rxBlock + 1) % 65536, rxStuffed := stuffs }) 0).portFail (l / 4) 3
    else s.laneMarked l (fun x => { x with
      badMarkers := (s.laneAt l).badMarkers + 1, rxAt := 0, rxBlock := (x.rxBlock + 1) % 65536, rxStuffed := stuffs }) 0 := by
  simp only [State.markerFound, State.laneMarked]

theorem aligned_of_rd {l : Nat} (h : t.rd (lnkLane l Reg.LNK_L_STATE) = s.rd (lnkLane l Reg.LNK_L_STATE)) : t.aligned l = s.aligned l :=
  rbit_of_rd h 30

/-- In deskew a lane aligns on the first good marker. -/
theorem markerCheck_aligns {l : Lane} (line : List Nat) (hp : s.portState (l / 4) = 4) (ha : s.aligned l = false)
    (h4 : (s.linkAt (l / 4)).lanes.length = 4) (d : List Nat × Nat × Nat × Nat)
    (hd : destuff (s.laneAt l).rxLevel (s.laneAt l).rxRun line = d) (vs : List Nat) (hvs : d.1.drop (d.1.length - 64) = vs) :
    Completes (exec (.markerCheck l line) s) fun t => t.aligned l = (markerOf vs == .good) ∧
      (markerOf vs = .good → (t.laneAt l).rxAt = 0 ∧ (t.laneAt l).rxBlock = markerBlock vs) ∧
      t = { s with links := t.links, regs := t.regs } := by
  obtain ⟨u, hu⟩ : ∃ u, s.lineRead l d.2.1 d.2.2.1 d.2.2.2 = u := ⟨_, rfl⟩
  have hread : HasRead l s u := hu ▸ lineRead_reads _ _ _ h4
  have he : exec (.markerCheck l line) s = .next (if markerOf vs = .good then u.markerFound l .good (markerBlock vs) 0 else u) := by
    show execMarkerCheck l line s = _
    rw [execMarkerCheck, if_pos ⟨hp, by simp [ha]⟩]
    simp only [hd, hvs, hu]
  by_cases hg : markerOf vs = .good
  · rw [if_pos hg, markerFound_good] at he
    obtain ⟨honly, hlane, hlock⟩ := laneMarked_shows (l := l)
      (fun x => { x with badMarkers := 0, rxAt := 0, rxBlock := markerBlock vs, rxStuffed := 0 }) 1 hread.lanes
    refine ⟨_, he, ?_, fun _ => ⟨congrArg LaneState.rxAt hlane, congrArg LaneState.rxBlock hlane⟩,
      ((hread.only.mono (List.subset_append_left _ _)).trans (honly.mono (List.subset_append_right _ _))).frame⟩
    rw [hlock, hg]
    rfl
  · rw [if_neg hg] at he
    refine ⟨_, he, ?_, fun h => absurd h hg, hread.only.frame⟩
    rw [aligned_of_rd (hread.only.kept _ (laneState_notMem_readKeys l)), ha, beq_false_of_ne hg]

/-- Where a lane of a port that is up expects a marker, it takes what it finds. -/
theorem markerCheck_finds {l : Lane} {line vs : List Nat} {stuffs viol level run : Nat} (hp : s.portUp (l / 4) = true)
    (hi : (s.laneAt l).rxIdle = false) (h4 : (s.linkAt (l / 4)).lanes.length = 4)
    (h : (s.laneAt l).takeMarker line = some (vs, stuffs, viol, level, run)) :
    ∃ u, HasRead l s u ∧ exec (.markerCheck l line) s = .next (u.markerFound l (markerOf vs) (markerBlock vs) stuffs) := by
  refine ⟨_, lineRead_reads level run viol h4, ?_⟩
  have h56 := portUp_iff.1 hp
  show execMarkerCheck l line s = _
  rw [execMarkerCheck, if_neg (by omega), if_neg (by simp [hp])]
  simp only [h, hi, Bool.false_eq_true, if_false]

theorem HasRead.portUp_eq {l : Nat} (h : HasRead l s t) : t.portUp (l / 4) = s.portUp (l / 4) :=
  portUp_of_rd (h.only.kept _ (lnkPort_notMem_readKeys _ _ (by decide) (by decide)))

theorem HasRead.portState_eq {l : Nat} (h : HasRead l s t) : t.portState (l / 4) = s.portState (l / 4) :=
  portState_of_rd (h.only.kept _ (lnkPort_notMem_readKeys _ _ (by decide) (by decide)))

theorem HasRead.badMarkers_eq {l : Nat} (h : HasRead l s t) : (t.laneAt l).badMarkers = (s.laneAt l).badMarkers := by
  obtain ⟨level, run, hlane⟩ := h.lane
  rw [hlane]

/-- An idle marker puts the direction to sleep. -/
theorem markerFound_idle {l : Nat} (block stuffs : Nat) (hp : s.portUp (l / 4) = true) (h4 : (s.linkAt (l / 4)).lanes.length = 4) :
    let t := s.markerFound l .idle block stuffs
    (t.linkAt (l / 4)).idleRx = true ∧ (t.laneAt l).badMarkers = 0 ∧ (t.laneAt l).rxIdle = true ∧ t.portState (l / 4) = 6 := by
  obtain ⟨v, hv⟩ : ∃ v, (s.mapLane l fun x => { x with badMarkers := 0, rxIdle := true }) = v := ⟨_, rfl⟩
  have hlane : v.laneAt l = { s.laneAt l with badMarkers := 0, rxIdle := true } := hv ▸ laneAt_mapLane _ h4
  obtain ⟨w, hw⟩ : ∃ w, v.setLink (l / 4) { v.linkAt (l / 4) with idleRx := true } = w := ⟨_, rfl⟩
  have hlink : w.linkAt (l / 4) = { v.linkAt (l / 4) with idleRx := true } := hw ▸ linkAt_setLink_same ..
  have hlinks : (w.setPortState (l / 4) 6).links = w.links := (setPortState_onlyRegs ..).links_eq
  have htlane : (w.setPortState (l / 4) 6).laneAt l = v.laneAt l := by
    rw [laneAt_of_links hlinks, State.laneAt, hlink, State.laneAt]
  have he : s.markerFound l .idle block stuffs = w.setPortState (l / 4) 6 := by
    simp only [State.markerFound, if_pos hp, hv, hw]
  rw [he]
  refine ⟨?_, ?_, ?_, portState_setPortState _ _ (by decide)⟩
  · rw [linkAt_of_links hlinks, hlink]
  · rw [htlane, hlane]
  · rw [htlane, hlane]

theorem markerCheck_shows {l : Lane} {line vs : List Nat} {stuffs viol level run : Nat} (hp : s.portUp (l / 4) = true)
    (hi : (s.laneAt l).rxIdle = false) (h4 : (s.linkAt (l / 4)).lanes.length = 4)
    (h : (s.laneAt l).takeMarker line = some (vs, stuffs, viol, level, run)) :
    (markerOf vs = .good → Completes (exec (.markerCheck l line) s) fun t =>
      (t.laneAt l).badMarkers = 0 ∧ t.rbit (lnkLane l Reg.LNK_L_STATE) 30 = true ∧ (t.laneAt l).rxAt = 0 ∧
      (t.laneAt l).rxBlock = markerBlock vs ∧ t = { s with links := t.links, regs := t.regs }) ∧
    (markerOf vs = .idle → Completes (exec (.markerCheck l line) s) fun t =>
      (t.linkAt (l / 4)).idleRx = true ∧ (t.laneAt l).badMarkers = 0 ∧ (t.laneAt l).rxIdle = true ∧ t.portState (l / 4) = 6) ∧
    (markerOf vs = .bad → (s.laneAt l).badMarkers < 2 → Completes (exec (.markerCheck l line) s) fun t =>
      (t.laneAt l).badMarkers = (s.laneAt l).badMarkers + 1 ∧ t.portState (l / 4) = s.portState (l / 4)) ∧
    (markerOf vs = .bad → 2 ≤ (s.laneAt l).badMarkers → Completes (exec (.markerCheck l line) s) fun t =>
      ∃ u : State, t = u.portDown (l / 4) ∧ u.rbit (lnkReg (l / 12) Reg.LNK_ERR_FLAGS) 3 = true ∧
        u = { s with regs := u.regs, links := u.links } ∧ RegsKept s u [lnkLane l Reg.LNK_L_STATE,
          lnkLane l Reg.LNK_L_STUFF_VIOL, lnkReg (l / 12) Reg.LNK_ERR_FLAGS, lnkReg (l / 12) Reg.LNK_FAULT_COUNT]) := by
  obtain ⟨u, hread, he⟩ := markerCheck_finds hp hi h4 h
  have hkeys : readKeys l ⊆ lnkLane l Reg.LNK_L_STATE :: readKeys l := List.subset_cons_self ..
  refine ⟨fun hg => ?_, fun hg => ⟨_, he, ?_⟩, fun hg hb => ?_, fun hg hb => ?_⟩
  · rw [hg, markerFound_good] at he
    obtain ⟨honly, hlane, hlock⟩ := laneMarked_shows (l := l)
      (fun x => { x with badMarkers := 0, rxAt := 0, rxBlock := markerBlock vs, rxStuffed := stuffs }) 1 hread.lanes
    exact ⟨_, he, congrArg LaneState.badMarkers hlane, hlock, congrArg LaneState.rxAt hlane, congrArg LaneState.rxBlock hlane,
      ((hread.only.mono hkeys).trans (honly.mono (by simp))).frame⟩
  · rw [hg]
    exact markerFound_idle _ _ (hread.portUp_eq.trans hp) hread.lanes
  · obtain ⟨honly, hlane, -⟩ := laneMarked_shows (l := l) (fun x => { x with
      badMarkers := (u.laneAt l).badMarkers + 1, rxAt := 0, rxBlock := (x.rxBlock + 1) % 65536, rxStuffed := stuffs }) 0 hread.lanes
    rw [hg, markerFound_bad, if_neg (by rw [hread.badMarkers_eq]; omega)] at he
    refine ⟨_, he, (congrArg LaneState.badMarkers hlane).trans (by rw [hread.badMarkers_eq]), ?_⟩
    rw [portState_of_rd (honly.kept _ (by simpa using lnkPort_ne_lnkLane _ _ (by decide) (by decide) (by decide))), hread.portState_eq]
  · obtain ⟨honly, -, -⟩ := laneMarked_shows (l := l) (fun x => { x with
      badMarkers := (u.laneAt l).badMarkers + 1, rxAt := 0, rxBlock := (x.rxBlock + 1) % 65536, rxStuffed := stuffs }) 0 hread.lanes
    rw [hg, markerFound_bad, if_pos (by rw [hread.badMarkers_eq]; omega)] at he
    obtain ⟨v, hv⟩ : ∃ v, u.laneMarked l (fun x => { x with
      badMarkers := (u.laneAt l).badMarkers + 1, rxAt := 0, rxBlock := (x.rxBlock + 1) % 65536, rxStuffed := stuffs }) 0 = v := ⟨_, rfl⟩
    rw [hv] at he honly
    have hflag := lnkFlag_onlyRegs v (l / 4) 3
    have hshows := lnkFlag_shows v (l / 4) (i := 3) (by decide)
    rw [port_edge] at hflag hshows
    have hall : LinksOnly s (v.lnkFlag (l / 4) 3) (lnkLane l Reg.LNK_L_STATE :: readKeys l) :=
      ((hread.only.mono hkeys).trans (honly.mono (by simp))).trans (LinksOnly.mono (.ofRegs hflag) (by simp [readKeys]))
    exact ⟨_, he, v.lnkFlag (l / 4) 3, rfl, hshows, hall.frame, hall.kept⟩

/-! ### Retries (R300) -/

/-- A retry as counted, with its flag and its time, before it is known whether the port goes on. -/
def State.retryCounted (s : State) (p : Nat) : State :=
  ({ (s.bump (lnkPort p Reg.LNK_P_RETRIES) 1).lnkFlag p 0 with free := ((s.bump (lnkPort p Reg.LNK_P_RETRIES) 1).lnkFlag p 0).free + 1 } :
    State).wrMax (lnkPort p Reg.LNK_P_RETRY_MAX_NS) (Config.elapsed ((s.bump (lnkPort p Reg.LNK_P_RETRIES) 1).lnkFlag p 0).free % 2 ^ 32)

/-- The registers in which a retry is counted. -/
def retryKeys (p : Nat) : List Nat := [lnkPort p Reg.LNK_P_RETRIES, lnkPort p Reg.LNK_P_RETRY_MAX_NS,
  lnkReg (p / 3) Reg.LNK_ERR_FLAGS, lnkReg (p / 3) Reg.LNK_FAULT_COUNT]

theorem retryCounted_shows (s : State) (p : Nat) :
    s.retryCounted p = { s with regs := (s.retryCounted p).regs, free := s.free + 1 } ∧ RegsKept s (s.retryCounted p) (retryKeys p) ∧
    (s.retryCounted p).rd (lnkPort p Reg.LNK_P_RETRIES) = s.rd (lnkPort p Reg.LNK_P_RETRIES) + 1 := by
  obtain ⟨u, hu⟩ : ∃ u, s.bump (lnkPort p Reg.LNK_P_RETRIES) 1 = u := ⟨_, rfl⟩
  have hregs : OnlyRegs s u (retryKeys p) := hu ▸ .wr _ _ _ (by simp [retryKeys])
  obtain ⟨v, hv⟩ : ∃ v, u.lnkFlag p 0 = v := ⟨_, rfl⟩
  have hflag : OnlyRegs s v (retryKeys p) := hregs.trans ((hv ▸ lnkFlag_onlyRegs u p 0).mono (by simp [retryKeys]))
  obtain ⟨w, hw⟩ : ∃ w : State, { v with free := v.free + 1 } = w := ⟨_, rfl⟩
  obtain ⟨ns, hns⟩ : ∃ ns, Config.elapsed v.free % 2 ^ 32 = ns := ⟨_, rfl⟩
  have hmax : OnlyRegs w (w.wrMax (lnkPort p Reg.LNK_P_RETRY_MAX_NS) ns) [lnkPort p Reg.LNK_P_RETRY_MAX_NS] :=
    wrMax_onlyRegs ..
  have hwrd (k : Nat) : w.rd k = v.rd k := hw ▸ rfl
  have hfree : v.free = s.free := (congrArg State.free hflag.1).trans rfl
  have hwframe : w = { s with regs := w.regs, free := s.free + 1 } := by
    rw [← hw, hfree]
    exact congrArg (fun x : State => { x with free := s.free + 1 }) hflag.1
  have he : s.retryCounted p = w.wrMax (lnkPort p Reg.LNK_P_RETRY_MAX_NS) ns := by rw [State.retryCounted, hu, hv, hw, hns]
  rw [he]
  refine ⟨?_, fun k hk => ?_, ?_⟩
  · exact hmax.1.trans (congrArg (fun x : State => { x with regs := (w.wrMax (lnkPort p Reg.LNK_P_RETRY_MAX_NS) ns).regs }) hwframe)
  · exact (hmax.2 k fun hm => hk (by simp [retryKeys, List.mem_singleton.1 hm])).trans ((hwrd k).trans (hflag.2 k hk))
  · rw [hmax.2 _ (by simpa using lnkPort_ne p (by decide)), hwrd, ← hv, lnkFlag_rd_port _ _ _ _ (by decide) (by decide), ← hu, rd_bump_one]

theorem retry_eq (s : State) (p : Nat) (seqs : List Nat) : s.retry p seqs =
    if (s.retryCounted p).fld (lnkPort p Reg.LNK_P_RETRY_LIMIT) 4 0 ≤ (s.linkAt p).tries + 1 then (s.retryCounted p).portFail p 4
    else (s.retryCounted p).setLink p { s.linkAt p with resend := seqs, tries := (s.linkAt p).tries + 1 } := by
  rw [State.retry, State.retryCounted]

/-- The retry timer sends the replay buffer again, below its limit; at the limit the port goes down. -/
theorem retryTimerExpiry_retries {p : Port} (hup : s.portUp p = true) (hr : (s.linkAt p).replay ≠ []) :
    Completes (exec (.retryTimerExpiry p) s) fun t =>
      ((s.linkAt p).tries + 1 < s.fld (lnkPort p Reg.LNK_P_RETRY_LIMIT) 4 0 →
        t.linkAt p = { s.linkAt p with resend := (s.linkAt p).replay.map (·.seq), tries := (s.linkAt p).tries + 1 } ∧
        t.rd (lnkPort p Reg.LNK_P_RETRIES) = s.rd (lnkPort p Reg.LNK_P_RETRIES) + 1) ∧
      (s.fld (lnkPort p Reg.LNK_P_RETRY_LIMIT) 4 0 ≤ (s.linkAt p).tries + 1 →
        ∃ u : State, t = u.portDown p ∧ u.rbit (lnkReg (p / 3) Reg.LNK_ERR_FLAGS) 4 = true ∧
          u = { s with regs := u.regs, free := s.free + 1 } ∧ RegsKept s u [lnkPort p Reg.LNK_P_RETRIES,
            lnkPort p Reg.LNK_P_RETRY_MAX_NS, lnkReg (p / 3) Reg.LNK_ERR_FLAGS, lnkReg (p / 3) Reg.LNK_FAULT_COUNT]) := by
  obtain ⟨hframe, hkept, hretries⟩ := retryCounted_shows s p
  have hlimit : (s.retryCounted p).fld (lnkPort p Reg.LNK_P_RETRY_LIMIT) 4 0 = s.fld (lnkPort p Reg.LNK_P_RETRY_LIMIT) 4 0 :=
    fld_of_key (hkept _ (by
      simp only [retryKeys, List.mem_cons, List.not_mem_nil, or_false, not_or]
      exact ⟨lnkPort_ne p (by decide), lnkPort_ne p (by decide), (lnkReg_ne_lnkPort _ _ (by decide) (by decide) (by decide)).symm,
        (lnkReg_ne_lnkPort _ _ (by decide) (by decide) (by decide)).symm⟩)) 4 0
  have he : exec (.retryTimerExpiry p) s = .next (s.retry p ((s.linkAt p).replay.map (·.seq))) := by
    show execRetryTimerExpiry p s = _
    rw [execRetryTimerExpiry, if_neg (by simp [hup, hr])]
  rw [retry_eq, hlimit] at he
  obtain ⟨v, hv⟩ : ∃ v, s.retryCounted p = v := ⟨_, rfl⟩
  rw [hv] at he hframe hkept hretries
  refine ⟨_, he, fun hlt => ?_, fun hle => ?_⟩
  · rw [if_neg (by omega)]
    exact ⟨linkAt_setLink_same .., (rd_setLink ..).trans hretries⟩
  · rw [if_pos hle]
    have hflag := lnkFlag_onlyRegs v p 4
    exact ⟨v.lnkFlag p 4, rfl, lnkFlag_shows v p (by decide),
      hflag.1.trans (congrArg (fun x : State => { x with regs := (v.lnkFlag p 4).regs }) hframe),
      fun k hk => (hflag.2 k fun hm => hk (by simp only [List.mem_cons] at hm ⊢; tauto)).trans (hkept k hk)⟩

/-! ### Together -/

/-- Settles O54: a case for each thing a port sends and receives, through the record that the port and its lanes are left with. -/
theorem codewordsComplete : Obligations.CodewordsComplete := by
  unfold Obligations.CodewordsComplete
  refine ⟨fun p shaped s hr => codewordTransmit_sends hr, fun p lines c s u hup h => ?_, fun l line s hp ha h4 => ?_,
    fun l line vs stuffs viol level run s hp hi h4 h => markerCheck_shows hp hi h4 h, fun p s hup => ?_⟩
  · exact ⟨codewordReceive_refused hup h, fun hc hm hi hseq => codewordReceive_unexpected hup h hc hm hi hseq,
      fun hc hm hi hseq hnak => codewordReceive_expected hup h hc hm hi hseq hnak,
      fun hc hm hi hnak => codewordReceive_idle hup h hc hm hi hnak⟩
  · exact markerCheck_aligns line hp ha h4 _ rfl _ rfl
  · exact ⟨retryTimerExpiry_retries hup, fun ht hq hr hi => idleTimerExpiry_sleeps hup ht hq hr hi, fun hi hq => idleExit_wakes hup hi hq⟩

end Sys2Proof.Machine
end
